-- ==== Sys2Proof/Word.lean ====
section
/-! DEFINITION. The word types of the module (R7: little-endian, bit 0 the least significant) and the plainest
arithmetic over them. -/

namespace Sys2Proof

abbrev Byte := BitVec 8
/-- The 64-bit set-up register of R486. -/
abbrev Word := BitVec 64
/-- An IEEE 754 binary32 value by its bits (R84). -/
abbrev F32 := BitVec 32
/-- Rack in the high byte, module in the low byte (R201). -/
abbrev ModuleId := BitVec 16

/-- A sparse table: keys strictly rising. One canonical form, so that equal tables are equal data. -/
abbrev Table (α : Type) := List (Nat × α)

/-- ceil(a ÷ b). -/
def ceilDiv (a b : Nat) : Nat := (a + b - 1) / b

/-- Field [hi:lo] of a raw structure, as an unsigned integer (R7). -/
def fieldOf {w : Nat} (raw : BitVec w) (hi lo : Nat) : Nat := (raw.toNat >>> lo) % 2 ^ (hi + 1 - lo)

/-- One bit of a raw structure. -/
def bitOf {w : Nat} (raw : BitVec w) (i : Nat) : Bool := raw.toNat.testBit i

/-- True when every bit of [hi:lo] is 0 (the "Must be 0" of the layouts). -/
def zeroAt {w : Nat} (raw : BitVec w) (hi lo : Nat) : Bool := fieldOf raw hi lo == 0

/-- The set bits of a bit map, rising, below `n`. -/
def setBits (m n : Nat) : List Nat := (List.range n).filter m.testBit

end Sys2Proof
end

