-- ==== Sys2Proof/Syntax.lean ====
section
/-! DEFINITION. The commands of the module: one constructor of `Instr` per row of spec/opcode_table.json, with the
operands the manual gives the row, and the plain data those operands carry. A row that stands for a host descriptor
carries the stamped descriptor as the ring delivered it; a row that stands for a message carries the message's raw
headers; a row that stands for a detection carries what was detected. -/

namespace Sys2Proof

/-- A time stamp (n, d) (R31): tick number and nanosecond offset. -/
structure Stamp where
  tick : Nat
  off : Nat
  deriving DecidableEq, Repr, Inhabited

/-- The two stock codes (R2). -/
inductive Stock where | mx | mc
  deriving DecidableEq, Repr, Inhabited

/-- Status codes, in the order of their values (R379). -/
inductive Status where
  | ok | cancelled | expired | tallyEmpty | epochStale | pageMissing | blockCorrupt | tierLate | noCapacity
  | badDescriptor | notFound | windowRevoked | unitQuarantined | rebuilt | benchHalted | alreadyDone
  deriving DecidableEq, Repr, Inhabited

/-- The function that makes an access: the physical function or virtual function b (R365). -/
inductive Fn where | pf | vf (b : Nat)
  deriving DecidableEq, Repr, Inhabited

/-- Management transports, in the order of R473. -/
inductive Transport where | mirror | i3c | vdm | doe
  deriving DecidableEq, Repr, Inhabited

/-- Request states (R204). -/
inductive ReqState where | prefill | hauling | generating | tallyWait | suspended | rebuilding | held | ended
  deriving DecidableEq, Repr, Inhabited

/-- Conversation states (R209). -/
inductive ConvState where | active | idle | parked
  deriving DecidableEq, Repr, Inhabited

/-- Page states (R157). -/
inductive PageState where | opened | sealing | sealed | replica | missing | lost
  deriving DecidableEq, Repr, Inhabited

/-- Tiers as a page-table entry names them (R161). -/
inductive Tier where | face | hbm | lpddr | flash | remote
  deriving DecidableEq, Repr, Inhabited

/-- Purposes of a haul (R212). -/
inductive Purpose where | handoff | park | pull | restore
  deriving DecidableEq, Repr, Inhabited

/-- Protective-loop causes of PW_OVERRIDE (R458). -/
inductive OvCause where | tj | current | droop
  deriving DecidableEq, Repr, Inhabited

/-- Unit kinds of an error entry (R409). -/
inductive UnitKind where
  | none | engine | cell | token | face | hbm | lpddr | flash | link | core | pcie | sensor
  deriving DecidableEq, Repr, Inhabited

/-- A unit of the module: its kind and index (R409). -/
structure UnitId where
  kind : UnitKind
  index : Nat
  deriving DecidableEq, Repr, Inhabited

/-- A block as it lies (R107): its 256-bit header (R108) and its payload bytes. -/
structure Block where
  hdr : BitVec 256 := 0
  payload : List Byte := []
  deriving DecidableEq, Repr, Inhabited

/-- A page-table entry (R161) with the two blocks of its page (R151). `bench` is the bench whose slices hold a local
page, `cell` the cell of its face slice (R142), `pageId` the module's own handle of a local page or extent and the
holder's page ID otherwise, `shared` the shared bit of a page held elsewhere, `back` the state before MISSING (R158),
`refs` the reference count at the holder (R168), `lastRead` the tick of the last read (R262). -/
structure Entry where
  group : Nat := 0
  layer : Nat := 0
  head : Nat := 0
  rows : Nat := 0
  cls : Nat := 0
  state : PageState := .opened
  back : PageState := .opened
  tier : Tier := .hbm
  holder : ModuleId := 0
  bench : Nat := 0
  cell : Option Nat := none
  pageId : Nat := 0
  extentOff : Nat := 0
  shared : Bool := false
  refs : Nat := 1
  lastRead : Nat := 0
  key : Block := default
  value : Block := default
  deriving DecidableEq, Repr, Inhabited

/-- A record block of record mode as it lies (R174 to R176): its header, its payload bytes, and the tier of its slot.
-/
structure RecBlock where
  hdr : BitVec 256 := 0
  payload : List Byte := []
  tier : Tier := .hbm
  deriving DecidableEq, Repr, Inhabited

/-- The pending area of a speculating request (R165): slot class and tier of its blocks, and the candidate positions
in it. -/
structure Pending where
  cls : Nat := 2
  tier : Tier := .face
  rows : Nat := 0
  deriving DecidableEq, Repr, Inhabited

/-- A token-log entry (R216). -/
structure LogTok where
  tok : Nat
  gen : Bool
  deriving DecidableEq, Repr, Inhabited

/-- A token record (R245); the phase is formed when it is written (R244). -/
structure TokRec where
  position : Nat := 0
  detail : Nat := 0
  token : Nat := 0
  status : Status := .ok
  stepIndex : Nat := 0
  probe : Bool := false
  final : Bool := false
  valid : Bool := false
  tickLo : Nat := 0
  deriving DecidableEq, Repr, Inhabited

/-- An automaton table as read (R234). -/
structure Automaton where
  hdr : BitVec 256
  states : List (BitVec 64)
  ranges : List (BitVec 128)
  deriving DecidableEq, Repr, Inhabited

/-- A request (R198, R204) with its sampler state (R241). `left` is the state it left when HAULING or SUSPENDED.
`carried` is the handle of the carried row (R200), whose FP32 values are free values of Config. -/
structure Req where
  key : Nat := 0
  conv : Nat := 0
  bench : Nat := 0
  state : ReqState := .prefill
  left : ReqState := .prefill
  inputLeft : Nat := 0
  rebuildLeft : Nat := 0
  firstInput : Nat := 0
  inputCount : Nat := 0
  maxNew : Nat := 0
  answers : Nat := 0
  deadline : Option Stamp := none
  dest : Option (ModuleId × Nat) := none
  releaseOnEnd : Bool := false
  speculate : Bool := false
  params : BitVec 1536 := 0
  auto : Option Automaton := none
  autoState : Nat := 0
  carried : Nat := 0
  admitted : Stamp := default
  brought : Stamp := default
  passed : Nat := 0
  recovered : Option Nat := none
  waitTok : List TokRec := []
  waitHold : Bool := false
  ckptTick : Option Nat := none
  ckptAcked : Option Nat := none
  ringAddr : Nat := 0
  producer : Nat := 0
  deriving DecidableEq, Repr, Inhabited

/-- Token-log segment kinds (R216). -/
inductive SegKind where | tokens | params | request | fin
  deriving DecidableEq, Repr, Inhabited

/-- A token-log segment (R216), with the record flag of its sequence, which travels beside it (log entry 135), and the
keeper in force when it was sealed. -/
structure Segment where
  conv : Nat := 0
  req : Nat := 0
  tick : Nat := 0
  first : Nat := 0
  seq : Nat := 0
  kind : SegKind := .tokens
  toks : List LogTok := []
  record : Option Req := none
  answers : Nat := 0
  status : Status := .ok
  recording : Bool := false
  keeper : ModuleId := 0
  deriving DecidableEq, Repr, Inhabited

/-- A segment as a message carries it (R216): its header, its entries with their padding, and the record flag that
travels beside it (log entry 135). -/
structure SegMsg where
  hdr : BitVec 384
  body : List Byte
  recording : Bool := false
  deriving DecidableEq, Repr, Inhabited

/-- A conversation: its page-table header (R160), entry array, record blocks, pending area (R165), token log (R216)
and keeper (R217); `homeAt` is the home a holder table knows, `copied` lists the groups whose replicas went to the
keeper (R220). -/
structure Conv where
  key : Nat := 0
  bench : Nat := 0
  state : ConvState := .idle
  home : Bool := true
  req : Option Nat := none
  length : Nat := 0
  fpTag : Nat := 0
  layers : Nat := 0
  kvHeads : Nat := 0
  lastTick : Nat := 0
  shareGroups : Nat := 0
  shareKey : Nat := 0
  record : Bool := false
  stripe : Option (BitVec 384) := none
  entries : List Entry := []
  recs : List RecBlock := []
  pend : Option Pending := none
  homeAt : ModuleId := 0
  log : List LogTok := []
  newSegs : List Segment := []
  segs : List Segment := []
  segSent : Option Stamp := none
  nextSeq : Nat := 0
  acked : Nat := 0
  keeper : ModuleId := 0
  guarded : Bool := true
  frozen : Option Nat := none
  copied : List Nat := []
  deriving DecidableEq, Repr, Inhabited

/-- A codebook as it lies in a section (R88): its 128-bit header and the bytes after it. -/
structure Codebook where
  hdr : BitVec 128 := 0
  body : List Byte := []
  deriving DecidableEq, Repr, Inhabited

/-- A model package as fetched (R75 to R78, R88, R125, R228, R524, R525). Digests and the signature are results of the
hash and signature functions R25 names, found while reading. `tiles` and `headTiles` are the WEIGHT blocks of WEIGHTS
and of HEADS in section order (R107, R228). -/
structure Package where
  manifest : BitVec 1024 := 0
  dir : List (BitVec 512) := []
  digestsOk : Bool := true
  fingerprintOk : Bool := true
  sigKeyHash : Option (BitVec 256) := none
  sigOk : Bool := true
  books : List Codebook := []
  scalesHdr : BitVec 256 := 0
  tensors : List (BitVec 256) := []
  scales : List F32 := []
  kvHdr : BitVec 256 := 0
  kvBooks : List Codebook := []
  kvScales : List F32 := []
  costHdr : BitVec 256 := 0
  costs : List (BitVec 1024) := []
  headsHdr : BitVec 256 := 0
  tiles : List Block := []
  headTiles : List Block := []
  deriving DecidableEq, Repr, Inhabited

/-- A node record or spoil entry of a shard (R283): elements as stored, adjacency in use. -/
structure VecRec where
  id : Nat := 0
  norm : F32 := 0
  adj : List Nat := []
  elems : List (BitVec 16) := []
  isDelete : Bool := false
  deriving DecidableEq, Repr, Inhabited

/-- A graph or spoil segment (R284). `head`, the shard's header as it stands, its codebook and the bench of the
replica, and `free`, the indices without a node, travel with the graph segments of a copy (log entry 10). -/
structure VecSeg where
  hdr : BitVec 256 := 0
  recs : List VecRec := []
  head : Option (BitVec 512 × Option Codebook × Nat) := none
  free : List Nat := []
  deriving DecidableEq, Repr, Inhabited

/-- The data a descriptor names in host memory (R372). -/
inductive NamedData where
  | none
  | request (params : BitVec 1536) (tokens : List (BitVec 32)) (auto : Option Automaton) (stripe : Option (BitVec 384))
  | search (shards : List (BitVec 128)) (elems : List (BitVec 16))
  | elements (es : List (BitVec 16))
  | shard (hdr : BitVec 512) (book : Option Codebook) (segs : List VecSeg)
  | bytes (bs : List Byte)
  deriving DecidableEq, Repr, Inhabited

/-- A landed descriptor (R32, R370, R373): its landing stamp, ring and ring index, its 512 bits, the data it names,
and whether that data missed the read limit (R372). -/
structure HostDesc where
  stamp : Stamp
  ring : Nat
  index : Nat
  raw : BitVec 512
  data : NamedData := .none
  late : Bool := false
  deriving DecidableEq, Repr, Inhabited

/-- A fabric packet (R312): header and payload bytes. -/
structure Packet where
  hdr : BitVec 256
  payload : List Byte
  deriving DecidableEq, Repr, Inhabited

/-- A window packet (R350): packet header, window header, data. -/
structure WPacket where
  hdr : BitVec 256
  wh : BitVec 256
  data : List Byte
  deriving DecidableEq, Repr, Inhabited

/-- An ask entry (R182): its header, span words, query scales by query head, and int8 query operands by position,
query head and element. -/
structure AskEntry where
  hdr : BitVec 256
  spans : List (BitVec 32)
  scales : List F32
  ops : List Byte
  deriving DecidableEq, Repr, Inhabited

/-- A partial record (R184). -/
structure PartialRec where
  count : Nat
  denLo : F32
  denHi : F32
  m : F32
  num : List F32
  deriving DecidableEq, Repr, Inhabited

/-- An answer entry (R183). -/
structure AnswerEntry where
  hdr : BitVec 256
  mask : List Word
  recs : List PartialRec
  deriving DecidableEq, Repr, Inhabited

/-- What a unit found for a sampled item (R145): the integer sums of an engine's output-channel group, or a cell's
partial records, each with the sums a[i] and maxima m[i] of R103 that the cell computed beside it. -/
inductive ItemResult where
  | sums (xs : List Int)
  | records (rs : List (PartialRec × List (F32 × F32)))
  deriving DecidableEq, Repr, Inhabited

/-- An IDENT record (R308). -/
structure Ident where
  peer : ModuleId
  link : Nat
  linkFits : Bool
  period : Nat
  backstop : Nat
  cutoff : Nat
  epoch : Nat
  requires : Bool
  supports : Bool
  deriving DecidableEq, Repr, Inhabited

/-- Algorithms a requester offers in NEGOTIATE_ALGORITHMS (R437): those the module supports, and any other by a
number. -/
inductive SpdmAlg where | sha3x256 | mldsa65 | mlkem768 | aes256gcm | other (code : Nat)
  deriving DecidableEq, Repr, Inhabited

/-- What the module knows of the tick source a TIME record comes from: its tick fields (R30), its source_prio and its
rack and module (R48). The record itself carries none of them (R305; log entry 134). -/
structure SourceInfo where
  period : Nat
  backstop : Nat
  cutoff : Nat
  prio : Nat
  id : ModuleId
  deriving DecidableEq, Repr, Inhabited

/-- A key message (R440): header, body, and the results of the checks of R441 that need cryptography. -/
structure KeyMsg where
  hdr : BitVec 256
  body : List Byte
  chainOk : Bool
  peerSvn : Nat
  sigOk : Bool
  deriving DecidableEq, Repr, Inhabited

/-- What a DATA message of a haul carries (R213 step 4). -/
inductive HaulPiece where
  | pages (es : List Entry)
  | records (rs : List RecBlock)
  | table (raw : BitVec 512) (es : List (BitVec 128)) (c : Conv)
  | log (segs : List SegMsg)
  | sampler (hdr : BitVec 512) (r : Req)
  deriving DecidableEq, Repr, Inhabited

/-- The body of a haul message after its header (R212). -/
inductive HaulBody where
  | none
  | offer (bytes entries groups : Nat) (record speculate live : Bool)
  | refuse (block : Option Nat)
  | request (pullAll : Bool)
  | data (p : HaulPiece)
  | freed (s : Stamp)
  deriving DecidableEq, Repr, Inhabited

/-- A haul message (R212). -/
structure HaulMsg where
  hdr : BitVec 256
  body : HaulBody
  deriving DecidableEq, Repr, Inhabited

/-- A vector message entry (R298): head, query elements, results (vector_id, distance). -/
structure VecEntry where
  head : BitVec 256
  elems : List (BitVec 16)
  results : List (Nat × F32)
  deriving DecidableEq, Repr, Inhabited

/-- A page named by conversation, group, layer and KV head (R151). -/
structure PageRef where
  conv : Nat
  group : Nat
  layer : Nat
  head : Nat
  deriving DecidableEq, Repr, Inhabited

/-- A management command (R471 to R473): landing stamp, transport, whether it came in a secured session, its header.
-/
structure MgmtCmd where
  stamp : Stamp
  transport : Transport
  session : Bool
  hdr : BitVec 128
  deriving DecidableEq, Repr, Inhabited

/-- A firmware image as received (R394), with the results of the two cryptographic checks of R395. -/
structure Image where
  hdr : BitVec 512
  keyHashOk : Bool
  sigOk : Bool
  digestOk : Bool
  deriving DecidableEq, Repr, Inhabited

/-- What an uncorrectable line held (R276). -/
inductive LineUse where
  | page (p : PageRef) | weight (bench tile : Nat) | tableLine (conv : Nat) | free
  deriving DecidableEq, Repr, Inhabited

/-- The commands of the module: the rows of spec/opcode_table.json, in its order. -/
inductive Instr where
  -- host interface
  | doorbell (t : Stamp) (fn : Fn) (ring off size : Nat) (value : Word)
  | descriptorFetchDone (t : Stamp) (ring index : Nat) (raw : BitVec 512) (data : Option NamedData)
  | badAccess (t : Stamp) (fn : Fn)
  -- models
  | modelLoad (d : HostDesc)
  | modelLoadReplace (d : HostDesc)
  | modelLoadComplete (t : Stamp) (bench : Nat) (pkg : Package)
  | modelUnload (d : HostDesc)
  | drainLimitExpiry (t : Stamp) (bench : Nat)
  | unloadReleaseDone (t : Stamp) (bench : Nat)
  -- requests
  | reqAdmit (d : HostDesc)
  | reqAppend (d : HostDesc)
  | reqCancel (d : HostDesc)
  | reqPark (d : HostDesc)
  | reqParkHaul (d : HostDesc)
  | reqResume (d : HostDesc)
  | reqResumeRebuild (d : HostDesc)
  | reqRelease (d : HostDesc)
  | reqHandoff (d : HostDesc)
  -- vectors
  | vecSearch (d : HostDesc)
  | vecInsert (d : HostDesc)
  | vecDelete (d : HostDesc)
  | vecMergeMerge (d : HostDesc)
  | vecMergeCreate (d : HostDesc)
  | shardCreateDone (t : Stamp) (shard : Nat)
  | vecMergeDrop (d : HostDesc)
  | vecMergeArchive (d : HostDesc)
  | vecMergeRestore (d : HostDesc)
  | shardRestoreDone (t : Stamp) (shard : Nat)
  | vecMergeReplicate (d : HostDesc)
  | shardReplicateDone (t : Stamp) (shard : Nat) (target : ModuleId)
  | vecMergeUnreplicate (d : HostDesc)
  -- windows, queue pairs, remote operations
  | winOpen (d : HostDesc)
  | winRevoke (d : HostDesc)
  | qpCreate (d : HostDesc)
  | qpDestroy (d : HostDesc)
  | qpDestroyAbort (d : HostDesc)
  | rmaWrite (d : HostDesc)
  | rmaRead (d : HostDesc)
  | rmaAdd (d : HostDesc)
  | rmaCas (d : HostDesc)
  | rmaWriteRack (d : HostDesc)
  | rmaReadRack (d : HostDesc)
  | rmaAddRack (d : HostDesc)
  | rmaCasRack (d : HostDesc)
  | fence (d : HostDesc)
  | fenceRack (d : HostDesc)
  -- tallies and streams
  | tallySet (d : HostDesc)
  | tallyDelete (d : HostDesc)
  | streamBind (d : HostDesc)
  | streamUnbind (d : HostDesc)
  | nop (d : HostDesc)
  -- the tick
  | tickStart (t : Stamp)
  | timeMessageSend (t : Stamp)
  | remoteWaitExpiry (t : Stamp) (bench pass layer : Nat)
  | backstop (t : Stamp)
  | shortSightGiveUp (t : Stamp) (req layer gFirst : Nat)
  | cutOff (t : Stamp) (unfinished : List Nat)
  | commit (t : Stamp)
  | deadlineExpiry (t : Stamp) (req : Nat)
  | tallyRefill (t : Stamp) (tally : Nat)
  | checkpointSend (t : Stamp) (req : Nat)
  | checkpointLate (t : Stamp) (req : Nat)
  | doneListExpiry (t : Stamp) (req : Nat)
  | bindingExpiry (t : Stamp) (req : Nat)
  | goodputWindowClose (t : Stamp) (bench : Nat)
  | meterWindowClose (t : Stamp)
  | epochSwitch (t : Stamp)
  | drainWindowEnd (t : Stamp)
  -- tick synchronisation
  | timeRecordReceive (t : Stamp) (link : Nat) (src : Stamp) (hops : Nat) (fields : SourceInfo)
  | beaconReceive (t : Stamp) (link tick off : Nat)
  | sourceTakeover (t : Stamp) (isNext : Bool)
  | syncLostTimeout (t : Stamp)
  | syncHaltTimeout (t : Stamp)
  | delayMeasure (t : Stamp) (link roundTrip : Nat)
  -- links
  | cableInsert (t : Stamp) (cage : Nat)
  | trainingStepDone (t : Stamp) (link : Nat) (lanes : BitVec 2)
  | trainingStepTimeout (t : Stamp) (link : Nat)
  | trainingRetry (t : Stamp) (link : Nat)
  | identReceive (t : Stamp) (link : Nat) (id : Ident)
  | keyHello (t : Stamp) (link : Nat) (m : KeyMsg)
  | keyKem (t : Stamp) (link : Nat) (m : KeyMsg)
  | keyAbort (t : Stamp) (link : Nat) (sent : Bool)
  | refusedRetry (t : Stamp) (link : Nat)
  | flitReceive (t : Stamp) (link : Nat) (hdr : Word) (fecOk crcOk tagOk : Bool)
  | nakRecord (t : Stamp) (link fseq : Nat)
  | creditRecord (t : Stamp) (link req resp xfer win : Nat)
  | laneRecord (t : Stamp) (link errs0 errs1 : Nat) (drop : Option Nat)
  | rekeyRecord (t : Stamp) (link keyIdx fseq : Nat)
  | laneDrop (t : Stamp) (link lane : Nat)
  | laneRetry (t : Stamp) (link : Nat) (success : Bool)
  | keyRollover (t : Stamp) (link : Nat)
  | freshExchange (t : Stamp) (link : Nat)
  | freshExchangeRetry (t : Stamp) (link : Nat)
  | freshExchangeDeadline (t : Stamp) (link : Nat)
  | lanePowerDown (t : Stamp) (link : Nat)
  | lanePowerRestore (t : Stamp) (link : Nat)
  -- fabric packets
  | packetForward (t : Stamp) (link : Nat) (p : Packet)
  | read (t : Stamp) (p : Packet)
  | write (t : Stamp) (p : Packet)
  | add (t : Stamp) (p : Packet)
  | cas (t : Stamp) (p : Packet)
  | fencePacket (t : Stamp) (p : Packet)
  | readResp (t : Stamp) (p : Packet)
  | atomResp (t : Stamp) (p : Packet)
  | fenceDone (t : Stamp) (p : Packet)
  | ack (t : Stamp) (p : Packet)
  | transfer (t : Stamp) (p : Packet)
  | packetReplay (t : Stamp) (dst : ModuleId) (seq : Nat)
  | epochStaleResponse (t : Stamp) (p : Packet)
  | wWrite (t : Stamp) (p : WPacket)
  | wRead (t : Stamp) (p : WPacket)
  | wAdd (t : Stamp) (p : WPacket)
  | wCas (t : Stamp) (p : WPacket)
  | wReadResp (t : Stamp) (p : WPacket)
  | wAtomResp (t : Stamp) (p : WPacket)
  | wAck (t : Stamp) (p : WPacket)
  | wNak (t : Stamp) (p : WPacket)
  | wCredit (t : Stamp) (p : WPacket)
  | wCreditReq (t : Stamp) (p : WPacket)
  | wRetryTimeout (t : Stamp) (qpn : Nat)
  | wAckDeferred (t : Stamp) (qpn : Nat)
  | contextFetchDone (t : Stamp) (qpn : Nat) (ctx : BitVec 2048)
  -- partial attention
  | partialAsk (t : Stamp) (hdr : BitVec 256) (es : List AskEntry)
  | partialBackstopAsk (t : Stamp) (hdr : BitVec 256) (es : List AskEntry)
  | partialRunDone (t : Stamp) (peer : ModuleId) (req layer gFirst : Nat) (sampled : Bool)
  | partialAnswer (t : Stamp) (src : ModuleId) (hdr : BitVec 256) (es : List AnswerEntry)
  | settle (t : Stamp) (src : ModuleId) (hdr : BitVec 256) (es : List (BitVec 128))
  -- hauls, keepers and notices
  | haulRequest (t : Stamp) (m : HaulMsg)
  | haulOffer (t : Stamp) (m : HaulMsg)
  | haulAccept (t : Stamp) (m : HaulMsg)
  | haulRefuse (t : Stamp) (m : HaulMsg)
  | haulData (t : Stamp) (m : HaulMsg)
  | haulStateWritten (t : Stamp) (haul : Nat) (src : ModuleId)
  | haulAck (t : Stamp) (m : HaulMsg)
  | haulFreed (t : Stamp) (m : HaulMsg)
  | haulAbort (t : Stamp) (m : HaulMsg)
  | haulTimeout (t : Stamp) (haul : Nat)
  | haulAckRepeat (t : Stamp) (haul : Nat) (src : ModuleId)
  | haulSourceUnreachable (t : Stamp) (haul : Nat) (src : ModuleId)
  | freedWaitExpiry (t : Stamp)
  | segmentReceive (t : Stamp) (src : ModuleId) (m : SegMsg)
  | segmentAck (t : Stamp) (conv upto : Nat)
  | segmentResend (t : Stamp) (conv : Nat)
  | checkpointReceive (t : Stamp) (src : ModuleId) (req : Req) (table : Conv) (tick : Nat)
  | keeperRefuse (t : Stamp) (conv : Nat)
  | keeperUnreachable (t : Stamp) (keeper : ModuleId)
  | keeperFreeNotice (t : Stamp) (conv : Nat)
  | releaseNotice (t : Stamp) (conv fromGroup : Nat)
  | stateNotice (t : Stamp) (conv : Nat) (st : ConvState)
  | refcountMessage (t : Stamp) (p : PageRef) (seq : Nat) (up : Bool)
  | replicaCopyAck (t : Stamp) (p : PageRef) (holder : ModuleId) (pageId : Nat)
  | primaryFreeNotice (t : Stamp) (p : PageRef)
  | vecAsk (t : Stamp) (hdr : BitVec 256) (es : List VecEntry)
  | vecBackstopAsk (t : Stamp) (hdr : BitVec 256) (es : List VecEntry)
  | vecAnswer (t : Stamp) (src : ModuleId) (hdr : BitVec 256) (es : List VecEntry)
  | vecSegmentReceive (t : Stamp) (seg : VecSeg)
  -- tiers and flash
  | moveCopyDone (t : Stamp) (move : Nat) (sound : Bool)
  | demotionIdle (t : Stamp) (p : PageRef)
  | pressureDemotion (t : Stamp) (bench : Nat) (tier : Tier) (freePm : Nat)
  | repairMoveDone (t : Stamp) (p : PageRef) (key value : Block)
  | flashReadDone (t : Stamp) (readId cls : Nat) (sound : Bool)
  | flashReadDeadline (t : Stamp) (readId : Nat)
  | flashProgramDone (t : Stamp) (writeId : Nat)
  | flashProgramFail (t : Stamp) (block : Nat)
  | flashEraseFail (t : Stamp) (block : Nat)
  | readDisturbRelocate (t : Stamp) (block : Nat)
  | retentionRewrite (t : Stamp) (block : Nat)
  | wearLevel (t : Stamp) (block : Nat)
  | garbageCollect (t : Stamp) (block : Nat)
  | flashWriteHold (t : Stamp)
  | relistDone (t : Stamp)
  | patrolScrub (t : Stamp) (tier : Tier)
  | correctedError (t : Stamp) (tier : Tier) (u : UnitId) (frame : Nat)
  | uncorrectableError (t : Stamp) (tier : Tier) (u : UnitId) (frame : Nat) (use : LineUse)
  | zqCalibration (t : Stamp)
  -- blocks, fits and shadow checking
  | fitDone (t : Stamp) (p : PageRef) (isValue : Bool) (fit : Option Block)
  | blockReject (t : Stamp) (p : PageRef) (isValue : Bool) (cause : Nat)
  | weightBlockReject (t : Stamp) (bench tile cause : Nat)
  | weightReloadDone (t : Stamp) (bench tile : Nat) (copy : Block)
  | shadowRecheckDone (t : Stamp) (item : Nat) (original found : ItemResult)
  | arbitrationDone (t : Stamp) (item : Nat) (found : ItemResult)
  -- control firmware, watchdogs, start-up
  | coreWatchdog (t : Stamp) (core : Nat)
  | planWatchdog (t : Stamp)
  | restartWatchdog (t : Stamp) (otherSlotOk : Bool)
  | bootWatchdog (t : Stamp)
  | coreException (t : Stamp) (core : Nat)
  | firmwareReady (t : Stamp)
  | trialCommit (t : Stamp)
  | hitlessActivation (t : Stamp)
  | inputRise (t : Stamp) (mv : Nat)
  | planStable (t : Stamp)
  | inputUndervoltage (t : Stamp) (mv : Nat)
  | inputOutOfRange (t : Stamp) (mv : Nat)
  | resetN (t : Stamp) (lowNs : Nat)
  | perst (t : Stamp)
  | perstRelease (t : Stamp)
  | flowLoss (t : Stamp)
  | flowRestore (t : Stamp)
  -- power
  | tjThrottle (t : Stamp) (tile deciC : Nat)
  | currentLimit (t : Stamp) (tile : Nat)
  | droop (t : Stamp) (tile : Nat)
  | overrideEnd (t : Stamp) (tile : Nat) (cause : OvCause)
  | thermalShutdown (t : Stamp) (tile : Nat)
  | restRequest (t : Stamp) (fn : Fn)
  | restEntry (t : Stamp)
  | restEntryComplete (t : Stamp)
  | watchSample (t : Stamp) (inletDeciC tjDeciC mv : Nat)
  | wakeComplete (t : Stamp)
  -- Keep mode and read-out
  | keepEnter (c : MgmtCmd)
  | rlKeepCtrlEnter (t : Stamp) (fn : Fn)
  | readoutList (t : Stamp) (fn : Fn)
  | readoutConv (t : Stamp) (fn : Fn)
  | readoutDone (t : Stamp)
  -- register accesses with effects of their own
  | pwResetCtrlWarm (t : Stamp) (fn : Fn)
  | setupLockWrite (t : Stamp) (fn : Fn) (value : Word)
  | bnSetupLockWrite (t : Stamp) (fn : Fn) (bench : Nat) (value : Word)
  | tkNowOffsetRead (t : Stamp)
  | cqDisable (t : Stamp) (fn : Fn) (bench : Nat)
  | ringErrOverrunClear (t : Stamp) (fn : Fn) (bench : Nat) (value : Word)
  | pwOverrideClear (t : Stamp) (fn : Fn) (value : Word)
  | scKeyCtrlErase (t : Stamp) (fn : Fn) (value : Word)
  | registerWrite (t : Stamp) (fn : Fn) (off : Nat) (value : Word)
  | flr (t : Stamp) (fn : Fn)
  | vfEnableChange (t : Stamp) (enable : Bool) (numVfs : Nat)
  | ptmDialogue (t : Stamp) (h : Nat)
  | ideFailure (t : Stamp) (stream : Nat) (tlpOnly : Bool)
  | completionInterrupt (t : Stamp) (bench : Nat)
  | completionRecordDrain (t : Stamp) (bench consumer : Nat)
  -- management
  | mctpControl (t : Stamp) (transport : Transport) (code : Nat) (eid : Nat)
  | readRegs (c : MgmtCmd) (off bytes : Nat)
  | readLog (c : MgmtCmd) (seq : Nat)
  | readMeter (c : MgmtCmd) (seq : Nat)
  | stageBench (c : MgmtCmd) (epoch : Nat) (record : BitVec 1024)
  | stageRoute (c : MgmtCmd) (epoch first : Nat) (es : List Word)
  | stageExport (c : MgmtCmd) (epoch : Nat) (region : BitVec 256)
  | stageRackmap (c : MgmtCmd) (epoch : Nat) (slots : List ModuleId)
  | stageEvac (c : MgmtCmd) (epoch bench : Nat) (target : ModuleId) (targetBench : Nat)
  | sealEpoch (c : MgmtCmd) (epoch s : Nat)
  | discardStage (c : MgmtCmd) (epoch : Nat)
  | setSigPolicy (c : MgmtCmd) (bench : Nat) (require : Bool) (keyHash : BitVec 256)
  | clearQuarantine (c : MgmtCmd) (u : UnitId)
  | keyErase (c : MgmtCmd) (bench : Nat)
  | mgResetWarm (c : MgmtCmd)
  | mgResetCold (c : MgmtCmd)
  | restEnter (c : MgmtCmd)
  | sensorUpdate (t : Stamp) (readings : List (Nat × Int))
  | getPdr (t : Stamp) (transport : Transport) (record : Nat)
  | getPdrRepositoryInfo (t : Stamp) (transport : Transport)
  | getSensorReading (t : Stamp) (transport : Transport) (sensor : Nat)
  | getStateSensorReadings (t : Stamp) (transport : Transport) (sensor : Nat)
  | setNumericSensorEnable (t : Stamp) (transport : Transport) (sensor : Nat) (enable : Bool)
  | setEventReceiver (t : Stamp) (transport : Transport) (eid : Nat)
  | queryDeviceIdentifiers (t : Stamp) (transport : Transport)
  | getFirmwareParameters (t : Stamp) (transport : Transport)
  | requestUpdate (t : Stamp) (transport : Transport)
  | passComponentTable (t : Stamp) (transport : Transport) (components : List Nat)
  | updateComponent (t : Stamp) (transport : Transport) (component size : Nat)
  | firmwareData (t : Stamp) (transport : Transport) (off len : Nat) (image : Option Image)
  | activateFirmware (t : Stamp) (transport : Transport)
  | getStatus (t : Stamp) (transport : Transport)
  | cancelUpdateComponent (t : Stamp) (transport : Transport)
  | cancelUpdate (t : Stamp) (transport : Transport)
  -- SPDM
  | getVersion (t : Stamp) (transport : Transport)
  | getCapabilities (t : Stamp) (transport : Transport)
  | negotiateAlgorithms (t : Stamp) (transport : Transport) (offers : List SpdmAlg)
  | getDigests (t : Stamp) (transport : Transport)
  | getCertificate (t : Stamp) (transport : Transport) (slot off len : Nat)
  | challenge (t : Stamp) (transport : Transport) (slot nonce : Nat)
  | getMeasurements (t : Stamp) (transport : Transport) (index : Nat)
  | keyExchange (t : Stamp) (transport : Transport)
  | finish (t : Stamp) (transport : Transport) (session : Nat) (macOk : Bool)
  | heartbeat (t : Stamp) (transport : Transport) (session : Nat)
  | keyUpdate (t : Stamp) (transport : Transport) (session : Nat)
  | endSession (t : Stamp) (transport : Transport) (session : Nat)
  | ideKm (t : Stamp) (session stream : Nat) (rids : List Fn) (key : Bool)
  -- rows added at the end of the table
  | holdoverEntry (t : Stamp)
  | inputInRange (t : Stamp) (mv : Nat)
  | resetNRelease (t : Stamp)
  | startUpRowDone (t : Stamp) (row : Nat) (imageOk otherOk : Bool)
  | checkpointAck (t : Stamp) (req tick : Nat)
  | replicaCopyReceive (t : Stamp) (src : ModuleId) (p : PageRef) (e : Entry) (sound : Bool)
  | replicaDropNotice (t : Stamp) (p : PageRef) (holder : ModuleId)
  | newHomeNotice (t : Stamp) (conv : Nat) (home : ModuleId)
  | keeperLogRead (t : Stamp) (conv : Nat) (home : ModuleId) (homeBench : Nat) (restore : Bool)
  deriving DecidableEq, Repr

end Sys2Proof
end

