-- ==== Sys2Proof/Decode.lean ====
section
/-! DEFINITION. The table gives no row bits: commands come as descriptors, messages, register accesses and events, so
no word spells one (log entry 6). -/

namespace Sys2Proof

/-- The command a word of the opcode table spells: none, since no row of the table has bits. -/
def decodeTableWord (_nbits _w : Nat) : Option Instr := none

end Sys2Proof
end

