-- ==== Sys2Proof/Config.lean ====
section
/-! DEFINITION. What one module fixes (R12, R494, R502) and the free values: constants with no body, so that no proof
can see what they are. The first argument of a free value is the counter `State.fresh` (log entry 1). -/

namespace Sys2Proof.Config

/-- `ID_SERIAL` (R494): fixed at manufacture. -/
opaque serial : Word
/-- Minor and patch of the running firmware image (R494). -/
opaque fwMinor : Nat
/-- Patch of the running firmware image (R494). -/
opaque fwPatch : Nat
/-- The unique device secret that the PUF and the helper data give (R432, R434). -/
opaque uds : BitVec 256
/-- Unairvo's ML-DSA-65 root public key, 1,952 bytes, whose hash the mask ROM holds (R432, R436). -/
opaque rootKey : List Byte
/-- The signatures of certificates 0 and 1, made by Unairvo (R436). -/
opaque rootSignature (tbs : List Byte) : List Byte
/-- SHA3-256 (R25). -/
opaque sha3 (m : List Byte) : BitVec 256
/-- KMAC256 of NIST SP 800-185 (R25, R435): key, message, output bits, customisation string. -/
opaque kmac256 (key msg : List Byte) (bits : Nat) (custom : String) : BitVec bits
/-- The ML-DSA-65 public key generated from a 32-byte seed (R25, R435). -/
opaque mldsaPublic (seed : BitVec 256) : List Byte
/-- The ML-DSA-65 signature of a message under the key pair of a seed (R25, R436). -/
opaque mldsaSign (seed : BitVec 256) (msg : List Byte) : List Byte
/-- The ML-KEM-768 encapsulation key made fresh for an exchange (R440): 1,184 bytes. -/
opaque mlkemKey (fresh : Nat) : List Byte
/-- ML-KEM-768 encapsulation to a key with fresh randomness (R440): ciphertext and shared secret. -/
opaque mlkemEncaps (ek : List Byte) (fresh : Nat) : List Byte × BitVec 256
/-- ML-KEM-768 decapsulation under the key pair made at `fresh` (R441). -/
opaque mlkemDecaps (fresh : Nat) (ct : List Byte) : BitVec 256
/-- AES-256 key wrap of a flash key (R444, SP 800-38F). -/
opaque aesWrap (kek : BitVec 256) (key : BitVec 512) : List Byte
/-- Bytes of the security engine's CTR_DRBG (R444). -/
opaque drbg (fresh n : Nat) : List Byte
/-- The encoding of an X.509 v3 certificate's signed part (R436): subject key, and what it carries in 32-bit words. Its first octet and the rest. -/
opaque certBody (position : Nat) (subject : List Byte) (carries : List Nat) : Byte × List Byte

/-- The FP32 value of an activation entering a dense tensor before its requantisation (R95, R103): run handle, row
(position, or handle of the carried row), code of the head row (0 a layer's row or the output head's, d extra head d,
16 + x the output head's on tree node x), tensor entry, element. -/
opaque act (run row code tensor i : Nat) : F32
/-- The FP32 value of a query element before its requantisation (R95): run handle, position, layer, query head,
element. -/
opaque query (run pos layer head i : Nat) : F32
/-- A key or value element of a computed position: run handle, position, layer, KV head, value or key, element. -/
opaque kvElem (run pos layer head : Nat) (isValue : Bool) (i : Nat) : F32
/-- The tensor entry of a layer that is its attention output projection (R105): index among the layer's entries whose
input dimension is q_heads × head_dim. -/
opaque projection (layer : Nat) : Nat
/-- exp in FP32 (R99 with its bound, R230 without one): the argument's bits. -/
opaque expF (x : F32) : F32
/-- An FP32 quotient by zero, which the manual does not state (R85). -/
opaque divZero (x y : F32) : F32
/-- Where placement lays a page or datum (R80): a page ID. -/
opaque pageId (fresh : Nat) : Nat
/-- Whether an item is chosen as a shadow sample: its probability 2^−rate only is stated (R145). -/
opaque sampled (rate fresh item : Nat) : Bool
/-- Choice the manual leaves to the module among the candidates it names (R262, R267): an index. -/
opaque choice (fresh : Nat) : Nat
/-- The next graph version a merge round builds (R297: the fitting method is the module's own): adjacency of a node.
-/
opaque mergeAdj (fresh node : Nat) : List Nat
/-- What a read of host memory returns (R242, R244): the host's own word at an address. -/
opaque hostWord (fresh addr : Nat) : BitVec 32
/-- f_plan_mhz of a package while it is being loaded (R454): its manifest is the host's, by the load's model_tag. -/
opaque loadMhz (modelTag : Nat) : Nat
/-- The threshold of a numeric sensor (R477), whose value the manual leaves to the sensor's own record. -/
opaque threshold (sensor : Nat) : Int

end Sys2Proof.Config
end

