-- ==== Sys2Proof/Machine/State.lean ====
section
/-! DEFINITION. The state of the module as plain data, the state after a cold reset, and the reasons a step can stop.
Each field's comment gives its width, the rule that names it and its reset value. -/

namespace Sys2Proof.Machine

/-- Why a command stops the model. Both are raised by the meanings; both are safe (the model stops, the module's
behaviour is not stated). -/
inductive Fault where
  /-- Raised by RESET_N for a pulse of 1 µs to 10 µs, which the platform must not drive (R516, R6). Safe. -/
  | forbiddenInput
  deriving DecidableEq, Repr

/-- Why a command has no meaning. -/
inductive Refusal where
  /-- Raised by `exec` alone, for a row whose meaning is not written. Safe. -/
  | notModelled (mnemonic : String)
  deriving DecidableEq, Repr

/-- `TK_STATUS` sync_state, in the order of its values (R51). -/
inductive Sync where | unsync | source | locked | holdover | lost | mismatch
  deriving DecidableEq, Repr, Inhabited

/-- Bench states, in the order of their values (R69). -/
inductive BenchState where | empty | loading | ready | draining | unloading | halted
  deriving DecidableEq, Repr, Inhabited

/-- `SC_BOOT_STATUS` stage, in the order of its values (R391). -/
inductive Stage where | rom | loader | fwInit | links | ready | recovery | keep | restart
  deriving DecidableEq, Repr, Inhabited

/-- `PW_STATE` state, in the order of its values (R461). -/
inductive PwState where | run | entering | rest | waking | keep
  deriving DecidableEq, Repr, Inhabited

/-- Link states, in the order of their values (R306). -/
inductive LinkState where | down | training | isolated | active | degraded | refused
  deriving DecidableEq, Repr, Inhabited

/-- Queue-pair states, in the order of their values (R343). -/
inductive QpState where | free | ready | draining | error
  deriving DecidableEq, Repr, Inhabited

/-- Error classes, in the order of their values from 1 (R408). -/
inductive ErrClass where
  | shadow | block | memory | flash | link | tick | message | control | host | environment | security | keep
  | accounting | load
  deriving DecidableEq, Repr, Inhabited

/-- Kinds of restart, least extensive first (R385, R387). -/
inductive ResetKind where | control | warm | cold
  deriving DecidableEq, Repr, Inhabited

/-- Identity of a descriptor for its completion record (R375): ring, index, tag, opcode, bench, the number of function
resets of the bench when it landed (R382), its landing stamp and landing offset. -/
structure Cpl where
  ring : Nat := 0
  index : Nat := 0
  tag : Nat := 0
  op : Nat := 0
  bench : Nat := 0
  gen : Nat := 0
  stamp : Stamp := default
  deriving DecidableEq, Repr, Inhabited

/-- A completion or notify record (R375) before its phase is formed. -/
structure CplRec where
  result : Nat := 0
  result2 : Nat := 0
  index : Nat := 0
  tick : Nat := 0
  tag : Nat := 0
  ring : Nat := 0
  status : Status := .ok
  op : Nat := 0
  notify : Bool := false
  deriving DecidableEq, Repr, Inhabited

/-- An error-log entry (R410). -/
structure LogEntry where
  seq : Nat := 0
  stamp : Stamp := default
  cls : ErrClass := .shadow
  cause : Nat := 0
  severity : Nat := 0
  bench : Nat := 31
  unit : UnitId := ⟨.none, 0⟩
  detail0 : Nat := 0
  detail1 : Nat := 0
  repeats : Nat := 0
  band : Nat := 0
  pattern : Nat := 0
  status : Nat := 0
  deriving DecidableEq, Repr, Inhabited

/-- Messages between modules (R181, R212, R217, R298, R313 and the notices the chapters name). -/
inductive Msg where
  | haul (m : HaulMsg)
  | segment (m : SegMsg)
  | segmentAck (conv upto : Nat)
  | checkpoint (r : Req) (c : Conv) (tick : Nat)
  | checkpointAck (req tick : Nat)
  | keeperRefuse (conv : Nat)
  | keeperFree (conv : Nat)
  | release (conv fromGroup : Nat)
  | stateNotice (conv : Nat) (st : ConvState)
  | refcount (p : PageRef) (seq : Nat) (up : Bool)
  | replicaCopy (p : PageRef) (e : Entry)
  | replicaAck (p : PageRef) (pageId : Nat)
  | primaryFree (p : PageRef)
  | replicaDrop (p : PageRef)
  | newHome (conv : Nat)
  | logRead (conv bench : Nat) (restore : Bool)
  | forward (d : HostDesc)
  | returned (c : Cpl) (st : Status) (result : Nat)
  | ask (hdr : BitVec 256) (es : List AskEntry)
  | answer (hdr : BitVec 256) (es : List AnswerEntry)
  | settle (hdr : BitVec 256) (es : List (BitVec 128))
  | vecAsk (hdr : BitVec 256) (es : List VecEntry)
  | vecAnswer (hdr : BitVec 256) (es : List VecEntry)
  | vecSeg (s : VecSeg)
  | vecFree (shard : Nat)
  | packet (p : Packet)
  | wpacket (p : WPacket)
  deriving DecidableEq, Repr, Inhabited

/-- Records and flits a link carries beside packets (R305, R440). -/
inductive LinkRec where
  | nak (fseq : Nat)
  | credit (cls units : Nat)
  | beacon (tick off : Nat)
  | time (src : Stamp) (hops : Nat)
  | rekey (idx fseq : Nat)
  | ident (i : Ident)
  | lane (drop : Nat)
  | key (kind exchange : Nat) (body : List Byte)
  | resend (fseq : Nat)
  deriving DecidableEq, Repr, Inhabited

/-- Requests of MCTP control, PLDM types 2 and 5 and SPDM (R437, R446, R470, R477, R479). -/
inductive SideReq where
  | mctp (code eid : Nat)
  | getPdr (record : Nat)
  | pdrInfo
  | sensorReading (n : Nat)
  | stateReading (n : Nat)
  | sensorEnable (n : Nat) (on : Bool)
  | eventReceiver (eid : Nat)
  | queryIds
  | fwParams
  | requestUpdate
  | passTable (comps : List Nat)
  | updateComp (comp size : Nat)
  | fwData (off len : Nat) (image : Option Image)
  | activate
  | updateStatus
  | cancelComp
  | cancelUpdate
  | getVersion
  | getCapabilities
  | negotiate (offers : List SpdmAlg)
  | getDigests
  | getCertificate (slot off len : Nat)
  | challenge (slot nonce : Nat)
  | getMeasurements (index : Nat)
  | keyExchange
  | finish (session : Nat) (macOk : Bool)
  | heartbeat (session : Nat)
  | keyUpdate (session : Nat)
  | endSession (session : Nat)
  | ideKm (session stream : Nat) (rids : List Fn) (key : Bool)
  deriving DecidableEq, Repr, Inhabited

/-- How such a request ends, by name: the manual gives the conditions, and the protocols' own documents the codes. -/
inductive SideCode where
  | ok | busy | unsupported | unexpected | invalidRequest | invalidSession | sessionLimit | notInUpdateMode
  | alreadyInUpdateMode | updateNotPossible | invalidState | invalidData
  deriving DecidableEq, Repr, Inhabited

/-- Messages the module sends as a PLDM type 5 firmware device (R479). -/
inductive FdMsg where
  | requestData (off len : Nat)
  | transferComplete (ok : Bool)
  | verifyComplete (ok : Bool)
  | applyComplete (ok : Bool)
  deriving DecidableEq, Repr, Inhabited

/-- A conversation as read out (R210): header with its crc, entry array and segments; and in Keep mode the blocks,
record blocks and sampler state after them (R427). -/
structure Readout where
  hdr : BitVec 512
  entries : List (BitVec 128)
  segs : List SegMsg
  blocks : List Block := []
  recs : List RecBlock := []
  sampler : Option (BitVec 512 × Req) := none
  deriving DecidableEq, Repr, Inhabited

/-- What the module presents at its connectors: host memory writes, MSI-X, packets and records on links, management
responses and events (R1, R375, R376, R378). `hostRead` is a read the host link is asked for. -/
inductive Output where
  | head (ring idx : Nat)
  | record (bench idx phase : Nat) (r : CplRec)
  | cqProducer (bench idx : Nat)
  | token (ring idx phase : Nat) (r : TokRec)
  | probe (ring idx phase : Nat) (vals : List F32) (tickLo : Nat)
  | strmProducer (ctl idx : Nat)
  | bytes (addr : Nat) (bs : List Byte)
  | readoutConv (addr : Nat) (form : Readout)
  | readoutList (addr : Nat) (es : List (BitVec 256))
  | vecResult (addr snapshot count missing : Nat) (rs : List (Nat × Nat × F32))
  | hostRead (ring idx : Nat)
  | hostAtomic (addr : Nat) (op0 op1 : Nat) (cas : Bool)
  | vector (fn : Fn) (v : Nat)
  | send (dst : ModuleId) (bench : Option Nat) (m : Msg)
  | onLink (link : Nat) (r : LinkRec)
  | forwarded (link : Nat) (p : Packet)
  | mgmt (t : Transport) (command : Nat) (tag : Nat) (status : Status) (body : List Nat)
  | mgmtEvent (e : LogEntry)
  | sensorEvent (sensor : Nat) (value : Int)
  | side (t : Transport) (r : SideReq) (c : SideCode) (body : List Nat)
  | fd (t : Transport) (m : FdMsg)
  | pcie (fn : Fn) (ready : Bool)
  deriving DecidableEq, Repr, Inhabited

/-- A staged or current map set (R60, R315, R322, R323, R332, R476). -/
structure MapSet where
  benches : Table (BitVec 1024) := []
  routes : Table Word := []
  exports : Table (BitVec 256) := []
  rackmap : Table ModuleId := []
  evac : Table (ModuleId × Nat) := []
  deriving DecidableEq, Repr, Inhabited

/-- A completion record due at step 3 of the commit in progress (R380). `tally` names the tally whose balance after
step 3 is the result (R374). -/
structure Due where
  cpl : Cpl := {}
  status : Status := .ok
  result : Nat := 0
  result2 : Nat := 0
  tick : Nat := 0
  tally : Option Nat := none
  deriving DecidableEq, Repr, Inhabited

/-- A submission ring (R369 to R371). -/
structure SubRing where
  tail : Nat := 0
  head : Nat := 0
  error : Bool := false
  deriving DecidableEq, Repr, Inhabited

/-- A completion ring (R375 to R377). -/
structure Cq where
  producer : Nat := 0
  consumer : Nat := 0
  waiting : List CplRec := []
  fresh : Option Stamp := none
  signalled : Option Stamp := none
  deriving DecidableEq, Repr, Inhabited

/-- A landed descriptor (R32, R372): its bits and its named data once read. -/
structure Landed where
  cpl : Cpl := {}
  raw : Option (BitVec 512) := none
  data : Option NamedData := none
  deriving DecidableEq, Repr, Inhabited

/-- An IDE stream (R446): the functions it names, whether it is in the Secure state. -/
structure IdeStream where
  fns : List Fn := []
  secure : Bool := false
  deriving DecidableEq, Repr, Inhabited

/-- A fit of the queue (R127): page, half, seal commit, and whether the raw block was replaced since it was read. -/
structure FitItem where
  page : PageRef
  isValue : Bool
  tick : Nat
  done : Option (Option Block) := none
  deriving DecidableEq, Repr, Inhabited

/-- A load in progress (R72): its descriptor, model_tag, and package length; `epochStale` never set after start. -/
structure Load where
  cpl : Cpl := {}
  modelTag : Nat := 0
  length : Nat := 0
  deriving DecidableEq, Repr, Inhabited

/-- A drain in force (R73). -/
structure Drain where
  mode : Nat := 0
  limit : Nat := 0
  deriving DecidableEq, Repr, Inhabited

/-- A bench (R56 to R74). -/
structure Bench where
  record : BitVec 1024 := 0
  epoch : Nat := 0
  state : BenchState := .empty
  modelTag : Nat := 0
  pkg : Option Package := none
  load : Option Load := none
  replacing : Option Load := none
  unloads : List Cpl := []
  drain : Option Drain := none
  autos : Table Automaton := []
  fits : List FitItem := []
  weightBad : List (Nat × Nat) := []
  reloading : List Nat := []
  progress : Nat := 0
  recovery : Nat := 0
  dropped : Nat := 0
  lost : Nat := 0
  goodput : Nat := 10000
  goodputWin : Nat := 0
  goodputEnd : Option Nat := none
  linkEff : Nat := 0
  deriving DecidableEq, Repr, Inhabited

/-- An entry of the done list (R208). -/
structure Done where
  req : Nat := 0
  status : Status := .ok
  tick : Nat := 0
  deriving DecidableEq, Repr, Inhabited

/-- A stream binding (R242, R243). `seen`: its key has been live here. -/
structure Binding where
  ringAddr : Nat := 0
  ctl : Nat := 0
  log2 : Nat := 6
  producer : Nat := 0
  consumer : Nat := 0
  bench : Nat := 0
  tick : Nat := 0
  seen : Bool := false
  deriving DecidableEq, Repr, Inhabited

/-- A tally (R248, R249), with the counts of its open meter record (R482). `lastRefill` is the window start last
applied (R249). -/
structure Tally where
  bench : Nat := 0
  balance : Nat := 0
  refill : Nat := 0
  cap : Nat := 1
  window : Nat := 1
  anchor : Nat := 0
  generated : Nat := 0
  charged : Nat := 0
  returned : Nat := 0
  refilled : Nat := 0
  waitTicks : Nat := 0
  firstTick : Nat := 0
  lastRefill : Option Nat := none
  deriving DecidableEq, Repr, Inhabited

/-- A final record that waits for room or a binding (R247). -/
structure FinalWait where
  req : Nat := 0
  bench : Nat := 0
  tok : TokRec := {}
  deriving DecidableEq, Repr, Inhabited

/-- A park or handoff applied at step 1 that acts after step 3 of its commit (R206); `haul` names the haul it starts.
-/
structure ParkWait where
  conv : Nat := 0
  req : Nat := 0
  cpl : Cpl := {}
  haul : Option Nat := none
  order : Nat := 0
  deriving DecidableEq, Repr, Inhabited

/-- Kinds of work unit (R46). -/
inductive UnitClass where | step | chunk | search | merge
  deriving DecidableEq, Repr, Inhabited

/-- A work unit of the plan in progress (R45, R420): `len` tokens of a chunk, `depth` L of R237, `run` the handle its
free values are applied to, `late` not finished at the cut-off, `miss` groups with a page of this module left out,
`lacked` those pages, `cells` the cell of each (layer, KV head) in that order (R142). -/
structure WorkUnit where
  cls : UnitClass := .step
  bench : Nat := 0
  req : Nat := 0
  conv : Nat := 0
  len : Nat := 0
  depth : Nat := 0
  rebuild : Bool := false
  dropped : Bool := false
  run : Nat := 0
  late : Bool := false
  miss : List Nat := []
  lacked : List PageRef := []
  cells : List Nat := []
  deriving DecidableEq, Repr, Inhabited

/-- A span of a request's remote groups at one layer (R179, R191 to R193): when it was asked and asked of replicas,
when its row was set aside, and what the accepted or held answer came from and brought, with its order of arrival
(R195). -/
structure Span where
  req : Nat := 0
  bench : Nat := 0
  pass : Nat := 0
  layer : Nat := 0
  gFirst : Nat := 0
  gCount : Nat := 0
  holder : ModuleId := 0
  replicas : List ModuleId := []
  isSealed : Bool := true
  accepted : Bool := false
  held : Option (List Word) := none
  sampled : Bool := false
  settled : Option Bool := none
  aside : Bool := false
  asked : Bool := false
  givenUp : Bool := false
  askStamp : Option Stamp := none
  backStamp : Option Stamp := none
  asideAt : Option Stamp := none
  source : Option ModuleId := none
  order : Nat := 0
  recs : List PartialRec := []
  deriving DecidableEq, Repr, Inhabited

/-- A span this module serves for a peer (R187): its landing stamp, the cell of each KV head (R142), the scales and
query operands sent with it (R182); done when its answer entry is formed. -/
structure Serve where
  ask : Nat := 0
  peer : ModuleId := 0
  peerBench : Nat := 0
  pass : Nat := 0
  bench : Nat := 0
  layer : Nat := 0
  req : Nat := 0
  conv : Nat := 0
  qFirst : Nat := 0
  positions : Nat := 0
  qHeads : Nat := 0
  gFirst : Nat := 0
  gCount : Nat := 0
  replica : Bool := false
  backstop : Bool := false
  stamp : Stamp := default
  cells : List Nat := []
  scales : List F32 := []
  ops : List Byte := []
  answer : Option AnswerEntry := none
  deriving DecidableEq, Repr, Inhabited

/-- A haul at its source (R213, R215). `given` is the request a keeper's RESTORE carries (R223, R224). -/
structure SrcHaul where
  conv : Nat := 0
  req : Nat := 0
  purpose : Purpose := .handoff
  dst : ModuleId := 0
  dstBench : Nat := 0
  tries : Nat := 0
  auto : Bool := false
  evac : Bool := false
  pullAll : Bool := false
  aborted : Bool := false
  cpl : Option Cpl := none
  offered : Stamp := default
  bench : Nat := 0
  ended : Option (Stamp × Status) := none
  given : Option Req := none
  deriving DecidableEq, Repr, Inhabited

/-- A haul at its destination (R213), with the entries and bytes its OFFER named. -/
structure DstHaul where
  src : ModuleId := 0
  conv : Nat := 0
  req : Nat := 0
  purpose : Purpose := .handoff
  bench : Nat := 0
  speculate : Bool := false
  record : Bool := false
  live : Bool := false
  offered : Nat := 0
  bytes : Nat := 0
  entries : List Entry := []
  recs : List RecBlock := []
  table : Option Conv := none
  log : Option (List Segment) := none
  sampler : Option Req := none
  written : Bool := false
  ackSent : Bool := false
  acked : Stamp := default
  freed : Option Stamp := none
  deriving DecidableEq, Repr, Inhabited

/-- A pull in progress (R211) and the descriptor it waits for. -/
structure Pull where
  conv : Nat := 0
  home : ModuleId := 0
  bench : Nat := 0
  cpl : Cpl := {}
  landed : HostDesc
  effective : Bool := false
  refusedBy : Option (Stamp × Status) := none
  deriving DecidableEq, Repr, Inhabited

/-- Where a conversation that left by haul lives now: the stamp of the move and the request it took (R214). -/
structure Gone where
  home : ModuleId := 0
  bench : Nat := 0
  req : Nat := 0
  moved : Stamp := default
  deriving DecidableEq, Repr, Inhabited

/-- What a keeper holds for one conversation (R217, R218, R220). -/
structure KeeperLog where
  home : ModuleId := 0
  bench : Nat := 0
  segs : List Segment := []
  replicas : List Entry := []
  ckpt : Option (Nat × Req × Conv) := none
  deriving DecidableEq, Repr, Inhabited

/-- A tier move (R256), with the bytes charged so far to the migration share where it exceeds it (R67). A move to
flash is `copied` before its extent, with the page's offset in it in KiB, is written (R156, R266). -/
structure Move where
  page : PageRef
  src : Tier := .hbm
  dst : Tier := .hbm
  /-- For the face: the cell whose slice the page goes to (R263). -/
  cell : Option Nat := none
  writable : Bool := false
  bench : Nat := 0
  began : Stamp := default
  doneAt : Option Stamp := none
  cause : Stamp := default
  charged : Nat := 0
  copied : Bool := false
  extent : Option (Nat × Nat) := none
  deriving DecidableEq, Repr, Inhabited

/-- An erase block of flash (R265, R267). -/
structure FBlock where
  erases : Nat := 0
  reads : Nat := 0
  corrected : Nat := 0
  valid : Nat := 0
  written : Nat := 0
  recovers : List Nat := []
  lastClass : Nat := 0
  retired : Bool := false
  deriving DecidableEq, Repr, Inhabited

/-- What a flash read is for (R274). -/
inductive ReadUse where | partialRun | live (req : Nat) | free
  deriving DecidableEq, Repr, Inhabited

/-- A flash read in flight (R269, R274). -/
structure FRead where
  bench : Nat := 0
  use : ReadUse := .free
  page : PageRef := ⟨0, 0, 0, 0⟩
  block : Nat := 0
  late : Bool := false
  deriving DecidableEq, Repr, Inhabited

/-- A flash write until it is durable (R266): the moves an extent carries (R156), or a haul's state. -/
structure FWrite where
  bench : Nat := 0
  moves : List Nat := []
  haul : Option (Nat × ModuleId) := none
  units : Nat := 0
  deriving DecidableEq, Repr, Inhabited

/-- A vector shard (R281 to R284), primary or replica. -/
structure Shard where
  hdr : BitVec 512 := 0
  bench : Nat := 0
  book : Option Codebook := none
  graph : List VecRec := []
  entryNode : Nat := 0
  spoil : List VecRec := []
  deadSpoil : List Nat := []
  tomb : List Nat := []
  removed : List Nat := []
  gversion : Nat := 0
  commitNew : List VecRec := []
  replica : Bool := false
  archived : Bool := false
  serving : Bool := false
  /-- Segments of which the last arrival failed its crc: magic and seq (R284). -/
  badSegs : List (Nat × Nat) := []
  failed : Bool := false
  replicas : List (ModuleId × Nat) := []
  lastSeq : Nat := 0
  lastVer : Nat := 0
  pendingCpl : Option Cpl := none
  round : Option (Nat × Nat × Option Cpl) := none
  pendRepl : List (ModuleId × Nat × Cpl) := []
  deriving DecidableEq, Repr, Inhabited

/-- A search in progress (R287, R290, R300). -/
structure Search where
  id : Nat := 0
  cpl : Cpl := {}
  raw : BitVec 512 := 0
  shards : List (BitVec 128) := []
  elems : List (BitVec 16) := []
  ticksRun : Nat := 0
  running : Bool := false
  dropped : Bool := false
  answers : Table (List (Nat × F32)) := []
  deriving DecidableEq, Repr, Inhabited

/-- A link (R302 to R311, R440 to R443). -/
structure Link where
  cable : Bool := false
  state : LinkState := .down
  step : Nat := 0
  lanes : BitVec 2 := 0
  enc : Bool := false
  ident : Option Ident := none
  rxNext : Nat := 0
  txNext : Nat := 0
  txBuf : List (Nat × Nat × Packet) := []
  nakOut : Bool := false
  errs : Nat × Nat := (0, 0)
  credits : Nat × Nat × Nat × Nat := (0, 0, 0, 0)
  keyI : Nat := 0
  keyIdx : Nat := 0
  rxKeys : List Nat := []
  peerKeyIdx : Nat := 0
  secretAt : Stamp := default
  secret : BitVec 256 := 0
  txKey : BitVec 288 := 0
  exchange : Nat := 0
  helloSeen : Bool := false
  hello : List Byte := []
  peerHello : List Byte := []
  kemKey : Nat := 0
  kemText : List Byte := []
  kemShare : BitVec 256 := 0
  delay : Nat := 0
  lanePower : Bool := false
  queue : List Packet := []
  deriving DecidableEq, Repr, Inhabited

/-- What an unanswered packet of the pair series is for (R318, R346). -/
structure OutPkt where
  p : Packet
  op : Option Nat := none
  tries : Nat := 1
  link : Nat := 0
  deriving DecidableEq, Repr, Inhabited

/-- The source side of a pair series (R318). -/
structure SrcCtx where
  next : Nat := 0
  out : List (Nat × OutPkt) := []
  deriving DecidableEq, Repr, Inhabited

/-- The target side of a pair series (R319): floor, the bits above it, atomics' old values, flagged operations held.
-/
structure TgtCtx where
  floor : Nat := 0
  got : List Nat := []
  atoms : Table Word := []
  refusals : Table Status := []
  held : List Packet := []
  deriving DecidableEq, Repr, Inhabited

/-- A READ forwarded and not yet answered with its readers, or a combined packet of this module (R328, R329): its
source, target and seq, and its constituents. -/
structure Combine where
  /-- For READs: the link tile they were forwarded from (R328). -/
  tile : Nat := 0
  src : ModuleId := 0
  dst : ModuleId := 0
  seq : Nat := 0
  typ : Nat := 0
  addr : Nat := 0
  cons : List Packet := []
  deriving DecidableEq, Repr, Inhabited

/-- A remote operation of the host in progress (R345 to R349). -/
structure Rma where
  cpl : Cpl := {}
  target : Nat := 0
  op : Nat := 0
  qpn : Nat := 0
  addr : Nat := 0
  length : Nat := 0
  remote : Nat := 0
  left : Nat := 0
  moved : Nat := 0
  status : Status := .ok
  old : Nat := 0
  deriving DecidableEq, Repr, Inhabited

/-- An open window (R335 to R337). -/
structure Window where
  bench : Nat := 0
  kind : Nat := 0
  base : Nat := 0
  length : Nat := 0
  perms : Nat := 0
  bind : Option Nat := none
  gen : Nat := 1
  deriving DecidableEq, Repr, Inhabited

/-- A window revoked at an instant, which requests stamped before it and not yet handled still reach (R338): the
descriptor's record and result wait for them. -/
structure Closing where
  index : Nat
  window : Window
  instant : Stamp
  cpl : Cpl := {}
  result : Nat := 0
  deriving DecidableEq, Repr, Inhabited

/-- A logged result of a queue pair (R344, R353, R355). -/
structure QpLog where
  psn : Nat
  status : Status
  value : Word
  deriving DecidableEq, Repr, Inhabited

/-- A queue-pair context (R344), with its unanswered requests (psn, packet, operation). -/
structure Qp where
  state : QpState := .free
  bench : Nat := 0
  peer : ModuleId := 0
  peerQpn : Nat := 0
  localInc : Nat := 0
  peerInc : Nat := 0
  txNext : Nat := 0
  txLow : Nat := 0
  rxExpected : Nat := 0
  txLimit : Nat := 0
  txUsed : Nat := 0
  rxLimit : Nat := 0
  rxUsed : Nat := 0
  creditKib : Nat := 0
  /-- Sends so far of each unanswered psn (R344, R352). -/
  sends : Table Nat := []
  log : List QpLog := []
  out : List (Nat × WPacket × Nat) := []
  waitCredit : List (WPacket × Nat) := []
  ackDue : Bool := false
  unacked : Nat := 0
  nakAt : Option Stamp := none
  askedAt : Option Stamp := none
  destroy : Option Cpl := none
  deriving DecidableEq, Repr, Inhabited

/-- What a boot directory copy says (R393). -/
structure BootDir where
  seq : Nat := 0
  trial : Nat := 0
  started : Bool := false
  fwSlot : Nat := 0
  ldrSlot : Nat := 0
  deriving DecidableEq, Repr, Inhabited

/-- An entry of `RL_RESTART_LOG` (R501). -/
structure RestartEntry where
  cause : Nat := 0
  durationUs : Nat := 0
  stamp : Stamp := default
  readyOff : Nat := 0
  deriving DecidableEq, Repr, Inhabited

/-- A lost arbitration (R414, R415). -/
structure Loss where
  unit : UnitId
  stamp : Stamp
  band : Nat
  pattern : Nat
  deriving DecidableEq, Repr, Inhabited

/-- What R415 takes of a tick's plan at its step 6: per tile the band, and the quartiles of its engines, cells and
token unit; per engine and cell the quartile of its own, where it is not 0. -/
structure Activity where
  bands : List Nat := []
  engTile : List Nat := []
  cellTile : List Nat := []
  tokTile : List Nat := []
  engs : Table Nat := []
  cells : Table Nat := []
  deriving DecidableEq, Repr, Inhabited

/-- A sampled item (R145 to R148): its original, shadow and third units, the requests it fed, the peer's span it
answered; its layer, its output-channel group or KV head, its pass or row set; the operands kept for the check
(expanded tiles by output channel and input rows, or query rows and page list); the two results compared, and whether
its answer was retracted. -/
structure Item where
  unit : UnitId := ⟨.none, 0⟩
  shadow : UnitId := ⟨.none, 0⟩
  third : UnitId := ⟨.none, 0⟩
  bench : Nat := 0
  reqs : List Nat := []
  peer : Option Serve := none
  layer : Nat := 0
  index : Nat := 0
  part : Nat := 0
  tiles : List (List Int) := []
  rows : List (List Int) := []
  pages : List PageRef := []
  kept : ItemResult := .sums []
  acts : List (UnitId × Nat × Nat) := []
  shadowFound : Option ItemResult := none
  mismatch : Bool := false
  retracted : Bool := false
  tick : Nat := 0
  deriving DecidableEq, Repr, Inhabited

/-- An SPDM session (R437). -/
structure Session where
  transport : Transport := .i3c
  finished : Bool := false
  keyGen : Nat := 0
  deriving DecidableEq, Repr, Inhabited

/-- A bench's flash key (R444): generation of the wrapped record, whether the key is in the key registers. -/
structure FlashKey where
  gen : Nat := 0
  made : Bool := false
  held : Bool := false
  key : BitVec 512 := 0
  wrapped : List Byte := []
  deriving DecidableEq, Repr, Inhabited

/-- An open bench meter record (R480, R481): its counts, and the model_tag, slices and epoch of its ticks. `used` says
that the bench held a slice or a model in the window. -/
structure OpenMeter where
  firstTick : Nat := 0
  restTicks : Nat := 0
  gen : Nat := 0
  prefill : Nat := 0
  afterReset : Bool := false
  tag : Nat := 0
  slices : List Nat := []
  epoch : Nat := 0
  used : Bool := false
  deriving DecidableEq, Repr, Inhabited

/-- A meter record (R481, R482) by its fields: kind 0 bench, kind 1 tally. -/
structure MeterRec where
  seq : Nat := 0
  kind : Nat := 0
  reason : Nat := 0
  bench : Nat := 0
  tally : Nat := 0
  firstTick : Nat := 0
  ticks : Nat := 0
  vals : List Nat := []
  slices : List Nat := []
  epoch : Nat := 0
  afterReset : Bool := false
  deriving DecidableEq, Repr, Inhabited

/-- A PLDM update in progress (R479). -/
structure Update where
  comps : List Nat := []
  comp : Nat := 0
  size : Nat := 0
  got : Nat := 0
  image : Option Image := none
  verified : Bool := false
  deriving DecidableEq, Repr, Inhabited

/-- The time base. -/
structure TimeSt where
  /-- ST 64-bit tick number and 32-bit offset; R31 02_tick.md; reset (0, 0) -/
  now : Stamp := ⟨0, 0⟩
  /-- ST 1 bit, the first tick since reset has started; R491 21_register_map.md; reset 0 -/
  ticking : Bool := false
  /-- ST 64 bits, first tick since the reset, none before it; R481 20_management_and_metering.md; reset none -/
  first : Option Nat := none
  /-- ST 64 bits, last tick committed, none before the first; R55 02_tick.md; reset none -/
  lastCommit : Option Nat := none
  /-- ST 3 bits, TK_STATUS sync_state; R51 02_tick.md; reset UNSYNC -/
  sync : Sync := .unsync
  /-- ST 6 bits, TK_STATUS hops; R494 21_register_map.md; reset 0 -/
  hops : Nat := 0
  /-- ST stamp of the latest time message; R53 02_tick.md; reset none -/
  lastMsg : Option Stamp := none
  /-- ST stamp at which LOST or MISMATCH was entered; R53 02_tick.md; reset none -/
  lostAt : Option Stamp := none
  /-- ST 1 bit, MISMATCH by a lower tick number, which only a reset leaves; R55 02_tick.md; reset 0 -/
  lowTick : Bool := false
  /-- ST 64 bits, first whole tick LOCKED, whose commit plans again; R53 02_tick.md; reset none -/
  resumeAt : Option Nat := none
  /-- ST 64 bits, tick in progress when sync was lost, carried to its commit; R53 02_tick.md; reset none -/
  lastRun : Option Nat := none
  /-- ST stamps of what landed while sync was lost, due at the first commit after it is regained; R53 02_tick.md;
  reset none -/
  early : List Stamp := []
  /-- ST 1 bit, the benches halted under R54; R54 02_tick.md; reset 0 -/
  halted : Bool := false
  /-- ST 64 bits, TK_NOW_TICK latch; R494 21_register_map.md; reset 0 -/
  latch : Nat := 0
  /-- ST two PTM samples (H, T) of 64 bits each, older first; R381 15_host_interface.md; reset 0 -/
  ptm0 : Nat × Nat := (0, 0)
  /-- ST newer PTM sample; R494 21_register_map.md; reset 0 -/
  ptm1 : Nat × Nat := (0, 0)
  /-- ST 32 bits, PTM sample count; R494 21_register_map.md; reset 0 -/
  ptmCount : Nat := 0
  deriving DecidableEq, Repr, Inhabited

/-- The set-up registers of BAR0. -/
structure BarSt where
  /-- ST 64 bits each, values in force by BAR0 offset, unlisted at the reset value of the field tables; R491
  21_register_map.md; reset the Reset column of R494 to R502 -/
  inForce : Table Word := []
  /-- ST 64 bits each, values last written, which reads return, unlisted as in force; R491 21_register_map.md; reset
  as in force -/
  written : Table Word := []
  /-- ST writes waiting for their commit: stamp, offset, value; R491 21_register_map.md; reset none -/
  waiting : List (Stamp × Nat × Word) := []
  /-- ST 8 bits, Revision ID of the PCI configuration header; R12 00_scope.md; reset 0x21 -/
  revision : BitVec 8 := 0x21
  /-- ST 1 bit, SETUP_LOCK lock; R488 21_register_map.md; reset 0 -/
  lock : Bool := false
  /-- ST 1 bit per bench, BN_SETUP_LOCK lock; R495 21_register_map.md; reset 0 -/
  benchLock : List Nat := []
  /-- ST 64 bits each, counters as counted, by BAR0 offset; R493 21_register_map.md; reset 0 -/
  live : Table Nat := []
  /-- ST 64 bits each, counters as of the last completed commit; R493 21_register_map.md; reset 0 -/
  published : Table Nat := []
  /-- ST 1 bit, AtomicOp Requester Enable of Device Control 2; R337 14_remote_windows.md; reset 0 PRESUMED (log entry
  4) -/
  atomicEn : Bool := false
  deriving DecidableEq, Repr, Inhabited

/-- The host interface. -/
structure HostSt where
  /-- ST 256 submission rings: tail 32, head 32, ERROR 1; R370 R371 15_host_interface.md; reset 0 -/
  rings : Table SubRing := []
  /-- ST 16 completion rings: producer 32, cached consumer 32, up to 65,536 waiting records, interrupt spacing stamps;
  R375 R376 R377 15_host_interface.md; reset 0 -/
  cqs : Table Cq := []
  /-- ST per bench 16 + 4 + 3 + 1 bits, BN_RING_ERR last_ring, last_cause, overrun; R495 21_register_map.md; reset 0
  -/
  ringErr : Table (Nat × Nat × Bool) := []
  /-- ST 1 bit, VF Enable; R366 15_host_interface.md; reset 0 PRESUMED (log entry 4) -/
  vfEnable : Bool := false
  /-- ST 16 bits, NumVFs; R366 15_host_interface.md; reset 0 PRESUMED (log entry 4) -/
  numVfs : Nat := 0
  /-- ST landed descriptors not yet applied, with what was read of them; R372 15_host_interface.md; reset none -/
  landed : List Landed := []
  /-- ST completion records due at step 3 of the commit in progress; R380 15_host_interface.md; reset none -/
  due : List Due := []
  /-- ST function resets per bench, which drop records of earlier descriptors; R382 15_host_interface.md; reset 0 -/
  flrs : Table Nat := []
  /-- ST 8 selective IDE streams; R446 18_security.md; reset none -/
  ide : Table IdeStream := []
  /-- ST functions whose stream left the Secure state; R446 18_security.md; reset none -/
  ideStopped : List Fn := []
  deriving DecidableEq, Repr, Inhabited

/-- Requests, conversations, streams and tallies. -/
structure WorkSt where
  /-- ST 65,536 request contexts; R198 R204 R241 09_requests_and_hauls.md; reset none -/
  reqs : Table Req := []
  /-- ST 1,048,576 conversation headers with their tables, logs and holder tables; R159 R160 R161 07_page_cache.md;
  reset none -/
  convs : Table Conv := []
  /-- ST 262,144 done entries, oldest first; R208 09_requests_and_hauls.md; reset none -/
  done : List Done := []
  /-- ST 65,536 stream bindings by req_key; R243 10_token_output.md; reset none -/
  binds : Table Binding := []
  /-- ST 4,096 tallies; R248 10_token_output.md; reset none -/
  tallies : Table Tally := []
  /-- ST final records that wait; R247 10_token_output.md; reset none -/
  finals : List FinalWait := []
  /-- ST hold records that wait; R247 10_token_output.md; reset none -/
  holds : List FinalWait := []
  /-- ST parks applied at step 1 that suspend after step 3; R206 09_requests_and_hauls.md; reset none -/
  parks : List ParkWait := []
  /-- ST final records due at step 3 of the commit in progress; R37 02_tick.md; reset none -/
  finalDue : List FinalWait := []
  deriving DecidableEq, Repr, Inhabited

/-- The plan and the tick's work. -/
structure PlanSt where
  /-- ST 64 bits, tick the plan is for; R37 02_tick.md; reset none -/
  tick : Option Nat := none
  /-- ST work units of the plan; R45 02_tick.md; reset none -/
  units : List WorkUnit := []
  /-- ST 1 bit, the plan was made by the firmware; R403 16_firmware_and_startup.md; reset 0 -/
  byFw : Bool := false
  /-- ST units of the last plan the firmware made; R403 16_firmware_and_startup.md; reset none -/
  lastFw : List WorkUnit := []
  /-- ST spans asked of holders; R179 08_attention_at_the_page.md; reset none -/
  spans : List Span := []
  /-- ST spans served for peers; R187 08_attention_at_the_page.md; reset none -/
  serves : List Serve := []
  /-- ST 1 bit, the cut-off of the tick in progress has passed; R37 02_tick.md; reset 0 -/
  cut : Bool := false
  /-- ST benches whose steps of the tick are dropped by a weight tile; R122 05_compressed_blocks.md; reset none -/
  benchDrop : List Nat := []
  /-- ST chunk charges to return, (tally, tokens); R250 10_token_output.md; reset none -/
  returns : List (Nat × Nat) := []
  /-- ST sampled items by number; R145 R148 06_block_engines_and_cells.md; reset none -/
  items : Table Item := []
  /-- ST vector searches; R290 12_vector_retrieval.md; reset none -/
  searches : List Search := []
  /-- ST bands and patterns of the tick; R415 17_faults_and_recovery.md; reset none -/
  activity : Activity := {}
  deriving DecidableEq, Repr, Inhabited

/-- Notices, messages and internal events that act at the commit their stamps name (R34). -/
inductive Notice where
  | loadComplete (bench : Nat) (pkg : Package)
  | releaseDone (bench : Nat)
  | shardCreate (shard : Nat)
  | shardRestore (shard : Nat)
  | shardReplicate (shard : Nat) (target : ModuleId)
  | tableLost (conv : Nat)
  | release (conv fromGroup : Nat)
  | state (conv : Nat) (st : ConvState)
  | refcount (p : PageRef) (seq : Nat) (up : Bool)
  | replicaAdd (p : PageRef) (holder : ModuleId) (pageId : Nat)
  | primaryFree (p : PageRef)
  | replicaDrop (p : PageRef) (holder : ModuleId)
  | repair (p : PageRef) (key value : Block)
  | dropReplica (p : PageRef)
  deriving DecidableEq, Repr, Inhabited

/-- Exbor management commands (R475). -/
inductive MgmtOp where
  | readRegs (off bytes : Nat)
  | readLog (seq : Nat)
  | readMeter (seq : Nat)
  | stageBench (epoch : Nat) (record : BitVec 1024)
  | stageRoute (epoch first : Nat) (es : List Word)
  | stageExport (epoch : Nat) (region : BitVec 256)
  | stageRackmap (epoch : Nat) (slots : List ModuleId)
  | stageEvac (epoch bench : Nat) (target : ModuleId) (targetBench : Nat)
  | sealEpoch (epoch s : Nat)
  | discardStage (epoch : Nat)
  | setSigPolicy (bench : Nat) (require : Bool) (keyHash : BitVec 256)
  | clearQuarantine (u : UnitId)
  | keyErase (bench : Nat)
  | reset (cold : Bool)
  | keepEnter
  | restEnter
  deriving DecidableEq, Repr, Inhabited

/-- Hauls and the keeper's store. -/
structure HaulSt where
  /-- ST hauls at their source by haul_id; R212 R213 09_requests_and_hauls.md; reset none -/
  out : Table SrcHaul := []
  /-- ST 32 bits, next haul_id; R212 09_requests_and_hauls.md; reset 0 DESIGN CHOICE (log entry 3) -/
  nextId : Nat := 0
  /-- ST hauls at their destination: haul_id, state; R213 09_requests_and_hauls.md; reset none -/
  inn : List (Nat × DstHaul) := []
  /-- ST haul_ids freed, with tick and FREED stamp, for 64 ticks; R215 09_requests_and_hauls.md; reset none -/
  freed : List (Nat × Nat × Stamp) := []
  /-- ST new homes of conversations that left, for forwarding; R214 09_requests_and_hauls.md; reset none -/
  gone : Table Gone := []
  /-- ST descriptors forwarded to a new home, with their result and the commit that forwarded them, whose records wait
  for the status it returns; R214 09_requests_and_hauls.md; reset none -/
  forwarded : List (Cpl × Nat × Nat) := []
  /-- ST pulls in progress; R211 09_requests_and_hauls.md; reset none -/
  pulls : List Pull := []
  /-- ST conversations to evacuate with their targets; R332 13_rack_fabric.md; reset none -/
  evac : List (Nat × ModuleId × Nat) := []
  /-- ST keeper's logs, replicas and checkpoints by conv_key; R217 R218 R220 09_requests_and_hauls.md; reset none -/
  keeper : Table KeeperLog := []
  /-- ST notices and messages that act at a commit: landing stamp, command; R34 02_tick.md; reset none -/
  notices : List (Stamp × Notice) := []
  deriving DecidableEq, Repr, Inhabited

/-- The memory tiers and flash. -/
structure TierSt where
  /-- ST tier moves by number; R256 11_memory_tiers.md; reset none -/
  moves : Table Move := []
  /-- ST next move number; R256 11_memory_tiers.md; reset 0 DESIGN CHOICE (log entry 3) -/
  nextMove : Nat := 0
  /-- ST moves made ready at a commit, issued next tick; R259 11_memory_tiers.md; reset none -/
  ready : List Move := []
  /-- ST pages to read again, the commit that does, whether that failed; R120 05_compressed_blocks.md; reset none -/
  reread : List (PageRef × Nat × Bool) := []
  /-- ST erase blocks by number; R265 R267 11_memory_tiers.md; reset 0 -/
  blocks : Table FBlock := []
  /-- ST 10 bits, TR_FLASH_FREE free_pm; R497 21_register_map.md; reset 1,000 DESIGN CHOICE (log entry 3) -/
  freePm : Nat := 1000
  /-- ST 1 bit, writes to flash held; R268 R271 11_memory_tiers.md; reset 0 -/
  hold : Bool := false
  /-- ST retired erase blocks; R271 11_memory_tiers.md; reset 0 -/
  badBlocks : Nat := 0
  /-- ST units written by moves and hauls, and by duties; R497 21_register_map.md; reset 0 -/
  unitsMoved : Nat := 0
  /-- ST units written by duties; R497 21_register_map.md; reset 0 -/
  unitsDuty : Nat := 0
  /-- ST 1 bit, the life alert was logged; R270 11_memory_tiers.md; reset 0 -/
  lifeAlert : Bool := false
  /-- ST 1 bit, TR_STATUS relist_done; R272 11_memory_tiers.md; reset 0 -/
  relist : Bool := false
  /-- ST conversations and holder tables kept on flash across power loss; R272 11_memory_tiers.md; reset none -/
  parked : Table Conv := []
  /-- ST flash reads in flight; R269 R274 11_memory_tiers.md; reset none -/
  reads : Table FRead := []
  /-- ST flash writes until durable; R266 11_memory_tiers.md; reset none -/
  writes : Table FWrite := []
  /-- ST extents on flash by page ID: bench and length in KiB; R156 07_page_cache.md; reset none -/
  extents : Table (Nat × Nat) := []
  /-- ST corrected errors per frame (tier, unit, frame, tick); R277 11_memory_tiers.md; reset none -/
  ces : List (Tier × Nat × Nat × Nat) := []
  /-- ST retired frames, kept in the boot NOR; R277 11_memory_tiers.md; reset none -/
  frames : List (Tier × Nat × Nat) := []
  /-- ST retired pseudo-channels and channels; R278 11_memory_tiers.md; reset none -/
  channels : List (Tier × Nat) := []
  /-- ST memory and flash slices leaving a bench, with the bytes still to move; R63 03_benches_and_placement.md; reset
  none -/
  leaving : List (Nat × Tier × Nat × Nat) := []
  /-- ST patrol scrubs done per tier; R276 11_memory_tiers.md; reset 0 -/
  scrubs : Table Nat := []
  /-- ST ZQ calibrations done; R254 11_memory_tiers.md; reset 0 -/
  zq : Nat := 0
  deriving DecidableEq, Repr, Inhabited

/-- Links, routes, rack memory and map epochs. -/
structure FabSt where
  /-- ST 16 bits, this module's rack and module; R201 R308 13_rack_fabric.md; reset 0 DESIGN CHOICE (log entry 2) -/
  self : ModuleId := 0
  /-- ST 96 links; R306 13_rack_fabric.md; reset DOWN -/
  links : Table Link := []
  /-- ST 16 bits, epoch in force; R498 21_register_map.md; reset 0 -/
  epoch : Nat := 0
  /-- ST map set in force: bench records, 4,096 routes, 64 regions, 32 rack slots, evacuations; R315 R322 R323
  13_rack_fabric.md; reset none -/
  maps : MapSet := {}
  /-- ST staged set and its epoch; R476 20_management_and_metering.md; reset none -/
  staged : Option (Nat × MapSet) := none
  /-- ST sealed set, epoch and switch tick; R476 20_management_and_metering.md; reset none -/
  sealSet : Option (Nat × Nat × MapSet) := none
  /-- ST previous epoch, its set, and the tick at whose cut-off its drain ends; R331 13_rack_fabric.md; reset none -/
  prev : Option (Nat × Nat × MapSet) := none
  /-- ST source contexts by target; R318 13_rack_fabric.md; reset none -/
  src : Table SrcCtx := []
  /-- ST target contexts by source, 4,096; R319 13_rack_fabric.md; reset none -/
  tgt : Table TgtCtx := []
  /-- ST combined packets awaiting their answer; R328 R329 13_rack_fabric.md; reset none -/
  comb : List Combine := []
  /-- ST transfers being assembled: source, xfer_id, packets held; R313 13_rack_fabric.md; reset none -/
  xfers : List (Nat × Nat × List Packet) := []
  /-- ST export memory, up to 8 TiB, bytes by export-space offset, unlisted zero; R323 13_rack_fabric.md; reset zero
  -/
  mem : List Host.Cell := []
  /-- ST rack operations of the host in progress, by number; R346 14_remote_windows.md; reset none -/
  ops : Table Rma := []
  /-- ST request packets that wait for budget or room in their pair series, with their operation; R318 R348
  14_remote_windows.md; reset none -/
  waits : List (Packet × Option Nat) := []
  /-- ST next operation number; R346 14_remote_windows.md; reset 0 DESIGN CHOICE (log entry 3) -/
  nextOp : Nat := 0
  /-- ST packets in the receive buffers that have not moved on, with their links, and credits withheld; R314 R359
  13_rack_fabric.md; reset none -/
  owed : List (Packet × Nat) := []
  deriving DecidableEq, Repr, Inhabited

/-- Remote windows and queue pairs. -/
structure WinSt where
  /-- ST 65,536 open windows by index; R335 14_remote_windows.md; reset closed -/
  wins : Table Window := []
  /-- ST 16-bit generation per index, unlisted 1; R335 14_remote_windows.md; reset 1 -/
  gens : Table Nat := []
  /-- ST queue-pair contexts by qpn; R344 14_remote_windows.md; reset FREE -/
  qps : Table Qp := []
  /-- ST context cache of LT0 and LT1, 8,192 each, newest first; R357 14_remote_windows.md; reset empty -/
  cache0 : List Nat := []
  /-- ST context cache of LT1; R357 14_remote_windows.md; reset empty -/
  cache1 : List Nat := []
  /-- ST fetches in flight by qpn; R358 14_remote_windows.md; reset none -/
  fetching : List Nat := []
  /-- ST miss buffers, 4 MiB per tile, packets in arrival order with their landing stamps; R358 14_remote_windows.md;
  reset empty -/
  parked : List (Stamp × WPacket) := []
  /-- ST revoked windows that parked requests of an earlier stamp still reach; R338 14_remote_windows.md; reset none -/
  closing : List Closing := []
  /-- ST window requests that wait while a tile's miss buffer stalls, with their landing stamps; R359
  14_remote_windows.md; reset none -/
  held : List (Stamp × WPacket) := []
  /-- ST full since, per tile, for WN_MISS_STALL; R359 14_remote_windows.md; reset none -/
  stall0 : Option Stamp := none
  /-- ST full since, LT1; R359 14_remote_windows.md; reset none -/
  stall1 : Option Stamp := none
  deriving DecidableEq, Repr, Inhabited

/-- Control firmware, boot chain and watchdogs. -/
structure FwSt where
  /-- ST 3 bits, SC_BOOT_STATUS stage; R391 16_firmware_and_startup.md; reset ROM -/
  stage : Stage := .rom
  /-- ST last row of the start-up table completed; R388 16_firmware_and_startup.md; reset 0 -/
  row : Nat := 0
  /-- ST control restart in progress: cause, stamp, restarts of this episode; R402 16_firmware_and_startup.md; reset
  none -/
  restart : Option (Nat × Stamp × Nat) := none
  /-- ST stamp from which the firmware plans again; R402 16_firmware_and_startup.md; reset none -/
  readyAt : Option Stamp := none
  /-- ST 3 bits, ticks coasted in a row; R404 16_firmware_and_startup.md; reset 0 -/
  coast : Nat := 0
  /-- ST 4 bits, late plans in a row; R400 16_firmware_and_startup.md; reset 0 -/
  late : Nat := 0
  /-- ST 1 bit, the next plan is late and coasts; R400 16_firmware_and_startup.md; reset 0 -/
  planLate : Bool := false
  /-- ST image headers by slot: 0 loader A, 1 loader B, 2 firmware A, 3 firmware B; R392 R394
  16_firmware_and_startup.md; reset none DESIGN CHOICE (log entry 3) -/
  slots : Table Image := []
  /-- ST header of the loader image that runs; R438 18_security.md; reset none -/
  ldrRun : Option Image := none
  /-- ST header of the firmware image that runs; R438 R494 18_security.md; reset none -/
  fwRun : Option Image := none
  /-- ST 64 bytes, boot directory copy 0; R393 16_firmware_and_startup.md; reset 0, no valid copy DESIGN CHOICE (log
  entry 3) -/
  dir0 : BitVec 512 := 0
  /-- ST 64 bytes, boot directory copy 1; R393 16_firmware_and_startup.md; reset 0 DESIGN CHOICE (log entry 3) -/
  dir1 : BitVec 512 := 0
  /-- ST commits the firmware has run since the trial's first boot; R399 16_firmware_and_startup.md; reset 0 -/
  trialRuns : Nat := 0
  /-- ST stamps of control restarts; R401 16_firmware_and_startup.md; reset none -/
  restarts : List Stamp := []
  /-- ST 32 bits, control restarts since cold reset; R501 21_register_map.md; reset 0 -/
  restartCount : Nat := 0
  /-- ST 8 entries of RL_RESTART_LOG by index; R501 21_register_map.md; reset 0 -/
  restartLog : Table RestartEntry := []
  /-- ST 1 bit, the boot watchdog has expired since the last cold reset it made; R400 16_firmware_and_startup.md;
  reset 0 -/
  bootExpired : Bool := false
  /-- ST 1 bit, a hitless activation waits; R398 16_firmware_and_startup.md; reset 0 -/
  hitlessWait : Bool := false
  /-- ST 1 bit, PERST# is low; R390 R513 16_firmware_and_startup.md; reset 1 DESIGN CHOICE (log entry 3) -/
  perstLow : Bool := true
  /-- ST 1 bit, RESET_N is low; R516 22_module_and_connectors.md; reset 0 -/
  resetLow : Bool := false
  /-- ST 64 bits, tick of the last commit before an escalated cold reset, in the boot NOR; R424
  17_faults_and_recovery.md; reset none -/
  escalated : Option Nat := none
  /-- ST 1 bit, the last reset was a cold reset; R387 16_firmware_and_startup.md; reset 1 -/
  cold : Bool := true
  deriving DecidableEq, Repr, Inhabited

/-- Faults, quarantine, availability, Keep mode. -/
structure FaultSt where
  /-- ST 32 bits, RL_LOG_PROD seq; R411 17_faults_and_recovery.md; reset 0 -/
  prod : Nat := 0
  /-- ST 512 entries of 64 bytes, the volatile log; R411 17_faults_and_recovery.md; reset empty -/
  vol : List LogEntry := []
  /-- ST 32 bits, seq of the persistent log; R412 17_faults_and_recovery.md; reset 0 DESIGN CHOICE (log entry 3) -/
  pprod : Nat := 0
  /-- ST 131,072 entries, the persistent log in the boot NOR; R412 17_faults_and_recovery.md; reset empty DESIGN
  CHOICE (log entry 3) -/
  pers : List LogEntry := []
  /-- ST lost arbitrations; R414 R416 17_faults_and_recovery.md; reset none -/
  losses : List Loss := []
  /-- ST quarantine records: up to 8 (band, pattern) pairs per unit, in the boot NOR; R416 R419
  17_faults_and_recovery.md; reset none -/
  quarantine : List (UnitId × List (Nat × Nat)) := []
  /-- ST retired units, in the boot NOR; R418 R419 17_faults_and_recovery.md; reset none -/
  retired : List UnitId := []
  /-- ST units out of service for the tick; R417 17_faults_and_recovery.md; reset none -/
  outNow : List UnitId := []
  /-- ST four 64-bit RL_AVAIL counters, in the boot NOR; R423 17_faults_and_recovery.md; reset 0 -/
  avail : Nat × Nat × Nat × Nat := (0, 0, 0, 0)
  /-- ST cause and stamp of Keep mode; R425 17_faults_and_recovery.md; reset none -/
  keep : Option (Nat × Stamp) := none
  /-- ST 1 + 8 + 32 + 32 bits, RL_READOUT_RESULT done, status, bytes, next; R427 17_faults_and_recovery.md; reset 1,
  0, 0, 0 -/
  readout : Bool × Nat × Nat × Nat := (true, 0, 0, 0)
  deriving DecidableEq, Repr, Inhabited

/-- Identity and security. -/
structure SecSt where
  /-- ST two 32-bit anti-rollback counters, LOADER and FIRMWARE, in the secure element; R433 18_security.md; reset as
  made DESIGN CHOICE (log entry 3) -/
  rollback : Nat × Nat := (0, 0)
  /-- ST 1 bit, the PUF, the secure element and the pairing record agree, so that a pairing check passes; R434
  18_security.md; reset 1 DESIGN CHOICE (log entry 67) -/
  genuine : Bool := true
  /-- ST 1 bit, the last pairing check passed; R434 18_security.md; reset 0 -/
  paired : Bool := false
  /-- ST 256-bit pairing_key and 256-bit srk in two key registers; R435 18_security.md; reset cleared -/
  engineKeys : Option (BitVec 256 × BitVec 256) := none
  /-- ST up to 4 SPDM sessions; R437 18_security.md; reset none -/
  sessions : Table Session := []
  /-- ST per transport, version and algorithms negotiated; R437 18_security.md; reset none -/
  negotiated : Table Nat := []
  /-- ST 16 flash keys: generation 32 bits, wrapped record, key registers; R444 18_security.md; reset none -/
  keys : Table FlashKey := []
  /-- ST measurement indices 6 and 23 as formed at SETUP_LOCK: the locked registers; R438 18_security.md; reset all
  zero -/
  locked : Option (List (Nat × Word)) := none
  /-- ST 8 bits, SC_KEY_CTRL status; R502 21_register_map.md; reset 0 -/
  keyStatus : Nat := 0
  /-- ST erasures waiting for their commit: stamp, all, bench; R445 18_security.md; reset none -/
  erase : List (Stamp × Bool × Nat) := []
  deriving DecidableEq, Repr, Inhabited

/-- Power, clocks, sensors and sideband. -/
structure PwrSt where
  /-- ST 1 bit, power removed under R460 or the input is down; R460 19_power_and_clocks.md; reset 0 -/
  off : Bool := false
  /-- ST 1 bit, the input fell below 45 V and has not risen through 48 V since; R385 16_firmware_and_startup.md; reset
  0 -/
  inputDown : Bool := false
  /-- ST 3 bits, PW_STATE state; R461 19_power_and_clocks.md; reset RUN -/
  state : PwState := .run
  /-- ST 3 bits, PW_STATE last_refusal; R462 19_power_and_clocks.md; reset 0 -/
  refusal : Nat := 0
  /-- ST Rest requests waiting for their commit: stamp and management command; R462 19_power_and_clocks.md; reset none
  -/
  restReq : List (Stamp × Option MgmtCmd) := []
  /-- ST 1 bit, the next tick start enters Rest; R463 19_power_and_clocks.md; reset 0 -/
  restDue : Bool := false
  /-- ST 1 bit, doorbell-landed flag; R465 19_power_and_clocks.md; reset 0 -/
  bellFlag : Bool := false
  /-- ST 1 bit, link wake flag; R465 19_power_and_clocks.md; reset 0 -/
  linkFlag : Bool := false
  /-- ST wake event latched while ENTERING: cause, stamp; R467 19_power_and_clocks.md; reset none -/
  latched : Option (Nat × Stamp) := none
  /-- ST PW_WAKE_LOG cause 4, event stamp 96, wake_ns 32; R500 21_register_map.md; reset 0 -/
  wakeLog : Nat × Stamp × Nat := (0, ⟨0, 0⟩, 0)
  /-- ST 1 bit, PW_CLK_STATUS plan_stable; R389 16_firmware_and_startup.md; reset 0 -/
  planStable : Bool := false
  /-- ST 1 bit, plan_stable has read 1 since the reset; R509 22_module_and_connectors.md; reset 0 -/
  wasStable : Bool := false
  /-- ST protective loops acting: tile, cause; R457 R458 19_power_and_clocks.md; reset none -/
  loops : List (Nat × OvCause) := []
  /-- ST 24 bits, PW_OVERRIDE; R458 19_power_and_clocks.md; reset 0 -/
  override : List (Nat × OvCause) := []
  /-- ST tiles with an override in the tick in progress; R458 19_power_and_clocks.md; reset none -/
  affected : List Nat := []
  /-- ST arithmetic clock per tile in MHz, unlisted at the floor; R454 R457 19_power_and_clocks.md; reset none -/
  clock : Table Nat := []
  /-- ST input voltage in mV; R452 19_power_and_clocks.md; reset 56,000 DESIGN CHOICE (log entry 3) -/
  mv : Nat := 56000
  /-- ST 1 bit, an excursion of the input was logged; R452 19_power_and_clocks.md; reset 0 -/
  excursion : Bool := false
  /-- ST 1 bit, FLOW_OK after its filter; R508 22_module_and_connectors.md; reset 1 DESIGN CHOICE (log entry 3) -/
  flowOk : Bool := true
  /-- ST 1 bit, start-up held for flow; R509 22_module_and_connectors.md; reset 0 -/
  held : Bool := false
  /-- ST 1 bit, PWR_GOOD; R515 22_module_and_connectors.md; reset 0 -/
  pwrGood : Bool := false
  deriving DecidableEq, Repr, Inhabited

/-- Management. -/
structure MgmtSt where
  /-- ST 1 bit, MG_MIRROR_CTRL busy; R474 20_management_and_metering.md; reset 0 -/
  busy : Bool := false
  /-- ST 4 KiB request and 4 KiB response mirror buffers, the pending command's header; R474
  20_management_and_metering.md; reset 0 -/
  mirror : Option MgmtCmd := none
  /-- ST commands that act at a commit: stamp, command; R475 20_management_and_metering.md; reset none -/
  held : List (MgmtCmd × MgmtOp) := []
  /-- ST commands latched in Rest; R464 R475 20_management_and_metering.md; reset none -/
  latched : List (MgmtCmd × MgmtOp) := []
  /-- ST requests of other protocols latched in Rest; R464 R475 20_management_and_metering.md; reset none -/
  latchedSide : List (Transport × SideReq) := []
  /-- ST sensor readings by number; R477 20_management_and_metering.md; reset 0 DESIGN CHOICE (log entry 3) -/
  sensors : Table Int := []
  /-- ST sensors disabled; R477 20_management_and_metering.md; reset none DESIGN CHOICE (log entry 3) -/
  disabled : List Nat := []
  /-- ST event receiver EID; R477 20_management_and_metering.md; reset none -/
  receiver : Option (Transport × Nat) := none
  /-- ST MCTP endpoint ID per transport; R470 20_management_and_metering.md; reset none -/
  eids : Table Nat := []
  /-- ST PLDM update in progress; R479 20_management_and_metering.md; reset none -/
  update : Option Update := none
  /-- ST 32 bits, MG_METER_PROD seq; R483 20_management_and_metering.md; reset 0 -/
  meterProd : Nat := 0
  /-- ST 65,536 meter records; R483 20_management_and_metering.md; reset empty -/
  meter : List MeterRec := []
  /-- ST counts of open bench records; R480 20_management_and_metering.md; reset 0 -/
  open_ : Table OpenMeter := []
  /-- ST benches whose record closes at this commit: bench, reason; R480 20_management_and_metering.md; reset none -/
  closing : List (Nat × Nat) := []
  deriving DecidableEq, Repr, Inhabited

/-- The module: what the spec gives it, the commands that wait, and the model's own counter of free values. -/
structure State where
  /-- ST the stock code of the module; R2 00_scope.md; reset MX DESIGN CHOICE (log entry 2) -/
  stock : Stock := .mx
  time : TimeSt := {}
  bar : BarSt := {}
  host : HostSt := {}
  /-- ST 16 benches: record 1,024 bits, state 3 bits, model and its package, load, drain, fit queue, automata, goodput
  counts; R59 R69 R72 R127 R235 R421 03_benches_and_placement.md; reset EMPTY, no record -/
  benches : Table Bench := []
  work : WorkSt := {}
  plan : PlanSt := {}
  haul : HaulSt := {}
  tier : TierSt := {}
  /-- ST 256 vector shards and replicas by shard_id; R281 12_vector_retrieval.md; reset none -/
  shards : Table Shard := []
  fab : FabSt := {}
  win : WinSt := {}
  fw : FwSt := {}
  fault : FaultSt := {}
  sec : SecSt := {}
  pwr : PwrSt := {}
  mgmt : MgmtSt := {}
  /-- ST what the module has presented at its connectors, oldest first; R1 00_scope.md; reset none -/
  out : List Output := []
  /-- ST bytes counted on the budgets in the tick beside the plan's own, by 4b + 0 HBM, 1 LPDDR, 2 flash, 3 link of
  bench b, and at 64 + the same what the migration share took of them; R66 R67 03_benches_and_placement.md; reset 0 -/
  spent : Table Nat := []
  /-- ST the model's own counter of free values, not the spec's; log entry 1; reset 0 DESIGN CHOICE (log entry 1) -/
  fresh : Nat := 0
  /-- ST commands that wait, first in first out, the model's own; log entry 5; reset empty -/
  pending : List Instr := []
  deriving DecidableEq, Repr, Inhabited

/-- The module right after a cold reset (R386, R388): the Reset columns of R494 to R502 and the values the log names.
-/
def State.reset : State := {}

end Sys2Proof.Machine
end

