-- ==== Sys2Proof/Machine/Ops.lean ====
section
/-! DEFINITION. Named operations over tables, memory, time, the error log, the counters and the outputs. -/

namespace Sys2Proof.Machine

/-! ## Tables -/

/-- The value at a key. -/
def tget {α : Type} : Table α → Nat → Option α
  | [], _ => none
  | (k, v) :: r, n => if k = n then some v else tget r n

/-- The table with `x` at key `n`, keys kept strictly rising. -/
def tput {α : Type} : Table α → Nat → α → Table α
  | [], n, x => [(n, x)]
  | (k, v) :: r, n, x =>
    if n < k then (n, x) :: (k, v) :: r
    else if n = k then (n, x) :: r
    else (k, v) :: tput r n x

/-- The table without key `n`. -/
def tdel {α : Type} (t : Table α) (n : Nat) : Table α := t.filter (fun p => !(p.1 == n))

/-- The table with the value at `n` changed, if there is one. -/
def tmod {α : Type} (t : Table α) (n : Nat) (f : α → α) : Table α :=
  match tget t n with
  | some x => tput t n (f x)
  | none => t

/-- The value at a key, or the type's default. -/
def tgetD {α : Type} [Inhabited α] (t : Table α) (n : Nat) : α := (tget t n).getD default

/-- Keys strictly rising: the canonical form. -/
def tableWf {α : Type} : Table α → Bool
  | [] => true
  | [_] => true
  | a :: b :: r => decide (a.1 < b.1) && tableWf (b :: r)

/-- The first number from `n` up, within `fuel` tries, that is no key. -/
def freeKey {α : Type} (t : Table α) : Nat → Nat → Nat
  | 0, n => n
  | fuel + 1, n => if (tget t n).isSome then freeKey t fuel (n + 1) else n

/-! ## Rack memory (R323): bytes by export-space offset, unlisted bytes zero -/

/-- The byte at an address. -/
def memRead (m : List Host.Cell) (a : Nat) : Byte := (tget m a).getD 0

/-- The memory with a byte written; writing zero removes the entry. -/
def memWrite (m : List Host.Cell) (a : Nat) (b : Byte) : List Host.Cell :=
  if b = 0 then tdel m a else tput m a b

/-- Bytes written from an address up. -/
def memWriteBytes (m : List Host.Cell) (a : Nat) : List Byte → List Host.Cell
  | [] => m
  | b :: bs => memWriteBytes (memWrite m a b) (a + 1) bs

/-- Bytes whose mask bit is 1 written, bit i for byte i (R313). -/
def memWriteMask (m : List Host.Cell) (a mask i : Nat) : List Byte → List Host.Cell
  | [] => m
  | b :: bs => memWriteMask (if mask.testBit i then memWrite m (a + i) b else m) a mask (i + 1) bs

/-- `n` bytes from an address up. -/
def memReadBytes (m : List Host.Cell) (a n : Nat) : List Byte := (List.range n).map (fun i => memRead m (a + i))

/-- Memory with every byte of [a, a + n) zero (R323, R448). -/
def memClear (m : List Host.Cell) (a n : Nat) : List Host.Cell :=
  m.filter (fun c => decide (c.1 < a) || decide (a + n ≤ c.1))

/-- The canonical form: addresses strictly rising, no entry zero. -/
def memWf (m : List Host.Cell) : Bool := tableWf m && m.all (fun c => !(c.2 == 0))

/-- A little-endian number (R7). -/
def leNat : List Byte → Nat
  | [] => 0
  | b :: bs => b.toNat + 256 * leNat bs

/-- The low `n` bytes of a number, little-endian (R7). -/
def leBytes : Nat → Nat → List Byte
  | 0, _ => []
  | n + 1, v => BitVec.ofNat 8 v :: leBytes n (v / 256)

/-! ## Stamps (R31) -/

/-- Earlier than. -/
def stampLt (a b : Stamp) : Bool := a.tick < b.tick || (a.tick == b.tick && a.off < b.off)

/-- Not later than. -/
def stampLe (a b : Stamp) : Bool := !stampLt b a

/-- The later of two stamps: the counter never goes backwards (R31). -/
def stampMax (a b : Stamp) : Stamp := if stampLt a b then b else a

/-- One more output. -/
def emit (s : State) (o : Output) : State := { s with out := s.out ++ [o] }

/-! ## Budgets (R66) -/

/-- n bytes counted on budget k of bench b: 0 HBM, 1 LPDDR, 2 flash, 3 link. -/
def charge (s : State) (b k n : Nat) : State :=
  { s with spent := tput s.spent (4 * b + k) ((tget s.spent (4 * b + k)).getD 0 + n) }

/-- Bytes counted beside the plan on budget k of bench b in the tick. -/
def spentOf (s : State) (b k : Nat) : Nat := (tget s.spent (4 * b + k)).getD 0

/-- Bytes of a page's two blocks as a message carries them, with its entry. -/
def pageMsgBytes (e : Entry) : Nat := 16 + 64 + e.key.payload.length + e.value.payload.length

/-- Bytes of a message: its header and what follows it (log entry 124). -/
def msgBytes : Msg → Nat
  | .haul m => 32 + (match m.body with
    | .data (.pages es) => (es.map pageMsgBytes).sum
    | .data (.records rs) => (rs.map (fun r => 32 + r.payload.length)).sum
    | .data (.table _ es _) => 64 + 16 * es.length
    | .data (.log gs) => (gs.map (fun g => 48 + g.body.length)).sum
    | .data (.sampler h r) => 64 + 192 + 64 + 32 * ceilDiv (4 * fieldOf h 319 288) 32 +
        (match r.auto with | some a => fieldOf a.hdr 95 64 | none => 0) + 16 * r.waitTok.length
    | .none => 0
    | _ => 32)
  | .segment g => 48 + g.body.length
  | .checkpoint _ c _ => 256 + (c.entries.map pageMsgBytes).sum + (c.recs.map (fun r => 32 + r.payload.length)).sum
  | .replicaCopy _ e => 32 + pageMsgBytes e
  | .ask _ es => 32 + (es.map (fun e => fieldOf e.hdr 31 0)).sum
  | .answer _ es => 32 + (es.map (fun e => fieldOf e.hdr 31 0)).sum
  | .settle _ es => 32 + 16 * es.length
  | .vecAsk _ es => 32 + (es.map (fun e => 32 + 2 * e.elems.length)).sum
  | .vecAnswer _ es => 32 + (es.map (fun e => 32 + 16 * e.results.length)).sum
  | .vecSeg g => 32 + (g.recs.map (fun v => 32 + 4 * v.adj.length + 2 * v.elems.length)).sum
  | .packet p => 32 + p.payload.length
  | .wpacket p => 64 + p.data.length
  | _ => 32

/-- A message to a module, for a bench where one originates it, on whose link budget it counts (R66); one within the
module uses no link (R528). -/
def send (s : State) (dst : ModuleId) (b : Option Nat) (m : Msg) : State :=
  let s1 := emit s (.send dst b m)
  match b with
  | some x => if dst = s.fab.self then s1 else charge s1 x 3 (msgBytes m)
  | none => s1

/-- The counter of free values read and advanced. -/
def State.bump (s : State) : State := { s with fresh := s.fresh + 1 }

/-- A counter raised modulo 2⁶⁴ (R493). -/
def count (s : State) (off n : Nat) : State :=
  { s with bar := { s.bar with live := tput s.bar.live off (((tget s.bar.live off).getD 0 + n) % 2 ^ 64) } }

/-- A count held in a half of its register, wrapping modulo 2³² (R493). -/
def countHalf (s : State) (off : Nat) (high : Bool) (n : Nat) : State :=
  let v := (tget s.bar.live off).getD 0
  let lo := v % 2 ^ 32
  let hi := v / 2 ^ 32
  let v' := if high then lo + 2 ^ 32 * ((hi + n) % 2 ^ 32) else (lo + n) % 2 ^ 32 + 2 ^ 32 * hi
  { s with bar := { s.bar with live := tput s.bar.live off v' } }

/-- A gauge (R496). -/
def gauge (s : State) (off n : Nat) : State :=
  { s with bar := { s.bar with live := tput s.bar.live off n } }

/-! ## Benches -/

/-- Bench b as it stands. -/
def bench (s : State) (b : Nat) : Bench := tgetD s.benches b

/-- Bench b changed. -/
def setBench (s : State) (b : Nat) (f : Bench → Bench) : State :=
  { s with benches := tput s.benches b (f (bench s b)) }

/-- The bench has a record in the current epoch (R70). -/
def hasRecord (s : State) (b : Nat) : Bool := (tget s.fab.maps.benches b).isSome

/-- A bench's role (R15, R59): 0 PROMPT, 1 GENERATION, 2 CACHE, 3 MIXED. -/
def role (s : State) (b : Nat) : Nat := fieldOf (bench s b).record 9 8

/-- The bench runs SHORT_SIGHT rather than REBUILD (R59, R196). -/
def shortSight (s : State) (b : Nat) : Bool := fieldOf (bench s b).record 11 10 == 1

/-- The bench promises bounded loss (R59, R220). -/
def bounded (s : State) (b : Nat) : Bool := bitOf (bench s b).record 12

/-- Checkpoint interval K (R59). -/
def ckptK (s : State) (b : Nat) : Nat := fieldOf (bench s b).record 21 16 + 1

/-- Low 32 bits of the fingerprint of the model in force (R68, R495). -/
def benchTag (s : State) (b : Nat) : Nat :=
  match (bench s b).pkg with
  | some p => fieldOf p.manifest 159 128
  | none => 0

/-! ## Requests and conversations -/

def req (s : State) (k : Nat) : Option Req := tget s.work.reqs k
def conv (s : State) (k : Nat) : Option Conv := tget s.work.convs k

def putReq (s : State) (r : Req) : State := { s with work := { s.work with reqs := tput s.work.reqs r.key r } }
def putConv (s : State) (c : Conv) : State := { s with work := { s.work with convs := tput s.work.convs c.key c } }
def modReq (s : State) (k : Nat) (f : Req → Req) : State :=
  { s with work := { s.work with reqs := tmod s.work.reqs k f } }
def modConv (s : State) (k : Nat) (f : Conv → Conv) : State :=
  { s with work := { s.work with convs := tmod s.work.convs k f } }
def delReq (s : State) (k : Nat) : State := { s with work := { s.work with reqs := tdel s.work.reqs k } }
def delConv (s : State) (k : Nat) : State := { s with work := { s.work with convs := tdel s.work.convs k } }

/-- A request is live in these states (R198). -/
def reqLive : ReqState → Bool
  | .suspended => false
  | .ended => false
  | _ => true

/-! ## MSI-X (R376) -/

/-- Virtual function b is enabled (R366). -/
def vfOn (s : State) (b : Nat) : Bool := s.host.vfEnable && decide (b < s.host.numVfs)

/-- The function that drives bench b's rings (R366). -/
def driver (s : State) (b : Nat) : Fn := if vfOn s b then .vf b else .pf

/-- A write to a function's host memory; none while the module writes nothing more there (R446). -/
def emitTo (s : State) (fn : Fn) (o : Output) : State := if s.host.ideStopped.contains fn then s else emit s o

/-- A vector signalled. -/
def signal (s : State) (fn : Fn) (v : Nat) : State := emitTo s fn (.vector fn v)

/-- The error vector (R376). -/
def errVector (s : State) : State := signal s .pf 32

/-- Bench b's completion vector (R376). -/
def cqVector (s : State) (b : Nat) : State := if vfOn s b then signal s (.vf b) 0 else signal s .pf (2 * b)

/-- Bench b's stream vector (R245, R376). -/
def streamVector (s : State) (b : Nat) : State := if vfOn s b then signal s (.vf b) 1 else signal s .pf (2 * b + 1)

/-! ## The error log (R408 to R413) -/

/-- The class's value (R408). -/
def ErrClass.code : ErrClass → Nat
  | .shadow => 1 | .block => 2 | .memory => 3 | .flash => 4 | .link => 5 | .tick => 6 | .message => 7
  | .control => 8 | .host => 9 | .environment => 10 | .security => 11 | .keep => 12 | .accounting => 13 | .load => 14

/-- Severity of a cause: 0 INFO, 1 MINOR, 2 MAJOR, 3 CRITICAL (R408, R409). -/
def severity : ErrClass → Nat → Nat
  | .shadow, c => if c = 1 ∨ c = 6 then 1 else 2
  | .block, c => if c = 0x20 then 3 else if 0x11 ≤ c ∧ c ≤ 0x15 then 2 else 1
  | .memory, c => if c = 1 then 0 else if c = 4 then 3 else 2
  | .flash, c => if c ≤ 3 then 1 else if c = 4 then 2 else 3
  | .link, c => if c = 3 then 3 else 2
  | .tick, c => if c = 1 ∨ c = 4 then 0 else if c = 5 then 3 else 2
  | .message, c => if c = 1 ∨ c = 2 ∨ c = 5 then 1 else 2
  | .control, c => if c = 2 then 1 else if c = 4 then 3 else 2
  | .host, c => if c = 3 then 0 else 2
  | .environment, c => if c = 3 then 3 else 2
  | .security, c => if c = 1 then 3 else 2
  | .keep, _ => 3
  | .accounting, _ => 2
  | .load, c => if c = 4 ∨ c = 5 then 2 else 1

/-- Two entries are the same occurrence within 1 s, by ticks of P × 10 µs (R412). -/
def sameFault (period : Nat) (a b : LogEntry) : Bool :=
  a.cls == b.cls && a.cause == b.cause && a.bench == b.bench && a.unit == b.unit &&
  decide (b.stamp.tick * (10000 * period) + b.stamp.off ≤ a.stamp.tick * (10000 * period) + a.stamp.off + 1000000000)

/-- The persistent log with an entry written or folded (R412). -/
def persist (period : Nat) (log : List LogEntry) (prod : Nat) (e : LogEntry) : List LogEntry × Nat :=
  match log.reverse.find? (fun a => sameFault period a e) with
  | some a =>
    (log.map (fun x => if x.seq = a.seq then { x with repeats := min 65535 (x.repeats + 1) } else x), prod)
  | none =>
    let l := log ++ [{ e with seq := prod }]
    (if l.length > 131072 then l.drop 1 else l, (prod + 1) % 2 ^ 32)

/-- `RL_LOG_CTRL` persist_min (R430), read from the registers in force. -/
def persistMin (s : State) : Nat :=
  match tget s.bar.inForce 0x70010 with
  | some v => fieldOf v 1 0
  | none => 2

/-- `TK_PERIOD` period_10us (R28). -/
def period (s : State) : Nat :=
  match tget s.bar.inForce 0x10000 with
  | some v => fieldOf v 11 0
  | none => 1000

/-- A stamp with its offset below one tick: an offset of 10,000 × P or more is an offset of a later tick (R31). -/
def stampNorm (s : State) (t : Stamp) : Stamp :=
  if period s = 0 ∨ t.off < 10000 * period s then t
  else ⟨t.tick + t.off / (10000 * period s), t.off % (10000 * period s)⟩

/-- The counter moves on to a command's stamp (R31, R32). -/
def State.at (s : State) (t : Stamp) : State :=
  { s with time := { s.time with now := stampMax s.time.now (stampNorm s t) } }

/-- One entry of the error log at the present stamp (R410 to R413). -/
def logEntry (s : State) (e0 : LogEntry) : State :=
  let e := { e0 with seq := s.fault.prod, stamp := s.time.now, severity := severity e0.cls e0.cause }
  let vol := s.fault.vol ++ [e]
  let (pers, pprod) :=
    if persistMin s ≤ e.severity then persist (period s) s.fault.pers s.fault.pprod e
    else (s.fault.pers, s.fault.pprod)
  let s1 := { s with fault := { s.fault with
    vol := if vol.length > 512 then vol.drop 1 else vol, prod := (s.fault.prod + 1) % 2 ^ 32,
    pers := pers, pprod := pprod } }
  if 2 ≤ e.severity then emit (errVector s1) (.mgmtEvent e) else s1

/-- An entry by class, cause, bench, unit and details. -/
def logErr (s : State) (c : ErrClass) (cause : Nat) (b : Nat := 31) (u : UnitId := ⟨.none, 0⟩)
    (d0 : Nat := 0) (d1 : Nat := 0) : State :=
  logEntry s { cls := c, cause := cause, bench := b, unit := u, detail0 := d0, detail1 := d1 }

/-- An access counted in `RL_BAD_ACCESS` and logged (R366, R408 HOST cause 3). -/
def badAccess (s : State) : State := logErr (count s 0x70060 1) .host 3 (u := ⟨.pcie, 0⟩)

/-- Refused or dropped message (R186). -/
def malformed (s : State) : State := logErr s .message 1

/-! ## Pages -/

/-- The key of a page in its conversation: group, layer, KV head (R151, R162). -/
def entryIs (e : Entry) (p : PageRef) : Bool := e.group == p.group && e.layer == p.layer && e.head == p.head

/-- The primary entry of a page (R162). -/
def findPage (s : State) (p : PageRef) : Option Entry :=
  match conv s p.conv with
  | some c => c.entries.find? (fun e => entryIs e p && e.state != .replica)
  | none => none

/-- A primary entry of a page that lies on this module (R161). -/
def isOwn (e : Entry) : Bool := e.tier != .remote && e.state != .replica

/-- Two entries of this module name one datum: tables that share a page hold the same handle (R161, R167). -/
def sameDatum (a b : Entry) : Bool :=
  a.pageId == b.pageId && a.group == b.group && a.layer == b.layer && a.head == b.head

/-- A table changed by the commit in progress: last_tick of its header (R160). -/
def touchConv (s : State) (c : Conv) : Conv := { c with lastTick := s.time.now.tick }

/-- The primary entry of a page changed, in every table of this module that shares the page (R168, R169). -/
def modPage (s : State) (p : PageRef) (f : Entry → Entry) : State :=
  match findPage s p with
  | none => s
  | some e =>
    let here (k : Nat) (x : Entry) : Bool :=
      (k == p.conv && entryIs x p && x.state != .replica) || (isOwn e && isOwn x && sameDatum x e)
    { s with work := { s.work with convs := s.work.convs.map (fun c =>
      if c.2.entries.any (here c.1) then
        (c.1, touchConv s { c.2 with entries := c.2.entries.map (fun x => if here c.1 x then f x else x) })
      else c) } }

/-- The page an entry names. -/
def entryPage (e : Entry) (c : Nat) : PageRef := ⟨c, e.group, e.layer, e.head⟩

end Sys2Proof.Machine
end

