-- ==== Sys2Proof/Machine/Registers.lean ====
section
/-! DEFINITION. The set-up registers: the field table of R494 to R502, values in force and values written (R491), and
the figures of the tick that follow from them (R27 to R29, R34). -/

namespace Sys2Proof.Machine

/-- Access codes of stored fields (R8). No field of this edition is RWS. -/
inductive Access where | rwl | rw
  deriving DecidableEq, Repr

/-- A stored field: bits, access, reset, allowed values as a range and a multiple (R8, R28, R264 and the others). -/
structure Field where
  hi : Nat
  lo : Nat
  acc : Access
  reset : Nat
  min : Nat
  max : Nat
  mul : Nat := 1
  deriving Repr

/-- A field that takes any value of its bits. -/
def anyField (hi lo reset : Nat) : Field := ⟨hi, lo, .rwl, reset, 0, 2 ^ (hi + 1 - lo) - 1, 1⟩

/-- A field with a range. -/
def rngField (hi lo reset min max : Nat) : Field := ⟨hi, lo, .rwl, reset, min, max, 1⟩

/-- Stored fields of the blocks of one instance (R494, R497 to R502), by BAR0 offset. -/
def blockFields : List (Nat × List Field) :=
  [ (0x10000, [anyField 11 0 1000]), (0x10008, [anyField 9 0 700]), (0x10010, [anyField 9 0 940]),
    (0x10018, [anyField 9 0 100]), (0x10020, [anyField 7 0 0]), (0x10040, [rngField 9 0 10 1 1000]),
    (0x30000, [rngField 15 0 100 1 65535]),
    (0x30008, [rngField 31 0 30000 1 (2 ^ 32 - 1), rngField 63 32 360000 1 (2 ^ 32 - 1)]),
    (0x30010, [rngField 9 0 50 10 500]), (0x30018, [rngField 3 0 2 1 8]),
    (0x30020, [rngField 3 0 3 1 15, rngField 63 32 8640000 1000 (2 ^ 32 - 1)]),
    (0x30028, [rngField 9 0 20 5 1000, rngField 25 16 200 5 1000, rngField 40 32 90 7 365, rngField 51 48 2 0 8]),
    (0x40000, [anyField 63 0 (2 ^ 64 - 1)]), (0x40008, [anyField 31 0 (2 ^ 32 - 1)]),
    (0x40010, [anyField 0 0 1, rngField 12 8 24 1 24]),
    (0x40018, [rngField 7 0 32 16 128, rngField 15 8 32 16 128, rngField 23 16 48 16 128, rngField 31 24 16 16 128]),
    (0x40020, [rngField 9 0 20 5 1000, rngField 19 16 8 1 15]), (0x40028, [rngField 6 0 3 1 64]),
    (0x50000, [⟨63, 0, .rwl, 0, 0, 2 ^ 64 - 1, 4096⟩]), (0x50008, [rngField 20 0 0 0 1048576]),
    (0x50010, [rngField 13 0 100 5 10000, rngField 19 16 7 1 15]),
    (0x60040, [rngField 6 0 100 85 105]), (0x60048, [anyField 63 0 0]), (0x60050, [anyField 31 0 0]),
    (0x60058, [rngField 16 0 1000 100 100000, rngField 30 24 45 20 60, rngField 38 32 80 40 100,
      rngField 49 40 500 450 560, rngField 61 52 600 560 620]),
    (0x60080, [⟨10, 0, .rwl, 1750, 1000, 1750, 25⟩]), (0x60088, [⟨10, 0, .rwl, 1750, 1000, 1750, 25⟩]),
    (0x60090, [⟨10, 0, .rwl, 1750, 1000, 1750, 25⟩]), (0x60098, [⟨10, 0, .rwl, 1750, 1000, 1750, 25⟩]),
    (0x600A0, [⟨10, 0, .rwl, 1750, 1000, 1750, 25⟩]), (0x600A8, [⟨10, 0, .rwl, 1750, 1000, 1750, 25⟩]),
    (0x600B0, [⟨10, 0, .rwl, 1750, 1000, 1750, 25⟩]), (0x600B8, [⟨10, 0, .rwl, 1750, 1000, 1750, 25⟩]) ] ++
  [ (0x70000, [anyField 0 0 1, rngField 12 8 12 6 24]),
    (0x70008, [rngField 6 0 10 2 100, rngField 11 8 3 1 8, rngField 19 16 3 1 15]),
    (0x70010, [rngField 1 0 2 1 3]),
    (0x70028, [⟨63, 0, .rw, 0, 0, 2 ^ 64 - 1, 64⟩]), (0x70030, [⟨31, 0, .rw, 0, 64, 2 ^ 32 - 64, 64⟩]),
    (0x70038, [⟨63, 0, .rw, 0, 0, 2 ^ 64 - 1, 1⟩]), (0x70040, [⟨0, 0, .rw, 0, 0, 1, 1⟩]),
    (0x80030, [anyField 0 0 0]), (0x80038, [anyField 31 0 0]),
    (0x90000, [anyField 0 0 1]), (0x90010, [rngField 31 0 360000 1000 (2 ^ 32 - 1)]) ]

/-- Stored policy fields of a bench page (R495), by page offset. -/
def pageFields : List (Nat × List Field) :=
  [ (0x090, [anyField 1 0 0, anyField 15 8 0, anyField 23 16 0]), (0x098, [anyField 0 0 0]),
    (0x0A0, [rngField 6 0 16 1 64, rngField 25 16 250 0 1000, rngField 41 32 30 1 1000]),
    (0x0A8, [rngField 14 0 2000 100 20000, rngField 19 16 3 1 15]),
    (0x0B0, [rngField 3 0 2 0 8, rngField 25 16 125 0 1000]),
    (0x0B8, [rngField 31 0 360000 1000 (2 ^ 32 - 1)]), (0x0C0, [anyField 0 0 0]),
    (0x0C8, [anyField 63 0 0]), (0x0D0, [anyField 63 0 0]), (0x0D8, [anyField 63 0 0]), (0x0E0, [anyField 63 0 0]),
    (0x280, [⟨63, 0, .rwl, 0, 0, 2 ^ 64 - 1, 4096⟩]), (0x288, [⟨63, 0, .rwl, 0, 0, 2 ^ 64 - 1, 64⟩]),
    (0x290, [rngField 4 0 12 8 20, rngField 25 16 20 0 1000, anyField 31 31 0]) ]

/-- Stored fields of submission ring j of a bench page: base, control, configuration (R369, R495). -/
def ringFields (k : Nat) : List Field :=
  if k = 0 then [⟨63, 0, .rwl, 0, 0, 2 ^ 64 - 1, 4096⟩]
  else if k = 1 then [⟨63, 0, .rwl, 0, 0, 2 ^ 64 - 1, 64⟩]
  else [rngField 4 0 8 6 16, anyField 31 31 0]

/-- The offset lies in bench page b: the pair (b, page offset) (R485). -/
def benchPage (off : Nat) : Option (Nat × Nat) :=
  if 0x20000 ≤ off ∧ off < 0x30000 then some ((off - 0x20000) / 0x1000, (off - 0x20000) % 0x1000) else none

/-- A ring field of a bench page, submission or completion (R369). -/
def isRingField (po : Nat) : Bool :=
  (decide (0x100 ≤ po) && decide (po < 0x280)) || po == 0x280 || po == 0x288 || po == 0x290

/-- The stored fields at a BAR0 offset. -/
def fieldsAt (off : Nat) : List Field :=
  match benchPage off with
  | some (_, po) =>
    if 0x100 ≤ po ∧ po < 0x280 then ringFields ((po - 0x100) % 0x18 / 8)
    else (tget pageFields po).getD []
  | none => (tget blockFields off).getD []

/-- The reset value of the stored fields at an offset. -/
def resetValue (off : Nat) : Word :=
  BitVec.ofNat 64 ((fieldsAt off).foldl (fun a f => a + f.reset * 2 ^ f.lo) 0)

/-- The value in force (R491). -/
def regVal (s : State) (off : Nat) : Word := (tget s.bar.inForce off).getD (resetValue off)

/-- The value last written, which a read returns (R491). -/
def regRead (s : State) (off : Nat) : Word := (tget s.bar.written off).getD (regVal s off)

/-- A field in force. -/
def regF (s : State) (off hi lo : Nat) : Nat := fieldOf (regVal s off) hi lo

/-- A value with reserved bits, which the module ignores (R9), cleared. -/
def maskFields (off : Nat) (v : Word) : Word :=
  BitVec.ofNat 64 ((fieldsAt off).foldl (fun a f => a + fieldOf v f.hi f.lo * 2 ^ f.lo) 0)

/-- Every field within its allowed values (R490). -/
def fieldsOk (off : Nat) (v : Word) : Bool :=
  (fieldsAt off).all (fun f =>
    decide (f.min ≤ fieldOf v f.hi f.lo) && decide (fieldOf v f.hi f.lo ≤ f.max) && fieldOf v f.hi f.lo % f.mul == 0)

/-- BAR0 offset of a field of bench b's page. -/
def bn (b po : Nat) : Nat := 0x20000 + 0x1000 * b + po

/-- A bench register's field in force. -/
def bnF (s : State) (b po hi lo : Nat) : Nat := regF s (bn b po) hi lo

/-- A value put in force and as last written. -/
def putReg (s : State) (off : Nat) (v : Word) : State :=
  { s with bar := { s.bar with inForce := tput s.bar.inForce off v, written := tput s.bar.written off v } }

/-! ## The instants of the tick (R27 to R29) -/

def backstopPm (s : State) : Nat := regF s 0x10008 9 0
def cutoffPm (s : State) : Nat := regF s 0x10010 9 0
def guardUs (s : State) : Nat := regF s 0x10018 9 0

/-- Length of a tick in ns (R31). -/
def tickNs (s : State) : Nat := 10000 * period s

/-- Cut-off offset (R27). -/
def cutoffOff (s : State) : Nat := 10 * period s * cutoffPm s

/-- Backstop offset (R27). -/
def backstopOff (s : State) : Nat := 10 * period s * backstopPm s

/-- Plan horizon (R27). -/
def horizonOff (s : State) : Nat := cutoffOff s - 1000 * guardUs s

/-- `TK_STATUS` cfg_invalid: the fields break R28 or R29. -/
def cfgInvalid (s : State) : Bool :=
  let p := period s
  let b := backstopPm s
  let c := cutoffPm s
  let g := guardUs s
  !(decide (200 ≤ p) && decide (p ≤ 4000) && decide (500 ≤ b) && decide (b + 50 ≤ c) && decide (c ≤ 970) &&
    decide (20 ≤ g) && decide (g ≤ 1000) && decide (120000 ≤ (1000 - c) * p * 10) &&
    decide (1000000 + 1000 * g ≤ 10 * p * c))

/-- The tick whose commit an event takes effect at (R34). -/
def commitOf (s : State) (st : Stamp) : Nat := if st.off < cutoffOff s then st.tick else st.tick + 1

/-- The module follows the tick through the whole of tick n (R51, R53 step 5). -/
def wholeTick (s : State) (n : Nat) : Bool :=
  (s.time.sync == .source || s.time.sync == .locked || s.time.sync == .holdover) &&
    (match s.time.resumeAt with | some m => decide (m ≤ n) | none => true)

/-- An event has its commit by that of tick n: the one R34 names, or the first after sync is regained for what landed
while it was lost (R53). -/
def dueBy (s : State) (st : Stamp) (n : Nat) : Bool :=
  (decide (commitOf s st ≤ n) && (match s.time.lostAt with | some l => stampLt st l | none => true)) ||
    s.time.early.contains st

/-- Tick time of a stamp in ns (R381). -/
def nsOf (s : State) (st : Stamp) : Nat := st.tick * tickNs s + st.off

/-- The stamp n ns after a stamp (R31). -/
def stampAdd (s : State) (st : Stamp) (ns : Nat) : Stamp :=
  if tickNs s = 0 then ⟨st.tick, st.off + ns⟩
  else ⟨st.tick + (st.off + ns) / tickNs s, (st.off + ns) % tickNs s⟩

/-- Ticks that cover a span of ns. -/
def ticksOf (s : State) (ns : Nat) : Nat := if tickNs s = 0 then 0 else ns / tickNs s

/-- The module follows a tick: SOURCE, LOCKED or HOLDOVER (R51). -/
def synced (s : State) : Bool := s.time.sync == .source || s.time.sync == .locked || s.time.sync == .holdover

/-- The firmware makes the plans: no control restart holds step 6 (R402). -/
def firmwareUp (s : State) : Bool := s.fw.restart.isNone

/-- Keep mode (R426). -/
def inKeep (s : State) : Bool := s.fault.keep.isSome

/-- Asks are answered NOT_SERVING: in Keep mode (R426) and in Rest, its entry and its exit (R464). -/
def notServing (s : State) : Bool := inKeep s || (s.pwr.state != .run && s.pwr.state != .keep)

/-- The links present by stock code (R2, R5). -/
def linkPresent (s : State) (l : Nat) : Bool :=
  decide (l < 96) && (s.stock == .mx || decide (l % 48 < 24))

/-- Flash present (R2). -/
def hasFlash (s : State) : Bool := s.stock == .mx

end Sys2Proof.Machine
end

