-- ==== Sys2Proof/Machine/Records.lean ====
section
/-! DEFINITION. Completion records, notify records and token records: where they go, when they wait, and the vectors
they signal (R242 to R247, R371, R375 to R380). -/

namespace Sys2Proof.Machine

/-- A command's shape: with power removed nothing but the counter moves on; otherwise its effect applies (R460). -/
def run (t : Stamp) (f : State → State) (s : State) : Host.Outcome State Fault Refusal :=
  .next (if s.pwr.off then s.at t else f (s.at t))

/-- A message for this module lands while Rest is due, being entered or in force: the link wake flag is set, and while
it is being entered the event is latched (R465, R467). -/
def noteLink (s : State) : State :=
  if s.pwr.restDue || s.pwr.state == .entering || s.pwr.state == .rest then
    { s with pwr := { s.pwr with
      linkFlag := true
      latched := if s.pwr.state = .entering then some (s.pwr.latched.getD (2, s.time.now)) else s.pwr.latched } }
  else s

/-- The shape of a message other than an ask, addressed to this module (R465). -/
def runLink (t : Stamp) (f : State → State) (s : State) : Host.Outcome State Fault Refusal := run t (fun s => f (noteLink s)) s

/-! ## Completion rings (R375 to R378) -/

/-- Bench b's completion ring. -/
def cq (s : State) (b : Nat) : Cq := tgetD s.host.cqs b

/-- Bench b's completion ring changed. -/
def setCq (s : State) (b : Nat) (f : Cq → Cq) : State :=
  { s with host := { s.host with cqs := tput s.host.cqs b (f (cq s b)) } }

/-- Record slots of the ring as set. -/
def cqSize (s : State) (b : Nat) : Nat := 2 ^ bnF s b 0x290 4 0

/-- The completion ring is in use. -/
def cqEnabled (s : State) (b : Nat) : Bool := bnF s b 0x290 31 31 == 1

/-- The phase bit of index i on a ring of n slots (R244, R375). -/
def phaseOf (i n : Nat) : Nat := (i / n + 1) % 2

/-- Room on a ring from its free-running indices modulo 2³². -/
def ringRoom (n producer consumer : Nat) : Nat := n - (producer + 2 ^ 32 - consumer) % 2 ^ 32

/-- A ring enters ERROR (R371): the cause recorded, logged as HOST cause 1, which signals the error vector. -/
def ringError (s : State) (ring cause : Nat) : State :=
  let r := tgetD s.host.rings ring
  let old := (tget s.host.ringErr (ring / 16)).getD (0, 0, false)
  logErr { s with host := { s.host with
    rings := tput s.host.rings ring { r with error := true },
    ringErr := tput s.host.ringErr (ring / 16) (ring % 16, cause, old.2.2) } } .host 1 (b := ring / 16)

/-- Every submission ring of a bench enters ERROR with one cause; last_ring reads `last` (R377, R446). -/
def benchRingsError (s : State) (b cause last : Nat) : State :=
  let rings := (List.range 16).foldl (fun t j =>
    let r : SubRing := tgetD t (16 * b + j)
    tput t (16 * b + j) { r with error := true }) s.host.rings
  let old := (tget s.host.ringErr b).getD (0, 0, false)
  logErr { s with host := { s.host with
    rings := rings
    ringErr := tput s.host.ringErr b (last, cause, old.2.2) } } .host 1 (b := b)

/-- One record written: record, then producer, then the vector where no spacing is set (R376, R378). -/
def writeRecord (s : State) (b : Nat) (r : CplRec) : State :=
  let q := cq s b
  let i := q.producer
  let p := (i + 1) % 2 ^ 32
  let s1 := emitTo (emitTo s (driver s b) (.record b i (phaseOf i (cqSize s b)) r)) (driver s b) (.cqProducer b p)
  if bnF s b 0x290 25 16 = 0 then
    cqVector (setCq s1 b (fun q => { q with producer := p, signalled := some s.time.now })) b
  else setCq s1 b (fun q => { q with producer := p, fresh := some (q.fresh.getD s.time.now) })

/-- A record may be written now. -/
def recordRoom (s : State) (b : Nat) : Bool :=
  cqEnabled s b && decide (0 < ringRoom (cqSize s b) (cq s b).producer (cq s b).consumer)

/-- An episode of waiting begins (R377): overrun set if clear, HOST cause 2, error vector. -/
def beginEpisode (s : State) (b : Nat) : State :=
  let old := (tget s.host.ringErr b).getD (0, 0, false)
  logErr { s with host := { s.host with ringErr := tput s.host.ringErr b (old.1, old.2.1, true) } } .host 2 (b := b)

/-- A record is written, or waits (R377). A record beyond 65,536 waiting is not kept (log entry 7). -/
def queueRecord (s : State) (b : Nat) (r : CplRec) : State :=
  let q := cq s b
  if q.waiting.isEmpty && recordRoom s b then writeRecord s b r
  else if 65536 ≤ q.waiting.length then benchRingsError s b 4 0
  else
    let s1 := setCq s b (fun q => { q with waiting := q.waiting ++ [r] })
    if q.waiting.isEmpty then beginEpisode s1 b else s1

/-- Waiting records written while there is room, within fuel (R377). -/
def drainRecords (s : State) (b : Nat) : Nat → State
  | 0 => s
  | fuel + 1 =>
    match (cq s b).waiting with
    | [] => s
    | r :: rest =>
      if recordRoom s b then drainRecords (writeRecord (setCq s b (fun q => { q with waiting := rest })) b r) b fuel
      else s

/-- The function's memory takes no more writes for this descriptor: reset since it landed (R382), or its stream left
the Secure state (R446). -/
def cplDropped (s : State) (c : Cpl) : Bool :=
  (tget s.host.flrs (c.ring / 16)).getD 0 != c.gen || s.host.ideStopped.contains (driver s (c.ring / 16))

/-- The module a descriptor was forwarded from (R214): its ring number then carries the module above bit 12 and the
bench it acts on here in bits 11 to 8 (log entry 11). -/
def fwdFrom (ring : Nat) : Option ModuleId := if ring < 4096 then none else some (BitVec.ofNat 16 (ring / 4096 - 1))

/-- A completion record (R375); the status of a forwarded descriptor goes back to its source (R214). -/
def complete (s : State) (c : Cpl) (st : Status) (result tick : Nat) (result2 : Nat := 0) : State :=
  match fwdFrom c.ring with
  | some m => send s m (some c.bench) (.returned c st result)
  | none =>
  if cplDropped s c then s
  else queueRecord s (c.ring / 16)
    { result := result % 2 ^ 64, result2 := result2 % 2 ^ 32, index := c.index, tick := tick, tag := c.tag,
      ring := c.ring, status := st, op := c.op }

/-- Data a descriptor's work writes to host memory, as its record is: not after a reset of its function (R382, R446).
-/
def cplWrite (s : State) (c : Cpl) (o : Output) : State := if cplDropped s c then s else emit s o

/-- A completion record due at step 3 of commit n (R380). -/
def due (s : State) (c : Cpl) (st : Status) (result n : Nat) (result2 : Nat := 0) (tally : Option Nat := none) :
    State :=
  { s with host := { s.host with
    due := s.host.due ++ [{ cpl := c, status := st, result := result, result2 := result2, tick := n, tally := tally }] } }

/-- A completion record due at step 3 of commit n, in the place of the i-th descriptor applied (R380). -/
def dueAt (s : State) (i : Nat) (c : Cpl) (st : Status) (result n : Nat) : State :=
  { s with host := { s.host with
    due := s.host.due.take i ++ [{ cpl := c, status := st, result := result, tick := n }] ++ s.host.due.drop i } }

/-- The balance of a tally (R248). -/
def tallyBalance (s : State) (t : Nat) : Nat := ((tget s.work.tallies t).map (·.balance)).getD 0

/-- The records due are written in application order (R380). -/
def flushDue (s : State) : State :=
  let l := s.host.due
  l.foldl (fun s d => complete s d.cpl d.status
    (match d.tally with | some t => tallyBalance s t | none => d.result) d.tick d.result2)
    { s with host := { s.host with due := [] } }

/-- A notify record of a window write (R345, R375). -/
def notify (s : State) (b off len imm index gen : Nat) : State :=
  queueRecord s b { result := off, result2 := len, index := imm, tick := s.time.now.tick,
                    tag := index % 2 ^ 16 + 2 ^ 16 * (gen % 2 ^ 16), status := .ok, op := 0x54, notify := true }

/-! ## Output rings (R242 to R247) -/

/-- Room of a binding by its cached consumer (R244). -/
def bindRoom (b : Binding) : Nat := ringRoom (2 ^ b.log2) b.producer b.consumer

/-- The binding of a request on this module. -/
def bindOf (s : State) (k : Nat) : Option Binding := tget s.work.binds k

/-- The room is short of what a plan needs: consumer is read over PCIe again (R244). Its value is the host's. -/
def readConsumer (s : State) (k need : Nat) : State :=
  match bindOf s k with
  | some b =>
    if bindRoom b < need then
      let c := (Config.hostWord s.fresh b.ctl).toNat
      { s with fresh := s.fresh + 1, work := { s.work with binds := tput s.work.binds k { b with consumer := c } } }
    else s
  | none => s

/-- A request's ring has room for n records. -/
def hasRoom (s : State) (k n : Nat) : Bool :=
  match bindOf s k with
  | some b => decide (n ≤ bindRoom b)
  | none => false

/-- A token record written to the request's ring (R244, R245). The caller holds that a binding exists. -/
def putToken (s : State) (k : Nat) (r : TokRec) : State :=
  match bindOf s k with
  | none => s
  | some b =>
    let s1 := emitTo s (driver s b.bench) (.token b.ringAddr b.producer (phaseOf b.producer (2 ^ b.log2)) r)
    { s1 with work := { s1.work with
      binds := if r.final then tdel s1.work.binds k
        else tput s1.work.binds k { b with producer := (b.producer + 1) % 2 ^ 32 } } }

/-- A record that waits for room or a binding is written if both exist (R247), with the number of the commit that
writes it (R245). -/
def tryFinal (s : State) (n : Nat) (w : FinalWait) : Option State :=
  if hasRoom s w.req 1 then some (putToken s w.req { w.tok with tickLo := n % 2 ^ 15 }) else none

/-- Waiting final records: each written, or kept in order. -/
def writeFinals (s : State) (n : Nat) (l : List FinalWait) : State :=
  l.foldl (fun s w =>
    let s := readConsumer s w.req 1
    if s.work.finals.any (fun x => x.req == w.req) then { s with work := { s.work with finals := s.work.finals ++ [w] } }
    else match tryFinal s n w with
      | some s' => s'
      | none => { s with work := { s.work with finals := s.work.finals ++ [w] } })
    { s with work := { s.work with finals := [] } }

/-- Waiting hold records, in the same way (R247). -/
def writeHolds (s : State) (n : Nat) (l : List FinalWait) : State :=
  l.foldl (fun s w =>
    let s := readConsumer s w.req 1
    match tryFinal s n w with
    | some s' => s'
    | none => { s with work := { s.work with holds := s.work.holds ++ [w] } })
    { s with work := { s.work with holds := [] } }

/-- The token records of one step that wait with their request (R247). -/
def writeWaitToks (s : State) (n k : Nat) : State :=
  match req s k with
  | some r =>
    if r.waitTok.isEmpty then s
    else
      let s := readConsumer s k r.waitTok.length
      if hasRoom s k r.waitTok.length then
        r.waitTok.foldl (fun s t => putToken s k { t with tickLo := n % 2 ^ 15 }) (modReq s k (fun r => { r with waitTok := [] }))
      else s
  | none => s

/-- The records that wait, at step 3 of commit n: token records, finals due and waiting, holds (R37, R247). -/
def writeWaiting (n : Nat) (s : State) : State :=
  let s1 := s.work.reqs.foldl (fun s x => writeWaitToks s n x.1) s
  let s2 := writeFinals { s1 with work := { s1.work with finalDue := [] } } n (s1.work.finals ++ s1.work.finalDue)
  writeHolds s2 n s2.work.holds

/-- Producers written and each bench's stream vector signalled once, for the rings written since `s0` (R242, R245). -/
def closeStreams (s0 s : State) : State :=
  let new := s.out.drop s0.out.length
  let rings := new.filterMap (fun o => match o with
    | .token r _ _ _ => some r
    | .probe r _ _ _ _ => some r
    | _ => none)
  let hit := s0.work.binds.filter (fun b => rings.contains b.2.ringAddr)
  let s1 := hit.foldl (fun s b =>
    emitTo s (driver s b.2.bench) (.strmProducer b.2.ctl
      (match tget s.work.binds b.1 with
       | some x => x.producer
       | none => (b.2.producer + (rings.filter (fun r => r == b.2.ringAddr)).length) % 2 ^ 32))) s
  (hit.map (·.2.bench)).eraseDups.foldl streamVector s1

end Sys2Proof.Machine
end

