-- ==== Sys2Proof/Machine/Fabric.lean ====
section
/-! DEFINITION. The rack fabric: packets, routes and forwarding, sequence numbers and duplicates, rack memory, fences,
combining and map epochs (R312 to R331, R346, R348). -/

namespace Sys2Proof.Machine

/-! ## Packet headers (R312, R313) -/

def pAddr (p : Packet) : Nat := fieldOf p.hdr 255 208
def pSeq (p : Packet) : Nat := fieldOf p.hdr 207 176
def pEpoch (p : Packet) : Nat := fieldOf p.hdr 175 160
def pDst (p : Packet) : ModuleId := BitVec.ofNat 16 (fieldOf p.hdr 159 144)
def pSrc (p : Packet) : ModuleId := BitVec.ofNat 16 (fieldOf p.hdr 143 128)
def pRseq (p : Packet) : Nat := fieldOf p.hdr 127 96
def pStatus (p : Packet) : Nat := fieldOf p.hdr 71 64
def pLen (p : Packet) : Nat := fieldOf p.hdr 63 51
def pClass (p : Packet) : Nat := fieldOf p.hdr 50 48
def pHops (p : Packet) : Nat := fieldOf p.hdr 47 42
def pBench (p : Packet) : Nat := fieldOf p.hdr 39 36
def pLast (p : Packet) : Bool := bitOf p.hdr 35
def pFlagged (p : Packet) : Bool := bitOf p.hdr 34
def pReplay (p : Packet) : Bool := bitOf p.hdr 33
def pCombined (p : Packet) : Bool := bitOf p.hdr 32
def pType (p : Packet) : Nat := fieldOf p.hdr 7 0

/-- A raw structure with one field replaced. -/
def withFieldOf {w : Nat} (raw : BitVec w) (hi lo v : Nat) : BitVec w :=
  BitVec.ofNat w (raw.toNat - fieldOf raw hi lo * 2 ^ lo + v % 2 ^ (hi + 1 - lo) * 2 ^ lo)

/-- A header of R312. `flags` are last, flagged, replay and combined in bits 3 to 0. -/
def packetHdr (typ flags bench cls len status rseq : Nat) (src dst : ModuleId) (epoch seq addr : Nat) : BitVec 256 :=
  BitVec.ofNat 256 (typ + flags * 2 ^ 32 + bench % 16 * 2 ^ 36 + cls * 2 ^ 48 + len % 8192 * 2 ^ 51 + status * 2 ^ 64 +
    rseq % 2 ^ 32 * 2 ^ 96 + src.toNat * 2 ^ 128 + dst.toNat * 2 ^ 144 + epoch % 2 ^ 16 * 2 ^ 160 +
    seq % 2 ^ 32 * 2 ^ 176 + addr % 2 ^ 48 * 2 ^ 208)

/-- A packet type of R313 or R350. -/
def knownType (t : Nat) : Bool :=
  t == 1 || t == 2 || t == 3 || t == 5 || t == 6 || t == 7 || t == 9 || t == 0x0A || t == 0x10 || t == 0x11 ||
    (decide (0x40 ≤ t) && decide (t ≤ 0x49))

/-- A window packet (R350). -/
def isWindowType (t : Nat) : Bool := decide (0x40 ≤ t) && decide (t ≤ 0x4F)

/-- A request: what a stale epoch or a missing route answers (R316, R331). -/
def isRequestType (t : Nat) : Bool :=
  t == 1 || t == 3 || t == 5 || t == 7 || t == 9 || t == 0x10 || t == 0x40 || t == 0x41 || t == 0x43 || t == 0x44 ||
    t == 0x49

/-- The type that answers a request (R313, R350). -/
def answerType (t : Nat) : Nat :=
  if t = 1 then 2 else if t = 5 ∨ t = 7 then 6 else if t = 9 then 0x0A else if t = 3 ∨ t = 0x10 then 0x11 else 0x47

/-- Reserved bits are 0 and the lengths agree (R312). -/
def packetOk (p : Packet) : Bool :=
  zeroAt p.hdr 95 72 && zeroAt p.hdr 41 40 && zeroAt p.hdr 31 8 && p.payload.length == pLen p &&
    decide (pLen p ≤ 4096) && knownType (pType p)

/-- Units of 32 bytes (R312). -/
def pUnits (p : Packet) : Nat := 1 + ceilDiv p.payload.length 32

/-! ## Map epochs (R330, R331) -/

/-- The previous epoch's drain window is open at the present stamp. -/
def drainOpen (s : State) (d : Nat) : Bool := stampLt s.time.now ⟨d, cutoffOff s⟩

/-- The tables a packet of an epoch is routed and applied under; none where it is stale. -/
def tableFor (s : State) (e : Nat) : Option MapSet :=
  if e = s.fab.epoch then some s.fab.maps
  else match s.fab.sealSet with
    | some (se, _, m) =>
      if se = e then some m
      else (match s.fab.prev with
        | some (pe, d, pm) => if pe = e ∧ drainOpen s d then some pm else none
        | none => none)
    | none =>
      match s.fab.prev with
      | some (pe, d, pm) => if pe = e ∧ drainOpen s d then some pm else none
      | none => none

/-- Every table held, newest first: responses are never stale. -/
def allTables (s : State) : List MapSet :=
  (match s.fab.sealSet with | some (_, _, m) => [m] | none => []) ++ [s.fab.maps] ++
    (match s.fab.prev with | some (_, _, m) => [m] | none => [])

/-- Epoch a is older than b, modulo 2¹⁶. -/
def epochOlder (a b : Nat) : Bool := decide (a ≠ b) && decide ((b + 2 ^ 16 - a) % 2 ^ 16 < 2 ^ 15)

/-! ## Routes (R315, R316, R351) -/

def linkOf (s : State) (l : Nat) : Link := tgetD s.fab.links l
def setLink (s : State) (l : Nat) (f : Link → Link) : State :=
  { s with fab := { s.fab with links := tput s.fab.links l (f (linkOf s l)) } }

/-- A trained link carries packets (R306). -/
def linkUp (s : State) (l : Nat) : Bool := (linkOf s l).state == .active || (linkOf s l).state == .degraded

/-- The route entry of a destination: an exact match wins over a rack match. -/
def routeOf (m : MapSet) (dst : ModuleId) : Option Word :=
  match m.routes.find? (fun r => fieldOf r.2 63 48 == dst.toNat) with
  | some r => some r.2
  | none => (m.routes.find? (fun r => fieldOf r.2 63 48 == dst.toNat / 256 * 256 + 0xFF)).map (·.2)

/-- The usable links of an entry, in link order. -/
def usableLinks (s : State) (e : Word) : List Nat :=
  let named := [fieldOf e 7 0, fieldOf e 15 8, fieldOf e 23 16, fieldOf e 31 24]
  (List.range 96).filter (fun l => named.contains l && linkUp s l)

/-- Credits of a class. -/
def creditOf (l : Link) (cls : Nat) : Nat :=
  let (a, b, c, d) := l.credits
  if cls = 0 then a else if cls = 1 then b else if cls = 2 then c else d

/-- Credits of a class changed. -/
def setCredit (l : Link) (cls : Nat) (f : Nat → Nat) : Link :=
  let (a, b, c, d) := l.credits
  { l with credits :=
      if cls = 0 then (f a, b, c, d) else if cls = 1 then (a, f b, c, d)
      else if cls = 2 then (a, b, f c, d) else (a, b, c, f d) }

/-- Lanes that carry traffic. -/
def laneCount (l : Link) : Nat := (setBits l.lanes.toNat 2).length

/-- The link with the most free credits in the class, scaled by lane count; ties to the lower number (R316). -/
def bestLink (s : State) (cls : Nat) (ls : List Nat) : Option Nat :=
  ls.foldl (fun a l =>
    match a with
    | none => some l
    | some b =>
      let score (x : Nat) : Nat := creditOf (linkOf s x) cls * laneCount (linkOf s x)
      if score b < score l then some l else a) none

/-- The link a packet leaves on under a table: window packets of one queue pair keep one link (R351). -/
def nextHop (s : State) (p : Packet) (m : MapSet) : Option Nat :=
  match routeOf m (pDst p) with
  | none => none
  | some e =>
    let ls := usableLinks s e
    if isWindowType (pType p) then
      let wh : BitVec 256 := BitVec.ofNat 256 (leNat (p.payload.take 32))
      if ls.isEmpty then none else ls[(fieldOf wh 107 88 + fieldOf wh 127 108) % ls.length]?
    else bestLink s (pClass p) ls

/-- The link a packet leaves on. -/
def hopFor (s : State) (p : Packet) : Option Nat :=
  if isRequestType (pType p) then (tableFor s (pEpoch p)).bind (nextHop s p)
  else (allTables s).findSome? (nextHop s p)

/-! ## Links: credits, replay buffer, combining (R304, R314, R328, R329) -/

/-- Flits of a packet of u units (R302). -/
def flitsOf (u : Nat) : Nat := ceilDiv u 6

/-- Flits between two sequence numbers, modulo 4,096. -/
def flitGap (a b : Nat) : Nat := (b + 4096 - a) % 4096

/-- Flits held in the replay buffer. -/
def bufferedFlits (l : Link) : Nat := l.txBuf.foldl (fun a x => a + flitsOf (pUnits x.2.2)) 0

/-- A link can take a packet now: credits for all its units and room in the replay buffer of 1,024 flits. -/
def canSend (l : Link) (p : Packet) : Bool :=
  decide (pUnits p ≤ creditOf l (pClass p)) && decide (bufferedFlits l + flitsOf (pUnits p) ≤ 1024)

/-- A READ that later READs of its line may join (R328). -/
def joinable (p : Packet) : Bool := pType p == 1 && !pFlagged p && !pReplay p && !pCombined p

/-- A packet moves onto a link. -/
def transmit (s : State) (l : Nat) (p : Packet) : State :=
  let last := ((linkOf s l).txNext + flitsOf (pUnits p) - 1) % 4096
  let s1 := setLink s l (fun x =>
    let x := setCredit x (pClass p) (· - pUnits p)
    { x with txNext := (last + 1) % 4096, txBuf := x.txBuf ++ [(last, 0, p)] })
  let s2 := if joinable p then
      { s1 with fab := { s1.fab with comb := s1.fab.comb ++
        [{ tile := l / 48, src := pSrc p, dst := pDst p, seq := pSeq p, typ := 1, addr := pAddr p, cons := [p] }] } }
    else s1
  emit s2 (.forwarded l p)

/-- A record goes to the far end of a link. -/
def onLink (s : State) (l : Nat) (r : LinkRec) : State := emit s (.onLink l r)

/-- The miss buffer of a tile stalls its class-WIN requests (R359). -/
def winStalled (s : State) (tile : Nat) : Bool := (if tile = 0 then s.win.stall0 else s.win.stall1).isSome

/-- Packets that have left their receive buffers return their credits (R314), class WIN not while its tile stalls
(R359). -/
def returnCredits (s : State) : State :=
  s.fab.owed.foldl (fun s x =>
    if s.fab.links.any (fun k => k.2.queue.contains x.1) || (pClass x.1 == 3 && winStalled s (x.2 / 48)) then
      { s with fab := { s.fab with owed := s.fab.owed ++ [x] } }
    else if linkUp s x.2 then onLink s x.2 (.credit (pClass x.1) (pUnits x.1)) else s)
    { s with fab := { s.fab with owed := [] } }

/-- Packets waiting on a link leave in order within each class. -/
def drainLink (s : State) (l : Nat) : State :=
  let q := (linkOf s l).queue
  let r := q.foldl (fun (a : State × List Packet) p =>
    if linkUp a.1 l && !a.2.any (fun x => pClass x == pClass p) && canSend (linkOf a.1 l) p then
      (transmit a.1 l p, a.2)
    else (a.1, a.2 ++ [p])) (s, [])
  returnCredits (setLink r.1 l (fun x => { x with queue := r.2 }))

/-- The source side of this module's series to a target (R318). -/
def srcCtx (s : State) (d : ModuleId) : SrcCtx := tgetD s.fab.src d.toNat
def setSrc (s : State) (d : ModuleId) (f : SrcCtx → SrcCtx) : State :=
  { s with fab := { s.fab with src := tput s.fab.src d.toNat (f (srcCtx s d)) } }

/-- The constituents a queued packet stands for. -/
def consOf (s : State) (q : Packet) : List Packet :=
  if pCombined q then
    ((s.fab.comb.find? (fun c => c.src == s.fab.self && c.dst == pDst q && c.seq == pSeq q && c.typ == pType q)).map
      (·.cons)).getD []
  else [q]

/-- Two packets that wait together combine (R328): ADDs to one word, CASs with equal operands. -/
def mergeable (s : State) (p q : Packet) : Bool :=
  (pType p == 5 || pType p == 7) && pType q == pType p && pAddr q == pAddr p && pDst q == pDst p &&
    pEpoch q == pEpoch p && !pReplay p && !pReplay q && !pCombined p &&
    (!pCombined q || pSrc q == s.fab.self) && decide ((consOf s q).length < 16) && !(consOf s q).isEmpty &&
    (pType p == 5 || ((consOf s q).head?.map (·.payload)) == some p.payload)

/-- A constituent's entry (R329). -/
def consEntry (c : Packet) : List Byte :=
  leBytes 16 ((pSrc c).toNat * 2 ^ 16 + pSeq c * 2 ^ 32 + (if pType c = 5 then leNat c.payload * 2 ^ 64 else 0))

/-- The combined packet of a list of constituents, under this module's own seq (R329). -/
def combinedPacket (s : State) (q : Packet) (seq : Nat) (cons : List Packet) : Packet :=
  let payload := cons.flatMap consEntry ++ (if pType q = 7 then ((cons.head?.map (·.payload)).getD []) else [])
  ⟨packetHdr (pType q) 1 0 0 payload.length 0 0 s.fab.self (pDst q) (pEpoch q) seq (pAddr q), payload⟩

/-- A packet joins one that waits in a link's queue (R328, R329). -/
def mergeInto (s : State) (l : Nat) (q p : Packet) : State :=
  let cons := consOf s q ++ [p]
  let put (s : State) (c : Packet) : State :=
    count (setLink s l (fun x => { x with queue := x.queue.map (fun y => if y == q then c else y) })) 0x40058 1
  if pCombined q then
    let c := combinedPacket s q (pSeq q) cons
    let s1 := put s c
    let s2 := setSrc s1 (pDst q) (fun x => { x with
      out := x.out.map (fun o => if o.1 = pSeq q then (o.1, { o.2 with p := c }) else o) })
    returnCredits { s2 with fab := { s2.fab with comb := s2.fab.comb.map (fun k =>
        if k.src == s.fab.self && k.dst == pDst q && k.seq == pSeq q && k.typ == pType q then { k with cons := cons }
        else k) } }
  else
    let seq := (srcCtx s (pDst q)).next
    let c := combinedPacket s q seq cons
    let s1 := put s c
    let o : OutPkt := { p := c, link := l }
    let s2 := setSrc s1 (pDst q) (fun x => { x with next := (seq + 1) % 2 ^ 32, out := x.out ++ [(seq, o)] })
    returnCredits { s2 with fab := { s2.fab with comb := s2.fab.comb ++
        [{ src := s.fab.self, dst := pDst q, seq := seq, typ := pType q, addr := pAddr q, cons := cons }] } }

/-- A READ may join one of its line that was forwarded from the same tile and is not yet answered (R328). -/
def joins (tile : Nat) (p : Packet) (c : Combine) : Bool :=
  c.typ == 1 && c.tile == tile && c.dst == pDst p && c.addr == pAddr p && decide (c.cons.length < 16)

/-- A READ joins an earlier one (R328). -/
def joinRead (s : State) (tile : Nat) (p : Packet) : Option State :=
  if joinable p && s.fab.comb.any (joins tile p) then
    let r := s.fab.comb.foldl (fun (a : Bool × List Combine) c =>
      if !a.1 && joins tile p c then
        (true, a.2 ++ [{ c with cons := c.cons ++ [p] }])
      else (a.1, a.2 ++ [c])) (false, [])
    some (count { s with fab := { s.fab with comb := r.2 } } 0x40058 1)
  else none

/-- A packet for a link: combined, sent, or queued (R314, R328). -/
def place (s : State) (l : Nat) (p : Packet) : State :=
  match joinRead s (l / 48) p with
  | some s' => s'
  | none =>
    let x := linkOf s l
    let waits := x.queue.any (fun y => pClass y == pClass p)
    if !waits && canSend x p then transmit s l p
    else
      let room := decide ((srcCtx s (pDst p)).out.length < 4096)
      match x.queue.find? (fun q => mergeable s p q && (pCombined q || room)) with
      | some q => mergeInto s l q p
      | none => setLink s l (fun x => { x with queue := x.queue ++ [p] })

/-! ## Answers and refusals -/

/-- A response leaves: to this module itself by its own row, over a link, or nowhere where no table reaches it. -/
def launchAnswer (s : State) (p : Packet) : State :=
  if pDst p = s.fab.self then send s s.fab.self none (.packet p)
  else match hopFor s p with
    | some l => place s l p
    | none => s

/-- An answer of a type to a request, from a module, under an epoch (R312, R313). -/
def answerPkt (p : Packet) (sender : ModuleId) (epoch typ rseq : Nat) (st : Status) (payload : List Byte) : Packet :=
  ⟨packetHdr typ 0 0 1 payload.length (match st with
      | .ok => 0 | .epochStale => 4 | .notFound => 10 | .badDescriptor => 9 | .benchHalted => 14
      | .windowRevoked => 11 | _ => 8) rseq sender (pSrc p) epoch 0 0, payload⟩

/-- The window header of a request's refusal (R350): its psn, and its queue pairs exchanged. -/
def refusalWh (p : Packet) : List Byte :=
  if isWindowType (pType p) then
    let wh : BitVec 256 := BitVec.ofNat 256 (leNat (p.payload.take 32))
    leBytes 32 (fieldOf wh 175 144 * 2 ^ 144 + fieldOf wh 107 88 * 2 ^ 108 + fieldOf wh 127 108 * 2 ^ 88)
  else []

/-- A request turned away where it is met (R316, R331): the answer carries its seq and, when stale, its epoch. -/
def refusePacket (s : State) (p : Packet) (st : Status) : State :=
  launchAnswer s (answerPkt p s.fab.self (if st = .epochStale then pEpoch p else s.fab.epoch) (answerType (pType p))
    (pSeq p) st (refusalWh p))

/-- A packet leaves this module: delivered to itself by its own row, over a link, or refused (R316). -/
def launch (s : State) (p : Packet) : State :=
  if pDst p = s.fab.self then send s s.fab.self none (.packet p)
  else match hopFor s p with
    | some l => place s l p
    | none => if isRequestType (pType p) then refusePacket s p .notFound else s

/-- A stale request: answered, and counted in FB_STALE (R331). -/
def refuseStale (s : State) (p : Packet) : State := refusePacket (count s 0x40060 1) p .epochStale

/-- The readers joined to a READ get copies of its answer as it passes (R328). -/
def copyAnswers (s : State) (target : ModuleId) (src : ModuleId) (rseq : Nat) (p : Packet) : State :=
  match s.fab.comb.find? (fun c => c.typ == 1 && c.src == src && c.dst == target && c.seq == rseq) with
  | none => s
  | some c =>
    (c.cons.drop 1).foldl (fun s k =>
      launchAnswer s ⟨packetHdr 2 0 0 1 p.payload.length (pStatus p) (pSeq k) target (pSrc k) (pEpoch p) 0 0, p.payload⟩)
      { s with fab := { s.fab with comb := s.fab.comb.filter (fun x => !(x == c)) } }

/-- A packet with one hop more. -/
def hopped (p : Packet) : Packet := ⟨withFieldOf p.hdr 47 42 (pHops p + 1), p.payload⟩

/-- A packet not addressed to this module goes on (R316). -/
def forwardPacket (s : State) (p : Packet) : State :=
  if isRequestType (pType p) && (tableFor s (pEpoch p)).isNone then refuseStale s p
  else if 32 ≤ pHops p + 1 then count s 0x40048 1
  else
    launch (if pType p = 2 then copyAnswers s (pSrc p) (pDst p) (pRseq p) p else s) (hopped p)

/-! ## The target side (R319, R321, R326, R327) -/

def tgtCtx (s : State) (src : ModuleId) : TgtCtx := tgetD s.fab.tgt src.toNat
def setTgt (s : State) (src : ModuleId) (f : TgtCtx → TgtCtx) : State :=
  { s with fab := { s.fab with tgt := tput s.fab.tgt src.toNat (f (tgtCtx s src)) } }

/-- Sequence a lies below b, modulo 2³². -/
def seqBelow (a b : Nat) : Bool := decide (2 ^ 31 ≤ (a + 2 ^ 32 - b) % 2 ^ 32)

/-- Below the floor, or its bit set. -/
def isDup (c : TgtCtx) (q : Nat) : Bool := seqBelow q c.floor || c.got.contains q

/-- At F + 4,096 or above. -/
def tooFar (c : TgtCtx) (q : Nat) : Bool := !seqBelow q c.floor && decide (4096 ≤ (q + 2 ^ 32 - c.floor) % 2 ^ 32)

/-- The floor advances over every set bit. -/
def advanceFloor (floor : Nat) (got : List Nat) : Nat → Nat × List Nat
  | 0 => (floor, got)
  | f + 1 =>
    if got.contains floor then advanceFloor ((floor + 1) % 2 ^ 32) (got.filter (· != floor)) f else (floor, got)

/-- A sequence number's bit set. -/
def markSeq (s : State) (src : ModuleId) (q : Nat) : State :=
  setTgt s src (fun c =>
    let (f, g) := advanceFloor c.floor (q :: c.got) (c.got.length + 1)
    { c with floor := f, got := g })

/-- An ACK carries the floor (R312). -/
def ackFloor (s : State) (p : Packet) : State :=
  launchAnswer s (answerPkt p s.fab.self s.fab.epoch 0x11 (tgtCtx s (pSrc p)).floor .ok [])

/-! ## Rack memory (R322 to R324) -/

/-- The export region that holds a range, under a map set. -/
def regionOf (m : MapSet) (off n : Nat) : Option (BitVec 256) :=
  (m.exports.find? (fun r =>
    decide (fieldOf r.2 127 64 ≤ off) && decide (off + n ≤ fieldOf r.2 127 64 + fieldOf r.2 191 128))).map (·.2)

/-- Bytes and permission bit of an operation: read 0, write 1, atomic 2. -/
def opSize (typ : Nat) : Nat × Nat := if typ = 1 then (128, 0) else if typ = 3 then (128, 1) else (8, 2)

/-- The refusal an operation meets (R322 to R324), under the tables of its epoch. A region that a switch has removed
is gone for the old epoch's packets too (R334). -/
def memRefusal (s : State) (m : MapSet) (old : Bool) (src : ModuleId) (addr typ : Nat) : Option Status :=
  let off := addr % 2 ^ 43
  let n := (opSize typ).1
  let slot := addr / 2 ^ 43
  if inKeep s then some .benchHalted
  else match regionOf m off n with
    | none => some .notFound
    | some r =>
      let allowed := (List.range 32).any (fun i => (tget m.rackmap i) == some src && (fieldOf r 255 224).testBit i)
      if tget m.rackmap slot ≠ some s.fab.self ∨ !allowed ∨ src.toNat / 256 ≠ s.fab.self.toNat / 256 ∨
          (old && (regionOf s.fab.maps off n).isNone) then some .notFound
      else if !(fieldOf r 202 200).testBit (opSize typ).2 || off % n != 0 then some .badDescriptor
      else if (bench s (fieldOf r 195 192)).state = .halted then some .benchHalted
      else none

/-- Memory changed. -/
def setMem (s : State) (m : List Host.Cell) : State := { s with fab := { s.fab with mem := m } }

/-- One operation on memory: the state, the old value and the line read (R324). -/
def applyMem (s : State) (typ off : Nat) (payload : List Byte) : State × Nat × List Byte :=
  if typ = 1 then (s, 0, memReadBytes s.fab.mem off 128)
  else if typ = 3 then
    (setMem s (memWriteMask s.fab.mem off (leNat (payload.take 16)) 0 ((payload.drop 16).take 128)), 0, [])
  else
    let v := leNat (memReadBytes s.fab.mem off 8)
    if typ = 5 then (setMem s (memWriteBytes s.fab.mem off (leBytes 8 (v + leNat (payload.take 8)))), v, [])
    else if v = leNat (payload.take 8) then
      (setMem s (memWriteBytes s.fab.mem off (leBytes 8 (leNat ((payload.drop 8).take 8)))), v, [])
    else (s, v, [])

/-- An atomic's answer recorded in the ring of its source (R319): the old value, or the status it was refused with. -/
def recordAtom (s : State) (src : ModuleId) (q v : Nat) : State :=
  setTgt s src (fun c => { c with
    atoms := tput c.atoms (q % 4096) (BitVec.ofNat 64 v), refusals := tdel c.refusals (q % 4096) })

def recordRefusal (s : State) (src : ModuleId) (q : Nat) (st : Status) : State :=
  setTgt s src (fun c => { c with atoms := tput c.atoms (q % 4096) 0, refusals := tput c.refusals (q % 4096) st })

/-- The recorded value of an atomic. -/
def atomOf (s : State) (src : ModuleId) (q : Nat) : Nat := ((tget (tgtCtx s src).atoms (q % 4096)).getD 0).toNat

/-- An operation applied or refused, and answered (R324). FENCE is answered once its turn has come (R327). -/
def serveOp (s : State) (m : MapSet) (old : Bool) (p : Packet) : State :=
  let typ := pType p
  let src := pSrc p
  let ans (s : State) (st : Status) (payload : List Byte) : State :=
    launchAnswer s (answerPkt p s.fab.self s.fab.epoch (answerType typ) (pSeq p) st payload)
  if typ = 9 then (if inKeep s then ans s .benchHalted [] else ans s .ok [])
  else if typ = 0x10 then ackFloor s p
  else
    match memRefusal s m old src (pAddr p) typ with
    | some st => ans (if typ = 5 ∨ typ = 7 then recordRefusal s src (pSeq p) st else s) st []
    | none =>
      let (s1, v, line) := applyMem s typ (pAddr p % 2 ^ 43) p.payload
      if typ = 1 then ans s1 .ok line
      else if typ = 3 then ackFloor s1 p
      else ans (recordAtom s1 src (pSeq p) v) .ok (leBytes 8 v)

/-- The packet's epoch is the previous one. -/
def isOldEpoch (s : State) (e : Nat) : Bool := match s.fab.prev with | some (pe, _) => pe == e && e != s.fab.epoch | none => false

/-- Held operations of a source whose turn has come: every earlier one is applied (R326, R327). -/
def releaseHeld (s : State) (src : ModuleId) : State :=
  let c := tgtCtx s src
  let ready := c.held.filter (fun p => seqBelow (pSeq p) c.floor)
  ready.foldl (fun s p => serveOp s ((tableFor s (pEpoch p)).getD s.fab.maps) (isOldEpoch s (pEpoch p)) p)
    (setTgt s src (fun c => { c with held := c.held.filter (fun p => !seqBelow (pSeq p) c.floor) }))

/-- A held operation takes its place by sequence. -/
def insertHeld (p : Packet) : List Packet → List Packet
  | [] => [p]
  | q :: r => if seqBelow (pSeq p) (pSeq q) then p :: q :: r else q :: insertHeld p r

/-- A duplicate is answered again, never applied (R321). -/
def answerDup (s0 : State) (p : Packet) : State :=
  let s := count s0 0x40050 1
  let typ := pType p
  let c := tgtCtx s (pSrc p)
  let ans (s : State) (payload : List Byte) : State :=
    launchAnswer s (answerPkt p s.fab.self s.fab.epoch (answerType typ) (pSeq p) .ok payload)
  if c.held.any (fun q => pSeq q == pSeq p) then s
  else if typ = 3 ∨ typ = 0x10 then ackFloor s p
  else if typ = 1 then
    (match memRefusal s ((tableFor s (pEpoch p)).getD s.fab.maps) (isOldEpoch s (pEpoch p)) (pSrc p) (pAddr p) 1 with
     | some st => launchAnswer s (answerPkt p s.fab.self s.fab.epoch 2 (pSeq p) st [])
     | none => ans s (memReadBytes s.fab.mem (pAddr p % 2 ^ 43) 128))
  else if typ = 9 then (if seqBelow (pSeq p) c.floor then ans s [] else s)
  else match tget c.refusals (pSeq p % 4096) with
    | some st => launchAnswer s (answerPkt p s.fab.self s.fab.epoch 6 (pSeq p) st [])
    | none => ans s (leBytes 8 (atomOf s (pSrc p) (pSeq p)))

/-- The entries of a combined packet (R329): addend, seq, source. -/
def consEntries (p : Packet) : List (Nat × Nat × ModuleId) :=
  let n := (p.payload.length - (if pType p = 7 then 16 else 0)) / 16
  (List.range n).map (fun i =>
    let w := leNat ((p.payload.drop (16 * i)).take 16)
    (w / 2 ^ 64, w / 2 ^ 32 % 2 ^ 32, BitVec.ofNat 16 (w / 2 ^ 16 % 2 ^ 16)))

/-- A combined packet at its target (R329): constituents in list order, duplicates omitted, each bit set, one result
each. -/
def serveCombined (s : State) (m : MapSet) (old : Bool) (p : Packet) : State :=
  let typ := pType p
  let off := pAddr p % 2 ^ 43
  let es := consEntries p
  let swap := p.payload.drop (p.payload.length - 16)
  let status := (es.map (fun e => memRefusal s m old e.2.2 (pAddr p) typ)).findSome? id
  let step (a : State × List Byte) (e : Nat × Nat × ModuleId) : State × List Byte :=
    let s := a.1
    if isDup (tgtCtx s e.2.2) e.2.1 then (s, a.2 ++ leBytes 8 (atomOf s e.2.2 e.2.1))
    else
      let s1 := markSeq s e.2.2 e.2.1
      if typ = 1 then (releaseHeld s1 e.2.2, a.2 ++ leBytes 8 0)
      else match status with
      | some st => (releaseHeld (recordRefusal s1 e.2.2 e.2.1 st) e.2.2, a.2 ++ leBytes 8 0)
      | none =>
        let (s2, v, _) := applyMem s1 typ off (if typ = 5 then leBytes 8 e.1 else swap)
        (releaseHeld (recordAtom s2 e.2.2 e.2.1 v) e.2.2, a.2 ++ leBytes 8 v)
  let r := es.foldl step (s, [])
  let payload := if status.isSome then [] else if typ = 1 then memReadBytes r.1.fab.mem off 128 else r.2
  launchAnswer r.1 (answerPkt p s.fab.self s.fab.epoch (answerType typ) (pSeq p) (status.getD .ok) payload)

/-- A TRANSFER packet joins its message; a whole message is delivered and leaves the assembly (R313). -/
def holdTransfer (s : State) (p : Packet) : State :=
  let src := (pSrc p).toNat
  let x := pAddr p / 2 ^ 16
  let i (q : Packet) : Nat := pAddr q % 2 ^ 16
  let old := match s.fab.xfers.find? (fun y => y.1 == src && y.2.1 == x) with
    | some y => y.2.2
    | none => []
  let ps := old ++ [p]
  let rest := s.fab.xfers.filter (fun y => !(y.1 == src && y.2.1 == x))
  let whole := match ps.find? pLast with
    | some q => decide (ps.length = i q + 1)
    | none => false
  { s with fab := { s.fab with xfers := if whole then rest else rest ++ [(src, x, ps)] } }

/-- A request of the pair series lands (R316, R319, R321, R326, R330, R331). -/
def takeRequest (typ : Nat) (s : State) (p : Packet) : State :=
  if !packetOk p || pType p != typ then count s 0x40040 1
  else if pDst p ≠ s.fab.self then forwardPacket s p
  else
    let src := pSrc p
    let q := pSeq p
    match tableFor s (pEpoch p) with
    | none => releaseHeld (markSeq (refuseStale s p) src q) src
    | some m =>
      if isDup (tgtCtx s src) q then answerDup s p
      else if tooFar (tgtCtx s src) q then malformed s
      else
        let f0 := (tgtCtx s src).floor
        let s1 := markSeq s src q
        if typ = 9 ∨ (pFlagged p ∧ (typ = 1 ∨ typ = 3)) then
          releaseHeld (setTgt s1 src (fun c => { c with held := insertHeld p c.held })) src
        else
          let s2 := if typ = 0x10 then holdTransfer s1 p else s1
          let s3 := releaseHeld
            (if pCombined p then serveCombined s2 m (isOldEpoch s (pEpoch p)) p
             else serveOp s2 m (isOldEpoch s (pEpoch p)) p) src
          let f1 := (tgtCtx s3 src).floor
          if typ ≠ 3 ∧ typ ≠ 0x10 ∧ f1 ≠ f0 ∧ f1 ≠ (f0 + 1) % 2 ^ 32 then ackFloor s3 p else s3

/-! ## Remote operations of the host (R345 to R348) -/

/-- An operation's completion (R374). -/
def rmaResult (o : Rma) : Nat := if o.op = 0x54 ∨ o.op = 0x55 then o.moved else if o.op = 0x70 then 0 else o.old

/-- A queue-pair fence completes once no earlier operation of its queue pair is left (R346). -/
def settleFences (s : State) : State :=
  s.fab.ops.foldl (fun s k =>
    if k.2.op = 0x70 ∧ k.2.target = 0 ∧ !s.fab.ops.any (fun j => decide (j.1 < k.1) && j.2.target == 0 && j.2.qpn == k.2.qpn) then
      complete { s with fab := { s.fab with ops := tdel s.fab.ops k.1 } } k.2.cpl .ok 0 s.time.now.tick
    else s) s

/-- An operation ends: its record is written (R347). -/
def finishOp (s : State) (k : Nat) (o : Rma) : State :=
  settleFences (complete { s with fab := { s.fab with ops := tdel s.fab.ops k } } o.cpl o.status (rmaResult o)
    s.time.now.tick)

/-- One packet of an operation is answered. -/
def stepOp (s : State) (k : Nat) (st : Status) (bytes old : Nat) : State :=
  match tget s.fab.ops k with
  | none => s
  | some o =>
    let o := { o with left := o.left - 1, moved := if st = .ok then o.moved + bytes else o.moved,
                      status := if o.status = .ok then st else o.status, old := if st = .ok then old else o.old }
    if o.left = 0 then finishOp s k o else { s with fab := { s.fab with ops := tput s.fab.ops k o } }

/-- A packet's bytes on the link, against the originating bench's budget (R66, R348). -/
def linkRoom (s : State) (b n : Nat) : Bool :=
  decide (spentOf s b 3 + n ≤ (bench s b).linkEff * 65536)

/-- Link bytes spent for a bench. -/
def spend (s : State) (b n : Nat) : State := charge s b 3 n

/-- A request leaves under the next seq of its pair (R318). -/
def sendPair (s : State) (p : Packet) (op : Option Nat) : State :=
  let d := pDst p
  let q := (srcCtx s d).next
  let p1 : Packet := ⟨withFieldOf (withFieldOf p.hdr 207 176 q) 175 160 s.fab.epoch, p.payload⟩
  let o : OutPkt := { p := p1, op := op, link := (hopFor s p1).getD 0 }
  launch (setSrc s d (fun c => { c with next := (q + 1) % 2 ^ 32, out := c.out ++ [(q, o)] })) p1

/-- A request may leave now: the pair's 4,096 unanswered, its 64 flagged, the bench's budget (R318, R326, R348). -/
def pairRoom (s : State) (p : Packet) : Bool :=
  let c := srcCtx s (pDst p)
  decide (c.out.length < 4096) &&
    (!pFlagged p || decide ((c.out.filter (fun o => pFlagged o.2.p)).length < 64)) &&
    linkRoom s (pBench p) (32 * pUnits p)

/-- Waiting requests leave in order as room and budget allow. -/
def pumpRack (s : State) : State :=
  let l := s.fab.waits
  l.foldl (fun s w =>
    if !s.fab.waits.any (fun x => pDst x.1 == pDst w.1 || pBench x.1 == pBench w.1) && pairRoom s w.1 then
      sendPair (spend s (pBench w.1) (32 * pUnits w.1)) w.1 w.2
    else { s with fab := { s.fab with waits := s.fab.waits ++ [w] } })
    { s with fab := { s.fab with waits := [] } }

/-- An unanswered packet of a pair. -/
def outPkt (s : State) (d : ModuleId) (q : Nat) : Option OutPkt :=
  ((srcCtx s d).out.find? (fun o => o.1 == q)).map (·.2)

def dropOut (s : State) (d : ModuleId) (q : Nat) : State :=
  setSrc s d (fun c => { c with out := c.out.filter (fun o => o.1 != q) })

/-- A status an answer carries; a value the module does not know is a failure. -/
def packetStatus (n : Nat) : Status :=
  if n = 0 then .ok else if n = 4 then .epochStale else if n = 9 then .badDescriptor else if n = 10 then .notFound
  else if n = 11 then .windowRevoked else if n = 14 then .benchHalted else .noCapacity

/-- Bytes of a line operation: set mask bits of a WRITE, a READ's overlap with its operation's range. -/
def overlap (lo n line : Nat) : Nat × Nat := (max lo line, min (lo + n) (line + 128) - max lo line)

/-- The rack address of a packet as its operation names it. -/
def opBytes (o : Rma) (p : Packet) : Nat := (overlap o.remote o.length (pAddr p)).2

/-- A combiner hands each constituent of its packet the result it is owed (R328, R329). -/
def handOut (s : State) (target : ModuleId) (rseq : Nat) (p : Packet) (st : Status) : State :=
  match s.fab.comb.find? (fun c => c.typ != 1 && c.src == s.fab.self && c.dst == target && c.seq == rseq) with
  | none => s
  | some c =>
    c.cons.zipIdx.foldl (fun s k =>
      let v := (p.payload.drop (8 * k.2)).take 8
      launchAnswer s (answerPkt k.1 target s.fab.epoch 6 (pSeq k.1) st (if st = .ok then v else [])))
      { s with fab := { s.fab with comb := s.fab.comb.filter (fun x => !(x == c)) } }

/-- The answer to one of this module's own packets: data or old value delivered to local_addr, the operation moved on
(R318, R347). -/
def takeAnswerOf (s : State) (d : ModuleId) (q : Nat) (p : Packet) (st : Status) : State :=
  match outPkt s d q with
  | none => s
  | some o =>
    let s1 := dropOut s d q
    let s2 := match o.op.bind (fun k => (tget s.fab.ops k).map (fun r => (k, r))) with
      | none => s1
      | some (k, r) =>
        if st ≠ .ok then stepOp s1 k st 0 0
        else if pType o.p = 1 then
          let (a, n) := overlap r.remote r.length (pAddr o.p)
          stepOp (cplWrite s1 r.cpl (.bytes (r.addr + (a - r.remote)) ((p.payload.drop (a - pAddr o.p)).take n))) k .ok n 0
        else if pType o.p = 5 ∨ pType o.p = 7 then
          stepOp (cplWrite s1 r.cpl (.bytes r.addr (p.payload.take 8))) k .ok 0 (leNat (p.payload.take 8))
        else stepOp s1 k .ok (opBytes r o.p) 0
    pumpRack s2

/-- A stale refusal of this module's own request (R331): ignored when older than the last send, otherwise the
operation is resolved again and issued under a new seq. -/
def takeStale (s : State) (p : Packet) : State :=
  let d := if pType p = 0x11 ∨ pType p = 2 ∨ pType p = 6 ∨ pType p = 0x0A then some (pRseq p) else none
  match d with
  | none => s
  | some q =>
    -- the refusal may come from a forwarder: the pair is found by the seq and epoch answered
    match s.fab.src.find? (fun c => c.2.out.any (fun o => o.1 == q &&
        (c.1 == (pSrc p).toNat || pEpoch o.2.p == pEpoch p))) with
    | none => s
    | some (dst, c) =>
      match c.out.find? (fun o => o.1 == q) with
      | none => s
      | some (_, o) =>
        if epochOlder (pEpoch p) (pEpoch o.p) then s
        else
          let s1 := dropOut s (BitVec.ofNat 16 dst) q
          let fence := if pType o.p = 9 then (o.op.bind (tget s.fab.ops)).map (·.remote) else none
          let slot := fence.getD (pAddr o.p) / 2 ^ 43
          (match (if pType o.p = 0x10 then some (pDst o.p) else tget s.fab.maps.rackmap slot) with
           | some t => sendPair s1 ⟨withFieldOf (withFieldOf o.p.hdr 159 144 t.toNat) 33 33 0, o.p.payload⟩ o.op
           | none => match o.op with
             | some k => stepOp s1 k .notFound 0 0
             | none => s1)

/-- A response of the pair series lands: forwarded, or taken by its source (R318, R327, R328, R331). -/
def takeResponse (typ : Nat) (s : State) (p : Packet) : State :=
  if !packetOk p || pType p != typ then count s 0x40040 1
  else if pDst p ≠ s.fab.self then forwardPacket s p
  else
    let st := packetStatus (pStatus p)
    if st = .epochStale then takeStale s p
    else
      let s1 := if typ = 2 then copyAnswers s (pSrc p) s.fab.self (pRseq p) p else s
      let s2 := if typ = 6 then handOut s1 (pSrc p) (pRseq p) p st else s1
      takeAnswerOf s2 (pSrc p) (pRseq p) p st

/-- An ACK lands (R318): every WRITE and TRANSFER below its rseq is answered; one with a status refuses the packet it
names. -/
def takeAck (s : State) (p : Packet) : State :=
  if !packetOk p || pType p != 0x11 then count s 0x40040 1
  else if pDst p ≠ s.fab.self then forwardPacket s p
  else
    let st := packetStatus (pStatus p)
    let d := pSrc p
    if st = .epochStale then takeStale s p
    else if st ≠ .ok then takeAnswerOf s d (pRseq p) p st
    else
      ((srcCtx s d).out.filter (fun o => seqBelow o.1 (pRseq p) && (pType o.2.p == 3 || pType o.2.p == 0x10))).foldl
        (fun s o => takeAnswerOf s d o.1 p .ok) s

/-- A packet with no answer is sent again, or fails after its tries (R320). -/
def replayPacket (s : State) (d : ModuleId) (q : Nat) : State :=
  match outPkt s d q with
  | none => s
  | some o =>
    if o.tries < regF s 0x40020 19 16 then
      let p : Packet := ⟨withFieldOf (withFieldOf o.p.hdr 33 33 1) 175 160 s.fab.epoch, o.p.payload⟩
      let s1 := setSrc s d (fun c => { c with out := c.out.map (fun x =>
        if x.1 = q then (q, { x.2 with p := p, tries := o.tries + 1, link := (hopFor s p).getD 0 }) else x) })
      launch s1 p
    else
      takeAnswerOf (if pCombined o.p then handOut s d q o.p .notFound else s) d q o.p .notFound

/-! ## A link goes down (R317) -/

/-- What an exchange held is erased (R441): messages, ciphertext and shared secret. -/
def clearExchange (x : Link) : Link :=
  { x with helloSeen := false, hello := [], peerHello := [], kemKey := 0, kemText := [], kemShare := 0 }

/-- The link is DOWN: every packet waiting for it and every packet in its replay buffer moves to other links, with its
seq and without the replay bit; the event is logged as LINK `cause`. -/
def linkDown (s : State) (l cause : Nat) (st : LinkState := .down) : State :=
  let x := linkOf s l
  let ps := x.txBuf.map (·.2.2) ++ x.queue
  let s1 := setLink s l (fun x => { clearExchange x with
    state := st, step := 0, lanes := 0, enc := false, rxNext := 0, txNext := 0, txBuf := [], nakOut := false,
    credits := (0, 0, 0, 0), queue := [], secret := 0, txKey := 0, rxKeys := [], keyI := 0, keyIdx := 0, peerKeyIdx := 0,
    ident := none, lanePower := false })
  returnCredits (ps.foldl launch (logErr s1 .link cause (u := ⟨.link, l⟩)))

/-! ## The commands -/

/-- A packet is held in the receive buffer of a link until it moves on (R314). -/
def owe (s : State) (link : Nat) (p : Packet) : State := { s with fab := { s.fab with owed := s.fab.owed ++ [(p, link)] } }

/-- PACKET_FORWARD (R313, R314, R316): its credits go back once it has left the receive buffer. -/
def execPacketForward (t : Stamp) (link : Nat) (p : Packet) (s : State) : Host.Outcome State Fault Refusal :=
  run t (fun s =>
    if !linkUp s link then s
    else returnCredits
      (if !packetOk p then count (owe s link p) 0x40040 1
       else if pDst p = s.fab.self then send (owe s link p) s.fab.self none (.packet p)
       else forwardPacket (owe s link (hopped p)) p)) s

/-- The shape of a fabric packet: one for this module sets the link wake flag (R465), another passes through. -/
def runPacket (t : Stamp) (p : Packet) (f : State → State) (s : State) : Host.Outcome State Fault Refusal :=
  run t (fun s => f (if pDst p = s.fab.self then noteLink s else s)) s

def execRead (t : Stamp) (p : Packet) (s : State) : Host.Outcome State Fault Refusal := runPacket t p (fun s => takeRequest 1 s p) s
def execWrite (t : Stamp) (p : Packet) (s : State) : Host.Outcome State Fault Refusal := runPacket t p (fun s => takeRequest 3 s p) s
def execAdd (t : Stamp) (p : Packet) (s : State) : Host.Outcome State Fault Refusal := runPacket t p (fun s => takeRequest 5 s p) s
def execCas (t : Stamp) (p : Packet) (s : State) : Host.Outcome State Fault Refusal := runPacket t p (fun s => takeRequest 7 s p) s
/-- FENCE (R327). -/
def execFencePacket (t : Stamp) (p : Packet) (s : State) : Host.Outcome State Fault Refusal :=
  runPacket t p (fun s => takeRequest 9 s p) s
def execReadResp (t : Stamp) (p : Packet) (s : State) : Host.Outcome State Fault Refusal :=
  runPacket t p (fun s => takeResponse 2 s p) s
def execAtomResp (t : Stamp) (p : Packet) (s : State) : Host.Outcome State Fault Refusal :=
  runPacket t p (fun s => takeResponse 6 s p) s
def execFenceDone (t : Stamp) (p : Packet) (s : State) : Host.Outcome State Fault Refusal :=
  runPacket t p (fun s => takeResponse 0x0A s p) s
def execAck (t : Stamp) (p : Packet) (s : State) : Host.Outcome State Fault Refusal := runPacket t p (fun s => takeAck s p) s
/-- TRANSFER (R313). -/
def execTransfer (t : Stamp) (p : Packet) (s : State) : Host.Outcome State Fault Refusal :=
  runPacket t p (fun s => takeRequest 0x10 s p) s
/-- PACKET_REPLAY (R320). -/
def execPacketReplay (t : Stamp) (dst : ModuleId) (seq : Nat) (s : State) : Host.Outcome State Fault Refusal :=
  run t (fun s => replayPacket s dst seq) s

end Sys2Proof.Machine
end

