-- ==== Sys2Proof/Machine/Numbers.lean ====
section
/-! DEFINITION. Number formats, rounding, codebooks, expansion, the sampler's arithmetic, the generator and the
distances of retrieval, as exact rational arithmetic rounded where the manual rounds. -/

namespace Sys2Proof.Machine

/-! ## FP32 (R84, R85) -/

/-- 2 to an integer power. -/
def pow2 (e : Int) : Rat := if 0 ≤ e then ((2 ^ e.toNat : Nat) : Rat) else 1 / ((2 ^ (-e).toNat : Nat) : Rat)

/-- The value of a finite FP32 (R84). -/
def fval (x : F32) : Rat :=
  let e := fieldOf x 30 23
  let f := fieldOf x 22 0
  let m : Rat := if e = 0 then (f : Rat) * pow2 (-149) else ((2 ^ 23 + f : Nat) : Rat) * pow2 ((e : Int) - 150)
  if bitOf x 31 then -m else m

/-- Infinity or NaN by exponent (R84). -/
def fspecial (x : F32) : Bool := fieldOf x 30 23 == 255

/-- Round to nearest, ties to even, of a non-negative rational. -/
def rneNat (q : Rat) : Nat :=
  let n := q.floor.toNat
  let r := q - (n : Rat)
  if r < 1 / 2 then n else if 1 / 2 < r then n + 1 else if n % 2 = 0 then n else n + 1

/-- Floor of the binary logarithm of a positive rational. -/
def ilog2 (q : Rat) : Int :=
  let e : Int := (Nat.log2 q.num.natAbs : Int) - (Nat.log2 q.den : Int)
  if q < pow2 e then e - 1 else if pow2 (e + 1) ≤ q then e + 1 else e

/-- A zero of a sign. -/
def fzero (neg : Bool) : F32 := if neg then BitVec.ofNat 32 (2 ^ 31) else 0

/-- One FP32 rounding: to nearest, ties to even, a result below 2⁻¹²⁶ after rounding replaced by zero of its sign
(R85). Beyond the format, which R85 excludes, infinity. An exact zero is +0; where its sign follows from the operands
the operation gives it. -/
def fl (q : Rat) : F32 :=
  if q = 0 then 0
  else
    let a := if q < 0 then -q else q
    let sign : Nat := if q < 0 then 1 else 0
    let e := ilog2 a
    let m := rneNat (a / pow2 (e - 23))
    let e' := if m = 2 ^ 24 then e + 1 else e
    let m' := if m = 2 ^ 24 then 2 ^ 23 else m
    if e' < -126 then BitVec.ofNat 32 (sign * 2 ^ 31)
    else if 127 < e' then BitVec.ofNat 32 (sign * 2 ^ 31 + 255 * 2 ^ 23)
    else BitVec.ofNat 32 (sign * 2 ^ 31 + (e' + 127).toNat * 2 ^ 23 + (m' - 2 ^ 23))

/-- The sign bit. -/
def fsign (a : F32) : Bool := bitOf a 31

def fneg (a : F32) : F32 := a ^^^ BitVec.ofNat 32 (2 ^ 31)

/-- IEEE 754 addition: a zero sum is +0 unless both operands are −0. -/
def fadd (a b : F32) : F32 :=
  let q := fval a + fval b
  if q = 0 then fzero (fsign a && fsign b) else fl q

def fsub (a b : F32) : F32 := fadd a (fneg b)

/-- IEEE 754 multiplication: the sign of a zero product is that of its operands. -/
def fmul (a b : F32) : F32 :=
  let q := fval a * fval b
  if q = 0 then fzero (fsign a != fsign b) else fl q

/-- IEEE 754 division. By zero the manual states no result: a free value (DESIGN CHOICE, log entry 118). -/
def fdiv (a b : F32) : F32 :=
  if fval b = 0 then Config.divZero a b
  else if fval a = 0 then fzero (fsign a != fsign b)
  else fl (fval a / fval b)

/-- Floor of a square root, for roots below 2¹⁹⁰. -/
def isqrt (n : Nat) : Nat :=
  (List.range 190).foldl (fun r i => if (r + 2 ^ (189 - i)) ^ 2 ≤ n then r + 2 ^ (189 - i) else r) 0

/-- The square root, correctly rounded (R85). Its scaled floor has over 60 bits, so that an inexact root rounds as the
midpoint above the floor does. -/
def fsqrt (x : F32) : F32 :=
  let q := fval x
  if q = 0 then x
  else
    let y : Rat := q * pow2 252
    let r := isqrt y.floor.toNat
    fl (if ((r ^ 2 : Nat) : Rat) = y then (r : Rat) * pow2 (-126) else ((r : Rat) + 1 / 2) * pow2 (-126))

def fofInt (i : Int) : F32 := fl (i : Rat)
def flt (a b : F32) : Bool := decide (fval a < fval b)
def feq (a b : F32) : Bool := decide (fval a = fval b)

/-- A free FP32 value as an operation of the data plane can leave it: finite, and zero where it is below 2⁻¹²⁶ (R85).
-/
def settled32 (x : F32) : F32 :=
  if fspecial x then x &&& BitVec.ofNat 32 0xBFFFFFFF
  else if fieldOf x 30 23 = 0 then fzero (fsign x) else x

/-- FP16 to FP32, exact, subnormals and the sign of zero included (R86). -/
def ofHalf (h : BitVec 16) : F32 :=
  let e := fieldOf h 14 10
  let f := fieldOf h 9 0
  let m : Rat := if e = 0 then (f : Rat) * pow2 (-24) else ((2 ^ 10 + f : Nat) : Rat) * pow2 ((e : Int) - 25)
  if m = 0 then fzero (bitOf h 15) else fl (if bitOf h 15 then -m else m)

/-- BF16 to FP32, exact (R86). -/
def ofBf16 (h : BitVec 16) : F32 := BitVec.ofNat 32 (h.toNat * 2 ^ 16)

/-- An infinity or NaN of FP16 (0) or BF16 (R86). -/
def halfSpecial (h : BitVec 16) : Bool := fieldOf h 14 10 == 31
def bf16Special (h : BitVec 16) : Bool := fieldOf h 14 7 == 255

/-- A stored scale: positive, normal, 2⁻⁶⁰ to 2⁴⁰ (R93). -/
def scaleOk (x : F32) : Bool :=
  !bitOf x 31 && decide (pow2 (-60) ≤ fval x) && decide (fval x ≤ pow2 40) && !fspecial x

/-! ## Rounding to integers (R94 to R96) -/

/-- Nearest, ties away from zero (R94). -/
def roundAway (q : Rat) : Int := if q < 0 then -((-q + 1 / 2).floor) else (q + 1 / 2).floor

/-- Requantisation and whether it clamped (R95). -/
def requant (x s : F32) : Int × Bool :=
  let a := roundAway (fval (fdiv x s))
  if a < -127 then (-127, true) else if 127 < a then (127, true) else (a, false)

/-- `a` is a better entry than `b` for the value q: nearer, then greater magnitude, then positive (R96). -/
def betterEntry (q : Rat) (a b : Int) : Bool :=
  let d (e : Int) : Rat := if q < (e : Rat) then (e : Rat) - q else q - (e : Rat)
  if d a = d b then
    if a.natAbs = b.natAbs then decide (b < a) else decide (b.natAbs < a.natAbs)
  else decide (d a < d b)

/-- The best code of the entries from code i on (R96). -/
def bestCode (q : Rat) : List Int → Nat → Nat × Int → Nat
  | [], _, best => best.1
  | e :: es, i, best => bestCode q es (i + 1) (if betterEntry q e best.2 then (i, e) else best)

/-- The code of a real value against scale s, and whether it was clipped (R96). -/
def codeOf (entries : List Int) (x s : F32) : Nat × Bool :=
  let q := fval (fdiv x s)
  match entries with
  | [] => (0, false)
  | e :: es => (bestCode q es 1 (0, e),
      decide (q < (e : Rat)) || decide (((e :: es).getLast?.getD 0 : Rat) < q))

/-- Clamp to the range of an entry width (R113). -/
def clampWidth (width : Nat) (a : Int) : Int × Bool :=
  let lo : Int := if width = 8 then -128 else -2048
  let hi : Int := if width = 8 then 127 else 2047
  if a < lo then (lo, true) else if hi < a then (hi, true) else (a, false)

/-! ## CRC-32C (R112) -/

/-- One bit of the reflected CRC. -/
def crcBit (c : Nat) : Nat := if c % 2 = 1 then (c / 2) ^^^ 0x82F63B78 else c / 2

/-- One byte of the reflected CRC. -/
def crcByte (c b : Nat) : Nat :=
  crcBit (crcBit (crcBit (crcBit (crcBit (crcBit (crcBit (crcBit (c ^^^ b))))))))

/-- CRC-32C of a byte string (R112). -/
def crc32c (bs : List Nat) : Nat := bs.foldl crcByte 0xFFFFFFFF ^^^ 0xFFFFFFFF

/-- CRC-32C of the low n bytes of a structure whose crc field is 0 (R112). -/
def crcOf (n v : Nat) : Nat := crc32c ((leBytes n v).map (·.toNat))

/-- The crc of a 32-byte header, its crc field [255:224] taken as zero, with the bytes after it (R112, R174). -/
def hdrCrc (h : BitVec 256) (payload : List Byte) : Nat :=
  crc32c ((leBytes 32 (h.toNat % 2 ^ 224) ++ payload).map (·.toNat))

/-- A header with its crc field formed. -/
def putCrc (h : BitVec 256) (payload : List Byte) : BitVec 256 :=
  BitVec.ofNat 256 (h.toNat % 2 ^ 224 + hdrCrc h payload * 2 ^ 224)

/-! ## Codebooks (R84, R88 to R90) -/

end Sys2Proof.Machine

namespace Sys2Proof

/-- cb_index, entry_count and width of a codebook's header (R88). -/
def Codebook.index (c : Codebook) : Nat := fieldOf c.hdr 95 64
def Codebook.count (c : Codebook) : Nat := fieldOf c.hdr 47 32
def Codebook.width (c : Codebook) : Nat := fieldOf c.hdr 23 16

/-- The stored entries, 8 or 16 bits each, in code order (R88). -/
def Codebook.stored (c : Codebook) : List Nat :=
  (List.range c.count).map (fun i =>
    if c.width = 8 then (c.body.getD i 0).toNat
    else (c.body.getD (2 * i) 0).toNat + 256 * (c.body.getD (2 * i + 1) 0).toNat)

/-- The entries as signed integers: int8, or the value field of an int12 entry (R84). -/
def Codebook.entries (c : Codebook) : List Int :=
  c.stored.map (fun e => if c.width = 8 then (BitVec.ofNat 8 e).toInt else (BitVec.ofNat 12 e).toInt)

/-- Every int12 entry's ext is four copies of bit 11 (R84, R89). -/
def Codebook.extOk (c : Codebook) : Bool :=
  c.width == 8 || c.stored.all (fun e => e / 2 ^ 12 == (if e.testBit 11 then 15 else 0))

/-- Bytes the entries take. -/
def Codebook.bytes (c : Codebook) : Nat := c.count * (if c.width = 8 then 1 else 2)

/-- The entries are followed by zeros up to a multiple of 16 bytes and nothing else (R88, R89). -/
def Codebook.padOk (c : Codebook) : Bool :=
  c.body.length == 16 * ceilDiv c.bytes 16 && (c.body.drop c.bytes).all (· == 0)

end Sys2Proof

namespace Sys2Proof.Machine

/-- Strictly ascending. -/
def ascending : List Int → Bool
  | a :: b :: r => decide (a < b) && ascending (b :: r)
  | _ => true

/-- A valid codebook at a position (R88, R89). -/
def bookOk (pos : Nat) (c : Codebook) : Bool :=
  fieldOf c.hdr 15 0 == 0x4342 && zeroAt c.hdr 31 24 && zeroAt c.hdr 63 48 && zeroAt c.hdr 127 96 &&
    c.index == pos && (c.count == 16 || c.count == 256) && (c.width == 8 || c.width == 12) &&
    ascending c.entries && c.extOk && c.padOk

/-- 16 entries go with 4-bit codes, 256 with 8-bit codes (R89). -/
def bookBits (c : Codebook) (bits : Nat) : Bool := (bits == 4 && c.count == 16) || (bits == 8 && c.count == 256)

/-! ## Code streams and blocks (R87, R90, R107 to R113) -/

/-- Codes packed in element order: two 4-bit codes to a byte, the last one's upper half 0; or one 8-bit code (R87). -/
def packCodes (bits : Nat) : List Nat → List Byte
  | [] => []
  | [a] => [BitVec.ofNat 8 (if bits = 4 then a % 16 else a)]
  | a :: b :: r =>
    if bits = 4 then BitVec.ofNat 8 (a % 16 + 16 * (b % 16)) :: packCodes bits r
    else BitVec.ofNat 8 a :: packCodes bits (b :: r)

/-- The codes of a byte string (R87, step 1 of R90). -/
def unpackCodes (bits : Nat) (bs : List Byte) : List Nat :=
  bs.flatMap (fun x => if bits = 4 then [x.toNat % 16, x.toNat / 16] else [x.toNat])

/-- Codes in a block's stream (R110). -/
def nCodes (mode rows cols rank : Nat) : Nat := if mode = 0 then rows * cols else rank * (rows + cols)

/-- payload_len of a block (R110). -/
def payloadLen (mode rows cols rank bits : Nat) : Nat := 32 * ceilDiv (nCodes mode rows cols rank * bits) 256

/-- expanded_len of a block whose codebook has entries of a width (R110). -/
def expandedLen (rows cols width : Nat) : Nat := rows * cols * (if width = 8 then 1 else 2)

end Sys2Proof.Machine

namespace Sys2Proof

/-! The fields of a block's header (R108). -/

def Block.magic (b : Block) : Nat := fieldOf b.hdr 15 0
def Block.kind (b : Block) : Nat := fieldOf b.hdr 19 16
def Block.mode (b : Block) : Nat := fieldOf b.hdr 21 20
def Block.final (b : Block) : Bool := bitOf b.hdr 23
def Block.codeBits (b : Block) : Nat := fieldOf b.hdr 31 24
def Block.shift (b : Block) : Nat := fieldOf b.hdr 39 32
def Block.rank (b : Block) : Nat := fieldOf b.hdr 47 40
def Block.locator (b : Block) : Nat := fieldOf b.hdr 95 64
def Block.rows (b : Block) : Nat := fieldOf b.hdr 103 96 + 1
def Block.cols (b : Block) : Nat := fieldOf b.hdr 111 104 + 1
def Block.cbIndex (b : Block) : Nat := fieldOf b.hdr 127 112
def Block.payloadLen (b : Block) : Nat := fieldOf b.hdr 159 128
def Block.expandedLen (b : Block) : Nat := fieldOf b.hdr 191 160
def Block.fpTag (b : Block) : Nat := fieldOf b.hdr 223 192
def Block.crc (b : Block) : Nat := fieldOf b.hdr 255 224

/-- Every reserved field is 0 (R108). -/
def Block.clear (b : Block) : Bool := zeroAt b.hdr 22 22 && zeroAt b.hdr 63 48

/-- The codes of the payload in stream order (R87, R110). -/
def Block.codes (b : Block) : List Nat :=
  (Machine.unpackCodes b.codeBits b.payload).take (Machine.nCodes b.mode b.rows b.cols b.rank)

/-- Header and payload in bytes (R107). -/
def Block.bytes (b : Block) : Nat := 32 + b.payload.length

/-! The fields of a record block's header (R174). -/

def RecBlock.isToken (r : RecBlock) : Bool := fieldOf r.hdr 19 16 == 1
def RecBlock.headFirst (r : RecBlock) : Nat := fieldOf r.hdr 35 20
def RecBlock.locator (r : RecBlock) : Nat := fieldOf r.hdr 127 96
def RecBlock.rows (r : RecBlock) : Nat := fieldOf r.hdr 135 128
def RecBlock.layer (r : RecBlock) : Nat := fieldOf r.hdr 143 136
def RecBlock.qHeads (r : RecBlock) : Nat := fieldOf r.hdr 159 144
def RecBlock.fpTag (r : RecBlock) : Nat := fieldOf r.hdr 223 192

/-- A record block of its fields and payload: payload_len and crc formed (R174). -/
def mkRec (isToken : Bool) (headFirst locator rows layer qHeads fpTag : Nat) (payload : List Byte) (tier : Tier) : RecBlock :=
  let h : BitVec 256 := BitVec.ofNat 256 (0x5243 + (if isToken then 2 ^ 16 else 0) + headFirst % 2 ^ 16 * 2 ^ 20 +
    locator % 2 ^ 32 * 2 ^ 96 + rows % 256 * 2 ^ 128 + layer % 256 * 2 ^ 136 + qHeads % 2 ^ 16 * 2 ^ 144 +
    payload.length % 2 ^ 32 * 2 ^ 160 + fpTag % 2 ^ 32 * 2 ^ 192)
  { hdr := Machine.putCrc h payload, payload := payload, tier := tier }

/-- A record block as R174 lays it out: refused otherwise. -/
def RecBlock.ok (r : RecBlock) (fp : Nat) : Bool :=
  fieldOf r.hdr 15 0 == 0x5243 && decide (fieldOf r.hdr 19 16 ≤ 1) && zeroAt r.hdr 95 36 && r.locator % 64 == 0 &&
    decide (1 ≤ r.rows) && decide (r.rows ≤ 64) && r.fpTag == fp && fieldOf r.hdr 191 160 == r.payload.length &&
    r.payload.length == (if r.isToken then 8 * r.rows else 4 * r.rows * r.qHeads) &&
    (if r.isToken then r.headFirst == 0 && r.layer == 0 && r.qHeads == 0
     else r.headFirst % 63 == 0 && decide (1 ≤ r.qHeads) && decide (r.qHeads ≤ 63)) &&
    fieldOf r.hdr 255 224 == Machine.hdrCrc r.hdr r.payload

end Sys2Proof

namespace Sys2Proof.Machine

/-- What a block's header says beside its lengths and crc. -/
structure BlockForm where
  kind : Nat := 0
  mode : Nat := 0
  final : Bool := false
  rows : Nat := 1
  cols : Nat := 1
  rank : Nat := 0
  shift : Nat := 0
  codeBits : Nat := 4
  cbIndex : Nat := 0
  locator : Nat := 0
  fpTag : Nat := 0
  deriving DecidableEq, Repr

/-- The form of a block. -/
def formOf (b : Block) : BlockForm :=
  { kind := b.kind, mode := b.mode, final := b.final, rows := b.rows, cols := b.cols, rank := b.rank, shift := b.shift,
    codeBits := b.codeBits, cbIndex := b.cbIndex, locator := b.locator, fpTag := b.fpTag }

/-- The block of a form and its codes: packed and padded, with its lengths and crc (R87, R108, R110, R112). `width` is
the entry width of its codebook. -/
def mkBlock (f : BlockForm) (width : Nat) (codes : List Nat) : Block :=
  let n := payloadLen f.mode f.rows f.cols f.rank f.codeBits
  let bs := packCodes f.codeBits codes
  let payload := (bs ++ List.replicate (n - bs.length) 0).take n
  let h : BitVec 256 := BitVec.ofNat 256 (0x424B + f.kind % 16 * 2 ^ 16 + f.mode % 4 * 2 ^ 20 +
    (if f.final then 2 ^ 23 else 0) + f.codeBits % 256 * 2 ^ 24 + f.shift % 256 * 2 ^ 32 + f.rank % 256 * 2 ^ 40 +
    f.locator % 2 ^ 32 * 2 ^ 64 + (f.rows - 1) % 256 * 2 ^ 96 + (f.cols - 1) % 256 * 2 ^ 104 +
    f.cbIndex % 2 ^ 16 * 2 ^ 112 + n % 2 ^ 32 * 2 ^ 128 + expandedLen f.rows f.cols width % 2 ^ 32 * 2 ^ 160 +
    f.fpTag % 2 ^ 32 * 2 ^ 192)
  { hdr := putCrc h payload, payload := payload }

/-- The expander's output and the count of clamped elements (R90, R113). -/
def expand (book : Codebook) (b : Block) : List Int × Nat :=
  let es := book.entries
  let cs := b.codes
  let c (i : Nat) : Int := es.getD (cs.getD i 0) 0
  if b.mode = 0 then ((List.range (b.rows * b.cols)).map c, 0)
  else
    let elem (i j : Nat) : Int × Bool :=
      let acc := (List.range b.rank).foldl
        (fun a k => a + c (i * b.rank + k) * c (b.rows * b.rank + k * b.cols + j)) (0 : Int)
      let sh := if b.shift = 0 then acc
        else if acc < 0 then -(((acc.natAbs + 2 ^ (b.shift - 1)) / 2 ^ b.shift : Nat) : Int)
        else (((acc.natAbs + 2 ^ (b.shift - 1)) / 2 ^ b.shift : Nat) : Int)
      clampWidth book.width sh
    let all := (List.range (b.rows * b.cols)).map (fun n => elem (n / b.cols) (n % b.cols))
    (all.map (·.1), (all.filter (·.2)).length)

/-- What the reader of a block expects of it (R111, R116, R118): its kind, form limits, codebook, tile number or first
position, and the tag of its model. `rankMax` 0 admits RAW alone. -/
structure Expected where
  kind : Nat
  final : Option Bool
  rows : Option Nat
  rowsMax : Nat
  cols : Option Nat
  colsMax : Nat
  rankMax : Nat
  room : Nat
  codeBits : Option Nat
  width : Option Nat
  cbIndex : Option Nat
  locator : Nat
  fpTag : Nat
  deriving Repr

/-- An expected value, where there is one. -/
def meets (x : Option Nat) (n : Nat) : Bool := x.isNone || x == some n

/-- The first check of R118 that a block fails. The checks made before the first operand leaves come first: HEADER
(2), LENGTH (3), IDENTITY (5); then the CRC (1), made at the last payload byte (DESIGN CHOICE, log entry 119). COUNT
(4) is a fault of the expander's own, which no block shows at rest. -/
def blockFault (x : Expected) (b : Block) : Option Nat :=
  let n := payloadLen b.mode b.rows b.cols b.rank b.codeBits
  let lenOk : Bool := match x.width with
    | some w => b.expandedLen == expandedLen b.rows b.cols w
    | none => b.expandedLen == b.rows * b.cols || b.expandedLen == 2 * (b.rows * b.cols)
  if b.magic ≠ 0x424B ∨ !b.clear ∨ b.kind ≠ x.kind ∨ 1 < b.mode ∨ (b.codeBits ≠ 4 ∧ b.codeBits ≠ 8) ∨
      !meets x.codeBits b.codeBits ∨ !(x.final.isNone || x.final == some b.final) ∨ !meets x.rows b.rows ∨
      x.rowsMax < b.rows ∨ !meets x.cols b.cols ∨ x.colsMax < b.cols ∨
      (b.mode = 0 ∧ (b.rank ≠ 0 ∨ b.shift ≠ 0)) ∨
      (b.mode = 1 ∧ (b.rank = 0 ∨ x.rankMax < b.rank ∨ 31 < b.shift ∨ !b.final)) ∨ x.room < 32 + n then some 2
  else if b.payloadLen ≠ n ∨ b.payload.length ≠ n ∨ !lenOk then some 3
  else if b.fpTag ≠ x.fpTag ∨ !meets x.cbIndex b.cbIndex ∨ b.locator ≠ x.locator then some 5
  else if b.crc ≠ hdrCrc b.hdr b.payload then some 1
  else none

/-- Bytes of a page class or slot class (R116, R154). -/
def classBytes (c : Nat) : Nat := 1024 * 2 ^ c

/-- The smallest slot class that holds n bytes (R116, R154, R165). -/
def classFor (n : Nat) : Nat :=
  if n ≤ 1024 then 0 else if n ≤ 2048 then 1 else if n ≤ 4096 then 2 else if n ≤ 8192 then 3 else 4

/-- Rank ceiling of a class (R116). -/
def rankCeiling (cls bits headDim maxRank : Nat) : Nat :=
  min maxRank ((classBytes cls - 32) * 8 / (bits * (64 + headDim)))

/-- Slot class of an open page: 64 raw rows (R155). -/
def openClass (headDim bits : Nat) : Nat := classFor (32 + payloadLen 0 64 headDim 0 bits)

/-- Slot class of a pending block (R165). -/
def pendingClass (headDim bits : Nat) : Nat := classFor (32 + ceilDiv (32 * headDim * bits) 8)

/-! ## The accumulator and the single scaling (R97, R101, R132, R135) -/

/-- Sum of products in the 48-bit two's-complement accumulator of an engine or a cell (R97): exact within R98. -/
def acc48 (xs ys : List Int) : Int :=
  ((List.zipWith (fun a b => BitVec.ofInt 48 (a * b)) xs ys).foldl (· + ·) (0 : BitVec 48)).toInt

/-- A dense or score sum scaled (R101). -/
def scaleSum (s : Int) (a b : F32) : F32 := fmul (fofInt s) (fmul a b)

/-! ## Exponential and logarithm (R99, R175) -/

/-- ln 2 held in two FP32 parts (R99). -/
def ln2 : Rat := fval (BitVec.ofNat 32 0x3F317218) + fval (BitVec.ofNat 32 0xB102E308)

/-- exp of a rational in [−ln 2 ⁄ 2, ln 2 ⁄ 2], far within 2⁻⁵⁰ relative. -/
def expRat (r : Rat) : Rat := (List.range 18).foldl (fun a i => 1 + r * a / ((18 - i : Nat) : Rat)) 1

/-- ln of a positive rational, far within 2⁻⁵⁰. -/
def lnRat (q : Rat) : Rat :=
  let e := ilog2 q
  let f := q / pow2 e
  let t := (f - 1) / (f + 1)
  (e : Rat) * ln2 + 2 * (List.range 22).foldl (fun a i => a * t * t + 1 / ((2 * (21 - i) + 1 : Nat) : Rat)) 0 * t

/-- A free FP32 value held to a bound the manual sets: the free value where it meets the bound, else `dflt`, which
does. -/
def within (ok : Rat → Bool) (free dflt : F32) : F32 := if !fspecial free && ok (fval free) then free else dflt

/-- |a − b| ≤ c. -/
def nearBy (a b c : Rat) : Bool := decide (a - b ≤ c) && decide (b - a ≤ c)

/-- ln in FP32, rounded once (R175). -/
def lnF (x : F32) : F32 := fl (lnRat (fval x))

/-! ## The generator (R231): Philox-4×32, 10 rounds -/

/-- One round on the counter words. -/
def philoxRound (k0 k1 : Nat) (c : Nat × Nat × Nat × Nat) : Nat × Nat × Nat × Nat :=
  let (c0, c1, c2, c3) := c
  let p0 := 0xD2511F53 * c0
  let p1 := 0xCD9E8D57 * c2
  ((p1 / 2 ^ 32) ^^^ c1 ^^^ k0, p1 % 2 ^ 32, (p0 / 2 ^ 32) ^^^ c3 ^^^ k1, p0 % 2 ^ 32)

/-- n rounds with the key schedule. -/
def philoxRounds : Nat → Nat → Nat → Nat × Nat × Nat × Nat → Nat × Nat × Nat × Nat
  | 0, _, _, c => c
  | n + 1, k0, k1, c =>
    philoxRounds n ((k0 + 0x9E3779B9) % 2 ^ 32) ((k1 + 0xBB67AE85) % 2 ^ 32) (philoxRound k0 k1 c)

/-- Output word 0 for the position (R231). -/
def draw (seed : Word) (q : Nat) : Nat :=
  (philoxRounds 10 (fieldOf seed 31 0) (fieldOf seed 63 32) (q % 2 ^ 32, 0, 0, 0)).1

/-! ## The sampler (R230) -/

/-- Insert in descending order of value, ties to the lower token ID. -/
def insDesc (x : Nat × F32) : List (Nat × F32) → List (Nat × F32)
  | [] => [x]
  | y :: r =>
    if flt y.2 x.2 || (feq y.2 x.2 && decide (x.1 < y.1)) then x :: y :: r else y :: insDesc x r

/-- Descending by value, ties to the lower token ID. -/
def sortDesc (l : List (Nat × F32)) : List (Nat × F32) := l.foldr insDesc []

/-- The shortest leading run whose running FP32 sum reaches the bound; all if it never does (R230 step 6). -/
def topP (bound : F32) : F32 → List (Nat × F32) → List (Nat × F32)
  | _, [] => []
  | acc, x :: r =>
    let a := fadd acc x.2
    if flt a bound then x :: topP bound a r else [x]

/-- The first survivor whose running sum of weights exceeds r (R230 step 8). -/
def pick (r : Nat) : Nat → List (Nat × Nat) → Nat
  | _, [] => 0
  | _, [x] => x.1
  | acc, x :: l => if r < acc + x.2 then x.1 else pick r (acc + x.2) l

/-- Sampler parameters by the block's fields (R229). -/
structure Params where
  temperature : F32
  topP : F32
  minP : F32
  presence : F32
  frequency : F32
  topK : Nat
  window : Nat
  seed : Word
  deriving Repr

/-- The parameters of a block; seed 0 takes req_key (R229). -/
def paramsOf (raw : BitVec 1536) (reqKey : Nat) : Params :=
  let sd := fieldOf raw 319 256
  { temperature := BitVec.ofNat 32 (fieldOf raw 63 32), topP := BitVec.ofNat 32 (fieldOf raw 95 64),
    minP := BitVec.ofNat 32 (fieldOf raw 127 96), presence := BitVec.ofNat 32 (fieldOf raw 159 128),
    frequency := BitVec.ofNat 32 (fieldOf raw 191 160), topK := fieldOf raw 207 192,
    window := fieldOf raw 223 208, seed := BitVec.ofNat 64 (if sd = 0 then reqKey else sd) }

/-- Step 2 of R230 for one token with its count. -/
def penalise (p : Params) (z : F32) (c : Nat) : F32 :=
  fsub (fsub z (if c = 0 then 0 else p.presence)) (fmul p.frequency (fofInt c))

/-- Steps 2 to 8 of R230 over the candidates left by step 1: `cnt` counts a token in the penalty window. -/
def choose (p : Params) (q : Nat) (cnt : Nat → Nat) (cands : List (Nat × F32)) : Nat :=
  let z1 := cands.map (fun x => (x.1, penalise p x.2 (cnt x.1)))
  if fval p.temperature = 0 then
    match sortDesc z1 with
    | x :: _ => x.1
    | [] => 0
  else
    let z2 := sortDesc (z1.map (fun x => (x.1, fdiv x.2 p.temperature)))
    let kept := z2.take (if p.topK = 0 then 1024 else p.topK)
    match kept with
    | [] => 0
    | top :: _ =>
      let es := kept.map (fun x => (x.1, settled32 (Config.expF (fsub x.2 top.2))))
      let den := es.foldl (fun a x => fadd a x.2) 0
      let ps := sortDesc (es.map (fun x => (x.1, fdiv x.2 den)))
      let run := topP p.topP 0 ps
      let pmax := match run with | x :: _ => x.2 | [] => 0
      let surv := run.filter (fun x => !flt x.2 (fmul p.minP pmax))
      let ws := (surv.map (fun x => (x.1, (roundAway (fval x.2 * pow2 24)).toNat))).filter (fun x => x.2 != 0)
      let w := ws.foldl (fun a x => a + x.2) 0
      pick (draw p.seed q * w / 2 ^ 32) 0 ws

/-! ## Automata (R234, R235) -/

/-- Ranges of a state: (lo, hi, next). -/
def rangesOf (a : Automaton) (st : Nat) : List (Nat × Nat × Nat) :=
  match a.states[st]? with
  | none => []
  | some e => ((a.ranges.drop (fieldOf e 31 0)).take (fieldOf e 47 32)).map
      (fun r => (fieldOf r 29 0, fieldOf r 61 32, fieldOf r 95 64))

/-- A token is allowed in a state: inside a range, the end-of-sequence token exactly when accept is 1 (R235). -/
def autoAllows (a : Automaton) (eos : Option Nat) (st tok : Nat) : Bool :=
  if eos = some tok then (a.states[st]?.map (fun e => bitOf e 48)).getD false
  else (rangesOf a st).any (fun r => decide (r.1 ≤ tok) && decide (tok ≤ r.2.1))

/-- The state after a committed token (R235). -/
def autoStep (a : Automaton) (eos : Option Nat) (st tok : Nat) : Nat :=
  if eos = some tok then st
  else match (rangesOf a st).find? (fun r => decide (r.1 ≤ tok) && decide (tok ≤ r.2.1)) with
    | some r => r.2.2
    | none => st

/-- Ranges ascend and do not overlap. -/
def rangesAscend : List (Nat × Nat × Nat) → Bool
  | a :: b :: r => decide (a.2.1 < b.1) && rangesAscend (b :: r)
  | _ => true

/-- A valid table for a vocabulary and a request that uses an eos_token or not (R234, R235). -/
def autoOk (a : Automaton) (len vocab : Nat) (eosUsed : Bool) : Bool :=
  let n := fieldOf a.hdr 159 128
  fieldOf a.hdr 15 0 == 0x4641 && fieldOf a.hdr 31 16 == 1 && zeroAt a.hdr 63 32 && zeroAt a.hdr 255 192 &&
    decide (1 ≤ n) && a.states.length == n && a.ranges.length == fieldOf a.hdr 191 160 &&
    fieldOf a.hdr 95 64 == 32 + 8 * n + 16 * a.ranges.length && fieldOf a.hdr 95 64 == len &&
    decide (len ≤ 4194304) && decide (fieldOf a.hdr 127 96 < n) &&
    a.states.all (fun e => zeroAt e 63 49 && decide (fieldOf e 47 32 ≤ 1024) &&
      decide (fieldOf e 31 0 + fieldOf e 47 32 ≤ a.ranges.length) && (fieldOf e 47 32 != 0 || (bitOf e 48 && eosUsed))) &&
    (List.range n).all (fun i => rangesAscend (rangesOf a i)) &&
    a.ranges.all (fun r => zeroAt r 127 96 && zeroAt r 63 62 && zeroAt r 31 30 &&
      decide (fieldOf r 29 0 ≤ fieldOf r 61 32) && decide (fieldOf r 61 32 < vocab) && decide (fieldOf r 95 64 < n))

/-! ## The speculation tree (R229, R236) -/

/-- Node i of the template, from 1: (parent, rank, reserved). -/
def treeNode (raw : BitVec 1536) (i : Nat) : Nat × Nat × Nat :=
  let w := fieldOf raw (767 + 16 * i) (752 + 16 * i)
  (w % 64, w / 64 % 8, w / 512)

/-- Depth of a node with parents below it, within fuel. -/
def treeDepth (raw : BitVec 1536) : Nat → Nat → Nat
  | 0, _ => 0
  | f + 1, i => if i = 0 then 0 else 1 + treeDepth raw f (treeNode raw i).1

/-- The template is valid for extra_heads and vocab (R236). -/
def treeOk (raw : BitVec 1536) (nodes extra vocab : Nat) : Bool :=
  (List.range nodes).all (fun k =>
    let i := k + 1
    let (p, r, z) := treeNode raw i
    z == 0 && decide (p < i) && decide (treeDepth raw 33 i ≤ extra) && decide (r < vocab) &&
      (List.range k).all (fun j => !((treeNode raw (j + 1)).1 == p && (treeNode raw (j + 1)).2.1 == r)))

/-! ## Retrieval distances (R285, R286) -/

/-- Exact inner product of integers (R97). -/
def dotInt (a b : List Int) : Int := (List.zipWith (· * ·) a b).foldl (· + ·) 0

/-- Exact squared distance of integers. -/
def l2Int (a b : List Int) : Int := (List.zipWith (fun x y => (x - y) * (x - y)) a b).foldl (· + ·) 0

/-- Sign-extended int8. -/
def int8 (x : BitVec 16) : Int := ((BitVec.ofNat 8 x.toNat).toInt)

/-- FP32 norm of scaled integers (R283, R285). -/
def normInt (scale : F32) (xs : List Int) : F32 := fsqrt (fl (fval scale * fval scale * (dotInt xs xs : Rat)))

/-- Compensated FP32 sum of rationals rounded once: within the bound of R286. -/
def compSum (xs : List Rat) : F32 := fl (xs.foldl (· + ·) 0)

end Sys2Proof.Machine
end

