-- ==== Sys2Proof/Machine/Identity.lean ====
section
/-! DEFINITION. Identity: the boot directory (R393), the DICE derivation (R435), the certificate chain (R436),
signing, and the key messages and keys of links (R440, R441). The functions of the algorithms R25 names are constants
of Config. -/

namespace Sys2Proof.Machine

/-! ## The boot directory (R393) -/

/-- A copy as its 64 bytes lay it out, with its crc. -/
def dirBits (d : BootDir) : BitVec 512 :=
  let v := 0x4452 + d.ldrSlot % 2 * 2 ^ 16 + d.fwSlot % 2 * 2 ^ 17 + d.trial % 4 * 2 ^ 18 +
    (if d.started then 2 ^ 20 else 0) + d.seq % 2 ^ 64 * 2 ^ 32
  BitVec.ofNat 512 (v + crcOf 64 v * 2 ^ 96)

/-- What a copy says, if it is valid: magic, crc, and a trial field of 0 to 2. -/
def readDir (c : BitVec 512) : Option BootDir :=
  if fieldOf c 15 0 = 0x4452 ∧ fieldOf c 19 18 ≠ 3 ∧
      fieldOf c 127 96 = crcOf 64 (c.toNat - fieldOf c 127 96 * 2 ^ 96) then
    some { seq := fieldOf c 95 32, trial := fieldOf c 19 18, started := bitOf c 20, fwSlot := fieldOf c 17 17,
           ldrSlot := fieldOf c 16 16 }
  else none

/-- Copy 1 is the one in use: it alone is valid, or its seq is the higher. -/
def usesCopy1 (s : State) : Bool :=
  match readDir s.fw.dir0, readDir s.fw.dir1 with
  | some a, some b => decide (a.seq < b.seq)
  | none, some _ => true
  | _, none => false

/-- The copy in use; slot A for both stages with no trial where neither is valid. -/
def bootDir (s : State) : BootDir := (readDir (if usesCopy1 s then s.fw.dir1 else s.fw.dir0)).getD {}

/-! ## DICE layers (R434, R435): numbers enter a derivation in little-endian bytes (log entry 138) -/

/-- A 256-bit value as bytes. -/
def bytes32 (v : BitVec 256) : List Byte := leBytes 32 v.toNat

/-- SHA3-256 of the root public key, held by the mask ROM (R432). -/
def rootKeyHash : BitVec 256 := Config.sha3 Config.rootKey

/-- A key of the first layer, derived from UDS by its customisation string (R435). -/
def fromUds (custom : String) : BitVec 256 := Config.kmac256 (bytes32 Config.uds) [] 256 custom

/-- The seed of the DeviceID key pair (R435). -/
def deviceSeed : BitVec 256 := fromUds "EXBOR-DEVICEID"

/-- pairing_key (R434, R435). -/
def pairingKey : BitVec 256 := fromUds "EXBOR-PAIRING"

/-- srk, the key that wraps flash keys (R435, R444). -/
def storageKey : BitVec 256 := fromUds "EXBOR-STORAGE"

/-- The DeviceID public key hash of `SC_IDENTITY` and of the pairing record (R433, R434). -/
def deviceHash : BitVec 256 := Config.sha3 (Config.mldsaPublic deviceSeed)

/-- An image's security version (R394). -/
def imageSvn (i : Image) : Nat := fieldOf i.hdr 95 64

/-- An image's measurement: the SHA3-256 of its 64-byte fixed header (R435). -/
def imageDigest (i : Image) : BitVec 256 := Config.sha3 (leBytes 64 i.hdr.toNat)

/-- m ‖ svn of an image (R435). -/
def measuredImage (i : Image) : List Byte := bytes32 (imageDigest i) ++ leBytes 4 (imageSvn i)

/-- The compound device identifier of the next stage (R435). -/
def nextCdi (cdi : BitVec 256) (i : Image) : BitVec 256 := Config.kmac256 (bytes32 cdi) (measuredImage i) 256 "EXBOR-CDI"

/-- The seed of a stage's alias key pair (R435). -/
def aliasSeed (cdi : BitVec 256) : BitVec 256 := Config.kmac256 (bytes32 cdi) [] 256 "EXBOR-ALIAS"

/-- The loader's identifier: derived by the boot ROM from the loader that runs (R435). -/
def cdiLdr (s : State) : BitVec 256 := nextCdi Config.uds (s.fw.ldrRun.getD default)

/-- The firmware's identifier: derived by the loader from the firmware that runs (R435). -/
def cdiFw (s : State) : BitVec 256 := nextCdi (cdiLdr s) (s.fw.fwRun.getD default)

/-- The loader alias seed (R435). -/
def ldrAlias (s : State) : BitVec 256 := aliasSeed (cdiLdr s)

/-- The firmware alias seed (R435). -/
def fwAlias (s : State) : BitVec 256 := aliasSeed (cdiFw s)

/-! ## Certificates and signing (R436) -/

/-- A certificate: its signed part and the issuer's ML-DSA-65 signature over it. -/
def certificate (sign : List Byte → List Byte) (position : Nat) (subject : List Byte) (carries : List Nat) : List Byte :=
  let x := Config.certBody position subject carries
  let body := x.1 :: x.2
  body ++ sign body

/-- What an image's certificate carries beside its slot: m and svn. -/
def tcbInfo (i : Image) : List Nat := [(imageDigest i).toNat, imageSvn i]

/-- The stock code of this module, by its PCI device_id (R2, R494; log entry 138). -/
def stockCode (s : State) : Nat := if s.stock = .mx then 0x6400 else 0x6401

/-- The chain's certificates in order: Unairvo root, DeviceID, loader alias, firmware alias (R436). -/
def certChain (s : State) : List (List Byte) :=
  let d := bootDir s
  let ldr := s.fw.ldrRun.getD default
  let fw := s.fw.fwRun.getD default
  [certificate Config.rootSignature 0 Config.rootKey [],
   certificate Config.rootSignature 1 (Config.mldsaPublic deviceSeed) [Config.serial.toNat, stockCode s],
   certificate (Config.mldsaSign deviceSeed) 2 (Config.mldsaPublic (ldrAlias s)) (tcbInfo ldr ++ [d.ldrSlot]),
   certificate (Config.mldsaSign (ldrAlias s)) 3 (Config.mldsaPublic (fwAlias s)) (tcbInfo fw ++ [d.fwSlot, d.trial])]

/-- Slot 0's chain as bytes (R436, R437). -/
def chainBytes (s : State) : List Byte := (certChain s).flatten

/-- A message signed by the firmware alias key: the signature alone (R436). -/
def fwSignature (s : State) (msg : List Byte) : List Byte := Config.mldsaSign (fwAlias s) msg

/-! ## Key messages of links (R440, R441) -/

/-- A key message: its 32-byte header, then its body (R440). -/
def keyMessage (s : State) (l kind certLen : Nat) (body : List Byte) : List Byte :=
  let x := linkOf s l
  let hdr := 0x4B58 + 1 * 2 ^ 16 + x.exchange % 2 ^ 64 * 2 ^ 64 + certLen * 2 ^ 160 + kind * 2 ^ 192 + l * 2 ^ 200 +
    s.fab.self.toNat * 2 ^ 208 + (32 + body.length) * 2 ^ 224
  leBytes 32 hdr ++ body

/-- This end's HELLO body: nonce, fresh encapsulation key, certificates 1 to 3 (R440). -/
def helloBody (s : State) : List Byte :=
  Config.drbg s.fresh 32 ++ Config.mlkemKey s.fresh ++ ((certChain s).drop 1).flatten

/-- A received key message's body has its kind's layout (R440): HELLO carries cert_len bytes of chain. -/
def keyBodyOk (m : KeyMsg) : Bool :=
  let kind := fieldOf m.hdr 199 192
  fieldOf m.hdr 255 224 == 32 + m.body.length &&
    (if kind = 0 then m.body.length == 1216 + fieldOf m.hdr 191 160
     else if kind = 1 then m.body.length == 1088 + 3309
     else m.body.length == 0)

/-- This end of link l is lo: its (rack, module, link) is the lower (R440). -/
def isLo (s : State) (l : Nat) : Bool :=
  match (linkOf s l).ident with
  | some i => decide (s.fab.self.toNat < i.peer.toNat ∨ (s.fab.self = i.peer ∧ l < i.link))
  | none => true

/-- hello_lo ‖ hello_hi (R440). -/
def helloPair (s : State) (l : Nat) : List Byte :=
  let x := linkOf s l
  if isLo s l then x.hello ++ x.peerHello else x.peerHello ++ x.hello

/-- th_k of the sender of a ciphertext (R440). -/
def kemTranscript (s : State) (l : Nat) (ct : List Byte) : BitVec 256 := Config.sha3 (helloPair s l ++ ct)

/-- s, derived from both ends' secrets: this end's in its own ciphertext, the peer's by decapsulation (R441). -/
def linkSecret (s : State) (l : Nat) (peerCt : List Byte) : BitVec 256 :=
  let x := linkOf s l
  let peerShare := bytes32 (Config.mlkemDecaps x.kemKey peerCt)
  let own := bytes32 x.kemShare
  let th := Config.sha3 (helloPair s l ++ if isLo s l then x.kemText ++ peerCt else peerCt ++ x.kemText)
  Config.kmac256 (if isLo s l then own ++ peerShare else peerShare ++ own) (bytes32 th) 256 "TLK-SECRET"

/-- k(d, i): the key and salt of the direction that module `src` sends on its link (R441). -/
def linkKey (secret : BitVec 256) (src : ModuleId) (link i : Nat) : BitVec 288 :=
  Config.kmac256 (bytes32 secret) (leBytes 2 src.toNat ++ leBytes 1 link ++ leBytes 8 i) 288 "TLK-KEY"

end Sys2Proof.Machine
end

