-- ==== Sys2Proof/Machine/Pages.lean ====
section
/-! DEFINITION. Room in the tiers, page tables, references, replicas, floors and the moves they start (R56, R154 to
R172, R252 to R263). -/

namespace Sys2Proof.Machine

/-! ## Slices and room (R56, R59) -/

/-- Set bits of a field. -/
def popField {w : Nat} (raw : BitVec w) (hi lo : Nat) : Nat := (setBits (fieldOf raw hi lo) (hi + 1 - lo)).length

def recGroups (r : BitVec 1024) : Nat := popField r 127 64
def recEngines (r : BitVec 1024) : Nat := popField r 191 128
def recHbm (r : BitVec 1024) : Nat := popField r 575 192
def recLpddr (r : BitVec 1024) : Nat := popField r 595 576
def recFlash (r : BitVec 1024) : Nat := popField r 623 608
def recLinks (r : BitVec 1024) : Nat := popField r 735 640

/-- A tier's order from the top (R17). -/
def tierRank : Tier → Nat
  | .face => 0 | .hbm => 1 | .lpddr => 2 | .flash => 3 | .remote => 4

/-- Slices of a tier a bench holds, cell groups for the face, less the retired ones (R278) and those that have not yet
left another bench (R63). -/
def ownSlices (s : State) (b : Nat) (t : Tier) : List Nat :=
  let r := (bench s b).record
  let own (lo n : Nat) : List Nat :=
    (setBits (fieldOf r (lo + n - 1) lo) n).filter (fun i => !s.tier.channels.contains (t, i) &&
      !s.tier.leaving.any (fun x => x.1 != b && x.2.1 == t && x.2.2.1 == i))
  match t with
  | .face => setBits (fieldOf r 127 64) 64
  | .hbm => own 192 384
  | .lpddr => own 576 20
  | .flash => own 608 16
  | .remote => []

def tierSlices (s : State) (b : Nat) (t : Tier) : Nat := (ownSlices s b t).length

/-- The slice a retired frame's unit lies in: of the face, the group of its cell (R409). -/
def frameSlice (t : Tier) (unit : Nat) : Nat := if t = .face then unit / 64 else unit

/-- Bytes of the retired frames in a bench's own slices of a tier (R277). -/
def lostBytes (s : State) (b : Nat) (t : Tier) : Nat :=
  let own := ownSlices s b t
  65536 * (s.tier.frames.filter (fun f => f.1 == t && own.contains (frameSlice t f.2.1))).length

/-- Bytes of a bench's export regions in a tier, which hold no pages (R323). -/
def exportBytes (s : State) (b : Nat) (t : Tier) : Nat :=
  let code := match t with | .hbm => 1 | .lpddr => 2 | _ => 0
  s.fab.maps.exports.foldl (fun a r =>
    if code ≠ 0 ∧ fieldOf r.2 195 192 = b ∧ fieldOf r.2 199 196 = code then a + fieldOf r.2 191 128 else a) 0

/-- Bytes of a tier a bench may fill with pages: its slices less weights and backup (R56, R75, R79), retired frames
(R277) and export regions (R323). -/
def tierRoom (s : State) (b : Nat) (t : Tier) : Nat :=
  let w (hi lo : Nat) : Nat := ((bench s b).pkg.map (fun p => fieldOf p.manifest hi lo)).getD 0
  let lost := lostBytes s b t
  match t with
  | .face => tierSlices s b t * 2 ^ 30 - w 639 576 - lost
  | .hbm => tierSlices s b t * (3 * 2 ^ 30) - lost - exportBytes s b t
  | .lpddr => tierSlices s b t * (96 * 2 ^ 30) - w 703 640 - lost - exportBytes s b t
  | .flash => tierSlices s b t * (5 * 2 ^ 40)
  | .remote => 0

/-- Bytes of a page's two slots (R154). -/
def pageBytes (e : Entry) : Nat := 2 * classBytes e.cls

/-- The budget a tier's bytes count on: a read of another face slice counts on HBM (R66). -/
def budgetNo : Tier → Option Nat
  | .face => none | .hbm => some 0 | .lpddr => some 1 | .flash => some 2 | .remote => none

/-- A page's blocks read or written for a bench (R66). -/
def chargePage (s : State) (b : Nat) (e : Entry) : State :=
  match budgetNo e.tier with
  | some k => charge s b k (pageBytes e)
  | none => s

def chargePages (s : State) (b : Nat) (es : List Entry) : State := es.foldl (fun s e => chargePage s b e) s

/-- Budget k of bench b in bytes: 0 HBM, 1 LPDDR, 2 flash, 3 link (R59, R65, R311). -/
def budgetBytes (s : State) (b k : Nat) : Nat :=
  65536 * (if k = 3 then (bench s b).linkEff else fieldOf (bench s b).record (799 + 32 * k) (768 + 32 * k))

/-- The migration share of budget k of bench b in bytes a tick (R67). -/
def shareBytes (s : State) (b k : Nat) : Nat :=
  fieldOf (bench s b).record 905 896 * (budgetBytes s b k / 65536) / 1000 * 65536

/-- Bytes of the migration share taken in the tick. -/
def shareSpent (s : State) (b k : Nat) : Nat := (tget s.spent (64 + 4 * b + k)).getD 0

def shareLeft (s : State) (b k : Nat) : Nat := shareBytes s b k - shareSpent s b k

/-- n bytes taken of the migration share and counted on the budget (R66, R67). -/
def chargeShare (s : State) (b k n : Nat) : State :=
  { charge s b k n with spent := tput (charge s b k n).spent (64 + 4 * b + k) (shareSpent s b k + n) }

/-- The page lies on this module. -/
def isLocal (s : State) (e : Entry) : Bool :=
  e.tier != .remote && (e.state != .replica || e.holder == s.fab.self)

/-- Bytes of distinct pages of a list: a page that several tables share counts once (R167). -/
def distinctBytes : List Entry → List Entry → Nat
  | [], _ => 0
  | e :: l, seen => if seen.any (sameDatum e) then distinctBytes l seen else pageBytes e + distinctBytes l (e :: seen)

/-- Bench b's pages in a tier, from every table, replicas held here included. -/
def tierPages (s : State) (b : Nat) (t : Tier) : List Entry :=
  s.work.convs.flatMap (fun c => c.2.entries.filter (fun e => e.tier == t && e.bench == b && isLocal s e))

/-- Slot bytes of a record block: S1K for TOKEN, S16K for LSE (R174). -/
def recSlot (r : RecBlock) : Nat := if r.isToken then 1024 else 16384

/-- Slot bytes of a pending area (R165). -/
def pendBytes (c : Conv) : Nat :=
  match c.pend with
  | some p => c.layers * c.kvHeads * 2 * classBytes p.cls
  | none => 0

/-- Record blocks and pending areas of bench b's conversations in a tier (R165, R174). -/
def sideBytes (s : State) (b : Nat) (t : Tier) : Nat :=
  s.work.convs.foldl (fun a c =>
    if c.2.bench = b then
      a + ((c.2.recs.filter (fun r => r.tier == t)).map recSlot).sum +
        (match c.2.pend with | some p => if p.tier = t then pendBytes c.2 else 0 | none => 0)
    else a) 0

/-- Element width of a shard in bits (R282, R283). -/
def elemBits (h : BitVec 512) : Nat :=
  match fieldOf h 239 236 with
  | 1 => 16
  | 2 => 4
  | _ => 8

def strideNode (h : BitVec 512) : Nat := 32 + 4 * fieldOf h 271 264 + 32 * ceilDiv (fieldOf h 255 240 * elemBits h) 256
def strideSpoil (h : BitVec 512) : Nat := 32 + 32 * ceilDiv (fieldOf h 255 240 * elemBits h) 256

/-- Bytes of a shard's graph and spoil list. -/
def shardBytes (x : Shard) : Nat := x.graph.length * strideNode x.hdr + x.spoil.length * strideSpoil x.hdr

/-- The tier a shard of bench b lies in: LPDDR, HBM where the bench has no LPDDR channel, flash once archived (R281).
-/
def shardTier (s : State) (b : Nat) (archived : Bool) : Tier :=
  if archived then .flash else if 0 < tierSlices s b .lpddr then .lpddr else .hbm

/-- Shards of bench b in a tier (R17, R281). -/
def shardsIn (s : State) (b : Nat) (t : Tier) : Nat :=
  s.shards.foldl (fun a x => if x.2.bench = b ∧ shardTier s b x.2.archived = t then a + shardBytes x.2 else a) 0

/-- Extents of bench b on flash (R156). -/
def extentBytes (s : State) (b : Nat) : Nat :=
  s.tier.extents.foldl (fun a x => if x.2.1 = b then a + 1024 * x.2.2 else a) 0

/-- Bytes of a tier that bench b fills: pages, record blocks, pending areas and shards; on flash, extents. -/
def tierUsed (s : State) (b : Nat) (t : Tier) : Nat :=
  (if t = .flash then extentBytes s b else distinctBytes (tierPages s b t) []) + sideBytes s b t + shardsIn s b t

/-- A segment's bytes: header and entries, padded to 32 (R216). -/
def segBytes (g : Segment) : Nat :=
  let n := match g.kind with
    | .tokens => 4 * g.toks.length
    | .params => 192 + (match g.record.bind (·.auto) with | some a => fieldOf a.hdr 95 64 | none => 0)
    | .request => 64
    | .fin => 16
  32 * ceilDiv (48 + n) 32

/-- Bytes a keeper holds for one conversation: segments, replicas, checkpoint (R217, R218, R220). -/
def keptBytes (x : KeeperLog) : Nat :=
  (x.segs.map segBytes).sum + (x.replicas.map pageBytes).sum +
    (match x.ckpt with | some (_, _, c) => (c.entries.map pageBytes).sum | none => 0)

/-- Bytes of bench b whose tier placement does not fix: what hauls in reserve (R213), what its keeper holds (R218),
its copies of automaton tables (R235; log entry 141), and the calibration and costs of a CACHE bench (R72). -/
def heldBytes (s : State) (b : Nat) : Nat :=
  ((s.haul.inn.filter (fun h => h.2.bench == b)).map (·.2.bytes)).sum +
    ((s.haul.keeper.filter (fun k => k.2.bench == b)).map (fun k => keptBytes k.2)).sum +
    ((bench s b).autos.map (fun a => fieldOf a.2.hdr 95 64)).sum +
    (if role s b = 2 then ((bench s b).pkg.map (fun p =>
      ((p.dir.filter (fun d => fieldOf d 15 0 == 4 || fieldOf d 15 0 == 5)).map (fun d => fieldOf d 191 128)).sum)).getD 0
     else 0)

/-- The tiers of a bench, from the top. -/
def tierList : List Tier := [.face, .hbm, .lpddr, .flash]

/-- User capacity in GiB (R271): the excess of retired blocks over 5 TiB leaves it. -/
def userGib (s : State) : Nat := 81920 - (s.tier.badBlocks * 32 - 5 * 1024 * 1024 + 1023) / 1024

/-- Bytes held on flash: every bench's extents and archived shards (R156, R281). -/
def flashBytes (s : State) : Nat := ((List.range 16).map (fun b => tierUsed s b .flash)).sum

/-- Writes to flash wait: under a hold, or while the data held exceeds user_gib (R268, R271). -/
def flashWaits (s : State) : Bool := s.tier.hold || decide (userGib s * 2 ^ 30 < flashBytes s)

/-- Bytes bench b holds in all its tiers. -/
def usedBytes (s : State) (b : Nat) : Nat := (tierList.map (tierUsed s b)).sum + heldBytes s b

/-- Tiers that take new bytes: flash not while its writes wait (R268). -/
def openTiers (s : State) : List Tier := if flashWaits s then [.face, .hbm, .lpddr] else tierList

/-- Room of the open tiers of a bench together covers n more bytes: pressure demotes what the floors allow (R262,
R268). -/
def hasSpace (s : State) (b n : Nat) : Bool :=
  let ts := openTiers s
  decide ((ts.map (tierUsed s b)).sum + heldBytes s b + n ≤ (ts.map (tierRoom s b)).sum)

/-- A tier of bench b has room for n more bytes. -/
def fits (s : State) (b : Nat) (t : Tier) (n : Nat) : Bool := decide (tierUsed s b t + n ≤ tierRoom s b t)

/-- Where placement puts a page no cell computes: HBM, then LPDDR, face and flash while it takes writes, as room allows
(R142, R268; log entry 8).
Where admission left room in the bench and none of its tiers alone has it, LPDDR, or HBM on a bench without LPDDR. -/
def placeTier (s : State) (b n : Nat) : Tier :=
  match [Tier.hbm, .lpddr, .face, .flash].find? (fun t => (openTiers s).contains t && fits s b t n) with
  | some t => t
  | none => if 0 < tierSlices s b .lpddr then .lpddr else .hbm

/-- Room of one cell's 16 MiB face slice beside the weights of its bench, which lie evenly over the slices (log entry
8). -/
def sliceRoom (s : State) (b : Nat) : Nat :=
  2 ^ 24 - ceilDiv (((bench s b).pkg.map (fun p => fieldOf p.manifest 639 576)).getD 0) (max 1 (64 * recGroups (bench s b).record))

/-- Bytes a move carries. -/
def moveBytes (s : State) (m : Move) : Nat := ((findPage s m.page).map pageBytes).getD 0

/-- Bytes that moves bring to a cell's slice (R256 step 1, R263). -/
def bytesComing (s : State) (cell : Nat) : Nat :=
  (((s.tier.moves.map (·.2) ++ s.tier.ready).filter (fun m => m.dst == .face && m.cell == some cell)).map (moveBytes s)).sum

/-- Bytes of pages in a cell's slice, with those on their way (R142). -/
def sliceUsed (s : State) (b cell : Nat) : Nat :=
  distinctBytes ((tierPages s b .face).filter (fun e => e.cell == some cell)) [] + bytesComing s cell

/-- A page that cell computes opens in the cell's slice, if that has room (R142). -/
def sliceFits (s : State) (b cell n : Nat) : Bool := decide (sliceUsed s b cell + n ≤ sliceRoom s b) && fits s b .face n

/-! ## Shape and calibration of a bench's model (R75, R125) -/

def manOf (s : State) (b : Nat) : BitVec 1024 := ((bench s b).pkg.map (·.manifest)).getD 0
def manLayers (m : BitVec 1024) : Nat := fieldOf m 463 448
def manQ (m : BitVec 1024) : Nat := fieldOf m 479 464
def manKv (m : BitVec 1024) : Nat := fieldOf m 495 480
def manDim (m : BitVec 1024) : Nat := fieldOf m 511 496
def manVocab (m : BitVec 1024) : Nat := fieldOf m 543 512
def manExtra (m : BitVec 1024) : Nat := fieldOf m 551 544

/-! ## Conversations -/

/-- A conversation has a SUSPENDED request: its key (R198). -/
def suspendedOf (s : State) (c : Nat) : Option Nat :=
  (s.work.reqs.find? (fun r => r.2.conv == c && r.2.state == .suspended)).map (·.1)

/-- Holders that a table names REMOTE. -/
def remoteHolders (c : Conv) : List ModuleId :=
  ((c.entries.filter (fun e => e.tier == .remote && e.state != .replica)).map (·.holder)).eraseDups

/-- A number into an ascending list, once. -/
def insNat (n : Nat) : List Nat → List Nat
  | [] => [n]
  | x :: l => if n < x then n :: x :: l else if n = x then x :: l else x :: insNat n l

/-- Groups with at least one entry (R160), ascending. -/
def groupsOf (c : Conv) : List Nat := c.entries.foldl (fun l e => insNat e.group l) []

/-- Headers in the directory, those kept on flash and those accepted hauls will bring included (R159, R272). -/
def headerCount (s : State) : Nat :=
  s.work.convs.length + (s.tier.parked.filter (fun c => (conv s c.1).isNone)).length +
    (s.haul.inn.filter (fun h => (conv s h.2.conv).isNone && (tget s.tier.parked h.2.conv).isNone)).length

/-- The sequence directory has room for a header (R159). -/
def headerRoom (s : State) : Bool := decide (headerCount s < 1048576)

/-- It has one of conversation k, or room for it. -/
def headerFor (s : State) (k : Nat) : Bool := (conv s k).isSome || headerRoom s

/-- The lowest tier a conversation's pages may occupy (R260). -/
def floorOf (s : State) (c : Conv) : Tier :=
  match c.state with
  | .active => if c.home || decide (0 < tierSlices s c.bench .hbm) then .hbm else .lpddr
  | .idle => .lpddr
  | .parked => if hasFlash s && decide (0 < tierSlices s c.bench .flash) then .flash else .lpddr

/-- Two references name one page of this module (R167). -/
def samePage (s : State) (p q : PageRef) : Bool :=
  p == q || (match findPage s p, findPage s q with
    | some a, some b => isOwn a && isOwn b && sameDatum a b
    | _, _ => false)

/-- A move is one the page may take now: one per page at a time, none while the conversation is frozen (R280). -/
def movable (s : State) (p : PageRef) : Bool :=
  !(s.tier.moves.any (fun m => samePage s m.2.page p)) && !(s.tier.ready.any (fun m => samePage s m.page p)) &&
    (match conv s p.conv with | some c => c.frozen.isNone | none => false)

/-- The page is still written: OPEN or SEALING (R255). -/
def isWritable (e : Entry) : Bool :=
  match e.state with
  | .opened => true
  | .sealing => true
  | _ => false

/-- A move made ready at a commit (R259), to the face with the cell whose slice takes the page (R263). -/
def makeReady (s : State) (p : PageRef) (dst : Tier) (cause : Stamp) (cell : Option Nat := none) : State :=
  match findPage s p, conv s p.conv with
  | some e, some _ =>
    if movable s p && e.tier != dst && e.tier != .remote then
      { s with tier := { s.tier with ready := s.tier.ready ++
        [{ page := p, src := e.tier, dst := dst, cell := cell, writable := isWritable e, bench := e.bench, cause := cause }] } }
    else s
  | _, _ => s

/-- Promotions of every local page below the conversation's floor, and demotions of them not yet in effect discarded
(R260, R261). -/
def promoteToFloor (s : State) (k : Nat) (cause : Stamp) : State :=
  match conv s k with
  | none => s
  | some c =>
    let f := floorOf s c
    let low (m : Move) : Bool := m.page.conv == k && decide (tierRank f < tierRank m.dst)
    let s1 := { s with tier := { s.tier with
      moves := s.tier.moves.filter (fun m => !low m.2), ready := s.tier.ready.filter (fun m => !low m) } }
    (c.entries.filter (fun e => e.state != .replica && e.tier != .remote && decide (tierRank f < tierRank e.tier))).foldl
      (fun s e => makeReady s (entryPage e k) f cause) s1

/-- A conversation's state changes: every REMOTE holder is told (R261), and pages below the new floor start to move.
-/
def setConvState (s : State) (k : Nat) (st : ConvState) : State :=
  match conv s k with
  | none => s
  | some c =>
    if c.state = st then s
    else
      let s1 := putConv s { c with state := st }
      let s2 := (remoteHolders c).foldl (fun s h => send s h (some c.bench) (.stateNotice k st)) s1
      promoteToFloor s2 k s.time.now

/-! ## References (R168) and replicas (R170 to R172) -/

/-- The reference count of a page on this module changed in every table here that names it. -/
def addRefs (s : State) (e : Entry) (f : Nat → Nat) : State :=
  { s with work := { s.work with convs := s.work.convs.map (fun c =>
    (c.1, { c.2 with entries := c.2.entries.map (fun x =>
      if isOwn x && sameDatum x e then { x with refs := f x.refs } else x) })) } }

/-- The shared bit of an entry (R161, R168): its count exceeds 1; for a page elsewhere, what its table brought, or
that another table here names it (log entry 123). -/
def sharedBit (s : State) (e : Entry) : Bool :=
  if isOwn e then decide (1 < e.refs)
  else e.shared || decide (1 < (s.work.convs.filter (fun c => c.2.home && c.2.entries.any (fun x =>
    x.tier == .remote && x.state != .replica && x.holder == e.holder && sameDatum x e))).length)

/-- Replica holders of a page, told that it is freed (R172). -/
def freeReplicas (s : State) (c : Conv) (e : Entry) : State :=
  (c.entries.filter (fun r => r.state == .replica && entryIs r (entryPage e c.key))).foldl
    (fun s r => send s r.holder (some c.bench) (.primaryFree (entryPage e c.key))) s

/-- A page rejected in the running tick, to be read again at its commit (R120). -/
def rejectedNow (s : State) (p : PageRef) : Bool :=
  s.tier.reread.any (fun r => samePage s r.1 p && decide (r.2.1 ≤ s.time.now.tick))

/-- Fits of pages that satisfy `p` leave the queues; each that had completed is counted as discarded (R129). -/
def discardFits (s : State) (p : FitItem → Bool) : State :=
  s.benches.foldl (fun s b =>
    let n := (b.2.fits.filter (fun f => p f && f.done.isSome)).length
    let s1 := { s with benches := tmod s.benches b.1 (fun b => { b with fits := b.fits.filter (fun f => !p f) }) }
    if n = 0 then s1 else count s1 (bn b.1 0x458) n) s

/-- Moves, fits and re-reads of a page forgotten (R129, R280). -/
def forgetPage (s : State) (p : PageRef) : State :=
  discardFits { s with tier := { s.tier with
    moves := s.tier.moves.filter (fun m => m.2.page != p), ready := s.tier.ready.filter (fun m => m.page != p),
    reread := s.tier.reread.filter (fun r => r.1 != p) } } (fun f => f.page == p)

/-- What goes on for a page goes on under the name another table gives it. -/
def renamePage (s : State) (p q : PageRef) : State :=
  let f (x : PageRef) : PageRef := if x = p then q else x
  { s with tier := { s.tier with
    moves := s.tier.moves.map (fun m => (m.1, { m.2 with page := f m.2.page }))
    ready := s.tier.ready.map (fun m => { m with page := f m.page })
    reread := s.tier.reread.map (fun r => (f r.1, r.2)) } }

/-- Another table of this module that names the page. -/
def sharerOf (s : State) (c : Conv) (e : Entry) : Option PageRef :=
  (s.work.convs.find? (fun x => x.1 != c.key && x.2.entries.any (fun y => isOwn y && sameDatum y e))).map
    (fun x => entryPage e x.1)

/-- A table gives up one page: a reference dropped here, or by a message to the holder (R168). Replicas are kept under
the key of their table, and go with it (R172). -/
def dropPage (s : State) (c : Conv) (e : Entry) : State :=
  let p := entryPage e c.key
  if e.state = .replica then s
  else if e.tier = .remote then send s e.holder (some c.bench) (.refcount p c.key false)
  else if e.refs ≤ 1 then freeReplicas (forgetPage s p) c e
  else
    let s1 := match sharerOf s c e with
      | some q => renamePage s p q
      | none => s
    addRefs (freeReplicas s1 c e) e (· - 1)

/-- A holder's copy of a page is freed when its count reaches 0: the entry leaves every table here (R168, R172). -/
def freePage (s : State) (p : PageRef) : State :=
  match conv s p.conv, findPage s p with
  | some c, some e =>
    let s1 := freeReplicas (forgetPage s p) c e
    modConv s1 p.conv (fun c => { c with entries := c.entries.filter (fun x => !entryIs x p) })
  | _, _ => s

/-- A holder table with no entry left is deleted (R223). -/
def dropEmptyHolder (s : State) (k : Nat) : State :=
  match conv s k with
  | some c => if !c.home && c.entries.isEmpty then delConv s k else s
  | none => s

/-- The pages of groups from g on leave a table: local ones freed, remote ones released by notice (R223). -/
def dropGroups (s : State) (k g : Nat) : State :=
  match conv s k with
  | none => s
  | some c =>
    let gone := c.entries.filter (fun e => decide (g ≤ e.group))
    let holders := ((gone.filter (fun e => e.tier == .remote && e.state != .replica)).map (·.holder)).eraseDups
    let s1 := holders.foldl (fun s h => send s h (some c.bench) (.release k g)) s
    let s2 := (gone.filter (fun e => e.tier != .remote)).foldl (fun s e => dropPage s c e) s1
    modConv s2 k (fun c => { c with
      entries := c.entries.filter (fun e => decide (e.group < g)),
      recs := c.recs.filter (fun r => decide (r.locator < 64 * g)), copied := c.copied.filter (fun x => decide (x < g)) })

/-- The handle of a new page, unlike any other's of this module. -/
def newPageId (s : State) : State × Nat := (s.bump, s.fresh)

/-- The page ID that page tables and messages show for an entry (R161): placement's own for a page of this module
(R80), the holder's otherwise. -/
def shownId (e : Entry) : Nat := if e.tier = .remote then e.pageId % 2 ^ 32 else Config.pageId e.pageId % 2 ^ 32

/-- Extents whose last page has left them are freed whole (R156). -/
def sweepExtents (s : State) : State :=
  let used (i : Nat) : Bool :=
    (s.work.convs ++ s.tier.parked).any (fun c => c.2.entries.any (fun e => e.tier == .flash && isOwn e && e.pageId == i)) ||
      s.tier.moves.any (fun m => (m.2.extent.map (·.1)) == some i)
  { s with tier := { s.tier with extents := s.tier.extents.filter (fun x => used x.1) } }

end Sys2Proof.Machine
end

