-- ==== Sys2Proof/Machine/Lifecycle.lean ====
section
/-! DEFINITION. How requests and conversations begin, park, recover and end, their token log, their tallies and their
automata (R198 to R226, R235, R248 to R251, R526). -/

namespace Sys2Proof.Machine

/-! ## Roles and states (R15, R526) -/

/-- A bench of role r serves a live request in a state (R526). `haulIn` admits input that arrives with its request. -/
def servesState (r : Nat) (st : ReqState) (dest : Bool) : Bool :=
  match r, st with
  | 3, .suspended => true
  | 3, .ended => false
  | 3, _ => true
  | 0, .prefill => dest
  | 0, .rebuilding => dest
  | 0, .hauling => true
  | 0, .held => true
  | 1, .prefill => true
  | 1, .rebuilding => true
  | 1, .generating => true
  | 1, .tallyWait => true
  | 1, .hauling => true
  | 1, .held => true
  | _, .suspended => true
  | _, _ => false

/-- CACHE or MIXED. -/
def isCacheOrMixed (r : Nat) : Bool := r == 2 || r == 3

/-! ## The token log (R216, R217) -/

/-- A segment of a kind for the present commit joins a conversation's log; TOKENS entries of one commit are one
segment. -/
def addSegment (s : State) (k : Nat) (g : Segment) : State :=
  modConv s k (fun c =>
    match g.kind with
    | .tokens =>
      if c.newSegs.any (fun x => x.kind == .tokens && x.req == g.req) then
        { c with newSegs := c.newSegs.map (fun x =>
          if x.kind == .tokens && x.req == g.req then { x with toks := x.toks ++ g.toks } else x) }
      else { c with newSegs := c.newSegs ++ [g] }
    | _ => { c with newSegs := c.newSegs ++ [g] })

/-- Tokens join a conversation's log (R217). -/
def addTokens (s : State) (k r : Nat) (toks : List LogTok) : State :=
  match conv s k with
  | none => s
  | some c =>
    addSegment (putConv s { c with log := c.log ++ toks }) k
      { conv := k, req := r, first := c.log.length, kind := .tokens, toks := toks }

/-! ## Automata (R235) -/

/-- A request names an automaton table: its auto_id (R229). -/
def autoIdOf (r : Req) : Option Nat := if fieldOf r.params 511 448 = 0 then none else some (fieldOf r.params 447 384)

/-- Copies no request of the bench names are freed (R235). -/
def freeAutos (s : State) (b : Nat) : State :=
  setBench s b (fun x => { x with autos := x.autos.filter (fun a =>
    s.work.reqs.any (fun r => r.2.bench == b && autoIdOf r.2 == some a.1)) })

/-- eos_token of a request, if used (R229). -/
def eosOf (p : BitVec 1536) : Option Nat := if bitOf p 351 then none else some (fieldOf p 349 320)

/-- Used stop entries (R229). -/
def stopsOf (p : BitVec 1536) : List Nat :=
  (List.range 8).filterMap (fun i =>
    let w := fieldOf p (543 + 32 * i) (512 + 32 * i)
    if w.testBit 31 then none else some (w % 2 ^ 30))

/-! ## Tallies (R248 to R251) -/

/-- The tally a request charges (R229). -/
def tallyIdOf (p : BitVec 1536) : Nat := fieldOf p 239 224

/-- The tally of a request on its bench; another bench's tally counts as empty (R248). -/
def tallyOf (s : State) (b : Nat) (p : BitVec 1536) : Option Tally :=
  match tget s.work.tallies (tallyIdOf p) with
  | some t => if t.bench = b then some t else none
  | none => none

/-- Tokens a request may still be charged: none where it never waits (R248). -/
def tallyRoom (s : State) (b : Nat) (p : BitVec 1536) : Option Nat :=
  if tallyIdOf p = 0xFFFF then none else some (((tallyOf s b p).map (·.balance)).getD 0)

/-- A charge (R250): the excess over the balance is forgiven, the record counts it all (R482). -/
def chargeTally (s : State) (b : Nat) (p : BitVec 1536) (n : Nat) (generated : Bool) : State :=
  match tallyOf s b p with
  | some t =>
    let t' := { t with balance := t.balance - n, charged := t.charged + n,
                       generated := t.generated + (if generated then n else 0) }
    { s with work := { s.work with tallies := tput s.work.tallies (tallyIdOf p) t' } }
  | none => s

/-- A returned charge (R250), held to the count's range. -/
def returnTally (s : State) (id n : Nat) : State :=
  { s with work := { s.work with tallies := tmod s.work.tallies id (fun t =>
    { t with balance := min (2 ^ 32 - 1) (t.balance + n), returned := t.returned + n }) } }

/-- The window that starts at tick k starts for this tally, and has not been applied (R249). -/
def refillDue (t : Tally) (k : Nat) : Bool :=
  decide (t.anchor ≤ k) && decide (0 < t.window) && (k - t.anchor) % t.window == 0 && t.lastRefill != some k

/-- The refill of the window that starts at tick k (R249). -/
def refillTally (s : State) (id k : Nat) : State :=
  { s with work := { s.work with tallies := tmod s.work.tallies id (fun t =>
    if refillDue t k then
      { t with balance := min (t.balance + t.refill) t.cap,
               refilled := t.refilled + (min (t.balance + t.refill) t.cap - t.balance), lastRefill := some k }
    else t) } }

/-! ## The done list (R208) -/

/-- An ended key joins the list, the oldest overwritten when full. -/
def addDone (s : State) (k : Nat) (st : Status) (n : Nat) : State :=
  let l := s.work.done ++ [{ req := k, status := st, tick := n }]
  { s with work := { s.work with done := if 262144 < l.length then l.drop 1 else l } }

/-- The status an ended key is listed with. -/
def doneOf (s : State) (k : Nat) : Option Status := (s.work.done.find? (fun d => d.req == k)).map (·.status)

/-- A key the module knows: live, suspended or done (R202). -/
def knownReq (s : State) (k : Nat) : Bool := (req s k).isSome || (doneOf s k).isSome

/-! ## Ending -/

/-- A haul in flight for a conversation is withdrawn: its ACK is answered ABORT (R215, R226). -/
def abortHauls (s : State) (k : Nat) : State :=
  { s with haul := { s.haul with out := s.haul.out.map (fun h =>
      if h.2.conv = k then (h.1, { h.2 with aborted := true }) else h) } }

/-- A conversation leaves this module's tables: its pages' references dropped, its log freed, its keeper told (R207).
-/
def releaseConv (s : State) (k : Nat) : State :=
  match conv s k with
  | none => s
  | some c =>
    let s1 := c.entries.foldl (fun s e => dropPage s c e) (abortHauls s k)
    let s2 := if c.home then send s1 c.keeper (some c.bench) (.keeperFree k) else s1
    delConv s2 k

/-- The conversation of an ended request: IDLE, PARKED where it lies, or released (R206). -/
def afterEnd (s : State) (r : Req) : State :=
  match conv s r.conv with
  | none => s
  | some c =>
    if r.releaseOnEnd then releaseConv s r.conv
    else
      let s1 := modConv (abortHauls s r.conv) r.conv (fun c => { c with req := none, frozen := none, pend := none })
      if r.state = .suspended ∨ c.state = .parked then s1 else setConvState s1 r.conv .idle

/-- A request ends at commit n with a status (R38, R39, R205 to R208): END segment, done list, conversation.
`viaToken` says that its final token carries the final record; otherwise a final record falls due at step 3 (R246). -/
def endReq (s : State) (k : Nat) (st : Status) (n : Nat) (viaToken : Bool) : State :=
  match req s k with
  | none => s
  | some r =>
    let s1 := addSegment s r.conv { conv := r.conv, req := k, kind := .fin, answers := r.answers, status := st }
    let waits := r.waitTok.map (fun t => ({ req := k, bench := r.bench, tok := t } : FinalWait))
    let fin : FinalWait := { req := k, bench := r.bench,
                             tok := { detail := r.answers, status := st, final := true, tickLo := n % 2 ^ 15 } }
    let s2 := { s1 with
      work := { s1.work with
        reqs := tdel s1.work.reqs k,
        finalDue := s1.work.finalDue ++ (if viaToken then waits else waits ++ [fin]) },
      plan := { s1.plan with spans := s1.plan.spans.filter (fun x => x.req != k) } }
    freeAutos (afterEnd (addDone s2 k st n) r) r.bench

/-! ## Parking (R205, R206) -/

/-- A live request becomes SUSPENDED with the state it left recorded; its conversation PARKED. -/
def suspendReq (s : State) (k : Nat) : State :=
  match req s k with
  | none => s
  | some r =>
    let s1 := putReq s { r with state := .suspended, left := r.state }
    setConvState (modConv s1 r.conv (fun c => { c with req := none, frozen := none, pend := none })) r.conv .parked

/-- A conversation parked in place (R206, R209). -/
def parkInPlace (s : State) (k : Nat) : State :=
  match conv s k with
  | none => s
  | some c =>
    match c.req with
    | some r => suspendReq s r
    | none => setConvState s k .parked

/-! ## Recovery (R221 to R225, R420, R422) -/

/-- Token steps of the sealed log that committed positions at or beyond p (R420). -/
def lostSteps (c : Conv) (p : Nat) : Nat :=
  (c.segs.filter (fun g => g.kind == .tokens && g.toks.any (·.gen) && decide (p < g.first + g.toks.length) &&
    decide (g.first < c.length))).length

/-- Committed prefill positions at or beyond p (R420). -/
def lostPrefill (c : Conv) (p : Nat) : Nat :=
  (((c.log.take c.length).drop p).filter (fun t => !t.gen)).length

/-- Lost steps counted where a recovery begins (R420, R422). -/
def countLost (s : State) (r : Req) (c : Conv) (p n : Nat) : State :=
  let chunk := fieldOf (bench s r.bench).record 47 32
  let lost := lostSteps c p + (if chunk = 0 then 0 else ceilDiv (lostPrefill c p) chunk)
  let s1 := setBench (count s (bn r.bench 0x4D0) lost) r.bench (fun b => { b with lost := b.lost + lost })
  if bounded s r.bench && decide (ckptK s r.bench < lost) then
    logErr s1 .accounting 2 (b := r.bench) (d0 := r.key) (d1 := lost + 2 ^ 32 * (n - r.ckptAcked.getD 0))
  else s1

/-- A recovery of a request from group g (R223): earlier groups kept, later ones released and re-prefilled from the
log; under bounded loss with an acknowledged checkpoint the keeper is asked to restore (R222, R224). -/
def recover (s : State) (k g n : Nat) : State :=
  match req s k with
  | none => s
  | some r =>
    match conv s r.conv with
    | none => s
    | some c =>
      let p := min (64 * g) c.length
      let s1 := countHalf (countLost s r c p n) (bn r.bench 0x4C0) false 1
      let s2 := modConv (dropGroups s1 r.conv g) r.conv (fun c => { c with length := p })
      let s3 := putReq s2 { r with
        state := .rebuilding, rebuildLeft := r.rebuildLeft + (c.length - p),
        recovered := some (match r.recovered with | some q => min q p | none => p) }
      if bounded s r.bench && r.ckptAcked.isSome then send s3 c.keeper (some r.bench) (.logRead r.conv r.bench true)
      else s3

/-- Input left or generation, after a rebuild or a resume (R205). -/
def stateAfterRebuild (r : Req) : ReqState := if 0 < r.inputLeft then .prefill else .generating

/-! ## Checks common to arrivals -/

/-- Bytes of one open group of a model: its pages' open slots (R155, R163). -/
def groupBytes (m : BitVec 1024) (bits : Nat) : Nat :=
  manLayers m * manKv m * 2 * classBytes (openClass (manDim m) bits)

/-- Bytes of the pending area of a speculating request (R165): a KEY and a VALUE block each (DEDUCED, log entry 147). -/
def pendingBytes (m : BitVec 1024) (bits : Nat) : Nat :=
  manLayers m * manKv m * 2 * classBytes (pendingClass (manDim m) bits)

/-- KV code bits of a bench's calibration (R89, R125). -/
def kvBitsOf (s : State) (b : Nat) : Nat :=
  match (bench s b).pkg.bind (·.kvBooks.head?) with
  | some c => if c.count = 256 then 8 else 4
  | none => 4

/-- The slots of a speculating request's pending area can be taken on bench b: every pending area lies in face (R165).
-/
def pendingRoom (s : State) (b n : Nat) : Bool :=
  let held := s.work.convs.foldl (fun a c => if c.2.bench = b then a + pendBytes c.2 else a) 0
  decide (held + n ≤ tierRoom s b .face)

/-- The pending area of a live speculating request is taken (R165). -/
def takePending (s : State) (k : Nat) : State :=
  match conv s k with
  | some c =>
    (match c.req.bind (req s) with
     | some r =>
       if r.speculate then
         putConv s { c with pend := some { cls := pendingClass (manDim (manOf s c.bench)) (kvBitsOf s c.bench) } }
       else s
     | none => s)
  | none => s

/-- Request contexts, with those that accepted hauls will bring (R20). -/
def contextCount (s : State) : Nat :=
  s.work.reqs.length + (s.haul.inn.filter (fun h => h.2.req != 0 && (req s h.2.req).isNone)).length

/-- The request's home can take another context (R20). -/
def contextRoom (s : State) : Bool := decide (contextCount s < 65536)

end Sys2Proof.Machine
end

