-- ==== Sys2Proof/Machine/Costs.lean ====
section
/-! DEFINITION. The cost tables and the admission inequality: expansion times, row sets, lanes, budgets (R45, R65 to
R67, R78, R114 to R117, R133 to R144, R187, R190, R295, R524). -/

namespace Sys2Proof.Machine

/-! ## Geometry of a package -/

/-- A field of layer l's cost entry (R524). -/
def layerCost (p : Package) (l hi lo : Nat) : Nat := fieldOf (p.costs.getD l 0) hi lo

/-- A cost summed over layers (R45, R524). -/
def sumCost (p : Package) (hi lo : Nat) : Nat :=
  (List.range (manLayers p.manifest)).foldl (fun a l => a + layerCost p l hi lo) 0

/-- c_eng of a batch class, summed over layers. -/
def engStep (p : Package) (k : Nat) : Nat := sumCost p (32 * k - 1) (32 * k - 32)

/-- c_cell of a layer and page class. -/
def cellPage (p : Package) (l cls : Nat) : Nat := layerCost p l (223 + 32 * cls) (192 + 32 * cls)

/-- Some KV codebook holds int12 entries: e of R136 and w_kv of R144 are taken for the whole package (DESIGN CHOICE,
log entry 120). -/
def kvWide (p : Package) : Bool := p.kvBooks.any (fun c => c.width == 12)

/-- KV code bits of a package (R89). -/
def kvBits (p : Package) : Nat := if (p.kvBooks.head?.map (·.count)) = some 256 then 8 else 4

/-- kv_max_rank (R125). -/
def kvMaxRank (p : Package) : Nat := fieldOf p.kvHdr 159 152

/-- The widest input dimension of any dense tensor (R133, R525). -/
def kMax (p : Package) : Nat := p.tensors.foldl (fun a t => max a (fieldOf t 159 128)) 0

/-- Bytes of the regions of an engine's operand buffer (R133): expander queue, activation rows, accumulator rows,
output and spine staging. -/
def bufQueue : Nat := 32 * 32768
def bufActs : Nat := 4194304
def bufSums : Nat := 2097152
def bufOut : Nat := 1048576

/-- Rows a layer pass can hold: int8 input rows that fit the activation region, at most 512 (R133). -/
def rowsPass (p : Package) : Nat := if kMax p = 0 then 512 else min 512 (bufActs / kMax p)

/-- Bytes of the regions of a cell's scratch (R136): control, staging, expander queue, and one query row. -/
def scratchFixed : Nat := 8192 + 65536
def scratchQueue (d : Nat) (wide : Bool) : Nat := (if wide then 3072 else 2048) * d
def scratchRow (d : Nat) : Nat := 33 * d + 552

/-- Rows a row set can hold in the 512 KiB of scratch (R136). -/
def rowsSet (d : Nat) (wide : Bool) : Nat := min 32 ((524288 - scratchFixed - scratchQueue d wide) / scratchRow d)

/-- Expansion time at a cell (R114). -/
def cellX (raw : Bool) (rows cols rank : Nat) : Nat :=
  if raw then ceilDiv (rows * cols) 128 else ceilDiv (rows * cols * rank) 512

/-- Expansion time at a block engine (R114). -/
def engX (t : Block) : Nat :=
  if t.mode = 0 then ceilDiv (t.rows * t.cols) 8192 else ceilDiv (t.rows * t.cols * t.rank) 8192

/-- Raw rows that fit a class (R116). -/
def rawRows (cls bits d : Nat) : Nat := min 64 ((classBytes cls - 32) * 8 / (bits * d))

/-- Largest expansion time of any block of a class: at its rank ceiling, or raw (R114, R116, R144). -/
def xClass (p : Package) (cls : Nat) : Nat :=
  let d := manDim p.manifest
  max (cellX false 64 d (rankCeiling cls (kvBits p) d (kvMaxRank p))) (cellX true (rawRows cls (kvBits p) d) d 0)

/-- x_top of R143. -/
def xTop (p : Package) : Nat :=
  let d := manDim p.manifest
  max (cellX false 64 d (kvMaxRank p)) (cellX true 64 d 0)

/-- Query heads of a KV head. -/
def headGroup (p : Package) : Nat := if manKv p.manifest = 0 then 0 else manQ p.manifest / manKv p.manifest

/-- f_plan in MHz; 1,750 without a package (R75, R295). -/
def planMhz (s : State) (b : Nat) : Nat :=
  match (bench s b).pkg with
  | some p => fieldOf p.manifest 735 704
  | none => 1750

/-! ## Weight tiles (R89, R107 to R111) -/

/-- A tile's codebook exists and matches its codes (R72 step 5, R89). -/
def tileBookOk (p : Package) (t : Block) : Bool :=
  match p.books[t.cbIndex]? with
  | some c => bookBits c t.codeBits
  | none => false

/-- The first check of R118 that tile n of its section fails (R107 to R111). -/
def tileFault (p : Package) (n : Nat) (t : Block) : Option Nat :=
  blockFault {
    kind := 2, final := some true, rows := none, rowsMax := 128, cols := none, colsMax := 128,
    rankMax := if fieldOf p.manifest 567 560 = 1 then 63 else 0, room := 32768, codeBits := none,
    width := (p.books[t.cbIndex]?).map (·.width), cbIndex := none, locator := n,
    fpTag := fieldOf p.manifest 159 128 } t

/-! ## Units in service (R150) -/

/-- Not retired, and not out of service this tick. -/
def inService (s : State) (u : UnitId) : Bool := !s.fault.retired.contains u && !s.fault.outNow.contains u

/-- Block engines of a bench in service. -/
def enginesOf (s : State) (b : Nat) : List Nat :=
  (setBits (fieldOf (bench s b).record 191 128) 64).filter (fun e => inService s ⟨.engine, e⟩)

/-- Cells of a bench in service. -/
def cellsOf (s : State) (b : Nat) : List Nat :=
  ((setBits (fieldOf (bench s b).record 127 64) 64).flatMap (fun g => (List.range 64).map (64 * g + ·))).filter
    (fun c => inService s ⟨.cell, c⟩)

/-! ## Head runs (R140, R143) -/

/-- Staging cycles of a page not in the computing cell's own slice (R143). -/
def stageCycles (pcs cells mhz cls : Nat) : Nat :=
  if pcs = 0 then 0 else ceilDiv (3 * classBytes cls * cells * mhz) (46080 * pcs)

/-- The page lies in the slice of a cell (R142). -/
def inSlice (cell : Nat) (e : Entry) : Bool := e.tier == .face && e.cell == some cell

/-- Row sets of a head of a unit (R140, R143). -/
def headSets (p : Package) (positions : Nat) : Nat :=
  ceilDiv (headGroup p * positions) (max 1 (rowsSet (manDim p.manifest) (kvWide p)))

/-- Cell cycles of one head of a unit that reaches position `upto`, on a cell (R143): pages it opens itself count as
open pages in the cell's own slice (DEDUCED, log entry 13), and bench_cells is the bench's cells in service (DEDUCED, log
entry 143). -/
def headCycles (s : State) (b : Nat) (p : Package) (es : List Entry) (l h positions upto cell : Nat) : Nat :=
  let d := manDim p.manifest
  let sets := headSets p positions
  let pcs := tierSlices s b .hbm
  let cells := (cellsOf s b).length
  let mine := es.filter (fun e => e.layer == l && e.head == h && e.state != .replica)
  let pages := mine.filter (isLocal s)
  let opens := ceilDiv upto 64 - mine.length
  let sum := pages.foldl (fun a e => a + cellPage p l e.cls +
    (if inSlice cell e then 0 else sets * stageCycles pcs cells (planMhz s b) e.cls)) 0
  positions * (sum + opens * cellPage p l (openClass d (kvBits p))) + sets * (2 * (8 + xTop p) + 4 * ceilDiv (headGroup p * d) 16)

/-- Bytes a head's run stages from other face slices, which count on the HBM budget (R66, R143). -/
def stagedBytes (s : State) (p : Package) (es : List Entry) (l h positions cell : Nat) : Nat :=
  (es.filter (fun e => e.layer == l && e.head == h && e.state != .replica && isLocal s e && e.tier == .face &&
    !inSlice cell e)).foldl (fun a e => a + 3 * classBytes e.cls) 0 * headSets p positions

/-- Planned cycles by cell. -/
abbrev Loads := List (Nat × Nat)

/-- The least loaded of the cells, the lowest-numbered of equals. -/
def leastCell (l : Loads) : Option Nat :=
  (l.foldl (fun (a : Option (Nat × Nat)) x => match a with
    | some m => if x.2 < m.2 then some x else a
    | none => some x) none).map (·.1)

/-- Cycles put on a cell. -/
def loadCell (l : Loads) (cell n : Nat) : Loads := l.map (fun x => if x.1 = cell then (x.1, x.2 + n) else x)

/-- The least loaded of a bench's cells takes work of no head (R295; log entry 8). -/
def addLoad (l : Loads) (n : Nat) : Loads :=
  match leastCell l with
  | some c => loadCell l c n
  | none => l

/-- The cell of a head (R79, R142): of the cells that serve fewer than 4 heads of the unit, the one whose slice holds
most of the head's pages; ties go to the fewest planned cycles (log entry 8). `chosen` are the cells of the unit's heads so far. -/
def cellFor (l : Loads) (chosen : List Nat) (pages : List Entry) : Option Nat :=
  let free := l.filter (fun x => decide (chosen.count x.1 < 4))
  let held (c : Nat) : Nat := (pages.filter (inSlice c)).length
  let top := free.foldl (fun a x => max a (held x.1)) 0
  leastCell (free.filter (fun x => held x.1 == top))

/-! ## The cost of a plan (R45, R139, R295) -/

/-- What a bench's plan asks of its lanes and budgets: `cells` the cells of the last unit's heads, `unplaced` that a
head has no cell under the cap. -/
structure PlanCost where
  rows : Nat := 0
  eng : Nat := 0
  tok : Nat := 0
  loads : Loads := []
  hbm : Nat := 0
  lpddr : Nat := 0
  flash : Nat := 0
  link : Nat := 0
  remote : Bool := false
  unplaced : Bool := false
  cells : List Nat := []
  deriving Repr, Inhabited

/-- Candidate rows of a speculating step at depth limit L (R237, R238). -/
def candRows (s : State) (u : WorkUnit) : Nat :=
  match req s u.req with
  | some r =>
    let nodes := fieldOf r.params 247 240
    ((List.range nodes).filter (fun i => decide (treeDepth r.params 33 (i + 1) ≤ u.depth) && decide (0 < u.depth))).length
  | none => 0

/-- Batch class of row i of n rows filled into passes (R139). -/
def batchClass (pass n i : Nat) : Nat := min 4 (min pass (n - i / pass * pass))

/-- Rows of a unit. -/
def unitRows (s : State) (u : WorkUnit) : Nat :=
  match u.cls with
  | .step => 1 + candRows s u
  | .chunk => u.len
  | _ => 0

/-- c_dist of R295. -/
def distCycles (x : Shard) : Nat :=
  let dim := fieldOf x.hdr 255 240
  if fieldOf x.hdr 239 236 = 1 then ceilDiv dim 16 + 8
  else ceilDiv (dim * (if (x.book.map (·.width)) = some 12 then 2 else 1)) 128 + 8

/-- Cycles to bring n bytes of a shard to a cell: by the LPDDR channels, or the pseudo-channels without them (R295).
-/
def bringCycles (s : State) (b n : Nat) : Nat :=
  let cells := (cellsOf s b).length
  let lp := tierSlices s b .lpddr
  let hb := tierSlices s b .hbm
  if 0 < lp then ceilDiv (n * cells * planMhz s b) (76500 * lp)
  else if 0 < hb then ceilDiv (n * cells * planMhz s b) (46080 * hb) else 0

/-- c_node and c_query (R295). -/
def nodeCycles (s : State) (x : Shard) : Nat := distCycles x + bringCycles s x.bench (strideNode x.hdr)
def queryCycles (s : State) (x : Shard) (expand : Nat) : Nat :=
  nodeCycles s x + expand * (fieldOf x.hdr 271 264 * nodeCycles s x + 64)

/-- Shards of this module's bench b a search lists. -/
def ownShards (s : State) (b : Nat) (q : Search) : List Shard :=
  q.shards.filterMap (fun e =>
    let h := fieldOf e 47 32
    if (h = 0xFFFF ∨ h = s.fab.self.toNat) ∧ fieldOf e 51 48 = b then tget s.shards (fieldOf e 31 0) else none)

/-- The brute-force scan of a shard's spoil list for q searches, in chunks of 1,024 entries (R295). -/
def scanLoads (s : State) (x : Shard) (q n : Nat) : Nat → List Nat
  | 0 => []
  | f + 1 =>
    if n = 0 then []
    else
      let m := min 1024 n
      m * (q * distCycles x + bringCycles s x.bench (strideSpoil x.hdr)) :: scanLoads s x q (n - m) f

/-- Bytes on the floor tier of a shard: LPDDR, or HBM on a bench with no LPDDR channel (R281). -/
def chargeFloor (s : State) (b : Nat) (c : PlanCost) (n : Nat) : PlanCost :=
  if 0 < tierSlices s b .lpddr then { c with lpddr := c.lpddr + n } else { c with hbm := c.hbm + n }

/-- The heads of a unit assigned and priced, layer by layer (R142, R143). -/
def addHeads (s : State) (b : Nat) (p : Package) (es : List Entry) (positions upto : Nat) (c : PlanCost) : PlanCost :=
  (List.range (manLayers p.manifest)).foldl (fun c l =>
    (List.range (manKv p.manifest)).foldl (fun c h =>
      match cellFor c.loads c.cells (es.filter (fun e => e.layer == l && e.head == h && isOwn e && e.bench == b)) with
      | some x => { c with
          loads := loadCell c.loads x (headCycles s b p es l h positions upto x), cells := c.cells ++ [x],
          hbm := c.hbm + stagedBytes s p es l h positions x }
      | none => { c with unplaced := true }) c) { c with cells := [] }

/-- One unit added to the cost of bench b's plan of n rows in all. -/
def addUnit (s : State) (b n : Nat) (c : PlanCost) (u : WorkUnit) : PlanCost :=
  match u.cls, (bench s b).pkg with
  | .search, _ =>
    match s.plan.searches.find? (fun q => q.id == u.req) with
    | none => c
    | some q =>
      (ownShards s b q).foldl (fun c x =>
        let e := fieldOf q.raw 315 304
        chargeFloor s b { c with loads := addLoad c.loads (queryCycles s x e) }
          ((1 + e * fieldOf x.hdr 271 264) * strideNode x.hdr)) c
  | .merge, _ =>
    match tget s.shards u.req with
    | none => c
    | some x => { c with loads := addLoad c.loads (2 * queryCycles s x (fieldOf x.hdr 287 272)) }
  | _, none => c
  | .step, some p =>
    let es := ((conv s u.conv).map (·.entries)).getD []
    let upto := ((conv s u.conv).map (·.length)).getD 0 + 1
    let cand := candRows s u
    let c := addHeads s b p es (1 + cand) upto c
    { c with
      rows := c.rows + 1 + cand,
      eng := c.eng + engStep p (batchClass (rowsPass p) n c.rows) + cand * sumCost p 159 128,
      tok := c.tok + (if 0 < u.depth then fieldOf p.costHdr 191 160 else fieldOf p.costHdr 159 128),
      hbm := c.hbm + sumCost p 447 384 + cand * sumCost p 703 640,
      lpddr := c.lpddr + sumCost p 511 448 + cand * sumCost p 767 704,
      flash := c.flash + sumCost p 575 512 + cand * sumCost p 831 768,
      link := c.link + sumCost p 639 576 + cand * sumCost p 895 832,
      remote := c.remote || es.any (fun e => e.tier == .remote && e.state != .replica) }
  | .chunk, some p =>
    let cv := conv s u.conv
    let es := (cv.map (·.entries)).getD []
    let upto := (cv.map (·.length)).getD 0 + u.len
    let c := addHeads s b p es u.len upto c
    let gens := match cv with
      | some x => if x.record && u.rebuild then (((x.log.drop x.length).take u.len).filter (·.gen)).length else 0
      | none => 0
    { c with
      rows := c.rows + u.len,
      eng := c.eng + u.len * sumCost p 159 128,
      tok := c.tok + gens * fieldOf p.costHdr 159 128,
      hbm := c.hbm + u.len * sumCost p 703 640,
      lpddr := c.lpddr + u.len * sumCost p 767 704,
      flash := c.flash + u.len * sumCost p 831 768,
      link := c.link + u.len * sumCost p 895 832,
      remote := c.remote || es.any (fun e => e.tier == .remote && e.state != .replica) }

/-- Searches of a plan's units. -/
def searchesOf (s : State) (us : List WorkUnit) : List Search :=
  us.filterMap (fun u => match u.cls with
    | .search => s.plan.searches.find? (fun q => q.id == u.req)
    | _ => none)

/-- One scan of each searched shard's spoil list, shared by the searches of the tick (R295). -/
def addScans (s : State) (b : Nat) (us : List WorkUnit) (c : PlanCost) : PlanCost :=
  let qs := (searchesOf s us).map (fun q => (ownShards s b q).map (fun x => fieldOf x.hdr 127 96))
  (qs.flatten.eraseDups).foldl (fun c id =>
    match tget s.shards id with
    | none => c
    | some x =>
      let q := (qs.filter (fun l => l.contains id)).length
      let n := x.spoil.length
      chargeFloor s b { c with loads := (scanLoads s x q n n).foldl addLoad c.loads } (n * strideSpoil x.hdr)) c

/-- The cost of a bench's set of units. -/
def planCost (s : State) (b : Nat) (us : List WorkUnit) : PlanCost :=
  let n := us.foldl (fun a u => a + unitRows s u) 0
  addScans s b us (us.foldl (addUnit s b n) { loads := (cellsOf s b).map (fun c => (c, 0)) })

/-- The cells that the last of a bench's units computes its heads on (R142). -/
def headCells (s : State) (b : Nat) (us : List WorkUnit) : List Nat :=
  let n := us.foldl (fun a u => a + unitRows s u) 0
  (us.foldl (addUnit s b n) { loads := (cellsOf s b).map (fun c => (c, 0)) }).cells

/-- The link budget after faults (R311): `linkEff` where it was lowered, else bud_link. -/
def linkBudget (s : State) (b : Nat) : Nat := (bench s b).linkEff

/-- Plan bytes and the migration share fit a budget of 64 KiB units (R67). -/
def budgetOk (bytes budget mig : Nat) : Bool := decide (bytes * 1000 + mig * budget * 65536 ≤ budget * 65536 * 1000)

/-- Compute tiles on which a bench holds cell groups or block engines. -/
def benchTiles (s : State) (b : Nat) : List Nat :=
  let r := (bench s b).record
  (List.range 8).filter (fun t => fieldOf r 127 64 / 2 ^ (8 * t) % 256 != 0 || fieldOf r 191 128 / 2 ^ (8 * t) % 256 != 0)

/-- The clock in MHz that bench b's window is counted at (R459): f_plan, or under the TJ cause of one of its tiles the
lowest arithmetic clock of them, where that is lower. -/
def windowMhz (s : State) (b : Nat) : Nat :=
  let f := planMhz s b
  let ts := benchTiles s b
  if ts.any (fun t => s.pwr.override.contains (t, .tj)) then
    ts.foldl (fun a t => min a ((tget s.pwr.clock t).getD f)) f
  else f

/-- A set of units is admitted on bench b (R45, R67, R187, R190, R295, R459). -/
def admits (s : State) (b : Nat) (us : List WorkUnit) : Bool :=
  let c := planCost s b us
  let e := (enginesOf s b).length
  let r := (bench s b).record
  let layers := manLayers (manOf s b)
  let dep := match (bench s b).pkg with | some p => sumCost p 191 160 | none => 0
  let w := horizonOff s * windowMhz s b
  let wr := if c.remote then w - layers * bnF s b 0xA0 41 32 * 1000 * planMhz s b else w
  let cell := c.loads.foldl (fun a x => max a x.2) 0
  let share := 1000 - bnF s b 0xA0 25 16 - bnF s b 0xB0 25 16
  (decide (c.eng = 0) || (decide (0 < e) && decide ((c.eng + e * dep) * 1000 ≤ e * wr))) &&
    (decide (c.tok = 0) || (decide (0 < e) && decide ((8 * c.tok + e * dep) * 1000 ≤ e * wr))) &&
    decide ((cell + dep) * 1000 ≤ wr) && decide (cell * 1000000 ≤ w * share) && !c.unplaced &&
    (!c.loads.isEmpty || us.isEmpty) &&
    budgetOk c.hbm (fieldOf r 799 768) (fieldOf r 905 896) &&
    budgetOk c.lpddr (fieldOf r 831 800) (fieldOf r 905 896) &&
    budgetOk c.flash (fieldOf r 863 832) (fieldOf r 905 896) &&
    budgetOk c.link (linkBudget s b) (fieldOf r 905 896)

end Sys2Proof.Machine
end

