-- ==== Sys2Proof/Machine/PageTable.lean ====
section
/-! DEFINITION. Page tables as they leave the module and arrive at another: header, entries, crc and the checks of a
destination (R154, R157, R160 to R162). -/

namespace Sys2Proof.Machine

/-! ## Values of the fields (R157, R161) -/

def pageStateCode : PageState → Nat
  | .opened => 0 | .sealing => 1 | .sealed => 2 | .replica => 3 | .missing => 4 | .lost => 5

/-- The state of a value; 6 and 7 are refused. -/
def pageStateOf : Nat → Option PageState
  | 0 => some .opened | 1 => some .sealing | 2 => some .sealed | 3 => some .replica | 4 => some .missing | 5 => some .lost
  | _ => none

def tierCode : Tier → Nat
  | .face => 0 | .hbm => 1 | .lpddr => 2 | .flash => 3 | .remote => 4

/-- The tier of a value; 5 to 7 are refused. -/
def tierOf : Nat → Option Tier
  | 0 => some .face | 1 => some .hbm | 2 => some .lpddr | 3 => some .flash | 4 => some .remote
  | _ => none

/-! ## Entries (R161) -/

/-- An entry's 16 bytes. -/
def entryRaw (s : State) (e : Entry) : BitVec 128 :=
  let at_ : ModuleId := if isOwn e then s.fab.self else e.holder
  BitVec.ofNat 128 ((if sharedBit s e then 2 ^ 15 else 0) + tierCode e.tier * 2 ^ 16 + pageStateCode e.state * 2 ^ 19 +
    e.cls % 8 * 2 ^ 22 + e.rows % 128 * 2 ^ 25 + e.head % 256 * 2 ^ 32 + e.layer % 256 * 2 ^ 40 +
    e.group % 2 ^ 16 * 2 ^ 48 + (if e.tier = .flash then e.extentOff % 2 ^ 16 * 2 ^ 64 else 0) + at_.toNat * 2 ^ 80 +
    shownId e * 2 ^ 96)

/-- What 16 bytes name; none where a tier, state, class or reserved field is refused. -/
def entryOf (raw : BitVec 128) (base : Entry) : Option Entry :=
  match pageStateOf (fieldOf raw 21 19), tierOf (fieldOf raw 18 16) with
  | some st, some t =>
    if 5 ≤ fieldOf raw 24 22 ∨ !zeroAt raw 14 0 then none
    else some { base with
      group := fieldOf raw 63 48, layer := fieldOf raw 47 40, head := fieldOf raw 39 32, rows := fieldOf raw 31 25,
      cls := fieldOf raw 24 22, state := st, tier := t, holder := BitVec.ofNat 16 (fieldOf raw 95 80),
      pageId := fieldOf raw 127 96, extentOff := fieldOf raw 79 64, shared := bitOf raw 15 }
  | _, _ => none

/-- Every entry of an array, over what the table carries beside them; none where one is refused. -/
def entriesOf : List (BitVec 128) → List Entry → Option (List Entry)
  | [], _ => some []
  | r :: rs, base =>
    match entryOf r (base.headD {}), entriesOf rs (base.drop 1) with
    | some e, some l => some (e :: l)
    | _, _ => none

/-! ## Header and crc (R160) -/

/-- CRC-32C over a header with its crc field [95:64] zero, and an entry array. -/
def tableCrc (h : BitVec 512) (es : List (BitVec 128)) : Nat :=
  let n := h.toNat - fieldOf h 95 64 * 2 ^ 64
  crc32c ((leBytes 64 n ++ es.flatMap (fun e => leBytes 16 e.toNat)).map (·.toNat))

/-- The header of a table, crc 0 (R160). -/
def tableHdr0 (c : Conv) : BitVec 512 :=
  BitVec.ofNat 512 (0x5054 + 2 ^ 16 + (if c.home then 2 ^ 32 else 0) + (if c.state = .parked then 2 ^ 33 else 0) +
    (if c.record then 2 ^ 34 else 0) + (if c.stripe.isSome then 2 ^ 35 else 0) +
    ((c.pend.map (·.rows)).getD 0) % 2 ^ 16 * 2 ^ 96 + c.kvHeads % 256 * 2 ^ 112 + c.layers % 256 * 2 ^ 120 +
    c.shareKey % 2 ^ 64 * 2 ^ 128 + c.shareGroups % 2 ^ 16 * 2 ^ 192 + (groupsOf c).length % 2 ^ 16 * 2 ^ 208 +
    c.entries.length % 2 ^ 32 * 2 ^ 224 + c.length % 2 ^ 32 * 2 ^ 256 + c.fpTag % 2 ^ 32 * 2 ^ 288 +
    c.lastTick % 2 ^ 64 * 2 ^ 320 + c.req.getD 0 % 2 ^ 64 * 2 ^ 384 + c.key % 2 ^ 64 * 2 ^ 448)

/-- A table as it leaves the module: header with crc, and entry array (R160). -/
def tableRaw (s : State) (c : Conv) : BitVec 512 × List (BitVec 128) :=
  let es := c.entries.map (entryRaw s)
  let h := tableHdr0 c
  (BitVec.ofNat 512 (h.toNat + tableCrc h es * 2 ^ 64), es)

/-! ## The checks of a destination (R162) -/

/-- A follows b in the order of R162: group, layer, KV head, each page's primary first. -/
def entryBefore (a b : Entry) : Bool :=
  decide (a.group < b.group) || (a.group == b.group && (decide (a.layer < b.layer) ||
    (a.layer == b.layer && (decide (a.head < b.head) || (a.head == b.head && b.state == .replica)))))

/-- Order of entries: each primary before its replicas, at most two of them, with the rows and class of their primary.
The count is that of the replicas since the primary `p`. -/
def entriesOrdered (p : Option Entry) : Nat → List Entry → Bool
  | _, [] => true
  | n, e :: r =>
    if e.state = .replica then
      (match p with
       | some q => q.group == e.group && q.layer == e.layer && q.head == e.head && q.rows == e.rows && q.cls == e.cls &&
          decide (n < 2)
       | none => false) && entriesOrdered p (n + 1) r
    else (match p with | some q => entryBefore q e | none => true) && entriesOrdered (some e) 0 r

/-- A page table passes the checks of R162: order, encodings, rows consistent with length under R153. -/
def tableOk (c : Conv) : Bool :=
  entriesOrdered none 0 c.entries && c.entries.all (fun e =>
    decide (e.cls < 5) && decide (1 ≤ e.rows) && decide (e.rows ≤ 64) && decide (e.group < 16384) &&
      decide (64 * e.group < max 1 c.length) && e.rows == min 64 (c.length - 64 * e.group) &&
      decide (e.layer < c.layers) && decide (e.head < c.kvHeads) &&
      (match e.state with
       | .opened => decide (e.rows < 64)
       | _ => e.rows == 64 || e.state == .missing || e.state == .lost))

/-- The table that a header and an entry array give, over what the message carries beside them; none where a check of
R160 to R162 fails. -/
def tableOf (raw : BitVec 512) (es : List (BitVec 128)) (c : Conv) : Option Conv :=
  match entriesOf es c.entries with
  | none => none
  | some l =>
    let t : Conv := { c with
      key := fieldOf raw 511 448, lastTick := fieldOf raw 383 320, fpTag := fieldOf raw 319 288, length := fieldOf raw 287 256,
      shareGroups := fieldOf raw 207 192, shareKey := fieldOf raw 191 128, layers := fieldOf raw 127 120,
      kvHeads := fieldOf raw 119 112, record := bitOf raw 34, entries := l,
      stripe := if bitOf raw 35 then c.stripe else none }
    if fieldOf raw 15 0 == 0x5054 && fieldOf raw 31 16 == 1 && zeroAt raw 63 36 && fieldOf raw 255 224 == es.length &&
        fieldOf raw 223 208 == (groupsOf t).length && fieldOf raw 95 64 == tableCrc raw es &&
        decide (t.length ≤ 1048576) && tableOk t then some t
    else none

end Sys2Proof.Machine
end

