-- ==== Sys2Proof/Machine/TokenLog.lean ====
section
/-! DEFINITION. Token-log segments and the sampler state as they leave the module and arrive at another: headers,
entries, crc and the checks of their reader (R216, R217, R241, R379). -/

namespace Sys2Proof.Machine

/-! ## Values of the fields (R204, R216, R379) -/

/-- A status's value (R379). -/
def statusCode : Status → Nat
  | .ok => 0 | .cancelled => 1 | .expired => 2 | .tallyEmpty => 3 | .epochStale => 4 | .pageMissing => 5
  | .blockCorrupt => 6 | .tierLate => 7 | .noCapacity => 8 | .badDescriptor => 9 | .notFound => 10
  | .windowRevoked => 11 | .unitQuarantined => 12 | .rebuilt => 13 | .benchHalted => 14 | .alreadyDone => 15

/-- The status of a value; a value the module does not know counts as a refusal for want of room. -/
def statusOf : Nat → Status
  | 0 => .ok | 1 => .cancelled | 2 => .expired | 3 => .tallyEmpty | 4 => .epochStale | 5 => .pageMissing
  | 6 => .blockCorrupt | 7 => .tierLate | 9 => .badDescriptor | 10 => .notFound | 11 => .windowRevoked
  | 12 => .unitQuarantined | 13 => .rebuilt | 14 => .benchHalted | 15 => .alreadyDone | _ => .noCapacity

/-- A request state's value (R204). -/
def reqStateCode : ReqState → Nat
  | .prefill => 0 | .hauling => 1 | .generating => 2 | .tallyWait => 3 | .suspended => 4 | .rebuilding => 5 | .held => 6
  | .ended => 7

/-- A segment kind's value (R216). -/
def segKindCode : SegKind → Nat
  | .tokens => 0 | .params => 1 | .request => 2 | .fin => 3

/-- The kind of a value; others are refused. -/
def segKindOf : Nat → Option SegKind
  | 0 => some .tokens | 1 => some .params | 2 => some .request | 3 => some .fin | _ => none

/-! ## Entries -/

/-- The n-byte value at place i of a run of bytes. -/
def leAt (l : List Byte) (i n : Nat) : Nat := leNat ((l.drop i).take n)

/-- An automaton table's bytes (R234). -/
def autoBytes (a : Automaton) : List Byte :=
  leBytes 32 a.hdr.toNat ++ a.states.flatMap (fun x => leBytes 8 x.toNat) ++ a.ranges.flatMap (fun x => leBytes 16 x.toNat)

/-- The automaton table that bytes spell. -/
def autoOf (l : List Byte) : Automaton :=
  let h : BitVec 256 := BitVec.ofNat 256 (leAt l 0 32)
  let n := min (fieldOf h 159 128) l.length
  { hdr := h,
    states := (List.range n).map (fun i => BitVec.ofNat 64 (leAt l (32 + 8 * i) 8)),
    ranges := (List.range (min (fieldOf h 191 160) l.length)).map (fun i => BitVec.ofNat 128 (leAt l (32 + 8 * n + 16 * i) 16)) }

/-- The 64-byte request record, with the keeper in force (R216). -/
def requestRaw (r : Req) (keeper : ModuleId) : BitVec 512 :=
  let dl := r.deadline.getD ⟨0, 0⟩
  let dest := r.dest.getD (0, 0)
  BitVec.ofNat 512 ((if r.deadline.isSome then 1 else 0) + (if r.dest.isSome then 2 else 0) +
    (if r.releaseOnEnd then 4 else 0) + (if r.speculate then 8 else 0) + dest.2 % 16 * 2 ^ 300 + keeper.toNat * 2 ^ 304 +
    dest.1.toNat * 2 ^ 320 + r.maxNew % 2 ^ 16 * 2 ^ 336 + r.inputCount % 2 ^ 32 * 2 ^ 352 + r.firstInput % 2 ^ 32 * 2 ^ 384 +
    dl.off % 2 ^ 32 * 2 ^ 416 + dl.tick % 2 ^ 64 * 2 ^ 448)

/-- The request that a record names (R216, R223). -/
def requestOf (raw : BitVec 512) (conv key : Nat) : Req :=
  { key := key, conv := conv, firstInput := fieldOf raw 415 384, inputCount := fieldOf raw 383 352,
    maxNew := fieldOf raw 351 336, deadline := if bitOf raw 0 then some ⟨fieldOf raw 511 448, fieldOf raw 447 416⟩ else none,
    dest := if bitOf raw 1 then some (BitVec.ofNat 16 (fieldOf raw 335 320), fieldOf raw 303 300) else none,
    releaseOnEnd := bitOf raw 2, speculate := bitOf raw 3 }

/-- The entries of a segment (R216). -/
def segEntries (g : Segment) : List Byte :=
  match g.kind with
  | .tokens => g.toks.flatMap (fun t => leBytes 4 (t.tok % 2 ^ 30 + if t.gen then 2 ^ 31 else 0))
  | .params => match g.record with
    | some r => leBytes 192 r.params.toNat ++ ((r.auto.map autoBytes).getD [])
    | none => []
  | .request => match g.record with
    | some r => leBytes 64 (requestRaw r g.keeper).toNat
    | none => []
  | .fin => leBytes 16 (statusCode g.status + g.answers % 2 ^ 32 * 2 ^ 96)

/-! ## Segments as messages carry them (R216, R217) -/

/-- CRC-32C over a header with its crc field [127:96] zero, and the entries. -/
def segCrc (h : BitVec 384) (entries : List Byte) : Nat :=
  crc32c ((leBytes 48 (h.toNat - fieldOf h 127 96 * 2 ^ 96) ++ entries).map (·.toNat))

/-- The header of a segment, crc 0. -/
def segHdr0 (g : Segment) (count : Nat) : BitVec 384 :=
  BitVec.ofNat 384 (0x4C47 + 2 ^ 16 + segKindCode g.kind * 2 ^ 32 + g.seq % 2 ^ 32 * 2 ^ 40 + count % 2 ^ 32 * 2 ^ 128 +
    (if g.kind = .tokens then g.first % 2 ^ 32 * 2 ^ 160 else 0) + g.tick % 2 ^ 64 * 2 ^ 192 + g.req % 2 ^ 64 * 2 ^ 256 +
    g.conv % 2 ^ 64 * 2 ^ 320)

/-- A segment as it is sent and read out: header with crc, and entries padded with zeros to a multiple of 32 bytes. -/
def segMsg (g : Segment) : SegMsg :=
  let es := segEntries g
  let h := segHdr0 g (if g.kind = .tokens then g.toks.length else es.length)
  { hdr := BitVec.ofNat 384 (h.toNat + segCrc h es * 2 ^ 96),
    body := es ++ List.replicate (32 * ceilDiv (48 + es.length) 32 - 48 - es.length) 0,
    recording := g.recording }

/-- Bytes of entries a header names. -/
def segLen (h : BitVec 384) : Nat := if fieldOf h 39 32 = 0 then 4 * fieldOf h 159 128 else fieldOf h 159 128

/-- The segment a message carries; none where a check of R216 fails. -/
def segOf (m : SegMsg) : Option Segment :=
  let h := m.hdr
  let n := segLen h
  let es := m.body.take n
  match segKindOf (fieldOf h 39 32) with
  | none => none
  | some k =>
    let sizeOk := match k with
      | .tokens => true
      | .params => decide (192 ≤ n)
      | .request => n == 64
      | .fin => n == 16
    if fieldOf h 15 0 == 0x4C47 && fieldOf h 31 16 == 1 && zeroAt h 95 72 && sizeOk &&
        m.body.length + 48 == 32 * ceilDiv (48 + n) 32 && (m.body.drop n).all (· == 0) && fieldOf h 127 96 == segCrc h es then
      let c := fieldOf h 383 320
      let r := fieldOf h 319 256
      some {
        conv := c, req := r, tick := fieldOf h 255 192, first := fieldOf h 191 160, seq := fieldOf h 71 40, kind := k,
        toks := if k = .tokens then (List.range (fieldOf h 159 128)).map (fun i =>
          let w := leAt es (4 * i) 4
          { tok := w % 2 ^ 30, gen := w.testBit 31 }) else [],
        record := match k with
          | .params => some { key := r, conv := c, params := BitVec.ofNat 1536 (leAt es 0 192),
                              auto := if n = 192 then none else some (autoOf (es.drop 192)) }
          | .request => some (requestOf (BitVec.ofNat 512 (leAt es 0 64)) c r)
          | _ => none,
        keeper := if k = .request then BitVec.ofNat 16 (leAt es 38 2) else 0,
        answers := if k = .fin then leAt es 12 4 else 0,
        status := if k = .fin then statusOf (leAt es 0 1) else .ok,
        recording := m.recording }
    else none

/-- Every segment of a log; none where one fails. -/
def segsOf : List SegMsg → Option (List Segment)
  | [] => some []
  | m :: l => match segOf m, segsOf l with
    | some g, some r => some (g :: r)
    | _, _ => none

/-- The token log that segments hold, in their order (R217). -/
def logOf (gs : List Segment) : List LogTok := (gs.filter (fun g => g.kind == .tokens)).flatMap (·.toks)

/-! ## The sampler state's header (R241) -/

/-- The state a SUSPENDED request resumes to (R205). -/
def resumedState (r : Req) : ReqState := if r.left = .tallyWait then .generating else r.left

/-- The 64-byte header of a request's sampler state: `next` is the position of the next token, `hidden` the values of
the carried row. -/
def samplerHdr (r : Req) (next hidden : Nat) : BitVec 512 :=
  BitVec.ofNat 512 (0x5353 + 2 ^ 16 + (if r.state = .suspended then reqStateCode (resumedState r) else 0) * 2 ^ 32 +
    r.waitTok.length % 2 ^ 8 * 2 ^ 40 + hidden % 2 ^ 32 * 2 ^ 288 + next % 2 ^ 32 * 2 ^ 320 + r.autoState % 2 ^ 32 * 2 ^ 352 +
    r.answers % 2 ^ 32 * 2 ^ 384 + r.producer % 2 ^ 32 * 2 ^ 416 + r.ringAddr % 2 ^ 64 * 2 ^ 448)

/-- A sampler header within R241, for the request it opens. -/
def samplerHdrOk (h : BitVec 512) (r : Req) : Bool :=
  fieldOf h 15 0 == 0x5353 && fieldOf h 31 16 == 1 && zeroAt h 287 48 && fieldOf h 47 40 == r.waitTok.length &&
    decide (fieldOf h 47 40 ≤ 5)

/-- The request as a header and what follows it give it. -/
def samplerReq (h : BitVec 512) (r : Req) : Req :=
  { r with ringAddr := fieldOf h 511 448, producer := fieldOf h 447 416, answers := fieldOf h 415 384,
           autoState := fieldOf h 383 352 }

end Sys2Proof.Machine
end

