-- ==== Sys2Proof/Machine/Hauls.lean ====
section
/-! DEFINITION. Hauls at their source and destination, pulls and evacuations (R158, R169, R205, R211 to R215, R224,
R226, R332, R526, R528). -/

namespace Sys2Proof.Machine

/-! ## Messages (R212) -/

def purposeCode : Purpose → Nat
  | .handoff => 0 | .park => 1 | .pull => 2 | .restore => 3

def purposeOf (n : Nat) : Option Purpose :=
  if n = 0 then some .handoff else if n = 1 then some .park else if n = 2 then some .pull
  else if n = 3 then some .restore else none

def hmConv (m : HaulMsg) : Nat := fieldOf m.hdr 255 192
def hmReq (m : HaulMsg) : Nat := fieldOf m.hdr 191 128
def hmId (m : HaulMsg) : Nat := fieldOf m.hdr 127 96
def hmSrc (m : HaulMsg) : ModuleId := BitVec.ofNat 16 (fieldOf m.hdr 95 80)
def hmBench (m : HaulMsg) : Nat := fieldOf m.hdr 79 76
def hmPurpose (m : HaulMsg) : Nat := fieldOf m.hdr 75 72
def hmKind (m : HaulMsg) : Nat := fieldOf m.hdr 71 64
def hmFp (m : HaulMsg) : Nat := fieldOf m.hdr 63 32
def hmStatus (m : HaulMsg) : Nat := fieldOf m.hdr 31 24

/-- A haul header (R212). -/
def haulHdr (conv req id : Nat) (src : ModuleId) (bench : Nat) (p : Purpose) (kind fp : Nat) (st : Nat) : BitVec 256 :=
  BitVec.ofNat 256 (0x484C + st * 2 ^ 24 + fp % 2 ^ 32 * 2 ^ 32 + kind * 2 ^ 64 + purposeCode p * 2 ^ 72 +
    bench % 16 * 2 ^ 76 + src.toNat * 2 ^ 80 + id % 2 ^ 32 * 2 ^ 96 + req % 2 ^ 64 * 2 ^ 128 + conv % 2 ^ 64 * 2 ^ 192)

/-- The header keeps R212: magic, reserved bits, a known kind; any other is discarded and logged (R186, R212). -/
def hmOk (m : HaulMsg) (kind : Nat) : Bool :=
  fieldOf m.hdr 15 0 == 0x484C && zeroAt m.hdr 23 16 && hmKind m == kind && (kind == 2 || hmStatus m == 0)

/-- The answer to a message: its own header with another kind and status. -/
def reply (m : HaulMsg) (kind st : Nat) (body : HaulBody) : HaulMsg :=
  ⟨BitVec.ofNat 256 (m.hdr.toNat - hmKind m * 2 ^ 64 - hmStatus m * 2 ^ 24 + kind * 2 ^ 64 + st * 2 ^ 24), body⟩

/-! ## The source (R213) -/

def srcHaul (s : State) (id : Nat) : Option SrcHaul := tget s.haul.out id

/-- A group of a conversation whose own pages are all SEALED (R153). -/
def groupSealed (s : State) (k g : Nat) : Bool :=
  match conv s k with
  | some c => c.entries.all (fun e => e.group != g || !isOwn e || e.state == .sealed)
  | none => true

/-- What a haul of a conversation carries: its own pages with no other reference, a group together (R153); a pull
without pull_all leaves the sealed groups (R169, R209, R211). -/
def carries (s : State) (h : SrcHaul) (e : Entry) : Bool :=
  isLocal s e && e.state != .replica && decide (e.refs ≤ 1) &&
    (match h.purpose with
     | .pull => h.pullAll || !groupSealed s h.conv e.group
     | .restore => !groupSealed s h.conv e.group
     | _ => true)

/-- The table as the destination will hold it: what is carried local to it, what stays REMOTE here (R169). -/
def movedTable (s : State) (h : SrcHaul) (c : Conv) : Conv :=
  { c with
    home := true, req := none, frozen := none, newSegs := [], segs := [], log := [], recs := [], bench := h.dstBench,
    pend := none, state := .idle,
    entries := c.entries.map (fun e =>
      if e.state = .replica then { e with key := default, value := default }
      else if carries s h e then { e with tier := .hbm, refs := 1, pageId := shownId e, key := default, value := default }
      else if e.tier = .remote then
        (if e.holder = h.dst then { e with tier := .lpddr, shared := sharedBit s e } else { e with shared := sharedBit s e })
      else { e with
        tier := .remote, holder := s.fab.self, pageId := shownId e, shared := sharedBit s e, key := default,
        value := default }) }

/-- The header of a message of haul `id`. -/
def outHdr (s : State) (id : Nat) (h : SrcHaul) (kind : Nat) : BitVec 256 :=
  haulHdr h.conv h.req id s.fab.self h.dstBench h.purpose kind
    (((conv s h.conv).map (·.fpTag)).getD 0) 0

/-- OFFER sent: bytes, entries and groups to be carried, and the flags (R212). -/
def sendOffer (s : State) (id : Nat) : State :=
  match srcHaul s id with
  | none => s
  | some h =>
    match conv s h.conv with
    | none => s
    | some c =>
      let es := c.entries.filter (carries s h)
      let bytes := es.foldl (fun a e => a + pageBytes e) 0 + (c.recs.map recSlot).sum + 64 + 16 * c.entries.length +
        (c.segs.map segBytes).sum
      let r := req s h.req
      let s1 := { s with haul := { s.haul with out := tput s.haul.out id { h with offered := s.time.now } } }
      send s1 h.dst (some h.bench) (.haul ⟨outHdr s id h 0,
        .offer bytes es.length ((es.map (·.group)).eraseDups.length) c.record
          ((r.map (·.speculate)).getD false) (match r with | some x => reqLive x.state | none => false)⟩)

/-- A haul set off (R213 step 1): the conversation frozen, a live request HAULING with the state it left, moves of its
writable data discarded (R280). OFFER follows. -/
def startHaul (s : State) (k : Nat) (p : Purpose) (dst : ModuleId) (dstBench : Nat) (auto evac pullAll : Bool)
    (cpl : Option Cpl) : State :=
  match conv s k with
  | none => s
  | some c =>
    let id := s.haul.nextId
    let rk := match c.req with
      | some r => r
      | none => (suspendedOf s k).getD 0
    let h : SrcHaul := { conv := k, req := rk, purpose := p, dst := dst, dstBench := dstBench, auto := auto,
                         evac := evac, pullAll := pullAll, cpl := cpl, bench := c.bench }
    let s1 := { s with
      haul := { s.haul with out := tput s.haul.out id h, nextId := (id + 1) % 2 ^ 32 },
      tier := { s.tier with
        moves := s.tier.moves.filter (fun m => !(m.2.page.conv == k && m.2.writable)),
        ready := s.tier.ready.filter (fun m => m.page.conv != k) } }
    let s2 := modConv s1 k (fun c => { c with frozen := some id })
    match c.req with
    | some r => modReq s2 r (fun x => { x with state := .hauling, left := x.state })
    | none => s2

/-- The haul id a conversation is frozen for. -/
def frozenFor (s : State) (k : Nat) : Option Nat := (conv s k).bind (·.frozen)

/-- A haul fails (R205, R215): an automatic handoff holds the request and writes a hold record, any other returns it
to the state it left; the descriptor completes with the refusal. -/
def haulFail (s : State) (id : Nat) (st : Status) (n : Nat) : State :=
  match srcHaul s id with
  | none => s
  | some h =>
    let s1 := { s with haul := { s.haul with out := tdel s.haul.out id } }
    let s2 := modConv s1 h.conv (fun c => { c with frozen := none })
    let s3 := match req s2 h.req with
      | some r =>
        if r.state = .hauling then
          if h.auto ∧ h.purpose = .handoff then
            let hold : FinalWait := { req := h.req, bench := r.bench,
                                      tok := { status := .noCapacity, tickLo := n % 2 ^ 15 } }
            let s' := putReq s2 { r with state := .held }
            if s'.work.holds.any (fun w => w.req == h.req) then s'
            else { s' with work := { s'.work with holds := s'.work.holds ++ [hold] } }
          else putReq s2 { r with state := r.left }
        else s2
      | none => s2
    match h.cpl with
    | some c => due s3 c st h.conv n
    | none => s3

/-- OFFER again under a new haul_id, while tries remain; otherwise the haul ends refused at its commit (R215; log
entry 9). -/
def retryHaul (s : State) (id : Nat) (st : Status) (t : Stamp) : State :=
  match srcHaul s id with
  | none => s
  | some h =>
    if h.tries + 1 < bnF s h.bench 0xA8 19 16 then
      let id' := s.haul.nextId
      let s1 := { s with haul := { s.haul with
        out := tput (tdel s.haul.out id) id' { h with tries := h.tries + 1 }, nextId := (id' + 1) % 2 ^ 32 } }
      sendOffer (modConv s1 h.conv (fun c => { c with frozen := some id' })) id'
    else
      let s1 := logErr s .message 3 (b := h.bench) (d0 := h.conv) (d1 := id)
      { s1 with haul := { s1.haul with out := tput s1.haul.out id { h with ended := some (t, st), aborted := true } } }

/-- A landed event that ends the request or releases the conversation, stamped before s and not yet applied, or a
deadline stamped before s (R226). -/
def endsPending (s : State) (h : SrcHaul) (t : Stamp) : Bool :=
  s.host.landed.any (fun l =>
    match l.raw with
    | some r => stampLt l.cpl.stamp t &&
        ((fieldOf r 7 0 == 0x22 && fieldOf r 127 64 == h.req && h.req != 0) ||
         (fieldOf r 7 0 == 0x25 && fieldOf r 191 128 == h.conv))
    | none => false) ||
  (match (req s h.req).bind (·.deadline) with
   | some d => stampLt d t
   | none => false)

/-- The home moves at the ACK's stamp (R213 step 7): everything carried is freed here, what stays becomes a holder
table, the request leaves, and its binding and hold record with it unless the haul stays on this module (R199, R243,
R247); FREED is sent. -/
def homeMoves (s : State) (id : Nat) (h : SrcHaul) (t : Stamp) : State :=
  match conv s h.conv with
  | none => s
  | some c =>
    let keep := c.entries.filter (fun e => isLocal s e && e.state != .replica && !carries s h e)
    let gone := c.entries.filter (fun e => carries s h e)
    let s1 := gone.foldl (fun s e => forgetPage s (entryPage e h.conv)) s
    let kept (e : Entry) : Bool := keep.any (fun x => entryIs x (entryPage e h.conv))
    let bench := c.bench
    let s2 := if keep.isEmpty then delConv s1 h.conv
      else putConv s1 { c with
        home := false, homeAt := h.dst, req := none, frozen := none, pend := none, entries := c.entries.filter kept, recs := [],
        log := [], newSegs := [], segs := [] }
    let away := h.dst != s.fab.self
    let holds := (s2.work.holds.filter (fun w => away && w.req == h.req && h.req != 0)).length
    let s3 := { s2 with
      work := { s2.work with
        reqs := tdel s2.work.reqs h.req, binds := if away then tdel s2.work.binds h.req else s2.work.binds,
        holds := s2.work.holds.filter (fun w => !away || w.req != h.req || h.req == 0) },
      haul := { s2.haul with
        out := tput s2.haul.out id { h with ended := some (t, .ok) },
        freed := (s2.haul.freed.filter (fun f => decide (t.tick ≤ f.2.1 + 64))) ++ [(id, t.tick, t)],
        gone := tput s2.haul.gone h.conv { home := h.dst, bench := h.dstBench, req := h.req, moved := t } } }
    let s4 := freeAutos (count s3 (bn bench 0x4F8) holds) bench
    send s4 h.dst (some bench) (.haul ⟨outHdr s id h 5, .freed t⟩)

/-! ## The destination (R213) -/

/-- The conversation, where this module is its home. -/
def convHome (s : State) (k : Nat) : Option Conv :=
  match conv s k with
  | some c => if c.home then some c else none
  | none => none

/-- The haul in of a source and number. -/
def dstHaul (s : State) (id : Nat) (src : ModuleId) : Option DstHaul :=
  (s.haul.inn.find? (fun h => h.1 == id && h.2.src == src)).map (·.2)

/-- The haul in changed. -/
def setDst (s : State) (id : Nat) (src : ModuleId) (f : DstHaul → DstHaul) : State :=
  { s with haul := { s.haul with inn := s.haul.inn.map (fun h =>
      if h.1 = id ∧ h.2.src = src then (h.1, f h.2) else h) } }

/-- The haul in discarded: its reserved and written state (R215). -/
def dropDst (s : State) (id : Nat) (src : ModuleId) : State :=
  { s with haul := { s.haul with inn := s.haul.inn.filter (fun h => !(h.1 == id && h.2.src == src)) } }

/-- Record flags agree: a CACHE bench holds either kind, a module that lists no record capability none (R173). -/
def recordOk (s : State) (b : Nat) (r : Bool) : Bool :=
  if s.stock = .mc then !r
  else role s b == 2 || (bnF s b 0x98 0 0 == 1) == r

/-- Room an OFFER takes on bench b: what it names, and a pending area (R213 step 3). -/
def offerBytes (s : State) (b bytes : Nat) (speculate : Bool) : Nat :=
  bytes + (if speculate then pendingBytes (manOf s b) (kvBitsOf s b) else 0)

/-- The refusal an OFFER meets at bench b, if any (R213 step 3, R528). -/
def offerRefusal (s : State) (m : HaulMsg) (p : Purpose) (bytes : Nat) (record speculate live : Bool) :
    Option Status :=
  let b := hmBench m
  let r := role s b
  let pulled := s.haul.pulls.any (fun q => q.conv == hmConv m && q.bench == b)
  let here := match conv s (hmConv m) with | some c => c.home && c.bench == b | none => false
  let roleOk := match p with
    | .handoff => if live then servesState r .generating false else r == 1 || r == 2 || r == 3
    | .park => isCacheOrMixed r
    | .restore => pulled || here
    | .pull => pulled
  let fpOk := match p with
    | .handoff => benchTag s b == hmFp m
    | .park => benchTag s b == hmFp m
    | _ => true
  let known := match conv s (hmConv m) with
    | some c => c.home && hmSrc m != s.fab.self && p != .restore
    | none => false
  if inKeep s then some .benchHalted
  else if !hasRecord s b then some .benchHalted
  else if !roleOk || known || !recordOk s b record then some .badDescriptor
  else if (bench s b).state != .ready then some .benchHalted
  else if !fpOk then some .badDescriptor
  else if !headerFor s (hmConv m) || !hasSpace s b (offerBytes s b bytes speculate) || !contextRoom s ||
      (speculate && !pendingRoom s b (pendingBytes (manOf s b) (kvBitsOf s b))) then some .noCapacity
  else none

/-- ACK is never sent within the last 40 µs before the cut-off (R213 step 6). -/
def ackAllowed (s : State) (t : Stamp) : Bool :=
  !(decide (t.off < cutoffOff s) && decide (cutoffOff s ≤ t.off + 40000))

/-- The header of a message from this destination. -/
def inHdr (id : Nat) (h : DstHaul) (kind st : Nat) : BitVec 256 :=
  haulHdr h.conv h.req id h.src h.bench h.purpose kind ((h.table.map (·.fpTag)).getD 0) st

/-- ACK sent, when its instant allows. -/
def sendAck (s : State) (id : Nat) (src : ModuleId) : State :=
  match dstHaul s id src with
  | some h =>
    if h.written && ackAllowed s s.time.now then
      send (setDst s id src (fun h => { h with ackSent := true, acked := s.time.now })) src none
        (.haul ⟨inHdr id h 4 0, .none⟩)
    else s
  | none => s

/-- The pages a haul brought, placed in this module's tiers under IDs of its own (R80, R213). -/
def placeEntries (s : State) (b : Nat) (es : List Entry) : State × List Entry :=
  es.foldl (fun a e =>
    let (s1, id) := newPageId a.1
    (s1, a.2 ++ [{ e with
      tier := placeTier a.1 b (pageBytes e), holder := s.fab.self, bench := b, cell := none, pageId := id, extentOff := 0,
      shared := false, refs := 1 }])) (s, [])

/-- A carried request at the destination (R205): GENERATING after a handoff, SUSPENDED after a park, as it was
otherwise. -/
def arriveReq (r : Req) (p : Purpose) (b : Nat) : Req :=
  match p with
  | .handoff => { r with bench := b, state := .generating, dest := none }
  | .park => { r with bench := b, state := .suspended, left := if r.state = .hauling then r.left else r.state }
  | _ => { r with bench := b }

/-- A fit comes before another in the queue: by the commit that sealed its page, then layer, KV head, KEY first
(R127). -/
def fitBefore (a b : FitItem) : Bool :=
  decide (a.tick < b.tick) || (a.tick == b.tick && (decide (a.page.layer < b.page.layer) ||
    (a.page.layer == b.page.layer && (decide (a.page.head < b.page.head) ||
      (a.page.head == b.page.head && !a.isValue && b.isValue)))))

/-- A fit into its place in the queue. -/
def insFit (f : FitItem) : List FitItem → List FitItem
  | [] => [f]
  | x :: l => if fitBefore f x then f :: x :: l else x :: insFit f l

/-- SEALING pages join the fit queue; of a page hauled with one half fitted, the other half alone (R127, R129). -/
def joinFits (s : State) (b k : Nat) (es : List Entry) (n : Nat) : State :=
  let new := (es.filter (fun e => e.state == .sealing)).flatMap (fun e =>
    (if e.key.final then [] else [({ page := entryPage e k, isValue := false, tick := n } : FitItem)]) ++
      (if e.value.final then [] else [{ page := entryPage e k, isValue := true, tick := n }]))
  setBench s b (fun x => { x with fits := new.foldl (fun l f => insFit f l) x.fits })

/-- A restore at a home that still holds the conversation (R222, R224): the groups beyond what it kept come from the
checkpoint and the keeper, and the rest is re-prefilled. -/
def restoreHere (s0 : State) (h : DstHaul) (c0 cur : Conv) (n : Nat) : State :=
  if c0.length ≤ cur.length then s0
  else
    let far (e : Entry) : Bool := decide (cur.length ≤ 64 * e.group)
    let (s1, placed) := placeEntries s0 h.bench (h.entries.filter far)
    let rest := c0.entries.filter (fun e => far e && e.tier == .remote && e.state != .replica)
    let s2 := putConv s1 { cur with
      entries := cur.entries ++ (placed ++ rest), length := c0.length,
      recs := cur.recs ++ h.recs.filter (fun r => decide (cur.length ≤ r.locator)) }
    let s3 := joinFits s2 h.bench h.conv placed n
    let s4 := match cur.req.bind (req s3) with
      | some r =>
        let left := r.rebuildLeft - (c0.length - cur.length)
        putReq s3 { r with
          rebuildLeft := left, recovered := some c0.length,
          state := if left = 0 ∧ r.state = .rebuilding then stateAfterRebuild r else r.state }
      | none => s3
    count s4 (bn h.bench 0x4C8) 1

/-- A rebuild on this module is counted, with the steps it recomputes (R225, R420). -/
def countRebuild (s : State) (h : DstHaul) (r : Option Req) (c : Conv) (n : Nat) : State :=
  match h.purpose, r with
  | .restore, some x =>
    let s1 := countHalf (countLost s x { c with length := c.log.length } c.length n) (bn h.bench 0x4C0) false 1
    if c.length = 0 then s1 else count s1 (bn h.bench 0x4C8) 1
  | _, _ => s

/-- A haul takes effect at the destination at commit n (R213 step 8): table, log and request become this module's, the
keeper is told and sent the tail, holders are told of a new state, a waiting pull is effective. -/
def applyHaul (s : State) (id : Nat) (h : DstHaul) (n : Nat) : State :=
  match h.table with
  | none => dropDst s id h.src
  | some c0 =>
    match (if h.purpose = .restore then convHome s h.conv else none) with
    | some cur => restoreHere (dropDst s id h.src) h c0 cur n
    | none =>
    let (s1, placed) := placeEntries (dropDst s id h.src) h.bench h.entries
    let own (e : Entry) : Option Entry :=
      (conv s h.conv).bind (fun c => c.entries.find? (fun x => entryIs x (entryPage e h.conv) && isLocal s x &&
        (x.state == .replica) == (e.state == .replica)))
    let es := c0.entries.map (fun e =>
      if e.state = .replica then (if e.holder = s.fab.self then (own e).getD e else e)
      else match placed.find? (fun p => entryIs p (entryPage e h.conv)) with
        | some p => p
        | none =>
          if e.tier = .remote ∧ e.holder ≠ s.fab.self then e
          else match own e with
            | some x => x
            | none => if e.tier = .remote then e else { e with tier := .remote, holder := h.src })
    let r := h.sampler.map (fun r => arriveReq r h.purpose h.bench)
    let live := match r with | some x => reqLive x.state | none => false
    let st : ConvState := if live then .active else if h.purpose = .park then .parked
      else if c0.state = .parked ∧ h.purpose = .pull ∧ r.isSome then .parked else .idle
    let gs := h.log.getD []
    let c : Conv := { c0 with
      key := h.conv, bench := h.bench, home := true, entries := es, recs := h.recs, segs := gs, log := logOf gs,
      state := st, req := if live then r.map (·.key) else none, lastTick := n, frozen := none, newSegs := [] }
    let s2 := putConv s1 c
    let s3 := match r with
      | some x =>
        let s' := putReq s2 x
        (match bindOf s' x.key with
         | some bd => if bd.ringAddr = x.ringAddr ∧ x.ringAddr ≠ 0 then
             { s' with work := { s'.work with binds := tput s'.work.binds x.key { bd with producer := x.producer } } }
           else s'
         | none => s')
      | none => s2
    let s4 := joinFits s3 h.bench h.conv es n
    let s5 := send s4 c.keeper (some h.bench) (.newHome h.conv)
    let s6 := (c.segs.filter (fun g => decide (c.acked ≤ g.seq))).foldl (fun s g =>
      send s c.keeper (some h.bench) (.segment (segMsg g))) s5
    let s7 := (remoteHolders c).foldl (fun s x => send s x (some h.bench) (.stateNotice h.conv st)) s6
    let s8 := { s7 with haul := { s7.haul with
      gone := tdel s7.haul.gone h.conv,
      pulls := s7.haul.pulls.map (fun q => if q.conv = h.conv then { q with effective := true } else q) } }
    promoteToFloor (countRebuild (takePending s8 h.conv) h r c n) h.conv s.time.now

/-- REQUEST sent to a conversation's home, once per descriptor (R211). -/
def startPull (s : State) (k : Nat) (home : ModuleId) (b : Nat) (pullAll : Bool) (cpl : Cpl) (d : HostDesc) : State :=
  if s.haul.pulls.any (fun q => q.cpl == cpl) then s
  else
    let s1 := { s with haul := { s.haul with pulls := s.haul.pulls ++
      [{ conv := k, home := home, bench := b, cpl := cpl, landed := d }] } }
    send s1 home (some b) (.haul ⟨haulHdr k 0 0 s.fab.self b .pull 7 (benchTag s b) 0, .request pullAll⟩)

/-! ## The commands -/

/-- HAUL_REQUEST (R82, R209, R211): the home starts a haul of purpose PULL, or refuses; a striped conversation moves
to no other module. In Keep mode it is answered ST_BENCH_HALTED (R426). -/
def haulRequest (t : Stamp) (m : HaulMsg) (s : State) : State :=
  let no (st : Status) : State := send s (hmSrc m) none (.haul (reply m 2 (statusCode st) (.refuse none)))
  if !hmOk m 7 then malformed s
  else if inKeep s then no .benchHalted
  else
    match purposeOf (hmPurpose m) with
    | none => no .badDescriptor
    | some _ =>
      match conv s (hmConv m) with
      | none => no .notFound
      | some c =>
        if !c.home then no .notFound
        else if c.frozen.isSome || c.state == .active || c.stripe.isSome then no .badDescriptor
        else
          let all := match m.body with | .request a => a | _ => false
          let id := s.haul.nextId
          sendOffer (startHaul (s.at t) (hmConv m) .pull (hmSrc m) (hmBench m) false false all none) id

def execHaulRequest (t : Stamp) (m : HaulMsg) (s : State) : Host.Outcome State Fault Refusal := runLink t (haulRequest t m) s

/-- HAUL_OFFER (R213 step 3): ACCEPT with room reserved, or REFUSE. -/
def haulOffer (m : HaulMsg) (s : State) : State :=
  let no (st : Status) : State := send s (hmSrc m) none (.haul (reply m 2 (statusCode st) (.refuse none)))
  if !hmOk m 0 then malformed s
  else
    match purposeOf (hmPurpose m), m.body with
    | some p, .offer bytes entries _ record speculate live =>
      match offerRefusal s m p bytes record speculate live with
      | some st => no st
      | none =>
        let h : DstHaul := { src := hmSrc m, conv := hmConv m, req := hmReq m, purpose := p, bench := hmBench m,
                             speculate := speculate, record := record, live := live, offered := entries,
                             bytes := offerBytes s (hmBench m) bytes speculate }
        send { s with haul := { s.haul with inn := s.haul.inn.filter (fun x =>
            !(x.1 == hmId m && x.2.src == hmSrc m)) ++ [(hmId m, h)] } }
          (hmSrc m) none (.haul (reply m 1 0 .none))
    | none, _ => no .badDescriptor
    | _, _ => malformed s

def execHaulOffer (t : Stamp) (m : HaulMsg) (s : State) : Host.Outcome State Fault Refusal := runLink t (haulOffer m) s

/-- The request of a haul as its sampler state travels (R241). -/
def samplerOf (s : State) (h : SrcHaul) : Option Req :=
  if h.given.isSome then h.given else (req s h.req).map (fun r =>
    let b := bindOf s h.req
    { r with ringAddr := (b.map (·.ringAddr)).getD 0, producer := (b.map (·.producer)).getD 0,
             state := if r.state = .hauling then r.left else r.state })

/-- HAUL_ACCEPT (R213 step 4): the DATA messages in order, pages group by group, records, table, log, sampler. -/
def haulAccept (m : HaulMsg) (s : State) : State :=
  if !hmOk m 1 then malformed s
  else
    match srcHaul s (hmId m) with
    | none => s
    | some h =>
      if h.aborted || h.ended.isSome then s
      else
        match conv s h.conv with
        | none => s
        | some c =>
          let data (s : State) (p : HaulPiece) : State :=
            send s h.dst (some h.bench) (.haul ⟨outHdr s (hmId m) h 3, .data p⟩)
          let es := c.entries.filter (carries s h)
          let s1 := (es.map (·.group)).eraseDups.foldl (fun s g =>
            let es' := es.filter (fun e => e.group == g)
            data (chargePages s h.bench es') (.pages es')) s
          let s2 := if c.recs.isEmpty then s1 else data s1 (.records c.recs)
          let s3 := data (data s2 (.table (tableRaw s (movedTable s h c)).1 (tableRaw s (movedTable s h c)).2 (movedTable s h c)))
            (.log (c.segs.map segMsg))
          match samplerOf s h with
          | some r => data s3 (.sampler (samplerHdr r c.log.length (manQ (manOf s h.bench) * manDim (manOf s h.bench))) r)
          | none => s3

def execHaulAccept (t : Stamp) (m : HaulMsg) (s : State) : Host.Outcome State Fault Refusal := runLink t (haulAccept m) s

/-- HAUL_REFUSE (R205, R211, R215): a damaged block is treated as a rejection here and the haul tried again; any other
refusal ends it at its commit. A puller's REQUEST refused ends its descriptor at its commit. -/
def haulRefuse (reject : State → PageRef → State) (t : Stamp) (m : HaulMsg) (s : State) : State :=
  let st := statusOf (hmStatus m)
  if !hmOk m 2 then malformed s
  else
    match srcHaul s (hmId m) with
    | some h =>
      if h.conv = hmConv m ∧ hmSrc m = s.fab.self ∧ !h.aborted ∧ h.ended.isNone then
        if st = .blockCorrupt then
          let bad := match m.body with | .refuse (some i) => some i | _ => none
          let s1 := match bad, conv s h.conv with
            | some i, some c =>
              (match (c.entries.filter (carries s h))[i]? with
               | some e => reject s (entryPage e h.conv)
               | none => s)
            | _, _ => s
          retryHaul s1 (hmId m) st t
        else { s with haul := { s.haul with out := tput s.haul.out (hmId m) { h with ended := some (t, st) } } }
      else { s with haul := { s.haul with pulls := s.haul.pulls.map (fun q =>
          if q.conv = hmConv m ∧ !q.effective then { q with refusedBy := some (t, st) } else q) } }
    | none => { s with haul := { s.haul with pulls := s.haul.pulls.map (fun q =>
          if q.conv = hmConv m ∧ !q.effective then { q with refusedBy := some (t, st) } else q) } }

/-- The first check of R118 that a KEY or VALUE block fails for its page (R107 to R112, R116, R124). A SEALING page
may have one half in its final form (R129). Without the package of its model the reader takes the block's own
dimension, codebook and code width, and the rank that fits the class. -/
def blockCause (e : Entry) (fp : Nat) (pkg : Option Package) (isValue : Bool) (bl : Block) : Option Nat :=
  let d := (pkg.map (fun p => manDim p.manifest)).getD bl.cols
  let cb := pkg.map (fun p => 2 * (e.layer * manKv p.manifest + e.head) + (if isValue then 1 else 0))
  let bits := pkg.map kvBits
  blockFault {
    kind := if isValue then 1 else 0,
    final := (match e.state with
      | .opened => some false
      | .sealing => if bl.rows = 64 then none else some false
      | .sealed => some true
      | _ => none),
    rows := some e.rows, rowsMax := 64, cols := some d, colsMax := 256,
    rankMax := if bl.rows = 64 then rankCeiling e.cls (bits.getD bl.codeBits) d ((pkg.map kvMaxRank).getD 40) else 0,
    room := classBytes e.cls, codeBits := bits, width := pkg.bind (fun p => (p.kvBooks[cb.getD 0]?).map (·.width)),
    cbIndex := cb, locator := 64 * e.group, fpTag := fp } bl

/-- The first check that either block of a page fails, for a reader on bench b. -/
def pageCause (s : State) (b : Nat) (fp : Nat) (e : Entry) : Option Nat :=
  let pkg := if benchTag s b = fp then (bench s b).pkg else none
  match blockCause e fp pkg false e.key with
  | some c => some c
  | none => blockCause e fp pkg true e.value

/-- Both blocks of a page pass. -/
def pageOk (s : State) (b : Nat) (fp : Nat) (e : Entry) : Bool := (pageCause s b fp e).isNone

/-- A rejection on arrival counted and logged (R118, R124). -/
def countReject (s : State) (b conv : Nat) (e : Entry) (cause : Nat) : State :=
  logErr (count s (bn b (0x418 + 8 * cause)) 1) .block cause (b := b) (d0 := conv) (d1 := shownId e)

/-- HAUL_DATA (R124, R162, R213 step 5): what arrived is checked and kept; a failure is counted, logged and refuses
the haul. A sampler part with a broken header is discarded (DEDUCED, log entry 146). -/
def haulData (m : HaulMsg) (s : State) : State :=
  if !hmOk m 3 then malformed s
  else
    match dstHaul s (hmId m) (hmSrc m) with
    | none => s
    | some h =>
      let id := hmId m
      let src := hmSrc m
      let corrupt (s : State) (i : Option Nat) : State :=
        send (dropDst s id src) src none (.haul (reply m 2 (statusCode .blockCorrupt) (.refuse i)))
      match m.body with
      | .data (.pages es) =>
        let n0 := h.entries.length
        (match es.findIdx? (fun e => !pageOk s h.bench (hmFp m) e) with
         | some i =>
           let e := es.getD i default
           corrupt (countReject s h.bench h.conv e ((pageCause s h.bench (hmFp m) e).getD 1)) (some (n0 + i))
         | none =>
           let there := es.map (fun e => { e with tier := placeTier s h.bench (pageBytes e) })
           setDst (chargePages s h.bench there) id src (fun h => { h with entries := h.entries ++ es }))
      | .data (.records rs) =>
        if rs.all (fun r => r.ok (hmFp m)) then setDst s id src (fun h => { h with recs := h.recs ++ rs }) else corrupt s none
      | .data (.table raw es c) =>
        (match tableOf raw es c with
         | some t => if t.key = h.conv then setDst s id src (fun h => { h with table := some t }) else corrupt s none
         | none => corrupt s none)
      | .data (.log l) =>
        (match segsOf l with
         | some gs => setDst s id src (fun h => { h with log := some gs })
         | none => corrupt s none)
      | .data (.sampler x r) =>
        if samplerHdrOk x r then setDst s id src (fun h => { h with sampler := some (samplerReq x r) }) else malformed s
      | _ => malformed s

def execHaulData (t : Stamp) (m : HaulMsg) (s : State) : Host.Outcome State Fault Refusal := runLink t (haulData m) s

/-- Everything the OFFER named has landed, with the table, the log and the sampler state of a request (R212, R213). -/
def haulWhole (h : DstHaul) : Bool :=
  h.table.isSome && h.log.isSome && decide (h.offered ≤ h.entries.length) && (h.req == 0 || h.sampler.isSome)

/-- HAUL_STATE_WRITTEN (R213 step 6, R266): the state is whole, and durable where it lies on flash; ACK is sent. -/
def haulStateWritten (haul : Nat) (src : ModuleId) (s : State) : State :=
  match dstHaul s haul src with
  | some h =>
    if haulWhole h && !(s.tier.writes.any (fun w => w.2.haul == some (haul, src))) then
      sendAck (setDst s haul src (fun h => { h with written := true })) haul src
    else s
  | none => s

def execHaulStateWritten (t : Stamp) (haul : Nat) (src : ModuleId) (s : State) : Host.Outcome State Fault Refusal :=
  run t (haulStateWritten haul src) s

/-- HAUL_ACK (R213 step 7, R215, R226): the home moves, or FREED is repeated, or the ACK is answered ABORT. -/
def haulAck (t : Stamp) (m : HaulMsg) (dst : ModuleId) (s : State) : State :=
  let abort (d : ModuleId) : State := send s d none (.haul (reply m 6 0 .none))
  if !hmOk m 4 then malformed s
  else if inKeep s then abort dst
  else
    match srcHaul s (hmId m) with
    | some h =>
      (match h.ended with
       | some (f, .ok) => send s h.dst (some h.bench) (.haul (reply m 5 0 (.freed f)))
       | some _ => abort h.dst
       | none => if h.aborted || endsPending s h t then abort h.dst else homeMoves s (hmId m) h t)
    | none =>
      match s.haul.freed.find? (fun f => f.1 == hmId m && decide (t.tick ≤ f.2.1 + 64)) with
      | some f => send s dst none (.haul (reply m 5 0 (.freed f.2.2)))
      | none => abort dst

/-- The destination an ACK came from, where the haul is no longer held: the module the conversation went to. -/
def ackFrom (s : State) (m : HaulMsg) : ModuleId :=
  match srcHaul s (hmId m) with
  | some h => h.dst
  | none => ((tget s.haul.gone (hmConv m)).map (·.home)).getD s.fab.self

def execHaulAck (t : Stamp) (m : HaulMsg) (s : State) : Host.Outcome State Fault Refusal :=
  runLink t (fun s => haulAck t m (ackFrom s m) s) s

/-- HAUL_FREED (R213 step 8): the destination holds the stamp s; the haul takes effect at the commit s names. -/
def haulFreed (m : HaulMsg) (s : State) : State :=
  if !hmOk m 5 then malformed s
  else
    match m.body with
    | .freed st => setDst s (hmId m) (hmSrc m) (fun h => if h.freed.isSome then h else { h with freed := some st })
    | _ => malformed s

def execHaulFreed (t : Stamp) (m : HaulMsg) (s : State) : Host.Outcome State Fault Refusal := runLink t (haulFreed m) s

/-- HAUL_ABORT (R215): the destination discards what it reserved and wrote. -/
def haulAbort (m : HaulMsg) (s : State) : State :=
  if !hmOk m 6 then malformed s
  else
    match dstHaul s (hmId m) (hmSrc m) with
    | some h => if h.freed.isSome then s else dropDst s (hmId m) (hmSrc m)
    | none => s

def execHaulAbort (t : Stamp) (m : HaulMsg) (s : State) : Host.Outcome State Fault Refusal := runLink t (haulAbort m) s

/-- HAUL_TIMEOUT (R215): ABORT, then the haul starts again from OFFER, or fails after its tries. -/
def haulTimeout (t : Stamp) (haul : Nat) (s : State) : State :=
  match srcHaul s haul with
  | some h =>
    if h.ended.isSome || h.aborted then s
    else retryHaul (send s h.dst (some h.bench) (.haul ⟨outHdr s haul h 6, .none⟩)) haul .noCapacity t
  | none => s

def execHaulTimeout (t : Stamp) (haul : Nat) (s : State) : Host.Outcome State Fault Refusal :=
  run t (haulTimeout t haul) s

/-- HAUL_ACK_REPEAT (R215): a destination that holds no FREED sends its ACK again. -/
def haulAckRepeat (haul : Nat) (src : ModuleId) (s : State) : State :=
  match dstHaul s haul src with
  | some h => if h.freed.isSome then s else sendAck s haul src
  | none => s

def execHaulAckRepeat (t : Stamp) (haul : Nat) (src : ModuleId) (s : State) : Host.Outcome State Fault Refusal :=
  run t (haulAckRepeat haul src) s

/-- HAUL_SOURCE_UNREACHABLE (R215): the ACKed state is discarded and the event logged; a pull waiting for it finds the
conversation nowhere. -/
def haulSourceUnreachable (t : Stamp) (haul : Nat) (src : ModuleId) (s : State) : State :=
  match dstHaul s haul src with
  | some h =>
    if h.freed.isSome then s
    else
      let s1 := logErr (dropDst s haul src) .message 6 (b := h.bench) (d0 := h.conv) (d1 := haul)
      { s1 with haul := { s1.haul with pulls := s1.haul.pulls.map (fun q =>
          if q.conv = h.conv ∧ !q.effective then { q with refusedBy := some (t, .notFound) } else q) } }
  | none => s

def execHaulSourceUnreachable (t : Stamp) (haul : Nat) (src : ModuleId) (s : State) :
    Host.Outcome State Fault Refusal :=
  run t (haulSourceUnreachable t haul src) s

/-- FREED_WAIT_EXPIRY (R213): step 6 is held no longer; a FREED that comes later takes effect at the next commit. -/
def execFreedWaitExpiry (t : Stamp) (s : State) : Host.Outcome State Fault Refusal := run t (fun s => s) s

end Sys2Proof.Machine
end

