-- ==== Sys2Proof/Machine/Requests.lean ====
section
/-! DEFINITION. The descriptors of requests and conversations (R38 to R40, R167 to R169, R198 to R211, R223, R229 to
R236, R242, R243, R248) and the shape every commit-acting descriptor shares (R10, R34, R372 to R375, R404). -/

namespace Sys2Proof.Machine

/-! ## The shape of a commit-acting descriptor -/

def dOp (d : HostDesc) : Nat := fieldOf d.raw 7 0
/-- The bench a descriptor acts on: the one it names, or the one its conversation is homed on where it was forwarded.
-/
def dBench (d : HostDesc) : Nat := if d.ring < 4096 then fieldOf d.raw 19 16 else d.ring / 256 % 16
def dConv (d : HostDesc) : Nat := fieldOf d.raw 191 128
def dReq (d : HostDesc) : Nat := fieldOf d.raw 127 64

/-- The descriptor's identity for its record. -/
def cplOf (s : State) (d : HostDesc) : Cpl :=
  { ring := d.ring, index := d.index, tag := fieldOf d.raw 63 32, op := dOp d, bench := dBench d,
    gen := (tget s.host.flrs (d.ring / 16)).getD 0, stamp := d.stamp }

/-- An opcode of R374. -/
def knownOp (o : Nat) : Bool :=
  o == 0x10 || o == 0x11 || (decide (0x20 ≤ o) && decide (o ≤ 0x25)) || o == 0x30 ||
    (decide (0x40 ≤ o) && decide (o ≤ 0x43)) || (decide (0x50 ≤ o) && decide (o ≤ 0x57)) || o == 0x60 || o == 0x61 ||
    o == 0x70 || o == 0x7F

/-- Applied in full while no plan is made by the firmware (R404). -/
def fullWithoutFirmware (o : Nat) : Bool := o == 0x22 || o == 0x60 || o == 0x61 || o == 0x7F

/-- The firmware plans at commit n: no restart, or ready by the commit R34 names for its ready stamp (R402). -/
def firmwareAt (s : State) (n : Nat) : Bool :=
  match s.fw.restart, s.fw.readyAt with
  | none, _ => true
  | some _, some r => dueBy s r n
  | some _, none => false

/-- What a descriptor meets before its own rules, if anything (R54, R372, R373, R404, R426). Keep mode, the halt of R54,
the read limit and a control restart are met before its reserved bits are looked at (R10; DESIGN CHOICE, log entry 23). -/
def gate (s : State) (d : HostDesc) (o n : Nat) : Option Status :=
  if inKeep s || s.time.halted then some .benchHalted
  else if d.late then some .noCapacity
  else if fieldOf d.raw 19 16 != d.ring % 256 / 16 || !knownOp (dOp d) || dOp d != o then some .badDescriptor
  else if !firmwareAt s n && !fullWithoutFirmware o then some .benchHalted
  else none

/-- One park or haul applied at step 1 acts: the conversation is parked in place, or its OFFER goes out, or it is
gone. The place of its record among those due comes back with the number placed so (R206, R380). -/
def actPark (n : Nat) (a : State × Nat) (p : ParkWait) : State × Nat :=
  let (s, k) := a
  match p.haul with
  | some id =>
    (match conv s p.conv, srcHaul s id with
     | some _, some h =>
       let h' : SrcHaul := { h with aborted := false, req := if (req s h.req).isNone then 0 else h.req }
       (sendOffer (modConv { s with haul := { s.haul with out := tput s.haul.out id h' } } p.conv
         (fun c => { c with frozen := some id })) id, k)
     | _, _ =>
       let s1 := { s with haul := { s.haul with out := tdel s.haul.out id } }
       (dueAt s1 (p.order + k) p.cpl .notFound p.conv n, k + 1))
  | none =>
    match conv s p.conv with
    | some _ => (dueAt (parkInPlace s p.conv) (p.order + k) p.cpl .ok p.conv n, k + 1)
    | none => (dueAt s (p.order + k) p.cpl .notFound p.conv n, k + 1)

/-- The parks and hauls applied at step 1 act when the tick's steps have streamed (R206). -/
def actParks (s : State) (n : Nat) : State :=
  (s.work.parks.foldl (actPark n) ({ s with work := { s.work with parks := [] } }, 0)).1

/-- What follows step 1 for a descriptor taken alone: finals and waiting records written, parks acted on, records
written (R37 step 3, R206, R380). -/
def settle (n : Nat) (f : State → State) (s : State) : State :=
  flushDue (actParks (closeStreams s (writeWaiting n (f s))) n)

/-- A commit-acting descriptor of identity c at commit n: gate, then its own rules. -/
def applyWith (c : Cpl) (o : Nat) (f : Cpl → HostDesc → Nat → State → State) (d : HostDesc) (n : Nat) (s : State) : State :=
  match gate s d o n with
  | some st => due s c st 0 n
  | none => f c d n s

/-- The same for a descriptor that lands with the row. -/
def applyDesc (o : Nat) (f : Cpl → HostDesc → Nat → State → State) (d : HostDesc) (n : Nat) (s : State) : State :=
  applyWith (cplOf s d) o f d n s

/-- A descriptor that acts leaves the list of landed ones: it acts once. -/
def takeLanded (d : HostDesc) (s : State) : State :=
  { s with host := { s.host with
    landed := s.host.landed.filter (fun l => !(l.cpl.ring == d.ring && l.cpl.index == d.index && l.cpl.stamp == d.stamp)) } }

/-- The commit that comes next (R37). -/
def nextCommit (s : State) : Nat := match s.time.lastCommit with | some m => m + 1 | none => s.time.now.tick

/-- Something that R33 places before an event of this stamp and ring waits for commit n. -/
def waitsAhead (s : State) (st : Stamp) (ring n : Nat) : Bool :=
  let before (x : Stamp) : Bool := dueBy s x n && stampLt x st
  s.host.landed.any (fun l => before l.cpl.stamp || (l.cpl.stamp == st && decide (l.cpl.ring ≤ ring))) ||
    s.mgmt.held.any (fun h => before h.1.stamp) || s.sec.erase.any (fun e => before e.1) ||
    s.haul.notices.any (fun x => before x.1) ||
    s.work.reqs.any (fun r => match r.2.deadline with | some x => before x | none => false) ||
    s.haul.inn.any (fun h => match h.2.freed with | some x => before x | none => false) ||
    s.haul.out.any (fun h => match h.2.ended with | some x => before x.1 | none => false)

/-- An event whose commit comes next, while the module follows the tick and nothing that R33 places before it waits,
can be taken alone: what it does at that commit does not depend on what lands after it (R33, R34, R53; log entry 131).
-/
def actsAlone (s : State) (st : Stamp) (ring : Nat) : Bool :=
  synced s && commitOf s st == nextCommit s && !waitsAhead s st ring (commitOf s st)

/-- The descriptor data must be read for (R372). -/
def namesData (raw : BitVec 512) : Bool :=
  let o := fieldOf raw 7 0
  o == 0x20 || o == 0x21 || o == 0x40 || o == 0x41 || (o == 0x43 && fieldOf raw 135 128 == 1)

/-! ## Forwarding (R214) -/

/-- The conversation left for another home at or before the event's stamp. -/
def goneFor (s : State) (k : Nat) (st : Stamp) : Option Gone :=
  match tget s.haul.gone k with
  | some g => if stampLe g.moved st then some g else none
  | none => none

/-- The event goes on to the new home, with its original stamp; its record waits for the status the home returns, and
is written by the module whose ring it came from (R214; log entry 11). -/
def forward (s : State) (g : Gone) (c : Cpl) (d : HostDesc) (result n : Nat) : State :=
  let own := (fwdFrom d.ring).isNone
  let from_ := if own then s.fab.self.toNat + 1 else d.ring / 4096
  let s1 := if own then { s with haul := { s.haul with forwarded := s.haul.forwarded ++ [(c, result, n)] } } else s
  send s1 g.home (some c.bench) (.forward { d with ring := d.ring % 256 + 256 * g.bench + 4096 * from_ })

/-- A conversation homed on the bench a descriptor names (R203). -/
def convOn (s : State) (k b : Nat) : Option Conv :=
  match conv s k with
  | some c => if c.home ∧ c.bench = b then some c else none
  | none => none

/-- The bench an event acts on: the new one after a haul within the module (R214, R528). -/
def benchFor (s : State) (k b : Nat) (st : Stamp) : Nat :=
  match goneFor s k st with
  | some g => if g.home = s.fab.self then g.bench else b
  | none => b

/-- An event whose conversation went to another module. -/
def leftFor (s : State) (k : Nat) (st : Stamp) : Option Gone :=
  match goneFor s k st with
  | some g => if g.home = s.fab.self then none else some g
  | none => none

/-- The event is stamped before the home of its conversation moved away: it meets the frozen conversation (R214). -/
def movedSince (s : State) (k : Nat) (st : Stamp) : Bool :=
  match tget s.haul.gone k with
  | some g => stampLt st g.moved
  | none => false

/-! ## Read-out (R210) -/

/-- Bytes of the read-out of a conversation: header, entries, segments. -/
def readoutBytes (c : Conv) : Nat :=
  64 + 16 * c.entries.length + (c.segs.foldl (fun a g => a + segBytes g) 0)

/-- The read-out of a conversation: its table with the header's crc, then its token-log segments in tick order. -/
def readoutForm (s : State) (c : Conv) : Readout :=
  { hdr := (tableRaw s c).1, entries := (tableRaw s c).2, segs := c.segs.map segMsg }

/-- The read-out a descriptor asks for, before its other effect; none where the room is short (R210). -/
def readOut (s : State) (k : Cpl) (d : HostDesc) (c : Conv) : Option State :=
  if bitOf d.raw 13 then
    if fieldOf d.raw 447 416 < readoutBytes c then none
    else some (cplWrite s k (.readoutConv (fieldOf d.raw 511 448) (readoutForm s c)))
  else some s

/-! ## Field checks -/

/-- The layout of R203: every field the opcode does not list is 0, and so is one whose flag is 0. -/
def ctlOk (raw : BitVec 512) (usesReq usesConv readout keeper rebuild pullAll target : Bool) : Bool :=
  zeroAt raw 31 20 && zeroAt raw 15 14 && zeroAt raw 8 8 && zeroAt raw 415 288 && zeroAt raw 271 260 &&
    zeroAt raw 239 192 && (usesReq || zeroAt raw 127 64) && (usesConv || zeroAt raw 191 128) &&
    (readout || !bitOf raw 13) && (keeper || !bitOf raw 12) && (rebuild || !bitOf raw 11) &&
    (pullAll || !bitOf raw 10) && (target || !bitOf raw 9) &&
    (bitOf raw 13 || (zeroAt raw 511 448 && zeroAt raw 447 416)) && (bitOf raw 12 || zeroAt raw 287 272) &&
    (bitOf raw 9 || (zeroAt raw 259 256 && zeroAt raw 255 240)) && zeroAt raw 453 448

/-- FP32 between two bounds, and no infinity or NaN. -/
def f32In (w : Nat) (lo hi : Rat) : Bool :=
  let x : F32 := BitVec.ofNat 32 w
  !fspecial x && decide (lo ≤ fval x) && decide (fval x ≤ hi)

/-- A sampler parameter block within R229, R236 and R75. -/
def paramsOk (p : BitVec 1536) (vocab extra : Nat) (speculate : Bool) : Bool :=
  let temp := fieldOf p 63 32
  let minP : F32 := BitVec.ofNat 32 (fieldOf p 127 96)
  let topP : F32 := BitVec.ofNat 32 (fieldOf p 95 64)
  let tokOk (w : Nat) : Bool := !w.testBit 30 && (w.testBit 31 || decide (w % 2 ^ 30 < vocab))
  fieldOf p 15 0 == 0x5350 && fieldOf p 31 16 == 1 && zeroAt p 255 248 && zeroAt p 1535 1280 &&
    (feq (BitVec.ofNat 32 temp) 0 && !fspecial (BitVec.ofNat 32 temp) || f32In temp (1 / 256) 16) &&
    (!fspecial topP && decide (0 < fval topP) && decide (fval topP ≤ 1)) &&
    (!fspecial minP && decide (0 ≤ fval minP) && decide (fval minP < 1)) &&
    f32In (fieldOf p 159 128) (-16) 16 && f32In (fieldOf p 191 160) (-16) 16 &&
    decide (fieldOf p 207 192 ≤ 1024) && decide (fieldOf p 223 208 ≤ 1024) &&
    (decide (fieldOf p 239 224 < 4096) || fieldOf p 239 224 == 0xFFFF) &&
    tokOk (fieldOf p 351 320) && (List.range 8).all (fun i => tokOk (fieldOf p (543 + 32 * i) (512 + 32 * i))) &&
    fieldOf p 511 448 % 64 == 0 && (fieldOf p 511 448 != 0 || (zeroAt p 447 384 && zeroAt p 383 352)) &&
    decide (fieldOf p 247 240 ≤ 32) && (speculate || fieldOf p 247 240 == 0) &&
    treeOk p (fieldOf p 247 240) extra vocab

/-- The request block as read (R201): the block, its tokens, its automaton, and the stripe specification of R81, to which
no field points (DESIGN CHOICE, log entry 144). -/
def blockOf (d : HostDesc) : BitVec 1536 × List (BitVec 32) × Option Automaton × Option (BitVec 384) :=
  match d.data with
  | .request p ts a st => (p, ts, a, st)
  | _ => (0, [], none, none)

/-- The fields of REQ_ADMIT and REQ_APPEND within R201. -/
def admitFieldsOk (s : State) (d : HostDesc) (append : Bool) : Bool :=
  let r := d.raw
  zeroAt r 351 340 && zeroAt r 303 288 && zeroAt r 31 20 && zeroAt r 15 13 && decide (1 ≤ fieldOf r 319 304) &&
    decide (1 ≤ fieldOf r 287 256) && decide (fieldOf r 287 256 ≤ 1048576) && fieldOf r 255 192 % 64 == 0 &&
    (bitOf r 11 || (zeroAt r 415 384 && zeroAt r 447 416)) && decide (fieldOf r 447 416 < tickNs s) &&
    (bitOf r 12 || (zeroAt r 339 336 && zeroAt r 335 320)) && (bitOf r 10 || zeroAt r 511 448) &&
    (append && !bitOf r 10 || !append && zeroAt r 383 368) && dReq d != 0 && dConv d != 0 &&
    (!bitOf r 12 || !(fieldOf r 335 320 == s.fab.self.toNat && fieldOf r 339 336 == dBench d))

/-- What the model in force says of the request block (R75, R201, R229, R235). -/
def blockOk (s : State) (d : HostDesc) (held : Option Automaton) : Bool :=
  let (p, ts, a, _) := blockOf d
  let m := manOf s (dBench d)
  let auto := match held with | some x => some x | none => a
  paramsOk p (manVocab m) (manExtra m) (bitOf d.raw 9) && ts.length == fieldOf d.raw 287 256 &&
    ts.all (fun t => decide (t.toNat < manVocab m) && decide (t.toNat < 2 ^ 30)) &&
    (fieldOf p 511 448 == 0 || (match auto with
      | some x => autoOk x (fieldOf p 383 352) (manVocab m) (eosOf p).isSome
      | none => true))

/-- A stripe specification within R81 and R82 for a model and the live members of the rack. -/
def stripeOk (s : State) (b : Nat) (st : BitVec 384) : Bool :=
  let cnt := fieldOf st 11 8 + 1
  let stride := fieldOf st 47 32
  let members := (List.range cnt).map (fun i => fieldOf st (143 + 16 * i) (128 + 16 * i))
  zeroAt st 7 1 && zeroAt st 31 16 && zeroAt st 127 48 && decide (1 ≤ fieldOf st 11 8) &&
    decide (fieldOf st 15 12 < cnt) && decide (0 < stride) &&
    (if bitOf st 0 then stride % 64 == 0 else cnt * stride == manKv (manOf s b)) &&
    members[fieldOf st 15 12]? == some s.fab.self.toNat &&
    members.all (fun m => m == s.fab.self.toNat ||
      (m / 256 == s.fab.self.toNat / 256 && s.fab.maps.rackmap.any (fun x => x.2.toNat == m))) &&
    (role s b == 1 || role s b == 3)

/-- The deadline stamp of a descriptor (R201): the first tick at or after its own with these low bits. -/
def deadlineOf (d : HostDesc) : Option Stamp :=
  if bitOf d.raw 11 then
    let lo := fieldOf d.raw 415 384
    some ⟨d.stamp.tick + (lo + 2 ^ 32 - d.stamp.tick % 2 ^ 32) % 2 ^ 32, fieldOf d.raw 447 416⟩
  else none

/-! ## REQ_ADMIT and REQ_APPEND (R201, R202) -/

/-- The request a descriptor brings. -/
def newReq (s : State) (d : HostDesc) (first left : Nat) (auto : Option Automaton) : Req :=
  let (p, _, _, _) := blockOf d
  { key := dReq d, conv := dConv d, bench := dBench d, state := .prefill, inputLeft := left, firstInput := first,
    inputCount := fieldOf d.raw 287 256, maxNew := fieldOf d.raw 319 304, deadline := deadlineOf d,
    dest := if bitOf d.raw 12 then some (BitVec.ofNat 16 (fieldOf d.raw 335 320), fieldOf d.raw 339 336) else none,
    releaseOnEnd := bitOf d.raw 8, speculate := bitOf d.raw 9, params := p, auto := auto,
    autoState := (auto.map (fun a => fieldOf a.hdr 127 96)).getD 0, carried := s.fresh, admitted := d.stamp,
    brought := d.stamp }

/-- The input joins the log with its PARAMS and REQUEST segments (R216, R217), the conversation becomes ACTIVE, and a
deadline no later than this commit ends the request at once (R201). -/
def beginRequest (s : State) (d : HostDesc) (r : Req) (n : Nat) : State :=
  let (_, ts, _, _) := blockOf d
  let s1 := putReq s r
  let s2 := match r.auto, autoIdOf r with
    | some a, some id => setBench s1 r.bench (fun b => { b with autos := tput b.autos id a })
    | _, _ => s1
  let s3 := addSegment (addSegment s2 r.conv { conv := r.conv, req := r.key, kind := .params, record := some r })
    r.conv { conv := r.conv, req := r.key, kind := .request, record := some r }
  let s4 := addTokens s3 r.conv r.key (ts.map (fun t => ⟨t.toNat, false⟩))
  let s5 := setConvState (takePending (modConv s4 r.conv (fun c => { c with req := some r.key })) r.conv) r.conv .active
  match r.deadline with
  | some dl => if dueBy s5 dl n then endReq s5 r.key .expired n false else s5
  | none => s5

/-- Leading whole groups of a source in which every page is SEALED (R167). -/
def sealedPrefix (c : Conv) : Nat → Nat → Nat
  | 0, g => g
  | f + 1, g =>
    let es := c.entries.filter (fun e => e.group == g && e.state != .replica)
    if !es.isEmpty && es.length == c.layers * c.kvHeads && es.all (fun e => e.state == .sealed) then
      sealedPrefix c f (g + 1)
    else g

/-- The entries of a prefix, of whole SEALED groups alone (log entry 145), referenced once more by table k: here by count, every table that shares the page among
them, elsewhere by a message that names the page as the source's holder table does (R167, R168). -/
def takePrefix (s : State) (k : Nat) (src : Conv) (g : Nat) : State × List Entry :=
  let es := src.entries.filter (fun e => decide (e.group < g) && e.state != .replica)
  (es.foldl (fun s e =>
    if e.tier = .remote then send s e.holder (some src.bench) (.refcount (entryPage e src.key) k true)
    else addRefs s e (· + 1)) s,
   es.map (fun e => if e.tier = .remote then { e with shared := true } else { e with refs := e.refs + 1 }))

/-- Room for what an admission needs: header, context, open group, pending area, automaton copy (R159, R163, R165). -/
def admitRoom (s : State) (d : HostDesc) (newHeader : Bool) : Bool :=
  let b := dBench d
  let m := manOf s b
  let (p, _, _, _) := blockOf d
  let copy := if fieldOf p 511 448 = 0 ∨ (tget (bench s b).autos (fieldOf p 447 384)).isSome then 0 else fieldOf p 383 352
  (!newHeader || headerRoom s) && contextRoom s && (!bitOf d.raw 9 || pendingRoom s b (pendingBytes m (kvBitsOf s b))) &&
    hasSpace s b (groupBytes m (kvBitsOf s b) + (if bitOf d.raw 9 then pendingBytes m (kvBitsOf s b) else 0) +
      copy)

/-- A 64-token chunk, or what input there is, fits an empty plan, and so does a token step at the length the input
brings the conversation to (R47; DEDUCED, log entry 13). -/
def fitsEmpty (s : State) (r : Req) : Bool :=
  let u : WorkUnit := { bench := r.bench, req := r.key, conv := r.conv }
  admits s r.bench [{ u with cls := .chunk, len := min 64 (max 1 (r.inputLeft + r.rebuildLeft)) }] &&
    (r.dest.isSome || admits (modConv s r.conv (fun c => { c with length := r.firstInput + r.inputCount })) r.bench [u])

/-- The state of the bench an arrival meets (R70): one on the way to or from a model, or halted, refuses whatever its
role. -/
def benchBusy (s : State) (b : Nat) : Bool := !hasRecord s b || ((bench s b).state != .ready && (bench s b).state != .empty)

/-- An EMPTY bench whose role takes the work refuses it (R70). -/
def benchRefusal (s : State) (b : Nat) : Option Status :=
  if (bench s b).state = .ready then none else some .benchHalted

/-- REQ_ADMIT at its commit (R202). A field that R10 or R201 refuses comes before the bench's own refusal (DESIGN
CHOICE, log entry 132); so in every opcode. -/
def applyAdmit (c : Cpl) (d : HostDesc) (n : Nat) (s : State) : State :=
  let b := c.bench
  let k := dConv d
  let no (st : Status) : State := due s c st (dReq d) n
  let (p, _, a, stripe) := blockOf d
  let held := if fieldOf p 511 448 = 0 then none else tget (bench s b).autos (fieldOf p 447 384)
  let auto := if fieldOf p 511 448 = 0 then none else match held with | some x => some x | none => a
  let src := if bitOf d.raw 10 then convOn s (fieldOf d.raw 511 448) b else none
  let g := match src with | some x => sealedPrefix x 16384 0 | none => 0
  if !admitFieldsOk s d false then no .badDescriptor
  else if benchBusy s b then no .benchHalted
  else if (conv s k).isSome || knownReq s (dReq d) || !(role s b == 3 || (role s b == 0 && bitOf d.raw 12)) ||
      (stripe.isSome && bitOf d.raw 12) then no .badDescriptor
  else if bitOf d.raw 10 && src.isNone then no .notFound
  else match benchRefusal s b with
    | some st => no st
    | none =>
      if !blockOk s d held || (match src with | some x => x.fpTag != benchTag s b | none => false) ||
          (match stripe with | some x => !stripeOk s b x | none => false) then no .badDescriptor
      else if decide (1048576 < 64 * g + fieldOf d.raw 287 256) || !admitRoom s d true ||
          (fieldOf p 511 448 != 0 && auto.isNone) ||
          (match src with
           | some x => x.entries.any (fun e => decide (e.group < g) && e.tier != .remote && decide (16777215 ≤ e.refs))
           | none => false) then no .noCapacity
      else
        let (s1, es) := match src with
          | some x => takePrefix s k x g
          | none => (s, [])
        let m := manOf s b
        let cv : Conv := {
          key := k, bench := b, home := true, length := 64 * g, fpTag := benchTag s b, layers := manLayers m,
          kvHeads := manKv m, lastTick := n, shareGroups := g,
          shareKey := if 0 < g then fieldOf d.raw 511 448 else 0,
          record := s.stock == .mx && bnF s b 0x98 0 0 == 1, stripe := stripe, entries := es,
          keeper := BitVec.ofNat 16 (fieldOf d.raw 367 352) }
        let s2 := putConv s1 cv
        let s3 := match src with
          | some x => addTokens s2 k (dReq d) ((x.log.take (64 * g)).map (fun t => { t with gen := false }))
          | none => s2
        let r := newReq s d (64 * g) (fieldOf d.raw 287 256) auto
        if !fitsEmpty (putReq s3 r) r then no .noCapacity
        else due (beginRequest s3.bump d r n) c .ok (dReq d) n

/-- The model differs from the one that wrote the pages: the whole conversation is re-prefilled (R73, R223). -/
def rebuildIfOther (s : State) (k b n : Nat) : State :=
  match conv s k with
  | some c =>
    if c.fpTag = benchTag s b then s
    else
      let m := manOf s b
      let s1 := match c.req with
        | some r => recover s r 0 n
        | none => modConv (dropGroups s k 0) k (fun c => { c with length := 0 })
      modConv s1 k (fun c => { c with fpTag := benchTag s b, layers := manLayers m, kvHeads := manKv m })
  | none => s

/-- REQ_APPEND at its commit, once its conversation is here (R202, R209, R211). -/
def applyAppend (c : Cpl) (d : HostDesc) (n : Nat) (s : State) : State :=
  let k := dConv d
  let b := c.bench
  let no (st : Status) : State := due s c st (dReq d) n
  let (p, _, a, _) := blockOf d
  let held := if fieldOf p 511 448 = 0 then none else tget (bench s b).autos (fieldOf p 447 384)
  let auto := if fieldOf p 511 448 = 0 then none else match held with | some x => some x | none => a
  let origin := fieldOf d.raw 383 368
  if !admitFieldsOk s d true then no .badDescriptor
  else if benchBusy s b then no .benchHalted
  else if knownReq s (dReq d) || !(role s b == 3 || (role s b == 0 && bitOf d.raw 12)) then no .badDescriptor
  else match convOn s k b with
    | none =>
      if movedSince s k d.stamp then no .badDescriptor
      else if origin ≠ 0xFFFF ∧ origin ≠ s.fab.self.toNat then startPull s k (BitVec.ofNat 16 origin) b false c d
      else (match leftFor s k d.stamp with
        | some g => forward s g c d (dReq d) n
        | none => no .notFound)
    | some cv =>
      if cv.state == .active || (suspendedOf s k).isSome || cv.frozen.isSome then no .badDescriptor
      else match benchRefusal s b with
        | some st => no st
        | none =>
          if !blockOk s d held || (cv.stripe.isSome && bitOf d.raw 12) then no .badDescriptor
          else if decide (1048576 < cv.log.length + fieldOf d.raw 287 256) || !admitRoom s d false ||
              (fieldOf p 511 448 != 0 && auto.isNone) then no .noCapacity
          else
            let first := cv.log.length
            let r := newReq s d first (first - cv.length + fieldOf d.raw 287 256) auto
            let s1 := modConv s k (fun x => { x with
              keeper := BitVec.ofNat 16 (fieldOf d.raw 367 352), guarded := true })
            if !fitsEmpty (putReq s1 r) r then no .noCapacity
            else due (rebuildIfOther (beginRequest s1.bump d r n) k b n) c .ok (dReq d) n

/-! ## REQ_CANCEL, REQ_RELEASE (R38, R207) -/

/-- REQ_CANCEL at its commit (R38, R40). -/
def applyCancel (c : Cpl) (d : HostDesc) (n : Nat) (s : State) : State :=
  let k := dReq d
  let no (st : Status) : State := due s c st k n
  if !ctlOk d.raw true false false false false false false then no .badDescriptor
  else if !hasRecord s c.bench then no .benchHalted
  else match req s k with
    | some r =>
      if r.bench = benchFor s r.conv c.bench d.stamp then due (endReq s k .cancelled n false) c .ok k n
      else no .notFound
    | none =>
      if (doneOf s k).isSome then no .alreadyDone
      else match s.haul.gone.find? (fun g => g.2.req == k && k != 0 && stampLe g.2.moved d.stamp &&
          g.2.home != s.fab.self) with
        | some g => forward s g.2 c d k n
        | none => no .notFound

/-- REQ_RELEASE at its commit (R206, R207). -/
def applyRelease (c : Cpl) (d : HostDesc) (n : Nat) (s : State) : State :=
  let k := dConv d
  let no (st : Status) : State := due s c st k n
  if !ctlOk d.raw false true true false false false false then no .badDescriptor
  else if !hasRecord s c.bench then no .benchHalted
  else match convOn s k (benchFor s k c.bench d.stamp) with
    | none =>
      (match leftFor s k d.stamp with
       | some g => forward s g c d k n
       | none => no .notFound)
    | some cv =>
      match readOut s c d cv with
      | none => no .noCapacity
      | some s1 =>
        let s2 := match (match cv.req with | some r => some r | none => suspendedOf s k) with
          | some r => endReq s1 r .cancelled n false
          | none => s1
        due (releaseConv s2 k) c .ok k n

/-! ## REQ_PARK, REQ_HANDOFF (R205, R206, R209, R528) -/

/-- The request states a park takes (R205). -/
def parkable : ReqState → Bool
  | .prefill => true
  | .generating => true
  | .tallyWait => true
  | .rebuilding => true
  | .held => true
  | _ => false

/-- The target of a control descriptor. -/
def dTarget (d : HostDesc) : ModuleId := BitVec.ofNat 16 (fieldOf d.raw 255 240)
def dTargetBench (d : HostDesc) : Nat := fieldOf d.raw 259 256

/-- REQ_PARK at its commit, in place or by haul; a striped conversation moves to no other module (R82; log entry 133).
-/
def applyPark (c : Cpl) (d : HostDesc) (n : Nat) (s : State) : State :=
  let k := dConv d
  let b := benchFor s k c.bench d.stamp
  let no (st : Status) : State := due s c st k n
  let away := bitOf d.raw 9 && !(dTarget d == s.fab.self && dTargetBench d == b)
  if !ctlOk d.raw false true true false false false true then no .badDescriptor
  else if !hasRecord s c.bench then no .benchHalted
  else match convOn s k b with
    | none =>
      if movedSince s k d.stamp then no .badDescriptor
      else (match leftFor s k d.stamp with
        | some g => forward s g c d k n
        | none => no .notFound)
    | some cv =>
      let liveOk := match cv.req.bind (req s) with
        | some r => parkable r.state
        | none => true
      if cv.frozen.isSome || cv.state == .parked || !liveOk || (!away && !isCacheOrMixed (role s b)) ||
          (away && cv.stripe.isSome) ||
          s.work.parks.any (fun p => p.conv == k) then no .badDescriptor
      else match readOut s c d cv with
        | none => no .noCapacity
        | some s1 =>
          if away then
            let id := s1.haul.nextId
            let s2 := startHaul s1 k .park (dTarget d) (dTargetBench d) false false false (some c)
            { s2 with work := { s2.work with parks := s2.work.parks ++
                [{ conv := k, req := cv.req.getD 0, cpl := c, haul := some id, order := s.host.due.length }] } }
          else match cv.req with
            | some r => { s1 with work := { s1.work with
                parks := s1.work.parks ++ [{ conv := k, req := r, cpl := c, order := s.host.due.length }] } }
            | none => due (parkInPlace s1 k) c .ok k n

/-- The keeper named anew: the whole log goes to it (R218). -/
def newKeeper (s : State) (d : HostDesc) (k : Nat) : State :=
  if bitOf d.raw 12 then
    match conv s k with
    | some c =>
      let kp : ModuleId := BitVec.ofNat 16 (fieldOf d.raw 287 272)
      let s1 := putConv s { c with keeper := kp, guarded := true, acked := 0 }
      c.segs.foldl (fun s g => send s kp (some c.bench) (.segment (segMsg g))) s1
    | none => s
  else s

/-- REQ_HANDOFF at its commit (R82, R205, R209, R528). -/
def applyHandoff (c : Cpl) (d : HostDesc) (n : Nat) (s : State) : State :=
  let k := dConv d
  let b := benchFor s k c.bench d.stamp
  let no (st : Status) : State := due s c st k n
  if !ctlOk d.raw false true false true false false true || !bitOf d.raw 9 then no .badDescriptor
  else if !hasRecord s c.bench then no .benchHalted
  else match convOn s k b with
    | none =>
      if movedSince s k d.stamp then no .badDescriptor
      else (match leftFor s k d.stamp with
        | some g => forward s g c d k n
        | none => no .notFound)
    | some cv =>
      let ok := match cv.state, cv.req.bind (req s) with
        | .idle, _ => true
        | .active, some r => r.state == .generating || r.state == .tallyWait || r.state == .held
        | _, _ => false
      if cv.frozen.isSome || !ok || cv.stripe.isSome || role s b == 2 ||
          (dTarget d == s.fab.self && dTargetBench d == b) || s.work.parks.any (fun p => p.conv == k) then no .badDescriptor
      else
        let s1 := newKeeper s d k
        let id := s1.haul.nextId
        let s2 := startHaul s1 k .handoff (dTarget d) (dTargetBench d) false false false (some c)
        { s2 with work := { s2.work with parks := s2.work.parks ++
            [{ conv := k, req := cv.req.getD 0, cpl := c, haul := some id, order := s.host.due.length }] } }

/-! ## REQ_RESUME (R203, R209, R223) -/

/-- A conversation here resumes (R205, R209): refused where the bench does not serve the state. -/
def resumeHere (c : Cpl) (d : HostDesc) (n : Nat) (cv : Conv) (s : State) : State :=
  let k := dConv d
  let b := c.bench
  let no (st : Status) : State := due s c st k n
  let other := cv.fpTag != benchTag s b
  match suspendedOf s k with
  | some rk =>
    (match req s rk with
     | none => no .notFound
     | some r =>
       let st := if other then ReqState.rebuilding else resumedState r
       if !servesState (role s b) st r.dest.isSome || !recordOk s b cv.record then no .badDescriptor
       else if (bench s b).state != .ready then no .benchHalted
       else if r.speculate && !pendingRoom s b (pendingBytes (manOf s b) (kvBitsOf s b)) then no .noCapacity
       else
         let s1 := modConv (putReq s { r with state := resumedState r, bench := b }) k (fun x => { x with req := some rk })
         due (rebuildIfOther (newKeeper (setConvState (takePending s1 k) k .active) d k) k b n) c .ok k n)
  | none =>
    if !recordOk s b cv.record then no .badDescriptor
    else due (newKeeper (if cv.state = .parked then setConvState s k .idle else s) d k) c .ok k n

/-- REQ_RESUME at its commit, or at the commit where its pull takes effect (R211). -/
def applyResume (c : Cpl) (d : HostDesc) (n : Nat) (s : State) : State :=
  let k := dConv d
  let b := c.bench
  let no (st : Status) : State := due s c st k n
  let arrived := s.haul.pulls.any (fun q => q.cpl == c && q.effective)
  if !ctlOk d.raw false true false true true true true || (bitOf d.raw 11 && !bitOf d.raw 9) then no .badDescriptor
  else if !hasRecord s b then no .benchHalted
  else if bitOf d.raw 11 && !arrived then
    if role s b == 0 || role s b == 2 || (conv s k).isSome then no .badDescriptor
    else if (bench s b).state != .ready then no .benchHalted
    else if s.haul.pulls.any (fun q => q.cpl == c) then s
    else
      send { s with haul := { s.haul with pulls := s.haul.pulls ++
          [{ conv := k, home := dTarget d, bench := b, cpl := c, landed := d }] } }
        (dTarget d) (some b) (.logRead k b (bounded s b))
  else match convOn s k b with
    | none =>
      if movedSince s k d.stamp then no .badDescriptor
      else if bitOf d.raw 9 && dTarget d != s.fab.self then startPull s k (dTarget d) b (bitOf d.raw 10) c d
      else (match leftFor s k d.stamp with
        | some g => forward s g c d k n
        | none => no .notFound)
    | some cv =>
      if cv.state == .active || cv.frozen.isSome then (if arrived && bitOf d.raw 11 then due s c .ok k n else no .badDescriptor)
      else resumeHere c d n cv s

/-! ## NOP, STREAM_BIND, TALLY_SET -/

/-- NOP (R374): the landing stamp and the commit's tick. -/
def applyNop (c : Cpl) (d : HostDesc) (n : Nat) (s : State) : State :=
  if !zeroAt d.raw 511 64 || !zeroAt d.raw 31 20 || !zeroAt d.raw 15 8 then due s c .badDescriptor 0 n
  else due s c .ok d.stamp.tick n (result2 := d.stamp.off)

/-- STREAM_BIND (R242, R243): a binding set or removed at step 1. -/
def applyBind (c : Cpl) (d : HostDesc) (n : Nat) (s : State) : State :=
  let r := d.raw
  let k := dReq d
  let ring := fieldOf r 191 128
  let lg := fieldOf r 12 8
  let no (st : Status) : State := due s c st 0 n
  if !zeroAt r 511 256 || !zeroAt r 31 20 || !zeroAt r 15 13 || k == 0 then no .badDescriptor
  else if ring = 0 then
    (match bindOf s k with
     | some _ => due { s with work := { s.work with binds := tdel s.work.binds k } } c .ok 0 n
     | none => no .notFound)
  else if fieldOf r 255 192 % 64 != 0 || ring % 4096 != 0 || decide (lg < 6) || decide (16 < lg) then no .badDescriptor
  else if (bindOf s k).isNone && decide (65536 ≤ s.work.binds.length) then no .noCapacity
  else
    let first := match req s k with
      | some x => if x.ringAddr = ring ∧ x.ringAddr ≠ 0 then x.producer else 0
      | none => 0
    let b : Binding := { ringAddr := ring, ctl := fieldOf r 255 192, log2 := lg, producer := first, consumer := first,
                         bench := c.bench, tick := n }
    due { s with work := { s.work with binds := tput s.work.binds k b } } c .ok first n

/-- TALLY_SET (R248, R249): set or removed at step 1; its windows are anchored at tick n+1. `close` closes the tally's
meter record (R482). -/
def applyTally (close : State → Nat → State) (c : Cpl) (d : HostDesc) (n : Nat) (s : State) : State :=
  let r := d.raw
  let id := fieldOf r 75 64
  let cap := fieldOf r 191 160
  let refill := fieldOf r 159 128
  let w := fieldOf r 127 112
  let no (st : Status) : State := due s c st 0 n
  let owner := (tget s.work.tallies id).map (·.bench)
  if !zeroAt r 511 224 || !zeroAt r 111 76 || !zeroAt r 31 20 || !zeroAt r 15 10 then no .badDescriptor
  else if bitOf r 9 then
    if owner = some c.bench then
      let s1 := close s id
      due { s1 with work := { s1.work with tallies := tdel s1.work.tallies id } } c .ok 0 n
    else no .notFound
  else if cap = 0 ∨ cap < refill ∨ w = 0 ∨ (owner.isSome ∧ owner ≠ some c.bench) then no .badDescriptor
  else
    let old := tget s.work.tallies id
    let t0 : Tally := old.getD { bench := c.bench, firstTick := n }
    let t : Tally := { t0 with
      balance := if bitOf r 8 then fieldOf r 223 192 else t0.balance, refill := refill, cap := cap, window := w,
      anchor := n + 1 }
    due { s with work := { s.work with tallies := tput s.work.tallies id t } } c .ok 0 n (tally := some id)

/-! ## Rows of descriptors (R32 to R34, R211, R372) -/

/-- The pull of a REQ_APPEND or REQ_RESUME starts when its descriptor lands (R211), unless it will be refused. -/
def pullAtLanding (s : State) (c : Cpl) (d : HostDesc) : State :=
  let o := fieldOf d.raw 7 0
  let k := dConv d
  let b := dBench d
  let home : Option (ModuleId × Bool) :=
    if o = 0x21 then
      (if fieldOf d.raw 383 368 = 0xFFFF ∨ !admitFieldsOk s d true then none
       else some (BitVec.ofNat 16 (fieldOf d.raw 383 368), false))
    else if o = 0x24 then
      (if bitOf d.raw 9 && !bitOf d.raw 11 && ctlOk d.raw false true false true true true true then
        some (dTarget d, bitOf d.raw 10) else none)
    else none
  match home with
  | some (h, all) =>
    if h == s.fab.self || (conv s k).any (·.home) || !hasRecord s b ||
        (gate s { d with late := false } o (commitOf s d.stamp)).isSome then s
    else startPull s k h b all c d
  | none => s

/-- A commit-acting descriptor waits for its commit (R34). -/
def landDesc (d : HostDesc) (s : State) : State :=
  let c := cplOf s d
  let l : Landed := { cpl := c, raw := some d.raw, data := if d.late then none else some d.data }
  pullAtLanding { s with host := { s.host with landed := s.host.landed ++ [l] } } c d

/-- A row that stands for a commit-acting descriptor: it takes effect at the commit its stamp names (R34). Where it
can be taken alone, or its benches are halted (R54, R426), the row is that effect; otherwise the descriptor waits with
what comes before it. -/
def hostRow (o : Nat) (f : Cpl → HostDesc → Nat → State → State) (d : HostDesc) (s : State) :
    Host.Outcome State Fault Refusal :=
  run d.stamp (fun s0 =>
    let s := takeLanded d s0
    if inKeep s || s.time.halted || actsAlone s d.stamp d.ring then
      settle (commitOf s d.stamp) (applyDesc o f d (commitOf s d.stamp)) s
    else landDesc d s) s

/-! ## The commands -/

def execReqAdmit (d : HostDesc) (s : State) : Host.Outcome State Fault Refusal := hostRow 0x20 applyAdmit d s
def execReqAppend (d : HostDesc) (s : State) : Host.Outcome State Fault Refusal := hostRow 0x21 applyAppend d s
def execReqCancel (d : HostDesc) (s : State) : Host.Outcome State Fault Refusal := hostRow 0x22 applyCancel d s
/-- REQ_PARK with no target. -/
def execReqPark (d : HostDesc) (s : State) : Host.Outcome State Fault Refusal := hostRow 0x23 applyPark d s
/-- REQ_PARK with a target. -/
def execReqParkHaul (d : HostDesc) (s : State) : Host.Outcome State Fault Refusal := hostRow 0x23 applyPark d s
def execReqResume (d : HostDesc) (s : State) : Host.Outcome State Fault Refusal := hostRow 0x24 applyResume d s
/-- REQ_RESUME with rebuild set. -/
def execReqResumeRebuild (d : HostDesc) (s : State) : Host.Outcome State Fault Refusal := hostRow 0x24 applyResume d s
def execReqRelease (d : HostDesc) (s : State) : Host.Outcome State Fault Refusal := hostRow 0x25 applyRelease d s
def execReqHandoff (d : HostDesc) (s : State) : Host.Outcome State Fault Refusal := hostRow 0x30 applyHandoff d s
def execStreamBind (d : HostDesc) (s : State) : Host.Outcome State Fault Refusal := hostRow 0x61 applyBind d s
/-- STREAM_BIND with ring_addr 0. -/
def execStreamUnbind (d : HostDesc) (s : State) : Host.Outcome State Fault Refusal := hostRow 0x61 applyBind d s
def execNop (d : HostDesc) (s : State) : Host.Outcome State Fault Refusal := hostRow 0x7F applyNop d s

end Sys2Proof.Machine
end

