-- ==== Sys2Proof/Machine/Blocks.lean ====
section
/-! DEFINITION. Block rejection and repair, the crusher's fits, weight tiles, shadow checking, arbitration, quarantine
and retirement of units (R118 to R131, R145 to R150, R414 to R419). -/

namespace Sys2Proof.Machine

/-! ## Halting (R69) -/

/-- A bench stops: the units of its plan are dropped (R42, R69). -/
def haltBench (s : State) (b : Nat) : State :=
  let s1 := setBench s b (fun x => { x with state := .halted })
  { s1 with plan := { s1.plan with units := s1.plan.units.map (fun u =>
      if u.bench = b then { u with dropped := true } else u) } }

/-- A bench has a unit of every slice kind that R58 requires of its role, counting what is in service (R278, R418). -/
def slicesLeft (s : State) (b : Nat) : Bool :=
  let r := (bench s b).record
  let tiles := List.range 8
  let groups (t : Nat) : Nat := fieldOf r 127 64 / 2 ^ (8 * t) % 256
  let live (u : UnitId) : Bool := !s.fault.retired.contains u
  let eng (t : Nat) : Bool := ((setBits (fieldOf r 191 128) 64).filter (fun e => e / 8 == t)).any (fun e => live ⟨.engine, e⟩)
  let cell (t : Nat) : Bool := ((setBits (groups t) 8).flatMap (fun g =>
    (List.range 64).map (fun c => 64 * (8 * t + g) + c))).any (fun c => live ⟨.cell, c⟩)
  let hb := decide (0 < tierSlices s b .hbm)
  let lp := decide (0 < tierSlices s b .lpddr)
  if role s b = 2 then tiles.any cell && (hb || lp)
  else tiles.any cell && tiles.any eng && hb && lp && tiles.all (fun t => groups t == 0 || eng t)

/-- The weights fit in the face the retired frames leave (R279). -/
def weightsFit (s : State) (b : Nat) : Bool :=
  decide (((bench s b).pkg.map (fun p => fieldOf p.manifest 639 576)).getD 0 + lostBytes s b .face ≤
    tierSlices s b .face * 2 ^ 30)

/-- Benches left without what R58 requires, or without room for their weights, are halted (R278, R279, R418). -/
def haltShort (s : State) : State :=
  (s.fab.maps.benches.map (·.1)).foldl (fun s b =>
    if (bench s b).state != .halted && !(slicesLeft s b && weightsFit s b) then haltBench s b else s) s

/-! ## KEY and VALUE blocks (R118 to R121) -/

/-- A replica this module holds of a page: in the holder table, or in the keeper's store (R171, R220). -/
def replicaHere (s : State) (p : PageRef) : Option Entry :=
  match (conv s p.conv).bind (fun c => c.entries.find? (fun e => entryIs e p && e.state == .replica && isLocal s e)) with
  | some e => some e
  | none => (tget s.haul.keeper p.conv).bind (fun x => x.replicas.find? (fun e => entryIs e p))

/-- A block of a page, or of a replica held here, is rejected (R118, R120 step 1): counted and logged, and the page is
read again at the commit R34 names. A rejection stamped in the commit phase of that commit is the second read's
(DESIGN CHOICE, log entry 12). -/
def rejectPage (s : State) (p : PageRef) (cause : Nat) : State :=
  match (match findPage s p with | some e => if isOwn e then some e else replicaHere s p | none => replicaHere s p) with
  | some e =>
    let s1 := countReject s e.bench p.conv e cause
    let now := s.time.now
    let again (r : PageRef × Nat × Bool) : Bool :=
      samePage s r.1 p && decide (r.2.1 = now.tick ∧ cutoffOff s ≤ now.off)
    if s1.tier.reread.any (fun r => samePage s r.1 p) then
      { s1 with tier := { s1.tier with reread := s1.tier.reread.map (fun r => if again r then (r.1, r.2.1, true) else r) } }
    else if e.state == .missing || e.state == .lost then s1
    else { s1 with tier := { s1.tier with reread := s1.tier.reread ++ [(p, commitOf s now, false)] } }
  | none => s

/-- The replicas of a page, from every table here that shares it (R169). -/
def replicasOf (s : State) (p : PageRef) : List ModuleId :=
  s.work.convs.flatMap (fun c =>
    if c.2.entries.any (fun e => isOwn e && entryIs e p && samePage s (entryPage e c.1) p) then
      (c.2.entries.filter (fun e => entryIs e p && e.state == .replica)).map (·.holder)
    else [])

/-- A replica holder drops a replica and tells the primary's home (R172). -/
def dropReplica (s : State) (p : PageRef) : State :=
  match replicaHere s p with
  | none => s
  | some e =>
    let home := match conv s p.conv with
      | some c => c.homeAt
      | none => ((tget s.haul.keeper p.conv).map (·.home)).getD s.fab.self
    let s1 := modConv s p.conv (fun c => { c with
      entries := c.entries.filter (fun x => !(entryIs x p && x.state == .replica && isLocal s x)) })
    let s2 := { s1 with haul := { s1.haul with
      keeper := tmod s1.haul.keeper p.conv (fun x => { x with replicas := x.replicas.filter (fun y => !entryIs y p) }) } }
    send (dropEmptyHolder s2 p.conv) home (some e.bench) (.replicaDrop p)

/-- The conversation's request, live at its home. -/
def liveReq (s : State) (k : Nat) : Option Nat :=
  match conv s k with
  | some c => if c.home then c.req else none
  | none => none

/-- The re-reads of R120 at commit n (R158): a page whose block passes the second read is kept; one that failed again
is MISSING until its repair from a replica, or LOST without one, and a lost open page sends its request to recovery
(R121). A replica that failed again is dropped (R172). -/
def rereads (s : State) (n : Nat) : State :=
  (s.tier.reread.filter (fun r => decide (r.2.1 ≤ n))).foldl (fun s r =>
    let p := r.1
    let s1 : State := { s with tier := { s.tier with reread := s.tier.reread.filter (fun x => x.1 != p) } }
    match findPage s p with
    | some e =>
      if !r.2.2 || e.state == .missing || e.state == .lost || !isOwn e then s1
      else if !(replicasOf s p).isEmpty then modPage s1 p (fun x => { x with back := x.state, state := .missing })
      else
        let s2 := modPage s1 p (fun x => { x with back := x.state, state := .lost })
        (match e.state, liveReq s2 p.conv with
         | .opened, some k => recover s2 k p.group n
         | _, _ => s2)
    | none => if r.2.2 then dropReplica s1 p else s1) s

/-- BLOCK_REJECT (R118, R120). -/
def execBlockReject (t : Stamp) (p : PageRef) (_isValue : Bool) (cause : Nat) (s : State) :
    Host.Outcome State Fault Refusal :=
  run t (fun s => if 1 ≤ cause ∧ cause ≤ 5 then rejectPage s p cause else s) s

/-- The primary written anew from a replica at a commit (R120 step 3, R158, R172): the replica is final (R130),
checked on arrival, and serves every table that shares the page (R169). The page leaves MISSING as SEALED; a fit of it
that waits is discarded (R129). -/
def repairPage (s : State) (p : PageRef) (key value : Block) : State :=
  match conv s p.conv, findPage s p with
  | some c, some e =>
    let new : Entry := { e with
      state := .sealed, key := key, value := value, cls := max (classFor key.bytes) (classFor value.bytes) }
    if e.state != .missing || !isOwn e then s
    else match pageCause s e.bench c.fpTag new with
      | some cause => countReject s e.bench p.conv e cause
      | none => modPage (discardFits s (fun f => f.page == p)) p (fun x => { x with
          state := .sealed, key := key, value := value, cls := new.cls })
  | _, _ => s

/-- An event the commit its stamp names acts on (R34). -/
def deferTo (s : State) (t : Stamp) (i : Notice) : State :=
  { s with haul := { s.haul with notices := s.haul.notices ++ [(t, i)] } }

/-- REPAIR_MOVE_DONE (R120 step 3): the replica's blocks are here. -/
def execRepairMoveDone (t : Stamp) (p : PageRef) (key value : Block) (s : State) : Host.Outcome State Fault Refusal :=
  run t (fun s => deferTo s t (.repair p key value)) s

/-- HAUL_REFUSE: a damaged block is rejected here as R118 cause 1 (R124). -/
def execHaulRefuse (t : Stamp) (m : HaulMsg) (s : State) : Host.Outcome State Fault Refusal :=
  runLink t (haulRefuse (fun s p => rejectPage s p 1) t m) s

/-! ## Fits (R127 to R130) -/

/-- The codebook and scale of a page's half (R91, R92). -/
def kvBook (p : Package) (e : Entry) (isValue : Bool) : Codebook :=
  p.kvBooks.getD (2 * (e.layer * manKv p.manifest + e.head) + (if isValue then 1 else 0)) default

/-- The residual of a fit on the block as the expander delivers it (R128). -/
def residual (book : Codebook) (raw fit : Block) : F32 :=
  let x := (expand book raw).1
  let y := (expand book fit).1
  let sq (l : List Int) : Rat := ((dotInt l l : Int) : Rat)
  fdiv (fsqrt (fl (sq (List.zipWith (· - ·) x y)))) (fsqrt (fl (sq x)))

/-- The block a fit would store: the raw block's form with the fit's factors (R110, R128). -/
def fitBlock (book : Codebook) (raw fit : Block) : Block :=
  mkBlock { formOf raw with mode := 1, rank := fit.rank, shift := fit.shift, final := true } book.width fit.codes

/-- The LOWRANK block of a fit, where the crusher may store it: within R111, and e ≤ theta as it will be expanded
(R128). -/
def fitOk (p : Package) (e : Entry) (isValue : Bool) (raw fit : Block) : Bool :=
  let book := kvBook p e isValue
  let x := (expand book raw).1
  raw.rows == 64 && fit.mode == 1 && decide (1 ≤ fit.rank) && decide (fit.rank ≤ kvMaxRank p) && decide (fit.shift ≤ 31) &&
    fit.codes.length == nCodes 1 64 raw.cols fit.rank && dotInt x x != 0 &&
    decide (fval (residual book raw (fitBlock book raw fit)) ≤ fval (BitVec.ofNat 32 (fieldOf p.kvHdr 191 160)))

/-- The block as stored after a fit: LOWRANK, or the raw block with final 1 (R128). The second part is true for the
raw fallback. -/
def fitted (p : Package) (e : Entry) (isValue : Bool) (raw : Block) (fit : Option Block) : Block × Bool :=
  let book := kvBook p e isValue
  let kept : Block := { raw with hdr := putCrc (raw.hdr ||| BitVec.ofNat 256 (2 ^ 23)) raw.payload }
  match fit with
  | some f => if fitOk p e isValue raw f then (fitBlock book raw f, false) else (kept, true)
  | none => (kept, true)

/-- Bytes a fit of a page's half reads and writes (R127). -/
def fitBytes (e : Entry) (isValue : Bool) (fit : Option Block) : Nat :=
  (if isValue then e.value else e.key).bytes + (match fit with | some f => f.bytes | none => 32)

/-- FIT_DONE (R127, R128): a fit that completes before the cut-off waits for step 2 of the commit; a later one is
abandoned, and one whose reads and writes the migration share does not take stays in the queue. -/
def fitDone (t : Stamp) (p : PageRef) (isValue : Bool) (fit : Option Block) (s : State) : State :=
  match conv s p.conv, findPage s p with
  | some c, some e =>
    let n := fitBytes e isValue fit
    let k := budgetNo e.tier
    if decide (cutoffOff s ≤ t.off) || (match k with | some k => decide (shareLeft s c.bench k < n) | none => false) then s
    else
      let s1 := match k with | some k => chargeShare s c.bench k n | none => s
      setBench s1 c.bench (fun b => { b with fits := b.fits.map (fun f =>
        if f.page = p ∧ f.isValue = isValue then { f with done := some fit } else f) })
  | _, _ => s

def execFitDone (t : Stamp) (p : PageRef) (isValue : Bool) (fit : Option Block) (s : State) :
    Host.Outcome State Fault Refusal := run t (fitDone t p isValue fit) s

/-- One completed fit applied at step 2 of a commit, or discarded (R129, R280). -/
def applyFit (s : State) (b : Nat) (f : FitItem) : State :=
  match f.done with
  | none => s
  | some fit =>
    let s0 := setBench s b (fun x => { x with fits := x.fits.filter (fun g => !(g.page == f.page && g.isValue == f.isValue)) })
    match conv s0 f.page.conv, findPage s0 f.page, (bench s0 b).pkg with
    | some _, some e, some p =>
      let raw := if f.isValue then e.value else e.key
      if raw.final || e.tier == .remote || raw.fpTag != benchTag s0 b then count s0 (bn b 0x458) 1
      else
        let (bl, fallback) := fitted p e f.isValue raw fit
        let s1 := if fallback then count s0 (bn b 0x450) 1 else s0
        let s2 := modPage s1 f.page (fun x =>
          let y := if f.isValue then { x with value := bl } else { x with key := bl }
          if y.key.final && y.value.final then
            { y with state := .sealed, cls := max (classFor y.key.bytes) (classFor y.value.bytes) }
          else y)
        { s2 with tier := { s2.tier with
          moves := s2.tier.moves.filter (fun m => !(m.2.page == f.page && m.2.writable)),
          ready := s2.tier.ready.filter (fun m => !(m.page == f.page && m.writable)) } }
    | _, _, _ => count s0 (bn b 0x458) 1

/-- Every completed fit, in the order of the queue (R129). -/
def applyFits (s : State) : State :=
  s.benches.foldl (fun s b => b.2.fits.foldl (fun s f => applyFit s b.1 f) s) s

/-! ## Weight tiles (R122, R123) -/

/-- Token steps and chunks of a bench dropped for the tick (R42). -/
def dropBench (s : State) (b : Nat) : State :=
  { s with plan := { s.plan with
    units := s.plan.units.map (fun u =>
      if u.bench = b ∧ (u.cls = .step ∨ u.cls = .chunk) then { u with dropped := true } else u),
    benchDrop := (b :: s.plan.benchDrop).eraseDups } }

/-- A face frame given up for a tile rejected twice within 64 ticks (R123, R277): a frame by the layer's own numbering
(R80). -/
def retireTileFrame (s : State) (b tile : Nat) : State :=
  if (bench s b).weightBad.any (fun w => w.1 == tile && decide (s.time.now.tick ≤ w.2 + 64)) then
    let f := Config.pageId s.fresh
    let slice := 64 * ((ownSlices s b .face).headD 0)
    logErr { s.bump with tier := { s.tier with frames := s.tier.frames ++ [(.face, slice, f)] } } .memory 3 (b := b)
      (u := ⟨.face, slice⟩) (d1 := f)
  else s

/-- WEIGHT_BLOCK_REJECT (R122, R123). -/
def weightReject (b tile cause : Nat) (s : State) : State :=
  if decide (1 ≤ cause) && decide (cause ≤ 5) && (bench s b).pkg.isSome then
    let s1 := logErr (count s (bn b (0x418 + 8 * cause)) 1) .block (0x10 + cause) (b := b) (d0 := tile)
    let s2 := retireTileFrame (dropBench s1 b) b tile
    setBench s2 b (fun x => { x with
      weightBad := (x.weightBad.filter (fun w => decide (s.time.now.tick ≤ w.2 + 64))) ++ [(tile, s.time.now.tick)],
      reloading := (tile :: x.reloading).eraseDups })
  else s

def execWeightBlockReject (t : Stamp) (bench tile cause : Nat) (s : State) : Host.Outcome State Fault Refusal :=
  run t (weightReject bench tile cause) s

/-- Tile n of a package, counted through WEIGHTS and then HEADS, with its number in its section. -/
def tileAt (p : Package) (n : Nat) : Option (Block × Nat) :=
  if n < p.tiles.length then (p.tiles[n]?).map (·, n) else (p.headTiles[n - p.tiles.length]?).map (·, n - p.tiles.length)

/-- The package with tile n written anew. -/
def putTile (p : Package) (n : Nat) (b : Block) : Package :=
  if n < p.tiles.length then { p with tiles := p.tiles.set n b }
  else { p with headTiles := p.headTiles.set (n - p.tiles.length) b }

/-- WEIGHT_RELOAD_DONE (R122 steps 2 and 4, R123): the copy read from the backup is checked under R118; the bench
plans again, or is halted where the copy failed too. -/
def weightReload (b tile : Nat) (copy : Block) (s : State) : State :=
  if (bench s b).reloading.contains tile then
    match (bench s b).pkg with
    | none => s
    | some p =>
      let fault := if tileBookOk p copy then tileFault p (if tile < p.tiles.length then tile else tile - p.tiles.length) copy
        else some 2
      match fault with
      | none => setBench s b (fun x => { x with
          reloading := x.reloading.filter (· != tile), pkg := some (putTile p tile copy) })
      | some cause =>
        let s1 := logErr (count s (bn b (0x418 + 8 * cause)) 1) .block (0x10 + cause) (b := b) (d0 := tile)
        haltBench (logErr s1 .block 0x20 (b := b) (d0 := tile)) b
  else s

def execWeightReloadDone (t : Stamp) (bench tile : Nat) (copy : Block) (s : State) : Host.Outcome State Fault Refusal :=
  run t (weightReload bench tile copy) s

/-! ## Losses, quarantine and retirement of units (R414 to R419) -/

/-- The compute tile of an engine, cell or token unit (R16, R56, R409). -/
def tileOf (u : UnitId) : Nat :=
  match u.kind with
  | .engine => u.index / 8
  | .cell => u.index / 512
  | .token => u.index
  | .face => u.index / 512
  | _ => 0

/-! ## Bands and patterns (R415) -/

/-- The temperature band of a tile, from its junction temperature in 0.1 °C (R415, R477). -/
def bandNow (s : State) (tile : Nat) : Nat := min 31 (((tget s.mgmt.sensors (8 + tile)).getD 0).toNat / 50)

/-- Planned cycles of a bench's units of a kind in the tick: its engines share the engine cycles of the plan. -/
def unitLoads (s : State) (b : Nat) (k : UnitKind) : Loads :=
  let c := planCost s b (s.plan.units.filter (fun u => u.bench == b))
  match k with
  | .engine => (enginesOf s b).map (fun e => (e, c.eng / max 1 (enginesOf s b).length))
  | .cell => c.loads
  | _ => []

/-- Planned cycles of a bench on the token unit of a tile: its time there goes by its block engines (R45). -/
def tokenLoad (s : State) (b tile : Nat) : Nat :=
  let es := enginesOf s b
  (planCost s b (s.plan.units.filter (fun u => u.bench == b))).tok * (es.filter (fun e => e / 8 == tile)).length /
    max 1 es.length

/-- The quartile of planned time, in picoseconds, against the plan window of n units (R415). -/
def quartile (s : State) (ps n : Nat) : Nat := min 3 (4 * ps / max 1 (n * horizonOff s * 1000))

/-- Cycles of bench b as picoseconds at its plan clock. -/
def planPs (s : State) (b cycles : Nat) : Nat := cycles * 1000000 / max 1 (planMhz s b)

/-- Benches with a record. -/
def benchNos (s : State) : List Nat := s.fab.maps.benches.map (·.1)

/-- The units of a kind with planned time, over all benches. -/
def timedLoads (s : State) (k : UnitKind) : List (Nat × Nat) :=
  (benchNos s).flatMap (fun b => ((unitLoads s b k).filter (fun x => decide (0 < x.2))).map (fun x => (x.1, planPs s b x.2)))

/-- Bands and patterns of a plan (R415). -/
def activityOf (s : State) : Activity :=
  let es := timedLoads s .engine
  let cs := timedLoads s .cell
  let sum (l : List (Nat × Nat)) (f : Nat → Bool) : Nat := ((l.filter (fun x => f x.1)).map (·.2)).sum
  let tiles := List.range 8
  { bands := tiles.map (bandNow s)
    engTile := tiles.map (fun t => quartile s (sum es (fun e => e / 8 == t)) 8)
    cellTile := tiles.map (fun t => quartile s (sum cs (fun c => c / 512 == t)) 512)
    tokTile := tiles.map (fun t => quartile s ((benchNos s).map (fun b => planPs s b (tokenLoad s b t))).sum 1)
    engs := (es.map (fun x => (x.1, quartile s x.2 1))).filter (fun x => decide (0 < x.2))
    cells := (cs.map (fun x => (x.1, quartile s x.2 1))).filter (fun x => decide (0 < x.2)) }

/-- The band of a unit in the tick. -/
def bandOf (a : Activity) (u : UnitId) : Nat := a.bands.getD (tileOf u) 0

/-- The activity pattern of a unit in the tick (R415). -/
def patternOf (a : Activity) (u : UnitId) : Nat :=
  let t := tileOf u
  let own := match u.kind with
    | .engine => (tget a.engs u.index).getD 0
    | .cell => (tget a.cells u.index).getD 0
    | _ => a.tokTile.getD t 0
  64 * a.engTile.getD t 0 + 16 * a.cellTile.getD t 0 + 4 * own + a.tokTile.getD t 0

/-- What an item carries of a unit: the band and pattern of the tick it was computed in (R414, R415). -/
def actOf (it : Item) (u : UnitId) : Nat × Nat := ((it.acts.find? (fun a => a.1 == u)).map (·.2)).getD (0, 0)

/-- A SHADOW entry. -/
def logShadow (s : State) (cause b : Nat) (u : UnitId) (band pattern status : Nat) : State :=
  logEntry s { cls := .shadow, cause := cause, bench := b, unit := u, band := band, pattern := pattern, status := status }

/-- A unit loses the arbitration of an item (R414). -/
def lose (s : State) (it : Item) (u : UnitId) : State :=
  let a := actOf it u
  logShadow { s with fault := { s.fault with
    losses := s.fault.losses ++ [{ unit := u, stamp := s.time.now, band := a.1, pattern := a.2 }] } } 2 it.bench u a.1 a.2 0

/-- A unit is retired (R418). -/
def retireUnit (s : State) (u : UnitId) : State :=
  if s.fault.retired.contains u then s
  else logShadow { s with fault := { s.fault with retired := s.fault.retired ++ [u] } } 5 31 u 0 0 12

/-- The quarantine record of a unit. -/
def recordOf (s : State) (u : UnitId) : List (Nat × Nat) :=
  ((s.fault.quarantine.find? (fun q => q.1 == u)).map (·.2)).getD []

/-- What one loss does at the commit it takes effect at (R416, R418). -/
def quarantineLoss (s : State) (x : Loss) : State :=
  let hour := 3600 * 1000000000
  let near := s.fault.losses.filter (fun l =>
    l.unit == x.unit && decide (nsOf s l.stamp ≤ nsOf s x.stamp) && decide (nsOf s x.stamp < nsOf s l.stamp + hour))
  let held := recordOf s x.unit
  if held.length = 8 then retireUnit s x.unit
  else if near.length < 3 then s
  else
    let pairs := ((near.drop (near.length - 3)).map (fun l => (l.band, l.pattern))).eraseDups
    let new := pairs.filter (fun p => !held.contains p)
    if new.isEmpty then s
    else
      let all := held ++ new
      let s1 := { s with fault := { s.fault with quarantine :=
        (s.fault.quarantine.filter (fun q => q.1 != x.unit)) ++ [(x.unit, all.take 8)] } }
      let s2 := logShadow s1 4 31 x.unit x.band x.pattern 12
      if 8 < all.length ∨ 4 ≤ (all.map (·.1)).eraseDups.length then retireUnit s2 x.unit else s2

/-- The losses that take effect at commit n (R416), then the benches they leave short (R418). -/
def quarantineStep (s : State) (n : Nat) : State :=
  let new := s.fault.losses.filter (fun l => dueBy s l.stamp n &&
    (match s.time.lastCommit with | some m => decide (m < commitOf s l.stamp) || s.time.early.contains l.stamp | none => true))
  haltShort (new.foldl quarantineLoss s)

/-- Units that a plan's bands and patterns put out of service (R417): pattern equal, band within 1. -/
def outForTick (s : State) (a : Activity) : List UnitId :=
  (s.fault.quarantine.filter (fun q => q.2.any (fun p =>
    p.2 == patternOf a q.1 && decide (p.1 ≤ bandOf a q.1 + 1) && decide (bandOf a q.1 ≤ p.1 + 1)))).map (·.1)

/-! ## Shadow samples (R145 to R149, R185) -/

/-- The header of a partial message (R181): kind 0 ASK, 1 BACKSTOP_ASK, 2 ANSWER, 3 SETTLE; `who` is the requester. -/
def partialHdr (kind tick count len : Nat) (who : ModuleId) (pass layer b fp : Nat) : BitVec 256 :=
  BitVec.ofNat 256 (0x5041 + 2 ^ 16 + fp % 2 ^ 32 * 2 ^ 32 + kind * 2 ^ 72 + b % 16 * 2 ^ 80 + layer % 256 * 2 ^ 88 +
    pass % 2 ^ 16 * 2 ^ 96 + who.toNat % 256 * 2 ^ 112 + who.toNat / 256 * 2 ^ 120 + len % 2 ^ 32 * 2 ^ 128 +
    count % 2 ^ 16 * 2 ^ 160 + tick % 2 ^ 64 * 2 ^ 192)

/-- A SETTLE entry to the peer that was answered from a sampled item (R185). -/
def settleOut (s : State) (it : Item) (retract : Bool) : State :=
  match it.peer with
  | none => s
  | some v =>
    let hdr := partialHdr 3 it.tick 1 48 v.peer v.pass v.layer v.peerBench (benchTag s it.bench)
    let e : BitVec 128 :=
      BitVec.ofNat 128 (v.req % 2 ^ 64 * 2 ^ 64 + v.gFirst % 2 ^ 16 * 2 ^ 48 + (if retract then 2 ^ 32 else 0))
    send s v.peer (some it.bench) (.settle hdr [e])

/-- The steps an item fed are dropped (R148, R149). -/
def dropFed (s : State) (it : Item) : State :=
  { s with plan := { s.plan with units := s.plan.units.map (fun u =>
      if (u.cls = .step ∨ u.cls = .chunk) ∧ it.reqs.contains u.req ∧ u.bench = it.bench then { u with dropped := true } else u) } }

/-- An item leaves the list. -/
def dropItem (s : State) (i : Nat) : State := { s with plan := { s.plan with items := tdel s.plan.items i } }

/-- |a − b| is at most d. -/
def nearRat (a b d : Rat) : Bool := decide (a - b ≤ d) && decide (b - a ≤ d)

/-- The value of a partial's sum of exponentials. -/
def denOf (r : PartialRec) : Rat := fval r.denHi + fval r.denLo

/-- Two cells' results for one row agree (R146): equal maxima, sums within 2⁻¹⁹ relative, every output element within
2⁻¹⁹ × a[i] + 2 × N × 2⁻⁶² × m[i], with a[i] and m[i] as the checking cell computed them. -/
def rowsAgree (x : PartialRec) (y : PartialRec × List (F32 × F32)) : Bool :=
  let r := y.1
  x.count == r.count && (x.count == 0 ||
    (feq x.m r.m && nearRat (denOf x) (denOf r) (denOf r * pow2 (-19)) && decide (0 < denOf x) && decide (0 < denOf r) &&
      x.num.length == r.num.length && y.2.length == r.num.length &&
      (List.zip (List.zip x.num r.num) y.2).all (fun z =>
        nearRat (fval z.1.1 / denOf x) (fval z.1.2 / denOf r)
          (fval z.2.1 * pow2 (-19) + 2 * (r.count : Rat) * pow2 (-62) * fval z.2.2))))

/-- Two results of an item agree; `b` is the checking unit's (R146). -/
def resultsAgree (a b : ItemResult) : Bool :=
  match a, b with
  | .sums x, .sums y => x == y
  | .records x, .records y => x.length == y.length && (List.zip x y).all (fun z => rowsAgree z.1.1 z.2)
  | _, _ => false

/-- SHADOW_RECHECK_DONE (R146, R148): settled, or a mismatch that brings in a third unit. The original's result is the
one the unit produced. -/
def recheckDone (i : Nat) (original found : ItemResult) (s : State) : State :=
  match tget s.plan.items i with
  | none => s
  | some it =>
    if it.mismatch || it.shadow.kind == .none then s
    else if resultsAgree original found then settleOut (count (dropItem s i) (bn it.bench 0x460) 1) it false
    else
      logShadow { count s (bn it.bench 0x470) 1 with plan := { s.plan with
        items := tput s.plan.items i { it with mismatch := true, kept := original, shadowFound := some found } } }
        1 it.bench it.unit 0 0 0

def execShadowRecheckDone (t : Stamp) (item : Nat) (original found : ItemResult) (s : State) :
    Host.Outcome State Fault Refusal :=
  run t (recheckDone item original found) s

/-- ARBITRATION_DONE (R148, R414): the unit the third contradicts loses; without agreement none does. Steps of the
item's own tick stand or fall with it: one not settled before the cut-off drops them, and what it answered was
retracted then. -/
def arbitrationDone (t : Stamp) (i : Nat) (found : ItemResult) (s : State) : State :=
  match tget s.plan.items i with
  | none => s
  | some it =>
    if !it.mismatch then s
    else
      let s0 := count (dropItem s i) (bn it.bench 0x460) 1
      let own := it.tick == t.tick && decide (t.off < cutoffOff s)
      let late := it.tick == t.tick && !own && !it.retracted
      let drop (s : State) : State := settleOut (dropFed s it) it true
      let s1 := if late then drop (logShadow s0 6 it.bench it.unit 0 0 0) else s0
      if resultsAgree it.kept found then
        let s2 := lose s1 it it.shadow
        if own && !it.retracted then settleOut s2 it false else s2
      else
        let withShadow := match it.shadowFound with | some x => resultsAgree x found | none => false
        let s2 := if withShadow then lose s1 it it.unit
          else [it.unit, it.shadow, it.third].foldl (fun s u =>
            logShadow s 3 it.bench u (actOf it u).1 (actOf it u).2 0) s1
        if own && !it.retracted then drop s2 else s2

def execArbitrationDone (t : Stamp) (item : Nat) (found : ItemResult) (s : State) : Host.Outcome State Fault Refusal :=
  run t (arbitrationDone t item found) s

/-- The samples at a cut-off (R147, R148): rechecks not finished are abandoned; an arbitration not finished drops the
steps it fed, retracts the answer it fed, and goes on in later ticks. -/
def itemsAtCutoff (s : State) : State :=
  s.plan.items.foldl (fun s x =>
    let it := x.2
    if !it.mismatch then count (dropItem s x.1) (bn it.bench 0x468) 1
    else if it.tick = s.time.now.tick ∧ !it.retracted then
      let s1 := settleOut (dropFed (logShadow s 6 it.bench it.unit 0 0 0) it) it true
      { s1 with plan := { s1.plan with items := tput s1.plan.items x.1 { it with retracted := true } } }
    else s) s

end Sys2Proof.Machine
end

