-- ==== Sys2Proof/Machine/Attention.lean ====
section
/-! DEFINITION. The arithmetic of the block engines and the attention cells: dense tensors by output-channel group,
the two sweeps of a head run, partial records and their merge (R90 to R103, R132 to R136, R140, R175, R176, R184,
R195, R227). -/

namespace Sys2Proof.Machine

/-! ## Dense tensors (R92, R95, R97, R101, R102, R134, R525) -/

/-- Fields of a tensor entry (R525). -/
def tOut (t : BitVec 256) : Nat := fieldOf t 191 160
def tIn (t : BitVec 256) : Nat := fieldOf t 159 128
def tKind (t : BitVec 256) : Nat := fieldOf t 15 8
def tLayer (t : BitVec 256) : Nat := fieldOf t 7 0
def tActScale (t : BitVec 256) : F32 := BitVec.ofNat 32 (fieldOf t 255 224)

/-- The tiles of output-channel group g of a tensor, in input order (R134, R525). -/
def groupTiles (p : Package) (t : BitVec 256) (g : Nat) : List Block :=
  let n := ceilDiv (tIn t) 128
  ((if tKind t = 0 then p.tiles else p.headTiles).drop (fieldOf t 95 64 + g * n)).take n

/-- Output-channel groups of 128 of a tensor. -/
def tGroups (t : BitVec 256) : Nat := ceilDiv (tOut t) 128

/-- The engine of a bench that runs the whole reduction of group g: no reduction is split (R134). Which engine takes
which group is the layer's own: the engines in service in turn (DESIGN CHOICE, log entry 121). -/
def engineOf (s : State) (b g : Nat) : Option Nat :=
  let es := enginesOf s b
  es[g % max 1 es.length]?

/-- The weight operands of output channel c, in input order: row c mod 128 of the group's tiles as delivered under R90
(log entry 121). -/
def weightOps (p : Package) (t : BitVec 256) (c : Nat) : List Int :=
  (groupTiles p t (c / 128)).flatMap (fun b =>
    (((expand (p.books.getD b.cbIndex default) b).1).drop (c % 128 * b.cols)).take b.cols)

/-- The activation operand of a row entering tensor i, and the values clamped (R95). -/
def actOps (p : Package) (run row code i : Nat) : List Int × Nat :=
  let t := p.tensors.getD i 0
  let rs := (List.range (tIn t)).map (fun j => requant (settled32 (Config.act run row code i j)) (tActScale t))
  (rs.map (·.1), (rs.filter (·.2)).length)

/-- The integer sum of channel c, complete in one accumulator (R97, R134). -/
def denseSum (p : Package) (t : BitVec 256) (a : List Int) (c : Nat) : Int := acc48 (weightOps p t c) a

/-- The result of channel c, scaled once (R101). -/
def denseOut (p : Package) (t : BitVec 256) (a : List Int) (c : Nat) : F32 :=
  scaleSum (denseSum p t a c) (p.scales.getD (fieldOf t 223 192 + c) 0) (tActScale t)

/-- Index of the output head's tensor entry, and of extra head d's (R525). -/
def headTensor (p : Package) : Nat := (p.tensors.findIdx? (fun t => tKind t == 1)).getD p.tensors.length
def extraTensor (p : Package) (d : Nat) : Nat :=
  (p.tensors.findIdx? (fun t => tKind t == 2 && fieldOf t 23 16 == d)).getD p.tensors.length

/-- The logit of a token on a head row (R227, R228): a dot product of the output head, scaled under R101. The
activation that enters it is normed, which R103 leaves outside its bounds: a free value before its requantisation. -/
def logit (p : Package) (run row code tok : Nat) : F32 :=
  let i := headTensor p
  denseOut p (p.tensors.getD i 0) (actOps p run row code i).1 tok

/-! ## Scores and probabilities (R99, R101) -/

/-- The query scale of a layer and query head (R92, R525). -/
def queryScale (p : Package) (l h : Nat) : F32 := p.scales.getD (fieldOf p.scalesHdr 191 160 + l * manQ p.manifest + h) 0

/-- The query operand of a row at a head, and the values clamped (R95). -/
def queryOps (p : Package) (run pos l h : Nat) : List Int × Nat :=
  let rs := (List.range (manDim p.manifest)).map (fun i =>
    requant (settled32 (Config.query run pos l h i)) (queryScale p l h))
  (rs.map (·.1), (rs.filter (·.2)).length)

/-- The scale of a page's half (R92). -/
def kvScale (p : Package) (l h : Nat) (isValue : Bool) : F32 :=
  p.kvScales.getD (2 * (l * manKv p.manifest + h) + (if isValue then 1 else 0)) 0

/-- A position a head attends: its key and value operands. -/
structure KvRow where
  pos : Nat
  key : List Int
  value : List Int
  deriving DecidableEq, Repr

/-- The rows of a page below a position, as the expander delivers them (R90, R113, R180). -/
def pageRows (p : Package) (e : Entry) (below : Nat) : List KvRow :=
  let d := manDim p.manifest
  let ks := (expand (kvBook p e false) e.key).1
  let vs := (expand (kvBook p e true) e.value).1
  (List.range (min e.rows (below - 64 * e.group))).map (fun r =>
    { pos := 64 * e.group + r, key := (ks.drop (r * d)).take d, value := (vs.drop (r * d)).take d })

/-- The scores of a query row against held rows (R97, R101). Both sweeps of a run form them by the same steps (R140).
-/
def scores (sq sk : F32) (q : List Int) (rows : List KvRow) : List F32 := rows.map (fun r => scaleSum (acc48 q r.key) sq sk)

/-- The maximum sweep: m of R99 over the positions held (R140). -/
def maxScore : List F32 → F32
  | [] => 0
  | x :: l => l.foldl (fun a y => if flt a y then y else a) x

/-- The range reduction of R99: k, and r = x + k ln 2 within half of ln 2 of zero. -/
def reduce (x : F32) : Nat × Rat :=
  let k := (roundAway (-(fval x) / ln2)).toNat
  let r := fval x + (k : Rat) * ln2
  if ln2 / 2 < r then (k - 1, r - ln2) else if r < -(ln2 / 2) then (k + 1, r + ln2) else (k, r)

/-- exp(r) in FP32 within 2⁻²³ relative (R99): a free value held to that bound, 1 at r = 0. -/
def expOf (x : F32) (r : Rat) : F32 :=
  let y := expRat r
  if r = 0 then fl 1 else within (fun f => nearBy f y (y * pow2 (-23))) (Config.expF x) (fl y)

/-- k and the mantissa u of a score below the maximum m (R99). -/
def probOf (m s : F32) : Nat × Nat :=
  let x := fsub s m
  let (k, r) := reduce x
  (k, (roundAway (fval (expOf x r) * pow2 22)).toNat)

/-- The three signed 8-bit limbs of a mantissa, lowest first (R99). -/
def limbs (u : Nat) : List Int :=
  let low (n : Int) : Int := (n + 128) % 256 - 128
  let a : Int := u
  let b := (a - low a) / 256
  [low a, low b, (b - low b) / 256]

/-- One product u × v in three passes combined in the accumulator (R99, R132). -/
def limbProduct (u : Nat) (v : Int) : BitVec 48 :=
  (limbs u).zipIdx.foldl (fun a x => a + BitVec.ofInt 48 (x.1 * v * 256 ^ x.2)) 0

/-! ## Compensated FP32 pairs (R100, R184, R195) -/

/-- An unevaluated sum of two FP32 values. -/
abbrev Pair := F32 × F32

/-- The exact sum transformation. -/
def twoSum (a b : F32) : Pair :=
  let s := fadd a b
  (s, fl (fval a + fval b - fval s))

/-- The exact product transformation. -/
def twoProd (a b : F32) : Pair :=
  let m := fmul a b
  (m, fl (fval a * fval b - fval m))

def compAdd (a b : Pair) : Pair :=
  let (s, e) := twoSum a.1 b.1
  twoSum s (fadd e (fadd a.2 b.2))

def compMul (a b : Pair) : Pair :=
  let (m, e) := twoProd a.1 b.1
  twoSum m (fadd e (fadd (fmul a.1 b.2) (fmul a.2 b.1)))

/-- The value of a pair, correctly rounded. -/
def pairValue (a : Pair) : F32 := fl (fval a.1 + fval a.2)

/-- exp of x ≤ 0 as a pair within 2⁻⁴⁰ relative (R195). -/
def expPair (x : F32) : Pair :=
  let (k, r) := reduce x
  let y := expRat r * pow2 (-(k : Int))
  let hi := fl y
  (hi, within (fun f => nearBy (fval hi + f) y (y * pow2 (-40))) (Config.expF (fneg x)) (fl (y - fval hi)))

/-! ## Buckets and spans (R100, R101, R136) -/

/-- A live bucket of a row: its exponent k, positions in the span, Σ u and Σ u·v by element. -/
structure Bucket where
  k : Nat
  n : Nat
  den : BitVec 48
  num : List (BitVec 48)
  deriving DecidableEq, Repr

/-- A row's sums in progress: at most four live buckets and the compensated sums. -/
structure RowSums where
  live : List Bucket := []
  count : Nat := 0
  den : Pair := (0, 0)
  num : List Pair := []
  deriving DecidableEq, Repr

/-- The scaling of a probability-by-value sum of bucket k (R101); 1 is the scale of the denominator. -/
def scaleProb (sum : BitVec 48) (sv : F32) (k : Nat) : F32 := fmul (fmul (fofInt sum.toInt) sv) (fl (pow2 (-(k + 22 : Int))))

/-- A bucket's span closed: scaled once and added to the row's compensated sums (R100, R136). -/
def closeBucket (sv : F32) (a : RowSums) (b : Bucket) : RowSums :=
  { a with
    live := a.live.filter (fun x => x.k != b.k),
    den := compAdd a.den (scaleProb b.den (fl 1) b.k, 0),
    num := List.zipWith (fun x y => compAdd x (scaleProb y sv b.k, 0)) a.num b.num }

/-- The live bucket with the highest k. -/
def topBucket (l : List Bucket) : Option Bucket :=
  l.foldl (fun a b => match a with
    | some x => if x.k < b.k then some b else a
    | none => some b) none

/-- A position joins the span of its bucket; a fifth bucket closes the one with the highest k, and a span of 8,192
positions closes (R98, R100, R136). A position with k ≥ 64 contributes nothing. -/
def addRow (sv : F32) (a : RowSums) (x : (Nat × Nat) × List Int) : RowSums :=
  let (k, u) := x.1
  let a0 := { a with count := a.count + 1 }
  if 64 ≤ k then a0
  else
    let a1 :=
      if a0.live.any (fun b => b.k == k) then a0
      else
        let a' := if a0.live.length < 4 then a0
          else match topBucket a0.live with
            | some b => closeBucket sv a0 b
            | none => a0
        { a' with live := a'.live ++ [{ k := k, n := 0, den := 0, num := x.2.map (fun _ => 0) }] }
    let a2 := { a1 with live := a1.live.map (fun b =>
      if b.k = k then { b with
        n := b.n + 1, den := b.den + BitVec.ofNat 48 u,
        num := List.zipWith (fun y v => y + limbProduct u v) b.num x.2 } else b) }
    match a2.live.find? (fun b => b.k == k && b.n == 8192) with
    | some b => closeBucket sv a2 b
    | none => a2

/-- The main sweep of one query row over held rows: its partial record (R99, R100, R140, R184). Compensated sums run
in the order of the rows given (log entry 122). -/
def partialOf (dim : Nat) (sq sk sv : F32) (q : List Int) (rows : List KvRow) : PartialRec :=
  match rows with
  | [] => { count := 0, denLo := 0, denHi := 0, m := 0, num := List.replicate dim 0 }
  | _ =>
    let ss := scores sq sk q rows
    let m := maxScore ss
    let a0 : RowSums := { num := List.replicate dim (0, 0) }
    let a := (List.zip (ss.map (probOf m)) (rows.map (·.value))).foldl (addRow sv) a0
    let z := a.live.foldl (closeBucket sv) a
    { count := z.count, denLo := z.den.2, denHi := z.den.1, m := m, num := z.num.map pairValue }

/-! ## The merge (R195) -/

/-- What a merge leaves: the output, the maximum and the denominator. -/
structure Merged where
  out : List F32
  m : F32
  den : F32
  deriving DecidableEq, Repr

/-- The partials of a row and head merged in the order they arrived (R195). -/
def mergeRecs (dim : Nat) (recs : List PartialRec) : Merged :=
  let live := recs.filter (fun r => decide (0 < r.count))
  let mm := maxScore (live.map (·.m))
  let z := live.foldl (fun (a : Pair × List Pair) r =>
    let x := fsub r.m mm
    if fval x < -64 * ln2 then a
    else
      let f := expPair x
      (compAdd a.1 (compMul f (r.denHi, r.denLo)), List.zipWith (fun n y => compAdd n (compMul f (y, 0))) a.2 r.num))
    ((0, 0), List.replicate dim (0, 0))
  let den := pairValue z.1
  { out := z.2.map (fun n => fdiv (pairValue n) den), m := mm, den := den }

/-- The log-sum-exp of a merged row (R175). -/
def lseOf (x : Merged) : F32 := fadd x.m (lnF x.den)

/-! ## A row of this module's own (R140, R178) -/

/-- The rows of this module a query head attends below position `below`: its KV head's local primary pages in
ascending order, those the unit ran without left out (R178, R196). -/
def localRows (s : State) (p : Package) (c : Conv) (lacked : List PageRef) (l h below : Nat) : List KvRow :=
  let kv := h / max 1 (headGroup p)
  (c.entries.filter (fun e => e.layer == l && e.head == kv && e.state != .replica && isLocal s e &&
    !lacked.contains (entryPage e c.key))).flatMap (fun e => pageRows p e below)

/-- The local partial of a row that stands at position `pos`; `row` names its query operands (R178, R182). -/
def localPartial (s : State) (p : Package) (c : Conv) (lacked : List PageRef) (run row pos l h : Nat) : PartialRec :=
  let kv := h / max 1 (headGroup p)
  partialOf (manDim p.manifest) (queryScale p l h) (kvScale p l kv false) (kvScale p l kv true)
    (queryOps p run row l h).1 (localRows s p c lacked l h (pos + 1))

/-- What the spans of a row brought: by layer and query head, in order of arrival. -/
abbrev FarParts := Nat → Nat → List PartialRec

/-- The merged attention of a row at a position (R195). -/
def mergedRow (s : State) (p : Package) (c : Conv) (lacked : List PageRef) (far : FarParts) (run row pos l h : Nat) :
    Merged :=
  mergeRecs (manDim p.manifest) (localPartial s p c lacked run row pos l h :: far l h)

/-- The log-probability of a token over the unmasked logits of the output head at temperature 1 (R176). -/
def logprob (p : Package) (run row code tok : Nat) : F32 :=
  let zs := (List.range (manVocab p.manifest)).map (logit p run row code)
  let top := maxScore zs
  let den := zs.foldl (fun a z => fadd a (settled32 (Config.expF (fsub z top)))) 0
  fsub (fsub (logit p run row code tok) top) (lnF den)

/-! ## Elements saturated and clipped (R95, R113) -/

/-- Activation and query values clamped for the rows from..from+n−1 of a run, through every tensor and head (R95). -/
def rowClamps (p : Package) (run from_ n : Nat) : Nat :=
  (List.range n).foldl (fun a i =>
    let acts := (List.range p.tensors.length).foldl (fun a t =>
      if tKind (p.tensors.getD t 0) = 0 then a + (actOps p run (from_ + i) 0 t).2 else a) a
    (List.range (manLayers p.manifest)).foldl (fun a l =>
      (List.range (manQ p.manifest)).foldl (fun a h => a + (queryOps p run (from_ + i) l h).2) a) acts) 0

/-- Elements clipped by the expander in one expansion of a page's half. -/
def halfClips (p : Package) (e : Entry) (isValue : Bool) : Nat :=
  (expand (kvBook p e isValue) (if isValue then e.value else e.key)).2

/-- Elements clipped in the head runs of a unit of n positions over a conversation's local pages: a KEY block is
expanded by both sweeps of each row set, a VALUE block by the main sweep (R113, R140). -/
def pageClips (s : State) (p : Package) (c : Conv) (n : Nat) : Nat :=
  let sets := ceilDiv (headGroup p * n) (max 1 (rowsSet (manDim p.manifest) (kvWide p)))
  (c.entries.filter (fun e => e.state != .replica && isLocal s e)).foldl (fun a e =>
    a + sets * (2 * halfClips p e false + halfClips p e true)) 0

/-- Elements clipped in one expansion of every weight tile. -/
def tileClips (p : Package) : Nat :=
  (p.tiles ++ p.headTiles).foldl (fun a b => a + (expand (p.books.getD b.cbIndex default) b).2) 0

end Sys2Proof.Machine
end

