-- ==== Sys2Proof/Machine/Partials.lean ====
section
/-! DEFINITION. Partial attention between modules: spans, asks, answers, settlements, the tier-miss policies, and the
units that check a sampled item (R146, R177 to R197, R414). -/

namespace Sys2Proof.Machine

/-! ## Checking units (R146, R148, R414) -/

/-- The in-service unit of a bench with the fewest planned cycles, off the tile of `orig` where the bench spans more
than one, and none of `not_` (R146). -/
def checker (s : State) (b : Nat) (orig : UnitId) (not_ : List UnitId) : Option UnitId :=
  let kin := (unitLoads s b orig.kind).filter (fun x => !not_.contains ⟨orig.kind, x.1⟩)
  let far := kin.filter (fun x => tileOf ⟨orig.kind, x.1⟩ != tileOf orig)
  (leastCell (if far.isEmpty then kin else far)).map (fun i => ⟨orig.kind, i⟩)

/-- The shadow unit of an item (R146). -/
def shadowOf (s : State) (b : Nat) (orig : UnitId) : Option UnitId := checker s b orig [orig]

/-- Units of a kind on the module. -/
def moduleUnits (k : UnitKind) : Nat := match k with | .engine => 64 | .cell => 4096 | _ => 0

/-- The third unit: of the bench, else the one of the module with the fewest planned cycles (R146, R414). -/
def thirdOf (s : State) (b : Nat) (orig shadow : UnitId) : Option UnitId :=
  match checker s b orig [orig, shadow] with
  | some u => some u
  | none =>
    let busy := (List.range 16).flatMap (fun x => unitLoads s x orig.kind)
    let idle := (List.range (moduleUnits orig.kind)).filterMap (fun i =>
      let u : UnitId := ⟨orig.kind, i⟩
      if inService s u && u != orig && u != shadow then
        some (i, ((busy.find? (fun x => x.1 == i)).map (·.2)).getD 0)
      else none)
    (leastCell idle).map (fun i => ⟨orig.kind, i⟩)

/-- An item of a unit taken as a sample: its checking units are named and its operands kept (R145, R146). -/
def putItem (s : State) (it : Item) : State :=
  let i := freeKey s.plan.items (s.plan.items.length + 1) 0
  let none_ : UnitId := ⟨.none, 0⟩
  let sh := shadowOf s it.bench it.unit
  let th := sh.bind (thirdOf s it.bench it.unit)
  let acts := ([some it.unit, sh, th].filterMap id).map (fun u => (u, bandOf s.plan.activity u, patternOf s.plan.activity u))
  let named := { it with shadow := sh.getD none_, third := th.getD none_, tick := s.time.now.tick, acts := acts }
  { s with plan := { s.plan with items := tput s.plan.items i named } }

/-! ## Spans and asks (R178, R179, R181, R182) -/

/-- Span length limit, partial share, and the wait for a layer's asks in ns. -/
def spanGroups (s : State) (b : Nat) : Nat := bnF s b 0xA0 6 0
def partialShare (s : State) (b : Nat) : Nat := bnF s b 0xA0 25 16
def remoteNs (s : State) (b : Nat) : Nat := 1000 * bnF s b 0xA0 41 32

/-- A set of modules as an ascending list. -/
def moduleSet (l : List ModuleId) : List ModuleId := (l.foldl (fun a m => insNat m.toNat a) []).map (BitVec.ofNat 16)

/-- Primary pages of a group and layer that one module holds. -/
def heldBy (c : Conv) (g l : Nat) (h : ModuleId) : List Entry :=
  c.entries.filter (fun e => e.group == g && e.layer == l && e.state != .replica && e.tier == .remote && e.holder == h)

/-- The modules that hold pages of a layer, ascending (R178). -/
def layerHolders (c : Conv) (l : Nat) : List ModuleId :=
  moduleSet ((c.entries.filter (fun e => e.layer == l && e.state != .replica && e.tier == .remote)).map (·.holder))

/-- Groups of a layer a module holds pages of, ascending. -/
def groupsHeld (c : Conv) (l : Nat) (h : ModuleId) : List Nat := (groupsOf c).filter (fun g => !(heldBy c g l h).isEmpty)

/-- The replica holders of a group's pages at a holder: a set (R179). -/
def groupReplicas (c : Conv) (g l : Nat) (h : ModuleId) : List ModuleId :=
  moduleSet ((c.entries.filter (fun e => e.group == g && e.layer == l && e.state == .replica &&
    (heldBy c g l h).any (fun x => x.head == e.head))).map (·.holder))

/-- Runs of consecutive groups with one set of replica holders, as long as the limit allows (R179): first group,
groups and replica holders. -/
def spanRuns (c : Conv) (l : Nat) (h : ModuleId) (limit : Nat) : List Nat → List (Nat × Nat × List ModuleId) →
    List (Nat × Nat × List ModuleId)
  | [], acc => acc
  | g :: rest, acc =>
    let rs := groupReplicas c g l h
    match acc.getLast? with
    | some (first, n, rs') =>
      if first + n = g ∧ rs = rs' ∧ n < limit then spanRuns c l h limit rest (acc.dropLast ++ [(first, n + 1, rs')])
      else spanRuns c l h limit rest (acc ++ [(g, 1, rs)])
    | none => spanRuns c l h limit rest (acc ++ [(g, 1, rs)])

/-- The spans of a unit, every layer and holder. -/
def unitSpans (s : State) (u : WorkUnit) (pass : Nat) : List Span :=
  match conv s u.conv with
  | none => []
  | some c =>
    (List.range c.layers).flatMap (fun l => (layerHolders c l).flatMap (fun h =>
      (spanRuns c l h (spanGroups s u.bench) (groupsHeld c l h) []).map (fun r =>
        { req := u.req, bench := u.bench, pass := pass, layer := l, gFirst := r.1, gCount := r.2.1, holder := h,
          replicas := r.2.2,
          isSealed := (List.range r.2.1).all (fun i => (heldBy c (r.1 + i) l h).all (fun e => e.state == .sealed)) })))

/-- The query scales of a layer, in head order, and the query operands of a unit's rows: by position, head and element
(R92, R95, R182). -/
def askScales (p : Package) (l : Nat) : List F32 := (List.range (manQ p.manifest)).map (queryScale p l)
def askOps (p : Package) (run first n l : Nat) : List Byte :=
  (List.range n).flatMap (fun i => (List.range (manQ p.manifest)).flatMap (fun h =>
    (queryOps p run (first + i) l h).1.map (BitVec.ofInt 8)))

/-- Bytes of an ask entry (R182). -/
def askLen (spans scales ops : Nat) : Nat := 32 + 32 * ceilDiv (4 * spans) 32 + 4 * scales + 32 * ceilDiv ops 32

/-- An ask entry for one request at one layer (R182). -/
def askEntry (s : State) (u : WorkUnit) (c : Conv) (l : Nat) (spans : List Span) : AskEntry :=
  let pos := unitRows s u
  let p := (bench s u.bench).pkg
  let scales := (p.map (askScales · l)).getD []
  let ops := (p.map (fun p => askOps p u.run c.length pos l)).getD []
  { hdr := BitVec.ofNat 256 (askLen spans.length scales.length ops.length % 2 ^ 32 + scales.length % 256 * 2 ^ 40 +
      pos % 2 ^ 16 * 2 ^ 48 + spans.length % 2 ^ 16 * 2 ^ 80 + c.length % 2 ^ 32 * 2 ^ 96 + u.conv % 2 ^ 64 * 2 ^ 128 +
      u.req % 2 ^ 64 * 2 ^ 192),
    spans := spans.map (fun x => BitVec.ofNat 32 (x.gFirst % 2 ^ 16 + x.gCount % 256 * 2 ^ 16)),
    scales := scales, ops := ops }

/-- A list in pieces of at most n. -/
def pieces {α : Type} (n : Nat) : Nat → List α → List (List α)
  | 0, _ => []
  | f + 1, l => if l.isEmpty then [] else l.take n :: pieces n f (l.drop n)

/-- The unit of a request whose rows its spans serve. -/
def spanUnit (s : State) (b k : Nat) : Option WorkUnit :=
  s.plan.units.find? (fun u => u.req == k && u.bench == b && (u.cls == .step || u.cls == .chunk))

/-- One message to a module for the spans of a bench, pass and layer: an entry of each request, more where it lists
more than 1,024 spans (R179, R181, R182). -/
def sendAskTo (s : State) (kind : Nat) (spans : List Span) (dst : ModuleId) : State :=
  match spans with
  | [] => s
  | x :: _ =>
    let entries := ((spans.map (·.req)).eraseDups).flatMap (fun k =>
      match spanUnit s x.bench k with
      | some u =>
        let mine := spans.filter (fun y => y.req == k)
        ((conv s u.conv).map (fun c => (pieces 1024 mine.length mine).map (askEntry s u c x.layer))).getD []
      | none => [])
    let len := entries.foldl (fun a e => a + fieldOf e.hdr 31 0) 32
    send s dst (some x.bench) (.ask (partialHdr kind s.time.now.tick entries.length len s.fab.self x.pass x.layer x.bench
      (benchTag s x.bench)) entries)

/-- Spans asked of modules: one message for each bench, pass, layer and module. -/
def sendAsks (s : State) (kind : Nat) (asks : List (Span × ModuleId)) : State :=
  let keys := (asks.map (fun x => (x.1.bench, x.1.pass, x.1.layer, x.2))).eraseDups
  keys.foldl (fun s k => sendAskTo s kind ((asks.filter (fun x =>
    x.1.bench == k.1 && x.1.pass == k.2.1 && x.1.layer == k.2.2.1 && x.2 == k.2.2.2)).map (·.1)) k.2.2.2) s

/-! ## The requester: layer after layer (R191) -/

/-- A span is complete, or settled under SHORT_SIGHT for a row set aside. -/
def spanDone (x : Span) : Bool := x.accepted || (x.givenUp && x.aside)

/-- Spans of the plan changed. -/
def mapSpans (s : State) (f : Span → Span) : State := { s with plan := { s.plan with spans := s.plan.spans.map f } }

/-- The row of a span still runs. -/
def rowRuns (s : State) (x : Span) : Bool := match spanUnit s x.bench x.req with | some u => !u.dropped | none => false

/-- The asks of a span's layer may go out: its row has done the layers before, and so has every row its pass still
waits for (R191). -/
def askable (s : State) (x : Span) : Bool :=
  x.askStamp.isNone && !spanDone x && rowRuns s x && s.plan.spans.all (fun y =>
    spanDone y || decide (x.layer ≤ y.layer) ||
      !((y.req == x.req && y.bench == x.bench) || (y.bench == x.bench && y.pass == x.pass && !y.aside && rowRuns s y)))

/-- The asks of every layer that a pass or a row set aside has reached. -/
def askNext (s : State) : State :=
  let l := if synced s && !s.plan.cut then s.plan.spans.filter (askable s) else []
  if l.isEmpty then s
  else sendAsks (mapSpans s (fun x => if l.contains x then { x with askStamp := some s.time.now } else x)) 0
    (l.map (fun x => (x, x.holder)))

/-- The spans of the plan formed at the start of the tick, and the first layer's asked for. -/
def startSpans (s : State) : State :=
  let work := s.plan.units.filter (fun u => (u.cls == .step || u.cls == .chunk) && !u.dropped)
  let passed := work.foldl (fun (a : List (Nat × Nat) × List Span) u =>
    let n := ((a.1.find? (fun x => x.1 == u.bench)).map (·.2)).getD 0
    let pass := match (bench s u.bench).pkg with
      | some p => n / max 1 (rowsPass p)
      | none => 0
    ((u.bench, n + unitRows s u) :: a.1.filter (fun x => x.1 != u.bench), a.2 ++ unitSpans s u pass)) ([], [])
  askNext { s with plan := { s.plan with spans := passed.2 } }

/-! ## Setting aside and the backstop (R191, R192, R196) -/

/-- The policy SHORT_SIGHT applies to a request: its bench's field, except for a striped one (R82, R197). -/
def sightOf (s : State) (k : Nat) : Bool :=
  match req s k with
  | some r => shortSight s r.bench && (match conv s r.conv with | some c => c.stripe.isNone | none => true)
  | none => false

/-- A replica may answer for the span: its groups are all SEALED and carry replicas (R192). -/
def hasBackup (x : Span) : Bool := x.isSealed && !x.replicas.isEmpty

/-- BACKSTOP_ASK for the incomplete spans asked for that satisfy `p`, to every replica holder; each span is counted
once for each holder (R192; log entry 127). -/
def backstopAsks (s : State) (p : Span → Bool) : State :=
  let todo := s.plan.spans.filter (fun x => p x && !x.accepted && !x.asked && x.askStamp.isSome && hasBackup x)
  if todo.isEmpty then s
  else
    let s1 := mapSpans s (fun x => if todo.contains x then { x with asked := true, backStamp := some s.time.now } else x)
    let asks := todo.flatMap (fun x => x.replicas.map (fun h => (x, h)))
    sendAsks (asks.foldl (fun s a => count s (bn a.1.bench 0x490) 1) s1) 1 asks

/-- The instant a layer's wait ends (R191). -/
def waitEnds (s : State) (x : Span) : Option Stamp := x.askStamp.map (fun a => stampAdd s a (remoteNs s x.bench))

/-- The wait of a span has ended by t. -/
def waitOver (s : State) (t : Stamp) (x : Span) : Bool := match waitEnds s x with | some e => stampLe e t | none => false

/-- A row set aside runs its later layers in a trailing pass of its own (R191). -/
def trail (s : State) (b layer : Nat) (ks : List Nat) : State :=
  ks.foldl (fun s k =>
    let p := 1 + s.plan.spans.foldl (fun a x => max a x.pass) 0
    mapSpans s (fun x => if x.req = k ∧ x.bench = b ∧ layer < x.layer ∧ x.askStamp.isNone then { x with pass := p } else x)) s

/-- REMOTE_WAIT_EXPIRY (R191, R192, R196): rows whose spans at the layer are not all complete are set aside, each row
counted once in the tick; after the backstop their spans are asked of the replicas; under SHORT_SIGHT a span no
replica can answer for is settled at once. The others go on. -/
def remoteWait (t : Stamp) (b pass layer : Nat) (s : State) : State :=
  let here (x : Span) : Bool := x.bench == b && x.pass == pass && x.layer == layer && waitOver s t x
  let late := ((s.plan.spans.filter (fun x => here x && !spanDone x && !x.aside)).map (·.req)).eraseDups
  let new := late.filter (fun k => !s.plan.spans.any (fun x => x.req == k && x.bench == b && x.aside))
  let rows := (s.plan.units.filter (fun u => new.contains u.req && u.bench == b && (u.cls == .step || u.cls == .chunk))).foldl
    (fun a u => a + unitRows s u) 0
  let s1 := mapSpans (count s (bn b 0x488) rows) (fun x =>
    if here x && late.contains x.req && !x.accepted then
      { x with aside := true, asideAt := some t, givenUp := x.givenUp || (!hasBackup x && sightOf s x.req) }
    else x)
  let s2 := trail s1 b layer late
  askNext (if decide (backstopOff s ≤ t.off) then backstopAsks s2 (fun x => here x && x.aside) else s2)

/-- Waits that have ended by t, each taken at its own end (R191). -/
def expireWaits (t : Stamp) (s : State) : State :=
  let due := s.plan.spans.filter (fun x => waitOver s t x && !spanDone x && !x.aside)
  ((due.map (fun x => (x.bench, x.pass, x.layer))).eraseDups).foldl (fun s k => remoteWait t k.1 k.2.1 k.2.2 s) s

def execRemoteWaitExpiry (t : Stamp) (bench pass layer : Nat) (s : State) : Host.Outcome State Fault Refusal :=
  run t (fun s => if synced s && !s.plan.cut then remoteWait t bench pass layer s else s) s

/-- The instant SHORT_SIGHT settles a span without a complete answer, once its row is set aside (R196): the later of
that and the end of the replicas' wait, or of that alone where no replica can answer. -/
def giveUpAt (s : State) (x : Span) : Option Stamp :=
  match x.asideAt, x.backStamp with
  | none, _ => none
  | some a, some q => some (stampMax a (stampAdd s q (remoteNs s x.bench)))
  | some a, none => if hasBackup x then none else some a

/-- SHORT_SIGHT_GIVE_UP (R196). -/
def giveUp (t : Stamp) (k layer g : Nat) (s : State) : State :=
  askNext (mapSpans s (fun x =>
    if x.req = k ∧ x.layer = layer ∧ x.gFirst = g ∧ sightOf s k ∧ !x.accepted ∧
        (match giveUpAt s x with | some e => stampLe e t | none => false) = true then { x with givenUp := true }
    else x))

def execShortSightGiveUp (t : Stamp) (req layer gFirst : Nat) (s : State) : Host.Outcome State Fault Refusal :=
  run t (fun s => if s.plan.cut then s else giveUp t req layer gFirst s) s

/-- Positions left out by a span merged short (R196): those of pages masked at it, or all of it without an answer. -/
def gapOf (x : Span) (kv : Nat) : List Nat :=
  let groups := match x.held with
    | some mask => (List.range x.gCount).filter (fun i =>
        (List.range kv).any (fun h =>
          let bit := h * x.gCount + i
          (mask.getD (bit / 64) 0).toNat.testBit (bit % 64)))
    | none => List.range x.gCount
  groups.flatMap (fun i => (List.range 64).map (fun p => 64 * (x.gFirst + i) + p))

/-! ## Answers and settlements (R183, R185, R186, R193, R194) -/

/-- The header of a partial message keeps R181 for a kind, an entry count and the message's bytes. -/
def partialHdrOk (h : BitVec 256) (kind count len : Nat) : Bool :=
  fieldOf h 15 0 == 0x5041 && fieldOf h 31 16 == 1 && zeroAt h 71 64 && fieldOf h 79 72 == kind && zeroAt h 87 84 &&
    zeroAt h 191 176 && fieldOf h 175 160 == count && decide (1 ≤ count) && fieldOf h 159 128 == len

/-- Bytes of an answer entry (R183, R184). -/
def answerLen (mask recs dim : Nat) : Nat := 32 + 8 * mask + recs * (16 + 4 * dim)

/-- Bits of the mask above the pages of the span are 0 (R183). -/
def maskOk (mask : List Word) (n : Nat) : Bool :=
  mask.length == ceilDiv n 64 && (List.range (64 * mask.length)).all (fun i =>
    decide (i < n) || !(mask.getD (i / 64) 0).toNat.testBit (i % 64))

/-- A record's num has head_dim values, and an empty record is all zero (R184). -/
def recOk (dim : Nat) (r : PartialRec) : Bool :=
  r.num.length == dim &&
    (r.count != 0 || (r.denLo == 0 && r.denHi == 0 && r.m == 0 && r.num.all (fun x => x == 0)))

/-- The answer is to the span asked of that module. -/
def answersTo (src : ModuleId) (b layer : Nat) (e : BitVec 256) (x : Span) : Bool :=
  x.req == fieldOf e 255 192 && x.layer == layer && x.gFirst == fieldOf e 95 80 && x.bench == b &&
    (x.holder == src || x.replicas.contains src)

/-- An answer entry carries what its ask said (R183). -/
def asAsked (s : State) (src : ModuleId) (b layer : Nat) (e : BitVec 256) : Bool :=
  match s.plan.spans.find? (answersTo src b layer e) with
  | none => true
  | some x =>
    match spanUnit s b x.req with
    | none => true
    | some u => fieldOf e 79 72 == x.gCount && fieldOf e 63 48 == unitRows s u && fieldOf e 47 40 == manQ (manOf s b) &&
        (match conv s u.conv with | some c => fieldOf e 127 96 == c.length | none => true)

/-- An answer entry keeps R183 and R184 for a bench's model. -/
def answerOk (m : BitVec 1024) (e : AnswerEntry) : Bool :=
  let st := fieldOf e.hdr 71 68
  let n := fieldOf e.hdr 63 48 * fieldOf e.hdr 47 40
  zeroAt e.hdr 191 128 && zeroAt e.hdr 66 64 && fieldOf e.hdr 39 32 == e.mask.length && decide (1 ≤ fieldOf e.hdr 79 72) &&
    decide (fieldOf e.hdr 79 72 ≤ 64) && (if st = 1 then maskOk e.mask (manKv m * fieldOf e.hdr 79 72) else e.mask.isEmpty) &&
    e.recs.length == (if st ≤ 1 then n else 0) && e.recs.all (recOk (manDim m)) &&
    fieldOf e.hdr 31 0 == answerLen e.mask.length e.recs.length (manDim m)

/-- Mask bits set. -/
def maskCount (m : List Word) : Nat := m.foldl (fun a w => a + (setBits w.toNat 64).length) 0

/-- The place of the next answer in the order of arrival (R195). -/
def nextOrder (s : State) : Nat := 1 + s.plan.spans.foldl (fun a x => max a x.order) 0

/-- One answer entry at the requester (R193, R194). A span that SHORT_SIGHT has settled for a row that went on takes
no more answers (DESIGN CHOICE, log entry 128). -/
def takeAnswer (t : Stamp) (src : ModuleId) (b layer tick : Nat) (s : State) (e : AnswerEntry) : State :=
  let k := fieldOf e.hdr 255 192
  let st := fieldOf e.hdr 71 68
  let is (x : Span) : Bool := answersTo src b layer e.hdr x
  let live := s.plan.units.any (fun u => u.req == k && u.bench == b && !u.dropped && (u.cls == .step || u.cls == .chunk))
  if tick ≠ s.time.now.tick ∨ s.plan.cut ∨ cutoffOff s ≤ t.off ∨ !live then count s (bn b 0x4A0) 1
  else
    match s.plan.spans.find? is with
    | none => s
    | some x =>
      let took (y : Span) : Span := { y with
        sampled := bitOf e.hdr 67, settled := none, source := some src, order := nextOrder s, recs := e.recs }
      if x.accepted then count s (bn b 0x498) 1
      else if spanDone x then s
      else if st = 0 then mapSpans s (fun y => if is y then { took y with accepted := true, held := none } else y)
      else if st = 1 then
        let better := match x.held with
          | some m => decide (maskCount e.mask < maskCount m)
          | none => true
        if better then mapSpans s (fun y => if is y then { took y with held := some e.mask } else y) else s
      else if st = 2 ∧ src = x.holder then logErr s .message 2 (b := b) (d0 := k) (d1 := x.gFirst)
      else s

/-- PARTIAL_ANSWER (R186, R191, R193, R194). -/
def partialAnswer (t : Stamp) (src : ModuleId) (hdr : BitVec 256) (es : List AnswerEntry) (s : State) : State :=
  let b := fieldOf hdr 83 80
  let layer := fieldOf hdr 95 88
  if !partialHdrOk hdr 2 es.length (es.foldl (fun a e => a + fieldOf e.hdr 31 0) 32) ||
      !es.all (fun e => answerOk (manOf s b) e && asAsked s src b layer e.hdr) then malformed s
  else askNext (es.foldl (takeAnswer t src b layer (fieldOf hdr 255 192)) (if s.plan.cut then s else expireWaits t s))

def execPartialAnswer (t : Stamp) (src : ModuleId) (hdr : BitVec 256) (es : List AnswerEntry) (s : State) :
    Host.Outcome State Fault Refusal := runLink t (partialAnswer t src hdr es) s

/-- The span a settlement is of: the answer it holds was that module's, and sampled (R185). -/
def settles (src : ModuleId) (b layer : Nat) (e : BitVec 128) (x : Span) : Bool :=
  x.req == fieldOf e 127 64 && x.layer == layer && x.gFirst == fieldOf e 63 48 && x.bench == b && x.sampled &&
    x.source == some src

/-- One settlement (R185): agreement is kept with the span; a retraction drops the row it fed. -/
def takeSettle (src : ModuleId) (b layer : Nat) (s : State) (e : BitVec 128) : State :=
  let agree := !bitOf e 32
  let s1 := mapSpans s (fun x => if settles src b layer e x then { x with settled := some agree } else x)
  if agree || !s.plan.spans.any (settles src b layer e) then s1
  else { s1 with plan := { s1.plan with units := s1.plan.units.map (fun u =>
    if u.req = fieldOf e 127 64 ∧ u.bench = b ∧ (u.cls = .step ∨ u.cls = .chunk) then { u with dropped := true } else u) } }

/-- SETTLE (R181, R185). -/
def settleIn (t : Stamp) (src : ModuleId) (hdr : BitVec 256) (es : List (BitVec 128)) (s : State) : State :=
  if !partialHdrOk hdr 3 es.length (32 + 16 * es.length) then malformed s
  else if fieldOf hdr 255 192 ≠ s.time.now.tick ∨ s.plan.cut ∨ cutoffOff s ≤ t.off then s
  else es.foldl (takeSettle src (fieldOf hdr 83 80) (fieldOf hdr 95 88)) s

def execSettle (t : Stamp) (src : ModuleId) (hdr : BitVec 256) (es : List (BitVec 128)) (s : State) :
    Host.Outcome State Fault Refusal := runLink t (settleIn t src hdr es) s

/-! ## The merge (R195) -/

/-- Answers in order of arrival. -/
def insOrder (x : Span) : List Span → List Span
  | [] => [x]
  | y :: l => if x.order < y.order then x :: y :: l else y :: insOrder x l

/-- The partials the spans of a unit brought for row i: by layer and query head, in order of arrival (R195). -/
def farParts (s : State) (u : WorkUnit) (q i : Nat) : FarParts := fun l h =>
  let mine := s.plan.spans.filter (fun x => x.req == u.req && x.bench == u.bench && x.layer == l && !x.recs.isEmpty)
  (mine.foldl (fun a x => insOrder x a) []).filterMap (fun x => x.recs[i * q + h]?)

/-! ## The holder (R183 to R189) -/

/-- An ask entry keeps R182. -/
def askOk (e : AskEntry) : Bool :=
  let q := fieldOf e.hdr 47 40
  zeroAt e.hdr 39 32 && zeroAt e.hdr 79 64 && fieldOf e.hdr 95 80 == e.spans.length && decide (1 ≤ e.spans.length) &&
    decide (e.spans.length ≤ 1024) && decide (1 ≤ fieldOf e.hdr 63 48) && decide (fieldOf e.hdr 63 48 ≤ 4096) &&
    e.spans.all (fun w => zeroAt w 31 24 && decide (1 ≤ fieldOf w 23 16) && decide (fieldOf w 23 16 ≤ 64)) &&
    e.scales.length == q && (fieldOf e.hdr 63 48 * q == 0 || e.ops.length % (fieldOf e.hdr 63 48 * q) == 0) &&
    fieldOf e.hdr 31 0 == askLen e.spans.length e.scales.length e.ops.length

/-- The entry has the shape of this holder's model, where it holds the requester's (R182). -/
def askShapeOk (s : State) (fp : Nat) (e : AskEntry) : Bool :=
  match conv s (fieldOf e.hdr 191 128) with
  | none => true
  | some c => benchTag s c.bench != fp || (fieldOf e.hdr 47 40 == manQ (manOf s c.bench) &&
      e.ops.length == fieldOf e.hdr 63 48 * manQ (manOf s c.bench) * manDim (manOf s c.bench))

/-- An answer entry for a span (R183). -/
def answerEntry (v : Serve) (st : Nat) (sampled : Bool) (mask : List Word) (recs : List PartialRec) (dim : Nat) :
    AnswerEntry :=
  { hdr := BitVec.ofNat 256 (answerLen mask.length recs.length dim % 2 ^ 32 + mask.length % 256 * 2 ^ 32 +
      v.qHeads % 256 * 2 ^ 40 + v.positions % 2 ^ 16 * 2 ^ 48 + (if sampled then 2 ^ 67 else 0) + st % 16 * 2 ^ 68 +
      v.gCount % 256 * 2 ^ 72 + v.gFirst % 2 ^ 16 * 2 ^ 80 + v.qFirst % 2 ^ 32 * 2 ^ 96 + v.req % 2 ^ 64 * 2 ^ 192),
    mask := mask, recs := recs }

/-- An ask whose spans all have their entry is answered in one message. -/
def flushAsk (s : State) (ask : Nat) (fp : Nat) : State :=
  let mine := s.plan.serves.filter (fun v => v.ask == ask)
  match mine with
  | [] => s
  | v :: _ =>
    if mine.all (fun v => v.answer.isSome) then
      let es := mine.filterMap (·.answer)
      let len := es.foldl (fun a e => a + fieldOf e.hdr 31 0) 32
      let served := (es.filter (fun e => decide (fieldOf e.hdr 71 68 ≤ 1))).length
      let s1 := count s (bn v.bench 0x478) served
      send { s1 with plan := { s1.plan with serves := s1.plan.serves.filter (fun x => x.ask != ask) } } v.peer
        (if es.all (fun e => decide (2 ≤ fieldOf e.hdr 71 68)) then none else some v.bench)
        (.answer (partialHdr 2 s.time.now.tick es.length len v.peer v.pass v.layer v.peerBench fp) es)
    else s

/-- The table a span is served from: the conversation's here, or for a backstop ask its replicas, those of the
keeper's store among them (R171, R220). -/
def heldTable (s : State) (k : Nat) (backstop : Bool) : Option Conv :=
  match backstop, tget s.haul.keeper k with
  | true, some x =>
    if x.replicas.isEmpty then conv s k
    else
      let kept := x.replicas.map (fun e => { e with state := .replica, holder := s.fab.self })
      (match conv s k with
       | some c => some { c with entries := c.entries ++ kept.filter (fun e =>
           !c.entries.any (fun y => entryIs y (entryPage e k) && y.state == .replica && isLocal s y)) }
       | none => some { key := k, bench := x.bench, home := false, homeAt := x.home, layers := manLayers (manOf s x.bench),
                        kvHeads := manKv (manOf s x.bench), entries := kept,
                        fpTag := ((kept.head?).map (·.key.fpTag)).getD 0 })
  | _, _ => conv s k

/-- The page of a span this holder answers for: its own primary, or its replica for a backstop ask. -/
def heldPage (s : State) (c : Conv) (replica : Bool) (g l h : Nat) : Option Entry :=
  c.entries.find? (fun e => e.group == g && e.layer == l && e.head == h && isLocal s e && (e.state == .replica) == replica)

/-- The status a span meets at landing before any run (R183), if any. -/
def askStatus (s : State) (fp : Nat) (backstop : Bool) (c : Option Conv) (v : Serve) : Option Nat :=
  let serving := match c with
    | some c => (bench s c.bench).state == .ready && partialShare s c.bench != 0
    | none => true
  let gone := match c with
    | some c => !((List.range v.gCount).any (fun i => (List.range (max 1 c.kvHeads)).any (fun h =>
        (heldPage s c true (v.gFirst + i) v.layer h).isSome)))
    | none => true
  if notServing s || !serving then some 4
  else if backstop && gone then some 5
  else match c with
    | none => some 2
    | some c => if c.fpTag ≠ fp ∨ benchTag s c.bench ≠ fp then some 3 else none

/-- The landing bound in ns of a read's predicted class (R269): RETRY or RECOVER where the block's last read needed
it, SUSPEND while flash is written to (its die counts as busy: log entry 126), else CLEAN. -/
def readBound (s : State) (block : Nat) : Nat :=
  let last := ((tget s.tier.blocks block).map (·.lastClass)).getD 0
  if last = 3 then 12000000 else if last = 2 then 1500000 else if s.tier.writes.isEmpty then 90000 else 250000

/-- The erase block the next read falls in: the flash layer's own. -/
def nextBlock (s : State) : Nat := Config.choice s.fresh % 3145728

/-- A flash read issued (R269, R274). One predicted late is counted. -/
def readFlash (s : State) (b : Nat) (use : ReadUse) (p : PageRef) (late : Bool) : State :=
  let id := freeKey s.tier.reads (s.tier.reads.length + 1) 0
  let s1 := if late then count s (0x30300 + 8 * b) 1 else s
  let rd : FRead := { bench := b, use := use, page := p, block := nextBlock s, late := late }
  { s1.bump with tier := { s1.tier with reads := tput s1.tier.reads id rd } }

/-- Pages of a span still on flash: reads issued, late ones counted and kept as promotions (R188, R274, R275). -/
def readFlashPages (t : Stamp) (c : Conv) (v : Serve) (s : State) : State :=
  let pages := (List.range v.gCount).flatMap (fun i => (List.range c.kvHeads).filterMap (fun h =>
    (heldPage s c v.replica (v.gFirst + i) v.layer h).bind (fun e =>
      if e.tier = .flash ∧ 64 * (v.gFirst + i) < v.qFirst then some (entryPage e c.key) else none)))
  pages.foldl (fun s p =>
    if s.tier.reads.any (fun r => r.2.page == p) then s
    else readFlash (match findPage s p with | some e => chargePage s c.bench e | none => s) c.bench .partialRun p
      (decide (horizonOff s ≤ t.off + readBound s (nextBlock s)))) s

/-- Cycles of a span's head run on a cell (R143, R187). -/
def spanCycles (s : State) (c : Conv) (v : Serve) (p : Package) (h cell : Nat) : Nat :=
  headCycles s v.bench p (c.entries.filter (fun e => decide (v.gFirst ≤ e.group) && decide (e.group < v.gFirst + v.gCount)))
    v.layer h v.positions 0 cell

/-- What the cells of a bench have to run: their plan, and the spans taken before (R142, R187). -/
def serveLoads (s : State) (b : Nat) (p : Package) : Loads :=
  (s.plan.serves.filter (fun v => v.bench == b && v.answer.isNone)).foldl (fun l v =>
    match heldTable s v.conv v.backstop with
    | some c => v.cells.zipIdx.foldl (fun l x => loadCell l x.1 (spanCycles s c v p x.2 x.1)) l
    | none => l) (unitLoads s b .cell)

/-- A cell for each head of a span (R142, R187). -/
def placeServe (s : State) (c : Conv) (v : Serve) : Serve :=
  match (bench s v.bench).pkg with
  | none => v
  | some p =>
    let r := (List.range c.kvHeads).foldl (fun (a : Loads × List Nat) h =>
      let pages := (List.range v.gCount).filterMap (fun i => heldPage s c v.replica (v.gFirst + i) v.layer h)
      match cellFor a.1 a.2 pages with
      | some x => (loadCell a.1 x (spanCycles s c v p h x), a.2 ++ [x])
      | none => a) (serveLoads s v.bench p, [])
    { v with cells := r.2 }

/-- One span of an ask entry as this holder takes it: answered at once with its refusal, or placed and its pages on
flash read. -/
def takeSpan (t : Stamp) (backstop : Bool) (hdr : BitVec 256) (ask : Nat) (e : AskEntry) (s : State) (w : BitVec 32) : State :=
  let k := fieldOf e.hdr 191 128
  let c := heldTable s k backstop
  let v : Serve := {
    ask := ask, peer := BitVec.ofNat 16 (fieldOf hdr 127 120 * 256 + fieldOf hdr 119 112),
    peerBench := fieldOf hdr 83 80, pass := fieldOf hdr 111 96, bench := (c.map (·.bench)).getD 0,
    layer := fieldOf hdr 95 88, req := fieldOf e.hdr 255 192, conv := k, qFirst := fieldOf e.hdr 127 96,
    positions := fieldOf e.hdr 63 48, qHeads := fieldOf e.hdr 47 40, gFirst := fieldOf w 15 0,
    gCount := fieldOf w 23 16, replica := backstop, backstop := backstop, stamp := t, scales := e.scales, ops := e.ops }
  let put (v : Serve) : State := { s with plan := { s.plan with serves := s.plan.serves ++ [v] } }
  match askStatus s (fieldOf hdr 63 32) backstop c v, c with
  | some st, _ => put { v with answer := some (answerEntry v st false [] [] 0) }
  | none, some c => let v' := placeServe s c v; readFlashPages t c v' (put v')
  | none, none => put v

/-- An ask message at its holder (R186 to R189): taken when it lands. One of another tick is discarded and counted
once, on the bench of its first conversation, or bench 0 where no table here names it (log entry 125); a module that
has lost the tick answers nothing. -/
def takeAsk (t : Stamp) (backstop : Bool) (hdr : BitVec 256) (es : List AskEntry) (s : State) : State :=
  let b0 := match es with
    | e :: _ => ((conv s (fieldOf e.hdr 191 128)).map (·.bench)).getD 0
    | [] => 0
  if !partialHdrOk hdr (if backstop then 1 else 0) es.length (es.foldl (fun a e => a + fieldOf e.hdr 31 0) 32) ||
      !es.all (fun e => askOk e && askShapeOk s (fieldOf hdr 63 32) e) then malformed s
  else if !synced s then s
  else if fieldOf hdr 255 192 ≠ s.time.now.tick ∨ s.plan.cut then count s (bn b0 0x480) 1
  else
    flushAsk (es.foldl (fun a e => e.spans.foldl (takeSpan t backstop hdr s.fresh e) a) s.bump) s.fresh (fieldOf hdr 63 32)

def execPartialAsk (t : Stamp) (hdr : BitVec 256) (es : List AskEntry) (s : State) : Host.Outcome State Fault Refusal :=
  run t (takeAsk t false hdr es) s

def execPartialBackstopAsk (t : Stamp) (hdr : BitVec 256) (es : List AskEntry) (s : State) :
    Host.Outcome State Fault Refusal := run t (takeAsk t true hdr es) s

/-- A page's copy has landed in memory during a move from flash (R258). -/
def landedCopy (s : State) (p : PageRef) : Bool :=
  s.tier.moves.any (fun m => m.2.page == p && m.2.src == .flash && m.2.doneAt.isSome)

/-- A page on flash cannot be had in the tick: no read of it is in flight, or that read is late (R188, R274, R275). -/
def flashLate (s : State) (p : PageRef) : Bool :=
  !landedCopy s p && !s.tier.reads.any (fun r => r.2.page == p && !r.2.late)

/-- The page is left out of a run (R188; log entry 36). Positions at or beyond the first query position are not reported (R180), nor
are the heads that another holder of a striped group holds (R81). -/
def leftOut (s : State) (c : Conv) (v : Serve) (g h : Nat) : Bool :=
  decide (64 * g < v.qFirst) &&
    (match heldPage s c v.replica g v.layer h with
     | none => v.replica || !(List.range c.kvHeads).any (fun x => (heldPage s c v.replica g v.layer x).isSome)
     | some e =>
       e.state == .missing || e.state == .lost || rejectedNow s (entryPage e c.key) ||
         (e.tier == .flash && flashLate s (entryPage e c.key)) || e.key.fpTag != c.fpTag || e.value.fpTag != c.fpTag)

/-- The mask of a span, as 64-bit words (R183). -/
def maskOf (s : State) (c : Conv) (v : Serve) : List Word :=
  let n := c.kvHeads * v.gCount
  let bit (i : Nat) : Bool := decide (0 < v.gCount) && leftOut s c v (v.gFirst + i % v.gCount) (i / v.gCount)
  (List.range (ceilDiv n 64)).map (fun w =>
    BitVec.ofNat 64 ((List.range 64).foldl (fun a j =>
      if decide (64 * w + j < n) && bit (64 * w + j) then a + 2 ^ j else a) 0))

/-- The pages of a span that its run attends for a KV head. -/
def servedPages (s : State) (c : Conv) (v : Serve) (h : Nat) : List Entry :=
  (List.range v.gCount).filterMap (fun i =>
    if leftOut s c v (v.gFirst + i) h || decide (v.qFirst ≤ 64 * (v.gFirst + i)) then none
    else heldPage s c v.replica (v.gFirst + i) v.layer h)

/-- The query operands of row i and query head h as the ask carries them (R182). -/
def sentQuery (v : Serve) (dim i h : Nat) : List Int := (((v.ops.drop ((i * v.qHeads + h) * dim)).take dim).map BitVec.toInt)

/-- The records of a span: each row and query head against the held positions below the first query position, scored
with the scales sent (R180, R182, R184). -/
def spanRecs (s : State) (c : Conv) (v : Serve) : List PartialRec :=
  match (bench s v.bench).pkg with
  | none => []
  | some p =>
    let d := manDim p.manifest
    let rows := (List.range c.kvHeads).map (fun h => (servedPages s c v h).flatMap (fun e => pageRows p e v.qFirst))
    (List.range v.positions).flatMap (fun i => (List.range v.qHeads).map (fun h =>
      let kv := h / max 1 (headGroup p)
      partialOf d (v.scales.getD h 0) (kvScale p v.layer kv false) (kvScale p v.layer kv true) (sentQuery v d i h)
        (rows.getD kv [])))

/-- A run waits for the spans taken before it on a cell of its own (R187). -/
def runWaits (s : State) (v : Serve) : Bool :=
  (s.plan.serves.takeWhile (· != v)).any (fun x => x.bench == v.bench && x.answer.isNone && x.cells.any v.cells.contains)

/-- A row set of the span's run taken as a sample: of the first KV head, its first rows, settled with the requester
(R145, R183; log entry 129). -/
def sampleSpan (s : State) (c : Conv) (v : Serve) (recs : List PartialRec) : State :=
  match (bench s v.bench).pkg, v.cells.head? with
  | some p, some cell =>
    let g := headGroup p
    let n := max 1 (rowsSet (manDim p.manifest) (kvWide p))
    let picks := ((List.range v.positions).flatMap (fun i => (List.range g).map (fun h => (i, h)))).take n
    let es := servedPages s c v 0
    putItem s {
      bench := v.bench, peer := some v, unit := ⟨.cell, cell⟩, layer := v.layer, index := 0, part := 0,
      rows := picks.map (fun x => sentQuery v (manDim p.manifest) x.1 x.2), pages := es.map (fun e => entryPage e c.key),
      kept := .records (picks.map (fun x => (recs.getD (x.1 * v.qHeads + x.2) ⟨0, 0, 0, 0, []⟩, []))) }
  | _, _ => s

/-- Clips of the expander in a served run's passes over its pages, one per row set and read (R113, R140). -/
def spanClips (s : State) (c : Conv) (v : Serve) : Nat :=
  match (bench s v.bench).pkg with
  | none => 0
  | some p =>
    let sets := ceilDiv (headGroup p * v.positions) (max 1 (rowsSet (manDim p.manifest) (kvWide p)))
    ((List.range c.kvHeads).flatMap (servedPages s c v)).foldl (fun a e =>
      a + sets * (2 * halfClips p e false + halfClips p e true)) 0

/-- Clips counted (R113). -/
def countClips (s : State) (b n : Nat) : State := if n = 0 then s else countHalf s (bn b 0x0F8) true n

/-- PARTIAL_RUN_DONE (R183, R184, R187, R188): the span's entry is formed; its pages count as read; where samples are
taken, a sampled span becomes an item to settle with the requester. -/
def runDone (peer : ModuleId) (k layer g : Nat) (sampled : Bool) (s : State) : State :=
  let is (v : Serve) : Bool := v.peer == peer && v.req == k && v.layer == layer && v.gFirst == g && v.answer.isNone
  match s.plan.serves.find? is with
  | none => s
  | some v =>
    match heldTable s v.conv v.backstop with
    | none => s
    | some c =>
      if runWaits s v then s
      else
        let mask := maskOf s c v
        let st := if maskCount mask = 0 then 0 else 1
        let recs := spanRecs s c v
        let taken := sampled && regF s 0x70000 0 0 == 1
        let e := answerEntry v st taken (if st = 1 then mask else []) recs (manDim (manOf s v.bench))
        let s1 := { s with plan := { s.plan with serves := s.plan.serves.map (fun x =>
          if x == v then { x with answer := some e } else x) } }
        let s2 := countClips (chargePages s1 v.bench ((List.range c.kvHeads).flatMap (servedPages s c v))) v.bench (spanClips s c v)
        let s3 := modConv s2 v.conv (fun c => { c with entries := c.entries.map (fun e =>
          if e.layer == layer && decide (g ≤ e.group) && decide (e.group < g + v.gCount) then
            { e with lastRead := s.time.now.tick } else e) })
        flushAsk (if taken then sampleSpan s3 c v recs else s3) v.ask c.fpTag

def execPartialRunDone (t : Stamp) (peer : ModuleId) (req layer gFirst : Nat) (sampled : Bool) (s : State) :
    Host.Outcome State Fault Refusal :=
  run t (fun s => if s.plan.cut || !synced s then s else runDone peer req layer gFirst sampled s) s

/-- The holder's cut-off (R189): asks not answered are abandoned and counted, each on the bench of its first span. -/
def abandonServes (s : State) : State :=
  let open_ := (s.plan.serves.filter (fun v => v.answer.isNone)).map (·.ask)
  let firsts := open_.eraseDups.filterMap (fun a => s.plan.serves.find? (fun v => v.ask == a))
  let s1 := firsts.foldl (fun s v => count s (bn v.bench 0x480) 1) s
  { s1 with plan := { s1.plan with serves := [] } }

end Sys2Proof.Machine
end

