-- ==== Sys2Proof/Machine/Tiers.lean ====
section
/-! DEFINITION. Tier moves, demotion, the flash translation layer, error correction and retirement of memory (R63,
R65, R67, R252 to R280). -/

namespace Sys2Proof.Machine

/-! ## Budgets (R65) -/

/-- The cap of a tier's budget for n slices, in units of 64 KiB. -/
def budgetCap (s : State) (t : Tier) (n : Nat) : Nat :=
  match t with
  | .hbm => n * period s * 460800 / 65536
  | .lpddr => n * period s * 765000 / 65536
  | .flash => n * period s * 24000 / 65536
  | _ => 0

/-- A record with one field replaced. -/
def withField (r : BitVec 1024) (hi lo v : Nat) : BitVec 1024 :=
  BitVec.ofNat 1024 (r.toNat - fieldOf r hi lo * 2 ^ lo + v % 2 ^ (hi + 1 - lo) * 2 ^ lo)

/-- Budgets lowered to the caps of the slices left (R278). -/
def lowerBudgets (s : State) (b : Nat) : State :=
  setBench s b (fun x =>
    let cut (r : BitVec 1024) (t : Tier) (hi lo : Nat) : BitVec 1024 :=
      withField r hi lo (min (fieldOf r hi lo) (budgetCap s t (tierSlices s b t)))
    { x with record := cut (cut (cut x.record .hbm 799 768) .lpddr 831 800) .flash 863 832 })

/-! ## Moves (R256 to R259, R67) -/

/-- A promotion goes up. -/
def promotes (m : Move) : Bool := decide (tierRank m.dst < tierRank m.src)

/-- Moves taken by the stamp of their cause, promotions first among equals (R259). -/
def insMove (m : Move) : List Move → List Move
  | [] => [m]
  | x :: r =>
    if stampLt m.cause x.cause || (m.cause == x.cause && promotes m && !promotes x) then m :: x :: r
    else x :: insMove m r

/-- The budgets a move's two tiers count on (R66, R259). -/
def chargedTo (m : Move) : List Nat := [m.src, m.dst].filterMap budgetNo

/-- Bytes of the plan on a budget of bench b (R66, R67). -/
def planBytes (s : State) (b k : Nat) : Nat :=
  let c := planCost s b (s.plan.units.filter (fun u => u.bench == b))
  if k = 0 then c.hbm else if k = 1 then c.lpddr else if k = 2 then c.flash else c.link

/-- What a transfer may take of a budget: the migration share left, within the bench's remaining budget (R67). -/
def takeable (s : State) (b k : Nat) : Nat := min (shareLeft s b k) (budgetBytes s b k - planBytes s b k - spentOf s b k)

/-- Bytes that moves in flight have reserved in a tier of a bench (R256 step 1). -/
def inFlight (s : State) (b : Nat) (t : Tier) : Nat :=
  s.tier.moves.foldl (fun a m => if m.2.bench = b ∧ m.2.dst = t then a + moveBytes s m.2 else a) 0

/-- A slot is free for the move in its destination (R256 step 1). -/
def slotFree (s : State) (m : Move) : Bool :=
  fits s m.bench m.dst (inFlight s m.bench m.dst + moveBytes s m) &&
    (match m.cell with | some c => sliceFits s m.bench c (moveBytes s m) | none => true)

/-- The state of issuing: benches whose share an outsize transfer holds, what still waits. -/
structure Issue where
  s : State
  held : List Nat := []
  waiting : List Move := []

/-- A move begins (R256); one from flash with a read of its page, which has a deadline where a live request waits for
it (R274). -/
def beginMove (s : State) (m : Move) : State :=
  let s1 := { s with tier := { s.tier with
    moves := tput s.tier.moves s.tier.nextMove { m with began := s.time.now }, nextMove := s.tier.nextMove + 1 } }
  if m.src == Tier.flash && !(s1.tier.reads.any (fun r => r.2.page == m.page)) then
    readFlash s1 m.bench (match liveReq s1 m.page.conv with | some k => .live k | none => .free) m.page false
  else s1

/-- One move taken under the migration share: whole, in parts where it could never fit, or left to wait (R67, R259).
-/
def issueOne (a : Issue) (m : Move) : Issue :=
  let n := moveBytes a.s m
  let ks := chargedTo m
  let wait : Issue := { a with waiting := a.waiting ++ [m] }
  if a.held.contains m.bench ∨ (m.dst = .flash ∧ flashWaits a.s) ∨ !slotFree a.s m then wait
  else if m.charged = 0 ∧ ks.all (fun k => decide (n ≤ takeable a.s m.bench k)) then
    { a with s := beginMove (ks.foldl (fun s k => chargeShare s m.bench k n) a.s) m }
  else if ks.any (fun k => decide (shareBytes a.s m.bench k < n)) ∧ !(a.waiting.any (fun w => w.bench == m.bench)) then
    let part := (ks.map (takeable a.s m.bench)).foldl min (n - m.charged)
    let s1 := ks.foldl (fun s k => chargeShare s m.bench k part) a.s
    let m' := { m with charged := m.charged + part }
    if n ≤ m'.charged then { s := beginMove s1 m', held := m.bench :: a.held, waiting := a.waiting }
    else { s := s1, held := m.bench :: a.held, waiting := a.waiting ++ [m'] }
  else wait

/-- Moves made ready at a commit are issued from the start of the next tick (R259). -/
def issueMoves (s : State) : State :=
  let order := s.tier.ready.foldl (fun l m => insMove m l) []
  let a := order.foldl issueOne { s := { s with tier := { s.tier with ready := [] } } }
  { a.s with tier := { a.s.tier with ready := a.waiting } }

/-- A move discarded and made ready again (R257). -/
def restartMove (s : State) (id : Nat) (m : Move) : State :=
  { count s 0x30068 1 with tier := { s.tier with
    moves := tdel s.tier.moves id, ready := s.tier.ready ++ [{ m with doneAt := none, charged := 0 }] } }

/-- The flash key of a bench, made when the bench first writes to flash (R444). -/
def makeKey (s : State) (b : Nat) : State :=
  let k : FlashKey := tgetD s.sec.keys b
  if k.made then s
  else
    let key : BitVec 512 := BitVec.ofNat 512 (leNat (Config.drbg s.fresh 64))
    let k1 : FlashKey := { k with made := true, held := true, key, wrapped := Config.aesWrap storageKey key }
    { s.bump with sec := { s.sec with keys := tput s.sec.keys b k1 } }

/-- Moves of one group of a conversation to flash: they share an extent (R156). -/
def extentMate (p : PageRef) (m : Move) : Bool := m.dst == .flash && m.page.conv == p.conv && m.page.group == p.group

/-- The moves of an extent laid out: each page's offset in KiB (R156). -/
def layOut (s : State) (id : Nat) (l : List (Nat × Move)) : List (Nat × Move) × Nat :=
  l.foldl (fun a x => (a.1 ++ [(x.1, { x.2 with extent := some (id, a.2) })], a.2 + moveBytes s x.2 / 1024)) ([], 0)

/-- The extent of a group is written once every page of it that goes to flash has been copied (R156, R266). -/
def writeExtent (s : State) (p : PageRef) (b : Nat) : State :=
  let mates := s.tier.moves.filter (fun x => extentMate p x.2 && x.2.extent.isNone)
  if mates.isEmpty || !mates.all (fun x => x.2.copied) || s.tier.ready.any (extentMate p) then s
  else
    let id := s.fresh
    let (l, kib) := layOut s id mates
    let w := freeKey s.tier.writes (s.tier.writes.length + 1) 0
    let fw : FWrite := { bench := b, moves := l.map (·.1), units := ceilDiv kib 16 }
    makeKey { s.bump with tier := { s.tier with
      moves := l.foldl (fun t x => tput t x.1 x.2) s.tier.moves, extents := tput s.tier.extents id (b, kib),
      writes := tput s.tier.writes w fw } } b

/-- Moves of a page's extent, of the page itself at least, discarded (R156, R280). -/
def dropMates (s : State) (id : Nat) (p : PageRef) : State :=
  { s with tier := { s.tier with
    moves := (tdel s.tier.moves id).filter (fun x => !(extentMate p x.2 && x.2.extent.isNone)),
    ready := s.tier.ready.filter (fun m => !extentMate p m) } }

/-- MOVE_COPY_DONE (R156, R256, R257, R266, R280): a failed block abandons the move, with the extent it was to join,
and is rejected at the source; a writable block's copy must lie within one plan window; pages for flash wait for their
extent. -/
def moveCopyDone (t : Stamp) (id : Nat) (sound : Bool) (s : State) : State :=
  match tget s.tier.moves id with
  | none => s
  | some m =>
    if !sound then
      rejectPage (if m.dst = .flash then dropMates s id m.page else { s with tier := { s.tier with moves := tdel s.tier.moves id } })
        m.page 1
    else if m.writable ∧ !(m.began.tick == t.tick && decide (t.off < cutoffOff s)) then restartMove s id m
    else if m.dst = .flash then
      writeExtent { s with tier := { s.tier with moves := tput s.tier.moves id { m with copied := true } } } m.page m.bench
    else { s with tier := { s.tier with moves := tput s.tier.moves id { m with doneAt := some t } } }

def execMoveCopyDone (t : Stamp) (move : Nat) (sound : Bool) (s : State) : Host.Outcome State Fault Refusal :=
  run t (moveCopyDone t move sound) s

/-- The entry of a page once its move has taken effect: on flash it names its extent, elsewhere it has a handle of its
own (R156, R256). -/
def movedEntry (m : Move) (fresh : Nat) (e : Entry) : Entry :=
  match m.dst, m.extent with
  | .flash, some (id, off) => { e with tier := .flash, cell := none, pageId := id, extentOff := off }
  | d, _ => { e with tier := d, cell := if d = .face then m.cell else none, pageId := if e.tier = .flash then fresh else e.pageId, extentOff := 0 }

/-- Moves whose copies completed take effect at commit n (R256); an extent whose last page has left is freed (R156).
-/
def applyMoves (s : State) (n : Nat) : State :=
  sweepExtents (s.tier.moves.foldl (fun s x =>
    match x.2.doneAt with
    | some d =>
      if dueBy s d n then
        modPage { s.bump with tier := { s.tier with moves := tdel s.tier.moves x.1 } } x.2.page (movedEntry x.2 s.fresh)
      else s
    | none => s) s)

/-! ## Demotion (R260 to R263) -/

/-- The pages of one head, newest group first, start for the slice of the cell that computes it while it has room. Where
the next has none, the oldest page of an older group in the slice leaves it (R263). -/
def liftPages (s : State) (b cell k : Nat) : List Entry → State
  | [] => s
  | e :: l =>
    let up := (e.tier == .hbm || e.tier == .lpddr) && isOwn e && movable s (entryPage e k)
    if !up then liftPages s b cell k l
    else if sliceFits s b cell (pageBytes e) then
      liftPages (makeReady s (entryPage e k) .face s.time.now (some cell)) b cell k l
    else
      let old := s.work.convs.flatMap (fun c => (c.2.entries.filter (fun x =>
        isOwn x && x.bench == b && x.tier == .face && x.cell == some cell && decide (x.group < e.group) &&
          movable s (entryPage x c.1))).map (fun x => entryPage x c.1))
      match old.foldl (fun (a : Option PageRef) p => match a with
        | some q => if p.group < q.group then some p else some q
        | none => some p) none with
      | some p => makeReady s p (if 0 < tierSlices s b .hbm then .hbm else .lpddr) s.time.now
      | none => s

/-- The pages of a unit's heads start for the face, head by head (R263). -/
def liftUnit (s : State) (u : WorkUnit) : State :=
  let kv := max 1 (manKv (manOf s u.bench))
  u.cells.zipIdx.foldl (fun s x =>
    let es := ((conv s u.conv).map (·.entries)).getD []
    liftPages s u.bench x.1 u.conv
      (es.filter (fun e => e.layer == x.2 / kv && e.head == x.2 % kv && e.bench == u.bench)).reverse) s

/-- The newest groups of every planned request are kept in the face, as room allows; promotions that have not begun are
judged anew (R263; DESIGN CHOICE, log entry 155). -/
def keepFace (s : State) : State :=
  s.plan.units.foldl liftUnit { s with tier := { s.tier with
    ready := s.tier.ready.filter (fun m => m.cell.isNone || decide (0 < m.charged)) } }

/-- The next tier down. -/
def tierBelow : Tier → Option Tier
  | .face => some .hbm
  | .hbm => some .lpddr
  | .lpddr => some .flash
  | _ => none

/-- Idle time of a tier in ticks (R262, R264). -/
def idleTicks (s : State) : Tier → Nat
  | .face => regF s 0x30000 15 0
  | .hbm => regF s 0x30008 31 0
  | _ => regF s 0x30008 63 32

/-- The pages a demotion takes with it: to flash, the whole group, which must lie in LPDDR, since it shares an extent
(R156; log entry 130). -/
def demoteWith (c : Conv) (e : Entry) (d : Tier) : List Entry :=
  if d = .flash then
    let g := c.entries.filter (fun x => x.group == e.group && isOwn x)
    if g.all (fun x => x.tier == .lpddr) then g else []
  else [e]

/-- One tier down where the floor and the bench allow it. -/
def demote (s : State) (p : PageRef) : State :=
  match conv s p.conv, findPage s p with
  | some c, some e =>
    (match tierBelow e.tier with
     | some d =>
       if tierRank d ≤ tierRank (floorOf s c) ∧ 0 < tierSlices s c.bench d ∧ !(d = .flash ∧ c.stripe.isSome) then
         (demoteWith c e d).foldl (fun s x => makeReady s (entryPage x p.conv) d s.time.now) s
       else s
     | none => s)
  | _, _ => s

/-- DEMOTION_IDLE (R262). -/
def execDemotionIdle (t : Stamp) (p : PageRef) (s : State) : Host.Outcome State Fault Refusal :=
  run t (fun s =>
    match findPage s p with
    | some e =>
      let c := (conv s p.conv).getD default
      let with_ := match tierBelow e.tier with | some d => demoteWith c e d | none => []
      if (e :: with_).all (fun x => decide (x.lastRead + idleTicks s x.tier ≤ t.tick)) then demote s p else s
    | none => s) s

/-- Pages of a bench in a tier, least recently read first. -/
def oldPages (s : State) (b : Nat) (t : Tier) : List (PageRef × Entry) :=
  let all := s.work.convs.flatMap (fun c =>
    if c.2.bench = b then
      (c.2.entries.filter (fun e => e.tier == t && isLocal s e && e.state != .replica)).map (fun e => (entryPage e c.1, e))
    else [])
  all.foldl (fun l x =>
    let (a, z) := l.span (fun y => decide (y.2.lastRead ≤ x.2.lastRead))
    a ++ x :: z) []

/-- Replicas this bench holds in a tier, those of its keeper's store among them. -/
def replicasHeld (s : State) (b : Nat) (t : Tier) : List (PageRef × Entry) :=
  s.work.convs.flatMap (fun c => (c.2.entries.filter (fun e =>
      e.state == .replica && isLocal s e && e.bench == b && e.tier == t)).map (fun e => (entryPage e c.1, e))) ++
    s.haul.keeper.flatMap (fun k => if k.2.bench = b then
      (k.2.replicas.filter (fun e => e.tier == t)).map (fun e => (entryPage e k.1, e)) else [])

/-- PRESSURE_DEMOTION (R172, R262): the least recently read pages that the floor allows, until the shortfall is
covered; what they leave of it takes replicas, dropped at the commit. -/
def pressure (t0 : Stamp) (b : Nat) (t : Tier) (freePm : Nat) (s : State) : State :=
  let limit := regF s 0x30010 9 0
  if limit ≤ freePm then s
  else
    let need := (limit - freePm) * tierRoom s b t / 1000
    let a := (oldPages s b t).foldl (fun (a : State × Nat) x =>
      if need ≤ a.2 then a
      else
        let s' := demote a.1 x.1
        if s'.tier.ready.length = a.1.tier.ready.length then a else (s', a.2 + pageBytes x.2)) (s, 0)
    ((replicasHeld s b t).foldl (fun (a : State × Nat) x =>
      if need ≤ a.2 then a else (deferTo a.1 t0 (.dropReplica x.1), a.2 + pageBytes x.2)) a).1

def execPressureDemotion (t : Stamp) (bench : Nat) (tier : Tier) (freePm : Nat) (s : State) :
    Host.Outcome State Fault Refusal := run t (pressure t bench tier freePm) s

/-! ## Flash (R265 to R275) -/

/-- The flash duties act: flash is present and the module is not in Rest (R2, R272). -/
def flashRuns (s : State) : Bool := hasFlash s && s.pwr.state != .rest

/-- The tier flash is read into: HBM, or LPDDR where the bench holds no pseudo-channel (R253). -/
def landTier (s : State) (b : Nat) : Tier := if 0 < tierSlices s b .hbm then .hbm else .lpddr

/-- An erase block. -/
def fblock (s : State) (i : Nat) : FBlock := tgetD s.tier.blocks i

def setFBlock (s : State) (i : Nat) (f : FBlock → FBlock) : State :=
  { s with tier := { s.tier with blocks := tput s.tier.blocks i (f (fblock s i)) } }

/-- Mean and highest erase counts (R270): 96 TiB of 32 MiB blocks. -/
def meanErase (s : State) : Nat := s.tier.blocks.foldl (fun a b => a + b.2.erases) 0 / 3145728
def maxErase (s : State) : Nat := s.tier.blocks.foldl (fun a b => max a b.2.erases) 0

/-- life_used_pm (R270). -/
def lifeUsed (s : State) : Nat := 1000 * (s.tier.blocks.foldl (fun a b => a + b.2.erases) 0) / (3000 * 3145728)

/-- The life alert, once (R270). -/
def checkLife (s : State) : State :=
  if 900 ≤ lifeUsed s ∧ !s.tier.lifeAlert then
    logErr { s with tier := { s.tier with lifeAlert := true } } .flash 5
  else s

/-- A block's valid data rewritten elsewhere by a duty, and the block erased (R267). -/
def relocate (s : State) (i : Nat) : State :=
  let b := fblock s i
  let s1 := setFBlock s i (fun b => { b with erases := b.erases + 1, reads := 0, corrected := 0, valid := 0, written := 0 })
  checkLife { s1 with tier := { s1.tier with unitsDuty := s1.tier.unitsDuty + b.valid } }

/-- An erase block is retired: its data rebuilt from parity and written elsewhere (R267, R271). -/
def retireBlock (s : State) (i : Nat) : State :=
  let b := fblock s i
  if b.retired then s
  else
    let s1 := setFBlock s i (fun b => { b with retired := true, valid := 0 })
    let s2 := { s1 with tier := { s1.tier with
      badBlocks := s1.tier.badBlocks + 1, unitsDuty := s1.tier.unitsDuty + b.valid } }
    let s3 := logErr s2 .flash 4 (u := ⟨.flash, 0⟩) (d0 := i)
    if userGib s3 * 2 ^ 30 < flashBytes s3 ∧ !s3.tier.hold then
      logErr { s3 with tier := { s3.tier with hold := true } } .flash 6
    else s3

/-- FLASH_READ_DONE (R258, R267, R269, R273): counted by class; the page's copy has landed, or its blocks fail their
checksum; two RECOVER reads within 30 days retire the block. -/
def flashReadDone (t : Stamp) (id cls : Nat) (sound : Bool) (s : State) : State :=
  match tget s.tier.reads id with
  | none => s
  | some r =>
    let s1 := count { s with tier := { s.tier with reads := tdel s.tier.reads id } } (0x30100 + 0x20 * r.bench + 8 * cls) 1
    let day30 := ticksOf s (30 * 86400 * 1000000000)
    let s2 := setFBlock s1 r.block (fun b => { b with
      reads := b.reads + 1, lastClass := cls,
      recovers := if cls = 3 then (b.recovers ++ [t.tick]).filter (fun x => decide (t.tick ≤ x + day30)) else b.recovers })
    let s3 := if cls = 3 then logErr s2 .flash 3 (b := r.bench) (u := ⟨.flash, 0⟩) (d0 := r.block) else s2
    let s4 := if 2 ≤ (fblock s3 r.block).recovers.length then retireBlock s3 r.block else s3
    if !sound then rejectPage s4 r.page 1
    else if s4.tier.moves.any (fun m => m.2.page == r.page && m.2.src == .flash) then
      { s4 with tier := { s4.tier with moves := s4.tier.moves.map (fun m =>
        if m.2.page = r.page ∧ m.2.src = .flash then (m.1, { m.2 with doneAt := some t }) else m) } }
    else match findPage s4 r.page with
      | some e =>
        if e.tier = .flash then
          let m : Move := { page := r.page, src := .flash, dst := landTier s4 r.bench, bench := r.bench, began := t,
                            doneAt := some t, cause := t }
          { s4 with tier := { s4.tier with
            moves := tput s4.tier.moves s4.tier.nextMove m, nextMove := s4.tier.nextMove + 1 } }
        else s4
      | none => s4

def execFlashReadDone (t : Stamp) (readId cls : Nat) (sound : Bool) (s : State) : Host.Outcome State Fault Refusal :=
  run t (fun s => if flashRuns s ∧ cls < 4 then flashReadDone t readId cls sound s else s) s

/-- FLASH_READ_DEADLINE (R274, R275): the read is late; its data is still kept when it lands. The policy for a live
request's page applies at the plan. -/
def execFlashReadDeadline (t : Stamp) (readId : Nat) (s : State) : Host.Outcome State Fault Refusal :=
  run t (fun s =>
    match tget s.tier.reads readId with
    | some r =>
      if r.late then s
      else count { s with tier := { s.tier with reads := tput s.tier.reads readId { r with late := true } } }
        (0x30300 + 8 * r.bench) 1
    | none => s) s

/-- FLASH_PROGRAM_DONE (R266): the write is durable, and the moves it carries are complete. -/
def programDone (t : Stamp) (id : Nat) (s : State) : State :=
  match tget s.tier.writes id with
  | none => s
  | some w =>
    let s1 := { s with tier := { s.tier with
      writes := tdel s.tier.writes id, unitsMoved := s.tier.unitsMoved + w.units } }
    w.moves.foldl (fun s m =>
      { s with tier := { s.tier with moves := tmod s.tier.moves m (fun x => { x with doneAt := some t }) } }) s1

def execFlashProgramDone (t : Stamp) (writeId : Nat) (s : State) : Host.Outcome State Fault Refusal :=
  run t (fun s => if hasFlash s then programDone t writeId s else s) s

/-- FLASH_PROGRAM_FAIL (R267). -/
def execFlashProgramFail (t : Stamp) (block : Nat) (s : State) : Host.Outcome State Fault Refusal :=
  run t (fun s => if hasFlash s then retireBlock (logErr s .flash 1 (u := ⟨.flash, 0⟩) (d0 := block)) block else s) s

/-- FLASH_ERASE_FAIL (R267). -/
def execFlashEraseFail (t : Stamp) (block : Nat) (s : State) : Host.Outcome State Fault Refusal :=
  run t (fun s => if hasFlash s then retireBlock (logErr s .flash 2 (u := ⟨.flash, 0⟩) (d0 := block)) block else s) s

/-- READ_DISTURB_RELOCATE (R267): the block's reads have reached a threshold no lower than rd_floor_k thousand. -/
def execReadDisturbRelocate (t : Stamp) (block : Nat) (s : State) : Host.Outcome State Fault Refusal :=
  run t (fun s => if flashRuns s then relocate s block else s) s

/-- RETENTION_REWRITE (R267). -/
def execRetentionRewrite (t : Stamp) (block : Nat) (s : State) : Host.Outcome State Fault Refusal :=
  run t (fun s => if flashRuns s then relocate s block else s) s

/-- WEAR_LEVEL (R267). -/
def execWearLevel (t : Stamp) (block : Nat) (s : State) : Host.Outcome State Fault Refusal :=
  run t (fun s => if flashRuns s then relocate s block else s) s

/-- GARBAGE_COLLECT (R267, R268): the share of working room then free is the layer's own (a free value); writes held
go on once 1 % of it is free and the data fits. -/
def execGarbageCollect (t : Stamp) (block : Nat) (s : State) : Host.Outcome State Fault Refusal :=
  run t (fun s =>
    if flashRuns s then
      let s1 := relocate s block
      let f := Config.choice s1.fresh % 1001
      { s1.bump with tier := { s1.tier with
        freePm := f, hold := s1.tier.hold && (decide (f < 10) || decide (userGib s1 * 2 ^ 30 < flashBytes s1)) } }
    else s) s

/-- FLASH_WRITE_HOLD (R268): less than 1 % of the working room is free. -/
def execFlashWriteHold (t : Stamp) (s : State) : Host.Outcome State Fault Refusal :=
  run t (fun s =>
    if flashRuns s then
      logErr { s.bump with tier := { s.tier with hold := true, freePm := Config.choice s.fresh % 10 } } .flash 6
    else s) s

/-- RELIST_DONE (R272): every header whose table lies wholly on this module's flash is in the directory again. -/
def execRelistDone (t : Stamp) (s : State) : Host.Outcome State Fault Refusal :=
  run t (fun s =>
    if hasFlash s ∧ !s.tier.relist then
      let s1 := s.tier.parked.foldl (fun s c => if (conv s c.1).isSome then s else putConv s c.2) s
      { s1 with tier := { s1.tier with relist := true, parked := [] } }
    else s) s

/-- ZQ_CALIBRATION (R254). -/
def execZqCalibration (t : Stamp) (s : State) : Host.Outcome State Fault Refusal :=
  run t (fun s => if flashRuns s then { s with tier := { s.tier with zq := s.tier.zq + 1 } } else s) s

/-! ## Error correction and retirement (R276 to R279) -/

/-- A number for a tier in the scrub counts. -/
def tierNum : Tier → Nat
  | .face => 0 | .hbm => 1 | .lpddr => 2 | .flash => 3 | .remote => 4

/-- PATROL_SCRUB (R276): one whole pass over a tier; what it finds comes as error events of their own. -/
def execPatrolScrub (t : Stamp) (tier : Tier) (s : State) : Host.Outcome State Fault Refusal :=
  run t (fun s => { s with tier := { s.tier with
    scrubs := tput s.tier.scrubs (tierNum tier) ((tget s.tier.scrubs (tierNum tier)).getD 0 + 1) } }) s

/-- Copies into a frame that is retired are discarded and start again elsewhere (R280). Which frames a copy is written
to is the tier manager's own, a free value (DESIGN CHOICE, log entry 152). -/
def discardInto (s : State) (tier : Tier) (u : UnitId) : State :=
  s.tier.moves.foldl (fun s x =>
    if x.2.dst = tier ∧ x.2.doneAt.isNone ∧ (ownSlices s x.2.bench tier).contains (frameSlice tier u.index) then
      if Config.choice s.fresh % 2 = 1 then restartMove s.bump x.1 x.2 else s.bump
    else s) s

/-- A frame is retired; more than 64 of one pseudo-channel or LPDDR channel retire it whole (R277, R278). Its bench
loses the slice, and its budgets fall, at the next commit. -/
def retireFrame (s : State) (tier : Tier) (u : UnitId) (frame : Nat) : State :=
  if s.tier.frames.contains (tier, u.index, frame) then s
  else
    let s0 := discardInto s tier u
    let s1 := logErr { s0 with tier := { s0.tier with frames := s0.tier.frames ++ [(tier, u.index, frame)] } } .memory 3 (u := u) (d1 := frame)
    let n := (s1.tier.frames.filter (fun f => f.1 == tier && f.2.1 == u.index)).length
    if (tier = .hbm ∨ tier = .lpddr) ∧ 64 < n ∧ !s1.tier.channels.contains (tier, u.index) then
      logErr { s1 with tier := { s1.tier with channels := s1.tier.channels ++ [(tier, u.index)] } } .memory 4 (u := u)
    else s1

/-- CORRECTED_ERROR (R277). -/
def correctedError (t : Stamp) (tier : Tier) (u : UnitId) (frame : Nat) (s : State) : State :=
  let s1 := logErr s .memory 1 (u := u) (d1 := frame)
  let s2 := { s1 with tier := { s1.tier with ces := s1.tier.ces ++ [(tier, u.index, frame, t.tick)] } }
  let win := regF s 0x30020 63 32
  let n := (s2.tier.ces.filter (fun c => c.1 == tier && c.2.1 == u.index && c.2.2.1 == frame &&
    decide (t.tick < c.2.2.2 + win))).length
  if tier != .flash && decide (regF s 0x30020 3 0 ≤ n) then retireFrame s2 tier u frame else s2

def execCorrectedError (t : Stamp) (tier : Tier) (u : UnitId) (frame : Nat) (s : State) :
    Host.Outcome State Fault Refusal := run t (correctedError t tier u frame) s

/-- UNCORRECTABLE_ERROR (R276, R277): the blocks of the line fail with cause 1, or the conversation goes to recovery
at its commit; the frame is retired. -/
def uncorrectable (t : Stamp) (tier : Tier) (u : UnitId) (frame : Nat) (use : LineUse) (s : State) : State :=
  let s1 := retireFrame (logErr s .memory 2 (u := u) (d1 := frame)) tier u frame
  match use with
  | .page p => rejectPage s1 p 1
  | .weight b tile => weightReject b tile 1 s1
  | .tableLine k => deferTo s1 t (.tableLost k)
  | .free => s1

def execUncorrectableError (t : Stamp) (tier : Tier) (u : UnitId) (frame : Nat) (use : LineUse) (s : State) :
    Host.Outcome State Fault Refusal := run t (uncorrectable t tier u frame use) s

/-- The recovery of a conversation whose table, log or sampler state a line took (R223, R276), at commit n. -/
def tableLost (s : State) (k n : Nat) : State :=
  match conv s k with
  | none => s
  | some c =>
    match liveReq s k with
    | some r => recover s r 0 n
    | none => if c.home then modConv (dropGroups s k 0) k (fun c => { c with length := 0 }) else delConv s k

/-- Retired slices leave their benches (R278). -/
def retiredSlices (s : State) : State :=
  haltShort ((s.fab.maps.benches.map (·.1)).foldl lowerBudgets s)

end Sys2Proof.Machine
end

