-- ==== Sys2Proof/Machine/Keepers.lean ====
section
/-! DEFINITION. Keepers, checkpoints, and the notices between homes, holders and replica holders (R168, R170 to R172,
R207, R213, R216 to R224, R261). -/

namespace Sys2Proof.Machine

/-! ## The home's log (R216, R217) -/

/-- Segments sealed in order at commit n: number and tick given, with the keeper in force and the record flag of their
sequence (R216, R217; log entry 135). -/
def numberSegs (n : Nat) (c : Conv) (seq : Nat) : List Segment → List Segment
  | [] => []
  | g :: r => { g with seq := seq, tick := n, recording := c.record, keeper := c.keeper } :: numberSegs n c (seq + 1) r

/-- Step 4 of commit n for one conversation: its new segments are sealed and sent to the keeper (R217). -/
def sealSegments (s : State) (k n : Nat) : State :=
  match conv s k with
  | none => s
  | some c =>
    if c.newSegs.isEmpty then s
    else
      let by_ (x : SegKind) : List Segment := c.newSegs.filter (fun g => g.kind == x)
      let gs := numberSegs n c c.nextSeq (by_ .params ++ by_ .request ++ by_ .tokens ++ by_ .fin)
      let s1 := putConv s { c with
        newSegs := [], segs := c.segs ++ gs, nextSeq := c.nextSeq + gs.length,
        segSent := some (c.segSent.getD s.time.now) }
      gs.foldl (fun s g => send s c.keeper (some c.bench) (.segment (segMsg g))) s1

/-- What a checkpoint carries of a conversation: its open and SEALING groups, their record blocks, its header (R220).
-/
def ckptConv (c : Conv) : Conv :=
  let es := c.entries.filter (fun e => e.state == .opened || e.state == .sealing)
  let gs := es.map (·.group)
  { c with entries := es, recs := c.recs.filter (fun r => gs.contains (r.locator / 64)), log := [], newSegs := [], segs := [] }

/-- A checkpoint of a live request at step 4 of commit n, once (R220); its blocks are read for the bench (R66). -/
def sendCheckpoint (s : State) (k n : Nat) : State :=
  match req s k with
  | none => s
  | some r =>
    match conv s r.conv with
    | none => s
    | some c =>
      if reqLive r.state && bounded s r.bench && n % ckptK s r.bench == r.key % ckptK s r.bench && r.ckptTick != some n &&
          c.home then
        send (chargePages (putReq s { r with ckptTick := some n }) c.bench ((ckptConv c).entries.filter isOwn)) c.keeper
          (some c.bench) (.checkpoint r (ckptConv c) n)
      else s

/-- CHECKPOINT_SEND (R220): the checkpoint of the commit its stamp names, unless that commit sent it. -/
def execCheckpointSend (t : Stamp) (req : Nat) (s : State) : Host.Outcome State Fault Refusal :=
  run t (fun s => sendCheckpoint s req (commitOf s t)) s

/-- CHECKPOINT_LATE (R220): not acknowledged within K ticks. -/
def execCheckpointLate (t : Stamp) (req : Nat) (s : State) : Host.Outcome State Fault Refusal :=
  run t (fun s =>
    match Machine.req s req with
    | some r => if r.ckptTick.isSome ∧ r.ckptTick ≠ r.ckptAcked then count s (bn r.bench 0x4B8) 1 else s
    | none => s) s

/-- CHECKPOINT_ACK (R220). -/
def execCheckpointAck (t : Stamp) (req tick : Nat) (s : State) : Host.Outcome State Fault Refusal :=
  runLink t (fun s => modReq s req (fun r => { r with ckptAcked := some (max tick (r.ckptAcked.getD 0)) })) s

/-- SEGMENT_ACK (R217): cumulative. -/
def execSegmentAck (t : Stamp) (conv upto : Nat) (s : State) : Host.Outcome State Fault Refusal :=
  runLink t (fun s => modConv s conv (fun c => { c with
    acked := max c.acked (min upto c.nextSeq), segSent := if c.nextSeq ≤ upto then none else some s.time.now })) s

/-- SEGMENT_RESEND (R217): every segment no acknowledgement covers, in order. -/
def execSegmentResend (t : Stamp) (conv : Nat) (s : State) : Host.Outcome State Fault Refusal :=
  run t (fun s =>
    match Machine.conv s conv with
    | some c =>
      if c.home && c.guarded then
        (c.segs.filter (fun g => decide (c.acked ≤ g.seq))).foldl (fun s g => send s c.keeper (some c.bench) (.segment (segMsg g)))
          (putConv s { c with segSent := some s.time.now })
      else s
    | none => s) s

/-- A keeper refused or cannot be reached: logged, signalled, and the request runs on without protection (R218). -/
def unguard (s : State) (k : Nat) : State :=
  match conv s k with
  | some c =>
    if c.home && c.guarded then logErr (putConv s { c with guarded := false }) .message 4 (b := c.bench) (d0 := k) else s
  | none => s

def execKeeperRefuse (t : Stamp) (conv : Nat) (s : State) : Host.Outcome State Fault Refusal :=
  runLink t (fun s => unguard s conv) s

/-- KEEPER_UNREACHABLE (R218): every conversation kept there. -/
def execKeeperUnreachable (t : Stamp) (keeper : ModuleId) (s : State) : Host.Outcome State Fault Refusal :=
  run t (fun s => (s.work.convs.filter (fun c => c.2.keeper == keeper)).foldl (fun s c => unguard s c.1) s) s

/-! ## The keeper (R218) -/

/-- The lowest-numbered CACHE bench. -/
def keeperBench (s : State) : Option Nat :=
  ((s.fab.maps.benches.map (·.1)).find? (fun b => role s b == 2))

/-- The keeper can take n more bytes beside all its bench holds (R218): its bench, or none. -/
def keeperRoom (s : State) (n : Nat) : Option Nat :=
  match keeperBench s with
  | some b => if hasSpace s b n && !inKeep s then some b else none
  | none => none

/-- n bytes written on the keeper's bench, in the tier where it keeps logs and copies (R66). -/
def chargeKeeper (s : State) (b n : Nat) : State :=
  match budgetNo (placeTier s b n) with
  | some k => charge s b k n
  | none => s

/-- The number below which every segment is held. -/
def heldUpto (segs : List Segment) : Nat → Nat → Nat
  | 0, n => n
  | f + 1, n => if segs.any (fun g => g.seq == n) then heldUpto segs f (n + 1) else n

def keeperOf (s : State) (k : Nat) : KeeperLog := tgetD s.haul.keeper k
def setKeeper (s : State) (k : Nat) (f : KeeperLog → KeeperLog) : State :=
  { s with haul := { s.haul with keeper := tput s.haul.keeper k (f (keeperOf s k)) } }

/-- SEGMENT_RECEIVE (R216 to R218): one that keeps R216 is stored in order of seg_seq and acknowledged, or refused. -/
def segmentReceived (src : ModuleId) (m : SegMsg) (s : State) : State :=
  match segOf m with
  | none => malformed s
  | some g =>
    match keeperRoom s (segBytes g) with
    | none => send s src none (.keeperRefuse g.conv)
    | some b =>
      let s1 := setKeeper s g.conv (fun x => { x with
        home := src, bench := b, segs := if x.segs.any (fun y => y.seq == g.seq) then x.segs else x.segs ++ [g] })
      let segs := (keeperOf s1 g.conv).segs
      send (chargeKeeper s1 b (segBytes g)) src none (.segmentAck g.conv (heldUpto segs segs.length 0))

def execSegmentReceive (t : Stamp) (src : ModuleId) (m : SegMsg) (s : State) : Host.Outcome State Fault Refusal :=
  runLink t (segmentReceived src m) s

/-- CHECKPOINT_RECEIVE (R218, R220): the newest is kept and acknowledged. -/
def checkpointReceived (src : ModuleId) (r : Req) (table : Conv) (tick : Nat) (s : State) : State :=
  let n := (table.entries.map pageBytes).sum + (table.recs.map recSlot).sum
  match keeperRoom s n with
  | none => send s src none (.keeperRefuse table.key)
  | some b =>
    let s1 := setKeeper s table.key (fun x => { x with
      home := src, bench := b,
      ckpt := match x.ckpt with
        | some (n, _, _) => if n ≤ tick then some (tick, r, table) else x.ckpt
        | none => some (tick, r, table) })
    send (chargeKeeper s1 b n) src none (.checkpointAck r.key tick)

def execCheckpointReceive (t : Stamp) (src : ModuleId) (req : Req) (table : Conv) (tick : Nat) (s : State) :
    Host.Outcome State Fault Refusal :=
  runLink t (checkpointReceived src req table tick) s

/-- KEEPER_FREE_NOTICE (R207). -/
def execKeeperFreeNotice (t : Stamp) (conv : Nat) (s : State) : Host.Outcome State Fault Refusal :=
  runLink t (fun s => { s with haul := { s.haul with keeper := tdel s.haul.keeper conv } }) s

/-- NEW_HOME_NOTICE (R213). -/
def execNewHomeNotice (t : Stamp) (conv : Nat) (home : ModuleId) (s : State) : Host.Outcome State Fault Refusal :=
  runLink t (fun s => { s with haul := { s.haul with keeper := tmod s.haul.keeper conv (fun x => { x with home := home }) } }) s

/-! ## A rebuild from the keeper (R223, R224) -/

/-- Segments below the number every one is held under, in order. -/
def wholeSegs (x : KeeperLog) : List Segment :=
  let n := heldUpto x.segs x.segs.length 0
  (List.range n).filterMap (fun i => x.segs.find? (fun g => g.seq == i))

/-- The last segment of a kind. -/
def lastSeg (gs : List Segment) (k : SegKind) : Option Segment := gs.reverse.find? (fun g => g.kind == k)

/-- The request of a log, if its newest REQUEST segment has no END after it (R223). -/
def rebuiltReq (s : State) (gs : List Segment) (log : List LogTok) (len : Nat) : Option Req :=
  match lastSeg gs .request, lastSeg gs .params with
  | some g, some p =>
    match g.record, p.record with
    | some r, some q =>
      if gs.any (fun x => x.kind == .fin && x.req == g.req && decide (g.seq < x.seq)) then none
      else
        let ans := (log.drop (r.firstInput + r.inputCount)).filter (·.gen)
        let first := if ans.isEmpty then min r.firstInput log.length else log.length
        let st := match q.auto with
          | some a => ans.foldl (fun st t => autoStep a (eosOf q.params) st t.tok) (fieldOf a.hdr 127 96)
          | none => 0
        let rebuild := first - len
        some { r with
          params := q.params, auto := q.auto, autoState := st, answers := ans.length, carried := s.fresh,
          state := if 0 < rebuild then .rebuilding else stateAfterRebuild { r with inputLeft := log.length - max first len },
          rebuildLeft := rebuild, inputLeft := log.length - max first len, recovered := some len, waitTok := [],
          waitHold := false, ckptTick := none, ckptAcked := none, ringAddr := 0, producer := 0 }
    | _, _ => none
  | _, _ => none

/-- The table a restore offers: sealed groups as primaries here, the checkpoint's open and SEALING groups to be
carried (R224). -/
def restoreTable (s : State) (x : KeeperLog) (k : Nat) (held : List Entry) (c : Conv) : State × Conv :=
  let reps := x.replicas.filter (fun e => decide (64 * (e.group + 1) ≤ c.length) &&
    !(c.entries ++ held).any (fun y => entryIs y (entryPage e k)))
  let (s1, mine) := placeEntries s x.bench (reps.map (fun e => { e with state := .sealed }) ++ c.entries)
  (s1, { c with bench := x.bench, home := false, req := none, frozen := none, pend := none, entries := held ++ mine })

/-- KEEPER_LOG_READ (R223, R224): the keeper becomes the source of a haul of purpose RESTORE: the log, the request it
gives, and under `restore` the checkpoint's own groups, with the sealed groups as primaries here. -/
def logRead (k : Nat) (home : ModuleId) (homeBench : Nat) (restore : Bool) (s : State) : State :=
  let refuse (st : Status) : State :=
    send s home none (.haul ⟨haulHdr k 0 0 s.fab.self homeBench .restore 2 0 (statusCode st), .refuse none⟩)
  if inKeep s then refuse .benchHalted
  else match tget s.haul.keeper k with
    | none => refuse .notFound
    | some x =>
      if (conv s k).any (fun c => c.home || c.frozen.isSome) then refuse .badDescriptor
      else if !headerFor s k then refuse .noCapacity
      else
        let gs := wholeSegs x
        let log := (gs.filter (fun g => g.kind == .tokens)).flatMap (·.toks)
        let base : Conv := { key := k, bench := x.bench, home := false, record := gs.any (·.recording) }
        let held := match conv s k with
          | some c => c.entries.filter (fun e => e.state == .sealed)
          | none => []
        let mine := restore && x.ckpt.isSome
        let (s0, c) : State × Conv := match restore, x.ckpt with
          | true, some (_, _, c) => restoreTable s x k held c
          | _, _ => (s, { base with entries := held })
        let r := rebuiltReq s gs log c.length
        let s1 := putConv s0.bump { c with
          log := log, segs := gs, newSegs := [], keeper := s.fab.self, guarded := true, acked := gs.length,
          nextSeq := gs.length, state := .idle }
        let s2 := if mine then setKeeper s1 k (fun x => { x with replicas := [] }) else s1
        let id := s2.haul.nextId
        let s3 := startHaul s2 k .restore home homeBench false false false none
        let s4 := { s3 with haul := { s3.haul with
          out := tmod s3.haul.out id (fun h => { h with given := r, req := (r.map (·.key)).getD 0 }) } }
        sendOffer s4 id

def execKeeperLogRead (t : Stamp) (conv : Nat) (home : ModuleId) (homeBench : Nat) (restore : Bool) (s : State) :
    Host.Outcome State Fault Refusal :=
  runLink t (logRead conv home homeBench restore) s

/-! ## Notices, applied at the commit their stamps name (R34) -/

/-- A release notice at a holder (R223). -/
def applyRelease_ (s : State) (k g : Nat) : State :=
  match conv s k with
  | some c => if c.home then s else dropEmptyHolder (dropGroups s k g) k
  | none => s

/-- A state notice at a holder (R261). -/
def applyState (s : State) (k : Nat) (st : ConvState) : State :=
  match conv s k with
  | some c => if c.home then s else promoteToFloor (putConv s { c with state := st }) k s.time.now
  | none => s

/-- An entry into its place by the order of R162. -/
def insEntry (e : Entry) : List Entry → List Entry
  | [] => [e]
  | x :: l => if entryBefore x e then x :: insEntry e l else e :: x :: l

/-- One more table names a page of this module (R168): the count rises, and the holder table of `seq` names the page.
-/
def refUp (s : State) (p : PageRef) (seq : Nat) : State :=
  match findPage s p, conv s p.conv with
  | some e, some c =>
    if !isOwn e then s
    else
      let s1 := addRefs s e (fun n => min 16777215 (n + 1))
      let e1 := { e with refs := min 16777215 (e.refs + 1) }
      let h : Conv := (conv s1 seq).getD { key := seq, bench := c.bench, home := false, length := c.length, fpTag := c.fpTag,
                                           layers := c.layers, kvHeads := c.kvHeads, state := .active }
      if h.entries.any (fun x => entryIs x p && x.state != .replica) then s1
      else putConv s1 { touchConv s h with entries := insEntry e1 h.entries, length := max h.length (64 * (p.group + 1)) }
  | _, _ => s

/-- A table elsewhere no longer names a page of this module (R168): the holder table of `seq` gives it up, and where
its count reaches 0 it is freed with its replicas (R172). -/
def refDown (s : State) (p : PageRef) (seq : Nat) : State :=
  let q : PageRef := { p with conv := seq }
  match findPage s q, conv s seq with
  | some e, some c =>
    if c.home || !isOwn e then s
    else dropEmptyHolder (modConv (dropPage s c e) seq (fun x => touchConv s { x with
      entries := x.entries.filter (fun y => !entryIs y q) })) seq
  | _, _ => s

/-- A reference-count message at the holder (R168): p by the key of the table that gave the page, or by `seq` itself.
-/
def applyRefcount (s : State) (p : PageRef) (seq : Nat) (up : Bool) : State := if up then refUp s p seq else refDown s p seq

/-- Replica entries follow their primary (R162). -/
def insertReplica (r : Entry) (p : PageRef) : List Entry → List Entry
  | [] => []
  | e :: l => if entryIs e p && e.state != .replica then e :: r :: l else e :: insertReplica r p l

/-- REPLICA entries of a page, in every table of this module that shares it (R162, R170). -/
def copiesOf (s : State) (p : PageRef) : List Entry :=
  s.work.convs.flatMap (fun c => c.2.entries.filter (fun x => x.state == .replica && samePage s (entryPage x c.1) p))

/-- A REPLICA entry is added (R170, R171): at most two of one page, none for a page that is not SEALED; a copy that is
not taken is freed at its holder. -/
def applyReplicaAdd (s : State) (p : PageRef) (holder : ModuleId) (pageId : Nat) : State :=
  match findPage s p, conv s p.conv with
  | some e, some c =>
    let have_ := copiesOf s p
    if have_.any (fun x => x.holder == holder) then s
    else if e.state != .sealed || decide (2 ≤ have_.length) then send s holder (some c.bench) (.primaryFree p)
    else
      let r : Entry := { e with state := .replica, holder := holder, pageId := pageId, tier := .remote, refs := 1 }
      putConv s (touchConv s { c with entries := insertReplica r p c.entries })
  | _, _ => send s holder none (.primaryFree p)

/-- A REPLICA entry is removed (R172). -/
def applyReplicaDrop (s : State) (p : PageRef) (holder : ModuleId) : State :=
  modConv s p.conv (fun c => touchConv s { c with
    entries := c.entries.filter (fun e => !(e.state == .replica && entryIs e p && e.holder == holder)) })

/-- A replica of a freed primary is freed, at a holder or in the keeper's store (R172). -/
def applyPrimaryFree (s : State) (p : PageRef) : State :=
  let s1 := modConv s p.conv (fun c => { c with
    entries := c.entries.filter (fun e => !(e.state == .replica && entryIs e p && e.holder == s.fab.self)) })
  let s2 := { s1 with haul := { s1.haul with
    keeper := tmod s1.haul.keeper p.conv (fun x => { x with replicas := x.replicas.filter (fun e => !entryIs e p) }) } }
  dropEmptyHolder s2 p.conv

def execReleaseNotice (t : Stamp) (conv fromGroup : Nat) (s : State) : Host.Outcome State Fault Refusal :=
  runLink t (fun s => deferTo s t (.release conv fromGroup)) s
def execStateNotice (t : Stamp) (conv : Nat) (st : ConvState) (s : State) : Host.Outcome State Fault Refusal :=
  runLink t (fun s => deferTo s t (.state conv st)) s
def execRefcountMessage (t : Stamp) (p : PageRef) (seq : Nat) (up : Bool) (s : State) :
    Host.Outcome State Fault Refusal :=
  runLink t (fun s => deferTo s t (.refcount p seq up)) s
def execReplicaCopyAck (t : Stamp) (p : PageRef) (holder : ModuleId) (pageId : Nat) (s : State) :
    Host.Outcome State Fault Refusal :=
  runLink t (fun s => deferTo s t (.replicaAdd p holder pageId)) s
def execPrimaryFreeNotice (t : Stamp) (p : PageRef) (s : State) : Host.Outcome State Fault Refusal :=
  runLink t (fun s => deferTo s t (.primaryFree p)) s
def execReplicaDropNotice (t : Stamp) (p : PageRef) (holder : ModuleId) (s : State) : Host.Outcome State Fault Refusal :=
  runLink t (fun s => deferTo s t (.replicaDrop p holder)) s

/-- The bench a replica lies on: the keeper's CACHE bench, or the lowest-numbered MIXED one (R15; log entry 66). -/
def replicaBench (s : State) : Option Nat :=
  match keeperBench s with
  | some b => some b
  | none => (s.fab.maps.benches.map (·.1)).find? (fun b => isCacheOrMixed (role s b))

/-- What checks a copy that arrives (R118, R171): the cause it is rejected for. -/
def copyCause (s : State) (b : Nat) (e : Entry) (sound : Bool) : Option Nat :=
  if sound then pageCause s b e.key.fpTag { e with state := .sealed } else some 1

/-- The copy kept (R171): in the keeper's store of its conversation, or in a holder table. -/
def keepCopy (s : State) (b : Nat) (p : PageRef) (r : Entry) : State :=
  if (tget s.haul.keeper p.conv).isSome then
    setKeeper s p.conv (fun x => { x with replicas := x.replicas.filter (fun y => !entryIs y p) ++ [r] })
  else
    let c : Conv := (conv s p.conv).getD { key := p.conv, bench := b, home := false, fpTag := r.key.fpTag }
    putConv s { c with
      entries := insEntry r (c.entries.filter (fun y => !(y.state == .replica && entryIs y p && y.holder == s.fab.self))) }

/-- REPLICA_COPY_RECEIVE (R170, R171): the copy is checked under R118, kept, and acknowledged to the primary's holder.
-/
def replicaReceived (src : ModuleId) (p : PageRef) (e : Entry) (sound : Bool) (s : State) : State :=
  match replicaBench s with
  | none => s
  | some b =>
    if inKeep s then s
    else match copyCause s b e sound with
      | some cause => countReject s b p.conv e cause
      | none =>
        if !hasSpace s b (pageBytes e) || !((tget s.haul.keeper p.conv).isSome || headerFor s p.conv) then s
        else
          let (s1, id) := newPageId s
          let r : Entry := { e with
            state := .replica, tier := placeTier s b (pageBytes e), holder := s.fab.self, bench := b, cell := none,
            shared := false, extentOff := 0, refs := 1, pageId := id }
          send (keepCopy (chargePage s1 b r) b p r) src none (.replicaAck p id)

def execReplicaCopyReceive (t : Stamp) (src : ModuleId) (p : PageRef) (e : Entry) (sound : Bool) (s : State) :
    Host.Outcome State Fault Refusal :=
  runLink t (replicaReceived src p e sound) s

/-- A group's own pages, each budget's bytes of them within what is left of the bench's migration share (R170). -/
def shareCovers (s : State) (b : Nat) (es : List Entry) : Bool :=
  (List.range 3).all (fun k =>
    decide (((es.filter (fun e => budgetNo e.tier == some k)).map pageBytes).sum ≤ shareLeft s b k))

/-- A page's bytes taken of the migration share. -/
def chargeCopy (s : State) (b : Nat) (e : Entry) : State :=
  match budgetNo e.tier with
  | some k => chargeShare s b k (pageBytes e)
  | none => s

/-- A sealed group's replica goes to the keeper, within the migration share of its bench (R170, R220). -/
def sendReplicas (s : State) (c : Conv) (g : Nat) : State :=
  if c.home && bounded s c.bench then
    (c.entries.filter (fun e => e.group == g && e.state == .sealed && isLocal s e)).foldl (fun s e =>
      send (chargeCopy s c.bench e) c.keeper (some c.bench) (.replicaCopy (entryPage e c.key) e)) s
  else s

end Sys2Proof.Machine
end

