-- ==== Sys2Proof/Machine/Metering.lean ====
section
/-! DEFINITION. Metering (R480 to R484): the open records of benches and tallies, and the ring they close into. -/

namespace Sys2Proof.Machine

/-- The open record of bench b. -/
def openMeter (s : State) (b : Nat) : OpenMeter := tgetD s.mgmt.open_ b

/-- The open record changed. -/
def setMeter (s : State) (b : Nat) (f : OpenMeter → OpenMeter) : State :=
  { s with mgmt := { s.mgmt with open_ := tput s.mgmt.open_ b (f (openMeter s b)) } }

/-- Slices of each kind a bench holds, a leaving slice counting for it still (R480): cell groups, engines, HBM, LPDDR,
flash, links. -/
def sliceCounts (s : State) (b : Nat) : List Nat :=
  let leaving (t : Tier) : Nat := (s.tier.leaving.filter (fun x => x.1 == b && x.2.1 == t)).length
  let r := (bench s b).record
  [recGroups r, recEngines r, tierSlices s b .hbm + leaving .hbm, tierSlices s b .lpddr + leaving .lpddr,
   tierSlices s b .flash + leaving .flash, recLinks r]

/-- The meter window's last tick is k (R480). -/
def windowEnds (s : State) (k : Nat) : Bool :=
  let w := regF s 0x90010 31 0
  w != 0 && (k + 1) % w == 0

/-- A record enters the ring of 65,536 (R483). -/
def putMeter (s : State) (r : MeterRec) : State :=
  let l := s.mgmt.meter ++ [{ r with seq := s.mgmt.meterProd }]
  { s with mgmt := { s.mgmt with
    meter := if 65536 < l.length then l.drop 1 else l, meterProd := (s.mgmt.meterProd + 1) % 2 ^ 32 } }

/-- Bench b's record closes at the commit of tick k (R480, R481); the next begins at tick k + 1. -/
def closeRecord (s : State) (b reason k : Nat) : State :=
  let o := openMeter s b
  if k < o.firstTick then s
  else
    let r : MeterRec := { kind := 0, reason := reason, bench := b, firstTick := o.firstTick, ticks := k + 1 - o.firstTick,
                          vals := [o.tag, o.restTicks, o.gen, o.prefill], slices := o.slices, epoch := o.epoch,
                          afterReset := o.afterReset }
    setMeter (putMeter s r) b
    (fun _ => { o with firstTick := k + 1, restTicks := 0, gen := 0, prefill := 0, afterReset := false })

/-- A tally's record closes at the commit of tick k (R482). -/
def closeTally (s : State) (id reason k : Nat) : State :=
  match tget s.work.tallies id with
  | none => s
  | some t =>
    if k < t.firstTick then s
    else
    let r : MeterRec := { kind := 1, reason := reason, bench := t.bench, tally := id, firstTick := t.firstTick,
                          ticks := k + 1 - t.firstTick, afterReset := s.time.first == some t.firstTick,
                          vals := [t.generated, t.charged - t.generated, t.returned, t.refilled, t.waitTicks, t.balance] }
    let s1 := putMeter s r
    let t1 : Tally := { t with generated := 0, charged := 0, returned := 0, refilled := 0, waitTicks := 0, firstTick := k + 1 }
    { s1 with work := { s1.work with tallies := tput s1.work.tallies id t1 } }

/-- What a bench holds noted in its open record, for the ticks to come. -/
def noteMeter (s : State) (b : Nat) : State :=
  let sl := sliceCounts s b
  let tag := (bench s b).modelTag
  let holds := sl.any (fun n => n != 0) || (bench s b).pkg.isSome
  setMeter s b (fun o => { o with tag := tag, slices := sl, epoch := s.fab.epoch, used := o.used || holds })

/-- Records due at the commit of tick k close, each with its lowest reason, and every bench's open record goes on
(R480, R482). -/
def closeMeters (s : State) (k : Nat) : State :=
  let w := windowEnds s k
  let s1 := (List.range 16).foldl (fun s b =>
    let rs := (s.mgmt.closing.filter (fun c => c.1 == b)).map (·.2)
    if w && (openMeter s b).used then
      setMeter (closeRecord s b 0 k) b (fun o => { o with used := false })
    else match rs with
      | [] => s
      | r :: l => closeRecord s b (l.foldl min r) k) s
  let s2 := if w then s1.work.tallies.foldl (fun s t => closeTally s t.1 0 k) s1 else s1
  (List.range 16).foldl noteMeter { s2 with mgmt := { s2.mgmt with closing := [] } }

/-- Every record closes when Keep mode is entered, through the last completed commit (R480). -/
def closeAll (s : State) (reason : Nat) : State :=
  match s.time.lastCommit with
  | none => s
  | some k =>
    let s1 := (List.range 16).foldl (fun s b => if (openMeter s b).used then closeRecord s b reason k else s) s
    s1.work.tallies.foldl (fun s t => closeTally s t.1 reason k) s1

/-- Records open at the first tick after a reset. -/
def openMeters (s : State) (k : Nat) : State :=
  (List.range 16).foldl (fun s b => noteMeter (setMeter s b (fun _ => { firstTick := k, afterReset := true })) b) s

end Sys2Proof.Machine
end

