-- ==== Sys2Proof/Machine/Keep.lean ====
section
/-! DEFINITION. Keep mode and read-out (R425 to R429), and what a write to BAR0 meets first (R396, R464, R486, R487).
-/

namespace Sys2Proof.Machine

/-! ## Writes to BAR0 -/

/-- The firmware row of start-up is done (R388), or the loader serves Keep mode (R401, R426; log entry 67). -/
def served (s : State) : Bool := decide (5 ≤ s.fw.row) || s.fw.stage == .keep

/-- BAR0 answers: it is served, the ROM or loader is not in RECOVERY (R396), and PERST# does not hold the endpoint
(R513). -/
def barReady (s : State) : Bool :=
  served s && s.fw.stage != .recovery && !s.pwr.off && !s.fw.perstLow

/-- Blocks that BAR0 answers in Rest: ID_, CAP_, TK_ and PW_ (R464, R485). -/
def restOpen (off : Nat) : Bool :=
  decide (off < 0x1000) || (decide (0x10000 ≤ off) && decide (off < 0x20000)) ||
    (decide (0x60000 ≤ off) && decide (off < 0x70000))

/-- In Rest a write outside those blocks is discarded (R464). -/
def restShut (s : State) (off : Nat) : Bool := s.pwr.state == .rest && !restOpen off

/-- A write to BAR0 by the physical function; a virtual function's is discarded and counted (R487). -/
def pfWrite (t : Stamp) (fn : Fn) (off : Nat) (f : State → State) (s : State) : Host.Outcome State Fault Refusal :=
  run t (fun s =>
    if !barReady s then s
    else if fn != .pf || restShut s off then badAccess s
    else f s) s

/-! ## Entry (R426) -/

/-- Commits up to this tick still complete when Keep mode is entered at a stamp: cut-off at or before it (R426 step
1). -/
def keepCommits (s : State) (st : Stamp) (n : Nat) : Bool := stampLe ⟨n, cutoffOff s⟩ st

/-- A landed descriptor still has its commit. -/
def keepsCommit (s : State) (st : Stamp) (c : Cpl) : Bool := keepCommits s st (commitOf s c.stamp)

/-- Descriptors read and not applied, whose commit does not come, complete ST_BENCH_HALTED; so do those that wait for
a pull (R426 step 2). `all` takes every one. -/
def dropLanded (st : Stamp) (all : Bool) (s : State) : State :=
  let gone (c : Cpl) : Bool := all || !keepsCommit s st c
  let l := (s.host.landed.filter (fun d => d.raw.isSome && gone d.cpl)).map (·.cpl)
  let p := ((s.haul.pulls.filter (fun q => gone q.cpl)).map (·.cpl)).filter (fun c => !l.contains c)
  let s1 := { s with
    host := { s.host with landed := s.host.landed.filter (fun d => d.raw.isNone || !gone d.cpl) },
    haul := { s.haul with pulls := s.haul.pulls.filter (fun q => !gone q.cpl) } }
  (l ++ p).foldl (fun s c => complete s c .benchHalted 0 s.time.now.tick) s1

/-- The response to a management command (R471): its header's command and tag come back with a status. -/
def respond (s : State) (c : MgmtCmd) (st : Status) (body : List Nat) : State :=
  let s1 := emit s (.mgmt c.transport (fieldOf c.hdr 31 16) (fieldOf c.hdr 95 64) st body)
  if c.transport = .mirror then
    signal { s1 with mgmt := { s1.mgmt with busy := false, mirror := none } } .pf 33
  else s1

/-- Management commands and erasures that wait for a commit that does not come: the commands are answered
ST_BENCH_HALTED, as every later one is (R426, R475), and the erasures end so. `all` takes every one. -/
def dropHeld (st : Stamp) (all : Bool) (s : State) : State :=
  let gone (t : Stamp) : Bool := all || !keepCommits s st (commitOf s t)
  let cs := (s.mgmt.held.filter (fun h => gone h.1.stamp)).map (·.1) ++
    (s.pwr.restReq.filter (fun r => gone r.1)).filterMap (·.2)
  let late := s.sec.erase.any (fun e => gone e.1)
  let s1 := { s with
    mgmt := { s.mgmt with held := s.mgmt.held.filter (fun h => !gone h.1.stamp) }
    pwr := { s.pwr with restReq := s.pwr.restReq.filter (fun r => !gone r.1) }
    sec := { s.sec with erase := s.sec.erase.filter (fun e => !gone e.1), keyStatus := if late then 14 else s.sec.keyStatus } }
  cs.foldl (fun s c => respond s c .benchHalted []) s1

/-- Keep mode is entered at the present stamp with a cause of R425 (R426). -/
def enterKeep (cause : Nat) (s : State) : State :=
  if inKeep s then s
  else
    let st := s.time.now
    let s1 := { s with
      fault := { s.fault with keep := some (cause, st) }
      fw := { s.fw with stage := .keep, restart := none, readyAt := none, hitlessWait := false, planLate := false }
      pwr := { s.pwr with state := .keep, restDue := false, latched := none }
      time := { s.time with sync := if s.time.sync = .source then .holdover else s.time.sync }
      plan := if keepCommits s st st.tick then s.plan
        else { s.plan with units := s.plan.units.map (fun u => { u with dropped := true }) } }
    let s2 := logErr (dropHeld st false (dropLanded st false s1)) .keep 1 (d0 := cause)
    if keepCommits s st st.tick && s.time.lastCommit != some st.tick then s2 else closeAll s2 3

/-- RL_KEEP_CTRL_ENTER (R425, R427): a host command of the physical function. -/
def execRlKeepCtrlEnter (t : Stamp) (fn : Fn) (s : State) : Host.Outcome State Fault Refusal :=
  pfWrite t fn 0x70020 (enterKeep 4) s

/-! ## Read-out (R427, R428) -/

/-- Flash pages may be read out: not after an attestation failure (R428). -/
def flashReadable (s : State) : Bool :=
  match s.fault.keep with
  | some (c, _) => c != 1
  | none => true

/-- This module holds the entry's page and can read it out (R427). -/
def readable (s : State) (e : Entry) : Bool :=
  isLocal s e && e.state != .missing && e.state != .lost && (e.tier != .flash || flashReadable s)

/-- Bytes of a block as stored (R108, R110). -/
def storedBytes (b : Block) : Nat := b.bytes

/-- Bytes of a record block, padded to 32 (R174). -/
def recBytes (r : RecBlock) : Nat := 32 + 32 * ceilDiv (if r.isToken then 8 * r.rows else 4 * r.rows * r.qHeads) 32

/-- Bytes of a request's sampler state (R241). -/
def samplerBytes (s : State) (r : Req) : Nat :=
  let m := manOf s r.bench
  64 + 192 + 64 + 32 * ceilDiv (4 * (manQ m * manDim m)) 32 +
    (match r.auto with | some a => fieldOf a.hdr 95 64 | none => 0) + 16 * r.waitTok.length

/-- Bytes of a conversation's read-out (R210, R427). -/
def convBytes (s : State) (c : Conv) : Nat :=
  let a := (c.entries.filter (readable s)).foldl (fun a e => a + storedBytes e.key + storedBytes e.value) (readoutBytes c)
  let b := c.recs.foldl (fun a r => a + recBytes r) a
  match s.work.reqs.find? (fun r => r.2.conv == c.key && r.2.state != .ended) with
  | some r => b + samplerBytes s r.2
  | none => b

/-- The conversation as read out in Keep mode: the form of R210, then the blocks of the pages that can be read, the
record blocks, and the sampler state of its request (R427). -/
def keepForm (s : State) (c : Conv) : Readout :=
  { readoutForm s c with
    blocks := (c.entries.filter (readable s)).flatMap (fun e => [e.key, e.value])
    recs := c.recs
    sampler := (s.work.reqs.find? (fun r => r.2.conv == c.key && r.2.state != .ended)).map (fun r =>
      let p := manOf s r.2.bench
      let b := bindOf s r.1
      let x := { r.2 with ringAddr := (b.map (·.ringAddr)).getD 0, producer := (b.map (·.producer)).getD 0 }
      (samplerHdr x c.log.length (manQ p * manDim p), x)) }

/-- An entry of LIST (R427). -/
def listEntry (s : State) (c : Conv) : BitVec 256 :=
  let bad := c.entries.any (fun e => isLocal s e && e.tier == .flash && !flashReadable s)
  BitVec.ofNat 256 ((if bad then 1 else 0) + (if c.record then 2 else 0) + (if c.state = .parked then 4 else 0) +
    (if c.home then 8 else 0) + c.bench % 16 * 2 ^ 128 + (groupsOf c).length % 2 ^ 16 * 2 ^ 144 +
    c.length % 2 ^ 32 * 2 ^ 160 + c.key % 2 ^ 64 * 2 ^ 192)

/-- The result registers set. -/
def setReadout (s : State) (done : Bool) (st : Status) (bytes next : Nat) : State :=
  { s with fault := { s.fault with readout := (done, statusCode st, bytes, next) } }

/-- A go of a kind (R427): refused outside Keep mode, nothing while one is running. -/
def goReadout (kind : Nat) (f : State → State) (s0 : State) : State :=
  let s := putReg s0 0x70040 (BitVec.ofNat 64 kind)
  if !inKeep s then setReadout s true .badDescriptor 0 0
  else if !s.fault.readout.1 then s
  else f s

/-- READOUT_LIST: entries from index key on, as many as fit. -/
def execReadoutList (t : Stamp) (fn : Fn) (s : State) : Host.Outcome State Fault Refusal :=
  pfWrite t fn 0x70040 (goReadout 0 (fun s =>
    let first := (regRead s 0x70038).toNat
    let n := (regRead s 0x70030).toNat / 32
    let l := (s.work.convs.drop first).take n
    let next := if first + l.length < s.work.convs.length then first + l.length else 0xFFFFFFFF
    setReadout (emitTo s .pf (.readoutList (regRead s 0x70028).toNat (l.map (fun c => listEntry s c.2)))) false .ok
      (32 * l.length) next)) s

/-- READOUT_CONV: the conversation, or the bytes it needs. -/
def execReadoutConv (t : Stamp) (fn : Fn) (s : State) : Host.Outcome State Fault Refusal :=
  pfWrite t fn 0x70040 (goReadout 1 (fun s =>
    match conv s (regRead s 0x70038).toNat with
    | none => setReadout s true .notFound 0 0
    | some c =>
      if (regRead s 0x70030).toNat < convBytes s c then setReadout s true .noCapacity (convBytes s c) 0
      else setReadout (emitTo s .pf (.readoutConv (regRead s 0x70028).toNat (keepForm s c))) false .ok
        (convBytes s c) 0)) s

/-- READOUT_DONE: the write has finished; done reads 1 with its status, bytes and next. -/
def execReadoutDone (t : Stamp) (s : State) : Host.Outcome State Fault Refusal :=
  run t (fun s => { s with fault := { s.fault with readout := (true, s.fault.readout.2) } }) s

end Sys2Proof.Machine
end

