-- ==== Sys2Proof/Machine/Links.lean ====
section
/-! DEFINITION. Links: flits, training, keys, degraded lanes and the lane power loop (R302 to R311, R440 to R443,
R468, R518). -/

namespace Sys2Proof.Machine

/-- `FB_LINK_CTRL` enable of a link. -/
def linkEnabled (s : State) (l : Nat) : Bool :=
  if l < 64 then (regVal s 0x40000).getLsbD l else (regVal s 0x40008).getLsbD (l - 64)

/-- This module requires encryption (R309). -/
def requireEnc (s : State) : Bool := regF s 0x40010 0 0 == 1

/-- A link may train: present, enabled, its cage cabled (R306, R518). -/
def mayTrain (s : State) (l : Nat) : Bool := linkPresent s l && linkEnabled s l && (linkOf s l).cable

/-- This module's IDENT record (R308). -/
def identOf (s : State) (l : Nat) : Ident :=
  { peer := s.fab.self, link := l, linkFits := linkPresent s l, period := period s, backstop := backstopPm s,
    cutoff := cutoffPm s, epoch := s.fab.epoch, requires := requireEnc s, supports := true }

/-- Training starts at DETECT. -/
def startTraining (s : State) (l : Nat) : State :=
  if mayTrain s l then setLink s l (fun x => { x with state := .training, step := 1, lanes := 0, ident := none }) else s

/-- Training is refused (R306, R443). -/
def refuseLink (s : State) (l : Nat) : State := linkDown s l 4 .refused

/-- A key exchange that fails in training: ABORT, REFUSED, SECURITY cause 3 (R443). -/
def failExchange (s : State) (l : Nat) (sendAbort : Bool) : State :=
  let x := linkOf s l
  let s1 := if sendAbort then onLink s l (.key 2 x.exchange (keyMessage s l 2 0 [])) else s
  let s2 := logErr s1 .security 3 (u := ⟨.link, l⟩)
  if x.state = .training then refuseLink s2 l else setLink s2 l clearExchange

/-- The link carries packets: ACTIVE on two lanes, DEGRADED on one; this end grants its receive buffers (R307, R314).
-/
def linkReady (s : State) (l : Nat) : State :=
  let kib (hi lo : Nat) : Nat := 32 * regF s 0x40018 hi lo
  let s1 := setLink s l (fun x => { x with
    state := if laneCount x = 2 then .active else .degraded, step := 7, rxNext := 0, txNext := 0, secretAt := s.time.now })
  onLink (onLink (onLink (onLink s1 l (.credit 0 (kib 7 0))) l (.credit 1 (kib 15 8))) l (.credit 2 (kib 23 16))) l
    (.credit 3 (kib 31 24))

/-- HELLO sent for an exchange (R440): nonce, fresh encapsulation key, certificates 1 to 3. -/
def sendHello (s : State) (l : Nat) : State :=
  let s1 := setLink s l (fun x => { clearExchange x with exchange := x.exchange + 1 })
  let body := helloBody s1
  let msg := keyMessage s1 l 0 (body.length - 1216) body
  onLink (setLink s1.bump l (fun x => { x with hello := msg, kemKey := s1.fresh })) l (.key 0 (linkOf s1 l).exchange msg)

/-- KEM sent after the peer's HELLO (R440): encapsulated to the peer's key, signed over th_k. -/
def sendKem (s : State) (l : Nat) (m : KeyMsg) : State :=
  let (ct, ss) := Config.mlkemEncaps ((m.body.drop 32).take 1184) s.fresh
  let s1 := setLink s.bump l (fun x => { x with
    helloSeen := true, peerHello := leBytes 32 m.hdr.toNat ++ m.body, kemText := ct, kemShare := ss })
  let sig := fwSignature s1 (bytes32 (kemTranscript s1 l ct))
  onLink s1 l (.key 1 (linkOf s1 l).exchange (keyMessage s1 l 1 0 (ct ++ sig)))

/-- CABLE_INSERT (R517, R518). -/
def execCableInsert (t : Stamp) (cage : Nat) (s : State) : Host.Outcome State Fault Refusal :=
  run t (fun s => (List.range 4).foldl (fun s k =>
    let l := 4 * cage + k
    if linkPresent s l then
      let s1 := setLink s l (fun x => { x with cable := true })
      if (linkOf s1 l).state = .down then startTraining s1 l else s1
    else s) s) s

/-- TRAINING_STEP_DONE (R307): the next step begins, or the link carries packets. -/
def stepDone (l : Nat) (lanes : BitVec 2) (s : State) : State :=
  let x := linkOf s l
  if x.state ≠ .training then s
  else if x.step = 1 ∨ x.step = 2 ∨ x.step = 3 then
    if lanes = 0 then linkDown s l 2
    else
      let s1 := setLink s l (fun x => { x with lanes := lanes, step := x.step + 1 })
      if x.step = 3 then onLink s1 l (.ident (identOf s l)) else s1
  else if x.step = 6 then linkReady s l
  else s

def execTrainingStepDone (t : Stamp) (link : Nat) (lanes : BitVec 2) (s : State) : Host.Outcome State Fault Refusal :=
  run t (stepDone link lanes) s

/-- TRAINING_STEP_TIMEOUT (R307): DOWN, or REFUSED at step 5 (R443). -/
def execTrainingStepTimeout (t : Stamp) (link : Nat) (s : State) : Host.Outcome State Fault Refusal :=
  run t (fun s =>
    let x := linkOf s link
    if x.state ≠ .training then s
    else if x.step = 5 then failExchange s link true else linkDown s link 2) s

/-- TRAINING_RETRY (R307). -/
def execTrainingRetry (t : Stamp) (link : Nat) (s : State) : Host.Outcome State Fault Refusal :=
  run t (fun s => if (linkOf s link).state = .down then startTraining s link else s) s

/-- IDENT_RECEIVE (R308): refused, isolated, or on to the next step. -/
def identReceived (l : Nat) (id : Ident) (s : State) : State :=
  let x := linkOf s l
  if (x.state = .training ∧ x.step = 4) ∨ x.state = .isolated then
    let s1 := setLink s l (fun x => { x with ident := some id })
    if !id.linkFits || !linkPresent s l || (requireEnc s && !id.supports) then refuseLink s1 l
    else if id.period ≠ period s ∨ id.backstop ≠ backstopPm s ∨ id.cutoff ≠ cutoffPm s then
      setLink s1 l (fun x => { x with state := .isolated })
    else if requireEnc s || id.requires then
      sendHello (setLink s1 l (fun x => { x with state := .training, step := 5, enc := true })) l
    else setLink s1 l (fun x => { x with state := .training, step := 6, enc := false })
  else s

def execIdentReceive (t : Stamp) (link : Nat) (id : Ident) (s : State) : Host.Outcome State Fault Refusal :=
  run t (identReceived link id) s

/-- A key message's header is well formed and names the peer of IDENT (R440, R441). -/
def keyMsgOk (s : State) (l kind : Nat) (m : KeyMsg) : Bool :=
  fieldOf m.hdr 15 0 == 0x4B58 && fieldOf m.hdr 31 16 == 1 && zeroAt m.hdr 63 32 && zeroAt m.hdr 159 128 &&
    fieldOf m.hdr 199 192 == kind && keyBodyOk m && (kind == 0 || zeroAt m.hdr 191 160) &&
    (match (linkOf s l).ident with
     | some i => fieldOf m.hdr 223 208 == i.peer.toNat && fieldOf m.hdr 207 200 == i.link
     | none => false)

/-- An exchange is under way: in training at step 5, or a fresh one on a running encrypted link (R442). -/
def exchanging (s : State) (l : Nat) : Bool :=
  let x := linkOf s l
  (x.state == .training && x.step == 5) || (linkUp s l && x.enc)

/-- KEY_HELLO (R440, R441): the chain and the svn are checked, and KEM is sent. -/
def execKeyHello (t : Stamp) (link : Nat) (m : KeyMsg) (s : State) : Host.Outcome State Fault Refusal :=
  run t (fun s =>
    if !exchanging s link then s
    else if keyMsgOk s link 0 m && m.chainOk && decide (regF s 0x80038 31 0 ≤ m.peerSvn) then
      sendKem s link m
    else failExchange s link true) s

/-- Keys are derived (R441, R442): index 0 with key_idx 0 after training, the next key_idx after a fresh exchange
(DEDUCED, log entry 148); what the exchange held is erased. -/
def takeSecret (s : State) (l : Nat) (peerCt : List Byte) : State :=
  let x := linkOf s l
  let secret := linkSecret s l peerCt
  let keyed (x : Link) : Link :=
    { clearExchange x with secret, secretAt := s.time.now, keyI := 0, txKey := linkKey secret s.fab.self l 0 }
  if x.state = .training then
    setLink s l (fun x => { keyed x with step := 6, keyIdx := 0, rxKeys := [0], peerKeyIdx := 0 })
  else
    let idx := (x.keyIdx + 1) % 4
    onLink (setLink s l (fun x => { keyed x with keyIdx := idx })) l (.rekey idx x.txNext)

/-- KEY_KEM (R441). -/
def execKeyKem (t : Stamp) (link : Nat) (m : KeyMsg) (s : State) : Host.Outcome State Fault Refusal :=
  run t (fun s =>
    if !exchanging s link then s
    else if keyMsgOk s link 1 m && m.sigOk && (linkOf s link).helloSeen then takeSecret s link (m.body.take 1088)
    else failExchange s link true) s

/-- KEY_ABORT (R442, R443), sent or received. -/
def execKeyAbort (t : Stamp) (link : Nat) (sent : Bool) (s : State) : Host.Outcome State Fault Refusal :=
  run t (fun s => if exchanging s link then failExchange s link sent else s) s

/-- REFUSED_RETRY (R443). -/
def execRefusedRetry (t : Stamp) (link : Nat) (s : State) : Host.Outcome State Fault Refusal :=
  run t (fun s => if (linkOf s link).state = .refused then startTraining s link else s) s

/-! ## Flits (R303 to R305) -/

/-- Credits come back, and what waited for them leaves. -/
def addCredit (s : State) (l cls n : Nat) : State := drainLink (setLink s l (fun x => setCredit x cls (· + n))) l

/-- A NAK record naming the first fseq lacking. -/
def sendNak (s : State) (l : Nat) : State :=
  onLink (setLink s l (fun x => { x with nakOut := true })) l (.nak (linkOf s l).rxNext)

/-- The link carries flits. -/
def carriesFlits (s : State) (l : Nat) : Bool :=
  linkUp s l || (linkOf s l).state == .training || (linkOf s l).state == .isolated

/-- FLIT_RECEIVE (R303, R304): FEC and CRC, then the tag, then its place in order. -/
def flitReceived (l : Nat) (hdr : Word) (fecOk crcOk tagOk : Bool) (s : State) : State :=
  let x := linkOf s l
  if !carriesFlits s l then s
  else if !fecOk || !crcOk || decide (2 < fieldOf hdr 23 20) then sendNak s l
  else if x.enc && linkUp s l && !tagOk then linkDown s l 3
  else
    let s1 := if bitOf hdr 39 then
        setLink s l (fun x => { x with
          txBuf := x.txBuf.filter (fun f => decide (2048 ≤ flitGap f.1 (fieldOf hdr 51 40))) })
      else s
    let idx := fieldOf hdr 19 18
    let s2 := if x.rxKeys.contains idx && idx != x.peerKeyIdx then
        setLink s1 l (fun x => { x with rxKeys := [idx], peerKeyIdx := idx })
      else s1
    let s3 := addCredit s2 l (fieldOf hdr 38 36 % 4) (fieldOf hdr 35 24)
    let seq := fieldOf hdr 63 52
    if seq = x.rxNext then setLink s3 l (fun x => { x with rxNext := (x.rxNext + 1) % 4096, nakOut := false })
    else if flitGap x.rxNext seq < 2048 ∧ !x.nakOut then sendNak s3 l
    else s3

def execFlitReceive (t : Stamp) (link : Nat) (hdr : Word) (fecOk crcOk tagOk : Bool) (s : State) :
    Host.Outcome State Fault Refusal :=
  run t (flitReceived link hdr fecOk crcOk tagOk) s

/-- A lane is dropped at a flit boundary (R310): DEGRADED, flits in flight resent; the last lane lost is DOWN. -/
def dropLane (s : State) (l lane : Nat) : State :=
  let x := linkOf s l
  let left : BitVec 2 := BitVec.ofNat 2 (x.lanes.toNat - (if x.lanes.toNat.testBit lane then 2 ^ lane else 0))
  if !linkUp s l then s
  else if left = 0 then linkDown s l 2
  else
    let s1 := logErr (setLink s l (fun x => { x with lanes := left, state := .degraded, lanePower := false })) .link 1
      (u := ⟨.link, l⟩)
    match x.txBuf with
    | f :: _ => onLink (onLink s1 l (.lane lane)) l (.resend f.1)
    | [] => onLink s1 l (.lane lane)

/-- NAK_RECORD (R304): every flit from the named one is resent; one already resent 8 times fails the link, whose lane
diagnosis decides. -/
def nakReceived (l fseq : Nat) (s : State) : State :=
  let x := linkOf s l
  let again (f : Nat × Nat × Packet) : Bool := decide (flitGap fseq f.1 < 2048)
  if !linkUp s l then s
  else if x.txBuf.any (fun f => again f && decide (8 ≤ f.2.1)) then
    if laneCount x = 2 ∧ 0 < x.errs.1 ∧ x.errs.2 = 0 then dropLane s l 0
    else if laneCount x = 2 ∧ x.errs.1 = 0 ∧ 0 < x.errs.2 then dropLane s l 1
    else linkDown s l 2
  else
    onLink (setLink s l (fun x => { x with
      txBuf := x.txBuf.map (fun f => if again f then (f.1, f.2.1 + 1, f.2.2) else f) })) l (.resend fseq)

def execNakRecord (t : Stamp) (link fseq : Nat) (s : State) : Host.Outcome State Fault Refusal :=
  run t (nakReceived link fseq) s

/-- CREDIT_RECORD (R305). -/
def execCreditRecord (t : Stamp) (link req resp xfer win : Nat) (s : State) : Host.Outcome State Fault Refusal :=
  run t (fun s =>
    if linkUp s link then addCredit (addCredit (addCredit (addCredit s link 0 req) link 1 resp) link 2 xfer) link 3 win
    else s) s

/-- LANE_RECORD (R305): the peer's error counts, and a lane it asks to drop. -/
def execLaneRecord (t : Stamp) (link errs0 errs1 : Nat) (drop : Option Nat) (s : State) :
    Host.Outcome State Fault Refusal :=
  run t (fun s =>
    if linkUp s link then
      let s1 := setLink s link (fun x => { x with errs := (errs0, errs1) })
      match drop with
      | some lane => dropLane s1 link lane
      | none => s1
    else s) s

/-- REKEY_RECORD (R309): both keys are held until the first flit of the new one. -/
def execRekeyRecord (t : Stamp) (link keyIdx fseq : Nat) (s : State) : Host.Outcome State Fault Refusal :=
  run t (fun s =>
    if linkUp s link && (linkOf s link).enc && decide (fseq < 4096) then
      setLink s link (fun x => { x with rxKeys := (x.rxKeys.filter (· != keyIdx % 4)) ++ [keyIdx % 4] })
    else s) s

def execLaneDrop (t : Stamp) (link lane : Nat) (s : State) : Host.Outcome State Fault Refusal :=
  run t (fun s => dropLane s link lane) s

/-- LANE_RETRY (R310): two-lane operation is restored where the lane came back. -/
def execLaneRetry (t : Stamp) (link : Nat) (success : Bool) (s : State) : Host.Outcome State Fault Refusal :=
  run t (fun s =>
    if success && (linkOf s link).state == .degraded then
      drainLink (setLink s link (fun x => { x with lanes := 3, state := .active, errs := (0, 0) })) link
    else s) s

/-- KEY_ROLLOVER (R309, R442). -/
def execKeyRollover (t : Stamp) (link : Nat) (s : State) : Host.Outcome State Fault Refusal :=
  run t (fun s =>
    if linkUp s link && (linkOf s link).enc then
      let idx := ((linkOf s link).keyI + 1) % 4
      onLink (setLink s link (fun x => { x with
        keyI := x.keyI + 1, keyIdx := idx, txKey := linkKey x.secret s.fab.self link (x.keyI + 1) })) link
        (.rekey idx (linkOf s link).txNext)
    else s) s

/-- FRESH_EXCHANGE (R442): every rekey_hours. -/
def execFreshExchange (t : Stamp) (link : Nat) (s : State) : Host.Outcome State Fault Refusal :=
  run t (fun s => if linkUp s link && (linkOf s link).enc then sendHello s link else s) s

/-- FRESH_EXCHANGE_RETRY (R442): 60 s after a failed one. -/
def execFreshExchangeRetry (t : Stamp) (link : Nat) (s : State) : Host.Outcome State Fault Refusal :=
  run t (fun s => if linkUp s link && (linkOf s link).enc then sendHello s link else s) s

/-- FRESH_EXCHANGE_DEADLINE (R442): no success for 2 × rekey_hours takes the link down. -/
def execFreshExchangeDeadline (t : Stamp) (link : Nat) (s : State) : Host.Outcome State Fault Refusal :=
  run t (fun s => if linkUp s link && (linkOf s link).enc then linkDown s link 2 else s) s

/-! ## The lane power loop (R468) -/

/-- `PW_LANE_CTRL` allow of a link. -/
def laneAllowed (s : State) (l : Nat) : Bool :=
  if l < 64 then (regVal s 0x60048).getLsbD l else (regVal s 0x60050).getLsbD (l - 64)

/-- LANE_POWER_DOWN: the link runs one lane and stays ACTIVE. -/
def execLanePowerDown (t : Stamp) (link : Nat) (s : State) : Host.Outcome State Fault Refusal :=
  run t (fun s =>
    if laneAllowed s link && (linkOf s link).state == .active && (linkOf s link).queue.isEmpty then
      setLink s link (fun x => { x with lanes := 1, lanePower := true })
    else s) s

/-- LANE_POWER_RESTORE. -/
def execLanePowerRestore (t : Stamp) (link : Nat) (s : State) : Host.Outcome State Fault Refusal :=
  run t (fun s =>
    if (linkOf s link).lanePower then
      drainLink (setLink s link (fun x => { x with lanes := 3, lanePower := false })) link
    else s) s

end Sys2Proof.Machine
end

