-- ==== Sys2Proof/Machine/Sync.lean ====
section
/-! DEFINITION. Tick synchronisation: sources, time messages, beacons, loss of sync (R48 to R55). -/

namespace Sys2Proof.Machine

/-- `TK_SYNC_CTRL` source_prio; 0 in Keep mode (R426). -/
def sourcePrio (s : State) : Nat := if inKeep s then 0 else regF s 0x10020 7 0

/-- Links that carry time: trained ones, and ISOLATED ones for TIME records (R49, R308). -/
def timeLinks (s : State) (isolated : Bool) : List Nat :=
  (List.range 96).filter (fun l => linkUp s l || (isolated && (linkOf s l).state == .isolated))

/-- A TIME record on every such link but one. -/
def forwardTime (s : State) (src : Stamp) (hops : Nat) (but : Option Nat) : State :=
  (timeLinks s true).foldl (fun s l => if some l = but then s else onLink s l (.time src hops)) s

/-- LOST or MISMATCH is entered (R53): logged, signalled, nothing planned after the tick in progress, which runs to
its commit. -/
def enterLost (s : State) (st : Sync) : State :=
  let s1 := { s with time := { s.time with
    sync := st, lostAt := some (s.time.lostAt.getD s.time.now), resumeAt := none
    lastRun := if wholeTick s s.time.now.tick then some s.time.now.tick else s.time.lastRun } }
  logErr s1 .tick (if st = .mismatch then 3 else 2)

/-- The stamp is a whole tick's start, or the next one is (R53 step 5). -/
def firstWhole (st : Stamp) : Nat := if st.off = 0 then st.tick else st.tick + 1

/-- Stamps of what has landed and not yet taken effect, with the deadlines that have passed (R53 step 4). -/
def waitingStamps (s : State) : List Stamp :=
  s.host.landed.map (·.cpl.stamp) ++ s.haul.notices.map (·.1) ++ s.haul.inn.filterMap (·.2.freed) ++
    s.haul.out.filterMap (fun h => h.2.ended.map (·.1)) ++ s.haul.pulls.filterMap (fun q => q.refusedBy.map (·.1)) ++
    s.haul.pulls.map (·.cpl.stamp) ++ s.mgmt.held.map (·.1.stamp) ++ s.pwr.restReq.map (·.1) ++ s.sec.erase.map (·.1) ++
    s.bar.waiting.map (·.1) ++ s.tier.moves.filterMap (·.2.doneAt) ++ s.fault.losses.map (·.stamp) ++
    (s.work.reqs.filterMap (·.2.deadline)).filter (fun d => stampLe d s.time.now)

/-- The source's numbering is adopted (R53 step 5, R55). -/
def lockTo (s : State) (st : Stamp) (hops : Nat) : State :=
  let s1 := { s with time := { s.time with
    sync := .locked, now := st, hops := hops, lastMsg := some st, lostAt := none, resumeAt := some (firstWhole st)
    early := (s.time.early ++ waitingStamps s).eraseDups } }
  if s.time.sync = .unsync then s1 else logErr s1 .tick 4

/-- Distance of two stamps in ns. -/
def stampGap (s : State) (a b : Stamp) : Nat := (nsOf s a - nsOf s b) + (nsOf s b - nsOf s a)

/-- This module becomes the source, with the numbering and phase it holds (R48, R52). -/
def becomeSource (s : State) : State :=
  forwardTime { s with time := { s.time with
    sync := .source, hops := 0, lostAt := none,
    resumeAt := some (s.time.resumeAt.getD (firstWhole s.time.now)) } } s.time.now 0 none

/-- Another module goes before this one in the election of R48: a higher priority, or an equal one and a lower (rack,
module) pair; a priority of 0 is never elected. -/
def outranks (s : State) (f : SourceInfo) : Bool :=
  f.prio != 0 && (decide (sourcePrio s < f.prio) || (f.prio == sourcePrio s && decide (f.id.toNat < s.fab.self.toNat)))

/-- This module goes before the source it follows (R48). -/
def outranked (s : State) (f : SourceInfo) : Bool :=
  sourcePrio s != 0 && (decide (f.prio < sourcePrio s) || (f.prio == sourcePrio s && decide (s.fab.self.toNat < f.id.toNat)))

/-- A time message of a source whose fields and numbering this module can follow, at the stamp it names here (R49, R51
to R53): in alignment the module is LOCKED, and takes over where it is the one elected (R48; log entry 134); beyond
±50 ns it is LOST; out of sync it adopts the source's numbering. -/
def followTime (s : State) (st : Stamp) (hops : Nat) (f : SourceInfo) : State :=
  let near := decide (stampGap s st s.time.now ≤ 50)
  let locked : State := { s with time := { s.time with sync := .locked, lastMsg := some s.time.now, hops := hops } }
  match s.time.sync with
  | .source => if near then locked else enterLost s .lost
  | .locked => if near then (if outranked s f then becomeSource locked else locked) else enterLost s .lost
  | .holdover => if near then (if outranked s f then becomeSource locked else locked) else enterLost s .lost
  | _ => lockTo s st hops

/-- TIME_RECORD_RECEIVE (R48 to R55, R308): the record goes on over the other trained links; the source itself hears
only one that goes before it. A numbering below the last committed tick ends in MISMATCH until reset. -/
def timeReceived (link : Nat) (src : Stamp) (hops : Nat) (f : SourceInfo) (s : State) : State :=
  let st := stampAdd s src (linkOf s link).delay
  let differs := f.period != period s || f.backstop != backstopPm s || f.cutoff != cutoffPm s
  let behind := match s.time.lastCommit with | some n => decide (st.tick < n) | none => false
  if s.time.sync = .source ∧ !outranks s f then s
  else
    let s0 := forwardTime s st (hops + 1) (some link)
    if s.time.lowTick then s0
    else if differs then (if s.time.sync = .mismatch then s0 else enterLost s0 .mismatch)
    else if behind then
      let s1 := { s0 with time := { s0.time with lowTick := true } }
      if s.time.sync = .mismatch then s1 else enterLost s1 .mismatch
    else followTime s0 st (hops + 1) f

def execTimeRecordReceive (t : Stamp) (link : Nat) (src : Stamp) (hops : Nat) (fields : SourceInfo) (s : State) :
    Host.Outcome State Fault Refusal :=
  run t (fun s => if linkUp s link || (linkOf s link).state == .isolated then timeReceived link src hops fields s else s) s

/-- A beacon on every trained link but one (R49, R305). -/
def sendBeacons (s : State) (tick off : Nat) (but : Option Nat) : State :=
  (timeLinks s false).foldl (fun s l => if some l = but then s else onLink s l (.beacon tick off)) s

/-- BEACON_RECEIVE (R49, R53): the counter is aligned with tₙ, the hop delay compensated; a counter more than 50 ns
off is LOST. The beacon goes on. -/
def beaconReceived (link tick off : Nat) (s : State) : State :=
  let d := off + (linkOf s link).delay
  let here := stampNorm s ⟨tick, d⟩
  if !linkUp s link || s.time.sync == .source then s
  else
    let s1 :=
      if s.time.sync == .locked || s.time.sync == .holdover then
        (if stampGap s here s.time.now ≤ 50 then { s with time := { s.time with now := stampMax s.time.now here } }
         else enterLost s .lost)
      else s
    sendBeacons s1 tick d (some link)

def execBeaconReceive (t : Stamp) (link tick off : Nat) (s : State) : Host.Outcome State Fault Refusal :=
  run t (beaconReceived link tick off) s

/-- HOLDOVER_ENTRY (R51): time messages are missing. -/
def execHoldoverEntry (t : Stamp) (s : State) : Host.Outcome State Fault Refusal :=
  run t (fun s =>
    if s.time.sync = .locked then logErr { s with time := { s.time with sync := .holdover } } .tick 1 else s) s

/-- SOURCE_TAKEOVER (R48, R51, R52). -/
def execSourceTakeover (t : Stamp) (isNext : Bool) (s : State) : Host.Outcome State Fault Refusal :=
  run t (fun s =>
    if isNext && decide (0 < sourcePrio s) && (s.time.sync == .holdover || s.time.sync == .unsync) then becomeSource s
    else s) s

/-- SYNC_LOST_TIMEOUT (R53). -/
def execSyncLostTimeout (t : Stamp) (s : State) : Host.Outcome State Fault Refusal :=
  run t (fun s => if s.time.sync == .locked || s.time.sync == .holdover then enterLost s .lost else s) s

/-- SYNC_HALT_TIMEOUT (R54): the benches halt; their requests stay. -/
def execSyncHaltTimeout (t : Stamp) (s : State) : Host.Outcome State Fault Refusal :=
  run t (fun s =>
    if (s.time.sync == .lost || s.time.sync == .mismatch) && !s.time.halted then
      let s1 := (s.fab.maps.benches.map (·.1)).foldl haltBench s
      logErr { s1 with time := { s1.time with halted := true } } .tick 5
    else s) s

/-- TIME_MESSAGE_SEND (R49): every 250 µs at the source. -/
def execTimeMessageSend (t : Stamp) (s : State) : Host.Outcome State Fault Refusal :=
  run t (fun s => if s.time.sync = .source then forwardTime s s.time.now 0 none else s) s

/-- DELAY_MEASURE (R49): half the round trip. -/
def execDelayMeasure (t : Stamp) (link roundTrip : Nat) (s : State) : Host.Outcome State Fault Refusal :=
  run t (fun s => setLink s link (fun x => { x with delay := roundTrip / 2 })) s

end Sys2Proof.Machine
end

