-- ==== Sys2Proof/Machine/Firmware.lean ====
section
/-! DEFINITION. Resets, start-up, the boot chain, firmware images on trial, watchdogs and control restarts (R384 to
R406), and the input, RESET_N, PERST# and coolant-flow contacts (R452, R508, R509, R513, R516). -/

namespace Sys2Proof.Machine

/-! ## The boot directory (R393) -/

/-- A change is written to the copy not in use, with seq raised by 1. -/
def putDir (s : State) (f : BootDir → BootDir) : State :=
  let d := bootDir s
  let c := dirBits { f d with seq := d.seq + 1 }
  if usesCopy1 s then { s with fw := { s.fw with dir0 := c } } else { s with fw := { s.fw with dir1 := c } }

/-- The slot in use of a kind, as numbered in the boot NOR: loader A and B, then firmware A and B. -/
def slotInUse (s : State) (kind : Nat) : Nat := if kind = 1 then (bootDir s).ldrSlot else 2 + (bootDir s).fwSlot

/-- The slot not in use of a kind. -/
def otherSlot (s : State) (kind : Nat) : Nat :=
  if kind = 1 then 1 - (bootDir s).ldrSlot else 2 + (1 - (bootDir s).fwSlot)

/-- The image of the slot a kind uses. -/
def imageInUse (s : State) (kind : Nat) : Option Image := tget s.fw.slots (slotInUse s kind)

/-- An image of a kind keeps R395. -/
def updateOk (s : State) (kind : Nat) (i : Image) : Bool :=
  fieldOf i.hdr 15 0 == 0x4657 && fieldOf i.hdr 31 16 == 1 && fieldOf i.hdr 39 32 == kind && i.keyHashOk && i.sigOk &&
    i.digestOk && decide ((if kind = 1 then s.sec.rollback.1 else s.sec.rollback.2) ≤ fieldOf i.hdr 95 64) &&
    (kind != 1 || bitOf i.hdr 40)

/-- A stage accepts the image of a slot (R395). `reads` says that the bytes read from the boot NOR verify; of an image
written since the module was made, its header, key and counter are held too (log entry 151). -/
def slotOk (s : State) (kind slot : Nat) (reads : Bool) : Bool :=
  reads && (match tget s.fw.slots slot with | some i => updateOk s kind i | none => true)

/-- The image in use of a kind runs from now on. -/
def nowRuns (kind : Nat) (s : State) : State :=
  if kind = 1 then { s with fw := { s.fw with ldrRun := imageInUse s 1 } } else { s with fw := { s.fw with fwRun := imageInUse s 2 } }

/-- The other slot of a kind named, with no image on trial: the loader's for kind 1, the firmware's for 2. -/
def swapSlot (s : State) (kind : Nat) : State :=
  putDir s (fun d => { d with
    trial := 0, started := false, ldrSlot := if kind = 1 then 1 - d.ldrSlot else d.ldrSlot,
    fwSlot := if kind = 1 then d.fwSlot else 1 - d.fwSlot })

/-- The previous slot put back after a trial (R399): logged as CONTROL cause 7. -/
def rollTrial (s : State) : State := logErr (swapSlot s (bootDir s).trial) .control 7

/-! ## Resets (R385 to R387) -/

/-- Conversations whose own table lies wholly on this module's flash (R272). -/
def flashConvs (s : State) : Table Conv :=
  if !hasFlash s then []
  else s.work.convs.filter (fun c => c.2.state == .parked && !c.2.entries.isEmpty &&
    c.2.entries.all (fun e => e.tier == .flash && e.state != .missing && e.state != .lost))

/-- Links with no more than the cable left. -/
def bareLinks (s : State) : Table Link :=
  (s.fab.links.filter (fun l => l.2.cable)).map (fun l => (l.1, { cable := true }))

/-- The state a warm or cold reset leaves (R386). Flash, boot NOR, secure element and the contacts keep theirs; a warm
reset also keeps the tick counter, window generations, counters and the restart log. Quarantine losses not yet in a
record are lost (log entry 60). -/
def resetState (cold : Bool) (s : State) : State :=
  { State.reset with
    stock := s.stock
    out := s.out
    fresh := s.fresh
    pending := s.pending
    time := { State.reset.time with now := if cold then ⟨0, 0⟩ else s.time.now }
    bar := { State.reset.bar with
      live := if cold then [] else s.bar.live
      published := if cold then [] else s.bar.published }
    haul := { State.reset.haul with nextId := s.haul.nextId }
    tier := { State.reset.tier with
      blocks := s.tier.blocks, freePm := s.tier.freePm, hold := s.tier.hold, badBlocks := s.tier.badBlocks
      unitsMoved := s.tier.unitsMoved, unitsDuty := s.tier.unitsDuty, lifeAlert := s.tier.lifeAlert
      frames := s.tier.frames, channels := s.tier.channels, extents := s.tier.extents
      parked := (flashConvs s).foldl (fun t c => tput t c.1 c.2) s.tier.parked }
    fab := { State.reset.fab with self := s.fab.self, links := bareLinks s }
    win := { State.reset.win with gens := if cold then [] else s.win.gens }
    fw := { State.reset.fw with
      row := if cold then 0 else 1
      cold := cold
      slots := s.fw.slots, dir0 := s.fw.dir0, dir1 := s.fw.dir1
      restarts := if cold then [] else s.fw.restarts
      restartCount := if cold then 0 else s.fw.restartCount
      restartLog := if cold then [] else s.fw.restartLog
      bootExpired := s.fw.bootExpired, escalated := s.fw.escalated
      perstLow := s.fw.perstLow, resetLow := s.fw.resetLow }
    fault := { State.reset.fault with
      pprod := s.fault.pprod, pers := s.fault.pers, quarantine := s.fault.quarantine, retired := s.fault.retired
      avail := s.fault.avail }
    sec := { State.reset.sec with
      rollback := s.sec.rollback, genuine := s.sec.genuine, keys := s.sec.keys.map (fun k => (k.1, { k.2 with held := false })) }
    pwr := { State.reset.pwr with
      off := s.pwr.inputDown, inputDown := s.pwr.inputDown, mv := s.pwr.mv, excursion := s.pwr.excursion
      flowOk := s.pwr.flowOk, pwrGood := if cold then false else s.pwr.pwrGood }
    mgmt := { State.reset.mgmt with sensors := s.mgmt.sensors } }

/-- A cold reset (R385). -/
def coldReset (s : State) : State := resetState true s

/-- Start-up after a cold reset is under way, and no lesser kind abandons it (R387). -/
def coldRunning (s : State) : Bool :=
  s.fw.cold && decide (s.fw.row < 8) && s.fw.stage != .recovery && s.fw.stage != .keep

/-- A warm reset (R385), unless a cold one governs. -/
def warmReset (s : State) : State :=
  if s.pwr.off || s.fw.resetLow || coldRunning s then s else resetState false s

/-! ## The contacts -/

/-- INPUT_RISE (R385, R388): through 48 V after a fall below 45 V, start-up begins; another rise only sets the
reading. -/
def execInputRise (t : Stamp) (mv : Nat) (s : State) : Host.Outcome State Fault Refusal :=
  let s0 := s.at t
  let s1 := { s0 with pwr := { s0.pwr with mv := mv } }
  .next (if s.pwr.inputDown && decide (48000 ≤ mv) then
    coldReset { s1 with pwr := { s1.pwr with inputDown := false } }
  else s1)

/-- INPUT_UNDERVOLTAGE (R385, R452): below 45 V the module resets cold and is without power until the input rises. -/
def execInputUndervoltage (t : Stamp) (mv : Nat) (s : State) : Host.Outcome State Fault Refusal :=
  let s0 := s.at t
  let s1 := { s0 with pwr := { s0.pwr with mv := mv } }
  .next (if mv < 45000 then coldReset { s1 with pwr := { s1.pwr with inputDown := true, excursion := false } } else s1)

/-- INPUT_OUT_OF_RANGE (R452): 45 V to 50 V, or above 60 V; logged once per excursion. -/
def execInputOutOfRange (t : Stamp) (mv : Nat) (s : State) : Host.Outcome State Fault Refusal :=
  run t (fun s =>
    let s1 := { s with pwr := { s.pwr with mv := mv } }
    if (decide (45000 ≤ mv) && decide (mv < 50000) || decide (60000 < mv)) && !s.pwr.excursion then
      logErr { s1 with pwr := { s1.pwr with excursion := true } } .environment 2
    else s1) s

/-- INPUT_IN_RANGE (R452): 50 V to 60 V again, and the excursion ends. -/
def execInputInRange (t : Stamp) (mv : Nat) (s : State) : Host.Outcome State Fault Refusal :=
  run t (fun s => { s with pwr := { s.pwr with
    mv := mv, excursion := s.pwr.excursion && !(decide (50000 ≤ mv) && decide (mv ≤ 60000)) } }) s

/-- RESET_N (R516): below 1 µs ignored, 10 µs or more a cold reset; a pulse between is one the platform must not
drive. -/
def execResetN (t : Stamp) (lowNs : Nat) (s : State) : Host.Outcome State Fault Refusal :=
  if lowNs < 1000 then .next (s.at t)
  else if lowNs < 10000 then .fault .forbiddenInput
  else
    let s0 := s.at t
    .next (coldReset { s0 with fw := { s0.fw with resetLow := true } })

/-- RESET_N_RELEASE (R516): start-up begins. -/
def execResetNRelease (t : Stamp) (s : State) : Host.Outcome State Fault Refusal :=
  let s0 := s.at t
  .next { s0 with fw := { s0.fw with resetLow := false } }

/-- PERST (R385, R387, R513). -/
def execPerst (t : Stamp) (s : State) : Host.Outcome State Fault Refusal :=
  let s0 := s.at t
  let s1 := warmReset s0
  .next { s1 with fw := { s1.fw with perstLow := true } }

/-- PERST_RELEASE (R390): configuration requests are answered, with Request Retry Status until BAR0 is ready. -/
def execPerstRelease (t : Stamp) (s : State) : Host.Outcome State Fault Refusal :=
  let s0 := s.at t
  let s1 := { s0 with fw := { s0.fw with perstLow := false } }
  .next (if s1.pwr.off || s1.fw.resetLow then s1
    else emit s1 (.pcie .pf (served s1 || s1.fw.stage == .recovery)))

/-- FLOW_LOSS (R508, R509, R425, R463, R469): held before plan_stable first reads 1; afterwards Keep mode with cause
3, once an entry into Rest in progress has completed. -/
def flowLost (s : State) : State :=
  if !s.pwr.pwrGood then s
  else
    let s1 := logErr { s with pwr := { s.pwr with flowOk := false } } .environment 3
    if !s.pwr.wasStable then
      let back := decide (5 ≤ s1.fw.row) && s1.fw.stage != .recovery && s1.fw.stage != .keep
      { s1 with
        pwr := { s1.pwr with held := true }
        fw := if back then { s1.fw with row := 5, stage := .fwInit } else s1.fw }
    else if s.pwr.state = .entering then s1
    else enterKeep 3 s1

/-- FLOW_RESTORE (R509): a held start-up goes on. Keep mode does not end (R429). -/
def execFlowRestore (t : Stamp) (s : State) : Host.Outcome State Fault Refusal :=
  run t (fun s => { s with pwr := { s.pwr with flowOk := true, held := false } }) s

/-! ## Start-up (R388 to R391, R395, R396, R399) -/

/-- The stage of a completed row, with the firmware running. -/
def stageOfRow (row : Nat) : Stage := if row < 6 then .fwInit else if row < 8 then .links else .ready

/-- A stage boots the next, kind 1 the loader and 2 the firmware: a trial already started is rolled back, and the same
kind of restart follows; an image that fails R395 gives way to the other slot; without either, RECOVERY. -/
def bootStage (kind : Nat) (imageOk otherOk : Bool) (go : State → State) (s : State) : State :=
  let d := bootDir s
  if d.trial = kind ∧ d.started then resetState s.fw.cold (rollTrial s)
  else if slotOk s kind (slotInUse s kind) imageOk then
    go (nowRuns kind (if d.trial = kind then
      let s1 := putDir s (fun d => { d with started := true })
      { s1 with fw := { s1.fw with trialRuns := 0 } }
    else s))
  else if slotOk s kind (otherSlot s kind) otherOk then go (nowRuns kind (logErr (swapSlot s kind) .control 6))
  else logErr { s with fw := { s.fw with stage := .recovery } } .control 6

/-- The row is reached. -/
def toRow (row : Nat) (st : Stage) (s : State) : State := { s with fw := { s.fw with row := row, stage := st } }

/-- The pairing check (R434), by the boot ROM at a reset and by the loader at a control restart: a failure is logged
and enters Keep mode with cause 1, which the loader serves. -/
def pairingCheck (s : State) : State :=
  let s1 := { s with sec := { s.sec with paired := s.sec.genuine } }
  if s.sec.genuine then s1
  else
    let s2 := enterKeep 1 (logErr s1 .security 1)
    if served s || s.fw.perstLow then s2 else emit s2 (.pcie .pf true)

/-- START_UP_ROW_DONE (R388): the next row of the table completes. -/
def rowDone (row : Nat) (imageOk otherOk : Bool) (s : State) : State :=
  if s.fw.resetLow || s.fw.stage == .recovery || s.fw.stage == .keep || row != s.fw.row + 1 then s
  else match row with
    | 1 => toRow 1 .rom s
    | 2 => pairingCheck <| toRow 2 .rom { s with
        pwr := { s.pwr with pwrGood := true }
        sec := { s.sec with engineKeys := some (pairingKey, storageKey) } }
    | 3 => bootStage 1 imageOk otherOk (toRow 3 .loader) s
    | 4 => toRow 4 .loader s
    | 5 => bootStage 2 imageOk otherOk (fun s =>
        let s1 := toRow 5 .fwInit { s with sec := { s.sec with
          keys := s.sec.keys.map (fun k => (k.1, { k.2 with held := k.2.made })) } }
        if s1.fw.perstLow then s1 else emit s1 (.pcie .pf true)) s
    | 6 =>
      if s.pwr.held then s
      else (List.range 96).foldl startTraining (toRow 6 .links s)
    | 7 =>
      let s1 := toRow 7 .links s
      if (timeLinks s1 false).isEmpty && decide (0 < sourcePrio s1) && s1.time.sync == .unsync then becomeSource s1 else s1
    | _ => s

def execStartUpRowDone (t : Stamp) (row : Nat) (imageOk otherOk : Bool) (s : State) : Host.Outcome State Fault Refusal :=
  run t (rowDone row imageOk otherOk) s

/-- PLAN_STABLE (R388, R389): every PLL is locked and the module is SOURCE or LOCKED. -/
def planStable (s : State) : State :=
  if s.fw.row = 7 ∧ synced s ∧ !inKeep s then
    toRow 8 .ready { s with pwr := { s.pwr with planStable := true, wasStable := true }, fw := { s.fw with bootExpired := false } }
  else s

def execPlanStable (t : Stamp) (s : State) : Host.Outcome State Fault Refusal := run t planStable s

/-- BOOT_WATCHDOG (R400, R424): one cold reset, then RECOVERY; it does not run while start-up is held for flow. -/
def bootWatchdog (s : State) : State :=
  if s.fw.resetLow || s.pwr.held || s.fw.stage == .recovery || s.fw.stage == .keep || decide (8 ≤ s.fw.row) then s
  else if s.fw.bootExpired then { s with fw := { s.fw with stage := .recovery } }
  else coldReset { s with fw := { s.fw with
    bootExpired := true, escalated := if s.time.lastCommit.isSome then s.time.lastCommit else s.fw.escalated } }

def execBootWatchdog (t : Stamp) (s : State) : Host.Outcome State Fault Refusal := run t bootWatchdog s

/-! ## Control restarts (R385, R399 to R406) -/

/-- A control restart is in progress: begun, and the firmware not yet ready. -/
def restarting (s : State) : Bool := s.fw.restart.isSome && s.fw.readyAt.isNone

/-- The control firmware runs: started, not in Keep mode or RECOVERY, its cores not stopped for Rest. -/
def fwRuns (s : State) : Bool :=
  decide (5 ≤ s.fw.row) && !inKeep s && s.fw.stage != .recovery && s.pwr.state != .rest

/-- Control restarts in the last 3,600 s of tick-counter time (R401). -/
def recentRestarts (s : State) : List Stamp :=
  s.fw.restarts.filter (fun x => decide (nsOf s s.time.now < nsOf s x + 3600000000000))

/-- One control restart of an episode (R401, R402, R408): logged and signalled, its restart-log entry, the limit of
R401, the sessions ended (R439), the loader's pairing check (R434). -/
def beginRestart (cause k : Nat) (s : State) : State :=
  let e : RestartEntry := { cause := cause, stamp := s.time.now }
  let rs := recentRestarts s ++ [s.time.now]
  let s0 := logErr s .control 3
  let s1 := { s0 with
    sec := { s0.sec with sessions := [], negotiated := [] }
    fw := { s0.fw with
      restart := some (cause, s.time.now, k), readyAt := none, stage := .restart, restarts := rs, late := 0
      restartLog := tput s.fw.restartLog (s.fw.restartCount % 8) e
      restartCount := (s.fw.restartCount + 1) % 2 ^ 32 } }
  if regF s 0x70008 19 16 ≤ rs.length then enterKeep 2 s1 else pairingCheck s1

/-- A cause of a control restart with CONTROL cause `cause`, logged where `logs` (R385, R387, R399, R408): nothing new
while one is in progress; an image on trial that had started is rolled back. -/
def controlRestart (cause : Nat) (logs : Bool) (s : State) : State :=
  if !fwRuns s || restarting s then s
  else
    let s1 := if logs then logErr s .control cause else s
    beginRestart cause 1 (if (bootDir s1).trial ≠ 0 ∧ (bootDir s1).started then rollTrial s1 else s1)

/-- CORE_WATCHDOG (R400). -/
def execCoreWatchdog (t : Stamp) (core : Nat) (s : State) : Host.Outcome State Fault Refusal :=
  run t (fun s => if core < 16 then controlRestart 1 true s else s) s

/-- CORE_EXCEPTION (R385). -/
def execCoreException (t : Stamp) (core : Nat) (s : State) : Host.Outcome State Fault Refusal :=
  run t (fun s => if core < 16 then controlRestart 5 true s else s) s

/-- PLAN_WATCHDOG (R400): the tick coasts; plan_late_limit late plans in a row restart the firmware. -/
def planWatchdog (s : State) : State :=
  if !fwRuns s || s.fw.restart.isSome || !s.pwr.planStable then s
  else
    let s1 := logErr (count s 0x70068 1) .control 2
    let s2 := { s1 with fw := { s1.fw with planLate := true, late := s1.fw.late + 1 } }
    if regF s 0x70008 11 8 ≤ s2.fw.late then controlRestart 2 false s2 else s2

def execPlanWatchdog (t : Stamp) (s : State) : Host.Outcome State Fault Refusal := run t planWatchdog s

/-- RESTART_WATCHDOG (R400): a second control restart, from the other firmware slot if it passes R395; a second expiry
enters Keep mode. -/
def restartWatchdog (otherSlotOk : Bool) (s : State) : State :=
  match s.fw.restart, s.fw.readyAt with
  | some (_, _, k), none =>
    let s1 := logErr s .control 4
    if 2 ≤ k then enterKeep 2 s1
    else beginRestart 4 2 (if slotOk s1 2 (otherSlot s1 2) otherSlotOk then swapSlot s1 2 else s1)
  | _, _ => s

def execRestartWatchdog (t : Stamp) (otherSlotOk : Bool) (s : State) : Host.Outcome State Fault Refusal :=
  run t (restartWatchdog otherSlotOk) s

/-- FIRMWARE_READY (R401, R402): the ready stamp is logged and the error vector signalled. -/
def firmwareReady (s : State) : State :=
  match s.fw.restart, s.fw.readyAt with
  | some (_, st, _), none =>
    let i := (s.fw.restartCount + 2 ^ 32 - 1) % 2 ^ 32 % 8
    errVector { s with fw := { s.fw with
      fwRun := imageInUse s 2
      readyAt := some s.time.now, stage := stageOfRow s.fw.row
      restartLog := tmod s.fw.restartLog i (fun e =>
        { e with durationUs := (nsOf s s.time.now - nsOf s st) / 1000, readyOff := s.time.now.off }) } }
  | _, _ => s

def execFirmwareReady (t : Stamp) (s : State) : Host.Outcome State Fault Refusal := run t firmwareReady s

/-! ## Images on trial (R398, R399) -/

/-- TRIAL_COMMIT (R399): 1,000 commits after the first boot, or 10 s at READY on a module that does not tick. -/
def trialCommit (s : State) : State :=
  let d := bootDir s
  if d.trial ≠ 0 ∧ d.started ∧ !restarting s ∧ s.fw.stage = .ready ∧
      (1000 ≤ s.fw.trialRuns ∨ s.time.lastCommit = none) then
    let svn := ((imageInUse s d.trial).map (fun i => fieldOf i.hdr 95 64)).getD 0
    let s1 := putDir s (fun d => { d with trial := 0, started := false })
    let (l, f) := s.sec.rollback
    { s1 with sec := { s1.sec with rollback := if d.trial = 1 then (max l svn, f) else (l, max f svn) } }
  else s

def execTrialCommit (t : Stamp) (s : State) : Host.Outcome State Fault Refusal := run t trialCommit s

/-- A sealed epoch switches within the next 8 ticks (R398). -/
def switchNear (s : State) : Bool :=
  match s.fab.sealSet with
  | some (_, k, _) => decide (k ≤ s.time.now.tick + 8)
  | none => false

/-- HITLESS_ACTIVATION (R398, R399): the directory names the new slot on trial, and the control restart is its first
boot. -/
def hitlessActivation (s : State) : State :=
  if !s.fw.hitlessWait || switchNear s || !fwRuns s || restarting s then s
  else
    let s1 := putDir { s with fw := { s.fw with hitlessWait := false } }
      (fun d => { d with fwSlot := 1 - d.fwSlot, trial := 2, started := false })
    let s2 := putDir s1 (fun d => { d with started := true })
    beginRestart 3 1 { s2 with fw := { s2.fw with trialRuns := 0 } }

def execHitlessActivation (t : Stamp) (s : State) : Host.Outcome State Fault Refusal := run t hitlessActivation s

end Sys2Proof.Machine
end

