-- ==== Sys2Proof/Machine/Power.lean ====
section
/-! DEFINITION. Clocks, protective loops, thermal shutdown, Rest and Watch (R453 to R467, R469, R515). -/

namespace Sys2Proof.Machine

/-! ## Floors and clocks (R454 to R459) -/

/-- A bench holds a cell group or block engine on compute tile k. -/
def onTile (s : State) (b k : Nat) : Bool :=
  let r := (bench s b).record
  fieldOf r 127 64 / 2 ^ (8 * k) % 256 != 0 || fieldOf r 191 128 / 2 ^ (8 * k) % 256 != 0

/-- f_plan of the model a bench loads or runs; that of a package being loaded is a free value. -/
def benchMhz (s : State) (b : Nat) : Nat :=
  match (bench s b).state, (bench s b).load with
  | .loading, some l => Config.loadMhz l.modelTag
  | _, _ => planMhz s b

/-- The floor of compute tile k in MHz; 0 for a tile without one (R454). -/
def floorMhz (s : State) (k : Nat) : Nat :=
  (List.range 16).foldl (fun a b =>
    if onTile s b k then
      let st := (bench s b).state
      let a1 := if st == .loading || st == .ready || st == .draining then max a (benchMhz s b) else a
      if s.shards.any (fun x => x.2.bench == b) then max a1 1750 else a1
    else a) 0

/-- `PW_FMAX` of tile k. -/
def fmaxMhz (s : State) (k : Nat) : Nat := regF s (0x60080 + 8 * k) 10 0

/-- The arithmetic clock of tile k: at its floor, or at fmax without one, unless a loop lowered it. -/
def tileMhz (s : State) (k : Nat) : Nat :=
  (tget s.pwr.clock k).getD (if floorMhz s k = 0 then fmaxMhz s k else floorMhz s k)

/-- A tick is affected on tile k (R458): counted once per tick, where a bench holds slices on it. -/
def markAffected (s : State) (k : Nat) : State :=
  if s.pwr.affected.contains k || !(List.range 16).any (fun b => onTile s b k) then s
  else count { s with pwr := { s.pwr with affected := s.pwr.affected ++ [k] } } (0x600C0 + 8 * k) 1

/-- A loop holds tile k below its floor: a lowered clock, or stretched cycles at the floor (R457, R458). -/
def heldBelow (s : State) (k : Nat) : Bool :=
  decide (tileMhz s k < floorMhz s k) ||
    (s.pwr.loops.contains (k, .droop) && floorMhz s k != 0 && tileMhz s k == floorMhz s k)

/-- The tile is held below its floor by an acting loop: the bit is set, and an entry into an override is logged
(R458). -/
def raiseOverride (s : State) (k : Nat) (c : OvCause) (entered : Bool) : State :=
  let s1 := if s.pwr.override.contains (k, c) then s else { s with pwr := { s.pwr with override := s.pwr.override ++ [(k, c)] } }
  let s2 := markAffected s1 k
  if entered then logErr s2 .environment 1 (u := ⟨.sensor, 8 + k⟩) else s2

/-- A loop acts on tile k with a clock it leaves (R457, R458). -/
def loopActs (k : Nat) (c : OvCause) (mhz : Nat) (s : State) : State :=
  if 8 ≤ k then s
  else
    let fresh := !s.pwr.loops.contains (k, c)
    let below := heldBelow s k
    let s1 := { s with pwr := { s.pwr with
      clock := tput s.pwr.clock k mhz, loops := if fresh then s.pwr.loops ++ [(k, c)] else s.pwr.loops } }
    if heldBelow s1 k then raiseOverride s1 k c (fresh || !below) else s1

/-- TJ_THROTTLE (R457): at or above throttle_c the tile clock falls by a step of 25 MHz. -/
def execTjThrottle (t : Stamp) (tile deciC : Nat) (s : State) : Host.Outcome State Fault Refusal :=
  run t (fun s => if 10 * regF s 0x60040 6 0 ≤ deciC then loopActs tile .tj (tileMhz s tile - 25) s else s) s

/-- CURRENT_LIMIT (R457): the block's clock is halved. -/
def execCurrentLimit (t : Stamp) (tile : Nat) (s : State) : Host.Outcome State Fault Refusal :=
  run t (fun s => loopActs tile .current (tileMhz s tile / 2) s) s

/-- DROOP (R457): clock cycles are stretched, so a tile that runs at its floor runs below it while the loop acts. -/
def execDroop (t : Stamp) (tile : Nat) (s : State) : Host.Outcome State Fault Refusal :=
  run t (fun s => loopActs tile .droop (tileMhz s tile) s) s

/-- OVERRIDE_END (R457): the loop lets go; with none left on the tile, its clock returns to at least the floor. -/
def execOverrideEnd (t : Stamp) (tile : Nat) (cause : OvCause) (s : State) : Host.Outcome State Fault Refusal :=
  run t (fun s =>
    let l := s.pwr.loops.filter (fun x => x != (tile, cause))
    { s with pwr := { s.pwr with
      loops := l, clock := if l.any (fun x => x.1 == tile) then s.pwr.clock else tdel s.pwr.clock tile } }) s

/-- A tick starts: every tile still under an override is affected again (R458). -/
def startAffected (s : State) : State :=
  (s.pwr.loops.filter (fun l => heldBelow s l.1)).foldl (fun s l => raiseOverride s l.1 l.2 false)
    { s with pwr := { s.pwr with affected := [] } }

/-- THERMAL_SHUTDOWN (R460): in every state, power is removed but for the always-on domain. -/
def execThermalShutdown (t : Stamp) (tile : Nat) (s : State) : Host.Outcome State Fault Refusal :=
  run t (fun s =>
    let s1 := logErr s .environment 4 (u := ⟨.sensor, 8 + tile⟩)
    { s1 with pwr := { s1.pwr with off := true, pwrGood := false, planStable := false } }) s

/-- ALERT_N is low (R515). -/
def alertLow (s : State) : Bool :=
  s.pwr.state == .keep || !s.pwr.override.isEmpty || decide (s.pwr.mv < 50000) || decide (60000 < s.pwr.mv) ||
    !s.pwr.flowOk || s.pwr.held || s.pwr.off

/-! ## Rest (R461 to R464) -/

/-- REST_REQUEST (R462): stamped on landing, decided at its commit. -/
def execRestRequest (t : Stamp) (fn : Fn) (s : State) : Host.Outcome State Fault Refusal :=
  pfWrite t fn 0x60008 (fun s =>
    if s.pwr.state = .run then { s with pwr := { s.pwr with restReq := s.pwr.restReq ++ [(t, none)] } } else s) s

/-- BENCH_BUSY (R462). -/
def workBusy (s : State) : Bool :=
  s.work.reqs.any (fun r => reqLive r.2.state) || !s.haul.out.isEmpty || !s.haul.inn.isEmpty || !s.haul.pulls.isEmpty ||
    s.benches.any (fun b => b.2.load.isSome || b.2.replacing.isSome || b.2.drain.isSome || !b.2.unloads.isEmpty ||
      b.2.state == .loading || b.2.state == .draining || b.2.state == .unloading) ||
    s.shards.any (fun x => x.2.round.isSome)

/-- REMOTE_BUSY (R462). -/
def remoteBusy (s : State) : Bool :=
  s.win.qps.any (fun q => !q.2.out.isEmpty || !q.2.waitCredit.isEmpty) || s.host.cqs.any (fun q => !q.2.waiting.isEmpty) ||
    !s.work.finals.isEmpty || !s.work.holds.isEmpty || s.work.reqs.any (fun r => !r.2.waitTok.isEmpty)

/-- UPDATE (R462): an update or a trial. -/
def updating (s : State) : Bool := s.mgmt.update.isSome || s.fw.hitlessWait || (bootDir s).trial != 0

/-- Why Rest is refused, by last_refusal; 0 accepts (R462). -/
def restRefusal (s : State) : Nat :=
  if workBusy s then 1 else if remoteBusy s then 2 else if updating s then 3 else if restarting s then 4 else 0

/-- Rest requests of commit n are decided after its step 5 (R462). The flags of R465 count from its cut-off on. -/
def decideRest (s : State) (n : Nat) : State :=
  let (now, later) := s.pwr.restReq.partition (fun r => dueBy s r.1 n)
  now.foldl (fun s r =>
    let why := restRefusal s
    let late := s.host.landed.any (fun d => !stampLt d.cpl.stamp ⟨n, cutoffOff s⟩)
    let s1 := { s with pwr := { s.pwr with
      refusal := why, restDue := s.pwr.restDue || why == 0, bellFlag := s.pwr.bellFlag || (why == 0 && late) } }
    match r.2 with
    | some c => respond s1 c (if why = 0 then .ok else .benchHalted) []
    | none => s1) { s with pwr := { s.pwr with restReq := later } }

/-- REST_ENTRY (R463): at the tick after acceptance. -/
def execRestEntry (t : Stamp) (s : State) : Host.Outcome State Fault Refusal :=
  run t (fun s =>
    if s.pwr.restDue then
      { s with pwr := { s.pwr with state := .entering, restDue := false, planStable := false } }
    else s) s

/-- A wake event: the exit from Rest begins (R465, R466). -/
def wake (cause : Nat) (event : Stamp) (s : State) : State :=
  { s with pwr := { s.pwr with state := .waking, wakeLog := (cause, event, 0), latched := none } }

/-- REST_ENTRY_COMPLETE (R463, R467, R469): Keep mode if coolant flow was lost; else a latched event is replayed. -/
def restEntered (s : State) : State :=
  if s.pwr.state = .entering then
    if !s.pwr.flowOk then enterKeep 3 s
    else match s.pwr.latched with
      | some (c, e) => wake c e s
      | none => { s with pwr := { s.pwr with state := .rest } }
  else s

/-- WATCH_SAMPLE (R465): the first condition met is the wake event, stamped at the sample. -/
def watchSample (inletDeciC tjDeciC mv : Nat) (s : State) : State :=
  if s.pwr.state != .rest then s
  else
    let s1 := { s with pwr := { s.pwr with mv := mv } }
    if s.pwr.bellFlag then wake 1 s.time.now s1
    else if s.pwr.linkFlag then wake 2 s.time.now s1
    else if 10 * regF s 0x60058 30 24 ≤ inletDeciC then wake 3 s.time.now s1
    else if 10 * regF s 0x60058 38 32 ≤ tjDeciC then wake 4 s.time.now s1
    else if mv < 100 * regF s 0x60058 49 40 ∨ 100 * regF s 0x60058 61 52 < mv then wake 5 s.time.now s1
    else s1

def execWatchSample (t : Stamp) (inletDeciC tjDeciC mv : Nat) (s : State) : Host.Outcome State Fault Refusal :=
  run t (watchSample inletDeciC tjDeciC mv) s

/-- Wake is complete (R466): plan_stable is set, and the first plan waits for the commit R34 names. -/
def woken (s : State) : State :=
  { s with
    pwr := { s.pwr with
      state := .run, planStable := true, bellFlag := false, linkFlag := false
      wakeLog := (s.pwr.wakeLog.1, s.pwr.wakeLog.2.1, nsOf s s.time.now - nsOf s s.pwr.wakeLog.2.1) }
    time := { s.time with resumeAt := some (max (s.time.resumeAt.getD 0) (commitOf s s.time.now)) } }

end Sys2Proof.Machine
end

