-- ==== Sys2Proof/Machine/Readings.lean ====
section
/-! DEFINITION. What BAR0 reads: identification, capabilities, status fields and counters (R367, R368, R396, R410,
R411, R485, R486, R493 to R503), and the layouts of log entries and meter records (R410, R481, R482). -/

namespace Sys2Proof.Machine

/-! ## Codes -/

/-- Unit kinds by value (R409). -/
def kindCode : UnitKind → Nat
  | .none => 0 | .engine => 1 | .cell => 2 | .token => 3 | .face => 4 | .hbm => 5 | .lpddr => 6 | .flash => 7
  | .link => 8 | .core => 9 | .pcie => 10 | .sensor => 11

def Sync.code : Sync → Nat
  | .unsync => 0 | .source => 1 | .locked => 2 | .holdover => 3 | .lost => 4 | .mismatch => 5

def BenchState.code : BenchState → Nat
  | .empty => 0 | .loading => 1 | .ready => 2 | .draining => 3 | .unloading => 4 | .halted => 5

def Stage.code : Stage → Nat
  | .rom => 0 | .loader => 1 | .fwInit => 2 | .links => 3 | .ready => 4 | .recovery => 5 | .keep => 6 | .restart => 7

def PwState.code : PwState → Nat
  | .run => 0 | .entering => 1 | .rest => 2 | .waking => 3 | .keep => 4

def LinkState.code : LinkState → Nat
  | .down => 0 | .training => 1 | .isolated => 2 | .active => 3 | .degraded => 4 | .refused => 5

def ovBit : OvCause → Nat
  | .tj => 0 | .current => 1 | .droop => 2

def boolBit (b : Bool) : Nat := if b then 1 else 0

/-! ## Log entries and meter records -/

/-- An error-log entry (R410). -/
def logBits (e : LogEntry) : Nat :=
  let v := 0x4C45 + 2 ^ 16 + e.status % 256 * 2 ^ 132 + e.pattern % 256 * 2 ^ 140 + e.band % 256 * 2 ^ 148 +
    e.repeats % 65536 * 2 ^ 156 + e.unit.index % 65536 * 2 ^ 172 + kindCode e.unit.kind * 2 ^ 188 + e.bench % 32 * 2 ^ 192 +
    e.severity % 8 * 2 ^ 197 + e.cause % 65536 * 2 ^ 200 + e.cls.code * 2 ^ 216 + e.stamp.off % 2 ^ 32 * 2 ^ 224 +
    e.stamp.tick % 2 ^ 64 * 2 ^ 256 + e.detail0 % 2 ^ 64 * 2 ^ 320 + e.detail1 % 2 ^ 64 * 2 ^ 384 +
    e.seq % 2 ^ 32 * 2 ^ 448
  v + crcOf 64 v * 2 ^ 480

/-- A meter record (R481, R482). -/
def meterBits (r : MeterRec) : Nat :=
  let x (i : Nat) : Nat := r.vals.getD i 0
  let y (i : Nat) : Nat := r.slices.getD i 0
  let head := 0x4D52 + 2 ^ 16 + r.kind * 2 ^ 32 + boolBit r.afterReset * 2 ^ 40 + r.reason % 16 * 2 ^ 64 +
    r.bench % 16 * 2 ^ 68 + r.seq % 2 ^ 32 * 2 ^ 448
  let v :=
    if r.kind = 0 then
      head + r.epoch % 2 ^ 16 * 2 ^ 72 + y 5 * 2 ^ 88 + y 4 * 2 ^ 95 + y 3 * 2 ^ 100 + y 2 * 2 ^ 105 + y 1 * 2 ^ 114 +
        y 0 * 2 ^ 121 + x 3 % 2 ^ 48 * 2 ^ 160 + x 2 % 2 ^ 48 * 2 ^ 208 + x 1 % 2 ^ 32 * 2 ^ 256 +
        r.ticks % 2 ^ 32 * 2 ^ 288 + r.firstTick % 2 ^ 64 * 2 ^ 320 + x 0 % 2 ^ 64 * 2 ^ 384
    else
      head + r.tally % 4096 * 2 ^ 84 + r.ticks % 2 ^ 32 * 2 ^ 96 + r.firstTick % 2 ^ 64 * 2 ^ 128 +
        x 5 % 2 ^ 32 * 2 ^ 192 + x 4 % 2 ^ 32 * 2 ^ 224 + x 3 % 2 ^ 48 * 2 ^ 256 + x 2 % 2 ^ 48 * 2 ^ 304 +
        x 1 % 2 ^ 48 * 2 ^ 352 + x 0 % 2 ^ 48 * 2 ^ 400
  v + crcOf 64 v * 2 ^ 480

/-! ## Capabilities (R367, R368, R503) -/

/-- Units of a kind retired. -/
def retiredOf (s : State) (k : UnitKind) : Nat := (s.fault.retired.filter (fun u => u.kind == k)).length

/-- Channels of a tier retired whole (R278). -/
def deadChannels (s : State) (t : Tier) : Nat := (s.tier.channels.filter (fun c => c.1 == t)).length

/-- A unit of the kind is retired or under a quarantine record. -/
def degradedKind (s : State) (k : UnitKind) : Bool :=
  s.fault.retired.any (fun u => u.kind == k) || s.fault.quarantine.any (fun q => q.1.kind == k)

/-- A capability: its ID, body length, DEGRADED flag and body. -/
structure Cap where
  id : Nat
  len : Nat
  degraded : Bool := false
  body : Nat

/-- The capabilities present, in ascending order (R503); `mask` is the bench_mask of the list's function (R368). -/
def caps (s : State) (mask : Nat) : List Cap :=
  let usable := ((List.range 96).filter (linkUp s)).length
  let units := degradedKind s .engine || degradedKind s .cell || !s.tier.channels.isEmpty
  [ ⟨1, 16, degradedKind s .token, 65536 + 1048576 * 2 ^ 32 + 8192 * 2 ^ 64 + 16 * 2 ^ 80 + (8 - retiredOf s .token) * 2 ^ 88⟩,
    ⟨2, 8, false, 200 + 4000 * 2 ^ 16 + 25 * 2 ^ 32 + 100 * 2 ^ 40⟩,
    ⟨3, 16, units, (64 - retiredOf s .engine) + (4096 - retiredOf s .cell) * 2 ^ 16 + (384 - deadChannels s .hbm) * 2 ^ 32 +
      (20 - deadChannels s .lpddr) * 2 ^ 48 + (if hasFlash s then 16 - deadChannels s .flash else 0) * 2 ^ 56 +
      mask * 2 ^ 64⟩ ] ++
  (if hasFlash s then
    [ ⟨4, 8, 0 < deadChannels s .flash, userGib s + 48 * 2 ^ 32 + (16 - deadChannels s .flash) * 2 ^ 40⟩,
      ⟨5, 8, false, 1 + 3 * 2 ^ 8⟩ ] else []) ++
  [ ⟨6, 8, false, 16 + 3 * 2 ^ 8⟩,
    ⟨7, 16, false, 256 + 4096 * 2 ^ 16 + 64 * 2 ^ 32 + 7 * 2 ^ 40 + 15 * 2 ^ 44 + 1024 * 2 ^ 48 + 16777216 * 2 ^ 64⟩,
    ⟨8, 16, false, (if s.stock = .mx then 96 else 48) + usable * 2 ^ 8 + 4096 * 2 ^ 16 + 64 * 2 ^ 32 + 32 * 2 ^ 40 +
      32 * 2 ^ 48 + 16 * 2 ^ 56⟩,
    ⟨9, 16, false, 65536 + 1048576 * 2 ^ 32 + 16384 * 2 ^ 64 + 8192 * 2 ^ 80⟩,
    ⟨10, 8, false, 32 + 4 * 2 ^ 8 + 7 * 2 ^ 16⟩,
    ⟨11, 8, false, 4194304 + 1024 * 2 ^ 32⟩,
    ⟨12, 8, !s.fault.retired.isEmpty || !s.fault.quarantine.isEmpty,
      6 + 24 * 2 ^ 8 + (s.fault.quarantine.length % 65536) * 2 ^ 16 + (s.fault.retired.length % 65536) * 2 ^ 32⟩,
    ⟨13, 8, false, 1 + 24 * 2 ^ 8 + regF s 0x40010 0 0 * 2 ^ 16⟩ ]

/-- The list in BAR0: header and body of capability i at 0x100 + 0x20 i (R503; the placement is log entry 62). -/
def capWord (s : State) (mask off : Nat) : Nat :=
  let l := caps s mask
  let i := (off - 0x100) / 0x20
  match l[i]? with
  | none => 0
  | some c =>
    let next := if i + 1 < l.length then 0x100 + 0x20 * (i + 1) else 0
    let w := c.id + 2 ^ 16 + boolBit c.degraded * 2 ^ 24 + next * 2 ^ 32 + c.len * 2 ^ 64 + c.body * 2 ^ 128
    w / 2 ^ (8 * ((off - 0x100) % 0x20)) % 2 ^ 64

/-! ## The blocks -/

def pub (s : State) (off : Nat) : Nat := (tget s.bar.published off).getD 0

/-- Identification and `SETUP_LOCK` (R494). -/
def idReg (s : State) (off : Nat) : Nat :=
  match off with
  | 0x000 => 0x1F9A + stockCode s * 2 ^ 16
  | 0x008 => s.bar.revision.toNat + 3 * 2 ^ 8
  | 0x010 => 1
  | 0x018 =>
    (match s.fw.fwRun with
     | some i => 4 + fieldOf i.hdr 119 104 * 2 ^ 8 + fieldOf i.hdr 103 96 * 2 ^ 24
     | none => 4 + Config.fwMinor % 2 ^ 16 * 2 ^ 8 + Config.fwPatch % 256 * 2 ^ 24)
  | 0x020 => Config.serial.toNat
  | 0x0F8 => boolBit s.bar.lock
  | _ => 0

/-- The TK_ block (R494). -/
def tkReg (s : State) (off : Nat) : Nat :=
  match off with
  | 0x28 => s.time.sync.code + boolBit (cfgInvalid s) * 2 ^ 8 + s.time.hops % 64 * 2 ^ 16
  | 0x30 => s.time.now.off
  | 0x38 => s.time.latch
  | 0x48 => s.time.ptm0.1
  | 0x50 => s.time.ptm0.2
  | 0x58 => s.time.ptm1.1
  | 0x60 => s.time.ptm1.2
  | 0x68 => s.time.ptmCount
  | _ => 0

/-- Rings of a bench in ERROR, bit j for ring 16b + j (R495). -/
def ringErrors (s : State) (b : Nat) : Nat :=
  (List.range 16).foldl (fun a j => a + boolBit (tgetD s.host.rings (16 * b + j)).error * 2 ^ j) 0

/-- A bench page (R495, R496). -/
def bnReg (s : State) (b po : Nat) : Nat :=
  let x := bench s b
  if po < 0x80 then x.record.toNat / 2 ^ (8 * po) % 2 ^ 64
  else if 0x400 ≤ po then pub s (bn b po)
  else match po with
    | 0x080 => x.state.code + role s b * 2 ^ 8 + x.epoch % 2 ^ 16 * 2 ^ 16 + benchTag s b * 2 ^ 32
    | 0x088 => boolBit (s.bar.benchLock.contains b)
    | 0x0E8 => x.goodput % 65536 + x.goodputWin % 2 ^ 32 * 2 ^ 32
    | 0x0F0 =>
      let e := (tget s.host.ringErr b).getD (0, 0, false)
      ringErrors s b + e.1 % 16 * 2 ^ 16 + e.2.1 % 8 * 2 ^ 24 + boolBit e.2.2 * 2 ^ 32
    | 0x0F8 => pub s (bn b 0x0F8)
    | _ => 0

/-- Retired bytes of a tier (R278, R497). -/
def retiredBytes (s : State) (t : Tier) : Nat :=
  let frames := (s.tier.frames.filter (fun f => f.1 == t && !s.tier.channels.contains (t, f.2.1))).length
  let slice := match t with | .hbm => 3 * 2 ^ 30 | .lpddr => 96 * 2 ^ 30 | _ => 0
  if t = .flash then s.tier.badBlocks * 2 ^ 25 else 65536 * frames + deadChannels s t * slice

/-- The TR_ block (R497); flash fields read 0 on an MC. -/
def trReg (s : State) (off : Nat) : Nat :=
  let fl (v : Nat) : Nat := if hasFlash s then v else 0
  match off with
  | 0x30 => fl (boolBit s.tier.relist)
  | 0x38 => fl (userGib s)
  | 0x40 => fl s.tier.freePm
  | 0x48 => fl (meanErase s % 2 ^ 32 + maxErase s % 2 ^ 32 * 2 ^ 32)
  | 0x50 => fl s.tier.unitsMoved
  | 0x58 => fl s.tier.unitsDuty
  | 0x60 => fl (lifeUsed s % 65536)
  | 0x68 => pub s 0x30068
  | 0x70 => retiredBytes s .face
  | 0x78 => retiredBytes s .hbm
  | 0x80 => retiredBytes s .lpddr
  | 0x88 => fl (retiredBytes s .flash)
  | _ => if 0x100 ≤ off then fl (pub s (0x30000 + off)) else 0

/-- The FB_ block (R498). -/
def fbReg (s : State) (off : Nat) : Nat :=
  match off with
  | 0x30 =>
    let (e, on) := match s.fab.sealSet with | some (e, _, _) => (e, 1) | none => (0, 0)
    s.fab.epoch % 2 ^ 16 + e % 2 ^ 16 * 2 ^ 16 + on * 2 ^ 32
  | 0x38 => match s.fab.sealSet with | some (_, k, _) => k | none => 0
  | _ =>
    if 0x100 ≤ off ∧ off < 0x400 then
      let x := linkOf s ((off - 0x100) / 8)
      let p := match x.ident with | some i => i.peer.toNat * 2 ^ 16 + i.link % 256 * 2 ^ 32 | none => 0
      x.state.code + x.lanes.toNat * 2 ^ 4 + boolBit x.enc * 2 ^ 8 + p
    else pub s (0x40000 + off)

/-- The PW_ block (R500). -/
def pwReg (s : State) (off : Nat) : Nat :=
  match off with
  | 0x00 => s.pwr.state.code + s.pwr.refusal * 2 ^ 8
  | 0x18 => boolBit s.pwr.planStable
  | 0x20 => s.pwr.override.foldl (fun a o => a ||| 2 ^ (3 * o.1 + ovBit o.2)) 0
  | 0x28 => s.pwr.wakeLog.1 + s.pwr.wakeLog.2.2 % 2 ^ 32 * 2 ^ 32
  | 0x30 => s.pwr.wakeLog.2.1.tick
  | 0x38 => s.pwr.wakeLog.2.1.off
  | _ => if 0xC0 ≤ off ∧ off < 0x100 then pub s (0x60000 + off) else 0

/-- The RL_ block with the volatile log (R411, R501). -/
def rlReg (s : State) (off : Nat) : Nat :=
  let (done, st, bytes, next) := s.fault.readout
  let (a, u, e, y) := s.fault.avail
  if 0x8000 ≤ off then
    match s.fault.vol.find? (fun x => x.seq % 512 == (off - 0x8000) / 64) with
    | some x => logBits x / 2 ^ (8 * (off % 64)) % 2 ^ 64
    | none => 0
  else if 0x100 ≤ off ∧ off < 0x200 then
    let r : RestartEntry := tgetD s.fw.restartLog ((off - 0x100) / 0x20)
    match off % 0x20 with
    | 0x00 => r.cause % 256 + r.durationUs % 2 ^ 32 * 2 ^ 32
    | 0x08 => r.stamp.tick
    | 0x10 => r.stamp.off
    | 0x18 => r.readyOff
    | _ => 0
  else match off with
    | 0x18 => s.fault.prod
    | 0x48 => boolBit done + st % 256 * 2 ^ 8 + bytes % 2 ^ 32 * 2 ^ 32
    | 0x50 => next
    | 0x58 => s.fw.restartCount
    | 0x80 => a
    | 0x88 => u
    | 0x90 => e
    | 0x98 => y
    | _ => pub s (0x70000 + off)

/-- The SC_ block (R502). -/
def scReg (s : State) (off : Nat) : Nat :=
  match off with
  | 0x00 => s.fw.stage.code
  | 0x08 => s.sec.rollback.1 % 2 ^ 32 + s.sec.rollback.2 % 2 ^ 32 * 2 ^ 32
  | 0x40 => s.sec.keyStatus % 256 * 2 ^ 16
  | _ => if 0x10 ≤ off ∧ off < 0x30 then fieldOf deviceHash (8 * (off - 0x10) + 63) (8 * (off - 0x10)) else 0

/-- The MG_ block (R502). -/
def mgReg (s : State) (off : Nat) : Nat :=
  match off with
  | 0x08 => boolBit s.mgmt.busy * 2 ^ 8
  | 0x18 => s.mgmt.meterProd
  | _ => 0

/-- Set-up fields of parts an MC does not have read 0 (R497, R498, R173). -/
def absentHere (s : State) (off : Nat) : Bool :=
  s.stock == .mc && (off == 0x30028 || (match benchPage off with | some (_, po) => po == 0x098 | none => false))

/-- Bits of a register for links that an MC does not have: links 24 to 47 and 72 to 95 (R2, R498). -/
def linkMask (s : State) (off : Nat) (v : Word) : Word :=
  if s.stock = .mx then v
  else if off = 0x40000 ∨ off = 0x60048 then v &&& 0xFFFF000000FFFFFF#64
  else if off = 0x40008 ∨ off = 0x60050 then v &&& 0x00000000000000FF#64
  else v

/-- What the physical function reads at an aligned offset (R485, R486). In RECOVERY only identification, the stage and
one empty capability header answer (R396); in Rest only the blocks of R464. -/
def readReg (s : State) (off : Nat) : Nat :=
  if s.fw.stage == .recovery then
    if off < 0x100 then idReg s off else if off = 0x80000 then s.fw.stage.code else 0
  else if off % 8 != 0 || restShut s off then 0
  else if !(fieldsAt off).isEmpty then (if absentHere s off then 0 else (linkMask s off (regRead s off)).toNat)
  else match benchPage off with
    | some (b, po) => bnReg s b po
    | none =>
      if off < 0x100 then idReg s off
      else if off < 0x1000 then capWord s 0xFFFF off
      else match off / 0x10000 with
        | 1 => tkReg s (off % 0x10000)
        | 3 => trReg s (off % 0x10000)
        | 4 => fbReg s (off % 0x10000)
        | 5 => pub s off
        | 6 => pwReg s (off % 0x10000)
        | 7 => rlReg s (off % 0x10000)
        | 8 => scReg s (off % 0x10000)
        | 9 => mgReg s (off % 0x10000)
        | _ => 0

/-- What virtual function b reads at an aligned offset of its VF BAR0 (R365, R368): identification, the capability
list with its own bench alone, time status, and its bench's page (DEDUCED, log entry 149). -/
def vfRead (s : State) (b off : Nat) : Nat :=
  if off % 8 != 0 then 0
  else if off < 0x28 then idReg s off
  else if 0x100 ≤ off ∧ off < 0x1000 then capWord s (2 ^ b) off
  else if 0x1028 ≤ off ∧ off ≤ 0x1068 ∧ off ≠ 0x1040 then tkReg s (off - 0x1000)
  else if 0x2000 ≤ off ∧ off < 0x3000 then readReg s (bn b (off - 0x2000))
  else 0

end Sys2Proof.Machine
end

