-- ==== Sys2Proof/Machine/Access.lean ====
section
/-! DEFINITION. Writes to BAR0 and their effects, the locks, and the reads with effects (R364 to R369, R486 to R492).
-/

namespace Sys2Proof.Machine

/-! ## Values in force (R491) -/

/-- A link enable changed by a value put in force: a link disabled goes DOWN (R333). -/
def linksAfter (s : State) (first : Nat) : State :=
  (List.range 64).foldl (fun s i =>
    let l := first + i
    if l < 96 ∧ !linkEnabled s l then
      if linkUp s l then linkDown s l 2
      else if (linkOf s l).state = .down then s
      else setLink s l (fun x => { x with state := .down, step := 0 })
    else s) s

/-- A value put in force, with its effects. -/
def applyReg (s : State) (off : Nat) (v : Word) : State :=
  let s1 := { s with bar := { s.bar with inForce := tput s.bar.inForce off v } }
  if off = 0x40000 then linksAfter s1 0 else if off = 0x40008 then linksAfter s1 64 else s1

/-- Writes that wait for commits up to n take effect at its step 6, in landing order (R491). -/
def applyWaiting (s : State) (n : Nat) : State :=
  let (now, later) := s.bar.waiting.partition (fun w => dueBy s w.1 n)
  now.foldl (fun s w => applyReg s w.2.1 w.2.2) { s with bar := { s.bar with waiting := later } }

/-- Registers of one wide field below the one whose write completes it (R486): `FB_LINK_CTRL`, `PW_LANE_CTRL`,
`BN_SIG_POLICY` key_hash. -/
def lowsOf (off : Nat) : List Nat :=
  if off = 0x40008 then [0x40000]
  else if off = 0x60050 then [0x60048]
  else match benchPage off with
    | some (b, 0x0E0) => [bn b 0x0C8, bn b 0x0D0, bn b 0x0D8]
    | _ => []

/-- A register that only a later write of its field's top completes. -/
def isLow (off : Nat) : Bool :=
  off == 0x40000 || off == 0x60048 ||
    (match benchPage off with | some (_, po) => po == 0x0C8 || po == 0x0D0 || po == 0x0D8 | none => false)

/-- A value written at the present stamp: read back from now on, in force now before the first tick, else at its
commit (R486, R491). -/
def setReg (s : State) (off : Nat) (v : Word) : State :=
  let s1 := { s with bar := { s.bar with written := tput s.bar.written off v } }
  if isLow off then s1
  else
    let l := (lowsOf off).map (fun o => (o, regRead s1 o)) ++ [(off, v)]
    if s.time.ticking then
      { s1 with bar := { s1.bar with waiting := s1.bar.waiting ++ l.map (fun x => (s.time.now, x.1, x.2)) } }
    else l.foldl (fun s x => applyReg s x.1 x.2) s1

/-! ## Checks of a write (R487 to R492) -/

/-- The function may write the register (R487): the physical function all but the ring fields a virtual function
drives, a virtual function the ring fields of its own bench. -/
def mayWrite (s : State) (fn : Fn) (off : Nat) : Bool :=
  match fn, benchPage off with
  | .pf, some (b, po) => !(isRingField po && vfOn s b)
  | .pf, none => true
  | .vf v, some (b, po) => b == v && vfOn s b && (isRingField po || po == 0x088)
  | .vf _, none => false

/-- The register is locked: ring fields of a virtual function's rings by `BN_SETUP_LOCK`, every other RWL field by
`SETUP_LOCK` (R369, R488, R489). -/
def locked (s : State) (off : Nat) : Bool :=
  match benchPage off with
  | some (b, po) => if isRingField po && vfOn s b then s.bar.benchLock.contains b else s.bar.lock
  | none => s.bar.lock && (fieldsAt off).any (fun f => f.acc == .rwl)

/-- A bench's role is CACHE, or it has none (R187). -/
def cacheLimits (s : State) (b : Nat) : Bool := !hasRecord s b || role s b == 2

/-- partial_share_pm and vec_share_pm fit the bench's role together (R295). -/
def sharesOk (s : State) (b p v : Nat) : Bool := decide (p + v ≤ if cacheLimits s b then 1000 else 500)

/-- Allowed values and the registers judged by rules of their own (R187, R333, R455, R490). -/
def valueOk (s : State) (off : Nat) (v : Word) : Bool :=
  (off == 0x10000 || off == 0x10008 || off == 0x10010 || off == 0x10018 || fieldsOk off v) &&
    (off != 0x40018 ||
      fieldOf v 7 0 + fieldOf v 15 8 + fieldOf v 23 16 + fieldOf v 31 24 == 128) &&
    (if 0x60080 ≤ off ∧ off < 0x600C0 then decide (floorMhz s ((off - 0x60080) / 8) ≤ fieldOf v 10 0) else true) &&
    (match benchPage off with
     | some (b, 0x0A0) => cacheLimits s b || decide (fieldOf v 25 16 ≤ 500)
     | _ => true)

/-- Both share fields stay where together they would exceed their limit (R295, R490). -/
def keepShares (s : State) (off : Nat) (v : Word) : Word :=
  match benchPage off with
  | some (b, 0x0A0) =>
    if sharesOk s b (fieldOf v 25 16) (fieldOf (regRead s (bn b 0x0B0)) 25 16) then v
    else withFieldOf v 25 16 (fieldOf (regRead s off) 25 16)
  | some (b, 0x0B0) =>
    if sharesOk s b (fieldOf (regRead s (bn b 0x0A0)) 25 16) (fieldOf v 25 16) then v
    else withFieldOf v 25 16 (fieldOf (regRead s off) 25 16)
  | _ => v

/-! ## Ring fields (R369, R446) -/

/-- The function may have a ring enabled under require_ide (R446). -/
def ideAllows (s : State) (fn : Fn) : Bool :=
  regF s 0x80030 0 0 == 0 || s.host.ide.any (fun x => x.2.secure && x.2.fns.contains fn)

/-- Every submission ring of a bench is disabled (R369). -/
def disableRings (s : State) (b : Nat) : State :=
  (List.range 16).foldl (fun s j =>
    let off := bn b (0x110 + 0x18 * j)
    putReg s off (withFieldOf (regVal s off) 31 31 0)) s

/-- A ring field takes effect at landing (R369, R371, R491). -/
def setRing (s : State) (b po : Nat) (v : Word) : State :=
  if po = 0x290 then
    let s1 := putReg s (bn b po) v
    if fieldOf v 31 31 = 0 then disableRings s1 b else drainRecords s1 b 65537
  else if 0x100 ≤ po ∧ po < 0x280 ∧ (po - 0x100) % 0x18 = 0x10 then
    let on := cqEnabled s b && ideAllows s (driver s b)
    putReg s (bn b po) (if on then v else withFieldOf v 31 31 0)
  else putReg s (bn b po) v

/-! ## The commands -/

/-- A write of a stored register (R486 to R492). -/
def writeReg (fn : Fn) (off : Nat) (value : Word) (s : State) : State :=
  if !barReady s then s
  else if off % 8 != 0 || restShut s off || !mayWrite s fn off then badAccess s
  else if (fieldsAt off).isEmpty || absentHere s off then s
  else if locked s off then s
  else if s.time.ticking && (off == 0x10000 || off == 0x10008 || off == 0x10010) then s
  else
    let v := linkMask s off (maskFields off value)
    if !valueOk s off v then badAccess s
    else match benchPage off with
      | some (b, po) => if isRingField po then setRing s b po v else setReg s off (keepShares s off v)
      | none => setReg s off v

/-- Registers locked by `SETUP_LOCK`, in offset order, with the values they hold (R438, R488). -/
def lockedFields (s : State) : List (Nat × Word) :=
  let offs := (blockFields.filter (fun x => x.2.any (fun f => f.acc == .rwl))).map (·.1)
  let page := pageFields.map (·.1) ++ (List.range 48).map (fun i => 0x100 + 8 * i)
  let benches := (List.range 16).flatMap (fun b => page.map (fun po => bn b po))
  ((offs ++ benches).mergeSort (fun a b => decide (a ≤ b))).map (fun o => (o, regRead s o))

/-- SETUP_LOCK_WRITE (R488): measurement indices 6 and 23 are formed at that landing. -/
def execSetupLockWrite (t : Stamp) (fn : Fn) (value : Word) (s : State) : Host.Outcome State Fault Refusal :=
  pfWrite t fn 0x0F8 (fun s =>
    if value.getLsbD 0 && !s.bar.lock then
      { s with bar := { s.bar with lock := true }, sec := { s.sec with locked := some (lockedFields s) } }
    else s) s

/-- BN_SETUP_LOCK_WRITE (R369, R491). -/
def execBnSetupLockWrite (t : Stamp) (fn : Fn) (bench : Nat) (value : Word) (s : State) :
    Host.Outcome State Fault Refusal :=
  run t (fun s =>
    if !barReady s then s
    else if !mayWrite s fn (bn bench 0x088) || restShut s (bn bench 0x088) || decide (16 ≤ bench) then badAccess s
    else if value.getLsbD 0 && !s.bar.benchLock.contains bench then
      { s with bar := { s.bar with benchLock := s.bar.benchLock ++ [bench] } }
    else s) s

/-- TK_NOW_OFFSET_READ (R33, R494): the tick number is latched. -/
def execTkNowOffsetRead (t : Stamp) (s : State) : Host.Outcome State Fault Refusal :=
  run t (fun s => if barReady s then { s with time := { s.time with latch := s.time.now.tick } } else s) s

/-- CQ_DISABLE (R369): a write of 0 to the completion ring's enable. -/
def execCqDisable (t : Stamp) (fn : Fn) (bench : Nat) (s : State) : Host.Outcome State Fault Refusal :=
  run t (fun s => writeReg fn (bn bench 0x290) (withFieldOf (regVal s (bn bench 0x290)) 31 31 0) s) s

/-- RING_ERR_OVERRUN_CLEAR (R377): W1C of overrun, by the physical function (R487). -/
def execRingErrOverrunClear (t : Stamp) (fn : Fn) (bench : Nat) (value : Word) (s : State) :
    Host.Outcome State Fault Refusal :=
  pfWrite t fn (bn bench 0x0F0) (fun s =>
    if value.getLsbD 32 then
      { s with host := { s.host with ringErr := tmod s.host.ringErr bench (fun e => (e.1, e.2.1, false)) } }
    else s) s

/-- PW_OVERRIDE_CLEAR (R458): W1C; a bit whose condition lasts is set again. -/
def execPwOverrideClear (t : Stamp) (fn : Fn) (value : Word) (s : State) : Host.Outcome State Fault Refusal :=
  pfWrite t fn 0x60020 (fun s =>
    { s with pwr := { s.pwr with override := s.pwr.override.filter (fun o =>
        !value.getLsbD (3 * o.1 + ovBit o.2) || (s.pwr.loops.contains o && heldBelow s o.1)) } }) s

/-- PW_RESET_CTRL_WARM (R385). -/
def execPwResetCtrlWarm (t : Stamp) (fn : Fn) (s : State) : Host.Outcome State Fault Refusal :=
  pfWrite t fn 0x60010 warmReset s

end Sys2Proof.Machine
end

