-- ==== Sys2Proof/Machine/Steps.lean ====
section
/-! DEFINITION. What the units of a tick leave at its commit: token steps, speculation and its verification, prefill
and rebuild chunks, the rows and record blocks they append, token records and probe records (R37 steps 2 and 3, R42,
R43, R106, R121, R126, R153, R163 to R166, R174 to R177, R191, R196, R197, R200, R205, R230, R232, R237 to R247, R250,
R420). -/

namespace Sys2Proof.Machine

/-! ## Rows and pages (R81, R126, R142, R153, R163) -/

/-- The codes of one computed row of a half, each with its clip (R96, R126). -/
def rowCodes (p : Package) (e : Entry) (run pos : Nat) (isValue : Bool) : List (Nat × Bool) :=
  let entries := (kvBook p e isValue).entries
  (List.range (manDim p.manifest)).map (fun j =>
    codeOf entries (settled32 (Config.kvElem run pos e.layer e.head isValue j)) (kvScale p e.layer e.head isValue))

/-- The member that holds the share of group g and KV head h of a striped conversation, if it is another one (R81). -/
def shareOf (c : Conv) (g h : Nat) : Option ModuleId :=
  c.stripe.bind (fun st =>
    let count := fieldOf st 11 8 + 1
    let stride := max 1 (fieldOf st 47 32)
    let j := if bitOf st 0 then 64 * g / stride % count else h / stride
    if fieldOf st 15 12 = j then none else some (BitVec.ofNat 16 (fieldOf st (143 + 16 * j) (128 + 16 * j))))

/-- The form of a half of a new page: raw, its first position the group's (R108, R126). -/
def openForm (p : Package) (fp g l h : Nat) (isValue : Bool) : BlockForm :=
  { kind := if isValue then 1 else 0, cols := manDim p.manifest, codeBits := kvBits p,
    cbIndex := 2 * (l * manKv p.manifest + h) + (if isValue then 1 else 0), locator := 64 * g, fpTag := fp }

/-- A new open page of group g (R142, R155, R157, R163): in the slice of the cell that computed its head where that
has room, else where placement puts it. A page of another member's share is REMOTE. -/
def newPage (s : State) (c : Conv) (p : Package) (cells : List Nat) (g l h : Nat) : State × Entry :=
  let cls := openClass (manDim p.manifest) (kvBits p)
  let bytes := 2 * classBytes cls
  let (s1, id) := newPageId s
  let own := (cells[l * c.kvHeads + h]?).bind (fun x => if sliceFits s c.bench x bytes then some x else none)
  let e : Entry := { group := g, layer := l, head := h, cls := cls, bench := c.bench, pageId := id,
                     key := { hdr := 0, payload := [] }, value := { hdr := 0, payload := [] } }
  match shareOf c g h with
  | some m => (s1, { e with tier := .remote, holder := m })
  | none => (s1, { e with
      holder := s.fab.self, cell := own, tier := if own.isSome then .face else placeTier s c.bench bytes })

/-- The pages of group g open, by layer and KV head (R153, R163). -/
def openGroup (s : State) (k g : Nat) (p : Package) (cells : List Nat) : State :=
  match conv s k with
  | none => s
  | some c =>
    ((List.range c.layers).flatMap (fun l => (List.range c.kvHeads).map (fun h => (l, h)))).foldl (fun s x =>
      let (s1, e) := newPage s c p cells g x.1 x.2
      modConv s1 k (fun c => { c with entries := c.entries ++ [e] })) s

/-- One row more on a page, its blocks written anew with their lengths and crc (R126); of a share elsewhere only the
count is kept. -/
def growPage (s : State) (p : Package) (fp run pos : Nat) (e : Entry) : Entry :=
  let add (b : Block) (isValue : Bool) : Block :=
    mkBlock { openForm p fp e.group e.layer e.head isValue with rows := e.rows + 1 } (kvBook p e isValue).width
      ((if e.rows = 0 then [] else b.codes) ++ (rowCodes p e run pos isValue).map (·.1))
  if isLocal s e then { e with rows := e.rows + 1, key := add e.key false, value := add e.value true }
  else { e with rows := e.rows + 1 }

/-- Elements of a row that were clipped (R96). -/
def rowClips (s : State) (p : Package) (run pos : Nat) (es : List Entry) : Nat :=
  (es.filter (isLocal s)).foldl (fun a e =>
    a + ((rowCodes p e run pos false ++ rowCodes p e run pos true).filter (·.2)).length) 0

/-- A computed row that joins its pages: its number in the unit (R182), and the row and head whose logits chose its
token. -/
structure NewRow where
  row : Nat
  head : Nat
  code : Nat
  deriving DecidableEq, Repr

/-- The bytes a position adds to a record block (R174 to R176). -/
def recRow (s : State) (p : Package) (c : Conv) (u : WorkUnit) (first : Nat) (x : NewRow) (pos : Nat) (short : Bool)
    (r : RecBlock) : List Byte :=
  if r.isToken then
    let t : LogTok := c.log.getD pos ⟨0, false⟩
    let lp := if t.gen then (logprob p u.run x.head x.code t.tok).toNat else 0
    leBytes 8 (t.tok % 2 ^ 30 + (if short then 2 ^ 30 else 0) + (if t.gen then 2 ^ 31 else 0) + lp * 2 ^ 32)
  else (List.range r.qHeads).flatMap (fun i =>
    let m := mergedRow s p c u.lacked (farParts s u (manQ p.manifest) x.row) u.run (first + x.row) pos r.layer (r.headFirst + i)
    leBytes 4 (lseOf m).toNat)

/-- The empty record blocks of a new group (R174). -/
def newRecs (s : State) (p : Package) (c : Conv) (g : Nat) : List RecBlock :=
  let q := manQ p.manifest
  let tier (n : Nat) : Tier := placeTier s c.bench n
  (List.range c.layers).flatMap (fun l => (List.range (ceilDiv q 63)).map (fun i =>
    mkRec false (63 * i) (64 * g) 0 l (min 63 (q - 63 * i)) c.fpTag [] (tier 16384))) ++
  [mkRec true 0 (64 * g) 0 0 0 c.fpTag [] (tier 1024)]

/-- The record blocks of a conversation with the row of a position, which its pages hold already (R174 to R177). -/
def growRecs (s : State) (p : Package) (c : Conv) (u : WorkUnit) (first : Nat) (x : NewRow) (pos : Nat) (short : Bool) :
    List RecBlock :=
  let g := pos / 64
  (if pos % 64 = 0 then c.recs ++ newRecs s p c g else c.recs).map (fun r =>
    if r.locator != 64 * g then r
    else mkRec r.isToken r.headFirst r.locator (r.rows + 1) r.layer r.qHeads r.fpTag
      (r.payload ++ recRow s p c u first x pos short r) r.tier)

/-- A full group becomes SEALING, and its pages here join the fit queue of commit n (R127, R158). -/
def sealGroup (s : State) (k g n : Nat) : State :=
  let s1 := modConv s k (fun c => { c with entries := c.entries.map (fun e =>
    if e.group == g && e.state == .opened then { e with state := .sealing } else e) })
  match conv s1 k with
  | some c => joinFits s1 c.bench k (c.entries.filter (fun e => e.group == g && isLocal s1 e)) n
  | none => s1

/-- One committed position joins every page of its group (R126, R153), with its record blocks. -/
def appendPos (s : State) (u : WorkUnit) (first : Nat) (x : NewRow) (pos : Nat) (short : Bool) (n : Nat) : State :=
  let k := u.conv
  match conv s k with
  | none => s
  | some c0 =>
    match (bench s c0.bench).pkg with
    | none => s
    | some p =>
      let g := pos / 64
      let s1 := if pos % 64 = 0 then openGroup s k g p u.cells else s
      let grown := ((conv s1 k).map (fun c => c.entries.filter (fun e => e.group == g && e.state != .replica))).getD []
      let clips := rowClips s1 p u.run pos grown
      let s2 := modConv s1 k (fun c => { c with
        entries := c.entries.map (fun e =>
          if e.group == g && e.state != .replica then growPage s1 p c.fpTag u.run pos e else e),
        length := pos + 1, lastTick := n })
      let s3 := modConv s2 k (fun c => if c.record then { c with recs := growRecs s2 p c u first x pos short } else c)
      let s4 := countClips s3 c0.bench clips
      if pos % 64 = 63 then sealGroup s4 k g n else s4

/-- Positions from `first` on appended in order, one for each row. -/
def appendRun (s : State) (u : WorkUnit) (first : Nat) (rows : List NewRow) (short : Bool) (n : Nat) : State :=
  rows.zipIdx.foldl (fun s x => appendPos s u first x.1 (first + x.2) short n) s

/-! ## Passes (R139) -/

/-- Rows of bench b planned in the tick. -/
def benchRows (s : State) (b : Nat) : Nat := (s.plan.units.filter (fun x => x.bench == b)).foldl (fun a x => a + unitRows s x) 0

/-- The number of a unit's first row among its bench's rows (R139). -/
def firstRow (s : State) (u : WorkUnit) : Nat :=
  ((s.plan.units.takeWhile (fun x => x.run != u.run)).filter (fun x => x.bench == u.bench)).foldl (fun a x => a + unitRows s x) 0

/-- Rows of pass k of n rows, r to a pass. -/
def passRows (n r k : Nat) : Nat := min r (n - k * r)

/-- Some row of a unit lies in pass k of r rows (R139, R149). -/
def inPass (s : State) (u : WorkUnit) (r k : Nat) : Bool :=
  let a := firstRow s u
  decide (a < (k + 1) * r) && decide (k * r < a + unitRows s u)

/-- Passes that a unit's rows open (R139). -/
def passesOpened (s : State) (u : WorkUnit) (r : Nat) : Nat :=
  ceilDiv (firstRow s u + unitRows s u) r - ceilDiv (firstRow s u) r

/-! ## What a unit meets at its commit (R42, R43, R121, R185, R191, R196, R197, R420) -/

/-- A page of this module that no run could use in the tick (R120, R158, R275). -/
def pageAbsent (s : State) (k : Nat) (e : Entry) : Bool :=
  e.state == .missing || e.state == .lost || (e.tier == .flash && flashLate s (entryPage e k)) ||
    rejectedNow s (entryPage e k)

/-- Pages of a conversation lacking here. -/
def absentPages (s : State) (k : Nat) : List PageRef :=
  match conv s k with
  | some c => (c.entries.filter (fun e => e.state != .replica && isLocal s e && pageAbsent s k e)).map (fun e => entryPage e k)
  | none => []

/-- The pages each unit lacked, those it was planned without among them, noted before the commit reads them again. -/
def noteMissing (s : State) : State :=
  { s with plan := { s.plan with units := s.plan.units.map (fun u =>
      if u.cls == .step || u.cls == .chunk then
        let l := (u.lacked ++ absentPages s u.conv).eraseDups
        { u with lacked := l, miss := (u.miss ++ l.map (·.group)).eraseDups }
      else u) } }

/-- How a token step or chunk ends at its commit: its request is gone, it is planned again, its request goes to
recovery from a group (`policy` where the tier-miss policy asks for it), or it commits with a gap in positions. -/
inductive UnitEnd where
  | excluded
  | again
  | fromGroup (g : Nat) (policy : Bool)
  | commits (gap : Nat)
  deriving DecidableEq, Repr

/-- The state the unit was planned in. -/
def unitState (u : WorkUnit) : ReqState :=
  match u.cls with
  | .chunk => if u.rebuild then .rebuilding else .prefill
  | _ => .generating

/-- First group a span without a complete answer lacks (R196). -/
def firstLacking (x : Span) (kv : Nat) : Nat := (((gapOf x kv).map (· / 64)).head?).getD x.gFirst

/-- Positions left out of a short step (R196). -/
def gapCount (c : Conv) (u : WorkUnit) (mine : List Span) : Nat :=
  let far := (mine.filter (fun x => !x.accepted)).flatMap (fun x => gapOf x c.kvHeads)
  let near := u.miss.flatMap (fun g => (List.range 64).map (fun p => 64 * g + p))
  ((far ++ near).eraseDups.filter (fun p => decide (p < c.length))).length

/-- The outcome of a token step or chunk. A span asked for and not answered in full is missing; one never asked for is
work its row did not finish (R191, R196). -/
def unitEnd (s : State) (u : WorkUnit) : UnitEnd :=
  match req s u.req, conv s u.conv with
  | some r, some c =>
    let st := if r.state = .hauling then r.left else r.state
    let mine := s.plan.spans.filter (fun x => x.req == u.req && x.bench == u.bench)
    let top := c.length / 64
    let openLost := c.length % 64 != 0 && u.miss.contains top
    let unsettled := mine.any (fun x => x.sampled && x.settled != some true)
    let back (g : Nat) (policy : Bool) : UnitEnd := if r.state = .hauling then .again else .fromGroup g policy
    if st ≠ unitState u ∨ u.dropped then .again
    else if sightOf s u.req then
      if openLost then back top false
      else if u.late || !mine.all spanDone || unsettled then .again
      else .commits (gapCount c u mine)
    else
      match u.miss ++ (mine.filter (fun x => !x.accepted && x.askStamp.isSome)).map (fun x => firstLacking x c.kvHeads) with
      | g :: gs =>
        let low := gs.foldl min g
        back low (!(openLost && low == top))
      | [] => if u.late || unsettled || !mine.all (·.accepted) then .again else .commits 0
  | _, _ => .excluded

/-- A unit dropped: counted, and a chunk's charge falls due for return (R43, R250, R420). -/
def unitAgain (s : State) (u : WorkUnit) : State :=
  let s1 := setBench (count s (bn u.bench 0x4E0) 1) u.bench (fun b => { b with dropped := b.dropped + 1 })
  match u.cls, u.rebuild, req s u.req with
  | .chunk, false, some r =>
    if (tallyOf s u.bench r.params).isSome then
      { s1 with plan := { s1.plan with returns := s1.plan.returns ++ [(tallyIdOf r.params, u.len)] } }
    else s1
  | _, _, _ => s1

/-- The pages a unit ran over count as read (R262). -/
def pagesRead (s : State) (k n : Nat) : State :=
  modConv s k (fun c => { c with entries := c.entries.map (fun e => if e.tier = .remote then e else { e with lastRead := n }) })

/-- Saturations of a committed unit's rows, and clips of the expander in its head runs and in the passes it opened
(R95, R113). -/
def countClamps (s : State) (u : WorkUnit) (first : Nat) : State :=
  match (bench s u.bench).pkg, conv s u.conv with
  | some p, some c =>
    let lo := rowClamps p u.run first (unitRows s u)
    let hi := pageClips s p c (unitRows s u) + passesOpened s u (max 1 (rowsPass p)) * tileClips p
    countHalf (countHalf s (bn u.bench 0x0F8) false lo) (bn u.bench 0x0F8) true hi
  | _, _ => s

/-! ## Choosing tokens (R227, R230, R232, R235 to R240) -/

/-- The logit of a token on a head row of a bench's model: 0 without one. -/
def logitOf (s : State) (b run row code t : Nat) : F32 := ((bench s b).pkg.map (fun p => logit p run row code t)).getD 0

/-- Tokens the automaton leaves in a state, with their logits (R230 step 1). -/
def candsOf (s : State) (r : Req) (st run head : Nat) : List (Nat × F32) :=
  ((List.range (manVocab (manOf s r.bench))).filter (fun t =>
    match r.auto with
    | some a => autoAllows a (eosOf r.params) st t
    | none => true)).map (fun t => (t, logitOf s r.bench run r.carried head t))

/-- The token for the position after a history (R230, R231). -/
def chooseAt (s : State) (r : Req) (hist : List Nat) (st run head : Nat) : Nat :=
  let p := paramsOf r.params r.key
  let win := hist.drop (hist.length - p.window)
  choose p hist.length (fun t => win.count t) (candsOf s r st run head)

/-- The automaton state after a token. -/
def stepAuto (r : Req) (st t : Nat) : Nat :=
  match r.auto with
  | some a => autoStep a (eosOf r.params) st t
  | none => st

/-- A candidate node of a step's tree: index, parent, token, automaton state after it (R236). -/
structure Cand where
  idx : Nat
  parent : Nat
  tok : Nat
  st : Nat
  deriving DecidableEq, Repr

/-- The nodes left by the depth limit and the automaton, descendants of a removed node removed (R236, R237). -/
def candNodes (s : State) (r : Req) (u : WorkUnit) (t0 : Nat) : List Cand :=
  let top (d : Nat) : List (Nat × F32) :=
    sortDesc ((List.range (manVocab (manOf s r.bench))).map (fun t => (t, logitOf s r.bench u.run r.carried d t)))
  (List.range (fieldOf r.params 247 240)).foldl (fun l k =>
    let i := k + 1
    let (par, rank, _) := treeNode r.params i
    let d := treeDepth r.params 33 i
    let base := if par = 0 then some (stepAuto r r.autoState t0) else (l.find? (fun c => c.idx == par)).map (·.st)
    match base with
    | none => l
    | some st =>
      let t := (((top d)[rank]?).map (·.1)).getD 0
      let fine : Bool := match r.auto with
        | some a => autoAllows a (eosOf r.params) st t
        | none => true
      if decide (d ≤ u.depth) && fine then l ++ [{ idx := i, parent := par, tok := t, st := stepAuto r st t }] else l) []

/-- The row of a tree node in its step: the committed token's is 0, then the planned nodes in order of index (R182,
R237). -/
def nodeRow (r : Req) (u : WorkUnit) (i : Nat) : Nat :=
  1 + ((List.range (i - 1)).filter (fun k => decide (treeDepth r.params 33 (k + 1) ≤ u.depth))).length

/-- Verification from node x on (R239), at most `fuel` deep: the nodes accepted. -/
def verify (s : State) (r : Req) (u : WorkUnit) (nodes : List Cand) : Nat → Nat → List Nat → Nat → List Cand
  | 0, _, _, _ => []
  | fuel + 1, x, hist, st =>
    match nodes.filter (fun c => c.parent == x) with
    | [] => []
    | kids =>
      let t := chooseAt s r hist st u.run (16 + x)
      match kids.find? (fun c => c.tok == t) with
      | some c => c :: verify s r u nodes fuel c.idx (hist ++ [t]) c.st
      | none => []

/-- The rows a step appends: the committed token's, then the accepted nodes', each with the node whose row chose it
(R166, R176). -/
def pathRows (r : Req) (u : WorkUnit) : Nat → List Cand → List NewRow
  | _, [] => []
  | par, c :: l => { row := nodeRow r u c.idx, head := r.carried, code := 16 + par } :: pathRows r u c.idx l

/-- A token is the request's final one, given the answers committed before it (R232). -/
def isFinalTok (r : Req) (before t : Nat) : Bool :=
  eosOf r.params == some t || (stopsOf r.params).contains t || decide (r.maxNew ≤ before + 1)

/-- The path up to its first final token (R240), and whether there is one. -/
def cutPath (r : Req) : Nat → List Nat → List Nat × Bool
  | _, [] => ([], false)
  | before, t :: l =>
    if isFinalTok r before t then ([t], true)
    else
      let (x, f) := cutPath r (before + 1) l
      (t :: x, f)

/-! ## Probes (R105, R106) -/

/-- Probing is on for a bench (R106). -/
def probing (s : State) (b : Nat) : Bool := bnF s b 0x090 1 0 == 1 || bnF s b 0x090 1 0 == 2

/-- The tensor entry of a layer's attention output projection: the layer's own name for one of those whose input is
q_heads × head_dim wide (R105; log entry 139). -/
def projTensor (p : Package) (l : Nat) : Nat :=
  let fit := (List.range p.tensors.length).filter (fun i =>
    let t := p.tensors.getD i 0
    tKind t == 0 && tLayer t == l && tIn t == manQ p.manifest * manDim p.manifest)
  fit.getD (Config.projection l % max 1 fit.length) p.tensors.length

/-- Sizes of the groups a probing step writes, for a sequence of `len` attended positions (R106). An attended
position's key operand, value operand and score are groups of their own (DESIGN CHOICE, log entry 139). -/
def probeSizes (s : State) (b len : Nat) : List Nat :=
  let m := manOf s b
  let d := manDim m
  if bnF s b 0x090 1 0 = 1 then
    let outs := ((bench s b).pkg.map (fun p => tOut (p.tensors.getD (projTensor p (bnF s b 0x090 15 8)) 0))).getD 0
    [manQ m * d, manQ m * d * outs, outs]
  else d :: ((List.range len).flatMap (fun _ => [d, d, 1]) ++ [d])

/-- Records a probing step takes at most. -/
def probeCount (s : State) (b len : Nat) : Nat := (probeSizes s b len).foldl (fun a k => a + ceilDiv k 3) 0

/-- An integer operand as an exactly equal FP32 value (R106). -/
def probeInts (l : List Int) : List F32 := l.map fofInt

/-- The groups a probing step writes, its row at position `pos` appended already (R106): operands and results as the
engines and cells form them. Of attended positions those held here are listed (DESIGN CHOICE, log entry 139). -/
def probeGroups (s : State) (u : WorkUnit) (c : Conv) (pos : Nat) : List (List F32) :=
  match (bench s u.bench).pkg with
  | none => []
  | some p =>
    let l := bnF s u.bench 0x090 15 8
    if bnF s u.bench 0x090 1 0 = 1 then
      let i := projTensor p l
      let t := p.tensors.getD i 0
      let a := (actOps p u.run pos 0 i).1
      [probeInts a, probeInts ((List.range (tOut t)).flatMap (weightOps p t)), (List.range (tOut t)).map (denseOut p t a)]
    else
      let h := bnF s u.bench 0x090 23 16
      let q := (queryOps p u.run pos l h).1
      let sq := queryScale p l h
      let sk := kvScale p l (h / max 1 (headGroup p)) false
      probeInts q ::
        ((localRows s p c u.lacked l h (pos + 1)).flatMap (fun r =>
          [probeInts r.key, probeInts r.value, [scaleSum (acc48 q r.key) sq sk]]) ++
        [(mergedRow s p c u.lacked (farParts s u (manQ p.manifest) 0) u.run pos pos l h).out])

/-- The records of a group: three values each, the last padded with zeros. -/
def probeRecs (vals : List F32) : List (List F32) :=
  (List.range (ceilDiv vals.length 3)).map (fun i => (List.range 3).map (fun j => vals.getD (3 * i + j) 0))

/-- What a committed step hands to step 3. -/
structure StepDone where
  req : Nat
  bench : Nat
  first : Nat
  toks : List Nat
  final : Bool
  gap : Nat
  recovered : Option Nat
  probe : List (List F32)
  deriving DecidableEq, Repr

/-- A token step commits at step 2 of commit n (R166, R200, R239). -/
def commitStep (s : State) (u : WorkUnit) (gap n : Nat) : State × List StepDone :=
  match req s u.req, conv s u.conv with
  | some r, some c =>
    let hist := c.log.map (·.tok)
    let t0 := chooseAt s r hist r.autoState u.run 0
    let nodes := candNodes s r u t0
    let path := verify s r u nodes u.depth 0 (hist ++ [t0]) (stepAuto r r.autoState t0)
    let (toks, final) := cutPath r r.answers (t0 :: path.map (·.tok))
    let rows := ({ row := 0, head := r.carried, code := 0 } :: pathRows r u 0 path).take toks.length
    let s1 := addTokens s u.conv r.key (toks.map (fun t => ⟨t, true⟩))
    let s2 := appendRun s1 u c.length rows (decide (0 < gap)) n
    let s3 := modReq s2 r.key (fun x => { x with
      answers := x.answers + toks.length, autoState := toks.foldl (stepAuto r) x.autoState, carried := u.run,
      recovered := none })
    let s4 := count (count (count s3 (bn u.bench 0x4E8) nodes.length) (bn u.bench 0x4F0) (toks.length - 1)) (bn u.bench 0x4D8) 1
    let s5 := if gap = 0 then s4 else count s4 (bn u.bench 0x4B0) 1
    let s6 := setBench s5 u.bench (fun b => { b with progress := b.progress + 1 })
    let probe := if probing s u.bench then ((conv s6 u.conv).map (fun c' => probeGroups s6 u c' c.length)).getD [] else []
    (countClamps (pagesRead s6 u.conv n) u c.length,
     [{ req := r.key, bench := u.bench, first := c.length, toks := toks, final := final, gap := gap,
        recovered := r.recovered, probe := probe }])
  | _, _ => (s, [])

/-! ## Chunks (R163, R205) -/

/-- The state after the last chunk: none stands for the handoff under dest_set (R205). -/
def afterLast (s : State) (r : Req) (st : ReqState) : Option ReqState :=
  match st with
  | .prefill => if 0 < r.inputLeft then some .prefill else if r.dest.isSome then none else some .generating
  | .rebuilding =>
    if 0 < r.rebuildLeft then some .rebuilding
    else if 0 < r.inputLeft then some .prefill
    else if role s r.bench = 0 ∧ r.dest.isSome then none
    else some .generating
  | x => some x

/-- A request with no chunk left moves on; its handoff waits while a park of the same commit stands, and a striped
conversation moves to no other module (R82). -/
def advance (s : State) (k : Nat) : State :=
  match req s k with
  | none => s
  | some r =>
    if r.state = .hauling then putReq s { r with left := (afterLast s r r.left).getD r.left }
    else match afterLast s r r.state, r.dest with
      | some st, _ => if st = r.state then s else putReq s { r with state := st }
      | none, some (m, b) =>
        if (frozenFor s r.conv).isSome || (match conv s r.conv with | some c => c.stripe.isSome | none => false) ||
            s.work.parks.any (fun p => p.conv == r.conv) then s
        else
          let id := s.haul.nextId
          sendOffer (startHaul s r.conv .handoff m b true false false none) id
      | none, none => s

/-- A chunk commits at step 2 of commit n. -/
def commitChunk (s : State) (u : WorkUnit) (gap n : Nat) : State :=
  match conv s u.conv with
  | none => s
  | some c =>
    let rows := (List.range u.len).map (fun i => ({ row := i, head := c.length + i, code := 0 } : NewRow))
    let s1 := appendRun s u c.length rows (decide (0 < gap)) n
    let s2 := modReq s1 u.req (fun x => { x with
      carried := u.run
      inputLeft := if u.rebuild then x.inputLeft else x.inputLeft - u.len
      rebuildLeft := if u.rebuild then x.rebuildLeft - u.len else x.rebuildLeft })
    let s3 := if u.rebuild then
        setBench (countHalf s2 (bn u.bench 0x4C0) true 1) u.bench (fun b => { b with recovery := b.recovery + 1 })
      else
        setMeter (setBench (count s2 (bn u.bench 0x4D8) 1) u.bench (fun b => { b with progress := b.progress + 1 })) u.bench
          (fun m => { m with prefill := m.prefill + u.len })
    let s4 := if gap = 0 then s3 else count s3 (bn u.bench 0x4B0) 1
    advance (countClamps (pagesRead s4 u.conv n) u c.length) u.req

/-- One unit at step 2 of commit n, after the steps already committed. -/
def commitUnit (n : Nat) (a : State × List StepDone) (u : WorkUnit) : State × List StepDone :=
  let (s, l) := a
  match u.cls with
  | .search => a
  | .merge =>
    if u.dropped then a
    else match tget s.shards u.req with
      | some x => ({ s with shards := tput s.shards u.req { x with round := x.round.map (fun r => (r.1, r.2.1 + 1, r.2.2)) } }, l)
      | none => a
  | .step =>
    match unitEnd s u with
    | .excluded => a
    | .again => (unitAgain s u, l)
    | .fromGroup g policy =>
      let s1 := if policy then count s (bn u.bench 0x4A8) 1 else s
      (recover (unitAgain s1 u) u.req g n, l)
    | .commits gap =>
      let (s1, d) := commitStep s u gap n
      (s1, l ++ d)
  | .chunk =>
    match unitEnd s u with
    | .excluded => a
    | .again => (unitAgain s u, l)
    | .fromGroup g policy =>
      let s1 := if policy then count s (bn u.bench 0x4A8) 1 else s
      (recover (unitAgain s1 u) u.req g n, l)
    | .commits gap => (commitChunk s u gap n, l)

/-- The rows a pending area holds: those of the candidates of a step while it runs, none at the end of a commit (R165,
R166). -/
def pendRows (s : State) (rows : WorkUnit → Nat) : State :=
  let held (k : Nat) : Nat := (s.plan.units.filter (fun u => u.cls == .step && u.conv == k)).foldl (fun a u => a + rows u) 0
  { s with work := { s.work with convs := s.work.convs.map (fun c =>
    (c.1, { c.2 with pend := c.2.pend.map (fun p => { p with rows := held c.1 }) })) } }

/-- The units of the plan at step 2 of commit n, and the steps that step 3 streams. -/
def commitUnits (s : State) (n : Nat) : State × List StepDone :=
  let a := s.plan.units.foldl (commitUnit n) (s, [])
  let s1 := pendRows a.1 (fun _ => 0)
  ({ s1 with plan := { s1.plan with units := [], spans := [] } }, a.2)

/-! ## Step 3 (R106, R244 to R247, R250) -/

/-- One probe record on the request's ring. -/
def putProbe (s : State) (k n : Nat) (vals : List F32) : State :=
  match bindOf s k with
  | none => s
  | some b =>
    let s1 := emitTo s (driver s b.bench) (.probe b.ringAddr b.producer (phaseOf b.producer (2 ^ b.log2)) vals (n % 2 ^ 15))
    { s1 with work := { s1.work with binds := tput s1.work.binds k { b with producer := (b.producer + 1) % 2 ^ 32 } } }

/-- The token records of a step (R245, R246). -/
def stepRecs (d : StepDone) (n : Nat) : List TokRec :=
  let (st, detail) := match d.recovered with
    | some p => (Status.rebuilt, p)
    | none => if 0 < d.gap then (Status.pageMissing, d.gap) else (Status.ok, 0)
  d.toks.zipIdx.map (fun x =>
    { position := d.first + x.2, detail := detail, token := x.1, status := st, stepIndex := x.2,
      final := d.final && x.2 + 1 == d.toks.length, valid := true, tickLo := n % 2 ^ 15 })

/-- The records of a committed step written, or kept with its request where no binding is left (R247). -/
def streamStep (s : State) (d : StepDone) (n : Nat) : State :=
  let recs := stepRecs d n
  if probing s d.bench then
    let ps := d.probe.flatMap probeRecs
    if (bindOf s d.req).isSome then ps.foldl (fun s v => putProbe s d.req n v) s
    else count s (bn d.bench 0x4F8) ps.length
  else if (bindOf s d.req).isSome then recs.foldl (fun s t => putToken s d.req t) s
  else modReq s d.req (fun r => { r with waitTok := r.waitTok ++ recs })

/-- Step 3 for one committed step: charged, metered, streamed, and its request ended by its final token (R232, R250).
-/
def finishStep (n : Nat) (s : State) (d : StepDone) : State :=
  match req s d.req with
  | none => s
  | some r =>
    let m := d.toks.length
    let s1 := setMeter (chargeTally s d.bench r.params m true) d.bench (fun o => { o with gen := o.gen + m })
    let s2 := streamStep s1 d n
    if d.final then
      let s3 := endReq s2 d.req .ok n true
      match probing s d.bench, (stepRecs d n).getLast? with
      | true, some t => { s3 with work := { s3.work with
          finalDue := s3.work.finalDue ++ [{ req := d.req, bench := d.bench, tok := t }] } }
      | _, _ => s3
    else s2

/-- Charges of chunks dropped at the cut-off come back ahead of the refill (R250). -/
def returnCharges (s : State) : State :=
  s.plan.returns.foldl (fun s x => returnTally s x.1 x.2) { s with plan := { s.plan with returns := [] } }

/-- The windows that start at tick k refill their tallies (R249). -/
def refills (s : State) (k : Nat) : State := s.work.tallies.foldl (fun s x => refillTally s x.1 k) s

/-- Requests whose sequence can take no further position end (R152). -/
def endFull (s : State) (n : Nat) : State :=
  (s.work.reqs.filter (fun r => (r.2.state == .generating || r.2.state == .tallyWait) &&
    (match conv s r.2.conv with | some c => decide (1048576 ≤ c.log.length) && c.frozen.isNone | none => false))).foldl
    (fun s r => endReq s r.1 .noCapacity n false) s

end Sys2Proof.Machine
end

