-- ==== Sys2Proof/Machine/Expanders.lean ====
section
/-! DEFINITION. The blocks each port's expander takes in a tick, and what they count (R114, R115, R132, R135, R140),
and the items of shadow samples (R145, R146, R149). -/

namespace Sys2Proof.Machine

/-! ## Runs of a port (R114, R115) -/

/-- A block of a run: its expansion time, the array cycles that consume it, and whether it is LOWRANK. -/
structure RunBlock where
  x : Nat
  m : Nat
  low : Bool
  deriving DecidableEq, Repr

/-- A run in progress: when the expander and the array are done, the ends of the last blocks consumed, newest first,
and the stall cycles so far. -/
structure RunClock where
  ready : Nat := 0
  done : Nat := 0
  ends : List Nat := []
  stall : Nat := 0
  deriving DecidableEq, Repr

/-- The next block of a run: its expansion starts once the queue of 32 has a place, its array time once it is ready; a
wait of the array is a stall, but for the first block's, which is fill (R114, R115). -/
def runBlock (c : RunClock) (b : RunBlock) : RunClock :=
  let free := (c.ends[31]?).getD 0
  let ready := max c.ready free + b.x + (if c.ends.isEmpty then 8 else 0)
  let done := max ready c.done + b.m
  { ready := ready, done := done, ends := (done :: c.ends).take 32,
    stall := c.stall + (if c.ends.isEmpty then 0 else ready - c.done) }

/-- Stall and fill cycles of a run; its head runs and passes follow each other without a gap (DESIGN CHOICE, log entry
140). -/
def runCounts (l : List RunBlock) : Nat × Nat :=
  ((l.foldl runBlock {}).stall, match l with | b :: _ => 8 + b.x | [] => 0)

/-- Array cycles of a cell for a block's rows against r query rows (R135): a VALUE block takes three limb passes
(R99). -/
def cellArray (p : Package) (b : Block) (r : Nat) : Nat :=
  let wide := (p.kvBooks.getD b.cbIndex default).width == 12
  let n := ceilDiv (r * b.rows * b.cols * (if wide then 2 else 1)) 128
  if b.kind = 1 then 3 * n else n

/-- A block of a page in a head run. -/
def cellBlock (p : Package) (b : Block) (r : Nat) : RunBlock :=
  { x := cellX (b.mode == 0) b.rows b.cols b.rank, m := cellArray p b r, low := b.mode == 1 }

/-- The blocks of one head of a unit, row set by row set: the maximum sweep over the KEY blocks, then KEY and VALUE of
each page (R140). -/
def headRun (s : State) (p : Package) (u : WorkUnit) (l h : Nat) : List RunBlock :=
  let set := max 1 (rowsSet (manDim p.manifest) (kvWide p))
  let rows := headGroup p * unitRows s u
  let es := ((conv s u.conv).map (fun c => c.entries.filter (fun e =>
    e.layer == l && e.head == h && e.state != .replica && isLocal s e && !u.lacked.contains (entryPage e u.conv)))).getD []
  (List.range (ceilDiv rows set)).flatMap (fun j =>
    let r := passRows rows set j
    es.map (fun e => cellBlock p e.key r) ++ es.flatMap (fun e => [cellBlock p e.key r, cellBlock p e.value r]))

/-- The head runs of a bench's plan on one cell, in plan order (R115, R142). -/
def cellRun (s : State) (b : Nat) (p : Package) (cell : Nat) : List RunBlock :=
  let kv := manKv p.manifest
  (s.plan.units.filter (fun u => u.bench == b)).flatMap (fun u =>
    u.cells.zipIdx.flatMap (fun x => if x.1 = cell then headRun s p u (x.2 / max 1 kv) (x.2 % max 1 kv) else []))

/-- Layer tensors in the order a pass computes them (R525). -/
def layerTensors (p : Package) : List (Nat × BitVec 256) := (p.tensors.zipIdx.filter (fun t => tKind t.1 == 0)).map (fun t => (t.2, t.1))

/-- The tiles that a bench's passes bring to one engine, pass by pass (R134, R139). -/
def engineRun (s : State) (b : Nat) (p : Package) (e : Nat) : List RunBlock :=
  let n := benchRows s b
  let r := max 1 (rowsPass p)
  (List.range (ceilDiv n r)).flatMap (fun k => (layerTensors p).flatMap (fun t =>
    (List.range (tGroups t.2)).flatMap (fun g =>
      if engineOf s b g = some e then
        (groupTiles p t.2 g).map (fun x =>
          { x := engX x, m := passRows n r k * (if (p.books.getD x.cbIndex default).width = 12 then 2 else 1), low := x.mode == 1 })
      else [])))

/-- Every run of a bench's plan. -/
def benchRuns (s : State) (b : Nat) : List (List RunBlock) :=
  match (bench s b).pkg with
  | none => []
  | some p => (cellsOf s b).map (cellRun s b p) ++ (enginesOf s b).map (engineRun s b p)

/-- Expander counts of a bench's plan: stall, fill, LOWRANK and RAW blocks (R115). -/
def countRuns (s : State) (b : Nat) : State :=
  let runs := benchRuns s b
  let counts := runs.map runCounts
  let all := runs.flatten
  let low := (all.filter (·.low)).length
  count (count (count (count s (bn b 0x400) (counts.map (·.1)).sum) (bn b 0x408) (counts.map (·.2)).sum) (bn b 0x410) low)
    (bn b 0x418) (all.length - low)

/-- Expander counts of the benches whose plan ran, updated at the commit (R115). -/
def expanderCounts (s : State) (benches : List Nat) : State := benches.foldl countRuns s

/-! ## Shadow samples (R145, R146, R149) -/

/-- `RL_SHADOW_CTRL` rate_log2 (R145). -/
def sampleRate (s : State) : Nat := regF s 0x70000 12 8

/-- An item is chosen (R145). -/
def isSampled (s : State) (code : Nat) : Bool := Config.sampled (sampleRate s) s.fresh code

/-- The units whose rows a pass holds. -/
def passUnits (s : State) (b r k : Nat) : List WorkUnit :=
  s.plan.units.filter (fun x => x.bench == b && (x.cls == .step || x.cls == .chunk) && inPass s x r k)

/-- The input rows of a tensor in a pass, each the operands of a position of its unit (R95, R139). -/
def passInputs (s : State) (p : Package) (b r k i : Nat) : List (List Int) :=
  (passUnits s b r k).flatMap (fun u =>
    let first := ((conv s u.conv).map (·.length)).getD 0
    let at_ := firstRow s u
    (List.range (unitRows s u)).filterMap (fun j =>
      if k * r ≤ at_ + j ∧ at_ + j < (k + 1) * r then some (actOps p u.run (first + j) 0 i).1 else none))

/-- An output-channel group of a layer pass taken as a sample: the group's expanded tiles and the pass's input rows,
with the integer sums its engine formed (R145). -/
def engineItem (s : State) (b : Nat) (p : Package) (r k i : Nat) (t : BitVec 256) (g : Nat) : State :=
  match engineOf s b g with
  | none => s
  | some e =>
    let rows := passInputs s p b r k i
    let chans := (List.range (min 128 (tOut t - 128 * g))).map (128 * g + ·)
    putItem s {
      bench := b, unit := ⟨.engine, e⟩, reqs := (passUnits s b r k).map (·.req), layer := tLayer t, index := i, part := g,
      tiles := (groupTiles p t g).map (fun x => (expand (p.books.getD x.cbIndex default) x).1), rows := rows,
      kept := .sums (chans.flatMap (fun c => rows.map (fun a => denseSum p t a c))) }

/-- A row set of a head run taken as a sample: the run's query rows and page list, with the partials its cell formed
(R145). -/
def cellItem (s : State) (u : WorkUnit) (p : Package) (c : Conv) (l h set j cell : Nat) : State :=
  let g := headGroup p
  let picks := (((List.range (unitRows s u)).flatMap (fun i => (List.range g).map (fun x => (i, g * h + x)))).drop (j * set)).take set
  let es := c.entries.filter (fun e => e.layer == l && e.head == h && e.state != .replica && isLocal s e &&
    !u.lacked.contains (entryPage e u.conv))
  let at_ (i : Nat) : Nat := c.length + i
  putItem s {
    bench := u.bench, unit := ⟨.cell, cell⟩, reqs := [u.req], layer := l, index := h, part := j,
    rows := picks.map (fun x => (queryOps p u.run (at_ x.1) l x.2).1), pages := es.map (fun e => entryPage e u.conv),
    kept := .records (picks.map (fun x => (localPartial s p c u.lacked u.run (at_ x.1) (at_ x.1) l x.2, []))) }

/-- The engine items of a bench's passes, each chosen or not (R145). -/
def sampleEngines (s : State) (b : Nat) : State :=
  match (bench s b).pkg with
  | none => s
  | some p =>
    let r := max 1 (rowsPass p)
    (List.range (ceilDiv (benchRows s b) r)).foldl (fun s k => (layerTensors p).foldl (fun s t =>
      (List.range (tGroups t.2)).foldl (fun s g =>
        let s1 := s.bump
        if isSampled s (((16 * k + b) * 2 ^ 16 + t.1) * 2 ^ 16 + g) then engineItem s1 b p r k t.1 t.2 g else s1) s) s) s

/-- The cell items of a unit's head runs, each chosen or not (R145). -/
def sampleUnit (s : State) (u : WorkUnit) : State :=
  match (bench s u.bench).pkg, conv s u.conv with
  | some p, some c =>
    if !(u.cls == .step || u.cls == .chunk) || u.dropped then s
    else
      let kv := max 1 (manKv p.manifest)
      let set := max 1 (rowsSet (manDim p.manifest) (kvWide p))
      u.cells.zipIdx.foldl (fun s x =>
        (List.range (ceilDiv (headGroup p * unitRows s u) set)).foldl (fun s j =>
          let s1 := s.bump
          if isSampled s ((2 ^ 20 + u.run) * 2 ^ 20 + x.2 * 2 ^ 8 + j) then cellItem s1 u p c (x.2 / kv) (x.2 % kv) set j x.1
          else s1) s) s
  | _, _ => s

/-- The samples of the tick that starts; none while coasting (R403; log entry 95). -/
def startItems (s : State) : State :=
  if s.plan.byFw && regF s 0x70000 0 0 == 1 then s.plan.units.foldl sampleUnit ((List.range 16).foldl sampleEngines s) else s

end Sys2Proof.Machine
end

