-- ==== Sys2Proof/Machine/Models.lean ====
section
/-! DEFINITION. Bench records, model packages and the life of a model on a bench (R58 to R79, R88 to R93, R98, R117,
R125, R133 to R144, R228, R233, R449, R455, R524 to R527). -/

namespace Sys2Proof.Machine

/-! ## The package (R75 to R78, R88, R125, R228, R524, R525) -/

/-- Manifest field widths, magic and version (R75). -/
def manifestOk (p : Package) (len : Nat) : Bool :=
  let m := p.manifest
  fieldOf m 31 0 == 0x4B505952 && fieldOf m 47 32 == 1 && fieldOf m 63 48 == p.dir.length && decide (1 ≤ p.dir.length) &&
    decide (p.dir.length ≤ 64) && fieldOf m 127 64 == len && zeroAt m 1023 736 && zeroAt m 575 568 &&
    decide (fieldOf m 567 560 ≤ 1) && (fieldOf m 559 552 == 4 || fieldOf m 559 552 == 8) && decide (manExtra m ≤ 4) &&
    decide (fieldOf m 735 704 ≤ 1750)

/-- Shape within the module's limits (R76, R98). -/
def shapeOk (p : Package) : Bool :=
  let m := p.manifest
  decide (1 ≤ manLayers m) && decide (manLayers m ≤ 255) && decide (1 ≤ manKv m) && decide (manKv m ≤ 255) &&
    decide (manKv m ≤ manQ m) && decide (manQ m ≤ 255) && manQ m % manKv m == 0 && decide (1 ≤ manDim m) &&
    decide (manDim m ≤ 256) && decide (kMax p ≤ 65536)

/-- The sections of a type in a directory. -/
def sectionsOf (p : Package) (t : Nat) : List (BitVec 512) := p.dir.filter (fun d => fieldOf d 15 0 == t)

/-- The directory (R77): known types, aligned and within the package, each required type once. -/
def dirOk (p : Package) (len : Nat) : Bool :=
  p.dir.all (fun d =>
    zeroAt d 511 448 && zeroAt d 63 32 && zeroAt d 31 16 && decide (1 ≤ fieldOf d 15 0) && decide (fieldOf d 15 0 ≤ 7) &&
      fieldOf d 127 64 % 4096 == 0 && decide (fieldOf d 127 64 + fieldOf d 191 128 ≤ len)) &&
    (List.range 6).all (fun i => (sectionsOf p (i + 1)).length == 1) && decide ((sectionsOf p 7).length ≤ 1) &&
    (sectionsOf p 7).all (fun d => fieldOf d 191 128 == 1952 + 3309) &&
    (sectionsOf p 5).all (fun d => fieldOf d 191 128 == 32 + 128 * manLayers p.manifest)

/-- Codebooks of a list valid at their positions (R88, R89). -/
def booksOk (bs : List Codebook) : Bool := bs.zipIdx.all (fun x => bookOk x.2 x.1)

/-- KV_CALIB (R91, R93, R125). -/
def calibOk (p : Package) : Bool :=
  let h := p.kvHdr
  let n := 2 * manLayers p.manifest * manKv p.manifest
  let theta := fieldOf h 191 160
  fieldOf h 15 0 == 0x4B43 && zeroAt h 31 16 && zeroAt h 151 128 && zeroAt h 255 192 && fieldOf h 63 32 == n &&
    p.kvBooks.length == n && p.kvScales.length == n && fieldOf h 95 64 % 16 == 0 && fieldOf h 127 96 % 16 == 0 &&
    decide (1 ≤ kvMaxRank p) && decide (kvMaxRank p ≤ 40) &&
    (let x : F32 := BitVec.ofNat 32 theta
     !fspecial x && decide (pow2 (-16) ≤ fval x) && decide (fval x ≤ 1 / 2)) &&
    booksOk p.kvBooks && p.kvBooks.all (fun c => some c.count == p.kvBooks.head?.map (·.count)) && p.kvScales.all scaleOk

/-- A tensor entry's fields (R525). -/
def tensorOk (p : Package) (t : BitVec 256) : Bool :=
  let kind := fieldOf t 15 8
  let head := fieldOf t 23 16
  let layer := fieldOf t 7 0
  zeroAt t 63 24 && decide (kind ≤ 2) &&
    fieldOf t 127 96 == ceilDiv (fieldOf t 191 160) 128 * ceilDiv (fieldOf t 159 128) 128 &&
    (if kind = 2 then decide (1 ≤ head) && decide (head ≤ manExtra p.manifest) else head == 0) &&
    (if kind = 0 then decide (layer < manLayers p.manifest) else layer == 0) &&
    scaleOk (BitVec.ofNat 32 (fieldOf t 255 224)) &&
    decide (fieldOf t 223 192 + fieldOf t 191 160 ≤ fieldOf p.scalesHdr 191 160)

/-- Tensor entries that cover tiles from a number on once, in order; the number after the last. -/
def coverTiles : List (BitVec 256) → Nat → Option Nat
  | [], n => some n
  | t :: ts, n => if fieldOf t 95 64 = n then coverTiles ts (n + fieldOf t 127 96) else none

/-- Layers of kind-0 entries never fall. -/
def layersRise : List Nat → Bool
  | a :: b :: r => decide (a ≤ b) && layersRise (b :: r)
  | _ => true

/-- SCALES (R525). -/
def scalesOk (p : Package) : Bool :=
  let h := p.scalesHdr
  let m := p.manifest
  let k0 := p.tensors.filter (fun t => fieldOf t 15 8 == 0)
  let kh := p.tensors.drop k0.length
  fieldOf h 15 0 == 0x5343 && fieldOf h 31 16 == 1 && zeroAt h 95 32 && fieldOf h 127 96 == 32 &&
    decide (32 + 32 * fieldOf h 159 128 ≤ fieldOf h 223 192) &&
    decide (fieldOf h 223 192 + 4 * fieldOf h 191 160 ≤ fieldOf h 255 224) &&
    fieldOf h 159 128 == p.tensors.length && decide (1 ≤ p.tensors.length) &&
    fieldOf h 191 160 == p.tensors.foldl (fun a t => a + fieldOf t 191 160) 0 && fieldOf h 223 192 % 16 == 0 &&
    fieldOf h 255 224 % 16 == 0 && p.scales.length == fieldOf h 191 160 + manLayers m * manQ m &&
    p.scales.all scaleOk && p.tensors.all (tensorOk p) &&
    (sectionsOf p 3).all (fun d => fieldOf d 191 128 == fieldOf h 255 224 + 4 * manLayers m * manQ m) &&
    p.tensors.take k0.length == k0 && layersRise (k0.map (fun t => fieldOf t 7 0)) &&
    coverTiles k0 0 == some (p.tiles.length) && kh.length == 1 + manExtra m &&
    kh.zipIdx.all (fun x => if x.2 = 0 then fieldOf x.1 15 8 == 1 else fieldOf x.1 15 8 == 2 && fieldOf x.1 23 16 == x.2) &&
    coverTiles kh 0 == some (p.headTiles.length)

/-- COST_TABLES (R524). -/
def costsOk (p : Package) : Bool :=
  let h := p.costHdr
  fieldOf h 15 0 == 0x4354 && fieldOf h 31 16 == 1 && zeroAt h 63 32 && fieldOf h 95 64 == 128 &&
    fieldOf h 111 96 == manLayers p.manifest && zeroAt h 119 112 && fieldOf h 127 120 == 5 && zeroAt h 255 192 &&
    (manExtra p.manifest != 0 || fieldOf h 191 160 == 0) && p.costs.length == manLayers p.manifest &&
    p.costs.all (fun e => zeroAt e 1023 896 && zeroAt e 383 352)

/-- HEADS (R228). -/
def headsOk (p : Package) : Bool :=
  let h := p.headsHdr
  fieldOf h 15 0 == 0x4844 && fieldOf h 31 16 == 1 && fieldOf h 39 32 == manExtra p.manifest && zeroAt h 63 40 &&
    zeroAt h 255 128 && (manExtra p.manifest != 0 || fieldOf h 127 96 == 0) &&
    p.headTiles.length == fieldOf h 95 64 + manExtra p.manifest * fieldOf h 127 96

/-- What laying out one tile finds (R72 step 5): no codebook for its codes (none within), or a rejected block. -/
def tileCheck (p : Package) (x : Block × Nat) : Option (Option Nat) :=
  if !tileBookOk p x.1 then some none else (tileFault p x.2 x.1).map some

/-- The first tile that cannot be laid out. -/
def layoutFault (p : Package) : Option (Option Nat) :=
  (p.tiles.zipIdx ++ p.headTiles.zipIdx).findSome? (tileCheck p)

/-! ## Cost floors (R117, R133, R136, R144, R233) -/

/-- Header and payload of a tile in bytes. -/
def tileBytes (t : Block) : Nat := 32 + payloadLen t.mode t.rows t.cols t.rank t.codeBits

/-- Cell groups and engines of a bench on each compute tile. -/
def tileGroups (s : State) (b : Nat) (t : Nat) : Nat := (setBits (fieldOf (bench s b).record 127 64 / 2 ^ (8 * t) % 256) 8).length
def tileEngines (s : State) (b : Nat) (t : Nat) : Nat := (setBits (fieldOf (bench s b).record 191 128 / 2 ^ (8 * t) % 256) 8).length

/-- Read time of a tile in cycles (R138): the largest over the bench's tiles. -/
def readCycles (s : State) (b : Nat) (f : Nat) (t : Block) : Nat :=
  ((List.range 8).filter (fun i => decide (0 < tileGroups s b i))).foldl (fun a i =>
    max a (ceilDiv (tileBytes t * f * tileEngines s b i) (75000 * 64 * tileGroups s b i))) 0

/-- Array cycles per row: 2 for int12 entries (R138). -/
def tileWidth (p : Package) (t : Block) : Nat := if (p.books[t.cbIndex]?.map (·.width)) = some 12 then 2 else 1

/-- The tiles of a layer's own tensors (R525). -/
def ownTiles (p : Package) (l : Nat) : List Block :=
  (p.tensors.filter (fun t => fieldOf t 15 8 == 0 && fieldOf t 7 0 == l)).flatMap (fun t =>
    (p.tiles.drop (fieldOf t 95 64)).take (fieldOf t 127 96))

/-- The tiles of a layer; the head tiles count in the last (R227). -/
def layerTiles (p : Package) (l : Nat) : List Block :=
  ownTiles p l ++ (if l + 1 = manLayers p.manifest then p.headTiles else [])

/-- Floors of the cells (R117, R144). -/
def cellFloorsOk (p : Package) (f : Nat) : Bool :=
  let d := manDim p.manifest
  let g := headGroup p
  let rs := rowsSet d (kvWide p)
  let sets1 := ceilDiv g rs
  let r1 := ceilDiv g sets1
  let mk := ceilDiv (r1 * d * (if kvWide p then 2 else 1)) 2
  (List.range (manLayers p.manifest)).all (fun l => (List.range 5).all (fun c =>
    let x := xClass p c
    let rf := ceilDiv (3 * classBytes c * f) 25000
    decide (2 * x ≤ cellPage p l c) && decide (sets1 * max (2 * max x mk + max x (3 * mk)) rf ≤ cellPage p l c)))

/-- Floors of the engines (R117, R144). -/
def engineFloorsOk (s : State) (b : Nat) (p : Package) (f : Nat) : Bool :=
  (List.range (manLayers p.manifest)).all (fun l =>
    let ts := layerTiles p l
    let sum (k : Nat) : Nat := ts.foldl (fun a t =>
      a + max (max (readCycles s b f t) (engX t)) (k * tileWidth p t)) 0
    let xs := (ownTiles p l).foldl (fun a t => a + engX t) 0
    let dep := ts.foldl (fun a t => max a (readCycles s b f t + engX t)) 0
    [1, 2, 3, 4].all (fun k =>
      let c := layerCost p l (32 * k - 1) (32 * k - 32)
      decide (xs ≤ c) && decide (sum k ≤ c * k)) &&
    decide (sum (rowsPass p) ≤ layerCost p l 159 128 * rowsPass p) && decide (144 + dep ≤ layerCost p l 191 160))

/-- Floors of the token unit (R233). -/
def tokenFloorsOk (p : Package) : Bool :=
  let v := manVocab p.manifest
  let e := manExtra p.manifest
  let full := 2 * ceilDiv v 32 + 1232
  decide (full ≤ fieldOf p.costHdr 159 128) &&
    (e == 0 || decide (full + e * (ceilDiv v 32 + 64) + e * full ≤ fieldOf p.costHdr 191 160))

/-- Weights' room in face on each tile, at most 75 % (R72, R79). -/
def faceShareOk (s : State) (b : Nat) (p : Package) : Bool :=
  let n := recEngines (bench s b).record
  (List.range 8).all (fun t => decide (fieldOf p.manifest 639 576 * tileEngines s b t * 4 ≤ 3 * tileGroups s b t * 2 ^ 30 * n))

/-- f_plan within fmax of every compute tile of the bench (R455). -/
def clockOk (s : State) (b : Nat) (p : Package) : Bool :=
  (List.range 8).all (fun t =>
    (tileGroups s b t == 0 && tileEngines s b t == 0) || decide (fieldOf p.manifest 735 704 ≤ regF s (0x60080 + 8 * t) 10 0))

/-- LPDDR room for the backup copy, beside the pages and shards held, export regions and retired frames (R72, R277,
R323). -/
def backupOk (s : State) (b : Nat) (p : Package) : Bool :=
  decide (fieldOf p.manifest 703 640 + tierUsed s b .lpddr + exportBytes s b .lpddr +
    lostBytes s b .lpddr ≤ tierSlices s b .lpddr * (96 * 2 ^ 30))

/-- Room for the sections a CACHE bench takes (R72). -/
def cacheRoomOk (s : State) (b : Nat) (p : Package) : Bool :=
  hasSpace s b ((p.dir.filter (fun d => fieldOf d 15 0 == 4 || fieldOf d 15 0 == 5)).foldl (fun a d => a + fieldOf d 191 128) 0)

/-- What the load finds (R72): its status and LOAD cause, 0 standing for the signature. None where every check passes.
-/
def loadFailure (s : State) (b : Nat) (l : Load) (p : Package) : Option (Status × Nat) :=
  let cache := role s b == 2
  let f := fieldOf p.manifest 735 704
  if !manifestOk p l.length || !dirOk p l.length then some (.badDescriptor, 1)
  else if !shapeOk p then some (.badDescriptor, 2)
  else if !p.digestsOk || !p.fingerprintOk then some (.blockCorrupt, 4)
  else if !calibOk p || !costsOk p || (!cache && !(booksOk p.books && scalesOk p && headsOk p)) then some (.badDescriptor, 1)
  else if bnF s b 0xC0 0 0 = 1 ∧ !(p.sigOk && (match p.sigKeyHash with
      | some h => h.toNat == fieldOf (regVal s (bn b 0xC8)) 63 0 + 2 ^ 64 * fieldOf (regVal s (bn b 0xD0)) 63 0 +
          2 ^ 128 * fieldOf (regVal s (bn b 0xD8)) 63 0 + 2 ^ 192 * fieldOf (regVal s (bn b 0xE0)) 63 0
      | none => false)) then some (.badDescriptor, 0)
  else if cache then
    (if !cacheRoomOk s b p then some (.noCapacity, 6)
     else if rowsSet (manDim p.manifest) (kvWide p) = 0 ∨ 32 < headGroup p then some (.noCapacity, 2)
     else if !cellFloorsOk p f || !tokenFloorsOk p then some (.badDescriptor, 3) else none)
  else if !faceShareOk s b p || !backupOk s b p || !clockOk s b p then some (.noCapacity, 6)
  else if rowsPass p < 16 ∨ rowsSet (manDim p.manifest) (kvWide p) = 0 ∨ 32 < headGroup p then some (.noCapacity, 2)
  else if !cellFloorsOk p f || !engineFloorsOk s b p f || !tokenFloorsOk p then some (.badDescriptor, 3)
  else match layoutFault p with
    | some none => some (.badDescriptor, 1)
    | some (some _) => some (.blockCorrupt, 5)
    | none => none

/-- A tile rejected twice while it was laid out: both rejections counted and logged (R72, R118). -/
def tileRejects (s : State) (b : Nat) (p : Package) : State :=
  match (p.tiles.zipIdx ++ p.headTiles.zipIdx).find? (fun x => (tileCheck p x).isSome) with
  | some x =>
    match tileCheck p x with
    | some (some cause) => (List.range 2).foldl (fun s _ =>
        logErr (count s (bn b (0x418 + 8 * cause)) 1) .block (0x10 + cause) (b := b) (d0 := x.2)) s
    | _ => s
  | none => s

/-! ## The life of a model (R69 to R74, R527) -/

/-- The bench's meter record closes at this commit (R480). -/
def closeMeter (s : State) (b reason : Nat) : State :=
  { s with mgmt := { s.mgmt with closing := s.mgmt.closing ++ [(b, reason)] } }

/-- Requests live on a bench. -/
def liveOn (s : State) (b : Nat) : List Nat :=
  (s.work.reqs.filter (fun r => r.2.bench == b && reqLive r.2.state)).map (·.1)

/-- Every live request of a bench parked in place (R73). -/
def parkAll (s : State) (b : Nat) : State :=
  (liveOn s b).foldl (fun s k => match req s k with
    | some r => if r.state = .hauling then s else parkInPlace s r.conv
    | none => s) s

/-- Every live request of a bench ended (R73). -/
def endAll (s : State) (b n : Nat) : State := (liveOn s b).foldl (fun s k => endReq s k .benchHalted n false) s

/-- A bench becomes EMPTY, or LOADING if a replacing load waits; the unloads that wait complete (R69, R527). -/
def becomeEmpty (s : State) (b n : Nat) : State :=
  let x := bench s b
  let s1 := x.unloads.foldl (fun s c => due s c .ok x.modelTag n) s
  let s2 := setBench s1 b (fun x => { x with
    state := match x.replacing with | some _ => .loading | none => .empty
    modelTag := 0, pkg := none, load := x.replacing, replacing := none, unloads := [], drain := none, autos := [],
    weightBad := [], reloading := [] })
  closeMeter s2 b 2

/-- A sealed epoch that waits changes a bench's cell groups or block engines (R62). -/
def sealedMoves (s : State) (b : Nat) : Bool :=
  match s.fab.sealSet with
  | some (_, _, m) =>
    (match tget m.benches b with
     | some r => fieldOf r 191 64 != fieldOf (bench s b).record 191 64
     | none => true)
  | none => false

/-- Drain mode and ticks of a load or unload descriptor. -/
def drainOf (d : HostDesc) (n : Nat) : Drain :=
  let mode := fieldOf d.raw 10 9
  let ticks := fieldOf d.raw 271 256
  { mode := mode, limit := if mode = 0 then n + (if ticks = 0 then 3000 else ticks) else n + 1 }

/-- MODEL_LOAD at its commit (R62, R69 to R72). -/
def applyLoad (c : Cpl) (d : HostDesc) (n : Nat) (s : State) : State :=
  let r := d.raw
  let b := c.bench
  let tag := fieldOf r 255 192
  let l : Load := { cpl := c, modelTag := tag, length := fieldOf r 191 128 }
  let no (st : Status) : State := due s c st tag n
  if !zeroAt r 511 272 || !zeroAt r 31 20 || !zeroAt r 15 11 || fieldOf r 127 64 % 4096 != 0 || fieldOf r 10 9 == 3 ||
      (!bitOf r 8 && !(zeroAt r 10 9 && zeroAt r 271 256)) then no .badDescriptor
  else if !hasRecord s b then no .badDescriptor
  else if sealedMoves s b then no .epochStale
  else match (bench s b).state with
    | .empty => setBench s b (fun x => { x with state := .loading, load := some l })
    | .ready =>
      if bitOf r 8 then setBench s b (fun x => { x with state := .draining, replacing := some l, drain := some (drainOf d n) })
      else no .badDescriptor
    | _ => no .badDescriptor

/-- MODEL_UNLOAD at its commit (R71, R527). -/
def applyUnload (c : Cpl) (d : HostDesc) (n : Nat) (s : State) : State :=
  let r := d.raw
  let b := c.bench
  let x := bench s b
  let no (st : Status) : State := due s c st 0 n
  if !zeroAt r 511 272 || !zeroAt r 255 64 || !zeroAt r 31 20 || !zeroAt r 15 11 || bitOf r 8 || fieldOf r 10 9 == 3 then
    no .badDescriptor
  else if !hasRecord s b then no .badDescriptor
  else match x.state with
    | .empty => due s c .ok 0 n
    | .halted => no .benchHalted
    | .loading =>
      let tag := (x.load.map (·.modelTag)).getD 0
      let s1 := match x.load with
        | some l => due s l.cpl .cancelled l.modelTag n
        | none => s
      let s2 := logErr s1 .load 7 (b := b) (d0 := tag)
      closeMeter (due (setBench s2 b (fun x => { x with state := .empty, load := none })) c .ok tag n) b 2
    | .ready => setBench s b (fun x => { x with state := .draining, unloads := [c], drain := some (drainOf d n) })
    | _ =>
      let s1 := match x.replacing with
        | some l => due s l.cpl .cancelled l.modelTag n
        | none => s
      setBench s1 b (fun x => { x with replacing := none, unloads := x.unloads ++ [c] })

/-- The last load step at commit n (R69, R72). -/
def loadComplete (s : State) (b : Nat) (p : Package) (n : Nat) : State :=
  let x := bench s b
  match x.state, x.load with
  | .loading, some l =>
    (match loadFailure s b l p with
     | some (st, cause) =>
       let s0 := if cause = 5 then tileRejects s b p else s
       let s1 := setBench s0 b (fun x => { x with state := .empty, load := none })
       let s2 := if cause = 0 then logErr s1 .security 2 (b := b) (d0 := l.modelTag)
         else logErr s1 .load cause (b := b) (d0 := l.modelTag)
       closeMeter (due s2 l.cpl st l.modelTag n) b 2
     | none =>
       let s1 := setBench s b (fun x => { x with state := .ready, load := none, pkg := some p, modelTag := l.modelTag })
       closeMeter (due s1 l.cpl .ok l.modelTag n) b 2)
  | _, _ => s

/-- The release of a model at commit n (R69). -/
def releaseDone (s : State) (b n : Nat) : State :=
  if (bench s b).state = .unloading then becomeEmpty s b n else s

/-- Drains in force at commit n: limits that have run out, then DRAINING benches with no live request (R69, R73). -/
def drainStep (s : State) (n : Nat) : State :=
  s.benches.foldl (fun s x =>
    let b := x.1
    match (bench s b).state, (bench s b).drain with
    | .draining, some d =>
      let s1 := if n < d.limit then s else if d.mode = 2 then endAll s b n else parkAll s b
      if (liveOn s1 b).isEmpty then setBench s1 b (fun x => { x with state := .unloading }) else s1
    | _, _ => s) s

def execModelLoad (d : HostDesc) (s : State) : Host.Outcome State Fault Refusal := hostRow 0x10 applyLoad d s
/-- MODEL_LOAD with replace set. -/
def execModelLoadReplace (d : HostDesc) (s : State) : Host.Outcome State Fault Refusal := hostRow 0x10 applyLoad d s
def execModelUnload (d : HostDesc) (s : State) : Host.Outcome State Fault Refusal := hostRow 0x11 applyUnload d s

/-- MODEL_LOAD_COMPLETE (R72): the outcome takes effect at the commit its stamp names. -/
def execModelLoadComplete (t : Stamp) (bench : Nat) (pkg : Package) (s : State) : Host.Outcome State Fault Refusal :=
  run t (fun s => deferTo s t (.loadComplete bench pkg)) s

/-- UNLOAD_RELEASE_DONE (R69), at the commit its stamp names. -/
def execUnloadReleaseDone (t : Stamp) (bench : Nat) (s : State) : Host.Outcome State Fault Refusal :=
  run t (fun s => deferTo s t (.releaseDone bench)) s

/-- DRAIN_LIMIT_EXPIRY (R73): the requests still live under FINISH are parked at that commit. -/
def execDrainLimitExpiry (t : Stamp) (bench : Nat) (s : State) : Host.Outcome State Fault Refusal :=
  run t (fun s =>
    match (Machine.bench s bench).state, (Machine.bench s bench).drain with
    | .draining, some d =>
      if d.mode = 0 ∧ d.limit ≤ commitOf s t then settle (commitOf s t) (fun s => drainStep s (commitOf s t)) s else s
    | _, _ => s) s

end Sys2Proof.Machine
end

