-- ==== Sys2Proof/Machine/Vectors.lean ====
section
/-! DEFINITION. Vector retrieval: shards, distances, traversal, inserts and deletes, merge rounds, searches and the
messages between modules (R281 to R301). -/

namespace Sys2Proof.Machine

/-! ## The shard header (R282) -/

def vDim (h : BitVec 512) : Nat := fieldOf h 255 240
def vFmt (h : BitVec 512) : Nat := fieldOf h 239 236
def vDist (h : BitVec 512) : Nat := fieldOf h 235 232
def vDegree (h : BitVec 512) : Nat := fieldOf h 271 264
def vId (h : BitVec 512) : Nat := fieldOf h 127 96
def vElemScale (h : BitVec 512) : F32 := BitVec.ofNat 32 (fieldOf h 319 288)
def vQueryScale (h : BitVec 512) : F32 := BitVec.ofNat 32 (fieldOf h 351 320)

/-- A header and its codebook within R282. -/
def shardHdrOk (h : BitVec 512) (book : Option Codebook) : Bool :=
  let code := vFmt h == 2 || vFmt h == 3
  fieldOf h 15 0 == 0x5648 && fieldOf h 31 16 == 1 && zeroAt h 95 32 && zeroAt h 231 128 && zeroAt h 263 256 &&
    zeroAt h 511 448 && decide (vDist h ≤ 2) && decide (vFmt h ≤ 3) && decide (1 ≤ vDim h) && decide (vDim h ≤ 4096) &&
    decide (8 ≤ vDegree h) && decide (vDegree h ≤ 64) && vDegree h % 8 == 0 && decide (16 ≤ fieldOf h 287 272) &&
    decide (fieldOf h 287 272 ≤ 256) && (vFmt h == 1 || scaleOk (vElemScale h)) && scaleOk (vQueryScale h) &&
    (vDist h != 2 || vFmt h == 1 || vQueryScale h == vElemScale h) &&
    (match book with
     | some c => code && bookOk 0 c && bookBits c (if vFmt h = 2 then 4 else 8)
     | none => !code)

/-! ## Records and segments as bytes (R283, R284) -/

/-- Bytes padded with zeros to a multiple of 32. -/
def pad32 (bs : List Byte) : List Byte := bs ++ List.replicate (32 * ceilDiv bs.length 32 - bs.length) 0

/-- Elements packed under R87 at a width in bits. -/
def packElems (bits : Nat) (es : List (BitVec 16)) : List Byte :=
  if bits = 16 then es.flatMap (fun e => leBytes 2 e.toNat) else packCodes bits (es.map (·.toNat))

/-- A record's bytes (R283): its head, the adjacency of a node record, its padded elements; zeros for a delete's. -/
def nodeBytes (h : BitVec 512) (spoil : Bool) (v : VecRec) : List Byte :=
  leBytes 32 (v.id % 2 ^ 64 + v.norm.toNat * 2 ^ 64 + (if v.isDelete then 2 ^ 96 else 0) + v.adj.length % 128 * 2 ^ 97) ++
    (if spoil then [] else (List.range (vDegree h)).flatMap (fun i => leBytes 4 (v.adj.getD i 0))) ++
    pad32 (packElems (elemBits h) (if v.isDelete then List.replicate (vDim h) 0 else v.elems))

/-- The records of a segment as bytes: its magic tells a spoil segment from a graph segment. -/
def segPayload (h : BitVec 512) (g : VecSeg) : List Byte := g.recs.flatMap (nodeBytes h (fieldOf g.hdr 15 0 == 0x534C))

/-- A segment's crc covers its header, crc taken as zero, and its records (R284). -/
def segCrcOk (h : BitVec 512) (g : VecSeg) : Bool := fieldOf g.hdr 255 224 == hdrCrc g.hdr (segPayload h g)

/-- A segment with its crc formed. -/
def sealSeg (h : BitVec 512) (g : VecSeg) : VecSeg := { g with hdr := putCrc g.hdr (segPayload h g) }

/-! ## Operands and distances (R283, R285, R286) -/

/-- Element operands of a record on an integer or code shard. -/
def elemInts (x : Shard) (r : VecRec) : List Int :=
  if vFmt x.hdr = 0 then r.elems.map int8
  else r.elems.map (fun e => ((x.book.map (·.entries)).getD []).getD e.toNat 0)

/-- Elements of an FP16 shard. -/
def elemHalf (r : VecRec) : List F32 := r.elems.map ofHalf

/-- The norm a record keeps under cosine distance (R283). -/
def recNorm (x : Shard) (r : VecRec) : F32 :=
  if vDist x.hdr ≠ 1 then 0
  else if vFmt x.hdr = 1 then
    fsqrt (fl ((elemHalf r).foldl (fun a v => a + fval v * fval v) 0))
  else normInt (vElemScale x.hdr) (elemInts x r)

/-- The query as FP32, before requantisation: int8, FP16 or BF16 (R285). -/
def queryF (scale : F32) (fmt : Nat) (q : List (BitVec 16)) : List F32 :=
  q.map (fun e => if fmt = 0 then fmul (fofInt (int8 e)) scale else if fmt = 1 then ofHalf e else ofBf16 e)

/-- The int8 query operands and the clamps they took (R95, R285). -/
def queryI (scale : F32) (fmt : Nat) (q : List (BitVec 16)) : List Int × Nat :=
  if fmt = 0 then (q.map int8, 0)
  else
    let rs := (q.map (fun e => if fmt = 1 then ofHalf e else ofBf16 e)).map (fun v => requant v scale)
    (rs.map (·.1), (rs.filter (·.2)).length)

/-- The order key, nearer smaller, and the distance of a record (R285, R286). -/
def distOf (x : Shard) (fmt : Nat) (q : List (BitVec 16)) (r : VecRec) : Rat × F32 :=
  let h := x.hdr
  if vFmt h = 1 then
    let qf := queryF (vQueryScale h) fmt q
    let xs := elemHalf r
    let ip := compSum (List.zipWith (fun a b => fval a * fval b) qf xs)
    let d := if vDist h = 0 then fneg ip
      else if vDist h = 1 then
        fneg (fdiv ip (fmul (fsqrt (fl (qf.foldl (fun a v => a + fval v * fval v) 0))) r.norm))
      else compSum (List.zipWith (fun a b => (fval a - fval b) * (fval a - fval b)) qf xs)
    (fval d, d)
  else
    let qa := (queryI (vQueryScale h) fmt q).1
    let e := elemInts x r
    let ip := dotInt qa e
    let sigma := fmul (vQueryScale h) (vElemScale h)
    if vDist h = 0 then (-(ip : Rat), fneg (fmul (fofInt ip) sigma))
    else if vDist h = 1 then
      let d := fneg (fdiv (fmul (fofInt ip) sigma) (fmul (normInt (vQueryScale h) qa) r.norm))
      (fval d, d)
    else
      let l2 := l2Int qa e
      ((l2 : Rat), fmul (fofInt l2) (fmul (vElemScale h) (vElemScale h)))

/-! ## Traversal (R292, R293) -/

/-- A hit: key, vector ID, distance, node index. -/
structure Hit where
  key : Rat
  id : Nat
  d : F32
  node : Nat
  deriving DecidableEq, Repr, Inhabited

/-- Nearer, equal keys to the lower vector ID (R286). -/
def nearer (a b : Hit) : Bool := decide (a.key < b.key) || (decide (a.key = b.key) && decide (a.id < b.id))

/-- A hit into a list kept nearest first. -/
def insHit (h : Hit) : List Hit → List Hit
  | [] => [h]
  | x :: r => if nearer h x then h :: x :: r else x :: insHit h r

/-- A node's hit. -/
def nodeHit (x : Shard) (fmt : Nat) (q : List (BitVec 16)) (i : Nat) : Hit :=
  let r := x.graph.getD i default
  let (k, d) := distOf x fmt q r
  ⟨k, r.id, d, i⟩

/-- The walk of R293: visited, candidates and best, nearest first; `ef` results, `fuel` expansions. -/
def walk (x : Shard) (fmt : Nat) (q : List (BitVec 16)) (ef : Nat) : Nat → List Nat → List Hit → List Hit → List Hit
  | 0, _, _, best => best
  | fuel + 1, visited, cand, best =>
    match cand with
    | [] => best
    | c :: rest =>
      let far := best.getLast?
      if best.length == ef && (match far with | some f => decide (f.key < c.key) | none => false) then best
      else
        let r := (x.graph.getD c.node default).adj.foldl (fun (a : List Nat × List Hit × List Hit) n =>
          if a.1.contains n then a
          else
            let h := nodeHit x fmt q n
            let room := decide (a.2.2.length < ef) ||
              (match a.2.2.getLast? with | some f => decide (h.key < f.key) | none => true)
            if room then
              (n :: a.1, insHit h a.2.1, if x.tomb.contains n then a.2.2 else (insHit h a.2.2).take ef)
            else (n :: a.1, a.2.1, a.2.2)) (visited, rest, best)
        walk x fmt q ef fuel r.1 r.2.1 r.2.2

/-- Node indices in use and live. -/
def liveNodes (x : Shard) : List Nat :=
  (List.range x.graph.length).filter (fun i => !x.removed.contains i && !x.tomb.contains i)

/-- A shard's answer (R293): the k nearest of the graph's best list and the spoil list's live entries. -/
def searchShard (x : Shard) (fmt : Nat) (q : List (BitVec 16)) (k ef expand : Nat) : List (Nat × F32) :=
  let g := if (liveNodes x).isEmpty then []
    else
      let e := nodeHit x fmt q x.entryNode
      walk x fmt q ef expand [x.entryNode] [e] (if x.tomb.contains x.entryNode then [] else [e])
  let sp := (x.spoil.zipIdx.filter (fun r => !r.1.isDelete && !x.deadSpoil.contains r.2)).map (fun r =>
    let (key, d) := distOf x fmt q r.1
    (⟨key, r.1.id, d, 0⟩ : Hit))
  let best := (sp.foldl (fun l h => insHit h l) []).take ef
  (((g ++ best).foldl (fun l h => insHit h l) []).take k).map (fun h => (h.id, h.d))

/-! ## Changes at a commit (R291) -/

def shard (s : State) (i : Nat) : Option Shard := tget s.shards i
def putShard (s : State) (i : Nat) (x : Shard) : State := { s with shards := tput s.shards i x }
def modShard (s : State) (i : Nat) (f : Shard → Shard) : State := { s with shards := tmod s.shards i f }

/-- The live copy of an ID is superseded; false where none is live (R291). -/
def supersede (x : Shard) (id : Nat) : Shard × Bool :=
  match (liveNodes x).find? (fun i => (x.graph.getD i default).id == id) with
  | some i => ({ x with tomb := x.tomb ++ [i] }, true)
  | none =>
    match (x.spoil.zipIdx.find? (fun r => !r.1.isDelete && r.1.id == id && !x.deadSpoil.contains r.2)) with
    | some r => ({ x with deadSpoil := x.deadSpoil ++ [r.2] }, true)
    | none => (x, false)

/-- An entry joins the spoil list. -/
def appendSpoil (x : Shard) (r : VecRec) : Shard :=
  { x with spoil := x.spoil ++ [r], commitNew := x.commitNew ++ [r] }

/-- A merge round starts where the spoil list reaches auto_merge (R282, R296). -/
def autoMerge (x : Shard) : Shard :=
  let n := fieldOf x.hdr 447 416
  if n ≠ 0 ∧ n ≤ x.spoil.length ∧ x.round.isNone then { x with round := some (x.spoil.length, 0, none) } else x

/-- Room for n more bytes of shards on their floor in bench b (R281, R289). -/
def shardFits (s : State) (b n : Nat) : Bool :=
  hasSpace s b n && decide (shardsIn s b (shardTier s b false) + n ≤ tierRoom s b (shardTier s b false))

/-- Live vectors of a shard. -/
def liveCount (x : Shard) : Nat :=
  (liveNodes x).length + (x.spoil.zipIdx.filter (fun r => !r.1.isDelete && !x.deadSpoil.contains r.2)).length

/-- The bench, after the layout (R10; log entry 132): R70, and the role (R15). -/
def vecGate (s : State) (b : Nat) : Option Status :=
  if !hasRecord s b || (bench s b).state == .halted then some .benchHalted
  else if !isCacheOrMixed (role s b) then some .badDescriptor
  else none

/-- The layout of R288 common to inserts, deletes and merge operations. -/
def vecFieldsOk (r : BitVec 512) (data vec target : Bool) : Bool :=
  zeroAt r 319 136 && zeroAt r 107 64 && zeroAt r 31 20 && zeroAt r 15 8 && (data || (zeroAt r 511 448 && zeroAt r 447 416)) &&
    (vec || zeroAt r 383 320) && (target || zeroAt r 127 108)

/-- The primary of a shard that a change may act on (R289). -/
def primaryOf (s : State) (b : Nat) (i : Nat) : Except Status Shard :=
  match shard s i with
  | none => .error .notFound
  | some x => if x.bench ≠ b then .error .notFound else if x.replica || x.archived then .error .badDescriptor else .ok x

/-- VEC_INSERT at its commit (R86, R285, R288, R289, R291). -/
def applyVecInsert (c : Cpl) (d : HostDesc) (n : Nat) (s : State) : State :=
  let r := d.raw
  let id := fieldOf r 383 320
  let i := fieldOf r 415 384
  let no (st : Status) : State := due s c st id n
  if !vecFieldsOk r true true false || !zeroAt r 135 128 then no .badDescriptor
  else match vecGate s c.bench, primaryOf s c.bench i with
    | some st, _ => no st
    | none, .error st => no st
    | none, .ok x =>
      let es := match d.data with | .elements es => es | _ => []
      let v : VecRec := { id := id, elems := es }
      let v' := { v with norm := recNorm x v }
      let b := elemBits x.hdr
      if es.length != vDim x.hdr || fieldOf r 447 416 != ceilDiv (vDim x.hdr * b) 8 ||
          (vFmt x.hdr == 1 && es.any halfSpecial) || (vFmt x.hdr != 1 && es.any (fun e => decide (2 ^ b ≤ e.toNat))) ||
          (vDist x.hdr == 1 && feq v'.norm 0) then no .badDescriptor
      else if decide (16777216 ≤ x.spoil.length) || decide (2 ^ 32 ≤ liveCount (supersede x id).1) ||
          !shardFits s c.bench (strideSpoil x.hdr) then no .noCapacity
      else due (putShard s i (autoMerge (appendSpoil (supersede x id).1 v'))) c .ok id n

/-- VEC_DELETE at its commit (R291). -/
def applyVecDelete (c : Cpl) (d : HostDesc) (n : Nat) (s : State) : State :=
  let r := d.raw
  let id := fieldOf r 383 320
  let i := fieldOf r 415 384
  let no (st : Status) : State := due s c st id n
  if !vecFieldsOk r false true false || !zeroAt r 135 128 then no .badDescriptor
  else match vecGate s c.bench, primaryOf s c.bench i with
    | some st, _ => no st
    | none, .error st => no st
    | none, .ok x =>
      let (y, live) := supersede x id
      if !live then no .notFound
      else if decide (16777216 ≤ x.spoil.length) || !shardFits s c.bench (strideSpoil x.hdr) then no .noCapacity
      else due (putShard s i (autoMerge (appendSpoil y { id := id, isDelete := true }))) c .ok id n

/-! ## Shard operations (R288, R289) -/

/-- An image within R283. -/
def imageOk (h : BitVec 512) (segs : List VecSeg) : Bool :=
  let n := fieldOf h 383 352
  let nodes := segs.flatMap (·.recs)
  nodes.length == n && segs.length == ceilDiv n 65536 &&
    (if n = 0 then zeroAt h 415 384 else decide (fieldOf h 415 384 < n)) &&
    segs.zipIdx.all (fun g => fieldOf g.1.hdr 15 0 == 0x5347 && fieldOf g.1.hdr 31 16 == 1 && zeroAt g.1.hdr 63 32 &&
      fieldOf g.1.hdr 95 64 == strideNode h && fieldOf g.1.hdr 127 96 == vId h && fieldOf g.1.hdr 159 128 == g.2 &&
      fieldOf g.1.hdr 191 160 == 0 && fieldOf g.1.hdr 223 192 == g.1.recs.length &&
      decide (g.1.recs.length ≤ 65536)) &&
    nodes.zipIdx.all (fun v => v.1.norm == 0 && !v.1.isDelete && v.1.elems.length == vDim h &&
      v.1.elems.all (fun e => decide (e.toNat < 2 ^ elemBits h)) &&
      decide (v.1.adj.length ≤ vDegree h) && v.1.adj.all (fun a => decide (a < n) && a != v.2) &&
      v.1.adj.eraseDups.length == v.1.adj.length) &&
    (nodes.map (·.id)).eraseDups.length == n

/-- Bytes of a shard header, its codebook and its image (R282, R288). -/
def imageBytes (h : BitVec 512) (book : Option Codebook) (segs : List VecSeg) : Nat :=
  64 + ((book.map (fun c => 16 + c.body.length)).getD 0) + (segs.map (fun g => 32 + g.recs.length * strideNode h)).sum

/-- A segment header but for its crc (R284). -/
def segHdr (x : Shard) (spoil : Bool) (seq count : Nat) : BitVec 256 :=
  BitVec.ofNat 256 ((if spoil then 0x534C else 0x5347) + 2 ^ 16 +
    (if spoil then strideSpoil x.hdr else strideNode x.hdr) % 2 ^ 32 * 2 ^ 64 + vId x.hdr * 2 ^ 96 +
    seq % 2 ^ 32 * 2 ^ 128 + x.gversion % 2 ^ 32 * 2 ^ 160 + count % 2 ^ 32 * 2 ^ 192)

/-- The header of a shard as it stands: its nodes and entry are those of the current version. -/
def hdrNow (x : Shard) : BitVec 512 :=
  BitVec.ofNat 512 (x.hdr.toNat - fieldOf x.hdr 415 352 * 2 ^ 352 + x.graph.length % 2 ^ 32 * 2 ^ 352 +
    x.entryNode % 2 ^ 32 * 2 ^ 384)

/-- The graph segments of a shard for a replica on bench b of its module (log entry 10). -/
def graphSegs (x : Shard) (b : Nat) : List VecSeg :=
  (List.range (max 1 (ceilDiv x.graph.length 65536))).map (fun i =>
    let recs := (x.graph.drop (65536 * i)).take 65536
    sealSeg x.hdr { hdr := segHdr x false i recs.length, recs := recs, head := some (hdrNow x, x.book, b),
                    free := x.removed.filter (fun j => j / 65536 == i) })

/-- The spoil segment of commit n, or of the commits before it taken together (R284, R291). -/
def spoilSeg (x : Shard) (n : Nat) (recs : List VecRec) : VecSeg :=
  sealSeg x.hdr { hdr := segHdr x true n recs.length, recs := recs }

/-- What a copy needs beside the segment of the commit in progress: the graph, and the spoil entries of earlier
commits in one segment (R288, R299; log entry 10). -/
def copySegs (x : Shard) (n b : Nat) : List VecSeg :=
  graphSegs x b ++ [spoilSeg x (n - 1) (x.spoil.take (x.spoil.length - x.commitNew.length))]

/-- Segments sent to a module for its replica. -/
def sendSegs (s : State) (b : Nat) (dst : ModuleId) (l : List VecSeg) : State :=
  l.foldl (fun s g => send s dst (some b) (.vecSeg g)) s

/-- Every replica of a shard is freed, those still being copied among them (R288). -/
def freeCopies (s : State) (b i : Nat) (x : Shard) : State :=
  (x.replicas.map (·.1) ++ x.pendRepl.map (·.1)).foldl (fun s m => send s m (some b) (.vecFree i)) s

/-- VEC_MERGE at its commit, by op. -/
def applyVecMerge (c : Cpl) (d : HostDesc) (n : Nat) (s : State) : State :=
  let r := d.raw
  let op := fieldOf r 135 128
  let i := fieldOf r 415 384
  let target : ModuleId := BitVec.ofNat 16 (fieldOf r 127 112)
  let tb := fieldOf r 111 108
  let no (st : Status) : State := due s c st 0 n
  let fields := vecFieldsOk r (op == 1) false (op == 5 || op == 6) && decide (op ≤ 6)
  if !fields then no .badDescriptor
  else match vecGate s c.bench with
  | some st => no st
  | none =>
    if op = 1 then
      match d.data with
      | .shard h book segs =>
        if !shardHdrOk h book || vId h != i || (shard s i).isSome || decide (fieldOf r 447 416 < imageBytes h book segs) then
          no .badDescriptor
        else if segs.any (fun g => !segCrcOk h g) then
          due (logErr (count s (bn c.bench 0x420) 1) .block 1 (b := c.bench) (d0 := i)) c .blockCorrupt 0 n
        else if !imageOk h segs then no .badDescriptor
        else if 256 ≤ s.shards.length ∨ !shardFits s c.bench (fieldOf h 383 352 * strideNode h) then no .noCapacity
        else
          let x0 : Shard := { hdr := h, bench := c.bench, book := book, entryNode := fieldOf h 415 384, pendingCpl := some c }
          putShard s i { x0 with graph := (segs.flatMap (·.recs)).map (fun v => { v with norm := recNorm x0 v }) }
      | _ => no .badDescriptor
    else match shard s i with
      | none => no .notFound
      | some x =>
        if x.bench ≠ c.bench then no .notFound
        else if x.replica then no .badDescriptor
        else if x.archived && !(op == 2 || op == 4) then no .badDescriptor
        else if op = 0 then
          if x.round.isSome then no .badDescriptor
          else putShard s i { x with round := some (x.spoil.length, 0, some c) }
        else if op = 2 then
          let s1 := freeCopies s c.bench i x
          let waits := ([x.pendingCpl, x.round.bind (·.2.2)]).filterMap id ++ x.pendRepl.map (·.2.2)
          let s2 := waits.foldl (fun s w => due s w .cancelled 0 n) s1
          due { s2 with shards := tdel s2.shards i } c .ok 0 n
        else if op = 3 then
          if !hasFlash s || !x.spoil.isEmpty || x.round.isSome then no .badDescriptor
          else if !fits s c.bench .flash (shardBytes x) ∨ flashWaits s then no .noCapacity
          else
            let s1 := x.pendRepl.foldl (fun s w => due s w.2.2 .cancelled 0 n) (freeCopies s c.bench i x)
            due (makeKey (putShard s1 i { x with archived := true, serving := false, replicas := [], pendRepl := [] }) c.bench)
              c .ok 0 n
        else if op = 4 then
          if !x.archived || x.pendingCpl.isSome then no .badDescriptor
          else if !shardFits s c.bench (shardBytes x) then no .noCapacity
          else putShard s i { x with pendingCpl := some c }
        else if op = 5 then
          if x.replicas.contains (target, tb) || target == s.fab.self || x.pendRepl.any (fun p => p.1 == target) then
            no .badDescriptor
          else
            let s1 := sendSegs s c.bench target (copySegs x n tb)
            putShard s1 i { x with pendRepl := x.pendRepl ++ [(target, tb, c)] }
        else if x.replicas.contains (target, tb) then
          due (putShard (send s target (some c.bench) (.vecFree i)) i
            { x with replicas := x.replicas.filter (· != (target, tb)) }) c .ok 0 n
        else no .notFound

/-- A created or restored shard serves, and its descriptor completes, at commit n (R288). -/
def shardReady (s : State) (i n : Nat) (restore : Bool) : State :=
  match shard s i with
  | some x =>
    (match x.pendingCpl with
     | some c =>
       if x.archived = restore then
         due (putShard s i { x with serving := true, archived := false, pendingCpl := none }) c .ok 0 n
       else s
     | none => s)
  | none => s

/-- A replica holds every segment, at commit n (R288). -/
def replicateReady (s : State) (i : Nat) (target : ModuleId) (n : Nat) : State :=
  match shard s i with
  | some x =>
    (match x.pendRepl.find? (fun p => p.1 == target) with
     | some p =>
       due (putShard s i { x with
         pendRepl := x.pendRepl.filter (· != p), replicas := x.replicas ++ [(p.1, p.2.1)] }) p.2.2 .ok 0 n
     | none => s)
  | none => s

/-! ## Merge rounds (R296, R297) -/

/-- The adjacency a merge leaves a live node: the next live node, then what the module's own method names (R297). -/
def mergedAdj (s : State) (live : List Nat) (degree i : Nat) (old : List Nat) : List Nat :=
  let next := match live.find? (fun j => decide (i < j)) with
    | some j => j
    | none => live.headD i
  let l := next :: (old ++ Config.mergeAdj s.fresh i)
  (l.filter (fun j => j != i && live.contains j)).eraseDups.take degree

/-- The lowest free index of a graph: a removed one, or the next beyond the end. -/
def takeIndex (x : Shard) (v : VecRec) : Shard :=
  match (List.range x.graph.length).find? (fun i => x.removed.contains i) with
  | some i => { x with graph := x.graph.set i v, removed := x.removed.filter (· != i) }
  | none => { x with graph := x.graph ++ [v] }

/-- The next graph version: nodes superseded by frozen entries removed, live frozen inserts placed, later deletes kept
as tombstones, edges repaired (R296, R297, R301). -/
def publish (s : State) (x : Shard) (frozen : Nat) : Shard :=
  let fr := (x.spoil.take frozen).zipIdx
  let ids := fr.map (fun r => r.1.id)
  let gone := x.tomb.filter (fun i => ids.contains (x.graph.getD i default).id)
  let ins := fr.filter (fun r => !r.1.isDelete &&
    !(fr.any (fun q => decide (r.2 < q.2) && q.1.id == r.1.id)))
  let x1 := ins.foldl (fun y r => takeIndex y r.1) { x with tomb := x.tomb.filter (fun i => !gone.contains i) }
  let x2 := { x1 with removed := (x1.removed ++ gone).eraseDups }
  let dead := (ins.filter (fun r => x.deadSpoil.contains r.2)).map (fun r => r.1.id)
  let used := (List.range x2.graph.length).filter (fun i => !x2.removed.contains i)
  let tomb := used.filter (fun i => x2.tomb.contains i || dead.contains (x2.graph.getD i default).id)
  let live := used.filter (fun i => !tomb.contains i)
  { x2 with
    graph := x2.graph.zipIdx.map (fun v =>
      if live.contains v.2 then { v.1 with adj := mergedAdj s live (vDegree x.hdr) v.2 v.1.adj }
      else { v.1 with adj := v.1.adj.filter (fun j => used.contains j) }),
    tomb := tomb, entryNode := if live.contains x2.entryNode then x2.entryNode else live.headD 0,
    spoil := x.spoil.drop frozen,
    deadSpoil := (x.deadSpoil.filter (fun i => decide (frozen ≤ i))).map (· - frozen),
    gversion := (x.gversion + 1) % 2 ^ 32, round := none }

/-- Step 4 of commit n for one shard: a round whose last unit completed is published, or abandoned for want of room;
the commit's spoil segment is sealed and sent to every replica, also to one still being copied (R291, R297, R299). -/
def sealShard (n : Nat) (s : State) (x : Nat × Shard) : State :=
  if x.2.replica then s
  else
    let (s1, y, pub) := match x.2.round with
      | some (frozen, done, cpl) =>
        if done < frozen then (s, x.2, false)
        else if shardFits s x.2.bench (frozen * strideNode x.2.hdr) then
          let y := publish s x.2 frozen
          (match cpl with | some c => due s.bump c .ok y.gversion n | none => s.bump, y, true)
        else (match cpl with | some c => due s c .noCapacity 0 n | none => s, { x.2 with round := none }, false)
      | none => (s, x.2, false)
    let seg := spoilSeg y n y.commitNew
    let s2 := (y.replicas ++ y.pendRepl.map (fun p => (p.1, p.2.1))).foldl (fun s q =>
      sendSegs s y.bench q.1 ((if pub then copySegs y n q.2 else []) ++ [seg])) s1
    putShard s2 x.1 { y with commitNew := [] }

/-- Every shard's step 4. -/
def sealShards (s : State) (n : Nat) : State := s.shards.foldl (sealShard n) s

/-! ## Searches (R287, R290, R298 to R300) -/

/-- The reserved bits of a search (R10, R287). -/
def searchFieldsOk (r : BitVec 512) : Bool :=
  zeroAt r 331 316 && zeroAt r 267 256 && zeroAt r 239 64 && zeroAt r 31 20 && zeroAt r 15 9

/-- The query block of a search (R287). -/
def searchOk (s : State) (d : HostDesc) (shards : List (BitVec 128)) (elems : List (BitVec 16)) : Bool :=
  let r := d.raw
  let fmt := fieldOf r 271 268
  let k := fieldOf r 287 272
  let own (e : BitVec 128) : Option Shard :=
    if fieldOf e 47 32 = 0xFFFF ∨ fieldOf e 47 32 = s.fab.self.toNat then shard s (fieldOf e 31 0) else none
  searchFieldsOk r &&
    fieldOf r 511 448 % 64 == 0 && fieldOf r 415 352 % 64 == 0 && decide (1 ≤ k) && decide (k ≤ 1024) &&
    decide (k ≤ fieldOf r 303 288) && decide (fieldOf r 303 288 ≤ 1024) && decide (1 ≤ fieldOf r 315 304) &&
    decide (fieldOf r 315 304 ≤ 1024) && decide (1 ≤ fieldOf r 335 332) && decide (fmt ≤ 2) &&
    decide (64 + 16 * k ≤ fieldOf r 447 416) && decide (1 ≤ shards.length) && decide (shards.length ≤ 256) &&
    fieldOf r 351 336 == shards.length && elems.length == fieldOf r 255 240 && decide (1 ≤ elems.length) &&
    decide (elems.length ≤ 4096) && shards.all (fun e => zeroAt e 127 104 && zeroAt e 63 52) &&
    !(fmt == 1 && elems.any halfSpecial) && !(fmt == 2 && elems.any bf16Special) &&
    shards.all (fun e => match own e with
      | some x => vDim x.hdr == elems.length && !x.archived && decide (fieldOf r 315 304 * vDegree x.hdr ≤ 16384)
      | none => true)

/-- VEC_SEARCH at its commit: it runs in the next tick (R290). -/
def applyVecSearch (c : Cpl) (d : HostDesc) (n : Nat) (s : State) : State :=
  let no (st : Status) : State := due s c st 0 n
  let (shards, elems) := match d.data with | .search a b => (a, b) | _ => ([], [])
  if !searchFieldsOk d.raw then no .badDescriptor
  else match vecGate s c.bench with
  | some st => no st
  | none =>
    if !searchOk s d shards elems then no .badDescriptor
    else if shards.any (fun e => (fieldOf e 47 32 == 0xFFFF || fieldOf e 47 32 == s.fab.self.toNat) &&
        (shard s (fieldOf e 31 0)).isNone) then no .notFound
    else
      let q : Search := { id := s.fresh, cpl := c, raw := d.raw, shards := shards, elems := elems }
      { s.bump with plan := { s.plan with searches := s.plan.searches ++ [q] } }

/-- The holder of a shard-list entry. -/
def entryHolder (s : State) (e : BitVec 128) : ModuleId :=
  if fieldOf e 47 32 = 0xFFFF then s.fab.self else BitVec.ofNat 16 (fieldOf e 47 32)

/-- The header of a vector message (R298). -/
def vecHdr (s : State) (kind tick count len b : Nat) (who : ModuleId) : BitVec 256 :=
  let _ := s
  BitVec.ofNat 256 (0x5652 + 2 ^ 16 + kind * 2 ^ 96 + b % 16 * 2 ^ 108 + who.toNat * 2 ^ 112 + len % 2 ^ 32 * 2 ^ 128 +
    count % 2 ^ 16 * 2 ^ 160 + tick % 2 ^ 64 * 2 ^ 192)

/-- An ask entry of a search for one shard-list entry (R298). -/
def vecAskEntry (q : Search) (i : Nat) (e : BitVec 128) : VecEntry :=
  let len := 32 + 32 * ceilDiv (q.elems.length * (if fieldOf q.raw 271 268 = 0 then 8 else 16)) 256
  { head := BitVec.ofNat 256 (len % 2 ^ 24 + fieldOf q.raw 271 268 * 2 ^ 28 + q.elems.length % 2 ^ 16 * 2 ^ 32 +
      fieldOf q.raw 315 304 * 2 ^ 96 + fieldOf q.raw 303 288 * 2 ^ 112 + fieldOf q.raw 287 272 * 2 ^ 128 +
      i % 2 ^ 16 * 2 ^ 144 + fieldOf e 31 0 * 2 ^ 160 + q.id % 2 ^ 64 * 2 ^ 192),
    elems := q.elems, results := [] }

/-- Entries sent to holders, one message each. -/
def sendVecAsks (s : State) (kind b : Nat) (l : List (ModuleId × VecEntry)) : State :=
  ((l.map (·.1)).eraseDups).foldl (fun s h =>
    let es := (l.filter (fun x => x.1 == h)).map (·.2)
    let len := es.foldl (fun a e => a + fieldOf e.head 23 0) 32
    send s h (some b) (.vecAsk (vecHdr s kind s.time.now.tick es.length len b s.fab.self) es)) s

/-- A shard answers a search here: its status and results (R298, R299). `n` is the tick in which the search runs. -/
def answerShard (s : State) (i n fmt : Nat) (q : List (BitVec 16)) (k ef expand : Nat) : Nat × List (Nat × F32) :=
  match shard s i with
  | none => (1, [])
  | some x =>
    if notServing s || (bench s x.bench).state == .halted || !hasRecord s x.bench || !isCacheOrMixed (role s x.bench) then
      (3, [])
    else if x.archived then (2, [])
    else if !x.serving || x.failed || !x.badSegs.isEmpty || vDim x.hdr != q.length then (3, [])
    else if x.replica && !(x.lastSeq == (n + 2 ^ 32 - 1) % 2 ^ 32 && x.lastVer == x.gversion) then (4, [])
    else (0, searchShard x fmt q k ef expand)

/-- Clamps of a query a shard requantised, counted on the shard's bench (R95, R285). -/
def countQuery (s : State) (i fmt : Nat) (q : List (BitVec 16)) : State :=
  match shard s i with
  | some x =>
    let n := if vFmt x.hdr = 1 then 0 else (queryI (vQueryScale x.hdr) fmt q).2
    if n = 0 then s else countHalf s (bn x.bench 0x0F8) false n
  | none => s

/-- A search runs in the tick on the shards of this module: those that answer OK, by list index (R290). -/
def ownAnswers (s : State) (q : Search) : List (Nat × List (Nat × F32)) :=
  q.shards.zipIdx.filterMap (fun e =>
    if entryHolder s e.1 = s.fab.self then
      match answerShard s (fieldOf e.1 31 0) s.time.now.tick (fieldOf q.raw 271 268) q.elems (fieldOf q.raw 287 272)
        (fieldOf q.raw 303 288) (fieldOf q.raw 315 304) with
      | (0, rs) => some (e.2, rs)
      | _ => none
    else none)

/-- The searches of the tick begin: own shards answer from the snapshot of the last commit, asks go to other holders
(R290, R298). -/
def startSearches (s : State) : State :=
  let run := s.plan.units.filter (fun u => u.cls == .search && !u.dropped)
  let s1 : State := { s with plan := { s.plan with searches := s.plan.searches.map (fun q =>
    if run.any (fun u => u.req == q.id) then
      { q with running := true, dropped := false, ticksRun := q.ticksRun + 1,
               answers := (ownAnswers s q).foldl (fun t x => tput t x.1 x.2) [] }
    else { q with running := false }) } }
  let s2 := (s1.plan.searches.filter (·.running)).foldl (fun s q =>
    q.answers.foldl (fun s a => countQuery s (fieldOf (q.shards.getD a.1 0) 31 0) (fieldOf q.raw 271 268) q.elems) s) s1
  (List.range 16).foldl (fun s b =>
    let qs := s.plan.searches.filter (fun q => q.running && q.cpl.bench == b)
    let l := qs.flatMap (fun q => q.shards.zipIdx.filterMap (fun e =>
      if entryHolder s e.1 = s.fab.self then none else some (entryHolder s e.1, vecAskEntry q e.2 e.1)))
    sendVecAsks s 0 b l) s2

/-- BACKSTOP_ASK to every replica of each entry without an answer (R299). -/
def vecBackstop (s : State) : State :=
  (List.range 16).foldl (fun s b =>
    let qs := s.plan.searches.filter (fun q => q.running && q.cpl.bench == b)
    let l := qs.flatMap (fun q => q.shards.zipIdx.flatMap (fun e =>
      if (tget q.answers e.2).isSome then []
      else [fieldOf e.1 79 64, fieldOf e.1 95 80].filterMap (fun r =>
        if r = 0xFFFF then none else some ((BitVec.ofNat 16 r : ModuleId), vecAskEntry q e.2 e.1))))
    sendVecAsks (count s (bn b 0x510) l.length) 1 b l) s

/-- The results of a search: nearest first, ties to the lower ID, then the lower list index (R300). -/
def mergeResults (k : Nat) (answers : Table (List (Nat × F32))) : List (Nat × Nat × F32) :=
  let all := answers.flatMap (fun a => a.2.map (fun r => (a.1, r.1, r.2)))
  let lt (a b : Nat × Nat × F32) : Bool :=
    flt a.2.2 b.2.2 || (feq a.2.2 b.2.2 && (decide (a.2.1 < b.2.1) || (a.2.1 == b.2.1 && decide (a.1 < b.1))))
  let ins (x : Nat × Nat × F32) (l : List (Nat × Nat × F32)) : List (Nat × Nat × F32) :=
    let (p, q) := l.span (fun y => !lt x y)
    p ++ x :: q
  (all.foldl (fun l x => ins x l) []).take k

/-- Step 3 of commit n for the searches that ran in it (R300). -/
def finishSearches (s : State) (n : Nat) : State :=
  s.plan.searches.foldl (fun s q =>
    if !q.running then s
    else
      let forget (s : State) : State :=
        { s with plan := { s.plan with searches := s.plan.searches.filter (fun x => x.id != q.id) } }
      let missing := ((List.range q.shards.length).filter (fun i => (tget q.answers i).isNone))
      let mask := missing.foldl (fun a i => a + 2 ^ i) 0
      let addr := fieldOf q.raw 511 448
      let k := fieldOf q.raw 287 272
      let put (s : State) (rs : List (Nat × Nat × F32)) (st : Status) : State :=
        due (cplWrite s q.cpl (.vecResult addr (n - 1) rs.length mask rs)) q.cpl st rs.length n
      if missing.isEmpty ∧ !q.dropped then put (forget s) (mergeResults k q.answers) .ok
      else if bitOf q.raw 8 ∧ !q.dropped then put (forget s) (mergeResults k q.answers) .pageMissing
      else
        let s1 := count s (bn q.cpl.bench 0x520) 1
        if fieldOf q.raw 335 332 ≤ q.ticksRun ∧ !bitOf q.raw 8 then put (forget s) [] .pageMissing
        else { s1 with plan := { s1.plan with searches := s1.plan.searches.map (fun x =>
          if x.id = q.id then { x with running := false, dropped := false, answers := [] } else x) } }) s

/-- A vector message's header keeps R298. -/
def vecHdrOk (h : BitVec 256) (kind count : Nat) : Bool :=
  fieldOf h 15 0 == 0x5652 && fieldOf h 31 16 == 1 && zeroAt h 95 32 && fieldOf h 103 96 == kind && zeroAt h 107 104 &&
    zeroAt h 191 176 && fieldOf h 175 160 == count && decide (1 ≤ count)

/-- Bytes of an entry: an ask's head and padded query, or an answer's head and results (R298). -/
def vecEntryLen (ask : Bool) (e : VecEntry) : Nat :=
  if ask then 32 + 32 * ceilDiv (e.elems.length * (if fieldOf e.head 31 28 = 0 then 8 else 16)) 256
  else 32 + 16 * e.results.length

/-- A vector message keeps R298: its header, its length and each entry's. -/
def vecMsgOk (h : BitVec 256) (kind : Nat) (es : List VecEntry) : Bool :=
  vecHdrOk h kind es.length && fieldOf h 159 128 == 32 + (es.map (vecEntryLen (kind != 2))).sum &&
    es.all (fun e => fieldOf e.head 23 0 == vecEntryLen (kind != 2) e &&
      (if kind = 2 then fieldOf e.head 63 48 == e.results.length
       else fieldOf e.head 47 32 == e.elems.length && decide (fieldOf e.head 31 28 ≤ 2) && zeroAt e.head 95 48 &&
        zeroAt e.head 27 24))

/-- An ask at this module is answered: status and results of one entry, and the clamps its query took. -/
def answerVec (n : Nat) (s : State) (e : VecEntry) : State × VecEntry :=
  let i := fieldOf e.head 191 160
  let a := answerShard s i n (fieldOf e.head 31 28) e.elems (fieldOf e.head 143 128) (fieldOf e.head 127 112)
    (fieldOf e.head 111 96)
  (if a.1 = 0 then countQuery s i (fieldOf e.head 31 28) e.elems else s,
   { head := BitVec.ofNat 256 (e.head.toNat - fieldOf e.head 95 0 + (32 + 16 * a.2.length) % 2 ^ 24 + a.1 * 2 ^ 24 +
       fieldOf e.head 47 32 * 2 ^ 32 + a.2.length * 2 ^ 48 + (((shard s i).map (·.gversion)).getD 0) * 2 ^ 64),
     elems := [], results := a.2 })

/-- An ask message at its holder: every entry answered in one message (R298, R299). An ask out of its tick is counted
once, on the bench of its first shard, or bench 0 where this module has none of that name (log entry 125). -/
def takeVecAsk (kind : Nat) (hdr : BitVec 256) (es : List VecEntry) (s : State) : State :=
  if !vecMsgOk hdr kind es then malformed s
  else
    let b := match es with
      | e :: _ => ((shard s (fieldOf e.head 191 160)).map (·.bench)).getD 0
      | [] => 0
    let n := fieldOf hdr 255 192
    if n ≠ s.time.now.tick ∨ !(synced s) ∨ s.plan.cut then count s (bn b 0x508) 1
    else
      let r := es.foldl (fun (a : State × List VecEntry) e => ((answerVec n a.1 e).1, a.2 ++ [(answerVec n a.1 e).2])) (s, [])
      let len := r.2.foldl (fun a e => a + fieldOf e.head 23 0) 32
      let who : ModuleId := BitVec.ofNat 16 (fieldOf hdr 127 112)
      send r.1 who (some b) (.vecAnswer (vecHdr s 2 n r.2.length len (fieldOf hdr 111 108) who) r.2)

/-- VEC_ANSWER (R300): the first OK answer of an entry is accepted. -/
def takeVecAnswer (t : Stamp) (hdr : BitVec 256) (es : List VecEntry) (s : State) : State :=
  let b := fieldOf hdr 111 108
  if !vecMsgOk hdr 2 es then malformed s
  else if fieldOf hdr 255 192 ≠ s.time.now.tick ∨ s.plan.cut ∨ cutoffOff s ≤ t.off then s
  else es.foldl (fun s e =>
    let id := fieldOf e.head 255 192
    let i := fieldOf e.head 159 144
    match s.plan.searches.find? (fun q => q.id == id && q.running) with
    | some q =>
      if fieldOf e.head 27 24 ≠ 0 ∨ q.shards.length ≤ i then s
      else if (tget q.answers i).isSome then count s (bn b 0x518) 1
      else { s with plan := { s.plan with searches := s.plan.searches.map (fun x =>
        if x.id = id then { x with answers := tput x.answers i e.results } else x) } }
    | none => s) s

/-- VEC_SEGMENT_RECEIVE (R284, R299): a graph segment joins the replica, a spoil segment brings it to its commit. The
first segment of a copy lays the shard out on a bench that takes shards and has room (R15, R281). A segment that fails
its crc is a rejected block of cause 1, and with nothing to read it again from it stops the shard's serving. -/
def takeSegment (g : VecSeg) (s : State) : State :=
  let i := fieldOf g.hdr 127 96
  let magic := fieldOf g.hdr 15 0
  let seg := (magic, fieldOf g.hdr 159 128)
  let s0 := match shard s i, g.head with
    | none, some (h, book, b) =>
      if decide (256 ≤ s.shards.length) || !hasRecord s b || !isCacheOrMixed (role s b) ||
          !shardFits s b (fieldOf h 383 352 * strideNode h) then s
      else putShard s i { hdr := h, bench := b, book := book, replica := true, serving := true }
    | _, _ => s
  match shard s0 i with
  | none => s0
  | some x =>
    if !x.replica then s0
    else if !segCrcOk x.hdr g then
      let s1 := logErr (count s0 (bn x.bench 0x420) 1) .block 1 (b := x.bench) (d0 := i)
      putShard s1 i (if x.badSegs.contains seg then { x with failed := true } else { x with badSegs := x.badSegs ++ [seg] })
    else
    let x := { x with badSegs := x.badSegs.filter (· != seg) }
    if magic = 0x5347 then
      let at_ := 65536 * fieldOf g.hdr 159 128
      let ver := fieldOf g.hdr 191 160
      let base := if at_ = 0 then [] else x.graph.take at_
      let h := (g.head.map (·.1)).getD x.hdr
      putShard s0 i { x with
        hdr := h, graph := base ++ List.replicate (at_ - base.length) default ++ g.recs, gversion := ver,
        badSegs := if at_ = 0 ∧ ver ≠ x.gversion then [] else x.badSegs,
        entryNode := fieldOf h 415 384,
        removed := x.removed.filter (fun j => j / 65536 != fieldOf g.hdr 159 128) ++ g.free,
        spoil := if at_ = 0 ∧ ver ≠ x.gversion then [] else x.spoil,
        deadSpoil := if at_ = 0 ∧ ver ≠ x.gversion then [] else x.deadSpoil,
        tomb := if at_ = 0 ∧ ver ≠ x.gversion then [] else x.tomb }
    else if magic = 0x534C then
      let y := g.recs.foldl (fun y r => appendSpoil (supersede y r.id).1 r) x
      putShard s0 i { y with commitNew := [], lastSeq := fieldOf g.hdr 159 128, lastVer := fieldOf g.hdr 191 160 }
    else malformed s0

/-! ## The commands -/

def execVecSearch (d : HostDesc) (s : State) : Host.Outcome State Fault Refusal := hostRow 0x40 applyVecSearch d s
def execVecInsert (d : HostDesc) (s : State) : Host.Outcome State Fault Refusal := hostRow 0x41 applyVecInsert d s
def execVecDelete (d : HostDesc) (s : State) : Host.Outcome State Fault Refusal := hostRow 0x42 applyVecDelete d s
/-- VEC_MERGE, op MERGE. -/
def execVecMergeMerge (d : HostDesc) (s : State) : Host.Outcome State Fault Refusal := hostRow 0x43 applyVecMerge d s
/-- VEC_MERGE, op CREATE. -/
def execVecMergeCreate (d : HostDesc) (s : State) : Host.Outcome State Fault Refusal := hostRow 0x43 applyVecMerge d s
/-- VEC_MERGE, op DROP. -/
def execVecMergeDrop (d : HostDesc) (s : State) : Host.Outcome State Fault Refusal := hostRow 0x43 applyVecMerge d s
/-- VEC_MERGE, op ARCHIVE. -/
def execVecMergeArchive (d : HostDesc) (s : State) : Host.Outcome State Fault Refusal := hostRow 0x43 applyVecMerge d s
/-- VEC_MERGE, op RESTORE. -/
def execVecMergeRestore (d : HostDesc) (s : State) : Host.Outcome State Fault Refusal := hostRow 0x43 applyVecMerge d s
/-- VEC_MERGE, op REPLICATE. -/
def execVecMergeReplicate (d : HostDesc) (s : State) : Host.Outcome State Fault Refusal := hostRow 0x43 applyVecMerge d s
/-- VEC_MERGE, op UNREPLICATE. -/
def execVecMergeUnreplicate (d : HostDesc) (s : State) : Host.Outcome State Fault Refusal := hostRow 0x43 applyVecMerge d s

/-- SHARD_CREATE_DONE (R288), at the commit its stamp names. -/
def execShardCreateDone (t : Stamp) (shard : Nat) (s : State) : Host.Outcome State Fault Refusal :=
  run t (fun s => deferTo s t (.shardCreate shard)) s

/-- SHARD_RESTORE_DONE (R288), at the commit its stamp names. -/
def execShardRestoreDone (t : Stamp) (shard : Nat) (s : State) : Host.Outcome State Fault Refusal :=
  run t (fun s => deferTo s t (.shardRestore shard)) s

/-- SHARD_REPLICATE_DONE (R288), at the commit its stamp names. -/
def execShardReplicateDone (t : Stamp) (shard : Nat) (target : ModuleId) (s : State) :
    Host.Outcome State Fault Refusal :=
  run t (fun s => deferTo s t (.shardReplicate shard target)) s

def execVecAsk (t : Stamp) (hdr : BitVec 256) (es : List VecEntry) (s : State) : Host.Outcome State Fault Refusal :=
  run t (takeVecAsk 0 hdr es) s

def execVecBackstopAsk (t : Stamp) (hdr : BitVec 256) (es : List VecEntry) (s : State) :
    Host.Outcome State Fault Refusal := run t (takeVecAsk 1 hdr es) s

def execVecAnswer (t : Stamp) (src : ModuleId) (hdr : BitVec 256) (es : List VecEntry) (s : State) :
    Host.Outcome State Fault Refusal :=
  let _ := src
  runLink t (takeVecAnswer t hdr es) s

def execVecSegmentReceive (t : Stamp) (seg : VecSeg) (s : State) : Host.Outcome State Fault Refusal :=
  runLink t (takeSegment seg) s

/-- BACKSTOP (R192, R299). -/
def execBackstop (t : Stamp) (s : State) : Host.Outcome State Fault Refusal :=
  run t (fun s => if synced s && !s.plan.cut then vecBackstop (backstopAsks (expireWaits t s) (fun _ => true)) else s) s

end Sys2Proof.Machine
end

