-- ==== Sys2Proof/Machine/Plan.lean ====
section
/-! DEFINITION. Step 6 of a commit: the plan of the next tick and the coasting plan (R43, R45 to R47, R122, R152,
R190, R196, R237, R244, R247, R251, R260, R274, R275, R295, R403, R404), vector work a role cannot serve (R64),
goodput windows (R421), the done list and bindings that lapse (R208, R243). -/

namespace Sys2Proof.Machine

/-! ## What gates a request (R122, R244, R247, R260, R274, R275) -/

/-- The bench's steps and chunks may be planned (R69, R122). -/
def benchPlans (s : State) (b : Nat) : Bool :=
  ((bench s b).state == .ready || (bench s b).state == .draining) && (bench s b).reloading.isEmpty

/-- Pages of this module that an ACTIVE conversation's steps may not read where they lie (R79, R260): below HBM, with
no landed copy. -/
def coldPages (s : State) (c : Conv) : List Entry :=
  c.entries.filter (fun e => e.state != .replica && isLocal s e && e.tier != .face && e.tier != .hbm &&
    !landedCopy s (entryPage e c.key))

/-- The flash read of a page is late (R274). -/
def readLate (s : State) (c : Conv) (e : Entry) : Bool := s.tier.reads.any (fun r => r.2.late && r.2.page == entryPage e c.key)

/-- The pages a request is planned without: late ones under SHORT_SIGHT. None where it waits (R275). -/
def planMiss (s : State) (r : Req) : Option (List PageRef) :=
  match conv s r.conv with
  | none => none
  | some c =>
    let cold := coldPages s c
    if cold.all (readLate s c) && (cold.isEmpty || sightOf s r.key) then
      some (cold.map (fun e => entryPage e c.key))
    else none

/-- Under REBUILD a request whose pages on flash are late is rebuilt from the first group that holds one (R275). -/
def lateFlash (s : State) (n : Nat) : State :=
  s.work.reqs.foldl (fun s x =>
    match req s x.1 with
    | none => s
    | some r =>
      match conv s r.conv with
      | none => s
      | some c =>
        let late := (coldPages s c).filter (readLate s c)
        if (r.state == .generating || r.state == .prefill || r.state == .rebuilding) && c.frozen.isNone &&
            benchPlans s r.bench && !sightOf s x.1 then
          match late.map (·.group) with
          | g :: gs => recover (count s (bn r.bench 0x4A8) 1) x.1 (gs.foldl min g) n
          | [] => s
        else s) s

/-- A final, hold or token record of the request waits (R247). -/
def recordWaits (s : State) (r : Req) : Bool :=
  s.work.finals.any (fun w => w.req == r.key) || s.work.holds.any (fun w => w.req == r.key) || !r.waitTok.isEmpty

/-! ## Adding units (R45, R46) -/

/-- A unit added where its bench's set still admits it: it takes a handle of its own, and its heads their cells
(R142). -/
def tryAdd (s : State) (u : WorkUnit) : Option State :=
  let us := s.plan.units.filter (fun x => x.bench == u.bench) ++ [u]
  if admits s u.bench us then
    some { s.bump with plan := { s.plan with
      units := s.plan.units ++ [{ u with run := s.fresh, cells := headCells s u.bench us }] } }
  else none

/-- A unit planned without some pages. -/
def without (u : WorkUnit) (miss : List PageRef) : WorkUnit :=
  { u with lacked := miss, miss := (miss.map (·.group)).eraseDups }

/-- Lengths a chunk is tried at: halved until 64 (R47). -/
def chunkLens : Nat → Nat → List Nat
  | 0, n => [n]
  | fuel + 1, n => if n ≤ 64 then [n] else n :: chunkLens fuel (max 64 (n / 2))

/-- The first length at which a chunk is admitted. -/
def firstFit (s : State) (u : WorkUnit) : List Nat → Option Nat
  | [] => none
  | n :: l => if (tryAdd s { u with len := n }).isSome then some n else firstFit s u l

/-- What a balance leaves of a chunk of n tokens with `left` tokens to go (R251). -/
def tallyCut (room : Option Nat) (n left : Nat) : Nat :=
  match room with
  | none => n
  | some b => if n ≤ b then n else if left ≤ b then left else b / 64 * 64

/-- A prefill or rebuild chunk planned, passed over, or left to wait for its tally (R46, R47, R251). -/
def planChunk (s : State) (k : Nat) : State :=
  match req s k with
  | none => s
  | some r =>
    let reb := r.state == .rebuilding
    let left := if reb then r.rebuildLeft else r.inputLeft
    if !(reb || r.state == .prefill) || left == 0 || !benchPlans s r.bench || (frozenFor s r.conv).isSome ||
        s.plan.units.any (fun u => u.req == k && u.cls == .chunk) then s
    else match planMiss s r with
      | none => s
      | some miss =>
        let u := without { cls := .chunk, bench := r.bench, req := k, conv := r.conv, rebuild := reb } miss
        let size := fieldOf (bench s r.bench).record 47 32
        match firstFit s u (((chunkLens 12 size).map (min left)).eraseDups) with
        | none => putReq s { r with passed := r.passed + 1 }
        | some fit =>
          let len := if reb then fit else tallyCut (tallyRoom s r.bench r.params) fit left
          if len = 0 then s
          else match tryAdd s { u with len := len } with
            | none => putReq s { r with passed := r.passed + 1 }
            | some s1 =>
              let s2 := putReq s1 { r with passed := 0 }
              if reb then s2 else chargeTally s2 r.bench r.params len false

/-- The depth limit of a step (R237); a sequence takes no more positions than R152 leaves it. -/
def depthLimit (s : State) (r : Req) (c : Conv) : Nat :=
  if r.speculate && fieldOf r.params 247 240 != 0 then
    let l := min (min (manExtra (manOf s r.bench)) (r.maxNew - r.answers - 1)) (1048576 - c.log.length - 1)
    match tallyRoom s r.bench r.params with
    | some b => min l (b - 1)
    | none => l
  else 0

/-- A tick in TALLY_WAIT, on the tally's record where it has one (R482). -/
def countWait (s : State) (r : Req) : State :=
  match tallyOf s r.bench r.params with
  | some t => { s with work := { s.work with
      tallies := tput s.work.tallies (tallyIdOf r.params) { t with waitTicks := t.waitTicks + 1 } } }
  | none => s

/-- A token step planned where its tally, its records, its pages, its ring and its bench allow (R244, R247, R251). -/
def planStep (s : State) (k : Nat) : State :=
  match req s k with
  | none => s
  | some r =>
    match conv s r.conv with
    | none => s
    | some c =>
      if !(r.state == .generating || r.state == .tallyWait) || !benchPlans s r.bench || c.frozen.isSome then s
      else if tallyRoom s r.bench r.params = some 0 then
        let s1 := if r.state = .generating then
            count (putReq s { r with state := .tallyWait }) (bn r.bench 0x500) 1 else s
        countWait s1 r
      else
        let s0 := if r.state = .tallyWait then putReq s { r with state := .generating } else s
        match planMiss s0 r with
        | none => s0
        | some miss =>
          if recordWaits s0 r || decide (1048576 ≤ c.log.length) ||
              decide (8192 ≤ (s0.plan.units.filter (fun u => u.cls == .step)).length) then s0
          else
            let depth := depthLimit s0 r c
            let need := if probing s0 r.bench then probeCount s0 r.bench (c.length + 1) else 1 + depth
            let s1 := readConsumer s0 k need
            if !hasRoom s1 k need then count s1 (bn r.bench 0x4F8) 1
            else (tryAdd s1 (without { cls := .step, bench := r.bench, req := k, conv := r.conv, depth := depth } miss)).getD s1

/-- The bench's vector work may be planned (R70). -/
def vecPlans (s : State) (b : Nat) : Bool := hasRecord s b && (bench s b).state != .halted

/-- Searches and merge rounds that wait on a bench whose role no longer serves them are refused at the plan (R64). -/
def refuseVec (s : State) (n : Nat) : State :=
  let bad (b : Nat) : Bool := hasRecord s b && !isCacheOrMixed (role s b)
  let gone := s.plan.searches.filter (fun q => bad q.cpl.bench)
  let s1 := gone.foldl (fun s q => due s q.cpl .badDescriptor 0 n)
    { s with plan := { s.plan with searches := s.plan.searches.filter (fun q => !bad q.cpl.bench) } }
  let s2 := s1.shards.foldl (fun s x =>
    match x.2.round, bad x.2.bench with
    | some (_, _, some c), true => due { s with shards := tput s.shards x.1 { x.2 with round := none } } c .badDescriptor 0 n
    | some (_, _, none), true => { s with shards := tput s.shards x.1 { x.2 with round := none } }
    | _, _ => s) s1
  flushDue s2

/-- A search planned on its bench's own shards (R295). -/
def planSearch (s : State) (q : Search) : State :=
  if vecPlans s q.cpl.bench then (tryAdd s { cls := .search, bench := q.cpl.bench, req := q.id }).getD s else s

/-- The merge units of a shard's round, one per frozen entry left (R296). -/
def planMerges (s : State) (x : Nat × Shard) : State :=
  match x.2.round with
  | some (frozen, done, _) =>
    if vecPlans s x.2.bench then
      (List.range (frozen - done)).foldl (fun s _ => (tryAdd s { cls := .merge, bench := x.2.bench, req := x.1 }).getD s) s
    else s
  | none => s

/-- Keys in order of a stamp, ties in order of key. -/
def byStamp (l : List (Stamp × Nat)) : List Nat :=
  (l.foldl (fun acc x =>
    let (a, z) := acc.span (fun y => stampLe y.1 x.1)
    a ++ x :: z) []).map (·.2)

/-- The plan of tick n + 1, made by the firmware at commit n, class by class (R46). -/
def planUnits (s' : State) (n : Nat) : State :=
  let s := refuseVec s' n
  let s0 := lateFlash { s with plan := { s.plan with units := [], tick := some (n + 1), byFw := true } } n
  let chunks (s : State) (old : Bool) : List Nat :=
    byStamp ((s.work.reqs.filter (fun r => (r.2.state == .prefill || r.2.state == .rebuilding) &&
      decide (4 ≤ r.2.passed) == old)).map (fun r => (r.2.brought, r.1)))
  let s1 := (chunks s0 true).foldl planChunk s0
  let s2 := (byStamp ((s1.work.reqs.filter (fun r => r.2.state == .generating || r.2.state == .tallyWait)).map
    (fun r => (r.2.admitted, r.1)))).foldl planStep s1
  let s3 := (chunks s0 false).foldl planChunk s2
  let s4 := s3.plan.searches.foldl planSearch s3
  s4.shards.foldl planMerges s4

/-! ## Coasting (R403, R404) -/

/-- One step of the last plan carried into a coasting plan; one left out for its ring is counted (R244). -/
def coastStep (s : State) (u : WorkUnit) : State :=
  match req s u.req, conv s u.conv with
  | some r, some c =>
    if u.cls == .step && r.state == .generating && c.frozen.isNone && benchPlans s u.bench && r.bench == u.bench &&
        tallyRoom s r.bench r.params != some 0 && !recordWaits s r && c.length % 64 != 0 then
      let need := if probing s r.bench then probeCount s r.bench (c.length + 1) else 1
      let s1 := readConsumer s u.req need
      if hasRoom s1 u.req need then
        { s1.bump with plan := { s1.plan with units := s1.plan.units ++
          [{ u with run := s1.fresh, depth := 0, dropped := false, late := false }] } }
      else count s1 (bn u.bench 0x4F8) 1
    else s
  | _, _ => s

/-- The plan of tick `t` without the firmware: the steps of its last plan for at most five ticks in a row, empty from
the sixth; both are counted. -/
def coastPlan (s : State) (t : Nat) : State :=
  let s0 := count { s with
    plan := { s.plan with units := [], tick := some t, byFw := false }, fw := { s.fw with coast := s.fw.coast + 1 } } 0x70070 1
  if s.fw.coast < 5 then s.plan.lastFw.foldl coastStep s0 else s0

/-- Steps of the last plan leave the benches whose record changes at a switch during a coast (R403). -/
def pruneCoast (s0 s : State) : State :=
  { s with plan := { s.plan with lastFw := s.plan.lastFw.filter (fun u => (bench s0 u.bench).record == (bench s u.bench).record) } }

/-- Step 6 of commit n: the plan of tick n + 1. A tick that enters Rest has an empty one. -/
def makePlan (s : State) (n : Nat) : State :=
  if s.pwr.restDue then { s with plan := { s.plan with units := [], tick := some (n + 1), byFw := false } }
  else if firmwareUp s then planUnits s n
  else coastPlan s (n + 1)

/-! ## Windows and lists that lapse -/

/-- The goodput window of bench b whose last tick is n closes (R421), once. -/
def closeGoodput (s : State) (n b : Nat) : State :=
  let w := bnF s b 0x0B8 31 0
  let x := bench s b
  if w = 0 ∨ (n + 1) % w ≠ 0 ∨ x.goodputEnd = some n then s
  else
    let tries := x.progress + x.recovery + x.dropped
    let v := if tries = 0 then 10000 else 10000 * (x.progress - x.lost) / tries
    let s1 := setBench s b (fun x => { x with
      goodput := v, goodputWin := n / w, goodputEnd := some n, progress := 0, recovery := 0, dropped := 0, lost := 0 })
    if v < fieldOf x.record 63 48 then logErr s1 .accounting 1 (b := b) (d0 := v) else s1

/-- A key leaves the done list 3,000 ticks after its end; a final record that still waits is discarded and counted
(R208, R247). -/
def lapseDone (s : State) (n k : Nat) : State :=
  let old (d : Done) : Bool := d.req == k && decide (d.tick + 3000 ≤ n)
  if s.work.done.any old then
    let dead := s.work.finals.filter (fun w => w.req == k)
    let s1 := { s with work := { s.work with
      done := s.work.done.filter (fun d => !old d), finals := s.work.finals.filter (fun w => w.req != k) } }
    dead.foldl (fun s w => count s (bn w.bench 0x4F8) 1) s1
  else s

/-- A binding whose key has not become live within 3,000 ticks is removed (R243); one whose final record waits stays.
-/
def lapseBinding (s : State) (n k : Nat) : State :=
  match bindOf s k with
  | some b =>
    let seen := b.seen || (match req s k with | some r => reqLive r.state | none => false)
    if seen then { s with work := { s.work with binds := tput s.work.binds k { b with seen := true } } }
    else if b.tick + 3000 ≤ n ∧ (doneOf s k).isNone then { s with work := { s.work with binds := tdel s.work.binds k } }
    else s
  | none => s

/-- Every window and list that lapses at commit n. -/
def lapses (s : State) (n : Nat) : State :=
  let s1 := (List.range 16).foldl (fun s b => closeGoodput s n b) s
  let s2 := ((s1.work.done.filter (fun d => decide (d.tick + 3000 ≤ n))).map (·.req)).foldl (fun s k => lapseDone s n k) s1
  (s2.work.binds.map (·.1)).foldl (fun s k => lapseBinding s n k) s2

end Sys2Proof.Machine
end

