-- ==== Sys2Proof/Machine/Windows.lean ====
section
/-! DEFINITION. Remote windows and queue pairs: their descriptors, window packets at both ends, credits, contexts and
misses, and the host's remote operations (R335 to R361). -/

namespace Sys2Proof.Machine

/-! ## Landing-acting descriptors (R33, R374) -/

/-- A record written when the work is done, with the tick it is written in (R375). -/
def doneNow (s : State) (c : Cpl) (st : Status) (result : Nat) : State := complete s c st result s.time.now.tick

/-- A descriptor that acts when its doorbell lands. -/
def applyLanding (c : Cpl) (o : Nat) (f : Cpl → HostDesc → State → State) (d : HostDesc) (s : State) : State :=
  if inKeep s || s.time.halted then doneNow s c .benchHalted 0
  else if fieldOf d.raw 19 16 != d.ring / 16 || dOp d != o then doneNow s c .badDescriptor 0
  else f c d s

def landRow (o : Nat) (f : Cpl → HostDesc → State → State) (d : HostDesc) (s : State) :
    Host.Outcome State Fault Refusal :=
  run d.stamp (fun s => applyLanding (cplOf s d) o f d (takeLanded d s)) s

/-! ## Windows (R335 to R339) -/

/-- An index's generation: 1 until it is first raised. -/
def genOf (s : State) (i : Nat) : Nat := (tget s.win.gens i).getD 1

/-- A generation raised by 1 modulo 2¹⁶, passing over 0 (R338). -/
def nextGen (g : Nat) : Nat := if (g + 1) % 2 ^ 16 = 0 then 1 else (g + 1) % 2 ^ 16

/-- A window closed and its generation raised (R338). -/
def closeWindow (s : State) (i : Nat) : State :=
  { s with win := { s.win with wins := tdel s.win.wins i, gens := tput s.win.gens i (nextGen (genOf s i)) } }

/-- A request, with its landing stamp, reaches a revoked window still: it names its old generation and was stamped
before the revoke took effect (R338, R361). -/
def reaches (c : Closing) (x : Stamp × WPacket) : Bool :=
  fieldOf x.2.wh 191 176 == c.index && fieldOf x.2.wh 207 192 == c.window.gen && stampLt x.1 c.instant

/-- Requests that have landed and are not yet handled (R358, R359). -/
def unhandled (s : State) : List (Stamp × WPacket) := s.win.parked ++ s.win.held

/-- A window is revoked: closed at once but for requests stamped before, for which its old generation, and the
descriptor's record, wait (R338). -/
def revokeWindow (s : State) (i : Nat) (w : Window) (cpl : Cpl) : State :=
  let s1 := closeWindow s i
  let c : Closing := { index := i, window := w, instant := s.time.now, cpl := cpl, result := i + 2 ^ 16 * genOf s1 i }
  if (unhandled s).any (reaches c) then { s1 with win := { s1.win with closing := s1.win.closing ++ [c] } }
  else doneNow s1 cpl .ok c.result

/-- Revokes complete once no request of the old generation is left (R338). -/
def sweepClosing (s : State) : State :=
  let ended := s.win.closing.filter (fun c => !(unhandled s).any (reaches c))
  ended.foldl (fun s c => doneNow s c.cpl .ok c.result)
    { s with win := { s.win with closing := s.win.closing.filter (fun c => (unhandled s).any (reaches c)) } }

/-- Windows closed as by WIN_REVOKE (R339). Their memory takes nothing more, from earlier requests either: the region
is gone, or the function was reset (R323, R382). -/
def revokeWhere (s : State) (f : Window → Bool) : State :=
  (s.win.wins.filter (fun w => f w.2)).foldl (fun s w => closeWindow s w.1) s

/-- The range lies in one export region of the bench (R335). -/
def exportOk (s : State) (b base len : Nat) : Bool :=
  s.fab.maps.exports.any (fun r => fieldOf r.2 195 192 == b && decide (fieldOf r.2 127 64 ≤ base) &&
    decide (base + len ≤ fieldOf r.2 127 64 + fieldOf r.2 191 128))

/-- `WN_QPC_COUNT` qp_count. -/
def qpCount (s : State) : Nat := regF s 0x50008 20 0

/-- The fields of WIN_OPEN within R335 to R337. -/
def winOpenOk (s : State) (b : Nat) (r : BitVec 512) : Bool :=
  let kind := fieldOf r 13 12
  let base := fieldOf r 511 448
  let len := fieldOf r 447 384
  let perms := fieldOf r 10 8
  zeroAt r 383 368 && zeroAt r 347 336 && zeroAt r 319 64 && zeroAt r 31 20 && zeroAt r 15 14 && decide (kind ≤ 1) &&
    perms != 0 && len % 64 == 0 && decide (64 ≤ len) && decide (len ≤ 2 ^ 40) &&
    (if bitOf r 11 then zeroAt r 367 348 else decide (fieldOf r 367 348 < qpCount s)) &&
    (if kind = 0 then base % 64 == 0 && (!perms.testBit 2 || s.bar.atomicEn)
     else base % 128 == 0 && exportOk s b base len)

/-- WIN_OPEN (R337). -/
def winOpen (c : Cpl) (d : HostDesc) (s : State) : State :=
  let r := d.raw
  let named := fieldOf r 335 320
  if !winOpenOk s c.bench r || (named != 0xFFFF && (tget s.win.wins named).isSome) then doneNow s c .badDescriptor 0
  else
    let i := if named = 0xFFFF then freeKey s.win.wins 65536 0 else named
    if 65536 ≤ i then doneNow s c .noCapacity 0
    else
      let w : Window := { bench := c.bench, kind := fieldOf r 13 12, base := fieldOf r 511 448,
                          length := fieldOf r 447 384, perms := fieldOf r 10 8,
                          bind := if bitOf r 11 then none else some (fieldOf r 367 348), gen := genOf s i }
      doneNow { s with win := { s.win with wins := tput s.win.wins i w } } c .ok (i + 2 ^ 16 * genOf s i)

/-- WIN_REVOKE (R338). -/
def winRevoke (c : Cpl) (d : HostDesc) (s : State) : State :=
  let r := d.raw
  let i := fieldOf r 335 320
  if !(zeroAt r 511 384 && zeroAt r 347 336 && zeroAt r 319 64 && zeroAt r 31 20 && zeroAt r 15 14 && zeroAt r 11 11) then
    doneNow s c .badDescriptor 0
  else match tget s.win.wins i with
    | none => doneNow s c .notFound 0
    | some w =>
      if w.bench ≠ c.bench then doneNow s c .notFound 0
      else if w.gen ≠ fieldOf r 383 368 then doneNow s c .windowRevoked 0
      else revokeWindow s i w c

def execWinOpen (d : HostDesc) (s : State) : Host.Outcome State Fault Refusal := landRow 0x50 winOpen d s
def execWinRevoke (d : HostDesc) (s : State) : Host.Outcome State Fault Refusal := landRow 0x51 winRevoke d s

/-! ## Contexts (R340, R344, R357 to R359) -/

def qpOf (s : State) (q : Nat) : Qp := tgetD s.win.qps q
def setQp (s : State) (q : Nat) (f : Qp → Qp) : State :=
  { s with win := { s.win with qps := tput s.win.qps q (f (qpOf s q)) } }

/-- Requests unanswered, descriptors waiting, or packets parked (R357). -/
def pinned (s : State) (q : Nat) : Bool :=
  !(qpOf s q).out.isEmpty || !(qpOf s q).waitCredit.isEmpty ||
    s.win.parked.any (fun p => fieldOf p.2.wh 127 108 == q)

/-- The cache of a queue pair's tile: even qpn in LT0, odd in LT1. -/
def cacheOf (s : State) (q : Nat) : List Nat := if q % 2 = 0 then s.win.cache0 else s.win.cache1

def setCache (s : State) (q : Nat) (l : List Nat) : State :=
  { s with win := if q % 2 = 0 then { s.win with cache0 := l } else { s.win with cache1 := l } }

/-- The value of a queue-pair state (R343). -/
def qpCode : QpState → Nat
  | .free => 0 | .ready => 1 | .draining => 2 | .error => 3

/-- Sends of a psn so far (R352). -/
def sendsOf (x : Qp) (psn : Nat) : Nat := (tget x.sends psn).getD 0

/-- A context as its 256 bytes lay it out, with its crc (R344). -/
def contextBits (x : Qp) : BitVec 2048 :=
  let f (lo w v : Nat) : Nat := v % 2 ^ w * 2 ^ lo
  let log := (x.log.take 8).zipIdx.foldl (fun a e =>
    a + (e.1.psn % 2 ^ 32 + 2 ^ 32 + statusCode e.1.status * 2 ^ 56 + e.1.value.toNat * 2 ^ 64) * 2 ^ (1024 + 128 * e.2)) 0
  let v := 0x5150 + 2 ^ 16 + f 672 4 (sendsOf x x.txLow) + f 676 4 (qpCode x.state) + f 680 4 x.bench + f 684 16 x.peer.toNat +
    f 700 20 x.peerQpn + f 720 16 x.peerInc + f 736 16 x.localInc + f 752 16 x.creditKib + f 768 32 x.rxUsed +
    f 800 32 x.rxLimit + f 832 32 x.txUsed + f 864 32 x.txLimit + f 896 32 x.rxExpected + f 928 32 x.txLow +
    f 960 32 x.txNext + log
  BitVec.ofNat 2048 (v + crcOf 256 v * 2 ^ 992)

/-- A fetched context keeps crc, magic and version (R344, R357). -/
def contextSound (c : BitVec 2048) : Bool :=
  fieldOf c 15 0 == 0x5150 && fieldOf c 31 16 == 1 &&
    fieldOf c 1023 992 == crcOf 256 (c.toNat - fieldOf c 1023 992 * 2 ^ 992)

/-- A context is written back to its table entry (R340, R357). -/
def writeBack (s : State) (q : Nat) : State :=
  emitTo s .pf (.bytes ((regVal s 0x50000).toNat + 256 * q) (leBytes 256 (contextBits (qpOf s q)).toNat))

/-- A context becomes the newest of its tile; the least recently used unpinned one leaves beyond 8,192. -/
def touch (s : State) (q : Nat) : State :=
  let l := q :: (cacheOf s q).filter (· != q)
  if l.length ≤ 8192 then setCache s q l
  else match l.reverse.find? (fun x => x != q && !pinned s x) with
    | some v => writeBack (setCache s q (l.filter (· != v))) v
    | none => setCache s q l

/-- A descriptor may pin the context: at most 6,144 per tile (R357). -/
def pinRoom (s : State) (q : Nat) : Bool :=
  pinned s q || decide (((cacheOf s q).filter (pinned s)).length < 6144)

/-- Bytes a packet takes in a miss buffer: packet header, window header and data. -/
def missBytes (p : WPacket) : Nat := 64 + p.data.length

/-- Bytes parked in a tile's miss buffer. -/
def parkedBytes (s : State) (tile : Nat) : Nat :=
  (s.win.parked.filter (fun p => fieldOf p.2.wh 127 108 % 2 == tile)).foldl (fun a p => a + missBytes p.2) 0

/-- Seven-eighths of 4 MiB. -/
def missFrozen (s : State) (tile : Nat) : Bool := decide (3670016 ≤ parkedBytes s tile)

/-- The buffer of 4 MiB is full: it has no room for one more request of 4,064 bytes (DESIGN CHOICE, log entry 154). -/
def missFull (s : State) (tile : Nat) : Bool := decide (4194304 < parkedBytes s tile + 4128)

/-- The stall of a tile begins when its buffer is full, and ends below seven-eighths, when it is counted in
WN_MISS_STALL and the credits withheld go back (R359). -/
def noteStall (s : State) (tile : Nat) : State :=
  let since := if tile = 0 then s.win.stall0 else s.win.stall1
  let set (s : State) (v : Option Stamp) : State :=
    { s with win := if tile = 0 then { s.win with stall0 := v } else { s.win with stall1 := v } }
  match since with
  | none => if missFull s tile then set s (some s.time.now) else s
  | some a =>
    if missFrozen s tile then s else returnCredits (count (set s none) 0x50050 (nsOf s s.time.now - nsOf s a))

/-- A packet parked while its context is fetched, one fetch per queue pair at a time (R358). -/
def parkPacket (s : State) (q : Nat) (st : Stamp) (p : WPacket) : State :=
  let s1 := count { s with win := { s.win with
    parked := s.win.parked ++ [(st, p)],
    fetching := if s.win.fetching.contains q then s.win.fetching else s.win.fetching ++ [q] } } 0x50048 1
  noteStall s1 (q % 2)

/-! ## Window packets (R350) -/

def wOffset (p : WPacket) : Nat := fieldOf p.wh 255 208
def wGen (p : WPacket) : Nat := fieldOf p.wh 207 192
def wIndex (p : WPacket) : Nat := fieldOf p.wh 191 176
def wPsn (p : WPacket) : Nat := fieldOf p.wh 175 144
def wInc (p : WPacket) : Nat := fieldOf p.wh 143 128
def wDst (p : WPacket) : Nat := fieldOf p.wh 127 108
def wSrc (p : WPacket) : Nat := fieldOf p.wh 107 88
def wLag (p : WPacket) : Nat := fieldOf p.wh 87 76
def wAckReq (p : WPacket) : Bool := bitOf p.wh 66
def wNotify (p : WPacket) : Bool := bitOf p.wh 65
def wLength (p : WPacket) : Nat := fieldOf p.wh 63 32
def wArg (p : WPacket) : Nat := fieldOf p.wh 31 0
def wType (p : WPacket) : Nat := fieldOf p.hdr 7 0
def wFrom (p : WPacket) : ModuleId := BitVec.ofNat 16 (fieldOf p.hdr 143 128)
def wTo (p : WPacket) : ModuleId := BitVec.ofNat 16 (fieldOf p.hdr 159 144)
def wEpoch (p : WPacket) : Nat := fieldOf p.hdr 175 160
def wStatus (p : WPacket) : Nat := fieldOf p.hdr 71 64

/-- The packet as links carry it: the window header opens the payload. -/
def asPacket (p : WPacket) : Packet := ⟨p.hdr, leBytes 32 p.wh.toNat ++ p.data⟩

/-- A window header. -/
def windowHdr (offset gen index psn inc dst src lag : Nat) (ackReq notify : Bool) (len arg : Nat) : BitVec 256 :=
  BitVec.ofNat 256 (arg % 2 ^ 32 + len * 2 ^ 32 + (if notify then 2 ^ 65 else 0) + (if ackReq then 2 ^ 66 else 0) +
    lag % 2 ^ 12 * 2 ^ 76 + src % 2 ^ 20 * 2 ^ 88 + dst % 2 ^ 20 * 2 ^ 108 + inc % 2 ^ 16 * 2 ^ 128 +
    psn % 2 ^ 32 * 2 ^ 144 + index % 2 ^ 16 * 2 ^ 176 + gen % 2 ^ 16 * 2 ^ 192 + offset % 2 ^ 48 * 2 ^ 208)

/-- Credit units (R356). -/
def wUnits (p : WPacket) : Nat := ceilDiv (64 + p.data.length) 64

/-- Bytes after the window header (R350). -/
def wDataLen (p : WPacket) : Nat :=
  match wType p with
  | 0x40 => wLength p
  | 0x42 => wLength p
  | 0x43 => 8
  | 0x44 => 16
  | 0x45 => 8
  | _ => 0

/-- Reserved bits, lengths and type (R312, R350; log entry 150). -/
def wpacketOk (p : WPacket) (typ : Nat) : Bool :=
  packetOk (asPacket p) && wType p == typ && fieldOf p.hdr 207 176 == 0 && zeroAt p.wh 75 67 && zeroAt p.wh 64 64 &&
    p.data.length == wDataLen p

/-! ## The receiver (R353 to R356) -/

/-- Grants are frozen: the tile's miss buffer, or completion records that wait (R359, R377). -/
def grantFrozen (s : State) (q : Nat) : Bool :=
  missFrozen s (q % 2) || !(cq s (qpOf s q).bench).waiting.isEmpty

/-- The credit limit granted anew (R356). -/
def grant (s : State) (q : Nat) : State :=
  if grantFrozen s q then s
  else setQp s q (fun x => { x with rxLimit := (x.rxUsed + 16 * x.creditKib) % 2 ^ 32 })

/-- An answer to the peer of queue pair q. -/
def wAnswer (s : State) (q typ psn : Nat) (st : Nat) (data : List Byte) : State :=
  let s1 := grant s q
  let x := qpOf s1 q
  let arg := if typ = 0x46 ∨ typ = 0x48 then x.rxLimit else 0
  launchAnswer s1 ⟨packetHdr typ 0 0 1 (32 + data.length) st 0 s.fab.self x.peer s.fab.epoch 0 0,
    leBytes 32 (windowHdr 0 0 0 psn x.peerInc x.peerQpn q 0 false false data.length arg).toNat ++ data⟩

/-- A refusal to a sender that no context answers for: W_NAK with a status. -/
def wNakTo (s : State) (p : WPacket) (st : Nat) (epoch : Nat) : State :=
  launchAnswer s ⟨packetHdr 0x47 0 0 1 32 st 0 s.fab.self (wFrom p) epoch 0 0,
    leBytes 32 (windowHdr 0 0 0 (wPsn p) 0 (wSrc p) (wDst p) 0 false false 0 0).toNat⟩

/-- psn before psn, modulo 2³². -/
def psnBelow (a b : Nat) : Bool := seqBelow a b

/-- The permission an operation needs: bit 0 read, 1 write, 2 atomic (R336). -/
def wPerm (typ : Nat) : Nat := if typ = 0x41 then 0 else if typ = 0x40 then 1 else 2

/-- Bytes of the window a request touches. -/
def wSpan (p : WPacket) : Nat := if wType p = 0x40 ∨ wType p = 0x41 then wLength p else 8

/-- The window a request of a stamp finds at its index: one being revoked, if it still reaches that (R338). -/
def windowAt (s : State) (st : Stamp) (p : WPacket) : Option Window :=
  match s.win.closing.find? (fun c => reaches c (st, p)) with
  | some c => some c.window
  | none => tget s.win.wins (wIndex p)

/-- The window's checks, in the order of R349's rows, for a request of a stamp. -/
def windowRefusal (s : State) (q : Nat) (st : Stamp) (p : WPacket) : Option Status :=
  match windowAt s st p with
  | none => some .windowRevoked
  | some w =>
    if w.gen ≠ wGen p then some .windowRevoked
    else if w.bench != (qpOf s q).bench || (match w.bind with | some x => x != q | none => false) then some .notFound
    else if w.length < wOffset p + wSpan p ∨ !w.perms.testBit (wPerm (wType p)) ∨
        (2 ≤ wPerm (wType p) ∧ wOffset p % 8 ≠ 0) ∨ 4064 < wSpan p ∨ wSpan p = 0 then some .badDescriptor
    else if inKeep s || (bench s w.bench).state == .halted then some .benchHalted
    else none

/-- Bytes of host memory: the host's own (R372). -/
def hostBytes (s : State) (addr n : Nat) : State × List Byte :=
  (s.bump, (List.range n).map (fun i => BitVec.ofNat 8 (Config.hostWord s.fresh (addr + i)).toNat))

/-- A write toward a bench's function (R446). -/
def hostWrite (s : State) (b : Nat) (o : Output) : State := emitTo s (driver s b) o

/-- A request applied to its window: the state and what it returns (R337, R347). -/
def applyWindow (s : State) (w : Window) (p : WPacket) : State × List Byte :=
  let a := w.base + wOffset p
  let typ := wType p
  if w.kind = 0 then
    if typ = 0x40 then (hostWrite s w.bench (.bytes a p.data), [])
    else if typ = 0x41 then hostBytes s a (wLength p)
    else
      hostBytes (hostWrite s w.bench (.hostAtomic a (leNat (p.data.take 8)) (leNat ((p.data.drop 8).take 8))
        (typ == 0x44))) a 8
  else if typ = 0x40 then (setMem s (memWriteBytes s.fab.mem a p.data), [])
  else if typ = 0x41 then (s, memReadBytes s.fab.mem a (wLength p))
  else
    let (s1, v, _) := applyMem s (if typ = 0x43 then 5 else 7) a p.data
    (s1, leBytes 8 v)

/-- A W_ACK through the last psn applied. -/
def ackThrough (s : State) (q : Nat) : State :=
  wAnswer (setQp s q (fun x => { x with ackDue := false, unacked := 0 })) q 0x46
    (((qpOf s q).rxExpected + 2 ^ 32 - 1) % 2 ^ 32) 0 []

/-- A result logged (R344, R353). -/
def logResult (s : State) (q psn : Nat) (st : Status) (v : Nat) : State :=
  setQp s q (fun x => { x with log := x.log ++ [{ psn := psn, status := st, value := BitVec.ofNat 64 v }] })

/-- Row 6 of R353: applied or refused; rx_expected advances either way. -/
def serveWindow (s : State) (q : Nat) (at_ : Stamp) (p : WPacket) : State :=
  let typ := wType p
  let psn := wPsn p
  let s0 := setQp s q (fun x => { x with
    rxExpected := (psn + 1) % 2 ^ 32, rxUsed := (x.rxUsed + wUnits p) % 2 ^ 32, nakAt := none })
  match windowRefusal s q at_ p, windowAt s at_ p with
  | none, some w =>
    let (s1, data) := applyWindow s0 w p
    if typ = 0x40 then
      let s2 := if wNotify p then notify s1 w.bench (wOffset p) (wLength p) (wArg p) (wIndex p) (wGen p) else s1
      if wAckReq p || decide (15 ≤ (qpOf s2 q).unacked) then ackThrough s2 q
      else setQp s2 q (fun x => { x with ackDue := true, unacked := x.unacked + 1 })
    else if typ = 0x41 then wAnswer s1 q 0x42 psn 0 data
    else wAnswer (logResult s1 q psn .ok (leNat data)) q 0x45 psn 0 data
  | r, _ =>
    let st := r.getD .windowRevoked
    wAnswer (logResult s0 q psn st 0) q 0x46 psn (statusCode st) []

/-- A duplicate (R354). -/
def serveDuplicate (s : State) (q : Nat) (p : WPacket) : State :=
  let psn := wPsn p
  let typ := wType p
  let open_ := match tget s.win.wins (wIndex p) with | some w => w.gen == wGen p | none => false
  match (qpOf s q).log.find? (fun l => l.psn == psn) with
  | some l =>
    let s1 := count s 0x50040 1
    if l.status = .ok then wAnswer s1 q 0x45 psn 0 (leBytes 8 l.value.toNat)
    else wAnswer s1 q 0x46 psn (statusCode l.status) []
  | none =>
    let s1 := if open_ then count s 0x50040 1 else count s 0x50038 1
    if typ = 0x40 then ackThrough s1 q
    else if typ = 0x41 then
      (if !open_ then wAnswer s1 q 0x46 psn (statusCode .windowRevoked) []
       else match windowRefusal s1 q s1.time.now p, tget s1.win.wins (wIndex p) with
         | none, some w =>
           let (s2, data) := applyWindow s1 w p
           wAnswer s2 q 0x42 psn 0 data
         | r, _ => wAnswer s1 q 0x46 psn (statusCode (r.getD .windowRevoked)) [])
    else s1

/-- `WN_RETRY_CTRL` timeout_us in ns. -/
def wTimeout (s : State) : Nat := 1000 * regF s 0x50010 13 0

/-- Once per timeout_us. -/
def wDue (s : State) (last : Option Stamp) : Bool :=
  match last with
  | none => true
  | some a => decide (nsOf s a + wTimeout s ≤ nsOf s s.time.now)

/-- Rows 2 to 6 of R353 for a request of a stamp whose context is in the cache. -/
def handleRequest (s0 : State) (st : Stamp) (p : WPacket) : State :=
  let q := wDst p
  let x := qpOf s0 q
  if x.state == .free || x.state == .error || x.localInc != wInc p || x.peer != wFrom p || x.peerQpn != wSrc p then
    let s1 := count s0 0x50020 1
    if wType p = 0x49 then s1 else wNakTo s1 p (statusCode .notFound) s0.fab.epoch
  else
    let s := touch s0 q
    if wType p = 0x49 then wAnswer s q 0x48 0 0 []
    else
      let psn := wPsn p
      let low := (psn + 2 ^ 32 - wLag p) % 2 ^ 32
      let s1 := setQp s q (fun x => { x with log := x.log.filter (fun l => !psnBelow l.psn low) })
      if psnBelow x.rxExpected psn then
        let s2 := count s1 0x50028 1
        if wDue s2 x.nakAt then
          wAnswer (setQp s2 q (fun x => { x with nakAt := some s2.time.now })) q 0x47 x.rxExpected 0 []
        else s2
      else if psnBelow psn x.rxExpected then serveDuplicate s1 q p
      else
        let logs := decide (2 ≤ wPerm (wType p)) || (windowRefusal s1 q st p).isSome
        if logs && decide (8 ≤ (qpOf s1 q).log.length) then
          wAnswer (count s1 0x50030 1) q 0x47 x.rxExpected 0 []
        else serveWindow s1 q st p

/-- A window request reaches its tile (R330, R331, R352, R353). -/
def landWindow (s : State) (st : Stamp) (p : WPacket) : State :=
  let q := wDst p
  if (tableFor s (wEpoch p)).isNone then wNakTo (count s 0x40060 1) p (statusCode .epochStale) (wEpoch p)
  else if qpCount s ≤ q ∨ (cacheOf s q).contains q then handleRequest s st p
  else parkPacket s q st p

/-- A window request lands; while the miss buffer of its tile stalls it waits in the links' buffers (R359). -/
def takeWindow (typ : Nat) (s : State) (p : WPacket) : State :=
  if !wpacketOk p typ then count s 0x40040 1
  else if wTo p ≠ s.fab.self then forwardPacket s (asPacket p)
  else if winStalled s (wDst p % 2) then { s with win := { s.win with held := s.win.held ++ [(s.time.now, p)] } }
  else landWindow s s.time.now p

/-- Requests that waited for a stall to end go on, in the order they came (R359). -/
def resumeWindows (s : State) : State :=
  s.win.held.foldl (fun s x =>
    if winStalled s (wDst x.2 % 2) then { s with win := { s.win with held := s.win.held ++ [x] } }
    else landWindow s x.1 x.2) { s with win := { s.win with held := [] } }

/-! ## The sender (R345 to R349, R352, R356) -/

/-- Operations of a queue pair end with a status (R343, R349). -/
def endOps (s : State) (q : Nat) (st : Status) : State :=
  let l := s.fab.ops.filter (fun o => o.2.target == 0 && o.2.qpn == q)
  l.foldl (fun s o => complete s o.2.cpl st (rmaResult o.2) s.time.now.tick)
    { s with fab := { s.fab with ops := s.fab.ops.filter (fun o => !(o.2.target == 0 && o.2.qpn == q)) } }

/-- A queue pair becomes FREE; its last incarnation stays known (R342), and its destroys complete. -/
def freeQp (s : State) (q : Nat) : State :=
  let x := qpOf s q
  let s1 := setCache (setQp s q (fun x => { localInc := x.localInc })) q ((cacheOf s q).filter (· != q))
  match x.destroy with
  | some c => doneNow s1 c .ok q
  | none => s1

/-- A DRAINING queue pair with nothing outstanding becomes FREE (R343). -/
def settleQp (s : State) (q : Nat) : State :=
  let x := qpOf s q
  if x.state == .draining && !s.fab.ops.any (fun o => o.2.target == 0 && o.2.qpn == q) then freeQp s q else s

/-- A queue pair enters ERROR: everything outstanding completes ST_NOT_FOUND (R343). -/
def qpError (s : State) (q : Nat) : State :=
  endOps (setQp s q (fun x => { x with state := .error, out := [], waitCredit := [], sends := [], txLow := x.txNext })) q .notFound

/-- A request packet leaves: under the present epoch, with its lag, and one more send of its psn. -/
def sendWindow (s : State) (q : Nat) (p : WPacket) (low : Nat) : State :=
  let lag := (wPsn p + 2 ^ 32 - low) % 2 ^ 32
  let p1 : WPacket := ⟨withFieldOf p.hdr 175 160 s.fab.epoch, withFieldOf p.wh 87 76 lag, p.data⟩
  launch (setQp s q (fun x => { x with
    sends := tput x.sends (wPsn p) (sendsOf x (wPsn p) + 1)
    out := x.out.map (fun o => if o.1 = wPsn p then (o.1, p1, o.2.2) else o) })) (asPacket p1)

/-- An atomic. -/
def isAtomicW (p : WPacket) : Bool := wType p == 0x43 || wType p == 0x44

/-- The next request may leave: credit, 4,096 unanswered, 8 atomics, budget (R348, R352, R355, R356). -/
def windowRoom (x : Qp) (p : WPacket) : Bool :=
  !psnBelow x.txLimit ((x.txUsed + wUnits p) % 2 ^ 32) && decide (x.out.length < 4096) &&
    (!isAtomicW p || decide ((x.out.filter (fun o => isAtomicW o.2.1)).length < 8))

/-- Waiting requests of a queue pair leave in order; one that waits for credit asks for it (R356). -/
def pumpQp (s : State) (q : Nat) : Nat → State
  | 0 => s
  | fuel + 1 =>
    let x := qpOf s q
    match x.waitCredit with
    | [] => s
    | (p, op) :: rest =>
      let bytes := 32 * pUnits (asPacket p)
      if windowRoom x p && linkRoom s x.bench bytes then
        let low := if x.out.isEmpty then wPsn p else x.txLow
        let s1 := setQp (spend s x.bench bytes) q (fun x => { x with
          waitCredit := rest, out := x.out ++ [(wPsn p, p, op)], txUsed := (x.txUsed + wUnits p) % 2 ^ 32, txLow := low })
        pumpQp (sendWindow s1 q p low) q fuel
      else if psnBelow x.txLimit ((x.txUsed + wUnits p) % 2 ^ 32) && wDue s x.askedAt then
        launch (setQp s q (fun x => { x with askedAt := some s.time.now }))
          ⟨packetHdr 0x49 0 x.bench 3 32 0 0 s.fab.self x.peer s.fab.epoch 0 0,
           leBytes 32 (windowHdr 0 0 0 0 x.peerInc x.peerQpn q 0 false false 0 0).toNat⟩
      else s

/-- Waiting requests of every queue pair, at the start of a tick's budget window (R348). -/
def pumpWindows (s : State) : State :=
  s.win.qps.foldl (fun s x => pumpQp s x.1 (x.2.waitCredit.length + 1)) s

/-- An answered request leaves the unanswered ones; tx_low moves to the lowest left. -/
def answered (s : State) (q psn : Nat) : State :=
  setQp s q (fun x =>
    let out := x.out.filter (fun o => o.1 != psn)
    let low := match out with
      | o :: _ => o.1
      | [] => (match x.waitCredit with | w :: _ => wPsn w.1 | [] => x.txNext)
    { x with out := out, txLow := low, sends := tdel x.sends psn })

/-- An answer moves its operation on, and lets waiting requests leave. -/
def windowDone (s : State) (q psn : Nat) (st : Status) (bytes old : Nat) : State :=
  match (qpOf s q).out.find? (fun o => o.1 == psn) with
  | none => s
  | some o => settleQp (stepOp (answered s q psn) o.2.2 st bytes old) q

/-- The peer's limit, taken when it is ahead (R356). -/
def raiseLimit (s : State) (q v : Nat) : State :=
  setQp s q (fun x => if psnBelow x.txLimit v then { x with txLimit := v } else x)

/-- Unanswered requests are sent again; the queue pair enters ERROR where one of them has had its max_retries sends
(R352). -/
def resend (s : State) (q : Nat) (l : List (Nat × WPacket × Nat)) : State :=
  let x := qpOf s q
  if l.any (fun o => decide (regF s 0x50010 19 16 ≤ sendsOf x (wPsn o.2.1))) then qpError s q
  else l.foldl (fun s o => sendWindow s q o.2.1 x.txLow) s

/-- Unanswered requests from a psn are sent again (R352). -/
def resendFrom (s : State) (q psn : Nat) : State := resend s q ((qpOf s q).out.filter (fun o => !psnBelow o.1 psn))

/-- The answer belongs to this queue pair: from its peer, naming its incarnation; a refusal by a forwarder names
none. -/
def answerFor (s : State) (p : WPacket) : Bool :=
  let x := qpOf s (wDst p)
  x.state != .free && ((x.peer == wFrom p && x.localInc == wInc p) || (wType p == 0x47 && wStatus p != 0 && wInc p == 0))

/-- W_ACK (R349, R350, R356): every write through psn is answered; a status refuses psn itself. -/
def windowAck (s : State) (p : WPacket) : State :=
  let q := wDst p
  let psn := wPsn p
  let st := packetStatus (wStatus p)
  let l := (qpOf s q).out.filter (fun o => wType o.2.1 == 0x40 && (psnBelow o.1 psn || (o.1 == psn && st == .ok)))
  let s1 := l.foldl (fun s o => windowDone s q o.1 .ok (wLength o.2.1) 0) s
  let s2 := if st = .ok then s1 else windowDone s1 q psn st 0 0
  let s3 := raiseLimit s2 q (wArg p)
  pumpQp s3 q ((qpOf s3 q).waitCredit.length + 1)

/-- W_READ_RESP (R347): the data is written, then the operation moves on. -/
def windowReadResp (s : State) (p : WPacket) : State :=
  let q := wDst p
  match (qpOf s q).out.find? (fun o => o.1 == wPsn p && wType o.2.1 == 0x41) with
  | none => s
  | some o =>
    match tget s.fab.ops o.2.2 with
    | none => s
    | some r =>
      let s1 := cplWrite s r.cpl (.bytes (r.addr + (wOffset o.2.1 - r.remote)) p.data)
      let s2 := windowDone s1 q (wPsn p) .ok p.data.length 0
      pumpQp s2 q ((qpOf s2 q).waitCredit.length + 1)

/-- W_ATOM_RESP (R347): the old value is written to local_addr. -/
def windowAtomResp (s : State) (p : WPacket) : State :=
  let q := wDst p
  match (qpOf s q).out.find? (fun o => o.1 == wPsn p && isAtomicW o.2.1) with
  | none => s
  | some o =>
    match tget s.fab.ops o.2.2 with
    | none => s
    | some r =>
      let s1 := cplWrite s r.cpl (.bytes r.addr (p.data.take 8))
      let s2 := windowDone s1 q (wPsn p) .ok 0 (leNat (p.data.take 8))
      pumpQp s2 q ((qpOf s2 q).waitCredit.length + 1)

/-- A stale refusal of a window request (R331, R352): sent again under the present epoch with the same psn. -/
def windowStale (s : State) (p : WPacket) : State :=
  let q := wDst p
  match (qpOf s q).out.find? (fun o => o.1 == wPsn p) with
  | none => s
  | some o => if epochOlder (wEpoch p) (wEpoch o.2.1) then s else resend s q [o]

/-- W_NAK (R350, R352): resend from psn, or the queue pair is refused with a status. -/
def windowNak (s : State) (p : WPacket) : State :=
  let q := wDst p
  let st := packetStatus (wStatus p)
  if st = .ok then resendFrom s q (wPsn p)
  else if st = .epochStale then windowStale s p
  else settleQp (endOps (setQp s q (fun x => { x with out := [], waitCredit := [], sends := [], txLow := x.txNext })) q st) q

/-- An answer lands. -/
def takeWindowAnswer (typ : Nat) (f : State → WPacket → State) (s : State) (p : WPacket) : State :=
  if !wpacketOk p typ then count s 0x40040 1
  else if wTo p ≠ s.fab.self then forwardPacket s (asPacket p)
  else if answerFor s p then f s p else s

/-! ## Queue-pair descriptors (R341 to R343) -/

/-- QP_CREATE (R340, R342). With qp_count 0 it is refused before its reserved bits are looked at (R10; DESIGN CHOICE, log
entry 142). -/
def qpCreate (c : Cpl) (d : HostDesc) (s : State) : State :=
  let r := d.raw
  let q := fieldOf r 191 172
  let peer : ModuleId := BitVec.ofNat 16 (fieldOf r 151 136)
  let credit := fieldOf r 319 304
  if qpCount s = 0 then doneNow s c .noCapacity q
  else if !(zeroAt r 511 320 && zeroAt r 303 288 && zeroAt r 135 64 && zeroAt r 31 20 && zeroAt r 15 8) ||
      decide (qpCount s ≤ q) || decide (credit < 16) || decide (4096 < credit) ||
      (qpOf s q).state != .free || fieldOf r 207 192 == 0 || fieldOf r 207 192 == (qpOf s q).localInc ||
      peer == s.fab.self || (routeOf s.fab.maps peer).isNone then doneNow s c .badDescriptor q
  else
    let x : Qp := { state := .ready, bench := c.bench, peer := peer, peerQpn := fieldOf r 171 152,
                    localInc := fieldOf r 207 192, peerInc := fieldOf r 223 208, txNext := fieldOf r 255 224,
                    txLow := fieldOf r 255 224, rxExpected := fieldOf r 287 256, creditKib := credit,
                    rxLimit := 16 * credit }
    doneNow (touch (setQp s q (fun _ => x)) q) c .ok q

/-- QP_DESTROY (R340, R343), with qp_count 0 as QP_CREATE (log entry 142). -/
def qpDestroy (c : Cpl) (d : HostDesc) (s : State) : State :=
  let r := d.raw
  let q := fieldOf r 191 172
  let x := qpOf s q
  if qpCount s = 0 then doneNow s c .noCapacity q
  else if !(zeroAt r 511 320 && zeroAt r 303 288 && zeroAt r 135 64 && zeroAt r 31 20 && zeroAt r 15 9) ||
      decide (qpCount s ≤ q) || (x.state != .free && x.bench != c.bench) then doneNow s c .badDescriptor q
  else match x.state with
    | .free => doneNow s c .notFound q
    | .error => doneNow (freeQp s q) c .ok q
    | .ready =>
      if bitOf r 8 then doneNow (freeQp (endOps s q .cancelled) q) c .ok q
      else settleQp (setQp s q (fun x => { x with state := .draining, destroy := some c })) q
    | .draining =>
      if bitOf r 8 then doneNow (freeQp (endOps s q .cancelled) q) c .ok q
      else doneNow s c .badDescriptor q

def execQpCreate (d : HostDesc) (s : State) : Host.Outcome State Fault Refusal := landRow 0x52 qpCreate d s
/-- QP_DESTROY with abort 0. -/
def execQpDestroy (d : HostDesc) (s : State) : Host.Outcome State Fault Refusal := landRow 0x53 qpDestroy d s
/-- QP_DESTROY with abort 1. -/
def execQpDestroyAbort (d : HostDesc) (s : State) : Host.Outcome State Fault Refusal := landRow 0x53 qpDestroy d s

/-! ## Remote operations (R345 to R348) -/

/-- The fields of a remote operation within R345. -/
def rmaOk (r : BitVec 512) : Bool :=
  let op := fieldOf r 7 0
  let len := fieldOf r 447 416
  let target := fieldOf r 9 8
  let remote := fieldOf r 287 240
  zeroAt r 207 192 && zeroAt r 171 160 && zeroAt r 127 64 && zeroAt r 31 20 && zeroAt r 15 12 && decide (target ≤ 1) &&
    (!bitOf r 11 || (op == 0x54 && target == 0)) &&
    (!bitOf r 10 || (target == 1 && (op == 0x54 || op == 0x55))) &&
    (if op = 0x70 then len == 0 && zeroAt r 511 448
     else if op = 0x56 ∨ op = 0x57 then len == 8 && remote % 8 == 0
     else decide (1 ≤ len) && decide (len ≤ if target = 0 then 2 ^ 30 else 2 ^ 20))

/-- A new operation. -/
def newOp (s : State) (c : Cpl) (r : BitVec 512) (left : Nat) : Rma × Nat × State :=
  let o : Rma := { cpl := c, target := fieldOf r 9 8, op := fieldOf r 7 0, qpn := fieldOf r 191 172,
                   addr := fieldOf r 511 448, length := fieldOf r 447 416, remote := fieldOf r 287 240, left := left }
  let k := s.fab.nextOp
  (o, k, { s with fab := { s.fab with ops := tput s.fab.ops k o, nextOp := k + 1 } })

/-- The data a write carries. -/
def rmaData (d : HostDesc) : List Byte := match d.data with | .bytes bs => bs | _ => []

/-- Byte i of the data a write names. -/
def dataByte (d : HostDesc) (i : Nat) : Byte := (rmaData d).getD i 0

/-- A write or read cut into packets of 4,064 bytes: offset and length of each (R346). -/
def cuts (n : Nat) : List (Nat × Nat) :=
  (List.range (ceilDiv n 4064)).map (fun i => (4064 * i, min 4064 (n - 4064 * i)))

/-- The request packets of a queue-pair operation. -/
def windowPackets (s : State) (x : Qp) (d : HostDesc) : List WPacket :=
  let r := d.raw
  let op := fieldOf r 7 0
  let typ := if op = 0x54 then 0x40 else if op = 0x55 then 0x41 else if op = 0x56 then 0x43 else 0x44
  let pieces := if op = 0x54 ∨ op = 0x55 then cuts (fieldOf r 447 416) else [(0, 8)]
  pieces.zipIdx.map (fun k =>
    let last := decide (k.2 + 1 = pieces.length)
    let data := if op = 0x54 then (List.range k.1.2).map (fun i => dataByte d (k.1.1 + i))
      else if op = 0x55 then []
      else leBytes 8 (fieldOf r 415 352) ++ (if op = 0x57 then leBytes 8 (fieldOf r 351 288) else [])
    let note := last && bitOf r 11
    ⟨packetHdr typ 0 x.bench 3 (32 + data.length) 0 0 s.fab.self x.peer s.fab.epoch 0 0,
     windowHdr (fieldOf r 287 240 + k.1.1) (fieldOf r 239 224) (fieldOf r 223 208) (x.txNext + k.2) x.peerInc x.peerQpn
       (fieldOf r 191 172) 0 last note (if op = 0x55 then k.1.2 else data.length)
       (if note then fieldOf r 159 128 else 0), data⟩)

/-- An operation on a queue pair (R346, R349). -/
def rmaQp (c : Cpl) (d : HostDesc) (s : State) : State :=
  let r := d.raw
  let q := fieldOf r 191 172
  let x := qpOf s q
  if qpCount s = 0 then doneNow s c .noCapacity 0
  else if decide (qpCount s ≤ q) || (x.state != .free && x.bench != c.bench) || x.state == .draining then
    doneNow s c .badDescriptor 0
  else if x.state == .free || x.state == .error then doneNow s c .notFound 0
  else if fieldOf r 7 0 = 0x70 then settleFences (newOp s c r 0).2.2
  else if !pinRoom s q then doneNow s c .noCapacity 0
  else
    let ps := windowPackets s x d
    let (_, k, s1) := newOp s c r ps.length
    let s2 := setQp (touch s1 q) q (fun x => { x with
      waitCredit := x.waitCredit ++ ps.map (fun p => (p, k)), txNext := (x.txNext + ps.length) % 2 ^ 32 })
    pumpQp s2 q ((qpOf s2 q).waitCredit.length + 1)

/-- The line operations of a rack write or read: line address, first byte and bytes of the range in it. -/
def lines (remote n : Nat) : List Nat :=
  (List.range ((remote + n - 1) / 128 + 1 - remote / 128)).map (fun i => 128 * (remote / 128 + i))

/-- The payload of a line WRITE: mask, then 128 bytes (R313). -/
def linePayload (d : HostDesc) (remote n line : Nat) : List Byte :=
  let (a, m) := overlap remote n line
  leBytes 16 ((2 ^ m - 1) * 2 ^ (a - line)) ++
    (List.range 128).map (fun i => if a ≤ line + i ∧ line + i < a + m then dataByte d (line + i - remote) else 0)

/-- An operation on rack memory (R346): line operations, an atomic, or a fence of its pair. -/
def rmaRack (c : Cpl) (d : HostDesc) (s : State) : State :=
  let r := d.raw
  let op := fieldOf r 7 0
  let remote := fieldOf r 287 240
  let n := fieldOf r 447 416
  let ls := if op = 0x54 ∨ op = 0x55 then lines remote n else [remote]
  let typ := if op = 0x54 then 3 else if op = 0x55 then 1 else if op = 0x56 then 5 else if op = 0x57 then 7 else 9
  let (_, k, s1) := newOp s c r ls.length
  let s2 := ls.zipIdx.foldl (fun s l =>
    let a := l.1
    match tget s.fab.maps.rackmap (a / 2 ^ 43) with
    | none => stepOp s k .notFound 0 0
    | some t =>
      let payload := if op = 0x54 then linePayload d remote n a
        else if op = 0x56 then leBytes 8 (fieldOf r 415 352)
        else if op = 0x57 then leBytes 8 (fieldOf r 415 352) ++ leBytes 8 (fieldOf r 351 288) else []
      let flagged := bitOf r 10 && decide (l.2 + 1 = ls.length)
      let p : Packet := ⟨packetHdr typ (if flagged then 4 else 0) c.bench 0 payload.length 0 0 s.fab.self t s.fab.epoch 0
        (if op = 0x70 then 0 else a), payload⟩
      { s with fab := { s.fab with waits := s.fab.waits ++ [(p, some k)] } }) s1
  pumpRack s2

/-- A remote operation by its target (R345). -/
def rmaOp (c : Cpl) (d : HostDesc) (s : State) : State :=
  if !rmaOk d.raw then doneNow s c .badDescriptor 0
  else if fieldOf d.raw 9 8 = 0 then rmaQp c d s else rmaRack c d s

def execRmaWrite (d : HostDesc) (s : State) : Host.Outcome State Fault Refusal := landRow 0x54 rmaOp d s
def execRmaRead (d : HostDesc) (s : State) : Host.Outcome State Fault Refusal := landRow 0x55 rmaOp d s
def execRmaAdd (d : HostDesc) (s : State) : Host.Outcome State Fault Refusal := landRow 0x56 rmaOp d s
def execRmaCas (d : HostDesc) (s : State) : Host.Outcome State Fault Refusal := landRow 0x57 rmaOp d s
/-- RMA_WRITE with target RACK. -/
def execRmaWriteRack (d : HostDesc) (s : State) : Host.Outcome State Fault Refusal := landRow 0x54 rmaOp d s
/-- RMA_READ with target RACK. -/
def execRmaReadRack (d : HostDesc) (s : State) : Host.Outcome State Fault Refusal := landRow 0x55 rmaOp d s
/-- RMA_ADD with target RACK. -/
def execRmaAddRack (d : HostDesc) (s : State) : Host.Outcome State Fault Refusal := landRow 0x56 rmaOp d s
/-- RMA_CAS with target RACK. -/
def execRmaCasRack (d : HostDesc) (s : State) : Host.Outcome State Fault Refusal := landRow 0x57 rmaOp d s
def execFence (d : HostDesc) (s : State) : Host.Outcome State Fault Refusal := landRow 0x70 rmaOp d s
/-- FENCE with target RACK. -/
def execFenceRack (d : HostDesc) (s : State) : Host.Outcome State Fault Refusal := landRow 0x70 rmaOp d s

/-! ## Window packets and the events of queue pairs -/

/-- The shape of a window packet's row. -/
def runWindow (t : Stamp) (p : WPacket) (f : State → State) (s : State) : Host.Outcome State Fault Refusal :=
  runPacket t (asPacket p) f s

def execWWrite (t : Stamp) (p : WPacket) (s : State) : Host.Outcome State Fault Refusal := runWindow t p (fun s => takeWindow 0x40 s p) s
def execWRead (t : Stamp) (p : WPacket) (s : State) : Host.Outcome State Fault Refusal := runWindow t p (fun s => takeWindow 0x41 s p) s
def execWAdd (t : Stamp) (p : WPacket) (s : State) : Host.Outcome State Fault Refusal := runWindow t p (fun s => takeWindow 0x43 s p) s
def execWCas (t : Stamp) (p : WPacket) (s : State) : Host.Outcome State Fault Refusal := runWindow t p (fun s => takeWindow 0x44 s p) s
def execWReadResp (t : Stamp) (p : WPacket) (s : State) : Host.Outcome State Fault Refusal :=
  runWindow t p (fun s => takeWindowAnswer 0x42 windowReadResp s p) s
def execWAtomResp (t : Stamp) (p : WPacket) (s : State) : Host.Outcome State Fault Refusal :=
  runWindow t p (fun s => takeWindowAnswer 0x45 windowAtomResp s p) s
def execWAck (t : Stamp) (p : WPacket) (s : State) : Host.Outcome State Fault Refusal :=
  runWindow t p (fun s => takeWindowAnswer 0x46 windowAck s p) s
def execWNak (t : Stamp) (p : WPacket) (s : State) : Host.Outcome State Fault Refusal :=
  runWindow t p (fun s => takeWindowAnswer 0x47 windowNak s p) s
/-- W_CREDIT (R356). -/
def execWCredit (t : Stamp) (p : WPacket) (s : State) : Host.Outcome State Fault Refusal :=
  runWindow t p (fun s => takeWindowAnswer 0x48 (fun s p =>
    let q := wDst p
    let s1 := raiseLimit s q (wArg p)
    pumpQp s1 q ((qpOf s1 q).waitCredit.length + 1)) s p) s
/-- W_CREDIT_REQ (R356). -/
def execWCreditReq (t : Stamp) (p : WPacket) (s : State) : Host.Outcome State Fault Refusal :=
  runWindow t p (fun s => takeWindow 0x49 s p) s

/-- W_RETRY_TIMEOUT (R352). -/
def execWRetryTimeout (t : Stamp) (qpn : Nat) (s : State) : Host.Outcome State Fault Refusal :=
  run t (fun s => resendFrom s qpn (qpOf s qpn).txLow) s

/-- W_ACK_DEFERRED (R353): an applied write is answered within 2 µs. -/
def execWAckDeferred (t : Stamp) (qpn : Nat) (s : State) : Host.Outcome State Fault Refusal :=
  run t (fun s => if (qpOf s qpn).ackDue then ackThrough s qpn else s) s

/-- A context lands (R357, R358): unsound, its queue pair enters ERROR; its parked packets are handled in order. -/
def contextLands (q : Nat) (ctx : BitVec 2048) (s : State) : State :=
  if !s.win.fetching.contains q then s
  else
    let mine := s.win.parked.filter (fun p => wDst p.2 == q)
    let s1 := touch { s with win := { s.win with fetching := s.win.fetching.filter (· != q) } } q
    let s2 := if contextSound ctx || (qpOf s1 q).state == .free then s1
      else logErr (qpError s1 q) .message 1 (b := (qpOf s1 q).bench) (d0 := q)
    let s3 := { s2 with win := { s2.win with parked := s2.win.parked.filter (fun p => wDst p.2 != q) } }
    sweepClosing (resumeWindows (noteStall (mine.foldl (fun s p => handleRequest s p.1 p.2) s3) (q % 2)))

def execContextFetchDone (t : Stamp) (qpn : Nat) (ctx : BitVec 2048) (s : State) : Host.Outcome State Fault Refusal :=
  run t (contextLands qpn ctx) s

/-- EPOCH_STALE_RESPONSE (R331, R352). -/
def execEpochStaleResponse (t : Stamp) (p : Packet) (s : State) : Host.Outcome State Fault Refusal :=
  runPacket t p (fun s =>
    if !packetOk p || packetStatus (pStatus p) != .epochStale then count s 0x40040 1
    else if pDst p ≠ s.fab.self then forwardPacket s p
    else if pType p = 0x47 then
      windowStale s ⟨p.hdr, BitVec.ofNat 256 (leNat (p.payload.take 32)), p.payload.drop 32⟩
    else takeStale s p) s

end Sys2Proof.Machine
end

