-- ==== Sys2Proof/Machine/Epochs.lean ====
section
/-! DEFINITION. Map epochs: staging, the checks of records and sets, the seal, the switch and its drain window, and
effective link budgets (R56 to R67, R311, R315, R322, R323, R330 to R332, R476, R492). -/

namespace Sys2Proof.Machine

/-! ## Checks of a record (R56, R58, R59, R61, R63, R65) -/

/-- Links that exist on the module named by a bit map (R2, R56). -/
def linksExist (s : State) (r : BitVec 1024) : Bool :=
  (setBits (fieldOf r 735 640) 96).all (fun l => linkPresent s l)

/-- Bits that must be 0 (R59). -/
def recordZeros (r : BitVec 1024) : Bool :=
  zeroAt r 1023 906 && zeroAt r 767 736 && zeroAt r 639 624 && zeroAt r 607 596 && zeroAt r 31 22 && zeroAt r 15 13 &&
    zeroAt r 7 4

/-- The slices a role needs (R58). -/
def roleSlices (r : BitVec 1024) : Bool :=
  let g (t : Nat) : Bool := fieldOf r 127 64 / 2 ^ (8 * t) % 256 != 0
  let e (t : Nat) : Bool := fieldOf r 191 128 / 2 ^ (8 * t) % 256 != 0
  if fieldOf r 9 8 = 2 then
    decide (0 < recGroups r) && (decide (0 < recHbm r) || decide (0 < recLpddr r)) && decide (recEngines r = 0)
  else
    decide (0 < recGroups r) && decide (0 < recEngines r) && decide (0 < recHbm r) && decide (0 < recLpddr r) &&
      (List.range 8).all (fun t => g t == e t)

/-- A cap of R65 in 64 KiB units, from bytes per 10 µs of one slice and twice the slices, halves counting (R311). -/
def capOf (s : State) (rate halves : Nat) : Nat := halves * rate * period s / 131072

/-- Budgets within their caps (R65). -/
def budgetsOk (s : State) (r : BitVec 1024) : Bool :=
  decide (fieldOf r 799 768 ≤ capOf s 460800 (2 * recHbm r)) && decide (fieldOf r 831 800 ≤ capOf s 765000 (2 * recLpddr r)) &&
    decide (fieldOf r 863 832 ≤ capOf s 24000 (2 * recFlash r)) && decide (fieldOf r 895 864 ≤ capOf s 333600 (2 * recLinks r))

/-- A record that names no slice: the bench has none in the epoch (R59; log entry 63). -/
def noSlices (r : BitVec 1024) : Bool := zeroAt r 1023 4

/-- The record keeps the compute slices of a bench that holds a model (R61). -/
def keepsCompute (s : State) (b : Nat) (r : BitVec 1024) : Bool :=
  ((bench s b).pkg.isNone && (bench s b).load.isNone) || fieldOf r 191 64 == fieldOf (bench s b).record 191 64

/-- Bytes of one slice of a tier (R17). -/
def sliceBytes : Tier → Nat
  | .face => 2 ^ 30
  | .hbm => 3 * 2 ^ 30
  | .lpddr => 96 * 2 ^ 30
  | .flash => 5 * 2 ^ 40
  | .remote => 0

/-- Slices of a tier that a record names. -/
def recSlices (r : BitVec 1024) : Tier → Nat
  | .face => recGroups r
  | .hbm => recHbm r
  | .lpddr => recLpddr r
  | .flash => recFlash r
  | .remote => 0

/-- The record leaves room for the data the bench holds (R63), but for a bench that is to be evacuated (R332). The
spec does not say whether the room is one tier's or all of them together: it is taken together, since placement moves
data between tiers (log entry 136). -/
def keepsRoom (s : State) (b : Nat) (r : BitVec 1024) : Bool :=
  decide (usedBytes s b ≤ (tierList.map (fun t => recSlices r t * sliceBytes t)).sum) || noSlices r

/-- A bench record within R58 to R65. -/
def benchRecordOk (s : State) (r : BitVec 1024) : Bool :=
  let b := fieldOf r 3 0
  keepsCompute s b r && keepsRoom s b r &&
    (noSlices r ||
      (recordZeros r && roleSlices r && linksExist s r && (hasFlash s || (recFlash r == 0 && fieldOf r 863 832 == 0)) &&
        decide (fieldOf r 905 896 ≤ 500) && decide (fieldOf r 63 48 ≤ 10000) && decide (fieldOf r 11 10 ≤ 1) &&
        decide (64 ≤ fieldOf r 47 32) && decide (fieldOf r 47 32 ≤ 4096) && fieldOf r 47 32 % 64 == 0 && budgetsOk s r))

/-- Slices of two records meet (R57, R58). -/
def sharesSlice (a b : BitVec 1024) : Bool :=
  (a.toNat &&& b.toNat) / 2 ^ 64 % 2 ^ 560 != 0 || (a.toNat &&& b.toNat) / 2 ^ 640 % 2 ^ 96 != 0 ||
    fieldOf a 623 608 &&& fieldOf b 623 608 != 0

/-- No slice is named by two benches (R58). -/
def slicesApart : List (BitVec 1024) → Bool
  | [] => true
  | r :: l => l.all (fun x => !sharesSlice r x) && slicesApart l

/-- A bench of a set holds a memory slice. -/
def setMemory (m : MapSet) (b : Nat) : Bool :=
  match tget m.benches b with
  | some r => decide (0 < recHbm r + recLpddr r)
  | none => false

/-- Conversations homed on a bench (R332). -/
def homedOn (s : State) (b : Nat) : List Nat := (s.work.convs.filter (fun c => c.2.home && c.2.bench == b)).map (·.1)

/-- The whole set is valid (R58, R60, R332, R476). -/
def setOk (s : State) (m : MapSet) : Bool :=
  m.benches.all (fun r => benchRecordOk s r.2) && slicesApart (m.benches.map (·.2)) &&
    (List.range 16).all (fun b =>
      keepsCompute s b ((tget m.benches b).getD 0) &&
      (setMemory m b || (homedOn s b).isEmpty || (tget m.evac b).isSome))

/-! ## Staging (R476) -/

/-- The staged set of epoch e, begun as a copy of the current one; none where e may not be staged. -/
def stagedFor (s : State) (e : Nat) : Option MapSet :=
  if s.fab.sealSet.isSome ∨ e ≠ (s.fab.epoch + 1) % 2 ^ 16 then none
  else match s.fab.staged with
    | some (x, m) => if x = e then some m else some s.fab.maps
    | none => some s.fab.maps

/-- A staging command: its check, and its change of the set. -/
def stage (s : State) (e : Nat) (ok : MapSet → Bool) (f : MapSet → MapSet) : State × Status :=
  match stagedFor s e with
  | none => (s, .epochStale)
  | some m =>
    if ok m then ({ s with fab := { s.fab with staged := some (e, f m) } }, .ok) else (s, .badDescriptor)

/-- STAGE_BENCH (R60). A record that names no slice leaves the bench without one. -/
def stageBench (s : State) (e : Nat) (r : BitVec 1024) : State × Status :=
  stage s e (fun _ => benchRecordOk s r) (fun m =>
    { m with benches := if noSlices r then tdel m.benches (fieldOf r 3 0) else tput m.benches (fieldOf r 3 0) r })

/-- A route entry (R315). -/
def routeOk (s : State) (w : Word) : Bool :=
  let l (hi lo : Nat) : Bool := fieldOf w hi lo == 0xFF || linkPresent s (fieldOf w hi lo)
  zeroAt w 47 40 && fieldOf w 7 0 != 0xFF && l 7 0 && l 15 8 && l 23 16 && l 31 24

/-- STAGE_ROUTE (R315): all of its entries, or none. -/
def stageRoute (s : State) (e first : Nat) (es : List Word) : State × Status :=
  stage s e (fun _ => decide (es.length ≤ 500) && decide (first + es.length ≤ 4096) && es.all (routeOk s)) (fun m =>
    { m with routes := (es.zipIdx).foldl (fun t x => tput t (first + x.2) x.1) m.routes })

/-- Room left in a tier of a bench of the staged set for one more export region (R63, R323): less what the bench keeps
there, the backup of its weights (R75), the retired frames (R277) and the other regions. -/
def exportRoom (s : State) (m : MapSet) (b tier region : Nat) : Nat :=
  let r := (tget m.benches b).getD 0
  let others := m.exports.foldl (fun a x =>
    if x.1 ≠ region ∧ fieldOf x.2 195 192 = b ∧ fieldOf x.2 199 196 = tier then a + fieldOf x.2 191 128 else a) 0
  let t : Tier := if tier = 1 then .hbm else .lpddr
  let backup := if tier = 1 then 0 else ((bench s b).pkg.map (fun p => fieldOf p.manifest 703 640)).getD 0
  recSlices r t * sliceBytes t - tierUsed s b t - backup - lostBytes s b t - others

/-- An export region (R323). -/
def regionOk (s : State) (x : BitVec 256) (m : MapSet) : Bool :=
  let len := fieldOf x 191 128
  let base := fieldOf x 127 64
  zeroAt x 223 203 && zeroAt x 63 8 && decide (fieldOf x 7 0 < 64) &&
    (len == 0 ||
      ((fieldOf x 199 196 == 1 || fieldOf x 199 196 == 2) && len % 2 ^ 30 == 0 && base % 2 ^ 30 == 0 &&
        decide (base + len ≤ 2 ^ 43) && decide (len ≤ exportRoom s m (fieldOf x 195 192) (fieldOf x 199 196) (fieldOf x 7 0))))

/-- STAGE_EXPORT (R323, R475): length 0 removes the region. -/
def stageExport (s : State) (e : Nat) (x : BitVec 256) : State × Status :=
  stage s e (regionOk s x) (fun m =>
    { m with exports := if zeroAt x 191 128 then tdel m.exports (fieldOf x 7 0) else tput m.exports (fieldOf x 7 0) x })

/-- STAGE_RACKMAP (R322): 32 slots. -/
def stageRackmap (s : State) (e : Nat) (slots : List ModuleId) : State × Status :=
  stage s e (fun _ => decide (slots.length = 32)) (fun m =>
    { m with rackmap := (slots.zipIdx).foldl (fun t x => tput t x.2 x.1) [] })

/-- STAGE_EVAC (R332). -/
def stageEvac (s : State) (e b : Nat) (target : ModuleId) (tb : Nat) : State × Status :=
  stage s e (fun _ => decide (b < 16) && decide (tb < 16)) (fun m => { m with evac := tput m.evac b (target, tb) })

/-- DISCARD_STAGE (R475): refused for a sealed epoch. -/
def discardStage (s : State) (e : Nat) : State × Status :=
  match s.fab.sealSet, s.fab.staged with
  | some (x, _, _), _ => if x = e then (s, .epochStale) else (s, .notFound)
  | none, some (x, _) =>
    if x = e then ({ s with fab := { s.fab with staged := none } }, .ok) else (s, .epochStale)
  | none, none => (s, .epochStale)

/-- SEAL_EPOCH at commit n (R476). -/
def sealEpoch (s : State) (e sw n : Nat) : State × Status :=
  match s.fab.sealSet, s.fab.staged with
  | none, some (x, m) =>
    if x ≠ e then (s, .epochStale)
    else if !setOk s m then (s, .badDescriptor)
    else if sw < n + 2 ∨ n + 65536 < sw then (s, .epochStale)
    else ({ s with fab := { s.fab with staged := none, sealSet := some (e, sw, m) } }, .ok)
  | _, _ => (s, .epochStale)

/-! ## The switch (R63, R64, R323, R331, R332, R492) -/

/-- Memory and flash slices of a record, with their tiers. -/
def memSlices (r : BitVec 1024) : List (Tier × Nat) :=
  (setBits (fieldOf r 575 192) 384).map (fun i => (Tier.hbm, i)) ++
    (setBits (fieldOf r 595 576) 20).map (fun i => (Tier.lpddr, i)) ++
    (setBits (fieldOf r 623 608) 16).map (fun i => (Tier.flash, i))

/-- Slices that leave a bench in a tier that holds its data stay with it as leaving slices, each with the bytes that
lie in it: its even part of the tier's data (R63; log entry 137). -/
def leaveSlices (s : State) (b : Nat) (old new : BitVec 1024) : State :=
  let keep := memSlices new
  let part (t : Tier) : Nat := min (sliceBytes t) (ceilDiv (tierUsed s b t) (max 1 (recSlices old t)))
  let go := (memSlices old).filter (fun x => !keep.contains x && decide (0 < tierUsed s b x.1))
  { s with tier := { s.tier with leaving := s.tier.leaving ++ go.map (fun x => (b, x.1, x.2, part x.1)) } }

/-- Live requests in states the role does not serve are parked in place (R64). -/
def parkUnserved (s : State) (b : Nat) : State :=
  (s.work.reqs.filter (fun r => r.2.bench == b && reqLive r.2.state && !servesState (role s b) r.2.state r.2.dest.isSome)).foldl
    (fun s r => parkInPlace (suspendReq s r.1) r.2.conv) s

/-- The shares after a switch (R492). -/
def clampShares (s : State) (b : Nat) : State :=
  if cacheLimits s b then s
  else
    let a := bn b 0x0A0
    let v := bn b 0x0B0
    let fix (s : State) (rd : State → Nat → Word) (wr : State → Nat → Word → State) : State :=
      let p := min (fieldOf (rd s a) 25 16) 500
      let q := min (fieldOf (rd s v) 25 16) (500 - p)
      if fieldOf (rd s a) 25 16 + fieldOf (rd s v) 25 16 ≤ 500 then s
      else wr (wr s a (withFieldOf (rd s a) 25 16 p)) v (withFieldOf (rd s v) 25 16 q)
    let s1 := fix s regVal (fun s o w => { s with bar := { s.bar with inForce := tput s.bar.inForce o w } })
    fix s1 regRead (fun s o w => { s with bar := { s.bar with written := tput s.bar.written o w } })

/-- One bench takes its record of the new epoch. -/
def switchBench (e : Nat) (m : MapSet) (s : State) (b : Nat) : State :=
  let old := (bench s b).record
  let new := (tget m.benches b).getD 0
  let s1 := leaveSlices s b old new
  let s2 := setBench s1 b (fun x => { x with
    record := new, epoch := if noSlices new then 0 else e, state := if noSlices new then .empty else x.state })
  let s3 := if fieldOf old 735 64 = fieldOf new 735 64 then s2 else closeMeter s2 b 1
  clampShares (if fieldOf old 9 8 = fieldOf new 9 8 then s3 else parkUnserved s3 b) b

/-- Export regions removed or changed: their windows are revoked and their contents lost; new ones are zero (R323,
R339). -/
def switchExports (old new : Table (BitVec 256)) (s : State) : State :=
  let gone := old.filter (fun r => tget new r.1 != some r.2)
  let made := new.filter (fun r => tget old r.1 != some r.2)
  let inside (r : BitVec 256) (w : Window) : Bool :=
    w.kind == 1 && decide (fieldOf r 127 64 ≤ w.base) && decide (w.base < fieldOf r 127 64 + fieldOf r 191 128)
  let s1 := gone.foldl (fun s r => revokeWhere s (inside r.2)) s
  (gone ++ made).foldl (fun s r => { s with fab := { s.fab with
    mem := memClear s.fab.mem (fieldOf r.2 127 64) (fieldOf r.2 191 128) } }) s1

/-- Conversations to be evacuated, in ascending order (R332); striped ones stay (R82). -/
def listEvacs (s : State) (m : MapSet) : State :=
  let l := m.evac.flatMap (fun x =>
    if setMemory m x.1 then []
    else ((homedOn s x.1).filter (fun k => ((conv s k).bind (·.stripe)).isNone)).map (fun k => (k, x.2.1, x.2.2)))
  { s with haul := { s.haul with evac := s.haul.evac ++ l } }

/-- Evacuations begin while the firmware runs (R332, R405). -/
def startEvacs (s : State) : State :=
  if !firmwareUp s then s
  else s.haul.evac.foldl (fun s x =>
    match conv s x.1 with
    | some c =>
      if c.home && c.frozen.isNone then
        let id := s.haul.nextId
        sendOffer (startHaul s x.1 .park x.2.1 x.2.2 false true true none) id
      else if c.home then { s with haul := { s.haul with evac := s.haul.evac ++ [x] } }
      else s
    | none => s) { s with haul := { s.haul with evac := [] } }

/-- The switch due at the commit of tick n (R331). -/
def switchEpoch (s : State) (n : Nat) : State :=
  match s.fab.sealSet with
  | none => s
  | some (e, sw, m) =>
    if n < sw then s
    else
      let old := s.fab.maps
      let s1 := { s with fab := { s.fab with
        prev := some (s.fab.epoch, sw + regF s 0x40028 6 0, old), epoch := e, maps := m, sealSet := none } }
      let s2 := (List.range 16).foldl (switchBench e m) s1
      startEvacs (listEvacs (switchExports old.exports m.exports s2) m)

/-- Bytes of bench b that lie in its leaving slices of a tier. -/
def leavingBytes (s : State) (b : Nat) (t : Tier) : Nat :=
  ((s.tier.leaving.filter (fun x => x.1 == b && x.2.1 == t)).map (·.2.2.2)).sum

/-- Data moves from one leaving slice to the slices its bench keeps (R63): what is left in it, as their room and the
migration share allow, read and written in one tier; what the bench no longer holds is not moved. -/
def moveLeaving (s : State) (x : Nat × Tier × Nat × Nat) : State :=
  let (b, t, i, n) := x
  let total := leavingBytes s b t
  let held := min n (tierUsed s b t - (total - n))
  let room := tierRoom s b t - (tierUsed s b t - total)
  match budgetNo t with
  | none => s
  | some k =>
    let m := min (min held room) (min (shareLeft s b k) (budgetBytes s b k - spentOf s b k) / 2)
    let s1 := if m = 0 then s else chargeShare s b k (2 * m)
    { s1 with tier := { s1.tier with leaving := s1.tier.leaving.map (fun y =>
      if y.1 = b ∧ y.2.1 = t ∧ y.2.2.1 = i then (b, t, i, held - m) else y) } }

/-- Leaving slices at a commit (R63): an empty one passes to its new owner, unless an evacuation's haul still holds it
(R332); the data of the others moves on. -/
def handOver (s : State) : State :=
  let stay (x : Nat × Tier × Nat × Nat) : Bool :=
    decide (0 < x.2.2.2) || s.haul.out.any (fun h => h.2.evac && h.2.bench == x.1)
  let gone := s.tier.leaving.filter (fun x => !stay x)
  let s1 := ((gone.map (·.1)).eraseDups).foldl (fun s b => closeMeter s b 1)
    { s with tier := { s.tier with leaving := s.tier.leaving.filter stay } }
  s1.tier.leaving.foldl moveLeaving s1

/-- The drain window of the previous epoch has ended (R331). -/
def endDrain (s : State) : State :=
  match s.fab.prev with
  | some (_, d, _) => if drainOpen s d then s else { s with fab := { s.fab with prev := none } }
  | none => s

/-- EPOCH_SWITCH (R331), at step 5 of its commit. -/
def execEpochSwitch (t : Stamp) (s : State) : Host.Outcome State Fault Refusal := run t (fun s => switchEpoch s t.tick) s

/-- DRAIN_WINDOW_END (R331). -/
def execDrainWindowEnd (t : Stamp) (s : State) : Host.Outcome State Fault Refusal := run t endDrain s

/-! ## Effective link budgets (R311) -/

/-- Half slices of a bench's links: two for an ACTIVE link, one for a DEGRADED one, none for a DOWN one. -/
def linkHalves (s : State) (b : Nat) : Nat :=
  (setBits (fieldOf (bench s b).record 735 640) 96).foldl (fun a l =>
    a + (match (linkOf s l).state with | .active => 2 | .degraded => 1 | _ => 0)) 0

/-- Every bench's effective link budget at a commit; a fall is logged and signalled. -/
def linkBudgets (s : State) : State :=
  (s.fab.maps.benches.map (·.1)).foldl (fun s b =>
    let eff := min (fieldOf (bench s b).record 895 864) (capOf s 333600 (linkHalves s b))
    let s1 := setBench s b (fun x => { x with linkEff := eff })
    if eff < (bench s b).linkEff then logErr s1 .link 5 (b := b) (d0 := eff) else s1) s

end Sys2Proof.Machine
end

