-- ==== Sys2Proof/Machine/Host.lean ====
section
/-! DEFINITION. Doorbells and the reads they set off, function resets, time correlation, IDE streams and completion
interrupts (R32, R211, R365, R366, R369 to R383, R446, R464, R465), and writes of registers (R486 to R492). -/

namespace Sys2Proof.Machine

/-! ## Doorbells (R371) -/

/-- A submission ring as it stands. -/
def subRing (s : State) (ring : Nat) : SubRing := tgetD s.host.rings ring

/-- `BN_SQ_CFG` of a ring in force. -/
def sqCfg (s : State) (ring : Nat) : Word := regVal s (bn (ring / 16) (0x110 + 0x18 * (ring % 16)))

/-- Slots of a ring. -/
def sqSize (s : State) (ring : Nat) : Nat := 2 ^ fieldOf (sqCfg s ring) 4 0

/-- The ring is enabled. -/
def sqEnabled (s : State) (ring : Nat) : Bool := bitOf (sqCfg s ring) 31

/-- A doorbell lands while Rest is due, being entered or in force: the flag of R465 is set, and during entry the event
is latched (R467). -/
def noteBell (s : State) : State :=
  if s.pwr.restDue || s.pwr.state == .entering || s.pwr.state == .rest then
    { s with pwr := { s.pwr with
      bellFlag := true
      latched := if s.pwr.state = .entering then some (s.pwr.latched.getD (1, s.time.now)) else s.pwr.latched } }
  else s

/-- The identity of the descriptor at an index of a ring, stamped now (R32). -/
def landCpl (s : State) (ring index : Nat) : Cpl :=
  { ring := ring, index := index, bench := ring / 16, gen := (tget s.host.flrs (ring / 16)).getD 0, stamp := s.time.now }

/-- Descriptors t0 to t − 1 are stamped (R32, R371). -/
def landRange (s : State) (ring t0 n : Nat) : State :=
  { s with host := { s.host with
    rings := tput s.host.rings ring { subRing s ring with tail := (t0 + n) % 2 ^ 32 }
    landed := s.host.landed ++ (List.range n).map (fun i => { cpl := landCpl s ring ((t0 + i) % 2 ^ 32) }) } }

/-- A doorbell write reaches the endpoint: the aligned write of a tail at offset 0 by the function that drives the
ring (R366, R371). -/
def bellOk (s : State) (fn : Fn) (ring off size : Nat) (value : Word) : Bool :=
  off == 0 && (size == 4 || (size == 8 && zeroAt value 63 32)) && decide (ring < 256) && fn == driver s (ring / 16)

/-- A doorbell's effect on its ring. -/
def ringBell (s : State) (ring tail : Nat) : State :=
  let r := subRing s ring
  let n := (tail + 2 ^ 32 - r.tail) % 2 ^ 32
  let held := (tail + 2 ^ 32 - r.head) % 2 ^ 32
  if r.error || n == 0 then s
  else if !sqEnabled s ring then ringError s ring 2
  else if decide (n ≤ sqSize s ring) && decide (held ≤ sqSize s ring) then landRange s ring r.tail n
  else ringError s ring 1

/-- DOORBELL (R366, R371, R464, R465). -/
def doorbell (fn : Fn) (ring off size : Nat) (value : Word) (s : State) : State :=
  if !barReady s then s
  else if !bellOk s fn ring off size value then badAccess s
  else ringBell (noteBell s) ring (fieldOf value 31 0)

def execDoorbell (t : Stamp) (fn : Fn) (ring off size : Nat) (value : Word) (s : State) :
    Host.Outcome State Fault Refusal := run t (doorbell fn ring off size value) s

/-- BAD_ACCESS (R366): no effect, and counted. -/
def execBadAccess (t : Stamp) (fn : Fn) (s : State) : Host.Outcome State Fault Refusal :=
  run t (fun s => if barReady s && (match fn with | .pf => true | .vf b => vfOn s b) then badAccess s else s) s

/-! ## Reads of descriptors and of the data they name (R370, R372) -/

/-- Opcodes that act at landing (R374). -/
def actsAtLanding (o : Nat) : Bool := (decide (0x50 ≤ o) && decide (o ≤ 0x57)) || o == 0x70

/-- A landed descriptor as it acts: its data missed the read limit where it names data that is not here. -/
def hostDescOf (l : Landed) (raw : BitVec 512) : HostDesc :=
  { stamp := l.cpl.stamp, ring := l.cpl.ring, index := l.cpl.index, raw := raw, data := l.data.getD .none,
    late := namesData raw && l.data.isNone }

/-- The effect of a landing-acting opcode. -/
def landEffect (o : Nat) : Cpl → HostDesc → State → State :=
  if o = 0x50 then winOpen else if o = 0x51 then winRevoke else if o = 0x52 then qpCreate
  else if o = 0x53 then qpDestroy else rmaOp

/-- The landed descriptor at an index of a ring. -/
def landedAt (s : State) (ring index : Nat) : Option Landed :=
  s.host.landed.find? (fun l => l.cpl.ring == ring && l.cpl.index == index)

/-- The commit of a landing stamp has passed, or its read limit has, 40 µs after its cut-off, in a tick that commits
(R37). -/
def limitPassed (s : State) (st : Stamp) : Bool :=
  let n := commitOf s st
  (match s.time.lastCommit with | some m => decide (n ≤ m) | none => false) ||
    (wholeTick s n && s.pwr.state == .run && s.pwr.planStable && !s.time.early.contains st &&
      stampLt ⟨n, cutoffOff s + 40000⟩ s.time.now)

/-- A read completes (R370, R372): head passes the descriptor, which acts now where it acts at landing, and waits for
its commit otherwise. One read after the read limit of its commit missed it; one read in Keep mode, or after a halt
for loss of sync, is refused (R54, R426). -/
def fetched (ring index : Nat) (raw : BitVec 512) (data : Option NamedData) (s : State) : State :=
  match landedAt s ring index with
  | none => s
  | some l0 =>
    let l : Landed := { l0 with
      cpl := { l0.cpl with tag := fieldOf raw 63 32, op := fieldOf raw 7 0, bench := fieldOf raw 19 16 }
      raw := some raw, data := match data with | some x => some x | none => l0.data }
    let d := hostDescOf l raw
    let r := subRing s ring
    let next := (index + 1) % 2 ^ 32
    let s1 := if l0.raw.isSome then s
      else emitTo { s with host := { s.host with rings := tput s.host.rings ring { r with head := next } } }
        (driver s (ring / 16)) (.head ring next)
    let s2 := takeLanded d s1
    if actsAtLanding (dOp d) then applyLanding l.cpl (dOp d) (landEffect (dOp d)) d s2
    else if inKeep s && !(match s.fault.keep with | some (_, st) => keepsCommit s st l.cpl | none => true) then
      complete s2 l.cpl .benchHalted 0 s.time.now.tick
    else if s.time.halted then complete s2 l.cpl .benchHalted 0 s.time.now.tick
    else if limitPassed s l.cpl.stamp then complete s2 l.cpl .noCapacity 0 s.time.now.tick
    else
      let s3 := { s1 with host := { s1.host with landed := s1.host.landed.map (fun x =>
        if x.cpl.ring = ring ∧ x.cpl.index = index ∧ x.cpl.stamp = l.cpl.stamp then l else x) } }
      pullAtLanding s3 l.cpl d

def execDescriptorFetchDone (t : Stamp) (ring index : Nat) (raw : BitVec 512) (data : Option NamedData) (s : State) :
    Host.Outcome State Fault Refusal := run t (fetched ring index raw data) s

/-! ## Function resets (R382) -/

/-- A function reset acts on a bench its function drives: rings and completion ring stop, HOST windows and stream
bindings go, ring fields return to their reset values. -/
def resetBench (s : State) (b : Nat) : State :=
  let mine (ring : Nat) : Bool := ring / 16 == b
  let field (off : Nat) : Bool := match benchPage off with | some (x, po) => x == b && isRingField po | none => false
  let s1 := revokeWhere s (fun w => w.bench == b && w.kind == 0)
  { s1 with
    host := { s1.host with
      rings := s1.host.rings.filter (fun r => !mine r.1)
      cqs := tdel s1.host.cqs b
      flrs := tput s1.host.flrs b ((tget s1.host.flrs b).getD 0 + 1) }
    bar := { s1.bar with
      inForce := s1.bar.inForce.filter (fun r => !field r.1)
      written := s1.bar.written.filter (fun r => !field r.1)
      benchLock := s1.bar.benchLock.filter (· != b) }
    work := { s1.work with binds := s1.work.binds.filter (fun x => x.2.bench != b) } }

/-- Benches a function drives (R366). -/
def drivenBy (s : State) (fn : Fn) : List Nat := (List.range 16).filter (fun b => driver s b == fn)

/-- FLR (R382). -/
def execFlr (t : Stamp) (fn : Fn) (s : State) : Host.Outcome State Fault Refusal :=
  run t (fun s => (drivenBy s fn).foldl resetBench s) s

/-- VF_ENABLE_CHANGE (R366, R382): a function reset of every bench whose driving function changes. -/
def vfChange (enable : Bool) (n : Nat) (s : State) : State :=
  let s1 := { s with host := { s.host with vfEnable := enable, numVfs := n } }
  let moved := (List.range 16).filter (fun b => driver s b != driver s1 b)
  let s2 := moved.foldl resetBench s
  { s2 with host := { s2.host with vfEnable := enable, numVfs := n } }

def execVfEnableChange (t : Stamp) (enable : Bool) (numVfs : Nat) (s : State) : Host.Outcome State Fault Refusal :=
  run t (vfChange enable numVfs) s

/-! ## Time correlation (R381) and IDE (R446) -/

/-- PTM_DIALOGUE (R381): the master time and the tick time of one instant are latched; the last two samples are kept.
-/
def execPtmDialogue (t : Stamp) (h : Nat) (s : State) : Host.Outcome State Fault Refusal :=
  run t (fun s => { s with time := { s.time with
    ptm0 := s.time.ptm1, ptm1 := (h, nsOf s s.time.now), ptmCount := (s.time.ptmCount + 1) % 2 ^ 32 } }) s

/-- IDE_FAILURE (R446): a TLP fails its check, or the stream leaves the Secure state. Every ring of its functions
enters ERROR, and the module writes nothing more to their memory. -/
def ideFailure (stream : Nat) (tlpOnly : Bool) (s : State) : State :=
  match tget s.host.ide stream with
  | none => s
  | some x =>
    let s1 := { s with host := { s.host with
      ide := tput s.host.ide stream { x with secure := x.secure && tlpOnly }
      ideStopped := (s.host.ideStopped ++ x.fns).eraseDups } }
    (x.fns.flatMap (drivenBy s)).eraseDups.foldl (fun s b => benchRingsError s b 3 15) s1

def execIdeFailure (t : Stamp) (stream : Nat) (tlpOnly : Bool) (s : State) : Host.Outcome State Fault Refusal :=
  run t (ideFailure stream tlpOnly) s

/-! ## Completion rings (R369, R376, R377) -/

/-- The next completion signal of a bench is due (R376): records were written since the last, and coalesce_us has
passed since it and not more than coalesce_us since the first of them. -/
def signalDue (s : State) (b : Nat) : Bool :=
  let us := 1000 * bnF s b 0x290 25 16
  match (cq s b).fresh with
  | none => false
  | some _ =>
    match (cq s b).signalled with
    | some x => decide (nsOf s x + us ≤ nsOf s s.time.now)
    | none => true

/-- COMPLETION_INTERRUPT (R376). -/
def execCompletionInterrupt (t : Stamp) (bench : Nat) (s : State) : Host.Outcome State Fault Refusal :=
  run t (fun s =>
    if signalDue s bench then cqVector (setCq s bench (fun q => { q with fresh := none, signalled := some s.time.now })) bench
    else s) s

/-- COMPLETION_RECORD_DRAIN (R377): the consumer read again leaves room, and waiting records are written in order. -/
def execCompletionRecordDrain (t : Stamp) (bench consumer : Nat) (s : State) : Host.Outcome State Fault Refusal :=
  run t (fun s =>
    let s1 := setCq s bench (fun q => { q with consumer := consumer % 2 ^ 32 })
    drainRecords s1 bench ((cq s1 bench).waiting.length + 1)) s

end Sys2Proof.Machine
end

