-- ==== Sys2Proof/Machine/Security.lean ====
section
/-! DEFINITION. Flash keys and their erasure (R444, R445), and the SPDM responder with IDE_KM (R436 to R439, R446). -/

namespace Sys2Proof.Machine

/-! ## Flash keys (R444, R445) -/

/-- Bench b lets its key be destroyed: EMPTY, no header, shard, reserved haul room or leaving slice (R445). -/
def eraseReady (s : State) (b : Nat) : Bool :=
  (bench s b).state == .empty && !s.work.convs.any (fun c => c.2.bench == b) && !s.shards.any (fun x => x.2.bench == b) &&
    !s.haul.inn.any (fun h => h.2.bench == b) && !s.tier.leaving.any (fun x => x.1 == b) &&
    !s.tier.parked.any (fun c => c.2.bench == b)

/-- Bench b's data on flash is unreadable: pages on flash are LOST, conversations parked there and not yet listed
again are gone, archived shards fail. -/
def loseFlash (s : State) (b : Nat) : State :=
  let lose (e : Entry) : Entry :=
    if e.tier = .flash ∧ e.state ≠ .replica then { e with state := .lost, back := e.state } else e
  { s with
    work := { s.work with convs := s.work.convs.map (fun c =>
      if c.2.bench = b then (c.1, { c.2 with entries := c.2.entries.map lose }) else c) }
    tier := { s.tier with parked := s.tier.parked.filter (fun c => c.2.bench != b) }
    shards := s.shards.map (fun x => if x.2.bench = b ∧ x.2.archived then (x.1, { x.2 with failed := true }) else x) }

/-- One key is destroyed: its record is overwritten, its generation rises, and the next write makes a new key. -/
def eraseKey (s : State) (b : Nat) : State :=
  let k : FlashKey := tgetD s.sec.keys b
  loseFlash { s with sec := { s.sec with keys := tput s.sec.keys b { gen := (k.gen + 1) % 2 ^ 32 } } } b

/-- An erasure of one bench, or all, at its commit: its status and effect (R445). -/
def eraseAct (s : State) (all : Bool) (b : Nat) : State × Status :=
  if all then
    if inKeep s || (List.range 16).all (eraseReady s) then ((List.range 16).foldl eraseKey s, .ok) else (s, .badDescriptor)
  else if eraseReady s b then (eraseKey s b, .ok)
  else (s, .badDescriptor)

/-- Erasures asked for by `SC_KEY_CTRL` and due at commit n. -/
def eraseStep (s : State) (e : Bool × Nat) : State :=
  let (s1, st) := eraseAct s e.1 e.2
  { s1 with sec := { s1.sec with keyStatus := statusCode st } }

/-- A write of erase lands: it waits for its commit, and in Keep mode, which commits nothing more, it acts at once
(R427 to R429, R445). -/
def askErase (t : Stamp) (value : Word) (s : State) : State :=
  if !bitOf value 8 then s
  else if inKeep s then eraseStep s (bitOf value 4, fieldOf value 3 0)
  else { s with sec := { s.sec with erase := s.sec.erase ++ [(t, bitOf value 4, fieldOf value 3 0)] } }

/-- SC_KEY_CTRL_ERASE (R445, R502). -/
def execScKeyCtrlErase (t : Stamp) (fn : Fn) (value : Word) (s : State) : Host.Outcome State Fault Refusal :=
  pfWrite t fn 0x80040 (askErase t value) s

/-! ## SPDM (R437 to R439) -/

/-- A transport's number. -/
def transportNum : Transport → Nat
  | .mirror => 0 | .i3c => 1 | .vdm => 2 | .doe => 3

/-- A stage answers on the transport (R388, R396, R437, R470, R513): I3C from the ROM on, the others once BAR0 is
ready, VDM in RECOVERY while the loader runs. -/
def sideUp (s : State) (t : Transport) : Bool :=
  !s.pwr.off && !s.fw.resetLow && decide (2 ≤ s.fw.row) &&
    (match t with
     | .i3c => true
     | .vdm => !s.fw.perstLow && (served s || (decide (3 ≤ s.fw.row) && s.fw.stage == .recovery))
     | _ => barReady s)

/-- An SPDM exchange's end: the state, its code and the body of the answer. -/
abbrev SideOut := State × SideCode × List Nat

/-- How far a transport's connection has come: 1 version, 2 capabilities, 3 algorithms. -/
def connected (s : State) (t : Transport) : Nat := (tget s.sec.negotiated (transportNum t)).getD 0

/-- A step of the connection: after the step before it, and it starts over any later one. -/
def connectStep (s : State) (t : Transport) (step : Nat) (body : List Nat := []) : SideOut :=
  if connected s t + 1 < step then (s, .unexpected, [])
  else
    let s1 := { s with sec := { s.sec with negotiated := tput s.sec.negotiated (transportNum t) step } }
    (s1, .ok, [step] ++ body)

/-- A request that needs a negotiated connection. -/
def needsConnection (s : State) (t : Transport) (f : State → SideOut) : SideOut :=
  if connected s t < 3 then (s, .unexpected, []) else f s

/-- A number cut into 64-bit words. -/
def words (n v : Nat) : List Nat := (List.range n).map (fun i => v / 2 ^ (64 * i) % 2 ^ 64)

/-- Content of a measurement index (R438); none where the index does not exist. -/
def measured (s : State) (i : Nat) : Option (List Nat) :=
  let img (i : Option Image) : List Nat := (i.map (fun x => words 4 (imageDigest x).toNat ++ [imageSvn x])).getD []
  let d := bootDir s
  let pick (offs : List Nat) : List Nat :=
    match s.sec.locked with
    | some l => (l.filter (fun x => offs.contains x.1)).map (·.2.toNat)
    | none => []
  if i = 1 then some (1 :: 0 :: words 4 rootKeyHash.toNat)
  else if i = 2 then some (img s.fw.ldrRun)
  else if i = 3 then some (img s.fw.fwRun)
  else if i = 4 then some [d.ldrSlot, d.fwSlot, d.trial]
  else if i = 5 then some [s.sec.rollback.1, s.sec.rollback.2]
  else if i = 6 then some ((s.sec.locked.getD []).map (·.2.toNat))
  else if 7 ≤ i ∧ i ≤ 22 then
    let b := i - 7
    let fp := match (bench s b).pkg with | some p => fieldOf p.manifest 383 128 | none => 0
    some (fp :: [0x0C0, 0x0C8, 0x0D0, 0x0D8, 0x0E0].map (fun o => (regVal s (bn b o)).toNat))
  else if i = 23 then some (pick [0x40010, 0x80038])
  else none

/-- The content of an index as bytes: 64-bit words, little-endian (log entry 138). -/
def contentBytes (ws : List Nat) : List Byte := (ws.map (leBytes 8)).flatten

/-- The digest reported for an index: all zero for 6 and 23 before `SETUP_LOCK` (R438). -/
def measurement (s : State) (i : Nat) : Option Nat :=
  (measured s i).map (fun c => if (i = 6 ∨ i = 23) ∧ s.sec.locked = none then 0 else (Config.sha3 (contentBytes c)).toNat)

/-- The first free session number from 1. -/
def newSession (s : State) (t : Transport) : SideOut :=
  if 4 ≤ s.sec.sessions.length then (s, .sessionLimit, [])
  else
    let id := freeKey s.sec.sessions 5 1
    ({ s with sec := { s.sec with sessions := tput s.sec.sessions id { transport := t } } }, .ok, [id])

/-- A request inside a session. -/
def inSession (s : State) (id : Nat) (finished : Bool) (f : Session → SideOut) : SideOut :=
  match tget s.sec.sessions id with
  | some x => if x.finished = finished then f x else (s, .unexpected, [])
  | none => (s, .invalidSession, [])

/-- IDE_KM (R446): a key set and started makes the stream Secure, and its functions' memory is written again where a
function reset has cleared their rings; without a key the stream is stopped. -/
def ideKeyed (s : State) (stream : Nat) (rids : List Fn) (key : Bool) : State :=
  let clean (fn : Fn) : Bool :=
    (drivenBy s fn).all (fun b => (List.range 16).all (fun j => !(subRing s (16 * b + j)).error))
  if key then
    { s with host := { s.host with
      ide := tput s.host.ide stream { fns := rids, secure := true }
      ideStopped := s.host.ideStopped.filter (fun f => !(rids.contains f && clean f)) } }
  else ideFailure stream false s

/-- An algorithm's number in R437's table, in its order; none where the module does not support it. -/
def algNumber : SpdmAlg → Option Nat
  | .sha3x256 => some 0 | .mldsa65 => some 1 | .mlkem768 => some 2 | .aes256gcm => some 3 | .other _ => none

/-- A response code as the signature covers it (log entry 138). -/
def sideNumber : SideCode → Nat
  | .ok => 0 | .busy => 1 | .unsupported => 2 | .unexpected => 3 | .invalidRequest => 4 | .invalidSession => 5
  | .sessionLimit => 6 | .notInUpdateMode => 7 | .alreadyInUpdateMode => 8 | .updateNotPossible => 9 | .invalidState => 10
  | .invalidData => 11

/-- NEGOTIATE_ALGORITHMS (R437): the algorithms selected are the supported ones offered; unsupported where there are
none. -/
def selectAlgorithms (s : State) (t : Transport) (offers : List SpdmAlg) : SideOut :=
  match offers.filterMap algNumber with
  | [] => (s, .unsupported, [])
  | a :: rest => connectStep s t 3 (a :: rest)

/-- GET_CERTIFICATE (R437): a portion of the chain in slot 0, with how much of it is left. -/
def certificatePortion (s : State) (slot off len : Nat) : SideOut :=
  let chain := chainBytes s
  let part := (chain.drop off).take len
  if slot = 0 ∧ off < chain.length then
    (s, .ok, [slot, off, part.length, chain.length - off - part.length] ++ part.map (·.toNat))
  else (s, .invalidRequest, [])

/-- Every response is signed by the firmware alias key: the signature over its code and body follows it (R436). -/
def signed (r : SideOut) : SideOut :=
  (r.1, r.2.1, r.2.2 ++ (fwSignature r.1 (contentBytes (sideNumber r.2.1 :: r.2.2))).map (·.toNat))

/-- An SPDM request (R437, R438, R446). -/
def spdmReq (s : State) (t : Transport) : SideReq → SideOut
  | .getVersion => connectStep s t 1 [1, 3]
  | .getCapabilities => connectStep s t 2
  | .negotiate offers => selectAlgorithms s t offers
  | .getDigests => needsConnection s t (fun s => (s, .ok, [1, (Config.sha3 (chainBytes s)).toNat]))
  | .getCertificate slot off len => needsConnection s t (fun s => certificatePortion s slot off len)
  | .challenge slot nonce =>
    needsConnection s t (fun s =>
      if slot = 0 then
        (s.bump, .ok, [nonce, (Config.sha3 (chainBytes s)).toNat] ++ (Config.drbg s.fresh 32).map (·.toNat))
      else (s, .invalidRequest, []))
  | .getMeasurements i =>
    needsConnection s t (fun s => match measurement s i with
      | some v => (s, .ok, i :: words 4 v)
      | none => (s, .invalidRequest, []))
  | .keyExchange => needsConnection s t (fun s => newSession s t)
  | .finish id macOk =>
    inSession s id false (fun x =>
      if macOk then ({ s with sec := { s.sec with sessions := tput s.sec.sessions id { x with finished := true } } }, .ok, [])
      else ({ s with sec := { s.sec with sessions := tdel s.sec.sessions id } }, .invalidRequest, []))
  | .heartbeat id => inSession s id true (fun _ => (s, .ok, []))
  | .keyUpdate id =>
    inSession s id true (fun x =>
      ({ s with sec := { s.sec with sessions := tput s.sec.sessions id { x with keyGen := x.keyGen + 1 } } }, .ok, []))
  | .endSession id =>
    inSession s id true (fun _ => ({ s with sec := { s.sec with sessions := tdel s.sec.sessions id } }, .ok, []))
  | .ideKm id stream rids key =>
    inSession s id true (fun _ => if stream < 8 then (ideKeyed s stream rids key, .ok, []) else (s, .invalidRequest, []))
  | _ => (s, .unsupported, [])

/-- An SPDM request as answered (R436, R437, R439): signed; Busy from the loader during a control restart; none on the
mirror. -/
def spdmAnswer (s : State) (t : Transport) (r : SideReq) : SideOut :=
  if s.fw.stage = .restart then (s, .busy, [])
  else if t = .mirror then (s, .unsupported, [])
  else signed (spdmReq s t r)

end Sys2Proof.Machine
end

