-- ==== Sys2Proof/Machine/Mgmt.lean ====
section
/-! DEFINITION. The management path (R462, R464, R465, R470 to R479): Exbor commands, MCTP control, PLDM sensors and
firmware update, and what Rest latches. -/

namespace Sys2Proof.Machine

/-! ## Exbor commands (R471 to R476, R478) -/

/-- A command's code (R475). -/
def opCode : MgmtOp → Nat
  | .readRegs _ _ => 0x01 | .readLog _ => 0x02 | .readMeter _ => 0x03 | .stageBench _ _ => 0x10
  | .stageRoute _ _ _ => 0x11 | .stageExport _ _ => 0x12 | .stageRackmap _ _ => 0x13 | .stageEvac _ _ _ _ => 0x14
  | .sealEpoch _ _ => 0x15 | .discardStage _ => 0x16 | .setSigPolicy _ _ _ => 0x20 | .clearQuarantine _ => 0x21
  | .keyErase _ => 0x22 | .reset _ => 0x23 | .keepEnter => 0x24 | .restEnter => 0x25

/-- The header of a command keeps R471. -/
def mgmtHdrOk (h : BitVec 128) (code : Nat) : Bool :=
  fieldOf h 15 0 == 1 && fieldOf h 31 16 == code && zeroAt h 63 32 && decide (fieldOf h 127 96 ≤ 4080)

/-- A command of code 0x10 or above over I3C came in a session where one is required (R472). -/
def sessionOk (s : State) (c : MgmtCmd) (code : Nat) : Bool :=
  decide (code < 0x10) || c.transport != .i3c || regF s 0x90000 0 0 == 0 || c.session

/-- Commands the loader answers in Keep mode (R475). -/
def keepAnswers : MgmtOp → Bool
  | .readRegs _ _ => true
  | .readLog _ => true
  | .readMeter _ => true
  | .keyErase b => b == 15
  | .reset _ => true
  | .keepEnter => true
  | _ => false

/-- Registers read by READ_REGS (R478); the tick number is latched where the read covers it (R494). -/
def readRegs (s : State) (c : MgmtCmd) (off bytes : Nat) : State :=
  if off % 8 ≠ 0 ∨ bytes % 8 ≠ 0 ∨ 4000 < bytes then respond s c .badDescriptor []
  else
    let s1 := if off ≤ 0x10030 ∧ 0x10030 < off + bytes then { s with time := { s.time with latch := s.time.now.tick } } else s
    respond s1 c .ok ((List.range (bytes / 8)).map (fun i => readReg s1 (off + 8 * i)))

/-- A 32-bit sequence number at or after another. -/
def seqFrom (first x : Nat) : Bool := decide ((x + 2 ^ 32 - first % 2 ^ 32) % 2 ^ 32 < 2 ^ 31)

/-- The outcome of a command that only has one. -/
def answer (c : MgmtCmd) (r : State × Status) : State := respond r.1 c r.2 []

/-- `BN_SIG_POLICY` set (R449). -/
def setSigPolicy (s : State) (b : Nat) (require : Bool) (key : BitVec 256) : State × Status :=
  if s.bar.lock || decide (16 ≤ b) then (s, .badDescriptor)
  else
    let s1 := putReg s (bn b 0x0C0) (BitVec.ofNat 64 (boolBit require))
    ((List.range 4).foldl (fun s i => putReg s (bn b (0x0C8 + 8 * i)) (BitVec.ofNat 64 (fieldOf key (64 * i + 63) (64 * i)))) s1,
      .ok)

/-- A unit's quarantine record, losses and retirement cleared (R419). -/
def clearQuarantine (s : State) (u : UnitId) : State :=
  { s with fault := { s.fault with
    quarantine := s.fault.quarantine.filter (fun q => q.1 != u)
    losses := s.fault.losses.filter (fun l => l.unit != u)
    retired := s.fault.retired.filter (fun x => x != u) } }

/-- A command held for its commit. -/
def holdCmd (s : State) (c : MgmtCmd) (o : MgmtOp) : State :=
  { s with mgmt := { s.mgmt with held := s.mgmt.held ++ [(c, o)] } }

/-- A command's effect at its landing, with the answer of one that acts there. -/
def mgmtAct (s : State) (c : MgmtCmd) : MgmtOp → State
  | .readRegs off bytes => readRegs s c off bytes
  | .readLog seq =>
    respond s c .ok (((s.fault.pers.filter (fun e => seqFrom seq e.seq)).take 63).map logBits)
  | .readMeter seq =>
    respond s c .ok (((s.mgmt.meter.filter (fun r => seqFrom seq r.seq)).take 63).map meterBits)
  | .stageBench e r => answer c (stageBench s e r)
  | .stageRoute e first es => answer c (stageRoute s e first es)
  | .stageExport e r => answer c (stageExport s e r)
  | .stageRackmap e slots => answer c (stageRackmap s e slots)
  | .stageEvac e b target tb => answer c (stageEvac s e b target tb)
  | .discardStage e => answer c (discardStage s e)
  | .setSigPolicy b require key => answer c (setSigPolicy s b require key)
  | .sealEpoch e k => holdCmd s c (.sealEpoch e k)
  | .clearQuarantine u => holdCmd s c (.clearQuarantine u)
  | .keyErase b => if inKeep s then answer c (eraseAct s (b == 15) b) else holdCmd s c (.keyErase b)
  | .reset cold => if cold then coldReset (respond s c .ok []) else warmReset (respond s c .ok [])
  | .keepEnter => respond (enterKeep 4 s) c .ok []
  | .restEnter => { s with pwr := { s.pwr with restReq := s.pwr.restReq ++ [(c.stamp, some c)] } }

/-- A command as it is taken: refused by its header, its session or Keep mode, or acting. -/
def mgmtTake (s : State) (c : MgmtCmd) (o : MgmtOp) : State :=
  if !mgmtHdrOk c.hdr (opCode o) || !sessionOk s c (opCode o) then respond s c .badDescriptor []
  else if inKeep s && !keepAnswers o then respond s c .benchHalted []
  else mgmtAct s c o

/-- The command acts at the commit of tick n (R445, R475, R476). -/
def mgmtCommit (s : State) (c : MgmtCmd) (n : Nat) : MgmtOp → State
  | .sealEpoch e k => answer c (sealEpoch s e k n)
  | .clearQuarantine u =>
    if u.kind = .link ∧ !linkPresent s u.index then answer c (s, .badDescriptor) else answer c (clearQuarantine s u, .ok)
  | .keyErase b => answer c (eraseAct s (b == 15) b)
  | _ => s

/-- Rest, its entry and its exit (R464). -/
def resting (s : State) : Bool := s.pwr.state != .run && s.pwr.state != .keep

/-- A latched command is a wake event at its own stamp (R465, R467). -/
def latchWake (s : State) : State :=
  match s.pwr.state with
  | .rest => wake 6 s.time.now s
  | .entering => { s with pwr := { s.pwr with latched := some (s.pwr.latched.getD (6, s.time.now)) } }
  | _ => s

/-- READ_REGS wholly within the blocks that Rest leaves open (R464, R475). -/
def restReads : MgmtOp → Bool
  | .readRegs off bytes => bytes != 0 && restOpen off && restOpen (off + bytes - 1) && (off / 0x10000 == (off + bytes - 1) / 0x10000)
  | _ => false

/-- A command lands (R472 to R475). -/
def mgmtLand (c : MgmtCmd) (o : MgmtOp) (s : State) : State :=
  if c.transport = .doe || !sideUp s c.transport then s
  else if !served s || s.fw.stage == .recovery then
    (match o with | .readRegs off bytes => readRegs s c off bytes | _ => s)
  else if c.transport = .mirror && (s.mgmt.busy || s.pwr.state == .rest) then badAccess s
  else
    let s1 := if c.transport = .mirror then { s with mgmt := { s.mgmt with busy := true, mirror := some c } } else s
    if resting s1 && !restReads o then latchWake { s1 with mgmt := { s1.mgmt with latched := s1.mgmt.latched ++ [(c, o)] } }
    else mgmtTake s1 c o

/-- The shape of a command's row. -/
def mgmtRow (c : MgmtCmd) (o : MgmtOp) (s : State) : Host.Outcome State Fault Refusal := run c.stamp (mgmtLand c o) s

def execReadRegs (c : MgmtCmd) (off bytes : Nat) (s : State) : Host.Outcome State Fault Refusal := mgmtRow c (.readRegs off bytes) s
def execReadLog (c : MgmtCmd) (seq : Nat) (s : State) : Host.Outcome State Fault Refusal := mgmtRow c (.readLog seq) s
def execReadMeter (c : MgmtCmd) (seq : Nat) (s : State) : Host.Outcome State Fault Refusal := mgmtRow c (.readMeter seq) s
def execStageBench (c : MgmtCmd) (epoch : Nat) (record : BitVec 1024) (s : State) : Host.Outcome State Fault Refusal :=
  mgmtRow c (.stageBench epoch record) s
def execStageRoute (c : MgmtCmd) (epoch first : Nat) (es : List Word) (s : State) : Host.Outcome State Fault Refusal :=
  mgmtRow c (.stageRoute epoch first es) s
def execStageExport (c : MgmtCmd) (epoch : Nat) (region : BitVec 256) (s : State) : Host.Outcome State Fault Refusal :=
  mgmtRow c (.stageExport epoch region) s
def execStageRackmap (c : MgmtCmd) (epoch : Nat) (slots : List ModuleId) (s : State) : Host.Outcome State Fault Refusal :=
  mgmtRow c (.stageRackmap epoch slots) s
def execStageEvac (c : MgmtCmd) (epoch bench : Nat) (target : ModuleId) (targetBench : Nat) (s : State) :
    Host.Outcome State Fault Refusal := mgmtRow c (.stageEvac epoch bench target targetBench) s
def execSealEpoch (c : MgmtCmd) (epoch k : Nat) (s : State) : Host.Outcome State Fault Refusal := mgmtRow c (.sealEpoch epoch k) s
def execDiscardStage (c : MgmtCmd) (epoch : Nat) (s : State) : Host.Outcome State Fault Refusal := mgmtRow c (.discardStage epoch) s
def execSetSigPolicy (c : MgmtCmd) (bench : Nat) (require : Bool) (keyHash : BitVec 256) (s : State) :
    Host.Outcome State Fault Refusal := mgmtRow c (.setSigPolicy bench require keyHash) s
def execClearQuarantine (c : MgmtCmd) (u : UnitId) (s : State) : Host.Outcome State Fault Refusal := mgmtRow c (.clearQuarantine u) s
def execKeyErase (c : MgmtCmd) (bench : Nat) (s : State) : Host.Outcome State Fault Refusal := mgmtRow c (.keyErase bench) s
def execMgResetWarm (c : MgmtCmd) (s : State) : Host.Outcome State Fault Refusal := mgmtRow c (.reset false) s
def execMgResetCold (c : MgmtCmd) (s : State) : Host.Outcome State Fault Refusal := mgmtRow c (.reset true) s
def execKeepEnter (c : MgmtCmd) (s : State) : Host.Outcome State Fault Refusal := mgmtRow c .keepEnter s
def execRestEnter (c : MgmtCmd) (s : State) : Host.Outcome State Fault Refusal := mgmtRow c .restEnter s

/-! ## Sensors (R477) -/

/-- Numeric sensors. -/
def numericSensor (s : State) (n : Nat) : Bool :=
  decide (n ≤ 4) || n == 6 || (decide (8 ≤ n) && decide (n ≤ 20)) || (decide (24 ≤ n) && decide (n ≤ 36)) ||
    (n == 37 && s.stock == .mx) || (decide (40 ≤ n) && decide (n ≤ 44))

/-- State sensors. -/
def stateSensor (n : Nat) : Bool := n == 5 || n == 48 || n == 49

/-- Sensors in the PDRs, ascending. -/
def sensorList (s : State) : List Nat := (List.range 50).filter (fun n => numericSensor s n || stateSensor n)

/-- A state sensor's present state. -/
def stateOf (s : State) (n : Nat) : Int :=
  if n = 5 then (if s.pwr.flowOk then 0 else 1)
  else if n = 48 then (s.pwr.state.code : Int) else (s.fw.stage.code : Int)

/-- A sensorEvent message to the registered receiver. -/
def sensorEvent (s : State) (n : Nat) (v : Int) : State :=
  if s.mgmt.receiver.isSome && !s.mgmt.disabled.contains n then emit s (.sensorEvent n v) else s

/-- A reading updated: a threshold crossed sends an event. -/
def setSensor (s : State) (n : Nat) (v : Int) : State :=
  if !numericSensor s n then s
  else
    let old := (tget s.mgmt.sensors n).getD 0
    let th := Config.threshold n
    let s1 := { s with mgmt := { s.mgmt with sensors := tput s.mgmt.sensors n v } }
    if (decide (th ≤ v)) != (decide (th ≤ old)) then sensorEvent s1 n v else s1

/-- A state sensor looked at: a change sends an event. -/
def lookState (s : State) (n : Nat) : State :=
  let v := stateOf s n
  if tget s.mgmt.sensors n = some v then s
  else sensorEvent { s with mgmt := { s.mgmt with sensors := tput s.mgmt.sensors n v } } n v

/-- SENSOR_UPDATE (R477). -/
def sensorUpdate (l : List (Nat × Int)) (s : State) : State :=
  [5, 48, 49].foldl lookState (l.foldl (fun s x => setSensor s x.1 x.2) s)

def execSensorUpdate (t : Stamp) (readings : List (Nat × Int)) (s : State) : Host.Outcome State Fault Refusal :=
  run t (sensorUpdate readings) s

/-- PLDM type 2 (R477). A PDR is named by its place in the list of sensors, from 1; 0 names the first. -/
def sensorReq (s : State) : SideReq → SideOut
  | .getPdr record =>
    (match (sensorList s)[record - 1]? with
     | some n => (s, .ok, [n])
     | none => (s, .invalidData, []))
  | .pdrInfo => (s, .ok, [(sensorList s).length])
  | .sensorReading n =>
    if !numericSensor s n then (s, .invalidData, [])
    else if s.mgmt.disabled.contains n then (s, .ok, [n, 1])
    else (s, .ok, [n, 0, ((tget s.mgmt.sensors n).getD 0 % 2 ^ 32).toNat])
  | .stateReading n => if stateSensor n then (s, .ok, [n, (stateOf s n).toNat]) else (s, .invalidData, [])
  | .sensorEnable n on =>
    if !numericSensor s n then (s, .invalidData, [])
    else
      let l := s.mgmt.disabled.filter (· != n)
      ({ s with mgmt := { s.mgmt with disabled := if on then l else l ++ [n] } }, .ok, [])
  | _ => (s, .unsupported, [])

/-! ## Firmware update (R394 to R398, R479) -/

/-- A component as PLDM names it, by the image kind: 1 LOADER, 2 FIRMWARE. -/
def isComponent (c : Nat) : Bool := c == 1 || c == 2

/-- RequestFirmwareData for what is left; how much is asked for at once is the device's own. -/
def askData (s : State) (t : Transport) (u : Update) : State :=
  emit s.bump (.fd t (.requestData u.got (min (u.size - u.got) (1 + Config.choice s.fresh % 4096))))

/-- An update begins (R397, R479). -/
def requestUpdate (s : State) : SideOut :=
  if (bootDir s).trial ≠ 0 ∨ inKeep s then (s, .updateNotPossible, [])
  else if s.mgmt.update.isSome then (s, .alreadyInUpdateMode, [])
  else ({ s with mgmt := { s.mgmt with update := some {} } }, .ok, [])

/-- The update changed. -/
def setUpdate (s : State) (u : Option Update) : State := { s with mgmt := { s.mgmt with update := u } }

/-- The whole image is here: it is verified, and one that passes is written into the slot not in use (R397, R479). -/
def finishTransfer (s : State) (t : Transport) (u : Update) (image : Option Image) : State :=
  let s1 := emit s (.fd t (.transferComplete image.isSome))
  match image with
  | none => setUpdate s1 (some { u with comp := 0 })
  | some i =>
    if updateOk s u.comp i then
      let s2 := { s1 with fw := { s1.fw with slots := tput s1.fw.slots (otherSlot s u.comp) i } }
      emit (emit (setUpdate s2 (some { u with image := some i, verified := true })) (.fd t (.verifyComplete true)))
        (.fd t (.applyComplete true))
    else emit (setUpdate s1 (some { u with comp := 0 })) (.fd t (.verifyComplete false))

/-- Firmware data arrives, in order. -/
def firmwareData (s : State) (t : Transport) (u : Update) (off len : Nat) (image : Option Image) : SideOut :=
  if !isComponent u.comp || u.verified then (s, .unexpected, [])
  else if off ≠ u.got ∨ u.size < off + len ∨ len = 0 then (s, .invalidData, [])
  else
    let u1 := { u with got := off + len }
    (if u1.got = u.size then finishTransfer s t u1 image else askData (setUpdate s (some u1)) t u1, .ok, [])

/-- Activation under the image's activation field (R398). -/
def activate (s : State) (u : Update) : SideOut :=
  match u.image with
  | none => (s, .invalidState, [])
  | some i =>
    let s1 := setUpdate s none
    if u.comp = 2 ∧ !bitOf i.hdr 40 ∧ fwRuns s then ({ s1 with fw := { s1.fw with hitlessWait := true } }, .ok, [0])
    else
      (putDir s1 (fun d => { d with
        ldrSlot := if u.comp = 1 then 1 - d.ldrSlot else d.ldrSlot
        fwSlot := if u.comp = 1 then d.fwSlot else 1 - d.fwSlot
        trial := u.comp, started := false }), .ok, [1])

/-- An image as GetFirmwareParameters reports it: major, minor, patch, svn. -/
def imageInfo : Option Image → List Nat
  | some i => [fieldOf i.hdr 127 120, fieldOf i.hdr 119 104, fieldOf i.hdr 103 96, fieldOf i.hdr 95 64]
  | none => []

/-- PLDM type 5 (R479). -/
def updateReq (s : State) (t : Transport) : SideReq → SideOut
  | .queryIds => (s, .ok, [0x1F9A, if s.stock = .mx then 0x6400 else 0x6401])
  | .fwParams =>
    (s, .ok, [1, 2].flatMap (fun k => k :: imageInfo (imageInUse s k) ++ imageInfo (tget s.fw.slots (otherSlot s k))))
  | .requestUpdate => requestUpdate s
  | r =>
    match s.mgmt.update with
    | none => (match r with | .updateStatus => (s, .ok, [0]) | _ => (s, .notInUpdateMode, []))
    | some u =>
      match r with
      | .passTable comps =>
        if comps.all isComponent then (setUpdate s (some { u with comps := comps }), .ok, []) else (s, .invalidData, [])
      | .updateComp comp size =>
        if isComponent comp && u.comps.contains comp && decide (0 < size) then
          let u1 : Update := { comps := u.comps, comp := comp, size := size }
          (askData (setUpdate s (some u1)) t u1, .ok, [])
        else (s, .invalidData, [])
      | .fwData off len image => firmwareData s t u off len image
      | .activate => activate s u
      | .updateStatus => (s, .ok, [1, u.comp, u.got, u.size, boolBit u.verified])
      | .cancelComp => (setUpdate s (some { comps := u.comps }), .ok, [])
      | .cancelUpdate => (setUpdate s none, .ok, [])
      | _ => (s, .unsupported, [])

/-! ## Requests of the other protocols -/

/-- PLDM type 5. -/
def isUpdate : SideReq → Bool
  | .queryIds => true | .fwParams => true | .requestUpdate => true | .passTable _ => true | .updateComp _ _ => true
  | .fwData _ _ _ => true | .activate => true | .updateStatus => true | .cancelComp => true | .cancelUpdate => true
  | _ => false

/-- PLDM type 2. -/
def isSensor : SideReq → Bool
  | .getPdr _ => true | .pdrInfo => true | .sensorReading _ => true | .stateReading _ => true | .sensorEnable _ _ => true
  | .eventReceiver _ => true
  | _ => false

def isMctp : SideReq → Bool
  | .mctp _ _ => true
  | _ => false

/-- Answered in Rest without the firmware: MCTP control and the sensors' read-out (R464). -/
def restSide : SideReq → Bool
  | .mctp _ _ => true | .getPdr _ => true | .pdrInfo => true | .sensorReading _ => true | .stateReading _ => true
  | _ => false

/-- MCTP control (R470): an endpoint ID assigned is kept, and any message answered. -/
def mctpControl (s : State) (t : Transport) (code eid : Nat) : SideOut :=
  if code = 1 then ({ s with mgmt := { s.mgmt with eids := tput s.mgmt.eids (transportNum t) eid } }, .ok, [eid])
  else if code = 2 then (s, .ok, [(tget s.mgmt.eids (transportNum t)).getD 0])
  else (s, .ok, [])

/-- A request's answer by its protocol. -/
def sideTake (s : State) (t : Transport) (r : SideReq) : SideOut :=
  match r with
  | .mctp code eid => mctpControl s t code eid
  | .eventReceiver eid => ({ s with mgmt := { s.mgmt with receiver := some (t, eid) } }, .ok, [])
  | _ => if isSensor r then sensorReq s r else if isUpdate r then updateReq s t r else spdmAnswer s t r

/-- A request answered. -/
def sideAnswer (s : State) (t : Transport) (r : SideReq) : State :=
  let (s1, c, body) := sideTake s t r
  emit s1 (.side t r c body)

/-- A request lands: DOE carries SPDM alone; before the firmware row MCTP control alone is answered, and in RECOVERY
firmware update too (R396); in Rest what needs firmware is latched (R464, R475). -/
def sideLand (t : Transport) (r : SideReq) (s : State) : State :=
  if !sideUp s t || (t == .doe && (isMctp r || isSensor r || isUpdate r)) then s
  else if (!served s || s.fw.stage == .recovery) && !isMctp r && !(isUpdate r && s.fw.stage == .recovery) then s
  else if resting s && !restSide r then
    latchWake { s with mgmt := { s.mgmt with latchedSide := s.mgmt.latchedSide ++ [(t, r)] } }
  else sideAnswer s t r

/-- The shape of such a request's row. -/
def sideRow (t : Stamp) (tr : Transport) (r : SideReq) (s : State) : Host.Outcome State Fault Refusal := run t (sideLand tr r) s

def execMctpControl (t : Stamp) (transport : Transport) (code eid : Nat) (s : State) : Host.Outcome State Fault Refusal :=
  sideRow t transport (.mctp code eid) s
def execGetPdr (t : Stamp) (transport : Transport) (record : Nat) (s : State) : Host.Outcome State Fault Refusal :=
  sideRow t transport (.getPdr record) s
def execGetPdrRepositoryInfo (t : Stamp) (transport : Transport) (s : State) : Host.Outcome State Fault Refusal :=
  sideRow t transport .pdrInfo s
def execGetSensorReading (t : Stamp) (transport : Transport) (sensor : Nat) (s : State) : Host.Outcome State Fault Refusal :=
  sideRow t transport (.sensorReading sensor) s
def execGetStateSensorReadings (t : Stamp) (transport : Transport) (sensor : Nat) (s : State) :
    Host.Outcome State Fault Refusal := sideRow t transport (.stateReading sensor) s
def execSetNumericSensorEnable (t : Stamp) (transport : Transport) (sensor : Nat) (enable : Bool) (s : State) :
    Host.Outcome State Fault Refusal := sideRow t transport (.sensorEnable sensor enable) s
def execSetEventReceiver (t : Stamp) (transport : Transport) (eid : Nat) (s : State) : Host.Outcome State Fault Refusal :=
  sideRow t transport (.eventReceiver eid) s
def execQueryDeviceIdentifiers (t : Stamp) (transport : Transport) (s : State) : Host.Outcome State Fault Refusal :=
  sideRow t transport .queryIds s
def execGetFirmwareParameters (t : Stamp) (transport : Transport) (s : State) : Host.Outcome State Fault Refusal :=
  sideRow t transport .fwParams s
def execRequestUpdate (t : Stamp) (transport : Transport) (s : State) : Host.Outcome State Fault Refusal :=
  sideRow t transport .requestUpdate s
def execPassComponentTable (t : Stamp) (transport : Transport) (components : List Nat) (s : State) :
    Host.Outcome State Fault Refusal := sideRow t transport (.passTable components) s
def execUpdateComponent (t : Stamp) (transport : Transport) (component size : Nat) (s : State) :
    Host.Outcome State Fault Refusal := sideRow t transport (.updateComp component size) s
def execFirmwareData (t : Stamp) (transport : Transport) (off len : Nat) (image : Option Image) (s : State) :
    Host.Outcome State Fault Refusal := sideRow t transport (.fwData off len image) s
def execActivateFirmware (t : Stamp) (transport : Transport) (s : State) : Host.Outcome State Fault Refusal :=
  sideRow t transport .activate s
def execGetStatus (t : Stamp) (transport : Transport) (s : State) : Host.Outcome State Fault Refusal :=
  sideRow t transport .updateStatus s
def execCancelUpdateComponent (t : Stamp) (transport : Transport) (s : State) : Host.Outcome State Fault Refusal :=
  sideRow t transport .cancelComp s
def execCancelUpdate (t : Stamp) (transport : Transport) (s : State) : Host.Outcome State Fault Refusal :=
  sideRow t transport .cancelUpdate s
def execGetVersion (t : Stamp) (transport : Transport) (s : State) : Host.Outcome State Fault Refusal :=
  sideRow t transport .getVersion s
def execGetCapabilities (t : Stamp) (transport : Transport) (s : State) : Host.Outcome State Fault Refusal :=
  sideRow t transport .getCapabilities s
def execNegotiateAlgorithms (t : Stamp) (transport : Transport) (offers : List SpdmAlg)
    (s : State) : Host.Outcome State Fault Refusal :=
  sideRow t transport (.negotiate offers) s
def execGetDigests (t : Stamp) (transport : Transport) (s : State) : Host.Outcome State Fault Refusal :=
  sideRow t transport .getDigests s
def execGetCertificate (t : Stamp) (transport : Transport) (slot off len : Nat) (s : State) :
    Host.Outcome State Fault Refusal := sideRow t transport (.getCertificate slot off len) s
def execChallenge (t : Stamp) (transport : Transport) (slot nonce : Nat) (s : State) : Host.Outcome State Fault Refusal :=
  sideRow t transport (.challenge slot nonce) s
def execGetMeasurements (t : Stamp) (transport : Transport) (index : Nat) (s : State) : Host.Outcome State Fault Refusal :=
  sideRow t transport (.getMeasurements index) s
def execKeyExchange (t : Stamp) (transport : Transport) (s : State) : Host.Outcome State Fault Refusal :=
  sideRow t transport .keyExchange s
def execFinish (t : Stamp) (transport : Transport) (session : Nat) (macOk : Bool) (s : State) : Host.Outcome State Fault Refusal :=
  sideRow t transport (.finish session macOk) s
def execHeartbeat (t : Stamp) (transport : Transport) (session : Nat) (s : State) : Host.Outcome State Fault Refusal :=
  sideRow t transport (.heartbeat session) s
def execKeyUpdate (t : Stamp) (transport : Transport) (session : Nat) (s : State) : Host.Outcome State Fault Refusal :=
  sideRow t transport (.keyUpdate session) s
def execEndSession (t : Stamp) (transport : Transport) (session : Nat) (s : State) : Host.Outcome State Fault Refusal :=
  sideRow t transport (.endSession session) s

/-- IDE_KM (R446), through the transport of its session. -/
def execIdeKm (t : Stamp) (session stream : Nat) (rids : List Fn) (key : Bool) (s : State) : Host.Outcome State Fault Refusal :=
  sideRow t (((tget s.sec.sessions session).map (·.transport)).getD .doe) (.ideKm session stream rids key) s

/-! ## What Rest latched (R464, R466, R475) -/

/-- Latched commands and requests are answered, in the order they came. -/
def answerLatched (s : State) : State :=
  let cs := s.mgmt.latched
  let rs := s.mgmt.latchedSide
  let s0 := { s with mgmt := { s.mgmt with latched := [], latchedSide := [] } }
  rs.foldl (fun s r => sideAnswer s r.1 r.2) (cs.foldl (fun s x => mgmtTake s x.1 x.2) s0)

/-- WAKE_COMPLETE (R466). -/
def execWakeComplete (t : Stamp) (s : State) : Host.Outcome State Fault Refusal :=
  run t (fun s => if s.pwr.state = .waking then answerLatched (woken s) else s) s

/-- What is latched is answered by the loader where Keep mode was entered from Rest (R469, R475). -/
def afterKeep (s : State) : State := if inKeep s then answerLatched s else s

/-- REST_ENTRY_COMPLETE (R463, R467, R469). -/
def execRestEntryComplete (t : Stamp) (s : State) : Host.Outcome State Fault Refusal :=
  run t (fun s => afterKeep (restEntered s)) s

/-- FLOW_LOSS (R425, R463, R464, R469, R508, R509). -/
def execFlowLoss (t : Stamp) (s : State) : Host.Outcome State Fault Refusal := run t (fun s => afterKeep (flowLost s)) s

end Sys2Proof.Machine
end

