-- ==== Sys2Proof/Machine/Writes.lean ====
section
/-! DEFINITION. A write of any register of BAR0 (R486 to R492): what its offset makes of it. -/

namespace Sys2Proof.Machine

/-- A write to `RL_READOUT_CTRL`: kind is stored, and a go starts the read-out of the kind written (R427). -/
def writeReadoutCtrl (t : Stamp) (fn : Fn) (value : Word) (s : State) : Host.Outcome State Fault Refusal :=
  if !bitOf value 8 then run t (writeReg fn 0x70040 value) s
  else if bitOf value 0 then execReadoutConv t fn s
  else execReadoutList t fn s

/-- A write of the physical function that has no effect but its checks. -/
def writeNothing (t : Stamp) (fn : Fn) (off : Nat) (s : State) : Host.Outcome State Fault Refusal := pfWrite t fn off (fun s => s) s

/-- REGISTER_WRITE (R486 to R492). -/
def execRegisterWrite (t : Stamp) (fn : Fn) (off : Nat) (value : Word) (s : State) : Host.Outcome State Fault Refusal :=
  if off = 0x0F8 then execSetupLockWrite t fn value s
  else if off = 0x60008 then if bitOf value 0 then execRestRequest t fn s else writeNothing t fn off s
  else if off = 0x60010 then if bitOf value 0 then execPwResetCtrlWarm t fn s else writeNothing t fn off s
  else if off = 0x60020 then execPwOverrideClear t fn value s
  else if off = 0x70020 then if bitOf value 0 then execRlKeepCtrlEnter t fn s else writeNothing t fn off s
  else if off = 0x70040 then writeReadoutCtrl t fn value s
  else if off = 0x80040 then execScKeyCtrlErase t fn value s
  else match benchPage off with
    | some (b, 0x088) => execBnSetupLockWrite t fn b value s
    | some (b, 0x0F0) => execRingErrOverrunClear t fn b value s
    | _ => run t (writeReg fn off value) s

end Sys2Proof.Machine
end

