-- ==== Sys2Proof/Machine/Commit.lean ====
section
/-! DEFINITION. The tick: its start, its cut-off and its commit, step by step, and the windows and lists that lapse
(R27, R30, R33 to R42, R45, R53, R60, R63, R127, R206, R208, R211 to R215, R220, R243, R248 to R250, R256, R259, R278,
R331, R380, R402 to R405, R421, R423, R424, R426, R462, R463, R480, R491, R493). -/

namespace Sys2Proof.Machine

/-! ## Tick start (R27, R423, R424) -/

/-- Classes of `RL_AVAIL` (R423). -/
inductive AvailClass where | available | unavailable | excluded | sync
  deriving DecidableEq, Repr

/-- The class tick n counts in (R423). -/
def availClass (s : State) (n : Nat) : AvailClass :=
  match s.fault.keep with
  | some (c, _) => if c = 3 ∨ c = 4 then .excluded else .unavailable
  | none =>
    if s.pwr.state ≠ .run ∨ s.pwr.restDue ∨ !s.pwr.wasStable ∨ s.pwr.excursion then .excluded
    else if !synced s then .sync
    else if 5 < s.fw.coast then .unavailable
    else if s.plan.tick = some n then .available
    else .sync

/-- m ticks counted in a class. -/
def addAvail (s : State) (c : AvailClass) (m : Nat) : State :=
  let (a, u, e, y) := s.fault.avail
  let up (x : Nat) : Nat := (x + m) % 2 ^ 64
  { s with fault := { s.fault with avail := match c with
    | .available => (up a, u, e, y)
    | .unavailable => (a, up u, e, y)
    | .excluded => (a, u, up e, y)
    | .sync => (a, u, e, up y) } }

/-- The gap of an escalated cold reset, once the module ticks again (R424). -/
def countGap (s : State) (n : Nat) : State :=
  match s.fw.escalated with
  | none => s
  | some k =>
    let s1 := { s with fw := { s.fw with escalated := none } }
    if s.time.sync = .source then logErr s1 .accounting 3
    else addAvail s1 .unavailable (n - k)

/-- The module's first tick since its reset (R29, R30, R481). -/
def beginTicking (s : State) (n : Nat) : State :=
  if !s.time.ticking && synced s && !cfgInvalid s && s.pwr.wasStable then
    countGap (openMeters { s with time := { s.time with ticking := true, first := some n } } n) n
  else s

/-- Chunks of a plan that does not run give their charges back at the next step 3 (R250). -/
def unplan (s : State) : State :=
  let back := s.plan.units.filterMap (fun u =>
    match u.cls, u.rebuild, req s u.req with
    | .chunk, false, some r =>
      if (tallyOf s u.bench r.params).isSome then some (tallyIdOf r.params, u.len) else none
    | _, _, _ => none)
  { s with plan := { s.plan with units := [], returns := s.plan.returns ++ back } }

/-- The module runs planned work (R389, R426, R461). -/
def running (s : State) : Bool := s.pwr.state == .run && s.pwr.planStable && !inKeep s

/-- The plan of tick n takes effect: a late one coasts, one for another tick or out of sync is none (R37, R53, R400).
-/
def takePlan (s : State) (n : Nat) : State :=
  if s.fw.planLate then
    coastPlan (unplan { s with fw := { s.fw with planLate := false } }) n
  else if s.plan.tick ≠ some n ∨ !synced s ∨ !running s then unplan s
  else if s.plan.byFw then
    { s with plan := { s.plan with lastFw := s.plan.units }, fw := { s.fw with late := 0, coast := 0 } }
  else s

/-- Ticks of open meter records spent outside RUN (R481). -/
def countRest (s : State) : State :=
  if s.pwr.state = .run ∨ inKeep s then s
  else { s with mgmt := { s.mgmt with open_ := s.mgmt.open_.map (fun o => (o.1, { o.2 with restTicks := o.2.restTicks + 1 })) } }

/-- TICK_START (R27, R49): the tick is counted, the source beacons, the plan starts with the tick's budgets whole, and
what waits for them goes on. -/
def tickStart (t : Stamp) (s : State) : State :=
  let n := t.tick
  let s1 := countRest (startAffected (beginTicking s n))
  let s2 := takePlan (addAvail s1 (availClass s1 n) 1) n
  let s3 := pendRows { s2 with plan := { s2.plan with cut := false, benchDrop := [], spans := [] }, spent := [] }
    (fun u => unitRows s2 u - 1)
  let s3 := if s3.time.sync = .source then sendBeacons s3 n t.off none else s3
  let s4 := if firmwareUp s3 && running s3 then issueMoves s3 else s3
  let s5 := if s4.pwr.state = .run then pumpWindows (pumpRack s4) else s4
  if synced s5 && running s5 then startItems (startSearches (startSpans s5)) else s5

def execTickStart (t : Stamp) (s : State) : Host.Outcome State Fault Refusal := run t (tickStart t) s

/-! ## Cut-off (R37, R42, R147, R148, R189) -/

/-- The units with these positions in the plan have not finished. -/
def lateUnits (us : List WorkUnit) (unfinished : List Nat) : List WorkUnit :=
  us.zipIdx.map (fun u =>
    if unfinished.contains u.2 then
      { u.1 with late := true, dropped := u.1.dropped || u.1.cls == .search || u.1.cls == .merge }
    else u.1)

/-- CUT_OFF: waits for answers that ended before it are taken at their ends (R191); unfinished work of the tick is
dropped; samples and answers to peers not finished are abandoned. -/
def cutOff (unfinished : List Nat) (s' : State) : State :=
  if s'.plan.cut then s'
  else
    let s := if synced s' then expireWaits ⟨s'.time.now.tick, cutoffOff s'⟩ s' else s'
    let us := lateUnits s.plan.units unfinished
    let gone (q : Search) : Bool := us.any (fun u => u.cls == .search && u.req == q.id && u.dropped)
    abandonServes (itemsAtCutoff { s with plan := { s.plan with
      cut := true, units := us, searches := s.plan.searches.map (fun q => if gone q then { q with dropped := true } else q) } })

def execCutOff (t : Stamp) (unfinished : List Nat) (s : State) : Host.Outcome State Fault Refusal :=
  run t (fun s => if cutoffOff s ≤ t.off then cutOff unfinished s else s) s

/-! ## Step 1 (R33, R34, R36, R38, R39, R211 to R215) -/

/-- An event of step 1: what orders it (R33) and what it does. -/
structure Ev where
  stamp : Stamp
  cls : Nat
  ring : Nat
  act : State → State

/-- R33: by stamp, then class, then ring; ring positions keep the order they landed in. Rows of messages do not name
their link: those of one stamp keep the order they came in (DESIGN CHOICE, log entry 153). -/
def evBefore (a b : Ev) : Bool :=
  stampLt a.stamp b.stamp ||
    (a.stamp == b.stamp && (decide (a.cls < b.cls) || (a.cls == b.cls && decide (a.ring < b.ring))))

/-- Events in the order of R33. -/
def sortEvs (l : List Ev) : List Ev :=
  l.foldl (fun acc x =>
    let (a, z) := acc.span (fun y => !evBefore x y)
    a ++ x :: z) []

/-- A tally removed by TALLY_SET closes its record, for the window where that ends too (R480, R482). -/
def closeDeleted (n : Nat) (s : State) (id : Nat) : State := closeTally s id (if windowEnds s n then 0 else 4) n

/-- The effect of a commit-acting opcode (R374); another is no descriptor. -/
def descEffect (o n : Nat) : Cpl → HostDesc → Nat → State → State :=
  match o with
  | 0x10 => applyLoad
  | 0x11 => applyUnload
  | 0x20 => applyAdmit
  | 0x21 => applyAppend
  | 0x22 => applyCancel
  | 0x23 => applyPark
  | 0x24 => applyResume
  | 0x25 => applyRelease
  | 0x30 => applyHandoff
  | 0x40 => applyVecSearch
  | 0x41 => applyVecInsert
  | 0x42 => applyVecDelete
  | 0x43 => applyVecMerge
  | 0x60 => applyTally (closeDeleted n)
  | 0x61 => applyBind
  | 0x7F => applyNop
  | _ => fun c _ n s => due s c .badDescriptor 0 n

/-- Pulls of a descriptor that has completed are forgotten. -/
def dropPull (s : State) (c : Cpl) : State :=
  { s with haul := { s.haul with pulls := s.haul.pulls.filter (fun q => q.cpl != c) } }

/-- The descriptor's record is due. -/
def isDue (s : State) (c : Cpl) : Bool := s.host.due.any (fun x => x.cpl == c)

/-- A landed descriptor at its commit n; one that waits for a pull stays with the pull (R211). -/
def applyLanded (n : Nat) (l : Landed) (s : State) : State :=
  match l.raw with
  | none => s
  | some raw =>
    let d := hostDescOf l raw
    let s1 := takeLanded d { s with haul := { s.haul with
      pulls := s.haul.pulls.map (fun q => if q.cpl = l.cpl then { q with landed := d } else q) } }
    let s2 := applyWith l.cpl (dOp d) (descEffect (dOp d) n) d n s1
    if isDue s2 l.cpl then dropPull s2 l.cpl else s2

/-- Landed descriptors due at commit n, read in whole. -/
def dueLanded (s : State) (n : Nat) : List Landed := s.host.landed.filter (fun l => l.raw.isSome && dueBy s l.cpl.stamp n)

/-- A host event beyond the 65,536 of a commit (R36). -/
def refuseExcess (n : Nat) (l : Landed) (s : State) : State :=
  match l.raw with
  | none => s
  | some raw => due (dropPull (takeLanded (hostDescOf l raw) s) l.cpl) l.cpl .noCapacity 0 n

/-- A notice or internal event at commit n. -/
def applyNotice (n : Nat) (i : Notice) (s : State) : State :=
  match i with
  | .loadComplete b p => loadComplete s b p n
  | .releaseDone b => releaseDone s b n
  | .shardCreate k => shardReady s k n false
  | .shardRestore k => shardReady s k n true
  | .shardReplicate k target => replicateReady s k target n
  | .tableLost k => tableLost s k n
  | .release k g => applyRelease_ s k g
  | .state k st => applyState s k st
  | .refcount p seq up => applyRefcount s p seq up
  | .replicaAdd p h id => applyReplicaAdd s p h id
  | .primaryFree p => applyPrimaryFree s p
  | .replicaDrop p h => applyReplicaDrop s p h
  | .repair p key value => repairPage s p key value
  | .dropReplica p => dropReplica s p

/-- Notices that come by a link; the others are internal events (R33). -/
def fromLink : Notice → Bool
  | .release _ _ => true
  | .state _ _ => true
  | .refcount _ _ _ => true
  | .replicaAdd _ _ _ => true
  | .primaryFree _ => true
  | .replicaDrop _ _ => true
  | _ => false

/-- A haul in takes effect at commit n; late where R34 named an earlier one (R213). -/
def applyFreed (n id : Nat) (h : DstHaul) (st : Stamp) (s : State) : State :=
  match dstHaul s id h.src with
  | none => s
  | some _ =>
    let late := decide (commitOf s st < n) && !s.time.early.contains st
    applyHaul (if late then logErr s .message 5 (b := h.bench) (d0 := h.conv) (d1 := id) else s) id h n

/-- A haul out that has ended completes at commit n (R205, R213). -/
def applyEnded (n id : Nat) (st : Status) (s : State) : State :=
  match srcHaul s id with
  | none => s
  | some h =>
    if st = .ok then
      let s1 := { s with haul := { s.haul with out := tdel s.haul.out id } }
      match h.cpl with
      | some c => due s1 c .ok h.conv n
      | none => s1
    else haulFail s id st n

/-- Every event of step 1 of commit n but those of management and the host. -/
def innerEvs (s : State) (n : Nat) : List Ev :=
  let deadlines := s.work.reqs.filterMap (fun r => match r.2.deadline with
    | some d => if dueBy s d n then some (Ev.mk d 1 0 (fun s => endReq s r.1 .expired n false)) else none
    | none => none)
  let notices := (s.haul.notices.filter (fun x => dueBy s x.1 n)).map (fun x =>
    Ev.mk x.1 (if fromLink x.2 then 3 else 4) 0 (applyNotice n x.2))
  let freed := s.haul.inn.filterMap (fun h => match h.2.freed with
    | some st => if dueBy s st n then some (Ev.mk st 3 0 (applyFreed n h.1 h.2 st)) else none
    | none => none)
  let ended := s.haul.out.filterMap (fun h => match h.2.ended with
    | some (t, st) => if dueBy s t n then some (Ev.mk t 3 0 (applyEnded n h.1 st)) else none
    | none => none)
  deadlines ++ notices ++ freed ++ ended

/-- Step 1's events of commit n, in the order of R33. -/
def stepOneEvs (s : State) (n : Nat) : List Ev :=
  let host := (sortEvs ((dueLanded s n).map (fun l => Ev.mk l.cpl.stamp 0 l.cpl.ring (applyLanded n l)))).zipIdx
  let excess := (sortEvs ((dueLanded s n).map (fun l => Ev.mk l.cpl.stamp 0 l.cpl.ring (refuseExcess n l)))).zipIdx
  let hostEvs := (host.filter (fun e => decide (e.2 < 65536))).map (·.1) ++
    (excess.filter (fun e => decide (65536 ≤ e.2))).map (·.1)
  let mgmt := (s.mgmt.held.filter (fun h => dueBy s h.1.stamp n)).map (fun h =>
    Ev.mk h.1.stamp 2 0 (fun s => mgmtCommit s h.1 n h.2))
  let erase := (s.sec.erase.filter (fun e => dueBy s e.1 n)).map (fun e => Ev.mk e.1 2 0 (fun s => eraseStep s e.2))
  sortEvs (hostEvs ++ mgmt ++ erase ++ innerEvs s n)

/-- What the events of step 1 were taken from, emptied of them. -/
def takeEvs (s : State) (n : Nat) : State :=
  { s with
    mgmt := { s.mgmt with held := s.mgmt.held.filter (fun h => !dueBy s h.1.stamp n) }
    sec := { s.sec with erase := s.sec.erase.filter (fun e => !dueBy s e.1 n) }
    haul := { s.haul with notices := s.haul.notices.filter (fun x => !dueBy s x.1 n) } }

/-- Pulls whose descriptor is due: effective ones act, refused ones complete with the refusal (R211). -/
def resolvePulls (s : State) (n : Nat) : State :=
  s.haul.pulls.foldl (fun s q0 =>
    match s.haul.pulls.find? (fun x => x.cpl == q0.cpl) with
    | none => s
    | some q =>
      if s.host.landed.any (fun l => l.cpl == q.cpl) || !dueBy s q.cpl.stamp n then s
      else if q.effective then
        let s1 := applyWith q.cpl (dOp q.landed) (descEffect (dOp q.landed) n) q.landed n s
        dropPull (if isDue s1 q.cpl then s1 else due s1 q.cpl .notFound q.conv n) q.cpl
      else match q.refusedBy with
        | some (t, st) => if dueBy s t n then due (dropPull s q.cpl) q.cpl st q.conv n else s
        | none => s) s

/-- Hauls out withdrawn by the end of their request or conversation are forgotten, and their descriptors complete
(R226). -/
def sweepAborted (s : State) (n : Nat) : State :=
  s.haul.out.foldl (fun s x =>
    match srcHaul s x.1 with
    | none => s
    | some h =>
      if !h.aborted || h.ended.isSome || s.work.parks.any (fun p => p.haul == some x.1) then s
      else
        let s1 := { s with haul := { s.haul with out := tdel s.haul.out x.1 } }
        match h.cpl with
        | some c => due s1 c (if (conv s h.conv).isNone then .notFound else .cancelled) h.conv n
        | none => s1) s

/-- The records of descriptors forwarded at an earlier commit, with the status their new home returned: a free value
(R214; log entry 11). -/
def finishForwarded (s : State) (n : Nat) : State :=
  let old := s.haul.forwarded.filter (fun x => decide (x.2.2 < n))
  old.foldl (fun s x => due s.bump x.1 (statusOf (Config.choice s.fresh % 16)) x.2.1 n)
    { s with haul := { s.haul with forwarded := s.haul.forwarded.filter (fun x => decide (n ≤ x.2.2)) } }

/-- Drains that end their bench's requests, before step 2 (R73). -/
def drainEnds (s : State) (n : Nat) : State :=
  s.benches.foldl (fun s x =>
    match (bench s x.1).state, (bench s x.1).drain with
    | .draining, some d => if d.mode = 2 ∧ d.limit ≤ n then endAll s x.1 n else s
    | _, _ => s) s

/-- Step 1 of commit n. -/
def stepOne (s : State) (n : Nat) : State :=
  let s1 := (stepOneEvs s n).foldl (fun s e => e.act s) (takeEvs s n)
  let s2 := drainEnds (sweepAborted (resolvePulls (finishForwarded s1 n) n) n) n
  handOver (retiredSlices (quarantineStep s2 n))

/-! ## Steps 2 to 4 -/

/-- Groups wholly SEALED whose replicas have not gone to the keeper (R220). -/
def sealedGroups (c : Conv) : List Nat :=
  (groupsOf c).filter (fun g => !c.copied.contains g &&
    (c.entries.filter (fun e => e.group == g && e.state != .replica)).all (fun e => e.state == .sealed))

/-- What step 4 sends as replicas, noted before step 2 seals more: conversation and group. -/
def replicasDue (s : State) : List (Nat × Nat) :=
  s.work.convs.flatMap (fun c =>
    if c.2.home && bounded s c.2.bench && (c.2.req.bind (req s)).isSome then (sealedGroups c.2).map (fun g => (c.1, g)) else [])

/-- Step 2 of commit n: moves take effect, rejected blocks are read again, fits are applied, units commit (R37, R120,
R129, R256, R405). -/
def stepTwo (s : State) (n : Nat) : State × List StepDone :=
  let s1 := noteMissing s
  let s2 := rereads (if firmwareAt s1 n then applyMoves s1 n else s1) n
  commitUnits (if firmwareAt s2 n then applyFits s2 else s2) n

/-- Step 3 of commit n: charges, token records, refills, final records, drains, the parks of R206, completion records
in application order (R380). `s0` is the state before the step, which tells the rings written. -/
def stepThree (s0 : State) (done : List StepDone) (n : Nat) : State :=
  let s1 := done.foldl (finishStep n) (returnCharges s0)
  let s2 := finishSearches (endFull (refills s1 (n + 1)) n) n
  let s3 := actParks (drainStep (writeWaiting n s2) n) n
  closeStreams s0 (flushDue s3)

/-- Replicas sent to keepers, once each, as the migration share takes them; the others at a later commit (R67, R170,
R220). -/
def copyGroups (s : State) (l : List (Nat × Nat)) : State :=
  l.foldl (fun s x =>
    match conv s x.1 with
    | some c =>
      if (sealedGroups c).contains x.2 &&
          shareCovers s c.bench (c.entries.filter (fun e => e.group == x.2 && isOwn e)) then
        modConv (sendReplicas s c x.2) x.1 (fun c => { c with copied := c.copied ++ [x.2] })
      else s
    | none => s) s

/-- Step 4 of commit n: segments sealed and sent, shards, checkpoints, replicas (R37, R217, R220, R291). -/
def stepFour (s : State) (copies : List (Nat × Nat)) (n : Nat) : State :=
  let s1 := s.work.convs.foldl (fun s c => sealSegments s c.1 n) s
  let s2 := s1.work.reqs.foldl (fun s r => sendCheckpoint s r.1 n) (sealShards s1 n)
  flushDue (copyGroups s2 copies)

/-! ## Steps 5 and 6 -/

/-- Step 5 of commit n: the epoch switch, and Rest decided (R60, R331, R462). -/
def stepFive (s : State) (n : Nat) : State := decideRest (pruneCoast s (switchEpoch s n)) n

/-- The firmware takes step 6 back at the commit its ready stamp names (R402). -/
def firmwareBack (s : State) (n : Nat) : State :=
  if s.fw.restart.isSome && firmwareAt s n then { s with fw := { s.fw with restart := none, readyAt := none } } else s

/-- Requests with no chunk left move on (R205). -/
def advanceAll (s : State) : State := s.work.reqs.foldl (fun s r => advance s r.1) s

/-- A bench whose slices have changed closes its record (R480). -/
def noteSlices (s : State) : State :=
  (List.range 16).foldl (fun s b =>
    if (openMeter s b).used && (openMeter s b).slices != sliceCounts s b then closeMeter s b 1 else s) s

/-- Blocks in the fit queues (R127, R496). -/
def backlog (s : State) : State :=
  (List.range 16).foldl (fun s b =>
    if (bench s b).fits.isEmpty && (tget s.bar.live (bn b 0x448)).isNone then s else gauge s (bn b 0x448) (bench s b).fits.length) s

/-- The plan of tick n + 1: built with every unit not retired, and again without those that its bands and patterns put
out of service (R417). -/
def planTwice (s : State) (n : Nat) : State :=
  let first := makePlan { s with fault := { s.fault with outNow := [] } } n
  let out := outForTick s (activityOf first)
  let plan := if out.isEmpty then first else makePlan { s with fault := { s.fault with outNow := out } } n
  { plan with plan := { plan.plan with activity := activityOf plan } }

/-- Step 6 of commit n, where `plans` says that a plan follows: the firmware's return, register writes, budgets,
evacuations, the plan of tick n + 1. -/
def stepSix (s : State) (n : Nat) (plans : Bool) : State :=
  let s2 := linkBudgets (applyWaiting (firmwareBack s n) n)
  if plans then
    let s3 := planTwice (advanceAll (startEvacs s2)) n
    if firmwareUp s3 then keepFace s3 else s3
  else { s2 with plan := { s2.plan with units := [], tick := none, byFw := false } }

/-- What the end of commit n leaves: records and windows closed, counters published (R480, R421, R493). -/
def closeCommit (s : State) (n : Nat) : State :=
  let s1 := lapses (closeMeters (noteSlices s) n) n
  let s2 := backlog s1
  { s2 with
    bar := { s2.bar with published := s2.bar.live }
    time := { s2.time with early := [], lastCommit := some n }
    fw := { s2.fw with trialRuns := if firmwareUp s2 then s2.fw.trialRuns + 1 else s2.fw.trialRuns } }

/-- The commit of tick n, steps 1 to 6 (R37). -/
def commitTick (s : State) (n : Nat) (plans : Bool) : State :=
  let s0 := cutOff [] s
  let ran := (s0.plan.units.map (·.bench)).eraseDups
  let s1 := stepOne (expanderCounts s0 ran) n
  let copies := replicasDue s1
  let (s2, done) := stepTwo s1 n
  let s3 := stepThree s2 done n
  closeCommit (stepSix (stepFive (stepFour s3 copies n) n) n plans) n

/-- Tick n has a commit now: step 1 begins 40 µs after the cut-off, no commit of it came before, and the module
follows the tick, or lost it in this tick (R37, R53, R466). -/
def commits (s : State) (t : Stamp) : Bool :=
  let n := t.tick
  let next := match s.time.lastCommit with | some m => decide (m < n) | none => true
  t.off == cutoffOff s + 40000 && next && s.pwr.planStable && s.time.ticking &&
    (wholeTick s n || s.time.lastRun == some n)

/-- COMMIT (R37, R426): in Keep mode only a commit whose cut-off the entry did not precede, without a plan; every
descriptor and command still waiting ends with it. -/
def commit (t : Stamp) (s : State) : State :=
  let n := t.tick
  match s.fault.keep with
  | none => if s.pwr.state == .run && commits s t then commitTick s n (wholeTick s n) else s
  | some k =>
    if keepCommits s k.2 n && commits s t then
      let s1 := commitTick { s with fault := { s.fault with keep := none } } n false
      closeAll (dropHeld k.2 true (dropLanded k.2 true { s1 with fault := { s1.fault with keep := some k } })) 3
    else s

def execCommit (t : Stamp) (s : State) : Host.Outcome State Fault Refusal := run t (commit t) s

/-! ## Rows of single effects of a commit -/

/-- TALLY_SET with delete 0 or 1, with the refill of the window that starts after its commit (R248, R249). -/
def tallyRow (d : HostDesc) (s : State) : Host.Outcome State Fault Refusal :=
  hostRow 0x60 (fun c d n s => refillTally (applyTally (closeDeleted n) c d n s) (fieldOf d.raw 75 64) (n + 1)) d s

def execTallySet (d : HostDesc) (s : State) : Host.Outcome State Fault Refusal := tallyRow d s
/-- TALLY_SET with delete 1. -/
def execTallyDelete (d : HostDesc) (s : State) : Host.Outcome State Fault Refusal := tallyRow d s

/-- DEADLINE_EXPIRY (R39, R41): the deadline passes. The request ends at the commit its deadline names: where that can
be taken alone the row is that effect, otherwise the deadline waits for its commit (log entry 131). -/
def expire (k : Nat) (s : State) : State :=
  match (req s k).bind (·.deadline) with
  | some d =>
    let n := commitOf s d
    if stampLe d s.time.now && !inKeep s && !s.time.halted && actsAlone s d 4096 then settle n (fun s => endReq s k .expired n false) s
    else s
  | none => s

def execDeadlineExpiry (t : Stamp) (req : Nat) (s : State) : Host.Outcome State Fault Refusal := run t (expire req) s

/-- TALLY_REFILL (R249), at the commit of the tick before the window: once per window. -/
def execTallyRefill (t : Stamp) (tally : Nat) (s : State) : Host.Outcome State Fault Refusal :=
  run t (fun s => refillTally s tally (t.tick + 1)) s

/-- DONE_LIST_EXPIRY (R208, R247). -/
def execDoneListExpiry (t : Stamp) (req : Nat) (s : State) : Host.Outcome State Fault Refusal :=
  run t (fun s => lapseDone s t.tick req) s

/-- BINDING_EXPIRY (R243). -/
def execBindingExpiry (t : Stamp) (req : Nat) (s : State) : Host.Outcome State Fault Refusal :=
  run t (fun s => lapseBinding s t.tick req) s

/-- GOODPUT_WINDOW_CLOSE (R421), once per window. -/
def execGoodputWindowClose (t : Stamp) (bench : Nat) (s : State) : Host.Outcome State Fault Refusal :=
  run t (fun s => closeGoodput s t.tick bench) s

/-- METER_WINDOW_CLOSE (R480), once per window. -/
def execMeterWindowClose (t : Stamp) (s : State) : Host.Outcome State Fault Refusal :=
  run t (fun s => if windowEnds s t.tick then closeMeters s t.tick else s) s

end Sys2Proof.Machine
end

