-- ==== Sys2Proof/Machine/Dispatch.lean ====
section
/-! DEFINITION. The dispatch: one arm per command, each one direct call of its meaning. -/

namespace Sys2Proof.Machine

def exec (i : Instr) (s : State) : Host.Outcome State Fault Refusal :=
  match i with
  | .doorbell t fn ring off size value => Sys2Proof.Machine.execDoorbell t fn ring off size value s
  | .descriptorFetchDone t ring index raw data => Sys2Proof.Machine.execDescriptorFetchDone t ring index raw data s
  | .badAccess t fn => Sys2Proof.Machine.execBadAccess t fn s
  | .modelLoad d => Sys2Proof.Machine.execModelLoad d s
  | .modelLoadReplace d => Sys2Proof.Machine.execModelLoadReplace d s
  | .modelLoadComplete t bench pkg => Sys2Proof.Machine.execModelLoadComplete t bench pkg s
  | .modelUnload d => Sys2Proof.Machine.execModelUnload d s
  | .drainLimitExpiry t bench => Sys2Proof.Machine.execDrainLimitExpiry t bench s
  | .unloadReleaseDone t bench => Sys2Proof.Machine.execUnloadReleaseDone t bench s
  | .reqAdmit d => Sys2Proof.Machine.execReqAdmit d s
  | .reqAppend d => Sys2Proof.Machine.execReqAppend d s
  | .reqCancel d => Sys2Proof.Machine.execReqCancel d s
  | .reqPark d => Sys2Proof.Machine.execReqPark d s
  | .reqParkHaul d => Sys2Proof.Machine.execReqParkHaul d s
  | .reqResume d => Sys2Proof.Machine.execReqResume d s
  | .reqResumeRebuild d => Sys2Proof.Machine.execReqResumeRebuild d s
  | .reqRelease d => Sys2Proof.Machine.execReqRelease d s
  | .reqHandoff d => Sys2Proof.Machine.execReqHandoff d s
  | .vecSearch d => Sys2Proof.Machine.execVecSearch d s
  | .vecInsert d => Sys2Proof.Machine.execVecInsert d s
  | .vecDelete d => Sys2Proof.Machine.execVecDelete d s
  | .vecMergeMerge d => Sys2Proof.Machine.execVecMergeMerge d s
  | .vecMergeCreate d => Sys2Proof.Machine.execVecMergeCreate d s
  | .shardCreateDone t shard => Sys2Proof.Machine.execShardCreateDone t shard s
  | .vecMergeDrop d => Sys2Proof.Machine.execVecMergeDrop d s
  | .vecMergeArchive d => Sys2Proof.Machine.execVecMergeArchive d s
  | .vecMergeRestore d => Sys2Proof.Machine.execVecMergeRestore d s
  | .shardRestoreDone t shard => Sys2Proof.Machine.execShardRestoreDone t shard s
  | .vecMergeReplicate d => Sys2Proof.Machine.execVecMergeReplicate d s
  | .shardReplicateDone t shard target => Sys2Proof.Machine.execShardReplicateDone t shard target s
  | .vecMergeUnreplicate d => Sys2Proof.Machine.execVecMergeUnreplicate d s
  | .winOpen d => Sys2Proof.Machine.execWinOpen d s
  | .winRevoke d => Sys2Proof.Machine.execWinRevoke d s
  | .qpCreate d => Sys2Proof.Machine.execQpCreate d s
  | .qpDestroy d => Sys2Proof.Machine.execQpDestroy d s
  | .qpDestroyAbort d => Sys2Proof.Machine.execQpDestroyAbort d s
  | .rmaWrite d => Sys2Proof.Machine.execRmaWrite d s
  | .rmaRead d => Sys2Proof.Machine.execRmaRead d s
  | .rmaAdd d => Sys2Proof.Machine.execRmaAdd d s
  | .rmaCas d => Sys2Proof.Machine.execRmaCas d s
  | .rmaWriteRack d => Sys2Proof.Machine.execRmaWriteRack d s
  | .rmaReadRack d => Sys2Proof.Machine.execRmaReadRack d s
  | .rmaAddRack d => Sys2Proof.Machine.execRmaAddRack d s
  | .rmaCasRack d => Sys2Proof.Machine.execRmaCasRack d s
  | .fence d => Sys2Proof.Machine.execFence d s
  | .fenceRack d => Sys2Proof.Machine.execFenceRack d s
  | .tallySet d => Sys2Proof.Machine.execTallySet d s
  | .tallyDelete d => Sys2Proof.Machine.execTallyDelete d s
  | .streamBind d => Sys2Proof.Machine.execStreamBind d s
  | .streamUnbind d => Sys2Proof.Machine.execStreamUnbind d s
  | .nop d => Sys2Proof.Machine.execNop d s
  | .tickStart t => Sys2Proof.Machine.execTickStart t s
  | .timeMessageSend t => Sys2Proof.Machine.execTimeMessageSend t s
  | .remoteWaitExpiry t bench pass layer => Sys2Proof.Machine.execRemoteWaitExpiry t bench pass layer s
  | .backstop t => Sys2Proof.Machine.execBackstop t s
  | .shortSightGiveUp t req layer gFirst => Sys2Proof.Machine.execShortSightGiveUp t req layer gFirst s
  | .cutOff t unfinished => Sys2Proof.Machine.execCutOff t unfinished s
  | .commit t => Sys2Proof.Machine.execCommit t s
  | .deadlineExpiry t req => Sys2Proof.Machine.execDeadlineExpiry t req s
  | .tallyRefill t tally => Sys2Proof.Machine.execTallyRefill t tally s
  | .checkpointSend t req => Sys2Proof.Machine.execCheckpointSend t req s
  | .checkpointLate t req => Sys2Proof.Machine.execCheckpointLate t req s
  | .doneListExpiry t req => Sys2Proof.Machine.execDoneListExpiry t req s
  | .bindingExpiry t req => Sys2Proof.Machine.execBindingExpiry t req s
  | .goodputWindowClose t bench => Sys2Proof.Machine.execGoodputWindowClose t bench s
  | .meterWindowClose t => Sys2Proof.Machine.execMeterWindowClose t s
  | .epochSwitch t => Sys2Proof.Machine.execEpochSwitch t s
  | .drainWindowEnd t => Sys2Proof.Machine.execDrainWindowEnd t s
  | .timeRecordReceive t link src hops fields => Sys2Proof.Machine.execTimeRecordReceive t link src hops fields s
  | .beaconReceive t link tick off => Sys2Proof.Machine.execBeaconReceive t link tick off s
  | .sourceTakeover t isNext => Sys2Proof.Machine.execSourceTakeover t isNext s
  | .syncLostTimeout t => Sys2Proof.Machine.execSyncLostTimeout t s
  | .syncHaltTimeout t => Sys2Proof.Machine.execSyncHaltTimeout t s
  | .delayMeasure t link roundTrip => Sys2Proof.Machine.execDelayMeasure t link roundTrip s
  | .cableInsert t cage => Sys2Proof.Machine.execCableInsert t cage s
  | .trainingStepDone t link lanes => Sys2Proof.Machine.execTrainingStepDone t link lanes s
  | .trainingStepTimeout t link => Sys2Proof.Machine.execTrainingStepTimeout t link s
  | .trainingRetry t link => Sys2Proof.Machine.execTrainingRetry t link s
  | .identReceive t link id => Sys2Proof.Machine.execIdentReceive t link id s
  | .keyHello t link m => Sys2Proof.Machine.execKeyHello t link m s
  | .keyKem t link m => Sys2Proof.Machine.execKeyKem t link m s
  | .keyAbort t link sent => Sys2Proof.Machine.execKeyAbort t link sent s
  | .refusedRetry t link => Sys2Proof.Machine.execRefusedRetry t link s
  | .flitReceive t link hdr fecOk crcOk tagOk => Sys2Proof.Machine.execFlitReceive t link hdr fecOk crcOk tagOk s
  | .nakRecord t link fseq => Sys2Proof.Machine.execNakRecord t link fseq s
  | .creditRecord t link req resp xfer win => Sys2Proof.Machine.execCreditRecord t link req resp xfer win s
  | .laneRecord t link errs0 errs1 drop => Sys2Proof.Machine.execLaneRecord t link errs0 errs1 drop s
  | .rekeyRecord t link keyIdx fseq => Sys2Proof.Machine.execRekeyRecord t link keyIdx fseq s
  | .laneDrop t link lane => Sys2Proof.Machine.execLaneDrop t link lane s
  | .laneRetry t link success => Sys2Proof.Machine.execLaneRetry t link success s
  | .keyRollover t link => Sys2Proof.Machine.execKeyRollover t link s
  | .freshExchange t link => Sys2Proof.Machine.execFreshExchange t link s
  | .freshExchangeRetry t link => Sys2Proof.Machine.execFreshExchangeRetry t link s
  | .freshExchangeDeadline t link => Sys2Proof.Machine.execFreshExchangeDeadline t link s
  | .lanePowerDown t link => Sys2Proof.Machine.execLanePowerDown t link s
  | .lanePowerRestore t link => Sys2Proof.Machine.execLanePowerRestore t link s
  | .packetForward t link p => Sys2Proof.Machine.execPacketForward t link p s
  | .read t p => Sys2Proof.Machine.execRead t p s
  | .write t p => Sys2Proof.Machine.execWrite t p s
  | .add t p => Sys2Proof.Machine.execAdd t p s
  | .cas t p => Sys2Proof.Machine.execCas t p s
  | .fencePacket t p => Sys2Proof.Machine.execFencePacket t p s
  | .readResp t p => Sys2Proof.Machine.execReadResp t p s
  | .atomResp t p => Sys2Proof.Machine.execAtomResp t p s
  | .fenceDone t p => Sys2Proof.Machine.execFenceDone t p s
  | .ack t p => Sys2Proof.Machine.execAck t p s
  | .transfer t p => Sys2Proof.Machine.execTransfer t p s
  | .packetReplay t dst seq => Sys2Proof.Machine.execPacketReplay t dst seq s
  | .epochStaleResponse t p => Sys2Proof.Machine.execEpochStaleResponse t p s
  | .wWrite t p => Sys2Proof.Machine.execWWrite t p s
  | .wRead t p => Sys2Proof.Machine.execWRead t p s
  | .wAdd t p => Sys2Proof.Machine.execWAdd t p s
  | .wCas t p => Sys2Proof.Machine.execWCas t p s
  | .wReadResp t p => Sys2Proof.Machine.execWReadResp t p s
  | .wAtomResp t p => Sys2Proof.Machine.execWAtomResp t p s
  | .wAck t p => Sys2Proof.Machine.execWAck t p s
  | .wNak t p => Sys2Proof.Machine.execWNak t p s
  | .wCredit t p => Sys2Proof.Machine.execWCredit t p s
  | .wCreditReq t p => Sys2Proof.Machine.execWCreditReq t p s
  | .wRetryTimeout t qpn => Sys2Proof.Machine.execWRetryTimeout t qpn s
  | .wAckDeferred t qpn => Sys2Proof.Machine.execWAckDeferred t qpn s
  | .contextFetchDone t qpn ctx => Sys2Proof.Machine.execContextFetchDone t qpn ctx s
  | .partialAsk t hdr es => Sys2Proof.Machine.execPartialAsk t hdr es s
  | .partialBackstopAsk t hdr es => Sys2Proof.Machine.execPartialBackstopAsk t hdr es s
  | .partialRunDone t peer req layer gFirst sampled => Sys2Proof.Machine.execPartialRunDone t peer req layer gFirst sampled s
  | .partialAnswer t src hdr es => Sys2Proof.Machine.execPartialAnswer t src hdr es s
  | .settle t src hdr es => Sys2Proof.Machine.execSettle t src hdr es s
  | .haulRequest t m => Sys2Proof.Machine.execHaulRequest t m s
  | .haulOffer t m => Sys2Proof.Machine.execHaulOffer t m s
  | .haulAccept t m => Sys2Proof.Machine.execHaulAccept t m s
  | .haulRefuse t m => Sys2Proof.Machine.execHaulRefuse t m s
  | .haulData t m => Sys2Proof.Machine.execHaulData t m s
  | .haulStateWritten t haul src => Sys2Proof.Machine.execHaulStateWritten t haul src s
  | .haulAck t m => Sys2Proof.Machine.execHaulAck t m s
  | .haulFreed t m => Sys2Proof.Machine.execHaulFreed t m s
  | .haulAbort t m => Sys2Proof.Machine.execHaulAbort t m s
  | .haulTimeout t haul => Sys2Proof.Machine.execHaulTimeout t haul s
  | .haulAckRepeat t haul src => Sys2Proof.Machine.execHaulAckRepeat t haul src s
  | .haulSourceUnreachable t haul src => Sys2Proof.Machine.execHaulSourceUnreachable t haul src s
  | .freedWaitExpiry t => Sys2Proof.Machine.execFreedWaitExpiry t s
  | .segmentReceive t src m => Sys2Proof.Machine.execSegmentReceive t src m s
  | .segmentAck t conv upto => Sys2Proof.Machine.execSegmentAck t conv upto s
  | .segmentResend t conv => Sys2Proof.Machine.execSegmentResend t conv s
  | .checkpointReceive t src req table tick => Sys2Proof.Machine.execCheckpointReceive t src req table tick s
  | .keeperRefuse t conv => Sys2Proof.Machine.execKeeperRefuse t conv s
  | .keeperUnreachable t keeper => Sys2Proof.Machine.execKeeperUnreachable t keeper s
  | .keeperFreeNotice t conv => Sys2Proof.Machine.execKeeperFreeNotice t conv s
  | .releaseNotice t conv fromGroup => Sys2Proof.Machine.execReleaseNotice t conv fromGroup s
  | .stateNotice t conv st => Sys2Proof.Machine.execStateNotice t conv st s
  | .refcountMessage t p seq up => Sys2Proof.Machine.execRefcountMessage t p seq up s
  | .replicaCopyAck t p holder pageId => Sys2Proof.Machine.execReplicaCopyAck t p holder pageId s
  | .primaryFreeNotice t p => Sys2Proof.Machine.execPrimaryFreeNotice t p s
  | .vecAsk t hdr es => Sys2Proof.Machine.execVecAsk t hdr es s
  | .vecBackstopAsk t hdr es => Sys2Proof.Machine.execVecBackstopAsk t hdr es s
  | .vecAnswer t src hdr es => Sys2Proof.Machine.execVecAnswer t src hdr es s
  | .vecSegmentReceive t seg => Sys2Proof.Machine.execVecSegmentReceive t seg s
  | .moveCopyDone t move sound => Sys2Proof.Machine.execMoveCopyDone t move sound s
  | .demotionIdle t p => Sys2Proof.Machine.execDemotionIdle t p s
  | .pressureDemotion t bench tier freePm => Sys2Proof.Machine.execPressureDemotion t bench tier freePm s
  | .repairMoveDone t p key value => Sys2Proof.Machine.execRepairMoveDone t p key value s
  | .flashReadDone t readId cls sound => Sys2Proof.Machine.execFlashReadDone t readId cls sound s
  | .flashReadDeadline t readId => Sys2Proof.Machine.execFlashReadDeadline t readId s
  | .flashProgramDone t writeId => Sys2Proof.Machine.execFlashProgramDone t writeId s
  | .flashProgramFail t block => Sys2Proof.Machine.execFlashProgramFail t block s
  | .flashEraseFail t block => Sys2Proof.Machine.execFlashEraseFail t block s
  | .readDisturbRelocate t block => Sys2Proof.Machine.execReadDisturbRelocate t block s
  | .retentionRewrite t block => Sys2Proof.Machine.execRetentionRewrite t block s
  | .wearLevel t block => Sys2Proof.Machine.execWearLevel t block s
  | .garbageCollect t block => Sys2Proof.Machine.execGarbageCollect t block s
  | .flashWriteHold t => Sys2Proof.Machine.execFlashWriteHold t s
  | .relistDone t => Sys2Proof.Machine.execRelistDone t s
  | .patrolScrub t tier => Sys2Proof.Machine.execPatrolScrub t tier s
  | .correctedError t tier u frame => Sys2Proof.Machine.execCorrectedError t tier u frame s
  | .uncorrectableError t tier u frame use => Sys2Proof.Machine.execUncorrectableError t tier u frame use s
  | .zqCalibration t => Sys2Proof.Machine.execZqCalibration t s
  | .fitDone t p isValue fit => Sys2Proof.Machine.execFitDone t p isValue fit s
  | .blockReject t p isValue cause => Sys2Proof.Machine.execBlockReject t p isValue cause s
  | .weightBlockReject t bench tile cause => Sys2Proof.Machine.execWeightBlockReject t bench tile cause s
  | .weightReloadDone t bench tile copy => Sys2Proof.Machine.execWeightReloadDone t bench tile copy s
  | .shadowRecheckDone t item original found => Sys2Proof.Machine.execShadowRecheckDone t item original found s
  | .arbitrationDone t item found => Sys2Proof.Machine.execArbitrationDone t item found s
  | .coreWatchdog t core => Sys2Proof.Machine.execCoreWatchdog t core s
  | .planWatchdog t => Sys2Proof.Machine.execPlanWatchdog t s
  | .restartWatchdog t otherSlotOk => Sys2Proof.Machine.execRestartWatchdog t otherSlotOk s
  | .bootWatchdog t => Sys2Proof.Machine.execBootWatchdog t s
  | .coreException t core => Sys2Proof.Machine.execCoreException t core s
  | .firmwareReady t => Sys2Proof.Machine.execFirmwareReady t s
  | .trialCommit t => Sys2Proof.Machine.execTrialCommit t s
  | .hitlessActivation t => Sys2Proof.Machine.execHitlessActivation t s
  | .inputRise t mv => Sys2Proof.Machine.execInputRise t mv s
  | .planStable t => Sys2Proof.Machine.execPlanStable t s
  | .inputUndervoltage t mv => Sys2Proof.Machine.execInputUndervoltage t mv s
  | .inputOutOfRange t mv => Sys2Proof.Machine.execInputOutOfRange t mv s
  | .resetN t lowNs => Sys2Proof.Machine.execResetN t lowNs s
  | .perst t => Sys2Proof.Machine.execPerst t s
  | .perstRelease t => Sys2Proof.Machine.execPerstRelease t s
  | .flowLoss t => Sys2Proof.Machine.execFlowLoss t s
  | .flowRestore t => Sys2Proof.Machine.execFlowRestore t s
  | .tjThrottle t tile deciC => Sys2Proof.Machine.execTjThrottle t tile deciC s
  | .currentLimit t tile => Sys2Proof.Machine.execCurrentLimit t tile s
  | .droop t tile => Sys2Proof.Machine.execDroop t tile s
  | .overrideEnd t tile cause => Sys2Proof.Machine.execOverrideEnd t tile cause s
  | .thermalShutdown t tile => Sys2Proof.Machine.execThermalShutdown t tile s
  | .restRequest t fn => Sys2Proof.Machine.execRestRequest t fn s
  | .restEntry t => Sys2Proof.Machine.execRestEntry t s
  | .restEntryComplete t => Sys2Proof.Machine.execRestEntryComplete t s
  | .watchSample t inletDeciC tjDeciC mv => Sys2Proof.Machine.execWatchSample t inletDeciC tjDeciC mv s
  | .wakeComplete t => Sys2Proof.Machine.execWakeComplete t s
  | .keepEnter c => Sys2Proof.Machine.execKeepEnter c s
  | .rlKeepCtrlEnter t fn => Sys2Proof.Machine.execRlKeepCtrlEnter t fn s
  | .readoutList t fn => Sys2Proof.Machine.execReadoutList t fn s
  | .readoutConv t fn => Sys2Proof.Machine.execReadoutConv t fn s
  | .readoutDone t => Sys2Proof.Machine.execReadoutDone t s
  | .pwResetCtrlWarm t fn => Sys2Proof.Machine.execPwResetCtrlWarm t fn s
  | .setupLockWrite t fn value => Sys2Proof.Machine.execSetupLockWrite t fn value s
  | .bnSetupLockWrite t fn bench value => Sys2Proof.Machine.execBnSetupLockWrite t fn bench value s
  | .tkNowOffsetRead t => Sys2Proof.Machine.execTkNowOffsetRead t s
  | .cqDisable t fn bench => Sys2Proof.Machine.execCqDisable t fn bench s
  | .ringErrOverrunClear t fn bench value => Sys2Proof.Machine.execRingErrOverrunClear t fn bench value s
  | .pwOverrideClear t fn value => Sys2Proof.Machine.execPwOverrideClear t fn value s
  | .scKeyCtrlErase t fn value => Sys2Proof.Machine.execScKeyCtrlErase t fn value s
  | .registerWrite t fn off value => Sys2Proof.Machine.execRegisterWrite t fn off value s
  | .flr t fn => Sys2Proof.Machine.execFlr t fn s
  | .vfEnableChange t enable numVfs => Sys2Proof.Machine.execVfEnableChange t enable numVfs s
  | .ptmDialogue t h => Sys2Proof.Machine.execPtmDialogue t h s
  | .ideFailure t stream tlpOnly => Sys2Proof.Machine.execIdeFailure t stream tlpOnly s
  | .completionInterrupt t bench => Sys2Proof.Machine.execCompletionInterrupt t bench s
  | .completionRecordDrain t bench consumer => Sys2Proof.Machine.execCompletionRecordDrain t bench consumer s
  | .mctpControl t transport code eid => Sys2Proof.Machine.execMctpControl t transport code eid s
  | .readRegs c off bytes => Sys2Proof.Machine.execReadRegs c off bytes s
  | .readLog c seq => Sys2Proof.Machine.execReadLog c seq s
  | .readMeter c seq => Sys2Proof.Machine.execReadMeter c seq s
  | .stageBench c epoch record => Sys2Proof.Machine.execStageBench c epoch record s
  | .stageRoute c epoch first es => Sys2Proof.Machine.execStageRoute c epoch first es s
  | .stageExport c epoch region => Sys2Proof.Machine.execStageExport c epoch region s
  | .stageRackmap c epoch slots => Sys2Proof.Machine.execStageRackmap c epoch slots s
  | .stageEvac c epoch bench target targetBench => Sys2Proof.Machine.execStageEvac c epoch bench target targetBench s
  | .sealEpoch c epoch q => Sys2Proof.Machine.execSealEpoch c epoch q s
  | .discardStage c epoch => Sys2Proof.Machine.execDiscardStage c epoch s
  | .setSigPolicy c bench require keyHash => Sys2Proof.Machine.execSetSigPolicy c bench require keyHash s
  | .clearQuarantine c u => Sys2Proof.Machine.execClearQuarantine c u s
  | .keyErase c bench => Sys2Proof.Machine.execKeyErase c bench s
  | .mgResetWarm c => Sys2Proof.Machine.execMgResetWarm c s
  | .mgResetCold c => Sys2Proof.Machine.execMgResetCold c s
  | .restEnter c => Sys2Proof.Machine.execRestEnter c s
  | .sensorUpdate t readings => Sys2Proof.Machine.execSensorUpdate t readings s
  | .getPdr t transport record => Sys2Proof.Machine.execGetPdr t transport record s
  | .getPdrRepositoryInfo t transport => Sys2Proof.Machine.execGetPdrRepositoryInfo t transport s
  | .getSensorReading t transport sensor => Sys2Proof.Machine.execGetSensorReading t transport sensor s
  | .getStateSensorReadings t transport sensor => Sys2Proof.Machine.execGetStateSensorReadings t transport sensor s
  | .setNumericSensorEnable t transport sensor enable => Sys2Proof.Machine.execSetNumericSensorEnable t transport sensor enable s
  | .setEventReceiver t transport eid => Sys2Proof.Machine.execSetEventReceiver t transport eid s
  | .queryDeviceIdentifiers t transport => Sys2Proof.Machine.execQueryDeviceIdentifiers t transport s
  | .getFirmwareParameters t transport => Sys2Proof.Machine.execGetFirmwareParameters t transport s
  | .requestUpdate t transport => Sys2Proof.Machine.execRequestUpdate t transport s
  | .passComponentTable t transport components => Sys2Proof.Machine.execPassComponentTable t transport components s
  | .updateComponent t transport component size => Sys2Proof.Machine.execUpdateComponent t transport component size s
  | .firmwareData t transport off len image => Sys2Proof.Machine.execFirmwareData t transport off len image s
  | .activateFirmware t transport => Sys2Proof.Machine.execActivateFirmware t transport s
  | .getStatus t transport => Sys2Proof.Machine.execGetStatus t transport s
  | .cancelUpdateComponent t transport => Sys2Proof.Machine.execCancelUpdateComponent t transport s
  | .cancelUpdate t transport => Sys2Proof.Machine.execCancelUpdate t transport s
  | .getVersion t transport => Sys2Proof.Machine.execGetVersion t transport s
  | .getCapabilities t transport => Sys2Proof.Machine.execGetCapabilities t transport s
  | .negotiateAlgorithms t transport offers => Sys2Proof.Machine.execNegotiateAlgorithms t transport offers s
  | .getDigests t transport => Sys2Proof.Machine.execGetDigests t transport s
  | .getCertificate t transport slot off len => Sys2Proof.Machine.execGetCertificate t transport slot off len s
  | .challenge t transport slot nonce => Sys2Proof.Machine.execChallenge t transport slot nonce s
  | .getMeasurements t transport index => Sys2Proof.Machine.execGetMeasurements t transport index s
  | .keyExchange t transport => Sys2Proof.Machine.execKeyExchange t transport s
  | .finish t transport session macOk => Sys2Proof.Machine.execFinish t transport session macOk s
  | .heartbeat t transport session => Sys2Proof.Machine.execHeartbeat t transport session s
  | .keyUpdate t transport session => Sys2Proof.Machine.execKeyUpdate t transport session s
  | .endSession t transport session => Sys2Proof.Machine.execEndSession t transport session s
  | .ideKm t session stream rids key => Sys2Proof.Machine.execIdeKm t session stream rids key s
  | .holdoverEntry t => Sys2Proof.Machine.execHoldoverEntry t s
  | .inputInRange t mv => Sys2Proof.Machine.execInputInRange t mv s
  | .resetNRelease t => Sys2Proof.Machine.execResetNRelease t s
  | .startUpRowDone t row imageOk otherOk => Sys2Proof.Machine.execStartUpRowDone t row imageOk otherOk s
  | .checkpointAck t req tick => Sys2Proof.Machine.execCheckpointAck t req tick s
  | .replicaCopyReceive t src p e sound => Sys2Proof.Machine.execReplicaCopyReceive t src p e sound s
  | .replicaDropNotice t p holder => Sys2Proof.Machine.execReplicaDropNotice t p holder s
  | .newHomeNotice t conv home => Sys2Proof.Machine.execNewHomeNotice t conv home s
  | .keeperLogRead t conv home homeBench restore => Sys2Proof.Machine.execKeeperLogRead t conv home homeBench restore s

end Sys2Proof.Machine
end

