-- ==== Sys2Proof/Safety.lean ====
section
/-! DEFINITION. What a safe state and a safe run are, in the terms the statements use, and the table of the parts of the
state each command may touch. -/

namespace Sys2Proof.Machine

/-- The export memory is in its canonical form (R323): offsets strictly rising, no entry equal to the zero an unlisted
byte reads as. -/
def memOk (s : State) : Bool := memWf s.fab.mem

/-- No stream record, park or completion record waits: what follows a descriptor's own effect at its commit (R37 step 3)
then writes its own record alone. -/
def quiet (s : State) : Prop :=
  s.work.finals = [] ∧ s.work.finalDue = [] ∧ s.work.holds = [] ∧ s.work.parks = [] ∧ s.host.due = [] ∧
    ∀ x ∈ s.work.reqs, x.2.waitTok = []

/-- A descriptor as it meets its commit: the state at its stamp, with its landed entry taken. -/
def atLanding (s : State) (d : HostDesc) : State := takeLanded d (s.at d.stamp)

/-- A descriptor's own row is its commit: its benches are halted (R54, R426), or its commit comes next and nothing R33
places before it waits (log entry 131). -/
def meetsCommit (s : State) (d : HostDesc) : Bool :=
  inKeep s || s.time.halted || actsAlone (atLanding s d) d.stamp d.ring

/-- A window packet of a type for this module, sound and not stale, from the peer of the queue pair it names, whose context
is in its cache and whose tile does not stall (R352 to R354, R359). -/
def fromPeer (s : State) (p : WPacket) (typ : Nat) : Bool :=
  let x := qpOf s (wDst p)
  wpacketOk p typ && wTo p == s.fab.self && (tableFor s (wEpoch p)).isSome && (cacheOf s (wDst p)).contains (wDst p) &&
    !winStalled s (wDst p % 2) &&
    (x.state == .ready || x.state == .draining) && x.localInc == wInc p && x.peer == wFrom p && x.peerQpn == wSrc p

/-- The next window request of its series, with room to log it and a window it may touch (R353). -/
def inOrder (s : State) (p : WPacket) (typ : Nat) : Bool :=
  let x := qpOf s (wDst p)
  fromPeer s p typ && x.rxExpected == wPsn p && decide (x.log.length < 8) && (windowRefusal s (wDst p) s.time.now p).isNone

/-- A window answer of a type to this module for a queue pair in use (R349, R352). -/
def toSender (s : State) (p : WPacket) (typ : Nat) : Bool :=
  wpacketOk p typ && wTo p == s.fab.self && answerFor s p && (qpOf s (wDst p)).state == .ready

/-- A pair-series request of a type for this module, sound, not stale and not seen before, that stands for itself alone
(R316, R319, R330). -/
def freshRequest (s : State) (p : Packet) (typ : Nat) : Bool :=
  packetOk p && pType p == typ && pDst p == s.fab.self && (tableFor s (pEpoch p)).isSome &&
    !isDup (tgtCtx s (pSrc p)) (pSeq p) && !tooFar (tgtCtx s (pSrc p)) (pSeq p) && !pCombined p

/-- The seq of the boot directory has room for what a step writes: 2⁶⁴ changes are beyond any run (R393). -/
def dirRoom (s : State) : Bool := decide ((bootDir s).seq + 3 < 2 ^ 64)

/-- What a cold reset leaves (R385, R386): start-up from its first row with the tick counter at zero, nothing of the
volatile state, and the flash, boot NOR and secure element as they were. -/
def coldLeft (r s : State) : Prop :=
  s.fw.row = 0 ∧ s.fw.cold = true ∧ s.pwr.pwrGood = false ∧ s.time.now = ⟨0, 0⟩ ∧ s.time.sync = .unsync ∧
    s.work = State.reset.work ∧ s.benches = [] ∧ s.win.gens = [] ∧ s.bar.live = [] ∧ s.fw.restartLog = [] ∧
    s.fw.slots = r.fw.slots ∧ s.fw.dir0 = r.fw.dir0 ∧ s.fw.dir1 = r.fw.dir1 ∧ s.tier.blocks = r.tier.blocks ∧
    s.tier.frames = r.tier.frames ∧ s.fault.pers = r.fault.pers ∧ s.sec.rollback = r.sec.rollback

/-- What a warm reset leaves (R386): start-up from its 3 ms row, the tick counter, counters, window generations and
restart log kept, and the volatile state gone. -/
def warmLeft (r s : State) : Prop :=
  s.fw.row = 1 ∧ s.fw.cold = false ∧ s.time.now = r.time.now ∧ s.time.sync = .unsync ∧
    s.work = State.reset.work ∧ s.benches = [] ∧ s.win.gens = r.win.gens ∧ s.bar.live = r.bar.live ∧
    s.fw.restartLog = r.fw.restartLog ∧ s.bar.lock = false ∧
    s.fw.slots = r.fw.slots ∧ s.fw.dir0 = r.fw.dir0 ∧ s.fw.dir1 = r.fw.dir1 ∧ s.tier.blocks = r.tier.blocks ∧
    s.tier.frames = r.tier.frames ∧ s.fault.pers = r.fault.pers ∧ s.sec.rollback = r.sec.rollback

/-- A management command is taken where it lands (R471, R472, R475): its path is up, its header keeps R471, its session is
there where one is required, and neither Rest nor Keep mode holds it back. -/
def takes (s : State) (c : MgmtCmd) (o : MgmtOp) : Bool :=
  c.transport != .doe && sideUp s c.transport && decide (5 ≤ s.fw.row) && s.fw.stage != .recovery &&
    !(c.transport == .mirror && s.mgmt.busy) && !resting s && mgmtHdrOk c.hdr (opCode o) && sessionOk s c (opCode o) &&
    (!inKeep s || keepAnswers o)

/-- A management command has been answered with a status and a body (R471). -/
def responded (c : MgmtCmd) (st : Status) (body : List Nat) (s : State) : Prop :=
  .mgmt c.transport (fieldOf c.hdr 31 16) (fieldOf c.hdr 95 64) st body ∈ s.out

/-- A request of another protocol is taken where it lands (R396, R464, R470, R475). -/
def sideTakes (s : State) (t : Transport) (r : SideReq) : Bool :=
  sideUp s t && !(t == .doe && (isMctp r || isSensor r || isUpdate r)) && decide (5 ≤ s.fw.row) &&
    s.fw.stage != .recovery && !resting s

/-- The parts of the state a command may touch: each top-level field but the stock code and the queue. -/
inductive Part where
  | time | bar | host | benches | work | plan | haul | tier | shards | fab | win | fw | fault | sec | pwr | mgmt | out | spent | fresh
  deriving DecidableEq, Repr

/-- A part is the same in two states. -/
def samePart (p : Part) (r s : State) : Prop :=
  match p with
  | .time => s.time = r.time
  | .bar => s.bar = r.bar
  | .host => s.host = r.host
  | .benches => s.benches = r.benches
  | .work => s.work = r.work
  | .plan => s.plan = r.plan
  | .haul => s.haul = r.haul
  | .tier => s.tier = r.tier
  | .shards => s.shards = r.shards
  | .fab => s.fab = r.fab
  | .win => s.win = r.win
  | .fw => s.fw = r.fw
  | .fault => s.fault = r.fault
  | .sec => s.sec = r.sec
  | .pwr => s.pwr = r.pwr
  | .mgmt => s.mgmt = r.mgmt
  | .out => s.out = r.out
  | .spent => s.spent = r.spent
  | .fresh => s.fresh = r.fresh

/-- The parts each command may touch: its frame. A part not listed is the same after it. -/
def touched : Instr → List Part
  | .doorbell .. => [.time, .bar, .host, .fault, .pwr, .out]
  | .descriptorFetchDone .. => [.time, .bar, .host, .haul, .fab, .win, .fault, .out, .spent]
  | .badAccess .. | .readoutList .. | .readoutConv .. | .bnSetupLockWrite .. => [.time, .bar, .fault, .out]
  | .modelLoad .. | .modelLoadReplace .. =>
    [.time, .host, .benches, .work, .haul, .tier, .fault, .out, .spent, .fresh]
  | .modelLoadComplete .. | .unloadReleaseDone .. | .shardCreateDone .. | .shardRestoreDone ..
  | .shardReplicateDone .. | .repairMoveDone .. => [.time, .haul]
  | .modelUnload .. => [.time, .host, .benches, .work, .haul, .tier, .fault, .mgmt, .out, .spent, .fresh]
  | .drainLimitExpiry .. | .reqAdmit .. | .reqAppend .. | .reqCancel .. | .reqRelease .. | .deadlineExpiry .. =>
    [.time, .bar, .host, .benches, .work, .plan, .haul, .tier, .fault, .out, .spent, .fresh]
  | .reqPark .. | .reqParkHaul .. | .reqHandoff .. | .streamBind .. | .streamUnbind .. | .nop .. =>
    [.time, .host, .work, .haul, .tier, .fault, .out, .spent, .fresh]
  | .reqResume .. | .reqResumeRebuild .. =>
    [.time, .bar, .host, .benches, .work, .haul, .tier, .fault, .out, .spent, .fresh]
  | .vecSearch .. => [.time, .host, .work, .plan, .haul, .tier, .fault, .out, .spent, .fresh]
  | .vecInsert .. | .vecDelete .. => [.time, .host, .work, .haul, .tier, .shards, .fault, .out, .spent, .fresh]
  | .vecMergeMerge .. | .vecMergeCreate .. | .vecMergeDrop .. | .vecMergeArchive .. | .vecMergeRestore ..
  | .vecMergeReplicate .. | .vecMergeUnreplicate .. =>
    [.time, .bar, .host, .work, .haul, .tier, .shards, .fault, .sec, .out, .spent, .fresh]
  | .winOpen .. | .winRevoke .. | .qpCreate .. => [.time, .host, .win, .fault, .out, .spent]
  | .qpDestroy .. | .qpDestroyAbort .. => [.time, .host, .fab, .win, .fault, .out, .spent]
  | .rmaWrite .. | .rmaRead .. | .rmaAdd .. | .rmaCas .. | .rmaWriteRack .. | .rmaReadRack .. | .rmaAddRack ..
  | .rmaCasRack .. | .fence .. | .fenceRack .. | .wRetryTimeout .. =>
    [.time, .bar, .host, .fab, .win, .fault, .out, .spent]
  | .tallySet .. | .tallyDelete .. => [.time, .host, .work, .haul, .tier, .fault, .mgmt, .out, .spent, .fresh]
  | .tickStart .. => [.time, .bar, .work, .plan, .tier, .fab, .win, .fw, .fault, .pwr, .mgmt, .out, .spent, .fresh]
  | .timeMessageSend .. | .sourceTakeover .. => [.time, .out]
  | .remoteWaitExpiry .. | .backstop .. => [.time, .bar, .plan, .out, .spent]
  | .shortSightGiveUp .. => [.time, .plan, .out, .spent]
  | .cutOff .. | .shadowRecheckDone .. | .arbitrationDone .. => [.time, .bar, .plan, .fault, .out, .spent]
  | .commit .. | .flowLoss .. | .restEntryComplete .. | .wakeComplete .. =>
    [.time, .bar, .host, .benches, .work, .plan, .haul, .tier, .shards, .fab, .win, .fw, .fault, .sec, .pwr, .mgmt, .out, .spent, .fresh]
  | .tallyRefill .. | .bindingExpiry .. => [.time, .work]
  | .checkpointSend .. | .segmentResend .. => [.time, .work, .out, .spent]
  | .checkpointLate .. => [.time, .bar]
  | .doneListExpiry .. => [.time, .bar, .work]
  | .goodputWindowClose .. => [.time, .benches, .fault, .out]
  | .meterWindowClose .. => [.time, .work, .mgmt]
  | .epochSwitch .. => [.time, .bar, .benches, .work, .haul, .tier, .fab, .win, .mgmt, .out, .spent]
  | .drainWindowEnd .. | .delayMeasure .. | .cableInsert .. | .trainingRetry .. | .refusedRetry ..
  | .rekeyRecord .. | .lanePowerDown .. => [.time, .fab]
  | .timeRecordReceive .. | .beaconReceive .. | .syncLostTimeout .. | .holdoverEntry .. => [.time, .fault, .out]
  | .syncHaltTimeout .. => [.time, .benches, .plan, .fault, .out]
  | .trainingStepDone .. | .trainingStepTimeout .. | .keyKem .. | .keyAbort .. | .flitReceive .. | .nakRecord ..
  | .laneRecord .. | .laneDrop .. | .freshExchangeDeadline .. => [.time, .bar, .fab, .fault, .out, .spent]
  | .identReceive .. | .keyHello .. => [.time, .bar, .fab, .fault, .out, .spent, .fresh]
  | .creditRecord .. | .laneRetry .. | .keyRollover .. | .lanePowerRestore .. => [.time, .fab, .out]
  | .freshExchange .. | .freshExchangeRetry .. => [.time, .fab, .out, .fresh]
  | .packetForward .. => [.time, .bar, .fab, .out, .spent]
  | .read .. | .write .. | .add .. | .cas .. | .fencePacket .. | .transfer .. =>
    [.time, .bar, .fab, .fault, .pwr, .out, .spent]
  | .readResp .. | .atomResp .. | .fenceDone .. | .ack .. => [.time, .bar, .host, .fab, .fault, .pwr, .out, .spent]
  | .packetReplay .. | .cqDisable .. => [.time, .bar, .host, .fab, .fault, .out, .spent]
  | .epochStaleResponse .. | .wReadResp .. | .wAtomResp .. | .wAck .. | .wNak .. =>
    [.time, .bar, .host, .fab, .win, .fault, .pwr, .out, .spent]
  | .wWrite .. | .wRead .. | .wAdd .. | .wCas .. | .wCreditReq .. =>
    [.time, .bar, .host, .fab, .win, .fault, .pwr, .out, .spent, .fresh]
  | .wCredit .. => [.time, .bar, .fab, .win, .pwr, .out, .spent]
  | .wAckDeferred .. => [.time, .bar, .fab, .win, .out, .spent]
  | .contextFetchDone .. => [.time, .bar, .host, .fab, .win, .fault, .out, .spent, .fresh]
  | .partialAsk .. | .partialBackstopAsk .. => [.time, .bar, .plan, .tier, .fault, .out, .spent, .fresh]
  | .partialRunDone .. => [.time, .bar, .work, .plan, .out, .spent]
  | .partialAnswer .. => [.time, .bar, .plan, .fault, .pwr, .out, .spent]
  | .settle .. => [.time, .plan, .fault, .pwr, .out]
  | .haulRequest .. => [.time, .work, .haul, .tier, .fault, .pwr, .out, .spent]
  | .haulOffer .. | .segmentReceive .. => [.time, .haul, .fault, .pwr, .out, .spent]
  | .haulAccept .. => [.time, .fault, .pwr, .out, .spent]
  | .haulRefuse .. => [.time, .bar, .work, .haul, .tier, .fault, .pwr, .out, .spent]
  | .haulData .. => [.time, .bar, .haul, .fault, .pwr, .out, .spent]
  | .haulStateWritten .. | .haulAckRepeat .. => [.time, .haul, .out, .spent]
  | .haulAck .. => [.time, .bar, .benches, .work, .haul, .tier, .fault, .pwr, .out, .spent]
  | .haulFreed .. | .haulAbort .. => [.time, .haul, .fault, .pwr, .out]
  | .haulTimeout .. => [.time, .work, .haul, .fault, .out, .spent]
  | .haulSourceUnreachable .. => [.time, .haul, .fault, .out]
  | .freedWaitExpiry .. | .tkNowOffsetRead .. | .ptmDialogue .. => [.time]
  | .segmentAck .. | .checkpointAck .. => [.time, .work, .pwr]
  | .checkpointReceive .. => [.time, .haul, .pwr, .out, .spent]
  | .keeperRefuse .. => [.time, .work, .fault, .pwr, .out]
  | .keeperUnreachable .. => [.time, .work, .fault, .out]
  | .keeperFreeNotice .. | .releaseNotice .. | .stateNotice .. | .refcountMessage .. | .replicaCopyAck ..
  | .primaryFreeNotice .. | .replicaDropNotice .. | .newHomeNotice .. => [.time, .haul, .pwr]
  | .vecAsk .. | .vecBackstopAsk .. => [.time, .bar, .fault, .out, .spent]
  | .vecAnswer .. => [.time, .bar, .plan, .fault, .pwr, .out]
  | .vecSegmentReceive .. => [.time, .bar, .shards, .fault, .pwr, .out]
  | .moveCopyDone .. => [.time, .bar, .tier, .fault, .sec, .out, .fresh]
  | .demotionIdle .. | .flashProgramDone .. | .patrolScrub .. | .zqCalibration .. => [.time, .tier]
  | .pressureDemotion .. => [.time, .haul, .tier]
  | .flashReadDone .. | .blockReject .. => [.time, .bar, .tier, .fault, .out]
  | .flashReadDeadline .. => [.time, .bar, .tier]
  | .flashProgramFail .. | .flashEraseFail .. | .readDisturbRelocate .. | .retentionRewrite .. | .wearLevel .. =>
    [.time, .tier, .fault, .out]
  | .garbageCollect .. | .flashWriteHold .. => [.time, .tier, .fault, .out, .fresh]
  | .relistDone .. => [.time, .work, .tier]
  | .correctedError .. => [.time, .bar, .tier, .fault, .out, .fresh]
  | .uncorrectableError .. => [.time, .bar, .benches, .plan, .haul, .tier, .fault, .out, .fresh]
  | .fitDone .. => [.time, .benches, .spent]
  | .weightBlockReject .. => [.time, .bar, .benches, .plan, .tier, .fault, .out, .fresh]
  | .weightReloadDone .. => [.time, .bar, .benches, .plan, .fault, .out]
  | .coreWatchdog .. | .restartWatchdog .. | .coreException .. | .hitlessActivation .. =>
    [.time, .host, .work, .plan, .haul, .fw, .fault, .sec, .pwr, .mgmt, .out, .spent]
  | .planWatchdog .. | .rlKeepCtrlEnter .. =>
    [.time, .bar, .host, .work, .plan, .haul, .fw, .fault, .sec, .pwr, .mgmt, .out, .spent]
  | .bootWatchdog .. | .inputRise .. | .inputUndervoltage .. | .resetN .. | .perst .. =>
    [.time, .bar, .host, .benches, .work, .plan, .haul, .tier, .shards, .fab, .win, .fw, .fault, .sec, .pwr, .mgmt, .spent]
  | .firmwareReady .. | .perstRelease .. => [.time, .fw, .out]
  | .trialCommit .. => [.time, .fw, .sec]
  | .planStable .. => [.time, .fw, .pwr]
  | .inputOutOfRange .. | .thermalShutdown .. => [.time, .fault, .pwr, .out]
  | .flowRestore .. | .overrideEnd .. | .restEntry .. | .watchSample .. | .inputInRange .. => [.time, .pwr]
  | .tjThrottle .. | .currentLimit .. | .droop .. | .restRequest .. | .pwOverrideClear .. =>
    [.time, .bar, .fault, .pwr, .out]
  | .keepEnter .. | .pwResetCtrlWarm .. | .registerWrite .. | .readRegs .. | .readLog .. | .readMeter ..
  | .stageBench .. | .stageRoute .. | .stageExport .. | .stageRackmap .. | .stageEvac .. | .sealEpoch ..
  | .discardStage .. | .setSigPolicy .. | .clearQuarantine .. | .keyErase .. | .mgResetWarm .. | .mgResetCold ..
  | .restEnter .. | .startUpRowDone .. =>
    [.time, .bar, .host, .benches, .work, .plan, .haul, .tier, .shards, .fab, .win, .fw, .fault, .sec, .pwr, .mgmt, .out, .spent]
  | .readoutDone .. => [.time, .fault]
  | .setupLockWrite .. => [.time, .bar, .fault, .sec, .out]
  | .ringErrOverrunClear .. => [.time, .bar, .host, .fault, .out]
  | .scKeyCtrlErase .. => [.time, .bar, .work, .tier, .shards, .fault, .sec, .out]
  | .flr .. | .vfEnableChange .. => [.time, .bar, .host, .work, .win]
  | .ideFailure .. => [.time, .host, .fault, .out]
  | .completionInterrupt .. | .completionRecordDrain .. => [.time, .host, .out]
  | .mctpControl .. | .getPdr .. | .getPdrRepositoryInfo .. | .getSensorReading .. | .getStateSensorReadings ..
  | .setNumericSensorEnable .. | .setEventReceiver .. | .queryDeviceIdentifiers .. | .getFirmwareParameters ..
  | .requestUpdate .. | .passComponentTable .. | .updateComponent .. | .firmwareData .. | .activateFirmware ..
  | .getStatus .. | .cancelUpdateComponent .. | .cancelUpdate .. | .getVersion .. | .getCapabilities ..
  | .negotiateAlgorithms .. | .getDigests .. | .getCertificate .. | .challenge .. | .getMeasurements ..
  | .keyExchange .. | .finish .. | .heartbeat .. | .keyUpdate .. | .endSession .. | .ideKm .. =>
    [.time, .host, .fw, .fault, .sec, .pwr, .mgmt, .out, .fresh]
  | .sensorUpdate .. => [.time, .mgmt, .out]
  | .resetNRelease .. => [.time, .fw]
  | .replicaCopyReceive .. => [.time, .bar, .work, .haul, .fault, .pwr, .out, .spent, .fresh]
  | .keeperLogRead .. => [.time, .work, .haul, .tier, .pwr, .out, .spent, .fresh]

end Sys2Proof.Machine
end

