-- ==== Sys2Proof/Certificates/Slice0/Obligations.lean ====
section
/-! DEFINITION. The statements for the provers. Where a statement covers several rows, each clause names the row it is
about; `exec c s = .next u` says that the command completes, and what u holds is the row's own effect. -/

open Sys2Proof Sys2Proof.Machine

/-! ## The machine as a whole -/

/-- A step takes the command at the front of the queue and runs it with the queue's rest (log entry 5). -/
def Obligations.StepRunsFrontCommand : Prop :=
  ∀ (c : Instr) (rest : List Instr) (s : State),
    step { s with pending := c :: rest } = exec c { s with pending := rest }

/-- On an empty queue the block idles (log entry 5). -/
def Obligations.EmptyQueueIdles : Prop :=
  ∀ s : State, s.pending = [] → step s = .next s

/-- The state after a cold reset has its export memory in canonical form. -/
def Obligations.ResetMemoryIsCanonical : Prop :=
  memOk State.reset = true

/-- Every step from any state with canonical export memory leaves it canonical: offsets strictly rise and no listed
byte is zero, so equal memories are equal data. -/
def Obligations.EveryStepKeepsMemoryCanonical : Prop :=
  ∀ s t : State, memOk s = true → step s = .next t → memOk t = true

/-- R516: every command goes on, but for a RESET_N pulse of 1 µs to 10 µs, which stops with its own fault. -/
def Obligations.OnlyForbiddenPulseStops : Prop :=
  (∀ (c : Instr) (s : State), (∀ t n, c = .resetN t n → n < 1000 ∨ 10000 ≤ n) → ∃ u, exec c s = .next u) ∧
  (∀ (t : Stamp) (n : Nat) (s : State), 1000 ≤ n → n < 10000 → exec (.resetN t n) s = .fault .forbiddenInput)

/-- No command touches the queue or the stock code: the row's effect is on everything else. The frame of every
command: a part of the state that the table of parts does not list for it is as it was. -/
def Obligations.CommandsKeepTheirFrame : Prop :=
  (∀ (c : Instr) (s u : State), exec c s = .next u → u.pending = s.pending ∧ u.stock = s.stock) ∧
  (∀ (c : Instr) (s u : State) (p : Part), exec c s = .next u → p ∉ touched c → samePart p s u)

/-- A run of bytes written reads back byte by byte, and every byte outside it is as it was (R323). R313: a masked
write changes exactly the bytes whose mask bit is 1. -/
def Obligations.MemoryWritesReadBack : Prop :=
  (∀ (m : List Host.Cell) (a c : Nat) (bs : List Byte),
    memRead (memWriteBytes m a bs) c =
      (if h : a ≤ c ∧ c < a + bs.length then bs[c - a]'(by omega) else memRead m c)) ∧
  (∀ (m : List Host.Cell) (a mask c : Nat) (bs : List Byte),
    memRead (memWriteMask m a mask 0 bs) c =
      (if h : a ≤ c ∧ c < a + bs.length then (if mask.testBit (c - a) then bs[c - a]'(by omega) else memRead m c)
       else memRead m c))

/-! ## The host interface -/

/-- R371: a valid doorbell of an enabled ring moves its tail and lands one descriptor per new slot, stamped now; a
ring that is not enabled enters ERROR with cause 2, and a tail beyond the ring's room puts it into ERROR with
cause 1, and neither lands anything. R372: the read of a landed descriptor that acts at a commit keeps its bits
and data with it and moves the head past it, unless the function's stream has failed; it acts at no other time. -/
def Obligations.DescriptorsLandAndWait : Prop :=
  (∀ (s : State) (t : Stamp) (ring size : Nat) (v : Word), s.pwr.off = false → barReady s = true → ring < 256 →
    (size = 4 ∨ size = 8 ∧ zeroAt v 63 32 = true) →
    (subRing s ring).error = false →
    (fieldOf v 31 0 + 2 ^ 32 - (subRing s ring).tail) % 2 ^ 32 ≠ 0 →
    ((sqEnabled s ring = true → (fieldOf v 31 0 + 2 ^ 32 - (subRing s ring).tail) % 2 ^ 32 ≤ sqSize s ring →
        (fieldOf v 31 0 + 2 ^ 32 - (subRing s ring).head) % 2 ^ 32 ≤ sqSize s ring →
        ∃ u, exec (.doorbell t (driver s (ring / 16)) ring 0 size v) s = .next u ∧
          (subRing u ring).tail =
            ((subRing s ring).tail + (fieldOf v 31 0 + 2 ^ 32 - (subRing s ring).tail) % 2 ^ 32) % 2 ^ 32 ∧
          u.host.landed = s.host.landed ++
            (List.range ((fieldOf v 31 0 + 2 ^ 32 - (subRing s ring).tail) % 2 ^ 32)).map (fun i =>
              { cpl := landCpl (s.at t) ring (((subRing s ring).tail + i) % 2 ^ 32) })) ∧
      (sqEnabled s ring = false →
        ∃ u, exec (.doorbell t (driver s (ring / 16)) ring 0 size v) s = .next u ∧ (subRing u ring).error = true ∧
          (tget u.host.ringErr (ring / 16)).map (fun e => (e.1, e.2.1)) = some (ring % 16, 2) ∧
          u.host.landed = s.host.landed) ∧
      (sqEnabled s ring = true →
        (sqSize s ring < (fieldOf v 31 0 + 2 ^ 32 - (subRing s ring).tail) % 2 ^ 32 ∨
          sqSize s ring < (fieldOf v 31 0 + 2 ^ 32 - (subRing s ring).head) % 2 ^ 32) →
        ∃ u, exec (.doorbell t (driver s (ring / 16)) ring 0 size v) s = .next u ∧ (subRing u ring).error = true ∧
          (tget u.host.ringErr (ring / 16)).map (fun e => (e.1, e.2.1)) = some (ring % 16, 1) ∧
          u.host.landed = s.host.landed))) ∧
  (∀ (s : State) (t : Stamp) (ring index : Nat) (raw : BitVec 512) (data : Option NamedData) (l : Landed),
    s.pwr.off = false → landedAt s ring index = some l → l.raw = none → actsAtLanding (fieldOf raw 7 0) = false →
    inKeep s = false → s.time.halted = false → limitPassed (s.at t) l.cpl.stamp = false →
    ∃ u, exec (.descriptorFetchDone t ring index raw data) s = .next u ∧
      (subRing u ring).head = (index + 1) % 2 ^ 32 ∧ u.work = s.work ∧ u.host.due = s.host.due ∧
      (fieldOf raw 7 0 ≠ 0x21 → fieldOf raw 7 0 ≠ 0x24 → u.haul = s.haul ∧
        u.out = s.out ++ (if driver s (ring / 16) ∈ s.host.ideStopped then [] else [.head ring ((index + 1) % 2 ^ 32)])) ∧
      u.host.landed = s.host.landed.map (fun x =>
        if x.cpl.ring = ring ∧ x.cpl.index = index ∧ x.cpl.stamp = l.cpl.stamp then
          { l with
            cpl := { l.cpl with tag := fieldOf raw 63 32, op := fieldOf raw 7 0, bench := fieldOf raw 19 16 }
            raw := some raw
            data := match data with | some y => some y | none => l.data }
        else x))

/-- R366: an access that is not valid has no effect on any register's value; it is counted and logged. R382: a
function reset empties the completion ring, the submission rings, the stream bindings and the set-up lock of
every bench the function drives, and leaves every other bench's completion ring alone. R366, R382: a change of
VF Enable or NumVFs takes effect, and is a function reset of exactly the benches whose driving function changes. -/
def Obligations.AccessesAndFunctionsAreGuarded : Prop :=
  (∀ (s : State) (t : Stamp) (fn : Fn), s.pwr.off = false → barReady s = true →
    (fn = .pf ∨ ∃ b, fn = .vf b ∧ vfOn s b = true) →
    ∃ u, exec (.badAccess t fn) s = .next u ∧
      tget u.bar.live 0x70060 = some (((tget s.bar.live 0x70060).getD 0 + 1) % 2 ^ 64) ∧
      u.fault.prod = (s.fault.prod + 1) % 2 ^ 32 ∧ u.bar.inForce = s.bar.inForce ∧ u.bar.written = s.bar.written ∧
      u.host = s.host) ∧
  (∀ (s : State) (t : Stamp) (fn : Fn), s.pwr.off = false →
    ∃ u, exec (.flr t fn) s = .next u ∧
      (∀ b ∈ drivenBy s fn, cq u b = {} ∧ (∀ r ∈ u.host.rings, r.1 / 16 ≠ b) ∧ (∀ x ∈ u.work.binds, x.2.bench ≠ b) ∧
        b ∉ u.bar.benchLock) ∧
      (∀ b, b ∉ drivenBy s fn → cq u b = cq s b)) ∧
  (∀ (s : State) (t : Stamp) (enable : Bool) (n : Nat), s.pwr.off = false →
    ∃ u, exec (.vfEnableChange t enable n) s = .next u ∧ u.host.vfEnable = enable ∧ u.host.numVfs = n ∧
      (∀ b, b < 16 → driver u b ≠ driver s b → cq u b = {} ∧ (∀ r ∈ u.host.rings, r.1 / 16 ≠ b) ∧
        (∀ x ∈ u.work.binds, x.2.bench ≠ b)) ∧
      (∀ b, b < 16 → driver u b = driver s b → cq u b = cq s b))

/-- R381, R446, R376, R377: the last two time samples are kept and counted; a stream that fails stops its functions
and puts every ring they drive into ERROR; a completion signal ends its spacing; and a consumer that frees a
slot lets a waiting record out. -/
def Obligations.HostLinkEvents : Prop :=
  ∀ (s : State) (t : Stamp), s.pwr.off = false →
    (∀ h, exec (.ptmDialogue t h) s = .next { s.at t with time := { (s.at t).time with
      ptm0 := s.time.ptm1, ptm1 := (h, nsOf s (s.at t).time.now), ptmCount := (s.time.ptmCount + 1) % 2 ^ 32 } }) ∧
    (∀ stream tlpOnly x, tget s.host.ide stream = some x →
      ∃ u, exec (.ideFailure t stream tlpOnly) s = .next u ∧
        tget u.host.ide stream = some { x with secure := x.secure && tlpOnly } ∧
        (∀ fn ∈ x.fns, fn ∈ u.host.ideStopped) ∧
        (∀ fn ∈ x.fns, ∀ b ∈ drivenBy s fn, ∀ j, j < 16 → (subRing u (16 * b + j)).error = true)) ∧
    (∀ b, signalDue (s.at t) b = true → ∃ u, exec (.completionInterrupt t b) s = .next u ∧
      (cq u b).fresh = none ∧ (cq u b).signalled = some (s.at t).time.now ∧
      (s.host.ideStopped = [] → u.out = s.out ++ [if vfOn s b then .vector (.vf b) 0 else .vector .pf (2 * b)])) ∧
    (∀ b consumer r, (cq s b).waiting = [r] →
      recordRoom (setCq (s.at t) b (fun q => { q with consumer := consumer % 2 ^ 32 })) b = true →
      ∃ u, exec (.completionRecordDrain t b consumer) s = .next u ∧ (cq u b).waiting = [] ∧
        (cq u b).consumer = consumer % 2 ^ 32 ∧ (cq u b).producer = ((cq s b).producer + 1) % 2 ^ 32 ∧
        (driver s b ∉ s.host.ideStopped →
          .record b (cq s b).producer (phaseOf (cq s b).producer (cqSize s b)) r ∈ u.out))

/-! ## Registers, locks and read-out -/

/-- R486, R490, R491: a write of a stored register of a block, by the physical function, with every field at an
allowed value, reads back at once; before the first tick it is in force at once, and after it waits for its
commit with its landing stamp. -/
def Obligations.RegisterWriteReadsBackAtOnce : Prop :=
  ∀ (s : State) (t : Stamp) (off : Nat) (v : Word), s.pwr.off = false → barReady s = true → s.pwr.state ≠ .rest →
    off % 8 = 0 → benchPage off = none → off ∉ [0x0F8, 0x60008, 0x60010, 0x60020, 0x70020, 0x70040, 0x80040] →
    off ∉ [0x40000, 0x40008, 0x60048, 0x60050] → fieldsAt off ≠ [] → absentHere s off = false → locked s off = false →
    valueOk s off (maskFields off v) = true →
    (s.time.ticking = true → off ∉ [0x10000, 0x10008, 0x10010]) →
    ∃ u, exec (.registerWrite t .pf off v) s = .next u ∧ regRead u off = maskFields off v ∧
      (∀ o, o ≠ off → regVal u o = regVal s o ∧ regRead u o = regRead s o) ∧
      (s.time.ticking = false → regVal u off = maskFields off v ∧ u.bar.waiting = s.bar.waiting) ∧
      (s.time.ticking = true → regVal u off = regVal s off ∧
        u.bar.waiting = s.bar.waiting ++ [((s.at t).time.now, off, maskFields off v)])

/-- R488: with SETUP_LOCK set, a write to a locked register has no effect on any value in force, written or waiting.
R366, R369, R488, R489, R494: what the writes and reads with effects do by the function that may make them.
R369: disabling a completion ring disables every submission ring of its bench with it. -/
def Obligations.LocksLatchesAndClears : Prop :=
  (∀ (s : State) (t : Stamp) (off : Nat) (v : Word), s.pwr.off = false → benchPage off = none →
    off ∉ [0x0F8, 0x60008, 0x60010, 0x60020, 0x70020, 0x70040, 0x80040] → locked s off = true →
    ∃ u, exec (.registerWrite t .pf off v) s = .next u ∧ u.bar.inForce = s.bar.inForce ∧
      u.bar.written = s.bar.written ∧ u.bar.waiting = s.bar.waiting) ∧
  (∀ (s : State) (t : Stamp), s.pwr.off = false → barReady s = true → s.pwr.state ≠ .rest →
    (∀ v, v.getLsbD 0 = true → s.bar.lock = false → exec (.setupLockWrite t .pf v) s = .next { s.at t with
      bar := { s.bar with lock := true }, sec := { s.sec with locked := some (lockedFields s) } }) ∧
    (∀ fn b v, b < 16 → mayWrite s fn (bn b 0x088) = true → v.getLsbD 0 = true → b ∉ s.bar.benchLock →
      exec (.bnSetupLockWrite t fn b v) s = .next { s.at t with
        bar := { s.bar with benchLock := s.bar.benchLock ++ [b] } }) ∧
    exec (.tkNowOffsetRead t) s = .next { s.at t with
      time := { (s.at t).time with latch := (s.at t).time.now.tick } } ∧
    (∀ b v, v.getLsbD 32 = true → exec (.ringErrOverrunClear t .pf b v) s = .next { s.at t with
      host := { s.host with ringErr := tmod s.host.ringErr b (fun e => (e.1, e.2.1, false)) } }) ∧
    (∀ v, ∃ u, exec (.pwOverrideClear t .pf v) s = .next u ∧ ∀ o, o ∈ u.pwr.override ↔
      o ∈ s.pwr.override ∧ (v.getLsbD (3 * o.1 + ovBit o.2) = true → o ∈ s.pwr.loops ∧ heldBelow s o.1 = true)) ∧
    (∀ v, bitOf v 8 = true → inKeep s = false → exec (.scKeyCtrlErase t .pf v) s = .next { s.at t with
      sec := { s.sec with erase := s.sec.erase ++ [(t, bitOf v 4, fieldOf v 3 0)] } })) ∧
  (∀ (s : State) (t : Stamp) (fn : Fn) (b : Nat), s.pwr.off = false → barReady s = true → s.pwr.state ≠ .rest →
    b < 16 → mayWrite s fn (bn b 0x290) = true → locked s (bn b 0x290) = false → s.stock = .mx →
    valueOk s (bn b 0x290) (maskFields (bn b 0x290) (withFieldOf (regVal s (bn b 0x290)) 31 31 0)) = true →
    ∃ u, exec (.cqDisable t fn b) s = .next u ∧ cqEnabled u b = false ∧ ∀ j, j < 16 → sqEnabled u (16 * b + j) = false)

/-- R425 to R428: the host's enter stops planning in Keep mode, and a read-out writes what it was asked for and
reads done when the write has finished. -/
def Obligations.KeepModeAndReadout : Prop :=
  ∀ (s : State) (t : Stamp), s.pwr.off = false → barReady s = true → s.pwr.state ≠ .rest →
    (inKeep s = false → ∃ u, exec (.rlKeepCtrlEnter t .pf) s = .next u ∧
      u.fault.keep = some (4, (s.at t).time.now) ∧ u.pwr.state = .keep ∧ u.fw.stage = .keep ∧ u.work.convs = s.work.convs) ∧
    (inKeep s = true → s.fault.readout.1 = true →
      (∃ u, exec (.readoutList t .pf) s = .next u ∧ u.fault.readout.1 = false ∧ u.fault.readout.2.1 = 0 ∧
        (.pf ∉ s.host.ideStopped → .readoutList (regRead s 0x70028).toNat
          (((s.work.convs.drop (regRead s 0x70038).toNat).take ((regRead s 0x70030).toNat / 32)).map
            (fun c => listEntry s c.2)) ∈ u.out)) ∧
      (∀ c, conv s (regRead s 0x70038).toNat = some c → convBytes s c ≤ (regRead s 0x70030).toNat →
        ∃ u, exec (.readoutConv t .pf) s = .next u ∧ u.fault.readout = (false, 0, convBytes s c, 0) ∧
          (.pf ∉ s.host.ideStopped → .readoutConv (regRead s 0x70028).toNat (keepForm s c) ∈ u.out))) ∧
    exec (.readoutDone t) s = .next { s.at t with fault := { s.fault with readout := (true, s.fault.readout.2) } }

/-! ## Descriptors that act at a commit -/

/-- R34, R54, R372, R373, R404: a commit-acting descriptor that its module's state turns away completes with that
status, stamped with the commit its own stamp names, and has no other effect; one that does not meet its commit
on its own row waits for it with what it names, and nothing of it is done before (log entry 131 says which rows
meet it). -/
def Obligations.GatedDescriptorsOnlyComplete : Prop :=
  ∀ (s : State) (d : HostDesc) (x : Instr × Nat), s.pwr.off = false →
    x ∈ [(.modelLoad d, 0x10), (.modelLoadReplace d, 0x10), (.modelUnload d, 0x11), (.reqAdmit d, 0x20),
      (.reqAppend d, 0x21), (.reqCancel d, 0x22), (.reqPark d, 0x23), (.reqParkHaul d, 0x23), (.reqResume d, 0x24),
      (.reqResumeRebuild d, 0x24), (.reqRelease d, 0x25), (.reqHandoff d, 0x30), (.vecSearch d, 0x40),
      (.vecInsert d, 0x41), (.vecDelete d, 0x42), (.vecMergeMerge d, 0x43), (.vecMergeCreate d, 0x43),
      (.vecMergeDrop d, 0x43), (.vecMergeArchive d, 0x43), (.vecMergeRestore d, 0x43), (.vecMergeReplicate d, 0x43),
      (.vecMergeUnreplicate d, 0x43), (.tallySet d, 0x60), (.tallyDelete d, 0x60), (.streamBind d, 0x61),
      (.streamUnbind d, 0x61), (.nop d, 0x7F)] →
    (∀ st, quiet s → meetsCommit s d = true → gate s d x.2 (commitOf s d.stamp) = some st →
      exec x.1 s = .next (complete (atLanding s d) (cplOf s d) st 0 (commitOf s d.stamp))) ∧
    (meetsCommit s d = false → exec x.1 s = .next (landDesc d (atLanding s d)))

/-- R69 to R71, R527: a load on an EMPTY bench starts LOADING; a replacing load and an unload of a READY bench start
a drain; an unload of an EMPTY bench completes at once. -/
def Obligations.LoadsAndUnloadsStart : Prop :=
  ∀ (s : State) (d : HostDesc) (n b : Nat), s.pwr.off = false → quiet s → meetsCommit s d = true → n = commitOf s d.stamp → b = dBench d →
    hasRecord s b = true → zeroAt d.raw 511 272 = true → zeroAt d.raw 31 20 = true → zeroAt d.raw 15 11 = true →
    fieldOf d.raw 10 9 ≠ 3 →
    (gate s d 0x10 n = none → fieldOf d.raw 127 64 % 4096 = 0 → sealedMoves s b = false →
      ((bitOf d.raw 8 = false → zeroAt d.raw 10 9 = true → zeroAt d.raw 271 256 = true → (bench s b).state = .empty →
        exec (.modelLoad d) s = .next (setBench (atLanding s d) b (fun x => { x with
          state := .loading,
          load := some { cpl := cplOf s d, modelTag := fieldOf d.raw 255 192, length := fieldOf d.raw 191 128 } }))) ∧
      (bitOf d.raw 8 = true → (bench s b).state = .ready →
        exec (.modelLoadReplace d) s = .next (setBench (atLanding s d) b (fun x => { x with
          state := .draining, drain := some (drainOf d n),
          replacing := some { cpl := cplOf s d, modelTag := fieldOf d.raw 255 192, length := fieldOf d.raw 191 128 } }))))) ∧
    (gate s d 0x11 n = none → zeroAt d.raw 255 64 = true → bitOf d.raw 8 = false →
      ((bench s b).state = .ready → exec (.modelUnload d) s = .next (setBench (atLanding s d) b (fun x => { x with
        state := .draining, unloads := [cplOf s d], drain := some (drainOf d n) }))) ∧
      ((bench s b).state = .empty →
        exec (.modelUnload d) s = .next (complete (atLanding s d) (cplOf s d) .ok 0 n)))

/-- R34, R69, R72: the end of a load and of a release wait for the commit their stamp names; there a sound package
makes the bench READY, one that fails a check leaves it EMPTY, and a release leaves it EMPTY or loading its
replacement. R73: when a FINISH drain's limit runs out with one live request, that request is parked in place
and the bench unloads. -/
def Obligations.LoadsReleasesAndDrainsEnd : Prop :=
  (∀ (s : State) (t : Stamp) (b n : Nat) (p : Package), s.pwr.off = false →
    exec (.modelLoadComplete t b p) s = .next { s.at t with
      haul := { s.haul with notices := s.haul.notices ++ [(t, .loadComplete b p)] } } ∧
    exec (.unloadReleaseDone t b) s = .next { s.at t with
      haul := { s.haul with notices := s.haul.notices ++ [(t, .releaseDone b)] } } ∧
    (∀ l, (bench s b).state = .loading → (bench s b).load = some l →
      (loadFailure s b l p = none → (bench (loadComplete s b p n) b).state = .ready ∧
        (bench (loadComplete s b p n) b).pkg = some p ∧ (bench (loadComplete s b p n) b).modelTag = l.modelTag) ∧
      (∀ x, loadFailure s b l p = some x → (bench (loadComplete s b p n) b).state = .empty ∧
        (bench (loadComplete s b p n) b).load = none)) ∧
    ((bench s b).state = .unloading → (bench (releaseDone s b n) b).pkg = none ∧
      (bench (releaseDone s b n) b).load = (bench s b).replacing ∧
      ((bench (releaseDone s b n) b).state = .empty ↔ (bench s b).replacing = none))) ∧
  (∀ (s : State) (t : Stamp) (b k : Nat) (x : Bench) (d : Drain) (r : Req) (c : Conv), s.pwr.off = false → quiet s →
    s.benches = [(b, x)] → x.state = .draining → x.drain = some d → d.mode = 0 → d.limit ≤ commitOf s t →
    s.work.reqs = [(k, r)] → r.key = k → r.bench = b → reqLive r.state = true → r.state ≠ .hauling →
    conv s r.conv = some c → c.req = some k →
    exec (.drainLimitExpiry t b) s = .next (setBench (parkInPlace (s.at t) r.conv) b (fun x => { x with
      state := .unloading })))

/-- R374, R380: NOP completes with its landing stamp and the commit's tick. R242, R243: a binding set names the
ring, its control block and its size and starts at the producer the request kept for that ring, 0 for another; a
binding removed is gone. R248, R249: a tally set keeps its balance or takes the one given, and its first window
starts, with its refill, at the tick after the commit; a tally deleted by its own bench is gone. -/
def Obligations.NopBindingsAndTalliesAnswer : Prop :=
  (∀ (s : State) (d : HostDesc), s.pwr.off = false → quiet s → meetsCommit s d = true → gate s d 0x7F (commitOf s d.stamp) = none →
    zeroAt d.raw 511 64 = true → zeroAt d.raw 31 20 = true → zeroAt d.raw 15 8 = true →
    exec (.nop d) s =
      .next (complete (atLanding s d) (cplOf s d) .ok d.stamp.tick (commitOf s d.stamp) d.stamp.off)) ∧
  (∀ (s : State) (d : HostDesc) (n k first : Nat), s.pwr.off = false → quiet s → meetsCommit s d = true → n = commitOf s d.stamp →
    gate s d 0x61 n = none → k = fieldOf d.raw 127 64 → k ≠ 0 → zeroAt d.raw 511 256 = true →
    zeroAt d.raw 31 20 = true → zeroAt d.raw 15 13 = true →
    first = (match req s k with
      | some x => if x.ringAddr = fieldOf d.raw 191 128 ∧ x.ringAddr ≠ 0 then x.producer else 0
      | none => 0) →
    (fieldOf d.raw 191 128 ≠ 0 → fieldOf d.raw 191 128 % 4096 = 0 → fieldOf d.raw 255 192 % 64 = 0 →
      6 ≤ fieldOf d.raw 12 8 → fieldOf d.raw 12 8 ≤ 16 → (bindOf s k).isSome = true ∨ s.work.binds.length < 65536 →
      exec (.streamBind d) s = .next (complete { atLanding s d with work := { s.work with
        binds := tput s.work.binds k
          {
            ringAddr := fieldOf d.raw 191 128, ctl := fieldOf d.raw 255 192, log2 := fieldOf d.raw 12 8
            producer := first, consumer := first, bench := dBench d, tick := n } } }
        (cplOf s d) .ok first n)) ∧
    (fieldOf d.raw 191 128 = 0 → (bindOf s k).isSome = true →
      exec (.streamUnbind d) s = .next (complete { atLanding s d with work := { s.work with
        binds := tdel s.work.binds k } } (cplOf s d) .ok 0 n))) ∧
  (∀ (s : State) (d : HostDesc) (n id : Nat), s.pwr.off = false → quiet s → meetsCommit s d = true → n = commitOf s d.stamp →
    gate s d 0x60 n = none → id = fieldOf d.raw 75 64 → zeroAt d.raw 511 224 = true → zeroAt d.raw 111 76 = true →
    zeroAt d.raw 31 20 = true → zeroAt d.raw 15 10 = true →
    (bitOf d.raw 9 = false → 0 < fieldOf d.raw 191 160 → fieldOf d.raw 159 128 ≤ fieldOf d.raw 191 160 →
      0 < fieldOf d.raw 127 112 →
      (∀ x, tget s.work.tallies id = some x → x.bench = dBench d ∧ x.lastRefill ≠ some (n + 1)) →
      ∃ u, exec (.tallySet d) s = .next u ∧
        (tget u.work.tallies id).map (fun x => (x.bench, x.refill, x.cap, x.window, x.anchor, x.balance)) =
          some (dBench d, fieldOf d.raw 159 128, fieldOf d.raw 191 160, fieldOf d.raw 127 112, n + 1,
            min ((if bitOf d.raw 8 then fieldOf d.raw 223 192 else tallyBalance s id) + fieldOf d.raw 159 128)
              (fieldOf d.raw 191 160))) ∧
    (bitOf d.raw 9 = true → (tget s.work.tallies id).map (·.bench) = some (dBench d) →
      ∃ u, exec (.tallyDelete d) s = .next u ∧ tget u.work.tallies id = none ∧
        ∀ i, i ≠ id → tget u.work.tallies i = tget s.work.tallies i))

/-- R206, R207, R210: an idle conversation is released, and one that holds no read-out is parked in place, with the
live request on it. R205, R206, R213, R528: a park with a target and a handoff freeze the conversation under a
new haul, put its live request into HAULING and offer the conversation to the target. -/
def Obligations.ConversationsParkReleaseAndHaul : Prop :=
  (∀ (s : State) (d : HostDesc) (n k b : Nat) (cv : Conv), s.pwr.off = false → quiet s → meetsCommit s d = true → n = commitOf s d.stamp →
    k = dConv d → b = dBench d → hasRecord s b = true → goneFor s k d.stamp = none → convOn s k b = some cv →
    bitOf d.raw 13 = false → cv.frozen = none →
    (gate s d 0x25 n = none → ctlOk d.raw false true true false false false false = true → cv.req = none →
      suspendedOf s k = none →
      exec (.reqRelease d) s = .next (complete (releaseConv (atLanding s d) k) (cplOf s d) .ok k n)) ∧
    (gate s d 0x23 n = none → ctlOk d.raw false true true false false false true = true → bitOf d.raw 9 = false →
      cv.state ≠ .parked → isCacheOrMixed (role s b) = true →
      (∀ r, cv.req.bind (req s) = some r → parkable r.state = true) →
      exec (.reqPark d) s = .next (complete (parkInPlace (atLanding s d) k) (cplOf s d) .ok k n))) ∧
  (∀ (s : State) (d : HostDesc) (n k b : Nat) (cv : Conv) (r : Req), s.pwr.off = false → quiet s →
    meetsCommit s d = true → n = commitOf s d.stamp → k = dConv d → b = dBench d → hasRecord s b = true → goneFor s k d.stamp = none →
    convOn s k b = some cv → cv.key = k → bitOf d.raw 13 = false → bitOf d.raw 12 = false → bitOf d.raw 9 = true →
    cv.frozen = none → cv.stripe = none →
    cv.state = .active → cv.req = some r.key → req s r.key = some r → dTarget d ≠ s.fab.self →
    (gate s d 0x23 n = none → ctlOk d.raw false true true false false false true = true → parkable r.state = true →
      ∃ u, exec (.reqParkHaul d) s = .next u ∧ frozenFor u k = some s.haul.nextId ∧
        (req u r.key).map (fun x => (x.state, x.left)) = some (.hauling, r.state) ∧
        (srcHaul u s.haul.nextId).map (fun h => (h.purpose, h.dst, h.cpl)) = some (.park, dTarget d, some (cplOf s d))) ∧
    (gate s d 0x30 n = none → ctlOk d.raw false true false true false false true = true →
      role s b ≠ 2 → r.state = .generating ∨ r.state = .tallyWait ∨ r.state = .held →
      ∃ u, exec (.reqHandoff d) s = .next u ∧ frozenFor u k = some s.haul.nextId ∧
        (req u r.key).map (fun x => (x.state, x.left)) = some (.hauling, r.state) ∧
        (srcHaul u s.haul.nextId).map (fun h => (h.purpose, h.dst, h.cpl)) = some (.handoff, dTarget d, some (cplOf s d))))

/-- R205, R209, R211, R223: a suspended request resumes to the state it left where its model is still loaded; a
resume that rebuilds asks the keeper for the conversation's log. R38 to R40, R205, R208: a cancel and an expired
deadline end the request: it is on the done list with its status, and its conversation is without a request. -/
def Obligations.RequestsResumeAndEnd : Prop :=
  (∀ (s : State) (d : HostDesc) (n k b : Nat), s.pwr.off = false → quiet s → meetsCommit s d = true → n = commitOf s d.stamp → k = dConv d →
    b = dBench d → gate s d 0x24 n = none → hasRecord s b = true → (bench s b).state = .ready →
    ctlOk d.raw false true false true true true true = true → s.haul.pulls.any (fun q => q.cpl == cplOf s d) = false →
    (∀ cv rk r, bitOf d.raw 11 = false → bitOf d.raw 12 = false → convOn s k b = some cv → cv.key = k →
      cv.state = .parked → cv.frozen = none → suspendedOf s k = some rk → req s rk = some r → r.key = rk →
      cv.fpTag = benchTag s b → servesState (role s b) (resumedState r) r.dest.isSome = true →
      recordOk s b cv.record = true →
      (r.speculate = true → pendingRoom s b (pendingBytes (manOf s b) (kvBitsOf s b)) = true) →
      ∃ v, exec (.reqResume d) s = .next (complete v (cplOf s d) .ok k n) ∧
        (conv v k).map (fun c => (c.state, c.req)) = some (.active, some rk) ∧
        (req v rk).map (fun x => (x.state, x.bench)) = some (resumedState r, b)) ∧
    (bitOf d.raw 11 = true → bitOf d.raw 9 = true → role s b ≠ 0 → role s b ≠ 2 → conv s k = none →
      exec (.reqResumeRebuild d) s = .next (send { atLanding s d with haul := { s.haul with pulls := s.haul.pulls ++
        [{ conv := k, home := dTarget d, bench := b, cpl := cplOf s d, landed := d }] } }
        (dTarget d) (some b) (.logRead k b (bounded s b))))) ∧
  (∀ (s : State) (k : Nat) (r : Req), s.pwr.off = false → quiet s → req s k = some r → doneOf s k = none →
    s.work.done.length < 262144 →
    (∀ d, meetsCommit s d = true → gate s d 0x22 (commitOf s d.stamp) = none → ctlOk d.raw true false false false false false false = true →
      dReq d = k → hasRecord s (dBench d) = true → r.bench = benchFor s r.conv (dBench d) d.stamp →
      ∃ u, exec (.reqCancel d) s = .next u ∧ req u k = none ∧ doneOf u k = some .cancelled ∧
        ∀ c, conv u r.conv = some c → c.req = none) ∧
    (∀ t dl, r.deadline = some dl → stampLe dl (s.at t).time.now = true → inKeep s = false → s.time.halted = false →
      actsAlone (s.at t) dl 4096 = true → ∃ u, exec (.deadlineExpiry t k) s = .next u ∧ req u k = none ∧ doneOf u k = some .expired ∧
        ∀ c, conv u r.conv = some c → c.req = none))

/-- R201, R202, R205, R216: an admission that fits begins a request in PREFILL on a new ACTIVE conversation, and an
append begins one on an IDLE conversation of the bench. -/
def Obligations.AdmissionsAndAppendsBeginRequests : Prop :=
  ∀ (s : State) (d : HostDesc) (n k b : Nat), s.pwr.off = false → quiet s → meetsCommit s d = true → n = commitOf s d.stamp → k = dConv d →
    b = dBench d → hasRecord s b = true → (bench s b).state = .ready → knownReq s (dReq d) = false →
    (role s b = 3 ∨ role s b = 0 ∧ bitOf d.raw 12 = true) → fieldOf (blockOf d).1 511 448 = 0 → blockOk s d none = true →
    bitOf d.raw 11 = false →
    (gate s d 0x20 n = none → ((blockOf d).2.2.2 = none ∨ bitOf d.raw 12 = false) → admitFieldsOk s d false = true → conv s k = none → bitOf d.raw 10 = false →
      (∀ x, (blockOf d).2.2.2 = some x → stripeOk s b x = true) → admitRoom s d true = true →
      (∀ cv : Conv, cv = {
          key := k, bench := b, home := true, fpTag := benchTag s b, layers := manLayers (manOf s b)
          kvHeads := manKv (manOf s b), lastTick := n, record := s.stock == .mx && bnF s b 0x98 0 0 == 1
          stripe := (blockOf d).2.2.2, keeper := BitVec.ofNat 16 (fieldOf d.raw 367 352) } →
        fitsEmpty (putReq (putConv (atLanding s d) cv) (newReq (atLanding s d) d 0 (fieldOf d.raw 287 256) none))
          (newReq (atLanding s d) d 0 (fieldOf d.raw 287 256) none) = true) →
      ∃ u, exec (.reqAdmit d) s = .next u ∧
        (conv u k).map (fun c => (c.state, c.req, c.home, c.bench, c.length)) =
          some (.active, some (dReq d), true, b, 0) ∧
        (req u (dReq d)).map (fun x => (x.state, x.inputLeft, x.maxNew)) =
          some (.prefill, fieldOf d.raw 287 256, fieldOf d.raw 319 304)) ∧
    (∀ cv, gate s d 0x21 n = none → admitFieldsOk s d true = true → convOn s k b = some cv → cv.key = k →
      (cv.stripe = none ∨ bitOf d.raw 12 = false) →
      cv.state = .idle → suspendedOf s k = none → cv.frozen = none → cv.fpTag = benchTag s b → recordOk s b cv.record = true →
      cv.log.length + fieldOf d.raw 287 256 ≤ 1048576 → admitRoom s d false = true →
      fitsEmpty (putReq (modConv (atLanding s d) k (fun x => { x with
          keeper := BitVec.ofNat 16 (fieldOf d.raw 367 352), guarded := true }))
        (newReq (atLanding s d) d cv.log.length (cv.log.length - cv.length + fieldOf d.raw 287 256) none))
        (newReq (atLanding s d) d cv.log.length (cv.log.length - cv.length + fieldOf d.raw 287 256) none) = true →
      ∃ u, exec (.reqAppend d) s = .next u ∧
        (conv u k).map (fun c => (c.state, c.req, c.bench, c.length)) = some (.active, some (dReq d), b, cv.length) ∧
        (req u (dReq d)).map (fun x => (x.state, x.inputLeft, x.firstInput)) =
          some (.prefill, cv.log.length - cv.length + fieldOf d.raw 287 256, cv.log.length))

/-! ## Vector retrieval -/

/-- R288, R289, R291, R296: an insert supersedes the live copy of its ID and joins the spoil list; a delete of a
live ID supersedes it and leaves a delete entry; a full spoil list of auto_merge entries starts a merge round. -/
def Obligations.VectorChangesJoinTheSpoilList : Prop :=
  ∀ (s : State) (d : HostDesc) (n id i : Nat) (x : Shard), s.pwr.off = false → quiet s →
    meetsCommit s d = true → n = commitOf s d.stamp → id = fieldOf d.raw 383 320 → i = fieldOf d.raw 415 384 → vecGate s (dBench d) = none →
    shard s i = some x → x.bench = dBench d → x.replica = false → x.archived = false → x.spoil.length < 16777216 →
    zeroAt d.raw 135 128 = true →
    (∀ es v, gate s d 0x41 n = none → vecFieldsOk d.raw true true false = true → d.data = .elements es →
      es.length = vDim x.hdr → fieldOf d.raw 447 416 = ceilDiv (vDim x.hdr * elemBits x.hdr) 8 →
      (vFmt x.hdr = 1 → es.any halfSpecial = false) →
      (vFmt x.hdr ≠ 1 → ∀ e ∈ es, e.toNat < 2 ^ elemBits x.hdr) →
      v = { id := id, norm := recNorm x { id := id, elems := es }, elems := es } →
      (vDist x.hdr = 1 → feq v.norm 0 = false) → liveCount (supersede x id).1 < 2 ^ 32 →
      shardFits s (dBench d) (strideSpoil x.hdr) = true →
      exec (.vecInsert d) s = .next (complete
        (putShard (atLanding s d) i (autoMerge (appendSpoil (supersede x id).1 v))) (cplOf s d) .ok id n)) ∧
    (gate s d 0x42 n = none → vecFieldsOk d.raw false true false = true → (supersede x id).2 = true →
      shardFits s (dBench d) (strideSpoil x.hdr) = true →
      exec (.vecDelete d) s = .next (complete
        (putShard (atLanding s d) i (autoMerge (appendSpoil (supersede x id).1 { id := id, isDelete := true })))
        (cplOf s d) .ok id n))

/-- R282 to R284, R288, R289: each operation of VEC_MERGE changes its own shard alone; an image with a segment whose
check fails makes no shard, and is counted and answered as corrupt. -/
def Obligations.ShardOperationsChangeTheirShard : Prop :=
  ∀ (s : State) (d : HostDesc) (i op b : Nat) (m : ModuleId), s.pwr.off = false → quiet s → meetsCommit s d = true →
    gate s d 0x43 (commitOf s d.stamp) = none → i = fieldOf d.raw 415 384 → op = fieldOf d.raw 135 128 → op ≤ 6 →
    vecFieldsOk d.raw (op == 1) false (op == 5 || op == 6) = true → vecGate s (dBench d) = none →
    b = fieldOf d.raw 111 108 → m = BitVec.ofNat 16 (fieldOf d.raw 127 112) →
    (∀ h book segs, op = 1 → d.data = .shard h book segs → shardHdrOk h book = true → vId h = i → shard s i = none →
      imageBytes h book segs ≤ fieldOf d.raw 447 416 →
      ((∀ g ∈ segs, segCrcOk h g = true) → imageOk h segs = true → s.shards.length < 256 →
        shardFits s (dBench d) (fieldOf h 383 352 * strideNode h) = true →
        ∃ u, exec (.vecMergeCreate d) s = .next u ∧
          (shard u i).map (fun y => (y.hdr, y.bench, y.book, y.serving, y.graph.length)) =
            some (h, dBench d, book, false, (segs.flatMap (·.recs)).length) ∧
          (shard u i).bind (·.pendingCpl) = some (cplOf s d) ∧ ∀ j, j ≠ i → shard u j = shard s j) ∧
      ((∃ g ∈ segs, segCrcOk h g = false) → ∃ u, exec (.vecMergeCreate d) s = .next u ∧ u.shards = s.shards ∧
        tget u.bar.live (bn (dBench d) 0x420) = some (((tget s.bar.live (bn (dBench d) 0x420)).getD 0 + 1) % 2 ^ 64))) ∧
    (∀ x, shard s i = some x → x.bench = dBench d → x.replica = false →
      (op = 0 → x.archived = false → x.round = none → ∃ u, exec (.vecMergeMerge d) s = .next u ∧
        shard u i = some { x with round := some (x.spoil.length, 0, some (cplOf s d)) } ∧
        ∀ j, j ≠ i → shard u j = shard s j) ∧
      (op = 2 → ∃ u, exec (.vecMergeDrop d) s = .next u ∧ shard u i = none ∧ ∀ j, j ≠ i → shard u j = shard s j) ∧
      (op = 3 → x.archived = false → hasFlash s = true → x.spoil = [] → x.round = none →
        fits s (dBench d) .flash (shardBytes x) = true → flashWaits s = false →
        ∃ u, exec (.vecMergeArchive d) s = .next u ∧
          shard u i = some { x with archived := true, serving := false, replicas := [], pendRepl := [] } ∧
          ∀ j, j ≠ i → shard u j = shard s j) ∧
      (op = 4 → x.archived = true → x.pendingCpl = none → shardFits s (dBench d) (shardBytes x) = true →
        ∃ u, exec (.vecMergeRestore d) s = .next u ∧
        shard u i = some { x with pendingCpl := some (cplOf s d) } ∧ ∀ j, j ≠ i → shard u j = shard s j) ∧
      (op = 5 → x.archived = false → (m, b) ∉ x.replicas → (∀ p ∈ x.pendRepl, p.1 ≠ m) → m ≠ s.fab.self →
        ∃ u, exec (.vecMergeReplicate d) s = .next u ∧
        shard u i = some { x with pendRepl := x.pendRepl ++ [(m, b, cplOf s d)] } ∧
        ∀ j, j ≠ i → shard u j = shard s j) ∧
      (op = 6 → x.archived = false → (m, b) ∈ x.replicas → ∃ u, exec (.vecMergeUnreplicate d) s = .next u ∧
        shard u i = some { x with replicas := x.replicas.filter (· != (m, b)) } ∧
        ∀ j, j ≠ i → shard u j = shard s j))

/-- R34, R288: a created, restored or replicated shard is ready at the commit its stamp names; it then serves, or
its replica is listed, and the descriptor that asked for it completes. R284, R299: a replica takes a sound graph
segment in its place and a sound spoil segment to its commit; a segment that fails its crc is counted and stops
the replica's answers until it comes sound, and one that fails again stops them for good. -/
def Obligations.ShardWorkEndsAtItsCommit : Prop :=
  (∀ (s : State) (t : Stamp) (i n : Nat) (m : ModuleId), s.pwr.off = false →
    exec (.shardCreateDone t i) s = .next { s.at t with
      haul := { s.haul with notices := s.haul.notices ++ [(t, .shardCreate i)] } } ∧
    exec (.shardRestoreDone t i) s = .next { s.at t with
      haul := { s.haul with notices := s.haul.notices ++ [(t, .shardRestore i)] } } ∧
    exec (.shardReplicateDone t i m) s = .next { s.at t with
      haul := { s.haul with notices := s.haul.notices ++ [(t, .shardReplicate i m)] } } ∧
    (∀ x c, shard s i = some x → x.pendingCpl = some c →
      shardReady s i n x.archived =
        due (putShard s i { x with serving := true, archived := false, pendingCpl := none }) c .ok 0 n) ∧
    (∀ x b c, shard s i = some x → x.pendRepl = [(m, b, c)] →
      replicateReady s i m n =
        due (putShard s i { x with pendRepl := [], replicas := x.replicas ++ [(m, b)] }) c .ok 0 n)) ∧
  (∀ (s : State) (t : Stamp) (g : VecSeg) (x : Shard) (i : Nat), s.pwr.off = false → i = fieldOf g.hdr 127 96 →
    shard s i = some x → x.replica = true →
    (segCrcOk x.hdr g = true → fieldOf g.hdr 15 0 = 0x5347 → fieldOf g.hdr 159 128 = 0 →
      ∃ u, exec (.vecSegmentReceive t g) s = .next u ∧ (shard u i).map (fun y => (y.graph, y.gversion, y.failed)) =
        some (g.recs, fieldOf g.hdr 191 160, x.failed)) ∧
    (segCrcOk x.hdr g = true → fieldOf g.hdr 15 0 = 0x534C → ∃ u, exec (.vecSegmentReceive t g) s = .next u ∧
      (shard u i).map (fun y => (y.lastSeq, y.lastVer, y.spoil.length)) =
        some (fieldOf g.hdr 159 128, fieldOf g.hdr 191 160, x.spoil.length + g.recs.length)) ∧
    (segCrcOk x.hdr g = false → ∃ u, exec (.vecSegmentReceive t g) s = .next u ∧
      shard u i = some (if x.badSegs.contains (fieldOf g.hdr 15 0, fieldOf g.hdr 159 128) then { x with failed := true }
        else { x with badSegs := x.badSegs ++ [(fieldOf g.hdr 15 0, fieldOf g.hdr 159 128)] }) ∧
      tget u.bar.live (bn x.bench 0x420) = some (((tget s.bar.live (bn x.bench 0x420)).getD 0 + 1) % 2 ^ 64)))

/-- R287, R290, R298 to R300: a search of shards the module knows waits for the next tick; a fresh ask is answered
entry by entry in one message; a stale or late one is counted; the first OK answer of an entry is kept and a
second counted. R192, R299: at the backstop a running search's entry without an answer is asked of each replica
it lists, and so is a span asked for and not answered that has replicas. -/
def Obligations.SearchesAreAskedAndAnswered : Prop :=
  (∀ (s : State) (t : Stamp), s.pwr.off = false →
    (∀ d shards elems, quiet s → meetsCommit s d = true → gate s d 0x40 (commitOf s d.stamp) = none →
      vecGate s (dBench d) = none → d.data = .search shards elems → searchOk s d shards elems = true →
      (∀ e ∈ shards, fieldOf e 47 32 = 0xFFFF ∨ fieldOf e 47 32 = s.fab.self.toNat →
        (shard s (fieldOf e 31 0)).isSome = true) →
      exec (.vecSearch d) s = .next { (atLanding s d).bump with plan := { s.plan with searches := s.plan.searches ++
        [{ id := s.fresh, cpl := cplOf s d, raw := d.raw, shards := shards, elems := elems }] } }) ∧
    (∀ kind hdr es, kind ≤ 1 → vecMsgOk hdr kind es = true →
      (fieldOf hdr 255 192 = (s.at t).time.now.tick → synced s = true → s.plan.cut = false →
        ∃ u b h out, exec (if kind = 0 then .vecAsk t hdr es else .vecBackstopAsk t hdr es) s = .next u ∧
          .send (BitVec.ofNat 16 (fieldOf hdr 127 112)) (some b) (.vecAnswer h out) ∈ u.out ∧
          out.map (·.results) = es.map (fun e => (answerShard (s.at t) (fieldOf e.head 191 160) (fieldOf hdr 255 192)
            (fieldOf e.head 31 28) e.elems (fieldOf e.head 143 128) (fieldOf e.head 127 112) (fieldOf e.head 111 96)).2)) ∧
      (fieldOf hdr 255 192 ≠ (s.at t).time.now.tick ∨ synced s = false ∨ s.plan.cut = true →
        ∃ b, exec (if kind = 0 then .vecAsk t hdr es else .vecBackstopAsk t hdr es) s =
          .next (count (s.at t) (bn b 0x508) 1))) ∧
    (∀ src hdr e q, vecMsgOk hdr 2 [e] = true → fieldOf hdr 255 192 = (s.at t).time.now.tick → s.plan.cut = false →
      t.off < cutoffOff s → fieldOf e.head 27 24 = 0 → fieldOf e.head 159 144 < q.shards.length →
      s.plan.searches.find? (fun q => q.id == fieldOf e.head 255 192 && q.running) = some q →
      (tget q.answers (fieldOf e.head 159 144) = none →
        ∃ u, exec (.vecAnswer t src hdr [e]) s = .next u ∧
          { q with answers := tput q.answers (fieldOf e.head 159 144) e.results } ∈ u.plan.searches) ∧
      (∀ r, tget q.answers (fieldOf e.head 159 144) = some r →
        ∃ u, exec (.vecAnswer t src hdr [e]) s = .next u ∧ u.plan.searches = s.plan.searches ∧
          tget u.bar.live (bn (fieldOf hdr 111 108) 0x518) =
            some (((tget s.bar.live (bn (fieldOf hdr 111 108) 0x518)).getD 0 + 1) % 2 ^ 64)))) ∧
  (∀ (s : State) (t : Stamp), s.pwr.off = false → synced (s.at t) = true → s.plan.cut = false →
    ∃ u, exec (.backstop t) s = .next u ∧
      (∀ q i e r, q ∈ s.plan.searches → q.running = true → q.cpl.bench < 16 → (e, i) ∈ q.shards.zipIdx →
        tget q.answers i = none → r = fieldOf e 79 64 ∨ r = fieldOf e 95 80 → r ≠ 0xFFFF →
        ∃ h es, vecAskEntry q i e ∈ es ∧ .send (BitVec.ofNat 16 r) (some q.cpl.bench) (.vecAsk h es) ∈ u.out) ∧
      (∀ x ∈ s.plan.spans, x.accepted = false → x.asked = false → x.askStamp.isSome = true → hasBackup x = true →
        ∃ y ∈ u.plan.spans, (y.req, y.layer, y.gFirst, y.bench, y.asked) = (x.req, x.layer, x.gFirst, x.bench, true)))

/-! ## Remote windows and queue pairs -/

/-- R33, R335 to R338: a window opened takes its index with the generation that index has; one revoked by its bench
under its generation is gone and its index's generation moves on. R33, R340 to R343: a queue pair is made READY
with its peer and its first credit limit; a destroyed one with nothing outstanding is FREE and keeps its
incarnation, and an abort cancels what is outstanding. -/
def Obligations.WindowsAndQueuePairsAreMade : Prop :=
  (∀ (s : State) (d : HostDesc) (i : Nat), s.pwr.off = false → inKeep s = false → s.time.halted = false →
    fieldOf d.raw 19 16 = d.ring / 16 → i = fieldOf d.raw 335 320 →
    (dOp d = 0x50 → winOpenOk s (dBench d) d.raw = true → i ≠ 0xFFFF → tget s.win.wins i = none →
      ∀ w : Window, w = {
          bench := dBench d, kind := fieldOf d.raw 13 12, base := fieldOf d.raw 511 448, length := fieldOf d.raw 447 384
          perms := fieldOf d.raw 10 8, bind := if bitOf d.raw 11 then none else some (fieldOf d.raw 367 348)
          gen := genOf s i } →
        exec (.winOpen d) s = .next (doneNow { atLanding s d with win := { s.win with wins := tput s.win.wins i w } }
          (cplOf s d) .ok (i + 2 ^ 16 * genOf s i))) ∧
    (dOp d = 0x50 → winOpenOk s (dBench d) d.raw = true → i = 0xFFFF → freeKey s.win.wins 65536 0 < 65536 →
      ∃ u w, exec (.winOpen d) s = .next u ∧ tget u.win.wins (freeKey s.win.wins 65536 0) = some w ∧
        w.gen = genOf s (freeKey s.win.wins 65536 0) ∧ w.bench = dBench d) ∧
    (∀ w, dOp d = 0x51 → zeroAt d.raw 511 384 = true → zeroAt d.raw 347 336 = true → zeroAt d.raw 319 64 = true →
      zeroAt d.raw 31 20 = true → zeroAt d.raw 15 14 = true → zeroAt d.raw 11 11 = true → tget s.win.wins i = some w →
      w.bench = dBench d → w.gen = fieldOf d.raw 383 368 →
      ∃ u, exec (.winRevoke d) s = .next u ∧ tget u.win.wins i = none ∧ genOf u i = nextGen (genOf s i) ∧
        (∀ j, j ≠ i → tget u.win.wins j = tget s.win.wins j ∧ genOf u j = genOf s j) ∧
        (∀ x ∈ unhandled s, fieldOf x.2.wh 191 176 = i → fieldOf x.2.wh 207 192 = w.gen →
          stampLt x.1 (atLanding s d).time.now = true → u.out = s.out ∧ ∃ c ∈ u.win.closing, c.index = i ∧ c.window = w ∧
            c.cpl = cplOf s d))) ∧
  (∀ (s : State) (d : HostDesc) (q : Nat), s.pwr.off = false → inKeep s = false → s.time.halted = false →
    fieldOf d.raw 19 16 = d.ring / 16 → q = fieldOf d.raw 191 172 → q < qpCount s → zeroAt d.raw 511 320 = true →
    zeroAt d.raw 303 288 = true → zeroAt d.raw 135 64 = true → zeroAt d.raw 31 20 = true →
    (dOp d = 0x52 → zeroAt d.raw 15 8 = true → 16 ≤ fieldOf d.raw 319 304 → fieldOf d.raw 319 304 ≤ 4096 →
      (qpOf s q).state = .free → fieldOf d.raw 207 192 ≠ 0 → fieldOf d.raw 207 192 ≠ (qpOf s q).localInc →
      BitVec.ofNat 16 (fieldOf d.raw 151 136) ≠ s.fab.self →
      (routeOf s.fab.maps (BitVec.ofNat 16 (fieldOf d.raw 151 136))).isSome = true →
      ∃ u, exec (.qpCreate d) s = .next u ∧ (qpOf u q).state = .ready ∧ (qpOf u q).bench = dBench d ∧
        (qpOf u q).peer = BitVec.ofNat 16 (fieldOf d.raw 151 136) ∧ (qpOf u q).localInc = fieldOf d.raw 207 192 ∧
        (qpOf u q).rxLimit = 16 * fieldOf d.raw 319 304 ∧ ∀ p, p ≠ q → qpOf u p = qpOf s p) ∧
    (dOp d = 0x53 → zeroAt d.raw 15 9 = true → (qpOf s q).state = .ready → (qpOf s q).bench = dBench d →
      (bitOf d.raw 8 = false → s.fab.ops.any (fun o => o.2.target == 0 && o.2.qpn == q) = false →
        ∃ u, exec (.qpDestroy d) s = .next u ∧ (qpOf u q).state = .free ∧ (qpOf u q).localInc = (qpOf s q).localInc) ∧
      (bitOf d.raw 8 = false → s.fab.ops.any (fun o => o.2.target == 0 && o.2.qpn == q) = true →
        ∃ u, exec (.qpDestroy d) s = .next u ∧ (qpOf u q).state = .draining ∧ (qpOf u q).destroy = some (cplOf s d)) ∧
      (bitOf d.raw 8 = true → ∃ u, exec (.qpDestroyAbort d) s = .next u ∧ (qpOf u q).state = .free ∧
        (qpOf u q).localInc = (qpOf s q).localInc ∧
        u.fab.ops.any (fun o => o.2.target == 0 && o.2.qpn == q) = false)))

/-- R33, R345, R346: each remote operation joins the operations under the next number, cut into its packets, with
the psns after its queue pair's, or into its line operations on rack memory. -/
def Obligations.RemoteOperationsAreCutAndQueued : Prop :=
  ∀ (s : State) (d : HostDesc) (q k : Nat), s.pwr.off = false → inKeep s = false → s.time.halted = false →
    fieldOf d.raw 19 16 = d.ring / 16 → q = fieldOf d.raw 191 172 → k = s.fab.nextOp → rmaOk d.raw = true →
    (fieldOf d.raw 9 8 = 0 → q < qpCount s → (qpOf s q).state = .ready → (qpOf s q).bench = dBench d →
      pinRoom s q = true → ∀ x ∈ [(Instr.rmaWrite d, 0x54), (.rmaRead d, 0x55), (.rmaAdd d, 0x56), (.rmaCas d, 0x57)],
      dOp d = x.2 → ∃ u, exec x.1 s = .next u ∧ u.fab.nextOp = k + 1 ∧
        (qpOf u q).txNext = ((qpOf s q).txNext + (windowPackets s (qpOf s q) d).length) % 2 ^ 32 ∧
        (tget u.fab.ops k).map (fun o => (o.op, o.qpn, o.target, o.left, o.moved, o.cpl)) =
          some (x.2, q, 0, (windowPackets s (qpOf s q) d).length, 0, cplOf s d)) ∧
    (fieldOf d.raw 9 8 = 0 → q < qpCount s → (qpOf s q).state = .ready → (qpOf s q).bench = dBench d → dOp d = 0x70 →
      ∃ u, exec (.fence d) s = .next u ∧ u.fab.nextOp = k + 1 ∧
        (s.fab.ops = [] → u.fab.ops = []) ∧
        (∀ o j, s.fab.ops = [(j, o)] → j < k → o.target = 0 → o.qpn = q → o.op ≠ 0x70 →
          (tget u.fab.ops k).map (fun y => (y.op, y.qpn, y.left)) = some (0x70, q, 0))) ∧
    (fieldOf d.raw 9 8 = 1 →
      (∀ a ∈ lines (fieldOf d.raw 287 240) (max 1 (fieldOf d.raw 447 416)),
        (tget s.fab.maps.rackmap (a / 2 ^ 43)).isSome = true) →
      ∀ x ∈ [(Instr.rmaWriteRack d, 0x54), (.rmaReadRack d, 0x55), (.rmaAddRack d, 0x56), (.rmaCasRack d, 0x57),
        (.fenceRack d, 0x70)], dOp d = x.2 → ∃ u, exec x.1 s = .next u ∧ u.fab.nextOp = k + 1 ∧
        (tget u.fab.ops k).map (fun o => (o.op, o.target, o.left, o.moved, o.cpl)) = some (x.2, 1,
          if x.2 = 0x54 ∨ x.2 = 0x55 then (lines (fieldOf d.raw 287 240) (fieldOf d.raw 447 416)).length else 1, 0, cplOf s d))

/-- R337, R353, R356: the next request of its series is applied to its window, export memory in place and host
memory through the bench's function, and the series moves on by one; a credit request is granted its window. -/
def Obligations.WindowRequestsAreApplied : Prop :=
  ∀ (s : State) (t : Stamp) (p : WPacket) (w : Window) (q : Nat), s.pwr.off = false → q = wDst p →
    (inOrder (s.at t) p 0x40 = true → windowAt (s.at t) (s.at t).time.now p = some w →
      ∃ u, exec (.wWrite t p) s = .next u ∧ (qpOf u q).rxExpected = (wPsn p + 1) % 2 ^ 32 ∧
        (w.kind ≠ 0 → u.fab.mem = memWriteBytes s.fab.mem (w.base + wOffset p) p.data) ∧
        (w.kind = 0 → u.fab.mem = s.fab.mem ∧
          (driver s w.bench ∉ s.host.ideStopped → .bytes (w.base + wOffset p) p.data ∈ u.out))) ∧
    (inOrder (s.at t) p 0x41 = true →
      ∃ u, exec (.wRead t p) s = .next u ∧ (qpOf u q).rxExpected = (wPsn p + 1) % 2 ^ 32 ∧ u.fab.mem = s.fab.mem) ∧
    (inOrder (s.at t) p 0x43 = true → windowAt (s.at t) (s.at t).time.now p = some w → w.kind ≠ 0 →
      ∃ u, exec (.wAdd t p) s = .next u ∧ (qpOf u q).rxExpected = (wPsn p + 1) % 2 ^ 32 ∧
        u.fab.mem = memWriteBytes s.fab.mem (w.base + wOffset p)
          (leBytes 8 (leNat (memReadBytes s.fab.mem (w.base + wOffset p) 8) + leNat (p.data.take 8)))) ∧
    (inOrder (s.at t) p 0x44 = true → windowAt (s.at t) (s.at t).time.now p = some w → w.kind ≠ 0 →
      ∃ u, exec (.wCas t p) s = .next u ∧ (qpOf u q).rxExpected = (wPsn p + 1) % 2 ^ 32 ∧
        u.fab.mem =
          if leNat (memReadBytes s.fab.mem (w.base + wOffset p) 8) = leNat (p.data.take 8) then
            memWriteBytes s.fab.mem (w.base + wOffset p) (leBytes 8 (leNat ((p.data.drop 8).take 8)))
          else s.fab.mem) ∧
    (fromPeer (s.at t) p 0x49 = true → grantFrozen s q = false →
      ∃ u, exec (.wCreditReq t p) s = .next u ∧ u.fab.mem = s.fab.mem ∧
        (qpOf u q).rxLimit = ((qpOf s q).rxUsed + 16 * (qpOf s q).creditKib) % 2 ^ 32)

/-- R347, R349, R350, R352, R356: an answer takes its request off the unanswered ones, with what a read or an atomic
brought written to the host; an acknowledgement takes every write up to its psn; a credit raises the limit;
after each the first of the waiting requests that credit, the unanswered ones and the budget leave room for go
out in order. A refused psn is sent again with those after it and counted as a try. R331, R344, R352, R353,
R357, R358: no answer in time is a further try, and after the last the queue pair is in ERROR with nothing
unanswered; a deferred acknowledgement goes out; a context that lands takes its parked packets with it, and,
where its image is unsound, puts its queue pair into ERROR; a request refused as stale goes out again under the
present epoch. -/
def Obligations.WindowSendersMoveOn : Prop :=
  (∀ (s : State) (t : Stamp) (p : WPacket) (q : Nat), s.pwr.off = false → q = wDst p →
    (∀ o r, toSender s p 0x42 = true → (qpOf s q).out.find? (fun o => o.1 == wPsn p && wType o.2.1 == 0x41) = some o →
      tget s.fab.ops o.2.2 = some r → ∃ u k, exec (.wReadResp t p) s = .next u ∧
        (qpOf u q).out.map (·.1) = ((qpOf s q).out.filter (fun o => o.1 != wPsn p)).map (·.1) ++
          ((qpOf s q).waitCredit.take k).map (fun w => wPsn w.1) ∧
        (qpOf u q).waitCredit = (qpOf s q).waitCredit.drop k ∧
        (cplDropped s r.cpl = false → .bytes (r.addr + (wOffset o.2.1 - r.remote)) p.data ∈ u.out)) ∧
    (∀ o r, toSender s p 0x45 = true → (qpOf s q).out.find? (fun o => o.1 == wPsn p && isAtomicW o.2.1) = some o →
      tget s.fab.ops o.2.2 = some r → ∃ u k, exec (.wAtomResp t p) s = .next u ∧
        (qpOf u q).out.map (·.1) = ((qpOf s q).out.filter (fun o => o.1 != wPsn p)).map (·.1) ++
          ((qpOf s q).waitCredit.take k).map (fun w => wPsn w.1) ∧
        (qpOf u q).waitCredit = (qpOf s q).waitCredit.drop k ∧
        (cplDropped s r.cpl = false → .bytes r.addr (p.data.take 8) ∈ u.out)) ∧
    (toSender s p 0x46 = true → packetStatus (wStatus p) = .ok → ∃ u k, exec (.wAck t p) s = .next u ∧
      (∀ x ∈ (qpOf u q).out.map (·.1), x ∈ ((qpOf s q).waitCredit.take k).map (fun w => wPsn w.1) ∨
        ∃ o ∈ (qpOf s q).out, o.1 = x ∧ ¬(wType o.2.1 = 0x40 ∧ (psnBelow o.1 (wPsn p) = true ∨ o.1 = wPsn p))) ∧
      (qpOf u q).waitCredit = (qpOf s q).waitCredit.drop k) ∧
    (toSender s p 0x47 = true → packetStatus (wStatus p) = .ok →
      (qpOf s q).out.any (fun o => !psnBelow o.1 (wPsn p)) = true →
      (∀ o ∈ (qpOf s q).out, psnBelow o.1 (wPsn p) = false → sendsOf (qpOf s q) (wPsn o.2.1) < regF s 0x50010 19 16) →
      ∃ u, exec (.wNak t p) s = .next u ∧
        (∀ o ∈ (qpOf s q).out, psnBelow o.1 (wPsn p) = false →
          sendsOf (qpOf s q) (wPsn o.2.1) < sendsOf (qpOf u q) (wPsn o.2.1)) ∧ (qpOf u q).out.map (·.1) = (qpOf s q).out.map (·.1)) ∧
    (toSender s p 0x48 = true → psnBelow (qpOf s q).txLimit (wArg p) = true →
      ∃ u k, exec (.wCredit t p) s = .next u ∧ (qpOf u q).txLimit = wArg p ∧
        (qpOf u q).out.map (·.1) = (qpOf s q).out.map (·.1) ++ ((qpOf s q).waitCredit.take k).map (fun w => wPsn w.1) ∧
        (qpOf u q).waitCredit = (qpOf s q).waitCredit.drop k)) ∧
  (∀ (s : State) (t : Stamp) (q : Nat), s.pwr.off = false →
    ((∀ o ∈ (qpOf s q).out, psnBelow o.1 (qpOf s q).txLow = false →
        sendsOf (qpOf s q) (wPsn o.2.1) < regF s 0x50010 19 16) → ∃ u, exec (.wRetryTimeout t q) s = .next u ∧
      (∀ o ∈ (qpOf s q).out, psnBelow o.1 (qpOf s q).txLow = false →
        sendsOf (qpOf s q) (wPsn o.2.1) < sendsOf (qpOf u q) (wPsn o.2.1)) ∧ (qpOf u q).state = (qpOf s q).state) ∧
    (∀ o ∈ (qpOf s q).out, psnBelow o.1 (qpOf s q).txLow = false →
      (regF s 0x50010 19 16 ≤ sendsOf (qpOf s q) (wPsn o.2.1) → ∃ u, exec (.wRetryTimeout t q) s = .next u ∧
        (qpOf u q).state = .error ∧ (qpOf u q).out = [] ∧ (qpOf u q).waitCredit = [] ∧
        u.fab.ops.any (fun o => o.2.target == 0 && o.2.qpn == q) = false)) ∧
    ((qpOf s q).ackDue = true → ∃ u, exec (.wAckDeferred t q) s = .next u ∧ (qpOf u q).ackDue = false ∧
      (qpOf u q).unacked = 0 ∧ (qpOf u q).rxExpected = (qpOf s q).rxExpected) ∧
    (∀ ctx, q ∈ s.win.fetching → s.win.held = [] →
      (∃ u, exec (.contextFetchDone t q ctx) s = .next u ∧ q ∉ u.win.fetching ∧
        u.win.parked = s.win.parked.filter (fun p => wDst p.2 != q)) ∧
      ((s.win.parked.filter (fun p => wDst p.2 == q)) = [] → ∃ u, exec (.contextFetchDone t q ctx) s = .next u ∧
        (contextSound ctx = false → (qpOf s q).state ≠ .free → (qpOf u q).state = .error) ∧
        (contextSound ctx = true → q ∈ cacheOf u q ∧ qpOf u q = qpOf s q))) ∧
    (∀ p, packetOk p = true → packetStatus (pStatus p) = .epochStale → pDst p = s.fab.self →
      (∀ o, pType p = 0x47 → fieldOf (BitVec.ofNat 256 (leNat (p.payload.take 32))) 127 108 = q →
        (qpOf s q).out.find? (fun o => o.1 == fieldOf (BitVec.ofNat 256 (leNat (p.payload.take 32))) 175 144) = some o →
        epochOlder (pEpoch p) (wEpoch o.2.1) = false →
        exec (.epochStaleResponse t p) s = .next (resend (noteLink (s.at t)) q [o])) ∧
      (∀ dst c o m, pType p = 2 ∨ pType p = 6 ∨ pType p = 0x0A ∨ pType p = 0x11 →
        s.fab.src.find? (fun c => c.2.out.any (fun o => o.1 == pRseq p &&
          (c.1 == (pSrc p).toNat || pEpoch o.2.p == pEpoch p))) = some (dst, c) →
        c.out.find? (fun o => o.1 == pRseq p) = some o → epochOlder (pEpoch p) (pEpoch o.2.p) = false →
        pType o.2.p ≠ 9 →
        (if pType o.2.p = 0x10 then some (pDst o.2.p) else tget s.fab.maps.rackmap (pAddr o.2.p / 2 ^ 43)) = some m →
        exec (.epochStaleResponse t p) s = .next (sendPair (dropOut (noteLink (s.at t)) (BitVec.ofNat 16 dst) (pRseq p))
          ⟨withFieldOf (withFieldOf o.2.p.hdr 159 144 m.toNat) 33 33 0, o.2.p.payload⟩ o.2.op))))

/-! ## The rack fabric -/

/-- R322 to R325: a fresh memory request of an allowed module is applied to export memory exactly once its turn is
now: a read changes nothing, a masked write writes its mask's bytes, an atomic writes its word and its old value
is kept. R321: a request already seen is counted and never applied again: export memory is as it was. R313,
R326, R327: a fence waits, in sequence order, until every earlier request of its pair is applied, and changes no
memory; a transfer packet joins its message, which is delivered whole. -/
def Obligations.FabricTargetsApplyOnce : Prop :=
  (∀ (s : State) (t : Stamp) (p : Packet) (m : MapSet) (typ : Nat), s.pwr.off = false →
    freshRequest (s.at t) p typ = true → pFlagged p = false → (tgtCtx s (pSrc p)).held = [] →
    tableFor (s.at t) (pEpoch p) = some m →
    memRefusal s m (isOldEpoch s (pEpoch p)) (pSrc p) (pAddr p) typ = none →
    (typ = 1 → ∃ u, exec (.read t p) s = .next u ∧ u.fab.mem = s.fab.mem) ∧
    (typ = 3 → ∃ u, exec (.write t p) s = .next u ∧ u.fab.mem =
      memWriteMask s.fab.mem (pAddr p % 2 ^ 43) (leNat (p.payload.take 16)) 0 ((p.payload.drop 16).take 128)) ∧
    (typ = 5 → ∃ u, exec (.add t p) s = .next u ∧ u.fab.mem = memWriteBytes s.fab.mem (pAddr p % 2 ^ 43)
        (leBytes 8 (leNat (memReadBytes s.fab.mem (pAddr p % 2 ^ 43) 8) + leNat (p.payload.take 8))) ∧
      atomOf u (pSrc p) (pSeq p) = leNat (memReadBytes s.fab.mem (pAddr p % 2 ^ 43) 8) % 2 ^ 64) ∧
    (typ = 7 → ∃ u, exec (.cas t p) s = .next u ∧ u.fab.mem =
        (if leNat (memReadBytes s.fab.mem (pAddr p % 2 ^ 43) 8) = leNat (p.payload.take 8) then
          memWriteBytes s.fab.mem (pAddr p % 2 ^ 43) (leBytes 8 (leNat ((p.payload.drop 8).take 8)))
        else s.fab.mem) ∧
      atomOf u (pSrc p) (pSeq p) = leNat (memReadBytes s.fab.mem (pAddr p % 2 ^ 43) 8) % 2 ^ 64)) ∧
  (∀ (s : State) (t : Stamp) (p : Packet) (x : Instr × Nat), s.pwr.off = false →
    x ∈ [(.read t p, 1), (.write t p, 3), (.add t p, 5), (.cas t p, 7), (.fencePacket t p, 9), (.transfer t p, 0x10)] →
    packetOk p = true → pType p = x.2 → pDst p = s.fab.self → (tableFor (s.at t) (pEpoch p)).isSome = true →
    isDup (tgtCtx s (pSrc p)) (pSeq p) = true →
    ∃ u, exec x.1 s = .next u ∧ u.fab.mem = s.fab.mem ∧ u.fab.xfers = s.fab.xfers ∧
      tget u.bar.live 0x40050 = some (((tget s.bar.live 0x40050).getD 0 + 1) % 2 ^ 64)) ∧
  (∀ (s : State) (t : Stamp) (p : Packet), s.pwr.off = false → (tgtCtx s (pSrc p)).held = [] →
    (freshRequest (s.at t) p 9 = true →
      ∃ u, exec (.fencePacket t p) s = .next u ∧ u.fab.mem = s.fab.mem ∧
        (tgtCtx u (pSrc p)).held =
          if seqBelow (pSeq p) (tgtCtx (markSeq s (pSrc p) (pSeq p)) (pSrc p)).floor then [] else [p]) ∧
    (freshRequest (s.at t) p 0x10 = true → pFlagged p = false →
      ∃ u, exec (.transfer t p) s = .next u ∧ u.fab.mem = s.fab.mem ∧ u.fab.xfers = (holdTransfer s p).fab.xfers))

/-- R318, R327: an answer takes its packet off the unanswered ones, with what a read or an atomic brought written
where its operation says, unless its function was reset or its stream failed since (R382, R446); an
acknowledgement takes every write and transfer below its sequence number. -/
def Obligations.AnswersRetireTheirPackets : Prop :=
  ∀ (s : State) (t : Stamp) (p : Packet), s.pwr.off = false → packetOk p = true → pDst p = s.fab.self → pStatus p = 0 →
    s.fab.waits = [] → s.fab.comb = [] →
    (∀ o, outPkt s (pSrc p) (pRseq p) = some o →
      ∀ x ∈ [(Instr.readResp t p, 2), (.atomResp t p, 6), (.fenceDone t p, 0x0A)], pType p = x.2 →
        ∃ u, exec x.1 s = .next u ∧
          (srcCtx u (pSrc p)).out = (srcCtx s (pSrc p)).out.filter (fun o => o.1 != pRseq p) ∧
          (srcCtx u (pSrc p)).next = (srcCtx s (pSrc p)).next ∧
          (∀ k r, o.op = some k → tget s.fab.ops k = some r → cplDropped s r.cpl = false → pType o.p = 5 ∨ pType o.p = 7 →
            .bytes r.addr (p.payload.take 8) ∈ u.out) ∧
          (∀ k r, o.op = some k → tget s.fab.ops k = some r → cplDropped s r.cpl = false → pType o.p = 1 →
            .bytes (r.addr + ((overlap r.remote r.length (pAddr o.p)).1 - r.remote))
              ((p.payload.drop ((overlap r.remote r.length (pAddr o.p)).1 - pAddr o.p)).take
                (overlap r.remote r.length (pAddr o.p)).2) ∈ u.out)) ∧
    (pType p = 0x11 → ∃ u, exec (.ack t p) s = .next u ∧
      ∀ o ∈ (srcCtx u (pSrc p)).out, o ∈ (srcCtx s (pSrc p)).out ∧
        ¬(seqBelow o.1 (pRseq p) = true ∧ (pType o.2.p = 3 ∨ pType o.2.p = 0x10)))

/-- R314, R316, R320: a packet for this module is handed to its own row, one for another goes on with a further hop
and is dropped and counted after its 31st; once it has left its receive buffer its credits go back; a packet
with no answer is sent again until its tries are used up. -/
def Obligations.PacketsGoOnAndAreReplayed : Prop :=
  ∀ (s : State) (t : Stamp), s.pwr.off = false →
    (∀ l p, linkUp s l = true → packetOk p = true →
      (pDst p = s.fab.self → exec (.packetForward t l p) s =
        .next (returnCredits (send (owe (s.at t) l p) s.fab.self none (.packet p)))) ∧
      (pDst p = s.fab.self → pClass p ≠ 3 → s.fab.links.any (fun k => k.2.queue.contains p) = false →
        ∃ u, exec (.packetForward t l p) s = .next u ∧ .onLink l (.credit (pClass p) (pUnits p)) ∈ u.out) ∧
      (pDst p ≠ s.fab.self → isRequestType (pType p) = true → tableFor (s.at t) (pEpoch p) = none →
        exec (.packetForward t l p) s = .next (returnCredits (refuseStale (owe (s.at t) l (hopped p)) p))) ∧
      (pDst p ≠ s.fab.self → (isRequestType (pType p) = true → tableFor (s.at t) (pEpoch p) ≠ none) → 31 ≤ pHops p →
        exec (.packetForward t l p) s = .next (returnCredits (count (owe (s.at t) l (hopped p)) 0x40048 1))) ∧
      (pDst p ≠ s.fab.self → pType p ≠ 2 → (isRequestType (pType p) = true → tableFor (s.at t) (pEpoch p) ≠ none) →
        pHops p < 31 → exec (.packetForward t l p) s =
          .next (returnCredits (launch (owe (s.at t) l (hopped p)) (hopped p))))) ∧
    (∀ d q o, outPkt s d q = some o →
      (o.tries < regF s 0x40020 19 16 →
        ∃ u, exec (.packetReplay t d q) s = .next u ∧ (outPkt u d q).map (·.tries) = some (o.tries + 1)) ∧
      (regF s 0x40020 19 16 ≤ o.tries → s.fab.waits = [] → s.fab.comb = [] →
        ∃ u, exec (.packetReplay t d q) s = .next u ∧
          (srcCtx u d).out = (srcCtx s d).out.filter (fun o => o.1 != q)))

/-! ## Links -/

/-- R306, R307, R443, R518: a cabled, enabled, present link trains: each step but the exchange leads to the next,
the last makes it ACTIVE on two lanes and DEGRADED on one, a step out of time puts it DOWN and the exchange out
of time REFUSED, and DOWN and REFUSED links start again. -/
def Obligations.LinksTrain : Prop :=
  ∀ (s : State) (t : Stamp) (l : Nat), s.pwr.off = false →
    (∀ cage k, l = 4 * cage + k → k < 4 → linkPresent s l = true → linkEnabled s l = true → (linkOf s l).state = .down →
      ∃ u, exec (.cableInsert t cage) s = .next u ∧ (linkOf u l).cable = true ∧ (linkOf u l).state = .training ∧
        (linkOf u l).step = 1) ∧
    (∀ lanes, (linkOf s l).state = .training → lanes ≠ 0 →
      ((linkOf s l).step = 1 ∨ (linkOf s l).step = 2 ∨ (linkOf s l).step = 3 →
        ∃ u, exec (.trainingStepDone t l lanes) s = .next u ∧ (linkOf u l).step = (linkOf s l).step + 1 ∧
          (linkOf u l).lanes = lanes ∧ ((linkOf s l).step = 3 → .onLink l (.ident (identOf s l)) ∈ u.out)) ∧
      ((linkOf s l).step = 6 → ∃ u, exec (.trainingStepDone t l lanes) s = .next u ∧
        (linkOf u l).state = if laneCount (linkOf s l) = 2 then .active else .degraded)) ∧
    ((linkOf s l).state = .training → ∃ u, exec (.trainingStepTimeout t l) s = .next u ∧
      (linkOf u l).state = if (linkOf s l).step = 5 then .refused else .down) ∧
    (mayTrain s l = true →
      ((linkOf s l).state = .down → exec (.trainingRetry t l) s = .next (setLink (s.at t) l (fun x => { x with
        state := .training, step := 1, lanes := 0, ident := none }))) ∧
      ((linkOf s l).state = .refused → exec (.refusedRetry t l) s = .next (setLink (s.at t) l (fun x => { x with
        state := .training, step := 1, lanes := 0, ident := none }))))

/-- R308, R309, R440 to R443: the peer's IDENT leads to the key exchange where either end requires encryption, past
it otherwise, to ISOLATED where the timing differs and to REFUSED where the link or the encryption does not fit;
HELLO is answered by KEM, KEM gives the secret and the first key and erases what the exchange held, and an
aborted exchange in training is refused. R309, R442: on an encrypted link in use, both keys are held from a
REKEY record on, a rollover names the next key and announces it, a fresh exchange starts by HELLO, and none done
in time takes the link down. -/
def Obligations.LinksExchangeAndRollKeys : Prop :=
  (∀ (s : State) (t : Stamp) (l : Nat), s.pwr.off = false →
    (∀ id, (linkOf s l).state = .training → (linkOf s l).step = 4 →
      (id.linkFits = true → linkPresent s l = true → (requireEnc s = true → id.supports = true) →
        id.period = period s → id.backstop = backstopPm s → id.cutoff = cutoffPm s →
        ∃ u, exec (.identReceive t l id) s = .next u ∧ (linkOf u l).state = .training ∧ (linkOf u l).ident = some id ∧
          (linkOf u l).step = (if requireEnc s || id.requires then 5 else 6) ∧
          (linkOf u l).enc = (requireEnc s || id.requires)) ∧
      (id.linkFits = true → linkPresent s l = true → (requireEnc s = true → id.supports = true) →
        id.period ≠ period s → ∃ u, exec (.identReceive t l id) s = .next u ∧ (linkOf u l).state = .isolated) ∧
      (id.linkFits = false → ∃ u, exec (.identReceive t l id) s = .next u ∧ (linkOf u l).state = .refused)) ∧
    (exchanging s l = true →
      (∀ m, keyMsgOk s l 0 m = true → m.chainOk = true → regF s 0x80038 31 0 ≤ m.peerSvn →
        ∃ u msg, exec (.keyHello t l m) s = .next u ∧ (linkOf u l).helloSeen = true ∧
          (linkOf u l).peerHello = leBytes 32 m.hdr.toNat ++ m.body ∧ .onLink l (.key 1 (linkOf s l).exchange msg) ∈ u.out) ∧
      (∀ m, keyMsgOk s l 1 m = true → m.sigOk = true → (linkOf s l).helloSeen = true →
        ∃ u, exec (.keyKem t l m) s = .next u ∧ (linkOf u l).secret = linkSecret s l (m.body.take 1088) ∧
          (linkOf u l).txKey = linkKey (linkSecret s l (m.body.take 1088)) s.fab.self l 0 ∧
          (linkOf u l).helloSeen = false ∧ (linkOf u l).kemShare = 0 ∧
          ((linkOf s l).state = .training → (linkOf u l).step = 6 ∧ (linkOf u l).rxKeys = [0])) ∧
      (∀ sent, (linkOf s l).state = .training → ∃ u, exec (.keyAbort t l sent) s = .next u ∧
        (linkOf u l).state = .refused ∧ (sent = true → ∃ msg, .onLink l (.key 2 (linkOf s l).exchange msg) ∈ u.out)))) ∧
  (∀ (s : State) (t : Stamp) (l : Nat), s.pwr.off = false → linkUp s l = true → (linkOf s l).enc = true →
    (∀ k seq, seq < 4096 → exec (.rekeyRecord t l k seq) s = .next (setLink (s.at t) l (fun x => { x with
      rxKeys := (x.rxKeys.filter (· != k % 4)) ++ [k % 4] }))) ∧
    exec (.keyRollover t l) s = .next (onLink (setLink (s.at t) l (fun x => { x with
      keyI := (linkOf s l).keyI + 1, keyIdx := ((linkOf s l).keyI + 1) % 4,
      txKey := linkKey (linkOf s l).secret s.fab.self l ((linkOf s l).keyI + 1) })) l
      (.rekey (((linkOf s l).keyI + 1) % 4) (linkOf s l).txNext)) ∧
    (∀ c ∈ [Instr.freshExchange t l, .freshExchangeRetry t l], ∃ u msg, exec c s = .next u ∧
      (linkOf u l).exchange = (linkOf s l).exchange + 1 ∧ (linkOf u l).hello = msg ∧
      .onLink l (.key 0 ((linkOf s l).exchange + 1) msg) ∈ u.out) ∧
    (∃ u, exec (.freshExchangeDeadline t l) s = .next u ∧ (linkOf u l).state = .down ∧ (linkOf u l).enc = false ∧
      u.fault.prod = (s.fault.prod + 1) % 2 ^ 32))

/-- R303 to R305: a sound flit in its place moves the place on, one that fails its check is asked for again; a NAK
sends every flit from the named one again; credits that come back are added, and the peer's error counts are
kept. R310, R468: a lane dropped leaves the link DEGRADED on the other and is logged; a lane that comes back
restores both; the lane power loop takes one lane of an idle allowed link, which stays ACTIVE, and gives it
back. -/
def Obligations.FlitsRecordsAndLanes : Prop :=
  (∀ (s : State) (t : Stamp) (l : Nat), s.pwr.off = false → linkUp s l = true →
    (∀ hdr, fieldOf hdr 23 20 ≤ 2 → fieldOf hdr 63 52 = (linkOf s l).rxNext →
      ∃ u, exec (.flitReceive t l hdr true true true) s = .next u ∧
        (linkOf u l).rxNext = ((linkOf s l).rxNext + 1) % 4096 ∧ (linkOf u l).state = (linkOf s l).state) ∧
    (∀ hdr f c tag, f = false ∨ c = false → exec (.flitReceive t l hdr f c tag) s = .next (onLink
      (setLink (s.at t) l (fun x => { x with nakOut := true })) l (.nak (linkOf s l).rxNext))) ∧
    (∀ seq, (linkOf s l).txBuf.any (fun f => decide (flitGap seq f.1 < 2048) && decide (8 ≤ f.2.1)) = false →
      exec (.nakRecord t l seq) s = .next (onLink (setLink (s.at t) l (fun x => { x with
        txBuf := x.txBuf.map (fun f => if decide (flitGap seq f.1 < 2048) then (f.1, f.2.1 + 1, f.2.2) else f) })) l
        (.resend seq))) ∧
    (∀ a b c d, (linkOf s l).queue = [] → ∃ u, exec (.creditRecord t l a b c d) s = .next u ∧
      (linkOf u l).credits = ((linkOf s l).credits.1 + a, (linkOf s l).credits.2.1 + b, (linkOf s l).credits.2.2.1 + c,
        (linkOf s l).credits.2.2.2 + d)) ∧
    (∀ e0 e1, exec (.laneRecord t l e0 e1 none) s =
      .next (setLink (s.at t) l (fun x => { x with errs := (e0, e1) })))) ∧
  (∀ (s : State) (t : Stamp) (l : Nat), s.pwr.off = false →
    (∀ lane, linkUp s l = true → (linkOf s l).lanes = 3 → lane < 2 →
      ∃ u, exec (.laneDrop t l lane) s = .next u ∧ (linkOf u l).state = .degraded ∧
        (linkOf u l).lanes = (if lane = 0 then 2 else 1) ∧ u.fault.prod = (s.fault.prod + 1) % 2 ^ 32 ∧
        .onLink l (.lane lane) ∈ u.out) ∧
    ((linkOf s l).state = .degraded → (linkOf s l).queue = [] → ∃ u, exec (.laneRetry t l true) s = .next u ∧
      (linkOf u l).state = .active ∧ (linkOf u l).lanes = 3 ∧ (linkOf u l).errs = (0, 0)) ∧
    (laneAllowed s l = true → (linkOf s l).state = .active → (linkOf s l).queue = [] →
      exec (.lanePowerDown t l) s = .next (setLink (s.at t) l (fun x => { x with lanes := 1, lanePower := true }))) ∧
    ((linkOf s l).lanePower = true → (linkOf s l).queue = [] → ∃ u, exec (.lanePowerRestore t l) s = .next u ∧
      (linkOf u l).lanes = 3 ∧ (linkOf u l).lanePower = false ∧ (linkOf u l).state = (linkOf s l).state))

/-! ## The tick and its commit -/

/-- R27, R37, R423, R493: a commit whose cut-off has passed, in RUN, is made once: it publishes the counters, is the
last commit, and a second COMMIT of its tick or an earlier one changes nothing. R27, R37, R42, R189, R423: the
start of a tick opens it with no spans left from another and counts it in exactly one class of availability; its
cut-off closes it, marks what has not finished late, abandons what peers asked and no one answered, and comes at
no earlier offset. -/
def Obligations.TicksCommitOnce : Prop :=
  ((∀ (s : State) (t : Stamp), s.pwr.off = false → s.fault.keep = none → s.pwr.state = .run → commits s t = true →
    ∃ u, exec (.commit t) s = .next u ∧ u.time.lastCommit = some t.tick ∧ u.bar.published = u.bar.live ∧
      u.time.early = []) ∧
  (∀ (s : State) (t : Stamp) (n : Nat), s.pwr.off = false → s.time.lastCommit = some n → t.tick ≤ n →
    exec (.commit t) s = .next (s.at t))) ∧
  (∀ (s : State) (t : Stamp), s.pwr.off = false →
    (s.fw.escalated = none → ∃ u c, exec (.tickStart t) s = .next u ∧ u.plan.cut = false ∧
      u.fault.avail = (addAvail s c 1).fault.avail) ∧
    (∀ late, cutoffOff s ≤ t.off → s.plan.cut = false → ∃ u, exec (.cutOff t late) s = .next u ∧ u.plan.cut = true ∧
      u.plan.units.map (·.late) = (lateUnits s.plan.units late).map (·.late) ∧ u.plan.serves = []) ∧
    (∀ late, t.off < cutoffOff s → exec (.cutOff t late) s = .next (s.at t)))

/-- R208, R243, R247, R249: a tally's refill falls once at the start of its window and never beyond its cap; a key
leaves the done list 3,000 ticks after its end, with the final record that still waits; a binding of a key never
live is gone after 3,000 ticks. R421, R480, R483: the goodput window of a bench closes at its last tick, once,
with its counts set back; a meter window's close writes one record for each bench in use or with a reason
waiting, and leaves no reason waiting. -/
def Obligations.RefillsListsAndWindowsEnd : Prop :=
  (∀ (s : State) (t : Stamp), s.pwr.off = false →
    (∀ id x, tget s.work.tallies id = some x → refillDue x (t.tick + 1) = true →
      ∃ u, exec (.tallyRefill t id) s = .next u ∧
        (tget u.work.tallies id).map (·.balance) = some (min (x.balance + x.refill) x.cap) ∧
        exec (.tallyRefill t id) u = .next (u.at t)) ∧
    (∀ k, (s.work.done.any (fun d => d.req == k && decide (d.tick + 3000 ≤ t.tick))) = true →
      ∃ u, exec (.doneListExpiry t k) s = .next u ∧
        u.work.done = s.work.done.filter (fun d => !(d.req == k && decide (d.tick + 3000 ≤ t.tick))) ∧
        u.work.finals = s.work.finals.filter (fun w => w.req != k)) ∧
    (∀ k x, bindOf s k = some x → x.seen = false → (∀ r, req s k = some r → reqLive r.state = false) →
      x.tick + 3000 ≤ t.tick → doneOf s k = none →
      exec (.bindingExpiry t k) s = .next { s.at t with work := { s.work with binds := tdel s.work.binds k } })) ∧
  (∀ (s : State) (t : Stamp), s.pwr.off = false →
    (∀ b, bnF s b 0x0B8 31 0 ≠ 0 → (t.tick + 1) % bnF s b 0x0B8 31 0 = 0 → (bench s b).goodputEnd ≠ some t.tick →
      ∃ u, exec (.goodputWindowClose t b) s = .next u ∧ (bench u b).goodputEnd = some t.tick ∧ (bench u b).progress = 0 ∧
        (bench u b).goodput =
          (if (bench s b).progress + (bench s b).recovery + (bench s b).dropped = 0 then 10000
          else 10000 * ((bench s b).progress - (bench s b).lost) /
            ((bench s b).progress + (bench s b).recovery + (bench s b).dropped)) ∧
        exec (.goodputWindowClose t b) u = .next (u.at t)) ∧
    (windowEnds s t.tick = true → s.work.tallies = [] → s.mgmt.meterProd < 2 ^ 32 →
      ∃ u, exec (.meterWindowClose t) s = .next u ∧ u.mgmt.closing = [] ∧ u.mgmt.meterProd =
        (s.mgmt.meterProd + ((List.range 16).filter (fun b =>
          ((openMeter s b).used || s.mgmt.closing.any (fun c => c.1 == b)) && decide ((openMeter s b).firstTick ≤ t.tick))).length) % 2 ^ 32))

/-! ## Tick synchronisation and map epochs -/

/-- R49, R51, R53: the source's time messages go out on every link that carries time; a module locked to the source
goes into holdover when they fail to come and is LOST when they fail for long, each logged. R48, R49, R51 to
R53: a beacon aligns the tick of a module that follows it, or loses the tick of one more than 50 ns off, and
goes on over every other link; the next module in line takes over as the source with the numbering it holds.
R54: a module that has lost the tick for long halts every bench that has a record, once. -/
def Obligations.TheTickIsSentAndLost : Prop :=
  (∀ (s : State) (t : Stamp), s.pwr.off = false →
    (s.time.sync = .source → ∃ u, exec (.timeMessageSend t) s = .next u ∧
      u.out = s.out ++ (timeLinks s true).map (fun l => .onLink l (.time (s.at t).time.now 0))) ∧
    (s.time.sync = .locked → ∃ u, exec (.holdoverEntry t) s = .next u ∧ u.time.sync = .holdover ∧
      u.fault.prod = (s.fault.prod + 1) % 2 ^ 32) ∧
    (s.time.sync = .locked ∨ s.time.sync = .holdover → ∃ u, exec (.syncLostTimeout t) s = .next u ∧ u.time.sync = .lost ∧
      u.time.resumeAt = none ∧ u.fault.prod = (s.fault.prod + 1) % 2 ^ 32) ∧
    (∀ l n, exec (.delayMeasure t l n) s = .next (setLink (s.at t) l (fun x => { x with delay := n / 2 })))) ∧
  (∀ (s : State) (t : Stamp), s.pwr.off = false →
    (∀ l tick off d, linkUp s l = true → s.time.sync = .locked ∨ s.time.sync = .holdover →
      d = off + (linkOf s l).delay →
      ∃ u, exec (.beaconReceive t l tick off) s = .next u ∧
        (stampGap s (stampNorm s ⟨tick, d⟩) (s.at t).time.now ≤ 50 →
          u.time.now = stampMax (s.at t).time.now (stampNorm s ⟨tick, d⟩) ∧ u.time.sync = s.time.sync) ∧
        (50 < stampGap s (stampNorm s ⟨tick, d⟩) (s.at t).time.now → u.time.sync = .lost) ∧
        (∀ k, k < 96 → k ≠ l → linkUp s k = true → .onLink k (.beacon tick d) ∈ u.out)) ∧
    (0 < sourcePrio s → s.time.sync = .holdover ∨ s.time.sync = .unsync →
      ∃ u, exec (.sourceTakeover t true) s = .next u ∧ u.time.sync = .source ∧ u.time.now = (s.at t).time.now ∧
        u.time.lostAt = none)) ∧
  (∀ (s : State) (t : Stamp), s.pwr.off = false → s.time.sync = .lost ∨ s.time.sync = .mismatch → s.time.halted = false →
    ∃ u, exec (.syncHaltTimeout t) s = .next u ∧ u.time.halted = true ∧
      (∀ b, (tget s.fab.maps.benches b).isSome = true → (bench u b).state = .halted) ∧
      (∀ b, tget s.fab.maps.benches b = none → bench u b = bench s b) ∧ u.work.reqs = s.work.reqs ∧
      exec (.syncHaltTimeout t) u = .next (u.at t))

/-- R48, R49, R51 to R55, R308: a time record that arrives on a link carrying time keeps a module in alignment
LOCKED, which takes over as the source where it goes before the one it follows (log entry 134); beyond 50 ns it
is LOST; a module out of sync adopts the source's numbering; other timing is a MISMATCH, and so, until reset, is
a numbering below the last committed tick; a source hears only a module that goes before it. R55: a time record
never makes a module adopt a tick number below one it has committed; one that would leaves it in MISMATCH, and
there it stays through every later time record until a reset. -/
def Obligations.TimeRecordsAreFollowed : Prop :=
  (∀ (s : State) (t : Stamp) (l : Nat) (src st : Stamp) (hops : Nat) (f : SourceInfo), s.pwr.off = false →
    linkUp s l = true ∨ (linkOf s l).state = .isolated → st = stampAdd s src (linkOf s l).delay →
    (s.time.sync = .source → outranks s f = false → exec (.timeRecordReceive t l src hops f) s = .next (s.at t)) ∧
    (s.time.lowTick = false → (s.time.sync = .source → outranks s f = true) →
      (f.period = period s → f.backstop = backstopPm s → f.cutoff = cutoffPm s →
        (∀ n, s.time.lastCommit = some n → n ≤ st.tick) →
        (s.time.sync = .locked ∨ s.time.sync = .holdover ∨ s.time.sync = .source →
          (stampGap s st (s.at t).time.now ≤ 50 → ∃ u, exec (.timeRecordReceive t l src hops f) s = .next u ∧
            u.time.lastMsg = some (s.at t).time.now ∧
            (u.time.sync, u.time.hops) =
              (if s.time.sync ≠ .source ∧ outranked s f = true then (.source, 0) else (.locked, hops + 1))) ∧
          (50 < stampGap s st (s.at t).time.now → ∃ u, exec (.timeRecordReceive t l src hops f) s = .next u ∧
            u.time.sync = .lost)) ∧
        (s.time.sync = .unsync ∨ s.time.sync = .lost ∨ s.time.sync = .mismatch →
          ∃ u, exec (.timeRecordReceive t l src hops f) s = .next u ∧
            u.time.sync = .locked ∧ u.time.now = st ∧ u.time.resumeAt = some (firstWhole st))) ∧
      (f.period ≠ period s ∨ f.backstop ≠ backstopPm s ∨ f.cutoff ≠ cutoffPm s →
        ∃ u, exec (.timeRecordReceive t l src hops f) s = .next u ∧ u.time.sync = .mismatch ∧ u.time.lowTick = false) ∧
      (∀ n, f.period = period s → f.backstop = backstopPm s → f.cutoff = cutoffPm s → s.time.lastCommit = some n →
        st.tick < n → ∃ u, exec (.timeRecordReceive t l src hops f) s = .next u ∧ u.time.sync = .mismatch ∧
          u.time.lowTick = true))) ∧
  (∀ (s : State) (t : Stamp) (l : Nat) (src : Stamp) (hops : Nat) (f : SourceInfo), s.pwr.off = false →
    (∀ u, exec (.timeRecordReceive t l src hops f) s = .next u → u.time.now ≠ (s.at t).time.now →
      ∀ n, s.time.lastCommit = some n → n ≤ u.time.now.tick) ∧
    (∀ n, linkUp s l = true ∨ (linkOf s l).state = .isolated → f.period = period s → f.backstop = backstopPm s →
      f.cutoff = cutoffPm s → s.time.lowTick = false → (s.time.sync = .source → outranks s f = true) →
      s.time.lastCommit = some n → (stampAdd s src (linkOf s l).delay).tick < n →
      ∃ u, exec (.timeRecordReceive t l src hops f) s = .next u ∧ u.time.sync = .mismatch ∧ u.time.lowTick = true ∧
        u.time.now = (s.at t).time.now) ∧
    (s.time.sync = .mismatch → s.time.lowTick = true →
      ∃ u, exec (.timeRecordReceive t l src hops f) s = .next u ∧ u.time = (s.at t).time) ∧
    State.reset.time.lowTick = false)

/-- R330, R331, R334: a sealed epoch is in force from the commit of its switch on, with the one before it held until
its drain window ends; then that one is gone. -/
def Obligations.EpochsSwitchAndDrain : Prop :=
  ∀ (s : State) (t : Stamp), s.pwr.off = false →
    (∀ e sw m, s.fab.sealSet = some (e, sw, m) → sw ≤ t.tick → ∃ u, exec (.epochSwitch t) s = .next u ∧ u.fab.epoch = e ∧
      u.fab.maps = m ∧ u.fab.sealSet = none ∧
      u.fab.prev = some (s.fab.epoch, sw + regF s 0x40028 6 0, s.fab.maps)) ∧
    (∀ e sw m, s.fab.sealSet = some (e, sw, m) → t.tick < sw → exec (.epochSwitch t) s = .next (s.at t)) ∧
    (∀ e d m, s.fab.prev = some (e, d, m) → drainOpen (s.at t) d = false →
      exec (.drainWindowEnd t) s = .next { s.at t with fab := { s.fab with prev := none } })

/-! ## Partial attention between modules -/

/-- R181 to R183, R186, R189: an ask of the tick in progress that lands before the cut-off at a module that does not
serve is answered at once, span by span, NOT_SERVING; one of another tick or past the cut-off is discarded and
counted once; a module that has lost the tick answers nothing. R183, R184, R187, R188: the end of a span's run
forms its entry of the records of R184 and the mask of the pages left out; the answer goes to the asker once
every span of its ask has an entry, and waits for them until then. R185, R186, R193, R194: the entries of an
answer are taken in order, after the waits that have ended by then: a whole one completes its span, one with a
mask is kept where it leaves out less, a second one and a late one are counted, and the asks that the rows now
reach go out; the settlements of a SETTLE are taken in order, each kept with the span whose answer it is of, and
a retraction drops the row that answer fed. R191, R192, R196: the rows whose spans of a layer are not all
complete at the end of its wait are set aside and counted, each once in the tick, and under SHORT_SIGHT a span
no replica can answer for is given up with its row; one whose replicas were asked is given up at the end of
their wait. -/
def Obligations.PartialsAreAskedAndAnswered : Prop :=
  (∀ (s : State) (t : Stamp) (back : Bool) (hdr : BitVec 256) (es : List AskEntry) (c : Instr), s.pwr.off = false →
    c = (if back then .partialBackstopAsk t hdr es else .partialAsk t hdr es) →
    partialHdrOk hdr (if back then 1 else 0) es.length (es.foldl (fun a e => a + fieldOf e.hdr 31 0) 32) = true →
    (∀ e ∈ es, askOk e = true ∧ askShapeOk s (fieldOf hdr 63 32) e = true) →
    (synced s = true → fieldOf hdr 255 192 ≠ (s.at t).time.now.tick ∨ s.plan.cut = true →
      ∃ b, exec c s = .next (count (s.at t) (bn b 0x480) 1)) ∧
    (synced s = true → fieldOf hdr 255 192 = (s.at t).time.now.tick → s.plan.cut = false → notServing s = true →
      (∀ v ∈ s.plan.serves, v.ask ≠ s.fresh) →
      ∃ u h out, exec c s = .next u ∧ u.plan.serves = s.plan.serves ∧
        u.out = s.out ++ [.send (BitVec.ofNat 16 (fieldOf hdr 127 120 * 256 + fieldOf hdr 119 112)) none (.answer h out)] ∧
        (∀ e ∈ out, fieldOf e.hdr 71 68 = 4) ∧ out.length = (es.flatMap (·.spans)).length) ∧
    (synced s = false → exec c s = .next (s.at t))) ∧
  (∀ (s w : State) (t : Stamp) (peer : ModuleId) (k layer g : Nat) (sampled : Bool) (v : Serve) (c : Conv)
      (e : AnswerEntry), s.pwr.off = false → s.plan.cut = false → synced s = true → w = s.at t →
    s.plan.serves.find? (fun v => v.peer == peer && v.req == k && v.layer == layer && v.gFirst == g && v.answer.isNone) =
      some v →
    heldTable w v.conv v.backstop = some c → runWaits w v = false →
    e = answerEntry v (if maskCount (maskOf w c v) = 0 then 0 else 1) (sampled && regF s 0x70000 0 0 == 1)
      (if maskCount (maskOf w c v) = 0 then [] else maskOf w c v) (spanRecs w c v) (manDim (manOf s v.bench)) →
    ((∀ x ∈ s.plan.serves, x.ask = v.ask → x.peer = peer ∧ (x = v ∨ x.answer.isSome = true)) →
      ∃ u b h out, exec (.partialRunDone t peer k layer g sampled) s = .next u ∧ e ∈ out ∧
        .send peer b (.answer h out) ∈ u.out ∧ u.plan.serves = s.plan.serves.filter (fun x => x.ask != v.ask)) ∧
    ((∃ x ∈ s.plan.serves, x.ask = v.ask ∧ x ≠ v ∧ x.answer = none) →
      ∃ u, exec (.partialRunDone t peer k layer g sampled) s = .next u ∧ { v with answer := some e } ∈ u.plan.serves ∧
        u.out = s.out)) ∧
  (∀ (s w : State) (t : Stamp) (src : ModuleId) (hdr : BitVec 256) (b layer tick : Nat), s.pwr.off = false →
    b = fieldOf hdr 83 80 → layer = fieldOf hdr 95 88 → tick = fieldOf hdr 255 192 → w = noteLink (s.at t) →
    (∀ es, partialHdrOk hdr 2 es.length (es.foldl (fun a e => a + fieldOf e.hdr 31 0) 32) = true →
      (∀ e ∈ es, answerOk (manOf s b) e = true ∧ asAsked w src b layer e.hdr = true) →
      exec (.partialAnswer t src hdr es) s =
        .next (askNext (es.foldl (takeAnswer t src b layer tick) (if s.plan.cut then w else expireWaits t w)))) ∧
    (∀ es, partialHdrOk hdr 3 es.length (32 + 16 * es.length) = true → t.off < cutoffOff s → s.plan.cut = false →
      tick = (s.at t).time.now.tick →
      exec (.settle t src hdr es) s = .next (es.foldl (takeSettle src b layer) w)) ∧
    (∀ (v : State) (e : AnswerEntry) (x : Span), v.plan.spans.find? (answersTo src b layer e.hdr) = some x →
      tick = v.time.now.tick → v.plan.cut = false → t.off < cutoffOff v →
      (∃ u ∈ v.plan.units, u.req = fieldOf e.hdr 255 192 ∧ u.bench = b ∧ u.dropped = false ∧
        (u.cls = .step ∨ u.cls = .chunk)) →
      (x.accepted = true → takeAnswer t src b layer tick v e = count v (bn b 0x498) 1) ∧
      (spanDone x = false → fieldOf e.hdr 71 68 = 0 →
        { x with accepted := true, held := none, sampled := bitOf e.hdr 67, settled := none, source := some src,
                 order := nextOrder v, recs := e.recs } ∈ (takeAnswer t src b layer tick v e).plan.spans) ∧
      (spanDone x = false → fieldOf e.hdr 71 68 = 1 → (∀ m, x.held = some m → maskCount e.mask < maskCount m) →
        { x with held := some e.mask, sampled := bitOf e.hdr 67, settled := none, source := some src,
                 order := nextOrder v, recs := e.recs } ∈ (takeAnswer t src b layer tick v e).plan.spans)) ∧
    (∀ (v : State) (e : AnswerEntry), tick ≠ v.time.now.tick ∨ v.plan.cut = true ∨ cutoffOff v ≤ t.off →
      takeAnswer t src b layer tick v e = count v (bn b 0x4A0) 1) ∧
    (∀ (v : State) (e : BitVec 128) (x : Span), x ∈ v.plan.spans → settles src b layer e x = true →
      { x with settled := some (!bitOf e 32) } ∈ (takeSettle src b layer v e).plan.spans ∧
      (bitOf e 32 = true → ∀ u ∈ (takeSettle src b layer v e).plan.units, u.req = fieldOf e 127 64 → u.bench = b →
        u.cls = .step ∨ u.cls = .chunk → u.dropped = true) ∧
      (bitOf e 32 = false → (takeSettle src b layer v e).plan.units = v.plan.units))) ∧
  (∀ (s : State) (t : Stamp), s.pwr.off = false → s.plan.cut = false →
    (∀ b pass layer new, synced s = true →
      new = (((s.plan.spans.filter (fun x => x.bench == b && x.pass == pass && x.layer == layer && waitOver s t x &&
        !spanDone x && !x.aside)).map (·.req)).eraseDups).filter (fun k =>
          !s.plan.spans.any (fun x => x.req == k && x.bench == b && x.aside)) →
      ∃ u, exec (.remoteWaitExpiry t b pass layer) s = .next u ∧
        (∀ x ∈ s.plan.spans, x.bench = b → x.pass = pass → x.layer = layer → waitOver s t x = true → spanDone x = false →
          x.aside = false → ∃ y ∈ u.plan.spans, y.req = x.req ∧ y.bench = b ∧ y.layer = layer ∧ y.gFirst = x.gFirst ∧
            y.holder = x.holder ∧ y.aside = true ∧ y.asideAt = some t ∧ y.accepted = false ∧
            y.givenUp = (x.givenUp || (!hasBackup x && sightOf s x.req))) ∧
        tget u.bar.live (bn b 0x488) = some (((tget s.bar.live (bn b 0x488)).getD 0 +
          ((s.plan.units.filter (fun u => new.contains u.req && u.bench == b && (u.cls == .step || u.cls == .chunk))).map
            (unitRows s)).sum) % 2 ^ 64)) ∧
    (∀ k layer g x e, x ∈ s.plan.spans → x.req = k → x.layer = layer → x.gFirst = g → x.aside = true →
      x.accepted = false → sightOf s k = true → giveUpAt s x = some e → stampLe e t = true →
      ∃ u, exec (.shortSightGiveUp t k layer g) s = .next u ∧ { x with givenUp := true } ∈ u.plan.spans))

/-! ## Keepers, checkpoints and notices -/

/-- R34, R168, R170 to R172, R207, R213, R223, R261: notices from other modules wait for the commit their stamps
name; a conversation freed or moved is noted by its keeper at once. R34, R168, R172, R223, R261: what the
notices do at their commit: a holder's conversation takes the state it is told, a page's count goes up, and a
replica dropped is off the table. -/
def Obligations.NoticesWaitAndAct : Prop :=
  (∀ (s : State) (t : Stamp) (x : Instr × Notice), s.pwr.off = false →
    ((∃ k g, x = (.releaseNotice t k g, .release k g)) ∨ (∃ k st, x = (.stateNotice t k st, .state k st)) ∨
      (∃ p q up, x = (.refcountMessage t p q up, .refcount p q up)) ∨
      (∃ p h i, x = (.replicaCopyAck t p h i, .replicaAdd p h i)) ∨
      (∃ p, x = (.primaryFreeNotice t p, .primaryFree p)) ∨ (∃ p h, x = (.replicaDropNotice t p h, .replicaDrop p h))) →
    exec x.1 s = .next { noteLink (s.at t) with
      haul := { s.haul with notices := s.haul.notices ++ [(t, x.2)] } }) ∧
  (∀ (s : State) (n k : Nat) (c : Conv), conv s k = some c → c.key = k →
    (∀ st, c.home = false → ((conv (applyNotice n (.state k st) s) k).map (·.state) = some st)) ∧
    (∀ st, c.home = true → applyNotice n (.state k st) s = s) ∧
    (∀ p q e, p.conv = k → findPage s p = some e → isOwn e = true → (∀ j x, conv s j = some x → x.key = j) →
      (findPage (applyNotice n (.refcount p q true) s) p).map (·.refs) = some (min 16777215 (e.refs + 1))) ∧
    (∀ p h, p.conv = k → ∀ e, (conv (applyNotice n (.replicaDrop p h) s) k).map (fun c => e ∈ c.entries) =
      some (e ∈ c.entries ∧ ¬(e.state = .replica ∧ entryIs e p = true ∧ e.holder = h))))

/-- R217, R218, R220: the home sends a checkpoint of a live request at its tick, once, counts one not acknowledged,
keeps the newest acknowledgement, sends every unacknowledged segment again, and runs on without protection where
its keeper refuses or is gone. -/
def Obligations.HomesGuardTheirConversations : Prop :=
  ∀ (s : State) (t : Stamp) (k : Nat) (r : Req) (c : Conv), s.pwr.off = false → req s k = some r → r.key = k →
    conv s r.conv = some c → c.key = r.conv →
    (reqLive r.state = true → bounded s r.bench = true →
      commitOf s t % ckptK s r.bench = r.key % ckptK s r.bench → r.ckptTick ≠ some (commitOf s t) → c.home = true →
      exec (.checkpointSend t k) s = .next (send (chargePages (putReq (s.at t) { r with ckptTick := some (commitOf s t) })
        c.bench ((ckptConv c).entries.filter isOwn)) c.keeper (some c.bench) (.checkpoint r (ckptConv c) (commitOf s t)))) ∧
    (∀ n, r.ckptTick = some n → r.ckptAcked ≠ some n →
      exec (.checkpointLate t k) s = .next (count (s.at t) (bn r.bench 0x4B8) 1)) ∧
    (∀ n, ∃ u, exec (.checkpointAck t k n) s = .next u ∧
      (req u k).map (·.ckptAcked) = some (some (max n (r.ckptAcked.getD 0)))) ∧
    (∀ upto, ∃ u, exec (.segmentAck t r.conv upto) s = .next u ∧
      (conv u r.conv).map (·.acked) = some (max c.acked (min upto c.nextSeq))) ∧
    (c.home = true → c.guarded = true →
      (∃ u, exec (.segmentResend t r.conv) s = .next u ∧ u.out = s.out ++
        (c.segs.filter (fun g => decide (c.acked ≤ g.seq))).map (fun g => .send c.keeper (some c.bench) (.segment (segMsg g)))) ∧
      (∃ u, exec (.keeperRefuse t r.conv) s = .next u ∧ (conv u r.conv).map (·.guarded) = some false ∧
        u.fault.prod = (s.fault.prod + 1) % 2 ^ 32) ∧
      (∃ u, exec (.keeperUnreachable t c.keeper) s = .next u ∧ (conv u r.conv).map (·.guarded) = some false))

/-- R170, R171, R207, R213, R217, R218, R220, R223: a keeper with room stores a sound segment and acknowledges it,
keeps the newest checkpoint, forgets what it is told is freed, follows a new home, and starts a restore from its
log; a sound replica with room is kept and acknowledged, one that fails a check counted and not acknowledged. -/
def Obligations.KeepersStoreAndRestore : Prop :=
  ∀ (s : State) (t : Stamp) (src : ModuleId) (b : Nat), s.pwr.off = false →
    (∀ m g, segOf m = some g → keeperRoom s (segBytes g) = some b →
      ∃ u, exec (.segmentReceive t src m) s = .next u ∧ (keeperOf u g.conv).home = src ∧
        (∃ y ∈ (keeperOf u g.conv).segs, y.seq = g.seq) ∧ (∀ y ∈ (keeperOf s g.conv).segs, y ∈ (keeperOf u g.conv).segs) ∧
        ∃ n, u.out = s.out ++ [.send src none (.segmentAck g.conv n)]) ∧
    (∀ r c n, keeperRoom s ((c.entries.map pageBytes).sum + (c.recs.map recSlot).sum) = some b →
      (∀ m r' c', (keeperOf s c.key).ckpt = some (m, r', c') → m ≤ n) →
      ∃ u, exec (.checkpointReceive t src r c n) s = .next u ∧ (keeperOf u c.key).ckpt = some (n, r, c) ∧
        u.out = s.out ++ [.send src none (.checkpointAck r.key n)]) ∧
    (∀ k, exec (.keeperFreeNotice t k) s = .next { noteLink (s.at t) with
      haul := { s.haul with keeper := tdel s.haul.keeper k } }) ∧
    (∀ k x, tget s.haul.keeper k = some x → ∃ u, exec (.newHomeNotice t k src) s = .next u ∧
      (tget u.haul.keeper k) = some { x with home := src }) ∧
    (∀ k x hb restore, inKeep s = false → tget s.haul.keeper k = some x → conv s k = none → headerFor s k = true →
      (∀ n r c, x.ckpt = some (n, r, c) → c.key = k) →
      ∃ u, exec (.keeperLogRead t k src hb restore) s = .next u ∧
        (srcHaul u s.haul.nextId).map (fun h => (h.purpose, h.dst, h.conv)) = some (.restore, src, k) ∧
        frozenFor u k = some s.haul.nextId) ∧
    (∀ p e, replicaBench s = some b → inKeep s = false → copyCause s b e true = none →
      hasSpace s b (pageBytes e) = true → (tget s.haul.keeper p.conv).isSome = true ∨ headerFor s p.conv = true →
      ∃ u i, exec (.replicaCopyReceive t src p e true) s = .next u ∧ .send src none (.replicaAck p i) ∈ u.out) ∧
    (∀ p e sound cause, replicaBench s = some b → inKeep s = false → copyCause s b e sound = some cause →
      exec (.replicaCopyReceive t src p e sound) s = .next (countReject (noteLink (s.at t)) b p.conv e cause))

/-! ## Hauls -/

/-- R205, R211, R213, R215, R226: at a haul's source. A pull freezes an idle conversation that is not striped and
names the puller; an ACCEPT is answered with the data, the conversation's log among what every haul carries; a
REFUSE ends the haul with its status and its stamp; an ACK moves the home, unless an end is pending, and FREED
answers it with the ACK's stamp; a haul timed out is tried again under a new number while tries remain (log
entry 9), and then ends refused. -/
def Obligations.HaulSourcesFreezeAndMove : Prop :=
  ∀ (s : State) (t : Stamp) (m : HaulMsg), s.pwr.off = false →
    (∀ c, hmOk m 7 = true → inKeep s = false → (purposeOf (hmPurpose m)).isSome = true → conv s (hmConv m) = some c →
      c.home = true → c.frozen = none → c.state ≠ .active → c.stripe = none →
      ∃ u, exec (.haulRequest t m) s = .next u ∧ frozenFor u (hmConv m) = some s.haul.nextId ∧
        (srcHaul u s.haul.nextId).map (fun h => (h.conv, h.purpose, h.dst, h.dstBench)) =
          some (hmConv m, .pull, hmSrc m, hmBench m)) ∧
    (∀ h, srcHaul s (hmId m) = some h → h.aborted = false → h.ended = none →
      (∀ c, hmOk m 1 = true → conv s h.conv = some c →
        ∃ u hdr, exec (.haulAccept t m) s = .next u ∧
          .send h.dst (some h.bench) (.haul ⟨hdr, .data (.log (c.segs.map segMsg))⟩) ∈ u.out) ∧
      (hmOk m 2 = true → h.conv = hmConv m → hmSrc m = s.fab.self → statusOf (hmStatus m) ≠ .blockCorrupt →
        ∃ u, exec (.haulRefuse t m) s = .next u ∧
          srcHaul u (hmId m) = some { h with ended := some (t, statusOf (hmStatus m)) }) ∧
      (∀ c, hmOk m 4 = true → inKeep s = false → endsPending s h t = false → conv s h.conv = some c → c.key = h.conv →
        ∃ u hdr, exec (.haulAck t m) s = .next u ∧ srcHaul u (hmId m) = some { h with ended := some (t, .ok) } ∧
          convHome u h.conv = none ∧ .send h.dst (some c.bench) (.haul ⟨hdr, .freed t⟩) ∈ u.out) ∧
      (hmOk m 4 = true → inKeep s = false → endsPending s h t = true →
        ∃ u, exec (.haulAck t m) s = .next u ∧ srcHaul u (hmId m) = some h ∧
          .send h.dst none (.haul (reply m 6 0 .none)) ∈ u.out)) ∧
    (∀ i h c, srcHaul s i = some h → h.ended = none → h.aborted = false → conv s h.conv = some c →
      (h.tries + 1 < bnF s h.bench 0xA8 19 16 → i ≠ s.haul.nextId →
        ∃ u, exec (.haulTimeout t i) s = .next u ∧ srcHaul u i = none ∧ frozenFor u h.conv = some s.haul.nextId ∧
          (srcHaul u s.haul.nextId).map (·.tries) = some (h.tries + 1)) ∧
      (bnF s h.bench 0xA8 19 16 ≤ h.tries + 1 →
        ∃ u, exec (.haulTimeout t i) s = .next u ∧ u.fault.prod = (s.fault.prod + 1) % 2 ^ 32 ∧
          srcHaul u i = some { h with ended := some (t, .noCapacity), aborted := true })) ∧
    (hmOk m 2 = true → srcHaul s (hmId m) = none → exec (.haulRefuse t m) s = .next { noteLink (s.at t) with
      haul := { s.haul with pulls := s.haul.pulls.map (fun q =>
        if q.conv = hmConv m ∧ !q.effective then { q with refusedBy := some (t, statusOf (hmStatus m)) } else q) } })

/-- R124, R162, R213, R215: at a haul's destination. An OFFER it has room for is accepted and one it has not is
refused with the reason; what arrives and passes its checks is kept, what fails them drops the haul and refuses
it as corrupt; once everything offered has landed ACK is sent, and again when it is asked to repeat it; FREED
names the commit; ABORT, or a source gone, discards what was written. A wait for FREED that runs out holds the
commit no longer and does nothing else here (log entry 65, the model's choice: a commit is one row). -/
def Obligations.HaulDestinationsKeepOrDiscard : Prop :=
  ∀ (s : State) (t : Stamp) (m : HaulMsg), s.pwr.off = false →
    (∀ p bytes n g r sp live, hmOk m 0 = true → purposeOf (hmPurpose m) = some p →
      m.body = .offer bytes n g r sp live →
      (offerRefusal (noteLink (s.at t)) m p bytes r sp live = none →
        ∃ u, exec (.haulOffer t m) s = .next u ∧ .send (hmSrc m) none (.haul (reply m 1 0 .none)) ∈ u.out ∧
          dstHaul u (hmId m) (hmSrc m) = some {
            src := hmSrc m, conv := hmConv m, req := hmReq m, purpose := p, bench := hmBench m, speculate := sp,
            record := r, live := live, offered := n,
            bytes := offerBytes (noteLink (s.at t)) (hmBench m) bytes sp }) ∧
      (∀ st, offerRefusal (noteLink (s.at t)) m p bytes r sp live = some st →
        ∃ u, exec (.haulOffer t m) s = .next u ∧ u.haul = s.haul ∧
          .send (hmSrc m) none (.haul (reply m 2 (statusCode st) (.refuse none))) ∈ u.out)) ∧
    (∀ h, dstHaul s (hmId m) (hmSrc m) = some h →
      (∀ es, hmOk m 3 = true → m.body = .data (.pages es) → (∀ e ∈ es, pageOk s h.bench (hmFp m) e = true) →
        ∃ u, exec (.haulData t m) s = .next u ∧
          dstHaul u (hmId m) (hmSrc m) = some { h with entries := h.entries ++ es }) ∧
      (∀ rs, hmOk m 3 = true → m.body = .data (.records rs) → (∀ r ∈ rs, r.ok (hmFp m) = true) →
        ∃ u, exec (.haulData t m) s = .next u ∧ dstHaul u (hmId m) (hmSrc m) = some { h with recs := h.recs ++ rs }) ∧
      (∀ raw es c x, hmOk m 3 = true → m.body = .data (.table raw es c) → tableOf raw es c = some x → x.key = h.conv →
        ∃ u, exec (.haulData t m) s = .next u ∧ dstHaul u (hmId m) (hmSrc m) = some { h with table := some x }) ∧
      (∀ l gs, hmOk m 3 = true → m.body = .data (.log l) → segsOf l = some gs →
        ∃ u, exec (.haulData t m) s = .next u ∧ dstHaul u (hmId m) (hmSrc m) = some { h with log := some gs }) ∧
      (∀ x r, hmOk m 3 = true → m.body = .data (.sampler x r) → samplerHdrOk x r = true →
        ∃ u, exec (.haulData t m) s = .next u ∧
          dstHaul u (hmId m) (hmSrc m) = some { h with sampler := some (samplerReq x r) }) ∧
      (hmOk m 3 = true →
        (∃ es e l, m.body = .data (.pages (es ++ e :: l)) ∧ pageOk s h.bench (hmFp m) e = false) ∨
          (∃ raw es c, m.body = .data (.table raw es c) ∧ ∀ x, tableOf raw es c = some x → x.key ≠ h.conv) ∨
          (∃ l, m.body = .data (.log l) ∧ segsOf l = none) →
        ∃ u i, exec (.haulData t m) s = .next u ∧ dstHaul u (hmId m) (hmSrc m) = none ∧
          .send (hmSrc m) none (.haul (reply m 2 6 (.refuse i))) ∈ u.out) ∧
      (∀ f, hmOk m 5 = true → m.body = .freed f → h.freed = none →
        ∃ u, exec (.haulFreed t m) s = .next u ∧ dstHaul u (hmId m) (hmSrc m) = some { h with freed := some f }) ∧
      (hmOk m 6 = true → h.freed = none →
        ∃ u, exec (.haulAbort t m) s = .next u ∧ dstHaul u (hmId m) (hmSrc m) = none) ∧
      (hmOk m 6 = true → h.freed.isSome = true → exec (.haulAbort t m) s = .next (noteLink (s.at t)))) ∧
    (∀ i src h, dstHaul s i src = some h →
      (haulWhole h = true → s.tier.writes.any (fun w => w.2.haul == some (i, src)) = false →
        ackAllowed s (s.at t).time.now = true →
        ∃ u, exec (.haulStateWritten t i src) s = .next u ∧ (dstHaul u i src).map (·.ackSent) = some true ∧
          u.out = s.out ++ [.send src none (.haul ⟨inHdr i h 4 0, .none⟩)]) ∧
      (h.written = true → h.freed = none → ackAllowed s (s.at t).time.now = true →
        ∃ u, exec (.haulAckRepeat t i src) s = .next u ∧
          u.out = s.out ++ [.send src none (.haul ⟨inHdr i h 4 0, .none⟩)]) ∧
      (h.freed = none →
        ∃ u, exec (.haulSourceUnreachable t i src) s = .next u ∧ dstHaul u i src = none ∧
          u.fault.prod = (s.fault.prod + 1) % 2 ^ 32)) ∧
    exec (.freedWaitExpiry t) s = .next (s.at t)

/-! ## Blocks, units and tiers -/

/-- R118, R120, R122, R123, R127, R129, R146, R148, R158, R414: a rejected block is logged and its page read again
at the commit its stamp names; a replica's blocks come back at a commit, which makes a missing page whole where
they pass R118; a fit done before the cut-off waits for the commit and a later one is abandoned; a rejected
weight tile drops its bench's tick until it is reloaded, and the bench halts when the backup copy fails too; a
shadow check that agrees settles its item, and one that does not brings in the third unit, whose verdict names
the unit that lost, if any. R276 to R278, R223: each pass of the scrubber is counted; a corrected error is
logged and remembered, and a frame with as many of them as its threshold allows within the window is retired; an
uncorrectable error retires its frame, and one in a conversation's table waits for the commit its stamp names. -/
def Obligations.BlocksUnitsAndFramesAreChecked : Prop :=
  (∀ (s : State) (t : Stamp), s.pwr.off = false →
    (∀ p c e, conv s p.conv = some c → findPage s p = some e →
      (∀ v cause, 1 ≤ cause → cause ≤ 5 → isOwn e = true → e.state ≠ .missing → e.state ≠ .lost →
        (∀ r ∈ s.tier.reread, samePage s r.1 p = false) →
        ∃ u, exec (.blockReject t p v cause) s = .next u ∧ u.fault.prod = (s.fault.prod + 1) % 2 ^ 32 ∧
          u.tier.reread = s.tier.reread ++ [(p, commitOf s (s.at t).time.now, false)]) ∧
      (∀ key value, exec (.repairMoveDone t p key value) s = .next (deferTo (s.at t) t (.repair p key value)) ∧
        ∀ n, e.state = .missing → isOwn e = true →
          pageCause s e.bench c.fpTag { e with
            state := .sealed, key := key, value := value, cls := max (classFor key.bytes) (classFor value.bytes) } = none →
          (findPage (applyNotice n (.repair p key value) s) p).map (fun x => (x.state, x.key, x.value)) =
            some (.sealed, key, value) ∧
          ∀ f ∈ (bench (applyNotice n (.repair p key value) s) c.bench).fits, f.page ≠ p) ∧
      (∀ v fit, t.off < cutoffOff s → (∀ k, budgetNo e.tier = some k → fitBytes e v fit ≤ shareLeft s c.bench k) →
        ∃ u, exec (.fitDone t p v fit) s = .next u ∧ (bench u c.bench).fits = (bench s c.bench).fits.map (fun f =>
          if f.page = p ∧ f.isValue = v then { f with done := some fit } else f)) ∧
      (∀ v fit, cutoffOff s ≤ t.off → exec (.fitDone t p v fit) s = .next (s.at t))) ∧
    (∀ b tile,
      (∀ cause, 1 ≤ cause → cause ≤ 5 → (bench s b).pkg.isSome = true →
        ∃ u, exec (.weightBlockReject t b tile cause) s = .next u ∧ tile ∈ (bench u b).reloading ∧ b ∈ u.plan.benchDrop ∧
          ∀ x ∈ u.plan.units, x.bench = b → x.cls = .step ∨ x.cls = .chunk → x.dropped = true) ∧
      (∀ pkg copy, tile ∈ (bench s b).reloading → (bench s b).pkg = some pkg →
        (tileBookOk pkg copy = true →
          tileFault pkg (if tile < pkg.tiles.length then tile else tile - pkg.tiles.length) copy = none →
          ∃ u, exec (.weightReloadDone t b tile copy) s = .next u ∧ tile ∉ (bench u b).reloading ∧
            (bench u b).state = (bench s b).state ∧ (bench u b).pkg = some (putTile pkg tile copy)) ∧
        (tileBookOk pkg copy = false ∨
            tileFault pkg (if tile < pkg.tiles.length then tile else tile - pkg.tiles.length) copy ≠ none →
          ∃ u, exec (.weightReloadDone t b tile copy) s = .next u ∧ (bench u b).state = .halted))) ∧
    (∀ i it, tget s.plan.items i = some it →
      (∀ o f, it.mismatch = false → it.shadow.kind ≠ .none →
        (resultsAgree o f = true →
          ∃ u, exec (.shadowRecheckDone t i o f) s = .next u ∧ tget u.plan.items i = none) ∧
        (resultsAgree o f = false →
          ∃ u, exec (.shadowRecheckDone t i o f) s = .next u ∧
            tget u.plan.items i = some { it with mismatch := true, kept := o, shadowFound := some f })) ∧
      (∀ f, it.mismatch = true →
        ∃ u, exec (.arbitrationDone t i f) s = .next u ∧ tget u.plan.items i = none ∧
          u.fault.losses.map (·.unit) = s.fault.losses.map (·.unit) ++
            (if resultsAgree it.kept f = true then [it.shadow]
             else if it.shadowFound.any (fun x => resultsAgree x f) = true then [it.unit] else [])))) ∧
  (∀ (s : State) (t : Stamp) (tier : Tier) (x : UnitId) (f : Nat), s.pwr.off = false →
    exec (.patrolScrub t tier) s = .next { s.at t with tier := { s.tier with
      scrubs := tput s.tier.scrubs (tierNum tier) ((tget s.tier.scrubs (tierNum tier)).getD 0 + 1) } } ∧
    (∃ u, exec (.correctedError t tier x f) s = .next u ∧ u.tier.ces = s.tier.ces ++ [(tier, x.index, f, t.tick)] ∧
      (tier ≠ .flash → regF s 0x30020 3 0 ≤
          ((s.tier.ces ++ [(tier, x.index, f, t.tick)]).filter (fun c => c.1 == tier && c.2.1 == x.index &&
            c.2.2.1 == f && decide (t.tick < c.2.2.2 + regF s 0x30020 63 32))).length →
        (tier, x.index, f) ∈ u.tier.frames) ∧
      (tier = .flash → u.tier.frames = s.tier.frames)) ∧
    (∀ use, ∃ u, exec (.uncorrectableError t tier x f use) s = .next u ∧ (tier, x.index, f) ∈ u.tier.frames ∧
      (∀ k, use = .tableLine k → u.haul.notices = s.haul.notices ++ [(t, .tableLost k)])))

/-- R156, R172, R256, R257, R262, R265, R266: a copy that failed abandons its move, a writable block's copy that
spans plan windows is made ready again, a sound copy is complete at its stamp; the pages of a group that go to
flash are written as one extent once the last of them is copied, and are durable when it is programmed; an idle
page moves a tier down where its floor allows, to flash with its whole group, and pressure moves the least
recently read page down first, or drops a replica where no page is left. Taking a whole group to flash is the
model's choice (log entry 130). R254, R258, R266 to R268, R271 to R274: a flash read that lands is no longer
waited for and its page's copy has landed; one at its deadline is late once; a block that fails a program or an
erase is retired; the duties rewrite a block's data and erase it; writes are held while the working room is
short; the parked conversations are listed again once after power-up. What fresh room a collection leaves is a
free value. -/
def Obligations.PagesMoveAndFlashServes : Prop :=
  (∀ (s : State) (t : Stamp), s.pwr.off = false →
    (∀ i m, tget s.tier.moves i = some m →
      (∃ u, exec (.moveCopyDone t i false) s = .next u ∧ tget u.tier.moves i = none) ∧
      (m.writable = true → ¬(m.began.tick = t.tick ∧ t.off < cutoffOff s) →
        ∃ u, exec (.moveCopyDone t i true) s = .next u ∧ tget u.tier.moves i = none ∧
          u.tier.ready = s.tier.ready ++ [{ m with doneAt := none, charged := 0 }]) ∧
      (m.writable = false ∨ (m.began.tick = t.tick ∧ t.off < cutoffOff s) →
        (m.dst ≠ .flash → ∃ u, exec (.moveCopyDone t i true) s = .next u ∧
          tget u.tier.moves i = some { m with doneAt := some t }) ∧
        (m.dst = .flash → m.extent = none →
          ((∃ x ∈ tput s.tier.moves i { m with copied := true }, extentMate m.page x.2 = true ∧ x.2.extent = none ∧
              x.2.copied = false) ∨ (∃ x ∈ s.tier.ready, extentMate m.page x = true) →
            ∃ u, exec (.moveCopyDone t i true) s = .next u ∧ u.tier.writes = s.tier.writes ∧
              tget u.tier.moves i = some { m with copied := true }) ∧
          ((∀ x ∈ tput s.tier.moves i { m with copied := true }, extentMate m.page x.2 = true → x.2.extent = none →
              x.2.copied = true) → (∀ x ∈ s.tier.ready, extentMate m.page x = false) →
            ∃ u w x, exec (.moveCopyDone t i true) s = .next u ∧ tget u.tier.writes w = some x ∧ x.bench = m.bench ∧
              i ∈ x.moves ∧ (∃ m', tget u.tier.moves i = some m' ∧ m'.extent.isSome = true) ∧
              (tgetD u.sec.keys m.bench : FlashKey).made = true)))) ∧
    (∀ w x, hasFlash s = true → tget s.tier.writes w = some x →
      ∃ u, exec (.flashProgramDone t w) s = .next u ∧ tget u.tier.writes w = none ∧
        u.tier.unitsMoved = s.tier.unitsMoved + x.units ∧
        ∀ i ∈ x.moves, ∀ m, tget s.tier.moves i = some m → tget u.tier.moves i = some { m with doneAt := some t }) ∧
    (∀ p c e d, conv s p.conv = some c → findPage s p = some e → tierBelow e.tier = some d → movable s p = true →
      tierRank d ≤ tierRank (floorOf s c) → 0 < tierSlices s c.bench d →
      (d = .flash → c.stripe = none ∧ ∀ x ∈ c.entries, x.group = e.group → isOwn x = true → x.tier = .lpddr) →
      ((∀ x ∈ e :: demoteWith c e d, x.lastRead + idleTicks s x.tier ≤ t.tick) →
        ∃ u, exec (.demotionIdle t p) s = .next u ∧ ∃ m ∈ u.tier.ready, samePage s m.page p = true ∧ m.dst = d ∧
          (d ≠ .flash → m.page = p ∧ m.src = e.tier)) ∧
      ((∃ x ∈ e :: demoteWith c e d, t.tick < x.lastRead + idleTicks s x.tier) →
        exec (.demotionIdle t p) s = .next (s.at t)) ∧
      (∀ b free l, free < regF s 0x30010 9 0 →
        0 < (regF s 0x30010 9 0 - free) * tierRoom s b e.tier / 1000 → oldPages s b e.tier = (p, e) :: l →
        ∃ u, exec (.pressureDemotion t b e.tier free) s = .next u ∧ ∃ m ∈ u.tier.ready, samePage s m.page p = true ∧
          m.dst = d ∧ (d ≠ .flash → m.page = p ∧ m.src = e.tier))) ∧
    (∀ b tier free x l, free < regF s 0x30010 9 0 → 0 < (regF s 0x30010 9 0 - free) * tierRoom s b tier / 1000 →
      oldPages s b tier = [] → replicasHeld s b tier = x :: l →
      ∃ u, exec (.pressureDemotion t b tier free) s = .next u ∧ (t, Notice.dropReplica x.1) ∈ u.haul.notices) ∧
    (∀ b tier free, regF s 0x30010 9 0 ≤ free → exec (.pressureDemotion t b tier free) s = .next (s.at t))) ∧
  (∀ (s : State) (t : Stamp), s.pwr.off = false →
    (∀ i r cls e, flashRuns s = true → cls < 4 → tget s.tier.reads i = some r → findPage s r.page = some e →
      e.tier = .flash → ∃ u, exec (.flashReadDone t i cls true) s = .next u ∧ tget u.tier.reads i = none ∧
        ∃ m, m ∈ u.tier.moves.map (·.2) ∧ m.page = r.page ∧ m.doneAt = some t) ∧
    (∀ i r, tget s.tier.reads i = some r →
      (r.late = false → exec (.flashReadDeadline t i) s = .next (count { s.at t with
        tier := { s.tier with reads := tput s.tier.reads i { r with late := true } } } (0x30300 + 8 * r.bench) 1)) ∧
      (r.late = true → exec (.flashReadDeadline t i) s = .next (s.at t))) ∧
    (∀ i, hasFlash s = true → (fblock s i).retired = false →
      (∃ u, exec (.flashProgramFail t i) s = .next u ∧ (fblock u i).retired = true ∧
        u.tier.badBlocks = s.tier.badBlocks + 1) ∧
      (∃ u, exec (.flashEraseFail t i) s = .next u ∧ (fblock u i).retired = true ∧
        u.tier.badBlocks = s.tier.badBlocks + 1)) ∧
    (∀ i c, flashRuns s = true →
      (c = .readDisturbRelocate t i ∨ c = .retentionRewrite t i ∨ c = .wearLevel t i ∨ c = .garbageCollect t i) →
      ∃ u, exec c s = .next u ∧ (fblock u i).erases = (fblock s i).erases + 1 ∧ (fblock u i).reads = 0 ∧
        (fblock u i).valid = 0 ∧ u.tier.unitsDuty = s.tier.unitsDuty + (fblock s i).valid) ∧
    (flashRuns s = true →
      (∃ u, exec (.flashWriteHold t) s = .next u ∧ u.tier.hold = true ∧ u.fault.prod = (s.fault.prod + 1) % 2 ^ 32) ∧
      exec (.zqCalibration t) s = .next { s.at t with tier := { s.tier with zq := s.tier.zq + 1 } }) ∧
    (hasFlash s = true → s.tier.relist = false → (∀ x ∈ s.tier.parked, x.2.key = x.1) →
      ∃ u, exec (.relistDone t) s = .next u ∧ u.tier.relist = true ∧ u.tier.parked = [] ∧
        ∀ x ∈ s.tier.parked, (conv u x.1).isSome = true))

/-! ## Resets, start-up and the control firmware -/

/-- R385, R386, R390, R452, R513, R516: a pulse on RESET_N of 10 µs or more, the input below 45 V and its rise
through 48 V after that reset the module cold, whatever it was doing; PERST# and the host's warm reset reset it
warm unless a cold start-up is under way; nothing shorter or milder does. -/
def Obligations.ResetsKeepAndDiscard : Prop :=
  ∀ (s : State) (t : Stamp),
    (∀ n, n < 1000 → exec (.resetN t n) s = .next (s.at t)) ∧
    (∀ n, 10000 ≤ n → ∃ u, exec (.resetN t n) s = .next u ∧ coldLeft s u ∧ u.fw.resetLow = true) ∧
    exec (.resetNRelease t) s = .next { s.at t with fw := { s.fw with resetLow := false } } ∧
    (∀ mv, mv < 45000 → ∃ u, exec (.inputUndervoltage t mv) s = .next u ∧ coldLeft s u ∧ u.pwr.off = true ∧
      u.pwr.inputDown = true ∧ u.pwr.mv = mv) ∧
    (∀ mv, 45000 ≤ mv → exec (.inputUndervoltage t mv) s = .next { s.at t with pwr := { s.pwr with mv := mv } }) ∧
    (∀ mv, 48000 ≤ mv → s.pwr.inputDown = true →
      ∃ u, exec (.inputRise t mv) s = .next u ∧ coldLeft s u ∧ u.pwr.off = false) ∧
    (∀ mv, s.pwr.inputDown = false → exec (.inputRise t mv) s = .next { s.at t with pwr := { s.pwr with mv := mv } }) ∧
    (s.pwr.off = false → s.fw.resetLow = false →
      (coldRunning s = false →
        (∃ u, exec (.perst t) s = .next u ∧ warmLeft (s.at t) u ∧ u.fw.perstLow = true) ∧
        (barReady s = true → s.pwr.state ≠ .rest →
          ∃ u, exec (.pwResetCtrlWarm t .pf) s = .next u ∧ warmLeft (s.at t) u)) ∧
      (coldRunning s = true → exec (.perst t) s = .next { s.at t with fw := { s.fw with perstLow := true } }) ∧
      (∃ u b, exec (.perstRelease t) s = .next u ∧ u.fw.perstLow = false ∧ .pcie .pf b ∈ u.out ∧
        (b = true ↔ 5 ≤ s.fw.row ∨ s.fw.stage = .recovery ∨ s.fw.stage = .keep))) ∧
    (∀ mv, s.pwr.off = false → s.pwr.excursion = false → (45000 ≤ mv ∧ mv < 50000) ∨ 60000 < mv →
      ∃ u, exec (.inputOutOfRange t mv) s = .next u ∧ u.pwr.excursion = true ∧ u.pwr.mv = mv ∧
        u.fault.prod = (s.fault.prod + 1) % 2 ^ 32) ∧
    (∀ mv, s.pwr.off = false → 50000 ≤ mv → mv ≤ 60000 → exec (.inputInRange t mv) s = .next { s.at t with
      pwr := { s.pwr with mv := mv, excursion := false } })

/-- R388, R395, R396, R399, R400, R424, R434: start-up goes row by row; the boot ROM's pairing check sends a module
that fails it to Keep mode with cause 1; a stage boots the image its directory names, the other slot's where
that one fails its checks, and neither only into RECOVERY; a trial that had started is put back; READY needs the
module's clock; the boot watchdog resets the module cold once and then leaves it in RECOVERY. -/
def Obligations.StartUpGoesByRows : Prop :=
  ∀ (s : State) (t : Stamp), s.pwr.off = false → s.fw.resetLow = false → s.fw.stage ≠ .recovery → s.fw.stage ≠ .keep →
    (∀ row a b, row ≠ s.fw.row + 1 → exec (.startUpRowDone t row a b) s = .next (s.at t)) ∧
    (∀ a b, s.fw.row = 1 → ∃ u, exec (.startUpRowDone t 2 a b) s = .next u ∧ u.fw.row = 2 ∧ u.pwr.pwrGood = true ∧
      u.sec.engineKeys = some (pairingKey, storageKey) ∧ u.sec.paired = s.sec.genuine ∧ u.sec.keys = s.sec.keys ∧
      (s.sec.genuine = true → u.fw.stage = .rom ∧ u.fault.keep = s.fault.keep) ∧
      (s.sec.genuine = false → inKeep s = false → u.fw.stage = .keep ∧ u.fault.keep = some (1, (s.at t).time.now))) ∧
    ((bootDir s).trial = 0 → ∀ row kind, (row = 3 ∧ kind = 1) ∨ (row = 5 ∧ kind = 2) → s.fw.row + 1 = row →
      ∀ a b, (slotOk s kind (slotInUse s kind) a = true →
          ∃ u, exec (.startUpRowDone t row a b) s = .next u ∧ u.fw.row = row ∧
            (if kind = 1 then u.fw.ldrRun else u.fw.fwRun) = imageInUse s kind) ∧
        (slotOk s kind (slotInUse s kind) a = false → slotOk s kind (otherSlot s kind) b = true →
          ∃ u, exec (.startUpRowDone t row a b) s = .next u ∧ u.fw.row = row ∧
            (if kind = 1 then u.fw.ldrRun else u.fw.fwRun) = imageInUse (swapSlot s kind) kind) ∧
        (slotOk s kind (slotInUse s kind) a = false → slotOk s kind (otherSlot s kind) b = false →
          ∃ u, exec (.startUpRowDone t row a b) s = .next u ∧ u.fw.stage = .recovery)) ∧
    (∀ a b, s.fw.row = 2 → (bootDir s).trial = 1 → (bootDir s).started = true → dirRoom s = true →
      ∃ u, exec (.startUpRowDone t 3 a b) s = .next u ∧ (bootDir u).trial = 0 ∧
        (bootDir u).ldrSlot = 1 - (bootDir s).ldrSlot ∧ u.fw.row ≤ 1) ∧
    (s.fw.row = 7 → (s.time.sync = .source ∨ s.time.sync = .locked) → inKeep s = false →
      ∃ u, exec (.planStable t) s = .next u ∧ u.fw.row = 8 ∧ u.fw.stage = .ready ∧ u.pwr.planStable = true) ∧
    (s.pwr.held = false → s.fw.row < 8 →
      (s.fw.bootExpired = false → ∃ u, exec (.bootWatchdog t) s = .next u ∧ coldLeft s u ∧ u.fw.bootExpired = true) ∧
      (s.fw.bootExpired = true → exec (.bootWatchdog t) s = .next { s.at t with fw := { s.fw with stage := .recovery } }))

/-- R385, R387, R399 to R402, R434: a watchdog or an exception of a control core restarts the control firmware
alone, once, with its entry in the restart log, unless the limit of R401 or the loader's pairing check (R434)
sends the module to Keep mode; late plans do so when they come in a row; a restart that is not ready in time is
made again from the other slot, and then Keep mode; READY is logged; a trial that has run is committed, and a
hitless activation starts one. -/
def Obligations.ControlRestartsAndTrials : Prop :=
  ∀ (s : State) (t : Stamp), s.pwr.off = false →
    (fwRuns s = true → restarting s = false → (bootDir s).started = false →
      (recentRestarts (s.at t)).length + 1 < regF s 0x70008 19 16 →
      (s.sec.genuine = false → ∀ core, core < 16 → ∃ u, exec (.coreWatchdog t core) s = .next u ∧
        u.fault.keep = some (1, (s.at t).time.now) ∧ u.fw.restart = none) ∧
      (s.sec.genuine = true → ∀ c k core, core < 16 → (c = .coreWatchdog t core ∧ k = 1) ∨ (c = .coreException t core ∧ k = 5) →
        ∃ u, exec c s = .next u ∧ u.fw.restart = some (k, (s.at t).time.now, 1) ∧ u.fw.stage = .restart ∧
          u.fw.restartCount = (s.fw.restartCount + 1) % 2 ^ 32 ∧ u.work = s.work ∧ u.benches = s.benches ∧
          (tget u.fw.restartLog (s.fw.restartCount % 8)).map (fun e => (e.cause, e.stamp)) =
            some (k, (s.at t).time.now)) ∧
      (s.sec.genuine = true → s.fw.hitlessWait = true → switchNear (s.at t) = false → dirRoom s = true →
        ∃ u, exec (.hitlessActivation t) s = .next u ∧ u.fw.restart = some (3, (s.at t).time.now, 1) ∧
          (bootDir u).trial = 2 ∧ (bootDir u).started = true ∧ (bootDir u).fwSlot = 1 - (bootDir s).fwSlot)) ∧
    (fwRuns s = true → s.fw.restart = none → s.pwr.planStable = true →
      (s.fw.late + 1 < regF s 0x70008 11 8 →
        ∃ u, exec (.planWatchdog t) s = .next u ∧ u.fw.planLate = true ∧ u.fw.late = s.fw.late + 1 ∧
          u.fw.restart = none ∧ u.bar.live = (count s 0x70068 1).bar.live)) ∧
    (∀ k st n, s.fw.restart = some (k, st, n) →
      (s.fw.readyAt = none →
        (2 ≤ n → inKeep s = false → ∀ b, ∃ u, exec (.restartWatchdog t b) s = .next u ∧
          u.fault.keep = some (2, (s.at t).time.now)) ∧
        (n < 2 → s.sec.genuine = true → dirRoom s = true → (recentRestarts (s.at t)).length + 1 < regF s 0x70008 19 16 →
          ∀ b, ∃ u, exec (.restartWatchdog t b) s = .next u ∧ u.fw.restart = some (4, (s.at t).time.now, 2) ∧
            (bootDir u).fwSlot =
              if slotOk s 2 (otherSlot s 2) b = true then 1 - (bootDir s).fwSlot else (bootDir s).fwSlot) ∧
        (∃ u, exec (.firmwareReady t) s = .next u ∧ u.fw.readyAt = some (s.at t).time.now ∧
          u.fw.fwRun = imageInUse s 2 ∧ u.fw.stage = stageOfRow s.fw.row)) ∧
      (∀ core, s.fw.readyAt = none → exec (.coreWatchdog t core) s = .next (s.at t))) ∧
    ((bootDir s).trial ≠ 0 → (bootDir s).started = true → restarting s = false → s.fw.stage = .ready →
      1000 ≤ s.fw.trialRuns → dirRoom s = true → ∃ u, exec (.trialCommit t) s = .next u ∧ (bootDir u).trial = 0 ∧
        (bootDir u).started = false ∧ (bootDir u).fwSlot = (bootDir s).fwSlot ∧
        (bootDir u).ldrSlot = (bootDir s).ldrSlot ∧
        s.sec.rollback.1 ≤ u.sec.rollback.1 ∧ s.sec.rollback.2 ≤ u.sec.rollback.2)

/-! ## Management -/

/-- R5, R60, R315, R322, R323, R332, R445, R449, R471, R475, R476, R478: what each management command does where it
is taken, and its answer; one that acts at a commit is held for it. -/
def Obligations.ManagementCommandsAct : Prop :=
  ∀ (s : State) (c : MgmtCmd), s.pwr.off = false →
    (∀ off n, takes s c (.readRegs off n) = true → off % 8 = 0 → n % 8 = 0 → n ≤ 4000 →
      ∃ u body, exec (.readRegs c off n) s = .next u ∧ responded c .ok body u ∧ body.length = n / 8 ∧
        (off ≤ 0x10030 → 0x10030 < off + n → u.time.latch = (s.at c.stamp).time.now.tick) ∧
        (c.transport ≠ .mirror → ¬(off ≤ 0x10030 ∧ 0x10030 < off + n) →
          body = (List.range (n / 8)).map (fun i => readReg (s.at c.stamp) (off + 8 * i)))) ∧
    (∀ off n, takes s c (.readRegs off n) = true → off % 8 ≠ 0 ∨ n % 8 ≠ 0 ∨ 4000 < n →
      ∃ u, exec (.readRegs c off n) s = .next u ∧ responded c .badDescriptor [] u) ∧
    (∀ q, takes s c (.readLog q) = true → ∃ u, exec (.readLog c q) s = .next u ∧
      responded c .ok (((s.fault.pers.filter (fun e => seqFrom q e.seq)).take 63).map logBits) u) ∧
    (∀ q, takes s c (.readMeter q) = true → ∃ u, exec (.readMeter c q) s = .next u ∧
      responded c .ok (((s.mgmt.meter.filter (fun r => seqFrom q r.seq)).take 63).map meterBits) u) ∧
    (∀ e m, stagedFor s e = some m →
      (∀ r, takes s c (.stageBench e r) = true → benchRecordOk s r = true →
        ∃ u, exec (.stageBench c e r) s = .next u ∧ responded c .ok [] u ∧ u.fab.staged = some (e, { m with
          benches := if noSlices r then tdel m.benches (fieldOf r 3 0) else tput m.benches (fieldOf r 3 0) r })) ∧
      (∀ first es, takes s c (.stageRoute e first es) = true → es.length ≤ 500 → first + es.length ≤ 4096 →
        es.all (routeOk s) = true →
        ∃ u, exec (.stageRoute c e first es) s = .next u ∧ responded c .ok [] u ∧ u.fab.staged = some (e, { m with
          routes := (es.zipIdx).foldl (fun t x => tput t (first + x.2) x.1) m.routes })) ∧
      (∀ x, takes s c (.stageExport e x) = true → regionOk s x m = true →
        ∃ u, exec (.stageExport c e x) s = .next u ∧ responded c .ok [] u ∧ u.fab.staged = some (e, { m with
          exports := if zeroAt x 191 128 then tdel m.exports (fieldOf x 7 0) else tput m.exports (fieldOf x 7 0) x })) ∧
      (∀ l, takes s c (.stageRackmap e l) = true → l.length = 32 →
        ∃ u, exec (.stageRackmap c e l) s = .next u ∧ responded c .ok [] u ∧ u.fab.staged = some (e, { m with
          rackmap := (l.zipIdx).foldl (fun t x => tput t x.2 x.1) [] })) ∧
      (∀ b dst db, takes s c (.stageEvac e b dst db) = true → b < 16 → db < 16 →
        ∃ u, exec (.stageEvac c e b dst db) s = .next u ∧ responded c .ok [] u ∧
          u.fab.staged = some (e, { m with evac := tput m.evac b (dst, db) }))) ∧
    (∀ e r, stagedFor s e = none → takes s c (.stageBench e r) = true →
      ∃ u, exec (.stageBench c e r) s = .next u ∧ responded c .epochStale [] u ∧ u.fab = s.fab) ∧
    (∀ e m, takes s c (.discardStage e) = true → s.fab.sealSet = none → s.fab.staged = some (e, m) →
      ∃ u, exec (.discardStage c e) s = .next u ∧ responded c .ok [] u ∧ u.fab = { s.fab with staged := none }) ∧
    (∀ b req key, takes s c (.setSigPolicy b req key) = true → b < 16 →
      (s.bar.lock = false → ∃ u, exec (.setSigPolicy c b req key) s = .next u ∧ responded c .ok [] u ∧
        regVal u (bn b 0x0C0) = BitVec.ofNat 64 (boolBit req) ∧
        ∀ i, i < 4 → regVal u (bn b (0x0C8 + 8 * i)) = BitVec.ofNat 64 (fieldOf key (64 * i + 63) (64 * i))) ∧
      (s.bar.lock = true → ∃ u, exec (.setSigPolicy c b req key) s = .next u ∧ responded c .badDescriptor [] u ∧
        u.bar.inForce = s.bar.inForce)) ∧
    (∀ row op, takes s c op = true → inKeep s = false →
      (∃ e k, row = .sealEpoch c e k ∧ op = .sealEpoch e k) ∨ (∃ x, row = .clearQuarantine c x ∧ op = .clearQuarantine x) ∨
        (∃ b, row = .keyErase c b ∧ op = .keyErase b) →
      ∃ u, exec row s = .next u ∧ u.mgmt.held = s.mgmt.held ++ [(c, op)]) ∧
    (∀ x n, let u := mgmtCommit s c n (.clearQuarantine x)
      (x.kind ≠ .link ∨ linkPresent s x.index = true →
        responded c .ok [] u ∧ recordOf u x = [] ∧ x ∉ u.fault.retired ∧ ∀ l ∈ u.fault.losses, l.unit ≠ x) ∧
      (x.kind = .link → linkPresent s x.index = false → responded c .badDescriptor [] u ∧ u.fault = s.fault)) ∧
    (takes s c (.reset false) = true → coldRunning s = false →
      ∃ u, exec (.mgResetWarm c) s = .next u ∧ warmLeft (s.at c.stamp) u ∧ responded c .ok [] u) ∧
    (takes s c (.reset true) = true → ∃ u, exec (.mgResetCold c) s = .next u ∧ coldLeft s u ∧ responded c .ok [] u) ∧
    (takes s c .keepEnter = true → inKeep s = false →
      ∃ u, exec (.keepEnter c) s = .next u ∧ responded c .ok [] u ∧ u.fault.keep = some (4, (s.at c.stamp).time.now)) ∧
    (takes s c .restEnter = true → ∃ u, exec (.restEnter c) s = .next u ∧
      u.pwr.restReq = s.pwr.restReq ++ [(c.stamp, some c)])

/-- R394 to R398, R470, R477, R479: endpoints keep the number they are assigned; sensors are listed, read, enabled
and looked at; a firmware update goes through its steps, an image that passes its checks is written into the
slot not in use, and an activation puts it on trial, without a reset where its image allows. How much data is
asked for at once is the device's own, a free value. -/
def Obligations.EndpointsSensorsAndUpdates : Prop :=
  ∀ (s : State) (t : Stamp) (x : Transport), s.pwr.off = false →
    (∀ eid, sideTakes s x (.mctp 1 eid) = true → ∃ u, exec (.mctpControl t x 1 eid) s = .next u ∧
      tget u.mgmt.eids (transportNum x) = some eid ∧ .side x (.mctp 1 eid) .ok [eid] ∈ u.out) ∧
    (∀ k n, sideTakes s x (.getPdr k) = true → (sensorList s)[k - 1]? = some n →
      ∃ u, exec (.getPdr t x k) s = .next u ∧ .side x (.getPdr k) .ok [n] ∈ u.out) ∧
    (sideTakes s x .pdrInfo = true → ∃ u, exec (.getPdrRepositoryInfo t x) s = .next u ∧
      .side x .pdrInfo .ok [(sensorList s).length] ∈ u.out) ∧
    (∀ n, sideTakes s x (.sensorReading n) = true → numericSensor s n = true → n ∉ s.mgmt.disabled →
      ∃ u, exec (.getSensorReading t x n) s = .next u ∧
        .side x (.sensorReading n) .ok [n, 0, ((tget s.mgmt.sensors n).getD 0 % 2 ^ 32).toNat] ∈ u.out) ∧
    (∀ n, sideTakes s x (.stateReading n) = true → stateSensor n = true →
      ∃ u, exec (.getStateSensorReadings t x n) s = .next u ∧ .side x (.stateReading n) .ok [n, (stateOf s n).toNat] ∈ u.out) ∧
    (∀ n on, sideTakes s x (.sensorEnable n on) = true → numericSensor s n = true →
      ∃ u, exec (.setNumericSensorEnable t x n on) s = .next u ∧ (n ∈ u.mgmt.disabled ↔ on = false) ∧
        ∀ m, m ≠ n → (m ∈ u.mgmt.disabled ↔ m ∈ s.mgmt.disabled)) ∧
    (∀ eid, sideTakes s x (.eventReceiver eid) = true →
      ∃ u, exec (.setEventReceiver t x eid) s = .next u ∧ u.mgmt.receiver = some (x, eid)) ∧
    (∀ l n v, numericSensor s n = true → ∃ u, exec (.sensorUpdate t (l ++ [(n, v)])) s = .next u ∧
      tget u.mgmt.sensors n = some v ∧ ∀ m, stateSensor m = true → tget u.mgmt.sensors m = some (stateOf s m)) ∧
    (sideTakes s x .queryIds = true → ∃ u, exec (.queryDeviceIdentifiers t x) s = .next u ∧
      .side x .queryIds .ok [0x1F9A, if s.stock = .mx then 0x6400 else 0x6401] ∈ u.out) ∧
    (sideTakes s x .fwParams = true → ∃ u, exec (.getFirmwareParameters t x) s = .next u ∧
      .side x .fwParams .ok ((1 :: imageInfo (imageInUse s 1) ++ imageInfo (tget s.fw.slots (otherSlot s 1))) ++
        (2 :: imageInfo (imageInUse s 2) ++ imageInfo (tget s.fw.slots (otherSlot s 2)))) ∈ u.out) ∧
    (sideTakes s x .requestUpdate = true → s.mgmt.update = none →
      ((bootDir s).trial = 0 → inKeep s = false →
        ∃ u, exec (.requestUpdate t x) s = .next u ∧ u.mgmt.update = some {}) ∧
      ((bootDir s).trial ≠ 0 → ∃ u, exec (.requestUpdate t x) s = .next u ∧ u.mgmt.update = none ∧
        .side x .requestUpdate .updateNotPossible [] ∈ u.out)) ∧
    (∀ p, s.mgmt.update = some p →
      (∀ l, sideTakes s x (.passTable l) = true → l.all isComponent = true →
        ∃ u, exec (.passComponentTable t x l) s = .next u ∧ u.mgmt.update = some { p with comps := l }) ∧
      (∀ k n, sideTakes s x (.updateComp k n) = true → isComponent k = true → k ∈ p.comps → 0 < n →
        ∃ u, exec (.updateComponent t x k n) s = .next u ∧
          u.mgmt.update = some { comps := p.comps, comp := k, size := n } ∧ u.fresh = s.fresh + 1) ∧
      (∀ off len i, sideTakes s x (.fwData off len i) = true → isComponent p.comp = true → p.verified = false →
        off = p.got → 0 < len →
        (off + len < p.size → ∃ u, exec (.firmwareData t x off len i) s = .next u ∧
          u.mgmt.update = some { p with got := off + len }) ∧
        (∀ im, off + len = p.size → i = some im → updateOk s p.comp im = true →
          ∃ u, exec (.firmwareData t x off len i) s = .next u ∧ tget u.fw.slots (otherSlot s p.comp) = some im ∧
            u.mgmt.update = some { p with got := off + len, image := some im, verified := true }) ∧
        (∀ im, off + len = p.size → i = some im → updateOk s p.comp im = false →
          ∃ u, exec (.firmwareData t x off len i) s = .next u ∧ u.fw.slots = s.fw.slots ∧
            .fd x (.verifyComplete false) ∈ u.out)) ∧
      (∀ im, sideTakes s x .activate = true → p.image = some im →
        (p.comp = 2 → bitOf im.hdr 40 = false → fwRuns s = true →
          ∃ u, exec (.activateFirmware t x) s = .next u ∧ u.fw.hitlessWait = true ∧ u.mgmt.update = none ∧
            bootDir u = bootDir s) ∧
        (p.comp = 2 → bitOf im.hdr 40 = true → dirRoom s = true →
          ∃ u, exec (.activateFirmware t x) s = .next u ∧ (bootDir u).trial = 2 ∧ (bootDir u).started = false ∧
            (bootDir u).fwSlot = 1 - (bootDir s).fwSlot ∧ u.mgmt.update = none)) ∧
      (sideTakes s x .updateStatus = true → ∃ u, exec (.getStatus t x) s = .next u ∧
        .side x .updateStatus .ok [1, p.comp, p.got, p.size, boolBit p.verified] ∈ u.out) ∧
      (sideTakes s x .cancelComp = true → ∃ u, exec (.cancelUpdateComponent t x) s = .next u ∧
        u.mgmt.update = some { comps := p.comps }) ∧
      (sideTakes s x .cancelUpdate = true → ∃ u, exec (.cancelUpdate t x) s = .next u ∧ u.mgmt.update = none))

/-- R436 to R439, R446: SPDM makes its connection version first, capabilities next, algorithms last, selecting those
of R437 among the offers; digests, portions of the chain of R436, challenges and measurements are answered on
it, each signed by the firmware alias key; sessions, four at most, are opened, finished, rekeyed and ended;
IDE_KM starts a stream with its keys; during a control restart every request is answered Busy. How a number
stands in an answer and under a signature is the model's choice (log entry 138). -/
def Obligations.SessionsAreOpenedAndKeyed : Prop :=
  (∀ (s : State) (t : Stamp) (x : Transport), s.pwr.off = false → s.fw.stage = .restart →
    sideTakes s x .getVersion = true → ∃ u, exec (.getVersion t x) s = .next u ∧ u.sec = s.sec ∧
      .side x .getVersion .busy [] ∈ u.out) ∧
  ∀ (s : State) (t : Stamp) (x : Transport), s.pwr.off = false → x ≠ .mirror → s.fw.stage ≠ .restart →
    (sideTakes s x .getVersion = true → ∃ u, exec (.getVersion t x) s = .next u ∧ connected u x = 1 ∧
      .side x .getVersion .ok (signed (s, .ok, [1, 1, 3])).2.2 ∈ u.out) ∧
    (sideTakes s x .getCapabilities = true →
      (1 ≤ connected s x → ∃ u, exec (.getCapabilities t x) s = .next u ∧ connected u x = 2) ∧
      (connected s x = 0 → ∃ u, exec (.getCapabilities t x) s = .next u ∧ connected u x = 0 ∧
        .side x .getCapabilities .unexpected (signed (s, .unexpected, [])).2.2 ∈ u.out)) ∧
    (∀ offers, sideTakes s x (.negotiate offers) = true →
      (2 ≤ connected s x → offers.filterMap algNumber ≠ [] →
        ∃ u, exec (.negotiateAlgorithms t x offers) s = .next u ∧ connected u x = 3 ∧
          .side x (.negotiate offers) .ok (signed (s, .ok, 3 :: offers.filterMap algNumber)).2.2 ∈ u.out) ∧
      (offers.filterMap algNumber = [] →
        ∃ u, exec (.negotiateAlgorithms t x offers) s = .next u ∧ connected u x = connected s x ∧
          .side x (.negotiate offers) .unsupported (signed (s, .unsupported, [])).2.2 ∈ u.out)) ∧
    (3 ≤ connected s x →
      (sideTakes s x .getDigests = true → ∃ u, exec (.getDigests t x) s = .next u ∧
        .side x .getDigests .ok (signed (s, .ok, [1, (Config.sha3 (chainBytes s)).toNat])).2.2 ∈ u.out) ∧
      (∀ slot off len, sideTakes s x (.getCertificate slot off len) = true →
        (slot = 0 → off < (chainBytes s).length →
          ∃ u part, exec (.getCertificate t x slot off len) s = .next u ∧ part = ((chainBytes s).drop off).take len ∧
            .side x (.getCertificate slot off len) .ok (signed (s, .ok,
              [0, off, part.length, (chainBytes s).length - off - part.length] ++ part.map (·.toNat))).2.2 ∈ u.out) ∧
        (slot ≠ 0 ∨ (chainBytes s).length ≤ off → ∃ u, exec (.getCertificate t x slot off len) s = .next u ∧
          .side x (.getCertificate slot off len) .invalidRequest (signed (s, .invalidRequest, [])).2.2 ∈ u.out)) ∧
      (∀ nonce, sideTakes s x (.challenge 0 nonce) = true → ∃ u, exec (.challenge t x 0 nonce) s = .next u ∧
        .side x (.challenge 0 nonce) .ok (signed (s, .ok, [nonce, (Config.sha3 (chainBytes s)).toNat] ++
          (Config.drbg s.fresh 32).map (·.toNat))).2.2 ∈ u.out ∧ u.fresh = s.fresh + 1) ∧
      (∀ i, sideTakes s x (.getMeasurements i) = true →
        (∀ v, measurement s i = some v → ∃ u, exec (.getMeasurements t x i) s = .next u ∧
          .side x (.getMeasurements i) .ok (signed (s, .ok, i :: words 4 v)).2.2 ∈ u.out) ∧
        (measurement s i = none → ∃ u, exec (.getMeasurements t x i) s = .next u ∧
          .side x (.getMeasurements i) .invalidRequest (signed (s, .invalidRequest, [])).2.2 ∈ u.out)) ∧
      (sideTakes s x .keyExchange = true →
        (s.sec.sessions.length < 4 →
          ∃ u id, exec (.keyExchange t x) s = .next u ∧ tget s.sec.sessions id = none ∧
            tget u.sec.sessions id = some { transport := x } ∧ .side x .keyExchange .ok (signed (s, .ok, [id])).2.2 ∈ u.out) ∧
        (4 ≤ s.sec.sessions.length → ∃ u, exec (.keyExchange t x) s = .next u ∧ u.sec = s.sec ∧
          .side x .keyExchange .sessionLimit (signed (s, .sessionLimit, [])).2.2 ∈ u.out))) ∧
    (∀ id y, tget s.sec.sessions id = some y →
      (y.finished = false →
        (sideTakes s x (.finish id true) = true → ∃ u, exec (.finish t x id true) s = .next u ∧
          tget u.sec.sessions id = some { y with finished := true }) ∧
        (sideTakes s x (.finish id false) = true → ∃ u, exec (.finish t x id false) s = .next u ∧
          tget u.sec.sessions id = none)) ∧
      (y.finished = true →
        (sideTakes s x (.heartbeat id) = true → ∃ u, exec (.heartbeat t x id) s = .next u ∧ u.sec = s.sec ∧
          .side x (.heartbeat id) .ok (signed (s, .ok, [])).2.2 ∈ u.out) ∧
        (sideTakes s x (.keyUpdate id) = true → ∃ u, exec (.keyUpdate t x id) s = .next u ∧
          tget u.sec.sessions id = some { y with keyGen := y.keyGen + 1 }) ∧
        (sideTakes s x (.endSession id) = true → ∃ u, exec (.endSession t x id) s = .next u ∧
          tget u.sec.sessions id = none) ∧
        (∀ k fns, y.transport = x → k < 8 → sideTakes s x (.ideKm id k fns true) = true →
          ∃ u, exec (.ideKm t id k fns true) s = .next u ∧ tget u.host.ide k = some { fns := fns, secure := true })))

/-! ## Power -/

/-- R454, R457, R458, R460: each protective loop lowers its own tile's clock, or stretches its cycles, while it
acts; a tile held below its floor has its override bit set; a loop that lets go leaves the clock to the floor
when it was the last; a thermal shutdown removes power in every state. -/
def Obligations.ProtectiveLoopsLowerTheirTile : Prop :=
  ∀ (s : State) (t : Stamp) (k : Nat), s.pwr.off = false →
    (k < 8 → ∀ c x mhz,
      (∃ dc, c = .tjThrottle t k dc ∧ x = .tj ∧ mhz = tileMhz s k - 25 ∧ 10 * regF s 0x60040 6 0 ≤ dc) ∨
        (c = .currentLimit t k ∧ x = .current ∧ mhz = tileMhz s k / 2) ∨
        (c = .droop t k ∧ x = .droop ∧ mhz = tileMhz s k) →
      ∃ u, exec c s = .next u ∧ tget u.pwr.clock k = some mhz ∧ (k, x) ∈ u.pwr.loops ∧
        (∀ o ∈ u.pwr.loops, o ∈ s.pwr.loops ∨ o = (k, x)) ∧
        (mhz < floorMhz s k → (k, x) ∈ u.pwr.override ∧
          (k ∈ u.pwr.affected ∨ (List.range 16).any (fun b => onTile s b k) = false))) ∧
    (∀ dc, dc < 10 * regF s 0x60040 6 0 → exec (.tjThrottle t k dc) s = .next (s.at t)) ∧
    (∀ x, ∃ u, exec (.overrideEnd t k x) s = .next u ∧ (k, x) ∉ u.pwr.loops ∧ u.pwr.override = s.pwr.override ∧
      ((∀ o ∈ s.pwr.loops, o.1 = k → o.2 = x) → tget u.pwr.clock k = none) ∧
      (∀ y, y ≠ x → (k, y) ∈ s.pwr.loops → u.pwr.clock = s.pwr.clock)) ∧
    (∃ u, exec (.thermalShutdown t k) s = .next u ∧ u.pwr.off = true ∧ u.pwr.pwrGood = false ∧
      u.pwr.planStable = false ∧ u.fault.prod = (s.fault.prod + 1) % 2 ^ 32)

/-- R462 to R467, R469, R508, R509: a Rest request waits for its commit; Rest, once due, is entered at the next tick
and left at the first sample that meets its condition, in the order the samples are read; a wake completes in
RUN with the plan stable. Coolant flow lost holds a start-up not yet complete, and afterwards enters Keep mode,
after an entry into Rest that is in progress. -/
def Obligations.RestIsEnteredAndLeft : Prop :=
  ∀ (s : State) (t : Stamp), s.pwr.off = false →
    (barReady s = true → s.pwr.state = .run → exec (.restRequest t .pf) s = .next { s.at t with
      pwr := { s.pwr with restReq := s.pwr.restReq ++ [(t, none)] } }) ∧
    (s.pwr.restDue = true → exec (.restEntry t) s = .next { s.at t with
      pwr := { s.pwr with state := .entering, restDue := false, planStable := false } }) ∧
    (s.pwr.restDue = false → exec (.restEntry t) s = .next (s.at t)) ∧
    (s.pwr.state = .entering → inKeep s = false →
      (s.pwr.flowOk = true → s.pwr.latched = none → exec (.restEntryComplete t) s = .next { s.at t with
        pwr := { s.pwr with state := .rest } }) ∧
      (∀ k e, s.pwr.flowOk = true → s.pwr.latched = some (k, e) →
        exec (.restEntryComplete t) s = .next { s.at t with
          pwr := { s.pwr with state := .waking, wakeLog := (k, e, 0), latched := none } }) ∧
      (s.pwr.flowOk = false → s.mgmt.latched = [] → s.mgmt.latchedSide = [] →
        ∃ u, exec (.restEntryComplete t) s = .next u ∧ u.fault.keep = some (3, (s.at t).time.now))) ∧
    (s.pwr.state = .rest → ∀ inlet tj mv,
      let u (k : Nat) : State := { s.at t with
        pwr := { s.pwr with mv := mv, state := .waking, wakeLog := (k, (s.at t).time.now, 0), latched := none } }
      (s.pwr.bellFlag = true → exec (.watchSample t inlet tj mv) s = .next (u 1)) ∧
      (s.pwr.bellFlag = false →
        (s.pwr.linkFlag = true → exec (.watchSample t inlet tj mv) s = .next (u 2)) ∧
        (s.pwr.linkFlag = false →
          (10 * regF s 0x60058 30 24 ≤ inlet → exec (.watchSample t inlet tj mv) s = .next (u 3)) ∧
          (inlet < 10 * regF s 0x60058 30 24 →
            (10 * regF s 0x60058 38 32 ≤ tj → exec (.watchSample t inlet tj mv) s = .next (u 4)) ∧
            (tj < 10 * regF s 0x60058 38 32 →
              (mv < 100 * regF s 0x60058 49 40 ∨ 100 * regF s 0x60058 61 52 < mv →
                exec (.watchSample t inlet tj mv) s = .next (u 5)) ∧
              (100 * regF s 0x60058 49 40 ≤ mv → mv ≤ 100 * regF s 0x60058 61 52 →
                exec (.watchSample t inlet tj mv) s = .next { s.at t with pwr := { s.pwr with mv := mv } })))))) ∧
    (s.pwr.state = .waking → s.mgmt.latched = [] → s.mgmt.latchedSide = [] →
      ∃ u, exec (.wakeComplete t) s = .next u ∧ u.pwr.state = .run ∧ u.pwr.planStable = true ∧ u.pwr.bellFlag = false ∧
        u.pwr.linkFlag = false) ∧
    (s.pwr.pwrGood = true → inKeep s = false →
      (s.pwr.wasStable = false → s.mgmt.latched = [] → s.mgmt.latchedSide = [] →
        ∃ u, exec (.flowLoss t) s = .next u ∧ u.pwr.held = true ∧ u.pwr.flowOk = false ∧ u.fault.keep = none) ∧
      (s.pwr.wasStable = true → s.pwr.state ≠ .entering → s.mgmt.latched = [] → s.mgmt.latchedSide = [] →
        ∃ u, exec (.flowLoss t) s = .next u ∧ u.fault.keep = some (3, (s.at t).time.now) ∧ u.pwr.flowOk = false) ∧
      (s.pwr.wasStable = true → s.pwr.state = .entering →
        ∃ u, exec (.flowLoss t) s = .next u ∧ u.fault.keep = none ∧ u.pwr.flowOk = false ∧ u.pwr.state = .entering)) ∧
    exec (.flowRestore t) s = .next { s.at t with pwr := { s.pwr with flowOk := true, held := false } }

/-! ## Reset -/

/-- R28, R31, R215, R264, R333, R360, R386, R400, R430, R450, R468, R492: at reset the tick counter stands at (0, 0)
and is UNSYNC, nothing waits, no window generation, counter or link is listed, and the fields of these rules
hold the reset values the rules give them. -/
def Obligations.ResetHoldsTheSpecsValues : Prop :=
  let s := State.reset
  s.time.now = ⟨0, 0⟩ ∧ s.time.sync = .unsync ∧ s.pending = [] ∧ s.out = [] ∧ s.bar.lock = false ∧ s.bar.live = [] ∧
    s.win.gens = [] ∧ s.work.reqs = [] ∧ s.work.convs = [] ∧ s.benches = [] ∧ s.fab.mem = [] ∧ s.fault.keep = none ∧
    regF s 0x10000 11 0 = 1000 ∧ backstopPm s = 700 ∧ cutoffPm s = 940 ∧ guardUs s = 100 ∧ regF s 0x10020 7 0 = 0 ∧
    (∀ b, b < 16 → bnF s b 0xA8 14 0 = 2000 ∧ bnF s b 0xA8 19 16 = 3 ∧ regVal s (bn b 0x090) = 0 ∧
      regVal s (bn b 0x0C0) = 0) ∧
    regF s 0x30000 15 0 = 100 ∧ regF s 0x30008 31 0 = 30000 ∧ regF s 0x30008 63 32 = 360000 ∧
    regF s 0x30010 9 0 = 50 ∧ regF s 0x30018 3 0 = 2 ∧ regF s 0x30020 3 0 = 3 ∧ regF s 0x30020 63 32 = 8640000 ∧
    regF s 0x30028 9 0 = 20 ∧ regF s 0x30028 25 16 = 200 ∧ regF s 0x30028 40 32 = 90 ∧ regF s 0x30028 51 48 = 2 ∧
    regF s 0x40010 0 0 = 1 ∧ regF s 0x40010 12 8 = 24 ∧
    [regF s 0x40018 7 0, regF s 0x40018 15 8, regF s 0x40018 23 16, regF s 0x40018 31 24] = [32, 32, 48, 16] ∧
    regF s 0x40020 9 0 = 20 ∧ regF s 0x40020 19 16 = 8 ∧ regF s 0x40028 6 0 = 3 ∧
    regF s 0x50000 63 0 = 0 ∧ regF s 0x50008 20 0 = 0 ∧ regF s 0x50010 13 0 = 100 ∧ regF s 0x50010 19 16 = 7 ∧
    (∀ k, k < 8 → fmaxMhz s k = 1750) ∧ regF s 0x60040 6 0 = 100 ∧
    [regF s 0x60058 16 0, regF s 0x60058 30 24, regF s 0x60058 38 32, regF s 0x60058 49 40, regF s 0x60058 61 52] =
      [1000, 45, 80, 500, 600] ∧
    regF s 0x70000 0 0 = 1 ∧ regF s 0x70000 12 8 = 12 ∧ regF s 0x70008 6 0 = 10 ∧ regF s 0x70008 11 8 = 3 ∧
    regF s 0x70008 19 16 = 3 ∧ regF s 0x70010 1 0 = 2 ∧ regF s 0x80030 0 0 = 0 ∧ regF s 0x80038 31 0 = 0

/-! ## Single rules of the spec -/

/-- R387: cold reset comes before warm and warm before control restart, the lesser one in progress being abandoned;
a second cause of a control restart starts nothing new, and the restart watchdog covers it. -/
def Obligations.TheMostExtensiveRestartWins : Prop :=
  ∀ (s : State) (t : Stamp), s.pwr.off = false →
    (∃ u, exec (.resetN t 10000) s = .next u ∧ coldLeft s u ∧ u.fw.restart = none) ∧
    (∀ mv, mv < 45000 → ∃ u, exec (.inputUndervoltage t mv) s = .next u ∧ coldLeft s u ∧ u.fw.restart = none) ∧
    (coldRunning s = true → exec (.perst t) s = .next { s.at t with fw := { s.fw with perstLow := true } } ∧
      (barReady s = true → s.pwr.state ≠ .rest → exec (.pwResetCtrlWarm t .pf) s = .next (s.at t))) ∧
    (coldRunning s = false → s.fw.resetLow = false →
      ∃ u, exec (.perst t) s = .next u ∧ warmLeft (s.at t) u ∧ u.fw.restart = none) ∧
    (restarting s = true →
      (∀ k, exec (.coreWatchdog t k) s = .next (s.at t) ∧ exec (.coreException t k) s = .next (s.at t)) ∧
      exec (.planWatchdog t) s = .next (s.at t) ∧
      (∀ b k st n, s.fw.restart = some (k, st, n) → n < 2 → ∃ u, exec (.restartWatchdog t b) s = .next u ∧
        (u.fw.restart = some (4, (s.at t).time.now, 2) ∨ u.fault.keep = some (2, (s.at t).time.now) ∨
          (s.sec.genuine = false ∧ u.fault.keep = some (1, (s.at t).time.now)) ∨ inKeep s = true)))

/-- R413: an entry of severity MAJOR or CRITICAL signals the error vector and is sent as an event on the management
path; an entry of severity INFO or MINOR signals nothing. Every entry goes into the volatile log with the next
sequence number. -/
def Obligations.GraveEntriesSignal : Prop :=
  ∀ (s : State) (x : LogEntry),
    let e : LogEntry := { x with seq := s.fault.prod, stamp := s.time.now, severity := severity x.cls x.cause }
    let u := logEntry s x
    u.fault.prod = (s.fault.prod + 1) % 2 ^ 32 ∧ e ∈ u.fault.vol ∧
    (2 ≤ e.severity → u.out = (errVector s).out ++ [.mgmtEvent e]) ∧ (e.severity < 2 → u.out = s.out)

/-- R516: RESET_N low for 10 µs or more is a cold reset, and the module stays in reset, its start-up going no
further, until the signal rises; a pulse shorter than 1 µs is ignored, one of 1 µs to 10 µs is forbidden, and
with PERST# low as well the cold reset governs. -/
def Obligations.ResetNHoldsTheModule : Prop :=
  ∀ (s : State) (t : Stamp) (n : Nat),
    (n < 1000 → exec (.resetN t n) s = .next (s.at t)) ∧
    (1000 ≤ n → n < 10000 → exec (.resetN t n) s = .fault .forbiddenInput) ∧
    (10000 ≤ n → ∃ u, exec (.resetN t n) s = .next u ∧ coldLeft s u ∧ u.fw.resetLow = true ∧
      u.fw.perstLow = s.fw.perstLow) ∧
    (s.fw.resetLow = true → s.pwr.off = false →
      (∀ r a b, exec (.startUpRowDone t r a b) s = .next (s.at t)) ∧ exec (.bootWatchdog t) s = .next (s.at t) ∧
      exec (.perst t) s = .next { s.at t with fw := { s.fw with perstLow := true } }) ∧
    exec (.resetNRelease t) s = .next { s.at t with fw := { s.fw with resetLow := false } }

/-- R527: a MODEL_UNLOAD completes by its bench's state at its commit: at once on an EMPTY bench; with the cancelled
load's model_tag on a LOADING one, whose load completes cancelled; when the drained bench is EMPTY on a READY
one, and with the one under way on a bench that is DRAINING or UNLOADING, where a replacing load is cancelled;
refused on a HALTED one. -/
def Obligations.UnloadsCompleteByBenchState : Prop :=
  ∀ (s : State) (d : HostDesc) (c : Cpl) (n b : Nat), b = c.bench → hasRecord s b = true → zeroAt d.raw 511 272 = true →
    zeroAt d.raw 255 64 = true → zeroAt d.raw 31 20 = true → zeroAt d.raw 15 11 = true → bitOf d.raw 8 = false →
    fieldOf d.raw 10 9 ≠ 3 →
    ((bench s b).state = .empty → applyUnload c d n s = due s c .ok 0 n) ∧
    ((bench s b).state = .halted → applyUnload c d n s = due s c .benchHalted 0 n) ∧
    (∀ l, (bench s b).state = .loading → (bench s b).load = some l →
      (bench (applyUnload c d n s) b).state = .empty ∧ (bench (applyUnload c d n s) b).load = none ∧
        (applyUnload c d n s).host.due = s.host.due ++ [{ cpl := l.cpl, status := .cancelled, result := l.modelTag, tick := n },
          { cpl := c, status := .ok, result := l.modelTag, tick := n }]) ∧
    ((bench s b).state = .ready → applyUnload c d n s = setBench s b (fun x => { x with
      state := .draining, unloads := [c], drain := some (drainOf d n) })) ∧
    ((bench s b).state = .draining ∨ (bench s b).state = .unloading →
      (bench (applyUnload c d n s) b).state = (bench s b).state ∧
        (bench (applyUnload c d n s) b).drain = (bench s b).drain ∧ (bench (applyUnload c d n s) b).replacing = none ∧
        (bench (applyUnload c d n s) b).unloads = (bench s b).unloads ++ [c] ∧
        (applyUnload c d n s).host.due = s.host.due ++ (match (bench s b).replacing with
          | some l => [{ cpl := l.cpl, status := .cancelled, result := l.modelTag, tick := n }]
          | none => [])) ∧
    (∀ m, (bench s b).state = .unloading → (bench s b).replacing = none → (bench (releaseDone s b m) b).state = .empty ∧
      (releaseDone s b m).host.due = s.host.due ++ (bench s b).unloads.map (fun c =>
        { cpl := c, status := .ok, result := (bench s b).modelTag, tick := m }))
end

