-- ==== Sys2Proof/Laws/Boot.lean ====
section
/-! SUPPORT. Laws of the boot directory (R393): a copy reads as what was written to it, and a change becomes the copy in
use while its seq has room. -/

namespace Sys2Proof.Machine

theorem crcBit_lt {c : Nat} (h : c < 2 ^ 32) : crcBit c < 2 ^ 32 := by
  unfold crcBit
  split
  · exact Nat.xor_lt_two_pow (by omega) (by decide)
  · omega

theorem crcByte_lt {c b : Nat} (hc : c < 2 ^ 32) (hb : b < 2 ^ 32) : crcByte c b < 2 ^ 32 := by
  unfold crcByte
  iterate 8 refine crcBit_lt ?_
  exact Nat.xor_lt_two_pow hc hb

/-- A crc has 32 bits. -/
theorem crcOf_lt (n v : Nat) : crcOf n v < 2 ^ 32 := by
  have h : ∀ (l : List Byte) (c : Nat), c < 2 ^ 32 → (l.map (·.toNat)).foldl crcByte c < 2 ^ 32 := by
    intro l
    induction l with
    | nil => exact fun _ hc => hc
    | cons a l ih => exact fun c hc => ih _ (crcByte_lt hc (Nat.lt_trans a.isLt (by decide)))
  exact Nat.xor_lt_two_pow (h _ _ (by decide)) (by decide)

/-- The fields of a copy, read off the number its bits make. -/
theorem dirFields {k v l f t b q : Nat} (hl : l < 2) (hf : f < 2) (ht : t < 4) (hb : b < 2) (hq : q < 2 ^ 64)
    (hv : 0x4452 + l * 2 ^ 16 + f * 2 ^ 17 + t * 2 ^ 18 + b * 2 ^ 20 + q * 2 ^ 32 = v) :
    v < 2 ^ 96 ∧ (v + k * 2 ^ 96) % 2 ^ 16 = 0x4452 ∧ (v + k * 2 ^ 96) / 2 ^ 16 % 2 = l ∧
      (v + k * 2 ^ 96) / 2 ^ 17 % 2 = f ∧ (v + k * 2 ^ 96) / 2 ^ 18 % 4 = t ∧ (v + k * 2 ^ 96) / 2 ^ 20 % 2 = b ∧
      (v + k * 2 ^ 96) / 2 ^ 32 % 2 ^ 64 = q ∧ (v + k * 2 ^ 96) / 2 ^ 96 = k := by
  subst hv
  refine ⟨?_, ?_, ?_, ?_, ?_, ?_, ?_, ?_⟩ <;> omega

/-- A copy as the number its bits make. -/
theorem dirBits_toNat {d : BootDir} {v : Nat} (h1 : d.seq < 2 ^ 64) (h2 : d.trial < 3) (h3 : d.fwSlot < 2)
    (h4 : d.ldrSlot < 2) (hv : 0x4452 + d.ldrSlot * 2 ^ 16 + d.fwSlot * 2 ^ 17 + d.trial * 2 ^ 18 + d.started.toNat * 2 ^ 20 +
      d.seq * 2 ^ 32 = v) : (dirBits d).toNat = v + crcOf 64 v * 2 ^ 96 := by
  have hw : 0x4452 + d.ldrSlot % 2 * 2 ^ 16 + d.fwSlot % 2 * 2 ^ 17 + d.trial % 4 * 2 ^ 18 +
      (if d.started then 2 ^ 20 else 0) + d.seq % 2 ^ 64 * 2 ^ 32 = v := by
    rw [← hv, Nat.mod_eq_of_lt h4, Nat.mod_eq_of_lt h3, Nat.mod_eq_of_lt (show d.trial < 4 by omega), Nat.mod_eq_of_lt h1]
    cases d.started <;> rfl
  have hlt := (dirFields (k := 0) h4 h3 (show d.trial < 4 by omega) d.started.toNat_lt h1 hv).1
  have hc := crcOf_lt 64 v
  unfold dirBits
  rw [hw, BitVec.toNat_ofNat, Nat.mod_eq_of_lt]
  omega

/-- A copy written reads as what was written (R393). -/
theorem readDir_dirBits {d : BootDir} (h1 : d.seq < 2 ^ 64) (h2 : d.trial < 3) (h3 : d.fwSlot < 2) (h4 : d.ldrSlot < 2) :
    readDir (dirBits d) = some d := by
  obtain ⟨v, hv⟩ : ∃ v, 0x4452 + d.ldrSlot * 2 ^ 16 + d.fwSlot * 2 ^ 17 + d.trial * 2 ^ 18 + d.started.toNat * 2 ^ 20 +
    d.seq * 2 ^ 32 = v := ⟨_, rfl⟩
  have hn := dirBits_toNat h1 h2 h3 h4 hv
  obtain ⟨-, a1, a2, a3, a4, a5, a6, a7⟩ :=
    dirFields (k := crcOf 64 v) h4 h3 (show d.trial < 4 by omega) d.started.toNat_lt h1 hv
  have b1 : fieldOf (dirBits d) 15 0 = 0x4452 := by simp only [fieldOf, hn]; exact a1
  have b2 : fieldOf (dirBits d) 16 16 = d.ldrSlot := by simp only [fieldOf, hn, Nat.shiftRight_eq_div_pow]; exact a2
  have b3 : fieldOf (dirBits d) 17 17 = d.fwSlot := by simp only [fieldOf, hn, Nat.shiftRight_eq_div_pow]; exact a3
  have b4 : fieldOf (dirBits d) 19 18 = d.trial := by simp only [fieldOf, hn, Nat.shiftRight_eq_div_pow]; exact a4
  have b5 : bitOf (dirBits d) 20 = d.started := by
    simp only [bitOf, hn, Nat.testBit_eq_decide_div_mod_eq, a5]
    cases d.started <;> rfl
  have b6 : fieldOf (dirBits d) 95 32 = d.seq := by simp only [fieldOf, hn, Nat.shiftRight_eq_div_pow]; exact a6
  have b7 : fieldOf (dirBits d) 127 96 = crcOf 64 v := by
    simp only [fieldOf, hn, Nat.shiftRight_eq_div_pow, a7]
    exact Nat.mod_eq_of_lt (crcOf_lt 64 v)
  unfold readDir
  rw [b1, b2, b3, b4, b5, b6, b7, hn, Nat.add_sub_cancel]
  exact if_pos ⟨rfl, by omega, rfl⟩

/-- The copy in use is within its fields. -/
theorem bootDir_bounds (s : State) : (bootDir s).trial < 3 ∧ (bootDir s).fwSlot < 2 ∧ (bootDir s).ldrSlot < 2 := by
  have h : ∀ c : BitVec 512, ∀ d, readDir c = some d → d.trial < 3 ∧ d.fwSlot < 2 ∧ d.ldrSlot < 2 := by
    intro c d hd
    unfold readDir at hd
    split at hd
    · rename_i hc
      have ht : fieldOf c 19 18 < 4 := Nat.mod_lt _ (by decide)
      cases hd
      refine ⟨?_, Nat.mod_lt _ (by decide), Nat.mod_lt _ (by decide)⟩
      have := hc.2.1
      simp only
      omega
    · cases hd
  unfold bootDir
  split <;> (rename_i c; cases hr : readDir _ with
    | none => exact ⟨by decide, by decide, by decide⟩
    | some d => exact h _ d hr)

/-- The directory in use after a copy with a higher seq is written over the one not in use. -/
theorem bootDir_newer {s : State} {c : BitVec 512} {d : BootDir} (hr : readDir c = some d) (hq : (bootDir s).seq < d.seq) :
    bootDir (if usesCopy1 s then { s with fw := { s.fw with dir0 := c } } else { s with fw := { s.fw with dir1 := c } }) = d := by
  cases hu : usesCopy1 s with
  | true =>
    have hb : bootDir s = (readDir s.fw.dir1).getD {} := by unfold bootDir; rw [if_pos hu]
    generalize bootDir s = x at hq hb
    simp only [if_true]
    unfold bootDir usesCopy1
    simp only [hr]
    cases h1 : readDir s.fw.dir1 with
    | none => simp only [Bool.false_eq_true, if_false, hr, Option.getD_some]
    | some b =>
      have hs' : ¬d.seq < b.seq := by rw [hb, h1, Option.getD_some] at hq; omega
      simp only [hs', decide_false, Bool.false_eq_true, if_false, hr, Option.getD_some]
  | false =>
    have hb : bootDir s = (readDir s.fw.dir0).getD {} := by unfold bootDir; rw [if_neg (by simp [hu])]
    generalize bootDir s = x at hq hb
    simp only [Bool.false_eq_true, if_false]
    unfold bootDir usesCopy1
    simp only [hr]
    cases h1 : readDir s.fw.dir0 with
    | none => simp only [if_true, hr, Option.getD_some]
    | some a =>
      have hs' : a.seq < d.seq := by rw [hb, h1, Option.getD_some] at hq; exact hq
      simp only [hs', decide_true, if_true, hr, Option.getD_some]

/-- A change becomes the directory in use while its seq has room (R393). -/
theorem bootDir_putDir {s : State} {f : BootDir → BootDir} (hs : (bootDir s).seq + 1 < 2 ^ 64)
    (h : (f (bootDir s)).trial < 3 ∧ (f (bootDir s)).fwSlot < 2 ∧ (f (bootDir s)).ldrSlot < 2) :
    bootDir (putDir s f) = { f (bootDir s) with seq := (bootDir s).seq + 1 } :=
  bootDir_newer (readDir_dirBits hs h.1 h.2.1 h.2.2) (Nat.lt_succ_self _)

end Sys2Proof.Machine
end

