-- ==== Sys2Proof/Laws/Tables.lean ====
section
/-! SUPPORT. Laws of tables and of the export memory: a read after a write, what a write leaves alone, and the
canonical form every write keeps. -/

namespace Sys2Proof.Machine

/-! ## Tables -/

theorem tget_tput {α : Type} (t : Table α) (n m : Nat) (x : α) :
    tget (tput t n x) m = if n = m then some x else tget t m := by
  induction t with
  | nil => simp [tput, tget]
  | cons a t ih =>
    obtain ⟨k, v⟩ := a
    simp only [tput]
    split
    · simp [tget]
    · split
      · rename_i h
        subst h
        simp only [tget]
        split <;> simp_all
      · simp only [tget, ih]
        split <;> split <;> simp_all

@[simp] theorem tget_tput_self {α : Type} (t : Table α) (n : Nat) (x : α) : tget (tput t n x) n = some x := by
  simp [tget_tput]

theorem tget_tput_other {α : Type} (t : Table α) {n m : Nat} (x : α) (h : n ≠ m) : tget (tput t n x) m = tget t m := by
  simp [tget_tput, h]

@[simp] theorem tgetD_tput_self {α : Type} [Inhabited α] (t : Table α) (n : Nat) (x : α) : tgetD (tput t n x) n = x := by
  simp [tgetD]

theorem tgetD_tput_other {α : Type} [Inhabited α] (t : Table α) {n m : Nat} (x : α) (h : n ≠ m) :
    tgetD (tput t n x) m = tgetD t m := by
  simp [tgetD, tget_tput_other t x h]

theorem tget_tdel {α : Type} (t : Table α) (n m : Nat) : tget (tdel t n) m = if n = m then none else tget t m := by
  induction t with
  | nil => simp [tdel, tget]
  | cons a t ih =>
    obtain ⟨k, v⟩ := a
    simp only [tdel, List.filter_cons] at ih ⊢
    by_cases h : k = n
    · subst h
      simp only [beq_self_eq_true, Bool.not_true, Bool.false_eq_true, if_false, ih, tget]
      split <;> simp_all
    · simp only [beq_eq_false_iff_ne.mpr h, Bool.not_false, if_true, tget, ih]
      split <;> split <;> simp_all

@[simp] theorem tget_tdel_self {α : Type} (t : Table α) (n : Nat) : tget (tdel t n) n = none := by simp [tget_tdel]

theorem tget_tdel_other {α : Type} (t : Table α) {n m : Nat} (h : n ≠ m) : tget (tdel t n) m = tget t m := by
  simp [tget_tdel, h]

theorem tget_tmod {α : Type} (t : Table α) (n m : Nat) (f : α → α) :
    tget (tmod t n f) m = if n = m then (tget t n).map f else tget t m := by
  unfold tmod
  cases h : tget t n with
  | some x => simp [tget_tput]
  | none =>
    by_cases e : n = m
    · subst e
      simp [h]
    · simp [e]

theorem tableWf_cons {α : Type} {a : Nat × α} {t : Table α} :
    tableWf (a :: t) = true ↔ (∀ x ∈ t, a.1 < x.1) ∧ tableWf t = true := by
  induction t generalizing a with
  | nil => simp [tableWf]
  | cons b t ih =>
    simp only [tableWf, Bool.and_eq_true, decide_eq_true_eq]
    constructor
    · rintro ⟨h1, h2⟩
      refine ⟨fun x hx => ?_, h2⟩
      rcases List.mem_cons.mp hx with rfl | hx
      · exact h1
      · exact Nat.lt_trans h1 ((ih.mp h2).1 x hx)
    · rintro ⟨h1, h2⟩
      exact ⟨h1 b (List.mem_cons_self ..), h2⟩

theorem tableWf_filter {α : Type} {p : Nat × α → Bool} {t : Table α} (h : tableWf t = true) :
    tableWf (t.filter p) = true := by
  induction t with
  | nil => exact h
  | cons a t ih =>
    have h2 := tableWf_cons.mp h
    rw [List.filter_cons]
    split
    · exact tableWf_cons.mpr ⟨fun x hx => h2.1 x (List.mem_filter.mp hx).1, ih h2.2⟩
    · exact ih h2.2

theorem mem_tput {α : Type} {t : Table α} {n : Nat} {x : α} {y : Nat × α} (h : y ∈ tput t n x) : y = (n, x) ∨ y ∈ t := by
  induction t with
  | nil => simpa [tput] using h
  | cons a t ih =>
    unfold tput at h
    split at h
    · simpa using h
    · split at h
      · rcases List.mem_cons.mp h with h | h
        · exact .inl h
        · exact .inr (List.mem_cons_of_mem _ h)
      · rcases List.mem_cons.mp h with h | h
        · exact .inr (h ▸ List.mem_cons_self ..)
        · rcases ih h with h | h
          · exact .inl h
          · exact .inr (List.mem_cons_of_mem _ h)

theorem tableWf_tput {α : Type} {t : Table α} {n : Nat} {x : α} (h : tableWf t = true) :
    tableWf (tput t n x) = true := by
  induction t with
  | nil => rfl
  | cons a t ih =>
    have h2 := tableWf_cons.mp h
    unfold tput
    split
    · rename_i hlt
      refine tableWf_cons.mpr ⟨fun y hy => ?_, h⟩
      rcases List.mem_cons.mp hy with rfl | hy
      · exact hlt
      · exact Nat.lt_trans hlt (h2.1 y hy)
    · split
      · rename_i he
        exact tableWf_cons.mpr ⟨fun y hy => by have := h2.1 y hy; simp_all, h2.2⟩
      · rename_i h3 h4
        refine tableWf_cons.mpr ⟨fun y hy => ?_, ih h2.2⟩
        rcases mem_tput hy with rfl | hy
        · simp only; omega
        · exact h2.1 y hy

/-! ## The export memory (R323) -/

theorem memWf_iff {m : List Host.Cell} : memWf m = true ↔ tableWf m = true ∧ ∀ c ∈ m, c.2 ≠ 0 := by
  simp [memWf, List.all_eq_true]

theorem memWf_write {m : List Host.Cell} {a : Nat} {b : Byte} (h : memWf m = true) : memWf (memWrite m a b) = true := by
  have h2 := memWf_iff.mp h
  unfold memWrite
  split
  · exact memWf_iff.mpr ⟨tableWf_filter h2.1, fun c hc => h2.2 c (List.mem_filter.mp hc).1⟩
  · rename_i hb
    refine memWf_iff.mpr ⟨tableWf_tput h2.1, fun c hc => ?_⟩
    rcases mem_tput hc with rfl | hc
    · exact hb
    · exact h2.2 c hc

theorem memWf_writeBytes {m : List Host.Cell} {a : Nat} {bs : List Byte} (h : memWf m = true) :
    memWf (memWriteBytes m a bs) = true := by
  induction bs generalizing m a with
  | nil => exact h
  | cons b bs ih => exact ih (memWf_write h)

theorem memWf_writeMask {m : List Host.Cell} {a k i : Nat} {bs : List Byte} (h : memWf m = true) :
    memWf (memWriteMask m a k i bs) = true := by
  induction bs generalizing m i with
  | nil => exact h
  | cons b bs ih =>
    unfold memWriteMask
    split
    · exact ih (memWf_write h)
    · exact ih h

theorem memWf_clear {m : List Host.Cell} {a n : Nat} (h : memWf m = true) : memWf (memClear m a n) = true := by
  have h2 := memWf_iff.mp h
  exact memWf_iff.mpr ⟨tableWf_filter h2.1, fun c hc => h2.2 c (List.mem_filter.mp hc).1⟩

/-- A byte read after a byte written. -/
theorem memRead_write (m : List Host.Cell) (a c : Nat) (b : Byte) :
    memRead (memWrite m a b) c = if a = c then b else memRead m c := by
  unfold memRead memWrite
  split
  · rename_i h
    rw [tget_tdel]
    split <;> simp_all
  · rw [tget_tput]
    split <;> simp_all

end Sys2Proof.Machine
end

