-- ==== Sys2Proof/Laws/Frames1.lean ====
section
/-! SUPPORT. What a command may change, function by function: the operations, the records and the costs.
`Frame ps r s` says that `s` differs from `r` at most in the parts `ps`, and keeps the queue, the stock code and the
canonical form of export memory. Each lemma carries a frame through one function of the model. -/

namespace Sys2Proof.Machine

section

set_option Elab.async false
set_option linter.all false

structure Frame (pm : List Part) (r s : State) : Prop where
  pending : s.pending = r.pending
  stock : s.stock = r.stock
  mem : memWf r.fab.mem = true → memWf s.fab.mem = true
  parts : ∀ p, p ∉ pm → samePart p r s

structure FrameOpt (pm : List Part) (r : State) (o : Option State) : Prop where
  kept : ∀ s, o = some s → Frame pm r s

structure FrameOut (pm : List Part) (r : State) (o : Host.Outcome State Fault Refusal) : Prop where
  kept : ∀ s, o = .next s → Frame pm r s

theorem samePart_refl (p : Part) (s : State) : samePart p s s := by cases p <;> rfl

theorem samePart_trans {p : Part} {r s t : State} (h1 : samePart p r s) (h2 : samePart p s t) : samePart p r t := by
  cases p <;> exact Eq.trans h2 h1

theorem Frame.refl {pm : List Part} (s : State) : Frame pm s s := ⟨rfl, rfl, id, fun p _ => samePart_refl p s⟩

theorem Frame.trans {pm : List Part} {r s t : State} (h1 : Frame pm r s) (h2 : Frame pm s t) : Frame pm r t :=
  ⟨h2.1.trans h1.1, h2.2.trans h1.2, fun h => h2.3 (h1.3 h), fun p hp => samePart_trans (h1.4 p hp) (h2.4 p hp)⟩

theorem Frame.time {pm : List Part} {r s : State} (h : Frame pm r s) (hn : Part.time ∉ pm := by decide) : s.time = r.time := h.4 _ hn

theorem Frame.bar {pm : List Part} {r s : State} (h : Frame pm r s) (hn : Part.bar ∉ pm := by decide) : s.bar = r.bar := h.4 _ hn

theorem Frame.host {pm : List Part} {r s : State} (h : Frame pm r s) (hn : Part.host ∉ pm := by decide) : s.host = r.host := h.4 _ hn

theorem Frame.benches {pm : List Part} {r s : State} (h : Frame pm r s) (hn : Part.benches ∉ pm := by decide) : s.benches = r.benches := h.4 _ hn

theorem Frame.work {pm : List Part} {r s : State} (h : Frame pm r s) (hn : Part.work ∉ pm := by decide) : s.work = r.work := h.4 _ hn

theorem Frame.plan {pm : List Part} {r s : State} (h : Frame pm r s) (hn : Part.plan ∉ pm := by decide) : s.plan = r.plan := h.4 _ hn

theorem Frame.haul {pm : List Part} {r s : State} (h : Frame pm r s) (hn : Part.haul ∉ pm := by decide) : s.haul = r.haul := h.4 _ hn

theorem Frame.tier {pm : List Part} {r s : State} (h : Frame pm r s) (hn : Part.tier ∉ pm := by decide) : s.tier = r.tier := h.4 _ hn

theorem Frame.shards {pm : List Part} {r s : State} (h : Frame pm r s) (hn : Part.shards ∉ pm := by decide) : s.shards = r.shards := h.4 _ hn

theorem Frame.fab {pm : List Part} {r s : State} (h : Frame pm r s) (hn : Part.fab ∉ pm := by decide) : s.fab = r.fab := h.4 _ hn

theorem Frame.win {pm : List Part} {r s : State} (h : Frame pm r s) (hn : Part.win ∉ pm := by decide) : s.win = r.win := h.4 _ hn

theorem Frame.fw {pm : List Part} {r s : State} (h : Frame pm r s) (hn : Part.fw ∉ pm := by decide) : s.fw = r.fw := h.4 _ hn

theorem Frame.fault {pm : List Part} {r s : State} (h : Frame pm r s) (hn : Part.fault ∉ pm := by decide) : s.fault = r.fault := h.4 _ hn

theorem Frame.sec {pm : List Part} {r s : State} (h : Frame pm r s) (hn : Part.sec ∉ pm := by decide) : s.sec = r.sec := h.4 _ hn

theorem Frame.pwr {pm : List Part} {r s : State} (h : Frame pm r s) (hn : Part.pwr ∉ pm := by decide) : s.pwr = r.pwr := h.4 _ hn

theorem Frame.mgmt {pm : List Part} {r s : State} (h : Frame pm r s) (hn : Part.mgmt ∉ pm := by decide) : s.mgmt = r.mgmt := h.4 _ hn

theorem Frame.out {pm : List Part} {r s : State} (h : Frame pm r s) (hn : Part.out ∉ pm := by decide) : s.out = r.out := h.4 _ hn

theorem Frame.spent {pm : List Part} {r s : State} (h : Frame pm r s) (hn : Part.spent ∉ pm := by decide) : s.spent = r.spent := h.4 _ hn

theorem Frame.fresh {pm : List Part} {r s : State} (h : Frame pm r s) (hn : Part.fresh ∉ pm := by decide) : s.fresh = r.fresh := h.4 _ hn

theorem FrameOpt.none {pm : List Part} {r : State} : FrameOpt pm r none := ⟨fun _ h => nomatch h⟩

theorem FrameOpt.some {pm : List Part} {r s : State} (h : Frame pm r s) : FrameOpt pm r (some s) := ⟨fun _ e => Option.some.inj e ▸ h⟩

theorem FrameOut.next {pm : List Part} {r s : State} (h : Frame pm r s) : FrameOut pm r (.next s) := ⟨fun _ e => (Host.Outcome.next.inj e) ▸ h⟩

theorem FrameOut.fault {pm : List Part} {r : State} {f : Fault} : FrameOut pm r (.fault f) := ⟨fun _ e => nomatch e⟩

theorem Frame.ofFst {pm : List Part} {α : Type} {r a : State} {b : α} {p : State × α} (h : Frame pm r p.1) (e : p = (a, b)) : Frame pm r a := by
  subst e; exact h

theorem Frame.ofSnd2 {pm : List Part} {α β : Type} {r a : State} {b : α} {c : β} {p : α × β × State} (h : Frame pm r p.2.2) (e : p = (b, c, a)) : Frame pm r a := by
  subst e; exact h

theorem foldl_frame {pm : List Part} {α : Type} {r : State} {l : List α} {f : State → α → State} {s : State} (h : Frame pm r s)
    (hf : ∀ s x, Frame pm r s → Frame pm r (f s x)) : Frame pm r (l.foldl f s) := by
  induction l generalizing s with
  | nil => exact h
  | cons a l ih => exact ih (hf _ _ h)

theorem foldl_frame_fst {pm : List Part} {α β : Type} {r : State} {l : List α} {f : State × β → α → State × β} {p : State × β} (h : Frame pm r p.1)
    (hf : ∀ p x, Frame pm r p.1 → Frame pm r (f p x).1) : Frame pm r (l.foldl f p).1 := by
  induction l generalizing p with
  | nil => exact h
  | cons a l ih => exact ih (hf _ _ h)

theorem foldl_frame_mem {pm : List Part} {α : Type} {r : State} {l : List α} {f : State → α → State} {s : State} (h : Frame pm r s)
    (hf : ∀ s x, x ∈ l → Frame pm r s → Frame pm r (f s x)) : Frame pm r (l.foldl f s) := by
  induction l generalizing s with
  | nil => exact h
  | cons a l ih => exact ih (hf _ _ (List.mem_cons_self ..) h) (fun s x hx => hf s x (List.mem_cons_of_mem _ hx))

theorem FrameOpt.getD {pm : List Part} {r s : State} {o : Option State} (ho : FrameOpt pm r o) (h : Frame pm r s) : Frame pm r (o.getD s) := by
  cases o with
  | none => exact h
  | some t => exact ho.kept t rfl

theorem Frame.ite {pm : List Part} {r a b : State} {p : Prop} [Decidable p] (ha : Frame pm r a) (hb : Frame pm r b) : Frame pm r (if p then a else b) := by
  split
  · exact ha
  · exact hb

theorem Frame.iteFst {pm : List Part} {α : Type} {r : State} {a b : State × α} {p : Prop} [Decidable p] (ha : Frame pm r a.1) (hb : Frame pm r b.1) :
    Frame pm r (if p then a else b).1 := by
  split
  · exact ha
  · exact hb

theorem FrameOpt.ite {pm : List Part} {r : State} {a b : Option State} {p : Prop} [Decidable p] (ha : FrameOpt pm r a) (hb : FrameOpt pm r b) :
    FrameOpt pm r (if p then a else b) := by
  split
  · exact ha
  · exact hb

theorem FrameOut.ite {pm : List Part} {r : State} {a b : Host.Outcome State Fault Refusal} {p : Prop} [Decidable p] (ha : FrameOut pm r a) (hb : FrameOut pm r b) :
    FrameOut pm r (if p then a else b) := by
  split
  · exact ha
  · exact hb

theorem tput_mem {α : Type} {t : Table α} {n : Nat} {x : α} {y : Nat × α} (h : y ∈ tput t n x) : y = (n, x) ∨ y ∈ t := by
  induction t with
  | nil => simpa [tput] using h
  | cons a t ih =>
    unfold tput at h
    split at h
    · simpa using h
    · split at h
      · rcases List.mem_cons.mp h with h | h
        · exact .inl h
        · exact .inr (List.mem_cons_of_mem _ h)
      · rcases List.mem_cons.mp h with h | h
        · exact .inr (h ▸ List.mem_cons_self ..)
        · rcases ih h with h | h
          · exact .inl h
          · exact .inr (List.mem_cons_of_mem _ h)

theorem Frame.set {pm : List Part} {r s : State} {a1 : TimeSt} {a2 : BarSt} {a3 : HostSt} {a4 : Table Bench} {a5 : WorkSt} {a6 : PlanSt} {a7 : HaulSt} {a8 : TierSt} {a9 : Table Shard} {a10 : FabSt} {a11 : WinSt} {a12 : FwSt} {a13 : FaultSt} {a14 : SecSt} {a15 : PwrSt} {a16 : MgmtSt} {a17 : List Output} {a18 : Table Nat} {a19 : Nat}
    (h : Frame pm r s)
    (h1 : a1 = s.time ∨ Part.time ∈ pm := by first | exact Or.inr (by assumption) | with_reducible exact Or.inl rfl)
    (h2 : a2 = s.bar ∨ Part.bar ∈ pm := by first | exact Or.inr (by assumption) | with_reducible exact Or.inl rfl)
    (h3 : a3 = s.host ∨ Part.host ∈ pm := by first | exact Or.inr (by assumption) | with_reducible exact Or.inl rfl)
    (h4 : a4 = s.benches ∨ Part.benches ∈ pm := by first | exact Or.inr (by assumption) | with_reducible exact Or.inl rfl)
    (h5 : a5 = s.work ∨ Part.work ∈ pm := by first | exact Or.inr (by assumption) | with_reducible exact Or.inl rfl)
    (h6 : a6 = s.plan ∨ Part.plan ∈ pm := by first | exact Or.inr (by assumption) | with_reducible exact Or.inl rfl)
    (h7 : a7 = s.haul ∨ Part.haul ∈ pm := by first | exact Or.inr (by assumption) | with_reducible exact Or.inl rfl)
    (h8 : a8 = s.tier ∨ Part.tier ∈ pm := by first | exact Or.inr (by assumption) | with_reducible exact Or.inl rfl)
    (h9 : a9 = s.shards ∨ Part.shards ∈ pm := by first | exact Or.inr (by assumption) | with_reducible exact Or.inl rfl)
    (h10 : a10 = s.fab ∨ (Part.fab ∈ pm ∧ a10.mem = s.fab.mem) := by first | with_reducible exact Or.inl rfl | with_reducible exact Or.inr ⟨by assumption, rfl⟩)
    (h11 : a11 = s.win ∨ Part.win ∈ pm := by first | exact Or.inr (by assumption) | with_reducible exact Or.inl rfl)
    (h12 : a12 = s.fw ∨ Part.fw ∈ pm := by first | exact Or.inr (by assumption) | with_reducible exact Or.inl rfl)
    (h13 : a13 = s.fault ∨ Part.fault ∈ pm := by first | exact Or.inr (by assumption) | with_reducible exact Or.inl rfl)
    (h14 : a14 = s.sec ∨ Part.sec ∈ pm := by first | exact Or.inr (by assumption) | with_reducible exact Or.inl rfl)
    (h15 : a15 = s.pwr ∨ Part.pwr ∈ pm := by first | exact Or.inr (by assumption) | with_reducible exact Or.inl rfl)
    (h16 : a16 = s.mgmt ∨ Part.mgmt ∈ pm := by first | exact Or.inr (by assumption) | with_reducible exact Or.inl rfl)
    (h17 : a17 = s.out ∨ Part.out ∈ pm := by first | exact Or.inr (by assumption) | with_reducible exact Or.inl rfl)
    (h18 : a18 = s.spent ∨ Part.spent ∈ pm := by first | exact Or.inr (by assumption) | with_reducible exact Or.inl rfl)
    (h19 : a19 = s.fresh ∨ Part.fresh ∈ pm := by first | exact Or.inr (by assumption) | with_reducible exact Or.inl rfl)
    : Frame pm r (State.mk s.stock a1 a2 a3 a4 a5 a6 a7 a8 a9 a10 a11 a12 a13 a14 a15 a16 a17 a18 a19 s.pending) :=
  h.trans ⟨rfl, rfl, fun hw => by rcases h10 with e | e <;> simpa [e] using hw, fun p hp => by
    cases p <;> simp_all [samePart]⟩

theorem emit_frame {s : State} {o : Output} {pm : List Part} {z0 : State} (hk : Frame pm z0 s) (m_out : Part.out ∈ pm := by assumption) : Frame pm z0 (emit s o) := by
  unfold emit
  try dsimp only
  repeat (any_goals (first | intro _ | with_reducible assumption | with_reducible apply Frame.ite | with_reducible apply Frame.iteFst | fail_if_no_progress (with_reducible refine Frame.set ?_) | split | dsimp only | refine Frame.ofFst ?_ (by assumption) | refine Frame.ofSnd2 ?_ (by assumption) | refine FrameOpt.kept ?_ _ (by assumption) | refine FrameOut.kept ?_ _ (by assumption)))

theorem charge_frame {s : State} {b : Nat} {k : Nat} {n : Nat} {pm : List Part} {z0 : State} (hk : Frame pm z0 s) (m_spent : Part.spent ∈ pm := by assumption) : Frame pm z0 (charge s b k n) := by
  unfold charge
  try dsimp only
  repeat (any_goals (first | intro _ | with_reducible assumption | with_reducible apply Frame.ite | with_reducible apply Frame.iteFst | fail_if_no_progress (with_reducible refine Frame.set ?_) | split | dsimp only | refine Frame.ofFst ?_ (by assumption) | refine Frame.ofSnd2 ?_ (by assumption) | refine FrameOpt.kept ?_ _ (by assumption) | refine FrameOut.kept ?_ _ (by assumption)))

theorem send_frame {s : State} {dst : ModuleId} {b : Option Nat} {m : Msg} {pm : List Part} {z0 : State} (hk : Frame pm z0 s) (m_out : Part.out ∈ pm := by assumption) (m_spent : Part.spent ∈ pm := by assumption) : Frame pm z0 (send s dst b m) := by
  unfold send
  try dsimp only
  repeat (any_goals (first | intro _ | with_reducible assumption | with_reducible refine emit_frame ?_ | with_reducible refine charge_frame ?_ | with_reducible apply Frame.ite | with_reducible apply Frame.iteFst | fail_if_no_progress (with_reducible refine Frame.set ?_) | split | dsimp only | refine Frame.ofFst ?_ (by assumption) | refine Frame.ofSnd2 ?_ (by assumption) | refine FrameOpt.kept ?_ _ (by assumption) | refine FrameOut.kept ?_ _ (by assumption)))

theorem State_bump_frame {s : State} {pm : List Part} {z0 : State} (hk : Frame pm z0 s) (m_fresh : Part.fresh ∈ pm := by assumption) : Frame pm z0 (State.bump s) := by
  unfold State.bump
  try dsimp only
  repeat (any_goals (first | intro _ | with_reducible assumption | with_reducible apply Frame.ite | with_reducible apply Frame.iteFst | fail_if_no_progress (with_reducible refine Frame.set ?_) | split | dsimp only | refine Frame.ofFst ?_ (by assumption) | refine Frame.ofSnd2 ?_ (by assumption) | refine FrameOpt.kept ?_ _ (by assumption) | refine FrameOut.kept ?_ _ (by assumption)))

theorem count_frame {s : State} {off : Nat} {n : Nat} {pm : List Part} {z0 : State} (hk : Frame pm z0 s) (m_bar : Part.bar ∈ pm := by assumption) : Frame pm z0 (count s off n) := by
  unfold count
  try dsimp only
  repeat (any_goals (first | intro _ | with_reducible assumption | with_reducible apply Frame.ite | with_reducible apply Frame.iteFst | fail_if_no_progress (with_reducible refine Frame.set ?_) | split | dsimp only | refine Frame.ofFst ?_ (by assumption) | refine Frame.ofSnd2 ?_ (by assumption) | refine FrameOpt.kept ?_ _ (by assumption) | refine FrameOut.kept ?_ _ (by assumption)))

theorem countHalf_frame {s : State} {off : Nat} {high : Bool} {n : Nat} {pm : List Part} {z0 : State} (hk : Frame pm z0 s) (m_bar : Part.bar ∈ pm := by assumption) : Frame pm z0 (countHalf s off high n) := by
  unfold countHalf
  try dsimp only
  repeat (any_goals (first | intro _ | with_reducible assumption | with_reducible apply Frame.ite | with_reducible apply Frame.iteFst | fail_if_no_progress (with_reducible refine Frame.set ?_) | split | dsimp only | refine Frame.ofFst ?_ (by assumption) | refine Frame.ofSnd2 ?_ (by assumption) | refine FrameOpt.kept ?_ _ (by assumption) | refine FrameOut.kept ?_ _ (by assumption)))

theorem gauge_frame {s : State} {off : Nat} {n : Nat} {pm : List Part} {z0 : State} (hk : Frame pm z0 s) (m_bar : Part.bar ∈ pm := by assumption) : Frame pm z0 (gauge s off n) := by
  unfold gauge
  try dsimp only
  repeat (any_goals (first | intro _ | with_reducible assumption | with_reducible apply Frame.ite | with_reducible apply Frame.iteFst | fail_if_no_progress (with_reducible refine Frame.set ?_) | split | dsimp only | refine Frame.ofFst ?_ (by assumption) | refine Frame.ofSnd2 ?_ (by assumption) | refine FrameOpt.kept ?_ _ (by assumption) | refine FrameOut.kept ?_ _ (by assumption)))

theorem setBench_frame {s : State} {b : Nat} {f : Bench → Bench} {pm : List Part} {z0 : State} (hk : Frame pm z0 s) (m_benches : Part.benches ∈ pm := by assumption) : Frame pm z0 (setBench s b f) := by
  unfold setBench
  try dsimp only
  repeat (any_goals (first | intro _ | with_reducible assumption | with_reducible apply Frame.ite | with_reducible apply Frame.iteFst | fail_if_no_progress (with_reducible refine Frame.set ?_) | split | dsimp only | refine Frame.ofFst ?_ (by assumption) | refine Frame.ofSnd2 ?_ (by assumption) | refine FrameOpt.kept ?_ _ (by assumption) | refine FrameOut.kept ?_ _ (by assumption)))

theorem putReq_frame {s : State} {r : Req} {pm : List Part} {z0 : State} (hk : Frame pm z0 s) (m_work : Part.work ∈ pm := by assumption) : Frame pm z0 (putReq s r) := by
  unfold putReq
  try dsimp only
  repeat (any_goals (first | intro _ | with_reducible assumption | with_reducible apply Frame.ite | with_reducible apply Frame.iteFst | fail_if_no_progress (with_reducible refine Frame.set ?_) | split | dsimp only | refine Frame.ofFst ?_ (by assumption) | refine Frame.ofSnd2 ?_ (by assumption) | refine FrameOpt.kept ?_ _ (by assumption) | refine FrameOut.kept ?_ _ (by assumption)))

theorem putConv_frame {s : State} {c : Conv} {pm : List Part} {z0 : State} (hk : Frame pm z0 s) (m_work : Part.work ∈ pm := by assumption) : Frame pm z0 (putConv s c) := by
  unfold putConv
  try dsimp only
  repeat (any_goals (first | intro _ | with_reducible assumption | with_reducible apply Frame.ite | with_reducible apply Frame.iteFst | fail_if_no_progress (with_reducible refine Frame.set ?_) | split | dsimp only | refine Frame.ofFst ?_ (by assumption) | refine Frame.ofSnd2 ?_ (by assumption) | refine FrameOpt.kept ?_ _ (by assumption) | refine FrameOut.kept ?_ _ (by assumption)))

theorem modReq_frame {s : State} {k : Nat} {f : Req → Req} {pm : List Part} {z0 : State} (hk : Frame pm z0 s) (m_work : Part.work ∈ pm := by assumption) : Frame pm z0 (modReq s k f) := by
  unfold modReq
  try dsimp only
  repeat (any_goals (first | intro _ | with_reducible assumption | with_reducible apply Frame.ite | with_reducible apply Frame.iteFst | fail_if_no_progress (with_reducible refine Frame.set ?_) | split | dsimp only | refine Frame.ofFst ?_ (by assumption) | refine Frame.ofSnd2 ?_ (by assumption) | refine FrameOpt.kept ?_ _ (by assumption) | refine FrameOut.kept ?_ _ (by assumption)))

theorem modConv_frame {s : State} {k : Nat} {f : Conv → Conv} {pm : List Part} {z0 : State} (hk : Frame pm z0 s) (m_work : Part.work ∈ pm := by assumption) : Frame pm z0 (modConv s k f) := by
  unfold modConv
  try dsimp only
  repeat (any_goals (first | intro _ | with_reducible assumption | with_reducible apply Frame.ite | with_reducible apply Frame.iteFst | fail_if_no_progress (with_reducible refine Frame.set ?_) | split | dsimp only | refine Frame.ofFst ?_ (by assumption) | refine Frame.ofSnd2 ?_ (by assumption) | refine FrameOpt.kept ?_ _ (by assumption) | refine FrameOut.kept ?_ _ (by assumption)))

theorem delReq_frame {s : State} {k : Nat} {pm : List Part} {z0 : State} (hk : Frame pm z0 s) (m_work : Part.work ∈ pm := by assumption) : Frame pm z0 (delReq s k) := by
  unfold delReq
  try dsimp only
  repeat (any_goals (first | intro _ | with_reducible assumption | with_reducible apply Frame.ite | with_reducible apply Frame.iteFst | fail_if_no_progress (with_reducible refine Frame.set ?_) | split | dsimp only | refine Frame.ofFst ?_ (by assumption) | refine Frame.ofSnd2 ?_ (by assumption) | refine FrameOpt.kept ?_ _ (by assumption) | refine FrameOut.kept ?_ _ (by assumption)))

theorem delConv_frame {s : State} {k : Nat} {pm : List Part} {z0 : State} (hk : Frame pm z0 s) (m_work : Part.work ∈ pm := by assumption) : Frame pm z0 (delConv s k) := by
  unfold delConv
  try dsimp only
  repeat (any_goals (first | intro _ | with_reducible assumption | with_reducible apply Frame.ite | with_reducible apply Frame.iteFst | fail_if_no_progress (with_reducible refine Frame.set ?_) | split | dsimp only | refine Frame.ofFst ?_ (by assumption) | refine Frame.ofSnd2 ?_ (by assumption) | refine FrameOpt.kept ?_ _ (by assumption) | refine FrameOut.kept ?_ _ (by assumption)))

theorem emitTo_frame {s : State} {fn : Fn} {o : Output} {pm : List Part} {z0 : State} (hk : Frame pm z0 s) (m_out : Part.out ∈ pm := by assumption) : Frame pm z0 (emitTo s fn o) := by
  unfold emitTo
  try dsimp only
  repeat (any_goals (first | intro _ | with_reducible assumption | with_reducible refine emit_frame ?_ | with_reducible apply Frame.ite | with_reducible apply Frame.iteFst | fail_if_no_progress (with_reducible refine Frame.set ?_) | split | dsimp only | refine Frame.ofFst ?_ (by assumption) | refine Frame.ofSnd2 ?_ (by assumption) | refine FrameOpt.kept ?_ _ (by assumption) | refine FrameOut.kept ?_ _ (by assumption)))

theorem signal_frame {s : State} {fn : Fn} {v : Nat} {pm : List Part} {z0 : State} (hk : Frame pm z0 s) (m_out : Part.out ∈ pm := by assumption) : Frame pm z0 (signal s fn v) := by
  unfold signal
  try dsimp only
  repeat (any_goals (first | intro _ | with_reducible assumption | with_reducible refine emitTo_frame ?_ | with_reducible apply Frame.ite | with_reducible apply Frame.iteFst | fail_if_no_progress (with_reducible refine Frame.set ?_) | split | dsimp only | refine Frame.ofFst ?_ (by assumption) | refine Frame.ofSnd2 ?_ (by assumption) | refine FrameOpt.kept ?_ _ (by assumption) | refine FrameOut.kept ?_ _ (by assumption)))

theorem errVector_frame {s : State} {pm : List Part} {z0 : State} (hk : Frame pm z0 s) (m_out : Part.out ∈ pm := by assumption) : Frame pm z0 (errVector s) := by
  unfold errVector
  try dsimp only
  repeat (any_goals (first | intro _ | with_reducible assumption | with_reducible refine signal_frame ?_ | with_reducible apply Frame.ite | with_reducible apply Frame.iteFst | fail_if_no_progress (with_reducible refine Frame.set ?_) | split | dsimp only | refine Frame.ofFst ?_ (by assumption) | refine Frame.ofSnd2 ?_ (by assumption) | refine FrameOpt.kept ?_ _ (by assumption) | refine FrameOut.kept ?_ _ (by assumption)))

theorem cqVector_frame {s : State} {b : Nat} {pm : List Part} {z0 : State} (hk : Frame pm z0 s) (m_out : Part.out ∈ pm := by assumption) : Frame pm z0 (cqVector s b) := by
  unfold cqVector
  try dsimp only
  repeat (any_goals (first | intro _ | with_reducible assumption | with_reducible refine signal_frame ?_ | with_reducible apply Frame.ite | with_reducible apply Frame.iteFst | fail_if_no_progress (with_reducible refine Frame.set ?_) | split | dsimp only | refine Frame.ofFst ?_ (by assumption) | refine Frame.ofSnd2 ?_ (by assumption) | refine FrameOpt.kept ?_ _ (by assumption) | refine FrameOut.kept ?_ _ (by assumption)))

theorem streamVector_frame {s : State} {b : Nat} {pm : List Part} {z0 : State} (hk : Frame pm z0 s) (m_out : Part.out ∈ pm := by assumption) : Frame pm z0 (streamVector s b) := by
  unfold streamVector
  try dsimp only
  repeat (any_goals (first | intro _ | with_reducible assumption | with_reducible refine signal_frame ?_ | with_reducible apply Frame.ite | with_reducible apply Frame.iteFst | fail_if_no_progress (with_reducible refine Frame.set ?_) | split | dsimp only | refine Frame.ofFst ?_ (by assumption) | refine Frame.ofSnd2 ?_ (by assumption) | refine FrameOpt.kept ?_ _ (by assumption) | refine FrameOut.kept ?_ _ (by assumption)))

theorem State_at_frame {s : State} {t : Stamp} {pm : List Part} {z0 : State} (hk : Frame pm z0 s) (m_time : Part.time ∈ pm := by assumption) : Frame pm z0 (State.at s t) := by
  unfold State.at
  try dsimp only
  repeat (any_goals (first | intro _ | with_reducible assumption | with_reducible apply Frame.ite | with_reducible apply Frame.iteFst | fail_if_no_progress (with_reducible refine Frame.set ?_) | split | dsimp only | refine Frame.ofFst ?_ (by assumption) | refine Frame.ofSnd2 ?_ (by assumption) | refine FrameOpt.kept ?_ _ (by assumption) | refine FrameOut.kept ?_ _ (by assumption)))

theorem logEntry_frame {s : State} {e0 : LogEntry} {pm : List Part} {z0 : State} (hk : Frame pm z0 s) (m_fault : Part.fault ∈ pm := by assumption) (m_out : Part.out ∈ pm := by assumption) : Frame pm z0 (logEntry s e0) := by
  unfold logEntry
  try dsimp only
  repeat (any_goals (first | intro _ | with_reducible assumption | with_reducible refine emit_frame ?_ | with_reducible refine errVector_frame ?_ | with_reducible apply Frame.ite | with_reducible apply Frame.iteFst | fail_if_no_progress (with_reducible refine Frame.set ?_) | split | dsimp only | refine Frame.ofFst ?_ (by assumption) | refine Frame.ofSnd2 ?_ (by assumption) | refine FrameOpt.kept ?_ _ (by assumption) | refine FrameOut.kept ?_ _ (by assumption)))

theorem logErr_frame {s : State} {c : ErrClass} {cause : Nat} {b : optParam Nat 31} {u : optParam UnitId { kind := UnitKind.none, index := 0 }} {d0 : optParam Nat 0} {d1 : optParam Nat 0} {pm : List Part} {z0 : State} (hk : Frame pm z0 s) (m_fault : Part.fault ∈ pm := by assumption) (m_out : Part.out ∈ pm := by assumption) : Frame pm z0 (logErr s c cause b u d0 d1) := by
  unfold logErr
  try dsimp only
  repeat (any_goals (first | intro _ | with_reducible assumption | with_reducible refine logEntry_frame ?_ | with_reducible apply Frame.ite | with_reducible apply Frame.iteFst | fail_if_no_progress (with_reducible refine Frame.set ?_) | split | dsimp only | refine Frame.ofFst ?_ (by assumption) | refine Frame.ofSnd2 ?_ (by assumption) | refine FrameOpt.kept ?_ _ (by assumption) | refine FrameOut.kept ?_ _ (by assumption)))

theorem badAccess_frame {s : State} {pm : List Part} {z0 : State} (hk : Frame pm z0 s) (m_bar : Part.bar ∈ pm := by assumption) (m_fault : Part.fault ∈ pm := by assumption) (m_out : Part.out ∈ pm := by assumption) : Frame pm z0 (badAccess s) := by
  unfold badAccess
  try dsimp only
  repeat (any_goals (first | intro _ | with_reducible assumption | with_reducible refine logErr_frame ?_ | with_reducible refine count_frame ?_ | with_reducible apply Frame.ite | with_reducible apply Frame.iteFst | fail_if_no_progress (with_reducible refine Frame.set ?_) | split | dsimp only | refine Frame.ofFst ?_ (by assumption) | refine Frame.ofSnd2 ?_ (by assumption) | refine FrameOpt.kept ?_ _ (by assumption) | refine FrameOut.kept ?_ _ (by assumption)))

theorem malformed_frame {s : State} {pm : List Part} {z0 : State} (hk : Frame pm z0 s) (m_fault : Part.fault ∈ pm := by assumption) (m_out : Part.out ∈ pm := by assumption) : Frame pm z0 (malformed s) := by
  unfold malformed
  try dsimp only
  repeat (any_goals (first | intro _ | with_reducible assumption | with_reducible refine logErr_frame ?_ | with_reducible apply Frame.ite | with_reducible apply Frame.iteFst | fail_if_no_progress (with_reducible refine Frame.set ?_) | split | dsimp only | refine Frame.ofFst ?_ (by assumption) | refine Frame.ofSnd2 ?_ (by assumption) | refine FrameOpt.kept ?_ _ (by assumption) | refine FrameOut.kept ?_ _ (by assumption)))

theorem modPage_frame {s : State} {p : PageRef} {f : Entry → Entry} {pm : List Part} {z0 : State} (hk : Frame pm z0 s) (m_work : Part.work ∈ pm := by assumption) : Frame pm z0 (modPage s p f) := by
  unfold modPage
  try dsimp only
  repeat (any_goals (first | intro _ | with_reducible assumption | with_reducible apply Frame.ite | with_reducible apply Frame.iteFst | fail_if_no_progress (with_reducible refine Frame.set ?_) | split | dsimp only | refine Frame.ofFst ?_ (by assumption) | refine Frame.ofSnd2 ?_ (by assumption) | refine FrameOpt.kept ?_ _ (by assumption) | refine FrameOut.kept ?_ _ (by assumption)))

theorem putReg_frame {s : State} {off : Nat} {v : Word} {pm : List Part} {z0 : State} (hk : Frame pm z0 s) (m_bar : Part.bar ∈ pm := by assumption) : Frame pm z0 (putReg s off v) := by
  unfold putReg
  try dsimp only
  repeat (any_goals (first | intro _ | with_reducible assumption | with_reducible apply Frame.ite | with_reducible apply Frame.iteFst | fail_if_no_progress (with_reducible refine Frame.set ?_) | split | dsimp only | refine Frame.ofFst ?_ (by assumption) | refine Frame.ofSnd2 ?_ (by assumption) | refine FrameOpt.kept ?_ _ (by assumption) | refine FrameOut.kept ?_ _ (by assumption)))

theorem run_frame {t : Stamp} {f : State → State} {s : State} {pm : List Part} {z0 : State} (hf : ∀ (z : State) (x0 : State), Frame pm z x0 → Frame pm z (f x0)) (hk : Frame pm z0 s) (m_time : Part.time ∈ pm := by assumption) : FrameOut pm z0 (run t f s) := by
  unfold run
  try dsimp only
  repeat (any_goals (first | intro _ | with_reducible assumption | with_reducible refine State_at_frame ?_ | with_reducible apply hf | with_reducible apply FrameOut.next | exact FrameOut.fault | with_reducible apply Frame.ite | with_reducible apply Frame.iteFst | with_reducible apply FrameOut.ite | fail_if_no_progress (with_reducible refine Frame.set ?_) | split | dsimp only | refine Frame.ofFst ?_ (by assumption) | refine Frame.ofSnd2 ?_ (by assumption) | refine FrameOpt.kept ?_ _ (by assumption) | refine FrameOut.kept ?_ _ (by assumption)))

theorem noteLink_frame {s : State} {pm : List Part} {z0 : State} (hk : Frame pm z0 s) (m_pwr : Part.pwr ∈ pm := by assumption) : Frame pm z0 (noteLink s) := by
  unfold noteLink
  try dsimp only
  repeat (any_goals (first | intro _ | with_reducible assumption | with_reducible apply Frame.ite | with_reducible apply Frame.iteFst | fail_if_no_progress (with_reducible refine Frame.set ?_) | split | dsimp only | refine Frame.ofFst ?_ (by assumption) | refine Frame.ofSnd2 ?_ (by assumption) | refine FrameOpt.kept ?_ _ (by assumption) | refine FrameOut.kept ?_ _ (by assumption)))

theorem runLink_frame {t : Stamp} {f : State → State} {s : State} {pm : List Part} {z0 : State} (hf : ∀ (z : State) (x0 : State), Frame pm z x0 → Frame pm z (f x0)) (hk : Frame pm z0 s) (m_time : Part.time ∈ pm := by assumption) (m_pwr : Part.pwr ∈ pm := by assumption) : FrameOut pm z0 (runLink t f s) := by
  unfold runLink
  try dsimp only
  repeat (any_goals (first | intro _ | with_reducible assumption | with_reducible refine run_frame ?_ ?_ | with_reducible refine noteLink_frame ?_ | with_reducible apply hf | with_reducible apply FrameOut.next | exact FrameOut.fault | with_reducible apply Frame.ite | with_reducible apply Frame.iteFst | with_reducible apply FrameOut.ite | fail_if_no_progress (with_reducible refine Frame.set ?_) | split | dsimp only | refine Frame.ofFst ?_ (by assumption) | refine Frame.ofSnd2 ?_ (by assumption) | refine FrameOpt.kept ?_ _ (by assumption) | refine FrameOut.kept ?_ _ (by assumption)))

theorem setCq_frame {s : State} {b : Nat} {f : Cq → Cq} {pm : List Part} {z0 : State} (hk : Frame pm z0 s) (m_host : Part.host ∈ pm := by assumption) : Frame pm z0 (setCq s b f) := by
  unfold setCq
  try dsimp only
  repeat (any_goals (first | intro _ | with_reducible assumption | with_reducible apply Frame.ite | with_reducible apply Frame.iteFst | fail_if_no_progress (with_reducible refine Frame.set ?_) | split | dsimp only | refine Frame.ofFst ?_ (by assumption) | refine Frame.ofSnd2 ?_ (by assumption) | refine FrameOpt.kept ?_ _ (by assumption) | refine FrameOut.kept ?_ _ (by assumption)))

theorem ringError_frame {s : State} {ring : Nat} {cause : Nat} {pm : List Part} {z0 : State} (hk : Frame pm z0 s) (m_host : Part.host ∈ pm := by assumption) (m_fault : Part.fault ∈ pm := by assumption) (m_out : Part.out ∈ pm := by assumption) : Frame pm z0 (ringError s ring cause) := by
  unfold ringError
  try dsimp only
  repeat (any_goals (first | intro _ | with_reducible assumption | with_reducible refine logErr_frame ?_ | with_reducible apply Frame.ite | with_reducible apply Frame.iteFst | fail_if_no_progress (with_reducible refine Frame.set ?_) | split | dsimp only | refine Frame.ofFst ?_ (by assumption) | refine Frame.ofSnd2 ?_ (by assumption) | refine FrameOpt.kept ?_ _ (by assumption) | refine FrameOut.kept ?_ _ (by assumption)))

theorem benchRingsError_frame {s : State} {b : Nat} {cause : Nat} {last : Nat} {pm : List Part} {z0 : State} (hk : Frame pm z0 s) (m_host : Part.host ∈ pm := by assumption) (m_fault : Part.fault ∈ pm := by assumption) (m_out : Part.out ∈ pm := by assumption) : Frame pm z0 (benchRingsError s b cause last) := by
  unfold benchRingsError
  try dsimp only
  repeat (any_goals (first | intro _ | with_reducible assumption | with_reducible refine logErr_frame ?_ | with_reducible apply foldl_frame | with_reducible apply foldl_frame_fst | with_reducible apply Frame.ite | with_reducible apply Frame.iteFst | fail_if_no_progress (with_reducible refine Frame.set ?_) | split | dsimp only | refine Frame.ofFst ?_ (by assumption) | refine Frame.ofSnd2 ?_ (by assumption) | refine FrameOpt.kept ?_ _ (by assumption) | refine FrameOut.kept ?_ _ (by assumption)))

theorem writeRecord_frame {s : State} {b : Nat} {r : CplRec} {pm : List Part} {z0 : State} (hk : Frame pm z0 s) (m_host : Part.host ∈ pm := by assumption) (m_out : Part.out ∈ pm := by assumption) : Frame pm z0 (writeRecord s b r) := by
  unfold writeRecord
  try dsimp only
  repeat (any_goals (first | intro _ | with_reducible assumption | with_reducible refine emitTo_frame ?_ | with_reducible refine cqVector_frame ?_ | with_reducible refine setCq_frame ?_ | with_reducible apply Frame.ite | with_reducible apply Frame.iteFst | fail_if_no_progress (with_reducible refine Frame.set ?_) | split | dsimp only | refine Frame.ofFst ?_ (by assumption) | refine Frame.ofSnd2 ?_ (by assumption) | refine FrameOpt.kept ?_ _ (by assumption) | refine FrameOut.kept ?_ _ (by assumption)))

theorem beginEpisode_frame {s : State} {b : Nat} {pm : List Part} {z0 : State} (hk : Frame pm z0 s) (m_host : Part.host ∈ pm := by assumption) (m_fault : Part.fault ∈ pm := by assumption) (m_out : Part.out ∈ pm := by assumption) : Frame pm z0 (beginEpisode s b) := by
  unfold beginEpisode
  try dsimp only
  repeat (any_goals (first | intro _ | with_reducible assumption | with_reducible refine logErr_frame ?_ | with_reducible apply Frame.ite | with_reducible apply Frame.iteFst | fail_if_no_progress (with_reducible refine Frame.set ?_) | split | dsimp only | refine Frame.ofFst ?_ (by assumption) | refine Frame.ofSnd2 ?_ (by assumption) | refine FrameOpt.kept ?_ _ (by assumption) | refine FrameOut.kept ?_ _ (by assumption)))

theorem queueRecord_frame {s : State} {b : Nat} {r : CplRec} {pm : List Part} {z0 : State} (hk : Frame pm z0 s) (m_host : Part.host ∈ pm := by assumption) (m_fault : Part.fault ∈ pm := by assumption) (m_out : Part.out ∈ pm := by assumption) : Frame pm z0 (queueRecord s b r) := by
  unfold queueRecord
  try dsimp only
  repeat (any_goals (first | intro _ | with_reducible assumption | with_reducible refine writeRecord_frame ?_ | with_reducible refine benchRingsError_frame ?_ | with_reducible refine setCq_frame ?_ | with_reducible refine beginEpisode_frame ?_ | with_reducible apply Frame.ite | with_reducible apply Frame.iteFst | fail_if_no_progress (with_reducible refine Frame.set ?_) | split | dsimp only | refine Frame.ofFst ?_ (by assumption) | refine Frame.ofSnd2 ?_ (by assumption) | refine FrameOpt.kept ?_ _ (by assumption) | refine FrameOut.kept ?_ _ (by assumption)))

theorem drainRecords_frame {pm : List Part} {z0 : State} {s : State} {b n : Nat} (hk : Frame pm z0 s) (m_host : Part.host ∈ pm := by assumption) (m_out : Part.out ∈ pm := by assumption) : Frame pm z0 (drainRecords s b n) := by
  induction n generalizing s with
  | zero => simpa [drainRecords] using hk
  | succ n ih =>
    unfold drainRecords
    split
    · exact hk
    · split
      · exact ih (writeRecord_frame (setCq_frame hk))
      · exact hk

theorem complete_frame {s : State} {c : Cpl} {st : Status} {result : Nat} {tick : Nat} {result2 : optParam Nat 0} {pm : List Part} {z0 : State} (hk : Frame pm z0 s) (m_host : Part.host ∈ pm := by assumption) (m_fault : Part.fault ∈ pm := by assumption) (m_out : Part.out ∈ pm := by assumption) (m_spent : Part.spent ∈ pm := by assumption) : Frame pm z0 (complete s c st result tick result2) := by
  unfold complete
  try dsimp only
  repeat (any_goals (first | intro _ | with_reducible assumption | with_reducible refine send_frame ?_ | with_reducible refine queueRecord_frame ?_ | with_reducible apply Frame.ite | with_reducible apply Frame.iteFst | fail_if_no_progress (with_reducible refine Frame.set ?_) | split | dsimp only | refine Frame.ofFst ?_ (by assumption) | refine Frame.ofSnd2 ?_ (by assumption) | refine FrameOpt.kept ?_ _ (by assumption) | refine FrameOut.kept ?_ _ (by assumption)))

theorem cplWrite_frame {s : State} {c : Cpl} {o : Output} {pm : List Part} {z0 : State} (hk : Frame pm z0 s) (m_out : Part.out ∈ pm := by assumption) : Frame pm z0 (cplWrite s c o) := by
  unfold cplWrite
  try dsimp only
  repeat (any_goals (first | intro _ | with_reducible assumption | with_reducible refine emit_frame ?_ | with_reducible apply Frame.ite | with_reducible apply Frame.iteFst | fail_if_no_progress (with_reducible refine Frame.set ?_) | split | dsimp only | refine Frame.ofFst ?_ (by assumption) | refine Frame.ofSnd2 ?_ (by assumption) | refine FrameOpt.kept ?_ _ (by assumption) | refine FrameOut.kept ?_ _ (by assumption)))

theorem due_frame {s : State} {c : Cpl} {st : Status} {result : Nat} {n : Nat} {result2 : optParam Nat 0} {tally : optParam (Option Nat) none} {pm : List Part} {z0 : State} (hk : Frame pm z0 s) (m_host : Part.host ∈ pm := by assumption) : Frame pm z0 (due s c st result n result2 tally) := by
  unfold due
  try dsimp only
  repeat (any_goals (first | intro _ | with_reducible assumption | with_reducible apply Frame.ite | with_reducible apply Frame.iteFst | fail_if_no_progress (with_reducible refine Frame.set ?_) | split | dsimp only | refine Frame.ofFst ?_ (by assumption) | refine Frame.ofSnd2 ?_ (by assumption) | refine FrameOpt.kept ?_ _ (by assumption) | refine FrameOut.kept ?_ _ (by assumption)))

theorem dueAt_frame {s : State} {i : Nat} {c : Cpl} {st : Status} {result : Nat} {n : Nat} {pm : List Part} {z0 : State} (hk : Frame pm z0 s) (m_host : Part.host ∈ pm := by assumption) : Frame pm z0 (dueAt s i c st result n) := by
  unfold dueAt
  try dsimp only
  repeat (any_goals (first | intro _ | with_reducible assumption | with_reducible apply Frame.ite | with_reducible apply Frame.iteFst | fail_if_no_progress (with_reducible refine Frame.set ?_) | split | dsimp only | refine Frame.ofFst ?_ (by assumption) | refine Frame.ofSnd2 ?_ (by assumption) | refine FrameOpt.kept ?_ _ (by assumption) | refine FrameOut.kept ?_ _ (by assumption)))

theorem flushDue_frame {s : State} {pm : List Part} {z0 : State} (hk : Frame pm z0 s) (m_host : Part.host ∈ pm := by assumption) (m_fault : Part.fault ∈ pm := by assumption) (m_out : Part.out ∈ pm := by assumption) (m_spent : Part.spent ∈ pm := by assumption) : Frame pm z0 (flushDue s) := by
  unfold flushDue
  try dsimp only
  repeat (any_goals (first | intro _ | with_reducible assumption | with_reducible refine complete_frame ?_ | with_reducible apply foldl_frame | with_reducible apply foldl_frame_fst | with_reducible apply Frame.ite | with_reducible apply Frame.iteFst | fail_if_no_progress (with_reducible refine Frame.set ?_) | split | dsimp only | refine Frame.ofFst ?_ (by assumption) | refine Frame.ofSnd2 ?_ (by assumption) | refine FrameOpt.kept ?_ _ (by assumption) | refine FrameOut.kept ?_ _ (by assumption)))

theorem notify_frame {s : State} {b : Nat} {off : Nat} {len : Nat} {imm : Nat} {index : Nat} {gen : Nat} {pm : List Part} {z0 : State} (hk : Frame pm z0 s) (m_host : Part.host ∈ pm := by assumption) (m_fault : Part.fault ∈ pm := by assumption) (m_out : Part.out ∈ pm := by assumption) : Frame pm z0 (notify s b off len imm index gen) := by
  unfold notify
  try dsimp only
  repeat (any_goals (first | intro _ | with_reducible assumption | with_reducible refine queueRecord_frame ?_ | with_reducible apply Frame.ite | with_reducible apply Frame.iteFst | fail_if_no_progress (with_reducible refine Frame.set ?_) | split | dsimp only | refine Frame.ofFst ?_ (by assumption) | refine Frame.ofSnd2 ?_ (by assumption) | refine FrameOpt.kept ?_ _ (by assumption) | refine FrameOut.kept ?_ _ (by assumption)))

theorem readConsumer_frame {s : State} {k : Nat} {need : Nat} {pm : List Part} {z0 : State} (hk : Frame pm z0 s) (m_work : Part.work ∈ pm := by assumption) (m_fresh : Part.fresh ∈ pm := by assumption) : Frame pm z0 (readConsumer s k need) := by
  unfold readConsumer
  try dsimp only
  repeat (any_goals (first | intro _ | with_reducible assumption | with_reducible apply Frame.ite | with_reducible apply Frame.iteFst | fail_if_no_progress (with_reducible refine Frame.set ?_) | split | dsimp only | refine Frame.ofFst ?_ (by assumption) | refine Frame.ofSnd2 ?_ (by assumption) | refine FrameOpt.kept ?_ _ (by assumption) | refine FrameOut.kept ?_ _ (by assumption)))

theorem putToken_frame {s : State} {k : Nat} {r : TokRec} {pm : List Part} {z0 : State} (hk : Frame pm z0 s) (m_work : Part.work ∈ pm := by assumption) (m_out : Part.out ∈ pm := by assumption) : Frame pm z0 (putToken s k r) := by
  unfold putToken
  try dsimp only
  repeat (any_goals (first | intro _ | with_reducible assumption | with_reducible refine emitTo_frame ?_ | with_reducible apply Frame.ite | with_reducible apply Frame.iteFst | fail_if_no_progress (with_reducible refine Frame.set ?_) | split | dsimp only | refine Frame.ofFst ?_ (by assumption) | refine Frame.ofSnd2 ?_ (by assumption) | refine FrameOpt.kept ?_ _ (by assumption) | refine FrameOut.kept ?_ _ (by assumption)))

theorem tryFinal_frame {s : State} {n : Nat} {w : FinalWait} {pm : List Part} {z0 : State} (hk : Frame pm z0 s) (m_work : Part.work ∈ pm := by assumption) (m_out : Part.out ∈ pm := by assumption) : FrameOpt pm z0 (tryFinal s n w) := by
  unfold tryFinal
  try dsimp only
  repeat (any_goals (first | intro _ | with_reducible assumption | with_reducible refine putToken_frame ?_ | with_reducible apply FrameOpt.getD | exact FrameOpt.none | with_reducible apply FrameOpt.some | with_reducible apply Frame.ite | with_reducible apply Frame.iteFst | with_reducible apply FrameOpt.ite | fail_if_no_progress (with_reducible refine Frame.set ?_) | split | dsimp only | refine Frame.ofFst ?_ (by assumption) | refine Frame.ofSnd2 ?_ (by assumption) | refine FrameOpt.kept ?_ _ (by assumption) | refine FrameOut.kept ?_ _ (by assumption)))

theorem writeFinals_frame {s : State} {n : Nat} {l : List FinalWait} {pm : List Part} {z0 : State} (hk : Frame pm z0 s) (m_work : Part.work ∈ pm := by assumption) (m_out : Part.out ∈ pm := by assumption) (m_fresh : Part.fresh ∈ pm := by assumption) : Frame pm z0 (writeFinals s n l) := by
  unfold writeFinals
  try dsimp only
  repeat (any_goals (first | intro _ | with_reducible assumption | with_reducible refine readConsumer_frame ?_ | with_reducible refine tryFinal_frame ?_ | with_reducible apply foldl_frame | with_reducible apply foldl_frame_fst | with_reducible apply FrameOpt.getD | exact FrameOpt.none | with_reducible apply FrameOpt.some | with_reducible apply Frame.ite | with_reducible apply Frame.iteFst | with_reducible apply FrameOpt.ite | fail_if_no_progress (with_reducible refine Frame.set ?_) | split | dsimp only | refine Frame.ofFst ?_ (by assumption) | refine Frame.ofSnd2 ?_ (by assumption) | refine FrameOpt.kept ?_ _ (by assumption) | refine FrameOut.kept ?_ _ (by assumption)))

theorem writeHolds_frame {s : State} {n : Nat} {l : List FinalWait} {pm : List Part} {z0 : State} (hk : Frame pm z0 s) (m_work : Part.work ∈ pm := by assumption) (m_out : Part.out ∈ pm := by assumption) (m_fresh : Part.fresh ∈ pm := by assumption) : Frame pm z0 (writeHolds s n l) := by
  unfold writeHolds
  try dsimp only
  repeat (any_goals (first | intro _ | with_reducible assumption | with_reducible refine readConsumer_frame ?_ | with_reducible refine tryFinal_frame ?_ | with_reducible apply foldl_frame | with_reducible apply foldl_frame_fst | with_reducible apply FrameOpt.getD | exact FrameOpt.none | with_reducible apply FrameOpt.some | with_reducible apply Frame.ite | with_reducible apply Frame.iteFst | with_reducible apply FrameOpt.ite | fail_if_no_progress (with_reducible refine Frame.set ?_) | split | dsimp only | refine Frame.ofFst ?_ (by assumption) | refine Frame.ofSnd2 ?_ (by assumption) | refine FrameOpt.kept ?_ _ (by assumption) | refine FrameOut.kept ?_ _ (by assumption)))

theorem writeWaitToks_frame {s : State} {n : Nat} {k : Nat} {pm : List Part} {z0 : State} (hk : Frame pm z0 s) (m_work : Part.work ∈ pm := by assumption) (m_out : Part.out ∈ pm := by assumption) (m_fresh : Part.fresh ∈ pm := by assumption) : Frame pm z0 (writeWaitToks s n k) := by
  unfold writeWaitToks
  try dsimp only
  repeat (any_goals (first | intro _ | with_reducible assumption | with_reducible refine readConsumer_frame ?_ | with_reducible refine putToken_frame ?_ | with_reducible refine modReq_frame ?_ | with_reducible apply foldl_frame | with_reducible apply foldl_frame_fst | with_reducible apply Frame.ite | with_reducible apply Frame.iteFst | fail_if_no_progress (with_reducible refine Frame.set ?_) | split | dsimp only | refine Frame.ofFst ?_ (by assumption) | refine Frame.ofSnd2 ?_ (by assumption) | refine FrameOpt.kept ?_ _ (by assumption) | refine FrameOut.kept ?_ _ (by assumption)))

theorem writeWaiting_frame {n : Nat} {s : State} {pm : List Part} {z0 : State} (hk : Frame pm z0 s) (m_work : Part.work ∈ pm := by assumption) (m_out : Part.out ∈ pm := by assumption) (m_fresh : Part.fresh ∈ pm := by assumption) : Frame pm z0 (writeWaiting n s) := by
  unfold writeWaiting
  try dsimp only
  repeat (any_goals (first | intro _ | with_reducible assumption | with_reducible refine writeWaitToks_frame ?_ | with_reducible refine writeFinals_frame ?_ | with_reducible refine writeHolds_frame ?_ | with_reducible apply foldl_frame | with_reducible apply foldl_frame_fst | with_reducible apply Frame.ite | with_reducible apply Frame.iteFst | fail_if_no_progress (with_reducible refine Frame.set ?_) | split | dsimp only | refine Frame.ofFst ?_ (by assumption) | refine Frame.ofSnd2 ?_ (by assumption) | refine FrameOpt.kept ?_ _ (by assumption) | refine FrameOut.kept ?_ _ (by assumption)))

theorem closeStreams_frame {s0 : State} {s : State} {pm : List Part} {z0 : State} (hk : Frame pm z0 s) (m_out : Part.out ∈ pm := by assumption) : Frame pm z0 (closeStreams s0 s) := by
  unfold closeStreams
  try dsimp only
  repeat (any_goals (first | intro _ | with_reducible assumption | with_reducible refine emitTo_frame ?_ | with_reducible refine streamVector_frame ?_ | with_reducible apply foldl_frame | with_reducible apply foldl_frame_fst | with_reducible apply Frame.ite | with_reducible apply Frame.iteFst | fail_if_no_progress (with_reducible refine Frame.set ?_) | split | dsimp only | refine Frame.ofFst ?_ (by assumption) | refine Frame.ofSnd2 ?_ (by assumption) | refine FrameOpt.kept ?_ _ (by assumption) | refine FrameOut.kept ?_ _ (by assumption)))

theorem setLink_frame {s : State} {l : Nat} {f : Link → Link} {pm : List Part} {z0 : State} (hk : Frame pm z0 s) (m_fab : Part.fab ∈ pm := by assumption) : Frame pm z0 (setLink s l f) := by
  unfold setLink
  try dsimp only
  repeat (any_goals (first | intro _ | with_reducible assumption | with_reducible apply Frame.ite | with_reducible apply Frame.iteFst | fail_if_no_progress (with_reducible refine Frame.set ?_) | split | dsimp only | refine Frame.ofFst ?_ (by assumption) | refine Frame.ofSnd2 ?_ (by assumption) | refine FrameOpt.kept ?_ _ (by assumption) | refine FrameOut.kept ?_ _ (by assumption)))

theorem transmit_frame {s : State} {l : Nat} {p : Packet} {pm : List Part} {z0 : State} (hk : Frame pm z0 s) (m_fab : Part.fab ∈ pm := by assumption) (m_out : Part.out ∈ pm := by assumption) : Frame pm z0 (transmit s l p) := by
  unfold transmit
  try dsimp only
  repeat (any_goals (first | intro _ | with_reducible assumption | with_reducible refine setLink_frame ?_ | with_reducible refine emit_frame ?_ | with_reducible apply Frame.ite | with_reducible apply Frame.iteFst | fail_if_no_progress (with_reducible refine Frame.set ?_) | split | dsimp only | refine Frame.ofFst ?_ (by assumption) | refine Frame.ofSnd2 ?_ (by assumption) | refine FrameOpt.kept ?_ _ (by assumption) | refine FrameOut.kept ?_ _ (by assumption)))

theorem onLink_frame {s : State} {l : Nat} {r : LinkRec} {pm : List Part} {z0 : State} (hk : Frame pm z0 s) (m_out : Part.out ∈ pm := by assumption) : Frame pm z0 (onLink s l r) := by
  unfold onLink
  try dsimp only
  repeat (any_goals (first | intro _ | with_reducible assumption | with_reducible refine emit_frame ?_ | with_reducible apply Frame.ite | with_reducible apply Frame.iteFst | fail_if_no_progress (with_reducible refine Frame.set ?_) | split | dsimp only | refine Frame.ofFst ?_ (by assumption) | refine Frame.ofSnd2 ?_ (by assumption) | refine FrameOpt.kept ?_ _ (by assumption) | refine FrameOut.kept ?_ _ (by assumption)))

theorem returnCredits_frame {s : State} {pm : List Part} {z0 : State} (hk : Frame pm z0 s) (m_fab : Part.fab ∈ pm := by assumption) (m_out : Part.out ∈ pm := by assumption) : Frame pm z0 (returnCredits s) := by
  unfold returnCredits
  try dsimp only
  repeat (any_goals (first | intro _ | with_reducible assumption | with_reducible refine onLink_frame ?_ | with_reducible apply foldl_frame | with_reducible apply foldl_frame_fst | with_reducible apply Frame.ite | with_reducible apply Frame.iteFst | fail_if_no_progress (with_reducible refine Frame.set ?_) | split | dsimp only | refine Frame.ofFst ?_ (by assumption) | refine Frame.ofSnd2 ?_ (by assumption) | refine FrameOpt.kept ?_ _ (by assumption) | refine FrameOut.kept ?_ _ (by assumption)))

theorem drainLink_frame {s : State} {l : Nat} {pm : List Part} {z0 : State} (hk : Frame pm z0 s) (m_fab : Part.fab ∈ pm := by assumption) (m_out : Part.out ∈ pm := by assumption) : Frame pm z0 (drainLink s l) := by
  unfold drainLink
  try dsimp only
  repeat (any_goals (first | intro _ | with_reducible assumption | with_reducible refine transmit_frame ?_ | with_reducible refine returnCredits_frame ?_ | with_reducible refine setLink_frame ?_ | with_reducible apply foldl_frame | with_reducible apply foldl_frame_fst | with_reducible apply Frame.ite | with_reducible apply Frame.iteFst | fail_if_no_progress (with_reducible refine Frame.set ?_) | split | dsimp only | refine Frame.ofFst ?_ (by assumption) | refine Frame.ofSnd2 ?_ (by assumption) | refine FrameOpt.kept ?_ _ (by assumption) | refine FrameOut.kept ?_ _ (by assumption)))

theorem setSrc_frame {s : State} {d : ModuleId} {f : SrcCtx → SrcCtx} {pm : List Part} {z0 : State} (hk : Frame pm z0 s) (m_fab : Part.fab ∈ pm := by assumption) : Frame pm z0 (setSrc s d f) := by
  unfold setSrc
  try dsimp only
  repeat (any_goals (first | intro _ | with_reducible assumption | with_reducible apply Frame.ite | with_reducible apply Frame.iteFst | fail_if_no_progress (with_reducible refine Frame.set ?_) | split | dsimp only | refine Frame.ofFst ?_ (by assumption) | refine Frame.ofSnd2 ?_ (by assumption) | refine FrameOpt.kept ?_ _ (by assumption) | refine FrameOut.kept ?_ _ (by assumption)))

theorem mergeInto_frame {s : State} {l : Nat} {q : Packet} {p : Packet} {pm : List Part} {z0 : State} (hk : Frame pm z0 s) (m_bar : Part.bar ∈ pm := by assumption) (m_fab : Part.fab ∈ pm := by assumption) (m_out : Part.out ∈ pm := by assumption) : Frame pm z0 (mergeInto s l q p) := by
  unfold mergeInto
  try dsimp only
  repeat (any_goals (first | intro _ | with_reducible assumption | with_reducible refine count_frame ?_ | with_reducible refine setLink_frame ?_ | with_reducible refine setSrc_frame ?_ | with_reducible refine returnCredits_frame ?_ | with_reducible apply Frame.ite | with_reducible apply Frame.iteFst | fail_if_no_progress (with_reducible refine Frame.set ?_) | split | dsimp only | refine Frame.ofFst ?_ (by assumption) | refine Frame.ofSnd2 ?_ (by assumption) | refine FrameOpt.kept ?_ _ (by assumption) | refine FrameOut.kept ?_ _ (by assumption)))

theorem joinRead_frame {s : State} {tile : Nat} {p : Packet} {pm : List Part} {z0 : State} (hk : Frame pm z0 s) (m_bar : Part.bar ∈ pm := by assumption) (m_fab : Part.fab ∈ pm := by assumption) : FrameOpt pm z0 (joinRead s tile p) := by
  unfold joinRead
  try dsimp only
  repeat (any_goals (first | intro _ | with_reducible assumption | with_reducible refine count_frame ?_ | with_reducible apply foldl_frame | with_reducible apply foldl_frame_fst | with_reducible apply FrameOpt.getD | exact FrameOpt.none | with_reducible apply FrameOpt.some | with_reducible apply Frame.ite | with_reducible apply Frame.iteFst | with_reducible apply FrameOpt.ite | fail_if_no_progress (with_reducible refine Frame.set ?_) | split | dsimp only | refine Frame.ofFst ?_ (by assumption) | refine Frame.ofSnd2 ?_ (by assumption) | refine FrameOpt.kept ?_ _ (by assumption) | refine FrameOut.kept ?_ _ (by assumption)))

theorem place_frame {s : State} {l : Nat} {p : Packet} {pm : List Part} {z0 : State} (hk : Frame pm z0 s) (m_bar : Part.bar ∈ pm := by assumption) (m_fab : Part.fab ∈ pm := by assumption) (m_out : Part.out ∈ pm := by assumption) : Frame pm z0 (place s l p) := by
  unfold place
  try dsimp only
  repeat (any_goals (first | intro _ | with_reducible assumption | with_reducible refine joinRead_frame ?_ | with_reducible refine transmit_frame ?_ | with_reducible refine mergeInto_frame ?_ | with_reducible refine setLink_frame ?_ | with_reducible apply FrameOpt.getD | exact FrameOpt.none | with_reducible apply FrameOpt.some | with_reducible apply Frame.ite | with_reducible apply Frame.iteFst | with_reducible apply FrameOpt.ite | fail_if_no_progress (with_reducible refine Frame.set ?_) | split | dsimp only | refine Frame.ofFst ?_ (by assumption) | refine Frame.ofSnd2 ?_ (by assumption) | refine FrameOpt.kept ?_ _ (by assumption) | refine FrameOut.kept ?_ _ (by assumption)))

theorem launchAnswer_frame {s : State} {p : Packet} {pm : List Part} {z0 : State} (hk : Frame pm z0 s) (m_bar : Part.bar ∈ pm := by assumption) (m_fab : Part.fab ∈ pm := by assumption) (m_out : Part.out ∈ pm := by assumption) (m_spent : Part.spent ∈ pm := by assumption) : Frame pm z0 (launchAnswer s p) := by
  unfold launchAnswer
  try dsimp only
  repeat (any_goals (first | intro _ | with_reducible assumption | with_reducible refine send_frame ?_ | with_reducible refine place_frame ?_ | with_reducible apply Frame.ite | with_reducible apply Frame.iteFst | fail_if_no_progress (with_reducible refine Frame.set ?_) | split | dsimp only | refine Frame.ofFst ?_ (by assumption) | refine Frame.ofSnd2 ?_ (by assumption) | refine FrameOpt.kept ?_ _ (by assumption) | refine FrameOut.kept ?_ _ (by assumption)))

theorem refusePacket_frame {s : State} {p : Packet} {st : Status} {pm : List Part} {z0 : State} (hk : Frame pm z0 s) (m_bar : Part.bar ∈ pm := by assumption) (m_fab : Part.fab ∈ pm := by assumption) (m_out : Part.out ∈ pm := by assumption) (m_spent : Part.spent ∈ pm := by assumption) : Frame pm z0 (refusePacket s p st) := by
  unfold refusePacket
  try dsimp only
  repeat (any_goals (first | intro _ | with_reducible assumption | with_reducible refine launchAnswer_frame ?_ | with_reducible apply Frame.ite | with_reducible apply Frame.iteFst | fail_if_no_progress (with_reducible refine Frame.set ?_) | split | dsimp only | refine Frame.ofFst ?_ (by assumption) | refine Frame.ofSnd2 ?_ (by assumption) | refine FrameOpt.kept ?_ _ (by assumption) | refine FrameOut.kept ?_ _ (by assumption)))

theorem launch_frame {s : State} {p : Packet} {pm : List Part} {z0 : State} (hk : Frame pm z0 s) (m_bar : Part.bar ∈ pm := by assumption) (m_fab : Part.fab ∈ pm := by assumption) (m_out : Part.out ∈ pm := by assumption) (m_spent : Part.spent ∈ pm := by assumption) : Frame pm z0 (launch s p) := by
  unfold launch
  try dsimp only
  repeat (any_goals (first | intro _ | with_reducible assumption | with_reducible refine send_frame ?_ | with_reducible refine place_frame ?_ | with_reducible refine refusePacket_frame ?_ | with_reducible apply Frame.ite | with_reducible apply Frame.iteFst | fail_if_no_progress (with_reducible refine Frame.set ?_) | split | dsimp only | refine Frame.ofFst ?_ (by assumption) | refine Frame.ofSnd2 ?_ (by assumption) | refine FrameOpt.kept ?_ _ (by assumption) | refine FrameOut.kept ?_ _ (by assumption)))

theorem refuseStale_frame {s : State} {p : Packet} {pm : List Part} {z0 : State} (hk : Frame pm z0 s) (m_bar : Part.bar ∈ pm := by assumption) (m_fab : Part.fab ∈ pm := by assumption) (m_out : Part.out ∈ pm := by assumption) (m_spent : Part.spent ∈ pm := by assumption) : Frame pm z0 (refuseStale s p) := by
  unfold refuseStale
  try dsimp only
  repeat (any_goals (first | intro _ | with_reducible assumption | with_reducible refine refusePacket_frame ?_ | with_reducible refine count_frame ?_ | with_reducible apply Frame.ite | with_reducible apply Frame.iteFst | fail_if_no_progress (with_reducible refine Frame.set ?_) | split | dsimp only | refine Frame.ofFst ?_ (by assumption) | refine Frame.ofSnd2 ?_ (by assumption) | refine FrameOpt.kept ?_ _ (by assumption) | refine FrameOut.kept ?_ _ (by assumption)))

theorem copyAnswers_frame {s : State} {target : ModuleId} {src : ModuleId} {rseq : Nat} {p : Packet} {pm : List Part} {z0 : State} (hk : Frame pm z0 s) (m_bar : Part.bar ∈ pm := by assumption) (m_fab : Part.fab ∈ pm := by assumption) (m_out : Part.out ∈ pm := by assumption) (m_spent : Part.spent ∈ pm := by assumption) : Frame pm z0 (copyAnswers s target src rseq p) := by
  unfold copyAnswers
  try dsimp only
  repeat (any_goals (first | intro _ | with_reducible assumption | with_reducible refine launchAnswer_frame ?_ | with_reducible apply foldl_frame | with_reducible apply foldl_frame_fst | with_reducible apply Frame.ite | with_reducible apply Frame.iteFst | fail_if_no_progress (with_reducible refine Frame.set ?_) | split | dsimp only | refine Frame.ofFst ?_ (by assumption) | refine Frame.ofSnd2 ?_ (by assumption) | refine FrameOpt.kept ?_ _ (by assumption) | refine FrameOut.kept ?_ _ (by assumption)))

theorem forwardPacket_frame {s : State} {p : Packet} {pm : List Part} {z0 : State} (hk : Frame pm z0 s) (m_bar : Part.bar ∈ pm := by assumption) (m_fab : Part.fab ∈ pm := by assumption) (m_out : Part.out ∈ pm := by assumption) (m_spent : Part.spent ∈ pm := by assumption) : Frame pm z0 (forwardPacket s p) := by
  unfold forwardPacket
  try dsimp only
  repeat (any_goals (first | intro _ | with_reducible assumption | with_reducible refine refuseStale_frame ?_ | with_reducible refine count_frame ?_ | with_reducible refine launch_frame ?_ | with_reducible refine copyAnswers_frame ?_ | with_reducible apply Frame.ite | with_reducible apply Frame.iteFst | fail_if_no_progress (with_reducible refine Frame.set ?_) | split | dsimp only | refine Frame.ofFst ?_ (by assumption) | refine Frame.ofSnd2 ?_ (by assumption) | refine FrameOpt.kept ?_ _ (by assumption) | refine FrameOut.kept ?_ _ (by assumption)))

theorem setTgt_frame {s : State} {src : ModuleId} {f : TgtCtx → TgtCtx} {pm : List Part} {z0 : State} (hk : Frame pm z0 s) (m_fab : Part.fab ∈ pm := by assumption) : Frame pm z0 (setTgt s src f) := by
  unfold setTgt
  try dsimp only
  repeat (any_goals (first | intro _ | with_reducible assumption | with_reducible apply Frame.ite | with_reducible apply Frame.iteFst | fail_if_no_progress (with_reducible refine Frame.set ?_) | split | dsimp only | refine Frame.ofFst ?_ (by assumption) | refine Frame.ofSnd2 ?_ (by assumption) | refine FrameOpt.kept ?_ _ (by assumption) | refine FrameOut.kept ?_ _ (by assumption)))

theorem markSeq_frame {s : State} {src : ModuleId} {q : Nat} {pm : List Part} {z0 : State} (hk : Frame pm z0 s) (m_fab : Part.fab ∈ pm := by assumption) : Frame pm z0 (markSeq s src q) := by
  unfold markSeq
  try dsimp only
  repeat (any_goals (first | intro _ | with_reducible assumption | with_reducible refine setTgt_frame ?_ | with_reducible apply Frame.ite | with_reducible apply Frame.iteFst | fail_if_no_progress (with_reducible refine Frame.set ?_) | split | dsimp only | refine Frame.ofFst ?_ (by assumption) | refine Frame.ofSnd2 ?_ (by assumption) | refine FrameOpt.kept ?_ _ (by assumption) | refine FrameOut.kept ?_ _ (by assumption)))

theorem ackFloor_frame {s : State} {p : Packet} {pm : List Part} {z0 : State} (hk : Frame pm z0 s) (m_bar : Part.bar ∈ pm := by assumption) (m_fab : Part.fab ∈ pm := by assumption) (m_out : Part.out ∈ pm := by assumption) (m_spent : Part.spent ∈ pm := by assumption) : Frame pm z0 (ackFloor s p) := by
  unfold ackFloor
  try dsimp only
  repeat (any_goals (first | intro _ | with_reducible assumption | with_reducible refine launchAnswer_frame ?_ | with_reducible apply Frame.ite | with_reducible apply Frame.iteFst | fail_if_no_progress (with_reducible refine Frame.set ?_) | split | dsimp only | refine Frame.ofFst ?_ (by assumption) | refine Frame.ofSnd2 ?_ (by assumption) | refine FrameOpt.kept ?_ _ (by assumption) | refine FrameOut.kept ?_ _ (by assumption)))

theorem setMem_frame {pm : List Part} {s : State} {mm : List Host.Cell} {z0 : State} (hm : memWf s.fab.mem = true → memWf mm = true) (hk : Frame pm z0 s) (m_fab : Part.fab ∈ pm := by assumption) : Frame pm z0 (setMem s mm) :=
  hk.trans ⟨rfl, rfl, hm, fun p hp => by cases p <;> simp_all [samePart, setMem]⟩

theorem applyMem_frame {pm : List Part} {s : State} {t o : Nat} {p : List Byte} {z0 : State} (hk : Frame pm z0 s) (m_fab : Part.fab ∈ pm := by assumption) : Frame pm z0 (applyMem s t o p).1 := by
  unfold applyMem
  split
  · exact hk
  · split
    · exact setMem_frame memWf_writeMask hk
    · generalize leNat (memReadBytes s.fab.mem o 8) = v
      dsimp only
      split
      · exact setMem_frame memWf_writeBytes hk
      · split
        · exact setMem_frame memWf_writeBytes hk
        · exact hk

theorem recordAtom_frame {s : State} {src : ModuleId} {q : Nat} {v : Nat} {pm : List Part} {z0 : State} (hk : Frame pm z0 s) (m_fab : Part.fab ∈ pm := by assumption) : Frame pm z0 (recordAtom s src q v) := by
  unfold recordAtom
  try dsimp only
  repeat (any_goals (first | intro _ | with_reducible assumption | with_reducible refine setTgt_frame ?_ | with_reducible apply Frame.ite | with_reducible apply Frame.iteFst | fail_if_no_progress (with_reducible refine Frame.set ?_) | split | dsimp only | refine Frame.ofFst ?_ (by assumption) | refine Frame.ofSnd2 ?_ (by assumption) | refine FrameOpt.kept ?_ _ (by assumption) | refine FrameOut.kept ?_ _ (by assumption)))

theorem recordRefusal_frame {s : State} {src : ModuleId} {q : Nat} {st : Status} {pm : List Part} {z0 : State} (hk : Frame pm z0 s) (m_fab : Part.fab ∈ pm := by assumption) : Frame pm z0 (recordRefusal s src q st) := by
  unfold recordRefusal
  try dsimp only
  repeat (any_goals (first | intro _ | with_reducible assumption | with_reducible refine setTgt_frame ?_ | with_reducible apply Frame.ite | with_reducible apply Frame.iteFst | fail_if_no_progress (with_reducible refine Frame.set ?_) | split | dsimp only | refine Frame.ofFst ?_ (by assumption) | refine Frame.ofSnd2 ?_ (by assumption) | refine FrameOpt.kept ?_ _ (by assumption) | refine FrameOut.kept ?_ _ (by assumption)))

theorem serveOp_frame {s : State} {m : MapSet} {old : Bool} {p : Packet} {pm : List Part} {z0 : State} (hk : Frame pm z0 s) (m_bar : Part.bar ∈ pm := by assumption) (m_fab : Part.fab ∈ pm := by assumption) (m_out : Part.out ∈ pm := by assumption) (m_spent : Part.spent ∈ pm := by assumption) : Frame pm z0 (serveOp s m old p) := by
  unfold serveOp
  try dsimp only
  repeat (any_goals (first | intro _ | with_reducible assumption | with_reducible refine launchAnswer_frame ?_ | with_reducible refine ackFloor_frame ?_ | with_reducible refine recordRefusal_frame ?_ | with_reducible refine applyMem_frame ?_ | with_reducible refine recordAtom_frame ?_ | with_reducible apply Frame.ite | with_reducible apply Frame.iteFst | fail_if_no_progress (with_reducible refine Frame.set ?_) | split | dsimp only | refine Frame.ofFst ?_ (by assumption) | refine Frame.ofSnd2 ?_ (by assumption) | refine FrameOpt.kept ?_ _ (by assumption) | refine FrameOut.kept ?_ _ (by assumption)))

theorem releaseHeld_frame {s : State} {src : ModuleId} {pm : List Part} {z0 : State} (hk : Frame pm z0 s) (m_bar : Part.bar ∈ pm := by assumption) (m_fab : Part.fab ∈ pm := by assumption) (m_out : Part.out ∈ pm := by assumption) (m_spent : Part.spent ∈ pm := by assumption) : Frame pm z0 (releaseHeld s src) := by
  unfold releaseHeld
  try dsimp only
  repeat (any_goals (first | intro _ | with_reducible assumption | with_reducible refine serveOp_frame ?_ | with_reducible refine setTgt_frame ?_ | with_reducible apply foldl_frame | with_reducible apply foldl_frame_fst | with_reducible apply Frame.ite | with_reducible apply Frame.iteFst | fail_if_no_progress (with_reducible refine Frame.set ?_) | split | dsimp only | refine Frame.ofFst ?_ (by assumption) | refine Frame.ofSnd2 ?_ (by assumption) | refine FrameOpt.kept ?_ _ (by assumption) | refine FrameOut.kept ?_ _ (by assumption)))

theorem answerDup_frame {s0 : State} {p : Packet} {pm : List Part} {z0 : State} (hk : Frame pm z0 s0) (m_bar : Part.bar ∈ pm := by assumption) (m_fab : Part.fab ∈ pm := by assumption) (m_out : Part.out ∈ pm := by assumption) (m_spent : Part.spent ∈ pm := by assumption) : Frame pm z0 (answerDup s0 p) := by
  unfold answerDup
  try dsimp only
  repeat (any_goals (first | intro _ | with_reducible assumption | with_reducible refine count_frame ?_ | with_reducible refine launchAnswer_frame ?_ | with_reducible refine ackFloor_frame ?_ | with_reducible apply Frame.ite | with_reducible apply Frame.iteFst | fail_if_no_progress (with_reducible refine Frame.set ?_) | split | dsimp only | refine Frame.ofFst ?_ (by assumption) | refine Frame.ofSnd2 ?_ (by assumption) | refine FrameOpt.kept ?_ _ (by assumption) | refine FrameOut.kept ?_ _ (by assumption)))

theorem serveCombined_frame {pm : List Part} {s : State} {m : MapSet} {old : Bool} {p : Packet} {z0 : State} (hk : Frame pm z0 s) (m_bar : Part.bar ∈ pm := by assumption) (m_fab : Part.fab ∈ pm := by assumption) (m_out : Part.out ∈ pm := by assumption) (m_spent : Part.spent ∈ pm := by assumption) :
    Frame pm z0 (serveCombined s m old p) := by
  unfold serveCombined
  generalize p.payload.drop (p.payload.length - 16) = w
  extract_lets typ off es swap status step r payload
  refine launchAnswer_frame (foldl_frame_fst hk (fun q x h => ?_))
  simp only [step]
  clear_value status
  split
  · exact h
  · split
    · exact releaseHeld_frame (markSeq_frame h)
    · cases status with
      | some st => exact releaseHeld_frame (recordRefusal_frame (markSeq_frame h))
      | none => exact releaseHeld_frame (recordAtom_frame (applyMem_frame (markSeq_frame h)))

theorem holdTransfer_frame {s : State} {p : Packet} {pm : List Part} {z0 : State} (hk : Frame pm z0 s) (m_fab : Part.fab ∈ pm := by assumption) : Frame pm z0 (holdTransfer s p) := by
  unfold holdTransfer
  try dsimp only
  repeat (any_goals (first | intro _ | with_reducible assumption | with_reducible apply Frame.ite | with_reducible apply Frame.iteFst | fail_if_no_progress (with_reducible refine Frame.set ?_) | split | dsimp only | refine Frame.ofFst ?_ (by assumption) | refine Frame.ofSnd2 ?_ (by assumption) | refine FrameOpt.kept ?_ _ (by assumption) | refine FrameOut.kept ?_ _ (by assumption)))

theorem takeRequest_frame {typ : Nat} {s : State} {p : Packet} {pm : List Part} {z0 : State} (hk : Frame pm z0 s) (m_bar : Part.bar ∈ pm := by assumption) (m_fab : Part.fab ∈ pm := by assumption) (m_fault : Part.fault ∈ pm := by assumption) (m_out : Part.out ∈ pm := by assumption) (m_spent : Part.spent ∈ pm := by assumption) : Frame pm z0 (takeRequest typ s p) := by
  unfold takeRequest
  try dsimp only
  repeat (any_goals (first | intro _ | with_reducible assumption | with_reducible refine count_frame ?_ | with_reducible refine forwardPacket_frame ?_ | with_reducible refine releaseHeld_frame ?_ | with_reducible refine markSeq_frame ?_ | with_reducible refine refuseStale_frame ?_ | with_reducible refine answerDup_frame ?_ | with_reducible refine malformed_frame ?_ | with_reducible refine setTgt_frame ?_ | with_reducible refine holdTransfer_frame ?_ | with_reducible refine serveCombined_frame ?_ | with_reducible refine serveOp_frame ?_ | with_reducible refine ackFloor_frame ?_ | with_reducible apply Frame.ite | with_reducible apply Frame.iteFst | fail_if_no_progress (with_reducible refine Frame.set ?_) | split | dsimp only | refine Frame.ofFst ?_ (by assumption) | refine Frame.ofSnd2 ?_ (by assumption) | refine FrameOpt.kept ?_ _ (by assumption) | refine FrameOut.kept ?_ _ (by assumption)))

theorem settleFences_frame {s : State} {pm : List Part} {z0 : State} (hk : Frame pm z0 s) (m_host : Part.host ∈ pm := by assumption) (m_fab : Part.fab ∈ pm := by assumption) (m_fault : Part.fault ∈ pm := by assumption) (m_out : Part.out ∈ pm := by assumption) (m_spent : Part.spent ∈ pm := by assumption) : Frame pm z0 (settleFences s) := by
  unfold settleFences
  try dsimp only
  repeat (any_goals (first | intro _ | with_reducible assumption | with_reducible refine complete_frame ?_ | with_reducible apply foldl_frame | with_reducible apply foldl_frame_fst | with_reducible apply Frame.ite | with_reducible apply Frame.iteFst | fail_if_no_progress (with_reducible refine Frame.set ?_) | split | dsimp only | refine Frame.ofFst ?_ (by assumption) | refine Frame.ofSnd2 ?_ (by assumption) | refine FrameOpt.kept ?_ _ (by assumption) | refine FrameOut.kept ?_ _ (by assumption)))

theorem finishOp_frame {s : State} {k : Nat} {o : Rma} {pm : List Part} {z0 : State} (hk : Frame pm z0 s) (m_host : Part.host ∈ pm := by assumption) (m_fab : Part.fab ∈ pm := by assumption) (m_fault : Part.fault ∈ pm := by assumption) (m_out : Part.out ∈ pm := by assumption) (m_spent : Part.spent ∈ pm := by assumption) : Frame pm z0 (finishOp s k o) := by
  unfold finishOp
  try dsimp only
  repeat (any_goals (first | intro _ | with_reducible assumption | with_reducible refine settleFences_frame ?_ | with_reducible refine complete_frame ?_ | with_reducible apply Frame.ite | with_reducible apply Frame.iteFst | fail_if_no_progress (with_reducible refine Frame.set ?_) | split | dsimp only | refine Frame.ofFst ?_ (by assumption) | refine Frame.ofSnd2 ?_ (by assumption) | refine FrameOpt.kept ?_ _ (by assumption) | refine FrameOut.kept ?_ _ (by assumption)))

theorem stepOp_frame {s : State} {k : Nat} {st : Status} {bytes : Nat} {old : Nat} {pm : List Part} {z0 : State} (hk : Frame pm z0 s) (m_host : Part.host ∈ pm := by assumption) (m_fab : Part.fab ∈ pm := by assumption) (m_fault : Part.fault ∈ pm := by assumption) (m_out : Part.out ∈ pm := by assumption) (m_spent : Part.spent ∈ pm := by assumption) : Frame pm z0 (stepOp s k st bytes old) := by
  unfold stepOp
  try dsimp only
  repeat (any_goals (first | intro _ | with_reducible assumption | with_reducible refine finishOp_frame ?_ | with_reducible apply Frame.ite | with_reducible apply Frame.iteFst | fail_if_no_progress (with_reducible refine Frame.set ?_) | split | dsimp only | refine Frame.ofFst ?_ (by assumption) | refine Frame.ofSnd2 ?_ (by assumption) | refine FrameOpt.kept ?_ _ (by assumption) | refine FrameOut.kept ?_ _ (by assumption)))

theorem spend_frame {s : State} {b : Nat} {n : Nat} {pm : List Part} {z0 : State} (hk : Frame pm z0 s) (m_spent : Part.spent ∈ pm := by assumption) : Frame pm z0 (spend s b n) := by
  unfold spend
  try dsimp only
  repeat (any_goals (first | intro _ | with_reducible assumption | with_reducible refine charge_frame ?_ | with_reducible apply Frame.ite | with_reducible apply Frame.iteFst | fail_if_no_progress (with_reducible refine Frame.set ?_) | split | dsimp only | refine Frame.ofFst ?_ (by assumption) | refine Frame.ofSnd2 ?_ (by assumption) | refine FrameOpt.kept ?_ _ (by assumption) | refine FrameOut.kept ?_ _ (by assumption)))

theorem sendPair_frame {s : State} {p : Packet} {op : Option Nat} {pm : List Part} {z0 : State} (hk : Frame pm z0 s) (m_bar : Part.bar ∈ pm := by assumption) (m_fab : Part.fab ∈ pm := by assumption) (m_out : Part.out ∈ pm := by assumption) (m_spent : Part.spent ∈ pm := by assumption) : Frame pm z0 (sendPair s p op) := by
  unfold sendPair
  try dsimp only
  repeat (any_goals (first | intro _ | with_reducible assumption | with_reducible refine launch_frame ?_ | with_reducible refine setSrc_frame ?_ | with_reducible apply Frame.ite | with_reducible apply Frame.iteFst | fail_if_no_progress (with_reducible refine Frame.set ?_) | split | dsimp only | refine Frame.ofFst ?_ (by assumption) | refine Frame.ofSnd2 ?_ (by assumption) | refine FrameOpt.kept ?_ _ (by assumption) | refine FrameOut.kept ?_ _ (by assumption)))

theorem pumpRack_frame {s : State} {pm : List Part} {z0 : State} (hk : Frame pm z0 s) (m_bar : Part.bar ∈ pm := by assumption) (m_fab : Part.fab ∈ pm := by assumption) (m_out : Part.out ∈ pm := by assumption) (m_spent : Part.spent ∈ pm := by assumption) : Frame pm z0 (pumpRack s) := by
  unfold pumpRack
  try dsimp only
  repeat (any_goals (first | intro _ | with_reducible assumption | with_reducible refine sendPair_frame ?_ | with_reducible refine spend_frame ?_ | with_reducible apply foldl_frame | with_reducible apply foldl_frame_fst | with_reducible apply Frame.ite | with_reducible apply Frame.iteFst | fail_if_no_progress (with_reducible refine Frame.set ?_) | split | dsimp only | refine Frame.ofFst ?_ (by assumption) | refine Frame.ofSnd2 ?_ (by assumption) | refine FrameOpt.kept ?_ _ (by assumption) | refine FrameOut.kept ?_ _ (by assumption)))

theorem dropOut_frame {s : State} {d : ModuleId} {q : Nat} {pm : List Part} {z0 : State} (hk : Frame pm z0 s) (m_fab : Part.fab ∈ pm := by assumption) : Frame pm z0 (dropOut s d q) := by
  unfold dropOut
  try dsimp only
  repeat (any_goals (first | intro _ | with_reducible assumption | with_reducible refine setSrc_frame ?_ | with_reducible apply Frame.ite | with_reducible apply Frame.iteFst | fail_if_no_progress (with_reducible refine Frame.set ?_) | split | dsimp only | refine Frame.ofFst ?_ (by assumption) | refine Frame.ofSnd2 ?_ (by assumption) | refine FrameOpt.kept ?_ _ (by assumption) | refine FrameOut.kept ?_ _ (by assumption)))

theorem handOut_frame {s : State} {target : ModuleId} {rseq : Nat} {p : Packet} {st : Status} {pm : List Part} {z0 : State} (hk : Frame pm z0 s) (m_bar : Part.bar ∈ pm := by assumption) (m_fab : Part.fab ∈ pm := by assumption) (m_out : Part.out ∈ pm := by assumption) (m_spent : Part.spent ∈ pm := by assumption) : Frame pm z0 (handOut s target rseq p st) := by
  unfold handOut
  try dsimp only
  repeat (any_goals (first | intro _ | with_reducible assumption | with_reducible refine launchAnswer_frame ?_ | with_reducible apply foldl_frame | with_reducible apply foldl_frame_fst | with_reducible apply Frame.ite | with_reducible apply Frame.iteFst | fail_if_no_progress (with_reducible refine Frame.set ?_) | split | dsimp only | refine Frame.ofFst ?_ (by assumption) | refine Frame.ofSnd2 ?_ (by assumption) | refine FrameOpt.kept ?_ _ (by assumption) | refine FrameOut.kept ?_ _ (by assumption)))

theorem takeAnswerOf_frame {s : State} {d : ModuleId} {q : Nat} {p : Packet} {st : Status} {pm : List Part} {z0 : State} (hk : Frame pm z0 s) (m_bar : Part.bar ∈ pm := by assumption) (m_host : Part.host ∈ pm := by assumption) (m_fab : Part.fab ∈ pm := by assumption) (m_fault : Part.fault ∈ pm := by assumption) (m_out : Part.out ∈ pm := by assumption) (m_spent : Part.spent ∈ pm := by assumption) : Frame pm z0 (takeAnswerOf s d q p st) := by
  unfold takeAnswerOf
  try dsimp only
  repeat (any_goals (first | intro _ | with_reducible assumption | with_reducible refine dropOut_frame ?_ | with_reducible refine stepOp_frame ?_ | with_reducible refine cplWrite_frame ?_ | with_reducible refine pumpRack_frame ?_ | with_reducible apply Frame.ite | with_reducible apply Frame.iteFst | fail_if_no_progress (with_reducible refine Frame.set ?_) | split | dsimp only | refine Frame.ofFst ?_ (by assumption) | refine Frame.ofSnd2 ?_ (by assumption) | refine FrameOpt.kept ?_ _ (by assumption) | refine FrameOut.kept ?_ _ (by assumption)))

theorem takeStale_frame {s : State} {p : Packet} {pm : List Part} {z0 : State} (hk : Frame pm z0 s) (m_bar : Part.bar ∈ pm := by assumption) (m_host : Part.host ∈ pm := by assumption) (m_fab : Part.fab ∈ pm := by assumption) (m_fault : Part.fault ∈ pm := by assumption) (m_out : Part.out ∈ pm := by assumption) (m_spent : Part.spent ∈ pm := by assumption) : Frame pm z0 (takeStale s p) := by
  unfold takeStale
  try dsimp only
  repeat (any_goals (first | intro _ | with_reducible assumption | with_reducible refine dropOut_frame ?_ | with_reducible refine sendPair_frame ?_ | with_reducible refine stepOp_frame ?_ | with_reducible apply Frame.ite | with_reducible apply Frame.iteFst | fail_if_no_progress (with_reducible refine Frame.set ?_) | split | dsimp only | refine Frame.ofFst ?_ (by assumption) | refine Frame.ofSnd2 ?_ (by assumption) | refine FrameOpt.kept ?_ _ (by assumption) | refine FrameOut.kept ?_ _ (by assumption)))

theorem takeResponse_frame {typ : Nat} {s : State} {p : Packet} {pm : List Part} {z0 : State} (hk : Frame pm z0 s) (m_bar : Part.bar ∈ pm := by assumption) (m_host : Part.host ∈ pm := by assumption) (m_fab : Part.fab ∈ pm := by assumption) (m_fault : Part.fault ∈ pm := by assumption) (m_out : Part.out ∈ pm := by assumption) (m_spent : Part.spent ∈ pm := by assumption) : Frame pm z0 (takeResponse typ s p) := by
  unfold takeResponse
  try dsimp only
  repeat (any_goals (first | intro _ | with_reducible assumption | with_reducible refine count_frame ?_ | with_reducible refine forwardPacket_frame ?_ | with_reducible refine takeStale_frame ?_ | with_reducible refine copyAnswers_frame ?_ | with_reducible refine handOut_frame ?_ | with_reducible refine takeAnswerOf_frame ?_ | with_reducible apply Frame.ite | with_reducible apply Frame.iteFst | fail_if_no_progress (with_reducible refine Frame.set ?_) | split | dsimp only | refine Frame.ofFst ?_ (by assumption) | refine Frame.ofSnd2 ?_ (by assumption) | refine FrameOpt.kept ?_ _ (by assumption) | refine FrameOut.kept ?_ _ (by assumption)))

theorem takeAck_frame {s : State} {p : Packet} {pm : List Part} {z0 : State} (hk : Frame pm z0 s) (m_bar : Part.bar ∈ pm := by assumption) (m_host : Part.host ∈ pm := by assumption) (m_fab : Part.fab ∈ pm := by assumption) (m_fault : Part.fault ∈ pm := by assumption) (m_out : Part.out ∈ pm := by assumption) (m_spent : Part.spent ∈ pm := by assumption) : Frame pm z0 (takeAck s p) := by
  unfold takeAck
  try dsimp only
  repeat (any_goals (first | intro _ | with_reducible assumption | with_reducible refine count_frame ?_ | with_reducible refine forwardPacket_frame ?_ | with_reducible refine takeStale_frame ?_ | with_reducible refine takeAnswerOf_frame ?_ | with_reducible apply foldl_frame | with_reducible apply foldl_frame_fst | with_reducible apply Frame.ite | with_reducible apply Frame.iteFst | fail_if_no_progress (with_reducible refine Frame.set ?_) | split | dsimp only | refine Frame.ofFst ?_ (by assumption) | refine Frame.ofSnd2 ?_ (by assumption) | refine FrameOpt.kept ?_ _ (by assumption) | refine FrameOut.kept ?_ _ (by assumption)))

theorem replayPacket_frame {s : State} {d : ModuleId} {q : Nat} {pm : List Part} {z0 : State} (hk : Frame pm z0 s) (m_bar : Part.bar ∈ pm := by assumption) (m_host : Part.host ∈ pm := by assumption) (m_fab : Part.fab ∈ pm := by assumption) (m_fault : Part.fault ∈ pm := by assumption) (m_out : Part.out ∈ pm := by assumption) (m_spent : Part.spent ∈ pm := by assumption) : Frame pm z0 (replayPacket s d q) := by
  unfold replayPacket
  try dsimp only
  repeat (any_goals (first | intro _ | with_reducible assumption | with_reducible refine setSrc_frame ?_ | with_reducible refine launch_frame ?_ | with_reducible refine takeAnswerOf_frame ?_ | with_reducible refine handOut_frame ?_ | with_reducible apply Frame.ite | with_reducible apply Frame.iteFst | fail_if_no_progress (with_reducible refine Frame.set ?_) | split | dsimp only | refine Frame.ofFst ?_ (by assumption) | refine Frame.ofSnd2 ?_ (by assumption) | refine FrameOpt.kept ?_ _ (by assumption) | refine FrameOut.kept ?_ _ (by assumption)))

theorem linkDown_frame {s : State} {l : Nat} {cause : Nat} {st : optParam LinkState LinkState.down} {pm : List Part} {z0 : State} (hk : Frame pm z0 s) (m_bar : Part.bar ∈ pm := by assumption) (m_fab : Part.fab ∈ pm := by assumption) (m_fault : Part.fault ∈ pm := by assumption) (m_out : Part.out ∈ pm := by assumption) (m_spent : Part.spent ∈ pm := by assumption) : Frame pm z0 (linkDown s l cause st) := by
  unfold linkDown
  try dsimp only
  repeat (any_goals (first | intro _ | with_reducible assumption | with_reducible refine setLink_frame ?_ | with_reducible refine returnCredits_frame ?_ | with_reducible refine launch_frame ?_ | with_reducible refine logErr_frame ?_ | with_reducible apply foldl_frame | with_reducible apply foldl_frame_fst | with_reducible apply Frame.ite | with_reducible apply Frame.iteFst | fail_if_no_progress (with_reducible refine Frame.set ?_) | split | dsimp only | refine Frame.ofFst ?_ (by assumption) | refine Frame.ofSnd2 ?_ (by assumption) | refine FrameOpt.kept ?_ _ (by assumption) | refine FrameOut.kept ?_ _ (by assumption)))

theorem owe_frame {s : State} {link : Nat} {p : Packet} {pm : List Part} {z0 : State} (hk : Frame pm z0 s) (m_fab : Part.fab ∈ pm := by assumption) : Frame pm z0 (owe s link p) := by
  unfold owe
  try dsimp only
  repeat (any_goals (first | intro _ | with_reducible assumption | with_reducible apply Frame.ite | with_reducible apply Frame.iteFst | fail_if_no_progress (with_reducible refine Frame.set ?_) | split | dsimp only | refine Frame.ofFst ?_ (by assumption) | refine Frame.ofSnd2 ?_ (by assumption) | refine FrameOpt.kept ?_ _ (by assumption) | refine FrameOut.kept ?_ _ (by assumption)))

theorem execPacketForward_frame {t : Stamp} {link : Nat} {p : Packet} {s : State} {pm : List Part} {z0 : State} (hk : Frame pm z0 s) (m_time : Part.time ∈ pm := by assumption) (m_bar : Part.bar ∈ pm := by assumption) (m_fab : Part.fab ∈ pm := by assumption) (m_out : Part.out ∈ pm := by assumption) (m_spent : Part.spent ∈ pm := by assumption) : FrameOut pm z0 (execPacketForward t link p s) := by
  unfold execPacketForward
  try dsimp only
  repeat (any_goals (first | intro _ | with_reducible assumption | with_reducible refine run_frame ?_ ?_ | with_reducible refine returnCredits_frame ?_ | with_reducible refine count_frame ?_ | with_reducible refine owe_frame ?_ | with_reducible refine send_frame ?_ | with_reducible refine forwardPacket_frame ?_ | with_reducible apply FrameOut.next | exact FrameOut.fault | with_reducible apply Frame.ite | with_reducible apply Frame.iteFst | with_reducible apply FrameOut.ite | fail_if_no_progress (with_reducible refine Frame.set ?_) | split | dsimp only | refine Frame.ofFst ?_ (by assumption) | refine Frame.ofSnd2 ?_ (by assumption) | refine FrameOpt.kept ?_ _ (by assumption) | refine FrameOut.kept ?_ _ (by assumption)))

theorem runPacket_frame {t : Stamp} {p : Packet} {f : State → State} {s : State} {pm : List Part} {z0 : State} (hf : ∀ (z : State) (x0 : State), Frame pm z x0 → Frame pm z (f x0)) (hk : Frame pm z0 s) (m_time : Part.time ∈ pm := by assumption) (m_pwr : Part.pwr ∈ pm := by assumption) : FrameOut pm z0 (runPacket t p f s) := by
  unfold runPacket
  try dsimp only
  repeat (any_goals (first | intro _ | with_reducible assumption | with_reducible refine run_frame ?_ ?_ | with_reducible refine noteLink_frame ?_ | with_reducible apply hf | with_reducible apply FrameOut.next | exact FrameOut.fault | with_reducible apply Frame.ite | with_reducible apply Frame.iteFst | with_reducible apply FrameOut.ite | fail_if_no_progress (with_reducible refine Frame.set ?_) | split | dsimp only | refine Frame.ofFst ?_ (by assumption) | refine Frame.ofSnd2 ?_ (by assumption) | refine FrameOpt.kept ?_ _ (by assumption) | refine FrameOut.kept ?_ _ (by assumption)))

theorem execRead_frame {t : Stamp} {p : Packet} {s : State} {pm : List Part} {z0 : State} (hk : Frame pm z0 s) (m_time : Part.time ∈ pm := by assumption) (m_bar : Part.bar ∈ pm := by assumption) (m_fab : Part.fab ∈ pm := by assumption) (m_fault : Part.fault ∈ pm := by assumption) (m_pwr : Part.pwr ∈ pm := by assumption) (m_out : Part.out ∈ pm := by assumption) (m_spent : Part.spent ∈ pm := by assumption) : FrameOut pm z0 (execRead t p s) := by
  unfold execRead
  try dsimp only
  repeat (any_goals (first | intro _ | with_reducible assumption | with_reducible refine runPacket_frame ?_ ?_ | with_reducible refine takeRequest_frame ?_ | with_reducible apply FrameOut.next | exact FrameOut.fault | with_reducible apply Frame.ite | with_reducible apply Frame.iteFst | with_reducible apply FrameOut.ite | fail_if_no_progress (with_reducible refine Frame.set ?_) | split | dsimp only | refine Frame.ofFst ?_ (by assumption) | refine Frame.ofSnd2 ?_ (by assumption) | refine FrameOpt.kept ?_ _ (by assumption) | refine FrameOut.kept ?_ _ (by assumption)))

theorem execWrite_frame {t : Stamp} {p : Packet} {s : State} {pm : List Part} {z0 : State} (hk : Frame pm z0 s) (m_time : Part.time ∈ pm := by assumption) (m_bar : Part.bar ∈ pm := by assumption) (m_fab : Part.fab ∈ pm := by assumption) (m_fault : Part.fault ∈ pm := by assumption) (m_pwr : Part.pwr ∈ pm := by assumption) (m_out : Part.out ∈ pm := by assumption) (m_spent : Part.spent ∈ pm := by assumption) : FrameOut pm z0 (execWrite t p s) := by
  unfold execWrite
  try dsimp only
  repeat (any_goals (first | intro _ | with_reducible assumption | with_reducible refine runPacket_frame ?_ ?_ | with_reducible refine takeRequest_frame ?_ | with_reducible apply FrameOut.next | exact FrameOut.fault | with_reducible apply Frame.ite | with_reducible apply Frame.iteFst | with_reducible apply FrameOut.ite | fail_if_no_progress (with_reducible refine Frame.set ?_) | split | dsimp only | refine Frame.ofFst ?_ (by assumption) | refine Frame.ofSnd2 ?_ (by assumption) | refine FrameOpt.kept ?_ _ (by assumption) | refine FrameOut.kept ?_ _ (by assumption)))

theorem execAdd_frame {t : Stamp} {p : Packet} {s : State} {pm : List Part} {z0 : State} (hk : Frame pm z0 s) (m_time : Part.time ∈ pm := by assumption) (m_bar : Part.bar ∈ pm := by assumption) (m_fab : Part.fab ∈ pm := by assumption) (m_fault : Part.fault ∈ pm := by assumption) (m_pwr : Part.pwr ∈ pm := by assumption) (m_out : Part.out ∈ pm := by assumption) (m_spent : Part.spent ∈ pm := by assumption) : FrameOut pm z0 (execAdd t p s) := by
  unfold execAdd
  try dsimp only
  repeat (any_goals (first | intro _ | with_reducible assumption | with_reducible refine runPacket_frame ?_ ?_ | with_reducible refine takeRequest_frame ?_ | with_reducible apply FrameOut.next | exact FrameOut.fault | with_reducible apply Frame.ite | with_reducible apply Frame.iteFst | with_reducible apply FrameOut.ite | fail_if_no_progress (with_reducible refine Frame.set ?_) | split | dsimp only | refine Frame.ofFst ?_ (by assumption) | refine Frame.ofSnd2 ?_ (by assumption) | refine FrameOpt.kept ?_ _ (by assumption) | refine FrameOut.kept ?_ _ (by assumption)))

theorem execCas_frame {t : Stamp} {p : Packet} {s : State} {pm : List Part} {z0 : State} (hk : Frame pm z0 s) (m_time : Part.time ∈ pm := by assumption) (m_bar : Part.bar ∈ pm := by assumption) (m_fab : Part.fab ∈ pm := by assumption) (m_fault : Part.fault ∈ pm := by assumption) (m_pwr : Part.pwr ∈ pm := by assumption) (m_out : Part.out ∈ pm := by assumption) (m_spent : Part.spent ∈ pm := by assumption) : FrameOut pm z0 (execCas t p s) := by
  unfold execCas
  try dsimp only
  repeat (any_goals (first | intro _ | with_reducible assumption | with_reducible refine runPacket_frame ?_ ?_ | with_reducible refine takeRequest_frame ?_ | with_reducible apply FrameOut.next | exact FrameOut.fault | with_reducible apply Frame.ite | with_reducible apply Frame.iteFst | with_reducible apply FrameOut.ite | fail_if_no_progress (with_reducible refine Frame.set ?_) | split | dsimp only | refine Frame.ofFst ?_ (by assumption) | refine Frame.ofSnd2 ?_ (by assumption) | refine FrameOpt.kept ?_ _ (by assumption) | refine FrameOut.kept ?_ _ (by assumption)))

theorem execFencePacket_frame {t : Stamp} {p : Packet} {s : State} {pm : List Part} {z0 : State} (hk : Frame pm z0 s) (m_time : Part.time ∈ pm := by assumption) (m_bar : Part.bar ∈ pm := by assumption) (m_fab : Part.fab ∈ pm := by assumption) (m_fault : Part.fault ∈ pm := by assumption) (m_pwr : Part.pwr ∈ pm := by assumption) (m_out : Part.out ∈ pm := by assumption) (m_spent : Part.spent ∈ pm := by assumption) : FrameOut pm z0 (execFencePacket t p s) := by
  unfold execFencePacket
  try dsimp only
  repeat (any_goals (first | intro _ | with_reducible assumption | with_reducible refine runPacket_frame ?_ ?_ | with_reducible refine takeRequest_frame ?_ | with_reducible apply FrameOut.next | exact FrameOut.fault | with_reducible apply Frame.ite | with_reducible apply Frame.iteFst | with_reducible apply FrameOut.ite | fail_if_no_progress (with_reducible refine Frame.set ?_) | split | dsimp only | refine Frame.ofFst ?_ (by assumption) | refine Frame.ofSnd2 ?_ (by assumption) | refine FrameOpt.kept ?_ _ (by assumption) | refine FrameOut.kept ?_ _ (by assumption)))

theorem execReadResp_frame {t : Stamp} {p : Packet} {s : State} {pm : List Part} {z0 : State} (hk : Frame pm z0 s) (m_time : Part.time ∈ pm := by assumption) (m_bar : Part.bar ∈ pm := by assumption) (m_host : Part.host ∈ pm := by assumption) (m_fab : Part.fab ∈ pm := by assumption) (m_fault : Part.fault ∈ pm := by assumption) (m_pwr : Part.pwr ∈ pm := by assumption) (m_out : Part.out ∈ pm := by assumption) (m_spent : Part.spent ∈ pm := by assumption) : FrameOut pm z0 (execReadResp t p s) := by
  unfold execReadResp
  try dsimp only
  repeat (any_goals (first | intro _ | with_reducible assumption | with_reducible refine runPacket_frame ?_ ?_ | with_reducible refine takeResponse_frame ?_ | with_reducible apply FrameOut.next | exact FrameOut.fault | with_reducible apply Frame.ite | with_reducible apply Frame.iteFst | with_reducible apply FrameOut.ite | fail_if_no_progress (with_reducible refine Frame.set ?_) | split | dsimp only | refine Frame.ofFst ?_ (by assumption) | refine Frame.ofSnd2 ?_ (by assumption) | refine FrameOpt.kept ?_ _ (by assumption) | refine FrameOut.kept ?_ _ (by assumption)))

theorem execAtomResp_frame {t : Stamp} {p : Packet} {s : State} {pm : List Part} {z0 : State} (hk : Frame pm z0 s) (m_time : Part.time ∈ pm := by assumption) (m_bar : Part.bar ∈ pm := by assumption) (m_host : Part.host ∈ pm := by assumption) (m_fab : Part.fab ∈ pm := by assumption) (m_fault : Part.fault ∈ pm := by assumption) (m_pwr : Part.pwr ∈ pm := by assumption) (m_out : Part.out ∈ pm := by assumption) (m_spent : Part.spent ∈ pm := by assumption) : FrameOut pm z0 (execAtomResp t p s) := by
  unfold execAtomResp
  try dsimp only
  repeat (any_goals (first | intro _ | with_reducible assumption | with_reducible refine runPacket_frame ?_ ?_ | with_reducible refine takeResponse_frame ?_ | with_reducible apply FrameOut.next | exact FrameOut.fault | with_reducible apply Frame.ite | with_reducible apply Frame.iteFst | with_reducible apply FrameOut.ite | fail_if_no_progress (with_reducible refine Frame.set ?_) | split | dsimp only | refine Frame.ofFst ?_ (by assumption) | refine Frame.ofSnd2 ?_ (by assumption) | refine FrameOpt.kept ?_ _ (by assumption) | refine FrameOut.kept ?_ _ (by assumption)))

theorem execFenceDone_frame {t : Stamp} {p : Packet} {s : State} {pm : List Part} {z0 : State} (hk : Frame pm z0 s) (m_time : Part.time ∈ pm := by assumption) (m_bar : Part.bar ∈ pm := by assumption) (m_host : Part.host ∈ pm := by assumption) (m_fab : Part.fab ∈ pm := by assumption) (m_fault : Part.fault ∈ pm := by assumption) (m_pwr : Part.pwr ∈ pm := by assumption) (m_out : Part.out ∈ pm := by assumption) (m_spent : Part.spent ∈ pm := by assumption) : FrameOut pm z0 (execFenceDone t p s) := by
  unfold execFenceDone
  try dsimp only
  repeat (any_goals (first | intro _ | with_reducible assumption | with_reducible refine runPacket_frame ?_ ?_ | with_reducible refine takeResponse_frame ?_ | with_reducible apply FrameOut.next | exact FrameOut.fault | with_reducible apply Frame.ite | with_reducible apply Frame.iteFst | with_reducible apply FrameOut.ite | fail_if_no_progress (with_reducible refine Frame.set ?_) | split | dsimp only | refine Frame.ofFst ?_ (by assumption) | refine Frame.ofSnd2 ?_ (by assumption) | refine FrameOpt.kept ?_ _ (by assumption) | refine FrameOut.kept ?_ _ (by assumption)))

theorem execAck_frame {t : Stamp} {p : Packet} {s : State} {pm : List Part} {z0 : State} (hk : Frame pm z0 s) (m_time : Part.time ∈ pm := by assumption) (m_bar : Part.bar ∈ pm := by assumption) (m_host : Part.host ∈ pm := by assumption) (m_fab : Part.fab ∈ pm := by assumption) (m_fault : Part.fault ∈ pm := by assumption) (m_pwr : Part.pwr ∈ pm := by assumption) (m_out : Part.out ∈ pm := by assumption) (m_spent : Part.spent ∈ pm := by assumption) : FrameOut pm z0 (execAck t p s) := by
  unfold execAck
  try dsimp only
  repeat (any_goals (first | intro _ | with_reducible assumption | with_reducible refine runPacket_frame ?_ ?_ | with_reducible refine takeAck_frame ?_ | with_reducible apply FrameOut.next | exact FrameOut.fault | with_reducible apply Frame.ite | with_reducible apply Frame.iteFst | with_reducible apply FrameOut.ite | fail_if_no_progress (with_reducible refine Frame.set ?_) | split | dsimp only | refine Frame.ofFst ?_ (by assumption) | refine Frame.ofSnd2 ?_ (by assumption) | refine FrameOpt.kept ?_ _ (by assumption) | refine FrameOut.kept ?_ _ (by assumption)))

theorem execTransfer_frame {t : Stamp} {p : Packet} {s : State} {pm : List Part} {z0 : State} (hk : Frame pm z0 s) (m_time : Part.time ∈ pm := by assumption) (m_bar : Part.bar ∈ pm := by assumption) (m_fab : Part.fab ∈ pm := by assumption) (m_fault : Part.fault ∈ pm := by assumption) (m_pwr : Part.pwr ∈ pm := by assumption) (m_out : Part.out ∈ pm := by assumption) (m_spent : Part.spent ∈ pm := by assumption) : FrameOut pm z0 (execTransfer t p s) := by
  unfold execTransfer
  try dsimp only
  repeat (any_goals (first | intro _ | with_reducible assumption | with_reducible refine runPacket_frame ?_ ?_ | with_reducible refine takeRequest_frame ?_ | with_reducible apply FrameOut.next | exact FrameOut.fault | with_reducible apply Frame.ite | with_reducible apply Frame.iteFst | with_reducible apply FrameOut.ite | fail_if_no_progress (with_reducible refine Frame.set ?_) | split | dsimp only | refine Frame.ofFst ?_ (by assumption) | refine Frame.ofSnd2 ?_ (by assumption) | refine FrameOpt.kept ?_ _ (by assumption) | refine FrameOut.kept ?_ _ (by assumption)))

theorem execPacketReplay_frame {t : Stamp} {dst : ModuleId} {seq : Nat} {s : State} {pm : List Part} {z0 : State} (hk : Frame pm z0 s) (m_time : Part.time ∈ pm := by assumption) (m_bar : Part.bar ∈ pm := by assumption) (m_host : Part.host ∈ pm := by assumption) (m_fab : Part.fab ∈ pm := by assumption) (m_fault : Part.fault ∈ pm := by assumption) (m_out : Part.out ∈ pm := by assumption) (m_spent : Part.spent ∈ pm := by assumption) : FrameOut pm z0 (execPacketReplay t dst seq s) := by
  unfold execPacketReplay
  try dsimp only
  repeat (any_goals (first | intro _ | with_reducible assumption | with_reducible refine run_frame ?_ ?_ | with_reducible refine replayPacket_frame ?_ | with_reducible apply FrameOut.next | exact FrameOut.fault | with_reducible apply Frame.ite | with_reducible apply Frame.iteFst | with_reducible apply FrameOut.ite | fail_if_no_progress (with_reducible refine Frame.set ?_) | split | dsimp only | refine Frame.ofFst ?_ (by assumption) | refine Frame.ofSnd2 ?_ (by assumption) | refine FrameOpt.kept ?_ _ (by assumption) | refine FrameOut.kept ?_ _ (by assumption)))

theorem chargePage_frame {s : State} {b : Nat} {e : Entry} {pm : List Part} {z0 : State} (hk : Frame pm z0 s) (m_spent : Part.spent ∈ pm := by assumption) : Frame pm z0 (chargePage s b e) := by
  unfold chargePage
  try dsimp only
  repeat (any_goals (first | intro _ | with_reducible assumption | with_reducible refine charge_frame ?_ | with_reducible apply Frame.ite | with_reducible apply Frame.iteFst | fail_if_no_progress (with_reducible refine Frame.set ?_) | split | dsimp only | refine Frame.ofFst ?_ (by assumption) | refine Frame.ofSnd2 ?_ (by assumption) | refine FrameOpt.kept ?_ _ (by assumption) | refine FrameOut.kept ?_ _ (by assumption)))

theorem chargePages_frame {s : State} {b : Nat} {es : List Entry} {pm : List Part} {z0 : State} (hk : Frame pm z0 s) (m_spent : Part.spent ∈ pm := by assumption) : Frame pm z0 (chargePages s b es) := by
  unfold chargePages
  try dsimp only
  repeat (any_goals (first | intro _ | with_reducible assumption | with_reducible refine chargePage_frame ?_ | with_reducible apply foldl_frame | with_reducible apply foldl_frame_fst | with_reducible apply Frame.ite | with_reducible apply Frame.iteFst | fail_if_no_progress (with_reducible refine Frame.set ?_) | split | dsimp only | refine Frame.ofFst ?_ (by assumption) | refine Frame.ofSnd2 ?_ (by assumption) | refine FrameOpt.kept ?_ _ (by assumption) | refine FrameOut.kept ?_ _ (by assumption)))

theorem chargeShare_frame {s : State} {b : Nat} {k : Nat} {n : Nat} {pm : List Part} {z0 : State} (hk : Frame pm z0 s) (m_spent : Part.spent ∈ pm := by assumption) : Frame pm z0 (chargeShare s b k n) := by
  unfold chargeShare
  try dsimp only
  repeat (any_goals (first | intro _ | with_reducible assumption | with_reducible refine charge_frame ?_ | with_reducible apply Frame.ite | with_reducible apply Frame.iteFst | fail_if_no_progress (with_reducible refine Frame.set ?_) | split | dsimp only | refine Frame.ofFst ?_ (by assumption) | refine Frame.ofSnd2 ?_ (by assumption) | refine FrameOpt.kept ?_ _ (by assumption) | refine FrameOut.kept ?_ _ (by assumption)))

theorem makeReady_frame {s : State} {p : PageRef} {dst : Tier} {cause : Stamp} {cell : optParam (Option Nat) none} {pm : List Part} {z0 : State} (hk : Frame pm z0 s) (m_tier : Part.tier ∈ pm := by assumption) : Frame pm z0 (makeReady s p dst cause cell) := by
  unfold makeReady
  try dsimp only
  repeat (any_goals (first | intro _ | with_reducible assumption | with_reducible apply Frame.ite | with_reducible apply Frame.iteFst | fail_if_no_progress (with_reducible refine Frame.set ?_) | split | dsimp only | refine Frame.ofFst ?_ (by assumption) | refine Frame.ofSnd2 ?_ (by assumption) | refine FrameOpt.kept ?_ _ (by assumption) | refine FrameOut.kept ?_ _ (by assumption)))

theorem promoteToFloor_frame {s : State} {k : Nat} {cause : Stamp} {pm : List Part} {z0 : State} (hk : Frame pm z0 s) (m_tier : Part.tier ∈ pm := by assumption) : Frame pm z0 (promoteToFloor s k cause) := by
  unfold promoteToFloor
  try dsimp only
  repeat (any_goals (first | intro _ | with_reducible assumption | with_reducible refine makeReady_frame ?_ | with_reducible apply foldl_frame | with_reducible apply foldl_frame_fst | with_reducible apply Frame.ite | with_reducible apply Frame.iteFst | fail_if_no_progress (with_reducible refine Frame.set ?_) | split | dsimp only | refine Frame.ofFst ?_ (by assumption) | refine Frame.ofSnd2 ?_ (by assumption) | refine FrameOpt.kept ?_ _ (by assumption) | refine FrameOut.kept ?_ _ (by assumption)))

theorem setConvState_frame {s : State} {k : Nat} {st : ConvState} {pm : List Part} {z0 : State} (hk : Frame pm z0 s) (m_work : Part.work ∈ pm := by assumption) (m_tier : Part.tier ∈ pm := by assumption) (m_out : Part.out ∈ pm := by assumption) (m_spent : Part.spent ∈ pm := by assumption) : Frame pm z0 (setConvState s k st) := by
  unfold setConvState
  try dsimp only
  repeat (any_goals (first | intro _ | with_reducible assumption | with_reducible refine putConv_frame ?_ | with_reducible refine send_frame ?_ | with_reducible refine promoteToFloor_frame ?_ | with_reducible apply foldl_frame | with_reducible apply foldl_frame_fst | with_reducible apply Frame.ite | with_reducible apply Frame.iteFst | fail_if_no_progress (with_reducible refine Frame.set ?_) | split | dsimp only | refine Frame.ofFst ?_ (by assumption) | refine Frame.ofSnd2 ?_ (by assumption) | refine FrameOpt.kept ?_ _ (by assumption) | refine FrameOut.kept ?_ _ (by assumption)))

theorem addRefs_frame {s : State} {e : Entry} {f : Nat → Nat} {pm : List Part} {z0 : State} (hk : Frame pm z0 s) (m_work : Part.work ∈ pm := by assumption) : Frame pm z0 (addRefs s e f) := by
  unfold addRefs
  try dsimp only
  repeat (any_goals (first | intro _ | with_reducible assumption | with_reducible apply Frame.ite | with_reducible apply Frame.iteFst | fail_if_no_progress (with_reducible refine Frame.set ?_) | split | dsimp only | refine Frame.ofFst ?_ (by assumption) | refine Frame.ofSnd2 ?_ (by assumption) | refine FrameOpt.kept ?_ _ (by assumption) | refine FrameOut.kept ?_ _ (by assumption)))

theorem freeReplicas_frame {s : State} {c : Conv} {e : Entry} {pm : List Part} {z0 : State} (hk : Frame pm z0 s) (m_out : Part.out ∈ pm := by assumption) (m_spent : Part.spent ∈ pm := by assumption) : Frame pm z0 (freeReplicas s c e) := by
  unfold freeReplicas
  try dsimp only
  repeat (any_goals (first | intro _ | with_reducible assumption | with_reducible refine send_frame ?_ | with_reducible apply foldl_frame | with_reducible apply foldl_frame_fst | with_reducible apply Frame.ite | with_reducible apply Frame.iteFst | fail_if_no_progress (with_reducible refine Frame.set ?_) | split | dsimp only | refine Frame.ofFst ?_ (by assumption) | refine Frame.ofSnd2 ?_ (by assumption) | refine FrameOpt.kept ?_ _ (by assumption) | refine FrameOut.kept ?_ _ (by assumption)))

theorem discardFits_frame {s : State} {p : FitItem → Bool} {pm : List Part} {z0 : State} (hk : Frame pm z0 s) (m_bar : Part.bar ∈ pm := by assumption) (m_benches : Part.benches ∈ pm := by assumption) : Frame pm z0 (discardFits s p) := by
  unfold discardFits
  try dsimp only
  repeat (any_goals (first | intro _ | with_reducible assumption | with_reducible refine count_frame ?_ | with_reducible apply foldl_frame | with_reducible apply foldl_frame_fst | with_reducible apply Frame.ite | with_reducible apply Frame.iteFst | fail_if_no_progress (with_reducible refine Frame.set ?_) | split | dsimp only | refine Frame.ofFst ?_ (by assumption) | refine Frame.ofSnd2 ?_ (by assumption) | refine FrameOpt.kept ?_ _ (by assumption) | refine FrameOut.kept ?_ _ (by assumption)))

theorem forgetPage_frame {s : State} {p : PageRef} {pm : List Part} {z0 : State} (hk : Frame pm z0 s) (m_bar : Part.bar ∈ pm := by assumption) (m_benches : Part.benches ∈ pm := by assumption) (m_tier : Part.tier ∈ pm := by assumption) : Frame pm z0 (forgetPage s p) := by
  unfold forgetPage
  try dsimp only
  repeat (any_goals (first | intro _ | with_reducible assumption | with_reducible refine discardFits_frame ?_ | with_reducible apply Frame.ite | with_reducible apply Frame.iteFst | fail_if_no_progress (with_reducible refine Frame.set ?_) | split | dsimp only | refine Frame.ofFst ?_ (by assumption) | refine Frame.ofSnd2 ?_ (by assumption) | refine FrameOpt.kept ?_ _ (by assumption) | refine FrameOut.kept ?_ _ (by assumption)))

theorem renamePage_frame {s : State} {p : PageRef} {q : PageRef} {pm : List Part} {z0 : State} (hk : Frame pm z0 s) (m_tier : Part.tier ∈ pm := by assumption) : Frame pm z0 (renamePage s p q) := by
  unfold renamePage
  try dsimp only
  repeat (any_goals (first | intro _ | with_reducible assumption | with_reducible apply Frame.ite | with_reducible apply Frame.iteFst | fail_if_no_progress (with_reducible refine Frame.set ?_) | split | dsimp only | refine Frame.ofFst ?_ (by assumption) | refine Frame.ofSnd2 ?_ (by assumption) | refine FrameOpt.kept ?_ _ (by assumption) | refine FrameOut.kept ?_ _ (by assumption)))

theorem dropPage_frame {s : State} {c : Conv} {e : Entry} {pm : List Part} {z0 : State} (hk : Frame pm z0 s) (m_bar : Part.bar ∈ pm := by assumption) (m_benches : Part.benches ∈ pm := by assumption) (m_work : Part.work ∈ pm := by assumption) (m_tier : Part.tier ∈ pm := by assumption) (m_out : Part.out ∈ pm := by assumption) (m_spent : Part.spent ∈ pm := by assumption) : Frame pm z0 (dropPage s c e) := by
  unfold dropPage
  try dsimp only
  repeat (any_goals (first | intro _ | with_reducible assumption | with_reducible refine send_frame ?_ | with_reducible refine freeReplicas_frame ?_ | with_reducible refine forgetPage_frame ?_ | with_reducible refine renamePage_frame ?_ | with_reducible refine addRefs_frame ?_ | with_reducible apply Frame.ite | with_reducible apply Frame.iteFst | fail_if_no_progress (with_reducible refine Frame.set ?_) | split | dsimp only | refine Frame.ofFst ?_ (by assumption) | refine Frame.ofSnd2 ?_ (by assumption) | refine FrameOpt.kept ?_ _ (by assumption) | refine FrameOut.kept ?_ _ (by assumption)))

theorem freePage_frame {s : State} {p : PageRef} {pm : List Part} {z0 : State} (hk : Frame pm z0 s) (m_bar : Part.bar ∈ pm := by assumption) (m_benches : Part.benches ∈ pm := by assumption) (m_work : Part.work ∈ pm := by assumption) (m_tier : Part.tier ∈ pm := by assumption) (m_out : Part.out ∈ pm := by assumption) (m_spent : Part.spent ∈ pm := by assumption) : Frame pm z0 (freePage s p) := by
  unfold freePage
  try dsimp only
  repeat (any_goals (first | intro _ | with_reducible assumption | with_reducible refine freeReplicas_frame ?_ | with_reducible refine forgetPage_frame ?_ | with_reducible refine modConv_frame ?_ | with_reducible apply Frame.ite | with_reducible apply Frame.iteFst | fail_if_no_progress (with_reducible refine Frame.set ?_) | split | dsimp only | refine Frame.ofFst ?_ (by assumption) | refine Frame.ofSnd2 ?_ (by assumption) | refine FrameOpt.kept ?_ _ (by assumption) | refine FrameOut.kept ?_ _ (by assumption)))

theorem dropEmptyHolder_frame {s : State} {k : Nat} {pm : List Part} {z0 : State} (hk : Frame pm z0 s) (m_work : Part.work ∈ pm := by assumption) : Frame pm z0 (dropEmptyHolder s k) := by
  unfold dropEmptyHolder
  try dsimp only
  repeat (any_goals (first | intro _ | with_reducible assumption | with_reducible refine delConv_frame ?_ | with_reducible apply Frame.ite | with_reducible apply Frame.iteFst | fail_if_no_progress (with_reducible refine Frame.set ?_) | split | dsimp only | refine Frame.ofFst ?_ (by assumption) | refine Frame.ofSnd2 ?_ (by assumption) | refine FrameOpt.kept ?_ _ (by assumption) | refine FrameOut.kept ?_ _ (by assumption)))

theorem dropGroups_frame {s : State} {k : Nat} {g : Nat} {pm : List Part} {z0 : State} (hk : Frame pm z0 s) (m_bar : Part.bar ∈ pm := by assumption) (m_benches : Part.benches ∈ pm := by assumption) (m_work : Part.work ∈ pm := by assumption) (m_tier : Part.tier ∈ pm := by assumption) (m_out : Part.out ∈ pm := by assumption) (m_spent : Part.spent ∈ pm := by assumption) : Frame pm z0 (dropGroups s k g) := by
  unfold dropGroups
  try dsimp only
  repeat (any_goals (first | intro _ | with_reducible assumption | with_reducible refine send_frame ?_ | with_reducible refine dropPage_frame ?_ | with_reducible refine modConv_frame ?_ | with_reducible apply foldl_frame | with_reducible apply foldl_frame_fst | with_reducible apply Frame.ite | with_reducible apply Frame.iteFst | fail_if_no_progress (with_reducible refine Frame.set ?_) | split | dsimp only | refine Frame.ofFst ?_ (by assumption) | refine Frame.ofSnd2 ?_ (by assumption) | refine FrameOpt.kept ?_ _ (by assumption) | refine FrameOut.kept ?_ _ (by assumption)))

theorem newPageId_frame {s : State} {pm : List Part} {z0 : State} (hk : Frame pm z0 s) (m_fresh : Part.fresh ∈ pm := by assumption) : Frame pm z0 (newPageId s).1 := by
  unfold newPageId
  try dsimp only
  repeat (any_goals (first | intro _ | with_reducible assumption | with_reducible refine State_bump_frame ?_ | with_reducible apply Frame.ite | with_reducible apply Frame.iteFst | fail_if_no_progress (with_reducible refine Frame.set ?_) | split | dsimp only | refine Frame.ofFst ?_ (by assumption) | refine Frame.ofSnd2 ?_ (by assumption) | refine FrameOpt.kept ?_ _ (by assumption) | refine FrameOut.kept ?_ _ (by assumption)))

theorem sweepExtents_frame {s : State} {pm : List Part} {z0 : State} (hk : Frame pm z0 s) (m_tier : Part.tier ∈ pm := by assumption) : Frame pm z0 (sweepExtents s) := by
  unfold sweepExtents
  try dsimp only
  repeat (any_goals (first | intro _ | with_reducible assumption | with_reducible apply Frame.ite | with_reducible apply Frame.iteFst | fail_if_no_progress (with_reducible refine Frame.set ?_) | split | dsimp only | refine Frame.ofFst ?_ (by assumption) | refine Frame.ofSnd2 ?_ (by assumption) | refine FrameOpt.kept ?_ _ (by assumption) | refine FrameOut.kept ?_ _ (by assumption)))

theorem addSegment_frame {s : State} {k : Nat} {g : Segment} {pm : List Part} {z0 : State} (hk : Frame pm z0 s) (m_work : Part.work ∈ pm := by assumption) : Frame pm z0 (addSegment s k g) := by
  unfold addSegment
  try dsimp only
  repeat (any_goals (first | intro _ | with_reducible assumption | with_reducible refine modConv_frame ?_ | with_reducible apply Frame.ite | with_reducible apply Frame.iteFst | fail_if_no_progress (with_reducible refine Frame.set ?_) | split | dsimp only | refine Frame.ofFst ?_ (by assumption) | refine Frame.ofSnd2 ?_ (by assumption) | refine FrameOpt.kept ?_ _ (by assumption) | refine FrameOut.kept ?_ _ (by assumption)))

theorem addTokens_frame {s : State} {k : Nat} {r : Nat} {toks : List LogTok} {pm : List Part} {z0 : State} (hk : Frame pm z0 s) (m_work : Part.work ∈ pm := by assumption) : Frame pm z0 (addTokens s k r toks) := by
  unfold addTokens
  try dsimp only
  repeat (any_goals (first | intro _ | with_reducible assumption | with_reducible refine addSegment_frame ?_ | with_reducible refine putConv_frame ?_ | with_reducible apply Frame.ite | with_reducible apply Frame.iteFst | fail_if_no_progress (with_reducible refine Frame.set ?_) | split | dsimp only | refine Frame.ofFst ?_ (by assumption) | refine Frame.ofSnd2 ?_ (by assumption) | refine FrameOpt.kept ?_ _ (by assumption) | refine FrameOut.kept ?_ _ (by assumption)))

theorem freeAutos_frame {s : State} {b : Nat} {pm : List Part} {z0 : State} (hk : Frame pm z0 s) (m_benches : Part.benches ∈ pm := by assumption) : Frame pm z0 (freeAutos s b) := by
  unfold freeAutos
  try dsimp only
  repeat (any_goals (first | intro _ | with_reducible assumption | with_reducible refine setBench_frame ?_ | with_reducible apply Frame.ite | with_reducible apply Frame.iteFst | fail_if_no_progress (with_reducible refine Frame.set ?_) | split | dsimp only | refine Frame.ofFst ?_ (by assumption) | refine Frame.ofSnd2 ?_ (by assumption) | refine FrameOpt.kept ?_ _ (by assumption) | refine FrameOut.kept ?_ _ (by assumption)))

theorem chargeTally_frame {s : State} {b : Nat} {p : BitVec 1536} {n : Nat} {generated : Bool} {pm : List Part} {z0 : State} (hk : Frame pm z0 s) (m_work : Part.work ∈ pm := by assumption) : Frame pm z0 (chargeTally s b p n generated) := by
  unfold chargeTally
  try dsimp only
  repeat (any_goals (first | intro _ | with_reducible assumption | with_reducible apply Frame.ite | with_reducible apply Frame.iteFst | fail_if_no_progress (with_reducible refine Frame.set ?_) | split | dsimp only | refine Frame.ofFst ?_ (by assumption) | refine Frame.ofSnd2 ?_ (by assumption) | refine FrameOpt.kept ?_ _ (by assumption) | refine FrameOut.kept ?_ _ (by assumption)))

theorem returnTally_frame {s : State} {id : Nat} {n : Nat} {pm : List Part} {z0 : State} (hk : Frame pm z0 s) (m_work : Part.work ∈ pm := by assumption) : Frame pm z0 (returnTally s id n) := by
  unfold returnTally
  try dsimp only
  repeat (any_goals (first | intro _ | with_reducible assumption | with_reducible apply Frame.ite | with_reducible apply Frame.iteFst | fail_if_no_progress (with_reducible refine Frame.set ?_) | split | dsimp only | refine Frame.ofFst ?_ (by assumption) | refine Frame.ofSnd2 ?_ (by assumption) | refine FrameOpt.kept ?_ _ (by assumption) | refine FrameOut.kept ?_ _ (by assumption)))

theorem refillTally_frame {s : State} {id : Nat} {k : Nat} {pm : List Part} {z0 : State} (hk : Frame pm z0 s) (m_work : Part.work ∈ pm := by assumption) : Frame pm z0 (refillTally s id k) := by
  unfold refillTally
  try dsimp only
  repeat (any_goals (first | intro _ | with_reducible assumption | with_reducible apply Frame.ite | with_reducible apply Frame.iteFst | fail_if_no_progress (with_reducible refine Frame.set ?_) | split | dsimp only | refine Frame.ofFst ?_ (by assumption) | refine Frame.ofSnd2 ?_ (by assumption) | refine FrameOpt.kept ?_ _ (by assumption) | refine FrameOut.kept ?_ _ (by assumption)))

theorem addDone_frame {s : State} {k : Nat} {st : Status} {n : Nat} {pm : List Part} {z0 : State} (hk : Frame pm z0 s) (m_work : Part.work ∈ pm := by assumption) : Frame pm z0 (addDone s k st n) := by
  unfold addDone
  try dsimp only
  repeat (any_goals (first | intro _ | with_reducible assumption | with_reducible apply Frame.ite | with_reducible apply Frame.iteFst | fail_if_no_progress (with_reducible refine Frame.set ?_) | split | dsimp only | refine Frame.ofFst ?_ (by assumption) | refine Frame.ofSnd2 ?_ (by assumption) | refine FrameOpt.kept ?_ _ (by assumption) | refine FrameOut.kept ?_ _ (by assumption)))

theorem abortHauls_frame {s : State} {k : Nat} {pm : List Part} {z0 : State} (hk : Frame pm z0 s) (m_haul : Part.haul ∈ pm := by assumption) : Frame pm z0 (abortHauls s k) := by
  unfold abortHauls
  try dsimp only
  repeat (any_goals (first | intro _ | with_reducible assumption | with_reducible apply Frame.ite | with_reducible apply Frame.iteFst | fail_if_no_progress (with_reducible refine Frame.set ?_) | split | dsimp only | refine Frame.ofFst ?_ (by assumption) | refine Frame.ofSnd2 ?_ (by assumption) | refine FrameOpt.kept ?_ _ (by assumption) | refine FrameOut.kept ?_ _ (by assumption)))

theorem releaseConv_frame {s : State} {k : Nat} {pm : List Part} {z0 : State} (hk : Frame pm z0 s) (m_bar : Part.bar ∈ pm := by assumption) (m_benches : Part.benches ∈ pm := by assumption) (m_work : Part.work ∈ pm := by assumption) (m_haul : Part.haul ∈ pm := by assumption) (m_tier : Part.tier ∈ pm := by assumption) (m_out : Part.out ∈ pm := by assumption) (m_spent : Part.spent ∈ pm := by assumption) : Frame pm z0 (releaseConv s k) := by
  unfold releaseConv
  try dsimp only
  repeat (any_goals (first | intro _ | with_reducible assumption | with_reducible refine dropPage_frame ?_ | with_reducible refine abortHauls_frame ?_ | with_reducible refine send_frame ?_ | with_reducible refine delConv_frame ?_ | with_reducible apply foldl_frame | with_reducible apply foldl_frame_fst | with_reducible apply Frame.ite | with_reducible apply Frame.iteFst | fail_if_no_progress (with_reducible refine Frame.set ?_) | split | dsimp only | refine Frame.ofFst ?_ (by assumption) | refine Frame.ofSnd2 ?_ (by assumption) | refine FrameOpt.kept ?_ _ (by assumption) | refine FrameOut.kept ?_ _ (by assumption)))

theorem afterEnd_frame {s : State} {r : Req} {pm : List Part} {z0 : State} (hk : Frame pm z0 s) (m_bar : Part.bar ∈ pm := by assumption) (m_benches : Part.benches ∈ pm := by assumption) (m_work : Part.work ∈ pm := by assumption) (m_haul : Part.haul ∈ pm := by assumption) (m_tier : Part.tier ∈ pm := by assumption) (m_out : Part.out ∈ pm := by assumption) (m_spent : Part.spent ∈ pm := by assumption) : Frame pm z0 (afterEnd s r) := by
  unfold afterEnd
  try dsimp only
  repeat (any_goals (first | intro _ | with_reducible assumption | with_reducible refine releaseConv_frame ?_ | with_reducible refine modConv_frame ?_ | with_reducible refine abortHauls_frame ?_ | with_reducible refine setConvState_frame ?_ | with_reducible apply Frame.ite | with_reducible apply Frame.iteFst | fail_if_no_progress (with_reducible refine Frame.set ?_) | split | dsimp only | refine Frame.ofFst ?_ (by assumption) | refine Frame.ofSnd2 ?_ (by assumption) | refine FrameOpt.kept ?_ _ (by assumption) | refine FrameOut.kept ?_ _ (by assumption)))

theorem endReq_frame {s : State} {k : Nat} {st : Status} {n : Nat} {viaToken : Bool} {pm : List Part} {z0 : State} (hk : Frame pm z0 s) (m_bar : Part.bar ∈ pm := by assumption) (m_benches : Part.benches ∈ pm := by assumption) (m_work : Part.work ∈ pm := by assumption) (m_plan : Part.plan ∈ pm := by assumption) (m_haul : Part.haul ∈ pm := by assumption) (m_tier : Part.tier ∈ pm := by assumption) (m_out : Part.out ∈ pm := by assumption) (m_spent : Part.spent ∈ pm := by assumption) : Frame pm z0 (endReq s k st n viaToken) := by
  unfold endReq
  try dsimp only
  repeat (any_goals (first | intro _ | with_reducible assumption | with_reducible refine addSegment_frame ?_ | with_reducible refine freeAutos_frame ?_ | with_reducible refine afterEnd_frame ?_ | with_reducible refine addDone_frame ?_ | with_reducible apply Frame.ite | with_reducible apply Frame.iteFst | fail_if_no_progress (with_reducible refine Frame.set ?_) | split | dsimp only | refine Frame.ofFst ?_ (by assumption) | refine Frame.ofSnd2 ?_ (by assumption) | refine FrameOpt.kept ?_ _ (by assumption) | refine FrameOut.kept ?_ _ (by assumption)))

theorem suspendReq_frame {s : State} {k : Nat} {pm : List Part} {z0 : State} (hk : Frame pm z0 s) (m_work : Part.work ∈ pm := by assumption) (m_tier : Part.tier ∈ pm := by assumption) (m_out : Part.out ∈ pm := by assumption) (m_spent : Part.spent ∈ pm := by assumption) : Frame pm z0 (suspendReq s k) := by
  unfold suspendReq
  try dsimp only
  repeat (any_goals (first | intro _ | with_reducible assumption | with_reducible refine putReq_frame ?_ | with_reducible refine setConvState_frame ?_ | with_reducible refine modConv_frame ?_ | with_reducible apply Frame.ite | with_reducible apply Frame.iteFst | fail_if_no_progress (with_reducible refine Frame.set ?_) | split | dsimp only | refine Frame.ofFst ?_ (by assumption) | refine Frame.ofSnd2 ?_ (by assumption) | refine FrameOpt.kept ?_ _ (by assumption) | refine FrameOut.kept ?_ _ (by assumption)))

theorem parkInPlace_frame {s : State} {k : Nat} {pm : List Part} {z0 : State} (hk : Frame pm z0 s) (m_work : Part.work ∈ pm := by assumption) (m_tier : Part.tier ∈ pm := by assumption) (m_out : Part.out ∈ pm := by assumption) (m_spent : Part.spent ∈ pm := by assumption) : Frame pm z0 (parkInPlace s k) := by
  unfold parkInPlace
  try dsimp only
  repeat (any_goals (first | intro _ | with_reducible assumption | with_reducible refine suspendReq_frame ?_ | with_reducible refine setConvState_frame ?_ | with_reducible apply Frame.ite | with_reducible apply Frame.iteFst | fail_if_no_progress (with_reducible refine Frame.set ?_) | split | dsimp only | refine Frame.ofFst ?_ (by assumption) | refine Frame.ofSnd2 ?_ (by assumption) | refine FrameOpt.kept ?_ _ (by assumption) | refine FrameOut.kept ?_ _ (by assumption)))

theorem countLost_frame {s : State} {r : Req} {c : Conv} {p : Nat} {n : Nat} {pm : List Part} {z0 : State} (hk : Frame pm z0 s) (m_bar : Part.bar ∈ pm := by assumption) (m_benches : Part.benches ∈ pm := by assumption) (m_fault : Part.fault ∈ pm := by assumption) (m_out : Part.out ∈ pm := by assumption) : Frame pm z0 (countLost s r c p n) := by
  unfold countLost
  try dsimp only
  repeat (any_goals (first | intro _ | with_reducible assumption | with_reducible refine setBench_frame ?_ | with_reducible refine count_frame ?_ | with_reducible refine logErr_frame ?_ | with_reducible apply Frame.ite | with_reducible apply Frame.iteFst | fail_if_no_progress (with_reducible refine Frame.set ?_) | split | dsimp only | refine Frame.ofFst ?_ (by assumption) | refine Frame.ofSnd2 ?_ (by assumption) | refine FrameOpt.kept ?_ _ (by assumption) | refine FrameOut.kept ?_ _ (by assumption)))

theorem recover_frame {s : State} {k : Nat} {g : Nat} {n : Nat} {pm : List Part} {z0 : State} (hk : Frame pm z0 s) (m_bar : Part.bar ∈ pm := by assumption) (m_benches : Part.benches ∈ pm := by assumption) (m_work : Part.work ∈ pm := by assumption) (m_tier : Part.tier ∈ pm := by assumption) (m_fault : Part.fault ∈ pm := by assumption) (m_out : Part.out ∈ pm := by assumption) (m_spent : Part.spent ∈ pm := by assumption) : Frame pm z0 (recover s k g n) := by
  unfold recover
  try dsimp only
  repeat (any_goals (first | intro _ | with_reducible assumption | with_reducible refine countHalf_frame ?_ | with_reducible refine countLost_frame ?_ | with_reducible refine modConv_frame ?_ | with_reducible refine dropGroups_frame ?_ | with_reducible refine putReq_frame ?_ | with_reducible refine send_frame ?_ | with_reducible apply Frame.ite | with_reducible apply Frame.iteFst | fail_if_no_progress (with_reducible refine Frame.set ?_) | split | dsimp only | refine Frame.ofFst ?_ (by assumption) | refine Frame.ofSnd2 ?_ (by assumption) | refine FrameOpt.kept ?_ _ (by assumption) | refine FrameOut.kept ?_ _ (by assumption)))

theorem takePending_frame {s : State} {k : Nat} {pm : List Part} {z0 : State} (hk : Frame pm z0 s) (m_work : Part.work ∈ pm := by assumption) : Frame pm z0 (takePending s k) := by
  unfold takePending
  try dsimp only
  repeat (any_goals (first | intro _ | with_reducible assumption | with_reducible refine putConv_frame ?_ | with_reducible apply Frame.ite | with_reducible apply Frame.iteFst | fail_if_no_progress (with_reducible refine Frame.set ?_) | split | dsimp only | refine Frame.ofFst ?_ (by assumption) | refine Frame.ofSnd2 ?_ (by assumption) | refine FrameOpt.kept ?_ _ (by assumption) | refine FrameOut.kept ?_ _ (by assumption)))

theorem sendOffer_frame {s : State} {id : Nat} {pm : List Part} {z0 : State} (hk : Frame pm z0 s) (m_haul : Part.haul ∈ pm := by assumption) (m_out : Part.out ∈ pm := by assumption) (m_spent : Part.spent ∈ pm := by assumption) : Frame pm z0 (sendOffer s id) := by
  unfold sendOffer
  try dsimp only
  repeat (any_goals (first | intro _ | with_reducible assumption | with_reducible refine send_frame ?_ | with_reducible apply foldl_frame | with_reducible apply foldl_frame_fst | with_reducible apply Frame.ite | with_reducible apply Frame.iteFst | fail_if_no_progress (with_reducible refine Frame.set ?_) | split | dsimp only | refine Frame.ofFst ?_ (by assumption) | refine Frame.ofSnd2 ?_ (by assumption) | refine FrameOpt.kept ?_ _ (by assumption) | refine FrameOut.kept ?_ _ (by assumption)))

theorem startHaul_frame {s : State} {k : Nat} {p : Purpose} {dst : ModuleId} {dstBench : Nat} {auto : Bool} {evac : Bool} {pullAll : Bool} {cpl : Option Cpl} {pm : List Part} {z0 : State} (hk : Frame pm z0 s) (m_work : Part.work ∈ pm := by assumption) (m_haul : Part.haul ∈ pm := by assumption) (m_tier : Part.tier ∈ pm := by assumption) : Frame pm z0 (startHaul s k p dst dstBench auto evac pullAll cpl) := by
  unfold startHaul
  try dsimp only
  repeat (any_goals (first | intro _ | with_reducible assumption | with_reducible refine modConv_frame ?_ | with_reducible refine modReq_frame ?_ | with_reducible apply Frame.ite | with_reducible apply Frame.iteFst | fail_if_no_progress (with_reducible refine Frame.set ?_) | split | dsimp only | refine Frame.ofFst ?_ (by assumption) | refine Frame.ofSnd2 ?_ (by assumption) | refine FrameOpt.kept ?_ _ (by assumption) | refine FrameOut.kept ?_ _ (by assumption)))

theorem haulFail_frame {s : State} {id : Nat} {st : Status} {n : Nat} {pm : List Part} {z0 : State} (hk : Frame pm z0 s) (m_host : Part.host ∈ pm := by assumption) (m_work : Part.work ∈ pm := by assumption) (m_haul : Part.haul ∈ pm := by assumption) : Frame pm z0 (haulFail s id st n) := by
  unfold haulFail
  try dsimp only
  repeat (any_goals (first | intro _ | with_reducible assumption | with_reducible refine modConv_frame ?_ | with_reducible refine putReq_frame ?_ | with_reducible refine due_frame ?_ | with_reducible apply Frame.ite | with_reducible apply Frame.iteFst | fail_if_no_progress (with_reducible refine Frame.set ?_) | split | dsimp only | refine Frame.ofFst ?_ (by assumption) | refine Frame.ofSnd2 ?_ (by assumption) | refine FrameOpt.kept ?_ _ (by assumption) | refine FrameOut.kept ?_ _ (by assumption)))

theorem retryHaul_frame {s : State} {id : Nat} {st : Status} {t : Stamp} {pm : List Part} {z0 : State} (hk : Frame pm z0 s) (m_work : Part.work ∈ pm := by assumption) (m_haul : Part.haul ∈ pm := by assumption) (m_fault : Part.fault ∈ pm := by assumption) (m_out : Part.out ∈ pm := by assumption) (m_spent : Part.spent ∈ pm := by assumption) : Frame pm z0 (retryHaul s id st t) := by
  unfold retryHaul
  try dsimp only
  repeat (any_goals (first | intro _ | with_reducible assumption | with_reducible refine sendOffer_frame ?_ | with_reducible refine modConv_frame ?_ | with_reducible refine logErr_frame ?_ | with_reducible apply Frame.ite | with_reducible apply Frame.iteFst | fail_if_no_progress (with_reducible refine Frame.set ?_) | split | dsimp only | refine Frame.ofFst ?_ (by assumption) | refine Frame.ofSnd2 ?_ (by assumption) | refine FrameOpt.kept ?_ _ (by assumption) | refine FrameOut.kept ?_ _ (by assumption)))

theorem homeMoves_frame {s : State} {id : Nat} {h : SrcHaul} {t : Stamp} {pm : List Part} {z0 : State} (hk : Frame pm z0 s) (m_bar : Part.bar ∈ pm := by assumption) (m_benches : Part.benches ∈ pm := by assumption) (m_work : Part.work ∈ pm := by assumption) (m_haul : Part.haul ∈ pm := by assumption) (m_tier : Part.tier ∈ pm := by assumption) (m_out : Part.out ∈ pm := by assumption) (m_spent : Part.spent ∈ pm := by assumption) : Frame pm z0 (homeMoves s id h t) := by
  unfold homeMoves
  try dsimp only
  repeat (any_goals (first | intro _ | with_reducible assumption | with_reducible refine forgetPage_frame ?_ | with_reducible refine delConv_frame ?_ | with_reducible refine putConv_frame ?_ | with_reducible refine freeAutos_frame ?_ | with_reducible refine count_frame ?_ | with_reducible refine send_frame ?_ | with_reducible apply foldl_frame | with_reducible apply foldl_frame_fst | with_reducible apply Frame.ite | with_reducible apply Frame.iteFst | fail_if_no_progress (with_reducible refine Frame.set ?_) | split | dsimp only | refine Frame.ofFst ?_ (by assumption) | refine Frame.ofSnd2 ?_ (by assumption) | refine FrameOpt.kept ?_ _ (by assumption) | refine FrameOut.kept ?_ _ (by assumption)))

theorem setDst_frame {s : State} {id : Nat} {src : ModuleId} {f : DstHaul → DstHaul} {pm : List Part} {z0 : State} (hk : Frame pm z0 s) (m_haul : Part.haul ∈ pm := by assumption) : Frame pm z0 (setDst s id src f) := by
  unfold setDst
  try dsimp only
  repeat (any_goals (first | intro _ | with_reducible assumption | with_reducible apply Frame.ite | with_reducible apply Frame.iteFst | fail_if_no_progress (with_reducible refine Frame.set ?_) | split | dsimp only | refine Frame.ofFst ?_ (by assumption) | refine Frame.ofSnd2 ?_ (by assumption) | refine FrameOpt.kept ?_ _ (by assumption) | refine FrameOut.kept ?_ _ (by assumption)))

theorem dropDst_frame {s : State} {id : Nat} {src : ModuleId} {pm : List Part} {z0 : State} (hk : Frame pm z0 s) (m_haul : Part.haul ∈ pm := by assumption) : Frame pm z0 (dropDst s id src) := by
  unfold dropDst
  try dsimp only
  repeat (any_goals (first | intro _ | with_reducible assumption | with_reducible apply Frame.ite | with_reducible apply Frame.iteFst | fail_if_no_progress (with_reducible refine Frame.set ?_) | split | dsimp only | refine Frame.ofFst ?_ (by assumption) | refine Frame.ofSnd2 ?_ (by assumption) | refine FrameOpt.kept ?_ _ (by assumption) | refine FrameOut.kept ?_ _ (by assumption)))

theorem sendAck_frame {s : State} {id : Nat} {src : ModuleId} {pm : List Part} {z0 : State} (hk : Frame pm z0 s) (m_haul : Part.haul ∈ pm := by assumption) (m_out : Part.out ∈ pm := by assumption) (m_spent : Part.spent ∈ pm := by assumption) : Frame pm z0 (sendAck s id src) := by
  unfold sendAck
  try dsimp only
  repeat (any_goals (first | intro _ | with_reducible assumption | with_reducible refine send_frame ?_ | with_reducible refine setDst_frame ?_ | with_reducible apply Frame.ite | with_reducible apply Frame.iteFst | fail_if_no_progress (with_reducible refine Frame.set ?_) | split | dsimp only | refine Frame.ofFst ?_ (by assumption) | refine Frame.ofSnd2 ?_ (by assumption) | refine FrameOpt.kept ?_ _ (by assumption) | refine FrameOut.kept ?_ _ (by assumption)))

theorem placeEntries_frame {s : State} {b : Nat} {es : List Entry} {pm : List Part} {z0 : State} (hk : Frame pm z0 s) (m_fresh : Part.fresh ∈ pm := by assumption) : Frame pm z0 (placeEntries s b es).1 := by
  unfold placeEntries
  try dsimp only
  repeat (any_goals (first | intro _ | with_reducible assumption | with_reducible refine newPageId_frame ?_ | with_reducible apply foldl_frame | with_reducible apply foldl_frame_fst | with_reducible apply Frame.ite | with_reducible apply Frame.iteFst | fail_if_no_progress (with_reducible refine Frame.set ?_) | split | dsimp only | refine Frame.ofFst ?_ (by assumption) | refine Frame.ofSnd2 ?_ (by assumption) | refine FrameOpt.kept ?_ _ (by assumption) | refine FrameOut.kept ?_ _ (by assumption)))

theorem joinFits_frame {s : State} {b : Nat} {k : Nat} {es : List Entry} {n : Nat} {pm : List Part} {z0 : State} (hk : Frame pm z0 s) (m_benches : Part.benches ∈ pm := by assumption) : Frame pm z0 (joinFits s b k es n) := by
  unfold joinFits
  try dsimp only
  repeat (any_goals (first | intro _ | with_reducible assumption | with_reducible refine setBench_frame ?_ | with_reducible apply foldl_frame | with_reducible apply foldl_frame_fst | with_reducible apply Frame.ite | with_reducible apply Frame.iteFst | fail_if_no_progress (with_reducible refine Frame.set ?_) | split | dsimp only | refine Frame.ofFst ?_ (by assumption) | refine Frame.ofSnd2 ?_ (by assumption) | refine FrameOpt.kept ?_ _ (by assumption) | refine FrameOut.kept ?_ _ (by assumption)))

theorem restoreHere_frame {s0 : State} {h : DstHaul} {c0 : Conv} {cur : Conv} {n : Nat} {pm : List Part} {z0 : State} (hk : Frame pm z0 s0) (m_bar : Part.bar ∈ pm := by assumption) (m_benches : Part.benches ∈ pm := by assumption) (m_work : Part.work ∈ pm := by assumption) (m_fresh : Part.fresh ∈ pm := by assumption) : Frame pm z0 (restoreHere s0 h c0 cur n) := by
  unfold restoreHere
  try dsimp only
  repeat (any_goals (first | intro _ | with_reducible assumption | with_reducible refine placeEntries_frame ?_ | with_reducible refine putConv_frame ?_ | with_reducible refine joinFits_frame ?_ | with_reducible refine putReq_frame ?_ | with_reducible refine count_frame ?_ | with_reducible apply Frame.ite | with_reducible apply Frame.iteFst | fail_if_no_progress (with_reducible refine Frame.set ?_) | split | dsimp only | refine Frame.ofFst ?_ (by assumption) | refine Frame.ofSnd2 ?_ (by assumption) | refine FrameOpt.kept ?_ _ (by assumption) | refine FrameOut.kept ?_ _ (by assumption)))

theorem countRebuild_frame {s : State} {h : DstHaul} {r : Option Req} {c : Conv} {n : Nat} {pm : List Part} {z0 : State} (hk : Frame pm z0 s) (m_bar : Part.bar ∈ pm := by assumption) (m_benches : Part.benches ∈ pm := by assumption) (m_fault : Part.fault ∈ pm := by assumption) (m_out : Part.out ∈ pm := by assumption) : Frame pm z0 (countRebuild s h r c n) := by
  unfold countRebuild
  try dsimp only
  repeat (any_goals (first | intro _ | with_reducible assumption | with_reducible refine countHalf_frame ?_ | with_reducible refine countLost_frame ?_ | with_reducible refine count_frame ?_ | with_reducible apply Frame.ite | with_reducible apply Frame.iteFst | fail_if_no_progress (with_reducible refine Frame.set ?_) | split | dsimp only | refine Frame.ofFst ?_ (by assumption) | refine Frame.ofSnd2 ?_ (by assumption) | refine FrameOpt.kept ?_ _ (by assumption) | refine FrameOut.kept ?_ _ (by assumption)))

theorem applyHaul_frame {s : State} {id : Nat} {h : DstHaul} {n : Nat} {pm : List Part} {z0 : State} (hk : Frame pm z0 s) (m_bar : Part.bar ∈ pm := by assumption) (m_benches : Part.benches ∈ pm := by assumption) (m_work : Part.work ∈ pm := by assumption) (m_haul : Part.haul ∈ pm := by assumption) (m_tier : Part.tier ∈ pm := by assumption) (m_fault : Part.fault ∈ pm := by assumption) (m_out : Part.out ∈ pm := by assumption) (m_spent : Part.spent ∈ pm := by assumption) (m_fresh : Part.fresh ∈ pm := by assumption) : Frame pm z0 (applyHaul s id h n) := by
  unfold applyHaul
  try dsimp only
  repeat (any_goals (first | intro _ | with_reducible assumption | with_reducible refine dropDst_frame ?_ | with_reducible refine restoreHere_frame ?_ | with_reducible refine placeEntries_frame ?_ | with_reducible refine putConv_frame ?_ | with_reducible refine putReq_frame ?_ | with_reducible refine joinFits_frame ?_ | with_reducible refine send_frame ?_ | with_reducible refine promoteToFloor_frame ?_ | with_reducible refine countRebuild_frame ?_ | with_reducible refine takePending_frame ?_ | with_reducible apply foldl_frame | with_reducible apply foldl_frame_fst | with_reducible apply Frame.ite | with_reducible apply Frame.iteFst | fail_if_no_progress (with_reducible refine Frame.set ?_) | split | dsimp only | refine Frame.ofFst ?_ (by assumption) | refine Frame.ofSnd2 ?_ (by assumption) | refine FrameOpt.kept ?_ _ (by assumption) | refine FrameOut.kept ?_ _ (by assumption)))

theorem startPull_frame {s : State} {k : Nat} {home : ModuleId} {b : Nat} {pullAll : Bool} {cpl : Cpl} {d : HostDesc} {pm : List Part} {z0 : State} (hk : Frame pm z0 s) (m_haul : Part.haul ∈ pm := by assumption) (m_out : Part.out ∈ pm := by assumption) (m_spent : Part.spent ∈ pm := by assumption) : Frame pm z0 (startPull s k home b pullAll cpl d) := by
  unfold startPull
  try dsimp only
  repeat (any_goals (first | intro _ | with_reducible assumption | with_reducible refine send_frame ?_ | with_reducible apply Frame.ite | with_reducible apply Frame.iteFst | fail_if_no_progress (with_reducible refine Frame.set ?_) | split | dsimp only | refine Frame.ofFst ?_ (by assumption) | refine Frame.ofSnd2 ?_ (by assumption) | refine FrameOpt.kept ?_ _ (by assumption) | refine FrameOut.kept ?_ _ (by assumption)))

theorem haulRequest_frame {t : Stamp} {m : HaulMsg} {s : State} {pm : List Part} {z0 : State} (hk : Frame pm z0 s) (m_time : Part.time ∈ pm := by assumption) (m_work : Part.work ∈ pm := by assumption) (m_haul : Part.haul ∈ pm := by assumption) (m_tier : Part.tier ∈ pm := by assumption) (m_fault : Part.fault ∈ pm := by assumption) (m_out : Part.out ∈ pm := by assumption) (m_spent : Part.spent ∈ pm := by assumption) : Frame pm z0 (haulRequest t m s) := by
  unfold haulRequest
  try dsimp only
  repeat (any_goals (first | intro _ | with_reducible assumption | with_reducible refine send_frame ?_ | with_reducible refine malformed_frame ?_ | with_reducible refine sendOffer_frame ?_ | with_reducible refine startHaul_frame ?_ | with_reducible refine State_at_frame ?_ | with_reducible apply Frame.ite | with_reducible apply Frame.iteFst | fail_if_no_progress (with_reducible refine Frame.set ?_) | split | dsimp only | refine Frame.ofFst ?_ (by assumption) | refine Frame.ofSnd2 ?_ (by assumption) | refine FrameOpt.kept ?_ _ (by assumption) | refine FrameOut.kept ?_ _ (by assumption)))

theorem execHaulRequest_frame {t : Stamp} {m : HaulMsg} {s : State} {pm : List Part} {z0 : State} (hk : Frame pm z0 s) (m_time : Part.time ∈ pm := by assumption) (m_work : Part.work ∈ pm := by assumption) (m_haul : Part.haul ∈ pm := by assumption) (m_tier : Part.tier ∈ pm := by assumption) (m_fault : Part.fault ∈ pm := by assumption) (m_pwr : Part.pwr ∈ pm := by assumption) (m_out : Part.out ∈ pm := by assumption) (m_spent : Part.spent ∈ pm := by assumption) : FrameOut pm z0 (execHaulRequest t m s) := by
  unfold execHaulRequest
  try dsimp only
  repeat (any_goals (first | intro _ | with_reducible assumption | with_reducible refine runLink_frame ?_ ?_ | with_reducible refine haulRequest_frame ?_ | with_reducible apply FrameOut.next | exact FrameOut.fault | with_reducible apply Frame.ite | with_reducible apply Frame.iteFst | with_reducible apply FrameOut.ite | fail_if_no_progress (with_reducible refine Frame.set ?_) | split | dsimp only | refine Frame.ofFst ?_ (by assumption) | refine Frame.ofSnd2 ?_ (by assumption) | refine FrameOpt.kept ?_ _ (by assumption) | refine FrameOut.kept ?_ _ (by assumption)))

theorem haulOffer_frame {m : HaulMsg} {s : State} {pm : List Part} {z0 : State} (hk : Frame pm z0 s) (m_haul : Part.haul ∈ pm := by assumption) (m_fault : Part.fault ∈ pm := by assumption) (m_out : Part.out ∈ pm := by assumption) (m_spent : Part.spent ∈ pm := by assumption) : Frame pm z0 (haulOffer m s) := by
  unfold haulOffer
  try dsimp only
  repeat (any_goals (first | intro _ | with_reducible assumption | with_reducible refine send_frame ?_ | with_reducible refine malformed_frame ?_ | with_reducible apply Frame.ite | with_reducible apply Frame.iteFst | fail_if_no_progress (with_reducible refine Frame.set ?_) | split | dsimp only | refine Frame.ofFst ?_ (by assumption) | refine Frame.ofSnd2 ?_ (by assumption) | refine FrameOpt.kept ?_ _ (by assumption) | refine FrameOut.kept ?_ _ (by assumption)))

theorem execHaulOffer_frame {t : Stamp} {m : HaulMsg} {s : State} {pm : List Part} {z0 : State} (hk : Frame pm z0 s) (m_time : Part.time ∈ pm := by assumption) (m_haul : Part.haul ∈ pm := by assumption) (m_fault : Part.fault ∈ pm := by assumption) (m_pwr : Part.pwr ∈ pm := by assumption) (m_out : Part.out ∈ pm := by assumption) (m_spent : Part.spent ∈ pm := by assumption) : FrameOut pm z0 (execHaulOffer t m s) := by
  unfold execHaulOffer
  try dsimp only
  repeat (any_goals (first | intro _ | with_reducible assumption | with_reducible refine runLink_frame ?_ ?_ | with_reducible refine haulOffer_frame ?_ | with_reducible apply FrameOut.next | exact FrameOut.fault | with_reducible apply Frame.ite | with_reducible apply Frame.iteFst | with_reducible apply FrameOut.ite | fail_if_no_progress (with_reducible refine Frame.set ?_) | split | dsimp only | refine Frame.ofFst ?_ (by assumption) | refine Frame.ofSnd2 ?_ (by assumption) | refine FrameOpt.kept ?_ _ (by assumption) | refine FrameOut.kept ?_ _ (by assumption)))

theorem haulAccept_frame {m : HaulMsg} {s : State} {pm : List Part} {z0 : State} (hk : Frame pm z0 s) (m_fault : Part.fault ∈ pm := by assumption) (m_out : Part.out ∈ pm := by assumption) (m_spent : Part.spent ∈ pm := by assumption) : Frame pm z0 (haulAccept m s) := by
  unfold haulAccept
  try dsimp only
  repeat (any_goals (first | intro _ | with_reducible assumption | with_reducible refine malformed_frame ?_ | with_reducible refine send_frame ?_ | with_reducible refine chargePages_frame ?_ | with_reducible apply foldl_frame | with_reducible apply foldl_frame_fst | with_reducible apply Frame.ite | with_reducible apply Frame.iteFst | fail_if_no_progress (with_reducible refine Frame.set ?_) | split | dsimp only | refine Frame.ofFst ?_ (by assumption) | refine Frame.ofSnd2 ?_ (by assumption) | refine FrameOpt.kept ?_ _ (by assumption) | refine FrameOut.kept ?_ _ (by assumption)))

theorem execHaulAccept_frame {t : Stamp} {m : HaulMsg} {s : State} {pm : List Part} {z0 : State} (hk : Frame pm z0 s) (m_time : Part.time ∈ pm := by assumption) (m_fault : Part.fault ∈ pm := by assumption) (m_pwr : Part.pwr ∈ pm := by assumption) (m_out : Part.out ∈ pm := by assumption) (m_spent : Part.spent ∈ pm := by assumption) : FrameOut pm z0 (execHaulAccept t m s) := by
  unfold execHaulAccept
  try dsimp only
  repeat (any_goals (first | intro _ | with_reducible assumption | with_reducible refine runLink_frame ?_ ?_ | with_reducible refine haulAccept_frame ?_ | with_reducible apply FrameOut.next | exact FrameOut.fault | with_reducible apply Frame.ite | with_reducible apply Frame.iteFst | with_reducible apply FrameOut.ite | fail_if_no_progress (with_reducible refine Frame.set ?_) | split | dsimp only | refine Frame.ofFst ?_ (by assumption) | refine Frame.ofSnd2 ?_ (by assumption) | refine FrameOpt.kept ?_ _ (by assumption) | refine FrameOut.kept ?_ _ (by assumption)))

theorem haulRefuse_frame {reject : State → PageRef → State} {t : Stamp} {m : HaulMsg} {s : State} {pm : List Part} {z0 : State} (hreject : ∀ (z : State) (x0 : State) (x1 : PageRef), Frame pm z x0 → Frame pm z (reject x0 x1)) (hk : Frame pm z0 s) (m_work : Part.work ∈ pm := by assumption) (m_haul : Part.haul ∈ pm := by assumption) (m_fault : Part.fault ∈ pm := by assumption) (m_out : Part.out ∈ pm := by assumption) (m_spent : Part.spent ∈ pm := by assumption) : Frame pm z0 (haulRefuse reject t m s) := by
  unfold haulRefuse
  try dsimp only
  repeat (any_goals (first | intro _ | with_reducible assumption | with_reducible refine malformed_frame ?_ | with_reducible refine retryHaul_frame ?_ | with_reducible apply hreject | with_reducible apply Frame.ite | with_reducible apply Frame.iteFst | fail_if_no_progress (with_reducible refine Frame.set ?_) | split | dsimp only | refine Frame.ofFst ?_ (by assumption) | refine Frame.ofSnd2 ?_ (by assumption) | refine FrameOpt.kept ?_ _ (by assumption) | refine FrameOut.kept ?_ _ (by assumption)))

theorem countReject_frame {s : State} {b : Nat} {conv : Nat} {e : Entry} {cause : Nat} {pm : List Part} {z0 : State} (hk : Frame pm z0 s) (m_bar : Part.bar ∈ pm := by assumption) (m_fault : Part.fault ∈ pm := by assumption) (m_out : Part.out ∈ pm := by assumption) : Frame pm z0 (countReject s b conv e cause) := by
  unfold countReject
  try dsimp only
  repeat (any_goals (first | intro _ | with_reducible assumption | with_reducible refine logErr_frame ?_ | with_reducible refine count_frame ?_ | with_reducible apply Frame.ite | with_reducible apply Frame.iteFst | fail_if_no_progress (with_reducible refine Frame.set ?_) | split | dsimp only | refine Frame.ofFst ?_ (by assumption) | refine Frame.ofSnd2 ?_ (by assumption) | refine FrameOpt.kept ?_ _ (by assumption) | refine FrameOut.kept ?_ _ (by assumption)))

theorem haulData_frame {m : HaulMsg} {s : State} {pm : List Part} {z0 : State} (hk : Frame pm z0 s) (m_bar : Part.bar ∈ pm := by assumption) (m_haul : Part.haul ∈ pm := by assumption) (m_fault : Part.fault ∈ pm := by assumption) (m_out : Part.out ∈ pm := by assumption) (m_spent : Part.spent ∈ pm := by assumption) : Frame pm z0 (haulData m s) := by
  unfold haulData
  try dsimp only
  repeat (any_goals (first | intro _ | with_reducible assumption | with_reducible refine malformed_frame ?_ | with_reducible refine send_frame ?_ | with_reducible refine dropDst_frame ?_ | with_reducible refine countReject_frame ?_ | with_reducible refine setDst_frame ?_ | with_reducible refine chargePages_frame ?_ | with_reducible apply Frame.ite | with_reducible apply Frame.iteFst | fail_if_no_progress (with_reducible refine Frame.set ?_) | split | dsimp only | refine Frame.ofFst ?_ (by assumption) | refine Frame.ofSnd2 ?_ (by assumption) | refine FrameOpt.kept ?_ _ (by assumption) | refine FrameOut.kept ?_ _ (by assumption)))

theorem execHaulData_frame {t : Stamp} {m : HaulMsg} {s : State} {pm : List Part} {z0 : State} (hk : Frame pm z0 s) (m_time : Part.time ∈ pm := by assumption) (m_bar : Part.bar ∈ pm := by assumption) (m_haul : Part.haul ∈ pm := by assumption) (m_fault : Part.fault ∈ pm := by assumption) (m_pwr : Part.pwr ∈ pm := by assumption) (m_out : Part.out ∈ pm := by assumption) (m_spent : Part.spent ∈ pm := by assumption) : FrameOut pm z0 (execHaulData t m s) := by
  unfold execHaulData
  try dsimp only
  repeat (any_goals (first | intro _ | with_reducible assumption | with_reducible refine runLink_frame ?_ ?_ | with_reducible refine haulData_frame ?_ | with_reducible apply FrameOut.next | exact FrameOut.fault | with_reducible apply Frame.ite | with_reducible apply Frame.iteFst | with_reducible apply FrameOut.ite | fail_if_no_progress (with_reducible refine Frame.set ?_) | split | dsimp only | refine Frame.ofFst ?_ (by assumption) | refine Frame.ofSnd2 ?_ (by assumption) | refine FrameOpt.kept ?_ _ (by assumption) | refine FrameOut.kept ?_ _ (by assumption)))

theorem haulStateWritten_frame {haul : Nat} {src : ModuleId} {s : State} {pm : List Part} {z0 : State} (hk : Frame pm z0 s) (m_haul : Part.haul ∈ pm := by assumption) (m_out : Part.out ∈ pm := by assumption) (m_spent : Part.spent ∈ pm := by assumption) : Frame pm z0 (haulStateWritten haul src s) := by
  unfold haulStateWritten
  try dsimp only
  repeat (any_goals (first | intro _ | with_reducible assumption | with_reducible refine sendAck_frame ?_ | with_reducible refine setDst_frame ?_ | with_reducible apply Frame.ite | with_reducible apply Frame.iteFst | fail_if_no_progress (with_reducible refine Frame.set ?_) | split | dsimp only | refine Frame.ofFst ?_ (by assumption) | refine Frame.ofSnd2 ?_ (by assumption) | refine FrameOpt.kept ?_ _ (by assumption) | refine FrameOut.kept ?_ _ (by assumption)))

theorem execHaulStateWritten_frame {t : Stamp} {haul : Nat} {src : ModuleId} {s : State} {pm : List Part} {z0 : State} (hk : Frame pm z0 s) (m_time : Part.time ∈ pm := by assumption) (m_haul : Part.haul ∈ pm := by assumption) (m_out : Part.out ∈ pm := by assumption) (m_spent : Part.spent ∈ pm := by assumption) : FrameOut pm z0 (execHaulStateWritten t haul src s) := by
  unfold execHaulStateWritten
  try dsimp only
  repeat (any_goals (first | intro _ | with_reducible assumption | with_reducible refine run_frame ?_ ?_ | with_reducible refine haulStateWritten_frame ?_ | with_reducible apply FrameOut.next | exact FrameOut.fault | with_reducible apply Frame.ite | with_reducible apply Frame.iteFst | with_reducible apply FrameOut.ite | fail_if_no_progress (with_reducible refine Frame.set ?_) | split | dsimp only | refine Frame.ofFst ?_ (by assumption) | refine Frame.ofSnd2 ?_ (by assumption) | refine FrameOpt.kept ?_ _ (by assumption) | refine FrameOut.kept ?_ _ (by assumption)))

theorem haulAck_frame {t : Stamp} {m : HaulMsg} {dst : ModuleId} {s : State} {pm : List Part} {z0 : State} (hk : Frame pm z0 s) (m_bar : Part.bar ∈ pm := by assumption) (m_benches : Part.benches ∈ pm := by assumption) (m_work : Part.work ∈ pm := by assumption) (m_haul : Part.haul ∈ pm := by assumption) (m_tier : Part.tier ∈ pm := by assumption) (m_fault : Part.fault ∈ pm := by assumption) (m_out : Part.out ∈ pm := by assumption) (m_spent : Part.spent ∈ pm := by assumption) : Frame pm z0 (haulAck t m dst s) := by
  unfold haulAck
  try dsimp only
  repeat (any_goals (first | intro _ | with_reducible assumption | with_reducible refine send_frame ?_ | with_reducible refine malformed_frame ?_ | with_reducible refine homeMoves_frame ?_ | with_reducible apply Frame.ite | with_reducible apply Frame.iteFst | fail_if_no_progress (with_reducible refine Frame.set ?_) | split | dsimp only | refine Frame.ofFst ?_ (by assumption) | refine Frame.ofSnd2 ?_ (by assumption) | refine FrameOpt.kept ?_ _ (by assumption) | refine FrameOut.kept ?_ _ (by assumption)))

theorem execHaulAck_frame {t : Stamp} {m : HaulMsg} {s : State} {pm : List Part} {z0 : State} (hk : Frame pm z0 s) (m_time : Part.time ∈ pm := by assumption) (m_bar : Part.bar ∈ pm := by assumption) (m_benches : Part.benches ∈ pm := by assumption) (m_work : Part.work ∈ pm := by assumption) (m_haul : Part.haul ∈ pm := by assumption) (m_tier : Part.tier ∈ pm := by assumption) (m_fault : Part.fault ∈ pm := by assumption) (m_pwr : Part.pwr ∈ pm := by assumption) (m_out : Part.out ∈ pm := by assumption) (m_spent : Part.spent ∈ pm := by assumption) : FrameOut pm z0 (execHaulAck t m s) := by
  unfold execHaulAck
  try dsimp only
  repeat (any_goals (first | intro _ | with_reducible assumption | with_reducible refine runLink_frame ?_ ?_ | with_reducible refine haulAck_frame ?_ | with_reducible apply FrameOut.next | exact FrameOut.fault | with_reducible apply Frame.ite | with_reducible apply Frame.iteFst | with_reducible apply FrameOut.ite | fail_if_no_progress (with_reducible refine Frame.set ?_) | split | dsimp only | refine Frame.ofFst ?_ (by assumption) | refine Frame.ofSnd2 ?_ (by assumption) | refine FrameOpt.kept ?_ _ (by assumption) | refine FrameOut.kept ?_ _ (by assumption)))

theorem haulFreed_frame {m : HaulMsg} {s : State} {pm : List Part} {z0 : State} (hk : Frame pm z0 s) (m_haul : Part.haul ∈ pm := by assumption) (m_fault : Part.fault ∈ pm := by assumption) (m_out : Part.out ∈ pm := by assumption) : Frame pm z0 (haulFreed m s) := by
  unfold haulFreed
  try dsimp only
  repeat (any_goals (first | intro _ | with_reducible assumption | with_reducible refine malformed_frame ?_ | with_reducible refine setDst_frame ?_ | with_reducible apply Frame.ite | with_reducible apply Frame.iteFst | fail_if_no_progress (with_reducible refine Frame.set ?_) | split | dsimp only | refine Frame.ofFst ?_ (by assumption) | refine Frame.ofSnd2 ?_ (by assumption) | refine FrameOpt.kept ?_ _ (by assumption) | refine FrameOut.kept ?_ _ (by assumption)))

theorem execHaulFreed_frame {t : Stamp} {m : HaulMsg} {s : State} {pm : List Part} {z0 : State} (hk : Frame pm z0 s) (m_time : Part.time ∈ pm := by assumption) (m_haul : Part.haul ∈ pm := by assumption) (m_fault : Part.fault ∈ pm := by assumption) (m_pwr : Part.pwr ∈ pm := by assumption) (m_out : Part.out ∈ pm := by assumption) : FrameOut pm z0 (execHaulFreed t m s) := by
  unfold execHaulFreed
  try dsimp only
  repeat (any_goals (first | intro _ | with_reducible assumption | with_reducible refine runLink_frame ?_ ?_ | with_reducible refine haulFreed_frame ?_ | with_reducible apply FrameOut.next | exact FrameOut.fault | with_reducible apply Frame.ite | with_reducible apply Frame.iteFst | with_reducible apply FrameOut.ite | fail_if_no_progress (with_reducible refine Frame.set ?_) | split | dsimp only | refine Frame.ofFst ?_ (by assumption) | refine Frame.ofSnd2 ?_ (by assumption) | refine FrameOpt.kept ?_ _ (by assumption) | refine FrameOut.kept ?_ _ (by assumption)))

theorem haulAbort_frame {m : HaulMsg} {s : State} {pm : List Part} {z0 : State} (hk : Frame pm z0 s) (m_haul : Part.haul ∈ pm := by assumption) (m_fault : Part.fault ∈ pm := by assumption) (m_out : Part.out ∈ pm := by assumption) : Frame pm z0 (haulAbort m s) := by
  unfold haulAbort
  try dsimp only
  repeat (any_goals (first | intro _ | with_reducible assumption | with_reducible refine malformed_frame ?_ | with_reducible refine dropDst_frame ?_ | with_reducible apply Frame.ite | with_reducible apply Frame.iteFst | fail_if_no_progress (with_reducible refine Frame.set ?_) | split | dsimp only | refine Frame.ofFst ?_ (by assumption) | refine Frame.ofSnd2 ?_ (by assumption) | refine FrameOpt.kept ?_ _ (by assumption) | refine FrameOut.kept ?_ _ (by assumption)))

theorem execHaulAbort_frame {t : Stamp} {m : HaulMsg} {s : State} {pm : List Part} {z0 : State} (hk : Frame pm z0 s) (m_time : Part.time ∈ pm := by assumption) (m_haul : Part.haul ∈ pm := by assumption) (m_fault : Part.fault ∈ pm := by assumption) (m_pwr : Part.pwr ∈ pm := by assumption) (m_out : Part.out ∈ pm := by assumption) : FrameOut pm z0 (execHaulAbort t m s) := by
  unfold execHaulAbort
  try dsimp only
  repeat (any_goals (first | intro _ | with_reducible assumption | with_reducible refine runLink_frame ?_ ?_ | with_reducible refine haulAbort_frame ?_ | with_reducible apply FrameOut.next | exact FrameOut.fault | with_reducible apply Frame.ite | with_reducible apply Frame.iteFst | with_reducible apply FrameOut.ite | fail_if_no_progress (with_reducible refine Frame.set ?_) | split | dsimp only | refine Frame.ofFst ?_ (by assumption) | refine Frame.ofSnd2 ?_ (by assumption) | refine FrameOpt.kept ?_ _ (by assumption) | refine FrameOut.kept ?_ _ (by assumption)))

theorem haulTimeout_frame {t : Stamp} {haul : Nat} {s : State} {pm : List Part} {z0 : State} (hk : Frame pm z0 s) (m_work : Part.work ∈ pm := by assumption) (m_haul : Part.haul ∈ pm := by assumption) (m_fault : Part.fault ∈ pm := by assumption) (m_out : Part.out ∈ pm := by assumption) (m_spent : Part.spent ∈ pm := by assumption) : Frame pm z0 (haulTimeout t haul s) := by
  unfold haulTimeout
  try dsimp only
  repeat (any_goals (first | intro _ | with_reducible assumption | with_reducible refine retryHaul_frame ?_ | with_reducible refine send_frame ?_ | with_reducible apply Frame.ite | with_reducible apply Frame.iteFst | fail_if_no_progress (with_reducible refine Frame.set ?_) | split | dsimp only | refine Frame.ofFst ?_ (by assumption) | refine Frame.ofSnd2 ?_ (by assumption) | refine FrameOpt.kept ?_ _ (by assumption) | refine FrameOut.kept ?_ _ (by assumption)))

theorem execHaulTimeout_frame {t : Stamp} {haul : Nat} {s : State} {pm : List Part} {z0 : State} (hk : Frame pm z0 s) (m_time : Part.time ∈ pm := by assumption) (m_work : Part.work ∈ pm := by assumption) (m_haul : Part.haul ∈ pm := by assumption) (m_fault : Part.fault ∈ pm := by assumption) (m_out : Part.out ∈ pm := by assumption) (m_spent : Part.spent ∈ pm := by assumption) : FrameOut pm z0 (execHaulTimeout t haul s) := by
  unfold execHaulTimeout
  try dsimp only
  repeat (any_goals (first | intro _ | with_reducible assumption | with_reducible refine run_frame ?_ ?_ | with_reducible refine haulTimeout_frame ?_ | with_reducible apply FrameOut.next | exact FrameOut.fault | with_reducible apply Frame.ite | with_reducible apply Frame.iteFst | with_reducible apply FrameOut.ite | fail_if_no_progress (with_reducible refine Frame.set ?_) | split | dsimp only | refine Frame.ofFst ?_ (by assumption) | refine Frame.ofSnd2 ?_ (by assumption) | refine FrameOpt.kept ?_ _ (by assumption) | refine FrameOut.kept ?_ _ (by assumption)))

theorem haulAckRepeat_frame {haul : Nat} {src : ModuleId} {s : State} {pm : List Part} {z0 : State} (hk : Frame pm z0 s) (m_haul : Part.haul ∈ pm := by assumption) (m_out : Part.out ∈ pm := by assumption) (m_spent : Part.spent ∈ pm := by assumption) : Frame pm z0 (haulAckRepeat haul src s) := by
  unfold haulAckRepeat
  try dsimp only
  repeat (any_goals (first | intro _ | with_reducible assumption | with_reducible refine sendAck_frame ?_ | with_reducible apply Frame.ite | with_reducible apply Frame.iteFst | fail_if_no_progress (with_reducible refine Frame.set ?_) | split | dsimp only | refine Frame.ofFst ?_ (by assumption) | refine Frame.ofSnd2 ?_ (by assumption) | refine FrameOpt.kept ?_ _ (by assumption) | refine FrameOut.kept ?_ _ (by assumption)))

theorem execHaulAckRepeat_frame {t : Stamp} {haul : Nat} {src : ModuleId} {s : State} {pm : List Part} {z0 : State} (hk : Frame pm z0 s) (m_time : Part.time ∈ pm := by assumption) (m_haul : Part.haul ∈ pm := by assumption) (m_out : Part.out ∈ pm := by assumption) (m_spent : Part.spent ∈ pm := by assumption) : FrameOut pm z0 (execHaulAckRepeat t haul src s) := by
  unfold execHaulAckRepeat
  try dsimp only
  repeat (any_goals (first | intro _ | with_reducible assumption | with_reducible refine run_frame ?_ ?_ | with_reducible refine haulAckRepeat_frame ?_ | with_reducible apply FrameOut.next | exact FrameOut.fault | with_reducible apply Frame.ite | with_reducible apply Frame.iteFst | with_reducible apply FrameOut.ite | fail_if_no_progress (with_reducible refine Frame.set ?_) | split | dsimp only | refine Frame.ofFst ?_ (by assumption) | refine Frame.ofSnd2 ?_ (by assumption) | refine FrameOpt.kept ?_ _ (by assumption) | refine FrameOut.kept ?_ _ (by assumption)))

theorem haulSourceUnreachable_frame {t : Stamp} {haul : Nat} {src : ModuleId} {s : State} {pm : List Part} {z0 : State} (hk : Frame pm z0 s) (m_haul : Part.haul ∈ pm := by assumption) (m_fault : Part.fault ∈ pm := by assumption) (m_out : Part.out ∈ pm := by assumption) : Frame pm z0 (haulSourceUnreachable t haul src s) := by
  unfold haulSourceUnreachable
  try dsimp only
  repeat (any_goals (first | intro _ | with_reducible assumption | with_reducible refine logErr_frame ?_ | with_reducible refine dropDst_frame ?_ | with_reducible apply Frame.ite | with_reducible apply Frame.iteFst | fail_if_no_progress (with_reducible refine Frame.set ?_) | split | dsimp only | refine Frame.ofFst ?_ (by assumption) | refine Frame.ofSnd2 ?_ (by assumption) | refine FrameOpt.kept ?_ _ (by assumption) | refine FrameOut.kept ?_ _ (by assumption)))

theorem execHaulSourceUnreachable_frame {t : Stamp} {haul : Nat} {src : ModuleId} {s : State} {pm : List Part} {z0 : State} (hk : Frame pm z0 s) (m_time : Part.time ∈ pm := by assumption) (m_haul : Part.haul ∈ pm := by assumption) (m_fault : Part.fault ∈ pm := by assumption) (m_out : Part.out ∈ pm := by assumption) : FrameOut pm z0 (execHaulSourceUnreachable t haul src s) := by
  unfold execHaulSourceUnreachable
  try dsimp only
  repeat (any_goals (first | intro _ | with_reducible assumption | with_reducible refine run_frame ?_ ?_ | with_reducible refine haulSourceUnreachable_frame ?_ | with_reducible apply FrameOut.next | exact FrameOut.fault | with_reducible apply Frame.ite | with_reducible apply Frame.iteFst | with_reducible apply FrameOut.ite | fail_if_no_progress (with_reducible refine Frame.set ?_) | split | dsimp only | refine Frame.ofFst ?_ (by assumption) | refine Frame.ofSnd2 ?_ (by assumption) | refine FrameOpt.kept ?_ _ (by assumption) | refine FrameOut.kept ?_ _ (by assumption)))

theorem execFreedWaitExpiry_frame {t : Stamp} {s : State} {pm : List Part} {z0 : State} (hk : Frame pm z0 s) (m_time : Part.time ∈ pm := by assumption) : FrameOut pm z0 (execFreedWaitExpiry t s) := by
  unfold execFreedWaitExpiry
  try dsimp only
  repeat (any_goals (first | intro _ | with_reducible assumption | with_reducible refine run_frame ?_ ?_ | with_reducible apply FrameOut.next | exact FrameOut.fault | with_reducible apply Frame.ite | with_reducible apply Frame.iteFst | with_reducible apply FrameOut.ite | fail_if_no_progress (with_reducible refine Frame.set ?_) | split | dsimp only | refine Frame.ofFst ?_ (by assumption) | refine Frame.ofSnd2 ?_ (by assumption) | refine FrameOpt.kept ?_ _ (by assumption) | refine FrameOut.kept ?_ _ (by assumption)))

theorem actPark_frame {pm : List Part} {n : Nat} {a : State × Nat} {p : ParkWait} {z0 : State} (hk : Frame pm z0 a.1) (m_host : Part.host ∈ pm := by assumption) (m_work : Part.work ∈ pm := by assumption) (m_haul : Part.haul ∈ pm := by assumption) (m_tier : Part.tier ∈ pm := by assumption) (m_out : Part.out ∈ pm := by assumption) (m_spent : Part.spent ∈ pm := by assumption) : Frame pm z0 (actPark n a p).1 := by
  unfold actPark
  try dsimp only
  repeat (any_goals (first | with_reducible exact hk | with_reducible refine sendOffer_frame ?_ | with_reducible refine modConv_frame ?_ | with_reducible refine dueAt_frame ?_ | with_reducible refine parkInPlace_frame ?_ | fail_if_no_progress (with_reducible refine Frame.set ?_) | split | dsimp only))

theorem actParks_frame {s : State} {n : Nat} {pm : List Part} {z0 : State} (hk : Frame pm z0 s) (m_host : Part.host ∈ pm := by assumption) (m_work : Part.work ∈ pm := by assumption) (m_haul : Part.haul ∈ pm := by assumption) (m_tier : Part.tier ∈ pm := by assumption) (m_out : Part.out ∈ pm := by assumption) (m_spent : Part.spent ∈ pm := by assumption) : Frame pm z0 (actParks s n) := by
  unfold actParks
  try dsimp only
  repeat (any_goals (first | intro _ | with_reducible assumption | with_reducible refine actPark_frame ?_ | with_reducible apply foldl_frame | with_reducible apply foldl_frame_fst | with_reducible apply Frame.ite | with_reducible apply Frame.iteFst | fail_if_no_progress (with_reducible refine Frame.set ?_) | split | dsimp only | refine Frame.ofFst ?_ (by assumption) | refine Frame.ofSnd2 ?_ (by assumption) | refine FrameOpt.kept ?_ _ (by assumption) | refine FrameOut.kept ?_ _ (by assumption)))

theorem settle_frame {n : Nat} {f : State → State} {s : State} {pm : List Part} {z0 : State} (hf : ∀ (z : State) (x0 : State), Frame pm z x0 → Frame pm z (f x0)) (hk : Frame pm z0 s) (m_host : Part.host ∈ pm := by assumption) (m_work : Part.work ∈ pm := by assumption) (m_haul : Part.haul ∈ pm := by assumption) (m_tier : Part.tier ∈ pm := by assumption) (m_fault : Part.fault ∈ pm := by assumption) (m_out : Part.out ∈ pm := by assumption) (m_spent : Part.spent ∈ pm := by assumption) (m_fresh : Part.fresh ∈ pm := by assumption) : Frame pm z0 (settle n f s) := by
  unfold settle
  try dsimp only
  repeat (any_goals (first | intro _ | with_reducible assumption | with_reducible refine flushDue_frame ?_ | with_reducible refine actParks_frame ?_ | with_reducible refine closeStreams_frame ?_ | with_reducible refine writeWaiting_frame ?_ | with_reducible apply hf | with_reducible apply Frame.ite | with_reducible apply Frame.iteFst | fail_if_no_progress (with_reducible refine Frame.set ?_) | split | dsimp only | refine Frame.ofFst ?_ (by assumption) | refine Frame.ofSnd2 ?_ (by assumption) | refine FrameOpt.kept ?_ _ (by assumption) | refine FrameOut.kept ?_ _ (by assumption)))

theorem applyWith_frame {c : Cpl} {o : Nat} {f : Cpl → HostDesc → Nat → State → State} {d : HostDesc} {n : Nat} {s : State} {pm : List Part} {z0 : State} (hf : ∀ (z : State) (x0 : Cpl) (x1 : HostDesc) (x2 : Nat) (x3 : State), Frame pm z x3 → Frame pm z (f x0 x1 x2 x3)) (hk : Frame pm z0 s) (m_host : Part.host ∈ pm := by assumption) : Frame pm z0 (applyWith c o f d n s) := by
  unfold applyWith
  try dsimp only
  repeat (any_goals (first | intro _ | with_reducible assumption | with_reducible refine due_frame ?_ | with_reducible apply hf | with_reducible apply Frame.ite | with_reducible apply Frame.iteFst | fail_if_no_progress (with_reducible refine Frame.set ?_) | split | dsimp only | refine Frame.ofFst ?_ (by assumption) | refine Frame.ofSnd2 ?_ (by assumption) | refine FrameOpt.kept ?_ _ (by assumption) | refine FrameOut.kept ?_ _ (by assumption)))

theorem applyDesc_frame {o : Nat} {f : Cpl → HostDesc → Nat → State → State} {d : HostDesc} {n : Nat} {s : State} {pm : List Part} {z0 : State} (hf : ∀ (z : State) (x0 : Cpl) (x1 : HostDesc) (x2 : Nat) (x3 : State), Frame pm z x3 → Frame pm z (f x0 x1 x2 x3)) (hk : Frame pm z0 s) (m_host : Part.host ∈ pm := by assumption) : Frame pm z0 (applyDesc o f d n s) := by
  unfold applyDesc
  try dsimp only
  repeat (any_goals (first | intro _ | with_reducible assumption | with_reducible refine applyWith_frame ?_ ?_ | with_reducible apply hf | with_reducible apply Frame.ite | with_reducible apply Frame.iteFst | fail_if_no_progress (with_reducible refine Frame.set ?_) | split | dsimp only | refine Frame.ofFst ?_ (by assumption) | refine Frame.ofSnd2 ?_ (by assumption) | refine FrameOpt.kept ?_ _ (by assumption) | refine FrameOut.kept ?_ _ (by assumption)))

theorem takeLanded_frame {d : HostDesc} {s : State} {pm : List Part} {z0 : State} (hk : Frame pm z0 s) (m_host : Part.host ∈ pm := by assumption) : Frame pm z0 (takeLanded d s) := by
  unfold takeLanded
  try dsimp only
  repeat (any_goals (first | intro _ | with_reducible assumption | with_reducible apply Frame.ite | with_reducible apply Frame.iteFst | fail_if_no_progress (with_reducible refine Frame.set ?_) | split | dsimp only | refine Frame.ofFst ?_ (by assumption) | refine Frame.ofSnd2 ?_ (by assumption) | refine FrameOpt.kept ?_ _ (by assumption) | refine FrameOut.kept ?_ _ (by assumption)))

theorem forward_frame {s : State} {g : Gone} {c : Cpl} {d : HostDesc} {result : Nat} {n : Nat} {pm : List Part} {z0 : State} (hk : Frame pm z0 s) (m_haul : Part.haul ∈ pm := by assumption) (m_out : Part.out ∈ pm := by assumption) (m_spent : Part.spent ∈ pm := by assumption) : Frame pm z0 (forward s g c d result n) := by
  unfold forward
  try dsimp only
  repeat (any_goals (first | intro _ | with_reducible assumption | with_reducible refine send_frame ?_ | with_reducible apply Frame.ite | with_reducible apply Frame.iteFst | fail_if_no_progress (with_reducible refine Frame.set ?_) | split | dsimp only | refine Frame.ofFst ?_ (by assumption) | refine Frame.ofSnd2 ?_ (by assumption) | refine FrameOpt.kept ?_ _ (by assumption) | refine FrameOut.kept ?_ _ (by assumption)))

theorem readOut_frame {s : State} {k : Cpl} {d : HostDesc} {c : Conv} {pm : List Part} {z0 : State} (hk : Frame pm z0 s) (m_out : Part.out ∈ pm := by assumption) : FrameOpt pm z0 (readOut s k d c) := by
  unfold readOut
  try dsimp only
  repeat (any_goals (first | intro _ | with_reducible assumption | with_reducible refine cplWrite_frame ?_ | with_reducible apply FrameOpt.getD | exact FrameOpt.none | with_reducible apply FrameOpt.some | with_reducible apply Frame.ite | with_reducible apply Frame.iteFst | with_reducible apply FrameOpt.ite | fail_if_no_progress (with_reducible refine Frame.set ?_) | split | dsimp only | refine Frame.ofFst ?_ (by assumption) | refine Frame.ofSnd2 ?_ (by assumption) | refine FrameOpt.kept ?_ _ (by assumption) | refine FrameOut.kept ?_ _ (by assumption)))

theorem beginRequest_frame {s : State} {d : HostDesc} {r : Req} {n : Nat} {pm : List Part} {z0 : State} (hk : Frame pm z0 s) (m_bar : Part.bar ∈ pm := by assumption) (m_benches : Part.benches ∈ pm := by assumption) (m_work : Part.work ∈ pm := by assumption) (m_plan : Part.plan ∈ pm := by assumption) (m_haul : Part.haul ∈ pm := by assumption) (m_tier : Part.tier ∈ pm := by assumption) (m_out : Part.out ∈ pm := by assumption) (m_spent : Part.spent ∈ pm := by assumption) : Frame pm z0 (beginRequest s d r n) := by
  unfold beginRequest
  try dsimp only
  repeat (any_goals (first | intro _ | with_reducible assumption | with_reducible refine putReq_frame ?_ | with_reducible refine setBench_frame ?_ | with_reducible refine addSegment_frame ?_ | with_reducible refine addTokens_frame ?_ | with_reducible refine setConvState_frame ?_ | with_reducible refine takePending_frame ?_ | with_reducible refine modConv_frame ?_ | with_reducible refine endReq_frame ?_ | with_reducible apply Frame.ite | with_reducible apply Frame.iteFst | fail_if_no_progress (with_reducible refine Frame.set ?_) | split | dsimp only | refine Frame.ofFst ?_ (by assumption) | refine Frame.ofSnd2 ?_ (by assumption) | refine FrameOpt.kept ?_ _ (by assumption) | refine FrameOut.kept ?_ _ (by assumption)))

theorem takePrefix_frame {s : State} {k : Nat} {src : Conv} {g : Nat} {pm : List Part} {z0 : State} (hk : Frame pm z0 s) (m_work : Part.work ∈ pm := by assumption) (m_out : Part.out ∈ pm := by assumption) (m_spent : Part.spent ∈ pm := by assumption) : Frame pm z0 (takePrefix s k src g).1 := by
  unfold takePrefix
  try dsimp only
  repeat (any_goals (first | intro _ | with_reducible assumption | with_reducible refine send_frame ?_ | with_reducible refine addRefs_frame ?_ | with_reducible apply foldl_frame | with_reducible apply foldl_frame_fst | with_reducible apply Frame.ite | with_reducible apply Frame.iteFst | fail_if_no_progress (with_reducible refine Frame.set ?_) | split | dsimp only | refine Frame.ofFst ?_ (by assumption) | refine Frame.ofSnd2 ?_ (by assumption) | refine FrameOpt.kept ?_ _ (by assumption) | refine FrameOut.kept ?_ _ (by assumption)))

theorem applyAdmit_frame {pm : List Part} {c : Cpl} {d : HostDesc} {n : Nat} {s : State} {z0 : State} (hk : Frame pm z0 s) (m_bar : Part.bar ∈ pm := by assumption) (m_host : Part.host ∈ pm := by assumption) (m_benches : Part.benches ∈ pm := by assumption) (m_work : Part.work ∈ pm := by assumption) (m_plan : Part.plan ∈ pm := by assumption) (m_haul : Part.haul ∈ pm := by assumption) (m_tier : Part.tier ∈ pm := by assumption) (m_out : Part.out ∈ pm := by assumption) (m_spent : Part.spent ∈ pm := by assumption) (m_fresh : Part.fresh ∈ pm := by assumption) : Frame pm z0 (applyAdmit c d n s) := by
  unfold applyAdmit
  extract_lets b k no src g m
  have hno : ∀ st, Frame pm z0 (no st) := fun st => due_frame hk
  clear_value no g src m
  split
  extract_lets held auto r
  clear_value auto held r
  refine Frame.ite (hno _) (Frame.ite (hno _) (Frame.ite (hno _) (Frame.ite (hno _) ?_)))
  cases benchRefusal s b with
  | some st => exact hno _
  | none =>
    refine Frame.ite (hno _) (Frame.ite (hno _) ?_)
    cases src with
    | none => exact Frame.ite (hno _) (due_frame (beginRequest_frame (State_bump_frame (putConv_frame hk))))
    | some x =>
      exact Frame.ite (hno _) (due_frame (beginRequest_frame (State_bump_frame (addTokens_frame (putConv_frame (takePrefix_frame hk))))))

theorem rebuildIfOther_frame {s : State} {k : Nat} {b : Nat} {n : Nat} {pm : List Part} {z0 : State} (hk : Frame pm z0 s) (m_bar : Part.bar ∈ pm := by assumption) (m_benches : Part.benches ∈ pm := by assumption) (m_work : Part.work ∈ pm := by assumption) (m_tier : Part.tier ∈ pm := by assumption) (m_fault : Part.fault ∈ pm := by assumption) (m_out : Part.out ∈ pm := by assumption) (m_spent : Part.spent ∈ pm := by assumption) : Frame pm z0 (rebuildIfOther s k b n) := by
  unfold rebuildIfOther
  try dsimp only
  repeat (any_goals (first | intro _ | with_reducible assumption | with_reducible refine recover_frame ?_ | with_reducible refine modConv_frame ?_ | with_reducible refine dropGroups_frame ?_ | with_reducible apply Frame.ite | with_reducible apply Frame.iteFst | fail_if_no_progress (with_reducible refine Frame.set ?_) | split | dsimp only | refine Frame.ofFst ?_ (by assumption) | refine Frame.ofSnd2 ?_ (by assumption) | refine FrameOpt.kept ?_ _ (by assumption) | refine FrameOut.kept ?_ _ (by assumption)))

theorem applyAppend_frame {c : Cpl} {d : HostDesc} {n : Nat} {s : State} {pm : List Part} {z0 : State} (hk : Frame pm z0 s) (m_bar : Part.bar ∈ pm := by assumption) (m_host : Part.host ∈ pm := by assumption) (m_benches : Part.benches ∈ pm := by assumption) (m_work : Part.work ∈ pm := by assumption) (m_plan : Part.plan ∈ pm := by assumption) (m_haul : Part.haul ∈ pm := by assumption) (m_tier : Part.tier ∈ pm := by assumption) (m_fault : Part.fault ∈ pm := by assumption) (m_out : Part.out ∈ pm := by assumption) (m_spent : Part.spent ∈ pm := by assumption) (m_fresh : Part.fresh ∈ pm := by assumption) : Frame pm z0 (applyAppend c d n s) := by
  unfold applyAppend
  try dsimp only
  repeat (any_goals (first | intro _ | with_reducible assumption | with_reducible refine due_frame ?_ | with_reducible refine startPull_frame ?_ | with_reducible refine forward_frame ?_ | with_reducible refine modConv_frame ?_ | with_reducible refine putReq_frame ?_ | with_reducible refine rebuildIfOther_frame ?_ | with_reducible refine beginRequest_frame ?_ | with_reducible refine State_bump_frame ?_ | with_reducible apply Frame.ite | with_reducible apply Frame.iteFst | fail_if_no_progress (with_reducible refine Frame.set ?_) | split | dsimp only | refine Frame.ofFst ?_ (by assumption) | refine Frame.ofSnd2 ?_ (by assumption) | refine FrameOpt.kept ?_ _ (by assumption) | refine FrameOut.kept ?_ _ (by assumption)))

theorem applyCancel_frame {c : Cpl} {d : HostDesc} {n : Nat} {s : State} {pm : List Part} {z0 : State} (hk : Frame pm z0 s) (m_bar : Part.bar ∈ pm := by assumption) (m_host : Part.host ∈ pm := by assumption) (m_benches : Part.benches ∈ pm := by assumption) (m_work : Part.work ∈ pm := by assumption) (m_plan : Part.plan ∈ pm := by assumption) (m_haul : Part.haul ∈ pm := by assumption) (m_tier : Part.tier ∈ pm := by assumption) (m_out : Part.out ∈ pm := by assumption) (m_spent : Part.spent ∈ pm := by assumption) : Frame pm z0 (applyCancel c d n s) := by
  unfold applyCancel
  try dsimp only
  repeat (any_goals (first | intro _ | with_reducible assumption | with_reducible refine due_frame ?_ | with_reducible refine endReq_frame ?_ | with_reducible refine forward_frame ?_ | with_reducible apply Frame.ite | with_reducible apply Frame.iteFst | fail_if_no_progress (with_reducible refine Frame.set ?_) | split | dsimp only | refine Frame.ofFst ?_ (by assumption) | refine Frame.ofSnd2 ?_ (by assumption) | refine FrameOpt.kept ?_ _ (by assumption) | refine FrameOut.kept ?_ _ (by assumption)))

theorem applyRelease_frame {c : Cpl} {d : HostDesc} {n : Nat} {s : State} {pm : List Part} {z0 : State} (hk : Frame pm z0 s) (m_bar : Part.bar ∈ pm := by assumption) (m_host : Part.host ∈ pm := by assumption) (m_benches : Part.benches ∈ pm := by assumption) (m_work : Part.work ∈ pm := by assumption) (m_plan : Part.plan ∈ pm := by assumption) (m_haul : Part.haul ∈ pm := by assumption) (m_tier : Part.tier ∈ pm := by assumption) (m_out : Part.out ∈ pm := by assumption) (m_spent : Part.spent ∈ pm := by assumption) : Frame pm z0 (applyRelease c d n s) := by
  unfold applyRelease
  try dsimp only
  repeat (any_goals (first | intro _ | with_reducible assumption | with_reducible refine due_frame ?_ | with_reducible refine forward_frame ?_ | with_reducible refine readOut_frame ?_ | with_reducible refine endReq_frame ?_ | with_reducible refine releaseConv_frame ?_ | with_reducible apply FrameOpt.getD | exact FrameOpt.none | with_reducible apply FrameOpt.some | with_reducible apply Frame.ite | with_reducible apply Frame.iteFst | with_reducible apply FrameOpt.ite | fail_if_no_progress (with_reducible refine Frame.set ?_) | split | dsimp only | refine Frame.ofFst ?_ (by assumption) | refine Frame.ofSnd2 ?_ (by assumption) | refine FrameOpt.kept ?_ _ (by assumption) | refine FrameOut.kept ?_ _ (by assumption)))

theorem applyPark_frame {c : Cpl} {d : HostDesc} {n : Nat} {s : State} {pm : List Part} {z0 : State} (hk : Frame pm z0 s) (m_host : Part.host ∈ pm := by assumption) (m_work : Part.work ∈ pm := by assumption) (m_haul : Part.haul ∈ pm := by assumption) (m_tier : Part.tier ∈ pm := by assumption) (m_out : Part.out ∈ pm := by assumption) (m_spent : Part.spent ∈ pm := by assumption) : Frame pm z0 (applyPark c d n s) := by
  unfold applyPark
  try dsimp only
  repeat (any_goals (first | intro _ | with_reducible assumption | with_reducible refine due_frame ?_ | with_reducible refine forward_frame ?_ | with_reducible refine readOut_frame ?_ | with_reducible refine startHaul_frame ?_ | with_reducible refine parkInPlace_frame ?_ | with_reducible apply FrameOpt.getD | exact FrameOpt.none | with_reducible apply FrameOpt.some | with_reducible apply Frame.ite | with_reducible apply Frame.iteFst | with_reducible apply FrameOpt.ite | fail_if_no_progress (with_reducible refine Frame.set ?_) | split | dsimp only | refine Frame.ofFst ?_ (by assumption) | refine Frame.ofSnd2 ?_ (by assumption) | refine FrameOpt.kept ?_ _ (by assumption) | refine FrameOut.kept ?_ _ (by assumption)))

theorem newKeeper_frame {s : State} {d : HostDesc} {k : Nat} {pm : List Part} {z0 : State} (hk : Frame pm z0 s) (m_work : Part.work ∈ pm := by assumption) (m_out : Part.out ∈ pm := by assumption) (m_spent : Part.spent ∈ pm := by assumption) : Frame pm z0 (newKeeper s d k) := by
  unfold newKeeper
  try dsimp only
  repeat (any_goals (first | intro _ | with_reducible assumption | with_reducible refine putConv_frame ?_ | with_reducible refine send_frame ?_ | with_reducible apply foldl_frame | with_reducible apply foldl_frame_fst | with_reducible apply Frame.ite | with_reducible apply Frame.iteFst | fail_if_no_progress (with_reducible refine Frame.set ?_) | split | dsimp only | refine Frame.ofFst ?_ (by assumption) | refine Frame.ofSnd2 ?_ (by assumption) | refine FrameOpt.kept ?_ _ (by assumption) | refine FrameOut.kept ?_ _ (by assumption)))

theorem applyHandoff_frame {c : Cpl} {d : HostDesc} {n : Nat} {s : State} {pm : List Part} {z0 : State} (hk : Frame pm z0 s) (m_host : Part.host ∈ pm := by assumption) (m_work : Part.work ∈ pm := by assumption) (m_haul : Part.haul ∈ pm := by assumption) (m_tier : Part.tier ∈ pm := by assumption) (m_out : Part.out ∈ pm := by assumption) (m_spent : Part.spent ∈ pm := by assumption) : Frame pm z0 (applyHandoff c d n s) := by
  unfold applyHandoff
  try dsimp only
  repeat (any_goals (first | intro _ | with_reducible assumption | with_reducible refine due_frame ?_ | with_reducible refine forward_frame ?_ | with_reducible refine newKeeper_frame ?_ | with_reducible refine startHaul_frame ?_ | with_reducible apply Frame.ite | with_reducible apply Frame.iteFst | fail_if_no_progress (with_reducible refine Frame.set ?_) | split | dsimp only | refine Frame.ofFst ?_ (by assumption) | refine Frame.ofSnd2 ?_ (by assumption) | refine FrameOpt.kept ?_ _ (by assumption) | refine FrameOut.kept ?_ _ (by assumption)))

theorem resumeHere_frame {c : Cpl} {d : HostDesc} {n : Nat} {cv : Conv} {s : State} {pm : List Part} {z0 : State} (hk : Frame pm z0 s) (m_bar : Part.bar ∈ pm := by assumption) (m_host : Part.host ∈ pm := by assumption) (m_benches : Part.benches ∈ pm := by assumption) (m_work : Part.work ∈ pm := by assumption) (m_tier : Part.tier ∈ pm := by assumption) (m_fault : Part.fault ∈ pm := by assumption) (m_out : Part.out ∈ pm := by assumption) (m_spent : Part.spent ∈ pm := by assumption) : Frame pm z0 (resumeHere c d n cv s) := by
  unfold resumeHere
  try dsimp only
  repeat (any_goals (first | intro _ | with_reducible assumption | with_reducible refine due_frame ?_ | with_reducible refine modConv_frame ?_ | with_reducible refine putReq_frame ?_ | with_reducible refine rebuildIfOther_frame ?_ | with_reducible refine newKeeper_frame ?_ | with_reducible refine setConvState_frame ?_ | with_reducible refine takePending_frame ?_ | with_reducible apply Frame.ite | with_reducible apply Frame.iteFst | fail_if_no_progress (with_reducible refine Frame.set ?_) | split | dsimp only | refine Frame.ofFst ?_ (by assumption) | refine Frame.ofSnd2 ?_ (by assumption) | refine FrameOpt.kept ?_ _ (by assumption) | refine FrameOut.kept ?_ _ (by assumption)))

theorem applyResume_frame {c : Cpl} {d : HostDesc} {n : Nat} {s : State} {pm : List Part} {z0 : State} (hk : Frame pm z0 s) (m_bar : Part.bar ∈ pm := by assumption) (m_host : Part.host ∈ pm := by assumption) (m_benches : Part.benches ∈ pm := by assumption) (m_work : Part.work ∈ pm := by assumption) (m_haul : Part.haul ∈ pm := by assumption) (m_tier : Part.tier ∈ pm := by assumption) (m_fault : Part.fault ∈ pm := by assumption) (m_out : Part.out ∈ pm := by assumption) (m_spent : Part.spent ∈ pm := by assumption) : Frame pm z0 (applyResume c d n s) := by
  unfold applyResume
  try dsimp only
  repeat (any_goals (first | intro _ | with_reducible assumption | with_reducible refine due_frame ?_ | with_reducible refine send_frame ?_ | with_reducible refine startPull_frame ?_ | with_reducible refine forward_frame ?_ | with_reducible refine resumeHere_frame ?_ | with_reducible apply Frame.ite | with_reducible apply Frame.iteFst | fail_if_no_progress (with_reducible refine Frame.set ?_) | split | dsimp only | refine Frame.ofFst ?_ (by assumption) | refine Frame.ofSnd2 ?_ (by assumption) | refine FrameOpt.kept ?_ _ (by assumption) | refine FrameOut.kept ?_ _ (by assumption)))

theorem applyNop_frame {c : Cpl} {d : HostDesc} {n : Nat} {s : State} {pm : List Part} {z0 : State} (hk : Frame pm z0 s) (m_host : Part.host ∈ pm := by assumption) : Frame pm z0 (applyNop c d n s) := by
  unfold applyNop
  try dsimp only
  repeat (any_goals (first | intro _ | with_reducible assumption | with_reducible refine due_frame ?_ | with_reducible apply Frame.ite | with_reducible apply Frame.iteFst | fail_if_no_progress (with_reducible refine Frame.set ?_) | split | dsimp only | refine Frame.ofFst ?_ (by assumption) | refine Frame.ofSnd2 ?_ (by assumption) | refine FrameOpt.kept ?_ _ (by assumption) | refine FrameOut.kept ?_ _ (by assumption)))

theorem applyBind_frame {c : Cpl} {d : HostDesc} {n : Nat} {s : State} {pm : List Part} {z0 : State} (hk : Frame pm z0 s) (m_host : Part.host ∈ pm := by assumption) (m_work : Part.work ∈ pm := by assumption) : Frame pm z0 (applyBind c d n s) := by
  unfold applyBind
  try dsimp only
  repeat (any_goals (first | intro _ | with_reducible assumption | with_reducible refine due_frame ?_ | with_reducible apply Frame.ite | with_reducible apply Frame.iteFst | fail_if_no_progress (with_reducible refine Frame.set ?_) | split | dsimp only | refine Frame.ofFst ?_ (by assumption) | refine Frame.ofSnd2 ?_ (by assumption) | refine FrameOpt.kept ?_ _ (by assumption) | refine FrameOut.kept ?_ _ (by assumption)))

theorem applyTally_frame {close : State → Nat → State} {c : Cpl} {d : HostDesc} {n : Nat} {s : State} {pm : List Part} {z0 : State} (hclose : ∀ (z : State) (x0 : State) (x1 : Nat), Frame pm z x0 → Frame pm z (close x0 x1)) (hk : Frame pm z0 s) (m_host : Part.host ∈ pm := by assumption) (m_work : Part.work ∈ pm := by assumption) : Frame pm z0 (applyTally close c d n s) := by
  unfold applyTally
  try dsimp only
  repeat (any_goals (first | intro _ | with_reducible assumption | with_reducible refine due_frame ?_ | with_reducible apply hclose | with_reducible apply Frame.ite | with_reducible apply Frame.iteFst | fail_if_no_progress (with_reducible refine Frame.set ?_) | split | dsimp only | refine Frame.ofFst ?_ (by assumption) | refine Frame.ofSnd2 ?_ (by assumption) | refine FrameOpt.kept ?_ _ (by assumption) | refine FrameOut.kept ?_ _ (by assumption)))

theorem pullAtLanding_frame {s : State} {c : Cpl} {d : HostDesc} {pm : List Part} {z0 : State} (hk : Frame pm z0 s) (m_haul : Part.haul ∈ pm := by assumption) (m_out : Part.out ∈ pm := by assumption) (m_spent : Part.spent ∈ pm := by assumption) : Frame pm z0 (pullAtLanding s c d) := by
  unfold pullAtLanding
  try dsimp only
  repeat (any_goals (first | intro _ | with_reducible assumption | with_reducible refine startPull_frame ?_ | with_reducible apply Frame.ite | with_reducible apply Frame.iteFst | fail_if_no_progress (with_reducible refine Frame.set ?_) | split | dsimp only | refine Frame.ofFst ?_ (by assumption) | refine Frame.ofSnd2 ?_ (by assumption) | refine FrameOpt.kept ?_ _ (by assumption) | refine FrameOut.kept ?_ _ (by assumption)))

theorem landDesc_frame {d : HostDesc} {s : State} {pm : List Part} {z0 : State} (hk : Frame pm z0 s) (m_host : Part.host ∈ pm := by assumption) (m_haul : Part.haul ∈ pm := by assumption) (m_out : Part.out ∈ pm := by assumption) (m_spent : Part.spent ∈ pm := by assumption) : Frame pm z0 (landDesc d s) := by
  unfold landDesc
  try dsimp only
  repeat (any_goals (first | intro _ | with_reducible assumption | with_reducible refine pullAtLanding_frame ?_ | with_reducible apply Frame.ite | with_reducible apply Frame.iteFst | fail_if_no_progress (with_reducible refine Frame.set ?_) | split | dsimp only | refine Frame.ofFst ?_ (by assumption) | refine Frame.ofSnd2 ?_ (by assumption) | refine FrameOpt.kept ?_ _ (by assumption) | refine FrameOut.kept ?_ _ (by assumption)))

theorem hostRow_frame {o : Nat} {f : Cpl → HostDesc → Nat → State → State} {d : HostDesc} {s : State} {pm : List Part} {z0 : State} (hf : ∀ (z : State) (x0 : Cpl) (x1 : HostDesc) (x2 : Nat) (x3 : State), Frame pm z x3 → Frame pm z (f x0 x1 x2 x3)) (hk : Frame pm z0 s) (m_time : Part.time ∈ pm := by assumption) (m_host : Part.host ∈ pm := by assumption) (m_work : Part.work ∈ pm := by assumption) (m_haul : Part.haul ∈ pm := by assumption) (m_tier : Part.tier ∈ pm := by assumption) (m_fault : Part.fault ∈ pm := by assumption) (m_out : Part.out ∈ pm := by assumption) (m_spent : Part.spent ∈ pm := by assumption) (m_fresh : Part.fresh ∈ pm := by assumption) : FrameOut pm z0 (hostRow o f d s) := by
  unfold hostRow
  try dsimp only
  repeat (any_goals (first | intro _ | with_reducible assumption | with_reducible refine run_frame ?_ ?_ | with_reducible refine takeLanded_frame ?_ | with_reducible refine settle_frame ?_ ?_ | with_reducible refine applyDesc_frame ?_ ?_ | with_reducible refine landDesc_frame ?_ | with_reducible apply hf | with_reducible apply FrameOut.next | exact FrameOut.fault | with_reducible apply Frame.ite | with_reducible apply Frame.iteFst | with_reducible apply FrameOut.ite | fail_if_no_progress (with_reducible refine Frame.set ?_) | split | dsimp only | refine Frame.ofFst ?_ (by assumption) | refine Frame.ofSnd2 ?_ (by assumption) | refine FrameOpt.kept ?_ _ (by assumption) | refine FrameOut.kept ?_ _ (by assumption)))

theorem execReqAdmit_frame {d : HostDesc} {s : State} {pm : List Part} {z0 : State} (hk : Frame pm z0 s) (m_time : Part.time ∈ pm := by assumption) (m_bar : Part.bar ∈ pm := by assumption) (m_host : Part.host ∈ pm := by assumption) (m_benches : Part.benches ∈ pm := by assumption) (m_work : Part.work ∈ pm := by assumption) (m_plan : Part.plan ∈ pm := by assumption) (m_haul : Part.haul ∈ pm := by assumption) (m_tier : Part.tier ∈ pm := by assumption) (m_fault : Part.fault ∈ pm := by assumption) (m_out : Part.out ∈ pm := by assumption) (m_spent : Part.spent ∈ pm := by assumption) (m_fresh : Part.fresh ∈ pm := by assumption) : FrameOut pm z0 (execReqAdmit d s) := by
  unfold execReqAdmit
  try dsimp only
  repeat (any_goals (first | intro _ | with_reducible assumption | with_reducible refine hostRow_frame ?_ ?_ | with_reducible refine applyAdmit_frame ?_ | with_reducible apply FrameOut.next | exact FrameOut.fault | with_reducible apply Frame.ite | with_reducible apply Frame.iteFst | with_reducible apply FrameOut.ite | fail_if_no_progress (with_reducible refine Frame.set ?_) | split | dsimp only | refine Frame.ofFst ?_ (by assumption) | refine Frame.ofSnd2 ?_ (by assumption) | refine FrameOpt.kept ?_ _ (by assumption) | refine FrameOut.kept ?_ _ (by assumption)))

theorem execReqAppend_frame {d : HostDesc} {s : State} {pm : List Part} {z0 : State} (hk : Frame pm z0 s) (m_time : Part.time ∈ pm := by assumption) (m_bar : Part.bar ∈ pm := by assumption) (m_host : Part.host ∈ pm := by assumption) (m_benches : Part.benches ∈ pm := by assumption) (m_work : Part.work ∈ pm := by assumption) (m_plan : Part.plan ∈ pm := by assumption) (m_haul : Part.haul ∈ pm := by assumption) (m_tier : Part.tier ∈ pm := by assumption) (m_fault : Part.fault ∈ pm := by assumption) (m_out : Part.out ∈ pm := by assumption) (m_spent : Part.spent ∈ pm := by assumption) (m_fresh : Part.fresh ∈ pm := by assumption) : FrameOut pm z0 (execReqAppend d s) := by
  unfold execReqAppend
  try dsimp only
  repeat (any_goals (first | intro _ | with_reducible assumption | with_reducible refine hostRow_frame ?_ ?_ | with_reducible refine applyAppend_frame ?_ | with_reducible apply FrameOut.next | exact FrameOut.fault | with_reducible apply Frame.ite | with_reducible apply Frame.iteFst | with_reducible apply FrameOut.ite | fail_if_no_progress (with_reducible refine Frame.set ?_) | split | dsimp only | refine Frame.ofFst ?_ (by assumption) | refine Frame.ofSnd2 ?_ (by assumption) | refine FrameOpt.kept ?_ _ (by assumption) | refine FrameOut.kept ?_ _ (by assumption)))

theorem execReqCancel_frame {d : HostDesc} {s : State} {pm : List Part} {z0 : State} (hk : Frame pm z0 s) (m_time : Part.time ∈ pm := by assumption) (m_bar : Part.bar ∈ pm := by assumption) (m_host : Part.host ∈ pm := by assumption) (m_benches : Part.benches ∈ pm := by assumption) (m_work : Part.work ∈ pm := by assumption) (m_plan : Part.plan ∈ pm := by assumption) (m_haul : Part.haul ∈ pm := by assumption) (m_tier : Part.tier ∈ pm := by assumption) (m_fault : Part.fault ∈ pm := by assumption) (m_out : Part.out ∈ pm := by assumption) (m_spent : Part.spent ∈ pm := by assumption) (m_fresh : Part.fresh ∈ pm := by assumption) : FrameOut pm z0 (execReqCancel d s) := by
  unfold execReqCancel
  try dsimp only
  repeat (any_goals (first | intro _ | with_reducible assumption | with_reducible refine hostRow_frame ?_ ?_ | with_reducible refine applyCancel_frame ?_ | with_reducible apply FrameOut.next | exact FrameOut.fault | with_reducible apply Frame.ite | with_reducible apply Frame.iteFst | with_reducible apply FrameOut.ite | fail_if_no_progress (with_reducible refine Frame.set ?_) | split | dsimp only | refine Frame.ofFst ?_ (by assumption) | refine Frame.ofSnd2 ?_ (by assumption) | refine FrameOpt.kept ?_ _ (by assumption) | refine FrameOut.kept ?_ _ (by assumption)))

theorem execReqPark_frame {d : HostDesc} {s : State} {pm : List Part} {z0 : State} (hk : Frame pm z0 s) (m_time : Part.time ∈ pm := by assumption) (m_host : Part.host ∈ pm := by assumption) (m_work : Part.work ∈ pm := by assumption) (m_haul : Part.haul ∈ pm := by assumption) (m_tier : Part.tier ∈ pm := by assumption) (m_fault : Part.fault ∈ pm := by assumption) (m_out : Part.out ∈ pm := by assumption) (m_spent : Part.spent ∈ pm := by assumption) (m_fresh : Part.fresh ∈ pm := by assumption) : FrameOut pm z0 (execReqPark d s) := by
  unfold execReqPark
  try dsimp only
  repeat (any_goals (first | intro _ | with_reducible assumption | with_reducible refine hostRow_frame ?_ ?_ | with_reducible refine applyPark_frame ?_ | with_reducible apply FrameOut.next | exact FrameOut.fault | with_reducible apply Frame.ite | with_reducible apply Frame.iteFst | with_reducible apply FrameOut.ite | fail_if_no_progress (with_reducible refine Frame.set ?_) | split | dsimp only | refine Frame.ofFst ?_ (by assumption) | refine Frame.ofSnd2 ?_ (by assumption) | refine FrameOpt.kept ?_ _ (by assumption) | refine FrameOut.kept ?_ _ (by assumption)))

theorem execReqParkHaul_frame {d : HostDesc} {s : State} {pm : List Part} {z0 : State} (hk : Frame pm z0 s) (m_time : Part.time ∈ pm := by assumption) (m_host : Part.host ∈ pm := by assumption) (m_work : Part.work ∈ pm := by assumption) (m_haul : Part.haul ∈ pm := by assumption) (m_tier : Part.tier ∈ pm := by assumption) (m_fault : Part.fault ∈ pm := by assumption) (m_out : Part.out ∈ pm := by assumption) (m_spent : Part.spent ∈ pm := by assumption) (m_fresh : Part.fresh ∈ pm := by assumption) : FrameOut pm z0 (execReqParkHaul d s) := by
  unfold execReqParkHaul
  try dsimp only
  repeat (any_goals (first | intro _ | with_reducible assumption | with_reducible refine hostRow_frame ?_ ?_ | with_reducible refine applyPark_frame ?_ | with_reducible apply FrameOut.next | exact FrameOut.fault | with_reducible apply Frame.ite | with_reducible apply Frame.iteFst | with_reducible apply FrameOut.ite | fail_if_no_progress (with_reducible refine Frame.set ?_) | split | dsimp only | refine Frame.ofFst ?_ (by assumption) | refine Frame.ofSnd2 ?_ (by assumption) | refine FrameOpt.kept ?_ _ (by assumption) | refine FrameOut.kept ?_ _ (by assumption)))

theorem execReqResume_frame {d : HostDesc} {s : State} {pm : List Part} {z0 : State} (hk : Frame pm z0 s) (m_time : Part.time ∈ pm := by assumption) (m_bar : Part.bar ∈ pm := by assumption) (m_host : Part.host ∈ pm := by assumption) (m_benches : Part.benches ∈ pm := by assumption) (m_work : Part.work ∈ pm := by assumption) (m_haul : Part.haul ∈ pm := by assumption) (m_tier : Part.tier ∈ pm := by assumption) (m_fault : Part.fault ∈ pm := by assumption) (m_out : Part.out ∈ pm := by assumption) (m_spent : Part.spent ∈ pm := by assumption) (m_fresh : Part.fresh ∈ pm := by assumption) : FrameOut pm z0 (execReqResume d s) := by
  unfold execReqResume
  try dsimp only
  repeat (any_goals (first | intro _ | with_reducible assumption | with_reducible refine hostRow_frame ?_ ?_ | with_reducible refine applyResume_frame ?_ | with_reducible apply FrameOut.next | exact FrameOut.fault | with_reducible apply Frame.ite | with_reducible apply Frame.iteFst | with_reducible apply FrameOut.ite | fail_if_no_progress (with_reducible refine Frame.set ?_) | split | dsimp only | refine Frame.ofFst ?_ (by assumption) | refine Frame.ofSnd2 ?_ (by assumption) | refine FrameOpt.kept ?_ _ (by assumption) | refine FrameOut.kept ?_ _ (by assumption)))

theorem execReqResumeRebuild_frame {d : HostDesc} {s : State} {pm : List Part} {z0 : State} (hk : Frame pm z0 s) (m_time : Part.time ∈ pm := by assumption) (m_bar : Part.bar ∈ pm := by assumption) (m_host : Part.host ∈ pm := by assumption) (m_benches : Part.benches ∈ pm := by assumption) (m_work : Part.work ∈ pm := by assumption) (m_haul : Part.haul ∈ pm := by assumption) (m_tier : Part.tier ∈ pm := by assumption) (m_fault : Part.fault ∈ pm := by assumption) (m_out : Part.out ∈ pm := by assumption) (m_spent : Part.spent ∈ pm := by assumption) (m_fresh : Part.fresh ∈ pm := by assumption) : FrameOut pm z0 (execReqResumeRebuild d s) := by
  unfold execReqResumeRebuild
  try dsimp only
  repeat (any_goals (first | intro _ | with_reducible assumption | with_reducible refine hostRow_frame ?_ ?_ | with_reducible refine applyResume_frame ?_ | with_reducible apply FrameOut.next | exact FrameOut.fault | with_reducible apply Frame.ite | with_reducible apply Frame.iteFst | with_reducible apply FrameOut.ite | fail_if_no_progress (with_reducible refine Frame.set ?_) | split | dsimp only | refine Frame.ofFst ?_ (by assumption) | refine Frame.ofSnd2 ?_ (by assumption) | refine FrameOpt.kept ?_ _ (by assumption) | refine FrameOut.kept ?_ _ (by assumption)))

theorem execReqRelease_frame {d : HostDesc} {s : State} {pm : List Part} {z0 : State} (hk : Frame pm z0 s) (m_time : Part.time ∈ pm := by assumption) (m_bar : Part.bar ∈ pm := by assumption) (m_host : Part.host ∈ pm := by assumption) (m_benches : Part.benches ∈ pm := by assumption) (m_work : Part.work ∈ pm := by assumption) (m_plan : Part.plan ∈ pm := by assumption) (m_haul : Part.haul ∈ pm := by assumption) (m_tier : Part.tier ∈ pm := by assumption) (m_fault : Part.fault ∈ pm := by assumption) (m_out : Part.out ∈ pm := by assumption) (m_spent : Part.spent ∈ pm := by assumption) (m_fresh : Part.fresh ∈ pm := by assumption) : FrameOut pm z0 (execReqRelease d s) := by
  unfold execReqRelease
  try dsimp only
  repeat (any_goals (first | intro _ | with_reducible assumption | with_reducible refine hostRow_frame ?_ ?_ | with_reducible refine applyRelease_frame ?_ | with_reducible apply FrameOut.next | exact FrameOut.fault | with_reducible apply Frame.ite | with_reducible apply Frame.iteFst | with_reducible apply FrameOut.ite | fail_if_no_progress (with_reducible refine Frame.set ?_) | split | dsimp only | refine Frame.ofFst ?_ (by assumption) | refine Frame.ofSnd2 ?_ (by assumption) | refine FrameOpt.kept ?_ _ (by assumption) | refine FrameOut.kept ?_ _ (by assumption)))

theorem execReqHandoff_frame {d : HostDesc} {s : State} {pm : List Part} {z0 : State} (hk : Frame pm z0 s) (m_time : Part.time ∈ pm := by assumption) (m_host : Part.host ∈ pm := by assumption) (m_work : Part.work ∈ pm := by assumption) (m_haul : Part.haul ∈ pm := by assumption) (m_tier : Part.tier ∈ pm := by assumption) (m_fault : Part.fault ∈ pm := by assumption) (m_out : Part.out ∈ pm := by assumption) (m_spent : Part.spent ∈ pm := by assumption) (m_fresh : Part.fresh ∈ pm := by assumption) : FrameOut pm z0 (execReqHandoff d s) := by
  unfold execReqHandoff
  try dsimp only
  repeat (any_goals (first | intro _ | with_reducible assumption | with_reducible refine hostRow_frame ?_ ?_ | with_reducible refine applyHandoff_frame ?_ | with_reducible apply FrameOut.next | exact FrameOut.fault | with_reducible apply Frame.ite | with_reducible apply Frame.iteFst | with_reducible apply FrameOut.ite | fail_if_no_progress (with_reducible refine Frame.set ?_) | split | dsimp only | refine Frame.ofFst ?_ (by assumption) | refine Frame.ofSnd2 ?_ (by assumption) | refine FrameOpt.kept ?_ _ (by assumption) | refine FrameOut.kept ?_ _ (by assumption)))

theorem execStreamBind_frame {d : HostDesc} {s : State} {pm : List Part} {z0 : State} (hk : Frame pm z0 s) (m_time : Part.time ∈ pm := by assumption) (m_host : Part.host ∈ pm := by assumption) (m_work : Part.work ∈ pm := by assumption) (m_haul : Part.haul ∈ pm := by assumption) (m_tier : Part.tier ∈ pm := by assumption) (m_fault : Part.fault ∈ pm := by assumption) (m_out : Part.out ∈ pm := by assumption) (m_spent : Part.spent ∈ pm := by assumption) (m_fresh : Part.fresh ∈ pm := by assumption) : FrameOut pm z0 (execStreamBind d s) := by
  unfold execStreamBind
  try dsimp only
  repeat (any_goals (first | intro _ | with_reducible assumption | with_reducible refine hostRow_frame ?_ ?_ | with_reducible refine applyBind_frame ?_ | with_reducible apply FrameOut.next | exact FrameOut.fault | with_reducible apply Frame.ite | with_reducible apply Frame.iteFst | with_reducible apply FrameOut.ite | fail_if_no_progress (with_reducible refine Frame.set ?_) | split | dsimp only | refine Frame.ofFst ?_ (by assumption) | refine Frame.ofSnd2 ?_ (by assumption) | refine FrameOpt.kept ?_ _ (by assumption) | refine FrameOut.kept ?_ _ (by assumption)))

theorem execStreamUnbind_frame {d : HostDesc} {s : State} {pm : List Part} {z0 : State} (hk : Frame pm z0 s) (m_time : Part.time ∈ pm := by assumption) (m_host : Part.host ∈ pm := by assumption) (m_work : Part.work ∈ pm := by assumption) (m_haul : Part.haul ∈ pm := by assumption) (m_tier : Part.tier ∈ pm := by assumption) (m_fault : Part.fault ∈ pm := by assumption) (m_out : Part.out ∈ pm := by assumption) (m_spent : Part.spent ∈ pm := by assumption) (m_fresh : Part.fresh ∈ pm := by assumption) : FrameOut pm z0 (execStreamUnbind d s) := by
  unfold execStreamUnbind
  try dsimp only
  repeat (any_goals (first | intro _ | with_reducible assumption | with_reducible refine hostRow_frame ?_ ?_ | with_reducible refine applyBind_frame ?_ | with_reducible apply FrameOut.next | exact FrameOut.fault | with_reducible apply Frame.ite | with_reducible apply Frame.iteFst | with_reducible apply FrameOut.ite | fail_if_no_progress (with_reducible refine Frame.set ?_) | split | dsimp only | refine Frame.ofFst ?_ (by assumption) | refine Frame.ofSnd2 ?_ (by assumption) | refine FrameOpt.kept ?_ _ (by assumption) | refine FrameOut.kept ?_ _ (by assumption)))

theorem execNop_frame {d : HostDesc} {s : State} {pm : List Part} {z0 : State} (hk : Frame pm z0 s) (m_time : Part.time ∈ pm := by assumption) (m_host : Part.host ∈ pm := by assumption) (m_work : Part.work ∈ pm := by assumption) (m_haul : Part.haul ∈ pm := by assumption) (m_tier : Part.tier ∈ pm := by assumption) (m_fault : Part.fault ∈ pm := by assumption) (m_out : Part.out ∈ pm := by assumption) (m_spent : Part.spent ∈ pm := by assumption) (m_fresh : Part.fresh ∈ pm := by assumption) : FrameOut pm z0 (execNop d s) := by
  unfold execNop
  try dsimp only
  repeat (any_goals (first | intro _ | with_reducible assumption | with_reducible refine hostRow_frame ?_ ?_ | with_reducible refine applyNop_frame ?_ | with_reducible apply FrameOut.next | exact FrameOut.fault | with_reducible apply Frame.ite | with_reducible apply Frame.iteFst | with_reducible apply FrameOut.ite | fail_if_no_progress (with_reducible refine Frame.set ?_) | split | dsimp only | refine Frame.ofFst ?_ (by assumption) | refine Frame.ofSnd2 ?_ (by assumption) | refine FrameOpt.kept ?_ _ (by assumption) | refine FrameOut.kept ?_ _ (by assumption)))

theorem haltBench_frame {s : State} {b : Nat} {pm : List Part} {z0 : State} (hk : Frame pm z0 s) (m_benches : Part.benches ∈ pm := by assumption) (m_plan : Part.plan ∈ pm := by assumption) : Frame pm z0 (haltBench s b) := by
  unfold haltBench
  try dsimp only
  repeat (any_goals (first | intro _ | with_reducible assumption | with_reducible refine setBench_frame ?_ | with_reducible apply Frame.ite | with_reducible apply Frame.iteFst | fail_if_no_progress (with_reducible refine Frame.set ?_) | split | dsimp only | refine Frame.ofFst ?_ (by assumption) | refine Frame.ofSnd2 ?_ (by assumption) | refine FrameOpt.kept ?_ _ (by assumption) | refine FrameOut.kept ?_ _ (by assumption)))

theorem haltShort_frame {s : State} {pm : List Part} {z0 : State} (hk : Frame pm z0 s) (m_benches : Part.benches ∈ pm := by assumption) (m_plan : Part.plan ∈ pm := by assumption) : Frame pm z0 (haltShort s) := by
  unfold haltShort
  try dsimp only
  repeat (any_goals (first | intro _ | with_reducible assumption | with_reducible refine haltBench_frame ?_ | with_reducible apply foldl_frame | with_reducible apply foldl_frame_fst | with_reducible apply Frame.ite | with_reducible apply Frame.iteFst | fail_if_no_progress (with_reducible refine Frame.set ?_) | split | dsimp only | refine Frame.ofFst ?_ (by assumption) | refine Frame.ofSnd2 ?_ (by assumption) | refine FrameOpt.kept ?_ _ (by assumption) | refine FrameOut.kept ?_ _ (by assumption)))

theorem rejectPage_frame {s : State} {p : PageRef} {cause : Nat} {pm : List Part} {z0 : State} (hk : Frame pm z0 s) (m_bar : Part.bar ∈ pm := by assumption) (m_tier : Part.tier ∈ pm := by assumption) (m_fault : Part.fault ∈ pm := by assumption) (m_out : Part.out ∈ pm := by assumption) : Frame pm z0 (rejectPage s p cause) := by
  unfold rejectPage
  try dsimp only
  repeat (any_goals (first | intro _ | with_reducible assumption | with_reducible refine countReject_frame ?_ | with_reducible apply Frame.ite | with_reducible apply Frame.iteFst | fail_if_no_progress (with_reducible refine Frame.set ?_) | split | dsimp only | refine Frame.ofFst ?_ (by assumption) | refine Frame.ofSnd2 ?_ (by assumption) | refine FrameOpt.kept ?_ _ (by assumption) | refine FrameOut.kept ?_ _ (by assumption)))

theorem dropReplica_frame {s : State} {p : PageRef} {pm : List Part} {z0 : State} (hk : Frame pm z0 s) (m_work : Part.work ∈ pm := by assumption) (m_haul : Part.haul ∈ pm := by assumption) (m_out : Part.out ∈ pm := by assumption) (m_spent : Part.spent ∈ pm := by assumption) : Frame pm z0 (dropReplica s p) := by
  unfold dropReplica
  try dsimp only
  repeat (any_goals (first | intro _ | with_reducible assumption | with_reducible refine modConv_frame ?_ | with_reducible refine send_frame ?_ | with_reducible refine dropEmptyHolder_frame ?_ | with_reducible apply Frame.ite | with_reducible apply Frame.iteFst | fail_if_no_progress (with_reducible refine Frame.set ?_) | split | dsimp only | refine Frame.ofFst ?_ (by assumption) | refine Frame.ofSnd2 ?_ (by assumption) | refine FrameOpt.kept ?_ _ (by assumption) | refine FrameOut.kept ?_ _ (by assumption)))

theorem rereads_frame {s : State} {n : Nat} {pm : List Part} {z0 : State} (hk : Frame pm z0 s) (m_bar : Part.bar ∈ pm := by assumption) (m_benches : Part.benches ∈ pm := by assumption) (m_work : Part.work ∈ pm := by assumption) (m_haul : Part.haul ∈ pm := by assumption) (m_tier : Part.tier ∈ pm := by assumption) (m_fault : Part.fault ∈ pm := by assumption) (m_out : Part.out ∈ pm := by assumption) (m_spent : Part.spent ∈ pm := by assumption) : Frame pm z0 (rereads s n) := by
  unfold rereads
  try dsimp only
  repeat (any_goals (first | intro _ | with_reducible assumption | with_reducible refine modPage_frame ?_ | with_reducible refine recover_frame ?_ | with_reducible refine dropReplica_frame ?_ | with_reducible apply foldl_frame | with_reducible apply foldl_frame_fst | with_reducible apply Frame.ite | with_reducible apply Frame.iteFst | fail_if_no_progress (with_reducible refine Frame.set ?_) | split | dsimp only | refine Frame.ofFst ?_ (by assumption) | refine Frame.ofSnd2 ?_ (by assumption) | refine FrameOpt.kept ?_ _ (by assumption) | refine FrameOut.kept ?_ _ (by assumption)))

theorem execBlockReject_frame {t : Stamp} {p : PageRef} {_isValue : Bool} {cause : Nat} {s : State} {pm : List Part} {z0 : State} (hk : Frame pm z0 s) (m_time : Part.time ∈ pm := by assumption) (m_bar : Part.bar ∈ pm := by assumption) (m_tier : Part.tier ∈ pm := by assumption) (m_fault : Part.fault ∈ pm := by assumption) (m_out : Part.out ∈ pm := by assumption) : FrameOut pm z0 (execBlockReject t p _isValue cause s) := by
  unfold execBlockReject
  try dsimp only
  repeat (any_goals (first | intro _ | with_reducible assumption | with_reducible refine run_frame ?_ ?_ | with_reducible refine rejectPage_frame ?_ | with_reducible apply FrameOut.next | exact FrameOut.fault | with_reducible apply Frame.ite | with_reducible apply Frame.iteFst | with_reducible apply FrameOut.ite | fail_if_no_progress (with_reducible refine Frame.set ?_) | split | dsimp only | refine Frame.ofFst ?_ (by assumption) | refine Frame.ofSnd2 ?_ (by assumption) | refine FrameOpt.kept ?_ _ (by assumption) | refine FrameOut.kept ?_ _ (by assumption)))

theorem repairPage_frame {s : State} {p : PageRef} {key : Block} {value : Block} {pm : List Part} {z0 : State} (hk : Frame pm z0 s) (m_bar : Part.bar ∈ pm := by assumption) (m_benches : Part.benches ∈ pm := by assumption) (m_work : Part.work ∈ pm := by assumption) (m_fault : Part.fault ∈ pm := by assumption) (m_out : Part.out ∈ pm := by assumption) : Frame pm z0 (repairPage s p key value) := by
  unfold repairPage
  try dsimp only
  repeat (any_goals (first | intro _ | with_reducible assumption | with_reducible refine countReject_frame ?_ | with_reducible refine modPage_frame ?_ | with_reducible refine discardFits_frame ?_ | with_reducible apply Frame.ite | with_reducible apply Frame.iteFst | fail_if_no_progress (with_reducible refine Frame.set ?_) | split | dsimp only | refine Frame.ofFst ?_ (by assumption) | refine Frame.ofSnd2 ?_ (by assumption) | refine FrameOpt.kept ?_ _ (by assumption) | refine FrameOut.kept ?_ _ (by assumption)))

theorem deferTo_frame {s : State} {t : Stamp} {i : Notice} {pm : List Part} {z0 : State} (hk : Frame pm z0 s) (m_haul : Part.haul ∈ pm := by assumption) : Frame pm z0 (deferTo s t i) := by
  unfold deferTo
  try dsimp only
  repeat (any_goals (first | intro _ | with_reducible assumption | with_reducible apply Frame.ite | with_reducible apply Frame.iteFst | fail_if_no_progress (with_reducible refine Frame.set ?_) | split | dsimp only | refine Frame.ofFst ?_ (by assumption) | refine Frame.ofSnd2 ?_ (by assumption) | refine FrameOpt.kept ?_ _ (by assumption) | refine FrameOut.kept ?_ _ (by assumption)))

theorem execRepairMoveDone_frame {t : Stamp} {p : PageRef} {key : Block} {value : Block} {s : State} {pm : List Part} {z0 : State} (hk : Frame pm z0 s) (m_time : Part.time ∈ pm := by assumption) (m_haul : Part.haul ∈ pm := by assumption) : FrameOut pm z0 (execRepairMoveDone t p key value s) := by
  unfold execRepairMoveDone
  try dsimp only
  repeat (any_goals (first | intro _ | with_reducible assumption | with_reducible refine run_frame ?_ ?_ | with_reducible refine deferTo_frame ?_ | with_reducible apply FrameOut.next | exact FrameOut.fault | with_reducible apply Frame.ite | with_reducible apply Frame.iteFst | with_reducible apply FrameOut.ite | fail_if_no_progress (with_reducible refine Frame.set ?_) | split | dsimp only | refine Frame.ofFst ?_ (by assumption) | refine Frame.ofSnd2 ?_ (by assumption) | refine FrameOpt.kept ?_ _ (by assumption) | refine FrameOut.kept ?_ _ (by assumption)))

theorem execHaulRefuse_frame {t : Stamp} {m : HaulMsg} {s : State} {pm : List Part} {z0 : State} (hk : Frame pm z0 s) (m_time : Part.time ∈ pm := by assumption) (m_bar : Part.bar ∈ pm := by assumption) (m_work : Part.work ∈ pm := by assumption) (m_haul : Part.haul ∈ pm := by assumption) (m_tier : Part.tier ∈ pm := by assumption) (m_fault : Part.fault ∈ pm := by assumption) (m_pwr : Part.pwr ∈ pm := by assumption) (m_out : Part.out ∈ pm := by assumption) (m_spent : Part.spent ∈ pm := by assumption) : FrameOut pm z0 (execHaulRefuse t m s) := by
  unfold execHaulRefuse
  try dsimp only
  repeat (any_goals (first | intro _ | with_reducible assumption | with_reducible refine runLink_frame ?_ ?_ | with_reducible refine haulRefuse_frame ?_ ?_ | with_reducible refine rejectPage_frame ?_ | with_reducible apply FrameOut.next | exact FrameOut.fault | with_reducible apply Frame.ite | with_reducible apply Frame.iteFst | with_reducible apply FrameOut.ite | fail_if_no_progress (with_reducible refine Frame.set ?_) | split | dsimp only | refine Frame.ofFst ?_ (by assumption) | refine Frame.ofSnd2 ?_ (by assumption) | refine FrameOpt.kept ?_ _ (by assumption) | refine FrameOut.kept ?_ _ (by assumption)))

theorem fitDone_frame {t : Stamp} {p : PageRef} {isValue : Bool} {fit : Option Block} {s : State} {pm : List Part} {z0 : State} (hk : Frame pm z0 s) (m_benches : Part.benches ∈ pm := by assumption) (m_spent : Part.spent ∈ pm := by assumption) : Frame pm z0 (fitDone t p isValue fit s) := by
  unfold fitDone
  try dsimp only
  repeat (any_goals (first | intro _ | with_reducible assumption | with_reducible refine chargeShare_frame ?_ | with_reducible refine setBench_frame ?_ | with_reducible apply Frame.ite | with_reducible apply Frame.iteFst | fail_if_no_progress (with_reducible refine Frame.set ?_) | split | dsimp only | refine Frame.ofFst ?_ (by assumption) | refine Frame.ofSnd2 ?_ (by assumption) | refine FrameOpt.kept ?_ _ (by assumption) | refine FrameOut.kept ?_ _ (by assumption)))

theorem execFitDone_frame {t : Stamp} {p : PageRef} {isValue : Bool} {fit : Option Block} {s : State} {pm : List Part} {z0 : State} (hk : Frame pm z0 s) (m_time : Part.time ∈ pm := by assumption) (m_benches : Part.benches ∈ pm := by assumption) (m_spent : Part.spent ∈ pm := by assumption) : FrameOut pm z0 (execFitDone t p isValue fit s) := by
  unfold execFitDone
  try dsimp only
  repeat (any_goals (first | intro _ | with_reducible assumption | with_reducible refine run_frame ?_ ?_ | with_reducible refine fitDone_frame ?_ | with_reducible apply FrameOut.next | exact FrameOut.fault | with_reducible apply Frame.ite | with_reducible apply Frame.iteFst | with_reducible apply FrameOut.ite | fail_if_no_progress (with_reducible refine Frame.set ?_) | split | dsimp only | refine Frame.ofFst ?_ (by assumption) | refine Frame.ofSnd2 ?_ (by assumption) | refine FrameOpt.kept ?_ _ (by assumption) | refine FrameOut.kept ?_ _ (by assumption)))

theorem applyFit_frame {s : State} {b : Nat} {f : FitItem} {pm : List Part} {z0 : State} (hk : Frame pm z0 s) (m_bar : Part.bar ∈ pm := by assumption) (m_benches : Part.benches ∈ pm := by assumption) (m_work : Part.work ∈ pm := by assumption) (m_tier : Part.tier ∈ pm := by assumption) : Frame pm z0 (applyFit s b f) := by
  unfold applyFit
  try dsimp only
  repeat (any_goals (first | intro _ | with_reducible assumption | with_reducible refine setBench_frame ?_ | with_reducible refine count_frame ?_ | with_reducible refine modPage_frame ?_ | with_reducible apply Frame.ite | with_reducible apply Frame.iteFst | fail_if_no_progress (with_reducible refine Frame.set ?_) | split | dsimp only | refine Frame.ofFst ?_ (by assumption) | refine Frame.ofSnd2 ?_ (by assumption) | refine FrameOpt.kept ?_ _ (by assumption) | refine FrameOut.kept ?_ _ (by assumption)))

theorem applyFits_frame {s : State} {pm : List Part} {z0 : State} (hk : Frame pm z0 s) (m_bar : Part.bar ∈ pm := by assumption) (m_benches : Part.benches ∈ pm := by assumption) (m_work : Part.work ∈ pm := by assumption) (m_tier : Part.tier ∈ pm := by assumption) : Frame pm z0 (applyFits s) := by
  unfold applyFits
  try dsimp only
  repeat (any_goals (first | intro _ | with_reducible assumption | with_reducible refine applyFit_frame ?_ | with_reducible apply foldl_frame | with_reducible apply foldl_frame_fst | with_reducible apply Frame.ite | with_reducible apply Frame.iteFst | fail_if_no_progress (with_reducible refine Frame.set ?_) | split | dsimp only | refine Frame.ofFst ?_ (by assumption) | refine Frame.ofSnd2 ?_ (by assumption) | refine FrameOpt.kept ?_ _ (by assumption) | refine FrameOut.kept ?_ _ (by assumption)))

end

end Sys2Proof.Machine
end

