-- ==== Sys2Proof/Laws/Frames2.lean ====
section
/-! SUPPORT. What a command may change, function by function, carried on.
`Frame ps r s` says that `s` differs from `r` at most in the parts `ps`, and keeps the queue, the stock code and the
canonical form of export memory. Each lemma carries a frame through one function of the model. -/

namespace Sys2Proof.Machine

section

set_option Elab.async false
set_option linter.all false

theorem dropBench_frame {s : State} {b : Nat} {pm : List Part} {z0 : State} (hk : Frame pm z0 s) (m_plan : Part.plan ∈ pm := by assumption) : Frame pm z0 (dropBench s b) := by
  unfold dropBench
  try dsimp only
  repeat (any_goals (first | intro _ | with_reducible assumption | with_reducible apply Frame.ite | with_reducible apply Frame.iteFst | fail_if_no_progress (with_reducible refine Frame.set ?_) | split | dsimp only | refine Frame.ofFst ?_ (by assumption) | refine Frame.ofSnd2 ?_ (by assumption) | refine FrameOpt.kept ?_ _ (by assumption) | refine FrameOut.kept ?_ _ (by assumption)))

theorem retireTileFrame_frame {s : State} {b : Nat} {tile : Nat} {pm : List Part} {z0 : State} (hk : Frame pm z0 s) (m_tier : Part.tier ∈ pm := by assumption) (m_fault : Part.fault ∈ pm := by assumption) (m_out : Part.out ∈ pm := by assumption) (m_fresh : Part.fresh ∈ pm := by assumption) : Frame pm z0 (retireTileFrame s b tile) := by
  unfold retireTileFrame
  try dsimp only
  repeat (any_goals (first | intro _ | with_reducible assumption | with_reducible refine logErr_frame ?_ | with_reducible refine State_bump_frame ?_ | with_reducible apply Frame.ite | with_reducible apply Frame.iteFst | fail_if_no_progress (with_reducible refine Frame.set ?_) | split | dsimp only | refine Frame.ofFst ?_ (by assumption) | refine Frame.ofSnd2 ?_ (by assumption) | refine FrameOpt.kept ?_ _ (by assumption) | refine FrameOut.kept ?_ _ (by assumption)))

theorem weightReject_frame {b : Nat} {tile : Nat} {cause : Nat} {s : State} {pm : List Part} {z0 : State} (hk : Frame pm z0 s) (m_bar : Part.bar ∈ pm := by assumption) (m_benches : Part.benches ∈ pm := by assumption) (m_plan : Part.plan ∈ pm := by assumption) (m_tier : Part.tier ∈ pm := by assumption) (m_fault : Part.fault ∈ pm := by assumption) (m_out : Part.out ∈ pm := by assumption) (m_fresh : Part.fresh ∈ pm := by assumption) : Frame pm z0 (weightReject b tile cause s) := by
  unfold weightReject
  try dsimp only
  repeat (any_goals (first | intro _ | with_reducible assumption | with_reducible refine logErr_frame ?_ | with_reducible refine count_frame ?_ | with_reducible refine retireTileFrame_frame ?_ | with_reducible refine dropBench_frame ?_ | with_reducible refine setBench_frame ?_ | with_reducible apply Frame.ite | with_reducible apply Frame.iteFst | fail_if_no_progress (with_reducible refine Frame.set ?_) | split | dsimp only | refine Frame.ofFst ?_ (by assumption) | refine Frame.ofSnd2 ?_ (by assumption) | refine FrameOpt.kept ?_ _ (by assumption) | refine FrameOut.kept ?_ _ (by assumption)))

theorem execWeightBlockReject_frame {t : Stamp} {bench : Nat} {tile : Nat} {cause : Nat} {s : State} {pm : List Part} {z0 : State} (hk : Frame pm z0 s) (m_time : Part.time ∈ pm := by assumption) (m_bar : Part.bar ∈ pm := by assumption) (m_benches : Part.benches ∈ pm := by assumption) (m_plan : Part.plan ∈ pm := by assumption) (m_tier : Part.tier ∈ pm := by assumption) (m_fault : Part.fault ∈ pm := by assumption) (m_out : Part.out ∈ pm := by assumption) (m_fresh : Part.fresh ∈ pm := by assumption) : FrameOut pm z0 (execWeightBlockReject t bench tile cause s) := by
  unfold execWeightBlockReject
  try dsimp only
  repeat (any_goals (first | intro _ | with_reducible assumption | with_reducible refine run_frame ?_ ?_ | with_reducible refine weightReject_frame ?_ | with_reducible apply FrameOut.next | exact FrameOut.fault | with_reducible apply Frame.ite | with_reducible apply Frame.iteFst | with_reducible apply FrameOut.ite | fail_if_no_progress (with_reducible refine Frame.set ?_) | split | dsimp only | refine Frame.ofFst ?_ (by assumption) | refine Frame.ofSnd2 ?_ (by assumption) | refine FrameOpt.kept ?_ _ (by assumption) | refine FrameOut.kept ?_ _ (by assumption)))

theorem weightReload_frame {b : Nat} {tile : Nat} {copy : Block} {s : State} {pm : List Part} {z0 : State} (hk : Frame pm z0 s) (m_bar : Part.bar ∈ pm := by assumption) (m_benches : Part.benches ∈ pm := by assumption) (m_plan : Part.plan ∈ pm := by assumption) (m_fault : Part.fault ∈ pm := by assumption) (m_out : Part.out ∈ pm := by assumption) : Frame pm z0 (weightReload b tile copy s) := by
  unfold weightReload
  try dsimp only
  repeat (any_goals (first | intro _ | with_reducible assumption | with_reducible refine setBench_frame ?_ | with_reducible refine logErr_frame ?_ | with_reducible refine count_frame ?_ | with_reducible refine haltBench_frame ?_ | with_reducible apply Frame.ite | with_reducible apply Frame.iteFst | fail_if_no_progress (with_reducible refine Frame.set ?_) | split | dsimp only | refine Frame.ofFst ?_ (by assumption) | refine Frame.ofSnd2 ?_ (by assumption) | refine FrameOpt.kept ?_ _ (by assumption) | refine FrameOut.kept ?_ _ (by assumption)))

theorem execWeightReloadDone_frame {t : Stamp} {bench : Nat} {tile : Nat} {copy : Block} {s : State} {pm : List Part} {z0 : State} (hk : Frame pm z0 s) (m_time : Part.time ∈ pm := by assumption) (m_bar : Part.bar ∈ pm := by assumption) (m_benches : Part.benches ∈ pm := by assumption) (m_plan : Part.plan ∈ pm := by assumption) (m_fault : Part.fault ∈ pm := by assumption) (m_out : Part.out ∈ pm := by assumption) : FrameOut pm z0 (execWeightReloadDone t bench tile copy s) := by
  unfold execWeightReloadDone
  try dsimp only
  repeat (any_goals (first | intro _ | with_reducible assumption | with_reducible refine run_frame ?_ ?_ | with_reducible refine weightReload_frame ?_ | with_reducible apply FrameOut.next | exact FrameOut.fault | with_reducible apply Frame.ite | with_reducible apply Frame.iteFst | with_reducible apply FrameOut.ite | fail_if_no_progress (with_reducible refine Frame.set ?_) | split | dsimp only | refine Frame.ofFst ?_ (by assumption) | refine Frame.ofSnd2 ?_ (by assumption) | refine FrameOpt.kept ?_ _ (by assumption) | refine FrameOut.kept ?_ _ (by assumption)))

theorem logShadow_frame {s : State} {cause : Nat} {b : Nat} {u : UnitId} {band : Nat} {pattern : Nat} {status : Nat} {pm : List Part} {z0 : State} (hk : Frame pm z0 s) (m_fault : Part.fault ∈ pm := by assumption) (m_out : Part.out ∈ pm := by assumption) : Frame pm z0 (logShadow s cause b u band pattern status) := by
  unfold logShadow
  try dsimp only
  repeat (any_goals (first | intro _ | with_reducible assumption | with_reducible refine logEntry_frame ?_ | with_reducible apply Frame.ite | with_reducible apply Frame.iteFst | fail_if_no_progress (with_reducible refine Frame.set ?_) | split | dsimp only | refine Frame.ofFst ?_ (by assumption) | refine Frame.ofSnd2 ?_ (by assumption) | refine FrameOpt.kept ?_ _ (by assumption) | refine FrameOut.kept ?_ _ (by assumption)))

theorem lose_frame {s : State} {it : Item} {u : UnitId} {pm : List Part} {z0 : State} (hk : Frame pm z0 s) (m_fault : Part.fault ∈ pm := by assumption) (m_out : Part.out ∈ pm := by assumption) : Frame pm z0 (lose s it u) := by
  unfold lose
  try dsimp only
  repeat (any_goals (first | intro _ | with_reducible assumption | with_reducible refine logShadow_frame ?_ | with_reducible apply Frame.ite | with_reducible apply Frame.iteFst | fail_if_no_progress (with_reducible refine Frame.set ?_) | split | dsimp only | refine Frame.ofFst ?_ (by assumption) | refine Frame.ofSnd2 ?_ (by assumption) | refine FrameOpt.kept ?_ _ (by assumption) | refine FrameOut.kept ?_ _ (by assumption)))

theorem retireUnit_frame {s : State} {u : UnitId} {pm : List Part} {z0 : State} (hk : Frame pm z0 s) (m_fault : Part.fault ∈ pm := by assumption) (m_out : Part.out ∈ pm := by assumption) : Frame pm z0 (retireUnit s u) := by
  unfold retireUnit
  try dsimp only
  repeat (any_goals (first | intro _ | with_reducible assumption | with_reducible refine logShadow_frame ?_ | with_reducible apply Frame.ite | with_reducible apply Frame.iteFst | fail_if_no_progress (with_reducible refine Frame.set ?_) | split | dsimp only | refine Frame.ofFst ?_ (by assumption) | refine Frame.ofSnd2 ?_ (by assumption) | refine FrameOpt.kept ?_ _ (by assumption) | refine FrameOut.kept ?_ _ (by assumption)))

theorem quarantineLoss_frame {s : State} {x : Loss} {pm : List Part} {z0 : State} (hk : Frame pm z0 s) (m_fault : Part.fault ∈ pm := by assumption) (m_out : Part.out ∈ pm := by assumption) : Frame pm z0 (quarantineLoss s x) := by
  unfold quarantineLoss
  try dsimp only
  repeat (any_goals (first | intro _ | with_reducible assumption | with_reducible refine retireUnit_frame ?_ | with_reducible refine logShadow_frame ?_ | with_reducible apply Frame.ite | with_reducible apply Frame.iteFst | fail_if_no_progress (with_reducible refine Frame.set ?_) | split | dsimp only | refine Frame.ofFst ?_ (by assumption) | refine Frame.ofSnd2 ?_ (by assumption) | refine FrameOpt.kept ?_ _ (by assumption) | refine FrameOut.kept ?_ _ (by assumption)))

theorem quarantineStep_frame {s : State} {n : Nat} {pm : List Part} {z0 : State} (hk : Frame pm z0 s) (m_benches : Part.benches ∈ pm := by assumption) (m_plan : Part.plan ∈ pm := by assumption) (m_fault : Part.fault ∈ pm := by assumption) (m_out : Part.out ∈ pm := by assumption) : Frame pm z0 (quarantineStep s n) := by
  unfold quarantineStep
  try dsimp only
  repeat (any_goals (first | intro _ | with_reducible assumption | with_reducible refine haltShort_frame ?_ | with_reducible refine quarantineLoss_frame ?_ | with_reducible apply foldl_frame | with_reducible apply foldl_frame_fst | with_reducible apply Frame.ite | with_reducible apply Frame.iteFst | fail_if_no_progress (with_reducible refine Frame.set ?_) | split | dsimp only | refine Frame.ofFst ?_ (by assumption) | refine Frame.ofSnd2 ?_ (by assumption) | refine FrameOpt.kept ?_ _ (by assumption) | refine FrameOut.kept ?_ _ (by assumption)))

theorem settleOut_frame {s : State} {it : Item} {retract : Bool} {pm : List Part} {z0 : State} (hk : Frame pm z0 s) (m_out : Part.out ∈ pm := by assumption) (m_spent : Part.spent ∈ pm := by assumption) : Frame pm z0 (settleOut s it retract) := by
  unfold settleOut
  try dsimp only
  repeat (any_goals (first | intro _ | with_reducible assumption | with_reducible refine send_frame ?_ | with_reducible apply Frame.ite | with_reducible apply Frame.iteFst | fail_if_no_progress (with_reducible refine Frame.set ?_) | split | dsimp only | refine Frame.ofFst ?_ (by assumption) | refine Frame.ofSnd2 ?_ (by assumption) | refine FrameOpt.kept ?_ _ (by assumption) | refine FrameOut.kept ?_ _ (by assumption)))

theorem dropFed_frame {s : State} {it : Item} {pm : List Part} {z0 : State} (hk : Frame pm z0 s) (m_plan : Part.plan ∈ pm := by assumption) : Frame pm z0 (dropFed s it) := by
  unfold dropFed
  try dsimp only
  repeat (any_goals (first | intro _ | with_reducible assumption | with_reducible apply Frame.ite | with_reducible apply Frame.iteFst | fail_if_no_progress (with_reducible refine Frame.set ?_) | split | dsimp only | refine Frame.ofFst ?_ (by assumption) | refine Frame.ofSnd2 ?_ (by assumption) | refine FrameOpt.kept ?_ _ (by assumption) | refine FrameOut.kept ?_ _ (by assumption)))

theorem dropItem_frame {s : State} {i : Nat} {pm : List Part} {z0 : State} (hk : Frame pm z0 s) (m_plan : Part.plan ∈ pm := by assumption) : Frame pm z0 (dropItem s i) := by
  unfold dropItem
  try dsimp only
  repeat (any_goals (first | intro _ | with_reducible assumption | with_reducible apply Frame.ite | with_reducible apply Frame.iteFst | fail_if_no_progress (with_reducible refine Frame.set ?_) | split | dsimp only | refine Frame.ofFst ?_ (by assumption) | refine Frame.ofSnd2 ?_ (by assumption) | refine FrameOpt.kept ?_ _ (by assumption) | refine FrameOut.kept ?_ _ (by assumption)))

theorem recheckDone_frame {i : Nat} {original : ItemResult} {found : ItemResult} {s : State} {pm : List Part} {z0 : State} (hk : Frame pm z0 s) (m_bar : Part.bar ∈ pm := by assumption) (m_plan : Part.plan ∈ pm := by assumption) (m_fault : Part.fault ∈ pm := by assumption) (m_out : Part.out ∈ pm := by assumption) (m_spent : Part.spent ∈ pm := by assumption) : Frame pm z0 (recheckDone i original found s) := by
  unfold recheckDone
  try dsimp only
  repeat (any_goals (first | intro _ | with_reducible assumption | with_reducible refine settleOut_frame ?_ | with_reducible refine count_frame ?_ | with_reducible refine dropItem_frame ?_ | with_reducible refine logShadow_frame ?_ | with_reducible apply Frame.ite | with_reducible apply Frame.iteFst | fail_if_no_progress (with_reducible refine Frame.set ?_) | split | dsimp only | refine Frame.ofFst ?_ (by assumption) | refine Frame.ofSnd2 ?_ (by assumption) | refine FrameOpt.kept ?_ _ (by assumption) | refine FrameOut.kept ?_ _ (by assumption)))

theorem execShadowRecheckDone_frame {t : Stamp} {item : Nat} {original : ItemResult} {found : ItemResult} {s : State} {pm : List Part} {z0 : State} (hk : Frame pm z0 s) (m_time : Part.time ∈ pm := by assumption) (m_bar : Part.bar ∈ pm := by assumption) (m_plan : Part.plan ∈ pm := by assumption) (m_fault : Part.fault ∈ pm := by assumption) (m_out : Part.out ∈ pm := by assumption) (m_spent : Part.spent ∈ pm := by assumption) : FrameOut pm z0 (execShadowRecheckDone t item original found s) := by
  unfold execShadowRecheckDone
  try dsimp only
  repeat (any_goals (first | intro _ | with_reducible assumption | with_reducible refine run_frame ?_ ?_ | with_reducible refine recheckDone_frame ?_ | with_reducible apply FrameOut.next | exact FrameOut.fault | with_reducible apply Frame.ite | with_reducible apply Frame.iteFst | with_reducible apply FrameOut.ite | fail_if_no_progress (with_reducible refine Frame.set ?_) | split | dsimp only | refine Frame.ofFst ?_ (by assumption) | refine Frame.ofSnd2 ?_ (by assumption) | refine FrameOpt.kept ?_ _ (by assumption) | refine FrameOut.kept ?_ _ (by assumption)))

theorem arbitrationDone_frame {t : Stamp} {i : Nat} {found : ItemResult} {s : State} {pm : List Part} {z0 : State} (hk : Frame pm z0 s) (m_bar : Part.bar ∈ pm := by assumption) (m_plan : Part.plan ∈ pm := by assumption) (m_fault : Part.fault ∈ pm := by assumption) (m_out : Part.out ∈ pm := by assumption) (m_spent : Part.spent ∈ pm := by assumption) : Frame pm z0 (arbitrationDone t i found s) := by
  unfold arbitrationDone
  try dsimp only
  repeat (any_goals (first | intro _ | with_reducible assumption | with_reducible refine count_frame ?_ | with_reducible refine dropItem_frame ?_ | with_reducible refine settleOut_frame ?_ | with_reducible refine dropFed_frame ?_ | with_reducible refine logShadow_frame ?_ | with_reducible refine lose_frame ?_ | with_reducible apply foldl_frame | with_reducible apply foldl_frame_fst | with_reducible apply Frame.ite | with_reducible apply Frame.iteFst | fail_if_no_progress (with_reducible refine Frame.set ?_) | split | dsimp only | refine Frame.ofFst ?_ (by assumption) | refine Frame.ofSnd2 ?_ (by assumption) | refine FrameOpt.kept ?_ _ (by assumption) | refine FrameOut.kept ?_ _ (by assumption)))

theorem execArbitrationDone_frame {t : Stamp} {item : Nat} {found : ItemResult} {s : State} {pm : List Part} {z0 : State} (hk : Frame pm z0 s) (m_time : Part.time ∈ pm := by assumption) (m_bar : Part.bar ∈ pm := by assumption) (m_plan : Part.plan ∈ pm := by assumption) (m_fault : Part.fault ∈ pm := by assumption) (m_out : Part.out ∈ pm := by assumption) (m_spent : Part.spent ∈ pm := by assumption) : FrameOut pm z0 (execArbitrationDone t item found s) := by
  unfold execArbitrationDone
  try dsimp only
  repeat (any_goals (first | intro _ | with_reducible assumption | with_reducible refine run_frame ?_ ?_ | with_reducible refine arbitrationDone_frame ?_ | with_reducible apply FrameOut.next | exact FrameOut.fault | with_reducible apply Frame.ite | with_reducible apply Frame.iteFst | with_reducible apply FrameOut.ite | fail_if_no_progress (with_reducible refine Frame.set ?_) | split | dsimp only | refine Frame.ofFst ?_ (by assumption) | refine Frame.ofSnd2 ?_ (by assumption) | refine FrameOpt.kept ?_ _ (by assumption) | refine FrameOut.kept ?_ _ (by assumption)))

theorem itemsAtCutoff_frame {s : State} {pm : List Part} {z0 : State} (hk : Frame pm z0 s) (m_bar : Part.bar ∈ pm := by assumption) (m_plan : Part.plan ∈ pm := by assumption) (m_fault : Part.fault ∈ pm := by assumption) (m_out : Part.out ∈ pm := by assumption) (m_spent : Part.spent ∈ pm := by assumption) : Frame pm z0 (itemsAtCutoff s) := by
  unfold itemsAtCutoff
  try dsimp only
  repeat (any_goals (first | intro _ | with_reducible assumption | with_reducible refine count_frame ?_ | with_reducible refine dropItem_frame ?_ | with_reducible refine settleOut_frame ?_ | with_reducible refine dropFed_frame ?_ | with_reducible refine logShadow_frame ?_ | with_reducible apply foldl_frame | with_reducible apply foldl_frame_fst | with_reducible apply Frame.ite | with_reducible apply Frame.iteFst | fail_if_no_progress (with_reducible refine Frame.set ?_) | split | dsimp only | refine Frame.ofFst ?_ (by assumption) | refine Frame.ofSnd2 ?_ (by assumption) | refine FrameOpt.kept ?_ _ (by assumption) | refine FrameOut.kept ?_ _ (by assumption)))

theorem putItem_frame {s : State} {it : Item} {pm : List Part} {z0 : State} (hk : Frame pm z0 s) (m_plan : Part.plan ∈ pm := by assumption) : Frame pm z0 (putItem s it) := by
  unfold putItem
  try dsimp only
  repeat (any_goals (first | intro _ | with_reducible assumption | with_reducible apply Frame.ite | with_reducible apply Frame.iteFst | fail_if_no_progress (with_reducible refine Frame.set ?_) | split | dsimp only | refine Frame.ofFst ?_ (by assumption) | refine Frame.ofSnd2 ?_ (by assumption) | refine FrameOpt.kept ?_ _ (by assumption) | refine FrameOut.kept ?_ _ (by assumption)))

theorem sendAskTo_frame {s : State} {kind : Nat} {spans : List Span} {dst : ModuleId} {pm : List Part} {z0 : State} (hk : Frame pm z0 s) (m_out : Part.out ∈ pm := by assumption) (m_spent : Part.spent ∈ pm := by assumption) : Frame pm z0 (sendAskTo s kind spans dst) := by
  unfold sendAskTo
  try dsimp only
  repeat (any_goals (first | intro _ | with_reducible assumption | with_reducible refine send_frame ?_ | with_reducible apply foldl_frame | with_reducible apply foldl_frame_fst | with_reducible apply Frame.ite | with_reducible apply Frame.iteFst | fail_if_no_progress (with_reducible refine Frame.set ?_) | split | dsimp only | refine Frame.ofFst ?_ (by assumption) | refine Frame.ofSnd2 ?_ (by assumption) | refine FrameOpt.kept ?_ _ (by assumption) | refine FrameOut.kept ?_ _ (by assumption)))

theorem sendAsks_frame {s : State} {kind : Nat} {asks : List (Span × ModuleId)} {pm : List Part} {z0 : State} (hk : Frame pm z0 s) (m_out : Part.out ∈ pm := by assumption) (m_spent : Part.spent ∈ pm := by assumption) : Frame pm z0 (sendAsks s kind asks) := by
  unfold sendAsks
  try dsimp only
  repeat (any_goals (first | intro _ | with_reducible assumption | with_reducible refine sendAskTo_frame ?_ | with_reducible apply foldl_frame | with_reducible apply foldl_frame_fst | with_reducible apply Frame.ite | with_reducible apply Frame.iteFst | fail_if_no_progress (with_reducible refine Frame.set ?_) | split | dsimp only | refine Frame.ofFst ?_ (by assumption) | refine Frame.ofSnd2 ?_ (by assumption) | refine FrameOpt.kept ?_ _ (by assumption) | refine FrameOut.kept ?_ _ (by assumption)))

theorem mapSpans_frame {s : State} {f : Span → Span} {pm : List Part} {z0 : State} (hk : Frame pm z0 s) (m_plan : Part.plan ∈ pm := by assumption) : Frame pm z0 (mapSpans s f) := by
  unfold mapSpans
  try dsimp only
  repeat (any_goals (first | intro _ | with_reducible assumption | with_reducible apply Frame.ite | with_reducible apply Frame.iteFst | fail_if_no_progress (with_reducible refine Frame.set ?_) | split | dsimp only | refine Frame.ofFst ?_ (by assumption) | refine Frame.ofSnd2 ?_ (by assumption) | refine FrameOpt.kept ?_ _ (by assumption) | refine FrameOut.kept ?_ _ (by assumption)))

theorem askNext_frame {s : State} {pm : List Part} {z0 : State} (hk : Frame pm z0 s) (m_plan : Part.plan ∈ pm := by assumption) (m_out : Part.out ∈ pm := by assumption) (m_spent : Part.spent ∈ pm := by assumption) : Frame pm z0 (askNext s) := by
  unfold askNext
  try dsimp only
  repeat (any_goals (first | intro _ | with_reducible assumption | with_reducible refine sendAsks_frame ?_ | with_reducible refine mapSpans_frame ?_ | with_reducible apply Frame.ite | with_reducible apply Frame.iteFst | fail_if_no_progress (with_reducible refine Frame.set ?_) | split | dsimp only | refine Frame.ofFst ?_ (by assumption) | refine Frame.ofSnd2 ?_ (by assumption) | refine FrameOpt.kept ?_ _ (by assumption) | refine FrameOut.kept ?_ _ (by assumption)))

theorem startSpans_frame {s : State} {pm : List Part} {z0 : State} (hk : Frame pm z0 s) (m_plan : Part.plan ∈ pm := by assumption) (m_out : Part.out ∈ pm := by assumption) (m_spent : Part.spent ∈ pm := by assumption) : Frame pm z0 (startSpans s) := by
  unfold startSpans
  try dsimp only
  repeat (any_goals (first | intro _ | with_reducible assumption | with_reducible refine askNext_frame ?_ | with_reducible apply foldl_frame | with_reducible apply foldl_frame_fst | with_reducible apply Frame.ite | with_reducible apply Frame.iteFst | fail_if_no_progress (with_reducible refine Frame.set ?_) | split | dsimp only | refine Frame.ofFst ?_ (by assumption) | refine Frame.ofSnd2 ?_ (by assumption) | refine FrameOpt.kept ?_ _ (by assumption) | refine FrameOut.kept ?_ _ (by assumption)))

theorem backstopAsks_frame {s : State} {p : Span → Bool} {pm : List Part} {z0 : State} (hk : Frame pm z0 s) (m_bar : Part.bar ∈ pm := by assumption) (m_plan : Part.plan ∈ pm := by assumption) (m_out : Part.out ∈ pm := by assumption) (m_spent : Part.spent ∈ pm := by assumption) : Frame pm z0 (backstopAsks s p) := by
  unfold backstopAsks
  try dsimp only
  repeat (any_goals (first | intro _ | with_reducible assumption | with_reducible refine mapSpans_frame ?_ | with_reducible refine sendAsks_frame ?_ | with_reducible refine count_frame ?_ | with_reducible apply foldl_frame | with_reducible apply foldl_frame_fst | with_reducible apply Frame.ite | with_reducible apply Frame.iteFst | fail_if_no_progress (with_reducible refine Frame.set ?_) | split | dsimp only | refine Frame.ofFst ?_ (by assumption) | refine Frame.ofSnd2 ?_ (by assumption) | refine FrameOpt.kept ?_ _ (by assumption) | refine FrameOut.kept ?_ _ (by assumption)))

theorem trail_frame {s : State} {b : Nat} {layer : Nat} {ks : List Nat} {pm : List Part} {z0 : State} (hk : Frame pm z0 s) (m_plan : Part.plan ∈ pm := by assumption) : Frame pm z0 (trail s b layer ks) := by
  unfold trail
  try dsimp only
  repeat (any_goals (first | intro _ | with_reducible assumption | with_reducible refine mapSpans_frame ?_ | with_reducible apply foldl_frame | with_reducible apply foldl_frame_fst | with_reducible apply Frame.ite | with_reducible apply Frame.iteFst | fail_if_no_progress (with_reducible refine Frame.set ?_) | split | dsimp only | refine Frame.ofFst ?_ (by assumption) | refine Frame.ofSnd2 ?_ (by assumption) | refine FrameOpt.kept ?_ _ (by assumption) | refine FrameOut.kept ?_ _ (by assumption)))

theorem remoteWait_frame {t : Stamp} {b : Nat} {pass : Nat} {layer : Nat} {s : State} {pm : List Part} {z0 : State} (hk : Frame pm z0 s) (m_bar : Part.bar ∈ pm := by assumption) (m_plan : Part.plan ∈ pm := by assumption) (m_out : Part.out ∈ pm := by assumption) (m_spent : Part.spent ∈ pm := by assumption) : Frame pm z0 (remoteWait t b pass layer s) := by
  unfold remoteWait
  try dsimp only
  repeat (any_goals (first | intro _ | with_reducible assumption | with_reducible refine mapSpans_frame ?_ | with_reducible refine count_frame ?_ | with_reducible refine trail_frame ?_ | with_reducible refine askNext_frame ?_ | with_reducible refine backstopAsks_frame ?_ | with_reducible apply foldl_frame | with_reducible apply foldl_frame_fst | with_reducible apply Frame.ite | with_reducible apply Frame.iteFst | fail_if_no_progress (with_reducible refine Frame.set ?_) | split | dsimp only | refine Frame.ofFst ?_ (by assumption) | refine Frame.ofSnd2 ?_ (by assumption) | refine FrameOpt.kept ?_ _ (by assumption) | refine FrameOut.kept ?_ _ (by assumption)))

theorem expireWaits_frame {t : Stamp} {s : State} {pm : List Part} {z0 : State} (hk : Frame pm z0 s) (m_bar : Part.bar ∈ pm := by assumption) (m_plan : Part.plan ∈ pm := by assumption) (m_out : Part.out ∈ pm := by assumption) (m_spent : Part.spent ∈ pm := by assumption) : Frame pm z0 (expireWaits t s) := by
  unfold expireWaits
  try dsimp only
  repeat (any_goals (first | intro _ | with_reducible assumption | with_reducible refine remoteWait_frame ?_ | with_reducible apply foldl_frame | with_reducible apply foldl_frame_fst | with_reducible apply Frame.ite | with_reducible apply Frame.iteFst | fail_if_no_progress (with_reducible refine Frame.set ?_) | split | dsimp only | refine Frame.ofFst ?_ (by assumption) | refine Frame.ofSnd2 ?_ (by assumption) | refine FrameOpt.kept ?_ _ (by assumption) | refine FrameOut.kept ?_ _ (by assumption)))

theorem execRemoteWaitExpiry_frame {t : Stamp} {bench : Nat} {pass : Nat} {layer : Nat} {s : State} {pm : List Part} {z0 : State} (hk : Frame pm z0 s) (m_time : Part.time ∈ pm := by assumption) (m_bar : Part.bar ∈ pm := by assumption) (m_plan : Part.plan ∈ pm := by assumption) (m_out : Part.out ∈ pm := by assumption) (m_spent : Part.spent ∈ pm := by assumption) : FrameOut pm z0 (execRemoteWaitExpiry t bench pass layer s) := by
  unfold execRemoteWaitExpiry
  try dsimp only
  repeat (any_goals (first | intro _ | with_reducible assumption | with_reducible refine run_frame ?_ ?_ | with_reducible refine remoteWait_frame ?_ | with_reducible apply FrameOut.next | exact FrameOut.fault | with_reducible apply Frame.ite | with_reducible apply Frame.iteFst | with_reducible apply FrameOut.ite | fail_if_no_progress (with_reducible refine Frame.set ?_) | split | dsimp only | refine Frame.ofFst ?_ (by assumption) | refine Frame.ofSnd2 ?_ (by assumption) | refine FrameOpt.kept ?_ _ (by assumption) | refine FrameOut.kept ?_ _ (by assumption)))

theorem giveUp_frame {t : Stamp} {k : Nat} {layer : Nat} {g : Nat} {s : State} {pm : List Part} {z0 : State} (hk : Frame pm z0 s) (m_plan : Part.plan ∈ pm := by assumption) (m_out : Part.out ∈ pm := by assumption) (m_spent : Part.spent ∈ pm := by assumption) : Frame pm z0 (giveUp t k layer g s) := by
  unfold giveUp
  try dsimp only
  repeat (any_goals (first | intro _ | with_reducible assumption | with_reducible refine askNext_frame ?_ | with_reducible refine mapSpans_frame ?_ | with_reducible apply Frame.ite | with_reducible apply Frame.iteFst | fail_if_no_progress (with_reducible refine Frame.set ?_) | split | dsimp only | refine Frame.ofFst ?_ (by assumption) | refine Frame.ofSnd2 ?_ (by assumption) | refine FrameOpt.kept ?_ _ (by assumption) | refine FrameOut.kept ?_ _ (by assumption)))

theorem execShortSightGiveUp_frame {t : Stamp} {req : Nat} {layer : Nat} {gFirst : Nat} {s : State} {pm : List Part} {z0 : State} (hk : Frame pm z0 s) (m_time : Part.time ∈ pm := by assumption) (m_plan : Part.plan ∈ pm := by assumption) (m_out : Part.out ∈ pm := by assumption) (m_spent : Part.spent ∈ pm := by assumption) : FrameOut pm z0 (execShortSightGiveUp t req layer gFirst s) := by
  unfold execShortSightGiveUp
  try dsimp only
  repeat (any_goals (first | intro _ | with_reducible assumption | with_reducible refine run_frame ?_ ?_ | with_reducible refine giveUp_frame ?_ | with_reducible apply FrameOut.next | exact FrameOut.fault | with_reducible apply Frame.ite | with_reducible apply Frame.iteFst | with_reducible apply FrameOut.ite | fail_if_no_progress (with_reducible refine Frame.set ?_) | split | dsimp only | refine Frame.ofFst ?_ (by assumption) | refine Frame.ofSnd2 ?_ (by assumption) | refine FrameOpt.kept ?_ _ (by assumption) | refine FrameOut.kept ?_ _ (by assumption)))

theorem takeAnswer_frame {t : Stamp} {src : ModuleId} {b : Nat} {layer : Nat} {tick : Nat} {s : State} {e : AnswerEntry} {pm : List Part} {z0 : State} (hk : Frame pm z0 s) (m_bar : Part.bar ∈ pm := by assumption) (m_plan : Part.plan ∈ pm := by assumption) (m_fault : Part.fault ∈ pm := by assumption) (m_out : Part.out ∈ pm := by assumption) : Frame pm z0 (takeAnswer t src b layer tick s e) := by
  unfold takeAnswer
  try dsimp only
  repeat (any_goals (first | intro _ | with_reducible assumption | with_reducible refine count_frame ?_ | with_reducible refine mapSpans_frame ?_ | with_reducible refine logErr_frame ?_ | with_reducible apply Frame.ite | with_reducible apply Frame.iteFst | fail_if_no_progress (with_reducible refine Frame.set ?_) | split | dsimp only | refine Frame.ofFst ?_ (by assumption) | refine Frame.ofSnd2 ?_ (by assumption) | refine FrameOpt.kept ?_ _ (by assumption) | refine FrameOut.kept ?_ _ (by assumption)))

theorem partialAnswer_frame {t : Stamp} {src : ModuleId} {hdr : BitVec 256} {es : List AnswerEntry} {s : State} {pm : List Part} {z0 : State} (hk : Frame pm z0 s) (m_bar : Part.bar ∈ pm := by assumption) (m_plan : Part.plan ∈ pm := by assumption) (m_fault : Part.fault ∈ pm := by assumption) (m_out : Part.out ∈ pm := by assumption) (m_spent : Part.spent ∈ pm := by assumption) : Frame pm z0 (partialAnswer t src hdr es s) := by
  unfold partialAnswer
  try dsimp only
  repeat (any_goals (first | intro _ | with_reducible assumption | with_reducible refine malformed_frame ?_ | with_reducible refine askNext_frame ?_ | with_reducible refine takeAnswer_frame ?_ | with_reducible refine expireWaits_frame ?_ | with_reducible apply foldl_frame | with_reducible apply foldl_frame_fst | with_reducible apply Frame.ite | with_reducible apply Frame.iteFst | fail_if_no_progress (with_reducible refine Frame.set ?_) | split | dsimp only | refine Frame.ofFst ?_ (by assumption) | refine Frame.ofSnd2 ?_ (by assumption) | refine FrameOpt.kept ?_ _ (by assumption) | refine FrameOut.kept ?_ _ (by assumption)))

theorem execPartialAnswer_frame {t : Stamp} {src : ModuleId} {hdr : BitVec 256} {es : List AnswerEntry} {s : State} {pm : List Part} {z0 : State} (hk : Frame pm z0 s) (m_time : Part.time ∈ pm := by assumption) (m_bar : Part.bar ∈ pm := by assumption) (m_plan : Part.plan ∈ pm := by assumption) (m_fault : Part.fault ∈ pm := by assumption) (m_pwr : Part.pwr ∈ pm := by assumption) (m_out : Part.out ∈ pm := by assumption) (m_spent : Part.spent ∈ pm := by assumption) : FrameOut pm z0 (execPartialAnswer t src hdr es s) := by
  unfold execPartialAnswer
  try dsimp only
  repeat (any_goals (first | intro _ | with_reducible assumption | with_reducible refine runLink_frame ?_ ?_ | with_reducible refine partialAnswer_frame ?_ | with_reducible apply FrameOut.next | exact FrameOut.fault | with_reducible apply Frame.ite | with_reducible apply Frame.iteFst | with_reducible apply FrameOut.ite | fail_if_no_progress (with_reducible refine Frame.set ?_) | split | dsimp only | refine Frame.ofFst ?_ (by assumption) | refine Frame.ofSnd2 ?_ (by assumption) | refine FrameOpt.kept ?_ _ (by assumption) | refine FrameOut.kept ?_ _ (by assumption)))

theorem takeSettle_frame {src : ModuleId} {b : Nat} {layer : Nat} {s : State} {e : BitVec 128} {pm : List Part} {z0 : State} (hk : Frame pm z0 s) (m_plan : Part.plan ∈ pm := by assumption) : Frame pm z0 (takeSettle src b layer s e) := by
  unfold takeSettle
  try dsimp only
  repeat (any_goals (first | intro _ | with_reducible assumption | with_reducible refine mapSpans_frame ?_ | with_reducible apply Frame.ite | with_reducible apply Frame.iteFst | fail_if_no_progress (with_reducible refine Frame.set ?_) | split | dsimp only | refine Frame.ofFst ?_ (by assumption) | refine Frame.ofSnd2 ?_ (by assumption) | refine FrameOpt.kept ?_ _ (by assumption) | refine FrameOut.kept ?_ _ (by assumption)))

theorem settleIn_frame {t : Stamp} {src : ModuleId} {hdr : BitVec 256} {es : List (BitVec 128)} {s : State} {pm : List Part} {z0 : State} (hk : Frame pm z0 s) (m_plan : Part.plan ∈ pm := by assumption) (m_fault : Part.fault ∈ pm := by assumption) (m_out : Part.out ∈ pm := by assumption) : Frame pm z0 (settleIn t src hdr es s) := by
  unfold settleIn
  try dsimp only
  repeat (any_goals (first | intro _ | with_reducible assumption | with_reducible refine malformed_frame ?_ | with_reducible refine takeSettle_frame ?_ | with_reducible apply foldl_frame | with_reducible apply foldl_frame_fst | with_reducible apply Frame.ite | with_reducible apply Frame.iteFst | fail_if_no_progress (with_reducible refine Frame.set ?_) | split | dsimp only | refine Frame.ofFst ?_ (by assumption) | refine Frame.ofSnd2 ?_ (by assumption) | refine FrameOpt.kept ?_ _ (by assumption) | refine FrameOut.kept ?_ _ (by assumption)))

theorem execSettle_frame {t : Stamp} {src : ModuleId} {hdr : BitVec 256} {es : List (BitVec 128)} {s : State} {pm : List Part} {z0 : State} (hk : Frame pm z0 s) (m_time : Part.time ∈ pm := by assumption) (m_plan : Part.plan ∈ pm := by assumption) (m_fault : Part.fault ∈ pm := by assumption) (m_pwr : Part.pwr ∈ pm := by assumption) (m_out : Part.out ∈ pm := by assumption) : FrameOut pm z0 (execSettle t src hdr es s) := by
  unfold execSettle
  try dsimp only
  repeat (any_goals (first | intro _ | with_reducible assumption | with_reducible refine runLink_frame ?_ ?_ | with_reducible refine settleIn_frame ?_ | with_reducible apply FrameOut.next | exact FrameOut.fault | with_reducible apply Frame.ite | with_reducible apply Frame.iteFst | with_reducible apply FrameOut.ite | fail_if_no_progress (with_reducible refine Frame.set ?_) | split | dsimp only | refine Frame.ofFst ?_ (by assumption) | refine Frame.ofSnd2 ?_ (by assumption) | refine FrameOpt.kept ?_ _ (by assumption) | refine FrameOut.kept ?_ _ (by assumption)))

theorem flushAsk_frame {s : State} {ask : Nat} {fp : Nat} {pm : List Part} {z0 : State} (hk : Frame pm z0 s) (m_bar : Part.bar ∈ pm := by assumption) (m_plan : Part.plan ∈ pm := by assumption) (m_out : Part.out ∈ pm := by assumption) (m_spent : Part.spent ∈ pm := by assumption) : Frame pm z0 (flushAsk s ask fp) := by
  unfold flushAsk
  try dsimp only
  repeat (any_goals (first | intro _ | with_reducible assumption | with_reducible refine count_frame ?_ | with_reducible refine send_frame ?_ | with_reducible apply foldl_frame | with_reducible apply foldl_frame_fst | with_reducible apply Frame.ite | with_reducible apply Frame.iteFst | fail_if_no_progress (with_reducible refine Frame.set ?_) | split | dsimp only | refine Frame.ofFst ?_ (by assumption) | refine Frame.ofSnd2 ?_ (by assumption) | refine FrameOpt.kept ?_ _ (by assumption) | refine FrameOut.kept ?_ _ (by assumption)))

theorem readFlash_frame {s : State} {b : Nat} {use : ReadUse} {p : PageRef} {late : Bool} {pm : List Part} {z0 : State} (hk : Frame pm z0 s) (m_bar : Part.bar ∈ pm := by assumption) (m_tier : Part.tier ∈ pm := by assumption) (m_fresh : Part.fresh ∈ pm := by assumption) : Frame pm z0 (readFlash s b use p late) := by
  unfold readFlash
  try dsimp only
  repeat (any_goals (first | intro _ | with_reducible assumption | with_reducible refine count_frame ?_ | with_reducible refine State_bump_frame ?_ | with_reducible apply Frame.ite | with_reducible apply Frame.iteFst | fail_if_no_progress (with_reducible refine Frame.set ?_) | split | dsimp only | refine Frame.ofFst ?_ (by assumption) | refine Frame.ofSnd2 ?_ (by assumption) | refine FrameOpt.kept ?_ _ (by assumption) | refine FrameOut.kept ?_ _ (by assumption)))

theorem readFlashPages_frame {t : Stamp} {c : Conv} {v : Serve} {s : State} {pm : List Part} {z0 : State} (hk : Frame pm z0 s) (m_bar : Part.bar ∈ pm := by assumption) (m_tier : Part.tier ∈ pm := by assumption) (m_spent : Part.spent ∈ pm := by assumption) (m_fresh : Part.fresh ∈ pm := by assumption) : Frame pm z0 (readFlashPages t c v s) := by
  unfold readFlashPages
  try dsimp only
  repeat (any_goals (first | intro _ | with_reducible assumption | with_reducible refine readFlash_frame ?_ | with_reducible refine chargePage_frame ?_ | with_reducible apply foldl_frame | with_reducible apply foldl_frame_fst | with_reducible apply Frame.ite | with_reducible apply Frame.iteFst | fail_if_no_progress (with_reducible refine Frame.set ?_) | split | dsimp only | refine Frame.ofFst ?_ (by assumption) | refine Frame.ofSnd2 ?_ (by assumption) | refine FrameOpt.kept ?_ _ (by assumption) | refine FrameOut.kept ?_ _ (by assumption)))

theorem takeSpan_frame {t : Stamp} {backstop : Bool} {hdr : BitVec 256} {ask : Nat} {e : AskEntry} {s : State} {w : BitVec 32} {pm : List Part} {z0 : State} (hk : Frame pm z0 s) (m_bar : Part.bar ∈ pm := by assumption) (m_plan : Part.plan ∈ pm := by assumption) (m_tier : Part.tier ∈ pm := by assumption) (m_spent : Part.spent ∈ pm := by assumption) (m_fresh : Part.fresh ∈ pm := by assumption) : Frame pm z0 (takeSpan t backstop hdr ask e s w) := by
  unfold takeSpan
  try dsimp only
  repeat (any_goals (first | intro _ | with_reducible assumption | with_reducible refine readFlashPages_frame ?_ | with_reducible apply Frame.ite | with_reducible apply Frame.iteFst | fail_if_no_progress (with_reducible refine Frame.set ?_) | split | dsimp only | refine Frame.ofFst ?_ (by assumption) | refine Frame.ofSnd2 ?_ (by assumption) | refine FrameOpt.kept ?_ _ (by assumption) | refine FrameOut.kept ?_ _ (by assumption)))

theorem takeAsk_frame {t : Stamp} {backstop : Bool} {hdr : BitVec 256} {es : List AskEntry} {s : State} {pm : List Part} {z0 : State} (hk : Frame pm z0 s) (m_bar : Part.bar ∈ pm := by assumption) (m_plan : Part.plan ∈ pm := by assumption) (m_tier : Part.tier ∈ pm := by assumption) (m_fault : Part.fault ∈ pm := by assumption) (m_out : Part.out ∈ pm := by assumption) (m_spent : Part.spent ∈ pm := by assumption) (m_fresh : Part.fresh ∈ pm := by assumption) : Frame pm z0 (takeAsk t backstop hdr es s) := by
  unfold takeAsk
  try dsimp only
  repeat (any_goals (first | intro _ | with_reducible assumption | with_reducible refine malformed_frame ?_ | with_reducible refine count_frame ?_ | with_reducible refine flushAsk_frame ?_ | with_reducible refine takeSpan_frame ?_ | with_reducible refine State_bump_frame ?_ | with_reducible apply foldl_frame | with_reducible apply foldl_frame_fst | with_reducible apply Frame.ite | with_reducible apply Frame.iteFst | fail_if_no_progress (with_reducible refine Frame.set ?_) | split | dsimp only | refine Frame.ofFst ?_ (by assumption) | refine Frame.ofSnd2 ?_ (by assumption) | refine FrameOpt.kept ?_ _ (by assumption) | refine FrameOut.kept ?_ _ (by assumption)))

theorem execPartialAsk_frame {t : Stamp} {hdr : BitVec 256} {es : List AskEntry} {s : State} {pm : List Part} {z0 : State} (hk : Frame pm z0 s) (m_time : Part.time ∈ pm := by assumption) (m_bar : Part.bar ∈ pm := by assumption) (m_plan : Part.plan ∈ pm := by assumption) (m_tier : Part.tier ∈ pm := by assumption) (m_fault : Part.fault ∈ pm := by assumption) (m_out : Part.out ∈ pm := by assumption) (m_spent : Part.spent ∈ pm := by assumption) (m_fresh : Part.fresh ∈ pm := by assumption) : FrameOut pm z0 (execPartialAsk t hdr es s) := by
  unfold execPartialAsk
  try dsimp only
  repeat (any_goals (first | intro _ | with_reducible assumption | with_reducible refine run_frame ?_ ?_ | with_reducible refine takeAsk_frame ?_ | with_reducible apply FrameOut.next | exact FrameOut.fault | with_reducible apply Frame.ite | with_reducible apply Frame.iteFst | with_reducible apply FrameOut.ite | fail_if_no_progress (with_reducible refine Frame.set ?_) | split | dsimp only | refine Frame.ofFst ?_ (by assumption) | refine Frame.ofSnd2 ?_ (by assumption) | refine FrameOpt.kept ?_ _ (by assumption) | refine FrameOut.kept ?_ _ (by assumption)))

theorem execPartialBackstopAsk_frame {t : Stamp} {hdr : BitVec 256} {es : List AskEntry} {s : State} {pm : List Part} {z0 : State} (hk : Frame pm z0 s) (m_time : Part.time ∈ pm := by assumption) (m_bar : Part.bar ∈ pm := by assumption) (m_plan : Part.plan ∈ pm := by assumption) (m_tier : Part.tier ∈ pm := by assumption) (m_fault : Part.fault ∈ pm := by assumption) (m_out : Part.out ∈ pm := by assumption) (m_spent : Part.spent ∈ pm := by assumption) (m_fresh : Part.fresh ∈ pm := by assumption) : FrameOut pm z0 (execPartialBackstopAsk t hdr es s) := by
  unfold execPartialBackstopAsk
  try dsimp only
  repeat (any_goals (first | intro _ | with_reducible assumption | with_reducible refine run_frame ?_ ?_ | with_reducible refine takeAsk_frame ?_ | with_reducible apply FrameOut.next | exact FrameOut.fault | with_reducible apply Frame.ite | with_reducible apply Frame.iteFst | with_reducible apply FrameOut.ite | fail_if_no_progress (with_reducible refine Frame.set ?_) | split | dsimp only | refine Frame.ofFst ?_ (by assumption) | refine Frame.ofSnd2 ?_ (by assumption) | refine FrameOpt.kept ?_ _ (by assumption) | refine FrameOut.kept ?_ _ (by assumption)))

theorem sampleSpan_frame {s : State} {c : Conv} {v : Serve} {recs : List PartialRec} {pm : List Part} {z0 : State} (hk : Frame pm z0 s) (m_plan : Part.plan ∈ pm := by assumption) : Frame pm z0 (sampleSpan s c v recs) := by
  unfold sampleSpan
  try dsimp only
  repeat (any_goals (first | intro _ | with_reducible assumption | with_reducible refine putItem_frame ?_ | with_reducible apply Frame.ite | with_reducible apply Frame.iteFst | fail_if_no_progress (with_reducible refine Frame.set ?_) | split | dsimp only | refine Frame.ofFst ?_ (by assumption) | refine Frame.ofSnd2 ?_ (by assumption) | refine FrameOpt.kept ?_ _ (by assumption) | refine FrameOut.kept ?_ _ (by assumption)))

theorem countClips_frame {s : State} {b : Nat} {n : Nat} {pm : List Part} {z0 : State} (hk : Frame pm z0 s) (m_bar : Part.bar ∈ pm := by assumption) : Frame pm z0 (countClips s b n) := by
  unfold countClips
  try dsimp only
  repeat (any_goals (first | intro _ | with_reducible assumption | with_reducible refine countHalf_frame ?_ | with_reducible apply Frame.ite | with_reducible apply Frame.iteFst | fail_if_no_progress (with_reducible refine Frame.set ?_) | split | dsimp only | refine Frame.ofFst ?_ (by assumption) | refine Frame.ofSnd2 ?_ (by assumption) | refine FrameOpt.kept ?_ _ (by assumption) | refine FrameOut.kept ?_ _ (by assumption)))

theorem runDone_frame {peer : ModuleId} {k : Nat} {layer : Nat} {g : Nat} {sampled : Bool} {s : State} {pm : List Part} {z0 : State} (hk : Frame pm z0 s) (m_bar : Part.bar ∈ pm := by assumption) (m_work : Part.work ∈ pm := by assumption) (m_plan : Part.plan ∈ pm := by assumption) (m_out : Part.out ∈ pm := by assumption) (m_spent : Part.spent ∈ pm := by assumption) : Frame pm z0 (runDone peer k layer g sampled s) := by
  unfold runDone
  try dsimp only
  repeat (any_goals (first | intro _ | with_reducible assumption | with_reducible refine countClips_frame ?_ | with_reducible refine chargePages_frame ?_ | with_reducible refine modConv_frame ?_ | with_reducible refine flushAsk_frame ?_ | with_reducible refine sampleSpan_frame ?_ | with_reducible apply Frame.ite | with_reducible apply Frame.iteFst | fail_if_no_progress (with_reducible refine Frame.set ?_) | split | dsimp only | refine Frame.ofFst ?_ (by assumption) | refine Frame.ofSnd2 ?_ (by assumption) | refine FrameOpt.kept ?_ _ (by assumption) | refine FrameOut.kept ?_ _ (by assumption)))

theorem execPartialRunDone_frame {t : Stamp} {peer : ModuleId} {req : Nat} {layer : Nat} {gFirst : Nat} {sampled : Bool} {s : State} {pm : List Part} {z0 : State} (hk : Frame pm z0 s) (m_time : Part.time ∈ pm := by assumption) (m_bar : Part.bar ∈ pm := by assumption) (m_work : Part.work ∈ pm := by assumption) (m_plan : Part.plan ∈ pm := by assumption) (m_out : Part.out ∈ pm := by assumption) (m_spent : Part.spent ∈ pm := by assumption) : FrameOut pm z0 (execPartialRunDone t peer req layer gFirst sampled s) := by
  unfold execPartialRunDone
  try dsimp only
  repeat (any_goals (first | intro _ | with_reducible assumption | with_reducible refine run_frame ?_ ?_ | with_reducible refine runDone_frame ?_ | with_reducible apply FrameOut.next | exact FrameOut.fault | with_reducible apply Frame.ite | with_reducible apply Frame.iteFst | with_reducible apply FrameOut.ite | fail_if_no_progress (with_reducible refine Frame.set ?_) | split | dsimp only | refine Frame.ofFst ?_ (by assumption) | refine Frame.ofSnd2 ?_ (by assumption) | refine FrameOpt.kept ?_ _ (by assumption) | refine FrameOut.kept ?_ _ (by assumption)))

theorem abandonServes_frame {s : State} {pm : List Part} {z0 : State} (hk : Frame pm z0 s) (m_bar : Part.bar ∈ pm := by assumption) (m_plan : Part.plan ∈ pm := by assumption) : Frame pm z0 (abandonServes s) := by
  unfold abandonServes
  try dsimp only
  repeat (any_goals (first | intro _ | with_reducible assumption | with_reducible refine count_frame ?_ | with_reducible apply foldl_frame | with_reducible apply foldl_frame_fst | with_reducible apply Frame.ite | with_reducible apply Frame.iteFst | fail_if_no_progress (with_reducible refine Frame.set ?_) | split | dsimp only | refine Frame.ofFst ?_ (by assumption) | refine Frame.ofSnd2 ?_ (by assumption) | refine FrameOpt.kept ?_ _ (by assumption) | refine FrameOut.kept ?_ _ (by assumption)))

theorem lowerBudgets_frame {s : State} {b : Nat} {pm : List Part} {z0 : State} (hk : Frame pm z0 s) (m_benches : Part.benches ∈ pm := by assumption) : Frame pm z0 (lowerBudgets s b) := by
  unfold lowerBudgets
  try dsimp only
  repeat (any_goals (first | intro _ | with_reducible assumption | with_reducible refine setBench_frame ?_ | with_reducible apply Frame.ite | with_reducible apply Frame.iteFst | fail_if_no_progress (with_reducible refine Frame.set ?_) | split | dsimp only | refine Frame.ofFst ?_ (by assumption) | refine Frame.ofSnd2 ?_ (by assumption) | refine FrameOpt.kept ?_ _ (by assumption) | refine FrameOut.kept ?_ _ (by assumption)))

theorem beginMove_frame {s : State} {m : Move} {pm : List Part} {z0 : State} (hk : Frame pm z0 s) (m_bar : Part.bar ∈ pm := by assumption) (m_tier : Part.tier ∈ pm := by assumption) (m_fresh : Part.fresh ∈ pm := by assumption) : Frame pm z0 (beginMove s m) := by
  unfold beginMove
  try dsimp only
  repeat (any_goals (first | intro _ | with_reducible assumption | with_reducible refine readFlash_frame ?_ | with_reducible apply Frame.ite | with_reducible apply Frame.iteFst | fail_if_no_progress (with_reducible refine Frame.set ?_) | split | dsimp only | refine Frame.ofFst ?_ (by assumption) | refine Frame.ofSnd2 ?_ (by assumption) | refine FrameOpt.kept ?_ _ (by assumption) | refine FrameOut.kept ?_ _ (by assumption)))

theorem issueOne_frame {pm : List Part} {a : Issue} {m : Move} {z0 : State} (hk : Frame pm z0 a.s) (m_bar : Part.bar ∈ pm := by assumption) (m_tier : Part.tier ∈ pm := by assumption) (m_spent : Part.spent ∈ pm := by assumption) (m_fresh : Part.fresh ∈ pm := by assumption) : Frame pm z0 (issueOne a m).s := by
  unfold issueOne
  dsimp only
  repeat (any_goals (first | with_reducible exact hk | with_reducible refine beginMove_frame ?_ | with_reducible apply foldl_frame | intro _ | with_reducible assumption | with_reducible refine chargeShare_frame ?_ | split))

theorem issueMoves_frame {pm : List Part} {s : State} {z0 : State} (hk : Frame pm z0 s) (m_bar : Part.bar ∈ pm := by assumption) (m_tier : Part.tier ∈ pm := by assumption) (m_spent : Part.spent ∈ pm := by assumption) (m_fresh : Part.fresh ∈ pm := by assumption) : Frame pm z0 (issueMoves s) := by
  have hf : ∀ (l : List Move) (a : Issue), Frame pm z0 a.s → Frame pm z0 (l.foldl issueOne a).s := by
    intro l
    induction l with
    | nil => exact fun a h => h
    | cons m l ih => exact fun a h => ih _ (issueOne_frame h)
  exact Frame.set (hf _ _ (Frame.set hk))

theorem restartMove_frame {s : State} {id : Nat} {m : Move} {pm : List Part} {z0 : State} (hk : Frame pm z0 s) (m_bar : Part.bar ∈ pm := by assumption) (m_tier : Part.tier ∈ pm := by assumption) : Frame pm z0 (restartMove s id m) := by
  unfold restartMove
  try dsimp only
  repeat (any_goals (first | intro _ | with_reducible assumption | with_reducible refine count_frame ?_ | with_reducible apply Frame.ite | with_reducible apply Frame.iteFst | fail_if_no_progress (with_reducible refine Frame.set ?_) | split | dsimp only | refine Frame.ofFst ?_ (by assumption) | refine Frame.ofSnd2 ?_ (by assumption) | refine FrameOpt.kept ?_ _ (by assumption) | refine FrameOut.kept ?_ _ (by assumption)))

theorem makeKey_frame {s : State} {b : Nat} {pm : List Part} {z0 : State} (hk : Frame pm z0 s) (m_sec : Part.sec ∈ pm := by assumption) (m_fresh : Part.fresh ∈ pm := by assumption) : Frame pm z0 (makeKey s b) := by
  unfold makeKey
  try dsimp only
  repeat (any_goals (first | intro _ | with_reducible assumption | with_reducible refine State_bump_frame ?_ | with_reducible apply Frame.ite | with_reducible apply Frame.iteFst | fail_if_no_progress (with_reducible refine Frame.set ?_) | split | dsimp only | refine Frame.ofFst ?_ (by assumption) | refine Frame.ofSnd2 ?_ (by assumption) | refine FrameOpt.kept ?_ _ (by assumption) | refine FrameOut.kept ?_ _ (by assumption)))

theorem writeExtent_frame {s : State} {p : PageRef} {b : Nat} {pm : List Part} {z0 : State} (hk : Frame pm z0 s) (m_tier : Part.tier ∈ pm := by assumption) (m_sec : Part.sec ∈ pm := by assumption) (m_fresh : Part.fresh ∈ pm := by assumption) : Frame pm z0 (writeExtent s p b) := by
  unfold writeExtent
  try dsimp only
  repeat (any_goals (first | intro _ | with_reducible assumption | with_reducible refine makeKey_frame ?_ | with_reducible refine State_bump_frame ?_ | with_reducible apply foldl_frame | with_reducible apply foldl_frame_fst | with_reducible apply Frame.ite | with_reducible apply Frame.iteFst | fail_if_no_progress (with_reducible refine Frame.set ?_) | split | dsimp only | refine Frame.ofFst ?_ (by assumption) | refine Frame.ofSnd2 ?_ (by assumption) | refine FrameOpt.kept ?_ _ (by assumption) | refine FrameOut.kept ?_ _ (by assumption)))

theorem dropMates_frame {s : State} {id : Nat} {p : PageRef} {pm : List Part} {z0 : State} (hk : Frame pm z0 s) (m_tier : Part.tier ∈ pm := by assumption) : Frame pm z0 (dropMates s id p) := by
  unfold dropMates
  try dsimp only
  repeat (any_goals (first | intro _ | with_reducible assumption | with_reducible apply Frame.ite | with_reducible apply Frame.iteFst | fail_if_no_progress (with_reducible refine Frame.set ?_) | split | dsimp only | refine Frame.ofFst ?_ (by assumption) | refine Frame.ofSnd2 ?_ (by assumption) | refine FrameOpt.kept ?_ _ (by assumption) | refine FrameOut.kept ?_ _ (by assumption)))

theorem moveCopyDone_frame {t : Stamp} {id : Nat} {sound : Bool} {s : State} {pm : List Part} {z0 : State} (hk : Frame pm z0 s) (m_bar : Part.bar ∈ pm := by assumption) (m_tier : Part.tier ∈ pm := by assumption) (m_fault : Part.fault ∈ pm := by assumption) (m_sec : Part.sec ∈ pm := by assumption) (m_out : Part.out ∈ pm := by assumption) (m_fresh : Part.fresh ∈ pm := by assumption) : Frame pm z0 (moveCopyDone t id sound s) := by
  unfold moveCopyDone
  try dsimp only
  repeat (any_goals (first | intro _ | with_reducible assumption | with_reducible refine rejectPage_frame ?_ | with_reducible refine dropMates_frame ?_ | with_reducible refine restartMove_frame ?_ | with_reducible refine writeExtent_frame ?_ | with_reducible apply Frame.ite | with_reducible apply Frame.iteFst | fail_if_no_progress (with_reducible refine Frame.set ?_) | split | dsimp only | refine Frame.ofFst ?_ (by assumption) | refine Frame.ofSnd2 ?_ (by assumption) | refine FrameOpt.kept ?_ _ (by assumption) | refine FrameOut.kept ?_ _ (by assumption)))

theorem execMoveCopyDone_frame {t : Stamp} {move : Nat} {sound : Bool} {s : State} {pm : List Part} {z0 : State} (hk : Frame pm z0 s) (m_time : Part.time ∈ pm := by assumption) (m_bar : Part.bar ∈ pm := by assumption) (m_tier : Part.tier ∈ pm := by assumption) (m_fault : Part.fault ∈ pm := by assumption) (m_sec : Part.sec ∈ pm := by assumption) (m_out : Part.out ∈ pm := by assumption) (m_fresh : Part.fresh ∈ pm := by assumption) : FrameOut pm z0 (execMoveCopyDone t move sound s) := by
  unfold execMoveCopyDone
  try dsimp only
  repeat (any_goals (first | intro _ | with_reducible assumption | with_reducible refine run_frame ?_ ?_ | with_reducible refine moveCopyDone_frame ?_ | with_reducible apply FrameOut.next | exact FrameOut.fault | with_reducible apply Frame.ite | with_reducible apply Frame.iteFst | with_reducible apply FrameOut.ite | fail_if_no_progress (with_reducible refine Frame.set ?_) | split | dsimp only | refine Frame.ofFst ?_ (by assumption) | refine Frame.ofSnd2 ?_ (by assumption) | refine FrameOpt.kept ?_ _ (by assumption) | refine FrameOut.kept ?_ _ (by assumption)))

theorem applyMoves_frame {s : State} {n : Nat} {pm : List Part} {z0 : State} (hk : Frame pm z0 s) (m_work : Part.work ∈ pm := by assumption) (m_tier : Part.tier ∈ pm := by assumption) (m_fresh : Part.fresh ∈ pm := by assumption) : Frame pm z0 (applyMoves s n) := by
  unfold applyMoves
  try dsimp only
  repeat (any_goals (first | intro _ | with_reducible assumption | with_reducible refine sweepExtents_frame ?_ | with_reducible refine modPage_frame ?_ | with_reducible refine State_bump_frame ?_ | with_reducible apply foldl_frame | with_reducible apply foldl_frame_fst | with_reducible apply Frame.ite | with_reducible apply Frame.iteFst | fail_if_no_progress (with_reducible refine Frame.set ?_) | split | dsimp only | refine Frame.ofFst ?_ (by assumption) | refine Frame.ofSnd2 ?_ (by assumption) | refine FrameOpt.kept ?_ _ (by assumption) | refine FrameOut.kept ?_ _ (by assumption)))

theorem liftPages_frame {pm : List Part} {s : State} {b cell k : Nat} {l : List Entry} {z0 : State} (hk : Frame pm z0 s) (m_tier : Part.tier ∈ pm := by assumption) : Frame pm z0 (liftPages s b cell k l) := by
  induction l generalizing s with
  | nil => exact hk
  | cons e l ih =>
    unfold liftPages
    dsimp only
    refine Frame.ite (ih hk) (Frame.ite (ih (makeReady_frame hk)) ?_)
    split
    · exact makeReady_frame hk
    · exact hk

theorem liftUnit_frame {s : State} {u : WorkUnit} {pm : List Part} {z0 : State} (hk : Frame pm z0 s) (m_tier : Part.tier ∈ pm := by assumption) : Frame pm z0 (liftUnit s u) := by
  unfold liftUnit
  try dsimp only
  repeat (any_goals (first | intro _ | with_reducible assumption | with_reducible refine liftPages_frame ?_ | with_reducible apply foldl_frame | with_reducible apply foldl_frame_fst | with_reducible apply Frame.ite | with_reducible apply Frame.iteFst | fail_if_no_progress (with_reducible refine Frame.set ?_) | split | dsimp only | refine Frame.ofFst ?_ (by assumption) | refine Frame.ofSnd2 ?_ (by assumption) | refine FrameOpt.kept ?_ _ (by assumption) | refine FrameOut.kept ?_ _ (by assumption)))

theorem keepFace_frame {s : State} {pm : List Part} {z0 : State} (hk : Frame pm z0 s) (m_tier : Part.tier ∈ pm := by assumption) : Frame pm z0 (keepFace s) := by
  unfold keepFace
  try dsimp only
  repeat (any_goals (first | intro _ | with_reducible assumption | with_reducible refine liftUnit_frame ?_ | with_reducible apply foldl_frame | with_reducible apply foldl_frame_fst | with_reducible apply Frame.ite | with_reducible apply Frame.iteFst | fail_if_no_progress (with_reducible refine Frame.set ?_) | split | dsimp only | refine Frame.ofFst ?_ (by assumption) | refine Frame.ofSnd2 ?_ (by assumption) | refine FrameOpt.kept ?_ _ (by assumption) | refine FrameOut.kept ?_ _ (by assumption)))

theorem demote_frame {s : State} {p : PageRef} {pm : List Part} {z0 : State} (hk : Frame pm z0 s) (m_tier : Part.tier ∈ pm := by assumption) : Frame pm z0 (demote s p) := by
  unfold demote
  try dsimp only
  repeat (any_goals (first | intro _ | with_reducible assumption | with_reducible refine makeReady_frame ?_ | with_reducible apply foldl_frame | with_reducible apply foldl_frame_fst | with_reducible apply Frame.ite | with_reducible apply Frame.iteFst | fail_if_no_progress (with_reducible refine Frame.set ?_) | split | dsimp only | refine Frame.ofFst ?_ (by assumption) | refine Frame.ofSnd2 ?_ (by assumption) | refine FrameOpt.kept ?_ _ (by assumption) | refine FrameOut.kept ?_ _ (by assumption)))

theorem execDemotionIdle_frame {t : Stamp} {p : PageRef} {s : State} {pm : List Part} {z0 : State} (hk : Frame pm z0 s) (m_time : Part.time ∈ pm := by assumption) (m_tier : Part.tier ∈ pm := by assumption) : FrameOut pm z0 (execDemotionIdle t p s) := by
  unfold execDemotionIdle
  try dsimp only
  repeat (any_goals (first | intro _ | with_reducible assumption | with_reducible refine run_frame ?_ ?_ | with_reducible refine demote_frame ?_ | with_reducible apply FrameOut.next | exact FrameOut.fault | with_reducible apply Frame.ite | with_reducible apply Frame.iteFst | with_reducible apply FrameOut.ite | fail_if_no_progress (with_reducible refine Frame.set ?_) | split | dsimp only | refine Frame.ofFst ?_ (by assumption) | refine Frame.ofSnd2 ?_ (by assumption) | refine FrameOpt.kept ?_ _ (by assumption) | refine FrameOut.kept ?_ _ (by assumption)))

theorem pressure_frame {t0 : Stamp} {b : Nat} {t : Tier} {freePm : Nat} {s : State} {pm : List Part} {z0 : State} (hk : Frame pm z0 s) (m_haul : Part.haul ∈ pm := by assumption) (m_tier : Part.tier ∈ pm := by assumption) : Frame pm z0 (pressure t0 b t freePm s) := by
  unfold pressure
  try dsimp only
  repeat (any_goals (first | intro _ | with_reducible assumption | with_reducible refine demote_frame ?_ | with_reducible refine deferTo_frame ?_ | with_reducible apply foldl_frame | with_reducible apply foldl_frame_fst | with_reducible apply Frame.ite | with_reducible apply Frame.iteFst | fail_if_no_progress (with_reducible refine Frame.set ?_) | split | dsimp only | refine Frame.ofFst ?_ (by assumption) | refine Frame.ofSnd2 ?_ (by assumption) | refine FrameOpt.kept ?_ _ (by assumption) | refine FrameOut.kept ?_ _ (by assumption)))

theorem execPressureDemotion_frame {t : Stamp} {bench : Nat} {tier : Tier} {freePm : Nat} {s : State} {pm : List Part} {z0 : State} (hk : Frame pm z0 s) (m_time : Part.time ∈ pm := by assumption) (m_haul : Part.haul ∈ pm := by assumption) (m_tier : Part.tier ∈ pm := by assumption) : FrameOut pm z0 (execPressureDemotion t bench tier freePm s) := by
  unfold execPressureDemotion
  try dsimp only
  repeat (any_goals (first | intro _ | with_reducible assumption | with_reducible refine run_frame ?_ ?_ | with_reducible refine pressure_frame ?_ | with_reducible apply FrameOut.next | exact FrameOut.fault | with_reducible apply Frame.ite | with_reducible apply Frame.iteFst | with_reducible apply FrameOut.ite | fail_if_no_progress (with_reducible refine Frame.set ?_) | split | dsimp only | refine Frame.ofFst ?_ (by assumption) | refine Frame.ofSnd2 ?_ (by assumption) | refine FrameOpt.kept ?_ _ (by assumption) | refine FrameOut.kept ?_ _ (by assumption)))

theorem setFBlock_frame {s : State} {i : Nat} {f : FBlock → FBlock} {pm : List Part} {z0 : State} (hk : Frame pm z0 s) (m_tier : Part.tier ∈ pm := by assumption) : Frame pm z0 (setFBlock s i f) := by
  unfold setFBlock
  try dsimp only
  repeat (any_goals (first | intro _ | with_reducible assumption | with_reducible apply Frame.ite | with_reducible apply Frame.iteFst | fail_if_no_progress (with_reducible refine Frame.set ?_) | split | dsimp only | refine Frame.ofFst ?_ (by assumption) | refine Frame.ofSnd2 ?_ (by assumption) | refine FrameOpt.kept ?_ _ (by assumption) | refine FrameOut.kept ?_ _ (by assumption)))

theorem checkLife_frame {s : State} {pm : List Part} {z0 : State} (hk : Frame pm z0 s) (m_tier : Part.tier ∈ pm := by assumption) (m_fault : Part.fault ∈ pm := by assumption) (m_out : Part.out ∈ pm := by assumption) : Frame pm z0 (checkLife s) := by
  unfold checkLife
  try dsimp only
  repeat (any_goals (first | intro _ | with_reducible assumption | with_reducible refine logErr_frame ?_ | with_reducible apply Frame.ite | with_reducible apply Frame.iteFst | fail_if_no_progress (with_reducible refine Frame.set ?_) | split | dsimp only | refine Frame.ofFst ?_ (by assumption) | refine Frame.ofSnd2 ?_ (by assumption) | refine FrameOpt.kept ?_ _ (by assumption) | refine FrameOut.kept ?_ _ (by assumption)))

theorem relocate_frame {s : State} {i : Nat} {pm : List Part} {z0 : State} (hk : Frame pm z0 s) (m_tier : Part.tier ∈ pm := by assumption) (m_fault : Part.fault ∈ pm := by assumption) (m_out : Part.out ∈ pm := by assumption) : Frame pm z0 (relocate s i) := by
  unfold relocate
  try dsimp only
  repeat (any_goals (first | intro _ | with_reducible assumption | with_reducible refine setFBlock_frame ?_ | with_reducible refine checkLife_frame ?_ | with_reducible apply Frame.ite | with_reducible apply Frame.iteFst | fail_if_no_progress (with_reducible refine Frame.set ?_) | split | dsimp only | refine Frame.ofFst ?_ (by assumption) | refine Frame.ofSnd2 ?_ (by assumption) | refine FrameOpt.kept ?_ _ (by assumption) | refine FrameOut.kept ?_ _ (by assumption)))

theorem retireBlock_frame {s : State} {i : Nat} {pm : List Part} {z0 : State} (hk : Frame pm z0 s) (m_tier : Part.tier ∈ pm := by assumption) (m_fault : Part.fault ∈ pm := by assumption) (m_out : Part.out ∈ pm := by assumption) : Frame pm z0 (retireBlock s i) := by
  unfold retireBlock
  try dsimp only
  repeat (any_goals (first | intro _ | with_reducible assumption | with_reducible refine setFBlock_frame ?_ | with_reducible refine logErr_frame ?_ | with_reducible apply Frame.ite | with_reducible apply Frame.iteFst | fail_if_no_progress (with_reducible refine Frame.set ?_) | split | dsimp only | refine Frame.ofFst ?_ (by assumption) | refine Frame.ofSnd2 ?_ (by assumption) | refine FrameOpt.kept ?_ _ (by assumption) | refine FrameOut.kept ?_ _ (by assumption)))

theorem flashReadDone_frame {t : Stamp} {id : Nat} {cls : Nat} {sound : Bool} {s : State} {pm : List Part} {z0 : State} (hk : Frame pm z0 s) (m_bar : Part.bar ∈ pm := by assumption) (m_tier : Part.tier ∈ pm := by assumption) (m_fault : Part.fault ∈ pm := by assumption) (m_out : Part.out ∈ pm := by assumption) : Frame pm z0 (flashReadDone t id cls sound s) := by
  unfold flashReadDone
  try dsimp only
  repeat (any_goals (first | intro _ | with_reducible assumption | with_reducible refine count_frame ?_ | with_reducible refine setFBlock_frame ?_ | with_reducible refine logErr_frame ?_ | with_reducible refine retireBlock_frame ?_ | with_reducible refine rejectPage_frame ?_ | with_reducible apply Frame.ite | with_reducible apply Frame.iteFst | fail_if_no_progress (with_reducible refine Frame.set ?_) | split | dsimp only | refine Frame.ofFst ?_ (by assumption) | refine Frame.ofSnd2 ?_ (by assumption) | refine FrameOpt.kept ?_ _ (by assumption) | refine FrameOut.kept ?_ _ (by assumption)))

theorem execFlashReadDone_frame {t : Stamp} {readId : Nat} {cls : Nat} {sound : Bool} {s : State} {pm : List Part} {z0 : State} (hk : Frame pm z0 s) (m_time : Part.time ∈ pm := by assumption) (m_bar : Part.bar ∈ pm := by assumption) (m_tier : Part.tier ∈ pm := by assumption) (m_fault : Part.fault ∈ pm := by assumption) (m_out : Part.out ∈ pm := by assumption) : FrameOut pm z0 (execFlashReadDone t readId cls sound s) := by
  unfold execFlashReadDone
  try dsimp only
  repeat (any_goals (first | intro _ | with_reducible assumption | with_reducible refine run_frame ?_ ?_ | with_reducible refine flashReadDone_frame ?_ | with_reducible apply FrameOut.next | exact FrameOut.fault | with_reducible apply Frame.ite | with_reducible apply Frame.iteFst | with_reducible apply FrameOut.ite | fail_if_no_progress (with_reducible refine Frame.set ?_) | split | dsimp only | refine Frame.ofFst ?_ (by assumption) | refine Frame.ofSnd2 ?_ (by assumption) | refine FrameOpt.kept ?_ _ (by assumption) | refine FrameOut.kept ?_ _ (by assumption)))

theorem execFlashReadDeadline_frame {t : Stamp} {readId : Nat} {s : State} {pm : List Part} {z0 : State} (hk : Frame pm z0 s) (m_time : Part.time ∈ pm := by assumption) (m_bar : Part.bar ∈ pm := by assumption) (m_tier : Part.tier ∈ pm := by assumption) : FrameOut pm z0 (execFlashReadDeadline t readId s) := by
  unfold execFlashReadDeadline
  try dsimp only
  repeat (any_goals (first | intro _ | with_reducible assumption | with_reducible refine run_frame ?_ ?_ | with_reducible refine count_frame ?_ | with_reducible apply FrameOut.next | exact FrameOut.fault | with_reducible apply Frame.ite | with_reducible apply Frame.iteFst | with_reducible apply FrameOut.ite | fail_if_no_progress (with_reducible refine Frame.set ?_) | split | dsimp only | refine Frame.ofFst ?_ (by assumption) | refine Frame.ofSnd2 ?_ (by assumption) | refine FrameOpt.kept ?_ _ (by assumption) | refine FrameOut.kept ?_ _ (by assumption)))

theorem programDone_frame {t : Stamp} {id : Nat} {s : State} {pm : List Part} {z0 : State} (hk : Frame pm z0 s) (m_tier : Part.tier ∈ pm := by assumption) : Frame pm z0 (programDone t id s) := by
  unfold programDone
  try dsimp only
  repeat (any_goals (first | intro _ | with_reducible assumption | with_reducible apply foldl_frame | with_reducible apply foldl_frame_fst | with_reducible apply Frame.ite | with_reducible apply Frame.iteFst | fail_if_no_progress (with_reducible refine Frame.set ?_) | split | dsimp only | refine Frame.ofFst ?_ (by assumption) | refine Frame.ofSnd2 ?_ (by assumption) | refine FrameOpt.kept ?_ _ (by assumption) | refine FrameOut.kept ?_ _ (by assumption)))

theorem execFlashProgramDone_frame {t : Stamp} {writeId : Nat} {s : State} {pm : List Part} {z0 : State} (hk : Frame pm z0 s) (m_time : Part.time ∈ pm := by assumption) (m_tier : Part.tier ∈ pm := by assumption) : FrameOut pm z0 (execFlashProgramDone t writeId s) := by
  unfold execFlashProgramDone
  try dsimp only
  repeat (any_goals (first | intro _ | with_reducible assumption | with_reducible refine run_frame ?_ ?_ | with_reducible refine programDone_frame ?_ | with_reducible apply FrameOut.next | exact FrameOut.fault | with_reducible apply Frame.ite | with_reducible apply Frame.iteFst | with_reducible apply FrameOut.ite | fail_if_no_progress (with_reducible refine Frame.set ?_) | split | dsimp only | refine Frame.ofFst ?_ (by assumption) | refine Frame.ofSnd2 ?_ (by assumption) | refine FrameOpt.kept ?_ _ (by assumption) | refine FrameOut.kept ?_ _ (by assumption)))

theorem execFlashProgramFail_frame {t : Stamp} {block : Nat} {s : State} {pm : List Part} {z0 : State} (hk : Frame pm z0 s) (m_time : Part.time ∈ pm := by assumption) (m_tier : Part.tier ∈ pm := by assumption) (m_fault : Part.fault ∈ pm := by assumption) (m_out : Part.out ∈ pm := by assumption) : FrameOut pm z0 (execFlashProgramFail t block s) := by
  unfold execFlashProgramFail
  try dsimp only
  repeat (any_goals (first | intro _ | with_reducible assumption | with_reducible refine run_frame ?_ ?_ | with_reducible refine retireBlock_frame ?_ | with_reducible refine logErr_frame ?_ | with_reducible apply FrameOut.next | exact FrameOut.fault | with_reducible apply Frame.ite | with_reducible apply Frame.iteFst | with_reducible apply FrameOut.ite | fail_if_no_progress (with_reducible refine Frame.set ?_) | split | dsimp only | refine Frame.ofFst ?_ (by assumption) | refine Frame.ofSnd2 ?_ (by assumption) | refine FrameOpt.kept ?_ _ (by assumption) | refine FrameOut.kept ?_ _ (by assumption)))

theorem execFlashEraseFail_frame {t : Stamp} {block : Nat} {s : State} {pm : List Part} {z0 : State} (hk : Frame pm z0 s) (m_time : Part.time ∈ pm := by assumption) (m_tier : Part.tier ∈ pm := by assumption) (m_fault : Part.fault ∈ pm := by assumption) (m_out : Part.out ∈ pm := by assumption) : FrameOut pm z0 (execFlashEraseFail t block s) := by
  unfold execFlashEraseFail
  try dsimp only
  repeat (any_goals (first | intro _ | with_reducible assumption | with_reducible refine run_frame ?_ ?_ | with_reducible refine retireBlock_frame ?_ | with_reducible refine logErr_frame ?_ | with_reducible apply FrameOut.next | exact FrameOut.fault | with_reducible apply Frame.ite | with_reducible apply Frame.iteFst | with_reducible apply FrameOut.ite | fail_if_no_progress (with_reducible refine Frame.set ?_) | split | dsimp only | refine Frame.ofFst ?_ (by assumption) | refine Frame.ofSnd2 ?_ (by assumption) | refine FrameOpt.kept ?_ _ (by assumption) | refine FrameOut.kept ?_ _ (by assumption)))

theorem execReadDisturbRelocate_frame {t : Stamp} {block : Nat} {s : State} {pm : List Part} {z0 : State} (hk : Frame pm z0 s) (m_time : Part.time ∈ pm := by assumption) (m_tier : Part.tier ∈ pm := by assumption) (m_fault : Part.fault ∈ pm := by assumption) (m_out : Part.out ∈ pm := by assumption) : FrameOut pm z0 (execReadDisturbRelocate t block s) := by
  unfold execReadDisturbRelocate
  try dsimp only
  repeat (any_goals (first | intro _ | with_reducible assumption | with_reducible refine run_frame ?_ ?_ | with_reducible refine relocate_frame ?_ | with_reducible apply FrameOut.next | exact FrameOut.fault | with_reducible apply Frame.ite | with_reducible apply Frame.iteFst | with_reducible apply FrameOut.ite | fail_if_no_progress (with_reducible refine Frame.set ?_) | split | dsimp only | refine Frame.ofFst ?_ (by assumption) | refine Frame.ofSnd2 ?_ (by assumption) | refine FrameOpt.kept ?_ _ (by assumption) | refine FrameOut.kept ?_ _ (by assumption)))

theorem execRetentionRewrite_frame {t : Stamp} {block : Nat} {s : State} {pm : List Part} {z0 : State} (hk : Frame pm z0 s) (m_time : Part.time ∈ pm := by assumption) (m_tier : Part.tier ∈ pm := by assumption) (m_fault : Part.fault ∈ pm := by assumption) (m_out : Part.out ∈ pm := by assumption) : FrameOut pm z0 (execRetentionRewrite t block s) := by
  unfold execRetentionRewrite
  try dsimp only
  repeat (any_goals (first | intro _ | with_reducible assumption | with_reducible refine run_frame ?_ ?_ | with_reducible refine relocate_frame ?_ | with_reducible apply FrameOut.next | exact FrameOut.fault | with_reducible apply Frame.ite | with_reducible apply Frame.iteFst | with_reducible apply FrameOut.ite | fail_if_no_progress (with_reducible refine Frame.set ?_) | split | dsimp only | refine Frame.ofFst ?_ (by assumption) | refine Frame.ofSnd2 ?_ (by assumption) | refine FrameOpt.kept ?_ _ (by assumption) | refine FrameOut.kept ?_ _ (by assumption)))

theorem execWearLevel_frame {t : Stamp} {block : Nat} {s : State} {pm : List Part} {z0 : State} (hk : Frame pm z0 s) (m_time : Part.time ∈ pm := by assumption) (m_tier : Part.tier ∈ pm := by assumption) (m_fault : Part.fault ∈ pm := by assumption) (m_out : Part.out ∈ pm := by assumption) : FrameOut pm z0 (execWearLevel t block s) := by
  unfold execWearLevel
  try dsimp only
  repeat (any_goals (first | intro _ | with_reducible assumption | with_reducible refine run_frame ?_ ?_ | with_reducible refine relocate_frame ?_ | with_reducible apply FrameOut.next | exact FrameOut.fault | with_reducible apply Frame.ite | with_reducible apply Frame.iteFst | with_reducible apply FrameOut.ite | fail_if_no_progress (with_reducible refine Frame.set ?_) | split | dsimp only | refine Frame.ofFst ?_ (by assumption) | refine Frame.ofSnd2 ?_ (by assumption) | refine FrameOpt.kept ?_ _ (by assumption) | refine FrameOut.kept ?_ _ (by assumption)))

theorem execGarbageCollect_frame {t : Stamp} {block : Nat} {s : State} {pm : List Part} {z0 : State} (hk : Frame pm z0 s) (m_time : Part.time ∈ pm := by assumption) (m_tier : Part.tier ∈ pm := by assumption) (m_fault : Part.fault ∈ pm := by assumption) (m_out : Part.out ∈ pm := by assumption) (m_fresh : Part.fresh ∈ pm := by assumption) : FrameOut pm z0 (execGarbageCollect t block s) := by
  unfold execGarbageCollect
  try dsimp only
  repeat (any_goals (first | intro _ | with_reducible assumption | with_reducible refine run_frame ?_ ?_ | with_reducible refine relocate_frame ?_ | with_reducible refine State_bump_frame ?_ | with_reducible apply FrameOut.next | exact FrameOut.fault | with_reducible apply Frame.ite | with_reducible apply Frame.iteFst | with_reducible apply FrameOut.ite | fail_if_no_progress (with_reducible refine Frame.set ?_) | split | dsimp only | refine Frame.ofFst ?_ (by assumption) | refine Frame.ofSnd2 ?_ (by assumption) | refine FrameOpt.kept ?_ _ (by assumption) | refine FrameOut.kept ?_ _ (by assumption)))

theorem execFlashWriteHold_frame {t : Stamp} {s : State} {pm : List Part} {z0 : State} (hk : Frame pm z0 s) (m_time : Part.time ∈ pm := by assumption) (m_tier : Part.tier ∈ pm := by assumption) (m_fault : Part.fault ∈ pm := by assumption) (m_out : Part.out ∈ pm := by assumption) (m_fresh : Part.fresh ∈ pm := by assumption) : FrameOut pm z0 (execFlashWriteHold t s) := by
  unfold execFlashWriteHold
  try dsimp only
  repeat (any_goals (first | intro _ | with_reducible assumption | with_reducible refine run_frame ?_ ?_ | with_reducible refine logErr_frame ?_ | with_reducible refine State_bump_frame ?_ | with_reducible apply FrameOut.next | exact FrameOut.fault | with_reducible apply Frame.ite | with_reducible apply Frame.iteFst | with_reducible apply FrameOut.ite | fail_if_no_progress (with_reducible refine Frame.set ?_) | split | dsimp only | refine Frame.ofFst ?_ (by assumption) | refine Frame.ofSnd2 ?_ (by assumption) | refine FrameOpt.kept ?_ _ (by assumption) | refine FrameOut.kept ?_ _ (by assumption)))

theorem execRelistDone_frame {t : Stamp} {s : State} {pm : List Part} {z0 : State} (hk : Frame pm z0 s) (m_time : Part.time ∈ pm := by assumption) (m_work : Part.work ∈ pm := by assumption) (m_tier : Part.tier ∈ pm := by assumption) : FrameOut pm z0 (execRelistDone t s) := by
  unfold execRelistDone
  try dsimp only
  repeat (any_goals (first | intro _ | with_reducible assumption | with_reducible refine run_frame ?_ ?_ | with_reducible refine putConv_frame ?_ | with_reducible apply foldl_frame | with_reducible apply foldl_frame_fst | with_reducible apply FrameOut.next | exact FrameOut.fault | with_reducible apply Frame.ite | with_reducible apply Frame.iteFst | with_reducible apply FrameOut.ite | fail_if_no_progress (with_reducible refine Frame.set ?_) | split | dsimp only | refine Frame.ofFst ?_ (by assumption) | refine Frame.ofSnd2 ?_ (by assumption) | refine FrameOpt.kept ?_ _ (by assumption) | refine FrameOut.kept ?_ _ (by assumption)))

theorem execZqCalibration_frame {t : Stamp} {s : State} {pm : List Part} {z0 : State} (hk : Frame pm z0 s) (m_time : Part.time ∈ pm := by assumption) (m_tier : Part.tier ∈ pm := by assumption) : FrameOut pm z0 (execZqCalibration t s) := by
  unfold execZqCalibration
  try dsimp only
  repeat (any_goals (first | intro _ | with_reducible assumption | with_reducible refine run_frame ?_ ?_ | with_reducible apply FrameOut.next | exact FrameOut.fault | with_reducible apply Frame.ite | with_reducible apply Frame.iteFst | with_reducible apply FrameOut.ite | fail_if_no_progress (with_reducible refine Frame.set ?_) | split | dsimp only | refine Frame.ofFst ?_ (by assumption) | refine Frame.ofSnd2 ?_ (by assumption) | refine FrameOpt.kept ?_ _ (by assumption) | refine FrameOut.kept ?_ _ (by assumption)))

theorem execPatrolScrub_frame {t : Stamp} {tier : Tier} {s : State} {pm : List Part} {z0 : State} (hk : Frame pm z0 s) (m_time : Part.time ∈ pm := by assumption) (m_tier : Part.tier ∈ pm := by assumption) : FrameOut pm z0 (execPatrolScrub t tier s) := by
  unfold execPatrolScrub
  try dsimp only
  repeat (any_goals (first | intro _ | with_reducible assumption | with_reducible refine run_frame ?_ ?_ | with_reducible apply FrameOut.next | exact FrameOut.fault | with_reducible apply Frame.ite | with_reducible apply Frame.iteFst | with_reducible apply FrameOut.ite | fail_if_no_progress (with_reducible refine Frame.set ?_) | split | dsimp only | refine Frame.ofFst ?_ (by assumption) | refine Frame.ofSnd2 ?_ (by assumption) | refine FrameOpt.kept ?_ _ (by assumption) | refine FrameOut.kept ?_ _ (by assumption)))

theorem discardInto_frame {s : State} {tier : Tier} {u : UnitId} {pm : List Part} {z0 : State} (hk : Frame pm z0 s) (m_bar : Part.bar ∈ pm := by assumption) (m_tier : Part.tier ∈ pm := by assumption) (m_fresh : Part.fresh ∈ pm := by assumption) : Frame pm z0 (discardInto s tier u) := by
  unfold discardInto
  try dsimp only
  repeat (any_goals (first | intro _ | with_reducible assumption | with_reducible refine restartMove_frame ?_ | with_reducible refine State_bump_frame ?_ | with_reducible apply foldl_frame | with_reducible apply foldl_frame_fst | with_reducible apply Frame.ite | with_reducible apply Frame.iteFst | fail_if_no_progress (with_reducible refine Frame.set ?_) | split | dsimp only | refine Frame.ofFst ?_ (by assumption) | refine Frame.ofSnd2 ?_ (by assumption) | refine FrameOpt.kept ?_ _ (by assumption) | refine FrameOut.kept ?_ _ (by assumption)))

theorem retireFrame_frame {s : State} {tier : Tier} {u : UnitId} {frame : Nat} {pm : List Part} {z0 : State} (hk : Frame pm z0 s) (m_bar : Part.bar ∈ pm := by assumption) (m_tier : Part.tier ∈ pm := by assumption) (m_fault : Part.fault ∈ pm := by assumption) (m_out : Part.out ∈ pm := by assumption) (m_fresh : Part.fresh ∈ pm := by assumption) : Frame pm z0 (retireFrame s tier u frame) := by
  unfold retireFrame
  try dsimp only
  repeat (any_goals (first | intro _ | with_reducible assumption | with_reducible refine discardInto_frame ?_ | with_reducible refine logErr_frame ?_ | with_reducible apply Frame.ite | with_reducible apply Frame.iteFst | fail_if_no_progress (with_reducible refine Frame.set ?_) | split | dsimp only | refine Frame.ofFst ?_ (by assumption) | refine Frame.ofSnd2 ?_ (by assumption) | refine FrameOpt.kept ?_ _ (by assumption) | refine FrameOut.kept ?_ _ (by assumption)))

theorem correctedError_frame {t : Stamp} {tier : Tier} {u : UnitId} {frame : Nat} {s : State} {pm : List Part} {z0 : State} (hk : Frame pm z0 s) (m_bar : Part.bar ∈ pm := by assumption) (m_tier : Part.tier ∈ pm := by assumption) (m_fault : Part.fault ∈ pm := by assumption) (m_out : Part.out ∈ pm := by assumption) (m_fresh : Part.fresh ∈ pm := by assumption) : Frame pm z0 (correctedError t tier u frame s) := by
  unfold correctedError
  try dsimp only
  repeat (any_goals (first | intro _ | with_reducible assumption | with_reducible refine logErr_frame ?_ | with_reducible refine retireFrame_frame ?_ | with_reducible apply Frame.ite | with_reducible apply Frame.iteFst | fail_if_no_progress (with_reducible refine Frame.set ?_) | split | dsimp only | refine Frame.ofFst ?_ (by assumption) | refine Frame.ofSnd2 ?_ (by assumption) | refine FrameOpt.kept ?_ _ (by assumption) | refine FrameOut.kept ?_ _ (by assumption)))

theorem execCorrectedError_frame {t : Stamp} {tier : Tier} {u : UnitId} {frame : Nat} {s : State} {pm : List Part} {z0 : State} (hk : Frame pm z0 s) (m_time : Part.time ∈ pm := by assumption) (m_bar : Part.bar ∈ pm := by assumption) (m_tier : Part.tier ∈ pm := by assumption) (m_fault : Part.fault ∈ pm := by assumption) (m_out : Part.out ∈ pm := by assumption) (m_fresh : Part.fresh ∈ pm := by assumption) : FrameOut pm z0 (execCorrectedError t tier u frame s) := by
  unfold execCorrectedError
  try dsimp only
  repeat (any_goals (first | intro _ | with_reducible assumption | with_reducible refine run_frame ?_ ?_ | with_reducible refine correctedError_frame ?_ | with_reducible apply FrameOut.next | exact FrameOut.fault | with_reducible apply Frame.ite | with_reducible apply Frame.iteFst | with_reducible apply FrameOut.ite | fail_if_no_progress (with_reducible refine Frame.set ?_) | split | dsimp only | refine Frame.ofFst ?_ (by assumption) | refine Frame.ofSnd2 ?_ (by assumption) | refine FrameOpt.kept ?_ _ (by assumption) | refine FrameOut.kept ?_ _ (by assumption)))

theorem uncorrectable_frame {t : Stamp} {tier : Tier} {u : UnitId} {frame : Nat} {use : LineUse} {s : State} {pm : List Part} {z0 : State} (hk : Frame pm z0 s) (m_bar : Part.bar ∈ pm := by assumption) (m_benches : Part.benches ∈ pm := by assumption) (m_plan : Part.plan ∈ pm := by assumption) (m_haul : Part.haul ∈ pm := by assumption) (m_tier : Part.tier ∈ pm := by assumption) (m_fault : Part.fault ∈ pm := by assumption) (m_out : Part.out ∈ pm := by assumption) (m_fresh : Part.fresh ∈ pm := by assumption) : Frame pm z0 (uncorrectable t tier u frame use s) := by
  unfold uncorrectable
  try dsimp only
  repeat (any_goals (first | intro _ | with_reducible assumption | with_reducible refine retireFrame_frame ?_ | with_reducible refine logErr_frame ?_ | with_reducible refine rejectPage_frame ?_ | with_reducible refine weightReject_frame ?_ | with_reducible refine deferTo_frame ?_ | with_reducible apply Frame.ite | with_reducible apply Frame.iteFst | fail_if_no_progress (with_reducible refine Frame.set ?_) | split | dsimp only | refine Frame.ofFst ?_ (by assumption) | refine Frame.ofSnd2 ?_ (by assumption) | refine FrameOpt.kept ?_ _ (by assumption) | refine FrameOut.kept ?_ _ (by assumption)))

theorem execUncorrectableError_frame {t : Stamp} {tier : Tier} {u : UnitId} {frame : Nat} {use : LineUse} {s : State} {pm : List Part} {z0 : State} (hk : Frame pm z0 s) (m_time : Part.time ∈ pm := by assumption) (m_bar : Part.bar ∈ pm := by assumption) (m_benches : Part.benches ∈ pm := by assumption) (m_plan : Part.plan ∈ pm := by assumption) (m_haul : Part.haul ∈ pm := by assumption) (m_tier : Part.tier ∈ pm := by assumption) (m_fault : Part.fault ∈ pm := by assumption) (m_out : Part.out ∈ pm := by assumption) (m_fresh : Part.fresh ∈ pm := by assumption) : FrameOut pm z0 (execUncorrectableError t tier u frame use s) := by
  unfold execUncorrectableError
  try dsimp only
  repeat (any_goals (first | intro _ | with_reducible assumption | with_reducible refine run_frame ?_ ?_ | with_reducible refine uncorrectable_frame ?_ | with_reducible apply FrameOut.next | exact FrameOut.fault | with_reducible apply Frame.ite | with_reducible apply Frame.iteFst | with_reducible apply FrameOut.ite | fail_if_no_progress (with_reducible refine Frame.set ?_) | split | dsimp only | refine Frame.ofFst ?_ (by assumption) | refine Frame.ofSnd2 ?_ (by assumption) | refine FrameOpt.kept ?_ _ (by assumption) | refine FrameOut.kept ?_ _ (by assumption)))

theorem tableLost_frame {s : State} {k : Nat} {n : Nat} {pm : List Part} {z0 : State} (hk : Frame pm z0 s) (m_bar : Part.bar ∈ pm := by assumption) (m_benches : Part.benches ∈ pm := by assumption) (m_work : Part.work ∈ pm := by assumption) (m_tier : Part.tier ∈ pm := by assumption) (m_fault : Part.fault ∈ pm := by assumption) (m_out : Part.out ∈ pm := by assumption) (m_spent : Part.spent ∈ pm := by assumption) : Frame pm z0 (tableLost s k n) := by
  unfold tableLost
  try dsimp only
  repeat (any_goals (first | intro _ | with_reducible assumption | with_reducible refine recover_frame ?_ | with_reducible refine modConv_frame ?_ | with_reducible refine dropGroups_frame ?_ | with_reducible refine delConv_frame ?_ | with_reducible apply Frame.ite | with_reducible apply Frame.iteFst | fail_if_no_progress (with_reducible refine Frame.set ?_) | split | dsimp only | refine Frame.ofFst ?_ (by assumption) | refine Frame.ofSnd2 ?_ (by assumption) | refine FrameOpt.kept ?_ _ (by assumption) | refine FrameOut.kept ?_ _ (by assumption)))

theorem retiredSlices_frame {s : State} {pm : List Part} {z0 : State} (hk : Frame pm z0 s) (m_benches : Part.benches ∈ pm := by assumption) (m_plan : Part.plan ∈ pm := by assumption) : Frame pm z0 (retiredSlices s) := by
  unfold retiredSlices
  try dsimp only
  repeat (any_goals (first | intro _ | with_reducible assumption | with_reducible refine haltShort_frame ?_ | with_reducible refine lowerBudgets_frame ?_ | with_reducible apply foldl_frame | with_reducible apply foldl_frame_fst | with_reducible apply Frame.ite | with_reducible apply Frame.iteFst | fail_if_no_progress (with_reducible refine Frame.set ?_) | split | dsimp only | refine Frame.ofFst ?_ (by assumption) | refine Frame.ofSnd2 ?_ (by assumption) | refine FrameOpt.kept ?_ _ (by assumption) | refine FrameOut.kept ?_ _ (by assumption)))

theorem tileRejects_frame {s : State} {b : Nat} {p : Package} {pm : List Part} {z0 : State} (hk : Frame pm z0 s) (m_bar : Part.bar ∈ pm := by assumption) (m_fault : Part.fault ∈ pm := by assumption) (m_out : Part.out ∈ pm := by assumption) : Frame pm z0 (tileRejects s b p) := by
  unfold tileRejects
  try dsimp only
  repeat (any_goals (first | intro _ | with_reducible assumption | with_reducible refine logErr_frame ?_ | with_reducible refine count_frame ?_ | with_reducible apply foldl_frame | with_reducible apply foldl_frame_fst | with_reducible apply Frame.ite | with_reducible apply Frame.iteFst | fail_if_no_progress (with_reducible refine Frame.set ?_) | split | dsimp only | refine Frame.ofFst ?_ (by assumption) | refine Frame.ofSnd2 ?_ (by assumption) | refine FrameOpt.kept ?_ _ (by assumption) | refine FrameOut.kept ?_ _ (by assumption)))

theorem closeMeter_frame {s : State} {b : Nat} {reason : Nat} {pm : List Part} {z0 : State} (hk : Frame pm z0 s) (m_mgmt : Part.mgmt ∈ pm := by assumption) : Frame pm z0 (closeMeter s b reason) := by
  unfold closeMeter
  try dsimp only
  repeat (any_goals (first | intro _ | with_reducible assumption | with_reducible apply Frame.ite | with_reducible apply Frame.iteFst | fail_if_no_progress (with_reducible refine Frame.set ?_) | split | dsimp only | refine Frame.ofFst ?_ (by assumption) | refine Frame.ofSnd2 ?_ (by assumption) | refine FrameOpt.kept ?_ _ (by assumption) | refine FrameOut.kept ?_ _ (by assumption)))

theorem parkAll_frame {s : State} {b : Nat} {pm : List Part} {z0 : State} (hk : Frame pm z0 s) (m_work : Part.work ∈ pm := by assumption) (m_tier : Part.tier ∈ pm := by assumption) (m_out : Part.out ∈ pm := by assumption) (m_spent : Part.spent ∈ pm := by assumption) : Frame pm z0 (parkAll s b) := by
  unfold parkAll
  try dsimp only
  repeat (any_goals (first | intro _ | with_reducible assumption | with_reducible refine parkInPlace_frame ?_ | with_reducible apply foldl_frame | with_reducible apply foldl_frame_fst | with_reducible apply Frame.ite | with_reducible apply Frame.iteFst | fail_if_no_progress (with_reducible refine Frame.set ?_) | split | dsimp only | refine Frame.ofFst ?_ (by assumption) | refine Frame.ofSnd2 ?_ (by assumption) | refine FrameOpt.kept ?_ _ (by assumption) | refine FrameOut.kept ?_ _ (by assumption)))

theorem endAll_frame {s : State} {b : Nat} {n : Nat} {pm : List Part} {z0 : State} (hk : Frame pm z0 s) (m_bar : Part.bar ∈ pm := by assumption) (m_benches : Part.benches ∈ pm := by assumption) (m_work : Part.work ∈ pm := by assumption) (m_plan : Part.plan ∈ pm := by assumption) (m_haul : Part.haul ∈ pm := by assumption) (m_tier : Part.tier ∈ pm := by assumption) (m_out : Part.out ∈ pm := by assumption) (m_spent : Part.spent ∈ pm := by assumption) : Frame pm z0 (endAll s b n) := by
  unfold endAll
  try dsimp only
  repeat (any_goals (first | intro _ | with_reducible assumption | with_reducible refine endReq_frame ?_ | with_reducible apply foldl_frame | with_reducible apply foldl_frame_fst | with_reducible apply Frame.ite | with_reducible apply Frame.iteFst | fail_if_no_progress (with_reducible refine Frame.set ?_) | split | dsimp only | refine Frame.ofFst ?_ (by assumption) | refine Frame.ofSnd2 ?_ (by assumption) | refine FrameOpt.kept ?_ _ (by assumption) | refine FrameOut.kept ?_ _ (by assumption)))

theorem becomeEmpty_frame {s : State} {b : Nat} {n : Nat} {pm : List Part} {z0 : State} (hk : Frame pm z0 s) (m_host : Part.host ∈ pm := by assumption) (m_benches : Part.benches ∈ pm := by assumption) (m_mgmt : Part.mgmt ∈ pm := by assumption) : Frame pm z0 (becomeEmpty s b n) := by
  unfold becomeEmpty
  try dsimp only
  repeat (any_goals (first | intro _ | with_reducible assumption | with_reducible refine due_frame ?_ | with_reducible refine setBench_frame ?_ | with_reducible refine closeMeter_frame ?_ | with_reducible apply foldl_frame | with_reducible apply foldl_frame_fst | with_reducible apply Frame.ite | with_reducible apply Frame.iteFst | fail_if_no_progress (with_reducible refine Frame.set ?_) | split | dsimp only | refine Frame.ofFst ?_ (by assumption) | refine Frame.ofSnd2 ?_ (by assumption) | refine FrameOpt.kept ?_ _ (by assumption) | refine FrameOut.kept ?_ _ (by assumption)))

theorem applyLoad_frame {c : Cpl} {d : HostDesc} {n : Nat} {s : State} {pm : List Part} {z0 : State} (hk : Frame pm z0 s) (m_host : Part.host ∈ pm := by assumption) (m_benches : Part.benches ∈ pm := by assumption) : Frame pm z0 (applyLoad c d n s) := by
  unfold applyLoad
  try dsimp only
  repeat (any_goals (first | intro _ | with_reducible assumption | with_reducible refine due_frame ?_ | with_reducible refine setBench_frame ?_ | with_reducible apply Frame.ite | with_reducible apply Frame.iteFst | fail_if_no_progress (with_reducible refine Frame.set ?_) | split | dsimp only | refine Frame.ofFst ?_ (by assumption) | refine Frame.ofSnd2 ?_ (by assumption) | refine FrameOpt.kept ?_ _ (by assumption) | refine FrameOut.kept ?_ _ (by assumption)))

theorem applyUnload_frame {c : Cpl} {d : HostDesc} {n : Nat} {s : State} {pm : List Part} {z0 : State} (hk : Frame pm z0 s) (m_host : Part.host ∈ pm := by assumption) (m_benches : Part.benches ∈ pm := by assumption) (m_fault : Part.fault ∈ pm := by assumption) (m_mgmt : Part.mgmt ∈ pm := by assumption) (m_out : Part.out ∈ pm := by assumption) : Frame pm z0 (applyUnload c d n s) := by
  unfold applyUnload
  try dsimp only
  repeat (any_goals (first | intro _ | with_reducible assumption | with_reducible refine due_frame ?_ | with_reducible refine logErr_frame ?_ | with_reducible refine closeMeter_frame ?_ | with_reducible refine setBench_frame ?_ | with_reducible apply Frame.ite | with_reducible apply Frame.iteFst | fail_if_no_progress (with_reducible refine Frame.set ?_) | split | dsimp only | refine Frame.ofFst ?_ (by assumption) | refine Frame.ofSnd2 ?_ (by assumption) | refine FrameOpt.kept ?_ _ (by assumption) | refine FrameOut.kept ?_ _ (by assumption)))

theorem loadComplete_frame {s : State} {b : Nat} {p : Package} {n : Nat} {pm : List Part} {z0 : State} (hk : Frame pm z0 s) (m_bar : Part.bar ∈ pm := by assumption) (m_host : Part.host ∈ pm := by assumption) (m_benches : Part.benches ∈ pm := by assumption) (m_fault : Part.fault ∈ pm := by assumption) (m_mgmt : Part.mgmt ∈ pm := by assumption) (m_out : Part.out ∈ pm := by assumption) : Frame pm z0 (loadComplete s b p n) := by
  unfold loadComplete
  try dsimp only
  repeat (any_goals (first | intro _ | with_reducible assumption | with_reducible refine tileRejects_frame ?_ | with_reducible refine setBench_frame ?_ | with_reducible refine logErr_frame ?_ | with_reducible refine closeMeter_frame ?_ | with_reducible refine due_frame ?_ | with_reducible apply Frame.ite | with_reducible apply Frame.iteFst | fail_if_no_progress (with_reducible refine Frame.set ?_) | split | dsimp only | refine Frame.ofFst ?_ (by assumption) | refine Frame.ofSnd2 ?_ (by assumption) | refine FrameOpt.kept ?_ _ (by assumption) | refine FrameOut.kept ?_ _ (by assumption)))

theorem releaseDone_frame {s : State} {b : Nat} {n : Nat} {pm : List Part} {z0 : State} (hk : Frame pm z0 s) (m_host : Part.host ∈ pm := by assumption) (m_benches : Part.benches ∈ pm := by assumption) (m_mgmt : Part.mgmt ∈ pm := by assumption) : Frame pm z0 (releaseDone s b n) := by
  unfold releaseDone
  try dsimp only
  repeat (any_goals (first | intro _ | with_reducible assumption | with_reducible refine becomeEmpty_frame ?_ | with_reducible apply Frame.ite | with_reducible apply Frame.iteFst | fail_if_no_progress (with_reducible refine Frame.set ?_) | split | dsimp only | refine Frame.ofFst ?_ (by assumption) | refine Frame.ofSnd2 ?_ (by assumption) | refine FrameOpt.kept ?_ _ (by assumption) | refine FrameOut.kept ?_ _ (by assumption)))

theorem drainStep_frame {s : State} {n : Nat} {pm : List Part} {z0 : State} (hk : Frame pm z0 s) (m_bar : Part.bar ∈ pm := by assumption) (m_benches : Part.benches ∈ pm := by assumption) (m_work : Part.work ∈ pm := by assumption) (m_plan : Part.plan ∈ pm := by assumption) (m_haul : Part.haul ∈ pm := by assumption) (m_tier : Part.tier ∈ pm := by assumption) (m_out : Part.out ∈ pm := by assumption) (m_spent : Part.spent ∈ pm := by assumption) : Frame pm z0 (drainStep s n) := by
  unfold drainStep
  try dsimp only
  repeat (any_goals (first | intro _ | with_reducible assumption | with_reducible refine endAll_frame ?_ | with_reducible refine parkAll_frame ?_ | with_reducible refine setBench_frame ?_ | with_reducible apply foldl_frame | with_reducible apply foldl_frame_fst | with_reducible apply Frame.ite | with_reducible apply Frame.iteFst | fail_if_no_progress (with_reducible refine Frame.set ?_) | split | dsimp only | refine Frame.ofFst ?_ (by assumption) | refine Frame.ofSnd2 ?_ (by assumption) | refine FrameOpt.kept ?_ _ (by assumption) | refine FrameOut.kept ?_ _ (by assumption)))

theorem execModelLoad_frame {d : HostDesc} {s : State} {pm : List Part} {z0 : State} (hk : Frame pm z0 s) (m_time : Part.time ∈ pm := by assumption) (m_host : Part.host ∈ pm := by assumption) (m_benches : Part.benches ∈ pm := by assumption) (m_work : Part.work ∈ pm := by assumption) (m_haul : Part.haul ∈ pm := by assumption) (m_tier : Part.tier ∈ pm := by assumption) (m_fault : Part.fault ∈ pm := by assumption) (m_out : Part.out ∈ pm := by assumption) (m_spent : Part.spent ∈ pm := by assumption) (m_fresh : Part.fresh ∈ pm := by assumption) : FrameOut pm z0 (execModelLoad d s) := by
  unfold execModelLoad
  try dsimp only
  repeat (any_goals (first | intro _ | with_reducible assumption | with_reducible refine hostRow_frame ?_ ?_ | with_reducible refine applyLoad_frame ?_ | with_reducible apply FrameOut.next | exact FrameOut.fault | with_reducible apply Frame.ite | with_reducible apply Frame.iteFst | with_reducible apply FrameOut.ite | fail_if_no_progress (with_reducible refine Frame.set ?_) | split | dsimp only | refine Frame.ofFst ?_ (by assumption) | refine Frame.ofSnd2 ?_ (by assumption) | refine FrameOpt.kept ?_ _ (by assumption) | refine FrameOut.kept ?_ _ (by assumption)))

theorem execModelLoadReplace_frame {d : HostDesc} {s : State} {pm : List Part} {z0 : State} (hk : Frame pm z0 s) (m_time : Part.time ∈ pm := by assumption) (m_host : Part.host ∈ pm := by assumption) (m_benches : Part.benches ∈ pm := by assumption) (m_work : Part.work ∈ pm := by assumption) (m_haul : Part.haul ∈ pm := by assumption) (m_tier : Part.tier ∈ pm := by assumption) (m_fault : Part.fault ∈ pm := by assumption) (m_out : Part.out ∈ pm := by assumption) (m_spent : Part.spent ∈ pm := by assumption) (m_fresh : Part.fresh ∈ pm := by assumption) : FrameOut pm z0 (execModelLoadReplace d s) := by
  unfold execModelLoadReplace
  try dsimp only
  repeat (any_goals (first | intro _ | with_reducible assumption | with_reducible refine hostRow_frame ?_ ?_ | with_reducible refine applyLoad_frame ?_ | with_reducible apply FrameOut.next | exact FrameOut.fault | with_reducible apply Frame.ite | with_reducible apply Frame.iteFst | with_reducible apply FrameOut.ite | fail_if_no_progress (with_reducible refine Frame.set ?_) | split | dsimp only | refine Frame.ofFst ?_ (by assumption) | refine Frame.ofSnd2 ?_ (by assumption) | refine FrameOpt.kept ?_ _ (by assumption) | refine FrameOut.kept ?_ _ (by assumption)))

theorem execModelUnload_frame {d : HostDesc} {s : State} {pm : List Part} {z0 : State} (hk : Frame pm z0 s) (m_time : Part.time ∈ pm := by assumption) (m_host : Part.host ∈ pm := by assumption) (m_benches : Part.benches ∈ pm := by assumption) (m_work : Part.work ∈ pm := by assumption) (m_haul : Part.haul ∈ pm := by assumption) (m_tier : Part.tier ∈ pm := by assumption) (m_fault : Part.fault ∈ pm := by assumption) (m_mgmt : Part.mgmt ∈ pm := by assumption) (m_out : Part.out ∈ pm := by assumption) (m_spent : Part.spent ∈ pm := by assumption) (m_fresh : Part.fresh ∈ pm := by assumption) : FrameOut pm z0 (execModelUnload d s) := by
  unfold execModelUnload
  try dsimp only
  repeat (any_goals (first | intro _ | with_reducible assumption | with_reducible refine hostRow_frame ?_ ?_ | with_reducible refine applyUnload_frame ?_ | with_reducible apply FrameOut.next | exact FrameOut.fault | with_reducible apply Frame.ite | with_reducible apply Frame.iteFst | with_reducible apply FrameOut.ite | fail_if_no_progress (with_reducible refine Frame.set ?_) | split | dsimp only | refine Frame.ofFst ?_ (by assumption) | refine Frame.ofSnd2 ?_ (by assumption) | refine FrameOpt.kept ?_ _ (by assumption) | refine FrameOut.kept ?_ _ (by assumption)))

theorem execModelLoadComplete_frame {t : Stamp} {bench : Nat} {pkg : Package} {s : State} {pm : List Part} {z0 : State} (hk : Frame pm z0 s) (m_time : Part.time ∈ pm := by assumption) (m_haul : Part.haul ∈ pm := by assumption) : FrameOut pm z0 (execModelLoadComplete t bench pkg s) := by
  unfold execModelLoadComplete
  try dsimp only
  repeat (any_goals (first | intro _ | with_reducible assumption | with_reducible refine run_frame ?_ ?_ | with_reducible refine deferTo_frame ?_ | with_reducible apply FrameOut.next | exact FrameOut.fault | with_reducible apply Frame.ite | with_reducible apply Frame.iteFst | with_reducible apply FrameOut.ite | fail_if_no_progress (with_reducible refine Frame.set ?_) | split | dsimp only | refine Frame.ofFst ?_ (by assumption) | refine Frame.ofSnd2 ?_ (by assumption) | refine FrameOpt.kept ?_ _ (by assumption) | refine FrameOut.kept ?_ _ (by assumption)))

theorem execUnloadReleaseDone_frame {t : Stamp} {bench : Nat} {s : State} {pm : List Part} {z0 : State} (hk : Frame pm z0 s) (m_time : Part.time ∈ pm := by assumption) (m_haul : Part.haul ∈ pm := by assumption) : FrameOut pm z0 (execUnloadReleaseDone t bench s) := by
  unfold execUnloadReleaseDone
  try dsimp only
  repeat (any_goals (first | intro _ | with_reducible assumption | with_reducible refine run_frame ?_ ?_ | with_reducible refine deferTo_frame ?_ | with_reducible apply FrameOut.next | exact FrameOut.fault | with_reducible apply Frame.ite | with_reducible apply Frame.iteFst | with_reducible apply FrameOut.ite | fail_if_no_progress (with_reducible refine Frame.set ?_) | split | dsimp only | refine Frame.ofFst ?_ (by assumption) | refine Frame.ofSnd2 ?_ (by assumption) | refine FrameOpt.kept ?_ _ (by assumption) | refine FrameOut.kept ?_ _ (by assumption)))

theorem execDrainLimitExpiry_frame {t : Stamp} {bench : Nat} {s : State} {pm : List Part} {z0 : State} (hk : Frame pm z0 s) (m_time : Part.time ∈ pm := by assumption) (m_bar : Part.bar ∈ pm := by assumption) (m_host : Part.host ∈ pm := by assumption) (m_benches : Part.benches ∈ pm := by assumption) (m_work : Part.work ∈ pm := by assumption) (m_plan : Part.plan ∈ pm := by assumption) (m_haul : Part.haul ∈ pm := by assumption) (m_tier : Part.tier ∈ pm := by assumption) (m_fault : Part.fault ∈ pm := by assumption) (m_out : Part.out ∈ pm := by assumption) (m_spent : Part.spent ∈ pm := by assumption) (m_fresh : Part.fresh ∈ pm := by assumption) : FrameOut pm z0 (execDrainLimitExpiry t bench s) := by
  unfold execDrainLimitExpiry
  try dsimp only
  repeat (any_goals (first | intro _ | with_reducible assumption | with_reducible refine run_frame ?_ ?_ | with_reducible refine settle_frame ?_ ?_ | with_reducible refine drainStep_frame ?_ | with_reducible apply FrameOut.next | exact FrameOut.fault | with_reducible apply Frame.ite | with_reducible apply Frame.iteFst | with_reducible apply FrameOut.ite | fail_if_no_progress (with_reducible refine Frame.set ?_) | split | dsimp only | refine Frame.ofFst ?_ (by assumption) | refine Frame.ofSnd2 ?_ (by assumption) | refine FrameOpt.kept ?_ _ (by assumption) | refine FrameOut.kept ?_ _ (by assumption)))

theorem putShard_frame {s : State} {i : Nat} {x : Shard} {pm : List Part} {z0 : State} (hk : Frame pm z0 s) (m_shards : Part.shards ∈ pm := by assumption) : Frame pm z0 (putShard s i x) := by
  unfold putShard
  try dsimp only
  repeat (any_goals (first | intro _ | with_reducible assumption | with_reducible apply Frame.ite | with_reducible apply Frame.iteFst | fail_if_no_progress (with_reducible refine Frame.set ?_) | split | dsimp only | refine Frame.ofFst ?_ (by assumption) | refine Frame.ofSnd2 ?_ (by assumption) | refine FrameOpt.kept ?_ _ (by assumption) | refine FrameOut.kept ?_ _ (by assumption)))

theorem modShard_frame {s : State} {i : Nat} {f : Shard → Shard} {pm : List Part} {z0 : State} (hk : Frame pm z0 s) (m_shards : Part.shards ∈ pm := by assumption) : Frame pm z0 (modShard s i f) := by
  unfold modShard
  try dsimp only
  repeat (any_goals (first | intro _ | with_reducible assumption | with_reducible apply Frame.ite | with_reducible apply Frame.iteFst | fail_if_no_progress (with_reducible refine Frame.set ?_) | split | dsimp only | refine Frame.ofFst ?_ (by assumption) | refine Frame.ofSnd2 ?_ (by assumption) | refine FrameOpt.kept ?_ _ (by assumption) | refine FrameOut.kept ?_ _ (by assumption)))

theorem applyVecInsert_frame {pm : List Part} {c : Cpl} {d : HostDesc} {n : Nat} {s : State} {z0 : State} (hk : Frame pm z0 s) (m_host : Part.host ∈ pm := by assumption) (m_shards : Part.shards ∈ pm := by assumption) : Frame pm z0 (applyVecInsert c d n s) := by
  unfold applyVecInsert
  extract_lets r id i no
  have hno : ∀ st, Frame pm z0 (no st) := fun st => due_frame hk
  clear_value no
  refine Frame.ite (hno _) ?_
  split
  · exact hno _
  · exact hno _
  · dsimp only
    repeat (any_goals (first | with_reducible exact hno _ | with_reducible exact due_frame (putShard_frame hk) | with_reducible refine due_frame ?_ | with_reducible refine putShard_frame ?_ | with_reducible assumption | with_reducible refine Frame.ite (hno _) ?_ | split | dsimp only))

theorem applyVecDelete_frame {c : Cpl} {d : HostDesc} {n : Nat} {s : State} {pm : List Part} {z0 : State} (hk : Frame pm z0 s) (m_host : Part.host ∈ pm := by assumption) (m_shards : Part.shards ∈ pm := by assumption) : Frame pm z0 (applyVecDelete c d n s) := by
  unfold applyVecDelete
  try dsimp only
  repeat (any_goals (first | intro _ | with_reducible assumption | with_reducible refine due_frame ?_ | with_reducible refine putShard_frame ?_ | with_reducible apply Frame.ite | with_reducible apply Frame.iteFst | fail_if_no_progress (with_reducible refine Frame.set ?_) | split | dsimp only | refine Frame.ofFst ?_ (by assumption) | refine Frame.ofSnd2 ?_ (by assumption) | refine FrameOpt.kept ?_ _ (by assumption) | refine FrameOut.kept ?_ _ (by assumption)))

theorem sendSegs_frame {s : State} {b : Nat} {dst : ModuleId} {l : List VecSeg} {pm : List Part} {z0 : State} (hk : Frame pm z0 s) (m_out : Part.out ∈ pm := by assumption) (m_spent : Part.spent ∈ pm := by assumption) : Frame pm z0 (sendSegs s b dst l) := by
  unfold sendSegs
  try dsimp only
  repeat (any_goals (first | intro _ | with_reducible assumption | with_reducible refine send_frame ?_ | with_reducible apply foldl_frame | with_reducible apply foldl_frame_fst | with_reducible apply Frame.ite | with_reducible apply Frame.iteFst | fail_if_no_progress (with_reducible refine Frame.set ?_) | split | dsimp only | refine Frame.ofFst ?_ (by assumption) | refine Frame.ofSnd2 ?_ (by assumption) | refine FrameOpt.kept ?_ _ (by assumption) | refine FrameOut.kept ?_ _ (by assumption)))

theorem freeCopies_frame {s : State} {b : Nat} {i : Nat} {x : Shard} {pm : List Part} {z0 : State} (hk : Frame pm z0 s) (m_out : Part.out ∈ pm := by assumption) (m_spent : Part.spent ∈ pm := by assumption) : Frame pm z0 (freeCopies s b i x) := by
  unfold freeCopies
  try dsimp only
  repeat (any_goals (first | intro _ | with_reducible assumption | with_reducible refine send_frame ?_ | with_reducible apply foldl_frame | with_reducible apply foldl_frame_fst | with_reducible apply Frame.ite | with_reducible apply Frame.iteFst | fail_if_no_progress (with_reducible refine Frame.set ?_) | split | dsimp only | refine Frame.ofFst ?_ (by assumption) | refine Frame.ofSnd2 ?_ (by assumption) | refine FrameOpt.kept ?_ _ (by assumption) | refine FrameOut.kept ?_ _ (by assumption)))

theorem applyVecMerge_frame {pm : List Part} {c : Cpl} {d : HostDesc} {n : Nat} {s : State} {z0 : State} (hk : Frame pm z0 s) (m_bar : Part.bar ∈ pm := by assumption) (m_host : Part.host ∈ pm := by assumption) (m_shards : Part.shards ∈ pm := by assumption) (m_fault : Part.fault ∈ pm := by assumption) (m_sec : Part.sec ∈ pm := by assumption) (m_out : Part.out ∈ pm := by assumption) (m_spent : Part.spent ∈ pm := by assumption) (m_fresh : Part.fresh ∈ pm := by assumption) : Frame pm z0 (applyVecMerge c d n s) := by
  unfold applyVecMerge
  extract_lets r op i target tb no fields
  have hno : ∀ st, Frame pm z0 (no st) := fun st => due_frame hk
  clear_value no fields
  refine Frame.ite (hno _) ?_
  split
  · exact hno _
  · refine Frame.ite ?_ ?_
    · split
      · repeat (first | exact hno _ | exact putShard_frame hk | exact due_frame (logErr_frame (count_frame hk)) | refine Frame.ite (hno _) ?_ | refine Frame.ite (due_frame (logErr_frame (count_frame hk))) ?_)
      · exact hno _
    · split
      · exact hno _
      · repeat (any_goals (first | with_reducible exact hno _ | with_reducible exact hk | with_reducible refine putShard_frame ?_ | with_reducible refine due_frame ?_ | with_reducible refine send_frame ?_ | with_reducible refine sendSegs_frame ?_ | with_reducible refine makeKey_frame ?_ | with_reducible refine freeCopies_frame ?_ | with_reducible refine count_frame ?_ | with_reducible refine logErr_frame ?_ | intro _ | with_reducible apply foldl_frame | with_reducible assumption | fail_if_no_progress (with_reducible refine Frame.set ?_) | with_reducible apply Frame.ite | dsimp only | split))

theorem shardReady_frame {s : State} {i : Nat} {n : Nat} {restore : Bool} {pm : List Part} {z0 : State} (hk : Frame pm z0 s) (m_host : Part.host ∈ pm := by assumption) (m_shards : Part.shards ∈ pm := by assumption) : Frame pm z0 (shardReady s i n restore) := by
  unfold shardReady
  try dsimp only
  repeat (any_goals (first | intro _ | with_reducible assumption | with_reducible refine due_frame ?_ | with_reducible refine putShard_frame ?_ | with_reducible apply Frame.ite | with_reducible apply Frame.iteFst | fail_if_no_progress (with_reducible refine Frame.set ?_) | split | dsimp only | refine Frame.ofFst ?_ (by assumption) | refine Frame.ofSnd2 ?_ (by assumption) | refine FrameOpt.kept ?_ _ (by assumption) | refine FrameOut.kept ?_ _ (by assumption)))

theorem replicateReady_frame {s : State} {i : Nat} {target : ModuleId} {n : Nat} {pm : List Part} {z0 : State} (hk : Frame pm z0 s) (m_host : Part.host ∈ pm := by assumption) (m_shards : Part.shards ∈ pm := by assumption) : Frame pm z0 (replicateReady s i target n) := by
  unfold replicateReady
  try dsimp only
  repeat (any_goals (first | intro _ | with_reducible assumption | with_reducible refine due_frame ?_ | with_reducible refine putShard_frame ?_ | with_reducible apply Frame.ite | with_reducible apply Frame.iteFst | fail_if_no_progress (with_reducible refine Frame.set ?_) | split | dsimp only | refine Frame.ofFst ?_ (by assumption) | refine Frame.ofSnd2 ?_ (by assumption) | refine FrameOpt.kept ?_ _ (by assumption) | refine FrameOut.kept ?_ _ (by assumption)))

theorem sealShard_frame {n : Nat} {s : State} {x : Nat × Shard} {pm : List Part} {z0 : State} (hk : Frame pm z0 s) (m_host : Part.host ∈ pm := by assumption) (m_shards : Part.shards ∈ pm := by assumption) (m_out : Part.out ∈ pm := by assumption) (m_spent : Part.spent ∈ pm := by assumption) (m_fresh : Part.fresh ∈ pm := by assumption) : Frame pm z0 (sealShard n s x) := by
  unfold sealShard
  try dsimp only
  repeat (any_goals (first | intro _ | with_reducible assumption | with_reducible refine due_frame ?_ | with_reducible refine State_bump_frame ?_ | with_reducible refine sendSegs_frame ?_ | with_reducible refine putShard_frame ?_ | with_reducible apply foldl_frame | with_reducible apply foldl_frame_fst | with_reducible apply Frame.ite | with_reducible apply Frame.iteFst | fail_if_no_progress (with_reducible refine Frame.set ?_) | split | dsimp only | refine Frame.ofFst ?_ (by assumption) | refine Frame.ofSnd2 ?_ (by assumption) | refine FrameOpt.kept ?_ _ (by assumption) | refine FrameOut.kept ?_ _ (by assumption)))

theorem sealShards_frame {s : State} {n : Nat} {pm : List Part} {z0 : State} (hk : Frame pm z0 s) (m_host : Part.host ∈ pm := by assumption) (m_shards : Part.shards ∈ pm := by assumption) (m_out : Part.out ∈ pm := by assumption) (m_spent : Part.spent ∈ pm := by assumption) (m_fresh : Part.fresh ∈ pm := by assumption) : Frame pm z0 (sealShards s n) := by
  unfold sealShards
  try dsimp only
  repeat (any_goals (first | intro _ | with_reducible assumption | with_reducible refine sealShard_frame ?_ | with_reducible apply foldl_frame | with_reducible apply foldl_frame_fst | with_reducible apply Frame.ite | with_reducible apply Frame.iteFst | fail_if_no_progress (with_reducible refine Frame.set ?_) | split | dsimp only | refine Frame.ofFst ?_ (by assumption) | refine Frame.ofSnd2 ?_ (by assumption) | refine FrameOpt.kept ?_ _ (by assumption) | refine FrameOut.kept ?_ _ (by assumption)))

theorem applyVecSearch_frame {c : Cpl} {d : HostDesc} {n : Nat} {s : State} {pm : List Part} {z0 : State} (hk : Frame pm z0 s) (m_host : Part.host ∈ pm := by assumption) (m_plan : Part.plan ∈ pm := by assumption) (m_fresh : Part.fresh ∈ pm := by assumption) : Frame pm z0 (applyVecSearch c d n s) := by
  unfold applyVecSearch
  try dsimp only
  repeat (any_goals (first | intro _ | with_reducible assumption | with_reducible refine due_frame ?_ | with_reducible refine State_bump_frame ?_ | with_reducible apply Frame.ite | with_reducible apply Frame.iteFst | fail_if_no_progress (with_reducible refine Frame.set ?_) | split | dsimp only | refine Frame.ofFst ?_ (by assumption) | refine Frame.ofSnd2 ?_ (by assumption) | refine FrameOpt.kept ?_ _ (by assumption) | refine FrameOut.kept ?_ _ (by assumption)))

theorem sendVecAsks_frame {s : State} {kind : Nat} {b : Nat} {l : List (ModuleId × VecEntry)} {pm : List Part} {z0 : State} (hk : Frame pm z0 s) (m_out : Part.out ∈ pm := by assumption) (m_spent : Part.spent ∈ pm := by assumption) : Frame pm z0 (sendVecAsks s kind b l) := by
  unfold sendVecAsks
  try dsimp only
  repeat (any_goals (first | intro _ | with_reducible assumption | with_reducible refine send_frame ?_ | with_reducible apply foldl_frame | with_reducible apply foldl_frame_fst | with_reducible apply Frame.ite | with_reducible apply Frame.iteFst | fail_if_no_progress (with_reducible refine Frame.set ?_) | split | dsimp only | refine Frame.ofFst ?_ (by assumption) | refine Frame.ofSnd2 ?_ (by assumption) | refine FrameOpt.kept ?_ _ (by assumption) | refine FrameOut.kept ?_ _ (by assumption)))

theorem countQuery_frame {s : State} {i : Nat} {fmt : Nat} {q : List (BitVec 16)} {pm : List Part} {z0 : State} (hk : Frame pm z0 s) (m_bar : Part.bar ∈ pm := by assumption) : Frame pm z0 (countQuery s i fmt q) := by
  unfold countQuery
  try dsimp only
  repeat (any_goals (first | intro _ | with_reducible assumption | with_reducible refine countHalf_frame ?_ | with_reducible apply Frame.ite | with_reducible apply Frame.iteFst | fail_if_no_progress (with_reducible refine Frame.set ?_) | split | dsimp only | refine Frame.ofFst ?_ (by assumption) | refine Frame.ofSnd2 ?_ (by assumption) | refine FrameOpt.kept ?_ _ (by assumption) | refine FrameOut.kept ?_ _ (by assumption)))

theorem startSearches_frame {s : State} {pm : List Part} {z0 : State} (hk : Frame pm z0 s) (m_bar : Part.bar ∈ pm := by assumption) (m_plan : Part.plan ∈ pm := by assumption) (m_out : Part.out ∈ pm := by assumption) (m_spent : Part.spent ∈ pm := by assumption) : Frame pm z0 (startSearches s) := by
  unfold startSearches
  try dsimp only
  repeat (any_goals (first | intro _ | with_reducible assumption | with_reducible refine countQuery_frame ?_ | with_reducible refine sendVecAsks_frame ?_ | with_reducible apply foldl_frame | with_reducible apply foldl_frame_fst | with_reducible apply Frame.ite | with_reducible apply Frame.iteFst | fail_if_no_progress (with_reducible refine Frame.set ?_) | split | dsimp only | refine Frame.ofFst ?_ (by assumption) | refine Frame.ofSnd2 ?_ (by assumption) | refine FrameOpt.kept ?_ _ (by assumption) | refine FrameOut.kept ?_ _ (by assumption)))

theorem vecBackstop_frame {s : State} {pm : List Part} {z0 : State} (hk : Frame pm z0 s) (m_bar : Part.bar ∈ pm := by assumption) (m_out : Part.out ∈ pm := by assumption) (m_spent : Part.spent ∈ pm := by assumption) : Frame pm z0 (vecBackstop s) := by
  unfold vecBackstop
  try dsimp only
  repeat (any_goals (first | intro _ | with_reducible assumption | with_reducible refine sendVecAsks_frame ?_ | with_reducible refine count_frame ?_ | with_reducible apply foldl_frame | with_reducible apply foldl_frame_fst | with_reducible apply Frame.ite | with_reducible apply Frame.iteFst | fail_if_no_progress (with_reducible refine Frame.set ?_) | split | dsimp only | refine Frame.ofFst ?_ (by assumption) | refine Frame.ofSnd2 ?_ (by assumption) | refine FrameOpt.kept ?_ _ (by assumption) | refine FrameOut.kept ?_ _ (by assumption)))

theorem finishSearches_frame {s : State} {n : Nat} {pm : List Part} {z0 : State} (hk : Frame pm z0 s) (m_bar : Part.bar ∈ pm := by assumption) (m_host : Part.host ∈ pm := by assumption) (m_plan : Part.plan ∈ pm := by assumption) (m_out : Part.out ∈ pm := by assumption) : Frame pm z0 (finishSearches s n) := by
  unfold finishSearches
  try dsimp only
  repeat (any_goals (first | intro _ | with_reducible assumption | with_reducible refine due_frame ?_ | with_reducible refine cplWrite_frame ?_ | with_reducible refine count_frame ?_ | with_reducible apply foldl_frame | with_reducible apply foldl_frame_fst | with_reducible apply Frame.ite | with_reducible apply Frame.iteFst | fail_if_no_progress (with_reducible refine Frame.set ?_) | split | dsimp only | refine Frame.ofFst ?_ (by assumption) | refine Frame.ofSnd2 ?_ (by assumption) | refine FrameOpt.kept ?_ _ (by assumption) | refine FrameOut.kept ?_ _ (by assumption)))

theorem answerVec_frame {n : Nat} {s : State} {e : VecEntry} {pm : List Part} {z0 : State} (hk : Frame pm z0 s) (m_bar : Part.bar ∈ pm := by assumption) : Frame pm z0 (answerVec n s e).1 := by
  unfold answerVec
  try dsimp only
  repeat (any_goals (first | intro _ | with_reducible assumption | with_reducible refine countQuery_frame ?_ | with_reducible apply Frame.ite | with_reducible apply Frame.iteFst | fail_if_no_progress (with_reducible refine Frame.set ?_) | split | dsimp only | refine Frame.ofFst ?_ (by assumption) | refine Frame.ofSnd2 ?_ (by assumption) | refine FrameOpt.kept ?_ _ (by assumption) | refine FrameOut.kept ?_ _ (by assumption)))

theorem takeVecAsk_frame {kind : Nat} {hdr : BitVec 256} {es : List VecEntry} {s : State} {pm : List Part} {z0 : State} (hk : Frame pm z0 s) (m_bar : Part.bar ∈ pm := by assumption) (m_fault : Part.fault ∈ pm := by assumption) (m_out : Part.out ∈ pm := by assumption) (m_spent : Part.spent ∈ pm := by assumption) : Frame pm z0 (takeVecAsk kind hdr es s) := by
  unfold takeVecAsk
  try dsimp only
  repeat (any_goals (first | intro _ | with_reducible assumption | with_reducible refine malformed_frame ?_ | with_reducible refine count_frame ?_ | with_reducible refine answerVec_frame ?_ | with_reducible refine send_frame ?_ | with_reducible apply foldl_frame | with_reducible apply foldl_frame_fst | with_reducible apply Frame.ite | with_reducible apply Frame.iteFst | fail_if_no_progress (with_reducible refine Frame.set ?_) | split | dsimp only | refine Frame.ofFst ?_ (by assumption) | refine Frame.ofSnd2 ?_ (by assumption) | refine FrameOpt.kept ?_ _ (by assumption) | refine FrameOut.kept ?_ _ (by assumption)))

theorem takeVecAnswer_frame {t : Stamp} {hdr : BitVec 256} {es : List VecEntry} {s : State} {pm : List Part} {z0 : State} (hk : Frame pm z0 s) (m_bar : Part.bar ∈ pm := by assumption) (m_plan : Part.plan ∈ pm := by assumption) (m_fault : Part.fault ∈ pm := by assumption) (m_out : Part.out ∈ pm := by assumption) : Frame pm z0 (takeVecAnswer t hdr es s) := by
  unfold takeVecAnswer
  try dsimp only
  repeat (any_goals (first | intro _ | with_reducible assumption | with_reducible refine malformed_frame ?_ | with_reducible refine count_frame ?_ | with_reducible apply foldl_frame | with_reducible apply foldl_frame_fst | with_reducible apply Frame.ite | with_reducible apply Frame.iteFst | fail_if_no_progress (with_reducible refine Frame.set ?_) | split | dsimp only | refine Frame.ofFst ?_ (by assumption) | refine Frame.ofSnd2 ?_ (by assumption) | refine FrameOpt.kept ?_ _ (by assumption) | refine FrameOut.kept ?_ _ (by assumption)))

theorem takeSegment_frame {g : VecSeg} {s : State} {pm : List Part} {z0 : State} (hk : Frame pm z0 s) (m_bar : Part.bar ∈ pm := by assumption) (m_shards : Part.shards ∈ pm := by assumption) (m_fault : Part.fault ∈ pm := by assumption) (m_out : Part.out ∈ pm := by assumption) : Frame pm z0 (takeSegment g s) := by
  unfold takeSegment
  try dsimp only
  repeat (any_goals (first | intro _ | with_reducible assumption | with_reducible refine putShard_frame ?_ | with_reducible refine logErr_frame ?_ | with_reducible refine count_frame ?_ | with_reducible refine malformed_frame ?_ | with_reducible apply foldl_frame | with_reducible apply foldl_frame_fst | with_reducible apply Frame.ite | with_reducible apply Frame.iteFst | fail_if_no_progress (with_reducible refine Frame.set ?_) | split | dsimp only | refine Frame.ofFst ?_ (by assumption) | refine Frame.ofSnd2 ?_ (by assumption) | refine FrameOpt.kept ?_ _ (by assumption) | refine FrameOut.kept ?_ _ (by assumption)))

theorem execVecSearch_frame {d : HostDesc} {s : State} {pm : List Part} {z0 : State} (hk : Frame pm z0 s) (m_time : Part.time ∈ pm := by assumption) (m_host : Part.host ∈ pm := by assumption) (m_work : Part.work ∈ pm := by assumption) (m_plan : Part.plan ∈ pm := by assumption) (m_haul : Part.haul ∈ pm := by assumption) (m_tier : Part.tier ∈ pm := by assumption) (m_fault : Part.fault ∈ pm := by assumption) (m_out : Part.out ∈ pm := by assumption) (m_spent : Part.spent ∈ pm := by assumption) (m_fresh : Part.fresh ∈ pm := by assumption) : FrameOut pm z0 (execVecSearch d s) := by
  unfold execVecSearch
  try dsimp only
  repeat (any_goals (first | intro _ | with_reducible assumption | with_reducible refine hostRow_frame ?_ ?_ | with_reducible refine applyVecSearch_frame ?_ | with_reducible apply FrameOut.next | exact FrameOut.fault | with_reducible apply Frame.ite | with_reducible apply Frame.iteFst | with_reducible apply FrameOut.ite | fail_if_no_progress (with_reducible refine Frame.set ?_) | split | dsimp only | refine Frame.ofFst ?_ (by assumption) | refine Frame.ofSnd2 ?_ (by assumption) | refine FrameOpt.kept ?_ _ (by assumption) | refine FrameOut.kept ?_ _ (by assumption)))

theorem execVecInsert_frame {d : HostDesc} {s : State} {pm : List Part} {z0 : State} (hk : Frame pm z0 s) (m_time : Part.time ∈ pm := by assumption) (m_host : Part.host ∈ pm := by assumption) (m_work : Part.work ∈ pm := by assumption) (m_haul : Part.haul ∈ pm := by assumption) (m_tier : Part.tier ∈ pm := by assumption) (m_shards : Part.shards ∈ pm := by assumption) (m_fault : Part.fault ∈ pm := by assumption) (m_out : Part.out ∈ pm := by assumption) (m_spent : Part.spent ∈ pm := by assumption) (m_fresh : Part.fresh ∈ pm := by assumption) : FrameOut pm z0 (execVecInsert d s) := by
  unfold execVecInsert
  try dsimp only
  repeat (any_goals (first | intro _ | with_reducible assumption | with_reducible refine hostRow_frame ?_ ?_ | with_reducible refine applyVecInsert_frame ?_ | with_reducible apply FrameOut.next | exact FrameOut.fault | with_reducible apply Frame.ite | with_reducible apply Frame.iteFst | with_reducible apply FrameOut.ite | fail_if_no_progress (with_reducible refine Frame.set ?_) | split | dsimp only | refine Frame.ofFst ?_ (by assumption) | refine Frame.ofSnd2 ?_ (by assumption) | refine FrameOpt.kept ?_ _ (by assumption) | refine FrameOut.kept ?_ _ (by assumption)))

theorem execVecDelete_frame {d : HostDesc} {s : State} {pm : List Part} {z0 : State} (hk : Frame pm z0 s) (m_time : Part.time ∈ pm := by assumption) (m_host : Part.host ∈ pm := by assumption) (m_work : Part.work ∈ pm := by assumption) (m_haul : Part.haul ∈ pm := by assumption) (m_tier : Part.tier ∈ pm := by assumption) (m_shards : Part.shards ∈ pm := by assumption) (m_fault : Part.fault ∈ pm := by assumption) (m_out : Part.out ∈ pm := by assumption) (m_spent : Part.spent ∈ pm := by assumption) (m_fresh : Part.fresh ∈ pm := by assumption) : FrameOut pm z0 (execVecDelete d s) := by
  unfold execVecDelete
  try dsimp only
  repeat (any_goals (first | intro _ | with_reducible assumption | with_reducible refine hostRow_frame ?_ ?_ | with_reducible refine applyVecDelete_frame ?_ | with_reducible apply FrameOut.next | exact FrameOut.fault | with_reducible apply Frame.ite | with_reducible apply Frame.iteFst | with_reducible apply FrameOut.ite | fail_if_no_progress (with_reducible refine Frame.set ?_) | split | dsimp only | refine Frame.ofFst ?_ (by assumption) | refine Frame.ofSnd2 ?_ (by assumption) | refine FrameOpt.kept ?_ _ (by assumption) | refine FrameOut.kept ?_ _ (by assumption)))

theorem execVecMergeMerge_frame {d : HostDesc} {s : State} {pm : List Part} {z0 : State} (hk : Frame pm z0 s) (m_time : Part.time ∈ pm := by assumption) (m_bar : Part.bar ∈ pm := by assumption) (m_host : Part.host ∈ pm := by assumption) (m_work : Part.work ∈ pm := by assumption) (m_haul : Part.haul ∈ pm := by assumption) (m_tier : Part.tier ∈ pm := by assumption) (m_shards : Part.shards ∈ pm := by assumption) (m_fault : Part.fault ∈ pm := by assumption) (m_sec : Part.sec ∈ pm := by assumption) (m_out : Part.out ∈ pm := by assumption) (m_spent : Part.spent ∈ pm := by assumption) (m_fresh : Part.fresh ∈ pm := by assumption) : FrameOut pm z0 (execVecMergeMerge d s) := by
  unfold execVecMergeMerge
  try dsimp only
  repeat (any_goals (first | intro _ | with_reducible assumption | with_reducible refine hostRow_frame ?_ ?_ | with_reducible refine applyVecMerge_frame ?_ | with_reducible apply FrameOut.next | exact FrameOut.fault | with_reducible apply Frame.ite | with_reducible apply Frame.iteFst | with_reducible apply FrameOut.ite | fail_if_no_progress (with_reducible refine Frame.set ?_) | split | dsimp only | refine Frame.ofFst ?_ (by assumption) | refine Frame.ofSnd2 ?_ (by assumption) | refine FrameOpt.kept ?_ _ (by assumption) | refine FrameOut.kept ?_ _ (by assumption)))

theorem execVecMergeCreate_frame {d : HostDesc} {s : State} {pm : List Part} {z0 : State} (hk : Frame pm z0 s) (m_time : Part.time ∈ pm := by assumption) (m_bar : Part.bar ∈ pm := by assumption) (m_host : Part.host ∈ pm := by assumption) (m_work : Part.work ∈ pm := by assumption) (m_haul : Part.haul ∈ pm := by assumption) (m_tier : Part.tier ∈ pm := by assumption) (m_shards : Part.shards ∈ pm := by assumption) (m_fault : Part.fault ∈ pm := by assumption) (m_sec : Part.sec ∈ pm := by assumption) (m_out : Part.out ∈ pm := by assumption) (m_spent : Part.spent ∈ pm := by assumption) (m_fresh : Part.fresh ∈ pm := by assumption) : FrameOut pm z0 (execVecMergeCreate d s) := by
  unfold execVecMergeCreate
  try dsimp only
  repeat (any_goals (first | intro _ | with_reducible assumption | with_reducible refine hostRow_frame ?_ ?_ | with_reducible refine applyVecMerge_frame ?_ | with_reducible apply FrameOut.next | exact FrameOut.fault | with_reducible apply Frame.ite | with_reducible apply Frame.iteFst | with_reducible apply FrameOut.ite | fail_if_no_progress (with_reducible refine Frame.set ?_) | split | dsimp only | refine Frame.ofFst ?_ (by assumption) | refine Frame.ofSnd2 ?_ (by assumption) | refine FrameOpt.kept ?_ _ (by assumption) | refine FrameOut.kept ?_ _ (by assumption)))

theorem execVecMergeDrop_frame {d : HostDesc} {s : State} {pm : List Part} {z0 : State} (hk : Frame pm z0 s) (m_time : Part.time ∈ pm := by assumption) (m_bar : Part.bar ∈ pm := by assumption) (m_host : Part.host ∈ pm := by assumption) (m_work : Part.work ∈ pm := by assumption) (m_haul : Part.haul ∈ pm := by assumption) (m_tier : Part.tier ∈ pm := by assumption) (m_shards : Part.shards ∈ pm := by assumption) (m_fault : Part.fault ∈ pm := by assumption) (m_sec : Part.sec ∈ pm := by assumption) (m_out : Part.out ∈ pm := by assumption) (m_spent : Part.spent ∈ pm := by assumption) (m_fresh : Part.fresh ∈ pm := by assumption) : FrameOut pm z0 (execVecMergeDrop d s) := by
  unfold execVecMergeDrop
  try dsimp only
  repeat (any_goals (first | intro _ | with_reducible assumption | with_reducible refine hostRow_frame ?_ ?_ | with_reducible refine applyVecMerge_frame ?_ | with_reducible apply FrameOut.next | exact FrameOut.fault | with_reducible apply Frame.ite | with_reducible apply Frame.iteFst | with_reducible apply FrameOut.ite | fail_if_no_progress (with_reducible refine Frame.set ?_) | split | dsimp only | refine Frame.ofFst ?_ (by assumption) | refine Frame.ofSnd2 ?_ (by assumption) | refine FrameOpt.kept ?_ _ (by assumption) | refine FrameOut.kept ?_ _ (by assumption)))

theorem execVecMergeArchive_frame {d : HostDesc} {s : State} {pm : List Part} {z0 : State} (hk : Frame pm z0 s) (m_time : Part.time ∈ pm := by assumption) (m_bar : Part.bar ∈ pm := by assumption) (m_host : Part.host ∈ pm := by assumption) (m_work : Part.work ∈ pm := by assumption) (m_haul : Part.haul ∈ pm := by assumption) (m_tier : Part.tier ∈ pm := by assumption) (m_shards : Part.shards ∈ pm := by assumption) (m_fault : Part.fault ∈ pm := by assumption) (m_sec : Part.sec ∈ pm := by assumption) (m_out : Part.out ∈ pm := by assumption) (m_spent : Part.spent ∈ pm := by assumption) (m_fresh : Part.fresh ∈ pm := by assumption) : FrameOut pm z0 (execVecMergeArchive d s) := by
  unfold execVecMergeArchive
  try dsimp only
  repeat (any_goals (first | intro _ | with_reducible assumption | with_reducible refine hostRow_frame ?_ ?_ | with_reducible refine applyVecMerge_frame ?_ | with_reducible apply FrameOut.next | exact FrameOut.fault | with_reducible apply Frame.ite | with_reducible apply Frame.iteFst | with_reducible apply FrameOut.ite | fail_if_no_progress (with_reducible refine Frame.set ?_) | split | dsimp only | refine Frame.ofFst ?_ (by assumption) | refine Frame.ofSnd2 ?_ (by assumption) | refine FrameOpt.kept ?_ _ (by assumption) | refine FrameOut.kept ?_ _ (by assumption)))

theorem execVecMergeRestore_frame {d : HostDesc} {s : State} {pm : List Part} {z0 : State} (hk : Frame pm z0 s) (m_time : Part.time ∈ pm := by assumption) (m_bar : Part.bar ∈ pm := by assumption) (m_host : Part.host ∈ pm := by assumption) (m_work : Part.work ∈ pm := by assumption) (m_haul : Part.haul ∈ pm := by assumption) (m_tier : Part.tier ∈ pm := by assumption) (m_shards : Part.shards ∈ pm := by assumption) (m_fault : Part.fault ∈ pm := by assumption) (m_sec : Part.sec ∈ pm := by assumption) (m_out : Part.out ∈ pm := by assumption) (m_spent : Part.spent ∈ pm := by assumption) (m_fresh : Part.fresh ∈ pm := by assumption) : FrameOut pm z0 (execVecMergeRestore d s) := by
  unfold execVecMergeRestore
  try dsimp only
  repeat (any_goals (first | intro _ | with_reducible assumption | with_reducible refine hostRow_frame ?_ ?_ | with_reducible refine applyVecMerge_frame ?_ | with_reducible apply FrameOut.next | exact FrameOut.fault | with_reducible apply Frame.ite | with_reducible apply Frame.iteFst | with_reducible apply FrameOut.ite | fail_if_no_progress (with_reducible refine Frame.set ?_) | split | dsimp only | refine Frame.ofFst ?_ (by assumption) | refine Frame.ofSnd2 ?_ (by assumption) | refine FrameOpt.kept ?_ _ (by assumption) | refine FrameOut.kept ?_ _ (by assumption)))

theorem execVecMergeReplicate_frame {d : HostDesc} {s : State} {pm : List Part} {z0 : State} (hk : Frame pm z0 s) (m_time : Part.time ∈ pm := by assumption) (m_bar : Part.bar ∈ pm := by assumption) (m_host : Part.host ∈ pm := by assumption) (m_work : Part.work ∈ pm := by assumption) (m_haul : Part.haul ∈ pm := by assumption) (m_tier : Part.tier ∈ pm := by assumption) (m_shards : Part.shards ∈ pm := by assumption) (m_fault : Part.fault ∈ pm := by assumption) (m_sec : Part.sec ∈ pm := by assumption) (m_out : Part.out ∈ pm := by assumption) (m_spent : Part.spent ∈ pm := by assumption) (m_fresh : Part.fresh ∈ pm := by assumption) : FrameOut pm z0 (execVecMergeReplicate d s) := by
  unfold execVecMergeReplicate
  try dsimp only
  repeat (any_goals (first | intro _ | with_reducible assumption | with_reducible refine hostRow_frame ?_ ?_ | with_reducible refine applyVecMerge_frame ?_ | with_reducible apply FrameOut.next | exact FrameOut.fault | with_reducible apply Frame.ite | with_reducible apply Frame.iteFst | with_reducible apply FrameOut.ite | fail_if_no_progress (with_reducible refine Frame.set ?_) | split | dsimp only | refine Frame.ofFst ?_ (by assumption) | refine Frame.ofSnd2 ?_ (by assumption) | refine FrameOpt.kept ?_ _ (by assumption) | refine FrameOut.kept ?_ _ (by assumption)))

theorem execVecMergeUnreplicate_frame {d : HostDesc} {s : State} {pm : List Part} {z0 : State} (hk : Frame pm z0 s) (m_time : Part.time ∈ pm := by assumption) (m_bar : Part.bar ∈ pm := by assumption) (m_host : Part.host ∈ pm := by assumption) (m_work : Part.work ∈ pm := by assumption) (m_haul : Part.haul ∈ pm := by assumption) (m_tier : Part.tier ∈ pm := by assumption) (m_shards : Part.shards ∈ pm := by assumption) (m_fault : Part.fault ∈ pm := by assumption) (m_sec : Part.sec ∈ pm := by assumption) (m_out : Part.out ∈ pm := by assumption) (m_spent : Part.spent ∈ pm := by assumption) (m_fresh : Part.fresh ∈ pm := by assumption) : FrameOut pm z0 (execVecMergeUnreplicate d s) := by
  unfold execVecMergeUnreplicate
  try dsimp only
  repeat (any_goals (first | intro _ | with_reducible assumption | with_reducible refine hostRow_frame ?_ ?_ | with_reducible refine applyVecMerge_frame ?_ | with_reducible apply FrameOut.next | exact FrameOut.fault | with_reducible apply Frame.ite | with_reducible apply Frame.iteFst | with_reducible apply FrameOut.ite | fail_if_no_progress (with_reducible refine Frame.set ?_) | split | dsimp only | refine Frame.ofFst ?_ (by assumption) | refine Frame.ofSnd2 ?_ (by assumption) | refine FrameOpt.kept ?_ _ (by assumption) | refine FrameOut.kept ?_ _ (by assumption)))

theorem execShardCreateDone_frame {t : Stamp} {shard : Nat} {s : State} {pm : List Part} {z0 : State} (hk : Frame pm z0 s) (m_time : Part.time ∈ pm := by assumption) (m_haul : Part.haul ∈ pm := by assumption) : FrameOut pm z0 (execShardCreateDone t shard s) := by
  unfold execShardCreateDone
  try dsimp only
  repeat (any_goals (first | intro _ | with_reducible assumption | with_reducible refine run_frame ?_ ?_ | with_reducible refine deferTo_frame ?_ | with_reducible apply FrameOut.next | exact FrameOut.fault | with_reducible apply Frame.ite | with_reducible apply Frame.iteFst | with_reducible apply FrameOut.ite | fail_if_no_progress (with_reducible refine Frame.set ?_) | split | dsimp only | refine Frame.ofFst ?_ (by assumption) | refine Frame.ofSnd2 ?_ (by assumption) | refine FrameOpt.kept ?_ _ (by assumption) | refine FrameOut.kept ?_ _ (by assumption)))

theorem execShardRestoreDone_frame {t : Stamp} {shard : Nat} {s : State} {pm : List Part} {z0 : State} (hk : Frame pm z0 s) (m_time : Part.time ∈ pm := by assumption) (m_haul : Part.haul ∈ pm := by assumption) : FrameOut pm z0 (execShardRestoreDone t shard s) := by
  unfold execShardRestoreDone
  try dsimp only
  repeat (any_goals (first | intro _ | with_reducible assumption | with_reducible refine run_frame ?_ ?_ | with_reducible refine deferTo_frame ?_ | with_reducible apply FrameOut.next | exact FrameOut.fault | with_reducible apply Frame.ite | with_reducible apply Frame.iteFst | with_reducible apply FrameOut.ite | fail_if_no_progress (with_reducible refine Frame.set ?_) | split | dsimp only | refine Frame.ofFst ?_ (by assumption) | refine Frame.ofSnd2 ?_ (by assumption) | refine FrameOpt.kept ?_ _ (by assumption) | refine FrameOut.kept ?_ _ (by assumption)))

theorem execShardReplicateDone_frame {t : Stamp} {shard : Nat} {target : ModuleId} {s : State} {pm : List Part} {z0 : State} (hk : Frame pm z0 s) (m_time : Part.time ∈ pm := by assumption) (m_haul : Part.haul ∈ pm := by assumption) : FrameOut pm z0 (execShardReplicateDone t shard target s) := by
  unfold execShardReplicateDone
  try dsimp only
  repeat (any_goals (first | intro _ | with_reducible assumption | with_reducible refine run_frame ?_ ?_ | with_reducible refine deferTo_frame ?_ | with_reducible apply FrameOut.next | exact FrameOut.fault | with_reducible apply Frame.ite | with_reducible apply Frame.iteFst | with_reducible apply FrameOut.ite | fail_if_no_progress (with_reducible refine Frame.set ?_) | split | dsimp only | refine Frame.ofFst ?_ (by assumption) | refine Frame.ofSnd2 ?_ (by assumption) | refine FrameOpt.kept ?_ _ (by assumption) | refine FrameOut.kept ?_ _ (by assumption)))

theorem execVecAsk_frame {t : Stamp} {hdr : BitVec 256} {es : List VecEntry} {s : State} {pm : List Part} {z0 : State} (hk : Frame pm z0 s) (m_time : Part.time ∈ pm := by assumption) (m_bar : Part.bar ∈ pm := by assumption) (m_fault : Part.fault ∈ pm := by assumption) (m_out : Part.out ∈ pm := by assumption) (m_spent : Part.spent ∈ pm := by assumption) : FrameOut pm z0 (execVecAsk t hdr es s) := by
  unfold execVecAsk
  try dsimp only
  repeat (any_goals (first | intro _ | with_reducible assumption | with_reducible refine run_frame ?_ ?_ | with_reducible refine takeVecAsk_frame ?_ | with_reducible apply FrameOut.next | exact FrameOut.fault | with_reducible apply Frame.ite | with_reducible apply Frame.iteFst | with_reducible apply FrameOut.ite | fail_if_no_progress (with_reducible refine Frame.set ?_) | split | dsimp only | refine Frame.ofFst ?_ (by assumption) | refine Frame.ofSnd2 ?_ (by assumption) | refine FrameOpt.kept ?_ _ (by assumption) | refine FrameOut.kept ?_ _ (by assumption)))

theorem execVecBackstopAsk_frame {t : Stamp} {hdr : BitVec 256} {es : List VecEntry} {s : State} {pm : List Part} {z0 : State} (hk : Frame pm z0 s) (m_time : Part.time ∈ pm := by assumption) (m_bar : Part.bar ∈ pm := by assumption) (m_fault : Part.fault ∈ pm := by assumption) (m_out : Part.out ∈ pm := by assumption) (m_spent : Part.spent ∈ pm := by assumption) : FrameOut pm z0 (execVecBackstopAsk t hdr es s) := by
  unfold execVecBackstopAsk
  try dsimp only
  repeat (any_goals (first | intro _ | with_reducible assumption | with_reducible refine run_frame ?_ ?_ | with_reducible refine takeVecAsk_frame ?_ | with_reducible apply FrameOut.next | exact FrameOut.fault | with_reducible apply Frame.ite | with_reducible apply Frame.iteFst | with_reducible apply FrameOut.ite | fail_if_no_progress (with_reducible refine Frame.set ?_) | split | dsimp only | refine Frame.ofFst ?_ (by assumption) | refine Frame.ofSnd2 ?_ (by assumption) | refine FrameOpt.kept ?_ _ (by assumption) | refine FrameOut.kept ?_ _ (by assumption)))

theorem execVecAnswer_frame {t : Stamp} {src : ModuleId} {hdr : BitVec 256} {es : List VecEntry} {s : State} {pm : List Part} {z0 : State} (hk : Frame pm z0 s) (m_time : Part.time ∈ pm := by assumption) (m_bar : Part.bar ∈ pm := by assumption) (m_plan : Part.plan ∈ pm := by assumption) (m_fault : Part.fault ∈ pm := by assumption) (m_pwr : Part.pwr ∈ pm := by assumption) (m_out : Part.out ∈ pm := by assumption) : FrameOut pm z0 (execVecAnswer t src hdr es s) := by
  unfold execVecAnswer
  try dsimp only
  repeat (any_goals (first | intro _ | with_reducible assumption | with_reducible refine runLink_frame ?_ ?_ | with_reducible refine takeVecAnswer_frame ?_ | with_reducible apply FrameOut.next | exact FrameOut.fault | with_reducible apply Frame.ite | with_reducible apply Frame.iteFst | with_reducible apply FrameOut.ite | fail_if_no_progress (with_reducible refine Frame.set ?_) | split | dsimp only | refine Frame.ofFst ?_ (by assumption) | refine Frame.ofSnd2 ?_ (by assumption) | refine FrameOpt.kept ?_ _ (by assumption) | refine FrameOut.kept ?_ _ (by assumption)))

theorem execVecSegmentReceive_frame {t : Stamp} {seg : VecSeg} {s : State} {pm : List Part} {z0 : State} (hk : Frame pm z0 s) (m_time : Part.time ∈ pm := by assumption) (m_bar : Part.bar ∈ pm := by assumption) (m_shards : Part.shards ∈ pm := by assumption) (m_fault : Part.fault ∈ pm := by assumption) (m_pwr : Part.pwr ∈ pm := by assumption) (m_out : Part.out ∈ pm := by assumption) : FrameOut pm z0 (execVecSegmentReceive t seg s) := by
  unfold execVecSegmentReceive
  try dsimp only
  repeat (any_goals (first | intro _ | with_reducible assumption | with_reducible refine runLink_frame ?_ ?_ | with_reducible refine takeSegment_frame ?_ | with_reducible apply FrameOut.next | exact FrameOut.fault | with_reducible apply Frame.ite | with_reducible apply Frame.iteFst | with_reducible apply FrameOut.ite | fail_if_no_progress (with_reducible refine Frame.set ?_) | split | dsimp only | refine Frame.ofFst ?_ (by assumption) | refine Frame.ofSnd2 ?_ (by assumption) | refine FrameOpt.kept ?_ _ (by assumption) | refine FrameOut.kept ?_ _ (by assumption)))

theorem execBackstop_frame {t : Stamp} {s : State} {pm : List Part} {z0 : State} (hk : Frame pm z0 s) (m_time : Part.time ∈ pm := by assumption) (m_bar : Part.bar ∈ pm := by assumption) (m_plan : Part.plan ∈ pm := by assumption) (m_out : Part.out ∈ pm := by assumption) (m_spent : Part.spent ∈ pm := by assumption) : FrameOut pm z0 (execBackstop t s) := by
  unfold execBackstop
  try dsimp only
  repeat (any_goals (first | intro _ | with_reducible assumption | with_reducible refine run_frame ?_ ?_ | with_reducible refine vecBackstop_frame ?_ | with_reducible refine backstopAsks_frame ?_ | with_reducible refine expireWaits_frame ?_ | with_reducible apply FrameOut.next | exact FrameOut.fault | with_reducible apply Frame.ite | with_reducible apply Frame.iteFst | with_reducible apply FrameOut.ite | fail_if_no_progress (with_reducible refine Frame.set ?_) | split | dsimp only | refine Frame.ofFst ?_ (by assumption) | refine Frame.ofSnd2 ?_ (by assumption) | refine FrameOpt.kept ?_ _ (by assumption) | refine FrameOut.kept ?_ _ (by assumption)))

theorem doneNow_frame {s : State} {c : Cpl} {st : Status} {result : Nat} {pm : List Part} {z0 : State} (hk : Frame pm z0 s) (m_host : Part.host ∈ pm := by assumption) (m_fault : Part.fault ∈ pm := by assumption) (m_out : Part.out ∈ pm := by assumption) (m_spent : Part.spent ∈ pm := by assumption) : Frame pm z0 (doneNow s c st result) := by
  unfold doneNow
  try dsimp only
  repeat (any_goals (first | intro _ | with_reducible assumption | with_reducible refine complete_frame ?_ | with_reducible apply Frame.ite | with_reducible apply Frame.iteFst | fail_if_no_progress (with_reducible refine Frame.set ?_) | split | dsimp only | refine Frame.ofFst ?_ (by assumption) | refine Frame.ofSnd2 ?_ (by assumption) | refine FrameOpt.kept ?_ _ (by assumption) | refine FrameOut.kept ?_ _ (by assumption)))

theorem applyLanding_frame {c : Cpl} {o : Nat} {f : Cpl → HostDesc → State → State} {d : HostDesc} {s : State} {pm : List Part} {z0 : State} (hf : ∀ (z : State) (x0 : Cpl) (x1 : HostDesc) (x2 : State), Frame pm z x2 → Frame pm z (f x0 x1 x2)) (hk : Frame pm z0 s) (m_host : Part.host ∈ pm := by assumption) (m_fault : Part.fault ∈ pm := by assumption) (m_out : Part.out ∈ pm := by assumption) (m_spent : Part.spent ∈ pm := by assumption) : Frame pm z0 (applyLanding c o f d s) := by
  unfold applyLanding
  try dsimp only
  repeat (any_goals (first | intro _ | with_reducible assumption | with_reducible refine doneNow_frame ?_ | with_reducible apply hf | with_reducible apply Frame.ite | with_reducible apply Frame.iteFst | fail_if_no_progress (with_reducible refine Frame.set ?_) | split | dsimp only | refine Frame.ofFst ?_ (by assumption) | refine Frame.ofSnd2 ?_ (by assumption) | refine FrameOpt.kept ?_ _ (by assumption) | refine FrameOut.kept ?_ _ (by assumption)))

theorem landRow_frame {o : Nat} {f : Cpl → HostDesc → State → State} {d : HostDesc} {s : State} {pm : List Part} {z0 : State} (hf : ∀ (z : State) (x0 : Cpl) (x1 : HostDesc) (x2 : State), Frame pm z x2 → Frame pm z (f x0 x1 x2)) (hk : Frame pm z0 s) (m_time : Part.time ∈ pm := by assumption) (m_host : Part.host ∈ pm := by assumption) (m_fault : Part.fault ∈ pm := by assumption) (m_out : Part.out ∈ pm := by assumption) (m_spent : Part.spent ∈ pm := by assumption) : FrameOut pm z0 (landRow o f d s) := by
  unfold landRow
  try dsimp only
  repeat (any_goals (first | intro _ | with_reducible assumption | with_reducible refine run_frame ?_ ?_ | with_reducible refine applyLanding_frame ?_ ?_ | with_reducible refine takeLanded_frame ?_ | with_reducible apply hf | with_reducible apply FrameOut.next | exact FrameOut.fault | with_reducible apply Frame.ite | with_reducible apply Frame.iteFst | with_reducible apply FrameOut.ite | fail_if_no_progress (with_reducible refine Frame.set ?_) | split | dsimp only | refine Frame.ofFst ?_ (by assumption) | refine Frame.ofSnd2 ?_ (by assumption) | refine FrameOpt.kept ?_ _ (by assumption) | refine FrameOut.kept ?_ _ (by assumption)))

theorem closeWindow_frame {s : State} {i : Nat} {pm : List Part} {z0 : State} (hk : Frame pm z0 s) (m_win : Part.win ∈ pm := by assumption) : Frame pm z0 (closeWindow s i) := by
  unfold closeWindow
  try dsimp only
  repeat (any_goals (first | intro _ | with_reducible assumption | with_reducible apply Frame.ite | with_reducible apply Frame.iteFst | fail_if_no_progress (with_reducible refine Frame.set ?_) | split | dsimp only | refine Frame.ofFst ?_ (by assumption) | refine Frame.ofSnd2 ?_ (by assumption) | refine FrameOpt.kept ?_ _ (by assumption) | refine FrameOut.kept ?_ _ (by assumption)))

theorem revokeWindow_frame {s : State} {i : Nat} {w : Window} {cpl : Cpl} {pm : List Part} {z0 : State} (hk : Frame pm z0 s) (m_host : Part.host ∈ pm := by assumption) (m_win : Part.win ∈ pm := by assumption) (m_fault : Part.fault ∈ pm := by assumption) (m_out : Part.out ∈ pm := by assumption) (m_spent : Part.spent ∈ pm := by assumption) : Frame pm z0 (revokeWindow s i w cpl) := by
  unfold revokeWindow
  try dsimp only
  repeat (any_goals (first | intro _ | with_reducible assumption | with_reducible refine closeWindow_frame ?_ | with_reducible refine doneNow_frame ?_ | with_reducible apply Frame.ite | with_reducible apply Frame.iteFst | fail_if_no_progress (with_reducible refine Frame.set ?_) | split | dsimp only | refine Frame.ofFst ?_ (by assumption) | refine Frame.ofSnd2 ?_ (by assumption) | refine FrameOpt.kept ?_ _ (by assumption) | refine FrameOut.kept ?_ _ (by assumption)))

theorem sweepClosing_frame {s : State} {pm : List Part} {z0 : State} (hk : Frame pm z0 s) (m_host : Part.host ∈ pm := by assumption) (m_win : Part.win ∈ pm := by assumption) (m_fault : Part.fault ∈ pm := by assumption) (m_out : Part.out ∈ pm := by assumption) (m_spent : Part.spent ∈ pm := by assumption) : Frame pm z0 (sweepClosing s) := by
  unfold sweepClosing
  try dsimp only
  repeat (any_goals (first | intro _ | with_reducible assumption | with_reducible refine doneNow_frame ?_ | with_reducible apply foldl_frame | with_reducible apply foldl_frame_fst | with_reducible apply Frame.ite | with_reducible apply Frame.iteFst | fail_if_no_progress (with_reducible refine Frame.set ?_) | split | dsimp only | refine Frame.ofFst ?_ (by assumption) | refine Frame.ofSnd2 ?_ (by assumption) | refine FrameOpt.kept ?_ _ (by assumption) | refine FrameOut.kept ?_ _ (by assumption)))

theorem revokeWhere_frame {s : State} {f : Window → Bool} {pm : List Part} {z0 : State} (hk : Frame pm z0 s) (m_win : Part.win ∈ pm := by assumption) : Frame pm z0 (revokeWhere s f) := by
  unfold revokeWhere
  try dsimp only
  repeat (any_goals (first | intro _ | with_reducible assumption | with_reducible refine closeWindow_frame ?_ | with_reducible apply foldl_frame | with_reducible apply foldl_frame_fst | with_reducible apply Frame.ite | with_reducible apply Frame.iteFst | fail_if_no_progress (with_reducible refine Frame.set ?_) | split | dsimp only | refine Frame.ofFst ?_ (by assumption) | refine Frame.ofSnd2 ?_ (by assumption) | refine FrameOpt.kept ?_ _ (by assumption) | refine FrameOut.kept ?_ _ (by assumption)))

theorem winOpen_frame {c : Cpl} {d : HostDesc} {s : State} {pm : List Part} {z0 : State} (hk : Frame pm z0 s) (m_host : Part.host ∈ pm := by assumption) (m_win : Part.win ∈ pm := by assumption) (m_fault : Part.fault ∈ pm := by assumption) (m_out : Part.out ∈ pm := by assumption) (m_spent : Part.spent ∈ pm := by assumption) : Frame pm z0 (winOpen c d s) := by
  unfold winOpen
  try dsimp only
  repeat (any_goals (first | intro _ | with_reducible assumption | with_reducible refine doneNow_frame ?_ | with_reducible apply Frame.ite | with_reducible apply Frame.iteFst | fail_if_no_progress (with_reducible refine Frame.set ?_) | split | dsimp only | refine Frame.ofFst ?_ (by assumption) | refine Frame.ofSnd2 ?_ (by assumption) | refine FrameOpt.kept ?_ _ (by assumption) | refine FrameOut.kept ?_ _ (by assumption)))

theorem winRevoke_frame {c : Cpl} {d : HostDesc} {s : State} {pm : List Part} {z0 : State} (hk : Frame pm z0 s) (m_host : Part.host ∈ pm := by assumption) (m_win : Part.win ∈ pm := by assumption) (m_fault : Part.fault ∈ pm := by assumption) (m_out : Part.out ∈ pm := by assumption) (m_spent : Part.spent ∈ pm := by assumption) : Frame pm z0 (winRevoke c d s) := by
  unfold winRevoke
  try dsimp only
  repeat (any_goals (first | intro _ | with_reducible assumption | with_reducible refine doneNow_frame ?_ | with_reducible refine revokeWindow_frame ?_ | with_reducible apply Frame.ite | with_reducible apply Frame.iteFst | fail_if_no_progress (with_reducible refine Frame.set ?_) | split | dsimp only | refine Frame.ofFst ?_ (by assumption) | refine Frame.ofSnd2 ?_ (by assumption) | refine FrameOpt.kept ?_ _ (by assumption) | refine FrameOut.kept ?_ _ (by assumption)))

theorem execWinOpen_frame {d : HostDesc} {s : State} {pm : List Part} {z0 : State} (hk : Frame pm z0 s) (m_time : Part.time ∈ pm := by assumption) (m_host : Part.host ∈ pm := by assumption) (m_win : Part.win ∈ pm := by assumption) (m_fault : Part.fault ∈ pm := by assumption) (m_out : Part.out ∈ pm := by assumption) (m_spent : Part.spent ∈ pm := by assumption) : FrameOut pm z0 (execWinOpen d s) := by
  unfold execWinOpen
  try dsimp only
  repeat (any_goals (first | intro _ | with_reducible assumption | with_reducible refine landRow_frame ?_ ?_ | with_reducible refine winOpen_frame ?_ | with_reducible apply FrameOut.next | exact FrameOut.fault | with_reducible apply Frame.ite | with_reducible apply Frame.iteFst | with_reducible apply FrameOut.ite | fail_if_no_progress (with_reducible refine Frame.set ?_) | split | dsimp only | refine Frame.ofFst ?_ (by assumption) | refine Frame.ofSnd2 ?_ (by assumption) | refine FrameOpt.kept ?_ _ (by assumption) | refine FrameOut.kept ?_ _ (by assumption)))

theorem execWinRevoke_frame {d : HostDesc} {s : State} {pm : List Part} {z0 : State} (hk : Frame pm z0 s) (m_time : Part.time ∈ pm := by assumption) (m_host : Part.host ∈ pm := by assumption) (m_win : Part.win ∈ pm := by assumption) (m_fault : Part.fault ∈ pm := by assumption) (m_out : Part.out ∈ pm := by assumption) (m_spent : Part.spent ∈ pm := by assumption) : FrameOut pm z0 (execWinRevoke d s) := by
  unfold execWinRevoke
  try dsimp only
  repeat (any_goals (first | intro _ | with_reducible assumption | with_reducible refine landRow_frame ?_ ?_ | with_reducible refine winRevoke_frame ?_ | with_reducible apply FrameOut.next | exact FrameOut.fault | with_reducible apply Frame.ite | with_reducible apply Frame.iteFst | with_reducible apply FrameOut.ite | fail_if_no_progress (with_reducible refine Frame.set ?_) | split | dsimp only | refine Frame.ofFst ?_ (by assumption) | refine Frame.ofSnd2 ?_ (by assumption) | refine FrameOpt.kept ?_ _ (by assumption) | refine FrameOut.kept ?_ _ (by assumption)))

theorem setQp_frame {s : State} {q : Nat} {f : Qp → Qp} {pm : List Part} {z0 : State} (hk : Frame pm z0 s) (m_win : Part.win ∈ pm := by assumption) : Frame pm z0 (setQp s q f) := by
  unfold setQp
  try dsimp only
  repeat (any_goals (first | intro _ | with_reducible assumption | with_reducible apply Frame.ite | with_reducible apply Frame.iteFst | fail_if_no_progress (with_reducible refine Frame.set ?_) | split | dsimp only | refine Frame.ofFst ?_ (by assumption) | refine Frame.ofSnd2 ?_ (by assumption) | refine FrameOpt.kept ?_ _ (by assumption) | refine FrameOut.kept ?_ _ (by assumption)))

theorem setCache_frame {s : State} {q : Nat} {l : List Nat} {pm : List Part} {z0 : State} (hk : Frame pm z0 s) (m_win : Part.win ∈ pm := by assumption) : Frame pm z0 (setCache s q l) := by
  unfold setCache
  try dsimp only
  repeat (any_goals (first | intro _ | with_reducible assumption | with_reducible apply Frame.ite | with_reducible apply Frame.iteFst | fail_if_no_progress (with_reducible refine Frame.set ?_) | split | dsimp only | refine Frame.ofFst ?_ (by assumption) | refine Frame.ofSnd2 ?_ (by assumption) | refine FrameOpt.kept ?_ _ (by assumption) | refine FrameOut.kept ?_ _ (by assumption)))

theorem writeBack_frame {s : State} {q : Nat} {pm : List Part} {z0 : State} (hk : Frame pm z0 s) (m_out : Part.out ∈ pm := by assumption) : Frame pm z0 (writeBack s q) := by
  unfold writeBack
  try dsimp only
  repeat (any_goals (first | intro _ | with_reducible assumption | with_reducible refine emitTo_frame ?_ | with_reducible apply Frame.ite | with_reducible apply Frame.iteFst | fail_if_no_progress (with_reducible refine Frame.set ?_) | split | dsimp only | refine Frame.ofFst ?_ (by assumption) | refine Frame.ofSnd2 ?_ (by assumption) | refine FrameOpt.kept ?_ _ (by assumption) | refine FrameOut.kept ?_ _ (by assumption)))

theorem touch_frame {s : State} {q : Nat} {pm : List Part} {z0 : State} (hk : Frame pm z0 s) (m_win : Part.win ∈ pm := by assumption) (m_out : Part.out ∈ pm := by assumption) : Frame pm z0 (touch s q) := by
  unfold touch
  try dsimp only
  repeat (any_goals (first | intro _ | with_reducible assumption | with_reducible refine setCache_frame ?_ | with_reducible refine writeBack_frame ?_ | with_reducible apply Frame.ite | with_reducible apply Frame.iteFst | fail_if_no_progress (with_reducible refine Frame.set ?_) | split | dsimp only | refine Frame.ofFst ?_ (by assumption) | refine Frame.ofSnd2 ?_ (by assumption) | refine FrameOpt.kept ?_ _ (by assumption) | refine FrameOut.kept ?_ _ (by assumption)))

theorem noteStall_frame {s : State} {tile : Nat} {pm : List Part} {z0 : State} (hk : Frame pm z0 s) (m_bar : Part.bar ∈ pm := by assumption) (m_fab : Part.fab ∈ pm := by assumption) (m_win : Part.win ∈ pm := by assumption) (m_out : Part.out ∈ pm := by assumption) : Frame pm z0 (noteStall s tile) := by
  unfold noteStall
  try dsimp only
  repeat (any_goals (first | intro _ | with_reducible assumption | with_reducible refine returnCredits_frame ?_ | with_reducible refine count_frame ?_ | with_reducible apply Frame.ite | with_reducible apply Frame.iteFst | fail_if_no_progress (with_reducible refine Frame.set ?_) | split | dsimp only | refine Frame.ofFst ?_ (by assumption) | refine Frame.ofSnd2 ?_ (by assumption) | refine FrameOpt.kept ?_ _ (by assumption) | refine FrameOut.kept ?_ _ (by assumption)))

theorem parkPacket_frame {s : State} {q : Nat} {st : Stamp} {p : WPacket} {pm : List Part} {z0 : State} (hk : Frame pm z0 s) (m_bar : Part.bar ∈ pm := by assumption) (m_fab : Part.fab ∈ pm := by assumption) (m_win : Part.win ∈ pm := by assumption) (m_out : Part.out ∈ pm := by assumption) : Frame pm z0 (parkPacket s q st p) := by
  unfold parkPacket
  try dsimp only
  repeat (any_goals (first | intro _ | with_reducible assumption | with_reducible refine count_frame ?_ | with_reducible refine noteStall_frame ?_ | with_reducible apply Frame.ite | with_reducible apply Frame.iteFst | fail_if_no_progress (with_reducible refine Frame.set ?_) | split | dsimp only | refine Frame.ofFst ?_ (by assumption) | refine Frame.ofSnd2 ?_ (by assumption) | refine FrameOpt.kept ?_ _ (by assumption) | refine FrameOut.kept ?_ _ (by assumption)))

theorem grant_frame {s : State} {q : Nat} {pm : List Part} {z0 : State} (hk : Frame pm z0 s) (m_win : Part.win ∈ pm := by assumption) : Frame pm z0 (grant s q) := by
  unfold grant
  try dsimp only
  repeat (any_goals (first | intro _ | with_reducible assumption | with_reducible refine setQp_frame ?_ | with_reducible apply Frame.ite | with_reducible apply Frame.iteFst | fail_if_no_progress (with_reducible refine Frame.set ?_) | split | dsimp only | refine Frame.ofFst ?_ (by assumption) | refine Frame.ofSnd2 ?_ (by assumption) | refine FrameOpt.kept ?_ _ (by assumption) | refine FrameOut.kept ?_ _ (by assumption)))

theorem wAnswer_frame {s : State} {q : Nat} {typ : Nat} {psn : Nat} {st : Nat} {data : List Byte} {pm : List Part} {z0 : State} (hk : Frame pm z0 s) (m_bar : Part.bar ∈ pm := by assumption) (m_fab : Part.fab ∈ pm := by assumption) (m_win : Part.win ∈ pm := by assumption) (m_out : Part.out ∈ pm := by assumption) (m_spent : Part.spent ∈ pm := by assumption) : Frame pm z0 (wAnswer s q typ psn st data) := by
  unfold wAnswer
  try dsimp only
  repeat (any_goals (first | intro _ | with_reducible assumption | with_reducible refine grant_frame ?_ | with_reducible refine launchAnswer_frame ?_ | with_reducible apply Frame.ite | with_reducible apply Frame.iteFst | fail_if_no_progress (with_reducible refine Frame.set ?_) | split | dsimp only | refine Frame.ofFst ?_ (by assumption) | refine Frame.ofSnd2 ?_ (by assumption) | refine FrameOpt.kept ?_ _ (by assumption) | refine FrameOut.kept ?_ _ (by assumption)))

theorem wNakTo_frame {s : State} {p : WPacket} {st : Nat} {epoch : Nat} {pm : List Part} {z0 : State} (hk : Frame pm z0 s) (m_bar : Part.bar ∈ pm := by assumption) (m_fab : Part.fab ∈ pm := by assumption) (m_out : Part.out ∈ pm := by assumption) (m_spent : Part.spent ∈ pm := by assumption) : Frame pm z0 (wNakTo s p st epoch) := by
  unfold wNakTo
  try dsimp only
  repeat (any_goals (first | intro _ | with_reducible assumption | with_reducible refine launchAnswer_frame ?_ | with_reducible apply Frame.ite | with_reducible apply Frame.iteFst | fail_if_no_progress (with_reducible refine Frame.set ?_) | split | dsimp only | refine Frame.ofFst ?_ (by assumption) | refine Frame.ofSnd2 ?_ (by assumption) | refine FrameOpt.kept ?_ _ (by assumption) | refine FrameOut.kept ?_ _ (by assumption)))

theorem hostBytes_frame {s : State} {addr : Nat} {n : Nat} {pm : List Part} {z0 : State} (hk : Frame pm z0 s) (m_fresh : Part.fresh ∈ pm := by assumption) : Frame pm z0 (hostBytes s addr n).1 := by
  unfold hostBytes
  try dsimp only
  repeat (any_goals (first | intro _ | with_reducible assumption | with_reducible refine State_bump_frame ?_ | with_reducible apply Frame.ite | with_reducible apply Frame.iteFst | fail_if_no_progress (with_reducible refine Frame.set ?_) | split | dsimp only | refine Frame.ofFst ?_ (by assumption) | refine Frame.ofSnd2 ?_ (by assumption) | refine FrameOpt.kept ?_ _ (by assumption) | refine FrameOut.kept ?_ _ (by assumption)))

theorem hostWrite_frame {s : State} {b : Nat} {o : Output} {pm : List Part} {z0 : State} (hk : Frame pm z0 s) (m_out : Part.out ∈ pm := by assumption) : Frame pm z0 (hostWrite s b o) := by
  unfold hostWrite
  try dsimp only
  repeat (any_goals (first | intro _ | with_reducible assumption | with_reducible refine emitTo_frame ?_ | with_reducible apply Frame.ite | with_reducible apply Frame.iteFst | fail_if_no_progress (with_reducible refine Frame.set ?_) | split | dsimp only | refine Frame.ofFst ?_ (by assumption) | refine Frame.ofSnd2 ?_ (by assumption) | refine FrameOpt.kept ?_ _ (by assumption) | refine FrameOut.kept ?_ _ (by assumption)))

theorem applyWindow_frame {pm : List Part} {s : State} {w : Window} {p : WPacket} {z0 : State} (hk : Frame pm z0 s) (m_fab : Part.fab ∈ pm := by assumption) (m_out : Part.out ∈ pm := by assumption) (m_fresh : Part.fresh ∈ pm := by assumption) : Frame pm z0 (applyWindow s w p).1 := by
  unfold applyWindow
  try dsimp only
  repeat (any_goals (first | with_reducible exact hk | with_reducible exact setMem_frame memWf_writeBytes hk | exact applyMem_frame hk | exact hostBytes_frame (hostWrite_frame hk) | exact hostBytes_frame hk | exact hostWrite_frame hk | split))

theorem ackThrough_frame {s : State} {q : Nat} {pm : List Part} {z0 : State} (hk : Frame pm z0 s) (m_bar : Part.bar ∈ pm := by assumption) (m_fab : Part.fab ∈ pm := by assumption) (m_win : Part.win ∈ pm := by assumption) (m_out : Part.out ∈ pm := by assumption) (m_spent : Part.spent ∈ pm := by assumption) : Frame pm z0 (ackThrough s q) := by
  unfold ackThrough
  try dsimp only
  repeat (any_goals (first | intro _ | with_reducible assumption | with_reducible refine wAnswer_frame ?_ | with_reducible refine setQp_frame ?_ | with_reducible apply Frame.ite | with_reducible apply Frame.iteFst | fail_if_no_progress (with_reducible refine Frame.set ?_) | split | dsimp only | refine Frame.ofFst ?_ (by assumption) | refine Frame.ofSnd2 ?_ (by assumption) | refine FrameOpt.kept ?_ _ (by assumption) | refine FrameOut.kept ?_ _ (by assumption)))

theorem logResult_frame {s : State} {q : Nat} {psn : Nat} {st : Status} {v : Nat} {pm : List Part} {z0 : State} (hk : Frame pm z0 s) (m_win : Part.win ∈ pm := by assumption) : Frame pm z0 (logResult s q psn st v) := by
  unfold logResult
  try dsimp only
  repeat (any_goals (first | intro _ | with_reducible assumption | with_reducible refine setQp_frame ?_ | with_reducible apply Frame.ite | with_reducible apply Frame.iteFst | fail_if_no_progress (with_reducible refine Frame.set ?_) | split | dsimp only | refine Frame.ofFst ?_ (by assumption) | refine Frame.ofSnd2 ?_ (by assumption) | refine FrameOpt.kept ?_ _ (by assumption) | refine FrameOut.kept ?_ _ (by assumption)))

theorem serveWindow_frame {s : State} {q : Nat} {at_ : Stamp} {p : WPacket} {pm : List Part} {z0 : State} (hk : Frame pm z0 s) (m_bar : Part.bar ∈ pm := by assumption) (m_host : Part.host ∈ pm := by assumption) (m_fab : Part.fab ∈ pm := by assumption) (m_win : Part.win ∈ pm := by assumption) (m_fault : Part.fault ∈ pm := by assumption) (m_out : Part.out ∈ pm := by assumption) (m_spent : Part.spent ∈ pm := by assumption) (m_fresh : Part.fresh ∈ pm := by assumption) : Frame pm z0 (serveWindow s q at_ p) := by
  unfold serveWindow
  try dsimp only
  repeat (any_goals (first | intro _ | with_reducible assumption | with_reducible refine setQp_frame ?_ | with_reducible refine applyWindow_frame ?_ | with_reducible refine notify_frame ?_ | with_reducible refine ackThrough_frame ?_ | with_reducible refine wAnswer_frame ?_ | with_reducible refine logResult_frame ?_ | with_reducible apply Frame.ite | with_reducible apply Frame.iteFst | fail_if_no_progress (with_reducible refine Frame.set ?_) | split | dsimp only | refine Frame.ofFst ?_ (by assumption) | refine Frame.ofSnd2 ?_ (by assumption) | refine FrameOpt.kept ?_ _ (by assumption) | refine FrameOut.kept ?_ _ (by assumption)))

theorem serveDuplicate_frame {s : State} {q : Nat} {p : WPacket} {pm : List Part} {z0 : State} (hk : Frame pm z0 s) (m_bar : Part.bar ∈ pm := by assumption) (m_fab : Part.fab ∈ pm := by assumption) (m_win : Part.win ∈ pm := by assumption) (m_out : Part.out ∈ pm := by assumption) (m_spent : Part.spent ∈ pm := by assumption) (m_fresh : Part.fresh ∈ pm := by assumption) : Frame pm z0 (serveDuplicate s q p) := by
  unfold serveDuplicate
  try dsimp only
  repeat (any_goals (first | intro _ | with_reducible assumption | with_reducible refine count_frame ?_ | with_reducible refine wAnswer_frame ?_ | with_reducible refine ackThrough_frame ?_ | with_reducible refine applyWindow_frame ?_ | with_reducible apply Frame.ite | with_reducible apply Frame.iteFst | fail_if_no_progress (with_reducible refine Frame.set ?_) | split | dsimp only | refine Frame.ofFst ?_ (by assumption) | refine Frame.ofSnd2 ?_ (by assumption) | refine FrameOpt.kept ?_ _ (by assumption) | refine FrameOut.kept ?_ _ (by assumption)))

theorem handleRequest_frame {s0 : State} {st : Stamp} {p : WPacket} {pm : List Part} {z0 : State} (hk : Frame pm z0 s0) (m_bar : Part.bar ∈ pm := by assumption) (m_host : Part.host ∈ pm := by assumption) (m_fab : Part.fab ∈ pm := by assumption) (m_win : Part.win ∈ pm := by assumption) (m_fault : Part.fault ∈ pm := by assumption) (m_out : Part.out ∈ pm := by assumption) (m_spent : Part.spent ∈ pm := by assumption) (m_fresh : Part.fresh ∈ pm := by assumption) : Frame pm z0 (handleRequest s0 st p) := by
  unfold handleRequest
  try dsimp only
  repeat (any_goals (first | intro _ | with_reducible assumption | with_reducible refine count_frame ?_ | with_reducible refine wNakTo_frame ?_ | with_reducible refine touch_frame ?_ | with_reducible refine wAnswer_frame ?_ | with_reducible refine setQp_frame ?_ | with_reducible refine serveDuplicate_frame ?_ | with_reducible refine serveWindow_frame ?_ | with_reducible apply Frame.ite | with_reducible apply Frame.iteFst | fail_if_no_progress (with_reducible refine Frame.set ?_) | split | dsimp only | refine Frame.ofFst ?_ (by assumption) | refine Frame.ofSnd2 ?_ (by assumption) | refine FrameOpt.kept ?_ _ (by assumption) | refine FrameOut.kept ?_ _ (by assumption)))

theorem landWindow_frame {s : State} {st : Stamp} {p : WPacket} {pm : List Part} {z0 : State} (hk : Frame pm z0 s) (m_bar : Part.bar ∈ pm := by assumption) (m_host : Part.host ∈ pm := by assumption) (m_fab : Part.fab ∈ pm := by assumption) (m_win : Part.win ∈ pm := by assumption) (m_fault : Part.fault ∈ pm := by assumption) (m_out : Part.out ∈ pm := by assumption) (m_spent : Part.spent ∈ pm := by assumption) (m_fresh : Part.fresh ∈ pm := by assumption) : Frame pm z0 (landWindow s st p) := by
  unfold landWindow
  try dsimp only
  repeat (any_goals (first | intro _ | with_reducible assumption | with_reducible refine wNakTo_frame ?_ | with_reducible refine count_frame ?_ | with_reducible refine handleRequest_frame ?_ | with_reducible refine parkPacket_frame ?_ | with_reducible apply Frame.ite | with_reducible apply Frame.iteFst | fail_if_no_progress (with_reducible refine Frame.set ?_) | split | dsimp only | refine Frame.ofFst ?_ (by assumption) | refine Frame.ofSnd2 ?_ (by assumption) | refine FrameOpt.kept ?_ _ (by assumption) | refine FrameOut.kept ?_ _ (by assumption)))

theorem takeWindow_frame {typ : Nat} {s : State} {p : WPacket} {pm : List Part} {z0 : State} (hk : Frame pm z0 s) (m_bar : Part.bar ∈ pm := by assumption) (m_host : Part.host ∈ pm := by assumption) (m_fab : Part.fab ∈ pm := by assumption) (m_win : Part.win ∈ pm := by assumption) (m_fault : Part.fault ∈ pm := by assumption) (m_out : Part.out ∈ pm := by assumption) (m_spent : Part.spent ∈ pm := by assumption) (m_fresh : Part.fresh ∈ pm := by assumption) : Frame pm z0 (takeWindow typ s p) := by
  unfold takeWindow
  try dsimp only
  repeat (any_goals (first | intro _ | with_reducible assumption | with_reducible refine count_frame ?_ | with_reducible refine forwardPacket_frame ?_ | with_reducible refine landWindow_frame ?_ | with_reducible apply Frame.ite | with_reducible apply Frame.iteFst | fail_if_no_progress (with_reducible refine Frame.set ?_) | split | dsimp only | refine Frame.ofFst ?_ (by assumption) | refine Frame.ofSnd2 ?_ (by assumption) | refine FrameOpt.kept ?_ _ (by assumption) | refine FrameOut.kept ?_ _ (by assumption)))

theorem resumeWindows_frame {s : State} {pm : List Part} {z0 : State} (hk : Frame pm z0 s) (m_bar : Part.bar ∈ pm := by assumption) (m_host : Part.host ∈ pm := by assumption) (m_fab : Part.fab ∈ pm := by assumption) (m_win : Part.win ∈ pm := by assumption) (m_fault : Part.fault ∈ pm := by assumption) (m_out : Part.out ∈ pm := by assumption) (m_spent : Part.spent ∈ pm := by assumption) (m_fresh : Part.fresh ∈ pm := by assumption) : Frame pm z0 (resumeWindows s) := by
  unfold resumeWindows
  try dsimp only
  repeat (any_goals (first | intro _ | with_reducible assumption | with_reducible refine landWindow_frame ?_ | with_reducible apply foldl_frame | with_reducible apply foldl_frame_fst | with_reducible apply Frame.ite | with_reducible apply Frame.iteFst | fail_if_no_progress (with_reducible refine Frame.set ?_) | split | dsimp only | refine Frame.ofFst ?_ (by assumption) | refine Frame.ofSnd2 ?_ (by assumption) | refine FrameOpt.kept ?_ _ (by assumption) | refine FrameOut.kept ?_ _ (by assumption)))

theorem endOps_frame {s : State} {q : Nat} {st : Status} {pm : List Part} {z0 : State} (hk : Frame pm z0 s) (m_host : Part.host ∈ pm := by assumption) (m_fab : Part.fab ∈ pm := by assumption) (m_fault : Part.fault ∈ pm := by assumption) (m_out : Part.out ∈ pm := by assumption) (m_spent : Part.spent ∈ pm := by assumption) : Frame pm z0 (endOps s q st) := by
  unfold endOps
  try dsimp only
  repeat (any_goals (first | intro _ | with_reducible assumption | with_reducible refine complete_frame ?_ | with_reducible apply foldl_frame | with_reducible apply foldl_frame_fst | with_reducible apply Frame.ite | with_reducible apply Frame.iteFst | fail_if_no_progress (with_reducible refine Frame.set ?_) | split | dsimp only | refine Frame.ofFst ?_ (by assumption) | refine Frame.ofSnd2 ?_ (by assumption) | refine FrameOpt.kept ?_ _ (by assumption) | refine FrameOut.kept ?_ _ (by assumption)))

theorem freeQp_frame {s : State} {q : Nat} {pm : List Part} {z0 : State} (hk : Frame pm z0 s) (m_host : Part.host ∈ pm := by assumption) (m_win : Part.win ∈ pm := by assumption) (m_fault : Part.fault ∈ pm := by assumption) (m_out : Part.out ∈ pm := by assumption) (m_spent : Part.spent ∈ pm := by assumption) : Frame pm z0 (freeQp s q) := by
  unfold freeQp
  try dsimp only
  repeat (any_goals (first | intro _ | with_reducible assumption | with_reducible refine setCache_frame ?_ | with_reducible refine setQp_frame ?_ | with_reducible refine doneNow_frame ?_ | with_reducible apply Frame.ite | with_reducible apply Frame.iteFst | fail_if_no_progress (with_reducible refine Frame.set ?_) | split | dsimp only | refine Frame.ofFst ?_ (by assumption) | refine Frame.ofSnd2 ?_ (by assumption) | refine FrameOpt.kept ?_ _ (by assumption) | refine FrameOut.kept ?_ _ (by assumption)))

theorem settleQp_frame {s : State} {q : Nat} {pm : List Part} {z0 : State} (hk : Frame pm z0 s) (m_host : Part.host ∈ pm := by assumption) (m_win : Part.win ∈ pm := by assumption) (m_fault : Part.fault ∈ pm := by assumption) (m_out : Part.out ∈ pm := by assumption) (m_spent : Part.spent ∈ pm := by assumption) : Frame pm z0 (settleQp s q) := by
  unfold settleQp
  try dsimp only
  repeat (any_goals (first | intro _ | with_reducible assumption | with_reducible refine freeQp_frame ?_ | with_reducible apply Frame.ite | with_reducible apply Frame.iteFst | fail_if_no_progress (with_reducible refine Frame.set ?_) | split | dsimp only | refine Frame.ofFst ?_ (by assumption) | refine Frame.ofSnd2 ?_ (by assumption) | refine FrameOpt.kept ?_ _ (by assumption) | refine FrameOut.kept ?_ _ (by assumption)))

theorem qpError_frame {s : State} {q : Nat} {pm : List Part} {z0 : State} (hk : Frame pm z0 s) (m_host : Part.host ∈ pm := by assumption) (m_fab : Part.fab ∈ pm := by assumption) (m_win : Part.win ∈ pm := by assumption) (m_fault : Part.fault ∈ pm := by assumption) (m_out : Part.out ∈ pm := by assumption) (m_spent : Part.spent ∈ pm := by assumption) : Frame pm z0 (qpError s q) := by
  unfold qpError
  try dsimp only
  repeat (any_goals (first | intro _ | with_reducible assumption | with_reducible refine endOps_frame ?_ | with_reducible refine setQp_frame ?_ | with_reducible apply Frame.ite | with_reducible apply Frame.iteFst | fail_if_no_progress (with_reducible refine Frame.set ?_) | split | dsimp only | refine Frame.ofFst ?_ (by assumption) | refine Frame.ofSnd2 ?_ (by assumption) | refine FrameOpt.kept ?_ _ (by assumption) | refine FrameOut.kept ?_ _ (by assumption)))

theorem sendWindow_frame {s : State} {q : Nat} {p : WPacket} {low : Nat} {pm : List Part} {z0 : State} (hk : Frame pm z0 s) (m_bar : Part.bar ∈ pm := by assumption) (m_fab : Part.fab ∈ pm := by assumption) (m_win : Part.win ∈ pm := by assumption) (m_out : Part.out ∈ pm := by assumption) (m_spent : Part.spent ∈ pm := by assumption) : Frame pm z0 (sendWindow s q p low) := by
  unfold sendWindow
  try dsimp only
  repeat (any_goals (first | intro _ | with_reducible assumption | with_reducible refine launch_frame ?_ | with_reducible refine setQp_frame ?_ | with_reducible apply Frame.ite | with_reducible apply Frame.iteFst | fail_if_no_progress (with_reducible refine Frame.set ?_) | split | dsimp only | refine Frame.ofFst ?_ (by assumption) | refine Frame.ofSnd2 ?_ (by assumption) | refine FrameOpt.kept ?_ _ (by assumption) | refine FrameOut.kept ?_ _ (by assumption)))

theorem pumpQp_frame {pm : List Part} {s : State} {q : Nat} {n : Nat} {z0 : State} (hk : Frame pm z0 s) (m_bar : Part.bar ∈ pm := by assumption) (m_fab : Part.fab ∈ pm := by assumption) (m_win : Part.win ∈ pm := by assumption) (m_out : Part.out ∈ pm := by assumption) (m_spent : Part.spent ∈ pm := by assumption) : Frame pm z0 (pumpQp s q n) := by
  induction n generalizing s with
  | zero => exact hk
  | succ n ih =>
    unfold pumpQp
    dsimp only
    split
    · exact hk
    · split
      · exact ih (sendWindow_frame (setQp_frame (spend_frame hk)))
      · split
        · exact launch_frame (setQp_frame hk)
        · exact hk

theorem pumpWindows_frame {s : State} {pm : List Part} {z0 : State} (hk : Frame pm z0 s) (m_bar : Part.bar ∈ pm := by assumption) (m_fab : Part.fab ∈ pm := by assumption) (m_win : Part.win ∈ pm := by assumption) (m_out : Part.out ∈ pm := by assumption) (m_spent : Part.spent ∈ pm := by assumption) : Frame pm z0 (pumpWindows s) := by
  unfold pumpWindows
  try dsimp only
  repeat (any_goals (first | intro _ | with_reducible assumption | with_reducible refine pumpQp_frame ?_ | with_reducible apply foldl_frame | with_reducible apply foldl_frame_fst | with_reducible apply Frame.ite | with_reducible apply Frame.iteFst | fail_if_no_progress (with_reducible refine Frame.set ?_) | split | dsimp only | refine Frame.ofFst ?_ (by assumption) | refine Frame.ofSnd2 ?_ (by assumption) | refine FrameOpt.kept ?_ _ (by assumption) | refine FrameOut.kept ?_ _ (by assumption)))

theorem answered_frame {s : State} {q : Nat} {psn : Nat} {pm : List Part} {z0 : State} (hk : Frame pm z0 s) (m_win : Part.win ∈ pm := by assumption) : Frame pm z0 (answered s q psn) := by
  unfold answered
  try dsimp only
  repeat (any_goals (first | intro _ | with_reducible assumption | with_reducible refine setQp_frame ?_ | with_reducible apply Frame.ite | with_reducible apply Frame.iteFst | fail_if_no_progress (with_reducible refine Frame.set ?_) | split | dsimp only | refine Frame.ofFst ?_ (by assumption) | refine Frame.ofSnd2 ?_ (by assumption) | refine FrameOpt.kept ?_ _ (by assumption) | refine FrameOut.kept ?_ _ (by assumption)))

theorem windowDone_frame {s : State} {q : Nat} {psn : Nat} {st : Status} {bytes : Nat} {old : Nat} {pm : List Part} {z0 : State} (hk : Frame pm z0 s) (m_host : Part.host ∈ pm := by assumption) (m_fab : Part.fab ∈ pm := by assumption) (m_win : Part.win ∈ pm := by assumption) (m_fault : Part.fault ∈ pm := by assumption) (m_out : Part.out ∈ pm := by assumption) (m_spent : Part.spent ∈ pm := by assumption) : Frame pm z0 (windowDone s q psn st bytes old) := by
  unfold windowDone
  try dsimp only
  repeat (any_goals (first | intro _ | with_reducible assumption | with_reducible refine settleQp_frame ?_ | with_reducible refine stepOp_frame ?_ | with_reducible refine answered_frame ?_ | with_reducible apply Frame.ite | with_reducible apply Frame.iteFst | fail_if_no_progress (with_reducible refine Frame.set ?_) | split | dsimp only | refine Frame.ofFst ?_ (by assumption) | refine Frame.ofSnd2 ?_ (by assumption) | refine FrameOpt.kept ?_ _ (by assumption) | refine FrameOut.kept ?_ _ (by assumption)))

theorem raiseLimit_frame {s : State} {q : Nat} {v : Nat} {pm : List Part} {z0 : State} (hk : Frame pm z0 s) (m_win : Part.win ∈ pm := by assumption) : Frame pm z0 (raiseLimit s q v) := by
  unfold raiseLimit
  try dsimp only
  repeat (any_goals (first | intro _ | with_reducible assumption | with_reducible refine setQp_frame ?_ | with_reducible apply Frame.ite | with_reducible apply Frame.iteFst | fail_if_no_progress (with_reducible refine Frame.set ?_) | split | dsimp only | refine Frame.ofFst ?_ (by assumption) | refine Frame.ofSnd2 ?_ (by assumption) | refine FrameOpt.kept ?_ _ (by assumption) | refine FrameOut.kept ?_ _ (by assumption)))

theorem resend_frame {s : State} {q : Nat} {l : List (Nat × WPacket × Nat)} {pm : List Part} {z0 : State} (hk : Frame pm z0 s) (m_bar : Part.bar ∈ pm := by assumption) (m_host : Part.host ∈ pm := by assumption) (m_fab : Part.fab ∈ pm := by assumption) (m_win : Part.win ∈ pm := by assumption) (m_fault : Part.fault ∈ pm := by assumption) (m_out : Part.out ∈ pm := by assumption) (m_spent : Part.spent ∈ pm := by assumption) : Frame pm z0 (resend s q l) := by
  unfold resend
  try dsimp only
  repeat (any_goals (first | intro _ | with_reducible assumption | with_reducible refine qpError_frame ?_ | with_reducible refine sendWindow_frame ?_ | with_reducible apply foldl_frame | with_reducible apply foldl_frame_fst | with_reducible apply Frame.ite | with_reducible apply Frame.iteFst | fail_if_no_progress (with_reducible refine Frame.set ?_) | split | dsimp only | refine Frame.ofFst ?_ (by assumption) | refine Frame.ofSnd2 ?_ (by assumption) | refine FrameOpt.kept ?_ _ (by assumption) | refine FrameOut.kept ?_ _ (by assumption)))

theorem resendFrom_frame {s : State} {q : Nat} {psn : Nat} {pm : List Part} {z0 : State} (hk : Frame pm z0 s) (m_bar : Part.bar ∈ pm := by assumption) (m_host : Part.host ∈ pm := by assumption) (m_fab : Part.fab ∈ pm := by assumption) (m_win : Part.win ∈ pm := by assumption) (m_fault : Part.fault ∈ pm := by assumption) (m_out : Part.out ∈ pm := by assumption) (m_spent : Part.spent ∈ pm := by assumption) : Frame pm z0 (resendFrom s q psn) := by
  unfold resendFrom
  try dsimp only
  repeat (any_goals (first | intro _ | with_reducible assumption | with_reducible refine resend_frame ?_ | with_reducible apply Frame.ite | with_reducible apply Frame.iteFst | fail_if_no_progress (with_reducible refine Frame.set ?_) | split | dsimp only | refine Frame.ofFst ?_ (by assumption) | refine Frame.ofSnd2 ?_ (by assumption) | refine FrameOpt.kept ?_ _ (by assumption) | refine FrameOut.kept ?_ _ (by assumption)))

theorem windowAck_frame {s : State} {p : WPacket} {pm : List Part} {z0 : State} (hk : Frame pm z0 s) (m_bar : Part.bar ∈ pm := by assumption) (m_host : Part.host ∈ pm := by assumption) (m_fab : Part.fab ∈ pm := by assumption) (m_win : Part.win ∈ pm := by assumption) (m_fault : Part.fault ∈ pm := by assumption) (m_out : Part.out ∈ pm := by assumption) (m_spent : Part.spent ∈ pm := by assumption) : Frame pm z0 (windowAck s p) := by
  unfold windowAck
  try dsimp only
  repeat (any_goals (first | intro _ | with_reducible assumption | with_reducible refine windowDone_frame ?_ | with_reducible refine raiseLimit_frame ?_ | with_reducible refine pumpQp_frame ?_ | with_reducible apply foldl_frame | with_reducible apply foldl_frame_fst | with_reducible apply Frame.ite | with_reducible apply Frame.iteFst | fail_if_no_progress (with_reducible refine Frame.set ?_) | split | dsimp only | refine Frame.ofFst ?_ (by assumption) | refine Frame.ofSnd2 ?_ (by assumption) | refine FrameOpt.kept ?_ _ (by assumption) | refine FrameOut.kept ?_ _ (by assumption)))

theorem windowReadResp_frame {s : State} {p : WPacket} {pm : List Part} {z0 : State} (hk : Frame pm z0 s) (m_bar : Part.bar ∈ pm := by assumption) (m_host : Part.host ∈ pm := by assumption) (m_fab : Part.fab ∈ pm := by assumption) (m_win : Part.win ∈ pm := by assumption) (m_fault : Part.fault ∈ pm := by assumption) (m_out : Part.out ∈ pm := by assumption) (m_spent : Part.spent ∈ pm := by assumption) : Frame pm z0 (windowReadResp s p) := by
  unfold windowReadResp
  try dsimp only
  repeat (any_goals (first | intro _ | with_reducible assumption | with_reducible refine cplWrite_frame ?_ | with_reducible refine windowDone_frame ?_ | with_reducible refine pumpQp_frame ?_ | with_reducible apply Frame.ite | with_reducible apply Frame.iteFst | fail_if_no_progress (with_reducible refine Frame.set ?_) | split | dsimp only | refine Frame.ofFst ?_ (by assumption) | refine Frame.ofSnd2 ?_ (by assumption) | refine FrameOpt.kept ?_ _ (by assumption) | refine FrameOut.kept ?_ _ (by assumption)))

theorem windowAtomResp_frame {s : State} {p : WPacket} {pm : List Part} {z0 : State} (hk : Frame pm z0 s) (m_bar : Part.bar ∈ pm := by assumption) (m_host : Part.host ∈ pm := by assumption) (m_fab : Part.fab ∈ pm := by assumption) (m_win : Part.win ∈ pm := by assumption) (m_fault : Part.fault ∈ pm := by assumption) (m_out : Part.out ∈ pm := by assumption) (m_spent : Part.spent ∈ pm := by assumption) : Frame pm z0 (windowAtomResp s p) := by
  unfold windowAtomResp
  try dsimp only
  repeat (any_goals (first | intro _ | with_reducible assumption | with_reducible refine cplWrite_frame ?_ | with_reducible refine windowDone_frame ?_ | with_reducible refine pumpQp_frame ?_ | with_reducible apply Frame.ite | with_reducible apply Frame.iteFst | fail_if_no_progress (with_reducible refine Frame.set ?_) | split | dsimp only | refine Frame.ofFst ?_ (by assumption) | refine Frame.ofSnd2 ?_ (by assumption) | refine FrameOpt.kept ?_ _ (by assumption) | refine FrameOut.kept ?_ _ (by assumption)))

theorem windowStale_frame {s : State} {p : WPacket} {pm : List Part} {z0 : State} (hk : Frame pm z0 s) (m_bar : Part.bar ∈ pm := by assumption) (m_host : Part.host ∈ pm := by assumption) (m_fab : Part.fab ∈ pm := by assumption) (m_win : Part.win ∈ pm := by assumption) (m_fault : Part.fault ∈ pm := by assumption) (m_out : Part.out ∈ pm := by assumption) (m_spent : Part.spent ∈ pm := by assumption) : Frame pm z0 (windowStale s p) := by
  unfold windowStale
  try dsimp only
  repeat (any_goals (first | intro _ | with_reducible assumption | with_reducible refine resend_frame ?_ | with_reducible apply Frame.ite | with_reducible apply Frame.iteFst | fail_if_no_progress (with_reducible refine Frame.set ?_) | split | dsimp only | refine Frame.ofFst ?_ (by assumption) | refine Frame.ofSnd2 ?_ (by assumption) | refine FrameOpt.kept ?_ _ (by assumption) | refine FrameOut.kept ?_ _ (by assumption)))

theorem windowNak_frame {s : State} {p : WPacket} {pm : List Part} {z0 : State} (hk : Frame pm z0 s) (m_bar : Part.bar ∈ pm := by assumption) (m_host : Part.host ∈ pm := by assumption) (m_fab : Part.fab ∈ pm := by assumption) (m_win : Part.win ∈ pm := by assumption) (m_fault : Part.fault ∈ pm := by assumption) (m_out : Part.out ∈ pm := by assumption) (m_spent : Part.spent ∈ pm := by assumption) : Frame pm z0 (windowNak s p) := by
  unfold windowNak
  try dsimp only
  repeat (any_goals (first | intro _ | with_reducible assumption | with_reducible refine resendFrom_frame ?_ | with_reducible refine windowStale_frame ?_ | with_reducible refine settleQp_frame ?_ | with_reducible refine endOps_frame ?_ | with_reducible refine setQp_frame ?_ | with_reducible apply Frame.ite | with_reducible apply Frame.iteFst | fail_if_no_progress (with_reducible refine Frame.set ?_) | split | dsimp only | refine Frame.ofFst ?_ (by assumption) | refine Frame.ofSnd2 ?_ (by assumption) | refine FrameOpt.kept ?_ _ (by assumption) | refine FrameOut.kept ?_ _ (by assumption)))

theorem takeWindowAnswer_frame {typ : Nat} {f : State → WPacket → State} {s : State} {p : WPacket} {pm : List Part} {z0 : State} (hf : ∀ (z : State) (x0 : State) (x1 : WPacket), Frame pm z x0 → Frame pm z (f x0 x1)) (hk : Frame pm z0 s) (m_bar : Part.bar ∈ pm := by assumption) (m_fab : Part.fab ∈ pm := by assumption) (m_out : Part.out ∈ pm := by assumption) (m_spent : Part.spent ∈ pm := by assumption) : Frame pm z0 (takeWindowAnswer typ f s p) := by
  unfold takeWindowAnswer
  try dsimp only
  repeat (any_goals (first | intro _ | with_reducible assumption | with_reducible refine count_frame ?_ | with_reducible refine forwardPacket_frame ?_ | with_reducible apply hf | with_reducible apply Frame.ite | with_reducible apply Frame.iteFst | fail_if_no_progress (with_reducible refine Frame.set ?_) | split | dsimp only | refine Frame.ofFst ?_ (by assumption) | refine Frame.ofSnd2 ?_ (by assumption) | refine FrameOpt.kept ?_ _ (by assumption) | refine FrameOut.kept ?_ _ (by assumption)))

theorem qpCreate_frame {c : Cpl} {d : HostDesc} {s : State} {pm : List Part} {z0 : State} (hk : Frame pm z0 s) (m_host : Part.host ∈ pm := by assumption) (m_win : Part.win ∈ pm := by assumption) (m_fault : Part.fault ∈ pm := by assumption) (m_out : Part.out ∈ pm := by assumption) (m_spent : Part.spent ∈ pm := by assumption) : Frame pm z0 (qpCreate c d s) := by
  unfold qpCreate
  try dsimp only
  repeat (any_goals (first | intro _ | with_reducible assumption | with_reducible refine doneNow_frame ?_ | with_reducible refine touch_frame ?_ | with_reducible refine setQp_frame ?_ | with_reducible apply Frame.ite | with_reducible apply Frame.iteFst | fail_if_no_progress (with_reducible refine Frame.set ?_) | split | dsimp only | refine Frame.ofFst ?_ (by assumption) | refine Frame.ofSnd2 ?_ (by assumption) | refine FrameOpt.kept ?_ _ (by assumption) | refine FrameOut.kept ?_ _ (by assumption)))

theorem qpDestroy_frame {c : Cpl} {d : HostDesc} {s : State} {pm : List Part} {z0 : State} (hk : Frame pm z0 s) (m_host : Part.host ∈ pm := by assumption) (m_fab : Part.fab ∈ pm := by assumption) (m_win : Part.win ∈ pm := by assumption) (m_fault : Part.fault ∈ pm := by assumption) (m_out : Part.out ∈ pm := by assumption) (m_spent : Part.spent ∈ pm := by assumption) : Frame pm z0 (qpDestroy c d s) := by
  unfold qpDestroy
  try dsimp only
  repeat (any_goals (first | intro _ | with_reducible assumption | with_reducible refine doneNow_frame ?_ | with_reducible refine freeQp_frame ?_ | with_reducible refine endOps_frame ?_ | with_reducible refine settleQp_frame ?_ | with_reducible refine setQp_frame ?_ | with_reducible apply Frame.ite | with_reducible apply Frame.iteFst | fail_if_no_progress (with_reducible refine Frame.set ?_) | split | dsimp only | refine Frame.ofFst ?_ (by assumption) | refine Frame.ofSnd2 ?_ (by assumption) | refine FrameOpt.kept ?_ _ (by assumption) | refine FrameOut.kept ?_ _ (by assumption)))

theorem execQpCreate_frame {d : HostDesc} {s : State} {pm : List Part} {z0 : State} (hk : Frame pm z0 s) (m_time : Part.time ∈ pm := by assumption) (m_host : Part.host ∈ pm := by assumption) (m_win : Part.win ∈ pm := by assumption) (m_fault : Part.fault ∈ pm := by assumption) (m_out : Part.out ∈ pm := by assumption) (m_spent : Part.spent ∈ pm := by assumption) : FrameOut pm z0 (execQpCreate d s) := by
  unfold execQpCreate
  try dsimp only
  repeat (any_goals (first | intro _ | with_reducible assumption | with_reducible refine landRow_frame ?_ ?_ | with_reducible refine qpCreate_frame ?_ | with_reducible apply FrameOut.next | exact FrameOut.fault | with_reducible apply Frame.ite | with_reducible apply Frame.iteFst | with_reducible apply FrameOut.ite | fail_if_no_progress (with_reducible refine Frame.set ?_) | split | dsimp only | refine Frame.ofFst ?_ (by assumption) | refine Frame.ofSnd2 ?_ (by assumption) | refine FrameOpt.kept ?_ _ (by assumption) | refine FrameOut.kept ?_ _ (by assumption)))

theorem execQpDestroy_frame {d : HostDesc} {s : State} {pm : List Part} {z0 : State} (hk : Frame pm z0 s) (m_time : Part.time ∈ pm := by assumption) (m_host : Part.host ∈ pm := by assumption) (m_fab : Part.fab ∈ pm := by assumption) (m_win : Part.win ∈ pm := by assumption) (m_fault : Part.fault ∈ pm := by assumption) (m_out : Part.out ∈ pm := by assumption) (m_spent : Part.spent ∈ pm := by assumption) : FrameOut pm z0 (execQpDestroy d s) := by
  unfold execQpDestroy
  try dsimp only
  repeat (any_goals (first | intro _ | with_reducible assumption | with_reducible refine landRow_frame ?_ ?_ | with_reducible refine qpDestroy_frame ?_ | with_reducible apply FrameOut.next | exact FrameOut.fault | with_reducible apply Frame.ite | with_reducible apply Frame.iteFst | with_reducible apply FrameOut.ite | fail_if_no_progress (with_reducible refine Frame.set ?_) | split | dsimp only | refine Frame.ofFst ?_ (by assumption) | refine Frame.ofSnd2 ?_ (by assumption) | refine FrameOpt.kept ?_ _ (by assumption) | refine FrameOut.kept ?_ _ (by assumption)))

theorem execQpDestroyAbort_frame {d : HostDesc} {s : State} {pm : List Part} {z0 : State} (hk : Frame pm z0 s) (m_time : Part.time ∈ pm := by assumption) (m_host : Part.host ∈ pm := by assumption) (m_fab : Part.fab ∈ pm := by assumption) (m_win : Part.win ∈ pm := by assumption) (m_fault : Part.fault ∈ pm := by assumption) (m_out : Part.out ∈ pm := by assumption) (m_spent : Part.spent ∈ pm := by assumption) : FrameOut pm z0 (execQpDestroyAbort d s) := by
  unfold execQpDestroyAbort
  try dsimp only
  repeat (any_goals (first | intro _ | with_reducible assumption | with_reducible refine landRow_frame ?_ ?_ | with_reducible refine qpDestroy_frame ?_ | with_reducible apply FrameOut.next | exact FrameOut.fault | with_reducible apply Frame.ite | with_reducible apply Frame.iteFst | with_reducible apply FrameOut.ite | fail_if_no_progress (with_reducible refine Frame.set ?_) | split | dsimp only | refine Frame.ofFst ?_ (by assumption) | refine Frame.ofSnd2 ?_ (by assumption) | refine FrameOpt.kept ?_ _ (by assumption) | refine FrameOut.kept ?_ _ (by assumption)))

theorem newOp_frame {pm : List Part} {s : State} {c : Cpl} {r : BitVec 512} {n : Nat} {z0 : State} (hk : Frame pm z0 s) (m_fab : Part.fab ∈ pm := by assumption) : Frame pm z0 (newOp s c r n).2.2 := by
  exact Frame.set hk

theorem rmaQp_frame {c : Cpl} {d : HostDesc} {s : State} {pm : List Part} {z0 : State} (hk : Frame pm z0 s) (m_bar : Part.bar ∈ pm := by assumption) (m_host : Part.host ∈ pm := by assumption) (m_fab : Part.fab ∈ pm := by assumption) (m_win : Part.win ∈ pm := by assumption) (m_fault : Part.fault ∈ pm := by assumption) (m_out : Part.out ∈ pm := by assumption) (m_spent : Part.spent ∈ pm := by assumption) : Frame pm z0 (rmaQp c d s) := by
  unfold rmaQp
  try dsimp only
  repeat (any_goals (first | intro _ | with_reducible assumption | with_reducible refine doneNow_frame ?_ | with_reducible refine settleFences_frame ?_ | with_reducible refine setQp_frame ?_ | with_reducible refine touch_frame ?_ | with_reducible refine pumpQp_frame ?_ | with_reducible refine newOp_frame ?_ | with_reducible apply Frame.ite | with_reducible apply Frame.iteFst | fail_if_no_progress (with_reducible refine Frame.set ?_) | split | dsimp only | refine Frame.ofFst ?_ (by assumption) | refine Frame.ofSnd2 ?_ (by assumption) | refine FrameOpt.kept ?_ _ (by assumption) | refine FrameOut.kept ?_ _ (by assumption)))

theorem rmaRack_frame {c : Cpl} {d : HostDesc} {s : State} {pm : List Part} {z0 : State} (hk : Frame pm z0 s) (m_bar : Part.bar ∈ pm := by assumption) (m_host : Part.host ∈ pm := by assumption) (m_fab : Part.fab ∈ pm := by assumption) (m_fault : Part.fault ∈ pm := by assumption) (m_out : Part.out ∈ pm := by assumption) (m_spent : Part.spent ∈ pm := by assumption) : Frame pm z0 (rmaRack c d s) := by
  unfold rmaRack
  try dsimp only
  repeat (any_goals (first | intro _ | with_reducible assumption | with_reducible refine stepOp_frame ?_ | with_reducible refine pumpRack_frame ?_ | with_reducible refine newOp_frame ?_ | with_reducible apply foldl_frame | with_reducible apply foldl_frame_fst | with_reducible apply Frame.ite | with_reducible apply Frame.iteFst | fail_if_no_progress (with_reducible refine Frame.set ?_) | split | dsimp only | refine Frame.ofFst ?_ (by assumption) | refine Frame.ofSnd2 ?_ (by assumption) | refine FrameOpt.kept ?_ _ (by assumption) | refine FrameOut.kept ?_ _ (by assumption)))

theorem rmaOp_frame {c : Cpl} {d : HostDesc} {s : State} {pm : List Part} {z0 : State} (hk : Frame pm z0 s) (m_bar : Part.bar ∈ pm := by assumption) (m_host : Part.host ∈ pm := by assumption) (m_fab : Part.fab ∈ pm := by assumption) (m_win : Part.win ∈ pm := by assumption) (m_fault : Part.fault ∈ pm := by assumption) (m_out : Part.out ∈ pm := by assumption) (m_spent : Part.spent ∈ pm := by assumption) : Frame pm z0 (rmaOp c d s) := by
  unfold rmaOp
  try dsimp only
  repeat (any_goals (first | intro _ | with_reducible assumption | with_reducible refine doneNow_frame ?_ | with_reducible refine rmaQp_frame ?_ | with_reducible refine rmaRack_frame ?_ | with_reducible apply Frame.ite | with_reducible apply Frame.iteFst | fail_if_no_progress (with_reducible refine Frame.set ?_) | split | dsimp only | refine Frame.ofFst ?_ (by assumption) | refine Frame.ofSnd2 ?_ (by assumption) | refine FrameOpt.kept ?_ _ (by assumption) | refine FrameOut.kept ?_ _ (by assumption)))

theorem execRmaWrite_frame {d : HostDesc} {s : State} {pm : List Part} {z0 : State} (hk : Frame pm z0 s) (m_time : Part.time ∈ pm := by assumption) (m_bar : Part.bar ∈ pm := by assumption) (m_host : Part.host ∈ pm := by assumption) (m_fab : Part.fab ∈ pm := by assumption) (m_win : Part.win ∈ pm := by assumption) (m_fault : Part.fault ∈ pm := by assumption) (m_out : Part.out ∈ pm := by assumption) (m_spent : Part.spent ∈ pm := by assumption) : FrameOut pm z0 (execRmaWrite d s) := by
  unfold execRmaWrite
  try dsimp only
  repeat (any_goals (first | intro _ | with_reducible assumption | with_reducible refine landRow_frame ?_ ?_ | with_reducible refine rmaOp_frame ?_ | with_reducible apply FrameOut.next | exact FrameOut.fault | with_reducible apply Frame.ite | with_reducible apply Frame.iteFst | with_reducible apply FrameOut.ite | fail_if_no_progress (with_reducible refine Frame.set ?_) | split | dsimp only | refine Frame.ofFst ?_ (by assumption) | refine Frame.ofSnd2 ?_ (by assumption) | refine FrameOpt.kept ?_ _ (by assumption) | refine FrameOut.kept ?_ _ (by assumption)))

theorem execRmaRead_frame {d : HostDesc} {s : State} {pm : List Part} {z0 : State} (hk : Frame pm z0 s) (m_time : Part.time ∈ pm := by assumption) (m_bar : Part.bar ∈ pm := by assumption) (m_host : Part.host ∈ pm := by assumption) (m_fab : Part.fab ∈ pm := by assumption) (m_win : Part.win ∈ pm := by assumption) (m_fault : Part.fault ∈ pm := by assumption) (m_out : Part.out ∈ pm := by assumption) (m_spent : Part.spent ∈ pm := by assumption) : FrameOut pm z0 (execRmaRead d s) := by
  unfold execRmaRead
  try dsimp only
  repeat (any_goals (first | intro _ | with_reducible assumption | with_reducible refine landRow_frame ?_ ?_ | with_reducible refine rmaOp_frame ?_ | with_reducible apply FrameOut.next | exact FrameOut.fault | with_reducible apply Frame.ite | with_reducible apply Frame.iteFst | with_reducible apply FrameOut.ite | fail_if_no_progress (with_reducible refine Frame.set ?_) | split | dsimp only | refine Frame.ofFst ?_ (by assumption) | refine Frame.ofSnd2 ?_ (by assumption) | refine FrameOpt.kept ?_ _ (by assumption) | refine FrameOut.kept ?_ _ (by assumption)))

theorem execRmaAdd_frame {d : HostDesc} {s : State} {pm : List Part} {z0 : State} (hk : Frame pm z0 s) (m_time : Part.time ∈ pm := by assumption) (m_bar : Part.bar ∈ pm := by assumption) (m_host : Part.host ∈ pm := by assumption) (m_fab : Part.fab ∈ pm := by assumption) (m_win : Part.win ∈ pm := by assumption) (m_fault : Part.fault ∈ pm := by assumption) (m_out : Part.out ∈ pm := by assumption) (m_spent : Part.spent ∈ pm := by assumption) : FrameOut pm z0 (execRmaAdd d s) := by
  unfold execRmaAdd
  try dsimp only
  repeat (any_goals (first | intro _ | with_reducible assumption | with_reducible refine landRow_frame ?_ ?_ | with_reducible refine rmaOp_frame ?_ | with_reducible apply FrameOut.next | exact FrameOut.fault | with_reducible apply Frame.ite | with_reducible apply Frame.iteFst | with_reducible apply FrameOut.ite | fail_if_no_progress (with_reducible refine Frame.set ?_) | split | dsimp only | refine Frame.ofFst ?_ (by assumption) | refine Frame.ofSnd2 ?_ (by assumption) | refine FrameOpt.kept ?_ _ (by assumption) | refine FrameOut.kept ?_ _ (by assumption)))

theorem execRmaCas_frame {d : HostDesc} {s : State} {pm : List Part} {z0 : State} (hk : Frame pm z0 s) (m_time : Part.time ∈ pm := by assumption) (m_bar : Part.bar ∈ pm := by assumption) (m_host : Part.host ∈ pm := by assumption) (m_fab : Part.fab ∈ pm := by assumption) (m_win : Part.win ∈ pm := by assumption) (m_fault : Part.fault ∈ pm := by assumption) (m_out : Part.out ∈ pm := by assumption) (m_spent : Part.spent ∈ pm := by assumption) : FrameOut pm z0 (execRmaCas d s) := by
  unfold execRmaCas
  try dsimp only
  repeat (any_goals (first | intro _ | with_reducible assumption | with_reducible refine landRow_frame ?_ ?_ | with_reducible refine rmaOp_frame ?_ | with_reducible apply FrameOut.next | exact FrameOut.fault | with_reducible apply Frame.ite | with_reducible apply Frame.iteFst | with_reducible apply FrameOut.ite | fail_if_no_progress (with_reducible refine Frame.set ?_) | split | dsimp only | refine Frame.ofFst ?_ (by assumption) | refine Frame.ofSnd2 ?_ (by assumption) | refine FrameOpt.kept ?_ _ (by assumption) | refine FrameOut.kept ?_ _ (by assumption)))

theorem execRmaWriteRack_frame {d : HostDesc} {s : State} {pm : List Part} {z0 : State} (hk : Frame pm z0 s) (m_time : Part.time ∈ pm := by assumption) (m_bar : Part.bar ∈ pm := by assumption) (m_host : Part.host ∈ pm := by assumption) (m_fab : Part.fab ∈ pm := by assumption) (m_win : Part.win ∈ pm := by assumption) (m_fault : Part.fault ∈ pm := by assumption) (m_out : Part.out ∈ pm := by assumption) (m_spent : Part.spent ∈ pm := by assumption) : FrameOut pm z0 (execRmaWriteRack d s) := by
  unfold execRmaWriteRack
  try dsimp only
  repeat (any_goals (first | intro _ | with_reducible assumption | with_reducible refine landRow_frame ?_ ?_ | with_reducible refine rmaOp_frame ?_ | with_reducible apply FrameOut.next | exact FrameOut.fault | with_reducible apply Frame.ite | with_reducible apply Frame.iteFst | with_reducible apply FrameOut.ite | fail_if_no_progress (with_reducible refine Frame.set ?_) | split | dsimp only | refine Frame.ofFst ?_ (by assumption) | refine Frame.ofSnd2 ?_ (by assumption) | refine FrameOpt.kept ?_ _ (by assumption) | refine FrameOut.kept ?_ _ (by assumption)))

theorem execRmaReadRack_frame {d : HostDesc} {s : State} {pm : List Part} {z0 : State} (hk : Frame pm z0 s) (m_time : Part.time ∈ pm := by assumption) (m_bar : Part.bar ∈ pm := by assumption) (m_host : Part.host ∈ pm := by assumption) (m_fab : Part.fab ∈ pm := by assumption) (m_win : Part.win ∈ pm := by assumption) (m_fault : Part.fault ∈ pm := by assumption) (m_out : Part.out ∈ pm := by assumption) (m_spent : Part.spent ∈ pm := by assumption) : FrameOut pm z0 (execRmaReadRack d s) := by
  unfold execRmaReadRack
  try dsimp only
  repeat (any_goals (first | intro _ | with_reducible assumption | with_reducible refine landRow_frame ?_ ?_ | with_reducible refine rmaOp_frame ?_ | with_reducible apply FrameOut.next | exact FrameOut.fault | with_reducible apply Frame.ite | with_reducible apply Frame.iteFst | with_reducible apply FrameOut.ite | fail_if_no_progress (with_reducible refine Frame.set ?_) | split | dsimp only | refine Frame.ofFst ?_ (by assumption) | refine Frame.ofSnd2 ?_ (by assumption) | refine FrameOpt.kept ?_ _ (by assumption) | refine FrameOut.kept ?_ _ (by assumption)))

theorem execRmaAddRack_frame {d : HostDesc} {s : State} {pm : List Part} {z0 : State} (hk : Frame pm z0 s) (m_time : Part.time ∈ pm := by assumption) (m_bar : Part.bar ∈ pm := by assumption) (m_host : Part.host ∈ pm := by assumption) (m_fab : Part.fab ∈ pm := by assumption) (m_win : Part.win ∈ pm := by assumption) (m_fault : Part.fault ∈ pm := by assumption) (m_out : Part.out ∈ pm := by assumption) (m_spent : Part.spent ∈ pm := by assumption) : FrameOut pm z0 (execRmaAddRack d s) := by
  unfold execRmaAddRack
  try dsimp only
  repeat (any_goals (first | intro _ | with_reducible assumption | with_reducible refine landRow_frame ?_ ?_ | with_reducible refine rmaOp_frame ?_ | with_reducible apply FrameOut.next | exact FrameOut.fault | with_reducible apply Frame.ite | with_reducible apply Frame.iteFst | with_reducible apply FrameOut.ite | fail_if_no_progress (with_reducible refine Frame.set ?_) | split | dsimp only | refine Frame.ofFst ?_ (by assumption) | refine Frame.ofSnd2 ?_ (by assumption) | refine FrameOpt.kept ?_ _ (by assumption) | refine FrameOut.kept ?_ _ (by assumption)))

theorem execRmaCasRack_frame {d : HostDesc} {s : State} {pm : List Part} {z0 : State} (hk : Frame pm z0 s) (m_time : Part.time ∈ pm := by assumption) (m_bar : Part.bar ∈ pm := by assumption) (m_host : Part.host ∈ pm := by assumption) (m_fab : Part.fab ∈ pm := by assumption) (m_win : Part.win ∈ pm := by assumption) (m_fault : Part.fault ∈ pm := by assumption) (m_out : Part.out ∈ pm := by assumption) (m_spent : Part.spent ∈ pm := by assumption) : FrameOut pm z0 (execRmaCasRack d s) := by
  unfold execRmaCasRack
  try dsimp only
  repeat (any_goals (first | intro _ | with_reducible assumption | with_reducible refine landRow_frame ?_ ?_ | with_reducible refine rmaOp_frame ?_ | with_reducible apply FrameOut.next | exact FrameOut.fault | with_reducible apply Frame.ite | with_reducible apply Frame.iteFst | with_reducible apply FrameOut.ite | fail_if_no_progress (with_reducible refine Frame.set ?_) | split | dsimp only | refine Frame.ofFst ?_ (by assumption) | refine Frame.ofSnd2 ?_ (by assumption) | refine FrameOpt.kept ?_ _ (by assumption) | refine FrameOut.kept ?_ _ (by assumption)))

theorem execFence_frame {d : HostDesc} {s : State} {pm : List Part} {z0 : State} (hk : Frame pm z0 s) (m_time : Part.time ∈ pm := by assumption) (m_bar : Part.bar ∈ pm := by assumption) (m_host : Part.host ∈ pm := by assumption) (m_fab : Part.fab ∈ pm := by assumption) (m_win : Part.win ∈ pm := by assumption) (m_fault : Part.fault ∈ pm := by assumption) (m_out : Part.out ∈ pm := by assumption) (m_spent : Part.spent ∈ pm := by assumption) : FrameOut pm z0 (execFence d s) := by
  unfold execFence
  try dsimp only
  repeat (any_goals (first | intro _ | with_reducible assumption | with_reducible refine landRow_frame ?_ ?_ | with_reducible refine rmaOp_frame ?_ | with_reducible apply FrameOut.next | exact FrameOut.fault | with_reducible apply Frame.ite | with_reducible apply Frame.iteFst | with_reducible apply FrameOut.ite | fail_if_no_progress (with_reducible refine Frame.set ?_) | split | dsimp only | refine Frame.ofFst ?_ (by assumption) | refine Frame.ofSnd2 ?_ (by assumption) | refine FrameOpt.kept ?_ _ (by assumption) | refine FrameOut.kept ?_ _ (by assumption)))

theorem execFenceRack_frame {d : HostDesc} {s : State} {pm : List Part} {z0 : State} (hk : Frame pm z0 s) (m_time : Part.time ∈ pm := by assumption) (m_bar : Part.bar ∈ pm := by assumption) (m_host : Part.host ∈ pm := by assumption) (m_fab : Part.fab ∈ pm := by assumption) (m_win : Part.win ∈ pm := by assumption) (m_fault : Part.fault ∈ pm := by assumption) (m_out : Part.out ∈ pm := by assumption) (m_spent : Part.spent ∈ pm := by assumption) : FrameOut pm z0 (execFenceRack d s) := by
  unfold execFenceRack
  try dsimp only
  repeat (any_goals (first | intro _ | with_reducible assumption | with_reducible refine landRow_frame ?_ ?_ | with_reducible refine rmaOp_frame ?_ | with_reducible apply FrameOut.next | exact FrameOut.fault | with_reducible apply Frame.ite | with_reducible apply Frame.iteFst | with_reducible apply FrameOut.ite | fail_if_no_progress (with_reducible refine Frame.set ?_) | split | dsimp only | refine Frame.ofFst ?_ (by assumption) | refine Frame.ofSnd2 ?_ (by assumption) | refine FrameOpt.kept ?_ _ (by assumption) | refine FrameOut.kept ?_ _ (by assumption)))

theorem runWindow_frame {t : Stamp} {p : WPacket} {f : State → State} {s : State} {pm : List Part} {z0 : State} (hf : ∀ (z : State) (x0 : State), Frame pm z x0 → Frame pm z (f x0)) (hk : Frame pm z0 s) (m_time : Part.time ∈ pm := by assumption) (m_pwr : Part.pwr ∈ pm := by assumption) : FrameOut pm z0 (runWindow t p f s) := by
  unfold runWindow
  try dsimp only
  repeat (any_goals (first | intro _ | with_reducible assumption | with_reducible refine runPacket_frame ?_ ?_ | with_reducible apply hf | with_reducible apply FrameOut.next | exact FrameOut.fault | with_reducible apply Frame.ite | with_reducible apply Frame.iteFst | with_reducible apply FrameOut.ite | fail_if_no_progress (with_reducible refine Frame.set ?_) | split | dsimp only | refine Frame.ofFst ?_ (by assumption) | refine Frame.ofSnd2 ?_ (by assumption) | refine FrameOpt.kept ?_ _ (by assumption) | refine FrameOut.kept ?_ _ (by assumption)))

theorem execWWrite_frame {t : Stamp} {p : WPacket} {s : State} {pm : List Part} {z0 : State} (hk : Frame pm z0 s) (m_time : Part.time ∈ pm := by assumption) (m_bar : Part.bar ∈ pm := by assumption) (m_host : Part.host ∈ pm := by assumption) (m_fab : Part.fab ∈ pm := by assumption) (m_win : Part.win ∈ pm := by assumption) (m_fault : Part.fault ∈ pm := by assumption) (m_pwr : Part.pwr ∈ pm := by assumption) (m_out : Part.out ∈ pm := by assumption) (m_spent : Part.spent ∈ pm := by assumption) (m_fresh : Part.fresh ∈ pm := by assumption) : FrameOut pm z0 (execWWrite t p s) := by
  unfold execWWrite
  try dsimp only
  repeat (any_goals (first | intro _ | with_reducible assumption | with_reducible refine runWindow_frame ?_ ?_ | with_reducible refine takeWindow_frame ?_ | with_reducible apply FrameOut.next | exact FrameOut.fault | with_reducible apply Frame.ite | with_reducible apply Frame.iteFst | with_reducible apply FrameOut.ite | fail_if_no_progress (with_reducible refine Frame.set ?_) | split | dsimp only | refine Frame.ofFst ?_ (by assumption) | refine Frame.ofSnd2 ?_ (by assumption) | refine FrameOpt.kept ?_ _ (by assumption) | refine FrameOut.kept ?_ _ (by assumption)))

theorem execWRead_frame {t : Stamp} {p : WPacket} {s : State} {pm : List Part} {z0 : State} (hk : Frame pm z0 s) (m_time : Part.time ∈ pm := by assumption) (m_bar : Part.bar ∈ pm := by assumption) (m_host : Part.host ∈ pm := by assumption) (m_fab : Part.fab ∈ pm := by assumption) (m_win : Part.win ∈ pm := by assumption) (m_fault : Part.fault ∈ pm := by assumption) (m_pwr : Part.pwr ∈ pm := by assumption) (m_out : Part.out ∈ pm := by assumption) (m_spent : Part.spent ∈ pm := by assumption) (m_fresh : Part.fresh ∈ pm := by assumption) : FrameOut pm z0 (execWRead t p s) := by
  unfold execWRead
  try dsimp only
  repeat (any_goals (first | intro _ | with_reducible assumption | with_reducible refine runWindow_frame ?_ ?_ | with_reducible refine takeWindow_frame ?_ | with_reducible apply FrameOut.next | exact FrameOut.fault | with_reducible apply Frame.ite | with_reducible apply Frame.iteFst | with_reducible apply FrameOut.ite | fail_if_no_progress (with_reducible refine Frame.set ?_) | split | dsimp only | refine Frame.ofFst ?_ (by assumption) | refine Frame.ofSnd2 ?_ (by assumption) | refine FrameOpt.kept ?_ _ (by assumption) | refine FrameOut.kept ?_ _ (by assumption)))

theorem execWAdd_frame {t : Stamp} {p : WPacket} {s : State} {pm : List Part} {z0 : State} (hk : Frame pm z0 s) (m_time : Part.time ∈ pm := by assumption) (m_bar : Part.bar ∈ pm := by assumption) (m_host : Part.host ∈ pm := by assumption) (m_fab : Part.fab ∈ pm := by assumption) (m_win : Part.win ∈ pm := by assumption) (m_fault : Part.fault ∈ pm := by assumption) (m_pwr : Part.pwr ∈ pm := by assumption) (m_out : Part.out ∈ pm := by assumption) (m_spent : Part.spent ∈ pm := by assumption) (m_fresh : Part.fresh ∈ pm := by assumption) : FrameOut pm z0 (execWAdd t p s) := by
  unfold execWAdd
  try dsimp only
  repeat (any_goals (first | intro _ | with_reducible assumption | with_reducible refine runWindow_frame ?_ ?_ | with_reducible refine takeWindow_frame ?_ | with_reducible apply FrameOut.next | exact FrameOut.fault | with_reducible apply Frame.ite | with_reducible apply Frame.iteFst | with_reducible apply FrameOut.ite | fail_if_no_progress (with_reducible refine Frame.set ?_) | split | dsimp only | refine Frame.ofFst ?_ (by assumption) | refine Frame.ofSnd2 ?_ (by assumption) | refine FrameOpt.kept ?_ _ (by assumption) | refine FrameOut.kept ?_ _ (by assumption)))

theorem execWCas_frame {t : Stamp} {p : WPacket} {s : State} {pm : List Part} {z0 : State} (hk : Frame pm z0 s) (m_time : Part.time ∈ pm := by assumption) (m_bar : Part.bar ∈ pm := by assumption) (m_host : Part.host ∈ pm := by assumption) (m_fab : Part.fab ∈ pm := by assumption) (m_win : Part.win ∈ pm := by assumption) (m_fault : Part.fault ∈ pm := by assumption) (m_pwr : Part.pwr ∈ pm := by assumption) (m_out : Part.out ∈ pm := by assumption) (m_spent : Part.spent ∈ pm := by assumption) (m_fresh : Part.fresh ∈ pm := by assumption) : FrameOut pm z0 (execWCas t p s) := by
  unfold execWCas
  try dsimp only
  repeat (any_goals (first | intro _ | with_reducible assumption | with_reducible refine runWindow_frame ?_ ?_ | with_reducible refine takeWindow_frame ?_ | with_reducible apply FrameOut.next | exact FrameOut.fault | with_reducible apply Frame.ite | with_reducible apply Frame.iteFst | with_reducible apply FrameOut.ite | fail_if_no_progress (with_reducible refine Frame.set ?_) | split | dsimp only | refine Frame.ofFst ?_ (by assumption) | refine Frame.ofSnd2 ?_ (by assumption) | refine FrameOpt.kept ?_ _ (by assumption) | refine FrameOut.kept ?_ _ (by assumption)))

theorem execWReadResp_frame {t : Stamp} {p : WPacket} {s : State} {pm : List Part} {z0 : State} (hk : Frame pm z0 s) (m_time : Part.time ∈ pm := by assumption) (m_bar : Part.bar ∈ pm := by assumption) (m_host : Part.host ∈ pm := by assumption) (m_fab : Part.fab ∈ pm := by assumption) (m_win : Part.win ∈ pm := by assumption) (m_fault : Part.fault ∈ pm := by assumption) (m_pwr : Part.pwr ∈ pm := by assumption) (m_out : Part.out ∈ pm := by assumption) (m_spent : Part.spent ∈ pm := by assumption) : FrameOut pm z0 (execWReadResp t p s) := by
  unfold execWReadResp
  try dsimp only
  repeat (any_goals (first | intro _ | with_reducible assumption | with_reducible refine runWindow_frame ?_ ?_ | with_reducible refine takeWindowAnswer_frame ?_ ?_ | with_reducible refine windowReadResp_frame ?_ | with_reducible apply FrameOut.next | exact FrameOut.fault | with_reducible apply Frame.ite | with_reducible apply Frame.iteFst | with_reducible apply FrameOut.ite | fail_if_no_progress (with_reducible refine Frame.set ?_) | split | dsimp only | refine Frame.ofFst ?_ (by assumption) | refine Frame.ofSnd2 ?_ (by assumption) | refine FrameOpt.kept ?_ _ (by assumption) | refine FrameOut.kept ?_ _ (by assumption)))

theorem execWAtomResp_frame {t : Stamp} {p : WPacket} {s : State} {pm : List Part} {z0 : State} (hk : Frame pm z0 s) (m_time : Part.time ∈ pm := by assumption) (m_bar : Part.bar ∈ pm := by assumption) (m_host : Part.host ∈ pm := by assumption) (m_fab : Part.fab ∈ pm := by assumption) (m_win : Part.win ∈ pm := by assumption) (m_fault : Part.fault ∈ pm := by assumption) (m_pwr : Part.pwr ∈ pm := by assumption) (m_out : Part.out ∈ pm := by assumption) (m_spent : Part.spent ∈ pm := by assumption) : FrameOut pm z0 (execWAtomResp t p s) := by
  unfold execWAtomResp
  try dsimp only
  repeat (any_goals (first | intro _ | with_reducible assumption | with_reducible refine runWindow_frame ?_ ?_ | with_reducible refine takeWindowAnswer_frame ?_ ?_ | with_reducible refine windowAtomResp_frame ?_ | with_reducible apply FrameOut.next | exact FrameOut.fault | with_reducible apply Frame.ite | with_reducible apply Frame.iteFst | with_reducible apply FrameOut.ite | fail_if_no_progress (with_reducible refine Frame.set ?_) | split | dsimp only | refine Frame.ofFst ?_ (by assumption) | refine Frame.ofSnd2 ?_ (by assumption) | refine FrameOpt.kept ?_ _ (by assumption) | refine FrameOut.kept ?_ _ (by assumption)))

theorem execWAck_frame {t : Stamp} {p : WPacket} {s : State} {pm : List Part} {z0 : State} (hk : Frame pm z0 s) (m_time : Part.time ∈ pm := by assumption) (m_bar : Part.bar ∈ pm := by assumption) (m_host : Part.host ∈ pm := by assumption) (m_fab : Part.fab ∈ pm := by assumption) (m_win : Part.win ∈ pm := by assumption) (m_fault : Part.fault ∈ pm := by assumption) (m_pwr : Part.pwr ∈ pm := by assumption) (m_out : Part.out ∈ pm := by assumption) (m_spent : Part.spent ∈ pm := by assumption) : FrameOut pm z0 (execWAck t p s) := by
  unfold execWAck
  try dsimp only
  repeat (any_goals (first | intro _ | with_reducible assumption | with_reducible refine runWindow_frame ?_ ?_ | with_reducible refine takeWindowAnswer_frame ?_ ?_ | with_reducible refine windowAck_frame ?_ | with_reducible apply FrameOut.next | exact FrameOut.fault | with_reducible apply Frame.ite | with_reducible apply Frame.iteFst | with_reducible apply FrameOut.ite | fail_if_no_progress (with_reducible refine Frame.set ?_) | split | dsimp only | refine Frame.ofFst ?_ (by assumption) | refine Frame.ofSnd2 ?_ (by assumption) | refine FrameOpt.kept ?_ _ (by assumption) | refine FrameOut.kept ?_ _ (by assumption)))

end

end Sys2Proof.Machine
end

