-- ==== Sys2Proof/Laws/Frames3.lean ====
section
/-! SUPPORT. What a command may change, function by function, carried on.
`Frame ps r s` says that `s` differs from `r` at most in the parts `ps`, and keeps the queue, the stock code and the
canonical form of export memory. Each lemma carries a frame through one function of the model. -/

namespace Sys2Proof.Machine

section

set_option Elab.async false
set_option linter.all false

theorem execWNak_frame {t : Stamp} {p : WPacket} {s : State} {pm : List Part} {z0 : State} (hk : Frame pm z0 s) (m_time : Part.time ∈ pm := by assumption) (m_bar : Part.bar ∈ pm := by assumption) (m_host : Part.host ∈ pm := by assumption) (m_fab : Part.fab ∈ pm := by assumption) (m_win : Part.win ∈ pm := by assumption) (m_fault : Part.fault ∈ pm := by assumption) (m_pwr : Part.pwr ∈ pm := by assumption) (m_out : Part.out ∈ pm := by assumption) (m_spent : Part.spent ∈ pm := by assumption) : FrameOut pm z0 (execWNak t p s) := by
  unfold execWNak
  try dsimp only
  repeat (any_goals (first | intro _ | with_reducible assumption | with_reducible refine runWindow_frame ?_ ?_ | with_reducible refine takeWindowAnswer_frame ?_ ?_ | with_reducible refine windowNak_frame ?_ | with_reducible apply FrameOut.next | exact FrameOut.fault | with_reducible apply Frame.ite | with_reducible apply Frame.iteFst | with_reducible apply FrameOut.ite | fail_if_no_progress (with_reducible refine Frame.set ?_) | split | dsimp only | refine Frame.ofFst ?_ (by assumption) | refine Frame.ofSnd2 ?_ (by assumption) | refine FrameOpt.kept ?_ _ (by assumption) | refine FrameOut.kept ?_ _ (by assumption)))

theorem execWCredit_frame {t : Stamp} {p : WPacket} {s : State} {pm : List Part} {z0 : State} (hk : Frame pm z0 s) (m_time : Part.time ∈ pm := by assumption) (m_bar : Part.bar ∈ pm := by assumption) (m_fab : Part.fab ∈ pm := by assumption) (m_win : Part.win ∈ pm := by assumption) (m_pwr : Part.pwr ∈ pm := by assumption) (m_out : Part.out ∈ pm := by assumption) (m_spent : Part.spent ∈ pm := by assumption) : FrameOut pm z0 (execWCredit t p s) := by
  unfold execWCredit
  try dsimp only
  repeat (any_goals (first | intro _ | with_reducible assumption | with_reducible refine runWindow_frame ?_ ?_ | with_reducible refine takeWindowAnswer_frame ?_ ?_ | with_reducible refine raiseLimit_frame ?_ | with_reducible refine pumpQp_frame ?_ | with_reducible apply FrameOut.next | exact FrameOut.fault | with_reducible apply Frame.ite | with_reducible apply Frame.iteFst | with_reducible apply FrameOut.ite | fail_if_no_progress (with_reducible refine Frame.set ?_) | split | dsimp only | refine Frame.ofFst ?_ (by assumption) | refine Frame.ofSnd2 ?_ (by assumption) | refine FrameOpt.kept ?_ _ (by assumption) | refine FrameOut.kept ?_ _ (by assumption)))

theorem execWCreditReq_frame {t : Stamp} {p : WPacket} {s : State} {pm : List Part} {z0 : State} (hk : Frame pm z0 s) (m_time : Part.time ∈ pm := by assumption) (m_bar : Part.bar ∈ pm := by assumption) (m_host : Part.host ∈ pm := by assumption) (m_fab : Part.fab ∈ pm := by assumption) (m_win : Part.win ∈ pm := by assumption) (m_fault : Part.fault ∈ pm := by assumption) (m_pwr : Part.pwr ∈ pm := by assumption) (m_out : Part.out ∈ pm := by assumption) (m_spent : Part.spent ∈ pm := by assumption) (m_fresh : Part.fresh ∈ pm := by assumption) : FrameOut pm z0 (execWCreditReq t p s) := by
  unfold execWCreditReq
  try dsimp only
  repeat (any_goals (first | intro _ | with_reducible assumption | with_reducible refine runWindow_frame ?_ ?_ | with_reducible refine takeWindow_frame ?_ | with_reducible apply FrameOut.next | exact FrameOut.fault | with_reducible apply Frame.ite | with_reducible apply Frame.iteFst | with_reducible apply FrameOut.ite | fail_if_no_progress (with_reducible refine Frame.set ?_) | split | dsimp only | refine Frame.ofFst ?_ (by assumption) | refine Frame.ofSnd2 ?_ (by assumption) | refine FrameOpt.kept ?_ _ (by assumption) | refine FrameOut.kept ?_ _ (by assumption)))

theorem execWRetryTimeout_frame {t : Stamp} {qpn : Nat} {s : State} {pm : List Part} {z0 : State} (hk : Frame pm z0 s) (m_time : Part.time ∈ pm := by assumption) (m_bar : Part.bar ∈ pm := by assumption) (m_host : Part.host ∈ pm := by assumption) (m_fab : Part.fab ∈ pm := by assumption) (m_win : Part.win ∈ pm := by assumption) (m_fault : Part.fault ∈ pm := by assumption) (m_out : Part.out ∈ pm := by assumption) (m_spent : Part.spent ∈ pm := by assumption) : FrameOut pm z0 (execWRetryTimeout t qpn s) := by
  unfold execWRetryTimeout
  try dsimp only
  repeat (any_goals (first | intro _ | with_reducible assumption | with_reducible refine run_frame ?_ ?_ | with_reducible refine resendFrom_frame ?_ | with_reducible apply FrameOut.next | exact FrameOut.fault | with_reducible apply Frame.ite | with_reducible apply Frame.iteFst | with_reducible apply FrameOut.ite | fail_if_no_progress (with_reducible refine Frame.set ?_) | split | dsimp only | refine Frame.ofFst ?_ (by assumption) | refine Frame.ofSnd2 ?_ (by assumption) | refine FrameOpt.kept ?_ _ (by assumption) | refine FrameOut.kept ?_ _ (by assumption)))

theorem execWAckDeferred_frame {t : Stamp} {qpn : Nat} {s : State} {pm : List Part} {z0 : State} (hk : Frame pm z0 s) (m_time : Part.time ∈ pm := by assumption) (m_bar : Part.bar ∈ pm := by assumption) (m_fab : Part.fab ∈ pm := by assumption) (m_win : Part.win ∈ pm := by assumption) (m_out : Part.out ∈ pm := by assumption) (m_spent : Part.spent ∈ pm := by assumption) : FrameOut pm z0 (execWAckDeferred t qpn s) := by
  unfold execWAckDeferred
  try dsimp only
  repeat (any_goals (first | intro _ | with_reducible assumption | with_reducible refine run_frame ?_ ?_ | with_reducible refine ackThrough_frame ?_ | with_reducible apply FrameOut.next | exact FrameOut.fault | with_reducible apply Frame.ite | with_reducible apply Frame.iteFst | with_reducible apply FrameOut.ite | fail_if_no_progress (with_reducible refine Frame.set ?_) | split | dsimp only | refine Frame.ofFst ?_ (by assumption) | refine Frame.ofSnd2 ?_ (by assumption) | refine FrameOpt.kept ?_ _ (by assumption) | refine FrameOut.kept ?_ _ (by assumption)))

theorem contextLands_frame {q : Nat} {ctx : BitVec 2048} {s : State} {pm : List Part} {z0 : State} (hk : Frame pm z0 s) (m_bar : Part.bar ∈ pm := by assumption) (m_host : Part.host ∈ pm := by assumption) (m_fab : Part.fab ∈ pm := by assumption) (m_win : Part.win ∈ pm := by assumption) (m_fault : Part.fault ∈ pm := by assumption) (m_out : Part.out ∈ pm := by assumption) (m_spent : Part.spent ∈ pm := by assumption) (m_fresh : Part.fresh ∈ pm := by assumption) : Frame pm z0 (contextLands q ctx s) := by
  unfold contextLands
  try dsimp only
  repeat (any_goals (first | intro _ | with_reducible assumption | with_reducible refine touch_frame ?_ | with_reducible refine logErr_frame ?_ | with_reducible refine qpError_frame ?_ | with_reducible refine sweepClosing_frame ?_ | with_reducible refine resumeWindows_frame ?_ | with_reducible refine noteStall_frame ?_ | with_reducible refine handleRequest_frame ?_ | with_reducible apply foldl_frame | with_reducible apply foldl_frame_fst | with_reducible apply Frame.ite | with_reducible apply Frame.iteFst | fail_if_no_progress (with_reducible refine Frame.set ?_) | split | dsimp only | refine Frame.ofFst ?_ (by assumption) | refine Frame.ofSnd2 ?_ (by assumption) | refine FrameOpt.kept ?_ _ (by assumption) | refine FrameOut.kept ?_ _ (by assumption)))

theorem execContextFetchDone_frame {t : Stamp} {qpn : Nat} {ctx : BitVec 2048} {s : State} {pm : List Part} {z0 : State} (hk : Frame pm z0 s) (m_time : Part.time ∈ pm := by assumption) (m_bar : Part.bar ∈ pm := by assumption) (m_host : Part.host ∈ pm := by assumption) (m_fab : Part.fab ∈ pm := by assumption) (m_win : Part.win ∈ pm := by assumption) (m_fault : Part.fault ∈ pm := by assumption) (m_out : Part.out ∈ pm := by assumption) (m_spent : Part.spent ∈ pm := by assumption) (m_fresh : Part.fresh ∈ pm := by assumption) : FrameOut pm z0 (execContextFetchDone t qpn ctx s) := by
  unfold execContextFetchDone
  try dsimp only
  repeat (any_goals (first | intro _ | with_reducible assumption | with_reducible refine run_frame ?_ ?_ | with_reducible refine contextLands_frame ?_ | with_reducible apply FrameOut.next | exact FrameOut.fault | with_reducible apply Frame.ite | with_reducible apply Frame.iteFst | with_reducible apply FrameOut.ite | fail_if_no_progress (with_reducible refine Frame.set ?_) | split | dsimp only | refine Frame.ofFst ?_ (by assumption) | refine Frame.ofSnd2 ?_ (by assumption) | refine FrameOpt.kept ?_ _ (by assumption) | refine FrameOut.kept ?_ _ (by assumption)))

theorem execEpochStaleResponse_frame {t : Stamp} {p : Packet} {s : State} {pm : List Part} {z0 : State} (hk : Frame pm z0 s) (m_time : Part.time ∈ pm := by assumption) (m_bar : Part.bar ∈ pm := by assumption) (m_host : Part.host ∈ pm := by assumption) (m_fab : Part.fab ∈ pm := by assumption) (m_win : Part.win ∈ pm := by assumption) (m_fault : Part.fault ∈ pm := by assumption) (m_pwr : Part.pwr ∈ pm := by assumption) (m_out : Part.out ∈ pm := by assumption) (m_spent : Part.spent ∈ pm := by assumption) : FrameOut pm z0 (execEpochStaleResponse t p s) := by
  unfold execEpochStaleResponse
  try dsimp only
  repeat (any_goals (first | intro _ | with_reducible assumption | with_reducible refine runPacket_frame ?_ ?_ | with_reducible refine count_frame ?_ | with_reducible refine forwardPacket_frame ?_ | with_reducible refine windowStale_frame ?_ | with_reducible refine takeStale_frame ?_ | with_reducible apply FrameOut.next | exact FrameOut.fault | with_reducible apply Frame.ite | with_reducible apply Frame.iteFst | with_reducible apply FrameOut.ite | fail_if_no_progress (with_reducible refine Frame.set ?_) | split | dsimp only | refine Frame.ofFst ?_ (by assumption) | refine Frame.ofSnd2 ?_ (by assumption) | refine FrameOpt.kept ?_ _ (by assumption) | refine FrameOut.kept ?_ _ (by assumption)))

theorem startTraining_frame {s : State} {l : Nat} {pm : List Part} {z0 : State} (hk : Frame pm z0 s) (m_fab : Part.fab ∈ pm := by assumption) : Frame pm z0 (startTraining s l) := by
  unfold startTraining
  try dsimp only
  repeat (any_goals (first | intro _ | with_reducible assumption | with_reducible refine setLink_frame ?_ | with_reducible apply Frame.ite | with_reducible apply Frame.iteFst | fail_if_no_progress (with_reducible refine Frame.set ?_) | split | dsimp only | refine Frame.ofFst ?_ (by assumption) | refine Frame.ofSnd2 ?_ (by assumption) | refine FrameOpt.kept ?_ _ (by assumption) | refine FrameOut.kept ?_ _ (by assumption)))

theorem refuseLink_frame {s : State} {l : Nat} {pm : List Part} {z0 : State} (hk : Frame pm z0 s) (m_bar : Part.bar ∈ pm := by assumption) (m_fab : Part.fab ∈ pm := by assumption) (m_fault : Part.fault ∈ pm := by assumption) (m_out : Part.out ∈ pm := by assumption) (m_spent : Part.spent ∈ pm := by assumption) : Frame pm z0 (refuseLink s l) := by
  unfold refuseLink
  try dsimp only
  repeat (any_goals (first | intro _ | with_reducible assumption | with_reducible refine linkDown_frame ?_ | with_reducible apply Frame.ite | with_reducible apply Frame.iteFst | fail_if_no_progress (with_reducible refine Frame.set ?_) | split | dsimp only | refine Frame.ofFst ?_ (by assumption) | refine Frame.ofSnd2 ?_ (by assumption) | refine FrameOpt.kept ?_ _ (by assumption) | refine FrameOut.kept ?_ _ (by assumption)))

theorem failExchange_frame {s : State} {l : Nat} {sendAbort : Bool} {pm : List Part} {z0 : State} (hk : Frame pm z0 s) (m_bar : Part.bar ∈ pm := by assumption) (m_fab : Part.fab ∈ pm := by assumption) (m_fault : Part.fault ∈ pm := by assumption) (m_out : Part.out ∈ pm := by assumption) (m_spent : Part.spent ∈ pm := by assumption) : Frame pm z0 (failExchange s l sendAbort) := by
  unfold failExchange
  try dsimp only
  repeat (any_goals (first | intro _ | with_reducible assumption | with_reducible refine onLink_frame ?_ | with_reducible refine logErr_frame ?_ | with_reducible refine refuseLink_frame ?_ | with_reducible refine setLink_frame ?_ | with_reducible apply Frame.ite | with_reducible apply Frame.iteFst | fail_if_no_progress (with_reducible refine Frame.set ?_) | split | dsimp only | refine Frame.ofFst ?_ (by assumption) | refine Frame.ofSnd2 ?_ (by assumption) | refine FrameOpt.kept ?_ _ (by assumption) | refine FrameOut.kept ?_ _ (by assumption)))

theorem linkReady_frame {s : State} {l : Nat} {pm : List Part} {z0 : State} (hk : Frame pm z0 s) (m_fab : Part.fab ∈ pm := by assumption) (m_out : Part.out ∈ pm := by assumption) : Frame pm z0 (linkReady s l) := by
  unfold linkReady
  try dsimp only
  repeat (any_goals (first | intro _ | with_reducible assumption | with_reducible refine setLink_frame ?_ | with_reducible refine onLink_frame ?_ | with_reducible apply Frame.ite | with_reducible apply Frame.iteFst | fail_if_no_progress (with_reducible refine Frame.set ?_) | split | dsimp only | refine Frame.ofFst ?_ (by assumption) | refine Frame.ofSnd2 ?_ (by assumption) | refine FrameOpt.kept ?_ _ (by assumption) | refine FrameOut.kept ?_ _ (by assumption)))

theorem sendHello_frame {s : State} {l : Nat} {pm : List Part} {z0 : State} (hk : Frame pm z0 s) (m_fab : Part.fab ∈ pm := by assumption) (m_out : Part.out ∈ pm := by assumption) (m_fresh : Part.fresh ∈ pm := by assumption) : Frame pm z0 (sendHello s l) := by
  unfold sendHello
  try dsimp only
  repeat (any_goals (first | intro _ | with_reducible assumption | with_reducible refine setLink_frame ?_ | with_reducible refine onLink_frame ?_ | with_reducible refine State_bump_frame ?_ | with_reducible apply Frame.ite | with_reducible apply Frame.iteFst | fail_if_no_progress (with_reducible refine Frame.set ?_) | split | dsimp only | refine Frame.ofFst ?_ (by assumption) | refine Frame.ofSnd2 ?_ (by assumption) | refine FrameOpt.kept ?_ _ (by assumption) | refine FrameOut.kept ?_ _ (by assumption)))

theorem sendKem_frame {s : State} {l : Nat} {m : KeyMsg} {pm : List Part} {z0 : State} (hk : Frame pm z0 s) (m_fab : Part.fab ∈ pm := by assumption) (m_out : Part.out ∈ pm := by assumption) (m_fresh : Part.fresh ∈ pm := by assumption) : Frame pm z0 (sendKem s l m) := by
  unfold sendKem
  try dsimp only
  repeat (any_goals (first | intro _ | with_reducible assumption | with_reducible refine setLink_frame ?_ | with_reducible refine State_bump_frame ?_ | with_reducible refine onLink_frame ?_ | with_reducible apply Frame.ite | with_reducible apply Frame.iteFst | fail_if_no_progress (with_reducible refine Frame.set ?_) | split | dsimp only | refine Frame.ofFst ?_ (by assumption) | refine Frame.ofSnd2 ?_ (by assumption) | refine FrameOpt.kept ?_ _ (by assumption) | refine FrameOut.kept ?_ _ (by assumption)))

theorem execCableInsert_frame {t : Stamp} {cage : Nat} {s : State} {pm : List Part} {z0 : State} (hk : Frame pm z0 s) (m_time : Part.time ∈ pm := by assumption) (m_fab : Part.fab ∈ pm := by assumption) : FrameOut pm z0 (execCableInsert t cage s) := by
  unfold execCableInsert
  try dsimp only
  repeat (any_goals (first | intro _ | with_reducible assumption | with_reducible refine run_frame ?_ ?_ | with_reducible refine setLink_frame ?_ | with_reducible refine startTraining_frame ?_ | with_reducible apply foldl_frame | with_reducible apply foldl_frame_fst | with_reducible apply FrameOut.next | exact FrameOut.fault | with_reducible apply Frame.ite | with_reducible apply Frame.iteFst | with_reducible apply FrameOut.ite | fail_if_no_progress (with_reducible refine Frame.set ?_) | split | dsimp only | refine Frame.ofFst ?_ (by assumption) | refine Frame.ofSnd2 ?_ (by assumption) | refine FrameOpt.kept ?_ _ (by assumption) | refine FrameOut.kept ?_ _ (by assumption)))

theorem stepDone_frame {l : Nat} {lanes : BitVec 2} {s : State} {pm : List Part} {z0 : State} (hk : Frame pm z0 s) (m_bar : Part.bar ∈ pm := by assumption) (m_fab : Part.fab ∈ pm := by assumption) (m_fault : Part.fault ∈ pm := by assumption) (m_out : Part.out ∈ pm := by assumption) (m_spent : Part.spent ∈ pm := by assumption) : Frame pm z0 (stepDone l lanes s) := by
  unfold stepDone
  try dsimp only
  repeat (any_goals (first | intro _ | with_reducible assumption | with_reducible refine linkDown_frame ?_ | with_reducible refine setLink_frame ?_ | with_reducible refine onLink_frame ?_ | with_reducible refine linkReady_frame ?_ | with_reducible apply Frame.ite | with_reducible apply Frame.iteFst | fail_if_no_progress (with_reducible refine Frame.set ?_) | split | dsimp only | refine Frame.ofFst ?_ (by assumption) | refine Frame.ofSnd2 ?_ (by assumption) | refine FrameOpt.kept ?_ _ (by assumption) | refine FrameOut.kept ?_ _ (by assumption)))

theorem execTrainingStepDone_frame {t : Stamp} {link : Nat} {lanes : BitVec 2} {s : State} {pm : List Part} {z0 : State} (hk : Frame pm z0 s) (m_time : Part.time ∈ pm := by assumption) (m_bar : Part.bar ∈ pm := by assumption) (m_fab : Part.fab ∈ pm := by assumption) (m_fault : Part.fault ∈ pm := by assumption) (m_out : Part.out ∈ pm := by assumption) (m_spent : Part.spent ∈ pm := by assumption) : FrameOut pm z0 (execTrainingStepDone t link lanes s) := by
  unfold execTrainingStepDone
  try dsimp only
  repeat (any_goals (first | intro _ | with_reducible assumption | with_reducible refine run_frame ?_ ?_ | with_reducible refine stepDone_frame ?_ | with_reducible apply FrameOut.next | exact FrameOut.fault | with_reducible apply Frame.ite | with_reducible apply Frame.iteFst | with_reducible apply FrameOut.ite | fail_if_no_progress (with_reducible refine Frame.set ?_) | split | dsimp only | refine Frame.ofFst ?_ (by assumption) | refine Frame.ofSnd2 ?_ (by assumption) | refine FrameOpt.kept ?_ _ (by assumption) | refine FrameOut.kept ?_ _ (by assumption)))

theorem execTrainingStepTimeout_frame {t : Stamp} {link : Nat} {s : State} {pm : List Part} {z0 : State} (hk : Frame pm z0 s) (m_time : Part.time ∈ pm := by assumption) (m_bar : Part.bar ∈ pm := by assumption) (m_fab : Part.fab ∈ pm := by assumption) (m_fault : Part.fault ∈ pm := by assumption) (m_out : Part.out ∈ pm := by assumption) (m_spent : Part.spent ∈ pm := by assumption) : FrameOut pm z0 (execTrainingStepTimeout t link s) := by
  unfold execTrainingStepTimeout
  try dsimp only
  repeat (any_goals (first | intro _ | with_reducible assumption | with_reducible refine run_frame ?_ ?_ | with_reducible refine failExchange_frame ?_ | with_reducible refine linkDown_frame ?_ | with_reducible apply FrameOut.next | exact FrameOut.fault | with_reducible apply Frame.ite | with_reducible apply Frame.iteFst | with_reducible apply FrameOut.ite | fail_if_no_progress (with_reducible refine Frame.set ?_) | split | dsimp only | refine Frame.ofFst ?_ (by assumption) | refine Frame.ofSnd2 ?_ (by assumption) | refine FrameOpt.kept ?_ _ (by assumption) | refine FrameOut.kept ?_ _ (by assumption)))

theorem execTrainingRetry_frame {t : Stamp} {link : Nat} {s : State} {pm : List Part} {z0 : State} (hk : Frame pm z0 s) (m_time : Part.time ∈ pm := by assumption) (m_fab : Part.fab ∈ pm := by assumption) : FrameOut pm z0 (execTrainingRetry t link s) := by
  unfold execTrainingRetry
  try dsimp only
  repeat (any_goals (first | intro _ | with_reducible assumption | with_reducible refine run_frame ?_ ?_ | with_reducible refine startTraining_frame ?_ | with_reducible apply FrameOut.next | exact FrameOut.fault | with_reducible apply Frame.ite | with_reducible apply Frame.iteFst | with_reducible apply FrameOut.ite | fail_if_no_progress (with_reducible refine Frame.set ?_) | split | dsimp only | refine Frame.ofFst ?_ (by assumption) | refine Frame.ofSnd2 ?_ (by assumption) | refine FrameOpt.kept ?_ _ (by assumption) | refine FrameOut.kept ?_ _ (by assumption)))

theorem identReceived_frame {l : Nat} {id : Ident} {s : State} {pm : List Part} {z0 : State} (hk : Frame pm z0 s) (m_bar : Part.bar ∈ pm := by assumption) (m_fab : Part.fab ∈ pm := by assumption) (m_fault : Part.fault ∈ pm := by assumption) (m_out : Part.out ∈ pm := by assumption) (m_spent : Part.spent ∈ pm := by assumption) (m_fresh : Part.fresh ∈ pm := by assumption) : Frame pm z0 (identReceived l id s) := by
  unfold identReceived
  try dsimp only
  repeat (any_goals (first | intro _ | with_reducible assumption | with_reducible refine setLink_frame ?_ | with_reducible refine refuseLink_frame ?_ | with_reducible refine sendHello_frame ?_ | with_reducible apply Frame.ite | with_reducible apply Frame.iteFst | fail_if_no_progress (with_reducible refine Frame.set ?_) | split | dsimp only | refine Frame.ofFst ?_ (by assumption) | refine Frame.ofSnd2 ?_ (by assumption) | refine FrameOpt.kept ?_ _ (by assumption) | refine FrameOut.kept ?_ _ (by assumption)))

theorem execIdentReceive_frame {t : Stamp} {link : Nat} {id : Ident} {s : State} {pm : List Part} {z0 : State} (hk : Frame pm z0 s) (m_time : Part.time ∈ pm := by assumption) (m_bar : Part.bar ∈ pm := by assumption) (m_fab : Part.fab ∈ pm := by assumption) (m_fault : Part.fault ∈ pm := by assumption) (m_out : Part.out ∈ pm := by assumption) (m_spent : Part.spent ∈ pm := by assumption) (m_fresh : Part.fresh ∈ pm := by assumption) : FrameOut pm z0 (execIdentReceive t link id s) := by
  unfold execIdentReceive
  try dsimp only
  repeat (any_goals (first | intro _ | with_reducible assumption | with_reducible refine run_frame ?_ ?_ | with_reducible refine identReceived_frame ?_ | with_reducible apply FrameOut.next | exact FrameOut.fault | with_reducible apply Frame.ite | with_reducible apply Frame.iteFst | with_reducible apply FrameOut.ite | fail_if_no_progress (with_reducible refine Frame.set ?_) | split | dsimp only | refine Frame.ofFst ?_ (by assumption) | refine Frame.ofSnd2 ?_ (by assumption) | refine FrameOpt.kept ?_ _ (by assumption) | refine FrameOut.kept ?_ _ (by assumption)))

theorem execKeyHello_frame {t : Stamp} {link : Nat} {m : KeyMsg} {s : State} {pm : List Part} {z0 : State} (hk : Frame pm z0 s) (m_time : Part.time ∈ pm := by assumption) (m_bar : Part.bar ∈ pm := by assumption) (m_fab : Part.fab ∈ pm := by assumption) (m_fault : Part.fault ∈ pm := by assumption) (m_out : Part.out ∈ pm := by assumption) (m_spent : Part.spent ∈ pm := by assumption) (m_fresh : Part.fresh ∈ pm := by assumption) : FrameOut pm z0 (execKeyHello t link m s) := by
  unfold execKeyHello
  try dsimp only
  repeat (any_goals (first | intro _ | with_reducible assumption | with_reducible refine run_frame ?_ ?_ | with_reducible refine sendKem_frame ?_ | with_reducible refine failExchange_frame ?_ | with_reducible apply FrameOut.next | exact FrameOut.fault | with_reducible apply Frame.ite | with_reducible apply Frame.iteFst | with_reducible apply FrameOut.ite | fail_if_no_progress (with_reducible refine Frame.set ?_) | split | dsimp only | refine Frame.ofFst ?_ (by assumption) | refine Frame.ofSnd2 ?_ (by assumption) | refine FrameOpt.kept ?_ _ (by assumption) | refine FrameOut.kept ?_ _ (by assumption)))

theorem takeSecret_frame {s : State} {l : Nat} {peerCt : List Byte} {pm : List Part} {z0 : State} (hk : Frame pm z0 s) (m_fab : Part.fab ∈ pm := by assumption) (m_out : Part.out ∈ pm := by assumption) : Frame pm z0 (takeSecret s l peerCt) := by
  unfold takeSecret
  try dsimp only
  repeat (any_goals (first | intro _ | with_reducible assumption | with_reducible refine setLink_frame ?_ | with_reducible refine onLink_frame ?_ | with_reducible apply Frame.ite | with_reducible apply Frame.iteFst | fail_if_no_progress (with_reducible refine Frame.set ?_) | split | dsimp only | refine Frame.ofFst ?_ (by assumption) | refine Frame.ofSnd2 ?_ (by assumption) | refine FrameOpt.kept ?_ _ (by assumption) | refine FrameOut.kept ?_ _ (by assumption)))

theorem execKeyKem_frame {t : Stamp} {link : Nat} {m : KeyMsg} {s : State} {pm : List Part} {z0 : State} (hk : Frame pm z0 s) (m_time : Part.time ∈ pm := by assumption) (m_bar : Part.bar ∈ pm := by assumption) (m_fab : Part.fab ∈ pm := by assumption) (m_fault : Part.fault ∈ pm := by assumption) (m_out : Part.out ∈ pm := by assumption) (m_spent : Part.spent ∈ pm := by assumption) : FrameOut pm z0 (execKeyKem t link m s) := by
  unfold execKeyKem
  try dsimp only
  repeat (any_goals (first | intro _ | with_reducible assumption | with_reducible refine run_frame ?_ ?_ | with_reducible refine takeSecret_frame ?_ | with_reducible refine failExchange_frame ?_ | with_reducible apply FrameOut.next | exact FrameOut.fault | with_reducible apply Frame.ite | with_reducible apply Frame.iteFst | with_reducible apply FrameOut.ite | fail_if_no_progress (with_reducible refine Frame.set ?_) | split | dsimp only | refine Frame.ofFst ?_ (by assumption) | refine Frame.ofSnd2 ?_ (by assumption) | refine FrameOpt.kept ?_ _ (by assumption) | refine FrameOut.kept ?_ _ (by assumption)))

theorem execKeyAbort_frame {t : Stamp} {link : Nat} {sent : Bool} {s : State} {pm : List Part} {z0 : State} (hk : Frame pm z0 s) (m_time : Part.time ∈ pm := by assumption) (m_bar : Part.bar ∈ pm := by assumption) (m_fab : Part.fab ∈ pm := by assumption) (m_fault : Part.fault ∈ pm := by assumption) (m_out : Part.out ∈ pm := by assumption) (m_spent : Part.spent ∈ pm := by assumption) : FrameOut pm z0 (execKeyAbort t link sent s) := by
  unfold execKeyAbort
  try dsimp only
  repeat (any_goals (first | intro _ | with_reducible assumption | with_reducible refine run_frame ?_ ?_ | with_reducible refine failExchange_frame ?_ | with_reducible apply FrameOut.next | exact FrameOut.fault | with_reducible apply Frame.ite | with_reducible apply Frame.iteFst | with_reducible apply FrameOut.ite | fail_if_no_progress (with_reducible refine Frame.set ?_) | split | dsimp only | refine Frame.ofFst ?_ (by assumption) | refine Frame.ofSnd2 ?_ (by assumption) | refine FrameOpt.kept ?_ _ (by assumption) | refine FrameOut.kept ?_ _ (by assumption)))

theorem execRefusedRetry_frame {t : Stamp} {link : Nat} {s : State} {pm : List Part} {z0 : State} (hk : Frame pm z0 s) (m_time : Part.time ∈ pm := by assumption) (m_fab : Part.fab ∈ pm := by assumption) : FrameOut pm z0 (execRefusedRetry t link s) := by
  unfold execRefusedRetry
  try dsimp only
  repeat (any_goals (first | intro _ | with_reducible assumption | with_reducible refine run_frame ?_ ?_ | with_reducible refine startTraining_frame ?_ | with_reducible apply FrameOut.next | exact FrameOut.fault | with_reducible apply Frame.ite | with_reducible apply Frame.iteFst | with_reducible apply FrameOut.ite | fail_if_no_progress (with_reducible refine Frame.set ?_) | split | dsimp only | refine Frame.ofFst ?_ (by assumption) | refine Frame.ofSnd2 ?_ (by assumption) | refine FrameOpt.kept ?_ _ (by assumption) | refine FrameOut.kept ?_ _ (by assumption)))

theorem addCredit_frame {s : State} {l : Nat} {cls : Nat} {n : Nat} {pm : List Part} {z0 : State} (hk : Frame pm z0 s) (m_fab : Part.fab ∈ pm := by assumption) (m_out : Part.out ∈ pm := by assumption) : Frame pm z0 (addCredit s l cls n) := by
  unfold addCredit
  try dsimp only
  repeat (any_goals (first | intro _ | with_reducible assumption | with_reducible refine drainLink_frame ?_ | with_reducible refine setLink_frame ?_ | with_reducible apply Frame.ite | with_reducible apply Frame.iteFst | fail_if_no_progress (with_reducible refine Frame.set ?_) | split | dsimp only | refine Frame.ofFst ?_ (by assumption) | refine Frame.ofSnd2 ?_ (by assumption) | refine FrameOpt.kept ?_ _ (by assumption) | refine FrameOut.kept ?_ _ (by assumption)))

theorem sendNak_frame {s : State} {l : Nat} {pm : List Part} {z0 : State} (hk : Frame pm z0 s) (m_fab : Part.fab ∈ pm := by assumption) (m_out : Part.out ∈ pm := by assumption) : Frame pm z0 (sendNak s l) := by
  unfold sendNak
  try dsimp only
  repeat (any_goals (first | intro _ | with_reducible assumption | with_reducible refine onLink_frame ?_ | with_reducible refine setLink_frame ?_ | with_reducible apply Frame.ite | with_reducible apply Frame.iteFst | fail_if_no_progress (with_reducible refine Frame.set ?_) | split | dsimp only | refine Frame.ofFst ?_ (by assumption) | refine Frame.ofSnd2 ?_ (by assumption) | refine FrameOpt.kept ?_ _ (by assumption) | refine FrameOut.kept ?_ _ (by assumption)))

theorem flitReceived_frame {l : Nat} {hdr : Word} {fecOk : Bool} {crcOk : Bool} {tagOk : Bool} {s : State} {pm : List Part} {z0 : State} (hk : Frame pm z0 s) (m_bar : Part.bar ∈ pm := by assumption) (m_fab : Part.fab ∈ pm := by assumption) (m_fault : Part.fault ∈ pm := by assumption) (m_out : Part.out ∈ pm := by assumption) (m_spent : Part.spent ∈ pm := by assumption) : Frame pm z0 (flitReceived l hdr fecOk crcOk tagOk s) := by
  unfold flitReceived
  try dsimp only
  repeat (any_goals (first | intro _ | with_reducible assumption | with_reducible refine sendNak_frame ?_ | with_reducible refine linkDown_frame ?_ | with_reducible refine setLink_frame ?_ | with_reducible refine addCredit_frame ?_ | with_reducible apply Frame.ite | with_reducible apply Frame.iteFst | fail_if_no_progress (with_reducible refine Frame.set ?_) | split | dsimp only | refine Frame.ofFst ?_ (by assumption) | refine Frame.ofSnd2 ?_ (by assumption) | refine FrameOpt.kept ?_ _ (by assumption) | refine FrameOut.kept ?_ _ (by assumption)))

theorem execFlitReceive_frame {t : Stamp} {link : Nat} {hdr : Word} {fecOk : Bool} {crcOk : Bool} {tagOk : Bool} {s : State} {pm : List Part} {z0 : State} (hk : Frame pm z0 s) (m_time : Part.time ∈ pm := by assumption) (m_bar : Part.bar ∈ pm := by assumption) (m_fab : Part.fab ∈ pm := by assumption) (m_fault : Part.fault ∈ pm := by assumption) (m_out : Part.out ∈ pm := by assumption) (m_spent : Part.spent ∈ pm := by assumption) : FrameOut pm z0 (execFlitReceive t link hdr fecOk crcOk tagOk s) := by
  unfold execFlitReceive
  try dsimp only
  repeat (any_goals (first | intro _ | with_reducible assumption | with_reducible refine run_frame ?_ ?_ | with_reducible refine flitReceived_frame ?_ | with_reducible apply FrameOut.next | exact FrameOut.fault | with_reducible apply Frame.ite | with_reducible apply Frame.iteFst | with_reducible apply FrameOut.ite | fail_if_no_progress (with_reducible refine Frame.set ?_) | split | dsimp only | refine Frame.ofFst ?_ (by assumption) | refine Frame.ofSnd2 ?_ (by assumption) | refine FrameOpt.kept ?_ _ (by assumption) | refine FrameOut.kept ?_ _ (by assumption)))

theorem dropLane_frame {s : State} {l : Nat} {lane : Nat} {pm : List Part} {z0 : State} (hk : Frame pm z0 s) (m_bar : Part.bar ∈ pm := by assumption) (m_fab : Part.fab ∈ pm := by assumption) (m_fault : Part.fault ∈ pm := by assumption) (m_out : Part.out ∈ pm := by assumption) (m_spent : Part.spent ∈ pm := by assumption) : Frame pm z0 (dropLane s l lane) := by
  unfold dropLane
  try dsimp only
  repeat (any_goals (first | intro _ | with_reducible assumption | with_reducible refine linkDown_frame ?_ | with_reducible refine logErr_frame ?_ | with_reducible refine setLink_frame ?_ | with_reducible refine onLink_frame ?_ | with_reducible apply Frame.ite | with_reducible apply Frame.iteFst | fail_if_no_progress (with_reducible refine Frame.set ?_) | split | dsimp only | refine Frame.ofFst ?_ (by assumption) | refine Frame.ofSnd2 ?_ (by assumption) | refine FrameOpt.kept ?_ _ (by assumption) | refine FrameOut.kept ?_ _ (by assumption)))

theorem nakReceived_frame {l : Nat} {fseq : Nat} {s : State} {pm : List Part} {z0 : State} (hk : Frame pm z0 s) (m_bar : Part.bar ∈ pm := by assumption) (m_fab : Part.fab ∈ pm := by assumption) (m_fault : Part.fault ∈ pm := by assumption) (m_out : Part.out ∈ pm := by assumption) (m_spent : Part.spent ∈ pm := by assumption) : Frame pm z0 (nakReceived l fseq s) := by
  unfold nakReceived
  try dsimp only
  repeat (any_goals (first | intro _ | with_reducible assumption | with_reducible refine dropLane_frame ?_ | with_reducible refine linkDown_frame ?_ | with_reducible refine onLink_frame ?_ | with_reducible refine setLink_frame ?_ | with_reducible apply Frame.ite | with_reducible apply Frame.iteFst | fail_if_no_progress (with_reducible refine Frame.set ?_) | split | dsimp only | refine Frame.ofFst ?_ (by assumption) | refine Frame.ofSnd2 ?_ (by assumption) | refine FrameOpt.kept ?_ _ (by assumption) | refine FrameOut.kept ?_ _ (by assumption)))

theorem execNakRecord_frame {t : Stamp} {link : Nat} {fseq : Nat} {s : State} {pm : List Part} {z0 : State} (hk : Frame pm z0 s) (m_time : Part.time ∈ pm := by assumption) (m_bar : Part.bar ∈ pm := by assumption) (m_fab : Part.fab ∈ pm := by assumption) (m_fault : Part.fault ∈ pm := by assumption) (m_out : Part.out ∈ pm := by assumption) (m_spent : Part.spent ∈ pm := by assumption) : FrameOut pm z0 (execNakRecord t link fseq s) := by
  unfold execNakRecord
  try dsimp only
  repeat (any_goals (first | intro _ | with_reducible assumption | with_reducible refine run_frame ?_ ?_ | with_reducible refine nakReceived_frame ?_ | with_reducible apply FrameOut.next | exact FrameOut.fault | with_reducible apply Frame.ite | with_reducible apply Frame.iteFst | with_reducible apply FrameOut.ite | fail_if_no_progress (with_reducible refine Frame.set ?_) | split | dsimp only | refine Frame.ofFst ?_ (by assumption) | refine Frame.ofSnd2 ?_ (by assumption) | refine FrameOpt.kept ?_ _ (by assumption) | refine FrameOut.kept ?_ _ (by assumption)))

theorem execCreditRecord_frame {t : Stamp} {link : Nat} {req : Nat} {resp : Nat} {xfer : Nat} {win : Nat} {s : State} {pm : List Part} {z0 : State} (hk : Frame pm z0 s) (m_time : Part.time ∈ pm := by assumption) (m_fab : Part.fab ∈ pm := by assumption) (m_out : Part.out ∈ pm := by assumption) : FrameOut pm z0 (execCreditRecord t link req resp xfer win s) := by
  unfold execCreditRecord
  try dsimp only
  repeat (any_goals (first | intro _ | with_reducible assumption | with_reducible refine run_frame ?_ ?_ | with_reducible refine addCredit_frame ?_ | with_reducible apply FrameOut.next | exact FrameOut.fault | with_reducible apply Frame.ite | with_reducible apply Frame.iteFst | with_reducible apply FrameOut.ite | fail_if_no_progress (with_reducible refine Frame.set ?_) | split | dsimp only | refine Frame.ofFst ?_ (by assumption) | refine Frame.ofSnd2 ?_ (by assumption) | refine FrameOpt.kept ?_ _ (by assumption) | refine FrameOut.kept ?_ _ (by assumption)))

theorem execLaneRecord_frame {t : Stamp} {link : Nat} {errs0 : Nat} {errs1 : Nat} {drop : Option Nat} {s : State} {pm : List Part} {z0 : State} (hk : Frame pm z0 s) (m_time : Part.time ∈ pm := by assumption) (m_bar : Part.bar ∈ pm := by assumption) (m_fab : Part.fab ∈ pm := by assumption) (m_fault : Part.fault ∈ pm := by assumption) (m_out : Part.out ∈ pm := by assumption) (m_spent : Part.spent ∈ pm := by assumption) : FrameOut pm z0 (execLaneRecord t link errs0 errs1 drop s) := by
  unfold execLaneRecord
  try dsimp only
  repeat (any_goals (first | intro _ | with_reducible assumption | with_reducible refine run_frame ?_ ?_ | with_reducible refine setLink_frame ?_ | with_reducible refine dropLane_frame ?_ | with_reducible apply FrameOut.next | exact FrameOut.fault | with_reducible apply Frame.ite | with_reducible apply Frame.iteFst | with_reducible apply FrameOut.ite | fail_if_no_progress (with_reducible refine Frame.set ?_) | split | dsimp only | refine Frame.ofFst ?_ (by assumption) | refine Frame.ofSnd2 ?_ (by assumption) | refine FrameOpt.kept ?_ _ (by assumption) | refine FrameOut.kept ?_ _ (by assumption)))

theorem execRekeyRecord_frame {t : Stamp} {link : Nat} {keyIdx : Nat} {fseq : Nat} {s : State} {pm : List Part} {z0 : State} (hk : Frame pm z0 s) (m_time : Part.time ∈ pm := by assumption) (m_fab : Part.fab ∈ pm := by assumption) : FrameOut pm z0 (execRekeyRecord t link keyIdx fseq s) := by
  unfold execRekeyRecord
  try dsimp only
  repeat (any_goals (first | intro _ | with_reducible assumption | with_reducible refine run_frame ?_ ?_ | with_reducible refine setLink_frame ?_ | with_reducible apply FrameOut.next | exact FrameOut.fault | with_reducible apply Frame.ite | with_reducible apply Frame.iteFst | with_reducible apply FrameOut.ite | fail_if_no_progress (with_reducible refine Frame.set ?_) | split | dsimp only | refine Frame.ofFst ?_ (by assumption) | refine Frame.ofSnd2 ?_ (by assumption) | refine FrameOpt.kept ?_ _ (by assumption) | refine FrameOut.kept ?_ _ (by assumption)))

theorem execLaneDrop_frame {t : Stamp} {link : Nat} {lane : Nat} {s : State} {pm : List Part} {z0 : State} (hk : Frame pm z0 s) (m_time : Part.time ∈ pm := by assumption) (m_bar : Part.bar ∈ pm := by assumption) (m_fab : Part.fab ∈ pm := by assumption) (m_fault : Part.fault ∈ pm := by assumption) (m_out : Part.out ∈ pm := by assumption) (m_spent : Part.spent ∈ pm := by assumption) : FrameOut pm z0 (execLaneDrop t link lane s) := by
  unfold execLaneDrop
  try dsimp only
  repeat (any_goals (first | intro _ | with_reducible assumption | with_reducible refine run_frame ?_ ?_ | with_reducible refine dropLane_frame ?_ | with_reducible apply FrameOut.next | exact FrameOut.fault | with_reducible apply Frame.ite | with_reducible apply Frame.iteFst | with_reducible apply FrameOut.ite | fail_if_no_progress (with_reducible refine Frame.set ?_) | split | dsimp only | refine Frame.ofFst ?_ (by assumption) | refine Frame.ofSnd2 ?_ (by assumption) | refine FrameOpt.kept ?_ _ (by assumption) | refine FrameOut.kept ?_ _ (by assumption)))

theorem execLaneRetry_frame {t : Stamp} {link : Nat} {success : Bool} {s : State} {pm : List Part} {z0 : State} (hk : Frame pm z0 s) (m_time : Part.time ∈ pm := by assumption) (m_fab : Part.fab ∈ pm := by assumption) (m_out : Part.out ∈ pm := by assumption) : FrameOut pm z0 (execLaneRetry t link success s) := by
  unfold execLaneRetry
  try dsimp only
  repeat (any_goals (first | intro _ | with_reducible assumption | with_reducible refine run_frame ?_ ?_ | with_reducible refine drainLink_frame ?_ | with_reducible refine setLink_frame ?_ | with_reducible apply FrameOut.next | exact FrameOut.fault | with_reducible apply Frame.ite | with_reducible apply Frame.iteFst | with_reducible apply FrameOut.ite | fail_if_no_progress (with_reducible refine Frame.set ?_) | split | dsimp only | refine Frame.ofFst ?_ (by assumption) | refine Frame.ofSnd2 ?_ (by assumption) | refine FrameOpt.kept ?_ _ (by assumption) | refine FrameOut.kept ?_ _ (by assumption)))

theorem execKeyRollover_frame {t : Stamp} {link : Nat} {s : State} {pm : List Part} {z0 : State} (hk : Frame pm z0 s) (m_time : Part.time ∈ pm := by assumption) (m_fab : Part.fab ∈ pm := by assumption) (m_out : Part.out ∈ pm := by assumption) : FrameOut pm z0 (execKeyRollover t link s) := by
  unfold execKeyRollover
  try dsimp only
  repeat (any_goals (first | intro _ | with_reducible assumption | with_reducible refine run_frame ?_ ?_ | with_reducible refine onLink_frame ?_ | with_reducible refine setLink_frame ?_ | with_reducible apply FrameOut.next | exact FrameOut.fault | with_reducible apply Frame.ite | with_reducible apply Frame.iteFst | with_reducible apply FrameOut.ite | fail_if_no_progress (with_reducible refine Frame.set ?_) | split | dsimp only | refine Frame.ofFst ?_ (by assumption) | refine Frame.ofSnd2 ?_ (by assumption) | refine FrameOpt.kept ?_ _ (by assumption) | refine FrameOut.kept ?_ _ (by assumption)))

theorem execFreshExchange_frame {t : Stamp} {link : Nat} {s : State} {pm : List Part} {z0 : State} (hk : Frame pm z0 s) (m_time : Part.time ∈ pm := by assumption) (m_fab : Part.fab ∈ pm := by assumption) (m_out : Part.out ∈ pm := by assumption) (m_fresh : Part.fresh ∈ pm := by assumption) : FrameOut pm z0 (execFreshExchange t link s) := by
  unfold execFreshExchange
  try dsimp only
  repeat (any_goals (first | intro _ | with_reducible assumption | with_reducible refine run_frame ?_ ?_ | with_reducible refine sendHello_frame ?_ | with_reducible apply FrameOut.next | exact FrameOut.fault | with_reducible apply Frame.ite | with_reducible apply Frame.iteFst | with_reducible apply FrameOut.ite | fail_if_no_progress (with_reducible refine Frame.set ?_) | split | dsimp only | refine Frame.ofFst ?_ (by assumption) | refine Frame.ofSnd2 ?_ (by assumption) | refine FrameOpt.kept ?_ _ (by assumption) | refine FrameOut.kept ?_ _ (by assumption)))

theorem execFreshExchangeRetry_frame {t : Stamp} {link : Nat} {s : State} {pm : List Part} {z0 : State} (hk : Frame pm z0 s) (m_time : Part.time ∈ pm := by assumption) (m_fab : Part.fab ∈ pm := by assumption) (m_out : Part.out ∈ pm := by assumption) (m_fresh : Part.fresh ∈ pm := by assumption) : FrameOut pm z0 (execFreshExchangeRetry t link s) := by
  unfold execFreshExchangeRetry
  try dsimp only
  repeat (any_goals (first | intro _ | with_reducible assumption | with_reducible refine run_frame ?_ ?_ | with_reducible refine sendHello_frame ?_ | with_reducible apply FrameOut.next | exact FrameOut.fault | with_reducible apply Frame.ite | with_reducible apply Frame.iteFst | with_reducible apply FrameOut.ite | fail_if_no_progress (with_reducible refine Frame.set ?_) | split | dsimp only | refine Frame.ofFst ?_ (by assumption) | refine Frame.ofSnd2 ?_ (by assumption) | refine FrameOpt.kept ?_ _ (by assumption) | refine FrameOut.kept ?_ _ (by assumption)))

theorem execFreshExchangeDeadline_frame {t : Stamp} {link : Nat} {s : State} {pm : List Part} {z0 : State} (hk : Frame pm z0 s) (m_time : Part.time ∈ pm := by assumption) (m_bar : Part.bar ∈ pm := by assumption) (m_fab : Part.fab ∈ pm := by assumption) (m_fault : Part.fault ∈ pm := by assumption) (m_out : Part.out ∈ pm := by assumption) (m_spent : Part.spent ∈ pm := by assumption) : FrameOut pm z0 (execFreshExchangeDeadline t link s) := by
  unfold execFreshExchangeDeadline
  try dsimp only
  repeat (any_goals (first | intro _ | with_reducible assumption | with_reducible refine run_frame ?_ ?_ | with_reducible refine linkDown_frame ?_ | with_reducible apply FrameOut.next | exact FrameOut.fault | with_reducible apply Frame.ite | with_reducible apply Frame.iteFst | with_reducible apply FrameOut.ite | fail_if_no_progress (with_reducible refine Frame.set ?_) | split | dsimp only | refine Frame.ofFst ?_ (by assumption) | refine Frame.ofSnd2 ?_ (by assumption) | refine FrameOpt.kept ?_ _ (by assumption) | refine FrameOut.kept ?_ _ (by assumption)))

theorem execLanePowerDown_frame {t : Stamp} {link : Nat} {s : State} {pm : List Part} {z0 : State} (hk : Frame pm z0 s) (m_time : Part.time ∈ pm := by assumption) (m_fab : Part.fab ∈ pm := by assumption) : FrameOut pm z0 (execLanePowerDown t link s) := by
  unfold execLanePowerDown
  try dsimp only
  repeat (any_goals (first | intro _ | with_reducible assumption | with_reducible refine run_frame ?_ ?_ | with_reducible refine setLink_frame ?_ | with_reducible apply FrameOut.next | exact FrameOut.fault | with_reducible apply Frame.ite | with_reducible apply Frame.iteFst | with_reducible apply FrameOut.ite | fail_if_no_progress (with_reducible refine Frame.set ?_) | split | dsimp only | refine Frame.ofFst ?_ (by assumption) | refine Frame.ofSnd2 ?_ (by assumption) | refine FrameOpt.kept ?_ _ (by assumption) | refine FrameOut.kept ?_ _ (by assumption)))

theorem execLanePowerRestore_frame {t : Stamp} {link : Nat} {s : State} {pm : List Part} {z0 : State} (hk : Frame pm z0 s) (m_time : Part.time ∈ pm := by assumption) (m_fab : Part.fab ∈ pm := by assumption) (m_out : Part.out ∈ pm := by assumption) : FrameOut pm z0 (execLanePowerRestore t link s) := by
  unfold execLanePowerRestore
  try dsimp only
  repeat (any_goals (first | intro _ | with_reducible assumption | with_reducible refine run_frame ?_ ?_ | with_reducible refine drainLink_frame ?_ | with_reducible refine setLink_frame ?_ | with_reducible apply FrameOut.next | exact FrameOut.fault | with_reducible apply Frame.ite | with_reducible apply Frame.iteFst | with_reducible apply FrameOut.ite | fail_if_no_progress (with_reducible refine Frame.set ?_) | split | dsimp only | refine Frame.ofFst ?_ (by assumption) | refine Frame.ofSnd2 ?_ (by assumption) | refine FrameOpt.kept ?_ _ (by assumption) | refine FrameOut.kept ?_ _ (by assumption)))

theorem forwardTime_frame {s : State} {src : Stamp} {hops : Nat} {but : Option Nat} {pm : List Part} {z0 : State} (hk : Frame pm z0 s) (m_out : Part.out ∈ pm := by assumption) : Frame pm z0 (forwardTime s src hops but) := by
  unfold forwardTime
  try dsimp only
  repeat (any_goals (first | intro _ | with_reducible assumption | with_reducible refine onLink_frame ?_ | with_reducible apply foldl_frame | with_reducible apply foldl_frame_fst | with_reducible apply Frame.ite | with_reducible apply Frame.iteFst | fail_if_no_progress (with_reducible refine Frame.set ?_) | split | dsimp only | refine Frame.ofFst ?_ (by assumption) | refine Frame.ofSnd2 ?_ (by assumption) | refine FrameOpt.kept ?_ _ (by assumption) | refine FrameOut.kept ?_ _ (by assumption)))

theorem enterLost_frame {s : State} {st : Sync} {pm : List Part} {z0 : State} (hk : Frame pm z0 s) (m_time : Part.time ∈ pm := by assumption) (m_fault : Part.fault ∈ pm := by assumption) (m_out : Part.out ∈ pm := by assumption) : Frame pm z0 (enterLost s st) := by
  unfold enterLost
  try dsimp only
  repeat (any_goals (first | intro _ | with_reducible assumption | with_reducible refine logErr_frame ?_ | with_reducible apply Frame.ite | with_reducible apply Frame.iteFst | fail_if_no_progress (with_reducible refine Frame.set ?_) | split | dsimp only | refine Frame.ofFst ?_ (by assumption) | refine Frame.ofSnd2 ?_ (by assumption) | refine FrameOpt.kept ?_ _ (by assumption) | refine FrameOut.kept ?_ _ (by assumption)))

theorem lockTo_frame {s : State} {st : Stamp} {hops : Nat} {pm : List Part} {z0 : State} (hk : Frame pm z0 s) (m_time : Part.time ∈ pm := by assumption) (m_fault : Part.fault ∈ pm := by assumption) (m_out : Part.out ∈ pm := by assumption) : Frame pm z0 (lockTo s st hops) := by
  unfold lockTo
  try dsimp only
  repeat (any_goals (first | intro _ | with_reducible assumption | with_reducible refine logErr_frame ?_ | with_reducible apply Frame.ite | with_reducible apply Frame.iteFst | fail_if_no_progress (with_reducible refine Frame.set ?_) | split | dsimp only | refine Frame.ofFst ?_ (by assumption) | refine Frame.ofSnd2 ?_ (by assumption) | refine FrameOpt.kept ?_ _ (by assumption) | refine FrameOut.kept ?_ _ (by assumption)))

theorem becomeSource_frame {s : State} {pm : List Part} {z0 : State} (hk : Frame pm z0 s) (m_time : Part.time ∈ pm := by assumption) (m_out : Part.out ∈ pm := by assumption) : Frame pm z0 (becomeSource s) := by
  unfold becomeSource
  try dsimp only
  repeat (any_goals (first | intro _ | with_reducible assumption | with_reducible refine forwardTime_frame ?_ | with_reducible apply Frame.ite | with_reducible apply Frame.iteFst | fail_if_no_progress (with_reducible refine Frame.set ?_) | split | dsimp only | refine Frame.ofFst ?_ (by assumption) | refine Frame.ofSnd2 ?_ (by assumption) | refine FrameOpt.kept ?_ _ (by assumption) | refine FrameOut.kept ?_ _ (by assumption)))

theorem followTime_frame {s : State} {st : Stamp} {hops : Nat} {f : SourceInfo} {pm : List Part} {z0 : State} (hk : Frame pm z0 s) (m_time : Part.time ∈ pm := by assumption) (m_fault : Part.fault ∈ pm := by assumption) (m_out : Part.out ∈ pm := by assumption) : Frame pm z0 (followTime s st hops f) := by
  unfold followTime
  try dsimp only
  repeat (any_goals (first | intro _ | with_reducible assumption | with_reducible refine enterLost_frame ?_ | with_reducible refine becomeSource_frame ?_ | with_reducible refine lockTo_frame ?_ | with_reducible apply Frame.ite | with_reducible apply Frame.iteFst | fail_if_no_progress (with_reducible refine Frame.set ?_) | split | dsimp only | refine Frame.ofFst ?_ (by assumption) | refine Frame.ofSnd2 ?_ (by assumption) | refine FrameOpt.kept ?_ _ (by assumption) | refine FrameOut.kept ?_ _ (by assumption)))

theorem timeReceived_frame {link : Nat} {src : Stamp} {hops : Nat} {f : SourceInfo} {s : State} {pm : List Part} {z0 : State} (hk : Frame pm z0 s) (m_time : Part.time ∈ pm := by assumption) (m_fault : Part.fault ∈ pm := by assumption) (m_out : Part.out ∈ pm := by assumption) : Frame pm z0 (timeReceived link src hops f s) := by
  unfold timeReceived
  try dsimp only
  repeat (any_goals (first | intro _ | with_reducible assumption | with_reducible refine forwardTime_frame ?_ | with_reducible refine enterLost_frame ?_ | with_reducible refine followTime_frame ?_ | with_reducible apply Frame.ite | with_reducible apply Frame.iteFst | fail_if_no_progress (with_reducible refine Frame.set ?_) | split | dsimp only | refine Frame.ofFst ?_ (by assumption) | refine Frame.ofSnd2 ?_ (by assumption) | refine FrameOpt.kept ?_ _ (by assumption) | refine FrameOut.kept ?_ _ (by assumption)))

theorem execTimeRecordReceive_frame {t : Stamp} {link : Nat} {src : Stamp} {hops : Nat} {fields : SourceInfo} {s : State} {pm : List Part} {z0 : State} (hk : Frame pm z0 s) (m_time : Part.time ∈ pm := by assumption) (m_fault : Part.fault ∈ pm := by assumption) (m_out : Part.out ∈ pm := by assumption) : FrameOut pm z0 (execTimeRecordReceive t link src hops fields s) := by
  unfold execTimeRecordReceive
  try dsimp only
  repeat (any_goals (first | intro _ | with_reducible assumption | with_reducible refine run_frame ?_ ?_ | with_reducible refine timeReceived_frame ?_ | with_reducible apply FrameOut.next | exact FrameOut.fault | with_reducible apply Frame.ite | with_reducible apply Frame.iteFst | with_reducible apply FrameOut.ite | fail_if_no_progress (with_reducible refine Frame.set ?_) | split | dsimp only | refine Frame.ofFst ?_ (by assumption) | refine Frame.ofSnd2 ?_ (by assumption) | refine FrameOpt.kept ?_ _ (by assumption) | refine FrameOut.kept ?_ _ (by assumption)))

theorem sendBeacons_frame {s : State} {tick : Nat} {off : Nat} {but : Option Nat} {pm : List Part} {z0 : State} (hk : Frame pm z0 s) (m_out : Part.out ∈ pm := by assumption) : Frame pm z0 (sendBeacons s tick off but) := by
  unfold sendBeacons
  try dsimp only
  repeat (any_goals (first | intro _ | with_reducible assumption | with_reducible refine onLink_frame ?_ | with_reducible apply foldl_frame | with_reducible apply foldl_frame_fst | with_reducible apply Frame.ite | with_reducible apply Frame.iteFst | fail_if_no_progress (with_reducible refine Frame.set ?_) | split | dsimp only | refine Frame.ofFst ?_ (by assumption) | refine Frame.ofSnd2 ?_ (by assumption) | refine FrameOpt.kept ?_ _ (by assumption) | refine FrameOut.kept ?_ _ (by assumption)))

theorem beaconReceived_frame {link : Nat} {tick : Nat} {off : Nat} {s : State} {pm : List Part} {z0 : State} (hk : Frame pm z0 s) (m_time : Part.time ∈ pm := by assumption) (m_fault : Part.fault ∈ pm := by assumption) (m_out : Part.out ∈ pm := by assumption) : Frame pm z0 (beaconReceived link tick off s) := by
  unfold beaconReceived
  try dsimp only
  repeat (any_goals (first | intro _ | with_reducible assumption | with_reducible refine enterLost_frame ?_ | with_reducible refine sendBeacons_frame ?_ | with_reducible apply Frame.ite | with_reducible apply Frame.iteFst | fail_if_no_progress (with_reducible refine Frame.set ?_) | split | dsimp only | refine Frame.ofFst ?_ (by assumption) | refine Frame.ofSnd2 ?_ (by assumption) | refine FrameOpt.kept ?_ _ (by assumption) | refine FrameOut.kept ?_ _ (by assumption)))

theorem execBeaconReceive_frame {t : Stamp} {link : Nat} {tick : Nat} {off : Nat} {s : State} {pm : List Part} {z0 : State} (hk : Frame pm z0 s) (m_time : Part.time ∈ pm := by assumption) (m_fault : Part.fault ∈ pm := by assumption) (m_out : Part.out ∈ pm := by assumption) : FrameOut pm z0 (execBeaconReceive t link tick off s) := by
  unfold execBeaconReceive
  try dsimp only
  repeat (any_goals (first | intro _ | with_reducible assumption | with_reducible refine run_frame ?_ ?_ | with_reducible refine beaconReceived_frame ?_ | with_reducible apply FrameOut.next | exact FrameOut.fault | with_reducible apply Frame.ite | with_reducible apply Frame.iteFst | with_reducible apply FrameOut.ite | fail_if_no_progress (with_reducible refine Frame.set ?_) | split | dsimp only | refine Frame.ofFst ?_ (by assumption) | refine Frame.ofSnd2 ?_ (by assumption) | refine FrameOpt.kept ?_ _ (by assumption) | refine FrameOut.kept ?_ _ (by assumption)))

theorem execHoldoverEntry_frame {t : Stamp} {s : State} {pm : List Part} {z0 : State} (hk : Frame pm z0 s) (m_time : Part.time ∈ pm := by assumption) (m_fault : Part.fault ∈ pm := by assumption) (m_out : Part.out ∈ pm := by assumption) : FrameOut pm z0 (execHoldoverEntry t s) := by
  unfold execHoldoverEntry
  try dsimp only
  repeat (any_goals (first | intro _ | with_reducible assumption | with_reducible refine run_frame ?_ ?_ | with_reducible refine logErr_frame ?_ | with_reducible apply FrameOut.next | exact FrameOut.fault | with_reducible apply Frame.ite | with_reducible apply Frame.iteFst | with_reducible apply FrameOut.ite | fail_if_no_progress (with_reducible refine Frame.set ?_) | split | dsimp only | refine Frame.ofFst ?_ (by assumption) | refine Frame.ofSnd2 ?_ (by assumption) | refine FrameOpt.kept ?_ _ (by assumption) | refine FrameOut.kept ?_ _ (by assumption)))

theorem execSourceTakeover_frame {t : Stamp} {isNext : Bool} {s : State} {pm : List Part} {z0 : State} (hk : Frame pm z0 s) (m_time : Part.time ∈ pm := by assumption) (m_out : Part.out ∈ pm := by assumption) : FrameOut pm z0 (execSourceTakeover t isNext s) := by
  unfold execSourceTakeover
  try dsimp only
  repeat (any_goals (first | intro _ | with_reducible assumption | with_reducible refine run_frame ?_ ?_ | with_reducible refine becomeSource_frame ?_ | with_reducible apply FrameOut.next | exact FrameOut.fault | with_reducible apply Frame.ite | with_reducible apply Frame.iteFst | with_reducible apply FrameOut.ite | fail_if_no_progress (with_reducible refine Frame.set ?_) | split | dsimp only | refine Frame.ofFst ?_ (by assumption) | refine Frame.ofSnd2 ?_ (by assumption) | refine FrameOpt.kept ?_ _ (by assumption) | refine FrameOut.kept ?_ _ (by assumption)))

theorem execSyncLostTimeout_frame {t : Stamp} {s : State} {pm : List Part} {z0 : State} (hk : Frame pm z0 s) (m_time : Part.time ∈ pm := by assumption) (m_fault : Part.fault ∈ pm := by assumption) (m_out : Part.out ∈ pm := by assumption) : FrameOut pm z0 (execSyncLostTimeout t s) := by
  unfold execSyncLostTimeout
  try dsimp only
  repeat (any_goals (first | intro _ | with_reducible assumption | with_reducible refine run_frame ?_ ?_ | with_reducible refine enterLost_frame ?_ | with_reducible apply FrameOut.next | exact FrameOut.fault | with_reducible apply Frame.ite | with_reducible apply Frame.iteFst | with_reducible apply FrameOut.ite | fail_if_no_progress (with_reducible refine Frame.set ?_) | split | dsimp only | refine Frame.ofFst ?_ (by assumption) | refine Frame.ofSnd2 ?_ (by assumption) | refine FrameOpt.kept ?_ _ (by assumption) | refine FrameOut.kept ?_ _ (by assumption)))

theorem execSyncHaltTimeout_frame {t : Stamp} {s : State} {pm : List Part} {z0 : State} (hk : Frame pm z0 s) (m_time : Part.time ∈ pm := by assumption) (m_benches : Part.benches ∈ pm := by assumption) (m_plan : Part.plan ∈ pm := by assumption) (m_fault : Part.fault ∈ pm := by assumption) (m_out : Part.out ∈ pm := by assumption) : FrameOut pm z0 (execSyncHaltTimeout t s) := by
  unfold execSyncHaltTimeout
  try dsimp only
  repeat (any_goals (first | intro _ | with_reducible assumption | with_reducible refine run_frame ?_ ?_ | with_reducible refine haltBench_frame ?_ | with_reducible refine logErr_frame ?_ | with_reducible apply foldl_frame | with_reducible apply foldl_frame_fst | with_reducible apply FrameOut.next | exact FrameOut.fault | with_reducible apply Frame.ite | with_reducible apply Frame.iteFst | with_reducible apply FrameOut.ite | fail_if_no_progress (with_reducible refine Frame.set ?_) | split | dsimp only | refine Frame.ofFst ?_ (by assumption) | refine Frame.ofSnd2 ?_ (by assumption) | refine FrameOpt.kept ?_ _ (by assumption) | refine FrameOut.kept ?_ _ (by assumption)))

theorem execTimeMessageSend_frame {t : Stamp} {s : State} {pm : List Part} {z0 : State} (hk : Frame pm z0 s) (m_time : Part.time ∈ pm := by assumption) (m_out : Part.out ∈ pm := by assumption) : FrameOut pm z0 (execTimeMessageSend t s) := by
  unfold execTimeMessageSend
  try dsimp only
  repeat (any_goals (first | intro _ | with_reducible assumption | with_reducible refine run_frame ?_ ?_ | with_reducible refine forwardTime_frame ?_ | with_reducible apply FrameOut.next | exact FrameOut.fault | with_reducible apply Frame.ite | with_reducible apply Frame.iteFst | with_reducible apply FrameOut.ite | fail_if_no_progress (with_reducible refine Frame.set ?_) | split | dsimp only | refine Frame.ofFst ?_ (by assumption) | refine Frame.ofSnd2 ?_ (by assumption) | refine FrameOpt.kept ?_ _ (by assumption) | refine FrameOut.kept ?_ _ (by assumption)))

theorem execDelayMeasure_frame {t : Stamp} {link : Nat} {roundTrip : Nat} {s : State} {pm : List Part} {z0 : State} (hk : Frame pm z0 s) (m_time : Part.time ∈ pm := by assumption) (m_fab : Part.fab ∈ pm := by assumption) : FrameOut pm z0 (execDelayMeasure t link roundTrip s) := by
  unfold execDelayMeasure
  try dsimp only
  repeat (any_goals (first | intro _ | with_reducible assumption | with_reducible refine run_frame ?_ ?_ | with_reducible refine setLink_frame ?_ | with_reducible apply FrameOut.next | exact FrameOut.fault | with_reducible apply Frame.ite | with_reducible apply Frame.iteFst | with_reducible apply FrameOut.ite | fail_if_no_progress (with_reducible refine Frame.set ?_) | split | dsimp only | refine Frame.ofFst ?_ (by assumption) | refine Frame.ofSnd2 ?_ (by assumption) | refine FrameOpt.kept ?_ _ (by assumption) | refine FrameOut.kept ?_ _ (by assumption)))

theorem sealSegments_frame {s : State} {k : Nat} {n : Nat} {pm : List Part} {z0 : State} (hk : Frame pm z0 s) (m_work : Part.work ∈ pm := by assumption) (m_out : Part.out ∈ pm := by assumption) (m_spent : Part.spent ∈ pm := by assumption) : Frame pm z0 (sealSegments s k n) := by
  unfold sealSegments
  try dsimp only
  repeat (any_goals (first | intro _ | with_reducible assumption | with_reducible refine putConv_frame ?_ | with_reducible refine send_frame ?_ | with_reducible apply foldl_frame | with_reducible apply foldl_frame_fst | with_reducible apply Frame.ite | with_reducible apply Frame.iteFst | fail_if_no_progress (with_reducible refine Frame.set ?_) | split | dsimp only | refine Frame.ofFst ?_ (by assumption) | refine Frame.ofSnd2 ?_ (by assumption) | refine FrameOpt.kept ?_ _ (by assumption) | refine FrameOut.kept ?_ _ (by assumption)))

theorem sendCheckpoint_frame {s : State} {k : Nat} {n : Nat} {pm : List Part} {z0 : State} (hk : Frame pm z0 s) (m_work : Part.work ∈ pm := by assumption) (m_out : Part.out ∈ pm := by assumption) (m_spent : Part.spent ∈ pm := by assumption) : Frame pm z0 (sendCheckpoint s k n) := by
  unfold sendCheckpoint
  try dsimp only
  repeat (any_goals (first | intro _ | with_reducible assumption | with_reducible refine send_frame ?_ | with_reducible refine chargePages_frame ?_ | with_reducible refine putReq_frame ?_ | with_reducible apply Frame.ite | with_reducible apply Frame.iteFst | fail_if_no_progress (with_reducible refine Frame.set ?_) | split | dsimp only | refine Frame.ofFst ?_ (by assumption) | refine Frame.ofSnd2 ?_ (by assumption) | refine FrameOpt.kept ?_ _ (by assumption) | refine FrameOut.kept ?_ _ (by assumption)))

theorem execCheckpointSend_frame {t : Stamp} {req : Nat} {s : State} {pm : List Part} {z0 : State} (hk : Frame pm z0 s) (m_time : Part.time ∈ pm := by assumption) (m_work : Part.work ∈ pm := by assumption) (m_out : Part.out ∈ pm := by assumption) (m_spent : Part.spent ∈ pm := by assumption) : FrameOut pm z0 (execCheckpointSend t req s) := by
  unfold execCheckpointSend
  try dsimp only
  repeat (any_goals (first | intro _ | with_reducible assumption | with_reducible refine run_frame ?_ ?_ | with_reducible refine sendCheckpoint_frame ?_ | with_reducible apply FrameOut.next | exact FrameOut.fault | with_reducible apply Frame.ite | with_reducible apply Frame.iteFst | with_reducible apply FrameOut.ite | fail_if_no_progress (with_reducible refine Frame.set ?_) | split | dsimp only | refine Frame.ofFst ?_ (by assumption) | refine Frame.ofSnd2 ?_ (by assumption) | refine FrameOpt.kept ?_ _ (by assumption) | refine FrameOut.kept ?_ _ (by assumption)))

theorem execCheckpointLate_frame {t : Stamp} {req : Nat} {s : State} {pm : List Part} {z0 : State} (hk : Frame pm z0 s) (m_time : Part.time ∈ pm := by assumption) (m_bar : Part.bar ∈ pm := by assumption) : FrameOut pm z0 (execCheckpointLate t req s) := by
  unfold execCheckpointLate
  try dsimp only
  repeat (any_goals (first | intro _ | with_reducible assumption | with_reducible refine run_frame ?_ ?_ | with_reducible refine count_frame ?_ | with_reducible apply FrameOut.next | exact FrameOut.fault | with_reducible apply Frame.ite | with_reducible apply Frame.iteFst | with_reducible apply FrameOut.ite | fail_if_no_progress (with_reducible refine Frame.set ?_) | split | dsimp only | refine Frame.ofFst ?_ (by assumption) | refine Frame.ofSnd2 ?_ (by assumption) | refine FrameOpt.kept ?_ _ (by assumption) | refine FrameOut.kept ?_ _ (by assumption)))

theorem execCheckpointAck_frame {t : Stamp} {req : Nat} {tick : Nat} {s : State} {pm : List Part} {z0 : State} (hk : Frame pm z0 s) (m_time : Part.time ∈ pm := by assumption) (m_work : Part.work ∈ pm := by assumption) (m_pwr : Part.pwr ∈ pm := by assumption) : FrameOut pm z0 (execCheckpointAck t req tick s) := by
  unfold execCheckpointAck
  try dsimp only
  repeat (any_goals (first | intro _ | with_reducible assumption | with_reducible refine runLink_frame ?_ ?_ | with_reducible refine modReq_frame ?_ | with_reducible apply FrameOut.next | exact FrameOut.fault | with_reducible apply Frame.ite | with_reducible apply Frame.iteFst | with_reducible apply FrameOut.ite | fail_if_no_progress (with_reducible refine Frame.set ?_) | split | dsimp only | refine Frame.ofFst ?_ (by assumption) | refine Frame.ofSnd2 ?_ (by assumption) | refine FrameOpt.kept ?_ _ (by assumption) | refine FrameOut.kept ?_ _ (by assumption)))

theorem execSegmentAck_frame {t : Stamp} {conv : Nat} {upto : Nat} {s : State} {pm : List Part} {z0 : State} (hk : Frame pm z0 s) (m_time : Part.time ∈ pm := by assumption) (m_work : Part.work ∈ pm := by assumption) (m_pwr : Part.pwr ∈ pm := by assumption) : FrameOut pm z0 (execSegmentAck t conv upto s) := by
  unfold execSegmentAck
  try dsimp only
  repeat (any_goals (first | intro _ | with_reducible assumption | with_reducible refine runLink_frame ?_ ?_ | with_reducible refine modConv_frame ?_ | with_reducible apply FrameOut.next | exact FrameOut.fault | with_reducible apply Frame.ite | with_reducible apply Frame.iteFst | with_reducible apply FrameOut.ite | fail_if_no_progress (with_reducible refine Frame.set ?_) | split | dsimp only | refine Frame.ofFst ?_ (by assumption) | refine Frame.ofSnd2 ?_ (by assumption) | refine FrameOpt.kept ?_ _ (by assumption) | refine FrameOut.kept ?_ _ (by assumption)))

theorem execSegmentResend_frame {t : Stamp} {conv : Nat} {s : State} {pm : List Part} {z0 : State} (hk : Frame pm z0 s) (m_time : Part.time ∈ pm := by assumption) (m_work : Part.work ∈ pm := by assumption) (m_out : Part.out ∈ pm := by assumption) (m_spent : Part.spent ∈ pm := by assumption) : FrameOut pm z0 (execSegmentResend t conv s) := by
  unfold execSegmentResend
  try dsimp only
  repeat (any_goals (first | intro _ | with_reducible assumption | with_reducible refine run_frame ?_ ?_ | with_reducible refine send_frame ?_ | with_reducible refine putConv_frame ?_ | with_reducible apply foldl_frame | with_reducible apply foldl_frame_fst | with_reducible apply FrameOut.next | exact FrameOut.fault | with_reducible apply Frame.ite | with_reducible apply Frame.iteFst | with_reducible apply FrameOut.ite | fail_if_no_progress (with_reducible refine Frame.set ?_) | split | dsimp only | refine Frame.ofFst ?_ (by assumption) | refine Frame.ofSnd2 ?_ (by assumption) | refine FrameOpt.kept ?_ _ (by assumption) | refine FrameOut.kept ?_ _ (by assumption)))

theorem unguard_frame {s : State} {k : Nat} {pm : List Part} {z0 : State} (hk : Frame pm z0 s) (m_work : Part.work ∈ pm := by assumption) (m_fault : Part.fault ∈ pm := by assumption) (m_out : Part.out ∈ pm := by assumption) : Frame pm z0 (unguard s k) := by
  unfold unguard
  try dsimp only
  repeat (any_goals (first | intro _ | with_reducible assumption | with_reducible refine logErr_frame ?_ | with_reducible refine putConv_frame ?_ | with_reducible apply Frame.ite | with_reducible apply Frame.iteFst | fail_if_no_progress (with_reducible refine Frame.set ?_) | split | dsimp only | refine Frame.ofFst ?_ (by assumption) | refine Frame.ofSnd2 ?_ (by assumption) | refine FrameOpt.kept ?_ _ (by assumption) | refine FrameOut.kept ?_ _ (by assumption)))

theorem execKeeperRefuse_frame {t : Stamp} {conv : Nat} {s : State} {pm : List Part} {z0 : State} (hk : Frame pm z0 s) (m_time : Part.time ∈ pm := by assumption) (m_work : Part.work ∈ pm := by assumption) (m_fault : Part.fault ∈ pm := by assumption) (m_pwr : Part.pwr ∈ pm := by assumption) (m_out : Part.out ∈ pm := by assumption) : FrameOut pm z0 (execKeeperRefuse t conv s) := by
  unfold execKeeperRefuse
  try dsimp only
  repeat (any_goals (first | intro _ | with_reducible assumption | with_reducible refine runLink_frame ?_ ?_ | with_reducible refine unguard_frame ?_ | with_reducible apply FrameOut.next | exact FrameOut.fault | with_reducible apply Frame.ite | with_reducible apply Frame.iteFst | with_reducible apply FrameOut.ite | fail_if_no_progress (with_reducible refine Frame.set ?_) | split | dsimp only | refine Frame.ofFst ?_ (by assumption) | refine Frame.ofSnd2 ?_ (by assumption) | refine FrameOpt.kept ?_ _ (by assumption) | refine FrameOut.kept ?_ _ (by assumption)))

theorem execKeeperUnreachable_frame {t : Stamp} {keeper : ModuleId} {s : State} {pm : List Part} {z0 : State} (hk : Frame pm z0 s) (m_time : Part.time ∈ pm := by assumption) (m_work : Part.work ∈ pm := by assumption) (m_fault : Part.fault ∈ pm := by assumption) (m_out : Part.out ∈ pm := by assumption) : FrameOut pm z0 (execKeeperUnreachable t keeper s) := by
  unfold execKeeperUnreachable
  try dsimp only
  repeat (any_goals (first | intro _ | with_reducible assumption | with_reducible refine run_frame ?_ ?_ | with_reducible refine unguard_frame ?_ | with_reducible apply foldl_frame | with_reducible apply foldl_frame_fst | with_reducible apply FrameOut.next | exact FrameOut.fault | with_reducible apply Frame.ite | with_reducible apply Frame.iteFst | with_reducible apply FrameOut.ite | fail_if_no_progress (with_reducible refine Frame.set ?_) | split | dsimp only | refine Frame.ofFst ?_ (by assumption) | refine Frame.ofSnd2 ?_ (by assumption) | refine FrameOpt.kept ?_ _ (by assumption) | refine FrameOut.kept ?_ _ (by assumption)))

theorem chargeKeeper_frame {s : State} {b : Nat} {n : Nat} {pm : List Part} {z0 : State} (hk : Frame pm z0 s) (m_spent : Part.spent ∈ pm := by assumption) : Frame pm z0 (chargeKeeper s b n) := by
  unfold chargeKeeper
  try dsimp only
  repeat (any_goals (first | intro _ | with_reducible assumption | with_reducible refine charge_frame ?_ | with_reducible apply Frame.ite | with_reducible apply Frame.iteFst | fail_if_no_progress (with_reducible refine Frame.set ?_) | split | dsimp only | refine Frame.ofFst ?_ (by assumption) | refine Frame.ofSnd2 ?_ (by assumption) | refine FrameOpt.kept ?_ _ (by assumption) | refine FrameOut.kept ?_ _ (by assumption)))

theorem setKeeper_frame {s : State} {k : Nat} {f : KeeperLog → KeeperLog} {pm : List Part} {z0 : State} (hk : Frame pm z0 s) (m_haul : Part.haul ∈ pm := by assumption) : Frame pm z0 (setKeeper s k f) := by
  unfold setKeeper
  try dsimp only
  repeat (any_goals (first | intro _ | with_reducible assumption | with_reducible apply Frame.ite | with_reducible apply Frame.iteFst | fail_if_no_progress (with_reducible refine Frame.set ?_) | split | dsimp only | refine Frame.ofFst ?_ (by assumption) | refine Frame.ofSnd2 ?_ (by assumption) | refine FrameOpt.kept ?_ _ (by assumption) | refine FrameOut.kept ?_ _ (by assumption)))

theorem segmentReceived_frame {src : ModuleId} {m : SegMsg} {s : State} {pm : List Part} {z0 : State} (hk : Frame pm z0 s) (m_haul : Part.haul ∈ pm := by assumption) (m_fault : Part.fault ∈ pm := by assumption) (m_out : Part.out ∈ pm := by assumption) (m_spent : Part.spent ∈ pm := by assumption) : Frame pm z0 (segmentReceived src m s) := by
  unfold segmentReceived
  try dsimp only
  repeat (any_goals (first | intro _ | with_reducible assumption | with_reducible refine malformed_frame ?_ | with_reducible refine send_frame ?_ | with_reducible refine setKeeper_frame ?_ | with_reducible refine chargeKeeper_frame ?_ | with_reducible apply Frame.ite | with_reducible apply Frame.iteFst | fail_if_no_progress (with_reducible refine Frame.set ?_) | split | dsimp only | refine Frame.ofFst ?_ (by assumption) | refine Frame.ofSnd2 ?_ (by assumption) | refine FrameOpt.kept ?_ _ (by assumption) | refine FrameOut.kept ?_ _ (by assumption)))

theorem execSegmentReceive_frame {t : Stamp} {src : ModuleId} {m : SegMsg} {s : State} {pm : List Part} {z0 : State} (hk : Frame pm z0 s) (m_time : Part.time ∈ pm := by assumption) (m_haul : Part.haul ∈ pm := by assumption) (m_fault : Part.fault ∈ pm := by assumption) (m_pwr : Part.pwr ∈ pm := by assumption) (m_out : Part.out ∈ pm := by assumption) (m_spent : Part.spent ∈ pm := by assumption) : FrameOut pm z0 (execSegmentReceive t src m s) := by
  unfold execSegmentReceive
  try dsimp only
  repeat (any_goals (first | intro _ | with_reducible assumption | with_reducible refine runLink_frame ?_ ?_ | with_reducible refine segmentReceived_frame ?_ | with_reducible apply FrameOut.next | exact FrameOut.fault | with_reducible apply Frame.ite | with_reducible apply Frame.iteFst | with_reducible apply FrameOut.ite | fail_if_no_progress (with_reducible refine Frame.set ?_) | split | dsimp only | refine Frame.ofFst ?_ (by assumption) | refine Frame.ofSnd2 ?_ (by assumption) | refine FrameOpt.kept ?_ _ (by assumption) | refine FrameOut.kept ?_ _ (by assumption)))

theorem checkpointReceived_frame {src : ModuleId} {r : Req} {table : Conv} {tick : Nat} {s : State} {pm : List Part} {z0 : State} (hk : Frame pm z0 s) (m_haul : Part.haul ∈ pm := by assumption) (m_out : Part.out ∈ pm := by assumption) (m_spent : Part.spent ∈ pm := by assumption) : Frame pm z0 (checkpointReceived src r table tick s) := by
  unfold checkpointReceived
  try dsimp only
  repeat (any_goals (first | intro _ | with_reducible assumption | with_reducible refine send_frame ?_ | with_reducible refine setKeeper_frame ?_ | with_reducible refine chargeKeeper_frame ?_ | with_reducible apply Frame.ite | with_reducible apply Frame.iteFst | fail_if_no_progress (with_reducible refine Frame.set ?_) | split | dsimp only | refine Frame.ofFst ?_ (by assumption) | refine Frame.ofSnd2 ?_ (by assumption) | refine FrameOpt.kept ?_ _ (by assumption) | refine FrameOut.kept ?_ _ (by assumption)))

theorem execCheckpointReceive_frame {t : Stamp} {src : ModuleId} {req : Req} {table : Conv} {tick : Nat} {s : State} {pm : List Part} {z0 : State} (hk : Frame pm z0 s) (m_time : Part.time ∈ pm := by assumption) (m_haul : Part.haul ∈ pm := by assumption) (m_pwr : Part.pwr ∈ pm := by assumption) (m_out : Part.out ∈ pm := by assumption) (m_spent : Part.spent ∈ pm := by assumption) : FrameOut pm z0 (execCheckpointReceive t src req table tick s) := by
  unfold execCheckpointReceive
  try dsimp only
  repeat (any_goals (first | intro _ | with_reducible assumption | with_reducible refine runLink_frame ?_ ?_ | with_reducible refine checkpointReceived_frame ?_ | with_reducible apply FrameOut.next | exact FrameOut.fault | with_reducible apply Frame.ite | with_reducible apply Frame.iteFst | with_reducible apply FrameOut.ite | fail_if_no_progress (with_reducible refine Frame.set ?_) | split | dsimp only | refine Frame.ofFst ?_ (by assumption) | refine Frame.ofSnd2 ?_ (by assumption) | refine FrameOpt.kept ?_ _ (by assumption) | refine FrameOut.kept ?_ _ (by assumption)))

theorem execKeeperFreeNotice_frame {t : Stamp} {conv : Nat} {s : State} {pm : List Part} {z0 : State} (hk : Frame pm z0 s) (m_time : Part.time ∈ pm := by assumption) (m_haul : Part.haul ∈ pm := by assumption) (m_pwr : Part.pwr ∈ pm := by assumption) : FrameOut pm z0 (execKeeperFreeNotice t conv s) := by
  unfold execKeeperFreeNotice
  try dsimp only
  repeat (any_goals (first | intro _ | with_reducible assumption | with_reducible refine runLink_frame ?_ ?_ | with_reducible apply FrameOut.next | exact FrameOut.fault | with_reducible apply Frame.ite | with_reducible apply Frame.iteFst | with_reducible apply FrameOut.ite | fail_if_no_progress (with_reducible refine Frame.set ?_) | split | dsimp only | refine Frame.ofFst ?_ (by assumption) | refine Frame.ofSnd2 ?_ (by assumption) | refine FrameOpt.kept ?_ _ (by assumption) | refine FrameOut.kept ?_ _ (by assumption)))

theorem execNewHomeNotice_frame {t : Stamp} {conv : Nat} {home : ModuleId} {s : State} {pm : List Part} {z0 : State} (hk : Frame pm z0 s) (m_time : Part.time ∈ pm := by assumption) (m_haul : Part.haul ∈ pm := by assumption) (m_pwr : Part.pwr ∈ pm := by assumption) : FrameOut pm z0 (execNewHomeNotice t conv home s) := by
  unfold execNewHomeNotice
  try dsimp only
  repeat (any_goals (first | intro _ | with_reducible assumption | with_reducible refine runLink_frame ?_ ?_ | with_reducible apply FrameOut.next | exact FrameOut.fault | with_reducible apply Frame.ite | with_reducible apply Frame.iteFst | with_reducible apply FrameOut.ite | fail_if_no_progress (with_reducible refine Frame.set ?_) | split | dsimp only | refine Frame.ofFst ?_ (by assumption) | refine Frame.ofSnd2 ?_ (by assumption) | refine FrameOpt.kept ?_ _ (by assumption) | refine FrameOut.kept ?_ _ (by assumption)))

theorem restoreTable_frame {s : State} {x : KeeperLog} {k : Nat} {held : List Entry} {c : Conv} {pm : List Part} {z0 : State} (hk : Frame pm z0 s) (m_fresh : Part.fresh ∈ pm := by assumption) : Frame pm z0 (restoreTable s x k held c).1 := by
  unfold restoreTable
  try dsimp only
  repeat (any_goals (first | intro _ | with_reducible assumption | with_reducible refine placeEntries_frame ?_ | with_reducible apply Frame.ite | with_reducible apply Frame.iteFst | fail_if_no_progress (with_reducible refine Frame.set ?_) | split | dsimp only | refine Frame.ofFst ?_ (by assumption) | refine Frame.ofSnd2 ?_ (by assumption) | refine FrameOpt.kept ?_ _ (by assumption) | refine FrameOut.kept ?_ _ (by assumption)))

theorem logRead_frame {k : Nat} {home : ModuleId} {homeBench : Nat} {restore : Bool} {s : State} {pm : List Part} {z0 : State} (hk : Frame pm z0 s) (m_work : Part.work ∈ pm := by assumption) (m_haul : Part.haul ∈ pm := by assumption) (m_tier : Part.tier ∈ pm := by assumption) (m_out : Part.out ∈ pm := by assumption) (m_spent : Part.spent ∈ pm := by assumption) (m_fresh : Part.fresh ∈ pm := by assumption) : Frame pm z0 (logRead k home homeBench restore s) := by
  unfold logRead
  try dsimp only
  repeat (any_goals (first | intro _ | with_reducible assumption | with_reducible refine send_frame ?_ | with_reducible refine restoreTable_frame ?_ | with_reducible refine putConv_frame ?_ | with_reducible refine State_bump_frame ?_ | with_reducible refine setKeeper_frame ?_ | with_reducible refine startHaul_frame ?_ | with_reducible refine sendOffer_frame ?_ | with_reducible apply Frame.ite | with_reducible apply Frame.iteFst | fail_if_no_progress (with_reducible refine Frame.set ?_) | split | dsimp only | refine Frame.ofFst ?_ (by assumption) | refine Frame.ofSnd2 ?_ (by assumption) | refine FrameOpt.kept ?_ _ (by assumption) | refine FrameOut.kept ?_ _ (by assumption)))

theorem execKeeperLogRead_frame {t : Stamp} {conv : Nat} {home : ModuleId} {homeBench : Nat} {restore : Bool} {s : State} {pm : List Part} {z0 : State} (hk : Frame pm z0 s) (m_time : Part.time ∈ pm := by assumption) (m_work : Part.work ∈ pm := by assumption) (m_haul : Part.haul ∈ pm := by assumption) (m_tier : Part.tier ∈ pm := by assumption) (m_pwr : Part.pwr ∈ pm := by assumption) (m_out : Part.out ∈ pm := by assumption) (m_spent : Part.spent ∈ pm := by assumption) (m_fresh : Part.fresh ∈ pm := by assumption) : FrameOut pm z0 (execKeeperLogRead t conv home homeBench restore s) := by
  unfold execKeeperLogRead
  try dsimp only
  repeat (any_goals (first | intro _ | with_reducible assumption | with_reducible refine runLink_frame ?_ ?_ | with_reducible refine logRead_frame ?_ | with_reducible apply FrameOut.next | exact FrameOut.fault | with_reducible apply Frame.ite | with_reducible apply Frame.iteFst | with_reducible apply FrameOut.ite | fail_if_no_progress (with_reducible refine Frame.set ?_) | split | dsimp only | refine Frame.ofFst ?_ (by assumption) | refine Frame.ofSnd2 ?_ (by assumption) | refine FrameOpt.kept ?_ _ (by assumption) | refine FrameOut.kept ?_ _ (by assumption)))

theorem applyRelease__frame {s : State} {k : Nat} {g : Nat} {pm : List Part} {z0 : State} (hk : Frame pm z0 s) (m_bar : Part.bar ∈ pm := by assumption) (m_benches : Part.benches ∈ pm := by assumption) (m_work : Part.work ∈ pm := by assumption) (m_tier : Part.tier ∈ pm := by assumption) (m_out : Part.out ∈ pm := by assumption) (m_spent : Part.spent ∈ pm := by assumption) : Frame pm z0 (applyRelease_ s k g) := by
  unfold applyRelease_
  try dsimp only
  repeat (any_goals (first | intro _ | with_reducible assumption | with_reducible refine dropEmptyHolder_frame ?_ | with_reducible refine dropGroups_frame ?_ | with_reducible apply Frame.ite | with_reducible apply Frame.iteFst | fail_if_no_progress (with_reducible refine Frame.set ?_) | split | dsimp only | refine Frame.ofFst ?_ (by assumption) | refine Frame.ofSnd2 ?_ (by assumption) | refine FrameOpt.kept ?_ _ (by assumption) | refine FrameOut.kept ?_ _ (by assumption)))

theorem applyState_frame {s : State} {k : Nat} {st : ConvState} {pm : List Part} {z0 : State} (hk : Frame pm z0 s) (m_work : Part.work ∈ pm := by assumption) (m_tier : Part.tier ∈ pm := by assumption) : Frame pm z0 (applyState s k st) := by
  unfold applyState
  try dsimp only
  repeat (any_goals (first | intro _ | with_reducible assumption | with_reducible refine promoteToFloor_frame ?_ | with_reducible refine putConv_frame ?_ | with_reducible apply Frame.ite | with_reducible apply Frame.iteFst | fail_if_no_progress (with_reducible refine Frame.set ?_) | split | dsimp only | refine Frame.ofFst ?_ (by assumption) | refine Frame.ofSnd2 ?_ (by assumption) | refine FrameOpt.kept ?_ _ (by assumption) | refine FrameOut.kept ?_ _ (by assumption)))

theorem refUp_frame {s : State} {p : PageRef} {seq : Nat} {pm : List Part} {z0 : State} (hk : Frame pm z0 s) (m_work : Part.work ∈ pm := by assumption) : Frame pm z0 (refUp s p seq) := by
  unfold refUp
  try dsimp only
  repeat (any_goals (first | intro _ | with_reducible assumption | with_reducible refine addRefs_frame ?_ | with_reducible refine putConv_frame ?_ | with_reducible apply Frame.ite | with_reducible apply Frame.iteFst | fail_if_no_progress (with_reducible refine Frame.set ?_) | split | dsimp only | refine Frame.ofFst ?_ (by assumption) | refine Frame.ofSnd2 ?_ (by assumption) | refine FrameOpt.kept ?_ _ (by assumption) | refine FrameOut.kept ?_ _ (by assumption)))

theorem refDown_frame {s : State} {p : PageRef} {seq : Nat} {pm : List Part} {z0 : State} (hk : Frame pm z0 s) (m_bar : Part.bar ∈ pm := by assumption) (m_benches : Part.benches ∈ pm := by assumption) (m_work : Part.work ∈ pm := by assumption) (m_tier : Part.tier ∈ pm := by assumption) (m_out : Part.out ∈ pm := by assumption) (m_spent : Part.spent ∈ pm := by assumption) : Frame pm z0 (refDown s p seq) := by
  unfold refDown
  try dsimp only
  repeat (any_goals (first | intro _ | with_reducible assumption | with_reducible refine dropEmptyHolder_frame ?_ | with_reducible refine modConv_frame ?_ | with_reducible refine dropPage_frame ?_ | with_reducible apply Frame.ite | with_reducible apply Frame.iteFst | fail_if_no_progress (with_reducible refine Frame.set ?_) | split | dsimp only | refine Frame.ofFst ?_ (by assumption) | refine Frame.ofSnd2 ?_ (by assumption) | refine FrameOpt.kept ?_ _ (by assumption) | refine FrameOut.kept ?_ _ (by assumption)))

theorem applyRefcount_frame {s : State} {p : PageRef} {seq : Nat} {up : Bool} {pm : List Part} {z0 : State} (hk : Frame pm z0 s) (m_bar : Part.bar ∈ pm := by assumption) (m_benches : Part.benches ∈ pm := by assumption) (m_work : Part.work ∈ pm := by assumption) (m_tier : Part.tier ∈ pm := by assumption) (m_out : Part.out ∈ pm := by assumption) (m_spent : Part.spent ∈ pm := by assumption) : Frame pm z0 (applyRefcount s p seq up) := by
  unfold applyRefcount
  try dsimp only
  repeat (any_goals (first | intro _ | with_reducible assumption | with_reducible refine refUp_frame ?_ | with_reducible refine refDown_frame ?_ | with_reducible apply Frame.ite | with_reducible apply Frame.iteFst | fail_if_no_progress (with_reducible refine Frame.set ?_) | split | dsimp only | refine Frame.ofFst ?_ (by assumption) | refine Frame.ofSnd2 ?_ (by assumption) | refine FrameOpt.kept ?_ _ (by assumption) | refine FrameOut.kept ?_ _ (by assumption)))

theorem applyReplicaAdd_frame {s : State} {p : PageRef} {holder : ModuleId} {pageId : Nat} {pm : List Part} {z0 : State} (hk : Frame pm z0 s) (m_work : Part.work ∈ pm := by assumption) (m_out : Part.out ∈ pm := by assumption) (m_spent : Part.spent ∈ pm := by assumption) : Frame pm z0 (applyReplicaAdd s p holder pageId) := by
  unfold applyReplicaAdd
  try dsimp only
  repeat (any_goals (first | intro _ | with_reducible assumption | with_reducible refine send_frame ?_ | with_reducible refine putConv_frame ?_ | with_reducible apply Frame.ite | with_reducible apply Frame.iteFst | fail_if_no_progress (with_reducible refine Frame.set ?_) | split | dsimp only | refine Frame.ofFst ?_ (by assumption) | refine Frame.ofSnd2 ?_ (by assumption) | refine FrameOpt.kept ?_ _ (by assumption) | refine FrameOut.kept ?_ _ (by assumption)))

theorem applyReplicaDrop_frame {s : State} {p : PageRef} {holder : ModuleId} {pm : List Part} {z0 : State} (hk : Frame pm z0 s) (m_work : Part.work ∈ pm := by assumption) : Frame pm z0 (applyReplicaDrop s p holder) := by
  unfold applyReplicaDrop
  try dsimp only
  repeat (any_goals (first | intro _ | with_reducible assumption | with_reducible refine modConv_frame ?_ | with_reducible apply Frame.ite | with_reducible apply Frame.iteFst | fail_if_no_progress (with_reducible refine Frame.set ?_) | split | dsimp only | refine Frame.ofFst ?_ (by assumption) | refine Frame.ofSnd2 ?_ (by assumption) | refine FrameOpt.kept ?_ _ (by assumption) | refine FrameOut.kept ?_ _ (by assumption)))

theorem applyPrimaryFree_frame {s : State} {p : PageRef} {pm : List Part} {z0 : State} (hk : Frame pm z0 s) (m_work : Part.work ∈ pm := by assumption) (m_haul : Part.haul ∈ pm := by assumption) : Frame pm z0 (applyPrimaryFree s p) := by
  unfold applyPrimaryFree
  try dsimp only
  repeat (any_goals (first | intro _ | with_reducible assumption | with_reducible refine modConv_frame ?_ | with_reducible refine dropEmptyHolder_frame ?_ | with_reducible apply Frame.ite | with_reducible apply Frame.iteFst | fail_if_no_progress (with_reducible refine Frame.set ?_) | split | dsimp only | refine Frame.ofFst ?_ (by assumption) | refine Frame.ofSnd2 ?_ (by assumption) | refine FrameOpt.kept ?_ _ (by assumption) | refine FrameOut.kept ?_ _ (by assumption)))

theorem execReleaseNotice_frame {t : Stamp} {conv : Nat} {fromGroup : Nat} {s : State} {pm : List Part} {z0 : State} (hk : Frame pm z0 s) (m_time : Part.time ∈ pm := by assumption) (m_haul : Part.haul ∈ pm := by assumption) (m_pwr : Part.pwr ∈ pm := by assumption) : FrameOut pm z0 (execReleaseNotice t conv fromGroup s) := by
  unfold execReleaseNotice
  try dsimp only
  repeat (any_goals (first | intro _ | with_reducible assumption | with_reducible refine runLink_frame ?_ ?_ | with_reducible refine deferTo_frame ?_ | with_reducible apply FrameOut.next | exact FrameOut.fault | with_reducible apply Frame.ite | with_reducible apply Frame.iteFst | with_reducible apply FrameOut.ite | fail_if_no_progress (with_reducible refine Frame.set ?_) | split | dsimp only | refine Frame.ofFst ?_ (by assumption) | refine Frame.ofSnd2 ?_ (by assumption) | refine FrameOpt.kept ?_ _ (by assumption) | refine FrameOut.kept ?_ _ (by assumption)))

theorem execStateNotice_frame {t : Stamp} {conv : Nat} {st : ConvState} {s : State} {pm : List Part} {z0 : State} (hk : Frame pm z0 s) (m_time : Part.time ∈ pm := by assumption) (m_haul : Part.haul ∈ pm := by assumption) (m_pwr : Part.pwr ∈ pm := by assumption) : FrameOut pm z0 (execStateNotice t conv st s) := by
  unfold execStateNotice
  try dsimp only
  repeat (any_goals (first | intro _ | with_reducible assumption | with_reducible refine runLink_frame ?_ ?_ | with_reducible refine deferTo_frame ?_ | with_reducible apply FrameOut.next | exact FrameOut.fault | with_reducible apply Frame.ite | with_reducible apply Frame.iteFst | with_reducible apply FrameOut.ite | fail_if_no_progress (with_reducible refine Frame.set ?_) | split | dsimp only | refine Frame.ofFst ?_ (by assumption) | refine Frame.ofSnd2 ?_ (by assumption) | refine FrameOpt.kept ?_ _ (by assumption) | refine FrameOut.kept ?_ _ (by assumption)))

theorem execRefcountMessage_frame {t : Stamp} {p : PageRef} {seq : Nat} {up : Bool} {s : State} {pm : List Part} {z0 : State} (hk : Frame pm z0 s) (m_time : Part.time ∈ pm := by assumption) (m_haul : Part.haul ∈ pm := by assumption) (m_pwr : Part.pwr ∈ pm := by assumption) : FrameOut pm z0 (execRefcountMessage t p seq up s) := by
  unfold execRefcountMessage
  try dsimp only
  repeat (any_goals (first | intro _ | with_reducible assumption | with_reducible refine runLink_frame ?_ ?_ | with_reducible refine deferTo_frame ?_ | with_reducible apply FrameOut.next | exact FrameOut.fault | with_reducible apply Frame.ite | with_reducible apply Frame.iteFst | with_reducible apply FrameOut.ite | fail_if_no_progress (with_reducible refine Frame.set ?_) | split | dsimp only | refine Frame.ofFst ?_ (by assumption) | refine Frame.ofSnd2 ?_ (by assumption) | refine FrameOpt.kept ?_ _ (by assumption) | refine FrameOut.kept ?_ _ (by assumption)))

theorem execReplicaCopyAck_frame {t : Stamp} {p : PageRef} {holder : ModuleId} {pageId : Nat} {s : State} {pm : List Part} {z0 : State} (hk : Frame pm z0 s) (m_time : Part.time ∈ pm := by assumption) (m_haul : Part.haul ∈ pm := by assumption) (m_pwr : Part.pwr ∈ pm := by assumption) : FrameOut pm z0 (execReplicaCopyAck t p holder pageId s) := by
  unfold execReplicaCopyAck
  try dsimp only
  repeat (any_goals (first | intro _ | with_reducible assumption | with_reducible refine runLink_frame ?_ ?_ | with_reducible refine deferTo_frame ?_ | with_reducible apply FrameOut.next | exact FrameOut.fault | with_reducible apply Frame.ite | with_reducible apply Frame.iteFst | with_reducible apply FrameOut.ite | fail_if_no_progress (with_reducible refine Frame.set ?_) | split | dsimp only | refine Frame.ofFst ?_ (by assumption) | refine Frame.ofSnd2 ?_ (by assumption) | refine FrameOpt.kept ?_ _ (by assumption) | refine FrameOut.kept ?_ _ (by assumption)))

theorem execPrimaryFreeNotice_frame {t : Stamp} {p : PageRef} {s : State} {pm : List Part} {z0 : State} (hk : Frame pm z0 s) (m_time : Part.time ∈ pm := by assumption) (m_haul : Part.haul ∈ pm := by assumption) (m_pwr : Part.pwr ∈ pm := by assumption) : FrameOut pm z0 (execPrimaryFreeNotice t p s) := by
  unfold execPrimaryFreeNotice
  try dsimp only
  repeat (any_goals (first | intro _ | with_reducible assumption | with_reducible refine runLink_frame ?_ ?_ | with_reducible refine deferTo_frame ?_ | with_reducible apply FrameOut.next | exact FrameOut.fault | with_reducible apply Frame.ite | with_reducible apply Frame.iteFst | with_reducible apply FrameOut.ite | fail_if_no_progress (with_reducible refine Frame.set ?_) | split | dsimp only | refine Frame.ofFst ?_ (by assumption) | refine Frame.ofSnd2 ?_ (by assumption) | refine FrameOpt.kept ?_ _ (by assumption) | refine FrameOut.kept ?_ _ (by assumption)))

theorem execReplicaDropNotice_frame {t : Stamp} {p : PageRef} {holder : ModuleId} {s : State} {pm : List Part} {z0 : State} (hk : Frame pm z0 s) (m_time : Part.time ∈ pm := by assumption) (m_haul : Part.haul ∈ pm := by assumption) (m_pwr : Part.pwr ∈ pm := by assumption) : FrameOut pm z0 (execReplicaDropNotice t p holder s) := by
  unfold execReplicaDropNotice
  try dsimp only
  repeat (any_goals (first | intro _ | with_reducible assumption | with_reducible refine runLink_frame ?_ ?_ | with_reducible refine deferTo_frame ?_ | with_reducible apply FrameOut.next | exact FrameOut.fault | with_reducible apply Frame.ite | with_reducible apply Frame.iteFst | with_reducible apply FrameOut.ite | fail_if_no_progress (with_reducible refine Frame.set ?_) | split | dsimp only | refine Frame.ofFst ?_ (by assumption) | refine Frame.ofSnd2 ?_ (by assumption) | refine FrameOpt.kept ?_ _ (by assumption) | refine FrameOut.kept ?_ _ (by assumption)))

theorem keepCopy_frame {s : State} {b : Nat} {p : PageRef} {r : Entry} {pm : List Part} {z0 : State} (hk : Frame pm z0 s) (m_work : Part.work ∈ pm := by assumption) (m_haul : Part.haul ∈ pm := by assumption) : Frame pm z0 (keepCopy s b p r) := by
  unfold keepCopy
  try dsimp only
  repeat (any_goals (first | intro _ | with_reducible assumption | with_reducible refine setKeeper_frame ?_ | with_reducible refine putConv_frame ?_ | with_reducible apply Frame.ite | with_reducible apply Frame.iteFst | fail_if_no_progress (with_reducible refine Frame.set ?_) | split | dsimp only | refine Frame.ofFst ?_ (by assumption) | refine Frame.ofSnd2 ?_ (by assumption) | refine FrameOpt.kept ?_ _ (by assumption) | refine FrameOut.kept ?_ _ (by assumption)))

theorem replicaReceived_frame {src : ModuleId} {p : PageRef} {e : Entry} {sound : Bool} {s : State} {pm : List Part} {z0 : State} (hk : Frame pm z0 s) (m_bar : Part.bar ∈ pm := by assumption) (m_work : Part.work ∈ pm := by assumption) (m_haul : Part.haul ∈ pm := by assumption) (m_fault : Part.fault ∈ pm := by assumption) (m_out : Part.out ∈ pm := by assumption) (m_spent : Part.spent ∈ pm := by assumption) (m_fresh : Part.fresh ∈ pm := by assumption) : Frame pm z0 (replicaReceived src p e sound s) := by
  unfold replicaReceived
  try dsimp only
  repeat (any_goals (first | intro _ | with_reducible assumption | with_reducible refine countReject_frame ?_ | with_reducible refine newPageId_frame ?_ | with_reducible refine send_frame ?_ | with_reducible refine keepCopy_frame ?_ | with_reducible refine chargePage_frame ?_ | with_reducible apply Frame.ite | with_reducible apply Frame.iteFst | fail_if_no_progress (with_reducible refine Frame.set ?_) | split | dsimp only | refine Frame.ofFst ?_ (by assumption) | refine Frame.ofSnd2 ?_ (by assumption) | refine FrameOpt.kept ?_ _ (by assumption) | refine FrameOut.kept ?_ _ (by assumption)))

theorem execReplicaCopyReceive_frame {t : Stamp} {src : ModuleId} {p : PageRef} {e : Entry} {sound : Bool} {s : State} {pm : List Part} {z0 : State} (hk : Frame pm z0 s) (m_time : Part.time ∈ pm := by assumption) (m_bar : Part.bar ∈ pm := by assumption) (m_work : Part.work ∈ pm := by assumption) (m_haul : Part.haul ∈ pm := by assumption) (m_fault : Part.fault ∈ pm := by assumption) (m_pwr : Part.pwr ∈ pm := by assumption) (m_out : Part.out ∈ pm := by assumption) (m_spent : Part.spent ∈ pm := by assumption) (m_fresh : Part.fresh ∈ pm := by assumption) : FrameOut pm z0 (execReplicaCopyReceive t src p e sound s) := by
  unfold execReplicaCopyReceive
  try dsimp only
  repeat (any_goals (first | intro _ | with_reducible assumption | with_reducible refine runLink_frame ?_ ?_ | with_reducible refine replicaReceived_frame ?_ | with_reducible apply FrameOut.next | exact FrameOut.fault | with_reducible apply Frame.ite | with_reducible apply Frame.iteFst | with_reducible apply FrameOut.ite | fail_if_no_progress (with_reducible refine Frame.set ?_) | split | dsimp only | refine Frame.ofFst ?_ (by assumption) | refine Frame.ofSnd2 ?_ (by assumption) | refine FrameOpt.kept ?_ _ (by assumption) | refine FrameOut.kept ?_ _ (by assumption)))

theorem chargeCopy_frame {s : State} {b : Nat} {e : Entry} {pm : List Part} {z0 : State} (hk : Frame pm z0 s) (m_spent : Part.spent ∈ pm := by assumption) : Frame pm z0 (chargeCopy s b e) := by
  unfold chargeCopy
  try dsimp only
  repeat (any_goals (first | intro _ | with_reducible assumption | with_reducible refine chargeShare_frame ?_ | with_reducible apply Frame.ite | with_reducible apply Frame.iteFst | fail_if_no_progress (with_reducible refine Frame.set ?_) | split | dsimp only | refine Frame.ofFst ?_ (by assumption) | refine Frame.ofSnd2 ?_ (by assumption) | refine FrameOpt.kept ?_ _ (by assumption) | refine FrameOut.kept ?_ _ (by assumption)))

theorem sendReplicas_frame {s : State} {c : Conv} {g : Nat} {pm : List Part} {z0 : State} (hk : Frame pm z0 s) (m_out : Part.out ∈ pm := by assumption) (m_spent : Part.spent ∈ pm := by assumption) : Frame pm z0 (sendReplicas s c g) := by
  unfold sendReplicas
  try dsimp only
  repeat (any_goals (first | intro _ | with_reducible assumption | with_reducible refine send_frame ?_ | with_reducible refine chargeCopy_frame ?_ | with_reducible apply foldl_frame | with_reducible apply foldl_frame_fst | with_reducible apply Frame.ite | with_reducible apply Frame.iteFst | fail_if_no_progress (with_reducible refine Frame.set ?_) | split | dsimp only | refine Frame.ofFst ?_ (by assumption) | refine Frame.ofSnd2 ?_ (by assumption) | refine FrameOpt.kept ?_ _ (by assumption) | refine FrameOut.kept ?_ _ (by assumption)))

theorem setMeter_frame {s : State} {b : Nat} {f : OpenMeter → OpenMeter} {pm : List Part} {z0 : State} (hk : Frame pm z0 s) (m_mgmt : Part.mgmt ∈ pm := by assumption) : Frame pm z0 (setMeter s b f) := by
  unfold setMeter
  try dsimp only
  repeat (any_goals (first | intro _ | with_reducible assumption | with_reducible apply Frame.ite | with_reducible apply Frame.iteFst | fail_if_no_progress (with_reducible refine Frame.set ?_) | split | dsimp only | refine Frame.ofFst ?_ (by assumption) | refine Frame.ofSnd2 ?_ (by assumption) | refine FrameOpt.kept ?_ _ (by assumption) | refine FrameOut.kept ?_ _ (by assumption)))

theorem putMeter_frame {s : State} {r : MeterRec} {pm : List Part} {z0 : State} (hk : Frame pm z0 s) (m_mgmt : Part.mgmt ∈ pm := by assumption) : Frame pm z0 (putMeter s r) := by
  unfold putMeter
  try dsimp only
  repeat (any_goals (first | intro _ | with_reducible assumption | with_reducible apply Frame.ite | with_reducible apply Frame.iteFst | fail_if_no_progress (with_reducible refine Frame.set ?_) | split | dsimp only | refine Frame.ofFst ?_ (by assumption) | refine Frame.ofSnd2 ?_ (by assumption) | refine FrameOpt.kept ?_ _ (by assumption) | refine FrameOut.kept ?_ _ (by assumption)))

theorem closeRecord_frame {s : State} {b : Nat} {reason : Nat} {k : Nat} {pm : List Part} {z0 : State} (hk : Frame pm z0 s) (m_mgmt : Part.mgmt ∈ pm := by assumption) : Frame pm z0 (closeRecord s b reason k) := by
  unfold closeRecord
  try dsimp only
  repeat (any_goals (first | intro _ | with_reducible assumption | with_reducible refine setMeter_frame ?_ | with_reducible refine putMeter_frame ?_ | with_reducible apply Frame.ite | with_reducible apply Frame.iteFst | fail_if_no_progress (with_reducible refine Frame.set ?_) | split | dsimp only | refine Frame.ofFst ?_ (by assumption) | refine Frame.ofSnd2 ?_ (by assumption) | refine FrameOpt.kept ?_ _ (by assumption) | refine FrameOut.kept ?_ _ (by assumption)))

theorem closeTally_frame {s : State} {id : Nat} {reason : Nat} {k : Nat} {pm : List Part} {z0 : State} (hk : Frame pm z0 s) (m_work : Part.work ∈ pm := by assumption) (m_mgmt : Part.mgmt ∈ pm := by assumption) : Frame pm z0 (closeTally s id reason k) := by
  unfold closeTally
  try dsimp only
  repeat (any_goals (first | intro _ | with_reducible assumption | with_reducible refine putMeter_frame ?_ | with_reducible apply Frame.ite | with_reducible apply Frame.iteFst | fail_if_no_progress (with_reducible refine Frame.set ?_) | split | dsimp only | refine Frame.ofFst ?_ (by assumption) | refine Frame.ofSnd2 ?_ (by assumption) | refine FrameOpt.kept ?_ _ (by assumption) | refine FrameOut.kept ?_ _ (by assumption)))

theorem noteMeter_frame {s : State} {b : Nat} {pm : List Part} {z0 : State} (hk : Frame pm z0 s) (m_mgmt : Part.mgmt ∈ pm := by assumption) : Frame pm z0 (noteMeter s b) := by
  unfold noteMeter
  try dsimp only
  repeat (any_goals (first | intro _ | with_reducible assumption | with_reducible refine setMeter_frame ?_ | with_reducible apply Frame.ite | with_reducible apply Frame.iteFst | fail_if_no_progress (with_reducible refine Frame.set ?_) | split | dsimp only | refine Frame.ofFst ?_ (by assumption) | refine Frame.ofSnd2 ?_ (by assumption) | refine FrameOpt.kept ?_ _ (by assumption) | refine FrameOut.kept ?_ _ (by assumption)))

theorem closeMeters_frame {s : State} {k : Nat} {pm : List Part} {z0 : State} (hk : Frame pm z0 s) (m_work : Part.work ∈ pm := by assumption) (m_mgmt : Part.mgmt ∈ pm := by assumption) : Frame pm z0 (closeMeters s k) := by
  unfold closeMeters
  try dsimp only
  repeat (any_goals (first | intro _ | with_reducible assumption | with_reducible refine setMeter_frame ?_ | with_reducible refine closeRecord_frame ?_ | with_reducible refine closeTally_frame ?_ | with_reducible refine noteMeter_frame ?_ | with_reducible apply foldl_frame | with_reducible apply foldl_frame_fst | with_reducible apply Frame.ite | with_reducible apply Frame.iteFst | fail_if_no_progress (with_reducible refine Frame.set ?_) | split | dsimp only | refine Frame.ofFst ?_ (by assumption) | refine Frame.ofSnd2 ?_ (by assumption) | refine FrameOpt.kept ?_ _ (by assumption) | refine FrameOut.kept ?_ _ (by assumption)))

theorem closeAll_frame {s : State} {reason : Nat} {pm : List Part} {z0 : State} (hk : Frame pm z0 s) (m_work : Part.work ∈ pm := by assumption) (m_mgmt : Part.mgmt ∈ pm := by assumption) : Frame pm z0 (closeAll s reason) := by
  unfold closeAll
  try dsimp only
  repeat (any_goals (first | intro _ | with_reducible assumption | with_reducible refine closeRecord_frame ?_ | with_reducible refine closeTally_frame ?_ | with_reducible apply foldl_frame | with_reducible apply foldl_frame_fst | with_reducible apply Frame.ite | with_reducible apply Frame.iteFst | fail_if_no_progress (with_reducible refine Frame.set ?_) | split | dsimp only | refine Frame.ofFst ?_ (by assumption) | refine Frame.ofSnd2 ?_ (by assumption) | refine FrameOpt.kept ?_ _ (by assumption) | refine FrameOut.kept ?_ _ (by assumption)))

theorem openMeters_frame {s : State} {k : Nat} {pm : List Part} {z0 : State} (hk : Frame pm z0 s) (m_mgmt : Part.mgmt ∈ pm := by assumption) : Frame pm z0 (openMeters s k) := by
  unfold openMeters
  try dsimp only
  repeat (any_goals (first | intro _ | with_reducible assumption | with_reducible refine noteMeter_frame ?_ | with_reducible refine setMeter_frame ?_ | with_reducible apply foldl_frame | with_reducible apply foldl_frame_fst | with_reducible apply Frame.ite | with_reducible apply Frame.iteFst | fail_if_no_progress (with_reducible refine Frame.set ?_) | split | dsimp only | refine Frame.ofFst ?_ (by assumption) | refine Frame.ofSnd2 ?_ (by assumption) | refine FrameOpt.kept ?_ _ (by assumption) | refine FrameOut.kept ?_ _ (by assumption)))

theorem pfWrite_frame {t : Stamp} {fn : Fn} {off : Nat} {f : State → State} {s : State} {pm : List Part} {z0 : State} (hf : ∀ (z : State) (x0 : State), Frame pm z x0 → Frame pm z (f x0)) (hk : Frame pm z0 s) (m_time : Part.time ∈ pm := by assumption) (m_bar : Part.bar ∈ pm := by assumption) (m_fault : Part.fault ∈ pm := by assumption) (m_out : Part.out ∈ pm := by assumption) : FrameOut pm z0 (pfWrite t fn off f s) := by
  unfold pfWrite
  try dsimp only
  repeat (any_goals (first | intro _ | with_reducible assumption | with_reducible refine run_frame ?_ ?_ | with_reducible refine badAccess_frame ?_ | with_reducible apply hf | with_reducible apply FrameOut.next | exact FrameOut.fault | with_reducible apply Frame.ite | with_reducible apply Frame.iteFst | with_reducible apply FrameOut.ite | fail_if_no_progress (with_reducible refine Frame.set ?_) | split | dsimp only | refine Frame.ofFst ?_ (by assumption) | refine Frame.ofSnd2 ?_ (by assumption) | refine FrameOpt.kept ?_ _ (by assumption) | refine FrameOut.kept ?_ _ (by assumption)))

theorem dropLanded_frame {st : Stamp} {all : Bool} {s : State} {pm : List Part} {z0 : State} (hk : Frame pm z0 s) (m_host : Part.host ∈ pm := by assumption) (m_haul : Part.haul ∈ pm := by assumption) (m_fault : Part.fault ∈ pm := by assumption) (m_out : Part.out ∈ pm := by assumption) (m_spent : Part.spent ∈ pm := by assumption) : Frame pm z0 (dropLanded st all s) := by
  unfold dropLanded
  try dsimp only
  repeat (any_goals (first | intro _ | with_reducible assumption | with_reducible refine complete_frame ?_ | with_reducible apply foldl_frame | with_reducible apply foldl_frame_fst | with_reducible apply Frame.ite | with_reducible apply Frame.iteFst | fail_if_no_progress (with_reducible refine Frame.set ?_) | split | dsimp only | refine Frame.ofFst ?_ (by assumption) | refine Frame.ofSnd2 ?_ (by assumption) | refine FrameOpt.kept ?_ _ (by assumption) | refine FrameOut.kept ?_ _ (by assumption)))

theorem respond_frame {s : State} {c : MgmtCmd} {st : Status} {body : List Nat} {pm : List Part} {z0 : State} (hk : Frame pm z0 s) (m_mgmt : Part.mgmt ∈ pm := by assumption) (m_out : Part.out ∈ pm := by assumption) : Frame pm z0 (respond s c st body) := by
  unfold respond
  try dsimp only
  repeat (any_goals (first | intro _ | with_reducible assumption | with_reducible refine emit_frame ?_ | with_reducible refine signal_frame ?_ | with_reducible apply Frame.ite | with_reducible apply Frame.iteFst | fail_if_no_progress (with_reducible refine Frame.set ?_) | split | dsimp only | refine Frame.ofFst ?_ (by assumption) | refine Frame.ofSnd2 ?_ (by assumption) | refine FrameOpt.kept ?_ _ (by assumption) | refine FrameOut.kept ?_ _ (by assumption)))

theorem dropHeld_frame {st : Stamp} {all : Bool} {s : State} {pm : List Part} {z0 : State} (hk : Frame pm z0 s) (m_sec : Part.sec ∈ pm := by assumption) (m_pwr : Part.pwr ∈ pm := by assumption) (m_mgmt : Part.mgmt ∈ pm := by assumption) (m_out : Part.out ∈ pm := by assumption) : Frame pm z0 (dropHeld st all s) := by
  unfold dropHeld
  try dsimp only
  repeat (any_goals (first | intro _ | with_reducible assumption | with_reducible refine respond_frame ?_ | with_reducible apply foldl_frame | with_reducible apply foldl_frame_fst | with_reducible apply Frame.ite | with_reducible apply Frame.iteFst | fail_if_no_progress (with_reducible refine Frame.set ?_) | split | dsimp only | refine Frame.ofFst ?_ (by assumption) | refine Frame.ofSnd2 ?_ (by assumption) | refine FrameOpt.kept ?_ _ (by assumption) | refine FrameOut.kept ?_ _ (by assumption)))

theorem enterKeep_frame {cause : Nat} {s : State} {pm : List Part} {z0 : State} (hk : Frame pm z0 s) (m_time : Part.time ∈ pm := by assumption) (m_host : Part.host ∈ pm := by assumption) (m_work : Part.work ∈ pm := by assumption) (m_plan : Part.plan ∈ pm := by assumption) (m_haul : Part.haul ∈ pm := by assumption) (m_fw : Part.fw ∈ pm := by assumption) (m_fault : Part.fault ∈ pm := by assumption) (m_sec : Part.sec ∈ pm := by assumption) (m_pwr : Part.pwr ∈ pm := by assumption) (m_mgmt : Part.mgmt ∈ pm := by assumption) (m_out : Part.out ∈ pm := by assumption) (m_spent : Part.spent ∈ pm := by assumption) : Frame pm z0 (enterKeep cause s) := by
  unfold enterKeep
  try dsimp only
  repeat (any_goals (first | intro _ | with_reducible assumption | with_reducible refine logErr_frame ?_ | with_reducible refine dropHeld_frame ?_ | with_reducible refine dropLanded_frame ?_ | with_reducible refine closeAll_frame ?_ | with_reducible apply Frame.ite | with_reducible apply Frame.iteFst | fail_if_no_progress (with_reducible refine Frame.set ?_) | split | dsimp only | refine Frame.ofFst ?_ (by assumption) | refine Frame.ofSnd2 ?_ (by assumption) | refine FrameOpt.kept ?_ _ (by assumption) | refine FrameOut.kept ?_ _ (by assumption)))

theorem execRlKeepCtrlEnter_frame {t : Stamp} {fn : Fn} {s : State} {pm : List Part} {z0 : State} (hk : Frame pm z0 s) (m_time : Part.time ∈ pm := by assumption) (m_bar : Part.bar ∈ pm := by assumption) (m_host : Part.host ∈ pm := by assumption) (m_work : Part.work ∈ pm := by assumption) (m_plan : Part.plan ∈ pm := by assumption) (m_haul : Part.haul ∈ pm := by assumption) (m_fw : Part.fw ∈ pm := by assumption) (m_fault : Part.fault ∈ pm := by assumption) (m_sec : Part.sec ∈ pm := by assumption) (m_pwr : Part.pwr ∈ pm := by assumption) (m_mgmt : Part.mgmt ∈ pm := by assumption) (m_out : Part.out ∈ pm := by assumption) (m_spent : Part.spent ∈ pm := by assumption) : FrameOut pm z0 (execRlKeepCtrlEnter t fn s) := by
  unfold execRlKeepCtrlEnter
  try dsimp only
  repeat (any_goals (first | intro _ | with_reducible assumption | with_reducible refine pfWrite_frame ?_ ?_ | with_reducible refine enterKeep_frame ?_ | with_reducible apply FrameOut.next | exact FrameOut.fault | with_reducible apply Frame.ite | with_reducible apply Frame.iteFst | with_reducible apply FrameOut.ite | fail_if_no_progress (with_reducible refine Frame.set ?_) | split | dsimp only | refine Frame.ofFst ?_ (by assumption) | refine Frame.ofSnd2 ?_ (by assumption) | refine FrameOpt.kept ?_ _ (by assumption) | refine FrameOut.kept ?_ _ (by assumption)))

theorem setReadout_frame {s : State} {done : Bool} {st : Status} {bytes : Nat} {next : Nat} {pm : List Part} {z0 : State} (hk : Frame pm z0 s) (m_fault : Part.fault ∈ pm := by assumption) : Frame pm z0 (setReadout s done st bytes next) := by
  unfold setReadout
  try dsimp only
  repeat (any_goals (first | intro _ | with_reducible assumption | with_reducible apply Frame.ite | with_reducible apply Frame.iteFst | fail_if_no_progress (with_reducible refine Frame.set ?_) | split | dsimp only | refine Frame.ofFst ?_ (by assumption) | refine Frame.ofSnd2 ?_ (by assumption) | refine FrameOpt.kept ?_ _ (by assumption) | refine FrameOut.kept ?_ _ (by assumption)))

theorem goReadout_frame {kind : Nat} {f : State → State} {s0 : State} {pm : List Part} {z0 : State} (hf : ∀ (z : State) (x0 : State), Frame pm z x0 → Frame pm z (f x0)) (hk : Frame pm z0 s0) (m_bar : Part.bar ∈ pm := by assumption) (m_fault : Part.fault ∈ pm := by assumption) : Frame pm z0 (goReadout kind f s0) := by
  unfold goReadout
  try dsimp only
  repeat (any_goals (first | intro _ | with_reducible assumption | with_reducible refine putReg_frame ?_ | with_reducible refine setReadout_frame ?_ | with_reducible apply hf | with_reducible apply Frame.ite | with_reducible apply Frame.iteFst | fail_if_no_progress (with_reducible refine Frame.set ?_) | split | dsimp only | refine Frame.ofFst ?_ (by assumption) | refine Frame.ofSnd2 ?_ (by assumption) | refine FrameOpt.kept ?_ _ (by assumption) | refine FrameOut.kept ?_ _ (by assumption)))

theorem execReadoutList_frame {t : Stamp} {fn : Fn} {s : State} {pm : List Part} {z0 : State} (hk : Frame pm z0 s) (m_time : Part.time ∈ pm := by assumption) (m_bar : Part.bar ∈ pm := by assumption) (m_fault : Part.fault ∈ pm := by assumption) (m_out : Part.out ∈ pm := by assumption) : FrameOut pm z0 (execReadoutList t fn s) := by
  unfold execReadoutList
  try dsimp only
  repeat (any_goals (first | intro _ | with_reducible assumption | with_reducible refine pfWrite_frame ?_ ?_ | with_reducible refine goReadout_frame ?_ ?_ | with_reducible refine setReadout_frame ?_ | with_reducible refine emitTo_frame ?_ | with_reducible apply FrameOut.next | exact FrameOut.fault | with_reducible apply Frame.ite | with_reducible apply Frame.iteFst | with_reducible apply FrameOut.ite | fail_if_no_progress (with_reducible refine Frame.set ?_) | split | dsimp only | refine Frame.ofFst ?_ (by assumption) | refine Frame.ofSnd2 ?_ (by assumption) | refine FrameOpt.kept ?_ _ (by assumption) | refine FrameOut.kept ?_ _ (by assumption)))

theorem execReadoutConv_frame {t : Stamp} {fn : Fn} {s : State} {pm : List Part} {z0 : State} (hk : Frame pm z0 s) (m_time : Part.time ∈ pm := by assumption) (m_bar : Part.bar ∈ pm := by assumption) (m_fault : Part.fault ∈ pm := by assumption) (m_out : Part.out ∈ pm := by assumption) : FrameOut pm z0 (execReadoutConv t fn s) := by
  unfold execReadoutConv
  try dsimp only
  repeat (any_goals (first | intro _ | with_reducible assumption | with_reducible refine pfWrite_frame ?_ ?_ | with_reducible refine goReadout_frame ?_ ?_ | with_reducible refine setReadout_frame ?_ | with_reducible refine emitTo_frame ?_ | with_reducible apply FrameOut.next | exact FrameOut.fault | with_reducible apply Frame.ite | with_reducible apply Frame.iteFst | with_reducible apply FrameOut.ite | fail_if_no_progress (with_reducible refine Frame.set ?_) | split | dsimp only | refine Frame.ofFst ?_ (by assumption) | refine Frame.ofSnd2 ?_ (by assumption) | refine FrameOpt.kept ?_ _ (by assumption) | refine FrameOut.kept ?_ _ (by assumption)))

theorem execReadoutDone_frame {t : Stamp} {s : State} {pm : List Part} {z0 : State} (hk : Frame pm z0 s) (m_time : Part.time ∈ pm := by assumption) (m_fault : Part.fault ∈ pm := by assumption) : FrameOut pm z0 (execReadoutDone t s) := by
  unfold execReadoutDone
  try dsimp only
  repeat (any_goals (first | intro _ | with_reducible assumption | with_reducible refine run_frame ?_ ?_ | with_reducible apply FrameOut.next | exact FrameOut.fault | with_reducible apply Frame.ite | with_reducible apply Frame.iteFst | with_reducible apply FrameOut.ite | fail_if_no_progress (with_reducible refine Frame.set ?_) | split | dsimp only | refine Frame.ofFst ?_ (by assumption) | refine Frame.ofSnd2 ?_ (by assumption) | refine FrameOpt.kept ?_ _ (by assumption) | refine FrameOut.kept ?_ _ (by assumption)))

theorem putDir_frame {s : State} {f : BootDir → BootDir} {pm : List Part} {z0 : State} (hk : Frame pm z0 s) (m_fw : Part.fw ∈ pm := by assumption) : Frame pm z0 (putDir s f) := by
  unfold putDir
  try dsimp only
  repeat (any_goals (first | intro _ | with_reducible assumption | with_reducible apply Frame.ite | with_reducible apply Frame.iteFst | fail_if_no_progress (with_reducible refine Frame.set ?_) | split | dsimp only | refine Frame.ofFst ?_ (by assumption) | refine Frame.ofSnd2 ?_ (by assumption) | refine FrameOpt.kept ?_ _ (by assumption) | refine FrameOut.kept ?_ _ (by assumption)))

theorem nowRuns_frame {kind : Nat} {s : State} {pm : List Part} {z0 : State} (hk : Frame pm z0 s) (m_fw : Part.fw ∈ pm := by assumption) : Frame pm z0 (nowRuns kind s) := by
  unfold nowRuns
  try dsimp only
  repeat (any_goals (first | intro _ | with_reducible assumption | with_reducible apply Frame.ite | with_reducible apply Frame.iteFst | fail_if_no_progress (with_reducible refine Frame.set ?_) | split | dsimp only | refine Frame.ofFst ?_ (by assumption) | refine Frame.ofSnd2 ?_ (by assumption) | refine FrameOpt.kept ?_ _ (by assumption) | refine FrameOut.kept ?_ _ (by assumption)))

theorem swapSlot_frame {s : State} {kind : Nat} {pm : List Part} {z0 : State} (hk : Frame pm z0 s) (m_fw : Part.fw ∈ pm := by assumption) : Frame pm z0 (swapSlot s kind) := by
  unfold swapSlot
  try dsimp only
  repeat (any_goals (first | intro _ | with_reducible assumption | with_reducible refine putDir_frame ?_ | with_reducible apply Frame.ite | with_reducible apply Frame.iteFst | fail_if_no_progress (with_reducible refine Frame.set ?_) | split | dsimp only | refine Frame.ofFst ?_ (by assumption) | refine Frame.ofSnd2 ?_ (by assumption) | refine FrameOpt.kept ?_ _ (by assumption) | refine FrameOut.kept ?_ _ (by assumption)))

theorem rollTrial_frame {s : State} {pm : List Part} {z0 : State} (hk : Frame pm z0 s) (m_fw : Part.fw ∈ pm := by assumption) (m_fault : Part.fault ∈ pm := by assumption) (m_out : Part.out ∈ pm := by assumption) : Frame pm z0 (rollTrial s) := by
  unfold rollTrial
  try dsimp only
  repeat (any_goals (first | intro _ | with_reducible assumption | with_reducible refine logErr_frame ?_ | with_reducible refine swapSlot_frame ?_ | with_reducible apply Frame.ite | with_reducible apply Frame.iteFst | fail_if_no_progress (with_reducible refine Frame.set ?_) | split | dsimp only | refine Frame.ofFst ?_ (by assumption) | refine Frame.ofSnd2 ?_ (by assumption) | refine FrameOpt.kept ?_ _ (by assumption) | refine FrameOut.kept ?_ _ (by assumption)))

theorem resetState_frame {pm : List Part} {c : Bool} {s : State} {z0 : State} (hk : Frame pm z0 s) (m_time : Part.time ∈ pm := by assumption) (m_bar : Part.bar ∈ pm := by assumption) (m_host : Part.host ∈ pm := by assumption) (m_benches : Part.benches ∈ pm := by assumption) (m_work : Part.work ∈ pm := by assumption) (m_plan : Part.plan ∈ pm := by assumption) (m_haul : Part.haul ∈ pm := by assumption) (m_tier : Part.tier ∈ pm := by assumption) (m_shards : Part.shards ∈ pm := by assumption) (m_fab : Part.fab ∈ pm := by assumption) (m_win : Part.win ∈ pm := by assumption) (m_fw : Part.fw ∈ pm := by assumption) (m_fault : Part.fault ∈ pm := by assumption) (m_sec : Part.sec ∈ pm := by assumption) (m_pwr : Part.pwr ∈ pm := by assumption) (m_mgmt : Part.mgmt ∈ pm := by assumption) (m_spent : Part.spent ∈ pm := by assumption) : Frame pm z0 (resetState c s) := by
  exact ⟨hk.1, hk.2, fun _ => rfl, fun p hp => by cases p <;> first | exact absurd (by assumption) hp | exact hk.4 _ hp⟩

theorem coldReset_frame {s : State} {pm : List Part} {z0 : State} (hk : Frame pm z0 s) (m_time : Part.time ∈ pm := by assumption) (m_bar : Part.bar ∈ pm := by assumption) (m_host : Part.host ∈ pm := by assumption) (m_benches : Part.benches ∈ pm := by assumption) (m_work : Part.work ∈ pm := by assumption) (m_plan : Part.plan ∈ pm := by assumption) (m_haul : Part.haul ∈ pm := by assumption) (m_tier : Part.tier ∈ pm := by assumption) (m_shards : Part.shards ∈ pm := by assumption) (m_fab : Part.fab ∈ pm := by assumption) (m_win : Part.win ∈ pm := by assumption) (m_fw : Part.fw ∈ pm := by assumption) (m_fault : Part.fault ∈ pm := by assumption) (m_sec : Part.sec ∈ pm := by assumption) (m_pwr : Part.pwr ∈ pm := by assumption) (m_mgmt : Part.mgmt ∈ pm := by assumption) (m_spent : Part.spent ∈ pm := by assumption) : Frame pm z0 (coldReset s) := by
  unfold coldReset
  try dsimp only
  repeat (any_goals (first | intro _ | with_reducible assumption | with_reducible refine resetState_frame ?_ | with_reducible apply Frame.ite | with_reducible apply Frame.iteFst | fail_if_no_progress (with_reducible refine Frame.set ?_) | split | dsimp only | refine Frame.ofFst ?_ (by assumption) | refine Frame.ofSnd2 ?_ (by assumption) | refine FrameOpt.kept ?_ _ (by assumption) | refine FrameOut.kept ?_ _ (by assumption)))

theorem warmReset_frame {s : State} {pm : List Part} {z0 : State} (hk : Frame pm z0 s) (m_time : Part.time ∈ pm := by assumption) (m_bar : Part.bar ∈ pm := by assumption) (m_host : Part.host ∈ pm := by assumption) (m_benches : Part.benches ∈ pm := by assumption) (m_work : Part.work ∈ pm := by assumption) (m_plan : Part.plan ∈ pm := by assumption) (m_haul : Part.haul ∈ pm := by assumption) (m_tier : Part.tier ∈ pm := by assumption) (m_shards : Part.shards ∈ pm := by assumption) (m_fab : Part.fab ∈ pm := by assumption) (m_win : Part.win ∈ pm := by assumption) (m_fw : Part.fw ∈ pm := by assumption) (m_fault : Part.fault ∈ pm := by assumption) (m_sec : Part.sec ∈ pm := by assumption) (m_pwr : Part.pwr ∈ pm := by assumption) (m_mgmt : Part.mgmt ∈ pm := by assumption) (m_spent : Part.spent ∈ pm := by assumption) : Frame pm z0 (warmReset s) := by
  unfold warmReset
  try dsimp only
  repeat (any_goals (first | intro _ | with_reducible assumption | with_reducible refine resetState_frame ?_ | with_reducible apply Frame.ite | with_reducible apply Frame.iteFst | fail_if_no_progress (with_reducible refine Frame.set ?_) | split | dsimp only | refine Frame.ofFst ?_ (by assumption) | refine Frame.ofSnd2 ?_ (by assumption) | refine FrameOpt.kept ?_ _ (by assumption) | refine FrameOut.kept ?_ _ (by assumption)))

theorem execInputRise_frame {t : Stamp} {mv : Nat} {s : State} {pm : List Part} {z0 : State} (hk : Frame pm z0 s) (m_time : Part.time ∈ pm := by assumption) (m_bar : Part.bar ∈ pm := by assumption) (m_host : Part.host ∈ pm := by assumption) (m_benches : Part.benches ∈ pm := by assumption) (m_work : Part.work ∈ pm := by assumption) (m_plan : Part.plan ∈ pm := by assumption) (m_haul : Part.haul ∈ pm := by assumption) (m_tier : Part.tier ∈ pm := by assumption) (m_shards : Part.shards ∈ pm := by assumption) (m_fab : Part.fab ∈ pm := by assumption) (m_win : Part.win ∈ pm := by assumption) (m_fw : Part.fw ∈ pm := by assumption) (m_fault : Part.fault ∈ pm := by assumption) (m_sec : Part.sec ∈ pm := by assumption) (m_pwr : Part.pwr ∈ pm := by assumption) (m_mgmt : Part.mgmt ∈ pm := by assumption) (m_spent : Part.spent ∈ pm := by assumption) : FrameOut pm z0 (execInputRise t mv s) := by
  unfold execInputRise
  try dsimp only
  repeat (any_goals (first | intro _ | with_reducible assumption | with_reducible refine State_at_frame ?_ | with_reducible refine coldReset_frame ?_ | with_reducible apply FrameOut.next | exact FrameOut.fault | with_reducible apply Frame.ite | with_reducible apply Frame.iteFst | with_reducible apply FrameOut.ite | fail_if_no_progress (with_reducible refine Frame.set ?_) | split | dsimp only | refine Frame.ofFst ?_ (by assumption) | refine Frame.ofSnd2 ?_ (by assumption) | refine FrameOpt.kept ?_ _ (by assumption) | refine FrameOut.kept ?_ _ (by assumption)))

theorem execInputUndervoltage_frame {t : Stamp} {mv : Nat} {s : State} {pm : List Part} {z0 : State} (hk : Frame pm z0 s) (m_time : Part.time ∈ pm := by assumption) (m_bar : Part.bar ∈ pm := by assumption) (m_host : Part.host ∈ pm := by assumption) (m_benches : Part.benches ∈ pm := by assumption) (m_work : Part.work ∈ pm := by assumption) (m_plan : Part.plan ∈ pm := by assumption) (m_haul : Part.haul ∈ pm := by assumption) (m_tier : Part.tier ∈ pm := by assumption) (m_shards : Part.shards ∈ pm := by assumption) (m_fab : Part.fab ∈ pm := by assumption) (m_win : Part.win ∈ pm := by assumption) (m_fw : Part.fw ∈ pm := by assumption) (m_fault : Part.fault ∈ pm := by assumption) (m_sec : Part.sec ∈ pm := by assumption) (m_pwr : Part.pwr ∈ pm := by assumption) (m_mgmt : Part.mgmt ∈ pm := by assumption) (m_spent : Part.spent ∈ pm := by assumption) : FrameOut pm z0 (execInputUndervoltage t mv s) := by
  unfold execInputUndervoltage
  try dsimp only
  repeat (any_goals (first | intro _ | with_reducible assumption | with_reducible refine State_at_frame ?_ | with_reducible refine coldReset_frame ?_ | with_reducible apply FrameOut.next | exact FrameOut.fault | with_reducible apply Frame.ite | with_reducible apply Frame.iteFst | with_reducible apply FrameOut.ite | fail_if_no_progress (with_reducible refine Frame.set ?_) | split | dsimp only | refine Frame.ofFst ?_ (by assumption) | refine Frame.ofSnd2 ?_ (by assumption) | refine FrameOpt.kept ?_ _ (by assumption) | refine FrameOut.kept ?_ _ (by assumption)))

theorem execInputOutOfRange_frame {t : Stamp} {mv : Nat} {s : State} {pm : List Part} {z0 : State} (hk : Frame pm z0 s) (m_time : Part.time ∈ pm := by assumption) (m_fault : Part.fault ∈ pm := by assumption) (m_pwr : Part.pwr ∈ pm := by assumption) (m_out : Part.out ∈ pm := by assumption) : FrameOut pm z0 (execInputOutOfRange t mv s) := by
  unfold execInputOutOfRange
  try dsimp only
  repeat (any_goals (first | intro _ | with_reducible assumption | with_reducible refine run_frame ?_ ?_ | with_reducible refine logErr_frame ?_ | with_reducible apply FrameOut.next | exact FrameOut.fault | with_reducible apply Frame.ite | with_reducible apply Frame.iteFst | with_reducible apply FrameOut.ite | fail_if_no_progress (with_reducible refine Frame.set ?_) | split | dsimp only | refine Frame.ofFst ?_ (by assumption) | refine Frame.ofSnd2 ?_ (by assumption) | refine FrameOpt.kept ?_ _ (by assumption) | refine FrameOut.kept ?_ _ (by assumption)))

theorem execInputInRange_frame {t : Stamp} {mv : Nat} {s : State} {pm : List Part} {z0 : State} (hk : Frame pm z0 s) (m_time : Part.time ∈ pm := by assumption) (m_pwr : Part.pwr ∈ pm := by assumption) : FrameOut pm z0 (execInputInRange t mv s) := by
  unfold execInputInRange
  try dsimp only
  repeat (any_goals (first | intro _ | with_reducible assumption | with_reducible refine run_frame ?_ ?_ | with_reducible apply FrameOut.next | exact FrameOut.fault | with_reducible apply Frame.ite | with_reducible apply Frame.iteFst | with_reducible apply FrameOut.ite | fail_if_no_progress (with_reducible refine Frame.set ?_) | split | dsimp only | refine Frame.ofFst ?_ (by assumption) | refine Frame.ofSnd2 ?_ (by assumption) | refine FrameOpt.kept ?_ _ (by assumption) | refine FrameOut.kept ?_ _ (by assumption)))

theorem execResetN_frame {t : Stamp} {lowNs : Nat} {s : State} {pm : List Part} {z0 : State} (hk : Frame pm z0 s) (m_time : Part.time ∈ pm := by assumption) (m_bar : Part.bar ∈ pm := by assumption) (m_host : Part.host ∈ pm := by assumption) (m_benches : Part.benches ∈ pm := by assumption) (m_work : Part.work ∈ pm := by assumption) (m_plan : Part.plan ∈ pm := by assumption) (m_haul : Part.haul ∈ pm := by assumption) (m_tier : Part.tier ∈ pm := by assumption) (m_shards : Part.shards ∈ pm := by assumption) (m_fab : Part.fab ∈ pm := by assumption) (m_win : Part.win ∈ pm := by assumption) (m_fw : Part.fw ∈ pm := by assumption) (m_fault : Part.fault ∈ pm := by assumption) (m_sec : Part.sec ∈ pm := by assumption) (m_pwr : Part.pwr ∈ pm := by assumption) (m_mgmt : Part.mgmt ∈ pm := by assumption) (m_spent : Part.spent ∈ pm := by assumption) : FrameOut pm z0 (execResetN t lowNs s) := by
  unfold execResetN
  try dsimp only
  repeat (any_goals (first | intro _ | with_reducible assumption | with_reducible refine State_at_frame ?_ | with_reducible refine coldReset_frame ?_ | with_reducible apply FrameOut.next | exact FrameOut.fault | with_reducible apply Frame.ite | with_reducible apply Frame.iteFst | with_reducible apply FrameOut.ite | fail_if_no_progress (with_reducible refine Frame.set ?_) | split | dsimp only | refine Frame.ofFst ?_ (by assumption) | refine Frame.ofSnd2 ?_ (by assumption) | refine FrameOpt.kept ?_ _ (by assumption) | refine FrameOut.kept ?_ _ (by assumption)))

theorem execResetNRelease_frame {t : Stamp} {s : State} {pm : List Part} {z0 : State} (hk : Frame pm z0 s) (m_time : Part.time ∈ pm := by assumption) (m_fw : Part.fw ∈ pm := by assumption) : FrameOut pm z0 (execResetNRelease t s) := by
  unfold execResetNRelease
  try dsimp only
  repeat (any_goals (first | intro _ | with_reducible assumption | with_reducible refine State_at_frame ?_ | with_reducible apply FrameOut.next | exact FrameOut.fault | with_reducible apply Frame.ite | with_reducible apply Frame.iteFst | with_reducible apply FrameOut.ite | fail_if_no_progress (with_reducible refine Frame.set ?_) | split | dsimp only | refine Frame.ofFst ?_ (by assumption) | refine Frame.ofSnd2 ?_ (by assumption) | refine FrameOpt.kept ?_ _ (by assumption) | refine FrameOut.kept ?_ _ (by assumption)))

theorem execPerst_frame {t : Stamp} {s : State} {pm : List Part} {z0 : State} (hk : Frame pm z0 s) (m_time : Part.time ∈ pm := by assumption) (m_bar : Part.bar ∈ pm := by assumption) (m_host : Part.host ∈ pm := by assumption) (m_benches : Part.benches ∈ pm := by assumption) (m_work : Part.work ∈ pm := by assumption) (m_plan : Part.plan ∈ pm := by assumption) (m_haul : Part.haul ∈ pm := by assumption) (m_tier : Part.tier ∈ pm := by assumption) (m_shards : Part.shards ∈ pm := by assumption) (m_fab : Part.fab ∈ pm := by assumption) (m_win : Part.win ∈ pm := by assumption) (m_fw : Part.fw ∈ pm := by assumption) (m_fault : Part.fault ∈ pm := by assumption) (m_sec : Part.sec ∈ pm := by assumption) (m_pwr : Part.pwr ∈ pm := by assumption) (m_mgmt : Part.mgmt ∈ pm := by assumption) (m_spent : Part.spent ∈ pm := by assumption) : FrameOut pm z0 (execPerst t s) := by
  unfold execPerst
  try dsimp only
  repeat (any_goals (first | intro _ | with_reducible assumption | with_reducible refine State_at_frame ?_ | with_reducible refine warmReset_frame ?_ | with_reducible apply FrameOut.next | exact FrameOut.fault | with_reducible apply Frame.ite | with_reducible apply Frame.iteFst | with_reducible apply FrameOut.ite | fail_if_no_progress (with_reducible refine Frame.set ?_) | split | dsimp only | refine Frame.ofFst ?_ (by assumption) | refine Frame.ofSnd2 ?_ (by assumption) | refine FrameOpt.kept ?_ _ (by assumption) | refine FrameOut.kept ?_ _ (by assumption)))

theorem execPerstRelease_frame {t : Stamp} {s : State} {pm : List Part} {z0 : State} (hk : Frame pm z0 s) (m_time : Part.time ∈ pm := by assumption) (m_fw : Part.fw ∈ pm := by assumption) (m_out : Part.out ∈ pm := by assumption) : FrameOut pm z0 (execPerstRelease t s) := by
  unfold execPerstRelease
  try dsimp only
  repeat (any_goals (first | intro _ | with_reducible assumption | with_reducible refine State_at_frame ?_ | with_reducible refine emit_frame ?_ | with_reducible apply FrameOut.next | exact FrameOut.fault | with_reducible apply Frame.ite | with_reducible apply Frame.iteFst | with_reducible apply FrameOut.ite | fail_if_no_progress (with_reducible refine Frame.set ?_) | split | dsimp only | refine Frame.ofFst ?_ (by assumption) | refine Frame.ofSnd2 ?_ (by assumption) | refine FrameOpt.kept ?_ _ (by assumption) | refine FrameOut.kept ?_ _ (by assumption)))

theorem flowLost_frame {s : State} {pm : List Part} {z0 : State} (hk : Frame pm z0 s) (m_time : Part.time ∈ pm := by assumption) (m_host : Part.host ∈ pm := by assumption) (m_work : Part.work ∈ pm := by assumption) (m_plan : Part.plan ∈ pm := by assumption) (m_haul : Part.haul ∈ pm := by assumption) (m_fw : Part.fw ∈ pm := by assumption) (m_fault : Part.fault ∈ pm := by assumption) (m_sec : Part.sec ∈ pm := by assumption) (m_pwr : Part.pwr ∈ pm := by assumption) (m_mgmt : Part.mgmt ∈ pm := by assumption) (m_out : Part.out ∈ pm := by assumption) (m_spent : Part.spent ∈ pm := by assumption) : Frame pm z0 (flowLost s) := by
  unfold flowLost
  try dsimp only
  repeat (any_goals (first | intro _ | with_reducible assumption | with_reducible refine logErr_frame ?_ | with_reducible refine enterKeep_frame ?_ | with_reducible apply Frame.ite | with_reducible apply Frame.iteFst | fail_if_no_progress (with_reducible refine Frame.set ?_) | split | dsimp only | refine Frame.ofFst ?_ (by assumption) | refine Frame.ofSnd2 ?_ (by assumption) | refine FrameOpt.kept ?_ _ (by assumption) | refine FrameOut.kept ?_ _ (by assumption)))

theorem execFlowRestore_frame {t : Stamp} {s : State} {pm : List Part} {z0 : State} (hk : Frame pm z0 s) (m_time : Part.time ∈ pm := by assumption) (m_pwr : Part.pwr ∈ pm := by assumption) : FrameOut pm z0 (execFlowRestore t s) := by
  unfold execFlowRestore
  try dsimp only
  repeat (any_goals (first | intro _ | with_reducible assumption | with_reducible refine run_frame ?_ ?_ | with_reducible apply FrameOut.next | exact FrameOut.fault | with_reducible apply Frame.ite | with_reducible apply Frame.iteFst | with_reducible apply FrameOut.ite | fail_if_no_progress (with_reducible refine Frame.set ?_) | split | dsimp only | refine Frame.ofFst ?_ (by assumption) | refine Frame.ofSnd2 ?_ (by assumption) | refine FrameOpt.kept ?_ _ (by assumption) | refine FrameOut.kept ?_ _ (by assumption)))

theorem bootStage_frame {kind : Nat} {imageOk : Bool} {otherOk : Bool} {go : State → State} {s : State} {pm : List Part} {z0 : State} (hgo : ∀ (z : State) (x0 : State), Frame pm z x0 → Frame pm z (go x0)) (hk : Frame pm z0 s) (m_time : Part.time ∈ pm := by assumption) (m_bar : Part.bar ∈ pm := by assumption) (m_host : Part.host ∈ pm := by assumption) (m_benches : Part.benches ∈ pm := by assumption) (m_work : Part.work ∈ pm := by assumption) (m_plan : Part.plan ∈ pm := by assumption) (m_haul : Part.haul ∈ pm := by assumption) (m_tier : Part.tier ∈ pm := by assumption) (m_shards : Part.shards ∈ pm := by assumption) (m_fab : Part.fab ∈ pm := by assumption) (m_win : Part.win ∈ pm := by assumption) (m_fw : Part.fw ∈ pm := by assumption) (m_fault : Part.fault ∈ pm := by assumption) (m_sec : Part.sec ∈ pm := by assumption) (m_pwr : Part.pwr ∈ pm := by assumption) (m_mgmt : Part.mgmt ∈ pm := by assumption) (m_out : Part.out ∈ pm := by assumption) (m_spent : Part.spent ∈ pm := by assumption) : Frame pm z0 (bootStage kind imageOk otherOk go s) := by
  unfold bootStage
  try dsimp only
  repeat (any_goals (first | intro _ | with_reducible assumption | with_reducible refine resetState_frame ?_ | with_reducible refine rollTrial_frame ?_ | with_reducible refine nowRuns_frame ?_ | with_reducible refine putDir_frame ?_ | with_reducible refine logErr_frame ?_ | with_reducible refine swapSlot_frame ?_ | with_reducible apply hgo | with_reducible apply Frame.ite | with_reducible apply Frame.iteFst | fail_if_no_progress (with_reducible refine Frame.set ?_) | split | dsimp only | refine Frame.ofFst ?_ (by assumption) | refine Frame.ofSnd2 ?_ (by assumption) | refine FrameOpt.kept ?_ _ (by assumption) | refine FrameOut.kept ?_ _ (by assumption)))

theorem toRow_frame {row : Nat} {st : Stage} {s : State} {pm : List Part} {z0 : State} (hk : Frame pm z0 s) (m_fw : Part.fw ∈ pm := by assumption) : Frame pm z0 (toRow row st s) := by
  unfold toRow
  try dsimp only
  repeat (any_goals (first | intro _ | with_reducible assumption | with_reducible apply Frame.ite | with_reducible apply Frame.iteFst | fail_if_no_progress (with_reducible refine Frame.set ?_) | split | dsimp only | refine Frame.ofFst ?_ (by assumption) | refine Frame.ofSnd2 ?_ (by assumption) | refine FrameOpt.kept ?_ _ (by assumption) | refine FrameOut.kept ?_ _ (by assumption)))

theorem pairingCheck_frame {s : State} {pm : List Part} {z0 : State} (hk : Frame pm z0 s) (m_time : Part.time ∈ pm := by assumption) (m_host : Part.host ∈ pm := by assumption) (m_work : Part.work ∈ pm := by assumption) (m_plan : Part.plan ∈ pm := by assumption) (m_haul : Part.haul ∈ pm := by assumption) (m_fw : Part.fw ∈ pm := by assumption) (m_fault : Part.fault ∈ pm := by assumption) (m_sec : Part.sec ∈ pm := by assumption) (m_pwr : Part.pwr ∈ pm := by assumption) (m_mgmt : Part.mgmt ∈ pm := by assumption) (m_out : Part.out ∈ pm := by assumption) (m_spent : Part.spent ∈ pm := by assumption) : Frame pm z0 (pairingCheck s) := by
  unfold pairingCheck
  try dsimp only
  repeat (any_goals (first | intro _ | with_reducible assumption | with_reducible refine enterKeep_frame ?_ | with_reducible refine logErr_frame ?_ | with_reducible refine emit_frame ?_ | with_reducible apply Frame.ite | with_reducible apply Frame.iteFst | fail_if_no_progress (with_reducible refine Frame.set ?_) | split | dsimp only | refine Frame.ofFst ?_ (by assumption) | refine Frame.ofSnd2 ?_ (by assumption) | refine FrameOpt.kept ?_ _ (by assumption) | refine FrameOut.kept ?_ _ (by assumption)))

theorem rowDone_frame {row : Nat} {imageOk : Bool} {otherOk : Bool} {s : State} {pm : List Part} {z0 : State} (hk : Frame pm z0 s) (m_time : Part.time ∈ pm := by assumption) (m_bar : Part.bar ∈ pm := by assumption) (m_host : Part.host ∈ pm := by assumption) (m_benches : Part.benches ∈ pm := by assumption) (m_work : Part.work ∈ pm := by assumption) (m_plan : Part.plan ∈ pm := by assumption) (m_haul : Part.haul ∈ pm := by assumption) (m_tier : Part.tier ∈ pm := by assumption) (m_shards : Part.shards ∈ pm := by assumption) (m_fab : Part.fab ∈ pm := by assumption) (m_win : Part.win ∈ pm := by assumption) (m_fw : Part.fw ∈ pm := by assumption) (m_fault : Part.fault ∈ pm := by assumption) (m_sec : Part.sec ∈ pm := by assumption) (m_pwr : Part.pwr ∈ pm := by assumption) (m_mgmt : Part.mgmt ∈ pm := by assumption) (m_out : Part.out ∈ pm := by assumption) (m_spent : Part.spent ∈ pm := by assumption) : Frame pm z0 (rowDone row imageOk otherOk s) := by
  unfold rowDone
  try dsimp only
  repeat (any_goals (first | intro _ | with_reducible assumption | with_reducible refine toRow_frame ?_ | with_reducible refine pairingCheck_frame ?_ | with_reducible refine bootStage_frame ?_ ?_ | with_reducible refine emit_frame ?_ | with_reducible refine startTraining_frame ?_ | with_reducible refine becomeSource_frame ?_ | with_reducible apply foldl_frame | with_reducible apply foldl_frame_fst | with_reducible apply Frame.ite | with_reducible apply Frame.iteFst | fail_if_no_progress (with_reducible refine Frame.set ?_) | split | dsimp only | refine Frame.ofFst ?_ (by assumption) | refine Frame.ofSnd2 ?_ (by assumption) | refine FrameOpt.kept ?_ _ (by assumption) | refine FrameOut.kept ?_ _ (by assumption)))

theorem execStartUpRowDone_frame {t : Stamp} {row : Nat} {imageOk : Bool} {otherOk : Bool} {s : State} {pm : List Part} {z0 : State} (hk : Frame pm z0 s) (m_time : Part.time ∈ pm := by assumption) (m_bar : Part.bar ∈ pm := by assumption) (m_host : Part.host ∈ pm := by assumption) (m_benches : Part.benches ∈ pm := by assumption) (m_work : Part.work ∈ pm := by assumption) (m_plan : Part.plan ∈ pm := by assumption) (m_haul : Part.haul ∈ pm := by assumption) (m_tier : Part.tier ∈ pm := by assumption) (m_shards : Part.shards ∈ pm := by assumption) (m_fab : Part.fab ∈ pm := by assumption) (m_win : Part.win ∈ pm := by assumption) (m_fw : Part.fw ∈ pm := by assumption) (m_fault : Part.fault ∈ pm := by assumption) (m_sec : Part.sec ∈ pm := by assumption) (m_pwr : Part.pwr ∈ pm := by assumption) (m_mgmt : Part.mgmt ∈ pm := by assumption) (m_out : Part.out ∈ pm := by assumption) (m_spent : Part.spent ∈ pm := by assumption) : FrameOut pm z0 (execStartUpRowDone t row imageOk otherOk s) := by
  unfold execStartUpRowDone
  try dsimp only
  repeat (any_goals (first | intro _ | with_reducible assumption | with_reducible refine run_frame ?_ ?_ | with_reducible refine rowDone_frame ?_ | with_reducible apply FrameOut.next | exact FrameOut.fault | with_reducible apply Frame.ite | with_reducible apply Frame.iteFst | with_reducible apply FrameOut.ite | fail_if_no_progress (with_reducible refine Frame.set ?_) | split | dsimp only | refine Frame.ofFst ?_ (by assumption) | refine Frame.ofSnd2 ?_ (by assumption) | refine FrameOpt.kept ?_ _ (by assumption) | refine FrameOut.kept ?_ _ (by assumption)))

theorem planStable_frame {s : State} {pm : List Part} {z0 : State} (hk : Frame pm z0 s) (m_fw : Part.fw ∈ pm := by assumption) (m_pwr : Part.pwr ∈ pm := by assumption) : Frame pm z0 (planStable s) := by
  unfold planStable
  try dsimp only
  repeat (any_goals (first | intro _ | with_reducible assumption | with_reducible refine toRow_frame ?_ | with_reducible apply Frame.ite | with_reducible apply Frame.iteFst | fail_if_no_progress (with_reducible refine Frame.set ?_) | split | dsimp only | refine Frame.ofFst ?_ (by assumption) | refine Frame.ofSnd2 ?_ (by assumption) | refine FrameOpt.kept ?_ _ (by assumption) | refine FrameOut.kept ?_ _ (by assumption)))

theorem execPlanStable_frame {t : Stamp} {s : State} {pm : List Part} {z0 : State} (hk : Frame pm z0 s) (m_time : Part.time ∈ pm := by assumption) (m_fw : Part.fw ∈ pm := by assumption) (m_pwr : Part.pwr ∈ pm := by assumption) : FrameOut pm z0 (execPlanStable t s) := by
  unfold execPlanStable
  try dsimp only
  repeat (any_goals (first | intro _ | with_reducible assumption | with_reducible refine run_frame ?_ ?_ | with_reducible refine planStable_frame ?_ | with_reducible apply FrameOut.next | exact FrameOut.fault | with_reducible apply Frame.ite | with_reducible apply Frame.iteFst | with_reducible apply FrameOut.ite | fail_if_no_progress (with_reducible refine Frame.set ?_) | split | dsimp only | refine Frame.ofFst ?_ (by assumption) | refine Frame.ofSnd2 ?_ (by assumption) | refine FrameOpt.kept ?_ _ (by assumption) | refine FrameOut.kept ?_ _ (by assumption)))

theorem bootWatchdog_frame {s : State} {pm : List Part} {z0 : State} (hk : Frame pm z0 s) (m_time : Part.time ∈ pm := by assumption) (m_bar : Part.bar ∈ pm := by assumption) (m_host : Part.host ∈ pm := by assumption) (m_benches : Part.benches ∈ pm := by assumption) (m_work : Part.work ∈ pm := by assumption) (m_plan : Part.plan ∈ pm := by assumption) (m_haul : Part.haul ∈ pm := by assumption) (m_tier : Part.tier ∈ pm := by assumption) (m_shards : Part.shards ∈ pm := by assumption) (m_fab : Part.fab ∈ pm := by assumption) (m_win : Part.win ∈ pm := by assumption) (m_fw : Part.fw ∈ pm := by assumption) (m_fault : Part.fault ∈ pm := by assumption) (m_sec : Part.sec ∈ pm := by assumption) (m_pwr : Part.pwr ∈ pm := by assumption) (m_mgmt : Part.mgmt ∈ pm := by assumption) (m_spent : Part.spent ∈ pm := by assumption) : Frame pm z0 (bootWatchdog s) := by
  unfold bootWatchdog
  try dsimp only
  repeat (any_goals (first | intro _ | with_reducible assumption | with_reducible refine coldReset_frame ?_ | with_reducible apply Frame.ite | with_reducible apply Frame.iteFst | fail_if_no_progress (with_reducible refine Frame.set ?_) | split | dsimp only | refine Frame.ofFst ?_ (by assumption) | refine Frame.ofSnd2 ?_ (by assumption) | refine FrameOpt.kept ?_ _ (by assumption) | refine FrameOut.kept ?_ _ (by assumption)))

theorem execBootWatchdog_frame {t : Stamp} {s : State} {pm : List Part} {z0 : State} (hk : Frame pm z0 s) (m_time : Part.time ∈ pm := by assumption) (m_bar : Part.bar ∈ pm := by assumption) (m_host : Part.host ∈ pm := by assumption) (m_benches : Part.benches ∈ pm := by assumption) (m_work : Part.work ∈ pm := by assumption) (m_plan : Part.plan ∈ pm := by assumption) (m_haul : Part.haul ∈ pm := by assumption) (m_tier : Part.tier ∈ pm := by assumption) (m_shards : Part.shards ∈ pm := by assumption) (m_fab : Part.fab ∈ pm := by assumption) (m_win : Part.win ∈ pm := by assumption) (m_fw : Part.fw ∈ pm := by assumption) (m_fault : Part.fault ∈ pm := by assumption) (m_sec : Part.sec ∈ pm := by assumption) (m_pwr : Part.pwr ∈ pm := by assumption) (m_mgmt : Part.mgmt ∈ pm := by assumption) (m_spent : Part.spent ∈ pm := by assumption) : FrameOut pm z0 (execBootWatchdog t s) := by
  unfold execBootWatchdog
  try dsimp only
  repeat (any_goals (first | intro _ | with_reducible assumption | with_reducible refine run_frame ?_ ?_ | with_reducible refine bootWatchdog_frame ?_ | with_reducible apply FrameOut.next | exact FrameOut.fault | with_reducible apply Frame.ite | with_reducible apply Frame.iteFst | with_reducible apply FrameOut.ite | fail_if_no_progress (with_reducible refine Frame.set ?_) | split | dsimp only | refine Frame.ofFst ?_ (by assumption) | refine Frame.ofSnd2 ?_ (by assumption) | refine FrameOpt.kept ?_ _ (by assumption) | refine FrameOut.kept ?_ _ (by assumption)))

theorem beginRestart_frame {cause : Nat} {k : Nat} {s : State} {pm : List Part} {z0 : State} (hk : Frame pm z0 s) (m_time : Part.time ∈ pm := by assumption) (m_host : Part.host ∈ pm := by assumption) (m_work : Part.work ∈ pm := by assumption) (m_plan : Part.plan ∈ pm := by assumption) (m_haul : Part.haul ∈ pm := by assumption) (m_fw : Part.fw ∈ pm := by assumption) (m_fault : Part.fault ∈ pm := by assumption) (m_sec : Part.sec ∈ pm := by assumption) (m_pwr : Part.pwr ∈ pm := by assumption) (m_mgmt : Part.mgmt ∈ pm := by assumption) (m_out : Part.out ∈ pm := by assumption) (m_spent : Part.spent ∈ pm := by assumption) : Frame pm z0 (beginRestart cause k s) := by
  unfold beginRestart
  try dsimp only
  repeat (any_goals (first | intro _ | with_reducible assumption | with_reducible refine logErr_frame ?_ | with_reducible refine enterKeep_frame ?_ | with_reducible refine pairingCheck_frame ?_ | with_reducible apply Frame.ite | with_reducible apply Frame.iteFst | fail_if_no_progress (with_reducible refine Frame.set ?_) | split | dsimp only | refine Frame.ofFst ?_ (by assumption) | refine Frame.ofSnd2 ?_ (by assumption) | refine FrameOpt.kept ?_ _ (by assumption) | refine FrameOut.kept ?_ _ (by assumption)))

theorem controlRestart_frame {cause : Nat} {logs : Bool} {s : State} {pm : List Part} {z0 : State} (hk : Frame pm z0 s) (m_time : Part.time ∈ pm := by assumption) (m_host : Part.host ∈ pm := by assumption) (m_work : Part.work ∈ pm := by assumption) (m_plan : Part.plan ∈ pm := by assumption) (m_haul : Part.haul ∈ pm := by assumption) (m_fw : Part.fw ∈ pm := by assumption) (m_fault : Part.fault ∈ pm := by assumption) (m_sec : Part.sec ∈ pm := by assumption) (m_pwr : Part.pwr ∈ pm := by assumption) (m_mgmt : Part.mgmt ∈ pm := by assumption) (m_out : Part.out ∈ pm := by assumption) (m_spent : Part.spent ∈ pm := by assumption) : Frame pm z0 (controlRestart cause logs s) := by
  unfold controlRestart
  try dsimp only
  repeat (any_goals (first | intro _ | with_reducible assumption | with_reducible refine logErr_frame ?_ | with_reducible refine beginRestart_frame ?_ | with_reducible refine rollTrial_frame ?_ | with_reducible apply Frame.ite | with_reducible apply Frame.iteFst | fail_if_no_progress (with_reducible refine Frame.set ?_) | split | dsimp only | refine Frame.ofFst ?_ (by assumption) | refine Frame.ofSnd2 ?_ (by assumption) | refine FrameOpt.kept ?_ _ (by assumption) | refine FrameOut.kept ?_ _ (by assumption)))

theorem execCoreWatchdog_frame {t : Stamp} {core : Nat} {s : State} {pm : List Part} {z0 : State} (hk : Frame pm z0 s) (m_time : Part.time ∈ pm := by assumption) (m_host : Part.host ∈ pm := by assumption) (m_work : Part.work ∈ pm := by assumption) (m_plan : Part.plan ∈ pm := by assumption) (m_haul : Part.haul ∈ pm := by assumption) (m_fw : Part.fw ∈ pm := by assumption) (m_fault : Part.fault ∈ pm := by assumption) (m_sec : Part.sec ∈ pm := by assumption) (m_pwr : Part.pwr ∈ pm := by assumption) (m_mgmt : Part.mgmt ∈ pm := by assumption) (m_out : Part.out ∈ pm := by assumption) (m_spent : Part.spent ∈ pm := by assumption) : FrameOut pm z0 (execCoreWatchdog t core s) := by
  unfold execCoreWatchdog
  try dsimp only
  repeat (any_goals (first | intro _ | with_reducible assumption | with_reducible refine run_frame ?_ ?_ | with_reducible refine controlRestart_frame ?_ | with_reducible apply FrameOut.next | exact FrameOut.fault | with_reducible apply Frame.ite | with_reducible apply Frame.iteFst | with_reducible apply FrameOut.ite | fail_if_no_progress (with_reducible refine Frame.set ?_) | split | dsimp only | refine Frame.ofFst ?_ (by assumption) | refine Frame.ofSnd2 ?_ (by assumption) | refine FrameOpt.kept ?_ _ (by assumption) | refine FrameOut.kept ?_ _ (by assumption)))

theorem execCoreException_frame {t : Stamp} {core : Nat} {s : State} {pm : List Part} {z0 : State} (hk : Frame pm z0 s) (m_time : Part.time ∈ pm := by assumption) (m_host : Part.host ∈ pm := by assumption) (m_work : Part.work ∈ pm := by assumption) (m_plan : Part.plan ∈ pm := by assumption) (m_haul : Part.haul ∈ pm := by assumption) (m_fw : Part.fw ∈ pm := by assumption) (m_fault : Part.fault ∈ pm := by assumption) (m_sec : Part.sec ∈ pm := by assumption) (m_pwr : Part.pwr ∈ pm := by assumption) (m_mgmt : Part.mgmt ∈ pm := by assumption) (m_out : Part.out ∈ pm := by assumption) (m_spent : Part.spent ∈ pm := by assumption) : FrameOut pm z0 (execCoreException t core s) := by
  unfold execCoreException
  try dsimp only
  repeat (any_goals (first | intro _ | with_reducible assumption | with_reducible refine run_frame ?_ ?_ | with_reducible refine controlRestart_frame ?_ | with_reducible apply FrameOut.next | exact FrameOut.fault | with_reducible apply Frame.ite | with_reducible apply Frame.iteFst | with_reducible apply FrameOut.ite | fail_if_no_progress (with_reducible refine Frame.set ?_) | split | dsimp only | refine Frame.ofFst ?_ (by assumption) | refine Frame.ofSnd2 ?_ (by assumption) | refine FrameOpt.kept ?_ _ (by assumption) | refine FrameOut.kept ?_ _ (by assumption)))

theorem planWatchdog_frame {s : State} {pm : List Part} {z0 : State} (hk : Frame pm z0 s) (m_time : Part.time ∈ pm := by assumption) (m_bar : Part.bar ∈ pm := by assumption) (m_host : Part.host ∈ pm := by assumption) (m_work : Part.work ∈ pm := by assumption) (m_plan : Part.plan ∈ pm := by assumption) (m_haul : Part.haul ∈ pm := by assumption) (m_fw : Part.fw ∈ pm := by assumption) (m_fault : Part.fault ∈ pm := by assumption) (m_sec : Part.sec ∈ pm := by assumption) (m_pwr : Part.pwr ∈ pm := by assumption) (m_mgmt : Part.mgmt ∈ pm := by assumption) (m_out : Part.out ∈ pm := by assumption) (m_spent : Part.spent ∈ pm := by assumption) : Frame pm z0 (planWatchdog s) := by
  unfold planWatchdog
  try dsimp only
  repeat (any_goals (first | intro _ | with_reducible assumption | with_reducible refine logErr_frame ?_ | with_reducible refine count_frame ?_ | with_reducible refine controlRestart_frame ?_ | with_reducible apply Frame.ite | with_reducible apply Frame.iteFst | fail_if_no_progress (with_reducible refine Frame.set ?_) | split | dsimp only | refine Frame.ofFst ?_ (by assumption) | refine Frame.ofSnd2 ?_ (by assumption) | refine FrameOpt.kept ?_ _ (by assumption) | refine FrameOut.kept ?_ _ (by assumption)))

theorem execPlanWatchdog_frame {t : Stamp} {s : State} {pm : List Part} {z0 : State} (hk : Frame pm z0 s) (m_time : Part.time ∈ pm := by assumption) (m_bar : Part.bar ∈ pm := by assumption) (m_host : Part.host ∈ pm := by assumption) (m_work : Part.work ∈ pm := by assumption) (m_plan : Part.plan ∈ pm := by assumption) (m_haul : Part.haul ∈ pm := by assumption) (m_fw : Part.fw ∈ pm := by assumption) (m_fault : Part.fault ∈ pm := by assumption) (m_sec : Part.sec ∈ pm := by assumption) (m_pwr : Part.pwr ∈ pm := by assumption) (m_mgmt : Part.mgmt ∈ pm := by assumption) (m_out : Part.out ∈ pm := by assumption) (m_spent : Part.spent ∈ pm := by assumption) : FrameOut pm z0 (execPlanWatchdog t s) := by
  unfold execPlanWatchdog
  try dsimp only
  repeat (any_goals (first | intro _ | with_reducible assumption | with_reducible refine run_frame ?_ ?_ | with_reducible refine planWatchdog_frame ?_ | with_reducible apply FrameOut.next | exact FrameOut.fault | with_reducible apply Frame.ite | with_reducible apply Frame.iteFst | with_reducible apply FrameOut.ite | fail_if_no_progress (with_reducible refine Frame.set ?_) | split | dsimp only | refine Frame.ofFst ?_ (by assumption) | refine Frame.ofSnd2 ?_ (by assumption) | refine FrameOpt.kept ?_ _ (by assumption) | refine FrameOut.kept ?_ _ (by assumption)))

theorem restartWatchdog_frame {otherSlotOk : Bool} {s : State} {pm : List Part} {z0 : State} (hk : Frame pm z0 s) (m_time : Part.time ∈ pm := by assumption) (m_host : Part.host ∈ pm := by assumption) (m_work : Part.work ∈ pm := by assumption) (m_plan : Part.plan ∈ pm := by assumption) (m_haul : Part.haul ∈ pm := by assumption) (m_fw : Part.fw ∈ pm := by assumption) (m_fault : Part.fault ∈ pm := by assumption) (m_sec : Part.sec ∈ pm := by assumption) (m_pwr : Part.pwr ∈ pm := by assumption) (m_mgmt : Part.mgmt ∈ pm := by assumption) (m_out : Part.out ∈ pm := by assumption) (m_spent : Part.spent ∈ pm := by assumption) : Frame pm z0 (restartWatchdog otherSlotOk s) := by
  unfold restartWatchdog
  try dsimp only
  repeat (any_goals (first | intro _ | with_reducible assumption | with_reducible refine logErr_frame ?_ | with_reducible refine enterKeep_frame ?_ | with_reducible refine beginRestart_frame ?_ | with_reducible refine swapSlot_frame ?_ | with_reducible apply Frame.ite | with_reducible apply Frame.iteFst | fail_if_no_progress (with_reducible refine Frame.set ?_) | split | dsimp only | refine Frame.ofFst ?_ (by assumption) | refine Frame.ofSnd2 ?_ (by assumption) | refine FrameOpt.kept ?_ _ (by assumption) | refine FrameOut.kept ?_ _ (by assumption)))

theorem execRestartWatchdog_frame {t : Stamp} {otherSlotOk : Bool} {s : State} {pm : List Part} {z0 : State} (hk : Frame pm z0 s) (m_time : Part.time ∈ pm := by assumption) (m_host : Part.host ∈ pm := by assumption) (m_work : Part.work ∈ pm := by assumption) (m_plan : Part.plan ∈ pm := by assumption) (m_haul : Part.haul ∈ pm := by assumption) (m_fw : Part.fw ∈ pm := by assumption) (m_fault : Part.fault ∈ pm := by assumption) (m_sec : Part.sec ∈ pm := by assumption) (m_pwr : Part.pwr ∈ pm := by assumption) (m_mgmt : Part.mgmt ∈ pm := by assumption) (m_out : Part.out ∈ pm := by assumption) (m_spent : Part.spent ∈ pm := by assumption) : FrameOut pm z0 (execRestartWatchdog t otherSlotOk s) := by
  unfold execRestartWatchdog
  try dsimp only
  repeat (any_goals (first | intro _ | with_reducible assumption | with_reducible refine run_frame ?_ ?_ | with_reducible refine restartWatchdog_frame ?_ | with_reducible apply FrameOut.next | exact FrameOut.fault | with_reducible apply Frame.ite | with_reducible apply Frame.iteFst | with_reducible apply FrameOut.ite | fail_if_no_progress (with_reducible refine Frame.set ?_) | split | dsimp only | refine Frame.ofFst ?_ (by assumption) | refine Frame.ofSnd2 ?_ (by assumption) | refine FrameOpt.kept ?_ _ (by assumption) | refine FrameOut.kept ?_ _ (by assumption)))

theorem firmwareReady_frame {s : State} {pm : List Part} {z0 : State} (hk : Frame pm z0 s) (m_fw : Part.fw ∈ pm := by assumption) (m_out : Part.out ∈ pm := by assumption) : Frame pm z0 (firmwareReady s) := by
  unfold firmwareReady
  try dsimp only
  repeat (any_goals (first | intro _ | with_reducible assumption | with_reducible refine errVector_frame ?_ | with_reducible apply Frame.ite | with_reducible apply Frame.iteFst | fail_if_no_progress (with_reducible refine Frame.set ?_) | split | dsimp only | refine Frame.ofFst ?_ (by assumption) | refine Frame.ofSnd2 ?_ (by assumption) | refine FrameOpt.kept ?_ _ (by assumption) | refine FrameOut.kept ?_ _ (by assumption)))

theorem execFirmwareReady_frame {t : Stamp} {s : State} {pm : List Part} {z0 : State} (hk : Frame pm z0 s) (m_time : Part.time ∈ pm := by assumption) (m_fw : Part.fw ∈ pm := by assumption) (m_out : Part.out ∈ pm := by assumption) : FrameOut pm z0 (execFirmwareReady t s) := by
  unfold execFirmwareReady
  try dsimp only
  repeat (any_goals (first | intro _ | with_reducible assumption | with_reducible refine run_frame ?_ ?_ | with_reducible refine firmwareReady_frame ?_ | with_reducible apply FrameOut.next | exact FrameOut.fault | with_reducible apply Frame.ite | with_reducible apply Frame.iteFst | with_reducible apply FrameOut.ite | fail_if_no_progress (with_reducible refine Frame.set ?_) | split | dsimp only | refine Frame.ofFst ?_ (by assumption) | refine Frame.ofSnd2 ?_ (by assumption) | refine FrameOpt.kept ?_ _ (by assumption) | refine FrameOut.kept ?_ _ (by assumption)))

theorem trialCommit_frame {s : State} {pm : List Part} {z0 : State} (hk : Frame pm z0 s) (m_fw : Part.fw ∈ pm := by assumption) (m_sec : Part.sec ∈ pm := by assumption) : Frame pm z0 (trialCommit s) := by
  unfold trialCommit
  try dsimp only
  repeat (any_goals (first | intro _ | with_reducible assumption | with_reducible refine putDir_frame ?_ | with_reducible apply Frame.ite | with_reducible apply Frame.iteFst | fail_if_no_progress (with_reducible refine Frame.set ?_) | split | dsimp only | refine Frame.ofFst ?_ (by assumption) | refine Frame.ofSnd2 ?_ (by assumption) | refine FrameOpt.kept ?_ _ (by assumption) | refine FrameOut.kept ?_ _ (by assumption)))

theorem execTrialCommit_frame {t : Stamp} {s : State} {pm : List Part} {z0 : State} (hk : Frame pm z0 s) (m_time : Part.time ∈ pm := by assumption) (m_fw : Part.fw ∈ pm := by assumption) (m_sec : Part.sec ∈ pm := by assumption) : FrameOut pm z0 (execTrialCommit t s) := by
  unfold execTrialCommit
  try dsimp only
  repeat (any_goals (first | intro _ | with_reducible assumption | with_reducible refine run_frame ?_ ?_ | with_reducible refine trialCommit_frame ?_ | with_reducible apply FrameOut.next | exact FrameOut.fault | with_reducible apply Frame.ite | with_reducible apply Frame.iteFst | with_reducible apply FrameOut.ite | fail_if_no_progress (with_reducible refine Frame.set ?_) | split | dsimp only | refine Frame.ofFst ?_ (by assumption) | refine Frame.ofSnd2 ?_ (by assumption) | refine FrameOpt.kept ?_ _ (by assumption) | refine FrameOut.kept ?_ _ (by assumption)))

theorem hitlessActivation_frame {s : State} {pm : List Part} {z0 : State} (hk : Frame pm z0 s) (m_time : Part.time ∈ pm := by assumption) (m_host : Part.host ∈ pm := by assumption) (m_work : Part.work ∈ pm := by assumption) (m_plan : Part.plan ∈ pm := by assumption) (m_haul : Part.haul ∈ pm := by assumption) (m_fw : Part.fw ∈ pm := by assumption) (m_fault : Part.fault ∈ pm := by assumption) (m_sec : Part.sec ∈ pm := by assumption) (m_pwr : Part.pwr ∈ pm := by assumption) (m_mgmt : Part.mgmt ∈ pm := by assumption) (m_out : Part.out ∈ pm := by assumption) (m_spent : Part.spent ∈ pm := by assumption) : Frame pm z0 (hitlessActivation s) := by
  unfold hitlessActivation
  try dsimp only
  repeat (any_goals (first | intro _ | with_reducible assumption | with_reducible refine putDir_frame ?_ | with_reducible refine beginRestart_frame ?_ | with_reducible apply Frame.ite | with_reducible apply Frame.iteFst | fail_if_no_progress (with_reducible refine Frame.set ?_) | split | dsimp only | refine Frame.ofFst ?_ (by assumption) | refine Frame.ofSnd2 ?_ (by assumption) | refine FrameOpt.kept ?_ _ (by assumption) | refine FrameOut.kept ?_ _ (by assumption)))

theorem execHitlessActivation_frame {t : Stamp} {s : State} {pm : List Part} {z0 : State} (hk : Frame pm z0 s) (m_time : Part.time ∈ pm := by assumption) (m_host : Part.host ∈ pm := by assumption) (m_work : Part.work ∈ pm := by assumption) (m_plan : Part.plan ∈ pm := by assumption) (m_haul : Part.haul ∈ pm := by assumption) (m_fw : Part.fw ∈ pm := by assumption) (m_fault : Part.fault ∈ pm := by assumption) (m_sec : Part.sec ∈ pm := by assumption) (m_pwr : Part.pwr ∈ pm := by assumption) (m_mgmt : Part.mgmt ∈ pm := by assumption) (m_out : Part.out ∈ pm := by assumption) (m_spent : Part.spent ∈ pm := by assumption) : FrameOut pm z0 (execHitlessActivation t s) := by
  unfold execHitlessActivation
  try dsimp only
  repeat (any_goals (first | intro _ | with_reducible assumption | with_reducible refine run_frame ?_ ?_ | with_reducible refine hitlessActivation_frame ?_ | with_reducible apply FrameOut.next | exact FrameOut.fault | with_reducible apply Frame.ite | with_reducible apply Frame.iteFst | with_reducible apply FrameOut.ite | fail_if_no_progress (with_reducible refine Frame.set ?_) | split | dsimp only | refine Frame.ofFst ?_ (by assumption) | refine Frame.ofSnd2 ?_ (by assumption) | refine FrameOpt.kept ?_ _ (by assumption) | refine FrameOut.kept ?_ _ (by assumption)))

theorem markAffected_frame {s : State} {k : Nat} {pm : List Part} {z0 : State} (hk : Frame pm z0 s) (m_bar : Part.bar ∈ pm := by assumption) (m_pwr : Part.pwr ∈ pm := by assumption) : Frame pm z0 (markAffected s k) := by
  unfold markAffected
  try dsimp only
  repeat (any_goals (first | intro _ | with_reducible assumption | with_reducible refine count_frame ?_ | with_reducible apply Frame.ite | with_reducible apply Frame.iteFst | fail_if_no_progress (with_reducible refine Frame.set ?_) | split | dsimp only | refine Frame.ofFst ?_ (by assumption) | refine Frame.ofSnd2 ?_ (by assumption) | refine FrameOpt.kept ?_ _ (by assumption) | refine FrameOut.kept ?_ _ (by assumption)))

theorem raiseOverride_frame {s : State} {k : Nat} {c : OvCause} {entered : Bool} {pm : List Part} {z0 : State} (hk : Frame pm z0 s) (m_bar : Part.bar ∈ pm := by assumption) (m_fault : Part.fault ∈ pm := by assumption) (m_pwr : Part.pwr ∈ pm := by assumption) (m_out : Part.out ∈ pm := by assumption) : Frame pm z0 (raiseOverride s k c entered) := by
  unfold raiseOverride
  try dsimp only
  repeat (any_goals (first | intro _ | with_reducible assumption | with_reducible refine markAffected_frame ?_ | with_reducible refine logErr_frame ?_ | with_reducible apply Frame.ite | with_reducible apply Frame.iteFst | fail_if_no_progress (with_reducible refine Frame.set ?_) | split | dsimp only | refine Frame.ofFst ?_ (by assumption) | refine Frame.ofSnd2 ?_ (by assumption) | refine FrameOpt.kept ?_ _ (by assumption) | refine FrameOut.kept ?_ _ (by assumption)))

theorem loopActs_frame {k : Nat} {c : OvCause} {mhz : Nat} {s : State} {pm : List Part} {z0 : State} (hk : Frame pm z0 s) (m_bar : Part.bar ∈ pm := by assumption) (m_fault : Part.fault ∈ pm := by assumption) (m_pwr : Part.pwr ∈ pm := by assumption) (m_out : Part.out ∈ pm := by assumption) : Frame pm z0 (loopActs k c mhz s) := by
  unfold loopActs
  try dsimp only
  repeat (any_goals (first | intro _ | with_reducible assumption | with_reducible refine raiseOverride_frame ?_ | with_reducible apply Frame.ite | with_reducible apply Frame.iteFst | fail_if_no_progress (with_reducible refine Frame.set ?_) | split | dsimp only | refine Frame.ofFst ?_ (by assumption) | refine Frame.ofSnd2 ?_ (by assumption) | refine FrameOpt.kept ?_ _ (by assumption) | refine FrameOut.kept ?_ _ (by assumption)))

theorem execTjThrottle_frame {t : Stamp} {tile : Nat} {deciC : Nat} {s : State} {pm : List Part} {z0 : State} (hk : Frame pm z0 s) (m_time : Part.time ∈ pm := by assumption) (m_bar : Part.bar ∈ pm := by assumption) (m_fault : Part.fault ∈ pm := by assumption) (m_pwr : Part.pwr ∈ pm := by assumption) (m_out : Part.out ∈ pm := by assumption) : FrameOut pm z0 (execTjThrottle t tile deciC s) := by
  unfold execTjThrottle
  try dsimp only
  repeat (any_goals (first | intro _ | with_reducible assumption | with_reducible refine run_frame ?_ ?_ | with_reducible refine loopActs_frame ?_ | with_reducible apply FrameOut.next | exact FrameOut.fault | with_reducible apply Frame.ite | with_reducible apply Frame.iteFst | with_reducible apply FrameOut.ite | fail_if_no_progress (with_reducible refine Frame.set ?_) | split | dsimp only | refine Frame.ofFst ?_ (by assumption) | refine Frame.ofSnd2 ?_ (by assumption) | refine FrameOpt.kept ?_ _ (by assumption) | refine FrameOut.kept ?_ _ (by assumption)))

theorem execCurrentLimit_frame {t : Stamp} {tile : Nat} {s : State} {pm : List Part} {z0 : State} (hk : Frame pm z0 s) (m_time : Part.time ∈ pm := by assumption) (m_bar : Part.bar ∈ pm := by assumption) (m_fault : Part.fault ∈ pm := by assumption) (m_pwr : Part.pwr ∈ pm := by assumption) (m_out : Part.out ∈ pm := by assumption) : FrameOut pm z0 (execCurrentLimit t tile s) := by
  unfold execCurrentLimit
  try dsimp only
  repeat (any_goals (first | intro _ | with_reducible assumption | with_reducible refine run_frame ?_ ?_ | with_reducible refine loopActs_frame ?_ | with_reducible apply FrameOut.next | exact FrameOut.fault | with_reducible apply Frame.ite | with_reducible apply Frame.iteFst | with_reducible apply FrameOut.ite | fail_if_no_progress (with_reducible refine Frame.set ?_) | split | dsimp only | refine Frame.ofFst ?_ (by assumption) | refine Frame.ofSnd2 ?_ (by assumption) | refine FrameOpt.kept ?_ _ (by assumption) | refine FrameOut.kept ?_ _ (by assumption)))

theorem execDroop_frame {t : Stamp} {tile : Nat} {s : State} {pm : List Part} {z0 : State} (hk : Frame pm z0 s) (m_time : Part.time ∈ pm := by assumption) (m_bar : Part.bar ∈ pm := by assumption) (m_fault : Part.fault ∈ pm := by assumption) (m_pwr : Part.pwr ∈ pm := by assumption) (m_out : Part.out ∈ pm := by assumption) : FrameOut pm z0 (execDroop t tile s) := by
  unfold execDroop
  try dsimp only
  repeat (any_goals (first | intro _ | with_reducible assumption | with_reducible refine run_frame ?_ ?_ | with_reducible refine loopActs_frame ?_ | with_reducible apply FrameOut.next | exact FrameOut.fault | with_reducible apply Frame.ite | with_reducible apply Frame.iteFst | with_reducible apply FrameOut.ite | fail_if_no_progress (with_reducible refine Frame.set ?_) | split | dsimp only | refine Frame.ofFst ?_ (by assumption) | refine Frame.ofSnd2 ?_ (by assumption) | refine FrameOpt.kept ?_ _ (by assumption) | refine FrameOut.kept ?_ _ (by assumption)))

theorem execOverrideEnd_frame {t : Stamp} {tile : Nat} {cause : OvCause} {s : State} {pm : List Part} {z0 : State} (hk : Frame pm z0 s) (m_time : Part.time ∈ pm := by assumption) (m_pwr : Part.pwr ∈ pm := by assumption) : FrameOut pm z0 (execOverrideEnd t tile cause s) := by
  unfold execOverrideEnd
  try dsimp only
  repeat (any_goals (first | intro _ | with_reducible assumption | with_reducible refine run_frame ?_ ?_ | with_reducible apply FrameOut.next | exact FrameOut.fault | with_reducible apply Frame.ite | with_reducible apply Frame.iteFst | with_reducible apply FrameOut.ite | fail_if_no_progress (with_reducible refine Frame.set ?_) | split | dsimp only | refine Frame.ofFst ?_ (by assumption) | refine Frame.ofSnd2 ?_ (by assumption) | refine FrameOpt.kept ?_ _ (by assumption) | refine FrameOut.kept ?_ _ (by assumption)))

theorem startAffected_frame {s : State} {pm : List Part} {z0 : State} (hk : Frame pm z0 s) (m_bar : Part.bar ∈ pm := by assumption) (m_fault : Part.fault ∈ pm := by assumption) (m_pwr : Part.pwr ∈ pm := by assumption) (m_out : Part.out ∈ pm := by assumption) : Frame pm z0 (startAffected s) := by
  unfold startAffected
  try dsimp only
  repeat (any_goals (first | intro _ | with_reducible assumption | with_reducible refine raiseOverride_frame ?_ | with_reducible apply foldl_frame | with_reducible apply foldl_frame_fst | with_reducible apply Frame.ite | with_reducible apply Frame.iteFst | fail_if_no_progress (with_reducible refine Frame.set ?_) | split | dsimp only | refine Frame.ofFst ?_ (by assumption) | refine Frame.ofSnd2 ?_ (by assumption) | refine FrameOpt.kept ?_ _ (by assumption) | refine FrameOut.kept ?_ _ (by assumption)))

theorem execThermalShutdown_frame {t : Stamp} {tile : Nat} {s : State} {pm : List Part} {z0 : State} (hk : Frame pm z0 s) (m_time : Part.time ∈ pm := by assumption) (m_fault : Part.fault ∈ pm := by assumption) (m_pwr : Part.pwr ∈ pm := by assumption) (m_out : Part.out ∈ pm := by assumption) : FrameOut pm z0 (execThermalShutdown t tile s) := by
  unfold execThermalShutdown
  try dsimp only
  repeat (any_goals (first | intro _ | with_reducible assumption | with_reducible refine run_frame ?_ ?_ | with_reducible refine logErr_frame ?_ | with_reducible apply FrameOut.next | exact FrameOut.fault | with_reducible apply Frame.ite | with_reducible apply Frame.iteFst | with_reducible apply FrameOut.ite | fail_if_no_progress (with_reducible refine Frame.set ?_) | split | dsimp only | refine Frame.ofFst ?_ (by assumption) | refine Frame.ofSnd2 ?_ (by assumption) | refine FrameOpt.kept ?_ _ (by assumption) | refine FrameOut.kept ?_ _ (by assumption)))

theorem execRestRequest_frame {t : Stamp} {fn : Fn} {s : State} {pm : List Part} {z0 : State} (hk : Frame pm z0 s) (m_time : Part.time ∈ pm := by assumption) (m_bar : Part.bar ∈ pm := by assumption) (m_fault : Part.fault ∈ pm := by assumption) (m_pwr : Part.pwr ∈ pm := by assumption) (m_out : Part.out ∈ pm := by assumption) : FrameOut pm z0 (execRestRequest t fn s) := by
  unfold execRestRequest
  try dsimp only
  repeat (any_goals (first | intro _ | with_reducible assumption | with_reducible refine pfWrite_frame ?_ ?_ | with_reducible apply FrameOut.next | exact FrameOut.fault | with_reducible apply Frame.ite | with_reducible apply Frame.iteFst | with_reducible apply FrameOut.ite | fail_if_no_progress (with_reducible refine Frame.set ?_) | split | dsimp only | refine Frame.ofFst ?_ (by assumption) | refine Frame.ofSnd2 ?_ (by assumption) | refine FrameOpt.kept ?_ _ (by assumption) | refine FrameOut.kept ?_ _ (by assumption)))

theorem decideRest_frame {s : State} {n : Nat} {pm : List Part} {z0 : State} (hk : Frame pm z0 s) (m_pwr : Part.pwr ∈ pm := by assumption) (m_mgmt : Part.mgmt ∈ pm := by assumption) (m_out : Part.out ∈ pm := by assumption) : Frame pm z0 (decideRest s n) := by
  unfold decideRest
  try dsimp only
  repeat (any_goals (first | intro _ | with_reducible assumption | with_reducible refine respond_frame ?_ | with_reducible apply foldl_frame | with_reducible apply foldl_frame_fst | with_reducible apply Frame.ite | with_reducible apply Frame.iteFst | fail_if_no_progress (with_reducible refine Frame.set ?_) | split | dsimp only | refine Frame.ofFst ?_ (by assumption) | refine Frame.ofSnd2 ?_ (by assumption) | refine FrameOpt.kept ?_ _ (by assumption) | refine FrameOut.kept ?_ _ (by assumption)))

theorem execRestEntry_frame {t : Stamp} {s : State} {pm : List Part} {z0 : State} (hk : Frame pm z0 s) (m_time : Part.time ∈ pm := by assumption) (m_pwr : Part.pwr ∈ pm := by assumption) : FrameOut pm z0 (execRestEntry t s) := by
  unfold execRestEntry
  try dsimp only
  repeat (any_goals (first | intro _ | with_reducible assumption | with_reducible refine run_frame ?_ ?_ | with_reducible apply FrameOut.next | exact FrameOut.fault | with_reducible apply Frame.ite | with_reducible apply Frame.iteFst | with_reducible apply FrameOut.ite | fail_if_no_progress (with_reducible refine Frame.set ?_) | split | dsimp only | refine Frame.ofFst ?_ (by assumption) | refine Frame.ofSnd2 ?_ (by assumption) | refine FrameOpt.kept ?_ _ (by assumption) | refine FrameOut.kept ?_ _ (by assumption)))

theorem wake_frame {cause : Nat} {event : Stamp} {s : State} {pm : List Part} {z0 : State} (hk : Frame pm z0 s) (m_pwr : Part.pwr ∈ pm := by assumption) : Frame pm z0 (wake cause event s) := by
  unfold wake
  try dsimp only
  repeat (any_goals (first | intro _ | with_reducible assumption | with_reducible apply Frame.ite | with_reducible apply Frame.iteFst | fail_if_no_progress (with_reducible refine Frame.set ?_) | split | dsimp only | refine Frame.ofFst ?_ (by assumption) | refine Frame.ofSnd2 ?_ (by assumption) | refine FrameOpt.kept ?_ _ (by assumption) | refine FrameOut.kept ?_ _ (by assumption)))

theorem restEntered_frame {s : State} {pm : List Part} {z0 : State} (hk : Frame pm z0 s) (m_time : Part.time ∈ pm := by assumption) (m_host : Part.host ∈ pm := by assumption) (m_work : Part.work ∈ pm := by assumption) (m_plan : Part.plan ∈ pm := by assumption) (m_haul : Part.haul ∈ pm := by assumption) (m_fw : Part.fw ∈ pm := by assumption) (m_fault : Part.fault ∈ pm := by assumption) (m_sec : Part.sec ∈ pm := by assumption) (m_pwr : Part.pwr ∈ pm := by assumption) (m_mgmt : Part.mgmt ∈ pm := by assumption) (m_out : Part.out ∈ pm := by assumption) (m_spent : Part.spent ∈ pm := by assumption) : Frame pm z0 (restEntered s) := by
  unfold restEntered
  try dsimp only
  repeat (any_goals (first | intro _ | with_reducible assumption | with_reducible refine enterKeep_frame ?_ | with_reducible refine wake_frame ?_ | with_reducible apply Frame.ite | with_reducible apply Frame.iteFst | fail_if_no_progress (with_reducible refine Frame.set ?_) | split | dsimp only | refine Frame.ofFst ?_ (by assumption) | refine Frame.ofSnd2 ?_ (by assumption) | refine FrameOpt.kept ?_ _ (by assumption) | refine FrameOut.kept ?_ _ (by assumption)))

theorem watchSample_frame {inletDeciC : Nat} {tjDeciC : Nat} {mv : Nat} {s : State} {pm : List Part} {z0 : State} (hk : Frame pm z0 s) (m_pwr : Part.pwr ∈ pm := by assumption) : Frame pm z0 (watchSample inletDeciC tjDeciC mv s) := by
  unfold watchSample
  try dsimp only
  repeat (any_goals (first | intro _ | with_reducible assumption | with_reducible refine wake_frame ?_ | with_reducible apply Frame.ite | with_reducible apply Frame.iteFst | fail_if_no_progress (with_reducible refine Frame.set ?_) | split | dsimp only | refine Frame.ofFst ?_ (by assumption) | refine Frame.ofSnd2 ?_ (by assumption) | refine FrameOpt.kept ?_ _ (by assumption) | refine FrameOut.kept ?_ _ (by assumption)))

theorem execWatchSample_frame {t : Stamp} {inletDeciC : Nat} {tjDeciC : Nat} {mv : Nat} {s : State} {pm : List Part} {z0 : State} (hk : Frame pm z0 s) (m_time : Part.time ∈ pm := by assumption) (m_pwr : Part.pwr ∈ pm := by assumption) : FrameOut pm z0 (execWatchSample t inletDeciC tjDeciC mv s) := by
  unfold execWatchSample
  try dsimp only
  repeat (any_goals (first | intro _ | with_reducible assumption | with_reducible refine run_frame ?_ ?_ | with_reducible refine watchSample_frame ?_ | with_reducible apply FrameOut.next | exact FrameOut.fault | with_reducible apply Frame.ite | with_reducible apply Frame.iteFst | with_reducible apply FrameOut.ite | fail_if_no_progress (with_reducible refine Frame.set ?_) | split | dsimp only | refine Frame.ofFst ?_ (by assumption) | refine Frame.ofSnd2 ?_ (by assumption) | refine FrameOpt.kept ?_ _ (by assumption) | refine FrameOut.kept ?_ _ (by assumption)))

theorem woken_frame {s : State} {pm : List Part} {z0 : State} (hk : Frame pm z0 s) (m_time : Part.time ∈ pm := by assumption) (m_pwr : Part.pwr ∈ pm := by assumption) : Frame pm z0 (woken s) := by
  unfold woken
  try dsimp only
  repeat (any_goals (first | intro _ | with_reducible assumption | with_reducible apply Frame.ite | with_reducible apply Frame.iteFst | fail_if_no_progress (with_reducible refine Frame.set ?_) | split | dsimp only | refine Frame.ofFst ?_ (by assumption) | refine Frame.ofSnd2 ?_ (by assumption) | refine FrameOpt.kept ?_ _ (by assumption) | refine FrameOut.kept ?_ _ (by assumption)))

theorem linksAfter_frame {s : State} {first : Nat} {pm : List Part} {z0 : State} (hk : Frame pm z0 s) (m_bar : Part.bar ∈ pm := by assumption) (m_fab : Part.fab ∈ pm := by assumption) (m_fault : Part.fault ∈ pm := by assumption) (m_out : Part.out ∈ pm := by assumption) (m_spent : Part.spent ∈ pm := by assumption) : Frame pm z0 (linksAfter s first) := by
  unfold linksAfter
  try dsimp only
  repeat (any_goals (first | intro _ | with_reducible assumption | with_reducible refine linkDown_frame ?_ | with_reducible refine setLink_frame ?_ | with_reducible apply foldl_frame | with_reducible apply foldl_frame_fst | with_reducible apply Frame.ite | with_reducible apply Frame.iteFst | fail_if_no_progress (with_reducible refine Frame.set ?_) | split | dsimp only | refine Frame.ofFst ?_ (by assumption) | refine Frame.ofSnd2 ?_ (by assumption) | refine FrameOpt.kept ?_ _ (by assumption) | refine FrameOut.kept ?_ _ (by assumption)))

theorem applyReg_frame {s : State} {off : Nat} {v : Word} {pm : List Part} {z0 : State} (hk : Frame pm z0 s) (m_bar : Part.bar ∈ pm := by assumption) (m_fab : Part.fab ∈ pm := by assumption) (m_fault : Part.fault ∈ pm := by assumption) (m_out : Part.out ∈ pm := by assumption) (m_spent : Part.spent ∈ pm := by assumption) : Frame pm z0 (applyReg s off v) := by
  unfold applyReg
  try dsimp only
  repeat (any_goals (first | intro _ | with_reducible assumption | with_reducible refine linksAfter_frame ?_ | with_reducible apply Frame.ite | with_reducible apply Frame.iteFst | fail_if_no_progress (with_reducible refine Frame.set ?_) | split | dsimp only | refine Frame.ofFst ?_ (by assumption) | refine Frame.ofSnd2 ?_ (by assumption) | refine FrameOpt.kept ?_ _ (by assumption) | refine FrameOut.kept ?_ _ (by assumption)))

theorem applyWaiting_frame {s : State} {n : Nat} {pm : List Part} {z0 : State} (hk : Frame pm z0 s) (m_bar : Part.bar ∈ pm := by assumption) (m_fab : Part.fab ∈ pm := by assumption) (m_fault : Part.fault ∈ pm := by assumption) (m_out : Part.out ∈ pm := by assumption) (m_spent : Part.spent ∈ pm := by assumption) : Frame pm z0 (applyWaiting s n) := by
  unfold applyWaiting
  try dsimp only
  repeat (any_goals (first | intro _ | with_reducible assumption | with_reducible refine applyReg_frame ?_ | with_reducible apply foldl_frame | with_reducible apply foldl_frame_fst | with_reducible apply Frame.ite | with_reducible apply Frame.iteFst | fail_if_no_progress (with_reducible refine Frame.set ?_) | split | dsimp only | refine Frame.ofFst ?_ (by assumption) | refine Frame.ofSnd2 ?_ (by assumption) | refine FrameOpt.kept ?_ _ (by assumption) | refine FrameOut.kept ?_ _ (by assumption)))

theorem setReg_frame {s : State} {off : Nat} {v : Word} {pm : List Part} {z0 : State} (hk : Frame pm z0 s) (m_bar : Part.bar ∈ pm := by assumption) (m_fab : Part.fab ∈ pm := by assumption) (m_fault : Part.fault ∈ pm := by assumption) (m_out : Part.out ∈ pm := by assumption) (m_spent : Part.spent ∈ pm := by assumption) : Frame pm z0 (setReg s off v) := by
  unfold setReg
  try dsimp only
  repeat (any_goals (first | intro _ | with_reducible assumption | with_reducible refine applyReg_frame ?_ | with_reducible apply foldl_frame | with_reducible apply foldl_frame_fst | with_reducible apply Frame.ite | with_reducible apply Frame.iteFst | fail_if_no_progress (with_reducible refine Frame.set ?_) | split | dsimp only | refine Frame.ofFst ?_ (by assumption) | refine Frame.ofSnd2 ?_ (by assumption) | refine FrameOpt.kept ?_ _ (by assumption) | refine FrameOut.kept ?_ _ (by assumption)))

theorem disableRings_frame {s : State} {b : Nat} {pm : List Part} {z0 : State} (hk : Frame pm z0 s) (m_bar : Part.bar ∈ pm := by assumption) : Frame pm z0 (disableRings s b) := by
  unfold disableRings
  try dsimp only
  repeat (any_goals (first | intro _ | with_reducible assumption | with_reducible refine putReg_frame ?_ | with_reducible apply foldl_frame | with_reducible apply foldl_frame_fst | with_reducible apply Frame.ite | with_reducible apply Frame.iteFst | fail_if_no_progress (with_reducible refine Frame.set ?_) | split | dsimp only | refine Frame.ofFst ?_ (by assumption) | refine Frame.ofSnd2 ?_ (by assumption) | refine FrameOpt.kept ?_ _ (by assumption) | refine FrameOut.kept ?_ _ (by assumption)))

theorem setRing_frame {s : State} {b : Nat} {po : Nat} {v : Word} {pm : List Part} {z0 : State} (hk : Frame pm z0 s) (m_bar : Part.bar ∈ pm := by assumption) (m_host : Part.host ∈ pm := by assumption) (m_out : Part.out ∈ pm := by assumption) : Frame pm z0 (setRing s b po v) := by
  unfold setRing
  try dsimp only
  repeat (any_goals (first | intro _ | with_reducible assumption | with_reducible refine putReg_frame ?_ | with_reducible refine disableRings_frame ?_ | with_reducible refine drainRecords_frame ?_ | with_reducible apply Frame.ite | with_reducible apply Frame.iteFst | fail_if_no_progress (with_reducible refine Frame.set ?_) | split | dsimp only | refine Frame.ofFst ?_ (by assumption) | refine Frame.ofSnd2 ?_ (by assumption) | refine FrameOpt.kept ?_ _ (by assumption) | refine FrameOut.kept ?_ _ (by assumption)))

theorem writeReg_frame {fn : Fn} {off : Nat} {value : Word} {s : State} {pm : List Part} {z0 : State} (hk : Frame pm z0 s) (m_bar : Part.bar ∈ pm := by assumption) (m_host : Part.host ∈ pm := by assumption) (m_fab : Part.fab ∈ pm := by assumption) (m_fault : Part.fault ∈ pm := by assumption) (m_out : Part.out ∈ pm := by assumption) (m_spent : Part.spent ∈ pm := by assumption) : Frame pm z0 (writeReg fn off value s) := by
  unfold writeReg
  try dsimp only
  repeat (any_goals (first | intro _ | with_reducible assumption | with_reducible refine badAccess_frame ?_ | with_reducible refine setRing_frame ?_ | with_reducible refine setReg_frame ?_ | with_reducible apply Frame.ite | with_reducible apply Frame.iteFst | fail_if_no_progress (with_reducible refine Frame.set ?_) | split | dsimp only | refine Frame.ofFst ?_ (by assumption) | refine Frame.ofSnd2 ?_ (by assumption) | refine FrameOpt.kept ?_ _ (by assumption) | refine FrameOut.kept ?_ _ (by assumption)))

theorem execSetupLockWrite_frame {t : Stamp} {fn : Fn} {value : Word} {s : State} {pm : List Part} {z0 : State} (hk : Frame pm z0 s) (m_time : Part.time ∈ pm := by assumption) (m_bar : Part.bar ∈ pm := by assumption) (m_fault : Part.fault ∈ pm := by assumption) (m_sec : Part.sec ∈ pm := by assumption) (m_out : Part.out ∈ pm := by assumption) : FrameOut pm z0 (execSetupLockWrite t fn value s) := by
  unfold execSetupLockWrite
  try dsimp only
  repeat (any_goals (first | intro _ | with_reducible assumption | with_reducible refine pfWrite_frame ?_ ?_ | with_reducible apply FrameOut.next | exact FrameOut.fault | with_reducible apply Frame.ite | with_reducible apply Frame.iteFst | with_reducible apply FrameOut.ite | fail_if_no_progress (with_reducible refine Frame.set ?_) | split | dsimp only | refine Frame.ofFst ?_ (by assumption) | refine Frame.ofSnd2 ?_ (by assumption) | refine FrameOpt.kept ?_ _ (by assumption) | refine FrameOut.kept ?_ _ (by assumption)))

theorem execBnSetupLockWrite_frame {t : Stamp} {fn : Fn} {bench : Nat} {value : Word} {s : State} {pm : List Part} {z0 : State} (hk : Frame pm z0 s) (m_time : Part.time ∈ pm := by assumption) (m_bar : Part.bar ∈ pm := by assumption) (m_fault : Part.fault ∈ pm := by assumption) (m_out : Part.out ∈ pm := by assumption) : FrameOut pm z0 (execBnSetupLockWrite t fn bench value s) := by
  unfold execBnSetupLockWrite
  try dsimp only
  repeat (any_goals (first | intro _ | with_reducible assumption | with_reducible refine run_frame ?_ ?_ | with_reducible refine badAccess_frame ?_ | with_reducible apply FrameOut.next | exact FrameOut.fault | with_reducible apply Frame.ite | with_reducible apply Frame.iteFst | with_reducible apply FrameOut.ite | fail_if_no_progress (with_reducible refine Frame.set ?_) | split | dsimp only | refine Frame.ofFst ?_ (by assumption) | refine Frame.ofSnd2 ?_ (by assumption) | refine FrameOpt.kept ?_ _ (by assumption) | refine FrameOut.kept ?_ _ (by assumption)))

theorem execTkNowOffsetRead_frame {t : Stamp} {s : State} {pm : List Part} {z0 : State} (hk : Frame pm z0 s) (m_time : Part.time ∈ pm := by assumption) : FrameOut pm z0 (execTkNowOffsetRead t s) := by
  unfold execTkNowOffsetRead
  try dsimp only
  repeat (any_goals (first | intro _ | with_reducible assumption | with_reducible refine run_frame ?_ ?_ | with_reducible apply FrameOut.next | exact FrameOut.fault | with_reducible apply Frame.ite | with_reducible apply Frame.iteFst | with_reducible apply FrameOut.ite | fail_if_no_progress (with_reducible refine Frame.set ?_) | split | dsimp only | refine Frame.ofFst ?_ (by assumption) | refine Frame.ofSnd2 ?_ (by assumption) | refine FrameOpt.kept ?_ _ (by assumption) | refine FrameOut.kept ?_ _ (by assumption)))

theorem execCqDisable_frame {t : Stamp} {fn : Fn} {bench : Nat} {s : State} {pm : List Part} {z0 : State} (hk : Frame pm z0 s) (m_time : Part.time ∈ pm := by assumption) (m_bar : Part.bar ∈ pm := by assumption) (m_host : Part.host ∈ pm := by assumption) (m_fab : Part.fab ∈ pm := by assumption) (m_fault : Part.fault ∈ pm := by assumption) (m_out : Part.out ∈ pm := by assumption) (m_spent : Part.spent ∈ pm := by assumption) : FrameOut pm z0 (execCqDisable t fn bench s) := by
  unfold execCqDisable
  try dsimp only
  repeat (any_goals (first | intro _ | with_reducible assumption | with_reducible refine run_frame ?_ ?_ | with_reducible refine writeReg_frame ?_ | with_reducible apply FrameOut.next | exact FrameOut.fault | with_reducible apply Frame.ite | with_reducible apply Frame.iteFst | with_reducible apply FrameOut.ite | fail_if_no_progress (with_reducible refine Frame.set ?_) | split | dsimp only | refine Frame.ofFst ?_ (by assumption) | refine Frame.ofSnd2 ?_ (by assumption) | refine FrameOpt.kept ?_ _ (by assumption) | refine FrameOut.kept ?_ _ (by assumption)))

theorem execRingErrOverrunClear_frame {t : Stamp} {fn : Fn} {bench : Nat} {value : Word} {s : State} {pm : List Part} {z0 : State} (hk : Frame pm z0 s) (m_time : Part.time ∈ pm := by assumption) (m_bar : Part.bar ∈ pm := by assumption) (m_host : Part.host ∈ pm := by assumption) (m_fault : Part.fault ∈ pm := by assumption) (m_out : Part.out ∈ pm := by assumption) : FrameOut pm z0 (execRingErrOverrunClear t fn bench value s) := by
  unfold execRingErrOverrunClear
  try dsimp only
  repeat (any_goals (first | intro _ | with_reducible assumption | with_reducible refine pfWrite_frame ?_ ?_ | with_reducible apply FrameOut.next | exact FrameOut.fault | with_reducible apply Frame.ite | with_reducible apply Frame.iteFst | with_reducible apply FrameOut.ite | fail_if_no_progress (with_reducible refine Frame.set ?_) | split | dsimp only | refine Frame.ofFst ?_ (by assumption) | refine Frame.ofSnd2 ?_ (by assumption) | refine FrameOpt.kept ?_ _ (by assumption) | refine FrameOut.kept ?_ _ (by assumption)))

theorem execPwOverrideClear_frame {t : Stamp} {fn : Fn} {value : Word} {s : State} {pm : List Part} {z0 : State} (hk : Frame pm z0 s) (m_time : Part.time ∈ pm := by assumption) (m_bar : Part.bar ∈ pm := by assumption) (m_fault : Part.fault ∈ pm := by assumption) (m_pwr : Part.pwr ∈ pm := by assumption) (m_out : Part.out ∈ pm := by assumption) : FrameOut pm z0 (execPwOverrideClear t fn value s) := by
  unfold execPwOverrideClear
  try dsimp only
  repeat (any_goals (first | intro _ | with_reducible assumption | with_reducible refine pfWrite_frame ?_ ?_ | with_reducible apply FrameOut.next | exact FrameOut.fault | with_reducible apply Frame.ite | with_reducible apply Frame.iteFst | with_reducible apply FrameOut.ite | fail_if_no_progress (with_reducible refine Frame.set ?_) | split | dsimp only | refine Frame.ofFst ?_ (by assumption) | refine Frame.ofSnd2 ?_ (by assumption) | refine FrameOpt.kept ?_ _ (by assumption) | refine FrameOut.kept ?_ _ (by assumption)))

theorem execPwResetCtrlWarm_frame {t : Stamp} {fn : Fn} {s : State} {pm : List Part} {z0 : State} (hk : Frame pm z0 s) (m_time : Part.time ∈ pm := by assumption) (m_bar : Part.bar ∈ pm := by assumption) (m_host : Part.host ∈ pm := by assumption) (m_benches : Part.benches ∈ pm := by assumption) (m_work : Part.work ∈ pm := by assumption) (m_plan : Part.plan ∈ pm := by assumption) (m_haul : Part.haul ∈ pm := by assumption) (m_tier : Part.tier ∈ pm := by assumption) (m_shards : Part.shards ∈ pm := by assumption) (m_fab : Part.fab ∈ pm := by assumption) (m_win : Part.win ∈ pm := by assumption) (m_fw : Part.fw ∈ pm := by assumption) (m_fault : Part.fault ∈ pm := by assumption) (m_sec : Part.sec ∈ pm := by assumption) (m_pwr : Part.pwr ∈ pm := by assumption) (m_mgmt : Part.mgmt ∈ pm := by assumption) (m_out : Part.out ∈ pm := by assumption) (m_spent : Part.spent ∈ pm := by assumption) : FrameOut pm z0 (execPwResetCtrlWarm t fn s) := by
  unfold execPwResetCtrlWarm
  try dsimp only
  repeat (any_goals (first | intro _ | with_reducible assumption | with_reducible refine pfWrite_frame ?_ ?_ | with_reducible refine warmReset_frame ?_ | with_reducible apply FrameOut.next | exact FrameOut.fault | with_reducible apply Frame.ite | with_reducible apply Frame.iteFst | with_reducible apply FrameOut.ite | fail_if_no_progress (with_reducible refine Frame.set ?_) | split | dsimp only | refine Frame.ofFst ?_ (by assumption) | refine Frame.ofSnd2 ?_ (by assumption) | refine FrameOpt.kept ?_ _ (by assumption) | refine FrameOut.kept ?_ _ (by assumption)))

theorem stage_frame {s : State} {e : Nat} {ok : MapSet → Bool} {f : MapSet → MapSet} {pm : List Part} {z0 : State} (hk : Frame pm z0 s) (m_fab : Part.fab ∈ pm := by assumption) : Frame pm z0 (stage s e ok f).1 := by
  unfold stage
  try dsimp only
  repeat (any_goals (first | intro _ | with_reducible assumption | with_reducible apply Frame.ite | with_reducible apply Frame.iteFst | fail_if_no_progress (with_reducible refine Frame.set ?_) | split | dsimp only | refine Frame.ofFst ?_ (by assumption) | refine Frame.ofSnd2 ?_ (by assumption) | refine FrameOpt.kept ?_ _ (by assumption) | refine FrameOut.kept ?_ _ (by assumption)))

theorem stageBench_frame {s : State} {e : Nat} {r : BitVec 1024} {pm : List Part} {z0 : State} (hk : Frame pm z0 s) (m_fab : Part.fab ∈ pm := by assumption) : Frame pm z0 (stageBench s e r).1 := by
  unfold stageBench
  try dsimp only
  repeat (any_goals (first | intro _ | with_reducible assumption | with_reducible refine stage_frame ?_ | with_reducible apply Frame.ite | with_reducible apply Frame.iteFst | fail_if_no_progress (with_reducible refine Frame.set ?_) | split | dsimp only | refine Frame.ofFst ?_ (by assumption) | refine Frame.ofSnd2 ?_ (by assumption) | refine FrameOpt.kept ?_ _ (by assumption) | refine FrameOut.kept ?_ _ (by assumption)))

theorem stageRoute_frame {s : State} {e : Nat} {first : Nat} {es : List Word} {pm : List Part} {z0 : State} (hk : Frame pm z0 s) (m_fab : Part.fab ∈ pm := by assumption) : Frame pm z0 (stageRoute s e first es).1 := by
  unfold stageRoute
  try dsimp only
  repeat (any_goals (first | intro _ | with_reducible assumption | with_reducible refine stage_frame ?_ | with_reducible apply foldl_frame | with_reducible apply foldl_frame_fst | with_reducible apply Frame.ite | with_reducible apply Frame.iteFst | fail_if_no_progress (with_reducible refine Frame.set ?_) | split | dsimp only | refine Frame.ofFst ?_ (by assumption) | refine Frame.ofSnd2 ?_ (by assumption) | refine FrameOpt.kept ?_ _ (by assumption) | refine FrameOut.kept ?_ _ (by assumption)))

theorem stageExport_frame {s : State} {e : Nat} {x : BitVec 256} {pm : List Part} {z0 : State} (hk : Frame pm z0 s) (m_fab : Part.fab ∈ pm := by assumption) : Frame pm z0 (stageExport s e x).1 := by
  unfold stageExport
  try dsimp only
  repeat (any_goals (first | intro _ | with_reducible assumption | with_reducible refine stage_frame ?_ | with_reducible apply Frame.ite | with_reducible apply Frame.iteFst | fail_if_no_progress (with_reducible refine Frame.set ?_) | split | dsimp only | refine Frame.ofFst ?_ (by assumption) | refine Frame.ofSnd2 ?_ (by assumption) | refine FrameOpt.kept ?_ _ (by assumption) | refine FrameOut.kept ?_ _ (by assumption)))

theorem stageRackmap_frame {s : State} {e : Nat} {slots : List ModuleId} {pm : List Part} {z0 : State} (hk : Frame pm z0 s) (m_fab : Part.fab ∈ pm := by assumption) : Frame pm z0 (stageRackmap s e slots).1 := by
  unfold stageRackmap
  try dsimp only
  repeat (any_goals (first | intro _ | with_reducible assumption | with_reducible refine stage_frame ?_ | with_reducible apply foldl_frame | with_reducible apply foldl_frame_fst | with_reducible apply Frame.ite | with_reducible apply Frame.iteFst | fail_if_no_progress (with_reducible refine Frame.set ?_) | split | dsimp only | refine Frame.ofFst ?_ (by assumption) | refine Frame.ofSnd2 ?_ (by assumption) | refine FrameOpt.kept ?_ _ (by assumption) | refine FrameOut.kept ?_ _ (by assumption)))

theorem stageEvac_frame {s : State} {e : Nat} {b : Nat} {target : ModuleId} {tb : Nat} {pm : List Part} {z0 : State} (hk : Frame pm z0 s) (m_fab : Part.fab ∈ pm := by assumption) : Frame pm z0 (stageEvac s e b target tb).1 := by
  unfold stageEvac
  try dsimp only
  repeat (any_goals (first | intro _ | with_reducible assumption | with_reducible refine stage_frame ?_ | with_reducible apply Frame.ite | with_reducible apply Frame.iteFst | fail_if_no_progress (with_reducible refine Frame.set ?_) | split | dsimp only | refine Frame.ofFst ?_ (by assumption) | refine Frame.ofSnd2 ?_ (by assumption) | refine FrameOpt.kept ?_ _ (by assumption) | refine FrameOut.kept ?_ _ (by assumption)))

theorem discardStage_frame {s : State} {e : Nat} {pm : List Part} {z0 : State} (hk : Frame pm z0 s) (m_fab : Part.fab ∈ pm := by assumption) : Frame pm z0 (discardStage s e).1 := by
  unfold discardStage
  try dsimp only
  repeat (any_goals (first | intro _ | with_reducible assumption | with_reducible apply Frame.ite | with_reducible apply Frame.iteFst | fail_if_no_progress (with_reducible refine Frame.set ?_) | split | dsimp only | refine Frame.ofFst ?_ (by assumption) | refine Frame.ofSnd2 ?_ (by assumption) | refine FrameOpt.kept ?_ _ (by assumption) | refine FrameOut.kept ?_ _ (by assumption)))

theorem sealEpoch_frame {s : State} {e : Nat} {sw : Nat} {n : Nat} {pm : List Part} {z0 : State} (hk : Frame pm z0 s) (m_fab : Part.fab ∈ pm := by assumption) : Frame pm z0 (sealEpoch s e sw n).1 := by
  unfold sealEpoch
  try dsimp only
  repeat (any_goals (first | intro _ | with_reducible assumption | with_reducible apply Frame.ite | with_reducible apply Frame.iteFst | fail_if_no_progress (with_reducible refine Frame.set ?_) | split | dsimp only | refine Frame.ofFst ?_ (by assumption) | refine Frame.ofSnd2 ?_ (by assumption) | refine FrameOpt.kept ?_ _ (by assumption) | refine FrameOut.kept ?_ _ (by assumption)))

theorem leaveSlices_frame {s : State} {b : Nat} {old : BitVec 1024} {new : BitVec 1024} {pm : List Part} {z0 : State} (hk : Frame pm z0 s) (m_tier : Part.tier ∈ pm := by assumption) : Frame pm z0 (leaveSlices s b old new) := by
  unfold leaveSlices
  try dsimp only
  repeat (any_goals (first | intro _ | with_reducible assumption | with_reducible apply Frame.ite | with_reducible apply Frame.iteFst | fail_if_no_progress (with_reducible refine Frame.set ?_) | split | dsimp only | refine Frame.ofFst ?_ (by assumption) | refine Frame.ofSnd2 ?_ (by assumption) | refine FrameOpt.kept ?_ _ (by assumption) | refine FrameOut.kept ?_ _ (by assumption)))

theorem parkUnserved_frame {s : State} {b : Nat} {pm : List Part} {z0 : State} (hk : Frame pm z0 s) (m_work : Part.work ∈ pm := by assumption) (m_tier : Part.tier ∈ pm := by assumption) (m_out : Part.out ∈ pm := by assumption) (m_spent : Part.spent ∈ pm := by assumption) : Frame pm z0 (parkUnserved s b) := by
  unfold parkUnserved
  try dsimp only
  repeat (any_goals (first | intro _ | with_reducible assumption | with_reducible refine parkInPlace_frame ?_ | with_reducible refine suspendReq_frame ?_ | with_reducible apply foldl_frame | with_reducible apply foldl_frame_fst | with_reducible apply Frame.ite | with_reducible apply Frame.iteFst | fail_if_no_progress (with_reducible refine Frame.set ?_) | split | dsimp only | refine Frame.ofFst ?_ (by assumption) | refine Frame.ofSnd2 ?_ (by assumption) | refine FrameOpt.kept ?_ _ (by assumption) | refine FrameOut.kept ?_ _ (by assumption)))

theorem clampShares_frame {s : State} {b : Nat} {pm : List Part} {z0 : State} (hk : Frame pm z0 s) (m_bar : Part.bar ∈ pm := by assumption) : Frame pm z0 (clampShares s b) := by
  unfold clampShares
  try dsimp only
  repeat (any_goals (first | intro _ | with_reducible assumption | with_reducible apply Frame.ite | with_reducible apply Frame.iteFst | fail_if_no_progress (with_reducible refine Frame.set ?_) | split | dsimp only | refine Frame.ofFst ?_ (by assumption) | refine Frame.ofSnd2 ?_ (by assumption) | refine FrameOpt.kept ?_ _ (by assumption) | refine FrameOut.kept ?_ _ (by assumption)))

theorem switchBench_frame {e : Nat} {m : MapSet} {s : State} {b : Nat} {pm : List Part} {z0 : State} (hk : Frame pm z0 s) (m_bar : Part.bar ∈ pm := by assumption) (m_benches : Part.benches ∈ pm := by assumption) (m_work : Part.work ∈ pm := by assumption) (m_tier : Part.tier ∈ pm := by assumption) (m_mgmt : Part.mgmt ∈ pm := by assumption) (m_out : Part.out ∈ pm := by assumption) (m_spent : Part.spent ∈ pm := by assumption) : Frame pm z0 (switchBench e m s b) := by
  unfold switchBench
  try dsimp only
  repeat (any_goals (first | intro _ | with_reducible assumption | with_reducible refine leaveSlices_frame ?_ | with_reducible refine setBench_frame ?_ | with_reducible refine closeMeter_frame ?_ | with_reducible refine clampShares_frame ?_ | with_reducible refine parkUnserved_frame ?_ | with_reducible apply Frame.ite | with_reducible apply Frame.iteFst | fail_if_no_progress (with_reducible refine Frame.set ?_) | split | dsimp only | refine Frame.ofFst ?_ (by assumption) | refine Frame.ofSnd2 ?_ (by assumption) | refine FrameOpt.kept ?_ _ (by assumption) | refine FrameOut.kept ?_ _ (by assumption)))

theorem switchExports_frame {pm : List Part} {old new : Table (BitVec 256)} {s : State} {z0 : State} (hk : Frame pm z0 s) (m_fab : Part.fab ∈ pm := by assumption) (m_win : Part.win ∈ pm := by assumption) : Frame pm z0 (switchExports old new s) := by
  unfold switchExports
  apply foldl_frame
  · apply foldl_frame hk
    intro s x h
    exact revokeWhere_frame h
  · intro s x h
    exact setMem_frame memWf_clear h

theorem listEvacs_frame {s : State} {m : MapSet} {pm : List Part} {z0 : State} (hk : Frame pm z0 s) (m_haul : Part.haul ∈ pm := by assumption) : Frame pm z0 (listEvacs s m) := by
  unfold listEvacs
  try dsimp only
  repeat (any_goals (first | intro _ | with_reducible assumption | with_reducible apply Frame.ite | with_reducible apply Frame.iteFst | fail_if_no_progress (with_reducible refine Frame.set ?_) | split | dsimp only | refine Frame.ofFst ?_ (by assumption) | refine Frame.ofSnd2 ?_ (by assumption) | refine FrameOpt.kept ?_ _ (by assumption) | refine FrameOut.kept ?_ _ (by assumption)))

theorem startEvacs_frame {s : State} {pm : List Part} {z0 : State} (hk : Frame pm z0 s) (m_work : Part.work ∈ pm := by assumption) (m_haul : Part.haul ∈ pm := by assumption) (m_tier : Part.tier ∈ pm := by assumption) (m_out : Part.out ∈ pm := by assumption) (m_spent : Part.spent ∈ pm := by assumption) : Frame pm z0 (startEvacs s) := by
  unfold startEvacs
  try dsimp only
  repeat (any_goals (first | intro _ | with_reducible assumption | with_reducible refine sendOffer_frame ?_ | with_reducible refine startHaul_frame ?_ | with_reducible apply foldl_frame | with_reducible apply foldl_frame_fst | with_reducible apply Frame.ite | with_reducible apply Frame.iteFst | fail_if_no_progress (with_reducible refine Frame.set ?_) | split | dsimp only | refine Frame.ofFst ?_ (by assumption) | refine Frame.ofSnd2 ?_ (by assumption) | refine FrameOpt.kept ?_ _ (by assumption) | refine FrameOut.kept ?_ _ (by assumption)))

theorem switchEpoch_frame {s : State} {n : Nat} {pm : List Part} {z0 : State} (hk : Frame pm z0 s) (m_bar : Part.bar ∈ pm := by assumption) (m_benches : Part.benches ∈ pm := by assumption) (m_work : Part.work ∈ pm := by assumption) (m_haul : Part.haul ∈ pm := by assumption) (m_tier : Part.tier ∈ pm := by assumption) (m_fab : Part.fab ∈ pm := by assumption) (m_win : Part.win ∈ pm := by assumption) (m_mgmt : Part.mgmt ∈ pm := by assumption) (m_out : Part.out ∈ pm := by assumption) (m_spent : Part.spent ∈ pm := by assumption) : Frame pm z0 (switchEpoch s n) := by
  unfold switchEpoch
  try dsimp only
  repeat (any_goals (first | intro _ | with_reducible assumption | with_reducible refine switchBench_frame ?_ | with_reducible refine startEvacs_frame ?_ | with_reducible refine listEvacs_frame ?_ | with_reducible refine switchExports_frame ?_ | with_reducible apply foldl_frame | with_reducible apply foldl_frame_fst | with_reducible apply Frame.ite | with_reducible apply Frame.iteFst | fail_if_no_progress (with_reducible refine Frame.set ?_) | split | dsimp only | refine Frame.ofFst ?_ (by assumption) | refine Frame.ofSnd2 ?_ (by assumption) | refine FrameOpt.kept ?_ _ (by assumption) | refine FrameOut.kept ?_ _ (by assumption)))

theorem moveLeaving_frame {s : State} {x : Nat × Tier × Nat × Nat} {pm : List Part} {z0 : State} (hk : Frame pm z0 s) (m_tier : Part.tier ∈ pm := by assumption) (m_spent : Part.spent ∈ pm := by assumption) : Frame pm z0 (moveLeaving s x) := by
  unfold moveLeaving
  try dsimp only
  repeat (any_goals (first | intro _ | with_reducible assumption | with_reducible refine chargeShare_frame ?_ | with_reducible apply Frame.ite | with_reducible apply Frame.iteFst | fail_if_no_progress (with_reducible refine Frame.set ?_) | split | dsimp only | refine Frame.ofFst ?_ (by assumption) | refine Frame.ofSnd2 ?_ (by assumption) | refine FrameOpt.kept ?_ _ (by assumption) | refine FrameOut.kept ?_ _ (by assumption)))

theorem handOver_frame {s : State} {pm : List Part} {z0 : State} (hk : Frame pm z0 s) (m_tier : Part.tier ∈ pm := by assumption) (m_mgmt : Part.mgmt ∈ pm := by assumption) (m_spent : Part.spent ∈ pm := by assumption) : Frame pm z0 (handOver s) := by
  unfold handOver
  try dsimp only
  repeat (any_goals (first | intro _ | with_reducible assumption | with_reducible refine closeMeter_frame ?_ | with_reducible refine moveLeaving_frame ?_ | with_reducible apply foldl_frame | with_reducible apply foldl_frame_fst | with_reducible apply Frame.ite | with_reducible apply Frame.iteFst | fail_if_no_progress (with_reducible refine Frame.set ?_) | split | dsimp only | refine Frame.ofFst ?_ (by assumption) | refine Frame.ofSnd2 ?_ (by assumption) | refine FrameOpt.kept ?_ _ (by assumption) | refine FrameOut.kept ?_ _ (by assumption)))

theorem endDrain_frame {s : State} {pm : List Part} {z0 : State} (hk : Frame pm z0 s) (m_fab : Part.fab ∈ pm := by assumption) : Frame pm z0 (endDrain s) := by
  unfold endDrain
  try dsimp only
  repeat (any_goals (first | intro _ | with_reducible assumption | with_reducible apply Frame.ite | with_reducible apply Frame.iteFst | fail_if_no_progress (with_reducible refine Frame.set ?_) | split | dsimp only | refine Frame.ofFst ?_ (by assumption) | refine Frame.ofSnd2 ?_ (by assumption) | refine FrameOpt.kept ?_ _ (by assumption) | refine FrameOut.kept ?_ _ (by assumption)))

theorem execEpochSwitch_frame {t : Stamp} {s : State} {pm : List Part} {z0 : State} (hk : Frame pm z0 s) (m_time : Part.time ∈ pm := by assumption) (m_bar : Part.bar ∈ pm := by assumption) (m_benches : Part.benches ∈ pm := by assumption) (m_work : Part.work ∈ pm := by assumption) (m_haul : Part.haul ∈ pm := by assumption) (m_tier : Part.tier ∈ pm := by assumption) (m_fab : Part.fab ∈ pm := by assumption) (m_win : Part.win ∈ pm := by assumption) (m_mgmt : Part.mgmt ∈ pm := by assumption) (m_out : Part.out ∈ pm := by assumption) (m_spent : Part.spent ∈ pm := by assumption) : FrameOut pm z0 (execEpochSwitch t s) := by
  unfold execEpochSwitch
  try dsimp only
  repeat (any_goals (first | intro _ | with_reducible assumption | with_reducible refine run_frame ?_ ?_ | with_reducible refine switchEpoch_frame ?_ | with_reducible apply FrameOut.next | exact FrameOut.fault | with_reducible apply Frame.ite | with_reducible apply Frame.iteFst | with_reducible apply FrameOut.ite | fail_if_no_progress (with_reducible refine Frame.set ?_) | split | dsimp only | refine Frame.ofFst ?_ (by assumption) | refine Frame.ofSnd2 ?_ (by assumption) | refine FrameOpt.kept ?_ _ (by assumption) | refine FrameOut.kept ?_ _ (by assumption)))

theorem execDrainWindowEnd_frame {t : Stamp} {s : State} {pm : List Part} {z0 : State} (hk : Frame pm z0 s) (m_time : Part.time ∈ pm := by assumption) (m_fab : Part.fab ∈ pm := by assumption) : FrameOut pm z0 (execDrainWindowEnd t s) := by
  unfold execDrainWindowEnd
  try dsimp only
  repeat (any_goals (first | intro _ | with_reducible assumption | with_reducible refine run_frame ?_ ?_ | with_reducible refine endDrain_frame ?_ | with_reducible apply FrameOut.next | exact FrameOut.fault | with_reducible apply Frame.ite | with_reducible apply Frame.iteFst | with_reducible apply FrameOut.ite | fail_if_no_progress (with_reducible refine Frame.set ?_) | split | dsimp only | refine Frame.ofFst ?_ (by assumption) | refine Frame.ofSnd2 ?_ (by assumption) | refine FrameOpt.kept ?_ _ (by assumption) | refine FrameOut.kept ?_ _ (by assumption)))

theorem linkBudgets_frame {s : State} {pm : List Part} {z0 : State} (hk : Frame pm z0 s) (m_benches : Part.benches ∈ pm := by assumption) (m_fault : Part.fault ∈ pm := by assumption) (m_out : Part.out ∈ pm := by assumption) : Frame pm z0 (linkBudgets s) := by
  unfold linkBudgets
  try dsimp only
  repeat (any_goals (first | intro _ | with_reducible assumption | with_reducible refine setBench_frame ?_ | with_reducible refine logErr_frame ?_ | with_reducible apply foldl_frame | with_reducible apply foldl_frame_fst | with_reducible apply Frame.ite | with_reducible apply Frame.iteFst | fail_if_no_progress (with_reducible refine Frame.set ?_) | split | dsimp only | refine Frame.ofFst ?_ (by assumption) | refine Frame.ofSnd2 ?_ (by assumption) | refine FrameOpt.kept ?_ _ (by assumption) | refine FrameOut.kept ?_ _ (by assumption)))

theorem noteBell_frame {s : State} {pm : List Part} {z0 : State} (hk : Frame pm z0 s) (m_pwr : Part.pwr ∈ pm := by assumption) : Frame pm z0 (noteBell s) := by
  unfold noteBell
  try dsimp only
  repeat (any_goals (first | intro _ | with_reducible assumption | with_reducible apply Frame.ite | with_reducible apply Frame.iteFst | fail_if_no_progress (with_reducible refine Frame.set ?_) | split | dsimp only | refine Frame.ofFst ?_ (by assumption) | refine Frame.ofSnd2 ?_ (by assumption) | refine FrameOpt.kept ?_ _ (by assumption) | refine FrameOut.kept ?_ _ (by assumption)))

theorem landRange_frame {s : State} {ring : Nat} {t0 : Nat} {n : Nat} {pm : List Part} {z0 : State} (hk : Frame pm z0 s) (m_host : Part.host ∈ pm := by assumption) : Frame pm z0 (landRange s ring t0 n) := by
  unfold landRange
  try dsimp only
  repeat (any_goals (first | intro _ | with_reducible assumption | with_reducible apply Frame.ite | with_reducible apply Frame.iteFst | fail_if_no_progress (with_reducible refine Frame.set ?_) | split | dsimp only | refine Frame.ofFst ?_ (by assumption) | refine Frame.ofSnd2 ?_ (by assumption) | refine FrameOpt.kept ?_ _ (by assumption) | refine FrameOut.kept ?_ _ (by assumption)))

theorem ringBell_frame {s : State} {ring : Nat} {tail : Nat} {pm : List Part} {z0 : State} (hk : Frame pm z0 s) (m_host : Part.host ∈ pm := by assumption) (m_fault : Part.fault ∈ pm := by assumption) (m_out : Part.out ∈ pm := by assumption) : Frame pm z0 (ringBell s ring tail) := by
  unfold ringBell
  try dsimp only
  repeat (any_goals (first | intro _ | with_reducible assumption | with_reducible refine ringError_frame ?_ | with_reducible refine landRange_frame ?_ | with_reducible apply Frame.ite | with_reducible apply Frame.iteFst | fail_if_no_progress (with_reducible refine Frame.set ?_) | split | dsimp only | refine Frame.ofFst ?_ (by assumption) | refine Frame.ofSnd2 ?_ (by assumption) | refine FrameOpt.kept ?_ _ (by assumption) | refine FrameOut.kept ?_ _ (by assumption)))

theorem doorbell_frame {fn : Fn} {ring : Nat} {off : Nat} {size : Nat} {value : Word} {s : State} {pm : List Part} {z0 : State} (hk : Frame pm z0 s) (m_bar : Part.bar ∈ pm := by assumption) (m_host : Part.host ∈ pm := by assumption) (m_fault : Part.fault ∈ pm := by assumption) (m_pwr : Part.pwr ∈ pm := by assumption) (m_out : Part.out ∈ pm := by assumption) : Frame pm z0 (doorbell fn ring off size value s) := by
  unfold doorbell
  try dsimp only
  repeat (any_goals (first | intro _ | with_reducible assumption | with_reducible refine badAccess_frame ?_ | with_reducible refine ringBell_frame ?_ | with_reducible refine noteBell_frame ?_ | with_reducible apply Frame.ite | with_reducible apply Frame.iteFst | fail_if_no_progress (with_reducible refine Frame.set ?_) | split | dsimp only | refine Frame.ofFst ?_ (by assumption) | refine Frame.ofSnd2 ?_ (by assumption) | refine FrameOpt.kept ?_ _ (by assumption) | refine FrameOut.kept ?_ _ (by assumption)))

theorem execDoorbell_frame {t : Stamp} {fn : Fn} {ring : Nat} {off : Nat} {size : Nat} {value : Word} {s : State} {pm : List Part} {z0 : State} (hk : Frame pm z0 s) (m_time : Part.time ∈ pm := by assumption) (m_bar : Part.bar ∈ pm := by assumption) (m_host : Part.host ∈ pm := by assumption) (m_fault : Part.fault ∈ pm := by assumption) (m_pwr : Part.pwr ∈ pm := by assumption) (m_out : Part.out ∈ pm := by assumption) : FrameOut pm z0 (execDoorbell t fn ring off size value s) := by
  unfold execDoorbell
  try dsimp only
  repeat (any_goals (first | intro _ | with_reducible assumption | with_reducible refine run_frame ?_ ?_ | with_reducible refine doorbell_frame ?_ | with_reducible apply FrameOut.next | exact FrameOut.fault | with_reducible apply Frame.ite | with_reducible apply Frame.iteFst | with_reducible apply FrameOut.ite | fail_if_no_progress (with_reducible refine Frame.set ?_) | split | dsimp only | refine Frame.ofFst ?_ (by assumption) | refine Frame.ofSnd2 ?_ (by assumption) | refine FrameOpt.kept ?_ _ (by assumption) | refine FrameOut.kept ?_ _ (by assumption)))

theorem execBadAccess_frame {t : Stamp} {fn : Fn} {s : State} {pm : List Part} {z0 : State} (hk : Frame pm z0 s) (m_time : Part.time ∈ pm := by assumption) (m_bar : Part.bar ∈ pm := by assumption) (m_fault : Part.fault ∈ pm := by assumption) (m_out : Part.out ∈ pm := by assumption) : FrameOut pm z0 (execBadAccess t fn s) := by
  unfold execBadAccess
  try dsimp only
  repeat (any_goals (first | intro _ | with_reducible assumption | with_reducible refine run_frame ?_ ?_ | with_reducible refine badAccess_frame ?_ | with_reducible apply FrameOut.next | exact FrameOut.fault | with_reducible apply Frame.ite | with_reducible apply Frame.iteFst | with_reducible apply FrameOut.ite | fail_if_no_progress (with_reducible refine Frame.set ?_) | split | dsimp only | refine Frame.ofFst ?_ (by assumption) | refine Frame.ofSnd2 ?_ (by assumption) | refine FrameOpt.kept ?_ _ (by assumption) | refine FrameOut.kept ?_ _ (by assumption)))

theorem landEffect_frame {pm : List Part} {o : Nat} {c : Cpl} {d : HostDesc} {s : State} {z0 : State} (hk : Frame pm z0 s) (m_bar : Part.bar ∈ pm := by assumption) (m_host : Part.host ∈ pm := by assumption) (m_fab : Part.fab ∈ pm := by assumption) (m_win : Part.win ∈ pm := by assumption) (m_fault : Part.fault ∈ pm := by assumption) (m_out : Part.out ∈ pm := by assumption) (m_spent : Part.spent ∈ pm := by assumption) : Frame pm z0 (landEffect o c d s) := by
  unfold landEffect
  split <;> [exact winOpen_frame hk; split] <;> [exact winRevoke_frame hk; split] <;> [exact qpCreate_frame hk; split] <;>
    [exact qpDestroy_frame hk; exact rmaOp_frame hk]

theorem fetched_frame {ring : Nat} {index : Nat} {raw : BitVec 512} {data : Option NamedData} {s : State} {pm : List Part} {z0 : State} (hk : Frame pm z0 s) (m_bar : Part.bar ∈ pm := by assumption) (m_host : Part.host ∈ pm := by assumption) (m_haul : Part.haul ∈ pm := by assumption) (m_fab : Part.fab ∈ pm := by assumption) (m_win : Part.win ∈ pm := by assumption) (m_fault : Part.fault ∈ pm := by assumption) (m_out : Part.out ∈ pm := by assumption) (m_spent : Part.spent ∈ pm := by assumption) : Frame pm z0 (fetched ring index raw data s) := by
  unfold fetched
  try dsimp only
  repeat (any_goals (first | intro _ | with_reducible assumption | with_reducible refine emitTo_frame ?_ | with_reducible refine takeLanded_frame ?_ | with_reducible refine applyLanding_frame ?_ ?_ | with_reducible refine landEffect_frame ?_ | with_reducible refine complete_frame ?_ | with_reducible refine pullAtLanding_frame ?_ | with_reducible apply Frame.ite | with_reducible apply Frame.iteFst | fail_if_no_progress (with_reducible refine Frame.set ?_) | split | dsimp only | refine Frame.ofFst ?_ (by assumption) | refine Frame.ofSnd2 ?_ (by assumption) | refine FrameOpt.kept ?_ _ (by assumption) | refine FrameOut.kept ?_ _ (by assumption)))

theorem execDescriptorFetchDone_frame {t : Stamp} {ring : Nat} {index : Nat} {raw : BitVec 512} {data : Option NamedData} {s : State} {pm : List Part} {z0 : State} (hk : Frame pm z0 s) (m_time : Part.time ∈ pm := by assumption) (m_bar : Part.bar ∈ pm := by assumption) (m_host : Part.host ∈ pm := by assumption) (m_haul : Part.haul ∈ pm := by assumption) (m_fab : Part.fab ∈ pm := by assumption) (m_win : Part.win ∈ pm := by assumption) (m_fault : Part.fault ∈ pm := by assumption) (m_out : Part.out ∈ pm := by assumption) (m_spent : Part.spent ∈ pm := by assumption) : FrameOut pm z0 (execDescriptorFetchDone t ring index raw data s) := by
  unfold execDescriptorFetchDone
  try dsimp only
  repeat (any_goals (first | intro _ | with_reducible assumption | with_reducible refine run_frame ?_ ?_ | with_reducible refine fetched_frame ?_ | with_reducible apply FrameOut.next | exact FrameOut.fault | with_reducible apply Frame.ite | with_reducible apply Frame.iteFst | with_reducible apply FrameOut.ite | fail_if_no_progress (with_reducible refine Frame.set ?_) | split | dsimp only | refine Frame.ofFst ?_ (by assumption) | refine Frame.ofSnd2 ?_ (by assumption) | refine FrameOpt.kept ?_ _ (by assumption) | refine FrameOut.kept ?_ _ (by assumption)))

theorem resetBench_frame {s : State} {b : Nat} {pm : List Part} {z0 : State} (hk : Frame pm z0 s) (m_bar : Part.bar ∈ pm := by assumption) (m_host : Part.host ∈ pm := by assumption) (m_work : Part.work ∈ pm := by assumption) (m_win : Part.win ∈ pm := by assumption) : Frame pm z0 (resetBench s b) := by
  unfold resetBench
  try dsimp only
  repeat (any_goals (first | intro _ | with_reducible assumption | with_reducible refine revokeWhere_frame ?_ | with_reducible apply Frame.ite | with_reducible apply Frame.iteFst | fail_if_no_progress (with_reducible refine Frame.set ?_) | split | dsimp only | refine Frame.ofFst ?_ (by assumption) | refine Frame.ofSnd2 ?_ (by assumption) | refine FrameOpt.kept ?_ _ (by assumption) | refine FrameOut.kept ?_ _ (by assumption)))

theorem execFlr_frame {t : Stamp} {fn : Fn} {s : State} {pm : List Part} {z0 : State} (hk : Frame pm z0 s) (m_time : Part.time ∈ pm := by assumption) (m_bar : Part.bar ∈ pm := by assumption) (m_host : Part.host ∈ pm := by assumption) (m_work : Part.work ∈ pm := by assumption) (m_win : Part.win ∈ pm := by assumption) : FrameOut pm z0 (execFlr t fn s) := by
  unfold execFlr
  try dsimp only
  repeat (any_goals (first | intro _ | with_reducible assumption | with_reducible refine run_frame ?_ ?_ | with_reducible refine resetBench_frame ?_ | with_reducible apply foldl_frame | with_reducible apply foldl_frame_fst | with_reducible apply FrameOut.next | exact FrameOut.fault | with_reducible apply Frame.ite | with_reducible apply Frame.iteFst | with_reducible apply FrameOut.ite | fail_if_no_progress (with_reducible refine Frame.set ?_) | split | dsimp only | refine Frame.ofFst ?_ (by assumption) | refine Frame.ofSnd2 ?_ (by assumption) | refine FrameOpt.kept ?_ _ (by assumption) | refine FrameOut.kept ?_ _ (by assumption)))

end

end Sys2Proof.Machine
end

