-- ==== Sys2Proof/Laws/Frames4.lean ====
section
/-! SUPPORT. What a command may change, function by function: one frame for every command, ending with the meanings of the table's rows.
`Frame ps r s` says that `s` differs from `r` at most in the parts `ps`, and keeps the queue, the stock code and the
canonical form of export memory. Each lemma carries a frame through one function of the model. -/

namespace Sys2Proof.Machine

section

set_option Elab.async false
set_option linter.all false

theorem vfChange_frame {enable : Bool} {n : Nat} {s : State} {pm : List Part} {z0 : State} (hk : Frame pm z0 s) (m_bar : Part.bar ∈ pm := by assumption) (m_host : Part.host ∈ pm := by assumption) (m_work : Part.work ∈ pm := by assumption) (m_win : Part.win ∈ pm := by assumption) : Frame pm z0 (vfChange enable n s) := by
  unfold vfChange
  try dsimp only
  repeat (any_goals (first | intro _ | with_reducible assumption | with_reducible refine resetBench_frame ?_ | with_reducible apply foldl_frame | with_reducible apply foldl_frame_fst | with_reducible apply Frame.ite | with_reducible apply Frame.iteFst | fail_if_no_progress (with_reducible refine Frame.set ?_) | split | dsimp only | refine Frame.ofFst ?_ (by assumption) | refine Frame.ofSnd2 ?_ (by assumption) | refine FrameOpt.kept ?_ _ (by assumption) | refine FrameOut.kept ?_ _ (by assumption)))

theorem execVfEnableChange_frame {t : Stamp} {enable : Bool} {numVfs : Nat} {s : State} {pm : List Part} {z0 : State} (hk : Frame pm z0 s) (m_time : Part.time ∈ pm := by assumption) (m_bar : Part.bar ∈ pm := by assumption) (m_host : Part.host ∈ pm := by assumption) (m_work : Part.work ∈ pm := by assumption) (m_win : Part.win ∈ pm := by assumption) : FrameOut pm z0 (execVfEnableChange t enable numVfs s) := by
  unfold execVfEnableChange
  try dsimp only
  repeat (any_goals (first | intro _ | with_reducible assumption | with_reducible refine run_frame ?_ ?_ | with_reducible refine vfChange_frame ?_ | with_reducible apply FrameOut.next | exact FrameOut.fault | with_reducible apply Frame.ite | with_reducible apply Frame.iteFst | with_reducible apply FrameOut.ite | fail_if_no_progress (with_reducible refine Frame.set ?_) | split | dsimp only | refine Frame.ofFst ?_ (by assumption) | refine Frame.ofSnd2 ?_ (by assumption) | refine FrameOpt.kept ?_ _ (by assumption) | refine FrameOut.kept ?_ _ (by assumption)))

theorem execPtmDialogue_frame {t : Stamp} {h : Nat} {s : State} {pm : List Part} {z0 : State} (hk : Frame pm z0 s) (m_time : Part.time ∈ pm := by assumption) : FrameOut pm z0 (execPtmDialogue t h s) := by
  unfold execPtmDialogue
  try dsimp only
  repeat (any_goals (first | intro _ | with_reducible assumption | with_reducible refine run_frame ?_ ?_ | with_reducible apply FrameOut.next | exact FrameOut.fault | with_reducible apply Frame.ite | with_reducible apply Frame.iteFst | with_reducible apply FrameOut.ite | fail_if_no_progress (with_reducible refine Frame.set ?_) | split | dsimp only | refine Frame.ofFst ?_ (by assumption) | refine Frame.ofSnd2 ?_ (by assumption) | refine FrameOpt.kept ?_ _ (by assumption) | refine FrameOut.kept ?_ _ (by assumption)))

theorem ideFailure_frame {stream : Nat} {tlpOnly : Bool} {s : State} {pm : List Part} {z0 : State} (hk : Frame pm z0 s) (m_host : Part.host ∈ pm := by assumption) (m_fault : Part.fault ∈ pm := by assumption) (m_out : Part.out ∈ pm := by assumption) : Frame pm z0 (ideFailure stream tlpOnly s) := by
  unfold ideFailure
  try dsimp only
  repeat (any_goals (first | intro _ | with_reducible assumption | with_reducible refine benchRingsError_frame ?_ | with_reducible apply foldl_frame | with_reducible apply foldl_frame_fst | with_reducible apply Frame.ite | with_reducible apply Frame.iteFst | fail_if_no_progress (with_reducible refine Frame.set ?_) | split | dsimp only | refine Frame.ofFst ?_ (by assumption) | refine Frame.ofSnd2 ?_ (by assumption) | refine FrameOpt.kept ?_ _ (by assumption) | refine FrameOut.kept ?_ _ (by assumption)))

theorem execIdeFailure_frame {t : Stamp} {stream : Nat} {tlpOnly : Bool} {s : State} {pm : List Part} {z0 : State} (hk : Frame pm z0 s) (m_time : Part.time ∈ pm := by assumption) (m_host : Part.host ∈ pm := by assumption) (m_fault : Part.fault ∈ pm := by assumption) (m_out : Part.out ∈ pm := by assumption) : FrameOut pm z0 (execIdeFailure t stream tlpOnly s) := by
  unfold execIdeFailure
  try dsimp only
  repeat (any_goals (first | intro _ | with_reducible assumption | with_reducible refine run_frame ?_ ?_ | with_reducible refine ideFailure_frame ?_ | with_reducible apply FrameOut.next | exact FrameOut.fault | with_reducible apply Frame.ite | with_reducible apply Frame.iteFst | with_reducible apply FrameOut.ite | fail_if_no_progress (with_reducible refine Frame.set ?_) | split | dsimp only | refine Frame.ofFst ?_ (by assumption) | refine Frame.ofSnd2 ?_ (by assumption) | refine FrameOpt.kept ?_ _ (by assumption) | refine FrameOut.kept ?_ _ (by assumption)))

theorem execCompletionInterrupt_frame {t : Stamp} {bench : Nat} {s : State} {pm : List Part} {z0 : State} (hk : Frame pm z0 s) (m_time : Part.time ∈ pm := by assumption) (m_host : Part.host ∈ pm := by assumption) (m_out : Part.out ∈ pm := by assumption) : FrameOut pm z0 (execCompletionInterrupt t bench s) := by
  unfold execCompletionInterrupt
  try dsimp only
  repeat (any_goals (first | intro _ | with_reducible assumption | with_reducible refine run_frame ?_ ?_ | with_reducible refine cqVector_frame ?_ | with_reducible refine setCq_frame ?_ | with_reducible apply FrameOut.next | exact FrameOut.fault | with_reducible apply Frame.ite | with_reducible apply Frame.iteFst | with_reducible apply FrameOut.ite | fail_if_no_progress (with_reducible refine Frame.set ?_) | split | dsimp only | refine Frame.ofFst ?_ (by assumption) | refine Frame.ofSnd2 ?_ (by assumption) | refine FrameOpt.kept ?_ _ (by assumption) | refine FrameOut.kept ?_ _ (by assumption)))

theorem execCompletionRecordDrain_frame {t : Stamp} {bench : Nat} {consumer : Nat} {s : State} {pm : List Part} {z0 : State} (hk : Frame pm z0 s) (m_time : Part.time ∈ pm := by assumption) (m_host : Part.host ∈ pm := by assumption) (m_out : Part.out ∈ pm := by assumption) : FrameOut pm z0 (execCompletionRecordDrain t bench consumer s) := by
  unfold execCompletionRecordDrain
  try dsimp only
  repeat (any_goals (first | intro _ | with_reducible assumption | with_reducible refine run_frame ?_ ?_ | with_reducible refine setCq_frame ?_ | with_reducible refine drainRecords_frame ?_ | with_reducible apply FrameOut.next | exact FrameOut.fault | with_reducible apply Frame.ite | with_reducible apply Frame.iteFst | with_reducible apply FrameOut.ite | fail_if_no_progress (with_reducible refine Frame.set ?_) | split | dsimp only | refine Frame.ofFst ?_ (by assumption) | refine Frame.ofSnd2 ?_ (by assumption) | refine FrameOpt.kept ?_ _ (by assumption) | refine FrameOut.kept ?_ _ (by assumption)))

theorem loseFlash_frame {s : State} {b : Nat} {pm : List Part} {z0 : State} (hk : Frame pm z0 s) (m_work : Part.work ∈ pm := by assumption) (m_tier : Part.tier ∈ pm := by assumption) (m_shards : Part.shards ∈ pm := by assumption) : Frame pm z0 (loseFlash s b) := by
  unfold loseFlash
  try dsimp only
  repeat (any_goals (first | intro _ | with_reducible assumption | with_reducible apply Frame.ite | with_reducible apply Frame.iteFst | fail_if_no_progress (with_reducible refine Frame.set ?_) | split | dsimp only | refine Frame.ofFst ?_ (by assumption) | refine Frame.ofSnd2 ?_ (by assumption) | refine FrameOpt.kept ?_ _ (by assumption) | refine FrameOut.kept ?_ _ (by assumption)))

theorem eraseKey_frame {s : State} {b : Nat} {pm : List Part} {z0 : State} (hk : Frame pm z0 s) (m_work : Part.work ∈ pm := by assumption) (m_tier : Part.tier ∈ pm := by assumption) (m_shards : Part.shards ∈ pm := by assumption) (m_sec : Part.sec ∈ pm := by assumption) : Frame pm z0 (eraseKey s b) := by
  unfold eraseKey
  try dsimp only
  repeat (any_goals (first | intro _ | with_reducible assumption | with_reducible refine loseFlash_frame ?_ | with_reducible apply Frame.ite | with_reducible apply Frame.iteFst | fail_if_no_progress (with_reducible refine Frame.set ?_) | split | dsimp only | refine Frame.ofFst ?_ (by assumption) | refine Frame.ofSnd2 ?_ (by assumption) | refine FrameOpt.kept ?_ _ (by assumption) | refine FrameOut.kept ?_ _ (by assumption)))

theorem eraseAct_frame {s : State} {all : Bool} {b : Nat} {pm : List Part} {z0 : State} (hk : Frame pm z0 s) (m_work : Part.work ∈ pm := by assumption) (m_tier : Part.tier ∈ pm := by assumption) (m_shards : Part.shards ∈ pm := by assumption) (m_sec : Part.sec ∈ pm := by assumption) : Frame pm z0 (eraseAct s all b).1 := by
  unfold eraseAct
  try dsimp only
  repeat (any_goals (first | intro _ | with_reducible assumption | with_reducible refine eraseKey_frame ?_ | with_reducible apply foldl_frame | with_reducible apply foldl_frame_fst | with_reducible apply Frame.ite | with_reducible apply Frame.iteFst | fail_if_no_progress (with_reducible refine Frame.set ?_) | split | dsimp only | refine Frame.ofFst ?_ (by assumption) | refine Frame.ofSnd2 ?_ (by assumption) | refine FrameOpt.kept ?_ _ (by assumption) | refine FrameOut.kept ?_ _ (by assumption)))

theorem eraseStep_frame {s : State} {e : Bool × Nat} {pm : List Part} {z0 : State} (hk : Frame pm z0 s) (m_work : Part.work ∈ pm := by assumption) (m_tier : Part.tier ∈ pm := by assumption) (m_shards : Part.shards ∈ pm := by assumption) (m_sec : Part.sec ∈ pm := by assumption) : Frame pm z0 (eraseStep s e) := by
  unfold eraseStep
  try dsimp only
  repeat (any_goals (first | intro _ | with_reducible assumption | with_reducible refine eraseAct_frame ?_ | with_reducible apply Frame.ite | with_reducible apply Frame.iteFst | fail_if_no_progress (with_reducible refine Frame.set ?_) | split | dsimp only | refine Frame.ofFst ?_ (by assumption) | refine Frame.ofSnd2 ?_ (by assumption) | refine FrameOpt.kept ?_ _ (by assumption) | refine FrameOut.kept ?_ _ (by assumption)))

theorem askErase_frame {t : Stamp} {value : Word} {s : State} {pm : List Part} {z0 : State} (hk : Frame pm z0 s) (m_work : Part.work ∈ pm := by assumption) (m_tier : Part.tier ∈ pm := by assumption) (m_shards : Part.shards ∈ pm := by assumption) (m_sec : Part.sec ∈ pm := by assumption) : Frame pm z0 (askErase t value s) := by
  unfold askErase
  try dsimp only
  repeat (any_goals (first | intro _ | with_reducible assumption | with_reducible refine eraseStep_frame ?_ | with_reducible apply Frame.ite | with_reducible apply Frame.iteFst | fail_if_no_progress (with_reducible refine Frame.set ?_) | split | dsimp only | refine Frame.ofFst ?_ (by assumption) | refine Frame.ofSnd2 ?_ (by assumption) | refine FrameOpt.kept ?_ _ (by assumption) | refine FrameOut.kept ?_ _ (by assumption)))

theorem execScKeyCtrlErase_frame {t : Stamp} {fn : Fn} {value : Word} {s : State} {pm : List Part} {z0 : State} (hk : Frame pm z0 s) (m_time : Part.time ∈ pm := by assumption) (m_bar : Part.bar ∈ pm := by assumption) (m_work : Part.work ∈ pm := by assumption) (m_tier : Part.tier ∈ pm := by assumption) (m_shards : Part.shards ∈ pm := by assumption) (m_fault : Part.fault ∈ pm := by assumption) (m_sec : Part.sec ∈ pm := by assumption) (m_out : Part.out ∈ pm := by assumption) : FrameOut pm z0 (execScKeyCtrlErase t fn value s) := by
  unfold execScKeyCtrlErase
  try dsimp only
  repeat (any_goals (first | intro _ | with_reducible assumption | with_reducible refine pfWrite_frame ?_ ?_ | with_reducible refine askErase_frame ?_ | with_reducible apply FrameOut.next | exact FrameOut.fault | with_reducible apply Frame.ite | with_reducible apply Frame.iteFst | with_reducible apply FrameOut.ite | fail_if_no_progress (with_reducible refine Frame.set ?_) | split | dsimp only | refine Frame.ofFst ?_ (by assumption) | refine Frame.ofSnd2 ?_ (by assumption) | refine FrameOpt.kept ?_ _ (by assumption) | refine FrameOut.kept ?_ _ (by assumption)))

theorem connectStep_frame {s : State} {t : Transport} {step : Nat} {body : optParam (List Nat) []} {pm : List Part} {z0 : State} (hk : Frame pm z0 s) (m_sec : Part.sec ∈ pm := by assumption) : Frame pm z0 (connectStep s t step body).1 := by
  unfold connectStep
  try dsimp only
  repeat (any_goals (first | intro _ | with_reducible assumption | with_reducible apply Frame.ite | with_reducible apply Frame.iteFst | fail_if_no_progress (with_reducible refine Frame.set ?_) | split | dsimp only | refine Frame.ofFst ?_ (by assumption) | refine Frame.ofSnd2 ?_ (by assumption) | refine FrameOpt.kept ?_ _ (by assumption) | refine FrameOut.kept ?_ _ (by assumption)))

theorem needsConnection_frame {s : State} {t : Transport} {f : State → SideOut} {pm : List Part} {z0 : State} (hf : ∀ (z : State) (x0 : State), Frame pm z x0 → Frame pm z (f x0).1) (hk : Frame pm z0 s) : Frame pm z0 (needsConnection s t f).1 := by
  unfold needsConnection
  try dsimp only
  repeat (any_goals (first | intro _ | with_reducible assumption | with_reducible apply hf | with_reducible apply Frame.ite | with_reducible apply Frame.iteFst | fail_if_no_progress (with_reducible refine Frame.set ?_) | split | dsimp only | refine Frame.ofFst ?_ (by assumption) | refine Frame.ofSnd2 ?_ (by assumption) | refine FrameOpt.kept ?_ _ (by assumption) | refine FrameOut.kept ?_ _ (by assumption)))

theorem newSession_frame {s : State} {t : Transport} {pm : List Part} {z0 : State} (hk : Frame pm z0 s) (m_sec : Part.sec ∈ pm := by assumption) : Frame pm z0 (newSession s t).1 := by
  unfold newSession
  try dsimp only
  repeat (any_goals (first | intro _ | with_reducible assumption | with_reducible apply Frame.ite | with_reducible apply Frame.iteFst | fail_if_no_progress (with_reducible refine Frame.set ?_) | split | dsimp only | refine Frame.ofFst ?_ (by assumption) | refine Frame.ofSnd2 ?_ (by assumption) | refine FrameOpt.kept ?_ _ (by assumption) | refine FrameOut.kept ?_ _ (by assumption)))

theorem inSession_frame {s : State} {id : Nat} {finished : Bool} {f : Session → SideOut} {pm : List Part} {z0 : State} (hf : ∀ (x0 : Session), Frame pm z0 (f x0).1) (hk : Frame pm z0 s) : Frame pm z0 (inSession s id finished f).1 := by
  unfold inSession
  try dsimp only
  repeat (any_goals (first | intro _ | with_reducible assumption | with_reducible apply hf | with_reducible apply Frame.ite | with_reducible apply Frame.iteFst | fail_if_no_progress (with_reducible refine Frame.set ?_) | split | dsimp only | refine Frame.ofFst ?_ (by assumption) | refine Frame.ofSnd2 ?_ (by assumption) | refine FrameOpt.kept ?_ _ (by assumption) | refine FrameOut.kept ?_ _ (by assumption)))

theorem ideKeyed_frame {s : State} {stream : Nat} {rids : List Fn} {key : Bool} {pm : List Part} {z0 : State} (hk : Frame pm z0 s) (m_host : Part.host ∈ pm := by assumption) (m_fault : Part.fault ∈ pm := by assumption) (m_out : Part.out ∈ pm := by assumption) : Frame pm z0 (ideKeyed s stream rids key) := by
  unfold ideKeyed
  try dsimp only
  repeat (any_goals (first | intro _ | with_reducible assumption | with_reducible refine ideFailure_frame ?_ | with_reducible apply Frame.ite | with_reducible apply Frame.iteFst | fail_if_no_progress (with_reducible refine Frame.set ?_) | split | dsimp only | refine Frame.ofFst ?_ (by assumption) | refine Frame.ofSnd2 ?_ (by assumption) | refine FrameOpt.kept ?_ _ (by assumption) | refine FrameOut.kept ?_ _ (by assumption)))

theorem selectAlgorithms_frame {s : State} {t : Transport} {offers : List SpdmAlg} {pm : List Part} {z0 : State} (hk : Frame pm z0 s) (m_sec : Part.sec ∈ pm := by assumption) : Frame pm z0 (selectAlgorithms s t offers).1 := by
  unfold selectAlgorithms
  try dsimp only
  repeat (any_goals (first | intro _ | with_reducible assumption | with_reducible refine connectStep_frame ?_ | with_reducible apply Frame.ite | with_reducible apply Frame.iteFst | fail_if_no_progress (with_reducible refine Frame.set ?_) | split | dsimp only | refine Frame.ofFst ?_ (by assumption) | refine Frame.ofSnd2 ?_ (by assumption) | refine FrameOpt.kept ?_ _ (by assumption) | refine FrameOut.kept ?_ _ (by assumption)))

theorem certificatePortion_frame {s : State} {slot : Nat} {off : Nat} {len : Nat} {pm : List Part} {z0 : State} (hk : Frame pm z0 s) : Frame pm z0 (certificatePortion s slot off len).1 := by
  unfold certificatePortion
  try dsimp only
  repeat (any_goals (first | intro _ | with_reducible assumption | with_reducible apply Frame.ite | with_reducible apply Frame.iteFst | fail_if_no_progress (with_reducible refine Frame.set ?_) | split | dsimp only | refine Frame.ofFst ?_ (by assumption) | refine Frame.ofSnd2 ?_ (by assumption) | refine FrameOpt.kept ?_ _ (by assumption) | refine FrameOut.kept ?_ _ (by assumption)))

theorem spdmReq_frame {s : State} {t : Transport} {a2 : SideReq} {pm : List Part} {z0 : State} (hk : Frame pm z0 s) (m_host : Part.host ∈ pm := by assumption) (m_fault : Part.fault ∈ pm := by assumption) (m_sec : Part.sec ∈ pm := by assumption) (m_out : Part.out ∈ pm := by assumption) (m_fresh : Part.fresh ∈ pm := by assumption) : Frame pm z0 (spdmReq s t a2).1 := by
  unfold spdmReq
  try dsimp only
  repeat (any_goals (first | intro _ | with_reducible assumption | with_reducible refine connectStep_frame ?_ | with_reducible refine selectAlgorithms_frame ?_ | with_reducible refine needsConnection_frame ?_ ?_ | with_reducible refine certificatePortion_frame ?_ | with_reducible refine State_bump_frame ?_ | with_reducible refine newSession_frame ?_ | with_reducible refine inSession_frame ?_ ?_ | with_reducible refine ideKeyed_frame ?_ | with_reducible apply Frame.ite | with_reducible apply Frame.iteFst | fail_if_no_progress (with_reducible refine Frame.set ?_) | split | dsimp only | refine Frame.ofFst ?_ (by assumption) | refine Frame.ofSnd2 ?_ (by assumption) | refine FrameOpt.kept ?_ _ (by assumption) | refine FrameOut.kept ?_ _ (by assumption)))

theorem spdmAnswer_frame {pm : List Part} {s : State} {t : Transport} {r : SideReq} {z0 : State} (hk : Frame pm z0 s) (m_host : Part.host ∈ pm := by assumption) (m_fault : Part.fault ∈ pm := by assumption) (m_sec : Part.sec ∈ pm := by assumption) (m_out : Part.out ∈ pm := by assumption) (m_fresh : Part.fresh ∈ pm := by assumption) : Frame pm z0 (spdmAnswer s t r).1 := by
  unfold spdmAnswer signed
  repeat (any_goals (first | with_reducible exact hk | exact spdmReq_frame hk | split | dsimp only))

theorem readRegs_frame {s : State} {c : MgmtCmd} {off : Nat} {bytes : Nat} {pm : List Part} {z0 : State} (hk : Frame pm z0 s) (m_time : Part.time ∈ pm := by assumption) (m_mgmt : Part.mgmt ∈ pm := by assumption) (m_out : Part.out ∈ pm := by assumption) : Frame pm z0 (readRegs s c off bytes) := by
  unfold readRegs
  try dsimp only
  repeat (any_goals (first | intro _ | with_reducible assumption | with_reducible refine respond_frame ?_ | with_reducible apply Frame.ite | with_reducible apply Frame.iteFst | fail_if_no_progress (with_reducible refine Frame.set ?_) | split | dsimp only | refine Frame.ofFst ?_ (by assumption) | refine Frame.ofSnd2 ?_ (by assumption) | refine FrameOpt.kept ?_ _ (by assumption) | refine FrameOut.kept ?_ _ (by assumption)))

theorem setSigPolicy_frame {s : State} {b : Nat} {require : Bool} {key : BitVec 256} {pm : List Part} {z0 : State} (hk : Frame pm z0 s) (m_bar : Part.bar ∈ pm := by assumption) : Frame pm z0 (setSigPolicy s b require key).1 := by
  unfold setSigPolicy
  try dsimp only
  repeat (any_goals (first | intro _ | with_reducible assumption | with_reducible refine putReg_frame ?_ | with_reducible apply foldl_frame | with_reducible apply foldl_frame_fst | with_reducible apply Frame.ite | with_reducible apply Frame.iteFst | fail_if_no_progress (with_reducible refine Frame.set ?_) | split | dsimp only | refine Frame.ofFst ?_ (by assumption) | refine Frame.ofSnd2 ?_ (by assumption) | refine FrameOpt.kept ?_ _ (by assumption) | refine FrameOut.kept ?_ _ (by assumption)))

theorem clearQuarantine_frame {s : State} {u : UnitId} {pm : List Part} {z0 : State} (hk : Frame pm z0 s) (m_fault : Part.fault ∈ pm := by assumption) : Frame pm z0 (clearQuarantine s u) := by
  unfold clearQuarantine
  try dsimp only
  repeat (any_goals (first | intro _ | with_reducible assumption | with_reducible apply Frame.ite | with_reducible apply Frame.iteFst | fail_if_no_progress (with_reducible refine Frame.set ?_) | split | dsimp only | refine Frame.ofFst ?_ (by assumption) | refine Frame.ofSnd2 ?_ (by assumption) | refine FrameOpt.kept ?_ _ (by assumption) | refine FrameOut.kept ?_ _ (by assumption)))

theorem holdCmd_frame {s : State} {c : MgmtCmd} {o : MgmtOp} {pm : List Part} {z0 : State} (hk : Frame pm z0 s) (m_mgmt : Part.mgmt ∈ pm := by assumption) : Frame pm z0 (holdCmd s c o) := by
  unfold holdCmd
  try dsimp only
  repeat (any_goals (first | intro _ | with_reducible assumption | with_reducible apply Frame.ite | with_reducible apply Frame.iteFst | fail_if_no_progress (with_reducible refine Frame.set ?_) | split | dsimp only | refine Frame.ofFst ?_ (by assumption) | refine Frame.ofSnd2 ?_ (by assumption) | refine FrameOpt.kept ?_ _ (by assumption) | refine FrameOut.kept ?_ _ (by assumption)))

theorem answer_frame {pm : List Part} {c : MgmtCmd} {r : State × Status} {z0 : State} (hk : Frame pm z0 r.1) (m_mgmt : Part.mgmt ∈ pm := by assumption) (m_out : Part.out ∈ pm := by assumption) : Frame pm z0 (answer c r) := respond_frame hk

theorem mgmtAct_frame {s : State} {c : MgmtCmd} {a2 : MgmtOp} {pm : List Part} {z0 : State} (hk : Frame pm z0 s) (m_time : Part.time ∈ pm := by assumption) (m_bar : Part.bar ∈ pm := by assumption) (m_host : Part.host ∈ pm := by assumption) (m_benches : Part.benches ∈ pm := by assumption) (m_work : Part.work ∈ pm := by assumption) (m_plan : Part.plan ∈ pm := by assumption) (m_haul : Part.haul ∈ pm := by assumption) (m_tier : Part.tier ∈ pm := by assumption) (m_shards : Part.shards ∈ pm := by assumption) (m_fab : Part.fab ∈ pm := by assumption) (m_win : Part.win ∈ pm := by assumption) (m_fw : Part.fw ∈ pm := by assumption) (m_fault : Part.fault ∈ pm := by assumption) (m_sec : Part.sec ∈ pm := by assumption) (m_pwr : Part.pwr ∈ pm := by assumption) (m_mgmt : Part.mgmt ∈ pm := by assumption) (m_out : Part.out ∈ pm := by assumption) (m_spent : Part.spent ∈ pm := by assumption) : Frame pm z0 (mgmtAct s c a2) := by
  unfold mgmtAct
  try dsimp only
  repeat (any_goals (first | intro _ | with_reducible assumption | with_reducible refine readRegs_frame ?_ | with_reducible refine respond_frame ?_ | with_reducible refine stageBench_frame ?_ | with_reducible refine stageRoute_frame ?_ | with_reducible refine stageExport_frame ?_ | with_reducible refine stageRackmap_frame ?_ | with_reducible refine stageEvac_frame ?_ | with_reducible refine discardStage_frame ?_ | with_reducible refine setSigPolicy_frame ?_ | with_reducible refine holdCmd_frame ?_ | with_reducible refine eraseAct_frame ?_ | with_reducible refine coldReset_frame ?_ | with_reducible refine warmReset_frame ?_ | with_reducible refine enterKeep_frame ?_ | with_reducible refine answer_frame ?_ | with_reducible apply Frame.ite | with_reducible apply Frame.iteFst | fail_if_no_progress (with_reducible refine Frame.set ?_) | split | dsimp only | refine Frame.ofFst ?_ (by assumption) | refine Frame.ofSnd2 ?_ (by assumption) | refine FrameOpt.kept ?_ _ (by assumption) | refine FrameOut.kept ?_ _ (by assumption)))

theorem mgmtTake_frame {s : State} {c : MgmtCmd} {o : MgmtOp} {pm : List Part} {z0 : State} (hk : Frame pm z0 s) (m_time : Part.time ∈ pm := by assumption) (m_bar : Part.bar ∈ pm := by assumption) (m_host : Part.host ∈ pm := by assumption) (m_benches : Part.benches ∈ pm := by assumption) (m_work : Part.work ∈ pm := by assumption) (m_plan : Part.plan ∈ pm := by assumption) (m_haul : Part.haul ∈ pm := by assumption) (m_tier : Part.tier ∈ pm := by assumption) (m_shards : Part.shards ∈ pm := by assumption) (m_fab : Part.fab ∈ pm := by assumption) (m_win : Part.win ∈ pm := by assumption) (m_fw : Part.fw ∈ pm := by assumption) (m_fault : Part.fault ∈ pm := by assumption) (m_sec : Part.sec ∈ pm := by assumption) (m_pwr : Part.pwr ∈ pm := by assumption) (m_mgmt : Part.mgmt ∈ pm := by assumption) (m_out : Part.out ∈ pm := by assumption) (m_spent : Part.spent ∈ pm := by assumption) : Frame pm z0 (mgmtTake s c o) := by
  unfold mgmtTake
  try dsimp only
  repeat (any_goals (first | intro _ | with_reducible assumption | with_reducible refine respond_frame ?_ | with_reducible refine mgmtAct_frame ?_ | with_reducible apply Frame.ite | with_reducible apply Frame.iteFst | fail_if_no_progress (with_reducible refine Frame.set ?_) | split | dsimp only | refine Frame.ofFst ?_ (by assumption) | refine Frame.ofSnd2 ?_ (by assumption) | refine FrameOpt.kept ?_ _ (by assumption) | refine FrameOut.kept ?_ _ (by assumption)))

theorem mgmtCommit_frame {s : State} {c : MgmtCmd} {n : Nat} {a3 : MgmtOp} {pm : List Part} {z0 : State} (hk : Frame pm z0 s) (m_work : Part.work ∈ pm := by assumption) (m_tier : Part.tier ∈ pm := by assumption) (m_shards : Part.shards ∈ pm := by assumption) (m_fab : Part.fab ∈ pm := by assumption) (m_fault : Part.fault ∈ pm := by assumption) (m_sec : Part.sec ∈ pm := by assumption) (m_mgmt : Part.mgmt ∈ pm := by assumption) (m_out : Part.out ∈ pm := by assumption) : Frame pm z0 (mgmtCommit s c n a3) := by
  unfold mgmtCommit
  try dsimp only
  repeat (any_goals (first | intro _ | with_reducible assumption | with_reducible refine sealEpoch_frame ?_ | with_reducible refine clearQuarantine_frame ?_ | with_reducible refine eraseAct_frame ?_ | with_reducible refine answer_frame ?_ | with_reducible apply Frame.ite | with_reducible apply Frame.iteFst | fail_if_no_progress (with_reducible refine Frame.set ?_) | split | dsimp only | refine Frame.ofFst ?_ (by assumption) | refine Frame.ofSnd2 ?_ (by assumption) | refine FrameOpt.kept ?_ _ (by assumption) | refine FrameOut.kept ?_ _ (by assumption)))

theorem latchWake_frame {s : State} {pm : List Part} {z0 : State} (hk : Frame pm z0 s) (m_pwr : Part.pwr ∈ pm := by assumption) : Frame pm z0 (latchWake s) := by
  unfold latchWake
  try dsimp only
  repeat (any_goals (first | intro _ | with_reducible assumption | with_reducible refine wake_frame ?_ | with_reducible apply Frame.ite | with_reducible apply Frame.iteFst | fail_if_no_progress (with_reducible refine Frame.set ?_) | split | dsimp only | refine Frame.ofFst ?_ (by assumption) | refine Frame.ofSnd2 ?_ (by assumption) | refine FrameOpt.kept ?_ _ (by assumption) | refine FrameOut.kept ?_ _ (by assumption)))

theorem mgmtLand_frame {c : MgmtCmd} {o : MgmtOp} {s : State} {pm : List Part} {z0 : State} (hk : Frame pm z0 s) (m_time : Part.time ∈ pm := by assumption) (m_bar : Part.bar ∈ pm := by assumption) (m_host : Part.host ∈ pm := by assumption) (m_benches : Part.benches ∈ pm := by assumption) (m_work : Part.work ∈ pm := by assumption) (m_plan : Part.plan ∈ pm := by assumption) (m_haul : Part.haul ∈ pm := by assumption) (m_tier : Part.tier ∈ pm := by assumption) (m_shards : Part.shards ∈ pm := by assumption) (m_fab : Part.fab ∈ pm := by assumption) (m_win : Part.win ∈ pm := by assumption) (m_fw : Part.fw ∈ pm := by assumption) (m_fault : Part.fault ∈ pm := by assumption) (m_sec : Part.sec ∈ pm := by assumption) (m_pwr : Part.pwr ∈ pm := by assumption) (m_mgmt : Part.mgmt ∈ pm := by assumption) (m_out : Part.out ∈ pm := by assumption) (m_spent : Part.spent ∈ pm := by assumption) : Frame pm z0 (mgmtLand c o s) := by
  unfold mgmtLand
  try dsimp only
  repeat (any_goals (first | intro _ | with_reducible assumption | with_reducible refine readRegs_frame ?_ | with_reducible refine badAccess_frame ?_ | with_reducible refine latchWake_frame ?_ | with_reducible refine mgmtTake_frame ?_ | with_reducible apply Frame.ite | with_reducible apply Frame.iteFst | fail_if_no_progress (with_reducible refine Frame.set ?_) | split | dsimp only | refine Frame.ofFst ?_ (by assumption) | refine Frame.ofSnd2 ?_ (by assumption) | refine FrameOpt.kept ?_ _ (by assumption) | refine FrameOut.kept ?_ _ (by assumption)))

theorem mgmtRow_frame {c : MgmtCmd} {o : MgmtOp} {s : State} {pm : List Part} {z0 : State} (hk : Frame pm z0 s) (m_time : Part.time ∈ pm := by assumption) (m_bar : Part.bar ∈ pm := by assumption) (m_host : Part.host ∈ pm := by assumption) (m_benches : Part.benches ∈ pm := by assumption) (m_work : Part.work ∈ pm := by assumption) (m_plan : Part.plan ∈ pm := by assumption) (m_haul : Part.haul ∈ pm := by assumption) (m_tier : Part.tier ∈ pm := by assumption) (m_shards : Part.shards ∈ pm := by assumption) (m_fab : Part.fab ∈ pm := by assumption) (m_win : Part.win ∈ pm := by assumption) (m_fw : Part.fw ∈ pm := by assumption) (m_fault : Part.fault ∈ pm := by assumption) (m_sec : Part.sec ∈ pm := by assumption) (m_pwr : Part.pwr ∈ pm := by assumption) (m_mgmt : Part.mgmt ∈ pm := by assumption) (m_out : Part.out ∈ pm := by assumption) (m_spent : Part.spent ∈ pm := by assumption) : FrameOut pm z0 (mgmtRow c o s) := by
  unfold mgmtRow
  try dsimp only
  repeat (any_goals (first | intro _ | with_reducible assumption | with_reducible refine run_frame ?_ ?_ | with_reducible refine mgmtLand_frame ?_ | with_reducible apply FrameOut.next | exact FrameOut.fault | with_reducible apply Frame.ite | with_reducible apply Frame.iteFst | with_reducible apply FrameOut.ite | fail_if_no_progress (with_reducible refine Frame.set ?_) | split | dsimp only | refine Frame.ofFst ?_ (by assumption) | refine Frame.ofSnd2 ?_ (by assumption) | refine FrameOpt.kept ?_ _ (by assumption) | refine FrameOut.kept ?_ _ (by assumption)))

theorem execReadRegs_frame {c : MgmtCmd} {off : Nat} {bytes : Nat} {s : State} {pm : List Part} {z0 : State} (hk : Frame pm z0 s) (m_time : Part.time ∈ pm := by assumption) (m_bar : Part.bar ∈ pm := by assumption) (m_host : Part.host ∈ pm := by assumption) (m_benches : Part.benches ∈ pm := by assumption) (m_work : Part.work ∈ pm := by assumption) (m_plan : Part.plan ∈ pm := by assumption) (m_haul : Part.haul ∈ pm := by assumption) (m_tier : Part.tier ∈ pm := by assumption) (m_shards : Part.shards ∈ pm := by assumption) (m_fab : Part.fab ∈ pm := by assumption) (m_win : Part.win ∈ pm := by assumption) (m_fw : Part.fw ∈ pm := by assumption) (m_fault : Part.fault ∈ pm := by assumption) (m_sec : Part.sec ∈ pm := by assumption) (m_pwr : Part.pwr ∈ pm := by assumption) (m_mgmt : Part.mgmt ∈ pm := by assumption) (m_out : Part.out ∈ pm := by assumption) (m_spent : Part.spent ∈ pm := by assumption) : FrameOut pm z0 (execReadRegs c off bytes s) := by
  unfold execReadRegs
  try dsimp only
  repeat (any_goals (first | intro _ | with_reducible assumption | with_reducible refine mgmtRow_frame ?_ | with_reducible apply FrameOut.next | exact FrameOut.fault | with_reducible apply Frame.ite | with_reducible apply Frame.iteFst | with_reducible apply FrameOut.ite | fail_if_no_progress (with_reducible refine Frame.set ?_) | split | dsimp only | refine Frame.ofFst ?_ (by assumption) | refine Frame.ofSnd2 ?_ (by assumption) | refine FrameOpt.kept ?_ _ (by assumption) | refine FrameOut.kept ?_ _ (by assumption)))

theorem execReadLog_frame {c : MgmtCmd} {seq : Nat} {s : State} {pm : List Part} {z0 : State} (hk : Frame pm z0 s) (m_time : Part.time ∈ pm := by assumption) (m_bar : Part.bar ∈ pm := by assumption) (m_host : Part.host ∈ pm := by assumption) (m_benches : Part.benches ∈ pm := by assumption) (m_work : Part.work ∈ pm := by assumption) (m_plan : Part.plan ∈ pm := by assumption) (m_haul : Part.haul ∈ pm := by assumption) (m_tier : Part.tier ∈ pm := by assumption) (m_shards : Part.shards ∈ pm := by assumption) (m_fab : Part.fab ∈ pm := by assumption) (m_win : Part.win ∈ pm := by assumption) (m_fw : Part.fw ∈ pm := by assumption) (m_fault : Part.fault ∈ pm := by assumption) (m_sec : Part.sec ∈ pm := by assumption) (m_pwr : Part.pwr ∈ pm := by assumption) (m_mgmt : Part.mgmt ∈ pm := by assumption) (m_out : Part.out ∈ pm := by assumption) (m_spent : Part.spent ∈ pm := by assumption) : FrameOut pm z0 (execReadLog c seq s) := by
  unfold execReadLog
  try dsimp only
  repeat (any_goals (first | intro _ | with_reducible assumption | with_reducible refine mgmtRow_frame ?_ | with_reducible apply FrameOut.next | exact FrameOut.fault | with_reducible apply Frame.ite | with_reducible apply Frame.iteFst | with_reducible apply FrameOut.ite | fail_if_no_progress (with_reducible refine Frame.set ?_) | split | dsimp only | refine Frame.ofFst ?_ (by assumption) | refine Frame.ofSnd2 ?_ (by assumption) | refine FrameOpt.kept ?_ _ (by assumption) | refine FrameOut.kept ?_ _ (by assumption)))

theorem execReadMeter_frame {c : MgmtCmd} {seq : Nat} {s : State} {pm : List Part} {z0 : State} (hk : Frame pm z0 s) (m_time : Part.time ∈ pm := by assumption) (m_bar : Part.bar ∈ pm := by assumption) (m_host : Part.host ∈ pm := by assumption) (m_benches : Part.benches ∈ pm := by assumption) (m_work : Part.work ∈ pm := by assumption) (m_plan : Part.plan ∈ pm := by assumption) (m_haul : Part.haul ∈ pm := by assumption) (m_tier : Part.tier ∈ pm := by assumption) (m_shards : Part.shards ∈ pm := by assumption) (m_fab : Part.fab ∈ pm := by assumption) (m_win : Part.win ∈ pm := by assumption) (m_fw : Part.fw ∈ pm := by assumption) (m_fault : Part.fault ∈ pm := by assumption) (m_sec : Part.sec ∈ pm := by assumption) (m_pwr : Part.pwr ∈ pm := by assumption) (m_mgmt : Part.mgmt ∈ pm := by assumption) (m_out : Part.out ∈ pm := by assumption) (m_spent : Part.spent ∈ pm := by assumption) : FrameOut pm z0 (execReadMeter c seq s) := by
  unfold execReadMeter
  try dsimp only
  repeat (any_goals (first | intro _ | with_reducible assumption | with_reducible refine mgmtRow_frame ?_ | with_reducible apply FrameOut.next | exact FrameOut.fault | with_reducible apply Frame.ite | with_reducible apply Frame.iteFst | with_reducible apply FrameOut.ite | fail_if_no_progress (with_reducible refine Frame.set ?_) | split | dsimp only | refine Frame.ofFst ?_ (by assumption) | refine Frame.ofSnd2 ?_ (by assumption) | refine FrameOpt.kept ?_ _ (by assumption) | refine FrameOut.kept ?_ _ (by assumption)))

theorem execStageBench_frame {c : MgmtCmd} {epoch : Nat} {record : BitVec 1024} {s : State} {pm : List Part} {z0 : State} (hk : Frame pm z0 s) (m_time : Part.time ∈ pm := by assumption) (m_bar : Part.bar ∈ pm := by assumption) (m_host : Part.host ∈ pm := by assumption) (m_benches : Part.benches ∈ pm := by assumption) (m_work : Part.work ∈ pm := by assumption) (m_plan : Part.plan ∈ pm := by assumption) (m_haul : Part.haul ∈ pm := by assumption) (m_tier : Part.tier ∈ pm := by assumption) (m_shards : Part.shards ∈ pm := by assumption) (m_fab : Part.fab ∈ pm := by assumption) (m_win : Part.win ∈ pm := by assumption) (m_fw : Part.fw ∈ pm := by assumption) (m_fault : Part.fault ∈ pm := by assumption) (m_sec : Part.sec ∈ pm := by assumption) (m_pwr : Part.pwr ∈ pm := by assumption) (m_mgmt : Part.mgmt ∈ pm := by assumption) (m_out : Part.out ∈ pm := by assumption) (m_spent : Part.spent ∈ pm := by assumption) : FrameOut pm z0 (execStageBench c epoch record s) := by
  unfold execStageBench
  try dsimp only
  repeat (any_goals (first | intro _ | with_reducible assumption | with_reducible refine mgmtRow_frame ?_ | with_reducible apply FrameOut.next | exact FrameOut.fault | with_reducible apply Frame.ite | with_reducible apply Frame.iteFst | with_reducible apply FrameOut.ite | fail_if_no_progress (with_reducible refine Frame.set ?_) | split | dsimp only | refine Frame.ofFst ?_ (by assumption) | refine Frame.ofSnd2 ?_ (by assumption) | refine FrameOpt.kept ?_ _ (by assumption) | refine FrameOut.kept ?_ _ (by assumption)))

theorem execStageRoute_frame {c : MgmtCmd} {epoch : Nat} {first : Nat} {es : List Word} {s : State} {pm : List Part} {z0 : State} (hk : Frame pm z0 s) (m_time : Part.time ∈ pm := by assumption) (m_bar : Part.bar ∈ pm := by assumption) (m_host : Part.host ∈ pm := by assumption) (m_benches : Part.benches ∈ pm := by assumption) (m_work : Part.work ∈ pm := by assumption) (m_plan : Part.plan ∈ pm := by assumption) (m_haul : Part.haul ∈ pm := by assumption) (m_tier : Part.tier ∈ pm := by assumption) (m_shards : Part.shards ∈ pm := by assumption) (m_fab : Part.fab ∈ pm := by assumption) (m_win : Part.win ∈ pm := by assumption) (m_fw : Part.fw ∈ pm := by assumption) (m_fault : Part.fault ∈ pm := by assumption) (m_sec : Part.sec ∈ pm := by assumption) (m_pwr : Part.pwr ∈ pm := by assumption) (m_mgmt : Part.mgmt ∈ pm := by assumption) (m_out : Part.out ∈ pm := by assumption) (m_spent : Part.spent ∈ pm := by assumption) : FrameOut pm z0 (execStageRoute c epoch first es s) := by
  unfold execStageRoute
  try dsimp only
  repeat (any_goals (first | intro _ | with_reducible assumption | with_reducible refine mgmtRow_frame ?_ | with_reducible apply FrameOut.next | exact FrameOut.fault | with_reducible apply Frame.ite | with_reducible apply Frame.iteFst | with_reducible apply FrameOut.ite | fail_if_no_progress (with_reducible refine Frame.set ?_) | split | dsimp only | refine Frame.ofFst ?_ (by assumption) | refine Frame.ofSnd2 ?_ (by assumption) | refine FrameOpt.kept ?_ _ (by assumption) | refine FrameOut.kept ?_ _ (by assumption)))

theorem execStageExport_frame {c : MgmtCmd} {epoch : Nat} {region : BitVec 256} {s : State} {pm : List Part} {z0 : State} (hk : Frame pm z0 s) (m_time : Part.time ∈ pm := by assumption) (m_bar : Part.bar ∈ pm := by assumption) (m_host : Part.host ∈ pm := by assumption) (m_benches : Part.benches ∈ pm := by assumption) (m_work : Part.work ∈ pm := by assumption) (m_plan : Part.plan ∈ pm := by assumption) (m_haul : Part.haul ∈ pm := by assumption) (m_tier : Part.tier ∈ pm := by assumption) (m_shards : Part.shards ∈ pm := by assumption) (m_fab : Part.fab ∈ pm := by assumption) (m_win : Part.win ∈ pm := by assumption) (m_fw : Part.fw ∈ pm := by assumption) (m_fault : Part.fault ∈ pm := by assumption) (m_sec : Part.sec ∈ pm := by assumption) (m_pwr : Part.pwr ∈ pm := by assumption) (m_mgmt : Part.mgmt ∈ pm := by assumption) (m_out : Part.out ∈ pm := by assumption) (m_spent : Part.spent ∈ pm := by assumption) : FrameOut pm z0 (execStageExport c epoch region s) := by
  unfold execStageExport
  try dsimp only
  repeat (any_goals (first | intro _ | with_reducible assumption | with_reducible refine mgmtRow_frame ?_ | with_reducible apply FrameOut.next | exact FrameOut.fault | with_reducible apply Frame.ite | with_reducible apply Frame.iteFst | with_reducible apply FrameOut.ite | fail_if_no_progress (with_reducible refine Frame.set ?_) | split | dsimp only | refine Frame.ofFst ?_ (by assumption) | refine Frame.ofSnd2 ?_ (by assumption) | refine FrameOpt.kept ?_ _ (by assumption) | refine FrameOut.kept ?_ _ (by assumption)))

theorem execStageRackmap_frame {c : MgmtCmd} {epoch : Nat} {slots : List ModuleId} {s : State} {pm : List Part} {z0 : State} (hk : Frame pm z0 s) (m_time : Part.time ∈ pm := by assumption) (m_bar : Part.bar ∈ pm := by assumption) (m_host : Part.host ∈ pm := by assumption) (m_benches : Part.benches ∈ pm := by assumption) (m_work : Part.work ∈ pm := by assumption) (m_plan : Part.plan ∈ pm := by assumption) (m_haul : Part.haul ∈ pm := by assumption) (m_tier : Part.tier ∈ pm := by assumption) (m_shards : Part.shards ∈ pm := by assumption) (m_fab : Part.fab ∈ pm := by assumption) (m_win : Part.win ∈ pm := by assumption) (m_fw : Part.fw ∈ pm := by assumption) (m_fault : Part.fault ∈ pm := by assumption) (m_sec : Part.sec ∈ pm := by assumption) (m_pwr : Part.pwr ∈ pm := by assumption) (m_mgmt : Part.mgmt ∈ pm := by assumption) (m_out : Part.out ∈ pm := by assumption) (m_spent : Part.spent ∈ pm := by assumption) : FrameOut pm z0 (execStageRackmap c epoch slots s) := by
  unfold execStageRackmap
  try dsimp only
  repeat (any_goals (first | intro _ | with_reducible assumption | with_reducible refine mgmtRow_frame ?_ | with_reducible apply FrameOut.next | exact FrameOut.fault | with_reducible apply Frame.ite | with_reducible apply Frame.iteFst | with_reducible apply FrameOut.ite | fail_if_no_progress (with_reducible refine Frame.set ?_) | split | dsimp only | refine Frame.ofFst ?_ (by assumption) | refine Frame.ofSnd2 ?_ (by assumption) | refine FrameOpt.kept ?_ _ (by assumption) | refine FrameOut.kept ?_ _ (by assumption)))

theorem execStageEvac_frame {c : MgmtCmd} {epoch : Nat} {bench : Nat} {target : ModuleId} {targetBench : Nat} {s : State} {pm : List Part} {z0 : State} (hk : Frame pm z0 s) (m_time : Part.time ∈ pm := by assumption) (m_bar : Part.bar ∈ pm := by assumption) (m_host : Part.host ∈ pm := by assumption) (m_benches : Part.benches ∈ pm := by assumption) (m_work : Part.work ∈ pm := by assumption) (m_plan : Part.plan ∈ pm := by assumption) (m_haul : Part.haul ∈ pm := by assumption) (m_tier : Part.tier ∈ pm := by assumption) (m_shards : Part.shards ∈ pm := by assumption) (m_fab : Part.fab ∈ pm := by assumption) (m_win : Part.win ∈ pm := by assumption) (m_fw : Part.fw ∈ pm := by assumption) (m_fault : Part.fault ∈ pm := by assumption) (m_sec : Part.sec ∈ pm := by assumption) (m_pwr : Part.pwr ∈ pm := by assumption) (m_mgmt : Part.mgmt ∈ pm := by assumption) (m_out : Part.out ∈ pm := by assumption) (m_spent : Part.spent ∈ pm := by assumption) : FrameOut pm z0 (execStageEvac c epoch bench target targetBench s) := by
  unfold execStageEvac
  try dsimp only
  repeat (any_goals (first | intro _ | with_reducible assumption | with_reducible refine mgmtRow_frame ?_ | with_reducible apply FrameOut.next | exact FrameOut.fault | with_reducible apply Frame.ite | with_reducible apply Frame.iteFst | with_reducible apply FrameOut.ite | fail_if_no_progress (with_reducible refine Frame.set ?_) | split | dsimp only | refine Frame.ofFst ?_ (by assumption) | refine Frame.ofSnd2 ?_ (by assumption) | refine FrameOpt.kept ?_ _ (by assumption) | refine FrameOut.kept ?_ _ (by assumption)))

theorem execSealEpoch_frame {c : MgmtCmd} {epoch : Nat} {k : Nat} {s : State} {pm : List Part} {z0 : State} (hk : Frame pm z0 s) (m_time : Part.time ∈ pm := by assumption) (m_bar : Part.bar ∈ pm := by assumption) (m_host : Part.host ∈ pm := by assumption) (m_benches : Part.benches ∈ pm := by assumption) (m_work : Part.work ∈ pm := by assumption) (m_plan : Part.plan ∈ pm := by assumption) (m_haul : Part.haul ∈ pm := by assumption) (m_tier : Part.tier ∈ pm := by assumption) (m_shards : Part.shards ∈ pm := by assumption) (m_fab : Part.fab ∈ pm := by assumption) (m_win : Part.win ∈ pm := by assumption) (m_fw : Part.fw ∈ pm := by assumption) (m_fault : Part.fault ∈ pm := by assumption) (m_sec : Part.sec ∈ pm := by assumption) (m_pwr : Part.pwr ∈ pm := by assumption) (m_mgmt : Part.mgmt ∈ pm := by assumption) (m_out : Part.out ∈ pm := by assumption) (m_spent : Part.spent ∈ pm := by assumption) : FrameOut pm z0 (execSealEpoch c epoch k s) := by
  unfold execSealEpoch
  try dsimp only
  repeat (any_goals (first | intro _ | with_reducible assumption | with_reducible refine mgmtRow_frame ?_ | with_reducible apply FrameOut.next | exact FrameOut.fault | with_reducible apply Frame.ite | with_reducible apply Frame.iteFst | with_reducible apply FrameOut.ite | fail_if_no_progress (with_reducible refine Frame.set ?_) | split | dsimp only | refine Frame.ofFst ?_ (by assumption) | refine Frame.ofSnd2 ?_ (by assumption) | refine FrameOpt.kept ?_ _ (by assumption) | refine FrameOut.kept ?_ _ (by assumption)))

theorem execDiscardStage_frame {c : MgmtCmd} {epoch : Nat} {s : State} {pm : List Part} {z0 : State} (hk : Frame pm z0 s) (m_time : Part.time ∈ pm := by assumption) (m_bar : Part.bar ∈ pm := by assumption) (m_host : Part.host ∈ pm := by assumption) (m_benches : Part.benches ∈ pm := by assumption) (m_work : Part.work ∈ pm := by assumption) (m_plan : Part.plan ∈ pm := by assumption) (m_haul : Part.haul ∈ pm := by assumption) (m_tier : Part.tier ∈ pm := by assumption) (m_shards : Part.shards ∈ pm := by assumption) (m_fab : Part.fab ∈ pm := by assumption) (m_win : Part.win ∈ pm := by assumption) (m_fw : Part.fw ∈ pm := by assumption) (m_fault : Part.fault ∈ pm := by assumption) (m_sec : Part.sec ∈ pm := by assumption) (m_pwr : Part.pwr ∈ pm := by assumption) (m_mgmt : Part.mgmt ∈ pm := by assumption) (m_out : Part.out ∈ pm := by assumption) (m_spent : Part.spent ∈ pm := by assumption) : FrameOut pm z0 (execDiscardStage c epoch s) := by
  unfold execDiscardStage
  try dsimp only
  repeat (any_goals (first | intro _ | with_reducible assumption | with_reducible refine mgmtRow_frame ?_ | with_reducible apply FrameOut.next | exact FrameOut.fault | with_reducible apply Frame.ite | with_reducible apply Frame.iteFst | with_reducible apply FrameOut.ite | fail_if_no_progress (with_reducible refine Frame.set ?_) | split | dsimp only | refine Frame.ofFst ?_ (by assumption) | refine Frame.ofSnd2 ?_ (by assumption) | refine FrameOpt.kept ?_ _ (by assumption) | refine FrameOut.kept ?_ _ (by assumption)))

theorem execSetSigPolicy_frame {c : MgmtCmd} {bench : Nat} {require : Bool} {keyHash : BitVec 256} {s : State} {pm : List Part} {z0 : State} (hk : Frame pm z0 s) (m_time : Part.time ∈ pm := by assumption) (m_bar : Part.bar ∈ pm := by assumption) (m_host : Part.host ∈ pm := by assumption) (m_benches : Part.benches ∈ pm := by assumption) (m_work : Part.work ∈ pm := by assumption) (m_plan : Part.plan ∈ pm := by assumption) (m_haul : Part.haul ∈ pm := by assumption) (m_tier : Part.tier ∈ pm := by assumption) (m_shards : Part.shards ∈ pm := by assumption) (m_fab : Part.fab ∈ pm := by assumption) (m_win : Part.win ∈ pm := by assumption) (m_fw : Part.fw ∈ pm := by assumption) (m_fault : Part.fault ∈ pm := by assumption) (m_sec : Part.sec ∈ pm := by assumption) (m_pwr : Part.pwr ∈ pm := by assumption) (m_mgmt : Part.mgmt ∈ pm := by assumption) (m_out : Part.out ∈ pm := by assumption) (m_spent : Part.spent ∈ pm := by assumption) : FrameOut pm z0 (execSetSigPolicy c bench require keyHash s) := by
  unfold execSetSigPolicy
  try dsimp only
  repeat (any_goals (first | intro _ | with_reducible assumption | with_reducible refine mgmtRow_frame ?_ | with_reducible apply FrameOut.next | exact FrameOut.fault | with_reducible apply Frame.ite | with_reducible apply Frame.iteFst | with_reducible apply FrameOut.ite | fail_if_no_progress (with_reducible refine Frame.set ?_) | split | dsimp only | refine Frame.ofFst ?_ (by assumption) | refine Frame.ofSnd2 ?_ (by assumption) | refine FrameOpt.kept ?_ _ (by assumption) | refine FrameOut.kept ?_ _ (by assumption)))

theorem execClearQuarantine_frame {c : MgmtCmd} {u : UnitId} {s : State} {pm : List Part} {z0 : State} (hk : Frame pm z0 s) (m_time : Part.time ∈ pm := by assumption) (m_bar : Part.bar ∈ pm := by assumption) (m_host : Part.host ∈ pm := by assumption) (m_benches : Part.benches ∈ pm := by assumption) (m_work : Part.work ∈ pm := by assumption) (m_plan : Part.plan ∈ pm := by assumption) (m_haul : Part.haul ∈ pm := by assumption) (m_tier : Part.tier ∈ pm := by assumption) (m_shards : Part.shards ∈ pm := by assumption) (m_fab : Part.fab ∈ pm := by assumption) (m_win : Part.win ∈ pm := by assumption) (m_fw : Part.fw ∈ pm := by assumption) (m_fault : Part.fault ∈ pm := by assumption) (m_sec : Part.sec ∈ pm := by assumption) (m_pwr : Part.pwr ∈ pm := by assumption) (m_mgmt : Part.mgmt ∈ pm := by assumption) (m_out : Part.out ∈ pm := by assumption) (m_spent : Part.spent ∈ pm := by assumption) : FrameOut pm z0 (execClearQuarantine c u s) := by
  unfold execClearQuarantine
  try dsimp only
  repeat (any_goals (first | intro _ | with_reducible assumption | with_reducible refine mgmtRow_frame ?_ | with_reducible apply FrameOut.next | exact FrameOut.fault | with_reducible apply Frame.ite | with_reducible apply Frame.iteFst | with_reducible apply FrameOut.ite | fail_if_no_progress (with_reducible refine Frame.set ?_) | split | dsimp only | refine Frame.ofFst ?_ (by assumption) | refine Frame.ofSnd2 ?_ (by assumption) | refine FrameOpt.kept ?_ _ (by assumption) | refine FrameOut.kept ?_ _ (by assumption)))

theorem execKeyErase_frame {c : MgmtCmd} {bench : Nat} {s : State} {pm : List Part} {z0 : State} (hk : Frame pm z0 s) (m_time : Part.time ∈ pm := by assumption) (m_bar : Part.bar ∈ pm := by assumption) (m_host : Part.host ∈ pm := by assumption) (m_benches : Part.benches ∈ pm := by assumption) (m_work : Part.work ∈ pm := by assumption) (m_plan : Part.plan ∈ pm := by assumption) (m_haul : Part.haul ∈ pm := by assumption) (m_tier : Part.tier ∈ pm := by assumption) (m_shards : Part.shards ∈ pm := by assumption) (m_fab : Part.fab ∈ pm := by assumption) (m_win : Part.win ∈ pm := by assumption) (m_fw : Part.fw ∈ pm := by assumption) (m_fault : Part.fault ∈ pm := by assumption) (m_sec : Part.sec ∈ pm := by assumption) (m_pwr : Part.pwr ∈ pm := by assumption) (m_mgmt : Part.mgmt ∈ pm := by assumption) (m_out : Part.out ∈ pm := by assumption) (m_spent : Part.spent ∈ pm := by assumption) : FrameOut pm z0 (execKeyErase c bench s) := by
  unfold execKeyErase
  try dsimp only
  repeat (any_goals (first | intro _ | with_reducible assumption | with_reducible refine mgmtRow_frame ?_ | with_reducible apply FrameOut.next | exact FrameOut.fault | with_reducible apply Frame.ite | with_reducible apply Frame.iteFst | with_reducible apply FrameOut.ite | fail_if_no_progress (with_reducible refine Frame.set ?_) | split | dsimp only | refine Frame.ofFst ?_ (by assumption) | refine Frame.ofSnd2 ?_ (by assumption) | refine FrameOpt.kept ?_ _ (by assumption) | refine FrameOut.kept ?_ _ (by assumption)))

theorem execMgResetWarm_frame {c : MgmtCmd} {s : State} {pm : List Part} {z0 : State} (hk : Frame pm z0 s) (m_time : Part.time ∈ pm := by assumption) (m_bar : Part.bar ∈ pm := by assumption) (m_host : Part.host ∈ pm := by assumption) (m_benches : Part.benches ∈ pm := by assumption) (m_work : Part.work ∈ pm := by assumption) (m_plan : Part.plan ∈ pm := by assumption) (m_haul : Part.haul ∈ pm := by assumption) (m_tier : Part.tier ∈ pm := by assumption) (m_shards : Part.shards ∈ pm := by assumption) (m_fab : Part.fab ∈ pm := by assumption) (m_win : Part.win ∈ pm := by assumption) (m_fw : Part.fw ∈ pm := by assumption) (m_fault : Part.fault ∈ pm := by assumption) (m_sec : Part.sec ∈ pm := by assumption) (m_pwr : Part.pwr ∈ pm := by assumption) (m_mgmt : Part.mgmt ∈ pm := by assumption) (m_out : Part.out ∈ pm := by assumption) (m_spent : Part.spent ∈ pm := by assumption) : FrameOut pm z0 (execMgResetWarm c s) := by
  unfold execMgResetWarm
  try dsimp only
  repeat (any_goals (first | intro _ | with_reducible assumption | with_reducible refine mgmtRow_frame ?_ | with_reducible apply FrameOut.next | exact FrameOut.fault | with_reducible apply Frame.ite | with_reducible apply Frame.iteFst | with_reducible apply FrameOut.ite | fail_if_no_progress (with_reducible refine Frame.set ?_) | split | dsimp only | refine Frame.ofFst ?_ (by assumption) | refine Frame.ofSnd2 ?_ (by assumption) | refine FrameOpt.kept ?_ _ (by assumption) | refine FrameOut.kept ?_ _ (by assumption)))

theorem execMgResetCold_frame {c : MgmtCmd} {s : State} {pm : List Part} {z0 : State} (hk : Frame pm z0 s) (m_time : Part.time ∈ pm := by assumption) (m_bar : Part.bar ∈ pm := by assumption) (m_host : Part.host ∈ pm := by assumption) (m_benches : Part.benches ∈ pm := by assumption) (m_work : Part.work ∈ pm := by assumption) (m_plan : Part.plan ∈ pm := by assumption) (m_haul : Part.haul ∈ pm := by assumption) (m_tier : Part.tier ∈ pm := by assumption) (m_shards : Part.shards ∈ pm := by assumption) (m_fab : Part.fab ∈ pm := by assumption) (m_win : Part.win ∈ pm := by assumption) (m_fw : Part.fw ∈ pm := by assumption) (m_fault : Part.fault ∈ pm := by assumption) (m_sec : Part.sec ∈ pm := by assumption) (m_pwr : Part.pwr ∈ pm := by assumption) (m_mgmt : Part.mgmt ∈ pm := by assumption) (m_out : Part.out ∈ pm := by assumption) (m_spent : Part.spent ∈ pm := by assumption) : FrameOut pm z0 (execMgResetCold c s) := by
  unfold execMgResetCold
  try dsimp only
  repeat (any_goals (first | intro _ | with_reducible assumption | with_reducible refine mgmtRow_frame ?_ | with_reducible apply FrameOut.next | exact FrameOut.fault | with_reducible apply Frame.ite | with_reducible apply Frame.iteFst | with_reducible apply FrameOut.ite | fail_if_no_progress (with_reducible refine Frame.set ?_) | split | dsimp only | refine Frame.ofFst ?_ (by assumption) | refine Frame.ofSnd2 ?_ (by assumption) | refine FrameOpt.kept ?_ _ (by assumption) | refine FrameOut.kept ?_ _ (by assumption)))

theorem execKeepEnter_frame {c : MgmtCmd} {s : State} {pm : List Part} {z0 : State} (hk : Frame pm z0 s) (m_time : Part.time ∈ pm := by assumption) (m_bar : Part.bar ∈ pm := by assumption) (m_host : Part.host ∈ pm := by assumption) (m_benches : Part.benches ∈ pm := by assumption) (m_work : Part.work ∈ pm := by assumption) (m_plan : Part.plan ∈ pm := by assumption) (m_haul : Part.haul ∈ pm := by assumption) (m_tier : Part.tier ∈ pm := by assumption) (m_shards : Part.shards ∈ pm := by assumption) (m_fab : Part.fab ∈ pm := by assumption) (m_win : Part.win ∈ pm := by assumption) (m_fw : Part.fw ∈ pm := by assumption) (m_fault : Part.fault ∈ pm := by assumption) (m_sec : Part.sec ∈ pm := by assumption) (m_pwr : Part.pwr ∈ pm := by assumption) (m_mgmt : Part.mgmt ∈ pm := by assumption) (m_out : Part.out ∈ pm := by assumption) (m_spent : Part.spent ∈ pm := by assumption) : FrameOut pm z0 (execKeepEnter c s) := by
  unfold execKeepEnter
  try dsimp only
  repeat (any_goals (first | intro _ | with_reducible assumption | with_reducible refine mgmtRow_frame ?_ | with_reducible apply FrameOut.next | exact FrameOut.fault | with_reducible apply Frame.ite | with_reducible apply Frame.iteFst | with_reducible apply FrameOut.ite | fail_if_no_progress (with_reducible refine Frame.set ?_) | split | dsimp only | refine Frame.ofFst ?_ (by assumption) | refine Frame.ofSnd2 ?_ (by assumption) | refine FrameOpt.kept ?_ _ (by assumption) | refine FrameOut.kept ?_ _ (by assumption)))

theorem execRestEnter_frame {c : MgmtCmd} {s : State} {pm : List Part} {z0 : State} (hk : Frame pm z0 s) (m_time : Part.time ∈ pm := by assumption) (m_bar : Part.bar ∈ pm := by assumption) (m_host : Part.host ∈ pm := by assumption) (m_benches : Part.benches ∈ pm := by assumption) (m_work : Part.work ∈ pm := by assumption) (m_plan : Part.plan ∈ pm := by assumption) (m_haul : Part.haul ∈ pm := by assumption) (m_tier : Part.tier ∈ pm := by assumption) (m_shards : Part.shards ∈ pm := by assumption) (m_fab : Part.fab ∈ pm := by assumption) (m_win : Part.win ∈ pm := by assumption) (m_fw : Part.fw ∈ pm := by assumption) (m_fault : Part.fault ∈ pm := by assumption) (m_sec : Part.sec ∈ pm := by assumption) (m_pwr : Part.pwr ∈ pm := by assumption) (m_mgmt : Part.mgmt ∈ pm := by assumption) (m_out : Part.out ∈ pm := by assumption) (m_spent : Part.spent ∈ pm := by assumption) : FrameOut pm z0 (execRestEnter c s) := by
  unfold execRestEnter
  try dsimp only
  repeat (any_goals (first | intro _ | with_reducible assumption | with_reducible refine mgmtRow_frame ?_ | with_reducible apply FrameOut.next | exact FrameOut.fault | with_reducible apply Frame.ite | with_reducible apply Frame.iteFst | with_reducible apply FrameOut.ite | fail_if_no_progress (with_reducible refine Frame.set ?_) | split | dsimp only | refine Frame.ofFst ?_ (by assumption) | refine Frame.ofSnd2 ?_ (by assumption) | refine FrameOpt.kept ?_ _ (by assumption) | refine FrameOut.kept ?_ _ (by assumption)))

theorem sensorEvent_frame {s : State} {n : Nat} {v : ℤ} {pm : List Part} {z0 : State} (hk : Frame pm z0 s) (m_out : Part.out ∈ pm := by assumption) : Frame pm z0 (sensorEvent s n v) := by
  unfold sensorEvent
  try dsimp only
  repeat (any_goals (first | intro _ | with_reducible assumption | with_reducible refine emit_frame ?_ | with_reducible apply Frame.ite | with_reducible apply Frame.iteFst | fail_if_no_progress (with_reducible refine Frame.set ?_) | split | dsimp only | refine Frame.ofFst ?_ (by assumption) | refine Frame.ofSnd2 ?_ (by assumption) | refine FrameOpt.kept ?_ _ (by assumption) | refine FrameOut.kept ?_ _ (by assumption)))

theorem setSensor_frame {s : State} {n : Nat} {v : ℤ} {pm : List Part} {z0 : State} (hk : Frame pm z0 s) (m_mgmt : Part.mgmt ∈ pm := by assumption) (m_out : Part.out ∈ pm := by assumption) : Frame pm z0 (setSensor s n v) := by
  unfold setSensor
  try dsimp only
  repeat (any_goals (first | intro _ | with_reducible assumption | with_reducible refine sensorEvent_frame ?_ | with_reducible apply Frame.ite | with_reducible apply Frame.iteFst | fail_if_no_progress (with_reducible refine Frame.set ?_) | split | dsimp only | refine Frame.ofFst ?_ (by assumption) | refine Frame.ofSnd2 ?_ (by assumption) | refine FrameOpt.kept ?_ _ (by assumption) | refine FrameOut.kept ?_ _ (by assumption)))

theorem lookState_frame {s : State} {n : Nat} {pm : List Part} {z0 : State} (hk : Frame pm z0 s) (m_mgmt : Part.mgmt ∈ pm := by assumption) (m_out : Part.out ∈ pm := by assumption) : Frame pm z0 (lookState s n) := by
  unfold lookState
  try dsimp only
  repeat (any_goals (first | intro _ | with_reducible assumption | with_reducible refine sensorEvent_frame ?_ | with_reducible apply Frame.ite | with_reducible apply Frame.iteFst | fail_if_no_progress (with_reducible refine Frame.set ?_) | split | dsimp only | refine Frame.ofFst ?_ (by assumption) | refine Frame.ofSnd2 ?_ (by assumption) | refine FrameOpt.kept ?_ _ (by assumption) | refine FrameOut.kept ?_ _ (by assumption)))

theorem sensorUpdate_frame {l : List (Nat × ℤ)} {s : State} {pm : List Part} {z0 : State} (hk : Frame pm z0 s) (m_mgmt : Part.mgmt ∈ pm := by assumption) (m_out : Part.out ∈ pm := by assumption) : Frame pm z0 (sensorUpdate l s) := by
  unfold sensorUpdate
  try dsimp only
  repeat (any_goals (first | intro _ | with_reducible assumption | with_reducible refine lookState_frame ?_ | with_reducible refine setSensor_frame ?_ | with_reducible apply foldl_frame | with_reducible apply foldl_frame_fst | with_reducible apply Frame.ite | with_reducible apply Frame.iteFst | fail_if_no_progress (with_reducible refine Frame.set ?_) | split | dsimp only | refine Frame.ofFst ?_ (by assumption) | refine Frame.ofSnd2 ?_ (by assumption) | refine FrameOpt.kept ?_ _ (by assumption) | refine FrameOut.kept ?_ _ (by assumption)))

theorem execSensorUpdate_frame {t : Stamp} {readings : List (Nat × ℤ)} {s : State} {pm : List Part} {z0 : State} (hk : Frame pm z0 s) (m_time : Part.time ∈ pm := by assumption) (m_mgmt : Part.mgmt ∈ pm := by assumption) (m_out : Part.out ∈ pm := by assumption) : FrameOut pm z0 (execSensorUpdate t readings s) := by
  unfold execSensorUpdate
  try dsimp only
  repeat (any_goals (first | intro _ | with_reducible assumption | with_reducible refine run_frame ?_ ?_ | with_reducible refine sensorUpdate_frame ?_ | with_reducible apply FrameOut.next | exact FrameOut.fault | with_reducible apply Frame.ite | with_reducible apply Frame.iteFst | with_reducible apply FrameOut.ite | fail_if_no_progress (with_reducible refine Frame.set ?_) | split | dsimp only | refine Frame.ofFst ?_ (by assumption) | refine Frame.ofSnd2 ?_ (by assumption) | refine FrameOpt.kept ?_ _ (by assumption) | refine FrameOut.kept ?_ _ (by assumption)))

theorem sensorReq_frame {s : State} {a1 : SideReq} {pm : List Part} {z0 : State} (hk : Frame pm z0 s) (m_mgmt : Part.mgmt ∈ pm := by assumption) : Frame pm z0 (sensorReq s a1).1 := by
  unfold sensorReq
  try dsimp only
  repeat (any_goals (first | intro _ | with_reducible assumption | with_reducible apply Frame.ite | with_reducible apply Frame.iteFst | fail_if_no_progress (with_reducible refine Frame.set ?_) | split | dsimp only | refine Frame.ofFst ?_ (by assumption) | refine Frame.ofSnd2 ?_ (by assumption) | refine FrameOpt.kept ?_ _ (by assumption) | refine FrameOut.kept ?_ _ (by assumption)))

theorem askData_frame {s : State} {t : Transport} {u : Update} {pm : List Part} {z0 : State} (hk : Frame pm z0 s) (m_out : Part.out ∈ pm := by assumption) (m_fresh : Part.fresh ∈ pm := by assumption) : Frame pm z0 (askData s t u) := by
  unfold askData
  try dsimp only
  repeat (any_goals (first | intro _ | with_reducible assumption | with_reducible refine emit_frame ?_ | with_reducible refine State_bump_frame ?_ | with_reducible apply Frame.ite | with_reducible apply Frame.iteFst | fail_if_no_progress (with_reducible refine Frame.set ?_) | split | dsimp only | refine Frame.ofFst ?_ (by assumption) | refine Frame.ofSnd2 ?_ (by assumption) | refine FrameOpt.kept ?_ _ (by assumption) | refine FrameOut.kept ?_ _ (by assumption)))

theorem requestUpdate_frame {s : State} {pm : List Part} {z0 : State} (hk : Frame pm z0 s) (m_mgmt : Part.mgmt ∈ pm := by assumption) : Frame pm z0 (requestUpdate s).1 := by
  unfold requestUpdate
  try dsimp only
  repeat (any_goals (first | intro _ | with_reducible assumption | with_reducible apply Frame.ite | with_reducible apply Frame.iteFst | fail_if_no_progress (with_reducible refine Frame.set ?_) | split | dsimp only | refine Frame.ofFst ?_ (by assumption) | refine Frame.ofSnd2 ?_ (by assumption) | refine FrameOpt.kept ?_ _ (by assumption) | refine FrameOut.kept ?_ _ (by assumption)))

theorem setUpdate_frame {s : State} {u : Option Update} {pm : List Part} {z0 : State} (hk : Frame pm z0 s) (m_mgmt : Part.mgmt ∈ pm := by assumption) : Frame pm z0 (setUpdate s u) := by
  unfold setUpdate
  try dsimp only
  repeat (any_goals (first | intro _ | with_reducible assumption | with_reducible apply Frame.ite | with_reducible apply Frame.iteFst | fail_if_no_progress (with_reducible refine Frame.set ?_) | split | dsimp only | refine Frame.ofFst ?_ (by assumption) | refine Frame.ofSnd2 ?_ (by assumption) | refine FrameOpt.kept ?_ _ (by assumption) | refine FrameOut.kept ?_ _ (by assumption)))

theorem finishTransfer_frame {s : State} {t : Transport} {u : Update} {image : Option Image} {pm : List Part} {z0 : State} (hk : Frame pm z0 s) (m_fw : Part.fw ∈ pm := by assumption) (m_mgmt : Part.mgmt ∈ pm := by assumption) (m_out : Part.out ∈ pm := by assumption) : Frame pm z0 (finishTransfer s t u image) := by
  unfold finishTransfer
  try dsimp only
  repeat (any_goals (first | intro _ | with_reducible assumption | with_reducible refine emit_frame ?_ | with_reducible refine setUpdate_frame ?_ | with_reducible apply Frame.ite | with_reducible apply Frame.iteFst | fail_if_no_progress (with_reducible refine Frame.set ?_) | split | dsimp only | refine Frame.ofFst ?_ (by assumption) | refine Frame.ofSnd2 ?_ (by assumption) | refine FrameOpt.kept ?_ _ (by assumption) | refine FrameOut.kept ?_ _ (by assumption)))

theorem firmwareData_frame {s : State} {t : Transport} {u : Update} {off : Nat} {len : Nat} {image : Option Image} {pm : List Part} {z0 : State} (hk : Frame pm z0 s) (m_fw : Part.fw ∈ pm := by assumption) (m_mgmt : Part.mgmt ∈ pm := by assumption) (m_out : Part.out ∈ pm := by assumption) (m_fresh : Part.fresh ∈ pm := by assumption) : Frame pm z0 (firmwareData s t u off len image).1 := by
  unfold firmwareData
  try dsimp only
  repeat (any_goals (first | intro _ | with_reducible assumption | with_reducible refine finishTransfer_frame ?_ | with_reducible refine askData_frame ?_ | with_reducible refine setUpdate_frame ?_ | with_reducible apply Frame.ite | with_reducible apply Frame.iteFst | fail_if_no_progress (with_reducible refine Frame.set ?_) | split | dsimp only | refine Frame.ofFst ?_ (by assumption) | refine Frame.ofSnd2 ?_ (by assumption) | refine FrameOpt.kept ?_ _ (by assumption) | refine FrameOut.kept ?_ _ (by assumption)))

theorem activate_frame {s : State} {u : Update} {pm : List Part} {z0 : State} (hk : Frame pm z0 s) (m_fw : Part.fw ∈ pm := by assumption) (m_mgmt : Part.mgmt ∈ pm := by assumption) : Frame pm z0 (activate s u).1 := by
  unfold activate
  try dsimp only
  repeat (any_goals (first | intro _ | with_reducible assumption | with_reducible refine setUpdate_frame ?_ | with_reducible refine putDir_frame ?_ | with_reducible apply Frame.ite | with_reducible apply Frame.iteFst | fail_if_no_progress (with_reducible refine Frame.set ?_) | split | dsimp only | refine Frame.ofFst ?_ (by assumption) | refine Frame.ofSnd2 ?_ (by assumption) | refine FrameOpt.kept ?_ _ (by assumption) | refine FrameOut.kept ?_ _ (by assumption)))

theorem updateReq_frame {s : State} {t : Transport} {a2 : SideReq} {pm : List Part} {z0 : State} (hk : Frame pm z0 s) (m_fw : Part.fw ∈ pm := by assumption) (m_mgmt : Part.mgmt ∈ pm := by assumption) (m_out : Part.out ∈ pm := by assumption) (m_fresh : Part.fresh ∈ pm := by assumption) : Frame pm z0 (updateReq s t a2).1 := by
  unfold updateReq
  try dsimp only
  repeat (any_goals (first | intro _ | with_reducible assumption | with_reducible refine requestUpdate_frame ?_ | with_reducible refine setUpdate_frame ?_ | with_reducible refine askData_frame ?_ | with_reducible refine firmwareData_frame ?_ | with_reducible refine activate_frame ?_ | with_reducible apply Frame.ite | with_reducible apply Frame.iteFst | fail_if_no_progress (with_reducible refine Frame.set ?_) | split | dsimp only | refine Frame.ofFst ?_ (by assumption) | refine Frame.ofSnd2 ?_ (by assumption) | refine FrameOpt.kept ?_ _ (by assumption) | refine FrameOut.kept ?_ _ (by assumption)))

theorem mctpControl_frame {s : State} {t : Transport} {code : Nat} {eid : Nat} {pm : List Part} {z0 : State} (hk : Frame pm z0 s) (m_mgmt : Part.mgmt ∈ pm := by assumption) : Frame pm z0 (mctpControl s t code eid).1 := by
  unfold mctpControl
  try dsimp only
  repeat (any_goals (first | intro _ | with_reducible assumption | with_reducible apply Frame.ite | with_reducible apply Frame.iteFst | fail_if_no_progress (with_reducible refine Frame.set ?_) | split | dsimp only | refine Frame.ofFst ?_ (by assumption) | refine Frame.ofSnd2 ?_ (by assumption) | refine FrameOpt.kept ?_ _ (by assumption) | refine FrameOut.kept ?_ _ (by assumption)))

theorem sideTake_frame {s : State} {t : Transport} {r : SideReq} {pm : List Part} {z0 : State} (hk : Frame pm z0 s) (m_host : Part.host ∈ pm := by assumption) (m_fw : Part.fw ∈ pm := by assumption) (m_fault : Part.fault ∈ pm := by assumption) (m_sec : Part.sec ∈ pm := by assumption) (m_mgmt : Part.mgmt ∈ pm := by assumption) (m_out : Part.out ∈ pm := by assumption) (m_fresh : Part.fresh ∈ pm := by assumption) : Frame pm z0 (sideTake s t r).1 := by
  unfold sideTake
  try dsimp only
  repeat (any_goals (first | intro _ | with_reducible assumption | with_reducible refine mctpControl_frame ?_ | with_reducible refine sensorReq_frame ?_ | with_reducible refine updateReq_frame ?_ | with_reducible refine spdmAnswer_frame ?_ | with_reducible apply Frame.ite | with_reducible apply Frame.iteFst | fail_if_no_progress (with_reducible refine Frame.set ?_) | split | dsimp only | refine Frame.ofFst ?_ (by assumption) | refine Frame.ofSnd2 ?_ (by assumption) | refine FrameOpt.kept ?_ _ (by assumption) | refine FrameOut.kept ?_ _ (by assumption)))

theorem sideAnswer_frame {pm : List Part} {s : State} {t : Transport} {r : SideReq} {z0 : State} (hk : Frame pm z0 s) (m_host : Part.host ∈ pm := by assumption) (m_fw : Part.fw ∈ pm := by assumption) (m_fault : Part.fault ∈ pm := by assumption) (m_sec : Part.sec ∈ pm := by assumption) (m_mgmt : Part.mgmt ∈ pm := by assumption) (m_out : Part.out ∈ pm := by assumption) (m_fresh : Part.fresh ∈ pm := by assumption) : Frame pm z0 (sideAnswer s t r) :=
  emit_frame (sideTake_frame hk)

theorem sideLand_frame {t : Transport} {r : SideReq} {s : State} {pm : List Part} {z0 : State} (hk : Frame pm z0 s) (m_host : Part.host ∈ pm := by assumption) (m_fw : Part.fw ∈ pm := by assumption) (m_fault : Part.fault ∈ pm := by assumption) (m_sec : Part.sec ∈ pm := by assumption) (m_pwr : Part.pwr ∈ pm := by assumption) (m_mgmt : Part.mgmt ∈ pm := by assumption) (m_out : Part.out ∈ pm := by assumption) (m_fresh : Part.fresh ∈ pm := by assumption) : Frame pm z0 (sideLand t r s) := by
  unfold sideLand
  try dsimp only
  repeat (any_goals (first | intro _ | with_reducible assumption | with_reducible refine latchWake_frame ?_ | with_reducible refine sideAnswer_frame ?_ | with_reducible apply Frame.ite | with_reducible apply Frame.iteFst | fail_if_no_progress (with_reducible refine Frame.set ?_) | split | dsimp only | refine Frame.ofFst ?_ (by assumption) | refine Frame.ofSnd2 ?_ (by assumption) | refine FrameOpt.kept ?_ _ (by assumption) | refine FrameOut.kept ?_ _ (by assumption)))

theorem sideRow_frame {t : Stamp} {tr : Transport} {r : SideReq} {s : State} {pm : List Part} {z0 : State} (hk : Frame pm z0 s) (m_time : Part.time ∈ pm := by assumption) (m_host : Part.host ∈ pm := by assumption) (m_fw : Part.fw ∈ pm := by assumption) (m_fault : Part.fault ∈ pm := by assumption) (m_sec : Part.sec ∈ pm := by assumption) (m_pwr : Part.pwr ∈ pm := by assumption) (m_mgmt : Part.mgmt ∈ pm := by assumption) (m_out : Part.out ∈ pm := by assumption) (m_fresh : Part.fresh ∈ pm := by assumption) : FrameOut pm z0 (sideRow t tr r s) := by
  unfold sideRow
  try dsimp only
  repeat (any_goals (first | intro _ | with_reducible assumption | with_reducible refine run_frame ?_ ?_ | with_reducible refine sideLand_frame ?_ | with_reducible apply FrameOut.next | exact FrameOut.fault | with_reducible apply Frame.ite | with_reducible apply Frame.iteFst | with_reducible apply FrameOut.ite | fail_if_no_progress (with_reducible refine Frame.set ?_) | split | dsimp only | refine Frame.ofFst ?_ (by assumption) | refine Frame.ofSnd2 ?_ (by assumption) | refine FrameOpt.kept ?_ _ (by assumption) | refine FrameOut.kept ?_ _ (by assumption)))

theorem execMctpControl_frame {t : Stamp} {transport : Transport} {code : Nat} {eid : Nat} {s : State} {pm : List Part} {z0 : State} (hk : Frame pm z0 s) (m_time : Part.time ∈ pm := by assumption) (m_host : Part.host ∈ pm := by assumption) (m_fw : Part.fw ∈ pm := by assumption) (m_fault : Part.fault ∈ pm := by assumption) (m_sec : Part.sec ∈ pm := by assumption) (m_pwr : Part.pwr ∈ pm := by assumption) (m_mgmt : Part.mgmt ∈ pm := by assumption) (m_out : Part.out ∈ pm := by assumption) (m_fresh : Part.fresh ∈ pm := by assumption) : FrameOut pm z0 (execMctpControl t transport code eid s) := by
  unfold execMctpControl
  try dsimp only
  repeat (any_goals (first | intro _ | with_reducible assumption | with_reducible refine sideRow_frame ?_ | with_reducible apply FrameOut.next | exact FrameOut.fault | with_reducible apply Frame.ite | with_reducible apply Frame.iteFst | with_reducible apply FrameOut.ite | fail_if_no_progress (with_reducible refine Frame.set ?_) | split | dsimp only | refine Frame.ofFst ?_ (by assumption) | refine Frame.ofSnd2 ?_ (by assumption) | refine FrameOpt.kept ?_ _ (by assumption) | refine FrameOut.kept ?_ _ (by assumption)))

theorem execGetPdr_frame {t : Stamp} {transport : Transport} {record : Nat} {s : State} {pm : List Part} {z0 : State} (hk : Frame pm z0 s) (m_time : Part.time ∈ pm := by assumption) (m_host : Part.host ∈ pm := by assumption) (m_fw : Part.fw ∈ pm := by assumption) (m_fault : Part.fault ∈ pm := by assumption) (m_sec : Part.sec ∈ pm := by assumption) (m_pwr : Part.pwr ∈ pm := by assumption) (m_mgmt : Part.mgmt ∈ pm := by assumption) (m_out : Part.out ∈ pm := by assumption) (m_fresh : Part.fresh ∈ pm := by assumption) : FrameOut pm z0 (execGetPdr t transport record s) := by
  unfold execGetPdr
  try dsimp only
  repeat (any_goals (first | intro _ | with_reducible assumption | with_reducible refine sideRow_frame ?_ | with_reducible apply FrameOut.next | exact FrameOut.fault | with_reducible apply Frame.ite | with_reducible apply Frame.iteFst | with_reducible apply FrameOut.ite | fail_if_no_progress (with_reducible refine Frame.set ?_) | split | dsimp only | refine Frame.ofFst ?_ (by assumption) | refine Frame.ofSnd2 ?_ (by assumption) | refine FrameOpt.kept ?_ _ (by assumption) | refine FrameOut.kept ?_ _ (by assumption)))

theorem execGetPdrRepositoryInfo_frame {t : Stamp} {transport : Transport} {s : State} {pm : List Part} {z0 : State} (hk : Frame pm z0 s) (m_time : Part.time ∈ pm := by assumption) (m_host : Part.host ∈ pm := by assumption) (m_fw : Part.fw ∈ pm := by assumption) (m_fault : Part.fault ∈ pm := by assumption) (m_sec : Part.sec ∈ pm := by assumption) (m_pwr : Part.pwr ∈ pm := by assumption) (m_mgmt : Part.mgmt ∈ pm := by assumption) (m_out : Part.out ∈ pm := by assumption) (m_fresh : Part.fresh ∈ pm := by assumption) : FrameOut pm z0 (execGetPdrRepositoryInfo t transport s) := by
  unfold execGetPdrRepositoryInfo
  try dsimp only
  repeat (any_goals (first | intro _ | with_reducible assumption | with_reducible refine sideRow_frame ?_ | with_reducible apply FrameOut.next | exact FrameOut.fault | with_reducible apply Frame.ite | with_reducible apply Frame.iteFst | with_reducible apply FrameOut.ite | fail_if_no_progress (with_reducible refine Frame.set ?_) | split | dsimp only | refine Frame.ofFst ?_ (by assumption) | refine Frame.ofSnd2 ?_ (by assumption) | refine FrameOpt.kept ?_ _ (by assumption) | refine FrameOut.kept ?_ _ (by assumption)))

theorem execGetSensorReading_frame {t : Stamp} {transport : Transport} {sensor : Nat} {s : State} {pm : List Part} {z0 : State} (hk : Frame pm z0 s) (m_time : Part.time ∈ pm := by assumption) (m_host : Part.host ∈ pm := by assumption) (m_fw : Part.fw ∈ pm := by assumption) (m_fault : Part.fault ∈ pm := by assumption) (m_sec : Part.sec ∈ pm := by assumption) (m_pwr : Part.pwr ∈ pm := by assumption) (m_mgmt : Part.mgmt ∈ pm := by assumption) (m_out : Part.out ∈ pm := by assumption) (m_fresh : Part.fresh ∈ pm := by assumption) : FrameOut pm z0 (execGetSensorReading t transport sensor s) := by
  unfold execGetSensorReading
  try dsimp only
  repeat (any_goals (first | intro _ | with_reducible assumption | with_reducible refine sideRow_frame ?_ | with_reducible apply FrameOut.next | exact FrameOut.fault | with_reducible apply Frame.ite | with_reducible apply Frame.iteFst | with_reducible apply FrameOut.ite | fail_if_no_progress (with_reducible refine Frame.set ?_) | split | dsimp only | refine Frame.ofFst ?_ (by assumption) | refine Frame.ofSnd2 ?_ (by assumption) | refine FrameOpt.kept ?_ _ (by assumption) | refine FrameOut.kept ?_ _ (by assumption)))

theorem execGetStateSensorReadings_frame {t : Stamp} {transport : Transport} {sensor : Nat} {s : State} {pm : List Part} {z0 : State} (hk : Frame pm z0 s) (m_time : Part.time ∈ pm := by assumption) (m_host : Part.host ∈ pm := by assumption) (m_fw : Part.fw ∈ pm := by assumption) (m_fault : Part.fault ∈ pm := by assumption) (m_sec : Part.sec ∈ pm := by assumption) (m_pwr : Part.pwr ∈ pm := by assumption) (m_mgmt : Part.mgmt ∈ pm := by assumption) (m_out : Part.out ∈ pm := by assumption) (m_fresh : Part.fresh ∈ pm := by assumption) : FrameOut pm z0 (execGetStateSensorReadings t transport sensor s) := by
  unfold execGetStateSensorReadings
  try dsimp only
  repeat (any_goals (first | intro _ | with_reducible assumption | with_reducible refine sideRow_frame ?_ | with_reducible apply FrameOut.next | exact FrameOut.fault | with_reducible apply Frame.ite | with_reducible apply Frame.iteFst | with_reducible apply FrameOut.ite | fail_if_no_progress (with_reducible refine Frame.set ?_) | split | dsimp only | refine Frame.ofFst ?_ (by assumption) | refine Frame.ofSnd2 ?_ (by assumption) | refine FrameOpt.kept ?_ _ (by assumption) | refine FrameOut.kept ?_ _ (by assumption)))

theorem execSetNumericSensorEnable_frame {t : Stamp} {transport : Transport} {sensor : Nat} {enable : Bool} {s : State} {pm : List Part} {z0 : State} (hk : Frame pm z0 s) (m_time : Part.time ∈ pm := by assumption) (m_host : Part.host ∈ pm := by assumption) (m_fw : Part.fw ∈ pm := by assumption) (m_fault : Part.fault ∈ pm := by assumption) (m_sec : Part.sec ∈ pm := by assumption) (m_pwr : Part.pwr ∈ pm := by assumption) (m_mgmt : Part.mgmt ∈ pm := by assumption) (m_out : Part.out ∈ pm := by assumption) (m_fresh : Part.fresh ∈ pm := by assumption) : FrameOut pm z0 (execSetNumericSensorEnable t transport sensor enable s) := by
  unfold execSetNumericSensorEnable
  try dsimp only
  repeat (any_goals (first | intro _ | with_reducible assumption | with_reducible refine sideRow_frame ?_ | with_reducible apply FrameOut.next | exact FrameOut.fault | with_reducible apply Frame.ite | with_reducible apply Frame.iteFst | with_reducible apply FrameOut.ite | fail_if_no_progress (with_reducible refine Frame.set ?_) | split | dsimp only | refine Frame.ofFst ?_ (by assumption) | refine Frame.ofSnd2 ?_ (by assumption) | refine FrameOpt.kept ?_ _ (by assumption) | refine FrameOut.kept ?_ _ (by assumption)))

theorem execSetEventReceiver_frame {t : Stamp} {transport : Transport} {eid : Nat} {s : State} {pm : List Part} {z0 : State} (hk : Frame pm z0 s) (m_time : Part.time ∈ pm := by assumption) (m_host : Part.host ∈ pm := by assumption) (m_fw : Part.fw ∈ pm := by assumption) (m_fault : Part.fault ∈ pm := by assumption) (m_sec : Part.sec ∈ pm := by assumption) (m_pwr : Part.pwr ∈ pm := by assumption) (m_mgmt : Part.mgmt ∈ pm := by assumption) (m_out : Part.out ∈ pm := by assumption) (m_fresh : Part.fresh ∈ pm := by assumption) : FrameOut pm z0 (execSetEventReceiver t transport eid s) := by
  unfold execSetEventReceiver
  try dsimp only
  repeat (any_goals (first | intro _ | with_reducible assumption | with_reducible refine sideRow_frame ?_ | with_reducible apply FrameOut.next | exact FrameOut.fault | with_reducible apply Frame.ite | with_reducible apply Frame.iteFst | with_reducible apply FrameOut.ite | fail_if_no_progress (with_reducible refine Frame.set ?_) | split | dsimp only | refine Frame.ofFst ?_ (by assumption) | refine Frame.ofSnd2 ?_ (by assumption) | refine FrameOpt.kept ?_ _ (by assumption) | refine FrameOut.kept ?_ _ (by assumption)))

theorem execQueryDeviceIdentifiers_frame {t : Stamp} {transport : Transport} {s : State} {pm : List Part} {z0 : State} (hk : Frame pm z0 s) (m_time : Part.time ∈ pm := by assumption) (m_host : Part.host ∈ pm := by assumption) (m_fw : Part.fw ∈ pm := by assumption) (m_fault : Part.fault ∈ pm := by assumption) (m_sec : Part.sec ∈ pm := by assumption) (m_pwr : Part.pwr ∈ pm := by assumption) (m_mgmt : Part.mgmt ∈ pm := by assumption) (m_out : Part.out ∈ pm := by assumption) (m_fresh : Part.fresh ∈ pm := by assumption) : FrameOut pm z0 (execQueryDeviceIdentifiers t transport s) := by
  unfold execQueryDeviceIdentifiers
  try dsimp only
  repeat (any_goals (first | intro _ | with_reducible assumption | with_reducible refine sideRow_frame ?_ | with_reducible apply FrameOut.next | exact FrameOut.fault | with_reducible apply Frame.ite | with_reducible apply Frame.iteFst | with_reducible apply FrameOut.ite | fail_if_no_progress (with_reducible refine Frame.set ?_) | split | dsimp only | refine Frame.ofFst ?_ (by assumption) | refine Frame.ofSnd2 ?_ (by assumption) | refine FrameOpt.kept ?_ _ (by assumption) | refine FrameOut.kept ?_ _ (by assumption)))

theorem execGetFirmwareParameters_frame {t : Stamp} {transport : Transport} {s : State} {pm : List Part} {z0 : State} (hk : Frame pm z0 s) (m_time : Part.time ∈ pm := by assumption) (m_host : Part.host ∈ pm := by assumption) (m_fw : Part.fw ∈ pm := by assumption) (m_fault : Part.fault ∈ pm := by assumption) (m_sec : Part.sec ∈ pm := by assumption) (m_pwr : Part.pwr ∈ pm := by assumption) (m_mgmt : Part.mgmt ∈ pm := by assumption) (m_out : Part.out ∈ pm := by assumption) (m_fresh : Part.fresh ∈ pm := by assumption) : FrameOut pm z0 (execGetFirmwareParameters t transport s) := by
  unfold execGetFirmwareParameters
  try dsimp only
  repeat (any_goals (first | intro _ | with_reducible assumption | with_reducible refine sideRow_frame ?_ | with_reducible apply FrameOut.next | exact FrameOut.fault | with_reducible apply Frame.ite | with_reducible apply Frame.iteFst | with_reducible apply FrameOut.ite | fail_if_no_progress (with_reducible refine Frame.set ?_) | split | dsimp only | refine Frame.ofFst ?_ (by assumption) | refine Frame.ofSnd2 ?_ (by assumption) | refine FrameOpt.kept ?_ _ (by assumption) | refine FrameOut.kept ?_ _ (by assumption)))

theorem execRequestUpdate_frame {t : Stamp} {transport : Transport} {s : State} {pm : List Part} {z0 : State} (hk : Frame pm z0 s) (m_time : Part.time ∈ pm := by assumption) (m_host : Part.host ∈ pm := by assumption) (m_fw : Part.fw ∈ pm := by assumption) (m_fault : Part.fault ∈ pm := by assumption) (m_sec : Part.sec ∈ pm := by assumption) (m_pwr : Part.pwr ∈ pm := by assumption) (m_mgmt : Part.mgmt ∈ pm := by assumption) (m_out : Part.out ∈ pm := by assumption) (m_fresh : Part.fresh ∈ pm := by assumption) : FrameOut pm z0 (execRequestUpdate t transport s) := by
  unfold execRequestUpdate
  try dsimp only
  repeat (any_goals (first | intro _ | with_reducible assumption | with_reducible refine sideRow_frame ?_ | with_reducible apply FrameOut.next | exact FrameOut.fault | with_reducible apply Frame.ite | with_reducible apply Frame.iteFst | with_reducible apply FrameOut.ite | fail_if_no_progress (with_reducible refine Frame.set ?_) | split | dsimp only | refine Frame.ofFst ?_ (by assumption) | refine Frame.ofSnd2 ?_ (by assumption) | refine FrameOpt.kept ?_ _ (by assumption) | refine FrameOut.kept ?_ _ (by assumption)))

theorem execPassComponentTable_frame {t : Stamp} {transport : Transport} {components : List Nat} {s : State} {pm : List Part} {z0 : State} (hk : Frame pm z0 s) (m_time : Part.time ∈ pm := by assumption) (m_host : Part.host ∈ pm := by assumption) (m_fw : Part.fw ∈ pm := by assumption) (m_fault : Part.fault ∈ pm := by assumption) (m_sec : Part.sec ∈ pm := by assumption) (m_pwr : Part.pwr ∈ pm := by assumption) (m_mgmt : Part.mgmt ∈ pm := by assumption) (m_out : Part.out ∈ pm := by assumption) (m_fresh : Part.fresh ∈ pm := by assumption) : FrameOut pm z0 (execPassComponentTable t transport components s) := by
  unfold execPassComponentTable
  try dsimp only
  repeat (any_goals (first | intro _ | with_reducible assumption | with_reducible refine sideRow_frame ?_ | with_reducible apply FrameOut.next | exact FrameOut.fault | with_reducible apply Frame.ite | with_reducible apply Frame.iteFst | with_reducible apply FrameOut.ite | fail_if_no_progress (with_reducible refine Frame.set ?_) | split | dsimp only | refine Frame.ofFst ?_ (by assumption) | refine Frame.ofSnd2 ?_ (by assumption) | refine FrameOpt.kept ?_ _ (by assumption) | refine FrameOut.kept ?_ _ (by assumption)))

theorem execUpdateComponent_frame {t : Stamp} {transport : Transport} {component : Nat} {size : Nat} {s : State} {pm : List Part} {z0 : State} (hk : Frame pm z0 s) (m_time : Part.time ∈ pm := by assumption) (m_host : Part.host ∈ pm := by assumption) (m_fw : Part.fw ∈ pm := by assumption) (m_fault : Part.fault ∈ pm := by assumption) (m_sec : Part.sec ∈ pm := by assumption) (m_pwr : Part.pwr ∈ pm := by assumption) (m_mgmt : Part.mgmt ∈ pm := by assumption) (m_out : Part.out ∈ pm := by assumption) (m_fresh : Part.fresh ∈ pm := by assumption) : FrameOut pm z0 (execUpdateComponent t transport component size s) := by
  unfold execUpdateComponent
  try dsimp only
  repeat (any_goals (first | intro _ | with_reducible assumption | with_reducible refine sideRow_frame ?_ | with_reducible apply FrameOut.next | exact FrameOut.fault | with_reducible apply Frame.ite | with_reducible apply Frame.iteFst | with_reducible apply FrameOut.ite | fail_if_no_progress (with_reducible refine Frame.set ?_) | split | dsimp only | refine Frame.ofFst ?_ (by assumption) | refine Frame.ofSnd2 ?_ (by assumption) | refine FrameOpt.kept ?_ _ (by assumption) | refine FrameOut.kept ?_ _ (by assumption)))

theorem execFirmwareData_frame {t : Stamp} {transport : Transport} {off : Nat} {len : Nat} {image : Option Image} {s : State} {pm : List Part} {z0 : State} (hk : Frame pm z0 s) (m_time : Part.time ∈ pm := by assumption) (m_host : Part.host ∈ pm := by assumption) (m_fw : Part.fw ∈ pm := by assumption) (m_fault : Part.fault ∈ pm := by assumption) (m_sec : Part.sec ∈ pm := by assumption) (m_pwr : Part.pwr ∈ pm := by assumption) (m_mgmt : Part.mgmt ∈ pm := by assumption) (m_out : Part.out ∈ pm := by assumption) (m_fresh : Part.fresh ∈ pm := by assumption) : FrameOut pm z0 (execFirmwareData t transport off len image s) := by
  unfold execFirmwareData
  try dsimp only
  repeat (any_goals (first | intro _ | with_reducible assumption | with_reducible refine sideRow_frame ?_ | with_reducible apply FrameOut.next | exact FrameOut.fault | with_reducible apply Frame.ite | with_reducible apply Frame.iteFst | with_reducible apply FrameOut.ite | fail_if_no_progress (with_reducible refine Frame.set ?_) | split | dsimp only | refine Frame.ofFst ?_ (by assumption) | refine Frame.ofSnd2 ?_ (by assumption) | refine FrameOpt.kept ?_ _ (by assumption) | refine FrameOut.kept ?_ _ (by assumption)))

theorem execActivateFirmware_frame {t : Stamp} {transport : Transport} {s : State} {pm : List Part} {z0 : State} (hk : Frame pm z0 s) (m_time : Part.time ∈ pm := by assumption) (m_host : Part.host ∈ pm := by assumption) (m_fw : Part.fw ∈ pm := by assumption) (m_fault : Part.fault ∈ pm := by assumption) (m_sec : Part.sec ∈ pm := by assumption) (m_pwr : Part.pwr ∈ pm := by assumption) (m_mgmt : Part.mgmt ∈ pm := by assumption) (m_out : Part.out ∈ pm := by assumption) (m_fresh : Part.fresh ∈ pm := by assumption) : FrameOut pm z0 (execActivateFirmware t transport s) := by
  unfold execActivateFirmware
  try dsimp only
  repeat (any_goals (first | intro _ | with_reducible assumption | with_reducible refine sideRow_frame ?_ | with_reducible apply FrameOut.next | exact FrameOut.fault | with_reducible apply Frame.ite | with_reducible apply Frame.iteFst | with_reducible apply FrameOut.ite | fail_if_no_progress (with_reducible refine Frame.set ?_) | split | dsimp only | refine Frame.ofFst ?_ (by assumption) | refine Frame.ofSnd2 ?_ (by assumption) | refine FrameOpt.kept ?_ _ (by assumption) | refine FrameOut.kept ?_ _ (by assumption)))

theorem execGetStatus_frame {t : Stamp} {transport : Transport} {s : State} {pm : List Part} {z0 : State} (hk : Frame pm z0 s) (m_time : Part.time ∈ pm := by assumption) (m_host : Part.host ∈ pm := by assumption) (m_fw : Part.fw ∈ pm := by assumption) (m_fault : Part.fault ∈ pm := by assumption) (m_sec : Part.sec ∈ pm := by assumption) (m_pwr : Part.pwr ∈ pm := by assumption) (m_mgmt : Part.mgmt ∈ pm := by assumption) (m_out : Part.out ∈ pm := by assumption) (m_fresh : Part.fresh ∈ pm := by assumption) : FrameOut pm z0 (execGetStatus t transport s) := by
  unfold execGetStatus
  try dsimp only
  repeat (any_goals (first | intro _ | with_reducible assumption | with_reducible refine sideRow_frame ?_ | with_reducible apply FrameOut.next | exact FrameOut.fault | with_reducible apply Frame.ite | with_reducible apply Frame.iteFst | with_reducible apply FrameOut.ite | fail_if_no_progress (with_reducible refine Frame.set ?_) | split | dsimp only | refine Frame.ofFst ?_ (by assumption) | refine Frame.ofSnd2 ?_ (by assumption) | refine FrameOpt.kept ?_ _ (by assumption) | refine FrameOut.kept ?_ _ (by assumption)))

theorem execCancelUpdateComponent_frame {t : Stamp} {transport : Transport} {s : State} {pm : List Part} {z0 : State} (hk : Frame pm z0 s) (m_time : Part.time ∈ pm := by assumption) (m_host : Part.host ∈ pm := by assumption) (m_fw : Part.fw ∈ pm := by assumption) (m_fault : Part.fault ∈ pm := by assumption) (m_sec : Part.sec ∈ pm := by assumption) (m_pwr : Part.pwr ∈ pm := by assumption) (m_mgmt : Part.mgmt ∈ pm := by assumption) (m_out : Part.out ∈ pm := by assumption) (m_fresh : Part.fresh ∈ pm := by assumption) : FrameOut pm z0 (execCancelUpdateComponent t transport s) := by
  unfold execCancelUpdateComponent
  try dsimp only
  repeat (any_goals (first | intro _ | with_reducible assumption | with_reducible refine sideRow_frame ?_ | with_reducible apply FrameOut.next | exact FrameOut.fault | with_reducible apply Frame.ite | with_reducible apply Frame.iteFst | with_reducible apply FrameOut.ite | fail_if_no_progress (with_reducible refine Frame.set ?_) | split | dsimp only | refine Frame.ofFst ?_ (by assumption) | refine Frame.ofSnd2 ?_ (by assumption) | refine FrameOpt.kept ?_ _ (by assumption) | refine FrameOut.kept ?_ _ (by assumption)))

theorem execCancelUpdate_frame {t : Stamp} {transport : Transport} {s : State} {pm : List Part} {z0 : State} (hk : Frame pm z0 s) (m_time : Part.time ∈ pm := by assumption) (m_host : Part.host ∈ pm := by assumption) (m_fw : Part.fw ∈ pm := by assumption) (m_fault : Part.fault ∈ pm := by assumption) (m_sec : Part.sec ∈ pm := by assumption) (m_pwr : Part.pwr ∈ pm := by assumption) (m_mgmt : Part.mgmt ∈ pm := by assumption) (m_out : Part.out ∈ pm := by assumption) (m_fresh : Part.fresh ∈ pm := by assumption) : FrameOut pm z0 (execCancelUpdate t transport s) := by
  unfold execCancelUpdate
  try dsimp only
  repeat (any_goals (first | intro _ | with_reducible assumption | with_reducible refine sideRow_frame ?_ | with_reducible apply FrameOut.next | exact FrameOut.fault | with_reducible apply Frame.ite | with_reducible apply Frame.iteFst | with_reducible apply FrameOut.ite | fail_if_no_progress (with_reducible refine Frame.set ?_) | split | dsimp only | refine Frame.ofFst ?_ (by assumption) | refine Frame.ofSnd2 ?_ (by assumption) | refine FrameOpt.kept ?_ _ (by assumption) | refine FrameOut.kept ?_ _ (by assumption)))

theorem execGetVersion_frame {t : Stamp} {transport : Transport} {s : State} {pm : List Part} {z0 : State} (hk : Frame pm z0 s) (m_time : Part.time ∈ pm := by assumption) (m_host : Part.host ∈ pm := by assumption) (m_fw : Part.fw ∈ pm := by assumption) (m_fault : Part.fault ∈ pm := by assumption) (m_sec : Part.sec ∈ pm := by assumption) (m_pwr : Part.pwr ∈ pm := by assumption) (m_mgmt : Part.mgmt ∈ pm := by assumption) (m_out : Part.out ∈ pm := by assumption) (m_fresh : Part.fresh ∈ pm := by assumption) : FrameOut pm z0 (execGetVersion t transport s) := by
  unfold execGetVersion
  try dsimp only
  repeat (any_goals (first | intro _ | with_reducible assumption | with_reducible refine sideRow_frame ?_ | with_reducible apply FrameOut.next | exact FrameOut.fault | with_reducible apply Frame.ite | with_reducible apply Frame.iteFst | with_reducible apply FrameOut.ite | fail_if_no_progress (with_reducible refine Frame.set ?_) | split | dsimp only | refine Frame.ofFst ?_ (by assumption) | refine Frame.ofSnd2 ?_ (by assumption) | refine FrameOpt.kept ?_ _ (by assumption) | refine FrameOut.kept ?_ _ (by assumption)))

theorem execGetCapabilities_frame {t : Stamp} {transport : Transport} {s : State} {pm : List Part} {z0 : State} (hk : Frame pm z0 s) (m_time : Part.time ∈ pm := by assumption) (m_host : Part.host ∈ pm := by assumption) (m_fw : Part.fw ∈ pm := by assumption) (m_fault : Part.fault ∈ pm := by assumption) (m_sec : Part.sec ∈ pm := by assumption) (m_pwr : Part.pwr ∈ pm := by assumption) (m_mgmt : Part.mgmt ∈ pm := by assumption) (m_out : Part.out ∈ pm := by assumption) (m_fresh : Part.fresh ∈ pm := by assumption) : FrameOut pm z0 (execGetCapabilities t transport s) := by
  unfold execGetCapabilities
  try dsimp only
  repeat (any_goals (first | intro _ | with_reducible assumption | with_reducible refine sideRow_frame ?_ | with_reducible apply FrameOut.next | exact FrameOut.fault | with_reducible apply Frame.ite | with_reducible apply Frame.iteFst | with_reducible apply FrameOut.ite | fail_if_no_progress (with_reducible refine Frame.set ?_) | split | dsimp only | refine Frame.ofFst ?_ (by assumption) | refine Frame.ofSnd2 ?_ (by assumption) | refine FrameOpt.kept ?_ _ (by assumption) | refine FrameOut.kept ?_ _ (by assumption)))

theorem execNegotiateAlgorithms_frame {t : Stamp} {transport : Transport} {offers : List SpdmAlg} {s : State} {pm : List Part} {z0 : State} (hk : Frame pm z0 s) (m_time : Part.time ∈ pm := by assumption) (m_host : Part.host ∈ pm := by assumption) (m_fw : Part.fw ∈ pm := by assumption) (m_fault : Part.fault ∈ pm := by assumption) (m_sec : Part.sec ∈ pm := by assumption) (m_pwr : Part.pwr ∈ pm := by assumption) (m_mgmt : Part.mgmt ∈ pm := by assumption) (m_out : Part.out ∈ pm := by assumption) (m_fresh : Part.fresh ∈ pm := by assumption) : FrameOut pm z0 (execNegotiateAlgorithms t transport offers s) := by
  unfold execNegotiateAlgorithms
  try dsimp only
  repeat (any_goals (first | intro _ | with_reducible assumption | with_reducible refine sideRow_frame ?_ | with_reducible apply FrameOut.next | exact FrameOut.fault | with_reducible apply Frame.ite | with_reducible apply Frame.iteFst | with_reducible apply FrameOut.ite | fail_if_no_progress (with_reducible refine Frame.set ?_) | split | dsimp only | refine Frame.ofFst ?_ (by assumption) | refine Frame.ofSnd2 ?_ (by assumption) | refine FrameOpt.kept ?_ _ (by assumption) | refine FrameOut.kept ?_ _ (by assumption)))

theorem execGetDigests_frame {t : Stamp} {transport : Transport} {s : State} {pm : List Part} {z0 : State} (hk : Frame pm z0 s) (m_time : Part.time ∈ pm := by assumption) (m_host : Part.host ∈ pm := by assumption) (m_fw : Part.fw ∈ pm := by assumption) (m_fault : Part.fault ∈ pm := by assumption) (m_sec : Part.sec ∈ pm := by assumption) (m_pwr : Part.pwr ∈ pm := by assumption) (m_mgmt : Part.mgmt ∈ pm := by assumption) (m_out : Part.out ∈ pm := by assumption) (m_fresh : Part.fresh ∈ pm := by assumption) : FrameOut pm z0 (execGetDigests t transport s) := by
  unfold execGetDigests
  try dsimp only
  repeat (any_goals (first | intro _ | with_reducible assumption | with_reducible refine sideRow_frame ?_ | with_reducible apply FrameOut.next | exact FrameOut.fault | with_reducible apply Frame.ite | with_reducible apply Frame.iteFst | with_reducible apply FrameOut.ite | fail_if_no_progress (with_reducible refine Frame.set ?_) | split | dsimp only | refine Frame.ofFst ?_ (by assumption) | refine Frame.ofSnd2 ?_ (by assumption) | refine FrameOpt.kept ?_ _ (by assumption) | refine FrameOut.kept ?_ _ (by assumption)))

theorem execGetCertificate_frame {t : Stamp} {transport : Transport} {slot : Nat} {off : Nat} {len : Nat} {s : State} {pm : List Part} {z0 : State} (hk : Frame pm z0 s) (m_time : Part.time ∈ pm := by assumption) (m_host : Part.host ∈ pm := by assumption) (m_fw : Part.fw ∈ pm := by assumption) (m_fault : Part.fault ∈ pm := by assumption) (m_sec : Part.sec ∈ pm := by assumption) (m_pwr : Part.pwr ∈ pm := by assumption) (m_mgmt : Part.mgmt ∈ pm := by assumption) (m_out : Part.out ∈ pm := by assumption) (m_fresh : Part.fresh ∈ pm := by assumption) : FrameOut pm z0 (execGetCertificate t transport slot off len s) := by
  unfold execGetCertificate
  try dsimp only
  repeat (any_goals (first | intro _ | with_reducible assumption | with_reducible refine sideRow_frame ?_ | with_reducible apply FrameOut.next | exact FrameOut.fault | with_reducible apply Frame.ite | with_reducible apply Frame.iteFst | with_reducible apply FrameOut.ite | fail_if_no_progress (with_reducible refine Frame.set ?_) | split | dsimp only | refine Frame.ofFst ?_ (by assumption) | refine Frame.ofSnd2 ?_ (by assumption) | refine FrameOpt.kept ?_ _ (by assumption) | refine FrameOut.kept ?_ _ (by assumption)))

theorem execChallenge_frame {t : Stamp} {transport : Transport} {slot : Nat} {nonce : Nat} {s : State} {pm : List Part} {z0 : State} (hk : Frame pm z0 s) (m_time : Part.time ∈ pm := by assumption) (m_host : Part.host ∈ pm := by assumption) (m_fw : Part.fw ∈ pm := by assumption) (m_fault : Part.fault ∈ pm := by assumption) (m_sec : Part.sec ∈ pm := by assumption) (m_pwr : Part.pwr ∈ pm := by assumption) (m_mgmt : Part.mgmt ∈ pm := by assumption) (m_out : Part.out ∈ pm := by assumption) (m_fresh : Part.fresh ∈ pm := by assumption) : FrameOut pm z0 (execChallenge t transport slot nonce s) := by
  unfold execChallenge
  try dsimp only
  repeat (any_goals (first | intro _ | with_reducible assumption | with_reducible refine sideRow_frame ?_ | with_reducible apply FrameOut.next | exact FrameOut.fault | with_reducible apply Frame.ite | with_reducible apply Frame.iteFst | with_reducible apply FrameOut.ite | fail_if_no_progress (with_reducible refine Frame.set ?_) | split | dsimp only | refine Frame.ofFst ?_ (by assumption) | refine Frame.ofSnd2 ?_ (by assumption) | refine FrameOpt.kept ?_ _ (by assumption) | refine FrameOut.kept ?_ _ (by assumption)))

theorem execGetMeasurements_frame {t : Stamp} {transport : Transport} {index : Nat} {s : State} {pm : List Part} {z0 : State} (hk : Frame pm z0 s) (m_time : Part.time ∈ pm := by assumption) (m_host : Part.host ∈ pm := by assumption) (m_fw : Part.fw ∈ pm := by assumption) (m_fault : Part.fault ∈ pm := by assumption) (m_sec : Part.sec ∈ pm := by assumption) (m_pwr : Part.pwr ∈ pm := by assumption) (m_mgmt : Part.mgmt ∈ pm := by assumption) (m_out : Part.out ∈ pm := by assumption) (m_fresh : Part.fresh ∈ pm := by assumption) : FrameOut pm z0 (execGetMeasurements t transport index s) := by
  unfold execGetMeasurements
  try dsimp only
  repeat (any_goals (first | intro _ | with_reducible assumption | with_reducible refine sideRow_frame ?_ | with_reducible apply FrameOut.next | exact FrameOut.fault | with_reducible apply Frame.ite | with_reducible apply Frame.iteFst | with_reducible apply FrameOut.ite | fail_if_no_progress (with_reducible refine Frame.set ?_) | split | dsimp only | refine Frame.ofFst ?_ (by assumption) | refine Frame.ofSnd2 ?_ (by assumption) | refine FrameOpt.kept ?_ _ (by assumption) | refine FrameOut.kept ?_ _ (by assumption)))

theorem execKeyExchange_frame {t : Stamp} {transport : Transport} {s : State} {pm : List Part} {z0 : State} (hk : Frame pm z0 s) (m_time : Part.time ∈ pm := by assumption) (m_host : Part.host ∈ pm := by assumption) (m_fw : Part.fw ∈ pm := by assumption) (m_fault : Part.fault ∈ pm := by assumption) (m_sec : Part.sec ∈ pm := by assumption) (m_pwr : Part.pwr ∈ pm := by assumption) (m_mgmt : Part.mgmt ∈ pm := by assumption) (m_out : Part.out ∈ pm := by assumption) (m_fresh : Part.fresh ∈ pm := by assumption) : FrameOut pm z0 (execKeyExchange t transport s) := by
  unfold execKeyExchange
  try dsimp only
  repeat (any_goals (first | intro _ | with_reducible assumption | with_reducible refine sideRow_frame ?_ | with_reducible apply FrameOut.next | exact FrameOut.fault | with_reducible apply Frame.ite | with_reducible apply Frame.iteFst | with_reducible apply FrameOut.ite | fail_if_no_progress (with_reducible refine Frame.set ?_) | split | dsimp only | refine Frame.ofFst ?_ (by assumption) | refine Frame.ofSnd2 ?_ (by assumption) | refine FrameOpt.kept ?_ _ (by assumption) | refine FrameOut.kept ?_ _ (by assumption)))

theorem execFinish_frame {t : Stamp} {transport : Transport} {session : Nat} {macOk : Bool} {s : State} {pm : List Part} {z0 : State} (hk : Frame pm z0 s) (m_time : Part.time ∈ pm := by assumption) (m_host : Part.host ∈ pm := by assumption) (m_fw : Part.fw ∈ pm := by assumption) (m_fault : Part.fault ∈ pm := by assumption) (m_sec : Part.sec ∈ pm := by assumption) (m_pwr : Part.pwr ∈ pm := by assumption) (m_mgmt : Part.mgmt ∈ pm := by assumption) (m_out : Part.out ∈ pm := by assumption) (m_fresh : Part.fresh ∈ pm := by assumption) : FrameOut pm z0 (execFinish t transport session macOk s) := by
  unfold execFinish
  try dsimp only
  repeat (any_goals (first | intro _ | with_reducible assumption | with_reducible refine sideRow_frame ?_ | with_reducible apply FrameOut.next | exact FrameOut.fault | with_reducible apply Frame.ite | with_reducible apply Frame.iteFst | with_reducible apply FrameOut.ite | fail_if_no_progress (with_reducible refine Frame.set ?_) | split | dsimp only | refine Frame.ofFst ?_ (by assumption) | refine Frame.ofSnd2 ?_ (by assumption) | refine FrameOpt.kept ?_ _ (by assumption) | refine FrameOut.kept ?_ _ (by assumption)))

theorem execHeartbeat_frame {t : Stamp} {transport : Transport} {session : Nat} {s : State} {pm : List Part} {z0 : State} (hk : Frame pm z0 s) (m_time : Part.time ∈ pm := by assumption) (m_host : Part.host ∈ pm := by assumption) (m_fw : Part.fw ∈ pm := by assumption) (m_fault : Part.fault ∈ pm := by assumption) (m_sec : Part.sec ∈ pm := by assumption) (m_pwr : Part.pwr ∈ pm := by assumption) (m_mgmt : Part.mgmt ∈ pm := by assumption) (m_out : Part.out ∈ pm := by assumption) (m_fresh : Part.fresh ∈ pm := by assumption) : FrameOut pm z0 (execHeartbeat t transport session s) := by
  unfold execHeartbeat
  try dsimp only
  repeat (any_goals (first | intro _ | with_reducible assumption | with_reducible refine sideRow_frame ?_ | with_reducible apply FrameOut.next | exact FrameOut.fault | with_reducible apply Frame.ite | with_reducible apply Frame.iteFst | with_reducible apply FrameOut.ite | fail_if_no_progress (with_reducible refine Frame.set ?_) | split | dsimp only | refine Frame.ofFst ?_ (by assumption) | refine Frame.ofSnd2 ?_ (by assumption) | refine FrameOpt.kept ?_ _ (by assumption) | refine FrameOut.kept ?_ _ (by assumption)))

theorem execKeyUpdate_frame {t : Stamp} {transport : Transport} {session : Nat} {s : State} {pm : List Part} {z0 : State} (hk : Frame pm z0 s) (m_time : Part.time ∈ pm := by assumption) (m_host : Part.host ∈ pm := by assumption) (m_fw : Part.fw ∈ pm := by assumption) (m_fault : Part.fault ∈ pm := by assumption) (m_sec : Part.sec ∈ pm := by assumption) (m_pwr : Part.pwr ∈ pm := by assumption) (m_mgmt : Part.mgmt ∈ pm := by assumption) (m_out : Part.out ∈ pm := by assumption) (m_fresh : Part.fresh ∈ pm := by assumption) : FrameOut pm z0 (execKeyUpdate t transport session s) := by
  unfold execKeyUpdate
  try dsimp only
  repeat (any_goals (first | intro _ | with_reducible assumption | with_reducible refine sideRow_frame ?_ | with_reducible apply FrameOut.next | exact FrameOut.fault | with_reducible apply Frame.ite | with_reducible apply Frame.iteFst | with_reducible apply FrameOut.ite | fail_if_no_progress (with_reducible refine Frame.set ?_) | split | dsimp only | refine Frame.ofFst ?_ (by assumption) | refine Frame.ofSnd2 ?_ (by assumption) | refine FrameOpt.kept ?_ _ (by assumption) | refine FrameOut.kept ?_ _ (by assumption)))

theorem execEndSession_frame {t : Stamp} {transport : Transport} {session : Nat} {s : State} {pm : List Part} {z0 : State} (hk : Frame pm z0 s) (m_time : Part.time ∈ pm := by assumption) (m_host : Part.host ∈ pm := by assumption) (m_fw : Part.fw ∈ pm := by assumption) (m_fault : Part.fault ∈ pm := by assumption) (m_sec : Part.sec ∈ pm := by assumption) (m_pwr : Part.pwr ∈ pm := by assumption) (m_mgmt : Part.mgmt ∈ pm := by assumption) (m_out : Part.out ∈ pm := by assumption) (m_fresh : Part.fresh ∈ pm := by assumption) : FrameOut pm z0 (execEndSession t transport session s) := by
  unfold execEndSession
  try dsimp only
  repeat (any_goals (first | intro _ | with_reducible assumption | with_reducible refine sideRow_frame ?_ | with_reducible apply FrameOut.next | exact FrameOut.fault | with_reducible apply Frame.ite | with_reducible apply Frame.iteFst | with_reducible apply FrameOut.ite | fail_if_no_progress (with_reducible refine Frame.set ?_) | split | dsimp only | refine Frame.ofFst ?_ (by assumption) | refine Frame.ofSnd2 ?_ (by assumption) | refine FrameOpt.kept ?_ _ (by assumption) | refine FrameOut.kept ?_ _ (by assumption)))

theorem execIdeKm_frame {t : Stamp} {session : Nat} {stream : Nat} {rids : List Fn} {key : Bool} {s : State} {pm : List Part} {z0 : State} (hk : Frame pm z0 s) (m_time : Part.time ∈ pm := by assumption) (m_host : Part.host ∈ pm := by assumption) (m_fw : Part.fw ∈ pm := by assumption) (m_fault : Part.fault ∈ pm := by assumption) (m_sec : Part.sec ∈ pm := by assumption) (m_pwr : Part.pwr ∈ pm := by assumption) (m_mgmt : Part.mgmt ∈ pm := by assumption) (m_out : Part.out ∈ pm := by assumption) (m_fresh : Part.fresh ∈ pm := by assumption) : FrameOut pm z0 (execIdeKm t session stream rids key s) := by
  unfold execIdeKm
  try dsimp only
  repeat (any_goals (first | intro _ | with_reducible assumption | with_reducible refine sideRow_frame ?_ | with_reducible apply FrameOut.next | exact FrameOut.fault | with_reducible apply Frame.ite | with_reducible apply Frame.iteFst | with_reducible apply FrameOut.ite | fail_if_no_progress (with_reducible refine Frame.set ?_) | split | dsimp only | refine Frame.ofFst ?_ (by assumption) | refine Frame.ofSnd2 ?_ (by assumption) | refine FrameOpt.kept ?_ _ (by assumption) | refine FrameOut.kept ?_ _ (by assumption)))

theorem answerLatched_frame {s : State} {pm : List Part} {z0 : State} (hk : Frame pm z0 s) (m_time : Part.time ∈ pm := by assumption) (m_bar : Part.bar ∈ pm := by assumption) (m_host : Part.host ∈ pm := by assumption) (m_benches : Part.benches ∈ pm := by assumption) (m_work : Part.work ∈ pm := by assumption) (m_plan : Part.plan ∈ pm := by assumption) (m_haul : Part.haul ∈ pm := by assumption) (m_tier : Part.tier ∈ pm := by assumption) (m_shards : Part.shards ∈ pm := by assumption) (m_fab : Part.fab ∈ pm := by assumption) (m_win : Part.win ∈ pm := by assumption) (m_fw : Part.fw ∈ pm := by assumption) (m_fault : Part.fault ∈ pm := by assumption) (m_sec : Part.sec ∈ pm := by assumption) (m_pwr : Part.pwr ∈ pm := by assumption) (m_mgmt : Part.mgmt ∈ pm := by assumption) (m_out : Part.out ∈ pm := by assumption) (m_spent : Part.spent ∈ pm := by assumption) (m_fresh : Part.fresh ∈ pm := by assumption) : Frame pm z0 (answerLatched s) := by
  unfold answerLatched
  try dsimp only
  repeat (any_goals (first | intro _ | with_reducible assumption | with_reducible refine sideAnswer_frame ?_ | with_reducible refine mgmtTake_frame ?_ | with_reducible apply foldl_frame | with_reducible apply foldl_frame_fst | with_reducible apply Frame.ite | with_reducible apply Frame.iteFst | fail_if_no_progress (with_reducible refine Frame.set ?_) | split | dsimp only | refine Frame.ofFst ?_ (by assumption) | refine Frame.ofSnd2 ?_ (by assumption) | refine FrameOpt.kept ?_ _ (by assumption) | refine FrameOut.kept ?_ _ (by assumption)))

theorem execWakeComplete_frame {t : Stamp} {s : State} {pm : List Part} {z0 : State} (hk : Frame pm z0 s) (m_time : Part.time ∈ pm := by assumption) (m_bar : Part.bar ∈ pm := by assumption) (m_host : Part.host ∈ pm := by assumption) (m_benches : Part.benches ∈ pm := by assumption) (m_work : Part.work ∈ pm := by assumption) (m_plan : Part.plan ∈ pm := by assumption) (m_haul : Part.haul ∈ pm := by assumption) (m_tier : Part.tier ∈ pm := by assumption) (m_shards : Part.shards ∈ pm := by assumption) (m_fab : Part.fab ∈ pm := by assumption) (m_win : Part.win ∈ pm := by assumption) (m_fw : Part.fw ∈ pm := by assumption) (m_fault : Part.fault ∈ pm := by assumption) (m_sec : Part.sec ∈ pm := by assumption) (m_pwr : Part.pwr ∈ pm := by assumption) (m_mgmt : Part.mgmt ∈ pm := by assumption) (m_out : Part.out ∈ pm := by assumption) (m_spent : Part.spent ∈ pm := by assumption) (m_fresh : Part.fresh ∈ pm := by assumption) : FrameOut pm z0 (execWakeComplete t s) := by
  unfold execWakeComplete
  try dsimp only
  repeat (any_goals (first | intro _ | with_reducible assumption | with_reducible refine run_frame ?_ ?_ | with_reducible refine answerLatched_frame ?_ | with_reducible refine woken_frame ?_ | with_reducible apply FrameOut.next | exact FrameOut.fault | with_reducible apply Frame.ite | with_reducible apply Frame.iteFst | with_reducible apply FrameOut.ite | fail_if_no_progress (with_reducible refine Frame.set ?_) | split | dsimp only | refine Frame.ofFst ?_ (by assumption) | refine Frame.ofSnd2 ?_ (by assumption) | refine FrameOpt.kept ?_ _ (by assumption) | refine FrameOut.kept ?_ _ (by assumption)))

theorem afterKeep_frame {s : State} {pm : List Part} {z0 : State} (hk : Frame pm z0 s) (m_time : Part.time ∈ pm := by assumption) (m_bar : Part.bar ∈ pm := by assumption) (m_host : Part.host ∈ pm := by assumption) (m_benches : Part.benches ∈ pm := by assumption) (m_work : Part.work ∈ pm := by assumption) (m_plan : Part.plan ∈ pm := by assumption) (m_haul : Part.haul ∈ pm := by assumption) (m_tier : Part.tier ∈ pm := by assumption) (m_shards : Part.shards ∈ pm := by assumption) (m_fab : Part.fab ∈ pm := by assumption) (m_win : Part.win ∈ pm := by assumption) (m_fw : Part.fw ∈ pm := by assumption) (m_fault : Part.fault ∈ pm := by assumption) (m_sec : Part.sec ∈ pm := by assumption) (m_pwr : Part.pwr ∈ pm := by assumption) (m_mgmt : Part.mgmt ∈ pm := by assumption) (m_out : Part.out ∈ pm := by assumption) (m_spent : Part.spent ∈ pm := by assumption) (m_fresh : Part.fresh ∈ pm := by assumption) : Frame pm z0 (afterKeep s) := by
  unfold afterKeep
  try dsimp only
  repeat (any_goals (first | intro _ | with_reducible assumption | with_reducible refine answerLatched_frame ?_ | with_reducible apply Frame.ite | with_reducible apply Frame.iteFst | fail_if_no_progress (with_reducible refine Frame.set ?_) | split | dsimp only | refine Frame.ofFst ?_ (by assumption) | refine Frame.ofSnd2 ?_ (by assumption) | refine FrameOpt.kept ?_ _ (by assumption) | refine FrameOut.kept ?_ _ (by assumption)))

theorem execRestEntryComplete_frame {t : Stamp} {s : State} {pm : List Part} {z0 : State} (hk : Frame pm z0 s) (m_time : Part.time ∈ pm := by assumption) (m_bar : Part.bar ∈ pm := by assumption) (m_host : Part.host ∈ pm := by assumption) (m_benches : Part.benches ∈ pm := by assumption) (m_work : Part.work ∈ pm := by assumption) (m_plan : Part.plan ∈ pm := by assumption) (m_haul : Part.haul ∈ pm := by assumption) (m_tier : Part.tier ∈ pm := by assumption) (m_shards : Part.shards ∈ pm := by assumption) (m_fab : Part.fab ∈ pm := by assumption) (m_win : Part.win ∈ pm := by assumption) (m_fw : Part.fw ∈ pm := by assumption) (m_fault : Part.fault ∈ pm := by assumption) (m_sec : Part.sec ∈ pm := by assumption) (m_pwr : Part.pwr ∈ pm := by assumption) (m_mgmt : Part.mgmt ∈ pm := by assumption) (m_out : Part.out ∈ pm := by assumption) (m_spent : Part.spent ∈ pm := by assumption) (m_fresh : Part.fresh ∈ pm := by assumption) : FrameOut pm z0 (execRestEntryComplete t s) := by
  unfold execRestEntryComplete
  try dsimp only
  repeat (any_goals (first | intro _ | with_reducible assumption | with_reducible refine run_frame ?_ ?_ | with_reducible refine afterKeep_frame ?_ | with_reducible refine restEntered_frame ?_ | with_reducible apply FrameOut.next | exact FrameOut.fault | with_reducible apply Frame.ite | with_reducible apply Frame.iteFst | with_reducible apply FrameOut.ite | fail_if_no_progress (with_reducible refine Frame.set ?_) | split | dsimp only | refine Frame.ofFst ?_ (by assumption) | refine Frame.ofSnd2 ?_ (by assumption) | refine FrameOpt.kept ?_ _ (by assumption) | refine FrameOut.kept ?_ _ (by assumption)))

theorem execFlowLoss_frame {t : Stamp} {s : State} {pm : List Part} {z0 : State} (hk : Frame pm z0 s) (m_time : Part.time ∈ pm := by assumption) (m_bar : Part.bar ∈ pm := by assumption) (m_host : Part.host ∈ pm := by assumption) (m_benches : Part.benches ∈ pm := by assumption) (m_work : Part.work ∈ pm := by assumption) (m_plan : Part.plan ∈ pm := by assumption) (m_haul : Part.haul ∈ pm := by assumption) (m_tier : Part.tier ∈ pm := by assumption) (m_shards : Part.shards ∈ pm := by assumption) (m_fab : Part.fab ∈ pm := by assumption) (m_win : Part.win ∈ pm := by assumption) (m_fw : Part.fw ∈ pm := by assumption) (m_fault : Part.fault ∈ pm := by assumption) (m_sec : Part.sec ∈ pm := by assumption) (m_pwr : Part.pwr ∈ pm := by assumption) (m_mgmt : Part.mgmt ∈ pm := by assumption) (m_out : Part.out ∈ pm := by assumption) (m_spent : Part.spent ∈ pm := by assumption) (m_fresh : Part.fresh ∈ pm := by assumption) : FrameOut pm z0 (execFlowLoss t s) := by
  unfold execFlowLoss
  try dsimp only
  repeat (any_goals (first | intro _ | with_reducible assumption | with_reducible refine run_frame ?_ ?_ | with_reducible refine afterKeep_frame ?_ | with_reducible refine flowLost_frame ?_ | with_reducible apply FrameOut.next | exact FrameOut.fault | with_reducible apply Frame.ite | with_reducible apply Frame.iteFst | with_reducible apply FrameOut.ite | fail_if_no_progress (with_reducible refine Frame.set ?_) | split | dsimp only | refine Frame.ofFst ?_ (by assumption) | refine Frame.ofSnd2 ?_ (by assumption) | refine FrameOpt.kept ?_ _ (by assumption) | refine FrameOut.kept ?_ _ (by assumption)))

theorem writeReadoutCtrl_frame {t : Stamp} {fn : Fn} {value : Word} {s : State} {pm : List Part} {z0 : State} (hk : Frame pm z0 s) (m_time : Part.time ∈ pm := by assumption) (m_bar : Part.bar ∈ pm := by assumption) (m_host : Part.host ∈ pm := by assumption) (m_fab : Part.fab ∈ pm := by assumption) (m_fault : Part.fault ∈ pm := by assumption) (m_out : Part.out ∈ pm := by assumption) (m_spent : Part.spent ∈ pm := by assumption) : FrameOut pm z0 (writeReadoutCtrl t fn value s) := by
  unfold writeReadoutCtrl
  try dsimp only
  repeat (any_goals (first | intro _ | with_reducible assumption | with_reducible refine run_frame ?_ ?_ | with_reducible refine writeReg_frame ?_ | with_reducible refine execReadoutConv_frame ?_ | with_reducible refine execReadoutList_frame ?_ | with_reducible apply FrameOut.next | exact FrameOut.fault | with_reducible apply Frame.ite | with_reducible apply Frame.iteFst | with_reducible apply FrameOut.ite | fail_if_no_progress (with_reducible refine Frame.set ?_) | split | dsimp only | refine Frame.ofFst ?_ (by assumption) | refine Frame.ofSnd2 ?_ (by assumption) | refine FrameOpt.kept ?_ _ (by assumption) | refine FrameOut.kept ?_ _ (by assumption)))

theorem writeNothing_frame {t : Stamp} {fn : Fn} {off : Nat} {s : State} {pm : List Part} {z0 : State} (hk : Frame pm z0 s) (m_time : Part.time ∈ pm := by assumption) (m_bar : Part.bar ∈ pm := by assumption) (m_fault : Part.fault ∈ pm := by assumption) (m_out : Part.out ∈ pm := by assumption) : FrameOut pm z0 (writeNothing t fn off s) := by
  unfold writeNothing
  try dsimp only
  repeat (any_goals (first | intro _ | with_reducible assumption | with_reducible refine pfWrite_frame ?_ ?_ | with_reducible apply FrameOut.next | exact FrameOut.fault | with_reducible apply Frame.ite | with_reducible apply Frame.iteFst | with_reducible apply FrameOut.ite | fail_if_no_progress (with_reducible refine Frame.set ?_) | split | dsimp only | refine Frame.ofFst ?_ (by assumption) | refine Frame.ofSnd2 ?_ (by assumption) | refine FrameOpt.kept ?_ _ (by assumption) | refine FrameOut.kept ?_ _ (by assumption)))

theorem execRegisterWrite_frame {t : Stamp} {fn : Fn} {off : Nat} {value : Word} {s : State} {pm : List Part} {z0 : State} (hk : Frame pm z0 s) (m_time : Part.time ∈ pm := by assumption) (m_bar : Part.bar ∈ pm := by assumption) (m_host : Part.host ∈ pm := by assumption) (m_benches : Part.benches ∈ pm := by assumption) (m_work : Part.work ∈ pm := by assumption) (m_plan : Part.plan ∈ pm := by assumption) (m_haul : Part.haul ∈ pm := by assumption) (m_tier : Part.tier ∈ pm := by assumption) (m_shards : Part.shards ∈ pm := by assumption) (m_fab : Part.fab ∈ pm := by assumption) (m_win : Part.win ∈ pm := by assumption) (m_fw : Part.fw ∈ pm := by assumption) (m_fault : Part.fault ∈ pm := by assumption) (m_sec : Part.sec ∈ pm := by assumption) (m_pwr : Part.pwr ∈ pm := by assumption) (m_mgmt : Part.mgmt ∈ pm := by assumption) (m_out : Part.out ∈ pm := by assumption) (m_spent : Part.spent ∈ pm := by assumption) : FrameOut pm z0 (execRegisterWrite t fn off value s) := by
  unfold execRegisterWrite
  try dsimp only
  repeat (any_goals (first | intro _ | with_reducible assumption | with_reducible refine execSetupLockWrite_frame ?_ | with_reducible refine execRestRequest_frame ?_ | with_reducible refine writeNothing_frame ?_ | with_reducible refine execPwResetCtrlWarm_frame ?_ | with_reducible refine execPwOverrideClear_frame ?_ | with_reducible refine execRlKeepCtrlEnter_frame ?_ | with_reducible refine writeReadoutCtrl_frame ?_ | with_reducible refine execScKeyCtrlErase_frame ?_ | with_reducible refine execBnSetupLockWrite_frame ?_ | with_reducible refine execRingErrOverrunClear_frame ?_ | with_reducible refine run_frame ?_ ?_ | with_reducible refine writeReg_frame ?_ | with_reducible apply FrameOut.next | exact FrameOut.fault | with_reducible apply Frame.ite | with_reducible apply Frame.iteFst | with_reducible apply FrameOut.ite | fail_if_no_progress (with_reducible refine Frame.set ?_) | split | dsimp only | refine Frame.ofFst ?_ (by assumption) | refine Frame.ofSnd2 ?_ (by assumption) | refine FrameOpt.kept ?_ _ (by assumption) | refine FrameOut.kept ?_ _ (by assumption)))

theorem newPage_frame {s : State} {c : Conv} {p : Package} {cells : List Nat} {g : Nat} {l : Nat} {h : Nat} {pm : List Part} {z0 : State} (hk : Frame pm z0 s) (m_fresh : Part.fresh ∈ pm := by assumption) : Frame pm z0 (newPage s c p cells g l h).1 := by
  unfold newPage
  try dsimp only
  repeat (any_goals (first | intro _ | with_reducible assumption | with_reducible refine newPageId_frame ?_ | with_reducible apply Frame.ite | with_reducible apply Frame.iteFst | fail_if_no_progress (with_reducible refine Frame.set ?_) | split | dsimp only | refine Frame.ofFst ?_ (by assumption) | refine Frame.ofSnd2 ?_ (by assumption) | refine FrameOpt.kept ?_ _ (by assumption) | refine FrameOut.kept ?_ _ (by assumption)))

theorem openGroup_frame {s : State} {k : Nat} {g : Nat} {p : Package} {cells : List Nat} {pm : List Part} {z0 : State} (hk : Frame pm z0 s) (m_work : Part.work ∈ pm := by assumption) (m_fresh : Part.fresh ∈ pm := by assumption) : Frame pm z0 (openGroup s k g p cells) := by
  unfold openGroup
  try dsimp only
  repeat (any_goals (first | intro _ | with_reducible assumption | with_reducible refine newPage_frame ?_ | with_reducible refine modConv_frame ?_ | with_reducible apply foldl_frame | with_reducible apply foldl_frame_fst | with_reducible apply Frame.ite | with_reducible apply Frame.iteFst | fail_if_no_progress (with_reducible refine Frame.set ?_) | split | dsimp only | refine Frame.ofFst ?_ (by assumption) | refine Frame.ofSnd2 ?_ (by assumption) | refine FrameOpt.kept ?_ _ (by assumption) | refine FrameOut.kept ?_ _ (by assumption)))

theorem sealGroup_frame {s : State} {k : Nat} {g : Nat} {n : Nat} {pm : List Part} {z0 : State} (hk : Frame pm z0 s) (m_benches : Part.benches ∈ pm := by assumption) (m_work : Part.work ∈ pm := by assumption) : Frame pm z0 (sealGroup s k g n) := by
  unfold sealGroup
  try dsimp only
  repeat (any_goals (first | intro _ | with_reducible assumption | with_reducible refine modConv_frame ?_ | with_reducible refine joinFits_frame ?_ | with_reducible apply Frame.ite | with_reducible apply Frame.iteFst | fail_if_no_progress (with_reducible refine Frame.set ?_) | split | dsimp only | refine Frame.ofFst ?_ (by assumption) | refine Frame.ofSnd2 ?_ (by assumption) | refine FrameOpt.kept ?_ _ (by assumption) | refine FrameOut.kept ?_ _ (by assumption)))

theorem appendPos_frame {s : State} {u : WorkUnit} {first : Nat} {x : NewRow} {pos : Nat} {short : Bool} {n : Nat} {pm : List Part} {z0 : State} (hk : Frame pm z0 s) (m_bar : Part.bar ∈ pm := by assumption) (m_benches : Part.benches ∈ pm := by assumption) (m_work : Part.work ∈ pm := by assumption) (m_fresh : Part.fresh ∈ pm := by assumption) : Frame pm z0 (appendPos s u first x pos short n) := by
  unfold appendPos
  try dsimp only
  repeat (any_goals (first | intro _ | with_reducible assumption | with_reducible refine openGroup_frame ?_ | with_reducible refine modConv_frame ?_ | with_reducible refine countClips_frame ?_ | with_reducible refine sealGroup_frame ?_ | with_reducible apply Frame.ite | with_reducible apply Frame.iteFst | fail_if_no_progress (with_reducible refine Frame.set ?_) | split | dsimp only | refine Frame.ofFst ?_ (by assumption) | refine Frame.ofSnd2 ?_ (by assumption) | refine FrameOpt.kept ?_ _ (by assumption) | refine FrameOut.kept ?_ _ (by assumption)))

theorem appendRun_frame {s : State} {u : WorkUnit} {first : Nat} {rows : List NewRow} {short : Bool} {n : Nat} {pm : List Part} {z0 : State} (hk : Frame pm z0 s) (m_bar : Part.bar ∈ pm := by assumption) (m_benches : Part.benches ∈ pm := by assumption) (m_work : Part.work ∈ pm := by assumption) (m_fresh : Part.fresh ∈ pm := by assumption) : Frame pm z0 (appendRun s u first rows short n) := by
  unfold appendRun
  try dsimp only
  repeat (any_goals (first | intro _ | with_reducible assumption | with_reducible refine appendPos_frame ?_ | with_reducible apply foldl_frame | with_reducible apply foldl_frame_fst | with_reducible apply Frame.ite | with_reducible apply Frame.iteFst | fail_if_no_progress (with_reducible refine Frame.set ?_) | split | dsimp only | refine Frame.ofFst ?_ (by assumption) | refine Frame.ofSnd2 ?_ (by assumption) | refine FrameOpt.kept ?_ _ (by assumption) | refine FrameOut.kept ?_ _ (by assumption)))

theorem noteMissing_frame {s : State} {pm : List Part} {z0 : State} (hk : Frame pm z0 s) (m_plan : Part.plan ∈ pm := by assumption) : Frame pm z0 (noteMissing s) := by
  unfold noteMissing
  try dsimp only
  repeat (any_goals (first | intro _ | with_reducible assumption | with_reducible apply Frame.ite | with_reducible apply Frame.iteFst | fail_if_no_progress (with_reducible refine Frame.set ?_) | split | dsimp only | refine Frame.ofFst ?_ (by assumption) | refine Frame.ofSnd2 ?_ (by assumption) | refine FrameOpt.kept ?_ _ (by assumption) | refine FrameOut.kept ?_ _ (by assumption)))

theorem unitAgain_frame {s : State} {u : WorkUnit} {pm : List Part} {z0 : State} (hk : Frame pm z0 s) (m_bar : Part.bar ∈ pm := by assumption) (m_benches : Part.benches ∈ pm := by assumption) (m_plan : Part.plan ∈ pm := by assumption) : Frame pm z0 (unitAgain s u) := by
  unfold unitAgain
  try dsimp only
  repeat (any_goals (first | intro _ | with_reducible assumption | with_reducible refine setBench_frame ?_ | with_reducible refine count_frame ?_ | with_reducible apply Frame.ite | with_reducible apply Frame.iteFst | fail_if_no_progress (with_reducible refine Frame.set ?_) | split | dsimp only | refine Frame.ofFst ?_ (by assumption) | refine Frame.ofSnd2 ?_ (by assumption) | refine FrameOpt.kept ?_ _ (by assumption) | refine FrameOut.kept ?_ _ (by assumption)))

theorem pagesRead_frame {s : State} {k : Nat} {n : Nat} {pm : List Part} {z0 : State} (hk : Frame pm z0 s) (m_work : Part.work ∈ pm := by assumption) : Frame pm z0 (pagesRead s k n) := by
  unfold pagesRead
  try dsimp only
  repeat (any_goals (first | intro _ | with_reducible assumption | with_reducible refine modConv_frame ?_ | with_reducible apply Frame.ite | with_reducible apply Frame.iteFst | fail_if_no_progress (with_reducible refine Frame.set ?_) | split | dsimp only | refine Frame.ofFst ?_ (by assumption) | refine Frame.ofSnd2 ?_ (by assumption) | refine FrameOpt.kept ?_ _ (by assumption) | refine FrameOut.kept ?_ _ (by assumption)))

theorem countClamps_frame {s : State} {u : WorkUnit} {first : Nat} {pm : List Part} {z0 : State} (hk : Frame pm z0 s) (m_bar : Part.bar ∈ pm := by assumption) : Frame pm z0 (countClamps s u first) := by
  unfold countClamps
  try dsimp only
  repeat (any_goals (first | intro _ | with_reducible assumption | with_reducible refine countHalf_frame ?_ | with_reducible apply Frame.ite | with_reducible apply Frame.iteFst | fail_if_no_progress (with_reducible refine Frame.set ?_) | split | dsimp only | refine Frame.ofFst ?_ (by assumption) | refine Frame.ofSnd2 ?_ (by assumption) | refine FrameOpt.kept ?_ _ (by assumption) | refine FrameOut.kept ?_ _ (by assumption)))

theorem commitStep_frame {s : State} {u : WorkUnit} {gap : Nat} {n : Nat} {pm : List Part} {z0 : State} (hk : Frame pm z0 s) (m_bar : Part.bar ∈ pm := by assumption) (m_benches : Part.benches ∈ pm := by assumption) (m_work : Part.work ∈ pm := by assumption) (m_fresh : Part.fresh ∈ pm := by assumption) : Frame pm z0 (commitStep s u gap n).1 := by
  unfold commitStep
  try dsimp only
  repeat (any_goals (first | intro _ | with_reducible assumption | with_reducible refine addTokens_frame ?_ | with_reducible refine appendRun_frame ?_ | with_reducible refine modReq_frame ?_ | with_reducible refine count_frame ?_ | with_reducible refine setBench_frame ?_ | with_reducible refine countClamps_frame ?_ | with_reducible refine pagesRead_frame ?_ | with_reducible apply foldl_frame | with_reducible apply foldl_frame_fst | with_reducible apply Frame.ite | with_reducible apply Frame.iteFst | fail_if_no_progress (with_reducible refine Frame.set ?_) | split | dsimp only | refine Frame.ofFst ?_ (by assumption) | refine Frame.ofSnd2 ?_ (by assumption) | refine FrameOpt.kept ?_ _ (by assumption) | refine FrameOut.kept ?_ _ (by assumption)))

theorem advance_frame {s : State} {k : Nat} {pm : List Part} {z0 : State} (hk : Frame pm z0 s) (m_work : Part.work ∈ pm := by assumption) (m_haul : Part.haul ∈ pm := by assumption) (m_tier : Part.tier ∈ pm := by assumption) (m_out : Part.out ∈ pm := by assumption) (m_spent : Part.spent ∈ pm := by assumption) : Frame pm z0 (advance s k) := by
  unfold advance
  try dsimp only
  repeat (any_goals (first | intro _ | with_reducible assumption | with_reducible refine putReq_frame ?_ | with_reducible refine sendOffer_frame ?_ | with_reducible refine startHaul_frame ?_ | with_reducible apply Frame.ite | with_reducible apply Frame.iteFst | fail_if_no_progress (with_reducible refine Frame.set ?_) | split | dsimp only | refine Frame.ofFst ?_ (by assumption) | refine Frame.ofSnd2 ?_ (by assumption) | refine FrameOpt.kept ?_ _ (by assumption) | refine FrameOut.kept ?_ _ (by assumption)))

theorem commitChunk_frame {s : State} {u : WorkUnit} {gap : Nat} {n : Nat} {pm : List Part} {z0 : State} (hk : Frame pm z0 s) (m_bar : Part.bar ∈ pm := by assumption) (m_benches : Part.benches ∈ pm := by assumption) (m_work : Part.work ∈ pm := by assumption) (m_haul : Part.haul ∈ pm := by assumption) (m_tier : Part.tier ∈ pm := by assumption) (m_mgmt : Part.mgmt ∈ pm := by assumption) (m_out : Part.out ∈ pm := by assumption) (m_spent : Part.spent ∈ pm := by assumption) (m_fresh : Part.fresh ∈ pm := by assumption) : Frame pm z0 (commitChunk s u gap n) := by
  unfold commitChunk
  try dsimp only
  repeat (any_goals (first | intro _ | with_reducible assumption | with_reducible refine appendRun_frame ?_ | with_reducible refine modReq_frame ?_ | with_reducible refine setBench_frame ?_ | with_reducible refine countHalf_frame ?_ | with_reducible refine setMeter_frame ?_ | with_reducible refine count_frame ?_ | with_reducible refine advance_frame ?_ | with_reducible refine countClamps_frame ?_ | with_reducible refine pagesRead_frame ?_ | with_reducible apply Frame.ite | with_reducible apply Frame.iteFst | fail_if_no_progress (with_reducible refine Frame.set ?_) | split | dsimp only | refine Frame.ofFst ?_ (by assumption) | refine Frame.ofSnd2 ?_ (by assumption) | refine FrameOpt.kept ?_ _ (by assumption) | refine FrameOut.kept ?_ _ (by assumption)))

theorem pendRows_frame {s : State} {rows : WorkUnit → Nat} {pm : List Part} {z0 : State} (hk : Frame pm z0 s) (m_work : Part.work ∈ pm := by assumption) : Frame pm z0 (pendRows s rows) := by
  unfold pendRows
  try dsimp only
  repeat (any_goals (first | intro _ | with_reducible assumption | with_reducible apply foldl_frame | with_reducible apply foldl_frame_fst | with_reducible apply Frame.ite | with_reducible apply Frame.iteFst | fail_if_no_progress (with_reducible refine Frame.set ?_) | split | dsimp only | refine Frame.ofFst ?_ (by assumption) | refine Frame.ofSnd2 ?_ (by assumption) | refine FrameOpt.kept ?_ _ (by assumption) | refine FrameOut.kept ?_ _ (by assumption)))

theorem commitUnit_frame {pm : List Part} {n : Nat} {a : State × List StepDone} {u : WorkUnit} {z0 : State} (hk : Frame pm z0 a.1) (m_bar : Part.bar ∈ pm := by assumption) (m_benches : Part.benches ∈ pm := by assumption) (m_work : Part.work ∈ pm := by assumption) (m_plan : Part.plan ∈ pm := by assumption) (m_haul : Part.haul ∈ pm := by assumption) (m_tier : Part.tier ∈ pm := by assumption) (m_shards : Part.shards ∈ pm := by assumption) (m_fault : Part.fault ∈ pm := by assumption) (m_mgmt : Part.mgmt ∈ pm := by assumption) (m_out : Part.out ∈ pm := by assumption) (m_spent : Part.spent ∈ pm := by assumption) (m_fresh : Part.fresh ∈ pm := by assumption) : Frame pm z0 (commitUnit n a u).1 := by
  unfold commitUnit
  try dsimp only
  repeat (any_goals (first | with_reducible assumption | with_reducible exact hk | with_reducible refine unitAgain_frame ?_ | with_reducible refine recover_frame ?_ | with_reducible refine count_frame ?_ | with_reducible refine commitStep_frame ?_ | with_reducible refine commitChunk_frame ?_ | fail_if_no_progress (with_reducible refine Frame.set ?_) | split | dsimp only))

theorem commitUnits_frame {s : State} {n : Nat} {pm : List Part} {z0 : State} (hk : Frame pm z0 s) (m_bar : Part.bar ∈ pm := by assumption) (m_benches : Part.benches ∈ pm := by assumption) (m_work : Part.work ∈ pm := by assumption) (m_plan : Part.plan ∈ pm := by assumption) (m_haul : Part.haul ∈ pm := by assumption) (m_tier : Part.tier ∈ pm := by assumption) (m_shards : Part.shards ∈ pm := by assumption) (m_fault : Part.fault ∈ pm := by assumption) (m_mgmt : Part.mgmt ∈ pm := by assumption) (m_out : Part.out ∈ pm := by assumption) (m_spent : Part.spent ∈ pm := by assumption) (m_fresh : Part.fresh ∈ pm := by assumption) : Frame pm z0 (commitUnits s n).1 := by
  unfold commitUnits
  try dsimp only
  repeat (any_goals (first | intro _ | with_reducible assumption | with_reducible refine pendRows_frame ?_ | with_reducible refine commitUnit_frame ?_ | with_reducible apply foldl_frame | with_reducible apply foldl_frame_fst | with_reducible apply Frame.ite | with_reducible apply Frame.iteFst | fail_if_no_progress (with_reducible refine Frame.set ?_) | split | dsimp only | refine Frame.ofFst ?_ (by assumption) | refine Frame.ofSnd2 ?_ (by assumption) | refine FrameOpt.kept ?_ _ (by assumption) | refine FrameOut.kept ?_ _ (by assumption)))

theorem putProbe_frame {s : State} {k : Nat} {n : Nat} {vals : List F32} {pm : List Part} {z0 : State} (hk : Frame pm z0 s) (m_work : Part.work ∈ pm := by assumption) (m_out : Part.out ∈ pm := by assumption) : Frame pm z0 (putProbe s k n vals) := by
  unfold putProbe
  try dsimp only
  repeat (any_goals (first | intro _ | with_reducible assumption | with_reducible refine emitTo_frame ?_ | with_reducible apply Frame.ite | with_reducible apply Frame.iteFst | fail_if_no_progress (with_reducible refine Frame.set ?_) | split | dsimp only | refine Frame.ofFst ?_ (by assumption) | refine Frame.ofSnd2 ?_ (by assumption) | refine FrameOpt.kept ?_ _ (by assumption) | refine FrameOut.kept ?_ _ (by assumption)))

theorem streamStep_frame {s : State} {d : StepDone} {n : Nat} {pm : List Part} {z0 : State} (hk : Frame pm z0 s) (m_bar : Part.bar ∈ pm := by assumption) (m_work : Part.work ∈ pm := by assumption) (m_out : Part.out ∈ pm := by assumption) : Frame pm z0 (streamStep s d n) := by
  unfold streamStep
  try dsimp only
  repeat (any_goals (first | intro _ | with_reducible assumption | with_reducible refine putProbe_frame ?_ | with_reducible refine count_frame ?_ | with_reducible refine putToken_frame ?_ | with_reducible refine modReq_frame ?_ | with_reducible apply foldl_frame | with_reducible apply foldl_frame_fst | with_reducible apply Frame.ite | with_reducible apply Frame.iteFst | fail_if_no_progress (with_reducible refine Frame.set ?_) | split | dsimp only | refine Frame.ofFst ?_ (by assumption) | refine Frame.ofSnd2 ?_ (by assumption) | refine FrameOpt.kept ?_ _ (by assumption) | refine FrameOut.kept ?_ _ (by assumption)))

theorem finishStep_frame {n : Nat} {s : State} {d : StepDone} {pm : List Part} {z0 : State} (hk : Frame pm z0 s) (m_bar : Part.bar ∈ pm := by assumption) (m_benches : Part.benches ∈ pm := by assumption) (m_work : Part.work ∈ pm := by assumption) (m_plan : Part.plan ∈ pm := by assumption) (m_haul : Part.haul ∈ pm := by assumption) (m_tier : Part.tier ∈ pm := by assumption) (m_mgmt : Part.mgmt ∈ pm := by assumption) (m_out : Part.out ∈ pm := by assumption) (m_spent : Part.spent ∈ pm := by assumption) : Frame pm z0 (finishStep n s d) := by
  unfold finishStep
  try dsimp only
  repeat (any_goals (first | intro _ | with_reducible assumption | with_reducible refine setMeter_frame ?_ | with_reducible refine chargeTally_frame ?_ | with_reducible refine streamStep_frame ?_ | with_reducible refine endReq_frame ?_ | with_reducible apply Frame.ite | with_reducible apply Frame.iteFst | fail_if_no_progress (with_reducible refine Frame.set ?_) | split | dsimp only | refine Frame.ofFst ?_ (by assumption) | refine Frame.ofSnd2 ?_ (by assumption) | refine FrameOpt.kept ?_ _ (by assumption) | refine FrameOut.kept ?_ _ (by assumption)))

theorem returnCharges_frame {s : State} {pm : List Part} {z0 : State} (hk : Frame pm z0 s) (m_work : Part.work ∈ pm := by assumption) (m_plan : Part.plan ∈ pm := by assumption) : Frame pm z0 (returnCharges s) := by
  unfold returnCharges
  try dsimp only
  repeat (any_goals (first | intro _ | with_reducible assumption | with_reducible refine returnTally_frame ?_ | with_reducible apply foldl_frame | with_reducible apply foldl_frame_fst | with_reducible apply Frame.ite | with_reducible apply Frame.iteFst | fail_if_no_progress (with_reducible refine Frame.set ?_) | split | dsimp only | refine Frame.ofFst ?_ (by assumption) | refine Frame.ofSnd2 ?_ (by assumption) | refine FrameOpt.kept ?_ _ (by assumption) | refine FrameOut.kept ?_ _ (by assumption)))

theorem refills_frame {s : State} {k : Nat} {pm : List Part} {z0 : State} (hk : Frame pm z0 s) (m_work : Part.work ∈ pm := by assumption) : Frame pm z0 (refills s k) := by
  unfold refills
  try dsimp only
  repeat (any_goals (first | intro _ | with_reducible assumption | with_reducible refine refillTally_frame ?_ | with_reducible apply foldl_frame | with_reducible apply foldl_frame_fst | with_reducible apply Frame.ite | with_reducible apply Frame.iteFst | fail_if_no_progress (with_reducible refine Frame.set ?_) | split | dsimp only | refine Frame.ofFst ?_ (by assumption) | refine Frame.ofSnd2 ?_ (by assumption) | refine FrameOpt.kept ?_ _ (by assumption) | refine FrameOut.kept ?_ _ (by assumption)))

theorem endFull_frame {s : State} {n : Nat} {pm : List Part} {z0 : State} (hk : Frame pm z0 s) (m_bar : Part.bar ∈ pm := by assumption) (m_benches : Part.benches ∈ pm := by assumption) (m_work : Part.work ∈ pm := by assumption) (m_plan : Part.plan ∈ pm := by assumption) (m_haul : Part.haul ∈ pm := by assumption) (m_tier : Part.tier ∈ pm := by assumption) (m_out : Part.out ∈ pm := by assumption) (m_spent : Part.spent ∈ pm := by assumption) : Frame pm z0 (endFull s n) := by
  unfold endFull
  try dsimp only
  repeat (any_goals (first | intro _ | with_reducible assumption | with_reducible refine endReq_frame ?_ | with_reducible apply foldl_frame | with_reducible apply foldl_frame_fst | with_reducible apply Frame.ite | with_reducible apply Frame.iteFst | fail_if_no_progress (with_reducible refine Frame.set ?_) | split | dsimp only | refine Frame.ofFst ?_ (by assumption) | refine Frame.ofSnd2 ?_ (by assumption) | refine FrameOpt.kept ?_ _ (by assumption) | refine FrameOut.kept ?_ _ (by assumption)))

theorem countRuns_frame {s : State} {b : Nat} {pm : List Part} {z0 : State} (hk : Frame pm z0 s) (m_bar : Part.bar ∈ pm := by assumption) : Frame pm z0 (countRuns s b) := by
  unfold countRuns
  try dsimp only
  repeat (any_goals (first | intro _ | with_reducible assumption | with_reducible refine count_frame ?_ | with_reducible apply Frame.ite | with_reducible apply Frame.iteFst | fail_if_no_progress (with_reducible refine Frame.set ?_) | split | dsimp only | refine Frame.ofFst ?_ (by assumption) | refine Frame.ofSnd2 ?_ (by assumption) | refine FrameOpt.kept ?_ _ (by assumption) | refine FrameOut.kept ?_ _ (by assumption)))

theorem expanderCounts_frame {s : State} {benches : List Nat} {pm : List Part} {z0 : State} (hk : Frame pm z0 s) (m_bar : Part.bar ∈ pm := by assumption) : Frame pm z0 (expanderCounts s benches) := by
  unfold expanderCounts
  try dsimp only
  repeat (any_goals (first | intro _ | with_reducible assumption | with_reducible refine countRuns_frame ?_ | with_reducible apply foldl_frame | with_reducible apply foldl_frame_fst | with_reducible apply Frame.ite | with_reducible apply Frame.iteFst | fail_if_no_progress (with_reducible refine Frame.set ?_) | split | dsimp only | refine Frame.ofFst ?_ (by assumption) | refine Frame.ofSnd2 ?_ (by assumption) | refine FrameOpt.kept ?_ _ (by assumption) | refine FrameOut.kept ?_ _ (by assumption)))

theorem engineItem_frame {s : State} {b : Nat} {p : Package} {r : Nat} {k : Nat} {i : Nat} {t : BitVec 256} {g : Nat} {pm : List Part} {z0 : State} (hk : Frame pm z0 s) (m_plan : Part.plan ∈ pm := by assumption) : Frame pm z0 (engineItem s b p r k i t g) := by
  unfold engineItem
  try dsimp only
  repeat (any_goals (first | intro _ | with_reducible assumption | with_reducible refine putItem_frame ?_ | with_reducible apply Frame.ite | with_reducible apply Frame.iteFst | fail_if_no_progress (with_reducible refine Frame.set ?_) | split | dsimp only | refine Frame.ofFst ?_ (by assumption) | refine Frame.ofSnd2 ?_ (by assumption) | refine FrameOpt.kept ?_ _ (by assumption) | refine FrameOut.kept ?_ _ (by assumption)))

theorem cellItem_frame {s : State} {u : WorkUnit} {p : Package} {c : Conv} {l : Nat} {h : Nat} {set : Nat} {j : Nat} {cell : Nat} {pm : List Part} {z0 : State} (hk : Frame pm z0 s) (m_plan : Part.plan ∈ pm := by assumption) : Frame pm z0 (cellItem s u p c l h set j cell) := by
  unfold cellItem
  try dsimp only
  repeat (any_goals (first | intro _ | with_reducible assumption | with_reducible refine putItem_frame ?_ | with_reducible apply Frame.ite | with_reducible apply Frame.iteFst | fail_if_no_progress (with_reducible refine Frame.set ?_) | split | dsimp only | refine Frame.ofFst ?_ (by assumption) | refine Frame.ofSnd2 ?_ (by assumption) | refine FrameOpt.kept ?_ _ (by assumption) | refine FrameOut.kept ?_ _ (by assumption)))

theorem sampleEngines_frame {s : State} {b : Nat} {pm : List Part} {z0 : State} (hk : Frame pm z0 s) (m_plan : Part.plan ∈ pm := by assumption) (m_fresh : Part.fresh ∈ pm := by assumption) : Frame pm z0 (sampleEngines s b) := by
  unfold sampleEngines
  try dsimp only
  repeat (any_goals (first | intro _ | with_reducible assumption | with_reducible refine State_bump_frame ?_ | with_reducible refine engineItem_frame ?_ | with_reducible apply foldl_frame | with_reducible apply foldl_frame_fst | with_reducible apply Frame.ite | with_reducible apply Frame.iteFst | fail_if_no_progress (with_reducible refine Frame.set ?_) | split | dsimp only | refine Frame.ofFst ?_ (by assumption) | refine Frame.ofSnd2 ?_ (by assumption) | refine FrameOpt.kept ?_ _ (by assumption) | refine FrameOut.kept ?_ _ (by assumption)))

theorem sampleUnit_frame {s : State} {u : WorkUnit} {pm : List Part} {z0 : State} (hk : Frame pm z0 s) (m_plan : Part.plan ∈ pm := by assumption) (m_fresh : Part.fresh ∈ pm := by assumption) : Frame pm z0 (sampleUnit s u) := by
  unfold sampleUnit
  try dsimp only
  repeat (any_goals (first | intro _ | with_reducible assumption | with_reducible refine State_bump_frame ?_ | with_reducible refine cellItem_frame ?_ | with_reducible apply foldl_frame | with_reducible apply foldl_frame_fst | with_reducible apply Frame.ite | with_reducible apply Frame.iteFst | fail_if_no_progress (with_reducible refine Frame.set ?_) | split | dsimp only | refine Frame.ofFst ?_ (by assumption) | refine Frame.ofSnd2 ?_ (by assumption) | refine FrameOpt.kept ?_ _ (by assumption) | refine FrameOut.kept ?_ _ (by assumption)))

theorem startItems_frame {s : State} {pm : List Part} {z0 : State} (hk : Frame pm z0 s) (m_plan : Part.plan ∈ pm := by assumption) (m_fresh : Part.fresh ∈ pm := by assumption) : Frame pm z0 (startItems s) := by
  unfold startItems
  try dsimp only
  repeat (any_goals (first | intro _ | with_reducible assumption | with_reducible refine sampleUnit_frame ?_ | with_reducible refine sampleEngines_frame ?_ | with_reducible apply foldl_frame | with_reducible apply foldl_frame_fst | with_reducible apply Frame.ite | with_reducible apply Frame.iteFst | fail_if_no_progress (with_reducible refine Frame.set ?_) | split | dsimp only | refine Frame.ofFst ?_ (by assumption) | refine Frame.ofSnd2 ?_ (by assumption) | refine FrameOpt.kept ?_ _ (by assumption) | refine FrameOut.kept ?_ _ (by assumption)))

theorem lateFlash_frame {s : State} {n : Nat} {pm : List Part} {z0 : State} (hk : Frame pm z0 s) (m_bar : Part.bar ∈ pm := by assumption) (m_benches : Part.benches ∈ pm := by assumption) (m_work : Part.work ∈ pm := by assumption) (m_tier : Part.tier ∈ pm := by assumption) (m_fault : Part.fault ∈ pm := by assumption) (m_out : Part.out ∈ pm := by assumption) (m_spent : Part.spent ∈ pm := by assumption) : Frame pm z0 (lateFlash s n) := by
  unfold lateFlash
  try dsimp only
  repeat (any_goals (first | intro _ | with_reducible assumption | with_reducible refine recover_frame ?_ | with_reducible refine count_frame ?_ | with_reducible apply foldl_frame | with_reducible apply foldl_frame_fst | with_reducible apply Frame.ite | with_reducible apply Frame.iteFst | fail_if_no_progress (with_reducible refine Frame.set ?_) | split | dsimp only | refine Frame.ofFst ?_ (by assumption) | refine Frame.ofSnd2 ?_ (by assumption) | refine FrameOpt.kept ?_ _ (by assumption) | refine FrameOut.kept ?_ _ (by assumption)))

theorem tryAdd_frame {s : State} {u : WorkUnit} {pm : List Part} {z0 : State} (hk : Frame pm z0 s) (m_plan : Part.plan ∈ pm := by assumption) (m_fresh : Part.fresh ∈ pm := by assumption) : FrameOpt pm z0 (tryAdd s u) := by
  unfold tryAdd
  try dsimp only
  repeat (any_goals (first | intro _ | with_reducible assumption | with_reducible refine State_bump_frame ?_ | with_reducible apply FrameOpt.getD | exact FrameOpt.none | with_reducible apply FrameOpt.some | with_reducible apply Frame.ite | with_reducible apply Frame.iteFst | with_reducible apply FrameOpt.ite | fail_if_no_progress (with_reducible refine Frame.set ?_) | split | dsimp only | refine Frame.ofFst ?_ (by assumption) | refine Frame.ofSnd2 ?_ (by assumption) | refine FrameOpt.kept ?_ _ (by assumption) | refine FrameOut.kept ?_ _ (by assumption)))

theorem planChunk_frame {s : State} {k : Nat} {pm : List Part} {z0 : State} (hk : Frame pm z0 s) (m_work : Part.work ∈ pm := by assumption) (m_plan : Part.plan ∈ pm := by assumption) (m_fresh : Part.fresh ∈ pm := by assumption) : Frame pm z0 (planChunk s k) := by
  unfold planChunk
  try dsimp only
  repeat (any_goals (first | intro _ | with_reducible assumption | with_reducible refine putReq_frame ?_ | with_reducible refine tryAdd_frame ?_ | with_reducible refine chargeTally_frame ?_ | with_reducible apply FrameOpt.getD | exact FrameOpt.none | with_reducible apply FrameOpt.some | with_reducible apply Frame.ite | with_reducible apply Frame.iteFst | with_reducible apply FrameOpt.ite | fail_if_no_progress (with_reducible refine Frame.set ?_) | split | dsimp only | refine Frame.ofFst ?_ (by assumption) | refine Frame.ofSnd2 ?_ (by assumption) | refine FrameOpt.kept ?_ _ (by assumption) | refine FrameOut.kept ?_ _ (by assumption)))

theorem countWait_frame {s : State} {r : Req} {pm : List Part} {z0 : State} (hk : Frame pm z0 s) (m_work : Part.work ∈ pm := by assumption) : Frame pm z0 (countWait s r) := by
  unfold countWait
  try dsimp only
  repeat (any_goals (first | intro _ | with_reducible assumption | with_reducible apply Frame.ite | with_reducible apply Frame.iteFst | fail_if_no_progress (with_reducible refine Frame.set ?_) | split | dsimp only | refine Frame.ofFst ?_ (by assumption) | refine Frame.ofSnd2 ?_ (by assumption) | refine FrameOpt.kept ?_ _ (by assumption) | refine FrameOut.kept ?_ _ (by assumption)))

theorem planStep_frame {s : State} {k : Nat} {pm : List Part} {z0 : State} (hk : Frame pm z0 s) (m_bar : Part.bar ∈ pm := by assumption) (m_work : Part.work ∈ pm := by assumption) (m_plan : Part.plan ∈ pm := by assumption) (m_fresh : Part.fresh ∈ pm := by assumption) : Frame pm z0 (planStep s k) := by
  unfold planStep
  try dsimp only
  repeat (any_goals (first | intro _ | with_reducible assumption | with_reducible refine count_frame ?_ | with_reducible refine putReq_frame ?_ | with_reducible refine countWait_frame ?_ | with_reducible refine readConsumer_frame ?_ | with_reducible refine tryAdd_frame ?_ | with_reducible apply FrameOpt.getD | exact FrameOpt.none | with_reducible apply FrameOpt.some | with_reducible apply Frame.ite | with_reducible apply Frame.iteFst | with_reducible apply FrameOpt.ite | fail_if_no_progress (with_reducible refine Frame.set ?_) | split | dsimp only | refine Frame.ofFst ?_ (by assumption) | refine Frame.ofSnd2 ?_ (by assumption) | refine FrameOpt.kept ?_ _ (by assumption) | refine FrameOut.kept ?_ _ (by assumption)))

theorem refuseVec_frame {s : State} {n : Nat} {pm : List Part} {z0 : State} (hk : Frame pm z0 s) (m_host : Part.host ∈ pm := by assumption) (m_plan : Part.plan ∈ pm := by assumption) (m_shards : Part.shards ∈ pm := by assumption) (m_fault : Part.fault ∈ pm := by assumption) (m_out : Part.out ∈ pm := by assumption) (m_spent : Part.spent ∈ pm := by assumption) : Frame pm z0 (refuseVec s n) := by
  unfold refuseVec
  try dsimp only
  repeat (any_goals (first | intro _ | with_reducible assumption | with_reducible refine due_frame ?_ | with_reducible refine flushDue_frame ?_ | with_reducible apply foldl_frame | with_reducible apply foldl_frame_fst | with_reducible apply Frame.ite | with_reducible apply Frame.iteFst | fail_if_no_progress (with_reducible refine Frame.set ?_) | split | dsimp only | refine Frame.ofFst ?_ (by assumption) | refine Frame.ofSnd2 ?_ (by assumption) | refine FrameOpt.kept ?_ _ (by assumption) | refine FrameOut.kept ?_ _ (by assumption)))

theorem planSearch_frame {s : State} {q : Search} {pm : List Part} {z0 : State} (hk : Frame pm z0 s) (m_plan : Part.plan ∈ pm := by assumption) (m_fresh : Part.fresh ∈ pm := by assumption) : Frame pm z0 (planSearch s q) := by
  unfold planSearch
  try dsimp only
  repeat (any_goals (first | intro _ | with_reducible assumption | with_reducible refine tryAdd_frame ?_ | with_reducible apply FrameOpt.getD | exact FrameOpt.none | with_reducible apply FrameOpt.some | with_reducible apply Frame.ite | with_reducible apply Frame.iteFst | with_reducible apply FrameOpt.ite | fail_if_no_progress (with_reducible refine Frame.set ?_) | split | dsimp only | refine Frame.ofFst ?_ (by assumption) | refine Frame.ofSnd2 ?_ (by assumption) | refine FrameOpt.kept ?_ _ (by assumption) | refine FrameOut.kept ?_ _ (by assumption)))

theorem planMerges_frame {s : State} {x : Nat × Shard} {pm : List Part} {z0 : State} (hk : Frame pm z0 s) (m_plan : Part.plan ∈ pm := by assumption) (m_fresh : Part.fresh ∈ pm := by assumption) : Frame pm z0 (planMerges s x) := by
  unfold planMerges
  try dsimp only
  repeat (any_goals (first | intro _ | with_reducible assumption | with_reducible refine tryAdd_frame ?_ | with_reducible apply foldl_frame | with_reducible apply foldl_frame_fst | with_reducible apply FrameOpt.getD | exact FrameOpt.none | with_reducible apply FrameOpt.some | with_reducible apply Frame.ite | with_reducible apply Frame.iteFst | with_reducible apply FrameOpt.ite | fail_if_no_progress (with_reducible refine Frame.set ?_) | split | dsimp only | refine Frame.ofFst ?_ (by assumption) | refine Frame.ofSnd2 ?_ (by assumption) | refine FrameOpt.kept ?_ _ (by assumption) | refine FrameOut.kept ?_ _ (by assumption)))

theorem planUnits_frame {s' : State} {n : Nat} {pm : List Part} {z0 : State} (hk : Frame pm z0 s') (m_bar : Part.bar ∈ pm := by assumption) (m_host : Part.host ∈ pm := by assumption) (m_benches : Part.benches ∈ pm := by assumption) (m_work : Part.work ∈ pm := by assumption) (m_plan : Part.plan ∈ pm := by assumption) (m_tier : Part.tier ∈ pm := by assumption) (m_shards : Part.shards ∈ pm := by assumption) (m_fault : Part.fault ∈ pm := by assumption) (m_out : Part.out ∈ pm := by assumption) (m_spent : Part.spent ∈ pm := by assumption) (m_fresh : Part.fresh ∈ pm := by assumption) : Frame pm z0 (planUnits s' n) := by
  unfold planUnits
  try dsimp only
  repeat (any_goals (first | intro _ | with_reducible assumption | with_reducible refine refuseVec_frame ?_ | with_reducible refine lateFlash_frame ?_ | with_reducible refine planChunk_frame ?_ | with_reducible refine planStep_frame ?_ | with_reducible refine planSearch_frame ?_ | with_reducible refine planMerges_frame ?_ | with_reducible apply foldl_frame | with_reducible apply foldl_frame_fst | with_reducible apply Frame.ite | with_reducible apply Frame.iteFst | fail_if_no_progress (with_reducible refine Frame.set ?_) | split | dsimp only | refine Frame.ofFst ?_ (by assumption) | refine Frame.ofSnd2 ?_ (by assumption) | refine FrameOpt.kept ?_ _ (by assumption) | refine FrameOut.kept ?_ _ (by assumption)))

theorem coastStep_frame {s : State} {u : WorkUnit} {pm : List Part} {z0 : State} (hk : Frame pm z0 s) (m_bar : Part.bar ∈ pm := by assumption) (m_work : Part.work ∈ pm := by assumption) (m_plan : Part.plan ∈ pm := by assumption) (m_fresh : Part.fresh ∈ pm := by assumption) : Frame pm z0 (coastStep s u) := by
  unfold coastStep
  try dsimp only
  repeat (any_goals (first | intro _ | with_reducible assumption | with_reducible refine readConsumer_frame ?_ | with_reducible refine State_bump_frame ?_ | with_reducible refine count_frame ?_ | with_reducible apply Frame.ite | with_reducible apply Frame.iteFst | fail_if_no_progress (with_reducible refine Frame.set ?_) | split | dsimp only | refine Frame.ofFst ?_ (by assumption) | refine Frame.ofSnd2 ?_ (by assumption) | refine FrameOpt.kept ?_ _ (by assumption) | refine FrameOut.kept ?_ _ (by assumption)))

theorem coastPlan_frame {s : State} {t : Nat} {pm : List Part} {z0 : State} (hk : Frame pm z0 s) (m_bar : Part.bar ∈ pm := by assumption) (m_work : Part.work ∈ pm := by assumption) (m_plan : Part.plan ∈ pm := by assumption) (m_fw : Part.fw ∈ pm := by assumption) (m_fresh : Part.fresh ∈ pm := by assumption) : Frame pm z0 (coastPlan s t) := by
  unfold coastPlan
  try dsimp only
  repeat (any_goals (first | intro _ | with_reducible assumption | with_reducible refine count_frame ?_ | with_reducible refine coastStep_frame ?_ | with_reducible apply foldl_frame | with_reducible apply foldl_frame_fst | with_reducible apply Frame.ite | with_reducible apply Frame.iteFst | fail_if_no_progress (with_reducible refine Frame.set ?_) | split | dsimp only | refine Frame.ofFst ?_ (by assumption) | refine Frame.ofSnd2 ?_ (by assumption) | refine FrameOpt.kept ?_ _ (by assumption) | refine FrameOut.kept ?_ _ (by assumption)))

theorem pruneCoast_frame {s0 : State} {s : State} {pm : List Part} {z0 : State} (hk : Frame pm z0 s) (m_plan : Part.plan ∈ pm := by assumption) : Frame pm z0 (pruneCoast s0 s) := by
  unfold pruneCoast
  try dsimp only
  repeat (any_goals (first | intro _ | with_reducible assumption | with_reducible apply Frame.ite | with_reducible apply Frame.iteFst | fail_if_no_progress (with_reducible refine Frame.set ?_) | split | dsimp only | refine Frame.ofFst ?_ (by assumption) | refine Frame.ofSnd2 ?_ (by assumption) | refine FrameOpt.kept ?_ _ (by assumption) | refine FrameOut.kept ?_ _ (by assumption)))

theorem makePlan_frame {s : State} {n : Nat} {pm : List Part} {z0 : State} (hk : Frame pm z0 s) (m_bar : Part.bar ∈ pm := by assumption) (m_host : Part.host ∈ pm := by assumption) (m_benches : Part.benches ∈ pm := by assumption) (m_work : Part.work ∈ pm := by assumption) (m_plan : Part.plan ∈ pm := by assumption) (m_tier : Part.tier ∈ pm := by assumption) (m_shards : Part.shards ∈ pm := by assumption) (m_fw : Part.fw ∈ pm := by assumption) (m_fault : Part.fault ∈ pm := by assumption) (m_out : Part.out ∈ pm := by assumption) (m_spent : Part.spent ∈ pm := by assumption) (m_fresh : Part.fresh ∈ pm := by assumption) : Frame pm z0 (makePlan s n) := by
  unfold makePlan
  try dsimp only
  repeat (any_goals (first | intro _ | with_reducible assumption | with_reducible refine planUnits_frame ?_ | with_reducible refine coastPlan_frame ?_ | with_reducible apply Frame.ite | with_reducible apply Frame.iteFst | fail_if_no_progress (with_reducible refine Frame.set ?_) | split | dsimp only | refine Frame.ofFst ?_ (by assumption) | refine Frame.ofSnd2 ?_ (by assumption) | refine FrameOpt.kept ?_ _ (by assumption) | refine FrameOut.kept ?_ _ (by assumption)))

theorem closeGoodput_frame {s : State} {n : Nat} {b : Nat} {pm : List Part} {z0 : State} (hk : Frame pm z0 s) (m_benches : Part.benches ∈ pm := by assumption) (m_fault : Part.fault ∈ pm := by assumption) (m_out : Part.out ∈ pm := by assumption) : Frame pm z0 (closeGoodput s n b) := by
  unfold closeGoodput
  try dsimp only
  repeat (any_goals (first | intro _ | with_reducible assumption | with_reducible refine setBench_frame ?_ | with_reducible refine logErr_frame ?_ | with_reducible apply Frame.ite | with_reducible apply Frame.iteFst | fail_if_no_progress (with_reducible refine Frame.set ?_) | split | dsimp only | refine Frame.ofFst ?_ (by assumption) | refine Frame.ofSnd2 ?_ (by assumption) | refine FrameOpt.kept ?_ _ (by assumption) | refine FrameOut.kept ?_ _ (by assumption)))

theorem lapseDone_frame {s : State} {n : Nat} {k : Nat} {pm : List Part} {z0 : State} (hk : Frame pm z0 s) (m_bar : Part.bar ∈ pm := by assumption) (m_work : Part.work ∈ pm := by assumption) : Frame pm z0 (lapseDone s n k) := by
  unfold lapseDone
  try dsimp only
  repeat (any_goals (first | intro _ | with_reducible assumption | with_reducible refine count_frame ?_ | with_reducible apply foldl_frame | with_reducible apply foldl_frame_fst | with_reducible apply Frame.ite | with_reducible apply Frame.iteFst | fail_if_no_progress (with_reducible refine Frame.set ?_) | split | dsimp only | refine Frame.ofFst ?_ (by assumption) | refine Frame.ofSnd2 ?_ (by assumption) | refine FrameOpt.kept ?_ _ (by assumption) | refine FrameOut.kept ?_ _ (by assumption)))

theorem lapseBinding_frame {s : State} {n : Nat} {k : Nat} {pm : List Part} {z0 : State} (hk : Frame pm z0 s) (m_work : Part.work ∈ pm := by assumption) : Frame pm z0 (lapseBinding s n k) := by
  unfold lapseBinding
  try dsimp only
  repeat (any_goals (first | intro _ | with_reducible assumption | with_reducible apply Frame.ite | with_reducible apply Frame.iteFst | fail_if_no_progress (with_reducible refine Frame.set ?_) | split | dsimp only | refine Frame.ofFst ?_ (by assumption) | refine Frame.ofSnd2 ?_ (by assumption) | refine FrameOpt.kept ?_ _ (by assumption) | refine FrameOut.kept ?_ _ (by assumption)))

theorem lapses_frame {s : State} {n : Nat} {pm : List Part} {z0 : State} (hk : Frame pm z0 s) (m_bar : Part.bar ∈ pm := by assumption) (m_benches : Part.benches ∈ pm := by assumption) (m_work : Part.work ∈ pm := by assumption) (m_fault : Part.fault ∈ pm := by assumption) (m_out : Part.out ∈ pm := by assumption) : Frame pm z0 (lapses s n) := by
  unfold lapses
  try dsimp only
  repeat (any_goals (first | intro _ | with_reducible assumption | with_reducible refine closeGoodput_frame ?_ | with_reducible refine lapseDone_frame ?_ | with_reducible refine lapseBinding_frame ?_ | with_reducible apply foldl_frame | with_reducible apply foldl_frame_fst | with_reducible apply Frame.ite | with_reducible apply Frame.iteFst | fail_if_no_progress (with_reducible refine Frame.set ?_) | split | dsimp only | refine Frame.ofFst ?_ (by assumption) | refine Frame.ofSnd2 ?_ (by assumption) | refine FrameOpt.kept ?_ _ (by assumption) | refine FrameOut.kept ?_ _ (by assumption)))

theorem addAvail_frame {s : State} {c : AvailClass} {m : Nat} {pm : List Part} {z0 : State} (hk : Frame pm z0 s) (m_fault : Part.fault ∈ pm := by assumption) : Frame pm z0 (addAvail s c m) := by
  unfold addAvail
  try dsimp only
  repeat (any_goals (first | intro _ | with_reducible assumption | with_reducible apply Frame.ite | with_reducible apply Frame.iteFst | fail_if_no_progress (with_reducible refine Frame.set ?_) | split | dsimp only | refine Frame.ofFst ?_ (by assumption) | refine Frame.ofSnd2 ?_ (by assumption) | refine FrameOpt.kept ?_ _ (by assumption) | refine FrameOut.kept ?_ _ (by assumption)))

theorem countGap_frame {s : State} {n : Nat} {pm : List Part} {z0 : State} (hk : Frame pm z0 s) (m_fw : Part.fw ∈ pm := by assumption) (m_fault : Part.fault ∈ pm := by assumption) (m_out : Part.out ∈ pm := by assumption) : Frame pm z0 (countGap s n) := by
  unfold countGap
  try dsimp only
  repeat (any_goals (first | intro _ | with_reducible assumption | with_reducible refine logErr_frame ?_ | with_reducible refine addAvail_frame ?_ | with_reducible apply Frame.ite | with_reducible apply Frame.iteFst | fail_if_no_progress (with_reducible refine Frame.set ?_) | split | dsimp only | refine Frame.ofFst ?_ (by assumption) | refine Frame.ofSnd2 ?_ (by assumption) | refine FrameOpt.kept ?_ _ (by assumption) | refine FrameOut.kept ?_ _ (by assumption)))

theorem beginTicking_frame {s : State} {n : Nat} {pm : List Part} {z0 : State} (hk : Frame pm z0 s) (m_time : Part.time ∈ pm := by assumption) (m_fw : Part.fw ∈ pm := by assumption) (m_fault : Part.fault ∈ pm := by assumption) (m_mgmt : Part.mgmt ∈ pm := by assumption) (m_out : Part.out ∈ pm := by assumption) : Frame pm z0 (beginTicking s n) := by
  unfold beginTicking
  try dsimp only
  repeat (any_goals (first | intro _ | with_reducible assumption | with_reducible refine countGap_frame ?_ | with_reducible refine openMeters_frame ?_ | with_reducible apply Frame.ite | with_reducible apply Frame.iteFst | fail_if_no_progress (with_reducible refine Frame.set ?_) | split | dsimp only | refine Frame.ofFst ?_ (by assumption) | refine Frame.ofSnd2 ?_ (by assumption) | refine FrameOpt.kept ?_ _ (by assumption) | refine FrameOut.kept ?_ _ (by assumption)))

theorem unplan_frame {s : State} {pm : List Part} {z0 : State} (hk : Frame pm z0 s) (m_plan : Part.plan ∈ pm := by assumption) : Frame pm z0 (unplan s) := by
  unfold unplan
  try dsimp only
  repeat (any_goals (first | intro _ | with_reducible assumption | with_reducible apply Frame.ite | with_reducible apply Frame.iteFst | fail_if_no_progress (with_reducible refine Frame.set ?_) | split | dsimp only | refine Frame.ofFst ?_ (by assumption) | refine Frame.ofSnd2 ?_ (by assumption) | refine FrameOpt.kept ?_ _ (by assumption) | refine FrameOut.kept ?_ _ (by assumption)))

theorem takePlan_frame {s : State} {n : Nat} {pm : List Part} {z0 : State} (hk : Frame pm z0 s) (m_bar : Part.bar ∈ pm := by assumption) (m_work : Part.work ∈ pm := by assumption) (m_plan : Part.plan ∈ pm := by assumption) (m_fw : Part.fw ∈ pm := by assumption) (m_fresh : Part.fresh ∈ pm := by assumption) : Frame pm z0 (takePlan s n) := by
  unfold takePlan
  try dsimp only
  repeat (any_goals (first | intro _ | with_reducible assumption | with_reducible refine coastPlan_frame ?_ | with_reducible refine unplan_frame ?_ | with_reducible apply Frame.ite | with_reducible apply Frame.iteFst | fail_if_no_progress (with_reducible refine Frame.set ?_) | split | dsimp only | refine Frame.ofFst ?_ (by assumption) | refine Frame.ofSnd2 ?_ (by assumption) | refine FrameOpt.kept ?_ _ (by assumption) | refine FrameOut.kept ?_ _ (by assumption)))

theorem countRest_frame {s : State} {pm : List Part} {z0 : State} (hk : Frame pm z0 s) (m_mgmt : Part.mgmt ∈ pm := by assumption) : Frame pm z0 (countRest s) := by
  unfold countRest
  try dsimp only
  repeat (any_goals (first | intro _ | with_reducible assumption | with_reducible apply Frame.ite | with_reducible apply Frame.iteFst | fail_if_no_progress (with_reducible refine Frame.set ?_) | split | dsimp only | refine Frame.ofFst ?_ (by assumption) | refine Frame.ofSnd2 ?_ (by assumption) | refine FrameOpt.kept ?_ _ (by assumption) | refine FrameOut.kept ?_ _ (by assumption)))

theorem tickStart_frame {pm : List Part} {t : Stamp} {s : State} {z0 : State} (hk : Frame pm z0 s) (m_time : Part.time ∈ pm := by assumption) (m_bar : Part.bar ∈ pm := by assumption) (m_work : Part.work ∈ pm := by assumption) (m_plan : Part.plan ∈ pm := by assumption) (m_tier : Part.tier ∈ pm := by assumption) (m_fab : Part.fab ∈ pm := by assumption) (m_win : Part.win ∈ pm := by assumption) (m_fw : Part.fw ∈ pm := by assumption) (m_fault : Part.fault ∈ pm := by assumption) (m_pwr : Part.pwr ∈ pm := by assumption) (m_mgmt : Part.mgmt ∈ pm := by assumption) (m_out : Part.out ∈ pm := by assumption) (m_spent : Part.spent ∈ pm := by assumption) (m_fresh : Part.fresh ∈ pm := by assumption) : Frame pm z0 (tickStart t s) := by
  unfold tickStart
  extract_lets n s1 s2 p3 s3 s3b s4 s5
  have h2 : Frame pm z0 s2 := takePlan_frame (addAvail_frame (countRest_frame (startAffected_frame (beginTicking_frame hk))))
  clear_value s2
  have h3 : Frame pm z0 s3 := pendRows_frame (Frame.set h2)
  clear_value s3
  have h3b : Frame pm z0 s3b := Frame.ite (sendBeacons_frame h3) h3
  clear_value s3b
  have h4 : Frame pm z0 s4 := Frame.ite (issueMoves_frame h3b) h3b
  clear_value s4
  have h5 : Frame pm z0 s5 := Frame.ite (pumpWindows_frame (pumpRack_frame h4)) h4
  clear_value s5
  exact Frame.ite (startItems_frame (startSearches_frame (startSpans_frame h5))) h5

theorem execTickStart_frame {t : Stamp} {s : State} {pm : List Part} {z0 : State} (hk : Frame pm z0 s) (m_time : Part.time ∈ pm := by assumption) (m_bar : Part.bar ∈ pm := by assumption) (m_work : Part.work ∈ pm := by assumption) (m_plan : Part.plan ∈ pm := by assumption) (m_tier : Part.tier ∈ pm := by assumption) (m_fab : Part.fab ∈ pm := by assumption) (m_win : Part.win ∈ pm := by assumption) (m_fw : Part.fw ∈ pm := by assumption) (m_fault : Part.fault ∈ pm := by assumption) (m_pwr : Part.pwr ∈ pm := by assumption) (m_mgmt : Part.mgmt ∈ pm := by assumption) (m_out : Part.out ∈ pm := by assumption) (m_spent : Part.spent ∈ pm := by assumption) (m_fresh : Part.fresh ∈ pm := by assumption) : FrameOut pm z0 (execTickStart t s) := by
  unfold execTickStart
  try dsimp only
  repeat (any_goals (first | intro _ | with_reducible assumption | with_reducible refine run_frame ?_ ?_ | with_reducible refine tickStart_frame ?_ | with_reducible apply FrameOut.next | exact FrameOut.fault | with_reducible apply Frame.ite | with_reducible apply Frame.iteFst | with_reducible apply FrameOut.ite | fail_if_no_progress (with_reducible refine Frame.set ?_) | split | dsimp only | refine Frame.ofFst ?_ (by assumption) | refine Frame.ofSnd2 ?_ (by assumption) | refine FrameOpt.kept ?_ _ (by assumption) | refine FrameOut.kept ?_ _ (by assumption)))

theorem cutOff_frame {unfinished : List Nat} {s' : State} {pm : List Part} {z0 : State} (hk : Frame pm z0 s') (m_bar : Part.bar ∈ pm := by assumption) (m_plan : Part.plan ∈ pm := by assumption) (m_fault : Part.fault ∈ pm := by assumption) (m_out : Part.out ∈ pm := by assumption) (m_spent : Part.spent ∈ pm := by assumption) : Frame pm z0 (cutOff unfinished s') := by
  unfold cutOff
  try dsimp only
  repeat (any_goals (first | intro _ | with_reducible assumption | with_reducible refine expireWaits_frame ?_ | with_reducible refine abandonServes_frame ?_ | with_reducible refine itemsAtCutoff_frame ?_ | with_reducible apply Frame.ite | with_reducible apply Frame.iteFst | fail_if_no_progress (with_reducible refine Frame.set ?_) | split | dsimp only | refine Frame.ofFst ?_ (by assumption) | refine Frame.ofSnd2 ?_ (by assumption) | refine FrameOpt.kept ?_ _ (by assumption) | refine FrameOut.kept ?_ _ (by assumption)))

theorem execCutOff_frame {t : Stamp} {unfinished : List Nat} {s : State} {pm : List Part} {z0 : State} (hk : Frame pm z0 s) (m_time : Part.time ∈ pm := by assumption) (m_bar : Part.bar ∈ pm := by assumption) (m_plan : Part.plan ∈ pm := by assumption) (m_fault : Part.fault ∈ pm := by assumption) (m_out : Part.out ∈ pm := by assumption) (m_spent : Part.spent ∈ pm := by assumption) : FrameOut pm z0 (execCutOff t unfinished s) := by
  unfold execCutOff
  try dsimp only
  repeat (any_goals (first | intro _ | with_reducible assumption | with_reducible refine run_frame ?_ ?_ | with_reducible refine cutOff_frame ?_ | with_reducible apply FrameOut.next | exact FrameOut.fault | with_reducible apply Frame.ite | with_reducible apply Frame.iteFst | with_reducible apply FrameOut.ite | fail_if_no_progress (with_reducible refine Frame.set ?_) | split | dsimp only | refine Frame.ofFst ?_ (by assumption) | refine Frame.ofSnd2 ?_ (by assumption) | refine FrameOpt.kept ?_ _ (by assumption) | refine FrameOut.kept ?_ _ (by assumption)))

theorem closeDeleted_frame {n : Nat} {s : State} {id : Nat} {pm : List Part} {z0 : State} (hk : Frame pm z0 s) (m_work : Part.work ∈ pm := by assumption) (m_mgmt : Part.mgmt ∈ pm := by assumption) : Frame pm z0 (closeDeleted n s id) := by
  unfold closeDeleted
  try dsimp only
  repeat (any_goals (first | intro _ | with_reducible assumption | with_reducible refine closeTally_frame ?_ | with_reducible apply Frame.ite | with_reducible apply Frame.iteFst | fail_if_no_progress (with_reducible refine Frame.set ?_) | split | dsimp only | refine Frame.ofFst ?_ (by assumption) | refine Frame.ofSnd2 ?_ (by assumption) | refine FrameOpt.kept ?_ _ (by assumption) | refine FrameOut.kept ?_ _ (by assumption)))

theorem descEffect_frame {pm : List Part} {o n : Nat} {c : Cpl} {d : HostDesc} {m : Nat} {s : State} {z0 : State} (hk : Frame pm z0 s) (m_bar : Part.bar ∈ pm := by assumption) (m_host : Part.host ∈ pm := by assumption) (m_benches : Part.benches ∈ pm := by assumption) (m_work : Part.work ∈ pm := by assumption) (m_plan : Part.plan ∈ pm := by assumption) (m_haul : Part.haul ∈ pm := by assumption) (m_tier : Part.tier ∈ pm := by assumption) (m_shards : Part.shards ∈ pm := by assumption) (m_fault : Part.fault ∈ pm := by assumption) (m_sec : Part.sec ∈ pm := by assumption) (m_mgmt : Part.mgmt ∈ pm := by assumption) (m_out : Part.out ∈ pm := by assumption) (m_spent : Part.spent ∈ pm := by assumption) (m_fresh : Part.fresh ∈ pm := by assumption) :
    Frame pm z0 (descEffect o n c d m s) := by
  unfold descEffect
  split
  · exact applyLoad_frame hk
  · exact applyUnload_frame hk
  · exact applyAdmit_frame hk
  · exact applyAppend_frame hk
  · exact applyCancel_frame hk
  · exact applyPark_frame hk
  · exact applyResume_frame hk
  · exact applyRelease_frame hk
  · exact applyHandoff_frame hk
  · exact applyVecSearch_frame hk
  · exact applyVecInsert_frame hk
  · exact applyVecDelete_frame hk
  · exact applyVecMerge_frame hk
  · refine applyTally_frame ?_ hk
    intros
    refine closeDeleted_frame (by assumption)
  · exact applyBind_frame hk
  · exact applyNop_frame hk
  · exact due_frame hk

theorem dropPull_frame {s : State} {c : Cpl} {pm : List Part} {z0 : State} (hk : Frame pm z0 s) (m_haul : Part.haul ∈ pm := by assumption) : Frame pm z0 (dropPull s c) := by
  unfold dropPull
  try dsimp only
  repeat (any_goals (first | intro _ | with_reducible assumption | with_reducible apply Frame.ite | with_reducible apply Frame.iteFst | fail_if_no_progress (with_reducible refine Frame.set ?_) | split | dsimp only | refine Frame.ofFst ?_ (by assumption) | refine Frame.ofSnd2 ?_ (by assumption) | refine FrameOpt.kept ?_ _ (by assumption) | refine FrameOut.kept ?_ _ (by assumption)))

theorem applyLanded_frame {pm : List Part} {n : Nat} {l : Landed} {s : State} {z0 : State} (hk : Frame pm z0 s) (m_bar : Part.bar ∈ pm := by assumption) (m_host : Part.host ∈ pm := by assumption) (m_benches : Part.benches ∈ pm := by assumption) (m_work : Part.work ∈ pm := by assumption) (m_plan : Part.plan ∈ pm := by assumption) (m_haul : Part.haul ∈ pm := by assumption) (m_tier : Part.tier ∈ pm := by assumption) (m_shards : Part.shards ∈ pm := by assumption) (m_fault : Part.fault ∈ pm := by assumption) (m_sec : Part.sec ∈ pm := by assumption) (m_mgmt : Part.mgmt ∈ pm := by assumption) (m_out : Part.out ∈ pm := by assumption) (m_spent : Part.spent ∈ pm := by assumption) (m_fresh : Part.fresh ∈ pm := by assumption) : Frame pm z0 (applyLanded n l s) := by
  unfold applyLanded
  split
  · exact hk
  · dsimp only
    split
    · refine dropPull_frame (applyWith_frame (fun z x0 x1 x2 x3 h => descEffect_frame h) (takeLanded_frame (Frame.set hk)))
    · exact applyWith_frame (fun z x0 x1 x2 x3 h => descEffect_frame h) (takeLanded_frame (Frame.set hk))

theorem refuseExcess_frame {n : Nat} {l : Landed} {s : State} {pm : List Part} {z0 : State} (hk : Frame pm z0 s) (m_host : Part.host ∈ pm := by assumption) (m_haul : Part.haul ∈ pm := by assumption) : Frame pm z0 (refuseExcess n l s) := by
  unfold refuseExcess
  try dsimp only
  repeat (any_goals (first | intro _ | with_reducible assumption | with_reducible refine due_frame ?_ | with_reducible refine dropPull_frame ?_ | with_reducible refine takeLanded_frame ?_ | with_reducible apply Frame.ite | with_reducible apply Frame.iteFst | fail_if_no_progress (with_reducible refine Frame.set ?_) | split | dsimp only | refine Frame.ofFst ?_ (by assumption) | refine Frame.ofSnd2 ?_ (by assumption) | refine FrameOpt.kept ?_ _ (by assumption) | refine FrameOut.kept ?_ _ (by assumption)))

theorem applyNotice_frame {n : Nat} {i : Notice} {s : State} {pm : List Part} {z0 : State} (hk : Frame pm z0 s) (m_bar : Part.bar ∈ pm := by assumption) (m_host : Part.host ∈ pm := by assumption) (m_benches : Part.benches ∈ pm := by assumption) (m_work : Part.work ∈ pm := by assumption) (m_haul : Part.haul ∈ pm := by assumption) (m_tier : Part.tier ∈ pm := by assumption) (m_shards : Part.shards ∈ pm := by assumption) (m_fault : Part.fault ∈ pm := by assumption) (m_mgmt : Part.mgmt ∈ pm := by assumption) (m_out : Part.out ∈ pm := by assumption) (m_spent : Part.spent ∈ pm := by assumption) : Frame pm z0 (applyNotice n i s) := by
  unfold applyNotice
  try dsimp only
  repeat (any_goals (first | intro _ | with_reducible assumption | with_reducible refine loadComplete_frame ?_ | with_reducible refine releaseDone_frame ?_ | with_reducible refine shardReady_frame ?_ | with_reducible refine replicateReady_frame ?_ | with_reducible refine tableLost_frame ?_ | with_reducible refine applyRelease__frame ?_ | with_reducible refine applyState_frame ?_ | with_reducible refine applyRefcount_frame ?_ | with_reducible refine applyReplicaAdd_frame ?_ | with_reducible refine applyPrimaryFree_frame ?_ | with_reducible refine applyReplicaDrop_frame ?_ | with_reducible refine repairPage_frame ?_ | with_reducible refine dropReplica_frame ?_ | with_reducible apply Frame.ite | with_reducible apply Frame.iteFst | fail_if_no_progress (with_reducible refine Frame.set ?_) | split | dsimp only | refine Frame.ofFst ?_ (by assumption) | refine Frame.ofSnd2 ?_ (by assumption) | refine FrameOpt.kept ?_ _ (by assumption) | refine FrameOut.kept ?_ _ (by assumption)))

theorem applyFreed_frame {n : Nat} {id : Nat} {h : DstHaul} {st : Stamp} {s : State} {pm : List Part} {z0 : State} (hk : Frame pm z0 s) (m_bar : Part.bar ∈ pm := by assumption) (m_benches : Part.benches ∈ pm := by assumption) (m_work : Part.work ∈ pm := by assumption) (m_haul : Part.haul ∈ pm := by assumption) (m_tier : Part.tier ∈ pm := by assumption) (m_fault : Part.fault ∈ pm := by assumption) (m_out : Part.out ∈ pm := by assumption) (m_spent : Part.spent ∈ pm := by assumption) (m_fresh : Part.fresh ∈ pm := by assumption) : Frame pm z0 (applyFreed n id h st s) := by
  unfold applyFreed
  try dsimp only
  repeat (any_goals (first | intro _ | with_reducible assumption | with_reducible refine applyHaul_frame ?_ | with_reducible refine logErr_frame ?_ | with_reducible apply Frame.ite | with_reducible apply Frame.iteFst | fail_if_no_progress (with_reducible refine Frame.set ?_) | split | dsimp only | refine Frame.ofFst ?_ (by assumption) | refine Frame.ofSnd2 ?_ (by assumption) | refine FrameOpt.kept ?_ _ (by assumption) | refine FrameOut.kept ?_ _ (by assumption)))

theorem applyEnded_frame {n : Nat} {id : Nat} {st : Status} {s : State} {pm : List Part} {z0 : State} (hk : Frame pm z0 s) (m_host : Part.host ∈ pm := by assumption) (m_work : Part.work ∈ pm := by assumption) (m_haul : Part.haul ∈ pm := by assumption) : Frame pm z0 (applyEnded n id st s) := by
  unfold applyEnded
  try dsimp only
  repeat (any_goals (first | intro _ | with_reducible assumption | with_reducible refine due_frame ?_ | with_reducible refine haulFail_frame ?_ | with_reducible apply Frame.ite | with_reducible apply Frame.iteFst | fail_if_no_progress (with_reducible refine Frame.set ?_) | split | dsimp only | refine Frame.ofFst ?_ (by assumption) | refine Frame.ofSnd2 ?_ (by assumption) | refine FrameOpt.kept ?_ _ (by assumption) | refine FrameOut.kept ?_ _ (by assumption)))

theorem takeEvs_frame {s : State} {n : Nat} {pm : List Part} {z0 : State} (hk : Frame pm z0 s) (m_haul : Part.haul ∈ pm := by assumption) (m_sec : Part.sec ∈ pm := by assumption) (m_mgmt : Part.mgmt ∈ pm := by assumption) : Frame pm z0 (takeEvs s n) := by
  unfold takeEvs
  try dsimp only
  repeat (any_goals (first | intro _ | with_reducible assumption | with_reducible apply Frame.ite | with_reducible apply Frame.iteFst | fail_if_no_progress (with_reducible refine Frame.set ?_) | split | dsimp only | refine Frame.ofFst ?_ (by assumption) | refine Frame.ofSnd2 ?_ (by assumption) | refine FrameOpt.kept ?_ _ (by assumption) | refine FrameOut.kept ?_ _ (by assumption)))

theorem resolvePulls_frame {s : State} {n : Nat} {pm : List Part} {z0 : State} (hk : Frame pm z0 s) (m_bar : Part.bar ∈ pm := by assumption) (m_host : Part.host ∈ pm := by assumption) (m_benches : Part.benches ∈ pm := by assumption) (m_work : Part.work ∈ pm := by assumption) (m_plan : Part.plan ∈ pm := by assumption) (m_haul : Part.haul ∈ pm := by assumption) (m_tier : Part.tier ∈ pm := by assumption) (m_shards : Part.shards ∈ pm := by assumption) (m_fault : Part.fault ∈ pm := by assumption) (m_sec : Part.sec ∈ pm := by assumption) (m_mgmt : Part.mgmt ∈ pm := by assumption) (m_out : Part.out ∈ pm := by assumption) (m_spent : Part.spent ∈ pm := by assumption) (m_fresh : Part.fresh ∈ pm := by assumption) : Frame pm z0 (resolvePulls s n) := by
  unfold resolvePulls
  try dsimp only
  repeat (any_goals (first | intro _ | with_reducible assumption | with_reducible refine applyWith_frame ?_ ?_ | with_reducible refine descEffect_frame ?_ | with_reducible refine dropPull_frame ?_ | with_reducible refine due_frame ?_ | with_reducible apply foldl_frame | with_reducible apply foldl_frame_fst | with_reducible apply Frame.ite | with_reducible apply Frame.iteFst | fail_if_no_progress (with_reducible refine Frame.set ?_) | split | dsimp only | refine Frame.ofFst ?_ (by assumption) | refine Frame.ofSnd2 ?_ (by assumption) | refine FrameOpt.kept ?_ _ (by assumption) | refine FrameOut.kept ?_ _ (by assumption)))

theorem sweepAborted_frame {s : State} {n : Nat} {pm : List Part} {z0 : State} (hk : Frame pm z0 s) (m_host : Part.host ∈ pm := by assumption) (m_haul : Part.haul ∈ pm := by assumption) : Frame pm z0 (sweepAborted s n) := by
  unfold sweepAborted
  try dsimp only
  repeat (any_goals (first | intro _ | with_reducible assumption | with_reducible refine due_frame ?_ | with_reducible apply foldl_frame | with_reducible apply foldl_frame_fst | with_reducible apply Frame.ite | with_reducible apply Frame.iteFst | fail_if_no_progress (with_reducible refine Frame.set ?_) | split | dsimp only | refine Frame.ofFst ?_ (by assumption) | refine Frame.ofSnd2 ?_ (by assumption) | refine FrameOpt.kept ?_ _ (by assumption) | refine FrameOut.kept ?_ _ (by assumption)))

theorem finishForwarded_frame {s : State} {n : Nat} {pm : List Part} {z0 : State} (hk : Frame pm z0 s) (m_host : Part.host ∈ pm := by assumption) (m_haul : Part.haul ∈ pm := by assumption) (m_fresh : Part.fresh ∈ pm := by assumption) : Frame pm z0 (finishForwarded s n) := by
  unfold finishForwarded
  try dsimp only
  repeat (any_goals (first | intro _ | with_reducible assumption | with_reducible refine due_frame ?_ | with_reducible refine State_bump_frame ?_ | with_reducible apply foldl_frame | with_reducible apply foldl_frame_fst | with_reducible apply Frame.ite | with_reducible apply Frame.iteFst | fail_if_no_progress (with_reducible refine Frame.set ?_) | split | dsimp only | refine Frame.ofFst ?_ (by assumption) | refine Frame.ofSnd2 ?_ (by assumption) | refine FrameOpt.kept ?_ _ (by assumption) | refine FrameOut.kept ?_ _ (by assumption)))

theorem drainEnds_frame {s : State} {n : Nat} {pm : List Part} {z0 : State} (hk : Frame pm z0 s) (m_bar : Part.bar ∈ pm := by assumption) (m_benches : Part.benches ∈ pm := by assumption) (m_work : Part.work ∈ pm := by assumption) (m_plan : Part.plan ∈ pm := by assumption) (m_haul : Part.haul ∈ pm := by assumption) (m_tier : Part.tier ∈ pm := by assumption) (m_out : Part.out ∈ pm := by assumption) (m_spent : Part.spent ∈ pm := by assumption) : Frame pm z0 (drainEnds s n) := by
  unfold drainEnds
  try dsimp only
  repeat (any_goals (first | intro _ | with_reducible assumption | with_reducible refine endAll_frame ?_ | with_reducible apply foldl_frame | with_reducible apply foldl_frame_fst | with_reducible apply Frame.ite | with_reducible apply Frame.iteFst | fail_if_no_progress (with_reducible refine Frame.set ?_) | split | dsimp only | refine Frame.ofFst ?_ (by assumption) | refine Frame.ofSnd2 ?_ (by assumption) | refine FrameOpt.kept ?_ _ (by assumption) | refine FrameOut.kept ?_ _ (by assumption)))

theorem sortEvs_mem {l : List Ev} {x : Ev} (h : x ∈ sortEvs l) : x ∈ l := by
  have aux : ∀ (l acc : List Ev), x ∈ l.foldl (fun acc x =>
      let (a, z) := acc.span (fun y => !evBefore x y)
      a ++ x :: z) acc → x ∈ acc ∨ x ∈ l := by
    intro l
    induction l with
    | nil => intro acc h; exact .inl h
    | cons a l ih =>
      intro acc h
      rcases ih _ h with h | h
      · simp only [List.span_eq_takeWhile_dropWhile, List.mem_append, List.mem_cons] at h
        rcases h with h | h | h
        · exact .inl ((List.takeWhile_sublist _).subset h)
        · exact .inr (h ▸ List.mem_cons_self ..)
        · exact .inl ((List.dropWhile_sublist _).subset h)
      · exact .inr (List.mem_cons_of_mem _ h)
  rcases aux l [] h with h | h
  · cases h
  · exact h

theorem evs_frame {pm : List Part} {s : State} {n : Nat} {x : Ev} {z z0 : State} (hx : x ∈ stepOneEvs s n) (hk : Frame pm z0 z) (m_bar : Part.bar ∈ pm := by assumption) (m_host : Part.host ∈ pm := by assumption) (m_benches : Part.benches ∈ pm := by assumption) (m_work : Part.work ∈ pm := by assumption) (m_plan : Part.plan ∈ pm := by assumption) (m_haul : Part.haul ∈ pm := by assumption) (m_tier : Part.tier ∈ pm := by assumption) (m_shards : Part.shards ∈ pm := by assumption) (m_fab : Part.fab ∈ pm := by assumption) (m_fault : Part.fault ∈ pm := by assumption) (m_sec : Part.sec ∈ pm := by assumption) (m_mgmt : Part.mgmt ∈ pm := by assumption) (m_out : Part.out ∈ pm := by assumption) (m_spent : Part.spent ∈ pm := by assumption) (m_fresh : Part.fresh ∈ pm := by assumption) : Frame pm z0 (x.act z) := by
  have zip : ∀ (l : List Ev) (p : Ev × Nat → Bool), x ∈ (l.zipIdx.filter p).map (·.1) → x ∈ l := by
    intro l p h
    obtain ⟨e, he, rfl⟩ := List.mem_map.mp h
    exact List.fst_mem_of_mem_zipIdx (List.mem_filter.mp he).1
  have h := sortEvs_mem hx
  simp only [innerEvs, List.mem_append] at h
  rcases h with (((h | h) | h) | h) | ((h | h) | h) | h
  · obtain ⟨l, -, rfl⟩ := List.mem_map.mp (sortEvs_mem (zip _ _ h))
    exact applyLanded_frame hk
  · obtain ⟨l, -, rfl⟩ := List.mem_map.mp (sortEvs_mem (zip _ _ h))
    exact refuseExcess_frame hk
  · obtain ⟨l, -, rfl⟩ := List.mem_map.mp h
    exact mgmtCommit_frame hk
  · obtain ⟨l, -, rfl⟩ := List.mem_map.mp h
    exact eraseStep_frame hk
  · obtain ⟨r, -, h⟩ := List.mem_filterMap.mp h
    split at h
    · split at h
      · cases h; exact endReq_frame hk
      · cases h
    · cases h
  · obtain ⟨l, -, rfl⟩ := List.mem_map.mp h
    exact applyNotice_frame hk
  · obtain ⟨r, -, h⟩ := List.mem_filterMap.mp h
    split at h
    · split at h
      · cases h; exact applyFreed_frame hk
      · cases h
    · cases h
  · obtain ⟨r, -, h⟩ := List.mem_filterMap.mp h
    split at h
    · split at h
      · cases h; exact applyEnded_frame hk
      · cases h
    · cases h

theorem stepOne_frame {pm : List Part} {s : State} {n : Nat} {z0 : State} (hk : Frame pm z0 s) (m_bar : Part.bar ∈ pm := by assumption) (m_host : Part.host ∈ pm := by assumption) (m_benches : Part.benches ∈ pm := by assumption) (m_work : Part.work ∈ pm := by assumption) (m_plan : Part.plan ∈ pm := by assumption) (m_haul : Part.haul ∈ pm := by assumption) (m_tier : Part.tier ∈ pm := by assumption) (m_shards : Part.shards ∈ pm := by assumption) (m_fab : Part.fab ∈ pm := by assumption) (m_fault : Part.fault ∈ pm := by assumption) (m_sec : Part.sec ∈ pm := by assumption) (m_mgmt : Part.mgmt ∈ pm := by assumption) (m_out : Part.out ∈ pm := by assumption) (m_spent : Part.spent ∈ pm := by assumption) (m_fresh : Part.fresh ∈ pm := by assumption) : Frame pm z0 (stepOne s n) := by
  unfold stepOne
  refine handOver_frame (retiredSlices_frame (quarantineStep_frame (drainEnds_frame (sweepAborted_frame (resolvePulls_frame (finishForwarded_frame ?_))))))
  exact foldl_frame_mem (takeEvs_frame hk) (fun z x hx h => evs_frame hx h)

theorem stepTwo_frame {s : State} {n : Nat} {pm : List Part} {z0 : State} (hk : Frame pm z0 s) (m_bar : Part.bar ∈ pm := by assumption) (m_benches : Part.benches ∈ pm := by assumption) (m_work : Part.work ∈ pm := by assumption) (m_plan : Part.plan ∈ pm := by assumption) (m_haul : Part.haul ∈ pm := by assumption) (m_tier : Part.tier ∈ pm := by assumption) (m_shards : Part.shards ∈ pm := by assumption) (m_fault : Part.fault ∈ pm := by assumption) (m_mgmt : Part.mgmt ∈ pm := by assumption) (m_out : Part.out ∈ pm := by assumption) (m_spent : Part.spent ∈ pm := by assumption) (m_fresh : Part.fresh ∈ pm := by assumption) : Frame pm z0 (stepTwo s n).1 := by
  unfold stepTwo
  try dsimp only
  repeat (any_goals (first | intro _ | with_reducible assumption | with_reducible refine noteMissing_frame ?_ | with_reducible refine rereads_frame ?_ | with_reducible refine applyMoves_frame ?_ | with_reducible refine commitUnits_frame ?_ | with_reducible refine applyFits_frame ?_ | with_reducible apply Frame.ite | with_reducible apply Frame.iteFst | fail_if_no_progress (with_reducible refine Frame.set ?_) | split | dsimp only | refine Frame.ofFst ?_ (by assumption) | refine Frame.ofSnd2 ?_ (by assumption) | refine FrameOpt.kept ?_ _ (by assumption) | refine FrameOut.kept ?_ _ (by assumption)))

theorem stepThree_frame {s0 : State} {done : List StepDone} {n : Nat} {pm : List Part} {z0 : State} (hk : Frame pm z0 s0) (m_bar : Part.bar ∈ pm := by assumption) (m_host : Part.host ∈ pm := by assumption) (m_benches : Part.benches ∈ pm := by assumption) (m_work : Part.work ∈ pm := by assumption) (m_plan : Part.plan ∈ pm := by assumption) (m_haul : Part.haul ∈ pm := by assumption) (m_tier : Part.tier ∈ pm := by assumption) (m_fault : Part.fault ∈ pm := by assumption) (m_mgmt : Part.mgmt ∈ pm := by assumption) (m_out : Part.out ∈ pm := by assumption) (m_spent : Part.spent ∈ pm := by assumption) (m_fresh : Part.fresh ∈ pm := by assumption) : Frame pm z0 (stepThree s0 done n) := by
  unfold stepThree
  try dsimp only
  repeat (any_goals (first | intro _ | with_reducible assumption | with_reducible refine finishStep_frame ?_ | with_reducible refine returnCharges_frame ?_ | with_reducible refine finishSearches_frame ?_ | with_reducible refine endFull_frame ?_ | with_reducible refine refills_frame ?_ | with_reducible refine actParks_frame ?_ | with_reducible refine drainStep_frame ?_ | with_reducible refine writeWaiting_frame ?_ | with_reducible refine closeStreams_frame ?_ | with_reducible refine flushDue_frame ?_ | with_reducible apply foldl_frame | with_reducible apply foldl_frame_fst | with_reducible apply Frame.ite | with_reducible apply Frame.iteFst | fail_if_no_progress (with_reducible refine Frame.set ?_) | split | dsimp only | refine Frame.ofFst ?_ (by assumption) | refine Frame.ofSnd2 ?_ (by assumption) | refine FrameOpt.kept ?_ _ (by assumption) | refine FrameOut.kept ?_ _ (by assumption)))

theorem copyGroups_frame {s : State} {l : List (Nat × Nat)} {pm : List Part} {z0 : State} (hk : Frame pm z0 s) (m_work : Part.work ∈ pm := by assumption) (m_out : Part.out ∈ pm := by assumption) (m_spent : Part.spent ∈ pm := by assumption) : Frame pm z0 (copyGroups s l) := by
  unfold copyGroups
  try dsimp only
  repeat (any_goals (first | intro _ | with_reducible assumption | with_reducible refine modConv_frame ?_ | with_reducible refine sendReplicas_frame ?_ | with_reducible apply foldl_frame | with_reducible apply foldl_frame_fst | with_reducible apply Frame.ite | with_reducible apply Frame.iteFst | fail_if_no_progress (with_reducible refine Frame.set ?_) | split | dsimp only | refine Frame.ofFst ?_ (by assumption) | refine Frame.ofSnd2 ?_ (by assumption) | refine FrameOpt.kept ?_ _ (by assumption) | refine FrameOut.kept ?_ _ (by assumption)))

theorem stepFour_frame {s : State} {copies : List (Nat × Nat)} {n : Nat} {pm : List Part} {z0 : State} (hk : Frame pm z0 s) (m_host : Part.host ∈ pm := by assumption) (m_work : Part.work ∈ pm := by assumption) (m_shards : Part.shards ∈ pm := by assumption) (m_fault : Part.fault ∈ pm := by assumption) (m_out : Part.out ∈ pm := by assumption) (m_spent : Part.spent ∈ pm := by assumption) (m_fresh : Part.fresh ∈ pm := by assumption) : Frame pm z0 (stepFour s copies n) := by
  unfold stepFour
  try dsimp only
  repeat (any_goals (first | intro _ | with_reducible assumption | with_reducible refine sealSegments_frame ?_ | with_reducible refine sendCheckpoint_frame ?_ | with_reducible refine sealShards_frame ?_ | with_reducible refine flushDue_frame ?_ | with_reducible refine copyGroups_frame ?_ | with_reducible apply foldl_frame | with_reducible apply foldl_frame_fst | with_reducible apply Frame.ite | with_reducible apply Frame.iteFst | fail_if_no_progress (with_reducible refine Frame.set ?_) | split | dsimp only | refine Frame.ofFst ?_ (by assumption) | refine Frame.ofSnd2 ?_ (by assumption) | refine FrameOpt.kept ?_ _ (by assumption) | refine FrameOut.kept ?_ _ (by assumption)))

theorem stepFive_frame {s : State} {n : Nat} {pm : List Part} {z0 : State} (hk : Frame pm z0 s) (m_bar : Part.bar ∈ pm := by assumption) (m_benches : Part.benches ∈ pm := by assumption) (m_work : Part.work ∈ pm := by assumption) (m_plan : Part.plan ∈ pm := by assumption) (m_haul : Part.haul ∈ pm := by assumption) (m_tier : Part.tier ∈ pm := by assumption) (m_fab : Part.fab ∈ pm := by assumption) (m_win : Part.win ∈ pm := by assumption) (m_pwr : Part.pwr ∈ pm := by assumption) (m_mgmt : Part.mgmt ∈ pm := by assumption) (m_out : Part.out ∈ pm := by assumption) (m_spent : Part.spent ∈ pm := by assumption) : Frame pm z0 (stepFive s n) := by
  unfold stepFive
  try dsimp only
  repeat (any_goals (first | intro _ | with_reducible assumption | with_reducible refine decideRest_frame ?_ | with_reducible refine pruneCoast_frame ?_ | with_reducible refine switchEpoch_frame ?_ | with_reducible apply Frame.ite | with_reducible apply Frame.iteFst | fail_if_no_progress (with_reducible refine Frame.set ?_) | split | dsimp only | refine Frame.ofFst ?_ (by assumption) | refine Frame.ofSnd2 ?_ (by assumption) | refine FrameOpt.kept ?_ _ (by assumption) | refine FrameOut.kept ?_ _ (by assumption)))

theorem firmwareBack_frame {s : State} {n : Nat} {pm : List Part} {z0 : State} (hk : Frame pm z0 s) (m_fw : Part.fw ∈ pm := by assumption) : Frame pm z0 (firmwareBack s n) := by
  unfold firmwareBack
  try dsimp only
  repeat (any_goals (first | intro _ | with_reducible assumption | with_reducible apply Frame.ite | with_reducible apply Frame.iteFst | fail_if_no_progress (with_reducible refine Frame.set ?_) | split | dsimp only | refine Frame.ofFst ?_ (by assumption) | refine Frame.ofSnd2 ?_ (by assumption) | refine FrameOpt.kept ?_ _ (by assumption) | refine FrameOut.kept ?_ _ (by assumption)))

theorem advanceAll_frame {s : State} {pm : List Part} {z0 : State} (hk : Frame pm z0 s) (m_work : Part.work ∈ pm := by assumption) (m_haul : Part.haul ∈ pm := by assumption) (m_tier : Part.tier ∈ pm := by assumption) (m_out : Part.out ∈ pm := by assumption) (m_spent : Part.spent ∈ pm := by assumption) : Frame pm z0 (advanceAll s) := by
  unfold advanceAll
  try dsimp only
  repeat (any_goals (first | intro _ | with_reducible assumption | with_reducible refine advance_frame ?_ | with_reducible apply foldl_frame | with_reducible apply foldl_frame_fst | with_reducible apply Frame.ite | with_reducible apply Frame.iteFst | fail_if_no_progress (with_reducible refine Frame.set ?_) | split | dsimp only | refine Frame.ofFst ?_ (by assumption) | refine Frame.ofSnd2 ?_ (by assumption) | refine FrameOpt.kept ?_ _ (by assumption) | refine FrameOut.kept ?_ _ (by assumption)))

theorem noteSlices_frame {s : State} {pm : List Part} {z0 : State} (hk : Frame pm z0 s) (m_mgmt : Part.mgmt ∈ pm := by assumption) : Frame pm z0 (noteSlices s) := by
  unfold noteSlices
  try dsimp only
  repeat (any_goals (first | intro _ | with_reducible assumption | with_reducible refine closeMeter_frame ?_ | with_reducible apply foldl_frame | with_reducible apply foldl_frame_fst | with_reducible apply Frame.ite | with_reducible apply Frame.iteFst | fail_if_no_progress (with_reducible refine Frame.set ?_) | split | dsimp only | refine Frame.ofFst ?_ (by assumption) | refine Frame.ofSnd2 ?_ (by assumption) | refine FrameOpt.kept ?_ _ (by assumption) | refine FrameOut.kept ?_ _ (by assumption)))

theorem backlog_frame {s : State} {pm : List Part} {z0 : State} (hk : Frame pm z0 s) (m_bar : Part.bar ∈ pm := by assumption) : Frame pm z0 (backlog s) := by
  unfold backlog
  try dsimp only
  repeat (any_goals (first | intro _ | with_reducible assumption | with_reducible refine gauge_frame ?_ | with_reducible apply foldl_frame | with_reducible apply foldl_frame_fst | with_reducible apply Frame.ite | with_reducible apply Frame.iteFst | fail_if_no_progress (with_reducible refine Frame.set ?_) | split | dsimp only | refine Frame.ofFst ?_ (by assumption) | refine Frame.ofSnd2 ?_ (by assumption) | refine FrameOpt.kept ?_ _ (by assumption) | refine FrameOut.kept ?_ _ (by assumption)))

theorem planTwice_frame {s : State} {n : Nat} {pm : List Part} {z0 : State} (hk : Frame pm z0 s) (m_bar : Part.bar ∈ pm := by assumption) (m_host : Part.host ∈ pm := by assumption) (m_benches : Part.benches ∈ pm := by assumption) (m_work : Part.work ∈ pm := by assumption) (m_plan : Part.plan ∈ pm := by assumption) (m_tier : Part.tier ∈ pm := by assumption) (m_shards : Part.shards ∈ pm := by assumption) (m_fw : Part.fw ∈ pm := by assumption) (m_fault : Part.fault ∈ pm := by assumption) (m_out : Part.out ∈ pm := by assumption) (m_spent : Part.spent ∈ pm := by assumption) (m_fresh : Part.fresh ∈ pm := by assumption) : Frame pm z0 (planTwice s n) := by
  unfold planTwice
  try dsimp only
  repeat (any_goals (first | intro _ | with_reducible assumption | with_reducible refine makePlan_frame ?_ | with_reducible apply Frame.ite | with_reducible apply Frame.iteFst | fail_if_no_progress (with_reducible refine Frame.set ?_) | split | dsimp only | refine Frame.ofFst ?_ (by assumption) | refine Frame.ofSnd2 ?_ (by assumption) | refine FrameOpt.kept ?_ _ (by assumption) | refine FrameOut.kept ?_ _ (by assumption)))

theorem stepSix_frame {s : State} {n : Nat} {plans : Bool} {pm : List Part} {z0 : State} (hk : Frame pm z0 s) (m_bar : Part.bar ∈ pm := by assumption) (m_host : Part.host ∈ pm := by assumption) (m_benches : Part.benches ∈ pm := by assumption) (m_work : Part.work ∈ pm := by assumption) (m_plan : Part.plan ∈ pm := by assumption) (m_haul : Part.haul ∈ pm := by assumption) (m_tier : Part.tier ∈ pm := by assumption) (m_shards : Part.shards ∈ pm := by assumption) (m_fab : Part.fab ∈ pm := by assumption) (m_fw : Part.fw ∈ pm := by assumption) (m_fault : Part.fault ∈ pm := by assumption) (m_out : Part.out ∈ pm := by assumption) (m_spent : Part.spent ∈ pm := by assumption) (m_fresh : Part.fresh ∈ pm := by assumption) : Frame pm z0 (stepSix s n plans) := by
  unfold stepSix
  try dsimp only
  repeat (any_goals (first | intro _ | with_reducible assumption | with_reducible refine linkBudgets_frame ?_ | with_reducible refine applyWaiting_frame ?_ | with_reducible refine firmwareBack_frame ?_ | with_reducible refine planTwice_frame ?_ | with_reducible refine advanceAll_frame ?_ | with_reducible refine startEvacs_frame ?_ | with_reducible refine keepFace_frame ?_ | with_reducible apply Frame.ite | with_reducible apply Frame.iteFst | fail_if_no_progress (with_reducible refine Frame.set ?_) | split | dsimp only | refine Frame.ofFst ?_ (by assumption) | refine Frame.ofSnd2 ?_ (by assumption) | refine FrameOpt.kept ?_ _ (by assumption) | refine FrameOut.kept ?_ _ (by assumption)))

theorem closeCommit_frame {s : State} {n : Nat} {pm : List Part} {z0 : State} (hk : Frame pm z0 s) (m_time : Part.time ∈ pm := by assumption) (m_bar : Part.bar ∈ pm := by assumption) (m_benches : Part.benches ∈ pm := by assumption) (m_work : Part.work ∈ pm := by assumption) (m_fw : Part.fw ∈ pm := by assumption) (m_fault : Part.fault ∈ pm := by assumption) (m_mgmt : Part.mgmt ∈ pm := by assumption) (m_out : Part.out ∈ pm := by assumption) : Frame pm z0 (closeCommit s n) := by
  unfold closeCommit
  try dsimp only
  repeat (any_goals (first | intro _ | with_reducible assumption | with_reducible refine lapses_frame ?_ | with_reducible refine closeMeters_frame ?_ | with_reducible refine noteSlices_frame ?_ | with_reducible refine backlog_frame ?_ | with_reducible apply Frame.ite | with_reducible apply Frame.iteFst | fail_if_no_progress (with_reducible refine Frame.set ?_) | split | dsimp only | refine Frame.ofFst ?_ (by assumption) | refine Frame.ofSnd2 ?_ (by assumption) | refine FrameOpt.kept ?_ _ (by assumption) | refine FrameOut.kept ?_ _ (by assumption)))

theorem commitTick_frame {s : State} {n : Nat} {plans : Bool} {pm : List Part} {z0 : State} (hk : Frame pm z0 s) (m_time : Part.time ∈ pm := by assumption) (m_bar : Part.bar ∈ pm := by assumption) (m_host : Part.host ∈ pm := by assumption) (m_benches : Part.benches ∈ pm := by assumption) (m_work : Part.work ∈ pm := by assumption) (m_plan : Part.plan ∈ pm := by assumption) (m_haul : Part.haul ∈ pm := by assumption) (m_tier : Part.tier ∈ pm := by assumption) (m_shards : Part.shards ∈ pm := by assumption) (m_fab : Part.fab ∈ pm := by assumption) (m_win : Part.win ∈ pm := by assumption) (m_fw : Part.fw ∈ pm := by assumption) (m_fault : Part.fault ∈ pm := by assumption) (m_sec : Part.sec ∈ pm := by assumption) (m_pwr : Part.pwr ∈ pm := by assumption) (m_mgmt : Part.mgmt ∈ pm := by assumption) (m_out : Part.out ∈ pm := by assumption) (m_spent : Part.spent ∈ pm := by assumption) (m_fresh : Part.fresh ∈ pm := by assumption) : Frame pm z0 (commitTick s n plans) := by
  unfold commitTick
  try dsimp only
  repeat (any_goals (first | intro _ | with_reducible assumption | with_reducible refine cutOff_frame ?_ | with_reducible refine stepOne_frame ?_ | with_reducible refine expanderCounts_frame ?_ | with_reducible refine stepTwo_frame ?_ | with_reducible refine stepThree_frame ?_ | with_reducible refine closeCommit_frame ?_ | with_reducible refine stepSix_frame ?_ | with_reducible refine stepFive_frame ?_ | with_reducible refine stepFour_frame ?_ | with_reducible apply Frame.ite | with_reducible apply Frame.iteFst | fail_if_no_progress (with_reducible refine Frame.set ?_) | split | dsimp only | refine Frame.ofFst ?_ (by assumption) | refine Frame.ofSnd2 ?_ (by assumption) | refine FrameOpt.kept ?_ _ (by assumption) | refine FrameOut.kept ?_ _ (by assumption)))

theorem commit_frame {t : Stamp} {s : State} {pm : List Part} {z0 : State} (hk : Frame pm z0 s) (m_time : Part.time ∈ pm := by assumption) (m_bar : Part.bar ∈ pm := by assumption) (m_host : Part.host ∈ pm := by assumption) (m_benches : Part.benches ∈ pm := by assumption) (m_work : Part.work ∈ pm := by assumption) (m_plan : Part.plan ∈ pm := by assumption) (m_haul : Part.haul ∈ pm := by assumption) (m_tier : Part.tier ∈ pm := by assumption) (m_shards : Part.shards ∈ pm := by assumption) (m_fab : Part.fab ∈ pm := by assumption) (m_win : Part.win ∈ pm := by assumption) (m_fw : Part.fw ∈ pm := by assumption) (m_fault : Part.fault ∈ pm := by assumption) (m_sec : Part.sec ∈ pm := by assumption) (m_pwr : Part.pwr ∈ pm := by assumption) (m_mgmt : Part.mgmt ∈ pm := by assumption) (m_out : Part.out ∈ pm := by assumption) (m_spent : Part.spent ∈ pm := by assumption) (m_fresh : Part.fresh ∈ pm := by assumption) : Frame pm z0 (commit t s) := by
  unfold commit
  try dsimp only
  repeat (any_goals (first | intro _ | with_reducible assumption | with_reducible refine commitTick_frame ?_ | with_reducible refine closeAll_frame ?_ | with_reducible refine dropHeld_frame ?_ | with_reducible refine dropLanded_frame ?_ | with_reducible apply Frame.ite | with_reducible apply Frame.iteFst | fail_if_no_progress (with_reducible refine Frame.set ?_) | split | dsimp only | refine Frame.ofFst ?_ (by assumption) | refine Frame.ofSnd2 ?_ (by assumption) | refine FrameOpt.kept ?_ _ (by assumption) | refine FrameOut.kept ?_ _ (by assumption)))

theorem execCommit_frame {t : Stamp} {s : State} {pm : List Part} {z0 : State} (hk : Frame pm z0 s) (m_time : Part.time ∈ pm := by assumption) (m_bar : Part.bar ∈ pm := by assumption) (m_host : Part.host ∈ pm := by assumption) (m_benches : Part.benches ∈ pm := by assumption) (m_work : Part.work ∈ pm := by assumption) (m_plan : Part.plan ∈ pm := by assumption) (m_haul : Part.haul ∈ pm := by assumption) (m_tier : Part.tier ∈ pm := by assumption) (m_shards : Part.shards ∈ pm := by assumption) (m_fab : Part.fab ∈ pm := by assumption) (m_win : Part.win ∈ pm := by assumption) (m_fw : Part.fw ∈ pm := by assumption) (m_fault : Part.fault ∈ pm := by assumption) (m_sec : Part.sec ∈ pm := by assumption) (m_pwr : Part.pwr ∈ pm := by assumption) (m_mgmt : Part.mgmt ∈ pm := by assumption) (m_out : Part.out ∈ pm := by assumption) (m_spent : Part.spent ∈ pm := by assumption) (m_fresh : Part.fresh ∈ pm := by assumption) : FrameOut pm z0 (execCommit t s) := by
  unfold execCommit
  try dsimp only
  repeat (any_goals (first | intro _ | with_reducible assumption | with_reducible refine run_frame ?_ ?_ | with_reducible refine commit_frame ?_ | with_reducible apply FrameOut.next | exact FrameOut.fault | with_reducible apply Frame.ite | with_reducible apply Frame.iteFst | with_reducible apply FrameOut.ite | fail_if_no_progress (with_reducible refine Frame.set ?_) | split | dsimp only | refine Frame.ofFst ?_ (by assumption) | refine Frame.ofSnd2 ?_ (by assumption) | refine FrameOpt.kept ?_ _ (by assumption) | refine FrameOut.kept ?_ _ (by assumption)))

theorem tallyRow_frame {d : HostDesc} {s : State} {pm : List Part} {z0 : State} (hk : Frame pm z0 s) (m_time : Part.time ∈ pm := by assumption) (m_host : Part.host ∈ pm := by assumption) (m_work : Part.work ∈ pm := by assumption) (m_haul : Part.haul ∈ pm := by assumption) (m_tier : Part.tier ∈ pm := by assumption) (m_fault : Part.fault ∈ pm := by assumption) (m_mgmt : Part.mgmt ∈ pm := by assumption) (m_out : Part.out ∈ pm := by assumption) (m_spent : Part.spent ∈ pm := by assumption) (m_fresh : Part.fresh ∈ pm := by assumption) : FrameOut pm z0 (tallyRow d s) := by
  unfold tallyRow
  try dsimp only
  repeat (any_goals (first | intro _ | with_reducible assumption | with_reducible refine hostRow_frame ?_ ?_ | with_reducible refine refillTally_frame ?_ | with_reducible refine applyTally_frame ?_ ?_ | with_reducible refine closeDeleted_frame ?_ | with_reducible apply FrameOut.next | exact FrameOut.fault | with_reducible apply Frame.ite | with_reducible apply Frame.iteFst | with_reducible apply FrameOut.ite | fail_if_no_progress (with_reducible refine Frame.set ?_) | split | dsimp only | refine Frame.ofFst ?_ (by assumption) | refine Frame.ofSnd2 ?_ (by assumption) | refine FrameOpt.kept ?_ _ (by assumption) | refine FrameOut.kept ?_ _ (by assumption)))

theorem execTallySet_frame {d : HostDesc} {s : State} {pm : List Part} {z0 : State} (hk : Frame pm z0 s) (m_time : Part.time ∈ pm := by assumption) (m_host : Part.host ∈ pm := by assumption) (m_work : Part.work ∈ pm := by assumption) (m_haul : Part.haul ∈ pm := by assumption) (m_tier : Part.tier ∈ pm := by assumption) (m_fault : Part.fault ∈ pm := by assumption) (m_mgmt : Part.mgmt ∈ pm := by assumption) (m_out : Part.out ∈ pm := by assumption) (m_spent : Part.spent ∈ pm := by assumption) (m_fresh : Part.fresh ∈ pm := by assumption) : FrameOut pm z0 (execTallySet d s) := by
  unfold execTallySet
  try dsimp only
  repeat (any_goals (first | intro _ | with_reducible assumption | with_reducible refine tallyRow_frame ?_ | with_reducible apply FrameOut.next | exact FrameOut.fault | with_reducible apply Frame.ite | with_reducible apply Frame.iteFst | with_reducible apply FrameOut.ite | fail_if_no_progress (with_reducible refine Frame.set ?_) | split | dsimp only | refine Frame.ofFst ?_ (by assumption) | refine Frame.ofSnd2 ?_ (by assumption) | refine FrameOpt.kept ?_ _ (by assumption) | refine FrameOut.kept ?_ _ (by assumption)))

theorem execTallyDelete_frame {d : HostDesc} {s : State} {pm : List Part} {z0 : State} (hk : Frame pm z0 s) (m_time : Part.time ∈ pm := by assumption) (m_host : Part.host ∈ pm := by assumption) (m_work : Part.work ∈ pm := by assumption) (m_haul : Part.haul ∈ pm := by assumption) (m_tier : Part.tier ∈ pm := by assumption) (m_fault : Part.fault ∈ pm := by assumption) (m_mgmt : Part.mgmt ∈ pm := by assumption) (m_out : Part.out ∈ pm := by assumption) (m_spent : Part.spent ∈ pm := by assumption) (m_fresh : Part.fresh ∈ pm := by assumption) : FrameOut pm z0 (execTallyDelete d s) := by
  unfold execTallyDelete
  try dsimp only
  repeat (any_goals (first | intro _ | with_reducible assumption | with_reducible refine tallyRow_frame ?_ | with_reducible apply FrameOut.next | exact FrameOut.fault | with_reducible apply Frame.ite | with_reducible apply Frame.iteFst | with_reducible apply FrameOut.ite | fail_if_no_progress (with_reducible refine Frame.set ?_) | split | dsimp only | refine Frame.ofFst ?_ (by assumption) | refine Frame.ofSnd2 ?_ (by assumption) | refine FrameOpt.kept ?_ _ (by assumption) | refine FrameOut.kept ?_ _ (by assumption)))

theorem expire_frame {k : Nat} {s : State} {pm : List Part} {z0 : State} (hk : Frame pm z0 s) (m_bar : Part.bar ∈ pm := by assumption) (m_host : Part.host ∈ pm := by assumption) (m_benches : Part.benches ∈ pm := by assumption) (m_work : Part.work ∈ pm := by assumption) (m_plan : Part.plan ∈ pm := by assumption) (m_haul : Part.haul ∈ pm := by assumption) (m_tier : Part.tier ∈ pm := by assumption) (m_fault : Part.fault ∈ pm := by assumption) (m_out : Part.out ∈ pm := by assumption) (m_spent : Part.spent ∈ pm := by assumption) (m_fresh : Part.fresh ∈ pm := by assumption) : Frame pm z0 (expire k s) := by
  unfold expire
  try dsimp only
  repeat (any_goals (first | intro _ | with_reducible assumption | with_reducible refine settle_frame ?_ ?_ | with_reducible refine endReq_frame ?_ | with_reducible apply Frame.ite | with_reducible apply Frame.iteFst | fail_if_no_progress (with_reducible refine Frame.set ?_) | split | dsimp only | refine Frame.ofFst ?_ (by assumption) | refine Frame.ofSnd2 ?_ (by assumption) | refine FrameOpt.kept ?_ _ (by assumption) | refine FrameOut.kept ?_ _ (by assumption)))

theorem execDeadlineExpiry_frame {t : Stamp} {req : Nat} {s : State} {pm : List Part} {z0 : State} (hk : Frame pm z0 s) (m_time : Part.time ∈ pm := by assumption) (m_bar : Part.bar ∈ pm := by assumption) (m_host : Part.host ∈ pm := by assumption) (m_benches : Part.benches ∈ pm := by assumption) (m_work : Part.work ∈ pm := by assumption) (m_plan : Part.plan ∈ pm := by assumption) (m_haul : Part.haul ∈ pm := by assumption) (m_tier : Part.tier ∈ pm := by assumption) (m_fault : Part.fault ∈ pm := by assumption) (m_out : Part.out ∈ pm := by assumption) (m_spent : Part.spent ∈ pm := by assumption) (m_fresh : Part.fresh ∈ pm := by assumption) : FrameOut pm z0 (execDeadlineExpiry t req s) := by
  unfold execDeadlineExpiry
  try dsimp only
  repeat (any_goals (first | intro _ | with_reducible assumption | with_reducible refine run_frame ?_ ?_ | with_reducible refine expire_frame ?_ | with_reducible apply FrameOut.next | exact FrameOut.fault | with_reducible apply Frame.ite | with_reducible apply Frame.iteFst | with_reducible apply FrameOut.ite | fail_if_no_progress (with_reducible refine Frame.set ?_) | split | dsimp only | refine Frame.ofFst ?_ (by assumption) | refine Frame.ofSnd2 ?_ (by assumption) | refine FrameOpt.kept ?_ _ (by assumption) | refine FrameOut.kept ?_ _ (by assumption)))

theorem execTallyRefill_frame {t : Stamp} {tally : Nat} {s : State} {pm : List Part} {z0 : State} (hk : Frame pm z0 s) (m_time : Part.time ∈ pm := by assumption) (m_work : Part.work ∈ pm := by assumption) : FrameOut pm z0 (execTallyRefill t tally s) := by
  unfold execTallyRefill
  try dsimp only
  repeat (any_goals (first | intro _ | with_reducible assumption | with_reducible refine run_frame ?_ ?_ | with_reducible refine refillTally_frame ?_ | with_reducible apply FrameOut.next | exact FrameOut.fault | with_reducible apply Frame.ite | with_reducible apply Frame.iteFst | with_reducible apply FrameOut.ite | fail_if_no_progress (with_reducible refine Frame.set ?_) | split | dsimp only | refine Frame.ofFst ?_ (by assumption) | refine Frame.ofSnd2 ?_ (by assumption) | refine FrameOpt.kept ?_ _ (by assumption) | refine FrameOut.kept ?_ _ (by assumption)))

theorem execDoneListExpiry_frame {t : Stamp} {req : Nat} {s : State} {pm : List Part} {z0 : State} (hk : Frame pm z0 s) (m_time : Part.time ∈ pm := by assumption) (m_bar : Part.bar ∈ pm := by assumption) (m_work : Part.work ∈ pm := by assumption) : FrameOut pm z0 (execDoneListExpiry t req s) := by
  unfold execDoneListExpiry
  try dsimp only
  repeat (any_goals (first | intro _ | with_reducible assumption | with_reducible refine run_frame ?_ ?_ | with_reducible refine lapseDone_frame ?_ | with_reducible apply FrameOut.next | exact FrameOut.fault | with_reducible apply Frame.ite | with_reducible apply Frame.iteFst | with_reducible apply FrameOut.ite | fail_if_no_progress (with_reducible refine Frame.set ?_) | split | dsimp only | refine Frame.ofFst ?_ (by assumption) | refine Frame.ofSnd2 ?_ (by assumption) | refine FrameOpt.kept ?_ _ (by assumption) | refine FrameOut.kept ?_ _ (by assumption)))

theorem execBindingExpiry_frame {t : Stamp} {req : Nat} {s : State} {pm : List Part} {z0 : State} (hk : Frame pm z0 s) (m_time : Part.time ∈ pm := by assumption) (m_work : Part.work ∈ pm := by assumption) : FrameOut pm z0 (execBindingExpiry t req s) := by
  unfold execBindingExpiry
  try dsimp only
  repeat (any_goals (first | intro _ | with_reducible assumption | with_reducible refine run_frame ?_ ?_ | with_reducible refine lapseBinding_frame ?_ | with_reducible apply FrameOut.next | exact FrameOut.fault | with_reducible apply Frame.ite | with_reducible apply Frame.iteFst | with_reducible apply FrameOut.ite | fail_if_no_progress (with_reducible refine Frame.set ?_) | split | dsimp only | refine Frame.ofFst ?_ (by assumption) | refine Frame.ofSnd2 ?_ (by assumption) | refine FrameOpt.kept ?_ _ (by assumption) | refine FrameOut.kept ?_ _ (by assumption)))

theorem execGoodputWindowClose_frame {t : Stamp} {bench : Nat} {s : State} {pm : List Part} {z0 : State} (hk : Frame pm z0 s) (m_time : Part.time ∈ pm := by assumption) (m_benches : Part.benches ∈ pm := by assumption) (m_fault : Part.fault ∈ pm := by assumption) (m_out : Part.out ∈ pm := by assumption) : FrameOut pm z0 (execGoodputWindowClose t bench s) := by
  unfold execGoodputWindowClose
  try dsimp only
  repeat (any_goals (first | intro _ | with_reducible assumption | with_reducible refine run_frame ?_ ?_ | with_reducible refine closeGoodput_frame ?_ | with_reducible apply FrameOut.next | exact FrameOut.fault | with_reducible apply Frame.ite | with_reducible apply Frame.iteFst | with_reducible apply FrameOut.ite | fail_if_no_progress (with_reducible refine Frame.set ?_) | split | dsimp only | refine Frame.ofFst ?_ (by assumption) | refine Frame.ofSnd2 ?_ (by assumption) | refine FrameOpt.kept ?_ _ (by assumption) | refine FrameOut.kept ?_ _ (by assumption)))

theorem execMeterWindowClose_frame {t : Stamp} {s : State} {pm : List Part} {z0 : State} (hk : Frame pm z0 s) (m_time : Part.time ∈ pm := by assumption) (m_work : Part.work ∈ pm := by assumption) (m_mgmt : Part.mgmt ∈ pm := by assumption) : FrameOut pm z0 (execMeterWindowClose t s) := by
  unfold execMeterWindowClose
  try dsimp only
  repeat (any_goals (first | intro _ | with_reducible assumption | with_reducible refine run_frame ?_ ?_ | with_reducible refine closeMeters_frame ?_ | with_reducible apply FrameOut.next | exact FrameOut.fault | with_reducible apply Frame.ite | with_reducible apply Frame.iteFst | with_reducible apply FrameOut.ite | fail_if_no_progress (with_reducible refine Frame.set ?_) | split | dsimp only | refine Frame.ofFst ?_ (by assumption) | refine Frame.ofSnd2 ?_ (by assumption) | refine FrameOpt.kept ?_ _ (by assumption) | refine FrameOut.kept ?_ _ (by assumption)))

end

end Sys2Proof.Machine
end

