-- ==== Sys2Proof/Laws/State.lean ====
section
/-! SUPPORT. What each named update of State leaves in each of its parts: one lemma per update and part, true by
definition, so that no later proof unfolds a record update. -/

namespace Sys2Proof.Machine

/-! ## State.at -/

@[simp] theorem State.at_stock (s : State) (t : Stamp) : (s.at t).stock = s.stock := rfl
@[simp] theorem State.at_time (s : State) (t : Stamp) : (s.at t).time = { s.time with now := stampMax s.time.now (stampNorm s t) } := rfl
@[simp] theorem State.at_bar (s : State) (t : Stamp) : (s.at t).bar = s.bar := rfl
@[simp] theorem State.at_host (s : State) (t : Stamp) : (s.at t).host = s.host := rfl
@[simp] theorem State.at_benches (s : State) (t : Stamp) : (s.at t).benches = s.benches := rfl
@[simp] theorem State.at_work (s : State) (t : Stamp) : (s.at t).work = s.work := rfl
@[simp] theorem State.at_plan (s : State) (t : Stamp) : (s.at t).plan = s.plan := rfl
@[simp] theorem State.at_haul (s : State) (t : Stamp) : (s.at t).haul = s.haul := rfl
@[simp] theorem State.at_tier (s : State) (t : Stamp) : (s.at t).tier = s.tier := rfl
@[simp] theorem State.at_shards (s : State) (t : Stamp) : (s.at t).shards = s.shards := rfl
@[simp] theorem State.at_fab (s : State) (t : Stamp) : (s.at t).fab = s.fab := rfl
@[simp] theorem State.at_win (s : State) (t : Stamp) : (s.at t).win = s.win := rfl
@[simp] theorem State.at_fw (s : State) (t : Stamp) : (s.at t).fw = s.fw := rfl
@[simp] theorem State.at_fault (s : State) (t : Stamp) : (s.at t).fault = s.fault := rfl
@[simp] theorem State.at_sec (s : State) (t : Stamp) : (s.at t).sec = s.sec := rfl
@[simp] theorem State.at_pwr (s : State) (t : Stamp) : (s.at t).pwr = s.pwr := rfl
@[simp] theorem State.at_mgmt (s : State) (t : Stamp) : (s.at t).mgmt = s.mgmt := rfl
@[simp] theorem State.at_out (s : State) (t : Stamp) : (s.at t).out = s.out := rfl
@[simp] theorem State.at_spent (s : State) (t : Stamp) : (s.at t).spent = s.spent := rfl
@[simp] theorem State.at_fresh (s : State) (t : Stamp) : (s.at t).fresh = s.fresh := rfl
@[simp] theorem State.at_pending (s : State) (t : Stamp) : (s.at t).pending = s.pending := rfl

/-! ## emit -/

@[simp] theorem emit_stock (s : State) (o : Output) : (emit s o).stock = s.stock := rfl
@[simp] theorem emit_time (s : State) (o : Output) : (emit s o).time = s.time := rfl
@[simp] theorem emit_bar (s : State) (o : Output) : (emit s o).bar = s.bar := rfl
@[simp] theorem emit_host (s : State) (o : Output) : (emit s o).host = s.host := rfl
@[simp] theorem emit_benches (s : State) (o : Output) : (emit s o).benches = s.benches := rfl
@[simp] theorem emit_work (s : State) (o : Output) : (emit s o).work = s.work := rfl
@[simp] theorem emit_plan (s : State) (o : Output) : (emit s o).plan = s.plan := rfl
@[simp] theorem emit_haul (s : State) (o : Output) : (emit s o).haul = s.haul := rfl
@[simp] theorem emit_tier (s : State) (o : Output) : (emit s o).tier = s.tier := rfl
@[simp] theorem emit_shards (s : State) (o : Output) : (emit s o).shards = s.shards := rfl
@[simp] theorem emit_fab (s : State) (o : Output) : (emit s o).fab = s.fab := rfl
@[simp] theorem emit_win (s : State) (o : Output) : (emit s o).win = s.win := rfl
@[simp] theorem emit_fw (s : State) (o : Output) : (emit s o).fw = s.fw := rfl
@[simp] theorem emit_fault (s : State) (o : Output) : (emit s o).fault = s.fault := rfl
@[simp] theorem emit_sec (s : State) (o : Output) : (emit s o).sec = s.sec := rfl
@[simp] theorem emit_pwr (s : State) (o : Output) : (emit s o).pwr = s.pwr := rfl
@[simp] theorem emit_mgmt (s : State) (o : Output) : (emit s o).mgmt = s.mgmt := rfl
@[simp] theorem emit_out (s : State) (o : Output) : (emit s o).out = s.out ++ [o] := rfl
@[simp] theorem emit_spent (s : State) (o : Output) : (emit s o).spent = s.spent := rfl
@[simp] theorem emit_fresh (s : State) (o : Output) : (emit s o).fresh = s.fresh := rfl
@[simp] theorem emit_pending (s : State) (o : Output) : (emit s o).pending = s.pending := rfl

/-! ## send -/

@[simp] theorem send_stock (s : State) (d : ModuleId) (b : Option Nat) (m : Msg) : (send s d b m).stock = s.stock := by cases b <;> dsimp only [send] <;> (try split) <;> rfl
@[simp] theorem send_time (s : State) (d : ModuleId) (b : Option Nat) (m : Msg) : (send s d b m).time = s.time := by cases b <;> dsimp only [send] <;> (try split) <;> rfl
@[simp] theorem send_bar (s : State) (d : ModuleId) (b : Option Nat) (m : Msg) : (send s d b m).bar = s.bar := by cases b <;> dsimp only [send] <;> (try split) <;> rfl
@[simp] theorem send_host (s : State) (d : ModuleId) (b : Option Nat) (m : Msg) : (send s d b m).host = s.host := by cases b <;> dsimp only [send] <;> (try split) <;> rfl
@[simp] theorem send_benches (s : State) (d : ModuleId) (b : Option Nat) (m : Msg) : (send s d b m).benches = s.benches := by cases b <;> dsimp only [send] <;> (try split) <;> rfl
@[simp] theorem send_work (s : State) (d : ModuleId) (b : Option Nat) (m : Msg) : (send s d b m).work = s.work := by cases b <;> dsimp only [send] <;> (try split) <;> rfl
@[simp] theorem send_plan (s : State) (d : ModuleId) (b : Option Nat) (m : Msg) : (send s d b m).plan = s.plan := by cases b <;> dsimp only [send] <;> (try split) <;> rfl
@[simp] theorem send_haul (s : State) (d : ModuleId) (b : Option Nat) (m : Msg) : (send s d b m).haul = s.haul := by cases b <;> dsimp only [send] <;> (try split) <;> rfl
@[simp] theorem send_tier (s : State) (d : ModuleId) (b : Option Nat) (m : Msg) : (send s d b m).tier = s.tier := by cases b <;> dsimp only [send] <;> (try split) <;> rfl
@[simp] theorem send_shards (s : State) (d : ModuleId) (b : Option Nat) (m : Msg) : (send s d b m).shards = s.shards := by cases b <;> dsimp only [send] <;> (try split) <;> rfl
@[simp] theorem send_fab (s : State) (d : ModuleId) (b : Option Nat) (m : Msg) : (send s d b m).fab = s.fab := by cases b <;> dsimp only [send] <;> (try split) <;> rfl
@[simp] theorem send_win (s : State) (d : ModuleId) (b : Option Nat) (m : Msg) : (send s d b m).win = s.win := by cases b <;> dsimp only [send] <;> (try split) <;> rfl
@[simp] theorem send_fw (s : State) (d : ModuleId) (b : Option Nat) (m : Msg) : (send s d b m).fw = s.fw := by cases b <;> dsimp only [send] <;> (try split) <;> rfl
@[simp] theorem send_fault (s : State) (d : ModuleId) (b : Option Nat) (m : Msg) : (send s d b m).fault = s.fault := by cases b <;> dsimp only [send] <;> (try split) <;> rfl
@[simp] theorem send_sec (s : State) (d : ModuleId) (b : Option Nat) (m : Msg) : (send s d b m).sec = s.sec := by cases b <;> dsimp only [send] <;> (try split) <;> rfl
@[simp] theorem send_pwr (s : State) (d : ModuleId) (b : Option Nat) (m : Msg) : (send s d b m).pwr = s.pwr := by cases b <;> dsimp only [send] <;> (try split) <;> rfl
@[simp] theorem send_mgmt (s : State) (d : ModuleId) (b : Option Nat) (m : Msg) : (send s d b m).mgmt = s.mgmt := by cases b <;> dsimp only [send] <;> (try split) <;> rfl
@[simp] theorem send_out (s : State) (d : ModuleId) (b : Option Nat) (m : Msg) : (send s d b m).out = s.out ++ [.send d b m] := by cases b <;> dsimp only [send] <;> (try split) <;> rfl
@[simp] theorem send_fresh (s : State) (d : ModuleId) (b : Option Nat) (m : Msg) : (send s d b m).fresh = s.fresh := by cases b <;> dsimp only [send] <;> (try split) <;> rfl
@[simp] theorem send_pending (s : State) (d : ModuleId) (b : Option Nat) (m : Msg) : (send s d b m).pending = s.pending := by cases b <;> dsimp only [send] <;> (try split) <;> rfl

/-! ## charge -/

@[simp] theorem charge_stock (s : State) (b k n : Nat) : (charge s b k n).stock = s.stock := rfl
@[simp] theorem charge_time (s : State) (b k n : Nat) : (charge s b k n).time = s.time := rfl
@[simp] theorem charge_bar (s : State) (b k n : Nat) : (charge s b k n).bar = s.bar := rfl
@[simp] theorem charge_host (s : State) (b k n : Nat) : (charge s b k n).host = s.host := rfl
@[simp] theorem charge_benches (s : State) (b k n : Nat) : (charge s b k n).benches = s.benches := rfl
@[simp] theorem charge_work (s : State) (b k n : Nat) : (charge s b k n).work = s.work := rfl
@[simp] theorem charge_plan (s : State) (b k n : Nat) : (charge s b k n).plan = s.plan := rfl
@[simp] theorem charge_haul (s : State) (b k n : Nat) : (charge s b k n).haul = s.haul := rfl
@[simp] theorem charge_tier (s : State) (b k n : Nat) : (charge s b k n).tier = s.tier := rfl
@[simp] theorem charge_shards (s : State) (b k n : Nat) : (charge s b k n).shards = s.shards := rfl
@[simp] theorem charge_fab (s : State) (b k n : Nat) : (charge s b k n).fab = s.fab := rfl
@[simp] theorem charge_win (s : State) (b k n : Nat) : (charge s b k n).win = s.win := rfl
@[simp] theorem charge_fw (s : State) (b k n : Nat) : (charge s b k n).fw = s.fw := rfl
@[simp] theorem charge_fault (s : State) (b k n : Nat) : (charge s b k n).fault = s.fault := rfl
@[simp] theorem charge_sec (s : State) (b k n : Nat) : (charge s b k n).sec = s.sec := rfl
@[simp] theorem charge_pwr (s : State) (b k n : Nat) : (charge s b k n).pwr = s.pwr := rfl
@[simp] theorem charge_mgmt (s : State) (b k n : Nat) : (charge s b k n).mgmt = s.mgmt := rfl
@[simp] theorem charge_out (s : State) (b k n : Nat) : (charge s b k n).out = s.out := rfl
@[simp] theorem charge_spent (s : State) (b k n : Nat) : (charge s b k n).spent = tput s.spent (4 * b + k) ((tget s.spent (4 * b + k)).getD 0 + n) := rfl
@[simp] theorem charge_fresh (s : State) (b k n : Nat) : (charge s b k n).fresh = s.fresh := rfl
@[simp] theorem charge_pending (s : State) (b k n : Nat) : (charge s b k n).pending = s.pending := rfl

/-! ## chargeShare -/

@[simp] theorem chargeShare_stock (s : State) (b k n : Nat) : (chargeShare s b k n).stock = s.stock := rfl
@[simp] theorem chargeShare_time (s : State) (b k n : Nat) : (chargeShare s b k n).time = s.time := rfl
@[simp] theorem chargeShare_bar (s : State) (b k n : Nat) : (chargeShare s b k n).bar = s.bar := rfl
@[simp] theorem chargeShare_host (s : State) (b k n : Nat) : (chargeShare s b k n).host = s.host := rfl
@[simp] theorem chargeShare_benches (s : State) (b k n : Nat) : (chargeShare s b k n).benches = s.benches := rfl
@[simp] theorem chargeShare_work (s : State) (b k n : Nat) : (chargeShare s b k n).work = s.work := rfl
@[simp] theorem chargeShare_plan (s : State) (b k n : Nat) : (chargeShare s b k n).plan = s.plan := rfl
@[simp] theorem chargeShare_haul (s : State) (b k n : Nat) : (chargeShare s b k n).haul = s.haul := rfl
@[simp] theorem chargeShare_tier (s : State) (b k n : Nat) : (chargeShare s b k n).tier = s.tier := rfl
@[simp] theorem chargeShare_shards (s : State) (b k n : Nat) : (chargeShare s b k n).shards = s.shards := rfl
@[simp] theorem chargeShare_fab (s : State) (b k n : Nat) : (chargeShare s b k n).fab = s.fab := rfl
@[simp] theorem chargeShare_win (s : State) (b k n : Nat) : (chargeShare s b k n).win = s.win := rfl
@[simp] theorem chargeShare_fw (s : State) (b k n : Nat) : (chargeShare s b k n).fw = s.fw := rfl
@[simp] theorem chargeShare_fault (s : State) (b k n : Nat) : (chargeShare s b k n).fault = s.fault := rfl
@[simp] theorem chargeShare_sec (s : State) (b k n : Nat) : (chargeShare s b k n).sec = s.sec := rfl
@[simp] theorem chargeShare_pwr (s : State) (b k n : Nat) : (chargeShare s b k n).pwr = s.pwr := rfl
@[simp] theorem chargeShare_mgmt (s : State) (b k n : Nat) : (chargeShare s b k n).mgmt = s.mgmt := rfl
@[simp] theorem chargeShare_out (s : State) (b k n : Nat) : (chargeShare s b k n).out = s.out := rfl
@[simp] theorem chargeShare_fresh (s : State) (b k n : Nat) : (chargeShare s b k n).fresh = s.fresh := rfl
@[simp] theorem chargeShare_pending (s : State) (b k n : Nat) : (chargeShare s b k n).pending = s.pending := rfl

/-! ## State.bump -/

@[simp] theorem State.bump_stock (s : State) : (s.bump).stock = s.stock := rfl
@[simp] theorem State.bump_time (s : State) : (s.bump).time = s.time := rfl
@[simp] theorem State.bump_bar (s : State) : (s.bump).bar = s.bar := rfl
@[simp] theorem State.bump_host (s : State) : (s.bump).host = s.host := rfl
@[simp] theorem State.bump_benches (s : State) : (s.bump).benches = s.benches := rfl
@[simp] theorem State.bump_work (s : State) : (s.bump).work = s.work := rfl
@[simp] theorem State.bump_plan (s : State) : (s.bump).plan = s.plan := rfl
@[simp] theorem State.bump_haul (s : State) : (s.bump).haul = s.haul := rfl
@[simp] theorem State.bump_tier (s : State) : (s.bump).tier = s.tier := rfl
@[simp] theorem State.bump_shards (s : State) : (s.bump).shards = s.shards := rfl
@[simp] theorem State.bump_fab (s : State) : (s.bump).fab = s.fab := rfl
@[simp] theorem State.bump_win (s : State) : (s.bump).win = s.win := rfl
@[simp] theorem State.bump_fw (s : State) : (s.bump).fw = s.fw := rfl
@[simp] theorem State.bump_fault (s : State) : (s.bump).fault = s.fault := rfl
@[simp] theorem State.bump_sec (s : State) : (s.bump).sec = s.sec := rfl
@[simp] theorem State.bump_pwr (s : State) : (s.bump).pwr = s.pwr := rfl
@[simp] theorem State.bump_mgmt (s : State) : (s.bump).mgmt = s.mgmt := rfl
@[simp] theorem State.bump_out (s : State) : (s.bump).out = s.out := rfl
@[simp] theorem State.bump_spent (s : State) : (s.bump).spent = s.spent := rfl
@[simp] theorem State.bump_fresh (s : State) : (s.bump).fresh = s.fresh + 1 := rfl
@[simp] theorem State.bump_pending (s : State) : (s.bump).pending = s.pending := rfl

/-! ## count -/

@[simp] theorem count_stock (s : State) (o n : Nat) : (count s o n).stock = s.stock := rfl
@[simp] theorem count_time (s : State) (o n : Nat) : (count s o n).time = s.time := rfl
@[simp] theorem count_bar (s : State) (o n : Nat) : (count s o n).bar = { s.bar with live := tput s.bar.live o (((tget s.bar.live o).getD 0 + n) % 2 ^ 64) } := rfl
@[simp] theorem count_host (s : State) (o n : Nat) : (count s o n).host = s.host := rfl
@[simp] theorem count_benches (s : State) (o n : Nat) : (count s o n).benches = s.benches := rfl
@[simp] theorem count_work (s : State) (o n : Nat) : (count s o n).work = s.work := rfl
@[simp] theorem count_plan (s : State) (o n : Nat) : (count s o n).plan = s.plan := rfl
@[simp] theorem count_haul (s : State) (o n : Nat) : (count s o n).haul = s.haul := rfl
@[simp] theorem count_tier (s : State) (o n : Nat) : (count s o n).tier = s.tier := rfl
@[simp] theorem count_shards (s : State) (o n : Nat) : (count s o n).shards = s.shards := rfl
@[simp] theorem count_fab (s : State) (o n : Nat) : (count s o n).fab = s.fab := rfl
@[simp] theorem count_win (s : State) (o n : Nat) : (count s o n).win = s.win := rfl
@[simp] theorem count_fw (s : State) (o n : Nat) : (count s o n).fw = s.fw := rfl
@[simp] theorem count_fault (s : State) (o n : Nat) : (count s o n).fault = s.fault := rfl
@[simp] theorem count_sec (s : State) (o n : Nat) : (count s o n).sec = s.sec := rfl
@[simp] theorem count_pwr (s : State) (o n : Nat) : (count s o n).pwr = s.pwr := rfl
@[simp] theorem count_mgmt (s : State) (o n : Nat) : (count s o n).mgmt = s.mgmt := rfl
@[simp] theorem count_out (s : State) (o n : Nat) : (count s o n).out = s.out := rfl
@[simp] theorem count_spent (s : State) (o n : Nat) : (count s o n).spent = s.spent := rfl
@[simp] theorem count_fresh (s : State) (o n : Nat) : (count s o n).fresh = s.fresh := rfl
@[simp] theorem count_pending (s : State) (o n : Nat) : (count s o n).pending = s.pending := rfl

/-! ## countHalf -/

@[simp] theorem countHalf_stock (s : State) (o : Nat) (h : Bool) (n : Nat) : (countHalf s o h n).stock = s.stock := rfl
@[simp] theorem countHalf_time (s : State) (o : Nat) (h : Bool) (n : Nat) : (countHalf s o h n).time = s.time := rfl
@[simp] theorem countHalf_host (s : State) (o : Nat) (h : Bool) (n : Nat) : (countHalf s o h n).host = s.host := rfl
@[simp] theorem countHalf_benches (s : State) (o : Nat) (h : Bool) (n : Nat) : (countHalf s o h n).benches = s.benches := rfl
@[simp] theorem countHalf_work (s : State) (o : Nat) (h : Bool) (n : Nat) : (countHalf s o h n).work = s.work := rfl
@[simp] theorem countHalf_plan (s : State) (o : Nat) (h : Bool) (n : Nat) : (countHalf s o h n).plan = s.plan := rfl
@[simp] theorem countHalf_haul (s : State) (o : Nat) (h : Bool) (n : Nat) : (countHalf s o h n).haul = s.haul := rfl
@[simp] theorem countHalf_tier (s : State) (o : Nat) (h : Bool) (n : Nat) : (countHalf s o h n).tier = s.tier := rfl
@[simp] theorem countHalf_shards (s : State) (o : Nat) (h : Bool) (n : Nat) : (countHalf s o h n).shards = s.shards := rfl
@[simp] theorem countHalf_fab (s : State) (o : Nat) (h : Bool) (n : Nat) : (countHalf s o h n).fab = s.fab := rfl
@[simp] theorem countHalf_win (s : State) (o : Nat) (h : Bool) (n : Nat) : (countHalf s o h n).win = s.win := rfl
@[simp] theorem countHalf_fw (s : State) (o : Nat) (h : Bool) (n : Nat) : (countHalf s o h n).fw = s.fw := rfl
@[simp] theorem countHalf_fault (s : State) (o : Nat) (h : Bool) (n : Nat) : (countHalf s o h n).fault = s.fault := rfl
@[simp] theorem countHalf_sec (s : State) (o : Nat) (h : Bool) (n : Nat) : (countHalf s o h n).sec = s.sec := rfl
@[simp] theorem countHalf_pwr (s : State) (o : Nat) (h : Bool) (n : Nat) : (countHalf s o h n).pwr = s.pwr := rfl
@[simp] theorem countHalf_mgmt (s : State) (o : Nat) (h : Bool) (n : Nat) : (countHalf s o h n).mgmt = s.mgmt := rfl
@[simp] theorem countHalf_out (s : State) (o : Nat) (h : Bool) (n : Nat) : (countHalf s o h n).out = s.out := rfl
@[simp] theorem countHalf_spent (s : State) (o : Nat) (h : Bool) (n : Nat) : (countHalf s o h n).spent = s.spent := rfl
@[simp] theorem countHalf_fresh (s : State) (o : Nat) (h : Bool) (n : Nat) : (countHalf s o h n).fresh = s.fresh := rfl
@[simp] theorem countHalf_pending (s : State) (o : Nat) (h : Bool) (n : Nat) : (countHalf s o h n).pending = s.pending := rfl

/-! ## gauge -/

@[simp] theorem gauge_stock (s : State) (o n : Nat) : (gauge s o n).stock = s.stock := rfl
@[simp] theorem gauge_time (s : State) (o n : Nat) : (gauge s o n).time = s.time := rfl
@[simp] theorem gauge_bar (s : State) (o n : Nat) : (gauge s o n).bar = { s.bar with live := tput s.bar.live o n } := rfl
@[simp] theorem gauge_host (s : State) (o n : Nat) : (gauge s o n).host = s.host := rfl
@[simp] theorem gauge_benches (s : State) (o n : Nat) : (gauge s o n).benches = s.benches := rfl
@[simp] theorem gauge_work (s : State) (o n : Nat) : (gauge s o n).work = s.work := rfl
@[simp] theorem gauge_plan (s : State) (o n : Nat) : (gauge s o n).plan = s.plan := rfl
@[simp] theorem gauge_haul (s : State) (o n : Nat) : (gauge s o n).haul = s.haul := rfl
@[simp] theorem gauge_tier (s : State) (o n : Nat) : (gauge s o n).tier = s.tier := rfl
@[simp] theorem gauge_shards (s : State) (o n : Nat) : (gauge s o n).shards = s.shards := rfl
@[simp] theorem gauge_fab (s : State) (o n : Nat) : (gauge s o n).fab = s.fab := rfl
@[simp] theorem gauge_win (s : State) (o n : Nat) : (gauge s o n).win = s.win := rfl
@[simp] theorem gauge_fw (s : State) (o n : Nat) : (gauge s o n).fw = s.fw := rfl
@[simp] theorem gauge_fault (s : State) (o n : Nat) : (gauge s o n).fault = s.fault := rfl
@[simp] theorem gauge_sec (s : State) (o n : Nat) : (gauge s o n).sec = s.sec := rfl
@[simp] theorem gauge_pwr (s : State) (o n : Nat) : (gauge s o n).pwr = s.pwr := rfl
@[simp] theorem gauge_mgmt (s : State) (o n : Nat) : (gauge s o n).mgmt = s.mgmt := rfl
@[simp] theorem gauge_out (s : State) (o n : Nat) : (gauge s o n).out = s.out := rfl
@[simp] theorem gauge_spent (s : State) (o n : Nat) : (gauge s o n).spent = s.spent := rfl
@[simp] theorem gauge_fresh (s : State) (o n : Nat) : (gauge s o n).fresh = s.fresh := rfl
@[simp] theorem gauge_pending (s : State) (o n : Nat) : (gauge s o n).pending = s.pending := rfl

/-! ## setBench -/

@[simp] theorem setBench_stock (s : State) (b : Nat) (f : Bench → Bench) : (setBench s b f).stock = s.stock := rfl
@[simp] theorem setBench_time (s : State) (b : Nat) (f : Bench → Bench) : (setBench s b f).time = s.time := rfl
@[simp] theorem setBench_bar (s : State) (b : Nat) (f : Bench → Bench) : (setBench s b f).bar = s.bar := rfl
@[simp] theorem setBench_host (s : State) (b : Nat) (f : Bench → Bench) : (setBench s b f).host = s.host := rfl
@[simp] theorem setBench_benches (s : State) (b : Nat) (f : Bench → Bench) : (setBench s b f).benches = tput s.benches b (f (bench s b)) := rfl
@[simp] theorem setBench_work (s : State) (b : Nat) (f : Bench → Bench) : (setBench s b f).work = s.work := rfl
@[simp] theorem setBench_plan (s : State) (b : Nat) (f : Bench → Bench) : (setBench s b f).plan = s.plan := rfl
@[simp] theorem setBench_haul (s : State) (b : Nat) (f : Bench → Bench) : (setBench s b f).haul = s.haul := rfl
@[simp] theorem setBench_tier (s : State) (b : Nat) (f : Bench → Bench) : (setBench s b f).tier = s.tier := rfl
@[simp] theorem setBench_shards (s : State) (b : Nat) (f : Bench → Bench) : (setBench s b f).shards = s.shards := rfl
@[simp] theorem setBench_fab (s : State) (b : Nat) (f : Bench → Bench) : (setBench s b f).fab = s.fab := rfl
@[simp] theorem setBench_win (s : State) (b : Nat) (f : Bench → Bench) : (setBench s b f).win = s.win := rfl
@[simp] theorem setBench_fw (s : State) (b : Nat) (f : Bench → Bench) : (setBench s b f).fw = s.fw := rfl
@[simp] theorem setBench_fault (s : State) (b : Nat) (f : Bench → Bench) : (setBench s b f).fault = s.fault := rfl
@[simp] theorem setBench_sec (s : State) (b : Nat) (f : Bench → Bench) : (setBench s b f).sec = s.sec := rfl
@[simp] theorem setBench_pwr (s : State) (b : Nat) (f : Bench → Bench) : (setBench s b f).pwr = s.pwr := rfl
@[simp] theorem setBench_mgmt (s : State) (b : Nat) (f : Bench → Bench) : (setBench s b f).mgmt = s.mgmt := rfl
@[simp] theorem setBench_out (s : State) (b : Nat) (f : Bench → Bench) : (setBench s b f).out = s.out := rfl
@[simp] theorem setBench_spent (s : State) (b : Nat) (f : Bench → Bench) : (setBench s b f).spent = s.spent := rfl
@[simp] theorem setBench_fresh (s : State) (b : Nat) (f : Bench → Bench) : (setBench s b f).fresh = s.fresh := rfl
@[simp] theorem setBench_pending (s : State) (b : Nat) (f : Bench → Bench) : (setBench s b f).pending = s.pending := rfl

/-! ## putReq -/

@[simp] theorem putReq_stock (s : State) (r : Req) : (putReq s r).stock = s.stock := rfl
@[simp] theorem putReq_time (s : State) (r : Req) : (putReq s r).time = s.time := rfl
@[simp] theorem putReq_bar (s : State) (r : Req) : (putReq s r).bar = s.bar := rfl
@[simp] theorem putReq_host (s : State) (r : Req) : (putReq s r).host = s.host := rfl
@[simp] theorem putReq_benches (s : State) (r : Req) : (putReq s r).benches = s.benches := rfl
@[simp] theorem putReq_work (s : State) (r : Req) : (putReq s r).work = { s.work with reqs := tput s.work.reqs r.key r } := rfl
@[simp] theorem putReq_plan (s : State) (r : Req) : (putReq s r).plan = s.plan := rfl
@[simp] theorem putReq_haul (s : State) (r : Req) : (putReq s r).haul = s.haul := rfl
@[simp] theorem putReq_tier (s : State) (r : Req) : (putReq s r).tier = s.tier := rfl
@[simp] theorem putReq_shards (s : State) (r : Req) : (putReq s r).shards = s.shards := rfl
@[simp] theorem putReq_fab (s : State) (r : Req) : (putReq s r).fab = s.fab := rfl
@[simp] theorem putReq_win (s : State) (r : Req) : (putReq s r).win = s.win := rfl
@[simp] theorem putReq_fw (s : State) (r : Req) : (putReq s r).fw = s.fw := rfl
@[simp] theorem putReq_fault (s : State) (r : Req) : (putReq s r).fault = s.fault := rfl
@[simp] theorem putReq_sec (s : State) (r : Req) : (putReq s r).sec = s.sec := rfl
@[simp] theorem putReq_pwr (s : State) (r : Req) : (putReq s r).pwr = s.pwr := rfl
@[simp] theorem putReq_mgmt (s : State) (r : Req) : (putReq s r).mgmt = s.mgmt := rfl
@[simp] theorem putReq_out (s : State) (r : Req) : (putReq s r).out = s.out := rfl
@[simp] theorem putReq_spent (s : State) (r : Req) : (putReq s r).spent = s.spent := rfl
@[simp] theorem putReq_fresh (s : State) (r : Req) : (putReq s r).fresh = s.fresh := rfl
@[simp] theorem putReq_pending (s : State) (r : Req) : (putReq s r).pending = s.pending := rfl

/-! ## putConv -/

@[simp] theorem putConv_stock (s : State) (c : Conv) : (putConv s c).stock = s.stock := rfl
@[simp] theorem putConv_time (s : State) (c : Conv) : (putConv s c).time = s.time := rfl
@[simp] theorem putConv_bar (s : State) (c : Conv) : (putConv s c).bar = s.bar := rfl
@[simp] theorem putConv_host (s : State) (c : Conv) : (putConv s c).host = s.host := rfl
@[simp] theorem putConv_benches (s : State) (c : Conv) : (putConv s c).benches = s.benches := rfl
@[simp] theorem putConv_work (s : State) (c : Conv) : (putConv s c).work = { s.work with convs := tput s.work.convs c.key c } := rfl
@[simp] theorem putConv_plan (s : State) (c : Conv) : (putConv s c).plan = s.plan := rfl
@[simp] theorem putConv_haul (s : State) (c : Conv) : (putConv s c).haul = s.haul := rfl
@[simp] theorem putConv_tier (s : State) (c : Conv) : (putConv s c).tier = s.tier := rfl
@[simp] theorem putConv_shards (s : State) (c : Conv) : (putConv s c).shards = s.shards := rfl
@[simp] theorem putConv_fab (s : State) (c : Conv) : (putConv s c).fab = s.fab := rfl
@[simp] theorem putConv_win (s : State) (c : Conv) : (putConv s c).win = s.win := rfl
@[simp] theorem putConv_fw (s : State) (c : Conv) : (putConv s c).fw = s.fw := rfl
@[simp] theorem putConv_fault (s : State) (c : Conv) : (putConv s c).fault = s.fault := rfl
@[simp] theorem putConv_sec (s : State) (c : Conv) : (putConv s c).sec = s.sec := rfl
@[simp] theorem putConv_pwr (s : State) (c : Conv) : (putConv s c).pwr = s.pwr := rfl
@[simp] theorem putConv_mgmt (s : State) (c : Conv) : (putConv s c).mgmt = s.mgmt := rfl
@[simp] theorem putConv_out (s : State) (c : Conv) : (putConv s c).out = s.out := rfl
@[simp] theorem putConv_spent (s : State) (c : Conv) : (putConv s c).spent = s.spent := rfl
@[simp] theorem putConv_fresh (s : State) (c : Conv) : (putConv s c).fresh = s.fresh := rfl
@[simp] theorem putConv_pending (s : State) (c : Conv) : (putConv s c).pending = s.pending := rfl

/-! ## modReq -/

@[simp] theorem modReq_stock (s : State) (k : Nat) (f : Req → Req) : (modReq s k f).stock = s.stock := rfl
@[simp] theorem modReq_time (s : State) (k : Nat) (f : Req → Req) : (modReq s k f).time = s.time := rfl
@[simp] theorem modReq_bar (s : State) (k : Nat) (f : Req → Req) : (modReq s k f).bar = s.bar := rfl
@[simp] theorem modReq_host (s : State) (k : Nat) (f : Req → Req) : (modReq s k f).host = s.host := rfl
@[simp] theorem modReq_benches (s : State) (k : Nat) (f : Req → Req) : (modReq s k f).benches = s.benches := rfl
@[simp] theorem modReq_work (s : State) (k : Nat) (f : Req → Req) : (modReq s k f).work = { s.work with reqs := tmod s.work.reqs k f } := rfl
@[simp] theorem modReq_plan (s : State) (k : Nat) (f : Req → Req) : (modReq s k f).plan = s.plan := rfl
@[simp] theorem modReq_haul (s : State) (k : Nat) (f : Req → Req) : (modReq s k f).haul = s.haul := rfl
@[simp] theorem modReq_tier (s : State) (k : Nat) (f : Req → Req) : (modReq s k f).tier = s.tier := rfl
@[simp] theorem modReq_shards (s : State) (k : Nat) (f : Req → Req) : (modReq s k f).shards = s.shards := rfl
@[simp] theorem modReq_fab (s : State) (k : Nat) (f : Req → Req) : (modReq s k f).fab = s.fab := rfl
@[simp] theorem modReq_win (s : State) (k : Nat) (f : Req → Req) : (modReq s k f).win = s.win := rfl
@[simp] theorem modReq_fw (s : State) (k : Nat) (f : Req → Req) : (modReq s k f).fw = s.fw := rfl
@[simp] theorem modReq_fault (s : State) (k : Nat) (f : Req → Req) : (modReq s k f).fault = s.fault := rfl
@[simp] theorem modReq_sec (s : State) (k : Nat) (f : Req → Req) : (modReq s k f).sec = s.sec := rfl
@[simp] theorem modReq_pwr (s : State) (k : Nat) (f : Req → Req) : (modReq s k f).pwr = s.pwr := rfl
@[simp] theorem modReq_mgmt (s : State) (k : Nat) (f : Req → Req) : (modReq s k f).mgmt = s.mgmt := rfl
@[simp] theorem modReq_out (s : State) (k : Nat) (f : Req → Req) : (modReq s k f).out = s.out := rfl
@[simp] theorem modReq_spent (s : State) (k : Nat) (f : Req → Req) : (modReq s k f).spent = s.spent := rfl
@[simp] theorem modReq_fresh (s : State) (k : Nat) (f : Req → Req) : (modReq s k f).fresh = s.fresh := rfl
@[simp] theorem modReq_pending (s : State) (k : Nat) (f : Req → Req) : (modReq s k f).pending = s.pending := rfl

/-! ## modConv -/

@[simp] theorem modConv_stock (s : State) (k : Nat) (f : Conv → Conv) : (modConv s k f).stock = s.stock := rfl
@[simp] theorem modConv_time (s : State) (k : Nat) (f : Conv → Conv) : (modConv s k f).time = s.time := rfl
@[simp] theorem modConv_bar (s : State) (k : Nat) (f : Conv → Conv) : (modConv s k f).bar = s.bar := rfl
@[simp] theorem modConv_host (s : State) (k : Nat) (f : Conv → Conv) : (modConv s k f).host = s.host := rfl
@[simp] theorem modConv_benches (s : State) (k : Nat) (f : Conv → Conv) : (modConv s k f).benches = s.benches := rfl
@[simp] theorem modConv_work (s : State) (k : Nat) (f : Conv → Conv) : (modConv s k f).work = { s.work with convs := tmod s.work.convs k f } := rfl
@[simp] theorem modConv_plan (s : State) (k : Nat) (f : Conv → Conv) : (modConv s k f).plan = s.plan := rfl
@[simp] theorem modConv_haul (s : State) (k : Nat) (f : Conv → Conv) : (modConv s k f).haul = s.haul := rfl
@[simp] theorem modConv_tier (s : State) (k : Nat) (f : Conv → Conv) : (modConv s k f).tier = s.tier := rfl
@[simp] theorem modConv_shards (s : State) (k : Nat) (f : Conv → Conv) : (modConv s k f).shards = s.shards := rfl
@[simp] theorem modConv_fab (s : State) (k : Nat) (f : Conv → Conv) : (modConv s k f).fab = s.fab := rfl
@[simp] theorem modConv_win (s : State) (k : Nat) (f : Conv → Conv) : (modConv s k f).win = s.win := rfl
@[simp] theorem modConv_fw (s : State) (k : Nat) (f : Conv → Conv) : (modConv s k f).fw = s.fw := rfl
@[simp] theorem modConv_fault (s : State) (k : Nat) (f : Conv → Conv) : (modConv s k f).fault = s.fault := rfl
@[simp] theorem modConv_sec (s : State) (k : Nat) (f : Conv → Conv) : (modConv s k f).sec = s.sec := rfl
@[simp] theorem modConv_pwr (s : State) (k : Nat) (f : Conv → Conv) : (modConv s k f).pwr = s.pwr := rfl
@[simp] theorem modConv_mgmt (s : State) (k : Nat) (f : Conv → Conv) : (modConv s k f).mgmt = s.mgmt := rfl
@[simp] theorem modConv_out (s : State) (k : Nat) (f : Conv → Conv) : (modConv s k f).out = s.out := rfl
@[simp] theorem modConv_spent (s : State) (k : Nat) (f : Conv → Conv) : (modConv s k f).spent = s.spent := rfl
@[simp] theorem modConv_fresh (s : State) (k : Nat) (f : Conv → Conv) : (modConv s k f).fresh = s.fresh := rfl
@[simp] theorem modConv_pending (s : State) (k : Nat) (f : Conv → Conv) : (modConv s k f).pending = s.pending := rfl

/-! ## delReq -/

@[simp] theorem delReq_stock (s : State) (k : Nat) : (delReq s k).stock = s.stock := rfl
@[simp] theorem delReq_time (s : State) (k : Nat) : (delReq s k).time = s.time := rfl
@[simp] theorem delReq_bar (s : State) (k : Nat) : (delReq s k).bar = s.bar := rfl
@[simp] theorem delReq_host (s : State) (k : Nat) : (delReq s k).host = s.host := rfl
@[simp] theorem delReq_benches (s : State) (k : Nat) : (delReq s k).benches = s.benches := rfl
@[simp] theorem delReq_work (s : State) (k : Nat) : (delReq s k).work = { s.work with reqs := tdel s.work.reqs k } := rfl
@[simp] theorem delReq_plan (s : State) (k : Nat) : (delReq s k).plan = s.plan := rfl
@[simp] theorem delReq_haul (s : State) (k : Nat) : (delReq s k).haul = s.haul := rfl
@[simp] theorem delReq_tier (s : State) (k : Nat) : (delReq s k).tier = s.tier := rfl
@[simp] theorem delReq_shards (s : State) (k : Nat) : (delReq s k).shards = s.shards := rfl
@[simp] theorem delReq_fab (s : State) (k : Nat) : (delReq s k).fab = s.fab := rfl
@[simp] theorem delReq_win (s : State) (k : Nat) : (delReq s k).win = s.win := rfl
@[simp] theorem delReq_fw (s : State) (k : Nat) : (delReq s k).fw = s.fw := rfl
@[simp] theorem delReq_fault (s : State) (k : Nat) : (delReq s k).fault = s.fault := rfl
@[simp] theorem delReq_sec (s : State) (k : Nat) : (delReq s k).sec = s.sec := rfl
@[simp] theorem delReq_pwr (s : State) (k : Nat) : (delReq s k).pwr = s.pwr := rfl
@[simp] theorem delReq_mgmt (s : State) (k : Nat) : (delReq s k).mgmt = s.mgmt := rfl
@[simp] theorem delReq_out (s : State) (k : Nat) : (delReq s k).out = s.out := rfl
@[simp] theorem delReq_spent (s : State) (k : Nat) : (delReq s k).spent = s.spent := rfl
@[simp] theorem delReq_fresh (s : State) (k : Nat) : (delReq s k).fresh = s.fresh := rfl
@[simp] theorem delReq_pending (s : State) (k : Nat) : (delReq s k).pending = s.pending := rfl

/-! ## delConv -/

@[simp] theorem delConv_stock (s : State) (k : Nat) : (delConv s k).stock = s.stock := rfl
@[simp] theorem delConv_time (s : State) (k : Nat) : (delConv s k).time = s.time := rfl
@[simp] theorem delConv_bar (s : State) (k : Nat) : (delConv s k).bar = s.bar := rfl
@[simp] theorem delConv_host (s : State) (k : Nat) : (delConv s k).host = s.host := rfl
@[simp] theorem delConv_benches (s : State) (k : Nat) : (delConv s k).benches = s.benches := rfl
@[simp] theorem delConv_work (s : State) (k : Nat) : (delConv s k).work = { s.work with convs := tdel s.work.convs k } := rfl
@[simp] theorem delConv_plan (s : State) (k : Nat) : (delConv s k).plan = s.plan := rfl
@[simp] theorem delConv_haul (s : State) (k : Nat) : (delConv s k).haul = s.haul := rfl
@[simp] theorem delConv_tier (s : State) (k : Nat) : (delConv s k).tier = s.tier := rfl
@[simp] theorem delConv_shards (s : State) (k : Nat) : (delConv s k).shards = s.shards := rfl
@[simp] theorem delConv_fab (s : State) (k : Nat) : (delConv s k).fab = s.fab := rfl
@[simp] theorem delConv_win (s : State) (k : Nat) : (delConv s k).win = s.win := rfl
@[simp] theorem delConv_fw (s : State) (k : Nat) : (delConv s k).fw = s.fw := rfl
@[simp] theorem delConv_fault (s : State) (k : Nat) : (delConv s k).fault = s.fault := rfl
@[simp] theorem delConv_sec (s : State) (k : Nat) : (delConv s k).sec = s.sec := rfl
@[simp] theorem delConv_pwr (s : State) (k : Nat) : (delConv s k).pwr = s.pwr := rfl
@[simp] theorem delConv_mgmt (s : State) (k : Nat) : (delConv s k).mgmt = s.mgmt := rfl
@[simp] theorem delConv_out (s : State) (k : Nat) : (delConv s k).out = s.out := rfl
@[simp] theorem delConv_spent (s : State) (k : Nat) : (delConv s k).spent = s.spent := rfl
@[simp] theorem delConv_fresh (s : State) (k : Nat) : (delConv s k).fresh = s.fresh := rfl
@[simp] theorem delConv_pending (s : State) (k : Nat) : (delConv s k).pending = s.pending := rfl

/-! ## putReg -/

@[simp] theorem putReg_stock (s : State) (o : Nat) (v : Word) : (putReg s o v).stock = s.stock := rfl
@[simp] theorem putReg_time (s : State) (o : Nat) (v : Word) : (putReg s o v).time = s.time := rfl
@[simp] theorem putReg_bar (s : State) (o : Nat) (v : Word) : (putReg s o v).bar = { s.bar with inForce := tput s.bar.inForce o v, written := tput s.bar.written o v } := rfl
@[simp] theorem putReg_host (s : State) (o : Nat) (v : Word) : (putReg s o v).host = s.host := rfl
@[simp] theorem putReg_benches (s : State) (o : Nat) (v : Word) : (putReg s o v).benches = s.benches := rfl
@[simp] theorem putReg_work (s : State) (o : Nat) (v : Word) : (putReg s o v).work = s.work := rfl
@[simp] theorem putReg_plan (s : State) (o : Nat) (v : Word) : (putReg s o v).plan = s.plan := rfl
@[simp] theorem putReg_haul (s : State) (o : Nat) (v : Word) : (putReg s o v).haul = s.haul := rfl
@[simp] theorem putReg_tier (s : State) (o : Nat) (v : Word) : (putReg s o v).tier = s.tier := rfl
@[simp] theorem putReg_shards (s : State) (o : Nat) (v : Word) : (putReg s o v).shards = s.shards := rfl
@[simp] theorem putReg_fab (s : State) (o : Nat) (v : Word) : (putReg s o v).fab = s.fab := rfl
@[simp] theorem putReg_win (s : State) (o : Nat) (v : Word) : (putReg s o v).win = s.win := rfl
@[simp] theorem putReg_fw (s : State) (o : Nat) (v : Word) : (putReg s o v).fw = s.fw := rfl
@[simp] theorem putReg_fault (s : State) (o : Nat) (v : Word) : (putReg s o v).fault = s.fault := rfl
@[simp] theorem putReg_sec (s : State) (o : Nat) (v : Word) : (putReg s o v).sec = s.sec := rfl
@[simp] theorem putReg_pwr (s : State) (o : Nat) (v : Word) : (putReg s o v).pwr = s.pwr := rfl
@[simp] theorem putReg_mgmt (s : State) (o : Nat) (v : Word) : (putReg s o v).mgmt = s.mgmt := rfl
@[simp] theorem putReg_out (s : State) (o : Nat) (v : Word) : (putReg s o v).out = s.out := rfl
@[simp] theorem putReg_spent (s : State) (o : Nat) (v : Word) : (putReg s o v).spent = s.spent := rfl
@[simp] theorem putReg_fresh (s : State) (o : Nat) (v : Word) : (putReg s o v).fresh = s.fresh := rfl
@[simp] theorem putReg_pending (s : State) (o : Nat) (v : Word) : (putReg s o v).pending = s.pending := rfl

/-! ## setCq -/

@[simp] theorem setCq_stock (s : State) (b : Nat) (f : Cq → Cq) : (setCq s b f).stock = s.stock := rfl
@[simp] theorem setCq_time (s : State) (b : Nat) (f : Cq → Cq) : (setCq s b f).time = s.time := rfl
@[simp] theorem setCq_bar (s : State) (b : Nat) (f : Cq → Cq) : (setCq s b f).bar = s.bar := rfl
@[simp] theorem setCq_host (s : State) (b : Nat) (f : Cq → Cq) : (setCq s b f).host = { s.host with cqs := tput s.host.cqs b (f (cq s b)) } := rfl
@[simp] theorem setCq_benches (s : State) (b : Nat) (f : Cq → Cq) : (setCq s b f).benches = s.benches := rfl
@[simp] theorem setCq_work (s : State) (b : Nat) (f : Cq → Cq) : (setCq s b f).work = s.work := rfl
@[simp] theorem setCq_plan (s : State) (b : Nat) (f : Cq → Cq) : (setCq s b f).plan = s.plan := rfl
@[simp] theorem setCq_haul (s : State) (b : Nat) (f : Cq → Cq) : (setCq s b f).haul = s.haul := rfl
@[simp] theorem setCq_tier (s : State) (b : Nat) (f : Cq → Cq) : (setCq s b f).tier = s.tier := rfl
@[simp] theorem setCq_shards (s : State) (b : Nat) (f : Cq → Cq) : (setCq s b f).shards = s.shards := rfl
@[simp] theorem setCq_fab (s : State) (b : Nat) (f : Cq → Cq) : (setCq s b f).fab = s.fab := rfl
@[simp] theorem setCq_win (s : State) (b : Nat) (f : Cq → Cq) : (setCq s b f).win = s.win := rfl
@[simp] theorem setCq_fw (s : State) (b : Nat) (f : Cq → Cq) : (setCq s b f).fw = s.fw := rfl
@[simp] theorem setCq_fault (s : State) (b : Nat) (f : Cq → Cq) : (setCq s b f).fault = s.fault := rfl
@[simp] theorem setCq_sec (s : State) (b : Nat) (f : Cq → Cq) : (setCq s b f).sec = s.sec := rfl
@[simp] theorem setCq_pwr (s : State) (b : Nat) (f : Cq → Cq) : (setCq s b f).pwr = s.pwr := rfl
@[simp] theorem setCq_mgmt (s : State) (b : Nat) (f : Cq → Cq) : (setCq s b f).mgmt = s.mgmt := rfl
@[simp] theorem setCq_out (s : State) (b : Nat) (f : Cq → Cq) : (setCq s b f).out = s.out := rfl
@[simp] theorem setCq_spent (s : State) (b : Nat) (f : Cq → Cq) : (setCq s b f).spent = s.spent := rfl
@[simp] theorem setCq_fresh (s : State) (b : Nat) (f : Cq → Cq) : (setCq s b f).fresh = s.fresh := rfl
@[simp] theorem setCq_pending (s : State) (b : Nat) (f : Cq → Cq) : (setCq s b f).pending = s.pending := rfl

/-! ## due -/

@[simp] theorem due_stock (s : State) (c : Cpl) (st : Status) (r n r2 : Nat) (ta : Option Nat) : (due s c st r n r2 ta).stock = s.stock := rfl
@[simp] theorem due_time (s : State) (c : Cpl) (st : Status) (r n r2 : Nat) (ta : Option Nat) : (due s c st r n r2 ta).time = s.time := rfl
@[simp] theorem due_bar (s : State) (c : Cpl) (st : Status) (r n r2 : Nat) (ta : Option Nat) : (due s c st r n r2 ta).bar = s.bar := rfl
@[simp] theorem due_benches (s : State) (c : Cpl) (st : Status) (r n r2 : Nat) (ta : Option Nat) : (due s c st r n r2 ta).benches = s.benches := rfl
@[simp] theorem due_work (s : State) (c : Cpl) (st : Status) (r n r2 : Nat) (ta : Option Nat) : (due s c st r n r2 ta).work = s.work := rfl
@[simp] theorem due_plan (s : State) (c : Cpl) (st : Status) (r n r2 : Nat) (ta : Option Nat) : (due s c st r n r2 ta).plan = s.plan := rfl
@[simp] theorem due_haul (s : State) (c : Cpl) (st : Status) (r n r2 : Nat) (ta : Option Nat) : (due s c st r n r2 ta).haul = s.haul := rfl
@[simp] theorem due_tier (s : State) (c : Cpl) (st : Status) (r n r2 : Nat) (ta : Option Nat) : (due s c st r n r2 ta).tier = s.tier := rfl
@[simp] theorem due_shards (s : State) (c : Cpl) (st : Status) (r n r2 : Nat) (ta : Option Nat) : (due s c st r n r2 ta).shards = s.shards := rfl
@[simp] theorem due_fab (s : State) (c : Cpl) (st : Status) (r n r2 : Nat) (ta : Option Nat) : (due s c st r n r2 ta).fab = s.fab := rfl
@[simp] theorem due_win (s : State) (c : Cpl) (st : Status) (r n r2 : Nat) (ta : Option Nat) : (due s c st r n r2 ta).win = s.win := rfl
@[simp] theorem due_fw (s : State) (c : Cpl) (st : Status) (r n r2 : Nat) (ta : Option Nat) : (due s c st r n r2 ta).fw = s.fw := rfl
@[simp] theorem due_fault (s : State) (c : Cpl) (st : Status) (r n r2 : Nat) (ta : Option Nat) : (due s c st r n r2 ta).fault = s.fault := rfl
@[simp] theorem due_sec (s : State) (c : Cpl) (st : Status) (r n r2 : Nat) (ta : Option Nat) : (due s c st r n r2 ta).sec = s.sec := rfl
@[simp] theorem due_pwr (s : State) (c : Cpl) (st : Status) (r n r2 : Nat) (ta : Option Nat) : (due s c st r n r2 ta).pwr = s.pwr := rfl
@[simp] theorem due_mgmt (s : State) (c : Cpl) (st : Status) (r n r2 : Nat) (ta : Option Nat) : (due s c st r n r2 ta).mgmt = s.mgmt := rfl
@[simp] theorem due_out (s : State) (c : Cpl) (st : Status) (r n r2 : Nat) (ta : Option Nat) : (due s c st r n r2 ta).out = s.out := rfl
@[simp] theorem due_spent (s : State) (c : Cpl) (st : Status) (r n r2 : Nat) (ta : Option Nat) : (due s c st r n r2 ta).spent = s.spent := rfl
@[simp] theorem due_fresh (s : State) (c : Cpl) (st : Status) (r n r2 : Nat) (ta : Option Nat) : (due s c st r n r2 ta).fresh = s.fresh := rfl
@[simp] theorem due_pending (s : State) (c : Cpl) (st : Status) (r n r2 : Nat) (ta : Option Nat) : (due s c st r n r2 ta).pending = s.pending := rfl

/-! ## setLink -/

@[simp] theorem setLink_stock (s : State) (l : Nat) (f : Link → Link) : (setLink s l f).stock = s.stock := rfl
@[simp] theorem setLink_time (s : State) (l : Nat) (f : Link → Link) : (setLink s l f).time = s.time := rfl
@[simp] theorem setLink_bar (s : State) (l : Nat) (f : Link → Link) : (setLink s l f).bar = s.bar := rfl
@[simp] theorem setLink_host (s : State) (l : Nat) (f : Link → Link) : (setLink s l f).host = s.host := rfl
@[simp] theorem setLink_benches (s : State) (l : Nat) (f : Link → Link) : (setLink s l f).benches = s.benches := rfl
@[simp] theorem setLink_work (s : State) (l : Nat) (f : Link → Link) : (setLink s l f).work = s.work := rfl
@[simp] theorem setLink_plan (s : State) (l : Nat) (f : Link → Link) : (setLink s l f).plan = s.plan := rfl
@[simp] theorem setLink_haul (s : State) (l : Nat) (f : Link → Link) : (setLink s l f).haul = s.haul := rfl
@[simp] theorem setLink_tier (s : State) (l : Nat) (f : Link → Link) : (setLink s l f).tier = s.tier := rfl
@[simp] theorem setLink_shards (s : State) (l : Nat) (f : Link → Link) : (setLink s l f).shards = s.shards := rfl
@[simp] theorem setLink_fab (s : State) (l : Nat) (f : Link → Link) : (setLink s l f).fab = { s.fab with links := tput s.fab.links l (f (linkOf s l)) } := rfl
@[simp] theorem setLink_win (s : State) (l : Nat) (f : Link → Link) : (setLink s l f).win = s.win := rfl
@[simp] theorem setLink_fw (s : State) (l : Nat) (f : Link → Link) : (setLink s l f).fw = s.fw := rfl
@[simp] theorem setLink_fault (s : State) (l : Nat) (f : Link → Link) : (setLink s l f).fault = s.fault := rfl
@[simp] theorem setLink_sec (s : State) (l : Nat) (f : Link → Link) : (setLink s l f).sec = s.sec := rfl
@[simp] theorem setLink_pwr (s : State) (l : Nat) (f : Link → Link) : (setLink s l f).pwr = s.pwr := rfl
@[simp] theorem setLink_mgmt (s : State) (l : Nat) (f : Link → Link) : (setLink s l f).mgmt = s.mgmt := rfl
@[simp] theorem setLink_out (s : State) (l : Nat) (f : Link → Link) : (setLink s l f).out = s.out := rfl
@[simp] theorem setLink_spent (s : State) (l : Nat) (f : Link → Link) : (setLink s l f).spent = s.spent := rfl
@[simp] theorem setLink_fresh (s : State) (l : Nat) (f : Link → Link) : (setLink s l f).fresh = s.fresh := rfl
@[simp] theorem setLink_pending (s : State) (l : Nat) (f : Link → Link) : (setLink s l f).pending = s.pending := rfl

/-! ## setQp -/

@[simp] theorem setQp_stock (s : State) (q : Nat) (f : Qp → Qp) : (setQp s q f).stock = s.stock := rfl
@[simp] theorem setQp_time (s : State) (q : Nat) (f : Qp → Qp) : (setQp s q f).time = s.time := rfl
@[simp] theorem setQp_bar (s : State) (q : Nat) (f : Qp → Qp) : (setQp s q f).bar = s.bar := rfl
@[simp] theorem setQp_host (s : State) (q : Nat) (f : Qp → Qp) : (setQp s q f).host = s.host := rfl
@[simp] theorem setQp_benches (s : State) (q : Nat) (f : Qp → Qp) : (setQp s q f).benches = s.benches := rfl
@[simp] theorem setQp_work (s : State) (q : Nat) (f : Qp → Qp) : (setQp s q f).work = s.work := rfl
@[simp] theorem setQp_plan (s : State) (q : Nat) (f : Qp → Qp) : (setQp s q f).plan = s.plan := rfl
@[simp] theorem setQp_haul (s : State) (q : Nat) (f : Qp → Qp) : (setQp s q f).haul = s.haul := rfl
@[simp] theorem setQp_tier (s : State) (q : Nat) (f : Qp → Qp) : (setQp s q f).tier = s.tier := rfl
@[simp] theorem setQp_shards (s : State) (q : Nat) (f : Qp → Qp) : (setQp s q f).shards = s.shards := rfl
@[simp] theorem setQp_fab (s : State) (q : Nat) (f : Qp → Qp) : (setQp s q f).fab = s.fab := rfl
@[simp] theorem setQp_fw (s : State) (q : Nat) (f : Qp → Qp) : (setQp s q f).fw = s.fw := rfl
@[simp] theorem setQp_fault (s : State) (q : Nat) (f : Qp → Qp) : (setQp s q f).fault = s.fault := rfl
@[simp] theorem setQp_sec (s : State) (q : Nat) (f : Qp → Qp) : (setQp s q f).sec = s.sec := rfl
@[simp] theorem setQp_pwr (s : State) (q : Nat) (f : Qp → Qp) : (setQp s q f).pwr = s.pwr := rfl
@[simp] theorem setQp_mgmt (s : State) (q : Nat) (f : Qp → Qp) : (setQp s q f).mgmt = s.mgmt := rfl
@[simp] theorem setQp_out (s : State) (q : Nat) (f : Qp → Qp) : (setQp s q f).out = s.out := rfl
@[simp] theorem setQp_spent (s : State) (q : Nat) (f : Qp → Qp) : (setQp s q f).spent = s.spent := rfl
@[simp] theorem setQp_fresh (s : State) (q : Nat) (f : Qp → Qp) : (setQp s q f).fresh = s.fresh := rfl
@[simp] theorem setQp_pending (s : State) (q : Nat) (f : Qp → Qp) : (setQp s q f).pending = s.pending := rfl

/-! ## setMem -/

@[simp] theorem setMem_stock (s : State) (m : List Host.Cell) : (setMem s m).stock = s.stock := rfl
@[simp] theorem setMem_time (s : State) (m : List Host.Cell) : (setMem s m).time = s.time := rfl
@[simp] theorem setMem_bar (s : State) (m : List Host.Cell) : (setMem s m).bar = s.bar := rfl
@[simp] theorem setMem_host (s : State) (m : List Host.Cell) : (setMem s m).host = s.host := rfl
@[simp] theorem setMem_benches (s : State) (m : List Host.Cell) : (setMem s m).benches = s.benches := rfl
@[simp] theorem setMem_work (s : State) (m : List Host.Cell) : (setMem s m).work = s.work := rfl
@[simp] theorem setMem_plan (s : State) (m : List Host.Cell) : (setMem s m).plan = s.plan := rfl
@[simp] theorem setMem_haul (s : State) (m : List Host.Cell) : (setMem s m).haul = s.haul := rfl
@[simp] theorem setMem_tier (s : State) (m : List Host.Cell) : (setMem s m).tier = s.tier := rfl
@[simp] theorem setMem_shards (s : State) (m : List Host.Cell) : (setMem s m).shards = s.shards := rfl
@[simp] theorem setMem_fab (s : State) (m : List Host.Cell) : (setMem s m).fab = { s.fab with mem := m } := rfl
@[simp] theorem setMem_win (s : State) (m : List Host.Cell) : (setMem s m).win = s.win := rfl
@[simp] theorem setMem_fw (s : State) (m : List Host.Cell) : (setMem s m).fw = s.fw := rfl
@[simp] theorem setMem_fault (s : State) (m : List Host.Cell) : (setMem s m).fault = s.fault := rfl
@[simp] theorem setMem_sec (s : State) (m : List Host.Cell) : (setMem s m).sec = s.sec := rfl
@[simp] theorem setMem_pwr (s : State) (m : List Host.Cell) : (setMem s m).pwr = s.pwr := rfl
@[simp] theorem setMem_mgmt (s : State) (m : List Host.Cell) : (setMem s m).mgmt = s.mgmt := rfl
@[simp] theorem setMem_out (s : State) (m : List Host.Cell) : (setMem s m).out = s.out := rfl
@[simp] theorem setMem_spent (s : State) (m : List Host.Cell) : (setMem s m).spent = s.spent := rfl
@[simp] theorem setMem_fresh (s : State) (m : List Host.Cell) : (setMem s m).fresh = s.fresh := rfl
@[simp] theorem setMem_pending (s : State) (m : List Host.Cell) : (setMem s m).pending = s.pending := rfl

/-! ## takeLanded -/

@[simp] theorem takeLanded_stock (d : HostDesc) (s : State) : (takeLanded d s).stock = s.stock := rfl
@[simp] theorem takeLanded_time (d : HostDesc) (s : State) : (takeLanded d s).time = s.time := rfl
@[simp] theorem takeLanded_bar (d : HostDesc) (s : State) : (takeLanded d s).bar = s.bar := rfl
@[simp] theorem takeLanded_benches (d : HostDesc) (s : State) : (takeLanded d s).benches = s.benches := rfl
@[simp] theorem takeLanded_work (d : HostDesc) (s : State) : (takeLanded d s).work = s.work := rfl
@[simp] theorem takeLanded_plan (d : HostDesc) (s : State) : (takeLanded d s).plan = s.plan := rfl
@[simp] theorem takeLanded_haul (d : HostDesc) (s : State) : (takeLanded d s).haul = s.haul := rfl
@[simp] theorem takeLanded_tier (d : HostDesc) (s : State) : (takeLanded d s).tier = s.tier := rfl
@[simp] theorem takeLanded_shards (d : HostDesc) (s : State) : (takeLanded d s).shards = s.shards := rfl
@[simp] theorem takeLanded_fab (d : HostDesc) (s : State) : (takeLanded d s).fab = s.fab := rfl
@[simp] theorem takeLanded_win (d : HostDesc) (s : State) : (takeLanded d s).win = s.win := rfl
@[simp] theorem takeLanded_fw (d : HostDesc) (s : State) : (takeLanded d s).fw = s.fw := rfl
@[simp] theorem takeLanded_fault (d : HostDesc) (s : State) : (takeLanded d s).fault = s.fault := rfl
@[simp] theorem takeLanded_sec (d : HostDesc) (s : State) : (takeLanded d s).sec = s.sec := rfl
@[simp] theorem takeLanded_pwr (d : HostDesc) (s : State) : (takeLanded d s).pwr = s.pwr := rfl
@[simp] theorem takeLanded_mgmt (d : HostDesc) (s : State) : (takeLanded d s).mgmt = s.mgmt := rfl
@[simp] theorem takeLanded_out (d : HostDesc) (s : State) : (takeLanded d s).out = s.out := rfl
@[simp] theorem takeLanded_spent (d : HostDesc) (s : State) : (takeLanded d s).spent = s.spent := rfl
@[simp] theorem takeLanded_fresh (d : HostDesc) (s : State) : (takeLanded d s).fresh = s.fresh := rfl
@[simp] theorem takeLanded_pending (d : HostDesc) (s : State) : (takeLanded d s).pending = s.pending := rfl

end Sys2Proof.Machine
end

