-- ==== Sys2Proof/Laws/Ops.lean ====
section
/-! SUPPORT. Laws of the shared operations: what a command's shape answers with power present, and what the error log,
the vectors and the records leave alone. -/

namespace Sys2Proof.Machine

/-- With power present a command's effect applies at its stamp. -/
theorem run_on {s : State} (h : s.pwr.off = false) (t : Stamp) (f : State → State) : run t f s = .next (f (s.at t)) := by
  simp [run, h]

/-- Outside Rest a message does not set the wake flag. -/
theorem noteLink_awake {s : State} (h1 : s.pwr.restDue = false) (h2 : s.pwr.state = .run) : noteLink s = s := by
  simp [noteLink, h1, h2]

/-! ## The error log -/

@[simp] theorem signal_time (s : State) (fn : Fn) (v : Nat) : (signal s fn v).time = s.time := by
  unfold signal emitTo
  split <;> rfl
@[simp] theorem signal_bar (s : State) (fn : Fn) (v : Nat) : (signal s fn v).bar = s.bar := by
  unfold signal emitTo
  split <;> rfl
@[simp] theorem signal_host (s : State) (fn : Fn) (v : Nat) : (signal s fn v).host = s.host := by
  unfold signal emitTo
  split <;> rfl
@[simp] theorem signal_benches (s : State) (fn : Fn) (v : Nat) : (signal s fn v).benches = s.benches := by
  unfold signal emitTo
  split <;> rfl
@[simp] theorem signal_work (s : State) (fn : Fn) (v : Nat) : (signal s fn v).work = s.work := by
  unfold signal emitTo
  split <;> rfl
@[simp] theorem signal_plan (s : State) (fn : Fn) (v : Nat) : (signal s fn v).plan = s.plan := by
  unfold signal emitTo
  split <;> rfl
@[simp] theorem signal_haul (s : State) (fn : Fn) (v : Nat) : (signal s fn v).haul = s.haul := by
  unfold signal emitTo
  split <;> rfl
@[simp] theorem signal_tier (s : State) (fn : Fn) (v : Nat) : (signal s fn v).tier = s.tier := by
  unfold signal emitTo
  split <;> rfl
@[simp] theorem signal_shards (s : State) (fn : Fn) (v : Nat) : (signal s fn v).shards = s.shards := by
  unfold signal emitTo
  split <;> rfl
@[simp] theorem signal_fab (s : State) (fn : Fn) (v : Nat) : (signal s fn v).fab = s.fab := by
  unfold signal emitTo
  split <;> rfl
@[simp] theorem signal_win (s : State) (fn : Fn) (v : Nat) : (signal s fn v).win = s.win := by
  unfold signal emitTo
  split <;> rfl
@[simp] theorem signal_fw (s : State) (fn : Fn) (v : Nat) : (signal s fn v).fw = s.fw := by
  unfold signal emitTo
  split <;> rfl
@[simp] theorem signal_sec (s : State) (fn : Fn) (v : Nat) : (signal s fn v).sec = s.sec := by
  unfold signal emitTo
  split <;> rfl
@[simp] theorem signal_pwr (s : State) (fn : Fn) (v : Nat) : (signal s fn v).pwr = s.pwr := by
  unfold signal emitTo
  split <;> rfl
@[simp] theorem signal_mgmt (s : State) (fn : Fn) (v : Nat) : (signal s fn v).mgmt = s.mgmt := by
  unfold signal emitTo
  split <;> rfl
@[simp] theorem signal_fresh (s : State) (fn : Fn) (v : Nat) : (signal s fn v).fresh = s.fresh := by
  unfold signal emitTo
  split <;> rfl
@[simp] theorem signal_pending (s : State) (fn : Fn) (v : Nat) : (signal s fn v).pending = s.pending := by
  unfold signal emitTo
  split <;> rfl
@[simp] theorem signal_stock (s : State) (fn : Fn) (v : Nat) : (signal s fn v).stock = s.stock := by
  unfold signal emitTo
  split <;> rfl
@[simp] theorem signal_fault (s : State) (fn : Fn) (v : Nat) : (signal s fn v).fault = s.fault := by
  unfold signal emitTo
  split <;> rfl

@[simp] theorem logErr_time (s : State) (c : ErrClass) (k b : Nat) (u : UnitId) (d0 d1 : Nat) :
    (logErr s c k b u d0 d1).time = s.time := by
  simp only [logErr, logEntry]
  split <;> split <;> simp [errVector]
@[simp] theorem logErr_bar (s : State) (c : ErrClass) (k b : Nat) (u : UnitId) (d0 d1 : Nat) :
    (logErr s c k b u d0 d1).bar = s.bar := by
  simp only [logErr, logEntry]
  split <;> split <;> simp [errVector]
@[simp] theorem logErr_host (s : State) (c : ErrClass) (k b : Nat) (u : UnitId) (d0 d1 : Nat) :
    (logErr s c k b u d0 d1).host = s.host := by
  simp only [logErr, logEntry]
  split <;> split <;> simp [errVector]
@[simp] theorem logErr_benches (s : State) (c : ErrClass) (k b : Nat) (u : UnitId) (d0 d1 : Nat) :
    (logErr s c k b u d0 d1).benches = s.benches := by
  simp only [logErr, logEntry]
  split <;> split <;> simp [errVector]
@[simp] theorem logErr_work (s : State) (c : ErrClass) (k b : Nat) (u : UnitId) (d0 d1 : Nat) :
    (logErr s c k b u d0 d1).work = s.work := by
  simp only [logErr, logEntry]
  split <;> split <;> simp [errVector]
@[simp] theorem logErr_plan (s : State) (c : ErrClass) (k b : Nat) (u : UnitId) (d0 d1 : Nat) :
    (logErr s c k b u d0 d1).plan = s.plan := by
  simp only [logErr, logEntry]
  split <;> split <;> simp [errVector]
@[simp] theorem logErr_haul (s : State) (c : ErrClass) (k b : Nat) (u : UnitId) (d0 d1 : Nat) :
    (logErr s c k b u d0 d1).haul = s.haul := by
  simp only [logErr, logEntry]
  split <;> split <;> simp [errVector]
@[simp] theorem logErr_tier (s : State) (c : ErrClass) (k b : Nat) (u : UnitId) (d0 d1 : Nat) :
    (logErr s c k b u d0 d1).tier = s.tier := by
  simp only [logErr, logEntry]
  split <;> split <;> simp [errVector]
@[simp] theorem logErr_shards (s : State) (c : ErrClass) (k b : Nat) (u : UnitId) (d0 d1 : Nat) :
    (logErr s c k b u d0 d1).shards = s.shards := by
  simp only [logErr, logEntry]
  split <;> split <;> simp [errVector]
@[simp] theorem logErr_fab (s : State) (c : ErrClass) (k b : Nat) (u : UnitId) (d0 d1 : Nat) :
    (logErr s c k b u d0 d1).fab = s.fab := by
  simp only [logErr, logEntry]
  split <;> split <;> simp [errVector]
@[simp] theorem logErr_win (s : State) (c : ErrClass) (k b : Nat) (u : UnitId) (d0 d1 : Nat) :
    (logErr s c k b u d0 d1).win = s.win := by
  simp only [logErr, logEntry]
  split <;> split <;> simp [errVector]
@[simp] theorem logErr_fw (s : State) (c : ErrClass) (k b : Nat) (u : UnitId) (d0 d1 : Nat) :
    (logErr s c k b u d0 d1).fw = s.fw := by
  simp only [logErr, logEntry]
  split <;> split <;> simp [errVector]
@[simp] theorem logErr_sec (s : State) (c : ErrClass) (k b : Nat) (u : UnitId) (d0 d1 : Nat) :
    (logErr s c k b u d0 d1).sec = s.sec := by
  simp only [logErr, logEntry]
  split <;> split <;> simp [errVector]
@[simp] theorem logErr_pwr (s : State) (c : ErrClass) (k b : Nat) (u : UnitId) (d0 d1 : Nat) :
    (logErr s c k b u d0 d1).pwr = s.pwr := by
  simp only [logErr, logEntry]
  split <;> split <;> simp [errVector]
@[simp] theorem logErr_mgmt (s : State) (c : ErrClass) (k b : Nat) (u : UnitId) (d0 d1 : Nat) :
    (logErr s c k b u d0 d1).mgmt = s.mgmt := by
  simp only [logErr, logEntry]
  split <;> split <;> simp [errVector]
@[simp] theorem logErr_fresh (s : State) (c : ErrClass) (k b : Nat) (u : UnitId) (d0 d1 : Nat) :
    (logErr s c k b u d0 d1).fresh = s.fresh := by
  simp only [logErr, logEntry]
  split <;> split <;> simp [errVector]
@[simp] theorem logErr_pending (s : State) (c : ErrClass) (k b : Nat) (u : UnitId) (d0 d1 : Nat) :
    (logErr s c k b u d0 d1).pending = s.pending := by
  simp only [logErr, logEntry]
  split <;> split <;> simp [errVector]
@[simp] theorem logErr_stock (s : State) (c : ErrClass) (k b : Nat) (u : UnitId) (d0 d1 : Nat) :
    (logErr s c k b u d0 d1).stock = s.stock := by
  simp only [logErr, logEntry]
  split <;> split <;> simp [errVector]

@[simp] theorem logErr_prod (s : State) (c : ErrClass) (k b : Nat) (u : UnitId) (d0 d1 : Nat) :
    (logErr s c k b u d0 d1).fault.prod = (s.fault.prod + 1) % 2 ^ 32 := by
  simp only [logErr, logEntry]
  split <;> split <;> simp [errVector]

end Sys2Proof.Machine
end

