-- ==== Sys2Proof/WellFormed.lean ====
section
/-! DEFINITION. Which commands are well formed: every operand within the range the manual gives it. The meanings are
total all the same; the statements about commands in range name this check. -/

namespace Sys2Proof

/-- A stamp of the 64-bit tick counter and the 32-bit offset (R31). -/
def stampOk (t : Stamp) : Bool := decide (t.tick < 2 ^ 64) && decide (t.off < 2 ^ 32)

/-- One of the 16 benches (R57). -/
def benchOk (b : Nat) : Bool := decide (b < 16)

/-- The physical function or one of the 16 virtual functions (R365). -/
def fnOk : Fn → Bool
  | .pf => true
  | .vf b => decide (b < 16)

/-- One of the 256 submission rings (R369). -/
def ringOk (r : Nat) : Bool := decide (r < 256)

/-- One of the 96 links (R302). -/
def linkOk (l : Nat) : Bool := decide (l < 96)

/-- One of the eight compute tiles (R56). -/
def tileOk (t : Nat) : Bool := decide (t < 8)

/-- A 64-bit key (R198, R209). -/
def keyOk (k : Nat) : Bool := decide (k < 2 ^ 64)

/-- A 32-bit number (R212, R281, R370). -/
def key32Ok (k : Nat) : Bool := decide (k < 2 ^ 32)

/-- A 16-bit map epoch (R330). -/
def epochOk (e : Nat) : Bool := decide (e < 2 ^ 16)

/-- One of the 4,096 tallies (R248). -/
def tallyOk (n : Nat) : Bool := decide (n < 4096)

/-- A 20-bit queue-pair number (R343). -/
def qpnOk (n : Nat) : Bool := decide (n < 2 ^ 20)

/-- One of the 16 control cores of KT (R400). -/
def coreOk (n : Nat) : Bool := decide (n < 16)

/-- One of the eight selective IDE streams (R446). -/
def streamOk (n : Nat) : Bool := decide (n < 8)

/-- What is known of a tick source: tick fields in 12 and 10 bits, source_prio in 8 (R28, R30, R48). -/
def SourceInfo.inRange (f : SourceInfo) : Bool :=
  decide (f.period < 2 ^ 12) && decide (f.backstop < 2 ^ 10) && decide (f.cutoff < 2 ^ 10) && decide (f.prio < 256)

/-- A page: a 64-bit conversation, a group of 64 positions, a layer and a KV head (R151). -/
def pageOk (p : PageRef) : Bool :=
  keyOk p.conv && decide (p.group < 16384) && decide (p.layer < 256) && decide (p.head < 256)

/-- A unit of at most 16 index bits (R409). -/
def unitOk (u : UnitId) : Bool := decide (u.index < 2 ^ 16)

/-- A landed descriptor: its stamp, ring and 32-bit ring index (R32, R370), or those of the module that forwarded it,
whose address stands above bit 12 (R214; log entry 11). -/
def descOk (d : HostDesc) : Bool :=
  stampOk d.stamp && (ringOk d.ring || (decide (4096 ≤ d.ring) && decide (d.ring < 4096 * 65537))) && key32Ok d.index

/-- A management command by its stamp (R471). -/
def cmdOk (c : MgmtCmd) : Bool := stampOk c.stamp

/-- The stamp a command carries (R32). -/
def Instr.stamp : Instr → Stamp
  | .doorbell t _ _ _ _ _ => t
  | .descriptorFetchDone t _ _ _ _ => t
  | .badAccess t _ => t
  | .modelLoad d => d.stamp
  | .modelLoadReplace d => d.stamp
  | .modelLoadComplete t _ _ => t
  | .modelUnload d => d.stamp
  | .drainLimitExpiry t _ => t
  | .unloadReleaseDone t _ => t
  | .reqAdmit d => d.stamp
  | .reqAppend d => d.stamp
  | .reqCancel d => d.stamp
  | .reqPark d => d.stamp
  | .reqParkHaul d => d.stamp
  | .reqResume d => d.stamp
  | .reqResumeRebuild d => d.stamp
  | .reqRelease d => d.stamp
  | .reqHandoff d => d.stamp
  | .vecSearch d => d.stamp
  | .vecInsert d => d.stamp
  | .vecDelete d => d.stamp
  | .vecMergeMerge d => d.stamp
  | .vecMergeCreate d => d.stamp
  | .shardCreateDone t _ => t
  | .vecMergeDrop d => d.stamp
  | .vecMergeArchive d => d.stamp
  | .vecMergeRestore d => d.stamp
  | .shardRestoreDone t _ => t
  | .vecMergeReplicate d => d.stamp
  | .shardReplicateDone t _ _ => t
  | .vecMergeUnreplicate d => d.stamp
  | .winOpen d => d.stamp
  | .winRevoke d => d.stamp
  | .qpCreate d => d.stamp
  | .qpDestroy d => d.stamp
  | .qpDestroyAbort d => d.stamp
  | .rmaWrite d => d.stamp
  | .rmaRead d => d.stamp
  | .rmaAdd d => d.stamp
  | .rmaCas d => d.stamp
  | .rmaWriteRack d => d.stamp
  | .rmaReadRack d => d.stamp
  | .rmaAddRack d => d.stamp
  | .rmaCasRack d => d.stamp
  | .fence d => d.stamp
  | .fenceRack d => d.stamp
  | .tallySet d => d.stamp
  | .tallyDelete d => d.stamp
  | .streamBind d => d.stamp
  | .streamUnbind d => d.stamp
  | .nop d => d.stamp
  | .tickStart t => t
  | .timeMessageSend t => t
  | .remoteWaitExpiry t _ _ _ => t
  | .backstop t => t
  | .shortSightGiveUp t _ _ _ => t
  | .cutOff t _ => t
  | .commit t => t
  | .deadlineExpiry t _ => t
  | .tallyRefill t _ => t
  | .checkpointSend t _ => t
  | .checkpointLate t _ => t
  | .doneListExpiry t _ => t
  | .bindingExpiry t _ => t
  | .goodputWindowClose t _ => t
  | .meterWindowClose t => t
  | .epochSwitch t => t
  | .drainWindowEnd t => t
  | .timeRecordReceive t _ _ _ _ => t
  | .beaconReceive t _ _ _ => t
  | .sourceTakeover t _ => t
  | .syncLostTimeout t => t
  | .syncHaltTimeout t => t
  | .delayMeasure t _ _ => t
  | .cableInsert t _ => t
  | .trainingStepDone t _ _ => t
  | .trainingStepTimeout t _ => t
  | .trainingRetry t _ => t
  | .identReceive t _ _ => t
  | .keyHello t _ _ => t
  | .keyKem t _ _ => t
  | .keyAbort t _ _ => t
  | .refusedRetry t _ => t
  | .flitReceive t _ _ _ _ _ => t
  | .nakRecord t _ _ => t
  | .creditRecord t _ _ _ _ _ => t
  | .laneRecord t _ _ _ _ => t
  | .rekeyRecord t _ _ _ => t
  | .laneDrop t _ _ => t
  | .laneRetry t _ _ => t
  | .keyRollover t _ => t
  | .freshExchange t _ => t
  | .freshExchangeRetry t _ => t
  | .freshExchangeDeadline t _ => t
  | .lanePowerDown t _ => t
  | .lanePowerRestore t _ => t
  | .packetForward t _ _ => t
  | .read t _ => t
  | .write t _ => t
  | .add t _ => t
  | .cas t _ => t
  | .fencePacket t _ => t
  | .readResp t _ => t
  | .atomResp t _ => t
  | .fenceDone t _ => t
  | .ack t _ => t
  | .transfer t _ => t
  | .packetReplay t _ _ => t
  | .epochStaleResponse t _ => t
  | .wWrite t _ => t
  | .wRead t _ => t
  | .wAdd t _ => t
  | .wCas t _ => t
  | .wReadResp t _ => t
  | .wAtomResp t _ => t
  | .wAck t _ => t
  | .wNak t _ => t
  | .wCredit t _ => t
  | .wCreditReq t _ => t
  | .wRetryTimeout t _ => t
  | .wAckDeferred t _ => t
  | .contextFetchDone t _ _ => t
  | .partialAsk t _ _ => t
  | .partialBackstopAsk t _ _ => t
  | .partialRunDone t _ _ _ _ _ => t
  | .partialAnswer t _ _ _ => t
  | .settle t _ _ _ => t
  | .haulRequest t _ => t
  | .haulOffer t _ => t
  | .haulAccept t _ => t
  | .haulRefuse t _ => t
  | .haulData t _ => t
  | .haulStateWritten t _ _ => t
  | .haulAck t _ => t
  | .haulFreed t _ => t
  | .haulAbort t _ => t
  | .haulTimeout t _ => t
  | .haulAckRepeat t _ _ => t
  | .haulSourceUnreachable t _ _ => t
  | .freedWaitExpiry t => t
  | .segmentReceive t _ _ => t
  | .segmentAck t _ _ => t
  | .segmentResend t _ => t
  | .checkpointReceive t _ _ _ _ => t
  | .keeperRefuse t _ => t
  | .keeperUnreachable t _ => t
  | .keeperFreeNotice t _ => t
  | .releaseNotice t _ _ => t
  | .stateNotice t _ _ => t
  | .refcountMessage t _ _ _ => t
  | .replicaCopyAck t _ _ _ => t
  | .primaryFreeNotice t _ => t
  | .vecAsk t _ _ => t
  | .vecBackstopAsk t _ _ => t
  | .vecAnswer t _ _ _ => t
  | .vecSegmentReceive t _ => t
  | .moveCopyDone t _ _ => t
  | .demotionIdle t _ => t
  | .pressureDemotion t _ _ _ => t
  | .repairMoveDone t _ _ _ => t
  | .flashReadDone t _ _ _ => t
  | .flashReadDeadline t _ => t
  | .flashProgramDone t _ => t
  | .flashProgramFail t _ => t
  | .flashEraseFail t _ => t
  | .readDisturbRelocate t _ => t
  | .retentionRewrite t _ => t
  | .wearLevel t _ => t
  | .garbageCollect t _ => t
  | .flashWriteHold t => t
  | .relistDone t => t
  | .patrolScrub t _ => t
  | .correctedError t _ _ _ => t
  | .uncorrectableError t _ _ _ _ => t
  | .zqCalibration t => t
  | .fitDone t _ _ _ => t
  | .blockReject t _ _ _ => t
  | .weightBlockReject t _ _ _ => t
  | .weightReloadDone t _ _ _ => t
  | .shadowRecheckDone t _ _ _ => t
  | .arbitrationDone t _ _ => t
  | .coreWatchdog t _ => t
  | .planWatchdog t => t
  | .restartWatchdog t _ => t
  | .bootWatchdog t => t
  | .coreException t _ => t
  | .firmwareReady t => t
  | .trialCommit t => t
  | .hitlessActivation t => t
  | .inputRise t _ => t
  | .planStable t => t
  | .inputUndervoltage t _ => t
  | .inputOutOfRange t _ => t
  | .resetN t _ => t
  | .perst t => t
  | .perstRelease t => t
  | .flowLoss t => t
  | .flowRestore t => t
  | .tjThrottle t _ _ => t
  | .currentLimit t _ => t
  | .droop t _ => t
  | .overrideEnd t _ _ => t
  | .thermalShutdown t _ => t
  | .restRequest t _ => t
  | .restEntry t => t
  | .restEntryComplete t => t
  | .watchSample t _ _ _ => t
  | .wakeComplete t => t
  | .keepEnter c => c.stamp
  | .rlKeepCtrlEnter t _ => t
  | .readoutList t _ => t
  | .readoutConv t _ => t
  | .readoutDone t => t
  | .pwResetCtrlWarm t _ => t
  | .setupLockWrite t _ _ => t
  | .bnSetupLockWrite t _ _ _ => t
  | .tkNowOffsetRead t => t
  | .cqDisable t _ _ => t
  | .ringErrOverrunClear t _ _ _ => t
  | .pwOverrideClear t _ _ => t
  | .scKeyCtrlErase t _ _ => t
  | .registerWrite t _ _ _ => t
  | .flr t _ => t
  | .vfEnableChange t _ _ => t
  | .ptmDialogue t _ => t
  | .ideFailure t _ _ => t
  | .completionInterrupt t _ => t
  | .completionRecordDrain t _ _ => t
  | .mctpControl t _ _ _ => t
  | .readRegs c _ _ => c.stamp
  | .readLog c _ => c.stamp
  | .readMeter c _ => c.stamp
  | .stageBench c _ _ => c.stamp
  | .stageRoute c _ _ _ => c.stamp
  | .stageExport c _ _ => c.stamp
  | .stageRackmap c _ _ => c.stamp
  | .stageEvac c _ _ _ _ => c.stamp
  | .sealEpoch c _ _ => c.stamp
  | .discardStage c _ => c.stamp
  | .setSigPolicy c _ _ _ => c.stamp
  | .clearQuarantine c _ => c.stamp
  | .keyErase c _ => c.stamp
  | .mgResetWarm c => c.stamp
  | .mgResetCold c => c.stamp
  | .restEnter c => c.stamp
  | .sensorUpdate t _ => t
  | .getPdr t _ _ => t
  | .getPdrRepositoryInfo t _ => t
  | .getSensorReading t _ _ => t
  | .getStateSensorReadings t _ _ => t
  | .setNumericSensorEnable t _ _ _ => t
  | .setEventReceiver t _ _ => t
  | .queryDeviceIdentifiers t _ => t
  | .getFirmwareParameters t _ => t
  | .requestUpdate t _ => t
  | .passComponentTable t _ _ => t
  | .updateComponent t _ _ _ => t
  | .firmwareData t _ _ _ _ => t
  | .activateFirmware t _ => t
  | .getStatus t _ => t
  | .cancelUpdateComponent t _ => t
  | .cancelUpdate t _ => t
  | .getVersion t _ => t
  | .getCapabilities t _ => t
  | .negotiateAlgorithms t _ _ => t
  | .getDigests t _ => t
  | .getCertificate t _ _ _ _ => t
  | .challenge t _ _ _ => t
  | .getMeasurements t _ _ => t
  | .keyExchange t _ => t
  | .finish t _ _ _ => t
  | .heartbeat t _ _ => t
  | .keyUpdate t _ _ => t
  | .endSession t _ _ => t
  | .ideKm t _ _ _ _ => t
  | .holdoverEntry t => t
  | .inputInRange t _ => t
  | .resetNRelease t => t
  | .startUpRowDone t _ _ _ => t
  | .checkpointAck t _ _ => t
  | .replicaCopyReceive t _ _ _ _ => t
  | .replicaDropNotice t _ _ => t
  | .newHomeNotice t _ _ => t
  | .keeperLogRead t _ _ _ _ => t

/-- Every operand of the command is in its range. -/
def Instr.wellFormed : Instr → Bool
  | .doorbell t fn ring _ _ _ => stampOk t && fnOk fn && ringOk ring
  | .descriptorFetchDone t ring index _ _ => stampOk t && ringOk ring && key32Ok index
  | .badAccess t fn => stampOk t && fnOk fn
  | .modelLoad d => descOk d
  | .modelLoadReplace d => descOk d
  | .modelLoadComplete t bench _ => stampOk t && benchOk bench
  | .modelUnload d => descOk d
  | .drainLimitExpiry t bench => stampOk t && benchOk bench
  | .unloadReleaseDone t bench => stampOk t && benchOk bench
  | .reqAdmit d => descOk d
  | .reqAppend d => descOk d
  | .reqCancel d => descOk d
  | .reqPark d => descOk d
  | .reqParkHaul d => descOk d
  | .reqResume d => descOk d
  | .reqResumeRebuild d => descOk d
  | .reqRelease d => descOk d
  | .reqHandoff d => descOk d
  | .vecSearch d => descOk d
  | .vecInsert d => descOk d
  | .vecDelete d => descOk d
  | .vecMergeMerge d => descOk d
  | .vecMergeCreate d => descOk d
  | .shardCreateDone t shard => stampOk t && key32Ok shard
  | .vecMergeDrop d => descOk d
  | .vecMergeArchive d => descOk d
  | .vecMergeRestore d => descOk d
  | .shardRestoreDone t shard => stampOk t && key32Ok shard
  | .vecMergeReplicate d => descOk d
  | .shardReplicateDone t shard _ => stampOk t && key32Ok shard
  | .vecMergeUnreplicate d => descOk d
  | .winOpen d => descOk d
  | .winRevoke d => descOk d
  | .qpCreate d => descOk d
  | .qpDestroy d => descOk d
  | .qpDestroyAbort d => descOk d
  | .rmaWrite d => descOk d
  | .rmaRead d => descOk d
  | .rmaAdd d => descOk d
  | .rmaCas d => descOk d
  | .rmaWriteRack d => descOk d
  | .rmaReadRack d => descOk d
  | .rmaAddRack d => descOk d
  | .rmaCasRack d => descOk d
  | .fence d => descOk d
  | .fenceRack d => descOk d
  | .tallySet d => descOk d
  | .tallyDelete d => descOk d
  | .streamBind d => descOk d
  | .streamUnbind d => descOk d
  | .nop d => descOk d
  | .tickStart t => stampOk t
  | .timeMessageSend t => stampOk t
  | .remoteWaitExpiry t bench _ _ => stampOk t && benchOk bench
  | .backstop t => stampOk t
  | .shortSightGiveUp t req _ _ => stampOk t && keyOk req
  | .cutOff t _ => stampOk t
  | .commit t => stampOk t
  | .deadlineExpiry t req => stampOk t && keyOk req
  | .tallyRefill t tally => stampOk t && tallyOk tally
  | .checkpointSend t req => stampOk t && keyOk req
  | .checkpointLate t req => stampOk t && keyOk req
  | .doneListExpiry t req => stampOk t && keyOk req
  | .bindingExpiry t req => stampOk t && keyOk req
  | .goodputWindowClose t bench => stampOk t && benchOk bench
  | .meterWindowClose t => stampOk t
  | .epochSwitch t => stampOk t
  | .drainWindowEnd t => stampOk t
  | .timeRecordReceive t link src _ f => stampOk t && linkOk link && stampOk src && f.inRange
  | .beaconReceive t link _ _ => stampOk t && linkOk link
  | .sourceTakeover t _ => stampOk t
  | .syncLostTimeout t => stampOk t
  | .syncHaltTimeout t => stampOk t
  | .delayMeasure t link _ => stampOk t && linkOk link
  | .cableInsert t cage => stampOk t && linkOk cage
  | .trainingStepDone t link _ => stampOk t && linkOk link
  | .trainingStepTimeout t link => stampOk t && linkOk link
  | .trainingRetry t link => stampOk t && linkOk link
  | .identReceive t link _ => stampOk t && linkOk link
  | .keyHello t link _ => stampOk t && linkOk link
  | .keyKem t link _ => stampOk t && linkOk link
  | .keyAbort t link _ => stampOk t && linkOk link
  | .refusedRetry t link => stampOk t && linkOk link
  | .flitReceive t link _ _ _ _ => stampOk t && linkOk link
  | .nakRecord t link _ => stampOk t && linkOk link
  | .creditRecord t link req _ _ _ => stampOk t && linkOk link && keyOk req
  | .laneRecord t link _ _ _ => stampOk t && linkOk link
  | .rekeyRecord t link _ _ => stampOk t && linkOk link
  | .laneDrop t link _ => stampOk t && linkOk link
  | .laneRetry t link _ => stampOk t && linkOk link
  | .keyRollover t link => stampOk t && linkOk link
  | .freshExchange t link => stampOk t && linkOk link
  | .freshExchangeRetry t link => stampOk t && linkOk link
  | .freshExchangeDeadline t link => stampOk t && linkOk link
  | .lanePowerDown t link => stampOk t && linkOk link
  | .lanePowerRestore t link => stampOk t && linkOk link
  | .packetForward t link _ => stampOk t && linkOk link
  | .read t _ => stampOk t
  | .write t _ => stampOk t
  | .add t _ => stampOk t
  | .cas t _ => stampOk t
  | .fencePacket t _ => stampOk t
  | .readResp t _ => stampOk t
  | .atomResp t _ => stampOk t
  | .fenceDone t _ => stampOk t
  | .ack t _ => stampOk t
  | .transfer t _ => stampOk t
  | .packetReplay t _ _ => stampOk t
  | .epochStaleResponse t _ => stampOk t
  | .wWrite t _ => stampOk t
  | .wRead t _ => stampOk t
  | .wAdd t _ => stampOk t
  | .wCas t _ => stampOk t
  | .wReadResp t _ => stampOk t
  | .wAtomResp t _ => stampOk t
  | .wAck t _ => stampOk t
  | .wNak t _ => stampOk t
  | .wCredit t _ => stampOk t
  | .wCreditReq t _ => stampOk t
  | .wRetryTimeout t qpn => stampOk t && qpnOk qpn
  | .wAckDeferred t qpn => stampOk t && qpnOk qpn
  | .contextFetchDone t qpn _ => stampOk t && qpnOk qpn
  | .partialAsk t _ _ => stampOk t
  | .partialBackstopAsk t _ _ => stampOk t
  | .partialRunDone t _ req _ _ _ => stampOk t && keyOk req
  | .partialAnswer t _ _ _ => stampOk t
  | .settle t _ _ _ => stampOk t
  | .haulRequest t _ => stampOk t
  | .haulOffer t _ => stampOk t
  | .haulAccept t _ => stampOk t
  | .haulRefuse t _ => stampOk t
  | .haulData t _ => stampOk t
  | .haulStateWritten t haul _ => stampOk t && key32Ok haul
  | .haulAck t _ => stampOk t
  | .haulFreed t _ => stampOk t
  | .haulAbort t _ => stampOk t
  | .haulTimeout t haul => stampOk t && key32Ok haul
  | .haulAckRepeat t haul _ => stampOk t && key32Ok haul
  | .haulSourceUnreachable t haul _ => stampOk t && key32Ok haul
  | .freedWaitExpiry t => stampOk t
  | .segmentReceive t _ _ => stampOk t
  | .segmentAck t conv _ => stampOk t && keyOk conv
  | .segmentResend t conv => stampOk t && keyOk conv
  | .checkpointReceive t _ _ _ _ => stampOk t
  | .keeperRefuse t conv => stampOk t && keyOk conv
  | .keeperUnreachable t _ => stampOk t
  | .keeperFreeNotice t conv => stampOk t && keyOk conv
  | .releaseNotice t conv _ => stampOk t && keyOk conv
  | .stateNotice t conv _ => stampOk t && keyOk conv
  | .refcountMessage t p seq _ => stampOk t && pageOk p && keyOk seq
  | .replicaCopyAck t p _ _ => stampOk t && pageOk p
  | .primaryFreeNotice t p => stampOk t && pageOk p
  | .vecAsk t _ _ => stampOk t
  | .vecBackstopAsk t _ _ => stampOk t
  | .vecAnswer t _ _ _ => stampOk t
  | .vecSegmentReceive t _ => stampOk t
  | .moveCopyDone t _ _ => stampOk t
  | .demotionIdle t p => stampOk t && pageOk p
  | .pressureDemotion t bench _ _ => stampOk t && benchOk bench
  | .repairMoveDone t p _ _ => stampOk t && pageOk p
  | .flashReadDone t _ _ _ => stampOk t
  | .flashReadDeadline t _ => stampOk t
  | .flashProgramDone t _ => stampOk t
  | .flashProgramFail t _ => stampOk t
  | .flashEraseFail t _ => stampOk t
  | .readDisturbRelocate t _ => stampOk t
  | .retentionRewrite t _ => stampOk t
  | .wearLevel t _ => stampOk t
  | .garbageCollect t _ => stampOk t
  | .flashWriteHold t => stampOk t
  | .relistDone t => stampOk t
  | .patrolScrub t _ => stampOk t
  | .correctedError t _ u _ => stampOk t && unitOk u
  | .uncorrectableError t _ u _ _ => stampOk t && unitOk u
  | .zqCalibration t => stampOk t
  | .fitDone t p _ _ => stampOk t && pageOk p
  | .blockReject t p _ _ => stampOk t && pageOk p
  | .weightBlockReject t bench _ _ => stampOk t && benchOk bench
  | .weightReloadDone t bench _ _ => stampOk t && benchOk bench
  | .shadowRecheckDone t _ _ _ => stampOk t
  | .arbitrationDone t _ _ => stampOk t
  | .coreWatchdog t core => stampOk t && coreOk core
  | .planWatchdog t => stampOk t
  | .restartWatchdog t _ => stampOk t
  | .bootWatchdog t => stampOk t
  | .coreException t core => stampOk t && coreOk core
  | .firmwareReady t => stampOk t
  | .trialCommit t => stampOk t
  | .hitlessActivation t => stampOk t
  | .inputRise t _ => stampOk t
  | .planStable t => stampOk t
  | .inputUndervoltage t _ => stampOk t
  | .inputOutOfRange t _ => stampOk t
  | .resetN t _ => stampOk t
  | .perst t => stampOk t
  | .perstRelease t => stampOk t
  | .flowLoss t => stampOk t
  | .flowRestore t => stampOk t
  | .tjThrottle t tile _ => stampOk t && tileOk tile
  | .currentLimit t tile => stampOk t && tileOk tile
  | .droop t tile => stampOk t && tileOk tile
  | .overrideEnd t tile _ => stampOk t && tileOk tile
  | .thermalShutdown t tile => stampOk t && tileOk tile
  | .restRequest t fn => stampOk t && fnOk fn
  | .restEntry t => stampOk t
  | .restEntryComplete t => stampOk t
  | .watchSample t _ _ _ => stampOk t
  | .wakeComplete t => stampOk t
  | .keepEnter c => cmdOk c
  | .rlKeepCtrlEnter t fn => stampOk t && fnOk fn
  | .readoutList t fn => stampOk t && fnOk fn
  | .readoutConv t fn => stampOk t && fnOk fn
  | .readoutDone t => stampOk t
  | .pwResetCtrlWarm t fn => stampOk t && fnOk fn
  | .setupLockWrite t fn _ => stampOk t && fnOk fn
  | .bnSetupLockWrite t fn bench _ => stampOk t && fnOk fn && benchOk bench
  | .tkNowOffsetRead t => stampOk t
  | .cqDisable t fn bench => stampOk t && fnOk fn && benchOk bench
  | .ringErrOverrunClear t fn bench _ => stampOk t && fnOk fn && benchOk bench
  | .pwOverrideClear t fn _ => stampOk t && fnOk fn
  | .scKeyCtrlErase t fn _ => stampOk t && fnOk fn
  | .registerWrite t fn _ _ => stampOk t && fnOk fn
  | .flr t fn => stampOk t && fnOk fn
  | .vfEnableChange t _ _ => stampOk t
  | .ptmDialogue t _ => stampOk t
  | .ideFailure t stream _ => stampOk t && streamOk stream
  | .completionInterrupt t bench => stampOk t && benchOk bench
  | .completionRecordDrain t bench _ => stampOk t && benchOk bench
  | .mctpControl t _ _ _ => stampOk t
  | .readRegs c _ _ => cmdOk c
  | .readLog c _ => cmdOk c
  | .readMeter c _ => cmdOk c
  | .stageBench c epoch _ => cmdOk c && epochOk epoch
  | .stageRoute c epoch _ _ => cmdOk c && epochOk epoch
  | .stageExport c epoch _ => cmdOk c && epochOk epoch
  | .stageRackmap c epoch _ => cmdOk c && epochOk epoch
  | .stageEvac c epoch bench _ targetBench => cmdOk c && epochOk epoch && benchOk bench && benchOk targetBench
  | .sealEpoch c epoch _ => cmdOk c && epochOk epoch
  | .discardStage c epoch => cmdOk c && epochOk epoch
  | .setSigPolicy c bench _ _ => cmdOk c && benchOk bench
  | .clearQuarantine c u => cmdOk c && unitOk u
  | .keyErase c bench => cmdOk c && benchOk bench
  | .mgResetWarm c => cmdOk c
  | .mgResetCold c => cmdOk c
  | .restEnter c => cmdOk c
  | .sensorUpdate t _ => stampOk t
  | .getPdr t _ _ => stampOk t
  | .getPdrRepositoryInfo t _ => stampOk t
  | .getSensorReading t _ _ => stampOk t
  | .getStateSensorReadings t _ _ => stampOk t
  | .setNumericSensorEnable t _ _ _ => stampOk t
  | .setEventReceiver t _ _ => stampOk t
  | .queryDeviceIdentifiers t _ => stampOk t
  | .getFirmwareParameters t _ => stampOk t
  | .requestUpdate t _ => stampOk t
  | .passComponentTable t _ _ => stampOk t
  | .updateComponent t _ _ _ => stampOk t
  | .firmwareData t _ _ _ _ => stampOk t
  | .activateFirmware t _ => stampOk t
  | .getStatus t _ => stampOk t
  | .cancelUpdateComponent t _ => stampOk t
  | .cancelUpdate t _ => stampOk t
  | .getVersion t _ => stampOk t
  | .getCapabilities t _ => stampOk t
  | .negotiateAlgorithms t _ _ => stampOk t
  | .getDigests t _ => stampOk t
  | .getCertificate t _ _ _ _ => stampOk t
  | .challenge t _ _ _ => stampOk t
  | .getMeasurements t _ _ => stampOk t
  | .keyExchange t _ => stampOk t
  | .finish t _ _ _ => stampOk t
  | .heartbeat t _ _ => stampOk t
  | .keyUpdate t _ _ => stampOk t
  | .endSession t _ _ => stampOk t
  | .ideKm t _ stream _ _ => stampOk t && streamOk stream
  | .holdoverEntry t => stampOk t
  | .inputInRange t _ => stampOk t
  | .resetNRelease t => stampOk t
  | .startUpRowDone t _ _ _ => stampOk t
  | .checkpointAck t req _ => stampOk t && keyOk req
  | .replicaCopyReceive t _ p _ _ => stampOk t && pageOk p
  | .replicaDropNotice t p _ => stampOk t && pageOk p
  | .newHomeNotice t conv _ => stampOk t && keyOk conv
  | .keeperLogRead t conv _ homeBench _ => stampOk t && keyOk conv && benchOk homeBench

end Sys2Proof
end

