-- ==== Sys2Proof/Laws/PerInstr.lean ====
section
/-! SUPPORT. Facts about every command as syntax, one lemma per constructor. The family `Stamped` says that a
well-formed command carries a stamp in range: a 64-bit tick and a 32-bit offset (R31, R32). -/

namespace Sys2Proof.Laws.Stamped

/-- A well-formed command carries a stamp in range (R31, R32). -/
def Statement (i : Instr) : Prop := i.wellFormed = true → stampOk i.stamp = true

theorem left_of_and {a b : Bool} (h : (a && b) = true) : a = true := by
  cases a
  · exact h
  · rfl

theorem doorbell (t : Stamp) (fn : Fn) (ring off size : Nat) (value : Word) :
    Statement (.doorbell t fn ring off size value) :=
  fun h => left_of_and (left_of_and h)
theorem descriptorFetchDone (t : Stamp) (ring index : Nat) (raw : BitVec 512) (data : Option NamedData) :
    Statement (.descriptorFetchDone t ring index raw data) :=
  fun h => left_of_and (left_of_and h)
theorem badAccess (t : Stamp) (fn : Fn) :
    Statement (.badAccess t fn) :=
  fun h => left_of_and h
theorem modelLoad (d : HostDesc) :
    Statement (.modelLoad d) :=
  fun h => left_of_and (left_of_and h)
theorem modelLoadReplace (d : HostDesc) :
    Statement (.modelLoadReplace d) :=
  fun h => left_of_and (left_of_and h)
theorem modelLoadComplete (t : Stamp) (bench : Nat) (pkg : Package) :
    Statement (.modelLoadComplete t bench pkg) :=
  fun h => left_of_and h
theorem modelUnload (d : HostDesc) :
    Statement (.modelUnload d) :=
  fun h => left_of_and (left_of_and h)
theorem drainLimitExpiry (t : Stamp) (bench : Nat) :
    Statement (.drainLimitExpiry t bench) :=
  fun h => left_of_and h
theorem unloadReleaseDone (t : Stamp) (bench : Nat) :
    Statement (.unloadReleaseDone t bench) :=
  fun h => left_of_and h
theorem reqAdmit (d : HostDesc) :
    Statement (.reqAdmit d) :=
  fun h => left_of_and (left_of_and h)
theorem reqAppend (d : HostDesc) :
    Statement (.reqAppend d) :=
  fun h => left_of_and (left_of_and h)
theorem reqCancel (d : HostDesc) :
    Statement (.reqCancel d) :=
  fun h => left_of_and (left_of_and h)
theorem reqPark (d : HostDesc) :
    Statement (.reqPark d) :=
  fun h => left_of_and (left_of_and h)
theorem reqParkHaul (d : HostDesc) :
    Statement (.reqParkHaul d) :=
  fun h => left_of_and (left_of_and h)
theorem reqResume (d : HostDesc) :
    Statement (.reqResume d) :=
  fun h => left_of_and (left_of_and h)
theorem reqResumeRebuild (d : HostDesc) :
    Statement (.reqResumeRebuild d) :=
  fun h => left_of_and (left_of_and h)
theorem reqRelease (d : HostDesc) :
    Statement (.reqRelease d) :=
  fun h => left_of_and (left_of_and h)
theorem reqHandoff (d : HostDesc) :
    Statement (.reqHandoff d) :=
  fun h => left_of_and (left_of_and h)
theorem vecSearch (d : HostDesc) :
    Statement (.vecSearch d) :=
  fun h => left_of_and (left_of_and h)
theorem vecInsert (d : HostDesc) :
    Statement (.vecInsert d) :=
  fun h => left_of_and (left_of_and h)
theorem vecDelete (d : HostDesc) :
    Statement (.vecDelete d) :=
  fun h => left_of_and (left_of_and h)
theorem vecMergeMerge (d : HostDesc) :
    Statement (.vecMergeMerge d) :=
  fun h => left_of_and (left_of_and h)
theorem vecMergeCreate (d : HostDesc) :
    Statement (.vecMergeCreate d) :=
  fun h => left_of_and (left_of_and h)
theorem shardCreateDone (t : Stamp) (shard : Nat) :
    Statement (.shardCreateDone t shard) :=
  fun h => left_of_and h
theorem vecMergeDrop (d : HostDesc) :
    Statement (.vecMergeDrop d) :=
  fun h => left_of_and (left_of_and h)
theorem vecMergeArchive (d : HostDesc) :
    Statement (.vecMergeArchive d) :=
  fun h => left_of_and (left_of_and h)
theorem vecMergeRestore (d : HostDesc) :
    Statement (.vecMergeRestore d) :=
  fun h => left_of_and (left_of_and h)
theorem shardRestoreDone (t : Stamp) (shard : Nat) :
    Statement (.shardRestoreDone t shard) :=
  fun h => left_of_and h
theorem vecMergeReplicate (d : HostDesc) :
    Statement (.vecMergeReplicate d) :=
  fun h => left_of_and (left_of_and h)
theorem shardReplicateDone (t : Stamp) (shard : Nat) (target : ModuleId) :
    Statement (.shardReplicateDone t shard target) :=
  fun h => left_of_and h
theorem vecMergeUnreplicate (d : HostDesc) :
    Statement (.vecMergeUnreplicate d) :=
  fun h => left_of_and (left_of_and h)
theorem winOpen (d : HostDesc) :
    Statement (.winOpen d) :=
  fun h => left_of_and (left_of_and h)
theorem winRevoke (d : HostDesc) :
    Statement (.winRevoke d) :=
  fun h => left_of_and (left_of_and h)
theorem qpCreate (d : HostDesc) :
    Statement (.qpCreate d) :=
  fun h => left_of_and (left_of_and h)
theorem qpDestroy (d : HostDesc) :
    Statement (.qpDestroy d) :=
  fun h => left_of_and (left_of_and h)
theorem qpDestroyAbort (d : HostDesc) :
    Statement (.qpDestroyAbort d) :=
  fun h => left_of_and (left_of_and h)
theorem rmaWrite (d : HostDesc) :
    Statement (.rmaWrite d) :=
  fun h => left_of_and (left_of_and h)
theorem rmaRead (d : HostDesc) :
    Statement (.rmaRead d) :=
  fun h => left_of_and (left_of_and h)
theorem rmaAdd (d : HostDesc) :
    Statement (.rmaAdd d) :=
  fun h => left_of_and (left_of_and h)
theorem rmaCas (d : HostDesc) :
    Statement (.rmaCas d) :=
  fun h => left_of_and (left_of_and h)
theorem rmaWriteRack (d : HostDesc) :
    Statement (.rmaWriteRack d) :=
  fun h => left_of_and (left_of_and h)
theorem rmaReadRack (d : HostDesc) :
    Statement (.rmaReadRack d) :=
  fun h => left_of_and (left_of_and h)
theorem rmaAddRack (d : HostDesc) :
    Statement (.rmaAddRack d) :=
  fun h => left_of_and (left_of_and h)
theorem rmaCasRack (d : HostDesc) :
    Statement (.rmaCasRack d) :=
  fun h => left_of_and (left_of_and h)
theorem fence (d : HostDesc) :
    Statement (.fence d) :=
  fun h => left_of_and (left_of_and h)
theorem fenceRack (d : HostDesc) :
    Statement (.fenceRack d) :=
  fun h => left_of_and (left_of_and h)
theorem tallySet (d : HostDesc) :
    Statement (.tallySet d) :=
  fun h => left_of_and (left_of_and h)
theorem tallyDelete (d : HostDesc) :
    Statement (.tallyDelete d) :=
  fun h => left_of_and (left_of_and h)
theorem streamBind (d : HostDesc) :
    Statement (.streamBind d) :=
  fun h => left_of_and (left_of_and h)
theorem streamUnbind (d : HostDesc) :
    Statement (.streamUnbind d) :=
  fun h => left_of_and (left_of_and h)
theorem nop (d : HostDesc) :
    Statement (.nop d) :=
  fun h => left_of_and (left_of_and h)
theorem tickStart (t : Stamp) :
    Statement (.tickStart t) :=
  fun h => h
theorem timeMessageSend (t : Stamp) :
    Statement (.timeMessageSend t) :=
  fun h => h
theorem remoteWaitExpiry (t : Stamp) (bench pass layer : Nat) :
    Statement (.remoteWaitExpiry t bench pass layer) :=
  fun h => left_of_and h
theorem backstop (t : Stamp) :
    Statement (.backstop t) :=
  fun h => h
theorem shortSightGiveUp (t : Stamp) (req layer gFirst : Nat) :
    Statement (.shortSightGiveUp t req layer gFirst) :=
  fun h => left_of_and h
theorem cutOff (t : Stamp) (unfinished : List Nat) :
    Statement (.cutOff t unfinished) :=
  fun h => h
theorem commit (t : Stamp) :
    Statement (.commit t) :=
  fun h => h
theorem deadlineExpiry (t : Stamp) (req : Nat) :
    Statement (.deadlineExpiry t req) :=
  fun h => left_of_and h
theorem tallyRefill (t : Stamp) (tally : Nat) :
    Statement (.tallyRefill t tally) :=
  fun h => left_of_and h
theorem checkpointSend (t : Stamp) (req : Nat) :
    Statement (.checkpointSend t req) :=
  fun h => left_of_and h
theorem checkpointLate (t : Stamp) (req : Nat) :
    Statement (.checkpointLate t req) :=
  fun h => left_of_and h
theorem doneListExpiry (t : Stamp) (req : Nat) :
    Statement (.doneListExpiry t req) :=
  fun h => left_of_and h
theorem bindingExpiry (t : Stamp) (req : Nat) :
    Statement (.bindingExpiry t req) :=
  fun h => left_of_and h
theorem goodputWindowClose (t : Stamp) (bench : Nat) :
    Statement (.goodputWindowClose t bench) :=
  fun h => left_of_and h
theorem meterWindowClose (t : Stamp) :
    Statement (.meterWindowClose t) :=
  fun h => h
theorem epochSwitch (t : Stamp) :
    Statement (.epochSwitch t) :=
  fun h => h
theorem drainWindowEnd (t : Stamp) :
    Statement (.drainWindowEnd t) :=
  fun h => h
theorem timeRecordReceive (t : Stamp) (link : Nat) (src : Stamp) (hops : Nat) (fields : SourceInfo) :
    Statement (.timeRecordReceive t link src hops fields) :=
  fun h => left_of_and (left_of_and (left_of_and h))
theorem beaconReceive (t : Stamp) (link tick off : Nat) :
    Statement (.beaconReceive t link tick off) :=
  fun h => left_of_and h
theorem sourceTakeover (t : Stamp) (isNext : Bool) :
    Statement (.sourceTakeover t isNext) :=
  fun h => h
theorem syncLostTimeout (t : Stamp) :
    Statement (.syncLostTimeout t) :=
  fun h => h
theorem syncHaltTimeout (t : Stamp) :
    Statement (.syncHaltTimeout t) :=
  fun h => h
theorem delayMeasure (t : Stamp) (link roundTrip : Nat) :
    Statement (.delayMeasure t link roundTrip) :=
  fun h => left_of_and h
theorem cableInsert (t : Stamp) (cage : Nat) :
    Statement (.cableInsert t cage) :=
  fun h => left_of_and h
theorem trainingStepDone (t : Stamp) (link : Nat) (lanes : BitVec 2) :
    Statement (.trainingStepDone t link lanes) :=
  fun h => left_of_and h
theorem trainingStepTimeout (t : Stamp) (link : Nat) :
    Statement (.trainingStepTimeout t link) :=
  fun h => left_of_and h
theorem trainingRetry (t : Stamp) (link : Nat) :
    Statement (.trainingRetry t link) :=
  fun h => left_of_and h
theorem identReceive (t : Stamp) (link : Nat) (id : Ident) :
    Statement (.identReceive t link id) :=
  fun h => left_of_and h
theorem keyHello (t : Stamp) (link : Nat) (m : KeyMsg) :
    Statement (.keyHello t link m) :=
  fun h => left_of_and h
theorem keyKem (t : Stamp) (link : Nat) (m : KeyMsg) :
    Statement (.keyKem t link m) :=
  fun h => left_of_and h
theorem keyAbort (t : Stamp) (link : Nat) (sent : Bool) :
    Statement (.keyAbort t link sent) :=
  fun h => left_of_and h
theorem refusedRetry (t : Stamp) (link : Nat) :
    Statement (.refusedRetry t link) :=
  fun h => left_of_and h
theorem flitReceive (t : Stamp) (link : Nat) (hdr : Word) (fecOk crcOk tagOk : Bool) :
    Statement (.flitReceive t link hdr fecOk crcOk tagOk) :=
  fun h => left_of_and h
theorem nakRecord (t : Stamp) (link fseq : Nat) :
    Statement (.nakRecord t link fseq) :=
  fun h => left_of_and h
theorem creditRecord (t : Stamp) (link req resp xfer win : Nat) :
    Statement (.creditRecord t link req resp xfer win) :=
  fun h => left_of_and (left_of_and h)
theorem laneRecord (t : Stamp) (link errs0 errs1 : Nat) (drop : Option Nat) :
    Statement (.laneRecord t link errs0 errs1 drop) :=
  fun h => left_of_and h
theorem rekeyRecord (t : Stamp) (link keyIdx fseq : Nat) :
    Statement (.rekeyRecord t link keyIdx fseq) :=
  fun h => left_of_and h
theorem laneDrop (t : Stamp) (link lane : Nat) :
    Statement (.laneDrop t link lane) :=
  fun h => left_of_and h
theorem laneRetry (t : Stamp) (link : Nat) (success : Bool) :
    Statement (.laneRetry t link success) :=
  fun h => left_of_and h
theorem keyRollover (t : Stamp) (link : Nat) :
    Statement (.keyRollover t link) :=
  fun h => left_of_and h
theorem freshExchange (t : Stamp) (link : Nat) :
    Statement (.freshExchange t link) :=
  fun h => left_of_and h
theorem freshExchangeRetry (t : Stamp) (link : Nat) :
    Statement (.freshExchangeRetry t link) :=
  fun h => left_of_and h
theorem freshExchangeDeadline (t : Stamp) (link : Nat) :
    Statement (.freshExchangeDeadline t link) :=
  fun h => left_of_and h
theorem lanePowerDown (t : Stamp) (link : Nat) :
    Statement (.lanePowerDown t link) :=
  fun h => left_of_and h
theorem lanePowerRestore (t : Stamp) (link : Nat) :
    Statement (.lanePowerRestore t link) :=
  fun h => left_of_and h
theorem packetForward (t : Stamp) (link : Nat) (p : Packet) :
    Statement (.packetForward t link p) :=
  fun h => left_of_and h
theorem read (t : Stamp) (p : Packet) :
    Statement (.read t p) :=
  fun h => h
theorem write (t : Stamp) (p : Packet) :
    Statement (.write t p) :=
  fun h => h
theorem add (t : Stamp) (p : Packet) :
    Statement (.add t p) :=
  fun h => h
theorem cas (t : Stamp) (p : Packet) :
    Statement (.cas t p) :=
  fun h => h
theorem fencePacket (t : Stamp) (p : Packet) :
    Statement (.fencePacket t p) :=
  fun h => h
theorem readResp (t : Stamp) (p : Packet) :
    Statement (.readResp t p) :=
  fun h => h
theorem atomResp (t : Stamp) (p : Packet) :
    Statement (.atomResp t p) :=
  fun h => h
theorem fenceDone (t : Stamp) (p : Packet) :
    Statement (.fenceDone t p) :=
  fun h => h
theorem ack (t : Stamp) (p : Packet) :
    Statement (.ack t p) :=
  fun h => h
theorem transfer (t : Stamp) (p : Packet) :
    Statement (.transfer t p) :=
  fun h => h
theorem packetReplay (t : Stamp) (dst : ModuleId) (seq : Nat) :
    Statement (.packetReplay t dst seq) :=
  fun h => h
theorem epochStaleResponse (t : Stamp) (p : Packet) :
    Statement (.epochStaleResponse t p) :=
  fun h => h
theorem wWrite (t : Stamp) (p : WPacket) :
    Statement (.wWrite t p) :=
  fun h => h
theorem wRead (t : Stamp) (p : WPacket) :
    Statement (.wRead t p) :=
  fun h => h
theorem wAdd (t : Stamp) (p : WPacket) :
    Statement (.wAdd t p) :=
  fun h => h
theorem wCas (t : Stamp) (p : WPacket) :
    Statement (.wCas t p) :=
  fun h => h
theorem wReadResp (t : Stamp) (p : WPacket) :
    Statement (.wReadResp t p) :=
  fun h => h
theorem wAtomResp (t : Stamp) (p : WPacket) :
    Statement (.wAtomResp t p) :=
  fun h => h
theorem wAck (t : Stamp) (p : WPacket) :
    Statement (.wAck t p) :=
  fun h => h
theorem wNak (t : Stamp) (p : WPacket) :
    Statement (.wNak t p) :=
  fun h => h
theorem wCredit (t : Stamp) (p : WPacket) :
    Statement (.wCredit t p) :=
  fun h => h
theorem wCreditReq (t : Stamp) (p : WPacket) :
    Statement (.wCreditReq t p) :=
  fun h => h
theorem wRetryTimeout (t : Stamp) (qpn : Nat) :
    Statement (.wRetryTimeout t qpn) :=
  fun h => left_of_and h
theorem wAckDeferred (t : Stamp) (qpn : Nat) :
    Statement (.wAckDeferred t qpn) :=
  fun h => left_of_and h
theorem contextFetchDone (t : Stamp) (qpn : Nat) (ctx : BitVec 2048) :
    Statement (.contextFetchDone t qpn ctx) :=
  fun h => left_of_and h
theorem partialAsk (t : Stamp) (hdr : BitVec 256) (es : List AskEntry) :
    Statement (.partialAsk t hdr es) :=
  fun h => h
theorem partialBackstopAsk (t : Stamp) (hdr : BitVec 256) (es : List AskEntry) :
    Statement (.partialBackstopAsk t hdr es) :=
  fun h => h
theorem partialRunDone (t : Stamp) (peer : ModuleId) (req layer gFirst : Nat) (sampled : Bool) :
    Statement (.partialRunDone t peer req layer gFirst sampled) :=
  fun h => left_of_and h
theorem partialAnswer (t : Stamp) (src : ModuleId) (hdr : BitVec 256) (es : List AnswerEntry) :
    Statement (.partialAnswer t src hdr es) :=
  fun h => h
theorem settle (t : Stamp) (src : ModuleId) (hdr : BitVec 256) (es : List (BitVec 128)) :
    Statement (.settle t src hdr es) :=
  fun h => h
theorem haulRequest (t : Stamp) (m : HaulMsg) :
    Statement (.haulRequest t m) :=
  fun h => h
theorem haulOffer (t : Stamp) (m : HaulMsg) :
    Statement (.haulOffer t m) :=
  fun h => h
theorem haulAccept (t : Stamp) (m : HaulMsg) :
    Statement (.haulAccept t m) :=
  fun h => h
theorem haulRefuse (t : Stamp) (m : HaulMsg) :
    Statement (.haulRefuse t m) :=
  fun h => h
theorem haulData (t : Stamp) (m : HaulMsg) :
    Statement (.haulData t m) :=
  fun h => h
theorem haulStateWritten (t : Stamp) (haul : Nat) (src : ModuleId) :
    Statement (.haulStateWritten t haul src) :=
  fun h => left_of_and h
theorem haulAck (t : Stamp) (m : HaulMsg) :
    Statement (.haulAck t m) :=
  fun h => h
theorem haulFreed (t : Stamp) (m : HaulMsg) :
    Statement (.haulFreed t m) :=
  fun h => h
theorem haulAbort (t : Stamp) (m : HaulMsg) :
    Statement (.haulAbort t m) :=
  fun h => h
theorem haulTimeout (t : Stamp) (haul : Nat) :
    Statement (.haulTimeout t haul) :=
  fun h => left_of_and h
theorem haulAckRepeat (t : Stamp) (haul : Nat) (src : ModuleId) :
    Statement (.haulAckRepeat t haul src) :=
  fun h => left_of_and h
theorem haulSourceUnreachable (t : Stamp) (haul : Nat) (src : ModuleId) :
    Statement (.haulSourceUnreachable t haul src) :=
  fun h => left_of_and h
theorem freedWaitExpiry (t : Stamp) :
    Statement (.freedWaitExpiry t) :=
  fun h => h
theorem segmentReceive (t : Stamp) (src : ModuleId) (m : SegMsg) :
    Statement (.segmentReceive t src m) :=
  fun h => h
theorem segmentAck (t : Stamp) (conv upto : Nat) :
    Statement (.segmentAck t conv upto) :=
  fun h => left_of_and h
theorem segmentResend (t : Stamp) (conv : Nat) :
    Statement (.segmentResend t conv) :=
  fun h => left_of_and h
theorem checkpointReceive (t : Stamp) (src : ModuleId) (req : Req) (table : Conv) (tick : Nat) :
    Statement (.checkpointReceive t src req table tick) :=
  fun h => h
theorem keeperRefuse (t : Stamp) (conv : Nat) :
    Statement (.keeperRefuse t conv) :=
  fun h => left_of_and h
theorem keeperUnreachable (t : Stamp) (keeper : ModuleId) :
    Statement (.keeperUnreachable t keeper) :=
  fun h => h
theorem keeperFreeNotice (t : Stamp) (conv : Nat) :
    Statement (.keeperFreeNotice t conv) :=
  fun h => left_of_and h
theorem releaseNotice (t : Stamp) (conv fromGroup : Nat) :
    Statement (.releaseNotice t conv fromGroup) :=
  fun h => left_of_and h
theorem stateNotice (t : Stamp) (conv : Nat) (st : ConvState) :
    Statement (.stateNotice t conv st) :=
  fun h => left_of_and h
theorem refcountMessage (t : Stamp) (p : PageRef) (seq : Nat) (up : Bool) :
    Statement (.refcountMessage t p seq up) :=
  fun h => left_of_and (left_of_and h)
theorem replicaCopyAck (t : Stamp) (p : PageRef) (holder : ModuleId) (pageId : Nat) :
    Statement (.replicaCopyAck t p holder pageId) :=
  fun h => left_of_and h
theorem primaryFreeNotice (t : Stamp) (p : PageRef) :
    Statement (.primaryFreeNotice t p) :=
  fun h => left_of_and h
theorem vecAsk (t : Stamp) (hdr : BitVec 256) (es : List VecEntry) :
    Statement (.vecAsk t hdr es) :=
  fun h => h
theorem vecBackstopAsk (t : Stamp) (hdr : BitVec 256) (es : List VecEntry) :
    Statement (.vecBackstopAsk t hdr es) :=
  fun h => h
theorem vecAnswer (t : Stamp) (src : ModuleId) (hdr : BitVec 256) (es : List VecEntry) :
    Statement (.vecAnswer t src hdr es) :=
  fun h => h
theorem vecSegmentReceive (t : Stamp) (seg : VecSeg) :
    Statement (.vecSegmentReceive t seg) :=
  fun h => h
theorem moveCopyDone (t : Stamp) (move : Nat) (sound : Bool) :
    Statement (.moveCopyDone t move sound) :=
  fun h => h
theorem demotionIdle (t : Stamp) (p : PageRef) :
    Statement (.demotionIdle t p) :=
  fun h => left_of_and h
theorem pressureDemotion (t : Stamp) (bench : Nat) (tier : Tier) (freePm : Nat) :
    Statement (.pressureDemotion t bench tier freePm) :=
  fun h => left_of_and h
theorem repairMoveDone (t : Stamp) (p : PageRef) (key value : Block) :
    Statement (.repairMoveDone t p key value) :=
  fun h => left_of_and h
theorem flashReadDone (t : Stamp) (readId cls : Nat) (sound : Bool) :
    Statement (.flashReadDone t readId cls sound) :=
  fun h => h
theorem flashReadDeadline (t : Stamp) (readId : Nat) :
    Statement (.flashReadDeadline t readId) :=
  fun h => h
theorem flashProgramDone (t : Stamp) (writeId : Nat) :
    Statement (.flashProgramDone t writeId) :=
  fun h => h
theorem flashProgramFail (t : Stamp) (block : Nat) :
    Statement (.flashProgramFail t block) :=
  fun h => h
theorem flashEraseFail (t : Stamp) (block : Nat) :
    Statement (.flashEraseFail t block) :=
  fun h => h
theorem readDisturbRelocate (t : Stamp) (block : Nat) :
    Statement (.readDisturbRelocate t block) :=
  fun h => h
theorem retentionRewrite (t : Stamp) (block : Nat) :
    Statement (.retentionRewrite t block) :=
  fun h => h
theorem wearLevel (t : Stamp) (block : Nat) :
    Statement (.wearLevel t block) :=
  fun h => h
theorem garbageCollect (t : Stamp) (block : Nat) :
    Statement (.garbageCollect t block) :=
  fun h => h
theorem flashWriteHold (t : Stamp) :
    Statement (.flashWriteHold t) :=
  fun h => h
theorem relistDone (t : Stamp) :
    Statement (.relistDone t) :=
  fun h => h
theorem patrolScrub (t : Stamp) (tier : Tier) :
    Statement (.patrolScrub t tier) :=
  fun h => h
theorem correctedError (t : Stamp) (tier : Tier) (u : UnitId) (frame : Nat) :
    Statement (.correctedError t tier u frame) :=
  fun h => left_of_and h
theorem uncorrectableError (t : Stamp) (tier : Tier) (u : UnitId) (frame : Nat) (use : LineUse) :
    Statement (.uncorrectableError t tier u frame use) :=
  fun h => left_of_and h
theorem zqCalibration (t : Stamp) :
    Statement (.zqCalibration t) :=
  fun h => h
theorem fitDone (t : Stamp) (p : PageRef) (isValue : Bool) (fit : Option Block) :
    Statement (.fitDone t p isValue fit) :=
  fun h => left_of_and h
theorem blockReject (t : Stamp) (p : PageRef) (isValue : Bool) (cause : Nat) :
    Statement (.blockReject t p isValue cause) :=
  fun h => left_of_and h
theorem weightBlockReject (t : Stamp) (bench tile cause : Nat) :
    Statement (.weightBlockReject t bench tile cause) :=
  fun h => left_of_and h
theorem weightReloadDone (t : Stamp) (bench tile : Nat) (copy : Block) :
    Statement (.weightReloadDone t bench tile copy) :=
  fun h => left_of_and h
theorem shadowRecheckDone (t : Stamp) (item : Nat) (original found : ItemResult) :
    Statement (.shadowRecheckDone t item original found) :=
  fun h => h
theorem arbitrationDone (t : Stamp) (item : Nat) (found : ItemResult) :
    Statement (.arbitrationDone t item found) :=
  fun h => h
theorem coreWatchdog (t : Stamp) (core : Nat) :
    Statement (.coreWatchdog t core) :=
  fun h => left_of_and h
theorem planWatchdog (t : Stamp) :
    Statement (.planWatchdog t) :=
  fun h => h
theorem restartWatchdog (t : Stamp) (otherSlotOk : Bool) :
    Statement (.restartWatchdog t otherSlotOk) :=
  fun h => h
theorem bootWatchdog (t : Stamp) :
    Statement (.bootWatchdog t) :=
  fun h => h
theorem coreException (t : Stamp) (core : Nat) :
    Statement (.coreException t core) :=
  fun h => left_of_and h
theorem firmwareReady (t : Stamp) :
    Statement (.firmwareReady t) :=
  fun h => h
theorem trialCommit (t : Stamp) :
    Statement (.trialCommit t) :=
  fun h => h
theorem hitlessActivation (t : Stamp) :
    Statement (.hitlessActivation t) :=
  fun h => h
theorem inputRise (t : Stamp) (mv : Nat) :
    Statement (.inputRise t mv) :=
  fun h => h
theorem planStable (t : Stamp) :
    Statement (.planStable t) :=
  fun h => h
theorem inputUndervoltage (t : Stamp) (mv : Nat) :
    Statement (.inputUndervoltage t mv) :=
  fun h => h
theorem inputOutOfRange (t : Stamp) (mv : Nat) :
    Statement (.inputOutOfRange t mv) :=
  fun h => h
theorem resetN (t : Stamp) (lowNs : Nat) :
    Statement (.resetN t lowNs) :=
  fun h => h
theorem perst (t : Stamp) :
    Statement (.perst t) :=
  fun h => h
theorem perstRelease (t : Stamp) :
    Statement (.perstRelease t) :=
  fun h => h
theorem flowLoss (t : Stamp) :
    Statement (.flowLoss t) :=
  fun h => h
theorem flowRestore (t : Stamp) :
    Statement (.flowRestore t) :=
  fun h => h
theorem tjThrottle (t : Stamp) (tile deciC : Nat) :
    Statement (.tjThrottle t tile deciC) :=
  fun h => left_of_and h
theorem currentLimit (t : Stamp) (tile : Nat) :
    Statement (.currentLimit t tile) :=
  fun h => left_of_and h
theorem droop (t : Stamp) (tile : Nat) :
    Statement (.droop t tile) :=
  fun h => left_of_and h
theorem overrideEnd (t : Stamp) (tile : Nat) (cause : OvCause) :
    Statement (.overrideEnd t tile cause) :=
  fun h => left_of_and h
theorem thermalShutdown (t : Stamp) (tile : Nat) :
    Statement (.thermalShutdown t tile) :=
  fun h => left_of_and h
theorem restRequest (t : Stamp) (fn : Fn) :
    Statement (.restRequest t fn) :=
  fun h => left_of_and h
theorem restEntry (t : Stamp) :
    Statement (.restEntry t) :=
  fun h => h
theorem restEntryComplete (t : Stamp) :
    Statement (.restEntryComplete t) :=
  fun h => h
theorem watchSample (t : Stamp) (inletDeciC tjDeciC mv : Nat) :
    Statement (.watchSample t inletDeciC tjDeciC mv) :=
  fun h => h
theorem wakeComplete (t : Stamp) :
    Statement (.wakeComplete t) :=
  fun h => h
theorem keepEnter (c : MgmtCmd) :
    Statement (.keepEnter c) :=
  fun h => h
theorem rlKeepCtrlEnter (t : Stamp) (fn : Fn) :
    Statement (.rlKeepCtrlEnter t fn) :=
  fun h => left_of_and h
theorem readoutList (t : Stamp) (fn : Fn) :
    Statement (.readoutList t fn) :=
  fun h => left_of_and h
theorem readoutConv (t : Stamp) (fn : Fn) :
    Statement (.readoutConv t fn) :=
  fun h => left_of_and h
theorem readoutDone (t : Stamp) :
    Statement (.readoutDone t) :=
  fun h => h
theorem pwResetCtrlWarm (t : Stamp) (fn : Fn) :
    Statement (.pwResetCtrlWarm t fn) :=
  fun h => left_of_and h
theorem setupLockWrite (t : Stamp) (fn : Fn) (value : Word) :
    Statement (.setupLockWrite t fn value) :=
  fun h => left_of_and h
theorem bnSetupLockWrite (t : Stamp) (fn : Fn) (bench : Nat) (value : Word) :
    Statement (.bnSetupLockWrite t fn bench value) :=
  fun h => left_of_and (left_of_and h)
theorem tkNowOffsetRead (t : Stamp) :
    Statement (.tkNowOffsetRead t) :=
  fun h => h
theorem cqDisable (t : Stamp) (fn : Fn) (bench : Nat) :
    Statement (.cqDisable t fn bench) :=
  fun h => left_of_and (left_of_and h)
theorem ringErrOverrunClear (t : Stamp) (fn : Fn) (bench : Nat) (value : Word) :
    Statement (.ringErrOverrunClear t fn bench value) :=
  fun h => left_of_and (left_of_and h)
theorem pwOverrideClear (t : Stamp) (fn : Fn) (value : Word) :
    Statement (.pwOverrideClear t fn value) :=
  fun h => left_of_and h
theorem scKeyCtrlErase (t : Stamp) (fn : Fn) (value : Word) :
    Statement (.scKeyCtrlErase t fn value) :=
  fun h => left_of_and h
theorem registerWrite (t : Stamp) (fn : Fn) (off : Nat) (value : Word) :
    Statement (.registerWrite t fn off value) :=
  fun h => left_of_and h
theorem flr (t : Stamp) (fn : Fn) :
    Statement (.flr t fn) :=
  fun h => left_of_and h
theorem vfEnableChange (t : Stamp) (enable : Bool) (numVfs : Nat) :
    Statement (.vfEnableChange t enable numVfs) :=
  fun h => h
theorem ptmDialogue (t : Stamp) (h : Nat) :
    Statement (.ptmDialogue t h) :=
  fun h => h
theorem ideFailure (t : Stamp) (stream : Nat) (tlpOnly : Bool) :
    Statement (.ideFailure t stream tlpOnly) :=
  fun h => left_of_and h
theorem completionInterrupt (t : Stamp) (bench : Nat) :
    Statement (.completionInterrupt t bench) :=
  fun h => left_of_and h
theorem completionRecordDrain (t : Stamp) (bench consumer : Nat) :
    Statement (.completionRecordDrain t bench consumer) :=
  fun h => left_of_and h
theorem mctpControl (t : Stamp) (transport : Transport) (code : Nat) (eid : Nat) :
    Statement (.mctpControl t transport code eid) :=
  fun h => h
theorem readRegs (c : MgmtCmd) (off bytes : Nat) :
    Statement (.readRegs c off bytes) :=
  fun h => h
theorem readLog (c : MgmtCmd) (seq : Nat) :
    Statement (.readLog c seq) :=
  fun h => h
theorem readMeter (c : MgmtCmd) (seq : Nat) :
    Statement (.readMeter c seq) :=
  fun h => h
theorem stageBench (c : MgmtCmd) (epoch : Nat) (record : BitVec 1024) :
    Statement (.stageBench c epoch record) :=
  fun h => left_of_and h
theorem stageRoute (c : MgmtCmd) (epoch first : Nat) (es : List Word) :
    Statement (.stageRoute c epoch first es) :=
  fun h => left_of_and h
theorem stageExport (c : MgmtCmd) (epoch : Nat) (region : BitVec 256) :
    Statement (.stageExport c epoch region) :=
  fun h => left_of_and h
theorem stageRackmap (c : MgmtCmd) (epoch : Nat) (slots : List ModuleId) :
    Statement (.stageRackmap c epoch slots) :=
  fun h => left_of_and h
theorem stageEvac (c : MgmtCmd) (epoch bench : Nat) (target : ModuleId) (targetBench : Nat) :
    Statement (.stageEvac c epoch bench target targetBench) :=
  fun h => left_of_and (left_of_and (left_of_and h))
theorem sealEpoch (c : MgmtCmd) (epoch s : Nat) :
    Statement (.sealEpoch c epoch s) :=
  fun h => left_of_and h
theorem discardStage (c : MgmtCmd) (epoch : Nat) :
    Statement (.discardStage c epoch) :=
  fun h => left_of_and h
theorem setSigPolicy (c : MgmtCmd) (bench : Nat) (require : Bool) (keyHash : BitVec 256) :
    Statement (.setSigPolicy c bench require keyHash) :=
  fun h => left_of_and h
theorem clearQuarantine (c : MgmtCmd) (u : UnitId) :
    Statement (.clearQuarantine c u) :=
  fun h => left_of_and h
theorem keyErase (c : MgmtCmd) (bench : Nat) :
    Statement (.keyErase c bench) :=
  fun h => left_of_and h
theorem mgResetWarm (c : MgmtCmd) :
    Statement (.mgResetWarm c) :=
  fun h => h
theorem mgResetCold (c : MgmtCmd) :
    Statement (.mgResetCold c) :=
  fun h => h
theorem restEnter (c : MgmtCmd) :
    Statement (.restEnter c) :=
  fun h => h
theorem sensorUpdate (t : Stamp) (readings : List (Nat × Int)) :
    Statement (.sensorUpdate t readings) :=
  fun h => h
theorem getPdr (t : Stamp) (transport : Transport) (record : Nat) :
    Statement (.getPdr t transport record) :=
  fun h => h
theorem getPdrRepositoryInfo (t : Stamp) (transport : Transport) :
    Statement (.getPdrRepositoryInfo t transport) :=
  fun h => h
theorem getSensorReading (t : Stamp) (transport : Transport) (sensor : Nat) :
    Statement (.getSensorReading t transport sensor) :=
  fun h => h
theorem getStateSensorReadings (t : Stamp) (transport : Transport) (sensor : Nat) :
    Statement (.getStateSensorReadings t transport sensor) :=
  fun h => h
theorem setNumericSensorEnable (t : Stamp) (transport : Transport) (sensor : Nat) (enable : Bool) :
    Statement (.setNumericSensorEnable t transport sensor enable) :=
  fun h => h
theorem setEventReceiver (t : Stamp) (transport : Transport) (eid : Nat) :
    Statement (.setEventReceiver t transport eid) :=
  fun h => h
theorem queryDeviceIdentifiers (t : Stamp) (transport : Transport) :
    Statement (.queryDeviceIdentifiers t transport) :=
  fun h => h
theorem getFirmwareParameters (t : Stamp) (transport : Transport) :
    Statement (.getFirmwareParameters t transport) :=
  fun h => h
theorem requestUpdate (t : Stamp) (transport : Transport) :
    Statement (.requestUpdate t transport) :=
  fun h => h
theorem passComponentTable (t : Stamp) (transport : Transport) (components : List Nat) :
    Statement (.passComponentTable t transport components) :=
  fun h => h
theorem updateComponent (t : Stamp) (transport : Transport) (component size : Nat) :
    Statement (.updateComponent t transport component size) :=
  fun h => h
theorem firmwareData (t : Stamp) (transport : Transport) (off len : Nat) (image : Option Image) :
    Statement (.firmwareData t transport off len image) :=
  fun h => h
theorem activateFirmware (t : Stamp) (transport : Transport) :
    Statement (.activateFirmware t transport) :=
  fun h => h
theorem getStatus (t : Stamp) (transport : Transport) :
    Statement (.getStatus t transport) :=
  fun h => h
theorem cancelUpdateComponent (t : Stamp) (transport : Transport) :
    Statement (.cancelUpdateComponent t transport) :=
  fun h => h
theorem cancelUpdate (t : Stamp) (transport : Transport) :
    Statement (.cancelUpdate t transport) :=
  fun h => h
theorem getVersion (t : Stamp) (transport : Transport) :
    Statement (.getVersion t transport) :=
  fun h => h
theorem getCapabilities (t : Stamp) (transport : Transport) :
    Statement (.getCapabilities t transport) :=
  fun h => h
theorem negotiateAlgorithms (t : Stamp) (transport : Transport) (offers : List SpdmAlg) :
    Statement (.negotiateAlgorithms t transport offers) :=
  fun h => h
theorem getDigests (t : Stamp) (transport : Transport) :
    Statement (.getDigests t transport) :=
  fun h => h
theorem getCertificate (t : Stamp) (transport : Transport) (slot off len : Nat) :
    Statement (.getCertificate t transport slot off len) :=
  fun h => h
theorem challenge (t : Stamp) (transport : Transport) (slot nonce : Nat) :
    Statement (.challenge t transport slot nonce) :=
  fun h => h
theorem getMeasurements (t : Stamp) (transport : Transport) (index : Nat) :
    Statement (.getMeasurements t transport index) :=
  fun h => h
theorem keyExchange (t : Stamp) (transport : Transport) :
    Statement (.keyExchange t transport) :=
  fun h => h
theorem finish (t : Stamp) (transport : Transport) (session : Nat) (macOk : Bool) :
    Statement (.finish t transport session macOk) :=
  fun h => h
theorem heartbeat (t : Stamp) (transport : Transport) (session : Nat) :
    Statement (.heartbeat t transport session) :=
  fun h => h
theorem keyUpdate (t : Stamp) (transport : Transport) (session : Nat) :
    Statement (.keyUpdate t transport session) :=
  fun h => h
theorem endSession (t : Stamp) (transport : Transport) (session : Nat) :
    Statement (.endSession t transport session) :=
  fun h => h
theorem ideKm (t : Stamp) (session stream : Nat) (rids : List Fn) (key : Bool) :
    Statement (.ideKm t session stream rids key) :=
  fun h => left_of_and h
theorem holdoverEntry (t : Stamp) :
    Statement (.holdoverEntry t) :=
  fun h => h
theorem inputInRange (t : Stamp) (mv : Nat) :
    Statement (.inputInRange t mv) :=
  fun h => h
theorem resetNRelease (t : Stamp) :
    Statement (.resetNRelease t) :=
  fun h => h
theorem startUpRowDone (t : Stamp) (row : Nat) (imageOk otherOk : Bool) :
    Statement (.startUpRowDone t row imageOk otherOk) :=
  fun h => h
theorem checkpointAck (t : Stamp) (req tick : Nat) :
    Statement (.checkpointAck t req tick) :=
  fun h => left_of_and h
theorem replicaCopyReceive (t : Stamp) (src : ModuleId) (p : PageRef) (e : Entry) (sound : Bool) :
    Statement (.replicaCopyReceive t src p e sound) :=
  fun h => left_of_and h
theorem replicaDropNotice (t : Stamp) (p : PageRef) (holder : ModuleId) :
    Statement (.replicaDropNotice t p holder) :=
  fun h => left_of_and h
theorem newHomeNotice (t : Stamp) (conv : Nat) (home : ModuleId) :
    Statement (.newHomeNotice t conv home) :=
  fun h => left_of_and h
theorem keeperLogRead (t : Stamp) (conv : Nat) (home : ModuleId) (homeBench : Nat) (restore : Bool) :
    Statement (.keeperLogRead t conv home homeBench restore) :=
  fun h => left_of_and (left_of_and h)

end Sys2Proof.Laws.Stamped
end

