-- ==== Sys2Proof/Laws/Settle.lean ====
section
/-! SUPPORT. What follows a commit-acting descriptor when nothing else waits: its own record and nothing more. -/

namespace Sys2Proof.Machine

theorem at_quiet {s : State} (t : Stamp) (h : quiet s) : quiet (s.at t) := h

theorem atLanding_quiet {s : State} (d : HostDesc) (h : quiet s) : quiet (atLanding s d) := h

/-- A row a table answers with stands in it. -/
theorem mem_of_tget {α : Type} {l : List (Nat × α)} {k : Nat} {x : α} (h : tget l k = some x) : (k, x) ∈ l := by
  induction l with
  | nil => cases h
  | cons a l ih =>
    obtain ⟨b, y⟩ := a
    simp only [tget] at h
    split at h
    · rename_i e
      cases h
      simp_all
    · exact List.mem_cons_of_mem _ (ih h)

/-- No waiting token record: nothing is written for any request. -/
theorem writeWaitToks_none {s : State} (n k : Nat) (h : ∀ x ∈ s.work.reqs, x.2.waitTok = []) : writeWaitToks s n k = s := by
  unfold writeWaitToks
  cases hr : req s k with
  | none => rfl
  | some r =>
    have hm : (k, r) ∈ s.work.reqs := mem_of_tget hr
    have hw : r.waitTok = [] := h _ hm
    simp [hw]

/-- A quiet state has nothing to write at step 3. -/
theorem writeWaiting_none {s : State} (n : Nat) (h1 : s.work.finals = []) (h2 : s.work.finalDue = [])
    (h3 : s.work.holds = []) (h4 : ∀ x ∈ s.work.reqs, x.2.waitTok = []) : writeWaiting n s = s := by
  have hf : ∀ l : List (Nat × Req), l.foldl (fun s x => writeWaitToks s n x.1) s = s := by
    intro l
    induction l with
    | nil => rfl
    | cons a l ih => rw [List.foldl_cons, writeWaitToks_none n _ h4, ih]
  unfold writeWaiting
  rw [hf]
  simp only [h1, h2, List.append_nil, writeFinals, List.foldl_nil, writeHolds]
  rw [h3]
  simp only [List.foldl_nil]
  cases s with
  | mk stock time bar host benches work plan haul tier shards fab win fw fault sec pwr mgmt out spent fresh pending =>
    cases work
    simp only at h1 h2 h3
    subst h1 h2 h3
    rfl

/-- No stream record among what was put out: nothing more follows. -/
theorem closeStreams_none {s0 s : State} (h : ∀ o ∈ s.out.drop s0.out.length, (∀ a b c d, o ≠ .token a b c d) ∧
    ∀ a b c d e, o ≠ .probe a b c d e) : closeStreams s0 s = s := by
  unfold closeStreams
  dsimp only
  generalize hr : List.filterMap _ (s.out.drop s0.out.length) = rings
  have e : rings = [] := by
    rw [← hr, List.filterMap_eq_nil_iff]
    intro o ho
    obtain ⟨h1, h2⟩ := h o ho
    cases o with
    | token a b c d => exact absurd rfl (h1 a b c d)
    | probe a b c d e => exact absurd rfl (h2 a b c d e)
    | _ => rfl
  subst e
  simp

/-- No park waits. -/
theorem actParks_none {s : State} (n : Nat) (h : s.work.parks = []) : actParks s n = s := by
  unfold actParks
  rw [h]
  cases s with
  | mk stock time bar host benches work plan haul tier shards fab win fw fault sec pwr mgmt out spent fresh pending =>
    cases work
    simp only at h
    subst h
    rfl

/-- What follows an effect that leaves nothing waiting but completion records: those records. -/
theorem settle_quiet {s v : State} {n : Nat} {f : State → State} (hf : f s = v) (h1 : v.work.finals = [])
    (h2 : v.work.finalDue = []) (h3 : v.work.holds = []) (h4 : v.work.parks = [])
    (h5 : ∀ x ∈ v.work.reqs, x.2.waitTok = [])
    (h6 : ∀ o ∈ v.out.drop s.out.length, (∀ a b c d, o ≠ .token a b c d) ∧ ∀ a b c d e, o ≠ .probe a b c d e) :
    settle n f s = flushDue v := by
  unfold settle
  rw [hf, writeWaiting_none n h1 h2 h3 h5, closeStreams_none h6, actParks_none n h4]

/-- One record due is that record written. -/
theorem flushDue_due {s : State} (h : s.host.due = []) (c : Cpl) (st : Status) (result n result2 : Nat) :
    flushDue (due s c st result n result2) = complete s c st result n result2 := by
  cases s with
  | mk stock time bar host benches work plan haul tier shards fab win fw fault sec pwr mgmt out spent fresh pending =>
    cases host
    simp only at h
    subst h
    rfl

/-- No record due. -/
theorem flushDue_none {s : State} (h : s.host.due = []) : flushDue s = s := by
  cases s with
  | mk stock time bar host benches work plan haul tier shards fab win fw fault sec pwr mgmt out spent fresh pending =>
    cases host
    simp only at h
    subst h
    rfl

/-- A descriptor that meets its commit has its effect there. -/
theorem hostRow_meets {o : Nat} {f : Cpl → HostDesc → Nat → State → State} {d : HostDesc} {s : State}
    (h0 : s.pwr.off = false) (ha : meetsCommit s d = true) :
    hostRow o f d s = .next (settle (commitOf s d.stamp) (applyDesc o f d (commitOf s d.stamp)) (atLanding s d)) := by
  unfold hostRow
  rw [run_on h0]
  exact congrArg _ (if_pos ha)

/-- A descriptor that does not meet its commit waits for it (R34). -/
theorem hostRow_lands {o : Nat} {f : Cpl → HostDesc → Nat → State → State} {d : HostDesc} {s : State}
    (h0 : s.pwr.off = false) (ha : meetsCommit s d = false) :
    hostRow o f d s = .next (landDesc d (atLanding s d)) := by
  unfold hostRow
  rw [run_on h0]
  exact congrArg _ (if_neg (ne_true_of_eq_false ha))

/-- A descriptor whose effect leaves a quiet state with one record due. -/
theorem hostRow_due {o : Nat} {f : Cpl → HostDesc → Nat → State → State} {d : HostDesc} {s v : State} {st : Status}
    {result result2 : Nat} (h0 : s.pwr.off = false) (ha : meetsCommit s d = true)
    (hg : gate s d o (commitOf s d.stamp) = none) (hv : quiet v)
    (hf : f (cplOf s d) d (commitOf s d.stamp) (atLanding s d) =
      due v (cplOf s d) st result (commitOf s d.stamp) result2)
    (ho : ∀ o ∈ v.out.drop s.out.length, (∀ a b c d, o ≠ .token a b c d) ∧ ∀ a b c d e, o ≠ .probe a b c d e) :
    hostRow o f d s = .next (complete v (cplOf s d) st result (commitOf s d.stamp) result2) := by
  obtain ⟨a1, a2, a3, a4, a5, a6⟩ := hv
  rw [hostRow_meets h0 ha]
  have e : applyDesc o f d (commitOf s d.stamp) (atLanding s d) =
      due v (cplOf s d) st result (commitOf s d.stamp) result2 := by
    have hg' : gate (atLanding s d) d o (commitOf s d.stamp) = none := hg
    have hc : cplOf (atLanding s d) d = cplOf s d := rfl
    unfold applyDesc applyWith
    rw [hg', hc]
    exact hf
  rw [settle_quiet e a1 a2 a3 a4 a6 ho, flushDue_due a5]

/-- A descriptor whose effect leaves a quiet state and no record. -/
theorem hostRow_plain {o : Nat} {f : Cpl → HostDesc → Nat → State → State} {d : HostDesc} {s v : State}
    (h0 : s.pwr.off = false) (ha : meetsCommit s d = true)
    (hg : gate s d o (commitOf s d.stamp) = none) (hv : quiet v)
    (hf : f (cplOf s d) d (commitOf s d.stamp) (atLanding s d) = v)
    (ho : ∀ o ∈ v.out.drop s.out.length, (∀ a b c d, o ≠ .token a b c d) ∧ ∀ a b c d e, o ≠ .probe a b c d e) :
    hostRow o f d s = .next v := by
  obtain ⟨a1, a2, a3, a4, a5, a6⟩ := hv
  rw [hostRow_meets h0 ha]
  have e : applyDesc o f d (commitOf s d.stamp) (atLanding s d) = v := by
    have hg' : gate (atLanding s d) d o (commitOf s d.stamp) = none := hg
    have hc : cplOf (atLanding s d) d = cplOf s d := rfl
    unfold applyDesc applyWith
    rw [hg', hc]
    exact hf
  rw [settle_quiet e a1 a2 a3 a4 a6 ho, flushDue_none a5]

/-- A descriptor its gate turns away completes with that status and has no other effect. -/
theorem hostRow_gated {o : Nat} {f : Cpl → HostDesc → Nat → State → State} {d : HostDesc} {s : State} {st : Status}
    (h0 : s.pwr.off = false) (ha : meetsCommit s d = true)
    (hg : gate s d o (commitOf s d.stamp) = some st) (hq : quiet s) :
    hostRow o f d s = .next (complete (atLanding s d) (cplOf s d) st 0 (commitOf s d.stamp)) := by
  obtain ⟨a1, a2, a3, a4, a5, a6⟩ := hq
  rw [hostRow_meets h0 ha]
  have hg' : gate (atLanding s d) d o (commitOf s d.stamp) = some st := hg
  have e : applyDesc o f d (commitOf s d.stamp) (atLanding s d) =
      due (atLanding s d) (cplOf s d) st 0 (commitOf s d.stamp) := by
    unfold applyDesc applyWith
    rw [hg']
    rfl
  have ho : ∀ o ∈ (due (atLanding s d) (cplOf s d) st 0 (commitOf s d.stamp)).out.drop (atLanding s d).out.length,
      (∀ a b c d, o ≠ .token a b c d) ∧ ∀ a b c d e, o ≠ .probe a b c d e := by
    intro o ho
    have : (due (atLanding s d) (cplOf s d) st 0 (commitOf s d.stamp)).out = (atLanding s d).out := rfl
    rw [this, List.drop_length] at ho
    cases ho
  have q : (atLanding s d).host.due = [] := a5
  rw [settle_quiet e a1 a2 a3 a4 a6 ho, flushDue_due q]

end Sys2Proof.Machine
end

