-- ==== Sys2Proof/Laws/Requests.lean ====
section
/-! SUPPORT. What the shared operations on conversations and requests do to the tables and to what is put out. -/

namespace Sys2Proof.Machine

/-- What was put out since `s` holds no stream record. -/
def noStream (s v : State) : Prop :=
  ∀ o ∈ v.out.drop s.out.length, (∀ a b c d, o ≠ .token a b c d) ∧ ∀ a b c d e, o ≠ .probe a b c d e

/-- What was put out since `s` follows what `s` had put out, and holds no stream record. -/
def addsPlain (s v : State) : Prop :=
  ∃ l, v.out = s.out ++ l ∧ ∀ o ∈ l, (∀ a b c d, o ≠ .token a b c d) ∧ ∀ a b c d e, o ≠ .probe a b c d e

theorem addsPlain.noStream {s v : State} (h : addsPlain s v) : noStream s v := by
  obtain ⟨l, h, hl⟩ := h
  intro o ho
  rw [h, List.drop_left] at ho
  exact hl o ho

theorem addsPlain.refl (s : State) : addsPlain s s := ⟨[], by simp, fun _ h => nomatch h⟩

theorem addsPlain.of_eq {s v : State} (h : v.out = s.out) : addsPlain s v := ⟨[], by simp [h], fun _ h => nomatch h⟩

theorem addsPlain.trans {s t u : State} (h1 : addsPlain s t) (h2 : addsPlain t u) : addsPlain s u := by
  obtain ⟨l, h, hl⟩ := h1
  obtain ⟨k, g, gk⟩ := h2
  refine ⟨l ++ k, by simp [g, h], fun o ho => ?_⟩
  rcases List.mem_append.mp ho with x | x
  · exact hl o x
  · exact gk o x

theorem addsPlain.keep {s t u : State} (h1 : addsPlain s t) (h2 : u.out = t.out) : addsPlain s u :=
  h1.trans (.of_eq h2)

theorem addsPlain_foldl {α : Type} {l : List α} {f : State → α → State} (hf : ∀ s x, addsPlain s (f s x)) (s : State) :
    addsPlain s (l.foldl f s) := by
  induction l generalizing s with
  | nil => exact .refl s
  | cons a l ih => exact (hf s a).trans (ih _)

/-! ## Messages -/

theorem send_addsPlain (s : State) (dst : ModuleId) (b : Option Nat) (m : Msg) : addsPlain s (send s dst b m) := by
  refine ⟨[.send dst b m], send_out s dst b m, fun o h => ?_⟩
  obtain rfl := List.mem_singleton.mp h
  exact ⟨by simp, by simp⟩

/-! ## The state of a conversation -/

theorem makeReady_out (s : State) (p : PageRef) (dst : Tier) (cause : Stamp) : (makeReady s p dst cause).out = s.out := by
  exact (makeReady_frame (pm := [.tier]) (Frame.refl s) (by decide)).out

theorem promoteToFloor_frame1 (s : State) (k : Nat) (cause : Stamp) : Frame [.tier] s (promoteToFloor s k cause) :=
  promoteToFloor_frame (Frame.refl s) (by decide)

theorem promoteToFloor_addsPlain (s : State) (k : Nat) (cause : Stamp) : addsPlain s (promoteToFloor s k cause) :=
  .of_eq (promoteToFloor_frame1 s k cause).out

theorem foldl_send_work {α : Type} (l : List α) (s : State) (d : α → ModuleId) (b : Option Nat) (m : α → Msg) :
    (l.foldl (fun s h => send s (d h) b (m h)) s).work = s.work := by
  induction l generalizing s with
  | nil => rfl
  | cons a l ih => rw [List.foldl_cons, ih, send_work]

/-- Changing a conversation's state changes that field alone among requests and conversations. -/
theorem setConvState_work {s : State} {k : Nat} {c : Conv} (st : ConvState) (h : conv s k = some c) :
    (setConvState s k st).work = if c.state = st then s.work else (putConv s { c with state := st }).work := by
  unfold setConvState
  rw [h]
  dsimp only
  split
  · rfl
  · rw [(promoteToFloor_frame1 _ _ _).work, foldl_send_work]

theorem setConvState_addsPlain (s : State) (k : Nat) (st : ConvState) : addsPlain s (setConvState s k st) := by
  cases h : conv s k with
  | none =>
    simp only [setConvState, h]
    exact .refl s
  | some c =>
    simp only [setConvState, h]
    split
    · exact .refl s
    · exact (addsPlain.trans (.of_eq (v := putConv s { c with state := st }) rfl)
        (addsPlain_foldl (fun s _ => send_addsPlain s _ _ _) _)).trans (promoteToFloor_addsPlain _ _ _)

/-- The frame of a change of a conversation's state. -/
theorem setConvState_frame1 (s : State) (k : Nat) (st : ConvState) :
    Frame [.work, .tier, .out, .spent] s (setConvState s k st) :=
  setConvState_frame (Frame.refl s) (by decide) (by decide) (by decide) (by decide)

/-- The conversation itself after its state changed. -/
theorem setConvState_conv {s : State} {k : Nat} {c : Conv} (st : ConvState) (h : conv s k = some c) (hk : c.key = k) :
    conv (setConvState s k st) k = some { c with state := st } := by
  unfold conv
  rw [setConvState_work st h]
  split
  · rename_i e
    subst e
    exact h
  · simp [putConv, hk]

theorem setConvState_reqs (s : State) (k : Nat) (st : ConvState) : (setConvState s k st).work.reqs = s.work.reqs := by
  cases h : conv s k with
  | none => simp [setConvState, h]
  | some c =>
    rw [setConvState_work st h]
    split <;> rfl

theorem quiet_of {s v : State} (h : quiet s) (hh : v.host.due = s.host.due) (h1 : v.work.finals = s.work.finals)
    (h2 : v.work.finalDue = s.work.finalDue) (h3 : v.work.holds = s.work.holds) (h4 : v.work.parks = s.work.parks)
    (h5 : ∀ x ∈ v.work.reqs, x ∈ s.work.reqs ∨ x.2.waitTok = []) : quiet v := by
  obtain ⟨a1, a2, a3, a4, a5, a6⟩ := h
  exact ⟨h1.trans a1, h2.trans a2, h3.trans a3, h4.trans a4, hh.trans a5, fun x hx => (h5 x hx).elim (a6 x) id⟩

theorem setConvState_quiet {s : State} (k : Nat) (st : ConvState) (h : quiet s) : quiet (setConvState s k st) := by
  cases hc : conv s k with
  | none => simpa [setConvState, hc] using h
  | some c =>
    have hw := setConvState_work st hc
    refine quiet_of h (congrArg HostSt.due (setConvState_frame1 s k st).host) ?_ ?_ ?_ ?_ ?_
    all_goals rw [hw]; split
    all_goals first | rfl | exact fun x hx => .inl hx

end Sys2Proof.Machine
end

