-- ==== Sys2Proof/Tests/Slice0.lean ====
section
/-! SUPPORT. The author's own tests: ill-formed commands refused, and for every statement with hypotheses a named theorem
whose concrete states and operands meet them, clause by clause. -/

namespace Sys2Proof.Tests

set_option Elab.async false

open Sys2Proof.Machine

/-! ## Well-formedness: one ill-formed term for each check -/

def someDesc : HostDesc := { stamp := ⟨0, 0⟩, ring := 0, index := 0, raw := 0 }

theorem test_refuses_tick : (Instr.commit ⟨2 ^ 64, 0⟩).wellFormed = false := by decide
theorem test_refuses_offset : (Instr.commit ⟨0, 2 ^ 32⟩).wellFormed = false := by decide
theorem test_refuses_bench : (Instr.drainLimitExpiry ⟨0, 0⟩ 16).wellFormed = false := by decide
theorem test_refuses_function : (Instr.flr ⟨0, 0⟩ (.vf 16)).wellFormed = false := by decide
theorem test_refuses_ring : (Instr.doorbell ⟨0, 0⟩ .pf 256 0 4 0).wellFormed = false := by decide
theorem test_refuses_link : (Instr.trainingRetry ⟨0, 0⟩ 96).wellFormed = false := by decide
theorem test_refuses_tile : (Instr.droop ⟨0, 0⟩ 8).wellFormed = false := by decide
theorem test_refuses_key : (Instr.deadlineExpiry ⟨0, 0⟩ (2 ^ 64)).wellFormed = false := by decide
theorem test_refuses_key32 : (Instr.haulTimeout ⟨0, 0⟩ (2 ^ 32)).wellFormed = false := by decide
theorem test_refuses_epoch :
    (Instr.discardStage ⟨⟨0, 0⟩, .i3c, false, 0⟩ (2 ^ 16)).wellFormed = false := by decide
theorem test_refuses_tally : (Instr.tallyRefill ⟨0, 0⟩ 4096).wellFormed = false := by decide
theorem test_refuses_qpn : (Instr.wAckDeferred ⟨0, 0⟩ (2 ^ 20)).wellFormed = false := by decide
theorem test_refuses_core : (Instr.coreWatchdog ⟨0, 0⟩ 16).wellFormed = false := by decide
theorem test_refuses_stream : (Instr.ideFailure ⟨0, 0⟩ 8 true).wellFormed = false := by decide
theorem test_refuses_page : (Instr.demotionIdle ⟨0, 0⟩ ⟨0, 16384, 0, 0⟩).wellFormed = false := by decide
theorem test_refuses_unit :
    (Instr.correctedError ⟨0, 0⟩ .hbm ⟨.hbm, 2 ^ 16⟩ 0).wellFormed = false := by decide
theorem test_refuses_descriptor_ring : (Instr.nop { someDesc with ring := 256 }).wellFormed = false := by decide
theorem test_refuses_descriptor_index : (Instr.nop { someDesc with index := 2 ^ 32 }).wellFormed = false := by decide
theorem test_refuses_command_stamp :
    (Instr.restEnter ⟨⟨2 ^ 64, 0⟩, .i3c, false, 0⟩).wellFormed = false := by decide
theorem test_accepts_the_bounds :
    (Instr.doorbell ⟨2 ^ 64 - 1, 2 ^ 32 - 1⟩ (.vf 15) 255 0 4 0).wellFormed = true ∧
      (Instr.nop { someDesc with ring := 4096 * 65536 }).wellFormed = true := by decide

/-! ## Small states -/

/-- A bit string with the given fields, each by its low bit and value. -/
def bits (w : Nat) (fs : List (Nat × Nat)) : BitVec w := BitVec.ofNat w (fs.foldl (fun a f => a + f.2 * 2 ^ f.1) 0)

/-- A descriptor of an opcode on bench 0, at a stamp in tick 100. -/
def desc (op : Nat) (fs : List (Nat × Nat)) : HostDesc :=
  { stamp := ⟨100, 50⟩, ring := 0, index := 0, raw := bits 512 ((0, op) :: fs) }

/-- A bench record: MIXED role. -/
def mixed : BitVec 1024 := bits 1024 [(8, 3)]

/-- A module in RUN, started, with its tick and one MIXED bench that is READY. -/
def up : State :=
  { State.reset with
    time := { now := ⟨100, 0⟩, ticking := true, first := some 1, lastCommit := some 99, sync := .source }
    bar := { inForce := [(0x20110, 0x80000006), (0x20290, 0x80000008)] }
    benches := [(0, { record := mixed, state := .ready })]
    fab := { maps := { benches := [(0, mixed)] } }
    fw := { stage := .ready, row := 12, perstLow := false }
    pwr := { planStable := true, wasStable := true, pwrGood := true } }

/-! ## Each statement's hypotheses are met -/

theorem witness_EmptyQueueIdles : State.reset.pending = [] ∧ up.pending = [] := ⟨rfl, rfl⟩

/-- A write into the export memory of a state whose memory is canonical. -/
theorem witness_EveryStepKeepsMemoryCanonical :
    memOk { State.reset with fab := { mem := [(3, 1), (4, 2)] }, pending := [.commit ⟨0, 0⟩] } = true ∧
      step { State.reset with pending := [.perstRelease ⟨0, 0⟩] } = exec (.perstRelease ⟨0, 0⟩) State.reset :=
  ⟨by decide, rfl⟩

theorem witness_OnlyForbiddenPulseStops :
    (∀ t n, (Instr.resetN ⟨0, 0⟩ 999) = .resetN t n → n < 1000 ∨ 10000 ≤ n) ∧
      (∀ t n, (Instr.resetN ⟨0, 0⟩ 10000) = .resetN t n → n < 1000 ∨ 10000 ≤ n) ∧ 1000 ≤ 1000 ∧ 9999 < 10000 :=
  ⟨fun _ _ h => by cases h; decide, fun _ _ h => by cases h; decide, by decide, by decide⟩

theorem witness_CommandsKeepTheirFrame :
    exec (.perstRelease ⟨0, 0⟩) { State.reset with pwr := { off := true } } =
        .next { State.reset with pwr := { off := true }, fw := { perstLow := false } } ∧
      Part.fab ∉ touched (.perstRelease ⟨0, 0⟩) :=
  ⟨rfl, by decide⟩

/-- A doorbell of an enabled ring, of one that is not, and of a tail beyond the ring; a landed descriptor that is read. -/
def landed1 : State :=
  { up with host := { landed := [{ cpl := { ring := 0, index := 7, stamp := ⟨100, 0⟩ } }] } }

theorem witness_DescriptorsLandAndWait :
    (up.pwr.off = false ∧ barReady up = true ∧ (subRing up 0).error = false ∧ sqEnabled up 0 = true ∧
      sqEnabled up 1 = false ∧ (fieldOf (64 : Word) 31 0 + 2 ^ 32 - (subRing up 0).tail) % 2 ^ 32 = sqSize up 0 ∧
      zeroAt (64 : Word) 63 32 = true ∧ (fieldOf (64 : Word) 31 0 + 2 ^ 32 - (subRing up 0).head) % 2 ^ 32 ≤ sqSize up 0 ∧
      sqSize up 0 < (fieldOf (65 : Word) 31 0 + 2 ^ 32 - (subRing up 0).tail) % 2 ^ 32) ∧
    (landed1.pwr.off = false ∧ (landedAt landed1 0 7).map (·.raw) = some none ∧
      (∀ op ∈ [0x10, 0x7F], actsAtLanding (fieldOf (bits 512 [(0, op)]) 7 0) = false) ∧ inKeep landed1 = false ∧
      landed1.time.halted = false ∧ limitPassed (landed1.at ⟨100, 9⟩) ⟨100, 0⟩ = false) := by
  decide +kernel

theorem witness_AccessesAndFunctionsAreGuarded :
    up.pwr.off = false ∧ barReady up = true ∧
      vfOn { up with host := { vfEnable := true, numVfs := 16 } } 15 = true ∧
      vfOn { up with host := { vfEnable := true, numVfs := 15 } } 15 = false ∧ 15 ∈ drivenBy up .pf ∧
      driver { up with host := { vfEnable := true, numVfs := 1 } } 0 ≠ driver up 0 ∧
      driver { up with host := { vfEnable := true, numVfs := 1 } } 1 = driver up 1 := by
  decide +kernel

/-- A stream that names the physical function, a completion ring with a record that waits and room for it. -/
def host1 : State :=
  { up with host := {
      ide := [(7, { fns := [.pf], secure := true })]
      cqs := [(0, { waiting := [{ tag := 5 }], fresh := some ⟨100, 0⟩, producer := 256, consumer := 0 })] } }

theorem witness_HostLinkEvents :
    host1.pwr.off = false ∧ (tget host1.host.ide 7).isSome = true ∧ signalDue (host1.at ⟨100, 50⟩) 0 = true ∧
      host1.host.ideStopped = [] ∧ (cq host1 0).waiting = [{ tag := 5 }] ∧
      recordRoom (host1.at ⟨100, 50⟩) 0 = false ∧
      recordRoom (setCq (host1.at ⟨100, 50⟩) 0 (fun q => { q with consumer := 1 % 2 ^ 32 })) 0 = true := by
  decide +kernel

theorem witness_RegisterWriteReadsBackAtOnce :
    barReady up = true ∧ up.pwr.state ≠ .rest ∧ benchPage 0x40018 = none ∧ fieldsAt 0x40018 ≠ [] ∧
      absentHere up 0x40018 = false ∧ locked up 0x40018 = false ∧
      valueOk up 0x40018 (maskFields 0x40018 0x20202020) = true ∧ valueOk up 0x40018 (maskFields 0x40018 0x20202021) = false ∧
      up.time.ticking = true ∧ State.reset.time.ticking = false := by
  decide +kernel

theorem witness_LocksLatchesAndClears :
    locked { up with bar := { up.bar with lock := true } } 0x60080 = true ∧ up.bar.lock = false ∧
      (1 : Word).getLsbD 0 = true ∧ mayWrite up .pf (bn 15 0x088) = true ∧
      mayWrite { up with host := { vfEnable := true, numVfs := 16 } } (.vf 15) (bn 15 0x088) = true ∧
      15 ∉ up.bar.benchLock ∧ (0x100000000 : Word).getLsbD 32 = true ∧ bitOf (0x100 : Word) 8 = true ∧
      mayWrite up .pf (bn 0 0x290) = true ∧ locked up (bn 0 0x290) = false ∧ up.stock = .mx ∧
      valueOk up (bn 0 0x290) (maskFields (bn 0 0x290) (withFieldOf (regVal up (bn 0 0x290)) 31 31 0)) = true := by
  decide +kernel

/-- Keep mode with a conversation that fits the read-out's buffer. -/
def keep1 : State :=
  { up with fault := { keep := some (2, ⟨90, 0⟩) }, work := { convs := [(9, { key := 9, state := .parked })] },
            bar := { up.bar with inForce := up.bar.inForce ++ [(0x70030, 0x10000000), (0x70038, 9)] } }

theorem witness_KeepModeAndReadout :
    inKeep up = false ∧ barReady up = true ∧ up.pwr.state ≠ .rest ∧ inKeep keep1 = true ∧
      keep1.fault.readout.1 = true ∧ (conv keep1 (regRead keep1 0x70038).toNat).isSome = true ∧
      convBytes keep1 { key := 9, state := .parked } ≤ (regRead keep1 0x70030).toNat := by
  decide +kernel

/-! ### Benches and requests -/

def fitted : BitVec 1024 :=
  bits 1024 [(8, 3), (64, 1), (128, 1), (191, 1), (192, 1), (576, 1), (608, 1), (768, 1000), (800, 1000), (832, 1000), (896, 100)]

/-- A package of one layer and one head of 32 elements that passes every check of a CACHE bench. -/
def pkg1 : Package :=
  { manifest := bits 1024 [(0, 0x4B505952), (32, 1), (48, 6), (64, 65536), (128, 77), (448, 1), (464, 1), (480, 1),
      (496, 32), (512, 16), (552, 4), (560, 1), (704, 1000)]
    dir := (List.range 6).map (fun i => bits 512 [(0, i + 1), (64, 4096 * (i + 1)), (128, 160)])
    kvHdr := bits 256 [(0, 0x4B43), (32, 2), (152, 8), (160, 0x3F000000)]
    kvBooks := (List.range 2).map (fun i =>
      { hdr := bits 128 [(0, 0x4342), (16, 8), (32, 16), (64, i)], body := (List.range 16).map (fun k => BitVec.ofNat 8 (k + 248)) })
    kvScales := [0x3F800000, 0x3F800000]
    costHdr := bits 256 [(0, 0x4354), (16, 1), (64, 128), (96, 1), (120, 5), (128, 1000000)]
    costs := [bits 1024 ((List.range 5).map (fun c => (192 + 32 * c, 1000000)))] }

/-- A bench that is LOADING, and one that is READY with the package. -/
def loading1 : State :=
  { up with benches := [(0, { record := bits 1024 [(8, 2), (64, 1), (192, 1)], state := .loading
                              load := some { modelTag := 5, length := 65536 } })] }

def ready1 : State :=
  { up with
    benches := [(0, { record := fitted, state := .ready, pkg := some pkg1, modelTag := 5 })]
    fab := { maps := { benches := [(0, fitted)] } } }

/-- What every descriptor of these statements meets: a module in RUN, nothing that waits. -/
theorem up_quiet : quiet up ∧ quiet ready1 := ⟨⟨rfl, rfl, rfl, rfl, rfl, by decide⟩, ⟨rfl, rfl, rfl, rfl, rfl, by decide⟩⟩

/-- A descriptor in the tick after the last commit meets its commit; one of the tick before it, and one whose module
has lost its tick, wait. -/
theorem up_meets :
    meetsCommit up (desc 0x7F []) = true ∧ meetsCommit ready1 (desc 0x10 []) = true ∧
      meetsCommit { up with time := { up.time with lastCommit := some 98 } } (desc 0x7F []) = false ∧
      meetsCommit { up with time := { up.time with sync := .lost } } (desc 0x7F []) = false := by
  decide +kernel

theorem witness_GatedDescriptorsOnlyComplete :
    meetsCommit { up with fault := { keep := some (2, ⟨90, 0⟩) } } (desc 0x7F []) = true ∧
    gate { up with fault := { keep := some (2, ⟨90, 0⟩) } } (desc 0x7F []) 0x7F 100 = some .benchHalted ∧
      gate { up with time := { up.time with halted := true } } (desc 0x20 []) 0x20 100 = some .benchHalted ∧
      gate up { desc 0x40 [] with late := true } 0x40 100 = some .noCapacity ∧
      gate up (desc 0x10 [(16, 1)]) 0x10 100 = some .badDescriptor ∧
      gate { up with fw := { up.fw with restart := some (3, ⟨99, 0⟩, 1) } } (desc 0x20 []) 0x20 100 =
        some .benchHalted ∧ gate up (desc 0x7F []) 0x7F 100 = none := by
  decide +kernel

theorem witness_LoadsAndUnloadsStart :
    (hasRecord up 0 = true ∧ gate up (desc 0x10 [(64, 4096), (192, 5)]) 0x10 100 = none ∧ sealedMoves up 0 = false ∧
      (bench { up with benches := [(0, { record := mixed })] } 0).state = .empty ∧ (bench up 0).state = .ready ∧
      zeroAt (desc 0x10 [(8, 1), (9, 2), (256, 65535)]).raw 511 272 = true ∧
      bitOf (desc 0x10 [(8, 1), (9, 2)]).raw 8 = true ∧ fieldOf (desc 0x10 [(8, 1), (9, 2)]).raw 10 9 = 2 ∧
      fieldOf (desc 0x10 [(64, 4096)]).raw 127 64 % 4096 = 0) ∧
    (gate up (desc 0x11 [(9, 1)]) 0x11 100 = none ∧ zeroAt (desc 0x11 [(9, 1)]).raw 255 64 = true ∧
      fieldOf (desc 0x11 [(9, 1)]).raw 10 9 ≠ 3) := by
  decide +kernel

theorem witness_LoadsReleasesAndDrainsEnd :
    (loading1.pwr.off = false ∧ (bench loading1 0).state = .loading ∧
      (bench loading1 0).load = some { modelTag := 5, length := 65536 } ∧
      loadFailure loading1 0 { modelTag := 5, length := 65536 } pkg1 = none ∧
      loadFailure loading1 0 { modelTag := 5, length := 65535 } pkg1 = some (.badDescriptor, 1) ∧
      (bench { up with benches := [(0, { state := .unloading })] } 0).state = .unloading) := by
  decide +kernel

/-- A bench that drains in mode 0 at its limit, with one live request on a conversation. -/
def draining1 : State :=
  { up with
    benches := [(0, { record := mixed, state := .draining, drain := some { limit := 100 } })]
    work := { reqs := [(7, { key := 7, conv := 9, state := .generating })]
              convs := [(9, { key := 9, state := .active, req := some 7 })] } }

theorem witness_LoadsReleasesAndDrainsEnd_drain :
    quiet draining1 ∧ 100 ≤ commitOf draining1 ⟨100, 50⟩ ∧ reqLive .generating = true ∧
      (conv draining1 9).map (·.req) = some (some 7) :=
  ⟨⟨rfl, rfl, rfl, rfl, rfl, by decide⟩, by decide +kernel⟩

theorem witness_NopBindingsAndTalliesAnswer :
    (gate up (desc 0x7F []) 0x7F (commitOf up ⟨100, 50⟩) = none ∧ zeroAt (desc 0x7F []).raw 511 64 = true) ∧
    (gate up (desc 0x61 []) 0x61 100 = none ∧
      (let d := desc 0x61 [(8, 16), (64, 7), (128, 4096), (192, 64)]
       fieldOf d.raw 127 64 = 7 ∧ zeroAt d.raw 511 256 = true ∧ zeroAt d.raw 31 20 = true ∧ zeroAt d.raw 15 13 = true ∧
         fieldOf d.raw 191 128 % 4096 = 0 ∧ fieldOf d.raw 191 128 ≠ 0 ∧ fieldOf d.raw 255 192 % 64 = 0 ∧
         6 ≤ fieldOf d.raw 12 8 ∧ fieldOf d.raw 12 8 ≤ 16) ∧
      (bindOf { up with work := { binds := [(7, {})] } } 7).isSome = true ∧ up.work.binds.length < 65536) ∧
    (gate up (desc 0x60 []) 0x60 100 = none ∧
      (let d := desc 0x60 [(8, 1), (64, 4095), (112, 1), (128, 10), (160, 10), (192, 3)]
       fieldOf d.raw 75 64 = 4095 ∧ zeroAt d.raw 511 224 = true ∧ zeroAt d.raw 111 76 = true ∧ zeroAt d.raw 31 20 = true ∧
         zeroAt d.raw 15 10 = true ∧ bitOf d.raw 9 = false ∧ 0 < fieldOf d.raw 191 160 ∧
         fieldOf d.raw 159 128 ≤ fieldOf d.raw 191 160 ∧ 0 < fieldOf d.raw 127 112) ∧
      tget up.work.tallies 4095 = none ∧ bitOf (desc 0x60 [(9, 1)]).raw 9 = true ∧
      (tget { up with work := { tallies := [(0, {})] } }.work.tallies 0).map (·.bench) = some 0) := by
  decide +kernel

/-- An idle and an active conversation on bench 0, the active one with a generating request. -/
def convs1 : State :=
  { ready1 with work := {
      reqs := [(7, { key := 7, conv := 9, state := .generating })]
      convs := [(8, { key := 8, fpTag := 77 }), (9, { key := 9, state := .active, req := some 7, fpTag := 77 })] } }

/-- The same, its request's deadline passed. -/
def dead1 : State :=
  { convs1 with work := { convs1.work with
      reqs := [(7, { key := 7, conv := 9, state := .generating, deadline := some ⟨100, 0⟩ })] } }

theorem dead1_quiet : quiet dead1 := ⟨rfl, rfl, rfl, rfl, rfl, by decide⟩

theorem convs1_quiet : quiet convs1 := ⟨rfl, rfl, rfl, rfl, rfl, by decide⟩

theorem convs1_meets : meetsCommit convs1 (desc 0x20 []) = true ∧ convs1.pwr.off = false := by decide +kernel

theorem witness_ConversationsParkReleaseAndHaul :
    (hasRecord convs1 0 = true ∧ goneFor convs1 8 ⟨100, 50⟩ = none ∧ (convOn convs1 8 0).isSome = true ∧
      (let d := desc 0x25 [(128, 8)]
       gate convs1 d 0x25 100 = none ∧ ctlOk d.raw false true true false false false false = true ∧
         bitOf d.raw 13 = false ∧ dConv d = 8) ∧ suspendedOf convs1 8 = none ∧
      (let d := desc 0x23 [(128, 9)]
       gate convs1 d 0x23 100 = none ∧ ctlOk d.raw false true true false false false true = true ∧
         bitOf d.raw 9 = false) ∧ isCacheOrMixed (role convs1 0) = true ∧ parkable .generating = true) ∧
    (let d := desc 0x23 [(9, 1), (128, 9), (240, 3)]
     let e := desc 0x30 [(9, 1), (128, 9), (240, 3)]
     (convOn convs1 9 0).isSome = true ∧ bitOf d.raw 12 = false ∧ bitOf d.raw 9 = true ∧ dTarget d ≠ convs1.fab.self ∧
       gate convs1 d 0x23 100 = none ∧ ctlOk d.raw false true true false false false true = true ∧
       gate convs1 e 0x30 100 = none ∧ ctlOk e.raw false true false true false false true = true ∧ role convs1 0 ≠ 2 ∧
       (conv convs1 9).map (fun c => (c.key, c.state, c.frozen, c.req)) = some (9, .active, none, some 7) ∧
       (conv convs1 9).map (fun c => c.stripe.isNone) = some true ∧
       (req convs1 7).map (fun r => (r.key, r.state)) = some (7, .generating)) := by
  decide +kernel

/-- A parked conversation whose request is suspended. -/
def parked1 : State :=
  { ready1 with work := {
      reqs := [(7, { key := 7, conv := 9, state := .suspended, left := .tallyWait })]
      convs := [(9, { key := 9, state := .parked, req := some 7, fpTag := 77 })] } }

theorem parked1_quiet : quiet parked1 := ⟨rfl, rfl, rfl, rfl, rfl, by decide⟩

theorem witness_RequestsResumeAndEnd :
    meetsCommit parked1 (desc 0x24 [(128, 9)]) = true ∧
    (let d := desc 0x24 [(128, 9)]
     gate parked1 d 0x24 100 = none ∧ hasRecord parked1 0 = true ∧ (bench parked1 0).state = .ready ∧
       ctlOk d.raw false true false true true true true = true ∧ bitOf d.raw 11 = false ∧
       (convOn parked1 9 0).map (·.fpTag) = some (benchTag parked1 0) ∧ suspendedOf parked1 9 = some 7 ∧
       servesState (role parked1 0) (resumedState { left := .tallyWait }) false = true ∧ recordOk parked1 0 false = true ∧
       parked1.haul.pulls.any (fun q => q.cpl == cplOf parked1 d) = false ∧
       (conv parked1 9).map (fun c => (c.key, c.state, c.frozen, c.record)) = some (9, .parked, none, false) ∧
       (req parked1 7).map (fun r => (r.key, r.speculate)) = some (7, false) ∧
       pendingRoom parked1 0 (pendingBytes (manOf parked1 0) (kvBitsOf parked1 0)) = true) ∧
    (let d := desc 0x24 [(9, 1), (11, 1), (128, 10), (240, 3)]
     bitOf d.raw 11 = true ∧ bitOf d.raw 9 = true ∧ ctlOk d.raw false true false true true true true = true ∧
       role parked1 0 = 3 ∧ conv parked1 10 = none) ∧
    (let d := desc 0x22 [(64, 7)]
     (req convs1 7).isSome = true ∧ doneOf convs1 7 = none ∧ gate convs1 d 0x22 100 = none ∧
       ctlOk d.raw true false false false false false false = true ∧ dReq d = 7 ∧ hasRecord convs1 (dBench d) = true ∧
       benchFor convs1 9 0 ⟨100, 50⟩ = 0 ∧ convs1.work.done.length < 262144 ∧ (req dead1 7).map (·.deadline) = some (some ⟨100, 0⟩) ∧
       stampLe ⟨100, 0⟩ (dead1.at ⟨100, 9⟩).time.now = true ∧
       actsAlone (dead1.at ⟨100, 9⟩) ⟨100, 0⟩ 4096 = true ∧ inKeep dead1 = false ∧ dead1.time.halted = false) := by
  decide +kernel

/-- An admission of one token, and its parameters. -/
def params1 : BitVec 1536 := bits 1536 [(0, 0x5350), (16, 1), (32, 0x3F800000), (64, 0x3F800000), (224, 0xFFFF),
  (351, 1), (543, 1), (575, 1), (607, 1), (639, 1), (671, 1), (703, 1), (735, 1), (767, 1)]

def admit1 : HostDesc :=
  { desc 0x20 [(64, 5), (128, 6), (256, 1), (304, 1)] with data := .request params1 [3] none none }

def append1 : HostDesc :=
  { desc 0x21 [(64, 5), (128, 8), (256, 1), (304, 1)] with data := .request params1 [3] none none }

theorem witness_AdmissionsAndAppendsBeginRequests :
    (meetsCommit convs1 admit1 = true ∧ meetsCommit convs1 append1 = true) ∧
    (hasRecord convs1 0 = true ∧ (bench convs1 0).state = .ready ∧ knownReq convs1 5 = false ∧ role convs1 0 = 3 ∧
      fieldOf (blockOf admit1).1 511 448 = 0 ∧ blockOk convs1 admit1 none = true ∧ bitOf admit1.raw 11 = false ∧
      gate convs1 admit1 0x20 100 = none ∧ admitFieldsOk convs1 admit1 false = true ∧ conv convs1 6 = none ∧
      bitOf admit1.raw 10 = false ∧ (blockOf admit1).2.2.2 = none ∧ admitRoom convs1 admit1 true = true) ∧
    (gate convs1 append1 0x21 100 = none ∧ admitFieldsOk convs1 append1 true = true ∧ blockOk convs1 append1 none = true ∧
      (convOn convs1 8 0).map (fun c => (c.key, c.state, c.frozen, c.fpTag)) =
        some (8, .idle, none, benchTag convs1 0) ∧
      suspendedOf convs1 8 = none ∧ recordOk convs1 0 false = true ∧ admitRoom convs1 append1 false = true) := by
  decide +kernel

/-- The admitted request and the appended one fit on an empty plan, and nothing waits. -/
theorem witness_AdmissionsAndAppendsBeginRequests_fit :
    quiet convs1 ∧
    fitsEmpty (putReq (putConv (atLanding convs1 admit1)
        {
          key := 6, bench := 0, home := true, fpTag := 77, layers := 1, kvHeads := 1, lastTick := 100, record := false
          stripe := none, keeper := 0 })
        (newReq (atLanding convs1 admit1) admit1 0 1 none)) (newReq (atLanding convs1 admit1) admit1 0 1 none) = true ∧
    fitsEmpty (putReq (modConv (atLanding convs1 append1) 8 (fun x => { x with keeper := 0, guarded := true }))
        (newReq (atLanding convs1 append1) append1 0 1 none)) (newReq (atLanding convs1 append1) append1 0 1 none) = true :=
  ⟨convs1_quiet, by decide +kernel, by decide +kernel⟩

/-! ### Vector retrieval -/

/-- A shard of dimension 2 in int8 by inner product, with one node. -/
def shdr (id : Nat) : BitVec 512 :=
  bits 512 [(0, 0x5648), (16, 1), (96, id), (236, 0), (240, 2), (264, 8), (272, 16), (288, 0x3F800000),
    (320, 0x3F800000), (352, 1)]

def shard1 : Shard :=
  { hdr := shdr 4, serving := true, graph := [{ id := 11, elems := [1, 2] }], spoil := [{ id := 12, elems := [3, 4] }] }

def vec1 : State := { convs1 with shards := [(4, shard1)] }

theorem vec1_quiet : quiet vec1 := ⟨rfl, rfl, rfl, rfl, rfl, by decide⟩

def insert1 : HostDesc :=
  { desc 0x41 [(320, 12), (384, 4), (416, 2), (448, 64)] with data := .elements [5, 255] }

def delete1 : HostDesc := desc 0x42 [(320, 11), (384, 4)]

theorem elems_small : ∀ e ∈ [(5 : BitVec 16), 255], e.toNat < 2 ^ 8 := by simp

theorem witness_VectorChangesJoinTheSpoilList :
    vecGate vec1 0 = none ∧ (shard vec1 4).isSome = true ∧ zeroAt insert1.raw 135 128 = true ∧
      fieldOf insert1.raw 383 320 = 12 ∧ fieldOf insert1.raw 415 384 = 4 ∧ gate vec1 insert1 0x41 100 = none ∧
      vecFieldsOk insert1.raw true true false = true ∧ vDim shard1.hdr = 2 ∧
      fieldOf insert1.raw 447 416 = ceilDiv (vDim shard1.hdr * elemBits shard1.hdr) 8 ∧ vFmt shard1.hdr = 0 ∧
      elemBits shard1.hdr = 8 ∧ vDist shard1.hdr = 0 ∧ shardFits vec1 0 (strideSpoil shard1.hdr) = true ∧
      meetsCommit vec1 insert1 = true ∧ (∀ e ∈ [(5 : BitVec 16), 255], e.toNat < 2 ^ 8) ∧
      [(5 : BitVec 16), 255].length = vDim shard1.hdr ∧ liveCount (supersede shard1 12).1 < 2 ^ 32 ∧
      (shard vec1 4).map (fun x => (x.bench, x.replica, x.archived)) = some (0, false, false) ∧
      (supersede shard1 12).2 = true ∧ (supersede shard1 13).2 = false := by
  refine ⟨?_, ?_, ?_, ?_, ?_, ?_, ?_, ?_, ?_, ?_, ?_, ?_, ?_, ?_, ?_, ?_, ?_, ?_, ?_, ?_⟩ <;> first | exact elems_small | decide +kernel

theorem witness_VectorChangesJoinTheSpoilList_delete :
    zeroAt delete1.raw 135 128 = true ∧ gate vec1 delete1 0x42 100 = none ∧
      vecFieldsOk delete1.raw false true false = true ∧ (supersede shard1 11).2 = true := by
  decide +kernel

/-- A segment of one record for shard 9, its crc in its place. -/
def segBy (magic : Nat) : VecSeg :=
  let g : VecSeg := { hdr := bits 256 [(0, magic), (16, 1), (64, strideNode (shdr 9)), (96, 9), (192, 1)], recs := [{ id := 11, elems := [1, 2] }] }
  { g with hdr := putCrc g.hdr (segPayload (shdr 9) g) }

def seg1 : VecSeg := segBy 0x5347

theorem witness_ShardOperationsChangeTheirShard :
    (let d := { desc 0x43 [(128, 1), (384, 9), (416, 4096), (448, 64)] with data := .shard (shdr 9) none [seg1] }
     gate vec1 d 0x43 (commitOf vec1 d.stamp) = none ∧ fieldOf d.raw 415 384 = 9 ∧ fieldOf d.raw 135 128 = 1 ∧
       vecFieldsOk d.raw true false false = true ∧ vecGate vec1 (dBench d) = none ∧ shardHdrOk (shdr 9) none = true ∧
       vId (shdr 9) = 9 ∧ shard vec1 9 = none ∧ segCrcOk (shdr 9) seg1 = true ∧
       segCrcOk (shdr 9) { seg1 with recs := [] } = false ∧ imageOk (shdr 9) [seg1] = true ∧
       vec1.shards.length < 256 ∧ meetsCommit vec1 d = true ∧
       imageBytes (shdr 9) none [seg1] ≤ fieldOf d.raw 447 416 ∧ shardFits vec1 0 (fieldOf (shdr 9) 383 352 * strideNode (shdr 9)) = true) ∧
    (∀ op ∈ [0, 2, 3, 4], vecFieldsOk (desc 0x43 [(128, op), (384, 4)]).raw false false false = true) ∧
    (∀ op ∈ [5, 6], vecFieldsOk (desc 0x43 [(112, 3), (128, op), (384, 4)]).raw false false true = true ∧
      BitVec.ofNat 16 (fieldOf (desc 0x43 [(112, 3), (128, op), (384, 4)]).raw 127 112) ≠ vec1.fab.self) ∧
    (shard1.archived = false ∧ shard1.round = none ∧ { shard1 with spoil := [] }.spoil = [] ∧ hasFlash vec1 = true ∧
      fits vec1 0 .flash (shardBytes shard1) = true ∧ flashWaits vec1 = false ∧ shardFits vec1 0 (shardBytes shard1) = true ∧ { shard1 with archived := true }.pendingCpl = none ∧
      ((3 : ModuleId), 0) ∈ { shard1 with replicas := [(3, 0)] }.replicas ∧ ((3 : ModuleId), 0) ∉ shard1.replicas) := by
  decide +kernel

/-- A shard whose copy is pending, and a replica. -/
def vec2 : State :=
  { vec1 with shards := [(4, { shard1 with pendingCpl := some { tag := 1 }, pendRepl := [(3, 0, { tag := 2 })] }),
                         (9, { hdr := shdr 9, replica := true })] }

theorem witness_ShardWorkEndsAtItsCommit :
    ((shard vec2 4).bind (·.pendingCpl) = some { tag := 1 } ∧ (shard vec2 4).map (·.pendRepl) = some [(3, 0, { tag := 2 })]) ∧
    (fieldOf seg1.hdr 127 96 = 9 ∧ (shard vec2 9).map (·.replica) = some true ∧ segCrcOk (shdr 9) seg1 = true ∧
      fieldOf seg1.hdr 15 0 = 0x5347 ∧ fieldOf seg1.hdr 159 128 = 0 ∧
      segCrcOk (shdr 9) (segBy 0x534C) = true ∧ fieldOf (segBy 0x534C).hdr 15 0 = 0x534C ∧
      segCrcOk (shdr 9) { seg1 with recs := [] } = false) := by
  decide +kernel

def search1 : Search :=
  { id := 3, running := true, raw := bits 512 [(268, 0)], elems := [1, 2]
    shards := [bits 128 [(0, 4), (32, 2), (64, 5), (80, 6)]] }

def search2 : State := { vec1 with plan := { searches := [search1] } }

def searchDesc : HostDesc :=
  { desc 0x40 [(240, 2), (272, 1), (288, 1), (304, 16), (332, 1), (336, 1), (416, 80)] with
    data := .search [bits 128 [(0, 4), (32, 0xFFFF)]] [1, 2] }

/-- A header of one message kind over some entries, of module 2 in tick 100; an ask and an answer of search 3. -/
def vecHdr1 (kind : Nat) (ask : Bool) (es : List VecEntry) : BitVec 256 :=
  bits 256 [(0, 0x5652), (16, 1), (96, kind), (112, 2), (128, 32 + (es.map (vecEntryLen ask)).sum), (160, es.length), (192, 100)]

def vecAsk1 : VecEntry :=
  let e : VecEntry := { head := bits 256 [(32, 2), (96, 1), (160, 4), (192, 3)], elems := [1, 2], results := [] }
  { e with head := e.head + BitVec.ofNat 256 (vecEntryLen true e) }

def vecAnswer1 : VecEntry :=
  let e : VecEntry := { head := bits 256 [(48, 1), (192, 3)], elems := [], results := [(11, 0)] }
  { e with head := e.head + BitVec.ofNat 256 (vecEntryLen false e) }

theorem witness_SearchesAreAskedAndAnswered :
    (meetsCommit vec1 searchDesc = true ∧ quiet vec1 ∧ search1.cpl.bench < 16 ∧ search1.running = true) ∧
    (gate vec1 searchDesc 0x40 (commitOf vec1 searchDesc.stamp) = none ∧ vecGate vec1 0 = none ∧
      searchOk vec1 searchDesc [bits 128 [(0, 4), (32, 0xFFFF)]] [1, 2] = true ∧ (shard vec1 4).isSome = true) ∧
    (∀ kind ∈ [0, 1], vecMsgOk (vecHdr1 kind true [vecAsk1]) kind [vecAsk1] = true) ∧
    (fieldOf (vecHdr1 0 true [vecAsk1]) 255 192 = (up.at ⟨100, 9⟩).time.now.tick ∧
      synced (up.at ⟨100, 9⟩) = true ∧ up.plan.cut = false) ∧
    (let e := vecAnswer1
     let h := vecHdr1 2 false [e]
     vecMsgOk h 2 [e] = true ∧ search2.plan.searches.find? (fun q => q.id == fieldOf e.head 255 192 && q.running) = some search1 ∧
       fieldOf h 255 192 = (search2.at ⟨100, 9⟩).time.now.tick ∧ (9 : Nat) < cutoffOff search2 ∧
       search1.id = fieldOf e.head 255 192 ∧ fieldOf e.head 27 24 = 0 ∧ fieldOf e.head 159 144 < search1.shards.length ∧
       tget search1.answers 0 = none ∧ (tget { search1 with answers := [(0, [])] }.answers 0).isSome = true) ∧
    (synced (search2.at ⟨100, 9⟩) = true ∧ search1 ∈ search2.plan.searches ∧
      (∃ e, (e, 0) ∈ search1.shards.zipIdx ∧ 5 = fieldOf e 79 64 ∧ 6 = fieldOf e 95 80)) := by
  refine ⟨⟨by decide +kernel, vec1_quiet, by decide, rfl⟩, by decide +kernel, by decide +kernel, by decide +kernel, by decide +kernel, by decide +kernel,
    by decide +kernel, ⟨bits 128 [(0, 4), (32, 2), (64, 5), (80, 6)], by decide +kernel⟩⟩

theorem witness_SearchesAreAskedAndAnswered_spans :
    let x : Span := { req := 7, replicas := [3], askStamp := some ⟨100, 8⟩ }
    x ∈ { vec1 with plan := { spans := [x] } }.plan.spans ∧ x.accepted = false ∧ x.asked = false ∧
      x.askStamp.isSome = true ∧ hasBackup x = true ∧ { vec1 with plan := { spans := [x], cut := true } }.plan.cut = true := by
  decide

/-! ### Windows and the rack fabric -/

/-- A module with queue pairs, a route to module 2, an export region and a rack map. -/
def win1 : State :=
  { convs1 with
    bar := { up.bar with inForce := up.bar.inForce ++ [(0x40000, 0xFF), (0x50008, 1024)] }
    fab := { maps := { benches := [(0, fitted)], routes := [(0, bits 64 [(0, 1), (48, 2)])]
                       exports := [(0, bits 256 [(64, 0), (128, 4096), (200, 7), (224, 3)])], rackmap := [(0, 0), (1, 2)] }
             links := [(0, { cable := true, state := .active, lanes := 3 })] } }

def winOpen1 (i : Nat) : HostDesc := desc 0x50 [(8, 3), (11, 1), (12, 1), (320, i), (384, 4096), (448, 0)]

theorem witness_WindowsAndQueuePairsAreMade :
    (inKeep win1 = false ∧ win1.time.halted = false ∧ fieldOf (winOpen1 5).raw 19 16 = (winOpen1 5).ring / 16 ∧
      dOp (winOpen1 5) = 0x50 ∧ winOpenOk win1 0 (winOpen1 5).raw = true ∧ winOpenOk win1 0 (winOpen1 0xFFFF).raw = true ∧
      fieldOf (winOpen1 0xFFFF).raw 335 320 = 0xFFFF ∧ tget win1.win.wins 5 = none ∧
      freeKey win1.win.wins 65536 0 < 65536) ∧
    (let d := desc 0x51 [(320, 5), (368, 1)]
     zeroAt d.raw 511 384 = true ∧ zeroAt d.raw 347 336 = true ∧ zeroAt d.raw 319 64 = true ∧ zeroAt d.raw 31 20 = true ∧
       zeroAt d.raw 15 14 = true ∧ zeroAt d.raw 11 11 = true ∧ ({} : Window).bench = dBench d ∧
       ({} : Window).gen = fieldOf d.raw 383 368) ∧
    (let d := desc 0x52 [(136, 2), (152, 9), (172, 1023), (192, 1), (304, 16)]
     fieldOf d.raw 191 172 < qpCount win1 ∧ ¬1024 < qpCount win1 ∧ zeroAt d.raw 511 320 = true ∧ zeroAt d.raw 303 288 = true ∧
       zeroAt d.raw 135 64 = true ∧ zeroAt d.raw 15 8 = true ∧ 16 ≤ fieldOf d.raw 319 304 ∧ fieldOf d.raw 319 304 ≤ 4096 ∧
       (qpOf win1 1023).state = .free ∧ fieldOf d.raw 207 192 ≠ (qpOf win1 1023).localInc ∧
       BitVec.ofNat 16 (fieldOf d.raw 151 136) ≠ win1.fab.self ∧
       (routeOf win1.fab.maps (BitVec.ofNat 16 (fieldOf d.raw 151 136))).isSome = true) ∧
    (let s := { win1 with win := { qps := [(0, { state := .ready })] } }
     zeroAt (desc 0x53 [(8, 1)]).raw 15 9 = true ∧ (qpOf s 0).state = .ready ∧ (qpOf s 0).bench = 0 ∧
       s.fab.ops.any (fun o => o.2.target == 0 && o.2.qpn == 0) = false ∧
       ([(0, ({} : Rma))] : Table Rma).any (fun o => o.2.target == 0 && o.2.qpn == 0) = true ∧
       bitOf (desc 0x53 [(8, 1)]).raw 8 = true) := by
  decide +kernel

/-- A READY queue pair to queue pair 4 of module 2, in its cache. -/
def qp1 : Qp := { state := .ready, peer := 2, peerQpn := 4, localInc := 6, peerInc := 7, creditKib := 16, txLimit := 64 }

def win2 : State :=
  { win1 with win := {
      qps := [(0, qp1)], cache0 := [0]
      wins := [(5, { kind := 1, length := 4096, perms := 7 }), (6, { kind := 0, length := 4096, perms := 3 })] } }

theorem witness_RemoteOperationsAreCutAndQueued :
    (∀ op ∈ [0x54, 0x55], rmaOk (desc op [(416, 1), (448, 64)]).raw = true) ∧
    (∀ op ∈ [0x56, 0x57], rmaOk (desc op [(240, 8), (416, 8), (448, 64)]).raw = true) ∧
    (∀ op ∈ [0x54, 0x55], rmaOk (desc op [(8, 1), (416, 256), (448, 64)]).raw = true) ∧
    (0 < qpCount win2 ∧ (qpOf win2 0).state = .ready ∧ (qpOf win2 0).bench = 0 ∧ pinRoom win2 0 = true ∧
      rmaOk (desc 0x70 []).raw = true ∧ rmaOk (desc 0x70 [(8, 1)]).raw = true) ∧
    (∀ a ∈ lines 0 256, (tget win2.fab.maps.rackmap (a / 2 ^ 43)).isSome = true) ∧ (lines 0 256).length = 2 ∧
    (lines 0 (max 1 0)).length = 1 ∧
    (let o : Rma := { op := 0x54, left := 1 }
     o.target = 0 ∧ o.qpn = 0 ∧ o.op ≠ 0x70 ∧ (0 : Nat) < 1) := by
  decide +kernel

/-- A window packet from the peer, to queue pair 0. -/
def wp (typ win off arg : Nat) (data : List Byte) : WPacket :=
  { hdr := bits 256 [(0, typ), (51, 32 + data.length), (128, 2), (144, 0)]
    wh := bits 256 [(0, arg), (32, if typ = 0x41 then 8 else data.length), (88, 4), (108, 0), (128, 6), (176, win), (192, 1), (208, off)]
    data := data }

theorem witness_WindowsAndQueuePairsAreMade_revoke :
    (let s := { win2 with win := { win2.win with parked := [(⟨98, 0⟩, wp 0x40 5 0 0 [1])] } }
     (unhandled s).any (fun x => fieldOf x.2.wh 191 176 == 5 && fieldOf x.2.wh 207 192 == 1 &&
       stampLt x.1 (atLanding s (desc 0x51 [(320, 5), (368, 1)])).time.now) = true) ∧
      (tget win2.win.wins 5).map (·.gen) = some 1 ∧ unhandled win2 = [] := by
  decide +kernel

theorem witness_WindowRequestsAreApplied :
    inOrder (win2.at ⟨100, 9⟩) (wp 0x40 5 4088 0 (leBytes 8 3)) 0x40 = true ∧
      inOrder (win2.at ⟨100, 9⟩) (wp 0x40 5 4089 0 (leBytes 8 3)) 0x40 = false ∧
      inOrder (win2.at ⟨100, 9⟩) (wp 0x40 6 0 0 (leBytes 8 3)) 0x40 = true ∧
      inOrder (win2.at ⟨100, 9⟩) (wp 0x41 5 0 0 []) 0x41 = true ∧
      inOrder (win2.at ⟨100, 9⟩) (wp 0x43 5 8 0 (leBytes 8 3)) 0x43 = true ∧
      inOrder (win2.at ⟨100, 9⟩) (wp 0x44 5 8 0 (leBytes 16 3)) 0x44 = true ∧
      (windowAt (win2.at ⟨100, 9⟩) (win2.at ⟨100, 9⟩).time.now (wp 0x40 5 0 0 [])).map (·.kind) = some 1 ∧
      (windowAt (win2.at ⟨100, 9⟩) (win2.at ⟨100, 9⟩).time.now (wp 0x40 6 0 0 [])).map (·.kind) = some 0 ∧
      fromPeer (win2.at ⟨100, 9⟩) (wp 0x49 0 0 0 []) 0x49 = true ∧ grantFrozen win2 0 = false := by
  decide +kernel

/-- Queue pair 0 with an unanswered read, atomic and write of operation 1. -/
def win3 : State :=
  { win2 with
    win := { win2.win with qps := [(0, { qp1 with
      txNext := 3, ackDue := true, unacked := 2, out := [(0, wp 0x41 5 0 0 [], 1), (1, wp 0x43 5 0 0 (leBytes 8 1), 1), (2, wp 0x40 5 0 0 [1], 1)] })] }
    fab := { win2.fab with ops := [(1, { op := 0x55, length := 8, left := 3 })], epoch := 1 } }

def wpPsn (psn : Nat) (p : WPacket) : WPacket := { p with wh := withFieldOf p.wh 175 144 psn }

theorem witness_WindowSendersMoveOn :
    (qpOf win3 0).waitCredit = [] ∧
      toSender win3 (wpPsn 0 (wp 0x42 0 0 0 (leBytes 8 1))) 0x42 = true ∧
      ((qpOf win3 0).out.find? (fun o => o.1 == 0 && wType o.2.1 == 0x41)).isSome = true ∧
      toSender win3 (wpPsn 1 (wp 0x45 0 0 0 (leBytes 8 1))) 0x45 = true ∧
      ((qpOf win3 0).out.find? (fun o => o.1 == 1 && isAtomicW o.2.1)).isSome = true ∧
      (tget win3.fab.ops 1).isSome = true ∧
      toSender win3 (wpPsn 2 (wp 0x46 0 0 0 [])) 0x46 = true ∧ packetStatus (wStatus (wp 0x46 0 0 0 [])) = .ok ∧
      packetStatus (wStatus (wp 0x47 0 0 0 [])) = .ok ∧
      toSender win3 (wpPsn 2 (wp 0x47 0 0 0 [])) 0x47 = true ∧
      (qpOf win3 0).out.any (fun o => !psnBelow o.1 2) = true ∧
      (∀ o ∈ (qpOf win3 0).out, sendsOf (qpOf win3 0) (wPsn o.2.1) < regF win3 0x50010 19 16) ∧
      toSender win3 (wp 0x48 0 0 65 []) 0x48 = true ∧ psnBelow (qpOf win3 0).txLimit 65 = true ∧
      psnBelow (qpOf win3 0).txLimit 64 = false := by
  decide +kernel

/-- A sound context image. -/
def ctx1 : BitVec 2048 :=
  let c := bits 2048 [(0, 0x5150), (16, 1)]
  c + BitVec.ofNat 2048 (crcOf 256 c.toNat * 2 ^ 992)

set_option maxRecDepth 20000 in
theorem witness_WindowSendersMoveOn_contexts : contextSound ctx1 = true ∧ contextSound (ctx1 + 1) = false := by
  decide +kernel

theorem witness_WindowSendersMoveOn_timers :
    (qpOf win3 0).out.any (fun o => !psnBelow o.1 (qpOf win3 0).txLow) = true ∧
      (let s := { win3 with win := { win3.win with qps := tmod win3.win.qps 0 (fun x => { x with sends := [(0, regF win3 0x50010 19 16)] }) } }
       (qpOf s 0).out.any (fun o => !psnBelow o.1 (qpOf s 0).txLow &&
         decide (regF s 0x50010 19 16 ≤ sendsOf (qpOf s 0) (wPsn o.2.1))) = true) ∧ (qpOf win3 0).ackDue = true ∧
      (let s := { win3 with win := { win3.win with fetching := [0] } }
       0 ∈ s.win.fetching ∧ s.win.held = [] ∧ (s.win.parked.filter (fun p => wDst p.2 == 0)) = [] ∧ (qpOf s 0).state ≠ .free) ∧
      (let p : Packet :=
        { hdr := bits 256 [(0, 0x47), (51, 32), (64, 4), (128, 2), (160, 1)], payload := leBytes 32 (wpPsn 2 (wp 0x47 0 0 0 [])).wh.toNat }
       packetOk p = true ∧ packetStatus (pStatus p) = .epochStale ∧ pDst p = win3.fab.self ∧ pType p = 0x47 ∧
         fieldOf (BitVec.ofNat 256 (leNat (p.payload.take 32))) 127 108 = 0 ∧
         ((qpOf win3 0).out.find? (fun o => o.1 == fieldOf (BitVec.ofNat 256 (leNat (p.payload.take 32))) 175 144)).isSome = true ∧
         epochOlder (pEpoch p) 0 = false) := by
  decide +kernel

/-- A fabric packet from module 2. -/
def fp (typ status seq addr : Nat) (payload : List Byte) : Packet :=
  { hdr := bits 256 [(0, typ), (51, payload.length), (64, status), (96, seq), (128, 2), (176, seq), (208, addr)], payload := payload }

def mem1 : State := { win1 with fab := { win1.fab with mem := [(8, 5)], tgt := [(2, { floor := 1, got := [2] })] } }

theorem witness_FabricTargetsApplyOnce :
    (freshRequest (mem1.at ⟨100, 9⟩) (fp 1 0 1 0 []) 1 = true ∧
      freshRequest (mem1.at ⟨100, 9⟩) (fp 3 0 1 3968 (leBytes 144 3)) 3 = true ∧
      freshRequest (mem1.at ⟨100, 9⟩) (fp 5 0 1 8 (leBytes 8 3)) 5 = true ∧
      freshRequest (mem1.at ⟨100, 9⟩) (fp 7 0 1 8 (leBytes 16 5)) 7 = true ∧
      pFlagged (fp 1 0 1 0 []) = false ∧ (tgtCtx mem1 2).held = [] ∧
      (tableFor (mem1.at ⟨100, 9⟩) 0).isSome = true ∧
      (∀ typ ∈ [1, 3, 5, 7], memRefusal mem1 mem1.fab.maps (isOldEpoch mem1 0) 2 3968 typ = none) ∧
      memRefusal mem1 mem1.fab.maps (isOldEpoch mem1 0) 2 4096 1 = some .notFound) ∧
    (∀ x ∈ [(1, 0), (3, 144), (5, 8), (7, 16), (9, 0), (0x10, 16)],
      packetOk (fp x.1 0 2 0 (leBytes x.2 0)) = true ∧ pDst (fp x.1 0 2 0 (leBytes x.2 0)) = mem1.fab.self ∧
        isDup (tgtCtx mem1 2) (pSeq (fp x.1 0 2 0 (leBytes x.2 0))) = true) ∧
    (freshRequest (mem1.at ⟨100, 9⟩) (fp 9 0 1 0 []) 9 = true ∧
      freshRequest (mem1.at ⟨100, 9⟩) (fp 9 0 4 0 []) 9 = true ∧
      freshRequest (mem1.at ⟨100, 9⟩) (fp 0x10 0 1 0 (leBytes 16 7)) 0x10 = true ∧
      seqBelow 1 (tgtCtx (markSeq mem1 2 1) 2).floor = true ∧
      seqBelow 4 (tgtCtx (markSeq mem1 2 4) 2).floor = false) := by
  decide +kernel

def out1 : State :=
  { win1 with fab := { win1.fab with
      ops := [(1, { target := 1, op := 0x55, length := 128, left := 1 })]
      src := [(2, { next := 3, out := [(0, { p := fp 1 0 0 0 [], op := some 1 }), (1, { p := fp 5 0 1 8 (leBytes 8 3), op := some 1 }), (2, { p := fp 3 0 2 0 (leBytes 144 3), op := some 1 })] })] } }

theorem witness_WindowSendersMoveOn_stale :
    let p := fp 2 4 0 0 []
    packetOk p = true ∧ packetStatus (pStatus p) = .epochStale ∧ pDst p = out1.fab.self ∧ pType p = 2 ∧
      (out1.fab.src.find? (fun c => c.2.out.any (fun o => o.1 == pRseq p &&
        (c.1 == (pSrc p).toNat || pEpoch o.2.p == pEpoch p)))).map (·.1) = some 2 ∧
      (outPkt out1 2 0).map (fun o => (epochOlder (pEpoch p) (pEpoch o.p), pType o.p, pAddr o.p)) = some (false, 1, 0) ∧
      tget out1.fab.maps.rackmap 0 = some 0 := by
  decide +kernel

theorem witness_AnswersRetireTheirPackets :
    packetOk (fp 2 0 0 0 (leBytes 128 7)) = true ∧ packetOk (fp 6 0 1 0 (leBytes 8 7)) = true ∧
      packetOk (fp 0x0A 0 0 0 []) = true ∧ packetOk (fp 0x11 0 3 0 []) = true ∧
      pStatus (fp 2 0 0 0 (leBytes 128 7)) = 0 ∧ out1.fab.waits = [] ∧ out1.fab.comb = [] ∧
      (outPkt out1 2 0).map (fun o => (o.op, pType o.p)) = some (some 1, 1) ∧
      (outPkt out1 2 1).map (fun o => (o.op, pType o.p)) = some (some 1, 5) ∧ (tget out1.fab.ops 1).map (fun r => cplDropped out1 r.cpl) = some false := by
  decide +kernel

def pass (hops dst typ : Nat) : Packet := { hdr := bits 256 [(0, typ), (42, hops), (128, 2), (144, dst)], payload := [] }

theorem witness_PacketsGoOnAndAreReplayed :
    linkUp win1 0 = true ∧ packetOk (pass 0 0 1) = true ∧ pDst (pass 0 0 1) = win1.fab.self ∧ pClass (pass 0 0 1) ≠ 3 ∧
      win1.fab.links.any (fun k => k.2.queue.contains (pass 0 0 1)) = false ∧
      pDst (pass 31 3 1) ≠ win1.fab.self ∧ 31 ≤ pHops (pass 31 3 1) ∧ pHops (pass 30 3 1) < 31 ∧
      pType (pass 30 3 1) ≠ 2 ∧ isRequestType (pType (pass 30 3 1)) = true ∧
      (tableFor (win1.at ⟨100, 9⟩) (pEpoch (pass 30 3 1))).isSome = true ∧
      (tableFor (win1.at ⟨100, 9⟩) 1).isSome = false ∧
      (outPkt out1 2 0).map (·.tries) = some 1 ∧ 1 < regF out1 0x40020 19 16 ∧
      regF out1 0x40020 19 16 ≤ ({ p := pass 0 0 1, tries := regF out1 0x40020 19 16 } : OutPkt).tries := by
  decide +kernel

/-! ### Links, the tick and partials -/

def links1 (x : Link) : State := { win1 with fab := { win1.fab with links := [(0, x)] } }

theorem witness_LinksTrain :
    linkPresent win1 0 = true ∧ linkPresent win1 95 = true ∧ linkPresent win1 96 = false ∧ linkEnabled win1 0 = true ∧
      linkEnabled win1 7 = true ∧ linkEnabled win1 8 = false ∧ (linkOf win1 1).state = .down ∧ 1 = 4 * 0 + 1 ∧
      mayTrain (links1 { cable := true }) 0 = true ∧ mayTrain (links1 { cable := true, state := .refused }) 0 = true ∧
      (∀ k ∈ [1, 2, 3, 5, 6], (linkOf (links1 { cable := true, state := .training, step := k }) 0).step = k) ∧
      (1 : BitVec 2) ≠ 0 ∧ laneCount { lanes := 3 } = 2 ∧ laneCount { lanes := 1 } = 1 := by
  decide +kernel

def ident1 : Ident := { peer := 2, link := 5, linkFits := true, period := 1000, backstop := 500, cutoff := 900, epoch := 0, requires := true, supports := true }

def keyMsg (kind : Nat) : KeyMsg :=
  let n := if kind = 0 then 1216 else 1088 + 3309
  { hdr := bits 256 [(0, 0x4B58), (16, 1), (192, kind), (200, 5), (208, 2), (224, 32 + n)], body := List.replicate n 0,
    chainOk := true, peerSvn := 0, sigOk := true }

def exch1 : State := links1 { cable := true, state := .training, step := 5, ident := some ident1, helloSeen := true }

def enc1 : State := links1 { cable := true, state := .active, lanes := 3, enc := true }

theorem witness_LinksExchangeAndRollKeys :
    (linkOf (links1 { state := .training, step := 4 }) 0).step = 4 ∧ requireEnc win1 = true ∧
      { ident1 with period := period win1, backstop := backstopPm win1, cutoff := cutoffPm win1 }.supports = true ∧
      { ident1 with period := period win1 + 1 }.period ≠ period win1 ∧ { ident1 with linkFits := false }.linkFits = false ∧
      exchanging exch1 0 = true ∧ keyMsgOk exch1 0 0 (keyMsg 0) = true ∧ keyMsgOk exch1 0 1 (keyMsg 1) = true ∧
      regF exch1 0x80038 31 0 ≤ (keyMsg 0).peerSvn ∧ (linkOf exch1 0).helloSeen = true ∧ (linkOf exch1 0).state = .training ∧
      linkUp enc1 0 = true ∧ (linkOf enc1 0).enc = true ∧ 4095 < 4096 := by
  decide +kernel

def lanes1 : State :=
  { enc1 with bar := { enc1.bar with inForce := enc1.bar.inForce ++ [(0x60048, 1)] } }

theorem witness_FlitsRecordsAndLanes :
    linkUp enc1 0 = true ∧ fieldOf (bits 64 [(20, 2)]) 23 20 ≤ 2 ∧ fieldOf (bits 64 [(20, 2)]) 63 52 = (linkOf enc1 0).rxNext ∧
      (linkOf enc1 0).txBuf.any (fun f => decide (flitGap 0 f.1 < 2048) && decide (8 ≤ f.2.1)) = false ∧
      ([(0, 7, pass 0 0 1)] : List (Nat × Nat × Packet)).any
        (fun f => decide (flitGap 0 f.1 < 2048) && decide (8 ≤ f.2.1)) = false ∧
      (linkOf enc1 0).queue = [] ∧ (linkOf enc1 0).lanes = 3 ∧
      (linkOf (links1 { state := .degraded, lanes := 1 }) 0).state = .degraded ∧ laneAllowed lanes1 0 = true ∧
      (linkOf (links1 { state := .active, lanes := 1, lanePower := true }) 0).lanePower = true := by
  decide +kernel

theorem witness_TicksCommitOnce :
    up.fault.keep = none ∧ up.pwr.state = .run ∧ commits up ⟨100, cutoffOff up + 40000⟩ = true ∧
      commits up ⟨100, cutoffOff up + 39999⟩ = false ∧ commits up ⟨99, cutoffOff up + 40000⟩ = false ∧
      up.time.lastCommit = some 99 ∧
      up.fw.escalated = none ∧ up.plan.cut = false ∧ 0 < cutoffOff up := by
  decide +kernel

theorem witness_RefillsListsAndWindowsEnd :
    refillDue { anchor := 101, window := 10 } (100 + 1) = true ∧ refillDue { anchor := 91, window := 10 } (100 + 1) = true ∧
      refillDue { anchor := 101, window := 10, lastRefill := some 101 } (100 + 1) = false ∧
      ([{ req := 7, tick := 100 }] : List Done).any (fun d => d.req == 7 && decide (d.tick + 3000 ≤ 3100)) = true ∧
      ([{ req := 7, tick := 101 }] : List Done).any (fun d => d.req == 7 && decide (d.tick + 3000 ≤ 3100)) = false ∧
      (bindOf { up with work := { binds := [(7, { tick := 100 })] } } 7).map (·.seen) = some false ∧
      req up 7 = none ∧ doneOf up 7 = none ∧ bnF up 0 0x0B8 31 0 = 360000 ∧ (359999 + 1) % bnF up 0 0x0B8 31 0 = 0 ∧
      (bench up 0).goodputEnd ≠ some 359999 ∧ windowEnds up (regF up 0x90010 31 0 - 1) = true ∧
      up.work.tallies = [] ∧ up.mgmt.meterProd < 2 ^ 32 := by
  decide +kernel

def synced1 (y : Sync) : State :=
  { enc1 with time := { enc1.time with sync := y, lastCommit := some 98 },
              bar := { enc1.bar with inForce := enc1.bar.inForce ++ [(0x10020, 3)] } }

theorem witness_TheTickIsSentAndLost :
    up.time.sync = .source ∧ (synced1 .locked).time.sync = .locked ∧ (synced1 .holdover).time.sync = .holdover ∧
      linkUp (synced1 .locked) 0 = true ∧
      stampGap (synced1 .locked) (stampNorm (synced1 .locked) ⟨99, 10 ^ 7 + 50⟩) ((synced1 .locked).at ⟨100, 0⟩).time.now ≤ 50 ∧
      stampGap (synced1 .locked) (stampNorm (synced1 .locked) ⟨100, 51⟩) ((synced1 .locked).at ⟨100, 0⟩).time.now = 51 ∧
      0 < sourcePrio (synced1 .holdover) ∧ (synced1 .lost).time.halted = false ∧
      (tget (synced1 .lost).fab.maps.benches 0).isSome = true ∧ tget (synced1 .lost).fab.maps.benches 1 = none := by
  decide +kernel

/-- What a time record says of its source: this module's own timing, and a priority. -/
def timing (s : State) (prio : Nat) : SourceInfo :=
  { period := period s, backstop := backstopPm s, cutoff := cutoffPm s, prio := prio, id := 2 }

theorem witness_TimeRecordsAreFollowed :
    linkUp (synced1 .locked) 0 = true ∧ (synced1 .locked).time.lowTick = false ∧
      (linkOf (links1 { state := .isolated }) 0).state = .isolated ∧
      outranks (synced1 .source) (timing (synced1 .source) 4) = true ∧
      outranks (synced1 .source) (timing (synced1 .source) 3) = false ∧
      outranked (synced1 .locked) (timing (synced1 .locked) 2) = true ∧
      outranked (synced1 .locked) (timing (synced1 .locked) 4) = false ∧
      stampGap (synced1 .locked) (stampAdd (synced1 .locked) ⟨100, 50⟩ 0) ((synced1 .locked).at ⟨100, 0⟩).time.now ≤ 50 ∧
      stampGap (synced1 .locked) (stampAdd (synced1 .locked) ⟨100, 51⟩ 0) ((synced1 .locked).at ⟨100, 0⟩).time.now = 51 ∧
      (stampAdd (synced1 .lost) ⟨98, 0⟩ (linkOf (synced1 .lost) 0).delay).tick = 98 ∧
      (stampAdd (synced1 .lost) ⟨97, 0⟩ (linkOf (synced1 .lost) 0).delay).tick < 98 ∧
      (synced1 .lost).time.lastCommit = some 98 ∧ period (synced1 .lost) + 1 ≠ period (synced1 .lost) ∧
      { (synced1 .mismatch).time with lowTick := true }.lowTick = true := by
  decide +kernel

theorem witness_TimeRecordsAreFollowed_adopted :
    ∃ u, exec (.timeRecordReceive ⟨100, 0⟩ 0 ⟨200, 0⟩ 1 (timing (synced1 .lost) 4)) (synced1 .lost) = .next u ∧
      u.time.now = ⟨200, 0⟩ ∧ ((synced1 .lost).at ⟨100, 0⟩).time.now = ⟨100, 0⟩ :=
  ⟨_, rfl, by decide +kernel, by decide +kernel⟩

def sealed1 : State :=
  { up with fab := { up.fab with sealSet := some (1, 100, {}), prev := some (0, 99, {}) } }

theorem witness_EpochsSwitchAndDrain :
    sealed1.fab.sealSet = some (1, 100, {}) ∧ 100 ≤ 100 ∧ 99 < 100 ∧ sealed1.fab.prev = some (0, 99, {}) ∧
      drainOpen (sealed1.at ⟨100, 0⟩) 99 = false ∧ drainOpen (sealed1.at ⟨99, 0⟩) 100 = true := by
  decide +kernel

def span1 : Span := { req := 7, layer := 2, gFirst := 3, gCount := 1, holder := 2, sampled := true, source := some 2 }
def unit1 : WorkUnit := { req := 7, conv := 9 }
def spansOf (x : Span) : State := { convs1 with plan := { spans := [x], units := [unit1] } }
def spans1 : State := spansOf span1

/-- A message header: its kind, layer, count and length. -/
def partHdr (kind layer count len : Nat) : BitVec 256 :=
  bits 256 [(0, 0x5041), (16, 1), (72, kind), (88, layer), (128, len), (160, count), (192, 100)]

/-- An ask of one span and one query head, its length in its place. -/
def ask1 : AskEntry :=
  { hdr := bits 256 [(0, 100), (40, 1), (48, 1), (80, 1)], spans := [bits 32 [(16, 64)]], scales := [0x3F800000], ops := List.replicate 32 0 }

/-- An answer of one record, whole, and one that leaves its page out. -/
def zeroRec : PartialRec := { count := 0, denLo := 0, denHi := 0, m := 0, num := List.replicate 32 0 }

def answer1 : AnswerEntry :=
  { hdr := bits 256 [(0, 176), (40, 1), (48, 1), (72, 1), (80, 3), (192, 7)], mask := [], recs := [zeroRec] }

def answer2 : AnswerEntry :=
  { hdr := bits 256 [(0, 184), (32, 1), (40, 1), (48, 1), (68, 1), (72, 1), (80, 3), (192, 7)], mask := [1], recs := [zeroRec] }

theorem witness_PartialsAreAskedAndAnswered_asks :
    (∀ x ∈ [(false, 0), (true, 1)], partialHdrOk (partHdr x.2 2 1 132) (if x.1 then 1 else 0) [ask1].length
      ([ask1].foldl (fun a e => a + fieldOf e.hdr 31 0) 32) = true) ∧
      (∀ e ∈ [ask1], askOk e = true ∧ askShapeOk up (fieldOf (partHdr 0 2 1 132) 63 32) e = true) ∧
      askOk { ask1 with scales := [] } = false ∧
      fieldOf (partHdr 0 2 1 132) 255 192 = (up.at ⟨100, 9⟩).time.now.tick ∧ synced up = true ∧
      synced (synced1 .lost) = false ∧ { up.plan with cut := true }.cut = true ∧
      notServing { up with pwr := { up.pwr with state := .rest } } = true ∧ up.plan.serves = [] := by
  decide +kernel

/-- An ask taken from module 2, alone and with a second span of the same ask. -/
def serve1 : Serve := { ask := 3, peer := 2, req := 7, conv := 8, layer := 2, gFirst := 3, gCount := 1, positions := 1, qHeads := 1 }

def serves1 (l : List Serve) : State := { convs1 with plan := { serves := l } }

theorem witness_PartialsAreAskedAndAnswered_runs :
    let s := serves1 [serve1]
    s.plan.cut = false ∧ synced s = true ∧
      s.plan.serves.find? (fun v => v.peer == 2 && v.req == 7 && v.layer == 2 && v.gFirst == 3 && v.answer.isNone) =
        some serve1 ∧
      (heldTable (s.at ⟨100, 9⟩) serve1.conv serve1.backstop).isSome = true ∧ runWaits (s.at ⟨100, 9⟩) serve1 = false ∧
      (∀ x ∈ s.plan.serves, x.ask = serve1.ask → x.peer = 2 ∧ (x = serve1 ∨ x.answer.isSome = true)) ∧
      ∃ x ∈ (serves1 [serve1, { serve1 with gFirst := 9 }]).plan.serves,
        x.ask = serve1.ask ∧ x ≠ serve1 ∧ x.answer = none := by
  decide +kernel

theorem witness_PartialsAreAskedAndAnswered_answers :
    partialHdrOk (partHdr 2 2 1 208) 2 [answer1].length ([answer1].foldl (fun a e => a + fieldOf e.hdr 31 0) 32) = true ∧
      (∀ e ∈ [answer1, answer2], answerOk (manOf spans1 0) e = true ∧ asAsked (noteLink (spans1.at ⟨100, 9⟩)) 2 0 2 e.hdr = true) ∧
      asAsked (noteLink (spans1.at ⟨100, 9⟩)) 2 0 2 (answer1.hdr + 2 ^ 48) = false ∧
      fieldOf (partHdr 2 2 1 208) 83 80 = 0 ∧ fieldOf (partHdr 2 2 1 208) 95 88 = 2 ∧
      spans1.plan.spans.find? (answersTo 2 0 2 answer1.hdr) = some span1 ∧ spans1.time.now.tick = 100 ∧
      (9 : Nat) < cutoffOff spans1 ∧
      (∃ u ∈ spans1.plan.units, u.req = fieldOf answer1.hdr 255 192 ∧ u.bench = 0 ∧ u.dropped = false ∧
        (u.cls = .step ∨ u.cls = .chunk)) ∧
      { span1 with accepted := true }.accepted = true ∧ spanDone span1 = false ∧ fieldOf answer1.hdr 71 68 = 0 ∧
      fieldOf answer2.hdr 71 68 = 1 ∧ span1.held = none ∧ maskCount answer2.mask < maskCount [3] := by
  decide +kernel

theorem witness_PartialsAreAskedAndAnswered_settles :
    let e := bits 128 [(48, 3), (64, 7)]
    let r := bits 128 [(32, 1), (48, 3), (64, 7)]
    partialHdrOk (partHdr 3 2 1 48) 3 [e].length (32 + 16 * [e].length) = true ∧ spans1.plan.cut = false ∧
      fieldOf (partHdr 3 2 1 48) 255 192 = (spans1.at ⟨100, 9⟩).time.now.tick ∧ settles 2 0 2 e span1 = true ∧
      settles 2 0 2 r span1 = true ∧ bitOf e 32 = false ∧ bitOf r 32 = true ∧
      settles 3 0 2 e span1 = false := by
  decide +kernel

/-- A span that waits since the start of the tick, and one set aside, on a bench whose miss policy gives up. -/
def waiting1 : Span := { span1 with askStamp := some ⟨100, 0⟩ }

def sight1 (x : Span) : State :=
  { spansOf x with benches := [(0, { record := bits 1024 [(8, 3), (10, 1)], state := .ready })] }

theorem witness_PartialsAreAskedAndAnswered_waits :
    let s := sight1 waiting1
    synced s = true ∧ s.plan.cut = false ∧ waitOver s ⟨100, 9000000⟩ waiting1 = true ∧
      waitOver s ⟨100, 0⟩ waiting1 = false ∧ spanDone waiting1 = false ∧ waiting1.aside = false ∧
      waiting1 ∈ s.plan.spans ∧ hasBackup waiting1 = false ∧ sightOf s 7 = true ∧
      (let x := { waiting1 with aside := true, asideAt := some ⟨100, 500⟩ }
       x ∈ (sight1 x).plan.spans ∧ sightOf (sight1 x) 7 = true ∧ giveUpAt (sight1 x) x = some ⟨100, 500⟩ ∧
         stampLe ⟨100, 500⟩ ⟨100, 500⟩ = true ∧
         giveUpAt (sight1 x) { x with replicas := [3], backStamp := some ⟨100, 600⟩ } =
           some (stampAdd (sight1 x) ⟨100, 600⟩ (remoteNs (sight1 x) 0))) := by
  decide +kernel
/-! ### Keepers and hauls -/

theorem witness_NoticesWaitAndAct :
    (conv convs1 9).map (fun c => (c.key, c.home)) = some (9, true) ∧
      (conv { convs1 with work := { convs := [(9, { key := 9, home := false })] } } 9).map (·.home) = some false ∧
      (⟨9, 0, 0, 0⟩ : PageRef).conv = 9 := by
  decide +kernel

/-- A BOUNDED request on a MIXED bench 0, a CACHE bench 1, and what its keeper holds. -/
def cacheRec : BitVec 1024 := bits 1024 [(8, 2), (64, 1), (192, 1), (576, 1)]

def guard1 : State :=
  { convs1 with
    benches := [(0, { record := bits 1024 [(8, 3), (12, 1), (16, 3), (192, 1)], state := .ready, pkg := some pkg1 }),
                (1, { record := cacheRec, state := .ready })]
    fab := { maps := { benches := [(0, fitted), (1, cacheRec)] } }
    work := { reqs := [(7, { key := 7, conv := 9, state := .generating, ckptTick := some 96 })]
              convs := [(9, { key := 9, state := .active, req := some 7, keeper := 2, nextSeq := 1,
                              segs := [{ conv := 9, seq := 0 }] })] }
    haul := { keeper := [(20, { home := 2, ckpt := some (99, { key := 3 }, { key := 20 }) })] } }

theorem witness_HomesGuardTheirConversations :
    (req guard1 7).map (fun r => (r.key, r.conv, reqLive r.state)) = some (7, 9, true) ∧
      (conv guard1 9).map (fun c => (c.key, c.home, c.guarded)) = some (9, true, true) ∧ bounded guard1 0 = true ∧
      ckptK guard1 0 = 4 ∧ commitOf guard1 ⟨99, 0⟩ % 4 = 7 % 4 ∧ (req guard1 7).map (·.ckptTick) = some (some 96) ∧
      some 96 ≠ some (commitOf guard1 ⟨99, 0⟩) ∧ (req guard1 7).map (·.ckptAcked) = some none := by
  decide +kernel

def page1 : Entry :=
  { rows := 64, state := .sealed, tier := .hbm
    key := mkBlock { kind := 0, mode := 1, final := true, rows := 64, cols := 32, rank := 1, fpTag := 77 } 8 (List.replicate 96 0)
    value := mkBlock { kind := 1, mode := 1, final := true, rows := 64, cols := 32, rank := 1, fpTag := 77, cbIndex := 1 } 8
      (List.replicate 96 0) }

theorem witness_KeepersStoreAndRestore :
    (segOf (segMsg { conv := 20, seq := 5 })).map (fun g => (g.conv, g.seq, segBytes g)) =
        some (20, 5, segBytes { conv := 20, seq := 5 }) ∧
      segOf { segMsg { conv := 20, seq := 5 } with body := [] } = none ∧
      keeperRoom guard1 (segBytes { conv := 20, seq := 5 }) = some 1 ∧ keeperRoom guard1 0 = some 1 ∧
      (keeperOf guard1 21).ckpt = none ∧ (tget guard1.haul.keeper 20).isSome = true ∧ inKeep guard1 = false ∧
      conv guard1 20 = none ∧ headerFor guard1 20 = true ∧
      (tget guard1.haul.keeper 20).bind (·.ckpt) = some (99, { key := 3 }, { key := 20 }) ∧
      replicaBench guard1 = some 1 ∧ replicaBench ready1 = some 0 ∧ inKeep ready1 = false ∧
      copyCause ready1 0 page1 true = none ∧ copyCause ready1 0 { page1 with rows := 63 } true = some 2 ∧
      copyCause ready1 0 page1 false = some 1 ∧ hasSpace ready1 0 (pageBytes page1) = true := by
  decide +kernel

/-- A haul message: kind, purpose, source, number, conversation. -/
def hm (kind purpose src id k : Nat) (body : HaulBody) : HaulMsg :=
  { hdr := bits 256 [(0, 0x484C), (32, 77), (64, kind), (72, purpose), (80, src), (96, id), (192, k)], body := body }

/-- A frozen conversation and its haul to module 2. -/
def hauls1 : State :=
  { convs1 with
    work := { convs := [(8, { key := 8, fpTag := 77 }), (9, { key := 9, state := .idle, frozen := some 5 })] }
    haul := { nextId := 6, out := [(5, { conv := 9, purpose := .park, dst := 2, tries := 1 })] } }

theorem witness_HaulSourcesFreezeAndMove :
    hmOk (hm 7 2 2 0 8 (.request true)) 7 = true ∧ inKeep hauls1 = false ∧
      (purposeOf (hmPurpose (hm 7 2 2 0 8 (.request true)))).isSome = true ∧
      (conv hauls1 8).map (fun c => (c.home, c.frozen, c.state)) = some (true, none, .idle) ∧
      (srcHaul hauls1 5).map (fun h => (h.conv, h.aborted, h.ended)) = some (9, false, none) ∧
      hmOk (hm 1 1 0 5 9 .none) 1 = true ∧ hmId (hm 1 1 0 5 9 .none) = 5 ∧
      hmOk { hm 2 1 0 5 9 (.refuse none) with hdr := bits 256 [(0, 0x484C), (24, 8), (64, 2), (96, 5), (192, 9)] } 2 = true ∧
      hmSrc (hm 2 1 0 5 9 (.refuse none)) = hauls1.fab.self ∧ hmConv (hm 2 1 0 5 9 (.refuse none)) = 9 ∧
      statusOf 8 = .noCapacity ∧ statusOf 8 ≠ .blockCorrupt ∧ hmOk (hm 4 1 0 5 9 .none) 4 = true ∧
      (srcHaul hauls1 5).map (fun h => endsPending hauls1 h ⟨100, 0⟩) = some false ∧
      (srcHaul hauls1 5).map (fun h => endsPending { hauls1 with host := { landed := [{ cpl := { stamp := ⟨99, 0⟩ }, raw := some (bits 512 [(0, 0x25), (128, 9)]) }] } }
        h ⟨100, 0⟩) = some true ∧
      1 + 1 < bnF hauls1 0 0xA8 19 16 ∧ bnF hauls1 0 0xA8 19 16 ≤ 2 + 1 ∧ 5 ≠ hauls1.haul.nextId ∧
      srcHaul hauls1 (hmId (hm 2 1 0 4 9 .none)) = none := by
  decide +kernel

def in1 : DstHaul :=
  { src := 2, conv := 30, offered := 1, entries := [page1], table := some { key := 30 }, log := some [], written := true }

def hauls2 : State := { ready1 with haul := { inn := [(5, in1)] } }

theorem witness_HaulDestinationsKeepOrDiscard :
    (let m := hm 0 1 2 7 31 (.offer 4096 1 1 false false false)
     hmOk m 0 = true ∧ purposeOf (hmPurpose m) = some .park ∧
       offerRefusal (noteLink (hauls2.at ⟨100, 9⟩)) m .park 4096 false false false = none ∧
       offerRefusal (noteLink (hauls2.at ⟨100, 9⟩)) m .park (2 ^ 60) false false false = some .noCapacity) ∧
    ((dstHaul hauls2 5 2).isSome = true ∧ hmId (hm 3 1 2 5 30 .none) = 5 ∧ hmSrc (hm 3 1 2 5 30 .none) = 2 ∧
       hmOk (hm 3 1 2 5 30 (.data (.pages [page1]))) 3 = true ∧ Machine.pageOk hauls2 0 (hmFp (hm 3 1 2 5 30 .none)) page1 = true ∧
      hmOk (hm 5 1 2 5 30 (.freed ⟨100, 0⟩)) 5 = true ∧ in1.freed = none ∧ hmOk (hm 6 1 2 5 30 .none) 6 = true ∧
      { in1 with freed := some ⟨99, 0⟩ }.freed.isSome = true) ∧
    (haulWhole in1 = true ∧ hauls2.tier.writes.any (fun w => w.2.haul == some (5, 2)) = false ∧
      ackAllowed hauls2 (stampMax hauls2.time.now ⟨100, 9⟩) = true ∧
      ackAllowed hauls2 ⟨100, cutoffOff hauls2 - 1⟩ = false ∧ ackAllowed hauls2 ⟨100, cutoffOff hauls2⟩ = true ∧
      in1.written = true) := by
  decide +kernel


/-- A table of the conversation, a log and a sampler state, as they arrive; and what fails its check. -/
def table1 : BitVec 512 × List (BitVec 128) := tableRaw hauls2 { key := 30 }

theorem witness_HaulDestinationsKeepOrDiscard_pieces :
    (tableOf table1.1 table1.2 {}).map (·.key) = some 30 ∧ in1.conv = 30 ∧
      hmOk (hm 3 1 2 5 30 (.data (.table table1.1 table1.2 {}))) 3 = true ∧
      tableOf (table1.1 + 1) table1.2 {} = none ∧
      (tableOf (tableRaw hauls2 { key := 31 }).1 (tableRaw hauls2 { key := 31 }).2 {}).map (·.key) = some 31 ∧
      (mkRec true 0 64 2 0 0 77 (List.replicate 16 0) .hbm).ok (hmFp (hm 3 1 2 5 30 .none)) = true ∧
      (segsOf [segMsg { conv := 30 }]).isSome = true ∧ segsOf [{ segMsg { conv := 30 } with body := [] }] = none ∧
      samplerHdrOk (samplerHdr { key := 7 } 0 0) { key := 7 } = true ∧
      Machine.pageOk hauls2 0 77 { page1 with rows := 63 } = false := by
  decide +kernel
/-! ### Blocks, units and tiers -/

def pageRef1 : PageRef := ⟨8, 0, 0, 0⟩

def pages1 (e : Entry) : State :=
  { convs1 with work := { convs := [(8, { key := 8, fpTag := 77, entries := [e, { e with state := .replica, holder := 2 }] })] } }

/-- A page's count goes up at its primary. -/
theorem witness_NoticesWaitAndAct_pages :
    (findPage (pages1 page1) pageRef1).map isOwn = some true ∧
      (∀ x ∈ (pages1 page1).work.convs, x.2.key = x.1) ∧ (⟨8, 0, 0, 0⟩ : PageRef) = pageRef1 := by
  decide +kernel

/-- The package with one weight tile under one codebook, and the tile. -/
def tile1 : Block := mkBlock { kind := 2, final := true, fpTag := 77 } 8 [1]

def pkg2 : Package :=
  { pkg1 with books := [{ hdr := bits 128 [(0, 0x4342), (16, 8), (32, 16)], body := List.replicate 16 0 }], tiles := [tile1] }

theorem witness_BlocksUnitsAndFramesAreChecked :
    (conv (pages1 page1) 8).isSome = true ∧ findPage (pages1 page1) pageRef1 = some page1 ∧ isOwn page1 = true ∧
      (pages1 page1).tier.reread = [] ∧ page1.state ≠ .missing ∧ page1.state ≠ .lost ∧
      (findPage (pages1 { page1 with state := .missing, key := {}, value := {} }) pageRef1).map (fun e => (e.state, isOwn e)) =
        some (.missing, true) ∧
      pageCause (pages1 page1) 0 77 { page1 with
        state := .sealed, key := page1.key, value := page1.value,
        cls := max (classFor page1.key.bytes) (classFor page1.value.bytes) } = none ∧
      pageCause (pages1 page1) 0 77 { page1 with value := page1.key } = some 2 ∧
      0 < cutoffOff (pages1 page1) ∧ budgetNo page1.tier = some 0 ∧
      fitBytes page1 false (some page1.key) ≤ shareLeft (pages1 page1) 0 0 := by
  decide +kernel

theorem witness_BlocksUnitsAndFramesAreChecked_units :
    (bench (pages1 page1) 0).pkg.isSome = true ∧ 0 ∈ ({ reloading := [0], pkg := some pkg2 } : Bench).reloading ∧
      tileBookOk pkg2 tile1 = true ∧ (if 0 < pkg2.tiles.length then 0 else 0 - pkg2.tiles.length) = 0 ∧
      tileFault pkg2 0 tile1 = none ∧ tileFault pkg2 0 { tile1 with payload := [] } = some 3 ∧
      tget ([(1, { shadow := ⟨.engine, 3⟩ })] : Table Item) 1 = some { shadow := ⟨.engine, 3⟩ } ∧
      ({ shadow := ⟨.engine, 3⟩ } : Item).mismatch = false ∧ ({ shadow := ⟨.engine, 3⟩ } : Item).shadow.kind ≠ .none ∧
      resultsAgree (.sums [3]) (.sums [3]) = true ∧ resultsAgree (.sums [3]) (.sums [4]) = false ∧
      ({ mismatch := true, kept := .sums [3], shadowFound := some (.sums [4]) } : Item).mismatch = true := by
  decide +kernel

theorem witness_BlocksUnitsAndFramesAreChecked_frames :
    0 < regF up 0x30020 3 0 ∧ 0 < regF up 0x30020 63 32 ∧
      regF up 0x30020 3 0 ≤ (((List.replicate (regF up 0x30020 3 0 - 1) (.hbm, 0, 5, 100) ++ [(.hbm, 0, 5, 100)] :
        List (Tier × Nat × Nat × Nat))).filter
        (fun c => c.1 == .hbm && c.2.1 == 0 && c.2.2.1 == 5 && decide (100 < c.2.2.2 + regF up 0x30020 63 32))).length ∧
      Tier.hbm ≠ .flash := by
  decide +kernel

def move1 : Move := { page := pageRef1, src := .hbm, dst := .lpddr, writable := true, began := ⟨99, 0⟩ }

def moves1 : State :=
  { pages1 page1 with tier := {
      moves := [(1, move1), (2, { move1 with writable := false }), (3, { move1 with writable := false, dst := .flash })]
      writes := [(4, { moves := [3], units := 1 })], reads := [(5, { page := pageRef1 }), (6, { late := true })]
      parked := [(40, { key := 40 })] } }

theorem witness_PagesMoveAndFlashServes :
    (tget moves1.tier.moves 1).map (·.writable) = some true ∧ ¬(move1.began.tick = 100 ∧ 0 < cutoffOff moves1) ∧
      (tget moves1.tier.moves 2).map (fun m => (m.writable, m.dst)) = some (false, .lpddr) ∧
      (tget moves1.tier.moves 3).map (fun m => (m.writable, m.dst, m.extent)) = some (false, .flash, none) ∧
      (∀ x ∈ tput moves1.tier.moves 3 { move1 with writable := false, dst := .flash, copied := true },
        extentMate pageRef1 x.2 = true → x.2.extent = none → x.2.copied = true) ∧
      (∀ x ∈ moves1.tier.ready, extentMate pageRef1 x = false) ∧
      (∃ x ∈ [{ move1 with writable := false, dst := .flash }], extentMate pageRef1 x = true) ∧ hasFlash moves1 = true ∧
      (tget moves1.tier.writes 4).map (·.moves) = some [3] := by
  decide +kernel

theorem witness_PagesMoveAndFlashServes_demotions :
    findPage (pages1 page1) pageRef1 = some page1 ∧ tierBelow .hbm = some .lpddr ∧ movable (pages1 page1) pageRef1 = true ∧
      (conv (pages1 page1) 8).map (fun c => decide (tierRank .lpddr ≤ tierRank (floorOf (pages1 page1) c))) = some true ∧
      0 < tierSlices (pages1 page1) 0 .lpddr ∧
      (conv (pages1 page1) 8).map (fun c => demoteWith c page1 .lpddr) = some [page1] ∧
      page1.lastRead + idleTicks up .hbm ≤ idleTicks up .hbm ∧
      idleTicks up .hbm - 1 < page1.lastRead + idleTicks up .hbm ∧ 0 < idleTicks up .hbm ∧
      oldPages (pages1 page1) 0 .hbm = [(pageRef1, page1)] ∧ 0 < regF up 0x30010 9 0 ∧
      0 < (regF up 0x30010 9 0 - 0) * tierRoom (pages1 page1) 0 .hbm / 1000 := by
  decide +kernel

/-- A parked conversation whose one group lies in LPDDR. -/
def cold2 : State :=
  let e := { page1 with tier := .lpddr }
  { convs1 with work := { convs := [(8, { key := 8, fpTag := 77, state := .parked, entries := [e] })] } }

theorem witness_PagesMoveAndFlashServes_extents :
    (findPage cold2 pageRef1).map (·.tier) = some .lpddr ∧ tierBelow .lpddr = some .flash ∧ movable cold2 pageRef1 = true ∧
      (conv cold2 8).map (fun c => decide (tierRank .flash ≤ tierRank (floorOf cold2 c)) && c.stripe.isNone &&
        c.entries.all (fun x => isOwn x && x.tier == .lpddr)) = some true ∧
      0 < tierSlices cold2 0 .flash ∧ (conv cold2 8).map (fun c => (demoteWith c { page1 with tier := .lpddr } .flash).length) = some 1 ∧
      (oldPages cold2 0 .lpddr).length = 1 := by
  decide +kernel

/-- A tier that holds a replica alone. -/
theorem witness_PagesMoveAndFlashServes_replicas :
    let s := { convs1 with work := { convs := [(8, { key := 8, entries := [{ page1 with state := .replica, holder := 0 }] })] } }
    oldPages s 0 .hbm = [] ∧ (replicasHeld s 0 .hbm).length = 1 ∧ 0 < regF s 0x30010 9 0 ∧
      0 < (regF s 0x30010 9 0 - 0) * tierRoom s 0 .hbm / 1000 := by
  decide +kernel

theorem witness_PagesMoveAndFlashServes_flash :
    flashRuns (pages1 { page1 with tier := .flash }) = true ∧ (tget moves1.tier.reads 5).map (·.late) = some false ∧
      (tget moves1.tier.reads 6).map (·.late) = some true ∧
      (findPage (pages1 { page1 with tier := .flash }) pageRef1).map (·.tier) = some .flash ∧
      (fblock moves1 0).retired = false ∧ moves1.tier.relist = false ∧ (∀ x ∈ moves1.tier.parked, x.2.key = x.1) := by
  decide +kernel

/-! ### Resets, firmware, management and power -/

def cold1 : State := { State.reset with fw := { row := 1 } }

theorem witness_ResetsKeepAndDiscard :
    coldRunning up = false ∧ coldRunning { up with fw := { up.fw with row := 7 } } = true ∧ up.fw.resetLow = false ∧
      barReady up = true ∧ up.pwr.state ≠ .rest ∧ { up.pwr with inputDown := true }.inputDown = true ∧
      up.pwr.inputDown = false ∧ up.pwr.excursion = false ∧ 44999 < 45000 ∧ 48000 ≤ 48000 ∧ (45000 ≤ 49999 ∧ 49999 < 50000) ∧
      60000 < 60001 := by
  decide +kernel

def boot1 (row : Nat) (d : BootDir) : State := { State.reset with fw := { row := row, dir0 := dirBits d } }

theorem witness_StartUpGoesByRows :
    State.reset.pwr.off = false ∧ State.reset.fw.resetLow = false ∧ State.reset.fw.stage ≠ .recovery ∧
      State.reset.fw.stage ≠ .keep ∧ (boot1 1 {}).fw.row = 1 ∧ (bootDir (boot1 2 {})).trial = 0 ∧ (boot1 2 {}).fw.row + 1 = 3 ∧
      (boot1 4 {}).fw.row + 1 = 5 ∧ (bootDir (boot1 2 { trial := 1, started := true })).trial = 1 ∧
      (bootDir (boot1 2 { trial := 1, started := true })).started = true ∧
      dirRoom (boot1 2 { trial := 1, started := true }) = true ∧ dirRoom up = true ∧
      dirRoom { up with fw := { up.fw with dir0 := dirBits { trial := 2, started := true } } } = true ∧
      dirRoom (boot1 2 { seq := 2 ^ 64 - 1 }) = false ∧
      ({ up with fw := { stage := .links, row := 7, perstLow := false } } : State).fw.row = 7 ∧ up.time.sync = .source ∧
      inKeep up = false ∧ State.reset.pwr.held = false ∧ State.reset.fw.bootExpired = false ∧
      { State.reset.fw with bootExpired := true }.bootExpired = true ∧ State.reset.sec.genuine = true ∧
      { State.reset.sec with genuine := false }.genuine = false ∧ inKeep (boot1 1 {}) = false ∧
      (∀ k ∈ [1, 2], slotOk (boot1 2 {}) k (slotInUse (boot1 2 {}) k) true = true ∧
        slotOk (boot1 2 {}) k (slotInUse (boot1 2 {}) k) false = false ∧
        slotOk (boot1 2 {}) k (otherSlot (boot1 2 {}) k) true = true) := by
  decide +kernel

def restarting1 (n : Nat) : State :=
  { up with fw := { up.fw with stage := .restart, restart := some (1, ⟨99, 0⟩, n) } }

theorem witness_ControlRestartsAndTrials :
    fwRuns up = true ∧ restarting up = false ∧ (bootDir up).started = false ∧
      (recentRestarts (up.at ⟨100, 9⟩)).length + 1 < regF up 0x70008 19 16 ∧
      { up.fw with hitlessWait := true }.hitlessWait = true ∧ switchNear (up.at ⟨100, 9⟩) = false ∧
      up.fw.restart = none ∧ up.pwr.planStable = true ∧ up.fw.late + 1 < regF up 0x70008 11 8 ∧
      (restarting1 1).fw.restart = some (1, ⟨99, 0⟩, 1) ∧ (restarting1 2).fw.readyAt = none ∧
      (bootDir { up with fw := { up.fw with dir0 := dirBits { trial := 2, started := true } } }).trial ≠ 0 ∧
      (bootDir { up with fw := { up.fw with dir0 := dirBits { trial := 2, started := true } } }).started = true ∧
      up.fw.stage = .ready ∧ 1000 ≤ { up.fw with trialRuns := 1000 }.trialRuns ∧ up.sec.genuine = true ∧
      { up.sec with genuine := false }.genuine = false ∧ 1 < 2 ∧ inKeep (restarting1 2) = false ∧
      (recentRestarts ((restarting1 1).at ⟨100, 9⟩)).length + 1 < regF (restarting1 1) 0x70008 19 16 ∧
      slotOk (restarting1 1) 2 (otherSlot (restarting1 1) 2) true = true ∧ dirRoom (restarting1 1) = true := by
  decide +kernel

def cmd (code : Nat) : MgmtCmd :=
  { stamp := ⟨100, 9⟩, transport := .i3c, session := true, hdr := bits 128 [(0, 1), (16, code)] }

theorem witness_ManagementCommandsAct :
    (∀ x ∈ [(0x01, MgmtOp.readRegs 0x10030 8), (0x01, .readRegs 0x10030 4000), (0x01, .readRegs 1 8), (0x01, .readRegs 0 4008),
        (0x02, .readLog 0), (0x03, .readMeter 0), (0x10, .stageBench 1 (bits 1024 [(0, 5)])), (0x11, .stageRoute 1 3596 []),
        (0x12, .stageExport 1 (bits 256 [(0, 63)])), (0x13, .stageRackmap 1 []), (0x14, .stageEvac 1 15 2 15),
        (0x15, .sealEpoch 1 200), (0x16, .discardStage 1), (0x20, .setSigPolicy 15 true 5),
        (0x21, .clearQuarantine ⟨.cell, 0⟩), (0x22, .keyErase 0), (0x23, .reset false), (0x23, .reset true),
        (0x24, .keepEnter), (0x25, .restEnter)], takes up (cmd x.1) x.2 = true) ∧
      stagedFor up 1 = some up.fab.maps ∧ stagedFor up 2 = none ∧ stagedFor up 0 = none ∧
      benchRecordOk up (bits 1024 [(0, 5)]) = true ∧
      [bits 64 [(8, 0xFF), (16, 0xFF), (24, 0xFF), (48, 2)]].all (routeOk up) = true ∧
      regionOk up (bits 256 [(0, 63)]) up.fab.maps = true ∧ (List.replicate 32 (0 : ModuleId)).length = 32 ∧
      up.fab.sealSet = none ∧ { up.fab with staged := some (1, {}) }.staged = some (1, {}) ∧ up.bar.lock = false ∧
      { up.bar with lock := true }.lock = true ∧ inKeep up = false ∧ coldRunning up = false ∧
      (⟨.cell, 0⟩ : UnitId).kind ≠ .link ∧ linkPresent up 95 = true ∧ linkPresent { up with stock := .mc } 24 = false ∧
      (0x10028 % 8 = 0 ∧ ¬(0x10028 ≤ 0x10030 ∧ 0x10030 < 0x10028 + 8)) := by
  decide +kernel

def image1 (hitless : Nat) : Image :=
  { hdr := bits 512 [(0, 0x4657), (16, 1), (32, 2), (40, hitless)], keyHashOk := true, sigOk := true, digestOk := true }

def upd1 : State :=
  { up with mgmt := { update := some { comps := [1, 2], comp := 2, size := 4096, got := 0, image := some (image1 0) } } }

theorem witness_EndpointsSensorsAndUpdates :
    (∀ r ∈ [SideReq.mctp 1 9, .getPdr 1, .pdrInfo, .sensorReading 0, .stateReading 49, .sensorEnable 44 false,
        .eventReceiver 9, .queryIds, .fwParams, .requestUpdate, .passTable [1, 2], .updateComp 2 1, .fwData 0 4096 none,
        .activate, .updateStatus, .cancelComp, .cancelUpdate], sideTakes up .i3c r = true) ∧
      (sensorList up)[1 - 1]? = some 0 ∧ numericSensor up 0 = true ∧ numericSensor up 44 = true ∧ numericSensor up 45 = false ∧
      0 ∉ up.mgmt.disabled ∧ stateSensor 49 = true ∧ up.mgmt.update = none ∧ (bootDir up).trial = 0 ∧
      (bootDir { up with fw := { up.fw with dir0 := dirBits { trial := 1 } } }).trial ≠ 0 ∧ [1, 2].all isComponent = true ∧
      isComponent 3 = false ∧ updateOk up 2 (image1 0) = true ∧ updateOk up 1 (image1 0) = false ∧
      (upd1.mgmt.update).map (fun p => (p.comp, p.got, p.size, p.verified)) = some (2, 0, 4096, false) ∧ 0 + 4095 < 4096 ∧
      0 + 4096 = 4096 ∧ bitOf (image1 0).hdr 40 = false ∧ bitOf (image1 1).hdr 40 = true ∧ fwRuns upd1 = true ∧ dirRoom upd1 = true := by
  decide +kernel

def spdm1 : State :=
  { up with sec := { negotiated := [(1, 3)], sessions := [(5, { transport := .i3c }), (6, { transport := .i3c, finished := true })] } }

theorem witness_SessionsAreOpenedAndKeyed :
    Transport.i3c ≠ .mirror ∧ spdm1.fw.stage ≠ .restart ∧
      (∀ r ∈ [SideReq.getVersion, .getCapabilities, .negotiate [.mldsa65, .other 9], .getDigests, .getCertificate 0 0 16, .challenge 0 7,
        .getMeasurements 1, .keyExchange, .finish 5 true, .finish 5 false, .heartbeat 6, .keyUpdate 6, .endSession 6,
        .ideKm 6 7 [.pf] true], sideTakes spdm1 .i3c r = true) ∧
      [SpdmAlg.mldsa65, .other 9].filterMap algNumber = [1] ∧ [SpdmAlg.other 9].filterMap algNumber = [] ∧
      connected up .i3c = 0 ∧ connected spdm1 .i3c = 3 ∧ spdm1.sec.sessions.length < 4 ∧
      (let s := { up with sec := { sessions := (List.range 4).map (fun i => (i, { transport := .i3c })) } }
       4 ≤ s.sec.sessions.length) ∧
      sideTakes (restarting1 1) .i3c .getVersion = true ∧ (restarting1 1).fw.stage = .restart ∧
      (tget spdm1.sec.sessions 5).map (·.finished) = some false ∧ (tget spdm1.sec.sessions 6).map (·.finished) = some true ∧
      (tget spdm1.sec.sessions 6).map (·.transport) = some .i3c := by
  decide +kernel

/-- The chain holds a first portion. -/
theorem witness_SessionsAreOpenedAndKeyed_chain : 0 < (chainBytes spdm1).length := by
  simp [chainBytes, certChain, certificate]

/-- Before the set-up is locked, measurement 6 is zero. -/
theorem witness_SessionsAreOpenedAndKeyed_measured : measurement spdm1 6 = some 0 := by decide +kernel

def hot1 : State := { ready1 with pwr := { ready1.pwr with loops := [(0, .tj), (0, .droop)] } }

theorem witness_ProtectiveLoopsLowerTheirTile :
    10 * regF hot1 0x60040 6 0 ≤ 1000 ∧ 999 < 10 * regF hot1 0x60040 6 0 ∧ 0 < floorMhz hot1 0 ∧
      tileMhz hot1 0 - 25 < floorMhz hot1 0 ∧ onTile hot1 0 0 = true ∧ onTile hot1 0 7 = true ∧ onTile hot1 0 6 = false ∧
      (0, OvCause.droop) ∈ hot1.pwr.loops ∧ (∀ o ∈ [((0 : Nat), OvCause.tj)], o.1 = 0 → o.2 = .tj) := by
  decide +kernel

theorem witness_RestIsEnteredAndLeft :
    barReady up = true ∧ up.pwr.state = .run ∧ { up.pwr with restDue := true }.restDue = true ∧ up.pwr.restDue = false ∧
      inKeep up = false ∧ up.pwr.flowOk = true ∧ up.pwr.latched = none ∧ up.mgmt.latched = [] ∧ up.mgmt.latchedSide = [] ∧
      up.pwr.bellFlag = false ∧ up.pwr.linkFlag = false ∧ (450 : Int) = 10 * regF up 0x60058 30 24 ∧
      (800 : Int) = 10 * regF up 0x60058 38 32 ∧ 100 * regF up 0x60058 49 40 = 50000 ∧ 100 * regF up 0x60058 61 52 = 60000 ∧
      up.pwr.pwrGood = true ∧ up.pwr.wasStable = true ∧ { up.pwr with wasStable := false }.wasStable = false ∧
      { up.pwr with state := .entering }.state = .entering := by
  decide +kernel

theorem witness_TheMostExtensiveRestartWins :
    up.pwr.off = false ∧ coldRunning { up with fw := { up.fw with row := 7 } } = true ∧ coldRunning up = false ∧
      barReady up = true ∧ up.fw.resetLow = false ∧ restarting (restarting1 1) = true ∧
      (restarting1 1).fw.restart = some (1, ⟨99, 0⟩, 1) ∧ 1 < 2 := by
  decide +kernel

theorem witness_GraveEntriesSignal :
    (∃ c ∈ [ErrClass.memory, .tick, .control, .environment, .keep], ∃ k ∈ List.range 8, severity c k < 2) ∧
      ∃ c ∈ [ErrClass.memory, .tick, .control, .environment, .keep], ∃ k ∈ List.range 8, 2 ≤ severity c k := by
  decide +kernel

theorem witness_ResetNHoldsTheModule :
    { up.fw with resetLow := true }.resetLow = true ∧ up.pwr.off = false ∧ 999 < 1000 ∧ 9999 < 10000 ∧ 10000 ≤ 10000 := by
  decide

def unload1 (x : Bench) : State := { up with benches := [(0, x)] }

theorem witness_UnloadsCompleteByBenchState :
    hasRecord up 0 = true ∧ zeroAt (desc 0x11 [(9, 2), (256, 65535)]).raw 511 272 = true ∧
      zeroAt (desc 0x11 [(9, 2), (256, 65535)]).raw 255 64 = true ∧ fieldOf (desc 0x11 [(9, 2)]).raw 10 9 ≠ 3 ∧
      bitOf (desc 0x11 [(9, 2)]).raw 8 = false ∧ zeroAt (desc 0x11 [(9, 2)]).raw 15 11 = true ∧
      zeroAt (desc 0x11 [(9, 2)]).raw 31 20 = true ∧ (bench (unload1 {}) 0).state = .empty ∧
      (bench (unload1 { state := .halted }) 0).state = .halted ∧
      (bench (unload1 { state := .loading, load := some { modelTag := 5 } }) 0).load = some { modelTag := 5 } ∧
      (bench up 0).state = .ready ∧
      (bench (unload1 { state := .draining, replacing := some {} }) 0).replacing = some {} ∧
      (bench (unload1 { state := .unloading }) 0).replacing = none := by
  decide +kernel

/-! ## The manual's own examples -/

/-- The key codebook of the example of R96. -/
def book1 : List Int := [-96, -64, -40, -24, -14, -8, -4, -1, 1, 4, 8, 14, 24, 40, 64, 96]

/-- The example of R96: 0, 11, -11, 6 and 200 against scale 1. -/
theorem test_codes_of_the_example :
    [(0 : F32), 0x41300000, 0xC1300000, 0x40C00000, 0x43480000].map (fun x => codeOf book1 x 0x3F800000) =
      [(8, false), (11, false), (4, false), (10, false), (15, true)] := by decide +kernel

/-- The example of R95: 0.625, -0.625, 0.125, 31.625, 31.875 and -31.875 against scale 0.25. -/
theorem test_requantised_example :
    [(0x3F200000 : F32), 0xBF200000, 0x3E000000, 0x41FD0000, 0x41FF0000, 0xC1FF0000].map (fun x => requant x 0x3E800000) =
      [(3, false), (-3, false), (1, false), (127, false), (127, true), (-127, true)] := by decide +kernel

/-- The example of R115: rank 10 at 64 by 128 with 4-bit codes is 992 bytes, of class 1 KiB, whose ceiling is 10. -/
theorem test_page_of_the_example :
    32 + payloadLen 1 64 128 10 4 = 992 ∧ classFor 992 = 0 ∧ rankCeiling 0 4 128 40 = 10 := by decide

/-- The example of R66: 64 HBM pseudo-channels, two LPDDR channels and 24 links at 10 ms. -/
theorem test_budget_caps_of_the_example :
    capOf up 460800 128 = 450000 ∧ capOf up 765000 4 = 23345 ∧ capOf up 333600 48 = 122167 := by decide +kernel

/-- The example of R381: tick 412,001 with offset 3,000,050 is 4,120,013,000,050 ns. -/
theorem test_nanoseconds_of_the_example :
    nsOf State.reset ⟨412001, 3000050⟩ = 4120013000050 ∧
      commitOf State.reset ⟨412026, 3001300⟩ = 412026 ∧ commitOf State.reset ⟨412026, 9400000⟩ = 412027 := by decide +kernel

/-- The capabilities of an MX and of an MC (R2, R5, R503). -/
theorem test_capabilities :
    (caps State.reset 0).map (·.id) = [1, 2, 3, 4, 5, 6, 7, 8, 9, 10, 11, 12, 13] ∧
      (caps { State.reset with stock := .mc } 0).map (·.id) = [1, 2, 3, 6, 7, 8, 9, 10, 11, 12, 13] := by decide +kernel

/-- A step on the front command leaves the rest of the queue (R516's short pulse is ignored). -/
theorem test_step_takes_the_front :
    step { State.reset with pending := [.resetN ⟨1, 0⟩ 999, .resetN ⟨2, 0⟩ 5000] } =
      .next { State.reset with time := { now := ⟨1, 0⟩ }, pending := [.resetN ⟨2, 0⟩ 5000] } := rfl

end Sys2Proof.Tests
end

section
/-! SUPPORT. The machine as a whole: one step of the queue, and the frame of every command. Each arm of `exec` is one
call of its row's meaning, so its frame is the frame of that meaning (`Laws/Frames1.lean` to `Frames4.lean`). -/

namespace Sys2Proof.Machine

/-- Settles O1: a step looks at the front of the queue alone. -/
theorem stepRunsFrontCommand : Obligations.StepRunsFrontCommand := fun _ _ _ => rfl

/-- Settles O2. -/
theorem emptyQueueIdles : Obligations.EmptyQueueIdles := by
  intro s h
  unfold step
  rw [h]

/-- A command differs from the state it met at most in the parts the table lists for it, or in more: `pm` is any set of
parts that holds them, so that a statement about all commands takes one `pm` for all. The memberships of the parts are
split off the table first; each row's own frame lemma takes those it needs. -/
theorem exec_frame_of_touched {pm : List Part} (c : Instr) (s : State) (hp : ∀ p ∈ touched c, p ∈ pm) :
    FrameOut pm s (exec c s) := by
  have hs : Frame pm s s := .refl s
  cases c with (repeat obtain ⟨_, hp⟩ := List.forall_mem_cons.mp hp)
  | doorbell => exact execDoorbell_frame hs
  | descriptorFetchDone => exact execDescriptorFetchDone_frame hs
  | badAccess => exact execBadAccess_frame hs
  | modelLoad => exact execModelLoad_frame hs
  | modelLoadReplace => exact execModelLoadReplace_frame hs
  | modelLoadComplete => exact execModelLoadComplete_frame hs
  | modelUnload => exact execModelUnload_frame hs
  | drainLimitExpiry => exact execDrainLimitExpiry_frame hs
  | unloadReleaseDone => exact execUnloadReleaseDone_frame hs
  | reqAdmit => exact execReqAdmit_frame hs
  | reqAppend => exact execReqAppend_frame hs
  | reqCancel => exact execReqCancel_frame hs
  | reqPark => exact execReqPark_frame hs
  | reqParkHaul => exact execReqParkHaul_frame hs
  | reqResume => exact execReqResume_frame hs
  | reqResumeRebuild => exact execReqResumeRebuild_frame hs
  | reqRelease => exact execReqRelease_frame hs
  | reqHandoff => exact execReqHandoff_frame hs
  | vecSearch => exact execVecSearch_frame hs
  | vecInsert => exact execVecInsert_frame hs
  | vecDelete => exact execVecDelete_frame hs
  | vecMergeMerge => exact execVecMergeMerge_frame hs
  | vecMergeCreate => exact execVecMergeCreate_frame hs
  | shardCreateDone => exact execShardCreateDone_frame hs
  | vecMergeDrop => exact execVecMergeDrop_frame hs
  | vecMergeArchive => exact execVecMergeArchive_frame hs
  | vecMergeRestore => exact execVecMergeRestore_frame hs
  | shardRestoreDone => exact execShardRestoreDone_frame hs
  | vecMergeReplicate => exact execVecMergeReplicate_frame hs
  | shardReplicateDone => exact execShardReplicateDone_frame hs
  | vecMergeUnreplicate => exact execVecMergeUnreplicate_frame hs
  | winOpen => exact execWinOpen_frame hs
  | winRevoke => exact execWinRevoke_frame hs
  | qpCreate => exact execQpCreate_frame hs
  | qpDestroy => exact execQpDestroy_frame hs
  | qpDestroyAbort => exact execQpDestroyAbort_frame hs
  | rmaWrite => exact execRmaWrite_frame hs
  | rmaRead => exact execRmaRead_frame hs
  | rmaAdd => exact execRmaAdd_frame hs
  | rmaCas => exact execRmaCas_frame hs
  | rmaWriteRack => exact execRmaWriteRack_frame hs
  | rmaReadRack => exact execRmaReadRack_frame hs
  | rmaAddRack => exact execRmaAddRack_frame hs
  | rmaCasRack => exact execRmaCasRack_frame hs
  | fence => exact execFence_frame hs
  | fenceRack => exact execFenceRack_frame hs
  | tallySet => exact execTallySet_frame hs
  | tallyDelete => exact execTallyDelete_frame hs
  | streamBind => exact execStreamBind_frame hs
  | streamUnbind => exact execStreamUnbind_frame hs
  | nop => exact execNop_frame hs
  | tickStart => exact execTickStart_frame hs
  | timeMessageSend => exact execTimeMessageSend_frame hs
  | remoteWaitExpiry => exact execRemoteWaitExpiry_frame hs
  | backstop => exact execBackstop_frame hs
  | shortSightGiveUp => exact execShortSightGiveUp_frame hs
  | cutOff => exact execCutOff_frame hs
  | commit => exact execCommit_frame hs
  | deadlineExpiry => exact execDeadlineExpiry_frame hs
  | tallyRefill => exact execTallyRefill_frame hs
  | checkpointSend => exact execCheckpointSend_frame hs
  | checkpointLate => exact execCheckpointLate_frame hs
  | doneListExpiry => exact execDoneListExpiry_frame hs
  | bindingExpiry => exact execBindingExpiry_frame hs
  | goodputWindowClose => exact execGoodputWindowClose_frame hs
  | meterWindowClose => exact execMeterWindowClose_frame hs
  | epochSwitch => exact execEpochSwitch_frame hs
  | drainWindowEnd => exact execDrainWindowEnd_frame hs
  | timeRecordReceive => exact execTimeRecordReceive_frame hs
  | beaconReceive => exact execBeaconReceive_frame hs
  | sourceTakeover => exact execSourceTakeover_frame hs
  | syncLostTimeout => exact execSyncLostTimeout_frame hs
  | syncHaltTimeout => exact execSyncHaltTimeout_frame hs
  | delayMeasure => exact execDelayMeasure_frame hs
  | cableInsert => exact execCableInsert_frame hs
  | trainingStepDone => exact execTrainingStepDone_frame hs
  | trainingStepTimeout => exact execTrainingStepTimeout_frame hs
  | trainingRetry => exact execTrainingRetry_frame hs
  | identReceive => exact execIdentReceive_frame hs
  | keyHello => exact execKeyHello_frame hs
  | keyKem => exact execKeyKem_frame hs
  | keyAbort => exact execKeyAbort_frame hs
  | refusedRetry => exact execRefusedRetry_frame hs
  | flitReceive => exact execFlitReceive_frame hs
  | nakRecord => exact execNakRecord_frame hs
  | creditRecord => exact execCreditRecord_frame hs
  | laneRecord => exact execLaneRecord_frame hs
  | rekeyRecord => exact execRekeyRecord_frame hs
  | laneDrop => exact execLaneDrop_frame hs
  | laneRetry => exact execLaneRetry_frame hs
  | keyRollover => exact execKeyRollover_frame hs
  | freshExchange => exact execFreshExchange_frame hs
  | freshExchangeRetry => exact execFreshExchangeRetry_frame hs
  | freshExchangeDeadline => exact execFreshExchangeDeadline_frame hs
  | lanePowerDown => exact execLanePowerDown_frame hs
  | lanePowerRestore => exact execLanePowerRestore_frame hs
  | packetForward => exact execPacketForward_frame hs
  | read => exact execRead_frame hs
  | write => exact execWrite_frame hs
  | add => exact execAdd_frame hs
  | cas => exact execCas_frame hs
  | fencePacket => exact execFencePacket_frame hs
  | readResp => exact execReadResp_frame hs
  | atomResp => exact execAtomResp_frame hs
  | fenceDone => exact execFenceDone_frame hs
  | ack => exact execAck_frame hs
  | transfer => exact execTransfer_frame hs
  | packetReplay => exact execPacketReplay_frame hs
  | epochStaleResponse => exact execEpochStaleResponse_frame hs
  | wWrite => exact execWWrite_frame hs
  | wRead => exact execWRead_frame hs
  | wAdd => exact execWAdd_frame hs
  | wCas => exact execWCas_frame hs
  | wReadResp => exact execWReadResp_frame hs
  | wAtomResp => exact execWAtomResp_frame hs
  | wAck => exact execWAck_frame hs
  | wNak => exact execWNak_frame hs
  | wCredit => exact execWCredit_frame hs
  | wCreditReq => exact execWCreditReq_frame hs
  | wRetryTimeout => exact execWRetryTimeout_frame hs
  | wAckDeferred => exact execWAckDeferred_frame hs
  | contextFetchDone => exact execContextFetchDone_frame hs
  | partialAsk => exact execPartialAsk_frame hs
  | partialBackstopAsk => exact execPartialBackstopAsk_frame hs
  | partialRunDone => exact execPartialRunDone_frame hs
  | partialAnswer => exact execPartialAnswer_frame hs
  | settle => exact execSettle_frame hs
  | haulRequest => exact execHaulRequest_frame hs
  | haulOffer => exact execHaulOffer_frame hs
  | haulAccept => exact execHaulAccept_frame hs
  | haulRefuse => exact execHaulRefuse_frame hs
  | haulData => exact execHaulData_frame hs
  | haulStateWritten => exact execHaulStateWritten_frame hs
  | haulAck => exact execHaulAck_frame hs
  | haulFreed => exact execHaulFreed_frame hs
  | haulAbort => exact execHaulAbort_frame hs
  | haulTimeout => exact execHaulTimeout_frame hs
  | haulAckRepeat => exact execHaulAckRepeat_frame hs
  | haulSourceUnreachable => exact execHaulSourceUnreachable_frame hs
  | freedWaitExpiry => exact execFreedWaitExpiry_frame hs
  | segmentReceive => exact execSegmentReceive_frame hs
  | segmentAck => exact execSegmentAck_frame hs
  | segmentResend => exact execSegmentResend_frame hs
  | checkpointReceive => exact execCheckpointReceive_frame hs
  | keeperRefuse => exact execKeeperRefuse_frame hs
  | keeperUnreachable => exact execKeeperUnreachable_frame hs
  | keeperFreeNotice => exact execKeeperFreeNotice_frame hs
  | releaseNotice => exact execReleaseNotice_frame hs
  | stateNotice => exact execStateNotice_frame hs
  | refcountMessage => exact execRefcountMessage_frame hs
  | replicaCopyAck => exact execReplicaCopyAck_frame hs
  | primaryFreeNotice => exact execPrimaryFreeNotice_frame hs
  | vecAsk => exact execVecAsk_frame hs
  | vecBackstopAsk => exact execVecBackstopAsk_frame hs
  | vecAnswer _ src => exact execVecAnswer_frame (src := src) hs
  | vecSegmentReceive => exact execVecSegmentReceive_frame hs
  | moveCopyDone => exact execMoveCopyDone_frame hs
  | demotionIdle => exact execDemotionIdle_frame hs
  | pressureDemotion => exact execPressureDemotion_frame hs
  | repairMoveDone => exact execRepairMoveDone_frame hs
  | flashReadDone => exact execFlashReadDone_frame hs
  | flashReadDeadline => exact execFlashReadDeadline_frame hs
  | flashProgramDone => exact execFlashProgramDone_frame hs
  | flashProgramFail => exact execFlashProgramFail_frame hs
  | flashEraseFail => exact execFlashEraseFail_frame hs
  | readDisturbRelocate => exact execReadDisturbRelocate_frame hs
  | retentionRewrite => exact execRetentionRewrite_frame hs
  | wearLevel => exact execWearLevel_frame hs
  | garbageCollect => exact execGarbageCollect_frame hs
  | flashWriteHold => exact execFlashWriteHold_frame hs
  | relistDone => exact execRelistDone_frame hs
  | patrolScrub => exact execPatrolScrub_frame hs
  | correctedError => exact execCorrectedError_frame hs
  | uncorrectableError => exact execUncorrectableError_frame hs
  | zqCalibration => exact execZqCalibration_frame hs
  | fitDone => exact execFitDone_frame hs
  | blockReject _ _ isValue => exact execBlockReject_frame (_isValue := isValue) hs
  | weightBlockReject => exact execWeightBlockReject_frame hs
  | weightReloadDone => exact execWeightReloadDone_frame hs
  | shadowRecheckDone => exact execShadowRecheckDone_frame hs
  | arbitrationDone => exact execArbitrationDone_frame hs
  | coreWatchdog => exact execCoreWatchdog_frame hs
  | planWatchdog => exact execPlanWatchdog_frame hs
  | restartWatchdog => exact execRestartWatchdog_frame hs
  | bootWatchdog => exact execBootWatchdog_frame hs
  | coreException => exact execCoreException_frame hs
  | firmwareReady => exact execFirmwareReady_frame hs
  | trialCommit => exact execTrialCommit_frame hs
  | hitlessActivation => exact execHitlessActivation_frame hs
  | inputRise => exact execInputRise_frame hs
  | planStable => exact execPlanStable_frame hs
  | inputUndervoltage => exact execInputUndervoltage_frame hs
  | inputOutOfRange => exact execInputOutOfRange_frame hs
  | resetN => exact execResetN_frame hs
  | perst => exact execPerst_frame hs
  | perstRelease => exact execPerstRelease_frame hs
  | flowLoss => exact execFlowLoss_frame hs
  | flowRestore => exact execFlowRestore_frame hs
  | tjThrottle => exact execTjThrottle_frame hs
  | currentLimit => exact execCurrentLimit_frame hs
  | droop => exact execDroop_frame hs
  | overrideEnd => exact execOverrideEnd_frame hs
  | thermalShutdown => exact execThermalShutdown_frame hs
  | restRequest => exact execRestRequest_frame hs
  | restEntry => exact execRestEntry_frame hs
  | restEntryComplete => exact execRestEntryComplete_frame hs
  | watchSample => exact execWatchSample_frame hs
  | wakeComplete => exact execWakeComplete_frame hs
  | keepEnter => exact execKeepEnter_frame hs
  | rlKeepCtrlEnter => exact execRlKeepCtrlEnter_frame hs
  | readoutList => exact execReadoutList_frame hs
  | readoutConv => exact execReadoutConv_frame hs
  | readoutDone => exact execReadoutDone_frame hs
  | pwResetCtrlWarm => exact execPwResetCtrlWarm_frame hs
  | setupLockWrite => exact execSetupLockWrite_frame hs
  | bnSetupLockWrite => exact execBnSetupLockWrite_frame hs
  | tkNowOffsetRead => exact execTkNowOffsetRead_frame hs
  | cqDisable => exact execCqDisable_frame hs
  | ringErrOverrunClear => exact execRingErrOverrunClear_frame hs
  | pwOverrideClear => exact execPwOverrideClear_frame hs
  | scKeyCtrlErase => exact execScKeyCtrlErase_frame hs
  | registerWrite => exact execRegisterWrite_frame hs
  | flr => exact execFlr_frame hs
  | vfEnableChange => exact execVfEnableChange_frame hs
  | ptmDialogue => exact execPtmDialogue_frame hs
  | ideFailure => exact execIdeFailure_frame hs
  | completionInterrupt => exact execCompletionInterrupt_frame hs
  | completionRecordDrain => exact execCompletionRecordDrain_frame hs
  | mctpControl => exact execMctpControl_frame hs
  | readRegs => exact execReadRegs_frame hs
  | readLog => exact execReadLog_frame hs
  | readMeter => exact execReadMeter_frame hs
  | stageBench => exact execStageBench_frame hs
  | stageRoute => exact execStageRoute_frame hs
  | stageExport => exact execStageExport_frame hs
  | stageRackmap => exact execStageRackmap_frame hs
  | stageEvac => exact execStageEvac_frame hs
  | sealEpoch => exact execSealEpoch_frame hs
  | discardStage => exact execDiscardStage_frame hs
  | setSigPolicy => exact execSetSigPolicy_frame hs
  | clearQuarantine => exact execClearQuarantine_frame hs
  | keyErase => exact execKeyErase_frame hs
  | mgResetWarm => exact execMgResetWarm_frame hs
  | mgResetCold => exact execMgResetCold_frame hs
  | restEnter => exact execRestEnter_frame hs
  | sensorUpdate => exact execSensorUpdate_frame hs
  | getPdr => exact execGetPdr_frame hs
  | getPdrRepositoryInfo => exact execGetPdrRepositoryInfo_frame hs
  | getSensorReading => exact execGetSensorReading_frame hs
  | getStateSensorReadings => exact execGetStateSensorReadings_frame hs
  | setNumericSensorEnable => exact execSetNumericSensorEnable_frame hs
  | setEventReceiver => exact execSetEventReceiver_frame hs
  | queryDeviceIdentifiers => exact execQueryDeviceIdentifiers_frame hs
  | getFirmwareParameters => exact execGetFirmwareParameters_frame hs
  | requestUpdate => exact execRequestUpdate_frame hs
  | passComponentTable => exact execPassComponentTable_frame hs
  | updateComponent => exact execUpdateComponent_frame hs
  | firmwareData => exact execFirmwareData_frame hs
  | activateFirmware => exact execActivateFirmware_frame hs
  | getStatus => exact execGetStatus_frame hs
  | cancelUpdateComponent => exact execCancelUpdateComponent_frame hs
  | cancelUpdate => exact execCancelUpdate_frame hs
  | getVersion => exact execGetVersion_frame hs
  | getCapabilities => exact execGetCapabilities_frame hs
  | negotiateAlgorithms => exact execNegotiateAlgorithms_frame hs
  | getDigests => exact execGetDigests_frame hs
  | getCertificate => exact execGetCertificate_frame hs
  | challenge => exact execChallenge_frame hs
  | getMeasurements => exact execGetMeasurements_frame hs
  | keyExchange => exact execKeyExchange_frame hs
  | finish => exact execFinish_frame hs
  | heartbeat => exact execHeartbeat_frame hs
  | keyUpdate => exact execKeyUpdate_frame hs
  | endSession => exact execEndSession_frame hs
  | ideKm => exact execIdeKm_frame hs
  | holdoverEntry => exact execHoldoverEntry_frame hs
  | inputInRange => exact execInputInRange_frame hs
  | resetNRelease => exact execResetNRelease_frame hs
  | startUpRowDone => exact execStartUpRowDone_frame hs
  | checkpointAck => exact execCheckpointAck_frame hs
  | replicaCopyReceive => exact execReplicaCopyReceive_frame hs
  | replicaDropNotice => exact execReplicaDropNotice_frame hs
  | newHomeNotice => exact execNewHomeNotice_frame hs
  | keeperLogRead => exact execKeeperLogRead_frame hs

/-- The table of parts is the frame of every command. -/
theorem exec_frame {c : Instr} {s u : State} (h : exec c s = .next u) : Frame (touched c) s u :=
  (exec_frame_of_touched c s fun _ hp => hp).kept u h

/-- Settles O6: both halves are parts of one frame. -/
theorem commandsKeepTheirFrame : Obligations.CommandsKeepTheirFrame :=
  ⟨fun _ _ _ h => ⟨(exec_frame h).pending, (exec_frame h).stock⟩, fun _ _ _ p h hp => (exec_frame h).parts p hp⟩

end Sys2Proof.Machine
end

section
/-! SUPPORT. The management commands (R471 to R476, R478): how a command that is taken comes to act, its answer, and
what each effect leaves. -/

namespace Sys2Proof.Machine

/-- What differs in some parts at most differs in more parts at most. -/
theorem Frame.mono {pm pn : List Part} {r s : State} (h : Frame pm r s) (hp : ∀ p ∈ pm, p ∈ pn) : Frame pn r s :=
  ⟨h.pending, h.stock, h.mem, fun p hn => h.parts p fun hm => hn (hp p hm)⟩

/-! ## A command that is taken -/

/-- The state in which a command that is taken acts: the counter at its stamp, and over the mirror the busy bit set and
the command noted (R474). -/
def taken (s : State) (c : MgmtCmd) : State :=
  if c.transport = .mirror then
    { s.at c.stamp with mgmt := { s.mgmt with busy := true, mirror := some c } }
  else s.at c.stamp

/-- Being taken touches the management state alone. -/
theorem taken_frame (s : State) (c : MgmtCmd) : Frame [.mgmt] (s.at c.stamp) (taken s c) := by
  have m_mgmt : Part.mgmt ∈ [Part.mgmt] := by decide
  unfold taken
  split
  · exact Frame.set (Frame.refl (s.at c.stamp))
  · exact Frame.refl _

/-- Over any transport but the mirror only the counter moves on. -/
theorem taken_of_ne_mirror {s : State} {c : MgmtCmd} (h : c.transport ≠ .mirror) : taken s c = s.at c.stamp := if_neg h

@[simp] theorem taken_held (s : State) (c : MgmtCmd) : (taken s c).mgmt.held = s.mgmt.held := by
  unfold taken; split <;> rfl

@[simp] theorem taken_meter (s : State) (c : MgmtCmd) : (taken s c).mgmt.meter = s.mgmt.meter := by
  unfold taken; split <;> rfl

@[simp] theorem taken_stagedFor (s : State) (c : MgmtCmd) (e : Nat) : stagedFor (taken s c) e = stagedFor s e := by
  unfold taken; split <;> rfl

@[simp] theorem taken_benchRecordOk (s : State) (c : MgmtCmd) (r : BitVec 1024) :
    benchRecordOk (taken s c) r = benchRecordOk s r := by
  unfold taken; split <;> rfl

@[simp] theorem taken_routeOk (s : State) (c : MgmtCmd) : routeOk (taken s c) = routeOk s := by
  unfold taken; split <;> rfl

@[simp] theorem taken_regionOk (s : State) (c : MgmtCmd) (x : BitVec 256) (m : MapSet) :
    regionOk (taken s c) x m = regionOk s x m := by
  unfold taken; split <;> rfl

@[simp] theorem taken_inKeep (s : State) (c : MgmtCmd) : inKeep (taken s c) = inKeep s := by
  unfold taken; split <;> rfl

@[simp] theorem taken_resting (s : State) (c : MgmtCmd) : resting (taken s c) = resting s := by
  unfold taken; split <;> rfl

@[simp] theorem taken_sessionOk (s : State) (c : MgmtCmd) (code : Nat) :
    sessionOk (taken s c) c code = sessionOk s c code := by
  unfold taken; split <;> rfl

/-- What a command that is taken has met (R471, R472, R475). -/
theorem takes_iff {s : State} {c : MgmtCmd} {o : MgmtOp} : takes s c o = true ↔
    c.transport ≠ .doe ∧ sideUp s c.transport = true ∧ 5 ≤ s.fw.row ∧ s.fw.stage ≠ .recovery ∧
      (c.transport = .mirror → s.mgmt.busy = false) ∧ resting s = false ∧ mgmtHdrOk c.hdr (opCode o) = true ∧
      sessionOk s c (opCode o) = true ∧ (inKeep s = false ∨ keepAnswers o = true) := by
  simp [takes, and_assoc, imp_iff_not_or]

/-- A transport is up only while RESET_N is high. -/
theorem resetLow_of_sideUp {s : State} {t : Transport} (h : sideUp s t = true) : s.fw.resetLow = false := by
  simp only [sideUp, Bool.and_eq_true, Bool.not_eq_true'] at h
  obtain ⟨⟨⟨-, hlow⟩, -⟩, -⟩ := h
  exact hlow

/-- A command whose header and session hold, and which Keep mode does not hold back, acts. -/
theorem mgmtTake_acts {s : State} {c : MgmtCmd} {o : MgmtOp} (hh : mgmtHdrOk c.hdr (opCode o) = true)
    (hs : sessionOk s c (opCode o) = true) (hk : inKeep s = false ∨ keepAnswers o = true) :
    mgmtTake s c o = mgmtAct s c o := by
  unfold mgmtTake
  rcases hk with hk | hk <;> simp [hh, hs, hk]

/-- Outside Rest a command that lands on a served path is taken at once. -/
theorem mgmtLand_takes {s : State} {c : MgmtCmd} {o : MgmtOp} (h : takes s c o = true) :
    mgmtLand c o (s.at c.stamp) = mgmtAct (taken s c) c o := by
  obtain ⟨hdoe, hup, hrow, hstage, hbusy, hrest, hhdr, hses, hkeep⟩ := takes_iff.mp h
  have hup' : sideUp (s.at c.stamp) c.transport = true := hup
  have hserved : served (s.at c.stamp) = true := by simp [served, hrow]
  have hmirror : ¬(c.transport = .mirror ∧ (s.mgmt.busy || s.pwr.state == .rest) = true) := by
    rintro ⟨hm, he⟩
    rcases Bool.or_eq_true _ _ ▸ he with he | he
    · simp [hbusy hm] at he
    · simp [resting, beq_iff_eq.mp he] at hrest
  have hawake : (resting (taken s c) && !restReads o) = false := by rw [taken_resting, hrest, Bool.false_and]
  calc mgmtLand c o (s.at c.stamp) = mgmtTake (taken s c) c o := by
        unfold mgmtLand
        rw [if_neg (by simp [hdoe, hup']), if_neg (by simp [hserved, hstage]), if_neg (by simpa using hmirror)]
        exact if_neg (ne_true_of_eq_false hawake)
    _ = mgmtAct (taken s c) c o :=
        mgmtTake_acts hhdr ((taken_sessionOk s c _).trans hses) (hkeep.imp_left (taken_inKeep s c).trans)

/-- The row of a command that is taken. -/
theorem mgmtRow_takes {s : State} {c : MgmtCmd} {o : MgmtOp} (h0 : s.pwr.off = false) (h : takes s c o = true) :
    mgmtRow c o s = .next (mgmtAct (taken s c) c o) := by
  unfold mgmtRow
  rw [run_on h0, mgmtLand_takes h]

/-! ## Answers -/

/-- An answer changes the management state and the outputs alone. -/
theorem respond_frame_mgmt_out (s : State) (c : MgmtCmd) (st : Status) (body : List Nat) :
    Frame [.mgmt, .out] s (respond s c st body) :=
  respond_frame (.refl s) (by decide) (by decide)

/-- What stands among the outputs stands there after a vector. -/
theorem mem_signal_out {s : State} {o : Output} (fn : Fn) (v : Nat) (h : o ∈ s.out) : o ∈ (signal s fn v).out := by
  unfold signal emitTo
  split
  · exact h
  · exact List.mem_append_left _ h

/-- A command answered has been answered (R471). -/
theorem responded_respond (s : State) (c : MgmtCmd) (st : Status) (body : List Nat) :
    responded c st body (respond s c st body) := by
  unfold responded respond
  dsimp only
  split
  · exact mem_signal_out _ _ (List.mem_append_right _ (List.mem_singleton_self _))
  · exact List.mem_append_right _ (List.mem_singleton_self _)

/-- A command taken whose effect ends with its answer. -/
theorem mgmtRow_responds {s t : State} {c : MgmtCmd} {o : MgmtOp} {st : Status} {body : List Nat} {P : State → Prop}
    (h0 : s.pwr.off = false) (h : takes s c o = true) (ha : mgmtAct (taken s c) c o = respond t c st body)
    (hP : P (respond t c st body)) : ∃ u, mgmtRow c o s = .next u ∧ responded c st body u ∧ P u :=
  ⟨_, (mgmtRow_takes h0 h).trans (congrArg _ ha), responded_respond t c st body, hP⟩

/-! ## Reads (R478) -/

/-- The state READ_REGS reads: the tick number is latched where the read covers it (R494). -/
def latchedTick (s : State) (off bytes : Nat) : State :=
  if off ≤ 0x10030 ∧ 0x10030 < off + bytes then { s with time := { s.time with latch := s.time.now.tick } } else s

theorem readRegs_ok {s : State} {c : MgmtCmd} {off n : Nat} (h1 : off % 8 = 0) (h2 : n % 8 = 0) (h3 : n ≤ 4000) :
    readRegs s c off n =
      respond (latchedTick s off n) c .ok ((List.range (n / 8)).map (fun i => readReg (latchedTick s off n) (off + 8 * i))) :=
  if_neg (by omega)

theorem readRegs_refused {s : State} {c : MgmtCmd} {off n : Nat} (h : off % 8 ≠ 0 ∨ n % 8 ≠ 0 ∨ 4000 < n) :
    readRegs s c off n = respond s c .badDescriptor [] :=
  if_pos h

/-! ## Staging (R476) -/

/-- A staging command that passes its check changes the staged set. -/
theorem stage_ok {s : State} {e : Nat} {m : MapSet} {ok : MapSet → Bool} {f : MapSet → MapSet}
    (hm : stagedFor s e = some m) (hok : ok m = true) :
    stage s e ok f = ({ s with fab := { s.fab with staged := some (e, f m) } }, .ok) := by
  simp [stage, hm, hok]

/-- An epoch that may not be staged is left alone. -/
theorem stage_stale {s : State} {e : Nat} {ok : MapSet → Bool} {f : MapSet → MapSet} (hm : stagedFor s e = none) :
    stage s e ok f = (s, .epochStale) := by
  simp [stage, hm]

/-- The row of a staging command that passes its check. -/
theorem mgmtRow_stages {s : State} {c : MgmtCmd} {o : MgmtOp} {e : Nat} {m : MapSet} {ok : MapSet → Bool}
    {f : MapSet → MapSet} (h0 : s.pwr.off = false) (h : takes s c o = true) (hm : stagedFor s e = some m)
    (ha : mgmtAct (taken s c) c o = answer c (stage (taken s c) e ok f)) (hok : ok m = true) :
    ∃ u, mgmtRow c o s = .next u ∧ responded c .ok [] u ∧ u.fab.staged = some (e, f m) := by
  rw [stage_ok ((taken_stagedFor s c e).trans hm) hok] at ha
  exact mgmtRow_responds h0 h ha (congrArg FabSt.staged (respond_frame_mgmt_out _ c .ok []).fab)

/-- The epoch being staged is discarded. -/
theorem discardStage_ok {s : State} {e : Nat} {m : MapSet} (hseal : s.fab.sealSet = none)
    (hst : s.fab.staged = some (e, m)) :
    discardStage s e = ({ s with fab := { s.fab with staged := none } }, .ok) := by
  simp [discardStage, hseal, hst]

/-! ## Signature policy (R449) -/

theorem regVal_putReg (s : State) (a b : Nat) (v : Word) :
    regVal (putReg s a v) b = if a = b then v else regVal s b := by
  unfold regVal putReg
  dsimp only
  rw [tget_tput]
  split <;> rfl

/-- Another part of the state than BAR0 has no say in a register. -/
theorem regVal_of_bar {s u : State} (h : u.bar = s.bar) (off : Nat) : regVal u off = regVal s off := by
  unfold regVal
  rw [h]

/-- Where neither lock nor range refuses it, the policy and the four words of the key hash are in force. -/
theorem setSigPolicy_ok {s : State} {b : Nat} (req : Bool) (key : BitVec 256) (hl : s.bar.lock = false) (hb : b < 16) :
    (setSigPolicy s b req key).2 = .ok ∧
      regVal (setSigPolicy s b req key).1 (bn b 0x0C0) = BitVec.ofNat 64 (boolBit req) ∧
      ∀ i, i < 4 → regVal (setSigPolicy s b req key).1 (bn b (0x0C8 + 8 * i)) =
        BitVec.ofNat 64 (fieldOf key (64 * i + 63) (64 * i)) := by
  have hne : ¬(s.bar.lock || decide (16 ≤ b)) = true := by simp [hl, hb]
  unfold setSigPolicy
  rw [if_neg hne]
  simp only [List.range_succ, List.range_zero, List.nil_append, List.foldl_cons, List.foldl_nil, List.cons_append]
  refine ⟨trivial, by simp [regVal_putReg, bn], fun i hi => ?_⟩
  interval_cases i <;> simp [regVal_putReg, bn]

theorem setSigPolicy_locked {s : State} (b : Nat) (req : Bool) (key : BitVec 256) (hl : s.bar.lock = true) :
    setSigPolicy s b req key = (s, .badDescriptor) :=
  if_pos (by simp [hl])

/-! ## Quarantine (R419) -/

/-- A unit whose quarantine is cleared has no record, no loss and is not retired. -/
theorem clearQuarantine_cleared (s : State) (x : UnitId) :
    recordOf (clearQuarantine s x) x = [] ∧ x ∉ (clearQuarantine s x).fault.retired ∧
      ∀ l ∈ (clearQuarantine s x).fault.losses, l.unit ≠ x := by
  refine ⟨?_, by simp [clearQuarantine], by simp [clearQuarantine]⟩
  have hnone : (clearQuarantine s x).fault.quarantine.find? (fun q => q.1 == x) = none := by
    simp [clearQuarantine]
  simp [recordOf, hnone]

/-- Another part of the state than the fault state has no say in a quarantine record. -/
theorem recordOf_of_fault {s u : State} (h : u.fault = s.fault) (x : UnitId) : recordOf u x = recordOf s x := by
  unfold recordOf
  rw [h]

/-- CLEAR_QUARANTINE at its commit, of any unit but a link the module does not have. -/
theorem mgmtCommit_clearQuarantine {s : State} {c : MgmtCmd} {n : Nat} {x : UnitId}
    (h : x.kind ≠ .link ∨ linkPresent s x.index = true) :
    mgmtCommit s c n (.clearQuarantine x) = respond (clearQuarantine s x) c .ok [] :=
  if_neg (by rintro ⟨hk, hn⟩; rcases h with h | h <;> simp_all)

/-- CLEAR_QUARANTINE of a link the module does not have is refused. -/
theorem mgmtCommit_clearQuarantine_absent {s : State} {c : MgmtCmd} {n : Nat} {x : UnitId} (hk : x.kind = .link)
    (h : linkPresent s x.index = false) : mgmtCommit s c n (.clearQuarantine x) = respond s c .badDescriptor [] :=
  if_pos (by simp [hk, h])

/-! ## Resets (R385, R386) -/

/-- A warm reset after an answer keeps what it would have kept before it. -/
theorem warmLeft_resetState {r s : State} (h : Frame [.mgmt, .out] r s) : warmLeft r (resetState false s) := by
  simp [warmLeft, resetState, State.reset, h.time, h.win, h.bar, h.fw, h.tier, h.fault, h.sec]

/-- A cold reset after an answer, at a later stamp, keeps what it would have kept before. -/
theorem coldLeft_resetState {r s : State} (h : Frame [.time, .mgmt, .out] r s) : coldLeft r (resetState true s) := by
  simp [coldLeft, resetState, State.reset, h.tier, h.fault, h.sec, h.fw]

/-- Another part of the state than the start-up has no say in whether a cold start-up is under way. -/
theorem coldRunning_of_fw {s u : State} (h : u.fw = s.fw) : coldRunning u = coldRunning s := by
  unfold coldRunning
  rw [h]

/-- A warm reset acts with power present, RESET_N high and no cold start-up under way (R387). -/
theorem warmReset_acts {s : State} (h1 : s.pwr.off = false) (h2 : s.fw.resetLow = false) (h3 : coldRunning s = false) :
    warmReset s = resetState false s :=
  if_neg (by simp [h1, h2, h3])

/-! ## Keep mode (R426) -/

theorem logErr_keep (s : State) (c : ErrClass) (k b : Nat) (u : UnitId) (d0 d1 : Nat) :
    (logErr s c k b u d0 d1).fault.keep = s.fault.keep := by
  simp only [logErr, logEntry]
  split <;> split <;> simp [errVector]

/-- A completion record leaves the cause of Keep mode alone, whatever it logs of its ring. -/
theorem complete_keep (s : State) (c : Cpl) (st : Status) (result tick result2 : Nat) :
    (complete s c st result tick result2).fault.keep = s.fault.keep := by
  unfold complete queueRecord
  split
  · rw [send_fault]
  · split
    · rfl
    · dsimp only
      split
      · rw [(writeRecord_frame (pm := [.host, .out]) (.refl s) (by decide) (by decide)).fault]
      · split
        · exact logErr_keep ..
        · split
          · exact logErr_keep ..
          · rfl

theorem dropLanded_keep (st : Stamp) (all : Bool) (s : State) : (dropLanded st all s).fault.keep = s.fault.keep := by
  unfold dropLanded
  dsimp only
  refine List.foldlRecOn (motive := fun u => u.fault.keep = s.fault.keep) _ _ ?_
    (fun u hu c _ => (complete_keep u c ..).trans hu)
  rfl

/-- Keep mode entered notes its cause and instant (R426). -/
theorem enterKeep_keep {s : State} (cause : Nat) (h : inKeep s = false) :
    (enterKeep cause s).fault.keep = some (cause, s.time.now) := by
  unfold enterKeep
  rw [if_neg (ne_true_of_eq_false h)]
  have hclose : ∀ u, (closeAll u 3).fault = u.fault := fun u =>
    (closeAll_frame (pm := [.work, .mgmt]) (.refl u) (by decide) (by decide)).fault
  have hheld : ∀ st u, (dropHeld st false u).fault = u.fault := fun st u =>
    (dropHeld_frame (pm := [.sec, .pwr, .mgmt, .out]) (.refl u) (by decide) (by decide) (by decide) (by decide)).fault
  dsimp only
  split
  · rw [logErr_keep, hheld, dropLanded_keep]
  · rw [hclose, logErr_keep, hheld, dropLanded_keep]

/-! ## The statement -/

/-- Settles O51: each command that is taken acts by its own equation, and its answer touches neither what the effect
left nor what the clause reads. -/
theorem managementCommandsAct : Obligations.ManagementCommandsAct := by
  intro s c h0
  have hans : ∀ (t : State) st body, Frame [.mgmt, .out] t (respond t c st body) := fun t => respond_frame_mgmt_out t c
  refine ⟨?readRegs, ?readRegsRefused, ?readLog, ?readMeter, ?staging, ?stageStale, ?discardStage, ?setSigPolicy, ?held,
    ?clearQuarantine, ?resetWarm, ?resetCold, ?keepEnter, ?restEnter⟩
  case readRegs =>
    intro off n ht h1 h2 h3
    refine ⟨_, _, (mgmtRow_takes h0 ht).trans (congrArg _ (readRegs_ok h1 h2 h3)), responded_respond .., by simp,
      fun ha hb => ?_, fun hm hc => ?_⟩
    · rw [(hans ..).time, latchedTick, if_pos ⟨ha, hb⟩, (taken_frame s c).time]
    · rw [latchedTick, if_neg hc, taken_of_ne_mirror hm]
  case readRegsRefused =>
    intro off n ht h
    exact ⟨_, (mgmtRow_takes h0 ht).trans (congrArg _ (readRegs_refused h)), responded_respond ..⟩
  case readLog =>
    intro q ht
    refine ⟨_, mgmtRow_takes h0 ht, ?_⟩
    rw [← State.at_fault s c.stamp, ← (taken_frame s c).fault]
    exact responded_respond ..
  case readMeter =>
    intro q ht
    refine ⟨_, mgmtRow_takes h0 ht, ?_⟩
    rw [← taken_meter s c]
    exact responded_respond ..
  case staging =>
    intro e m hm
    refine ⟨fun r ht hok => ?_, fun first es ht h1 h2 h3 => ?_, fun x ht hok => ?_, fun l ht hl => ?_,
      fun b dst db ht h1 h2 => ?_⟩
    · exact mgmtRow_stages h0 ht hm rfl ((taken_benchRecordOk s c r).trans hok)
    · exact mgmtRow_stages h0 ht hm rfl (by simpa [h1, h2] using h3)
    · exact mgmtRow_stages h0 ht hm rfl ((taken_regionOk s c x m).trans hok)
    · exact mgmtRow_stages h0 ht hm rfl (decide_eq_true hl)
    · exact mgmtRow_stages h0 ht hm rfl (by simp [h1, h2])
  case stageStale =>
    intro e r hm ht
    refine mgmtRow_responds h0 ht (congrArg (answer c) (stage_stale ((taken_stagedFor s c e).trans hm))) ?_
    rw [(hans ..).fab, (taken_frame s c).fab, State.at_fab]
  case discardStage =>
    intro e m ht hseal hst
    have hfab : (taken s c).fab = s.fab := (taken_frame s c).fab
    refine mgmtRow_responds h0 ht (congrArg (answer c) (discardStage_ok (m := m)
      ((congrArg FabSt.sealSet hfab).trans hseal) ((congrArg FabSt.staged hfab).trans hst))) ?_
    rw [(hans ..).fab, hfab]
  case setSigPolicy =>
    intro b req key ht hb
    have hbar : (taken s c).bar = s.bar := (taken_frame s c).bar
    refine ⟨fun hl => ?_, fun hl => ?_⟩
    · obtain ⟨hok, hreq, hkey⟩ := setSigPolicy_ok req key ((congrArg BarSt.lock hbar).trans hl) hb
      refine mgmtRow_responds h0 ht (congrArg (respond _ c · []) hok) ?_
      refine ⟨?_, fun i hi => ?_⟩
      · rw [regVal_of_bar (hans ..).bar, hreq]
      · rw [regVal_of_bar (hans ..).bar, hkey i hi]
    · refine mgmtRow_responds h0 ht (congrArg (answer c) (setSigPolicy_locked b req key
        ((congrArg BarSt.lock hbar).trans hl))) ?_
      rw [(hans ..).bar, hbar]
  case held =>
    rintro row op ht hk (⟨e, k, rfl, rfl⟩ | ⟨x, rfl, rfl⟩ | ⟨b, rfl, rfl⟩)
    · exact ⟨_, mgmtRow_takes h0 ht, congrArg (· ++ _) (taken_held s c)⟩
    · exact ⟨_, mgmtRow_takes h0 ht, congrArg (· ++ _) (taken_held s c)⟩
    · refine ⟨holdCmd (taken s c) c (.keyErase b), (mgmtRow_takes h0 ht).trans (congrArg _ ?_),
        congrArg (· ++ _) (taken_held s c)⟩
      exact if_neg (ne_true_of_eq_false ((taken_inKeep s c).trans hk))
  case clearQuarantine =>
    intro x n u
    refine ⟨fun hx => ?_, fun hx hl => ?_⟩
    · have hu : u = respond (clearQuarantine s x) c .ok [] := mgmtCommit_clearQuarantine hx
      have hfault : u.fault = (clearQuarantine s x).fault := by rw [hu, (hans ..).fault]
      obtain ⟨hrec, hret, hloss⟩ := clearQuarantine_cleared s x
      exact ⟨hu ▸ responded_respond .., (recordOf_of_fault hfault x).trans hrec, hfault ▸ hret, hfault ▸ hloss⟩
    · have hu : u = respond s c .badDescriptor [] := mgmtCommit_clearQuarantine_absent hx hl
      exact ⟨hu ▸ responded_respond .., by rw [hu, (hans ..).fault]⟩
  case resetWarm =>
    intro ht hcold
    obtain ⟨-, hup, -⟩ := takes_iff.mp ht
    have hs : Frame [.mgmt, .out] (s.at c.stamp) (respond (taken s c) c .ok []) :=
      respond_frame ((taken_frame s c).mono (by decide)) (by decide) (by decide)
    refine ⟨_, (mgmtRow_takes h0 ht).trans (congrArg _ (warmReset_acts ?_ ?_ ?_)), warmLeft_resetState hs,
      responded_respond ..⟩
    · rw [hs.pwr, State.at_pwr, h0]
    · rw [hs.fw, State.at_fw, resetLow_of_sideUp hup]
    · exact (coldRunning_of_fw hs.fw).trans hcold
  case resetCold =>
    intro ht
    have hs : Frame [.time, .mgmt, .out] s (respond (taken s c) c .ok []) :=
      respond_frame ((State_at_frame (.refl s) (by decide)).trans ((taken_frame s c).mono (by decide)))
        (by decide) (by decide)
    exact ⟨_, mgmtRow_takes h0 ht, coldLeft_resetState hs, responded_respond ..⟩
  case keepEnter =>
    intro ht hk
    refine mgmtRow_responds h0 ht rfl ?_
    rw [(hans ..).fault, enterKeep_keep 4 ((taken_inKeep s c).trans hk), (taken_frame s c).time]
  case restEnter =>
    intro ht
    refine ⟨_, mgmtRow_takes h0 ht, ?_⟩
    exact congrArg (fun p => p.restReq ++ _) (taken_frame s c).pwr

end Sys2Proof.Machine
end

section
/-! SUPPORT. What reset leaves, and the shape that the rows of commit-acting descriptors share. -/

namespace Sys2Proof.Machine

/-- Settles O56: one closed fact for each field. -/
theorem resetHoldsTheSpecsValues : Obligations.ResetHoldsTheSpecsValues := by
  unfold Obligations.ResetHoldsTheSpecsValues
  decide

/-- The rows of the descriptors that act at a commit (R34), each with its opcode (R374). -/
def commitRows (d : HostDesc) : List (Instr × Nat) :=
  [(.modelLoad d, 0x10), (.modelLoadReplace d, 0x10), (.modelUnload d, 0x11), (.reqAdmit d, 0x20),
      (.reqAppend d, 0x21), (.reqCancel d, 0x22), (.reqPark d, 0x23), (.reqParkHaul d, 0x23), (.reqResume d, 0x24),
      (.reqResumeRebuild d, 0x24), (.reqRelease d, 0x25), (.reqHandoff d, 0x30), (.vecSearch d, 0x40),
      (.vecInsert d, 0x41), (.vecDelete d, 0x42), (.vecMergeMerge d, 0x43), (.vecMergeCreate d, 0x43),
      (.vecMergeDrop d, 0x43), (.vecMergeArchive d, 0x43), (.vecMergeRestore d, 0x43), (.vecMergeReplicate d, 0x43),
      (.vecMergeUnreplicate d, 0x43), (.tallySet d, 0x60), (.tallyDelete d, 0x60), (.streamBind d, 0x61),
      (.streamUnbind d, 0x61), (.nop d, 0x7F)]

/-- Each of them is the one shape of a descriptor at its commit, with the effect of its opcode; TALLY_SET refills its
tally too (R249). -/
theorem exec_commitRow (d : HostDesc) (s : State) : ∀ x ∈ commitRows d, ∃ f, exec x.1 s = hostRow x.2 f d s := by
  simp only [commitRows, List.forall_mem_cons]
  refine ⟨⟨_, rfl⟩, ⟨_, rfl⟩, ⟨_, rfl⟩, ⟨_, rfl⟩, ⟨_, rfl⟩, ⟨_, rfl⟩, ⟨_, rfl⟩, ⟨_, rfl⟩, ⟨_, rfl⟩, ⟨_, rfl⟩, ⟨_, rfl⟩,
    ⟨_, rfl⟩, ⟨_, rfl⟩, ⟨_, rfl⟩, ⟨_, rfl⟩, ⟨_, rfl⟩, ⟨_, rfl⟩, ⟨_, rfl⟩, ⟨_, rfl⟩, ⟨_, rfl⟩, ⟨_, rfl⟩, ⟨_, rfl⟩, ⟨_, rfl⟩,
    ⟨_, rfl⟩, ⟨_, rfl⟩, ⟨_, rfl⟩, ⟨_, rfl⟩, List.forall_mem_nil _⟩

/-- Settles O14. -/
theorem gatedDescriptorsOnlyComplete : Obligations.GatedDescriptorsOnlyComplete := by
  intro s d x h0 hx
  obtain ⟨f, hf⟩ := exec_commitRow d s x hx
  rw [hf]
  exact ⟨fun _ hq hm hg => hostRow_gated h0 hm hg hq, hostRow_lands h0⟩

end Sys2Proof.Machine
end

section
/-! SUPPORT. Tick synchronisation (R48 to R55): what goes out on the links, what each row leaves of the time base, and
the halt after a long loss. -/

namespace Sys2Proof.Machine

/-! ## The timing of a source (R53) -/

/-- The source's fields of the tick are this module's own (R53). -/
structure FieldsAgree (s : State) (f : SourceInfo) : Prop where
  period : f.period = period s
  backstop : f.backstop = backstopPm s
  cutoff : f.cutoff = cutoffPm s

theorem fieldsAgree_iff (s : State) (f : SourceInfo) :
    FieldsAgree s f ↔ f.period = period s ∧ f.backstop = backstopPm s ∧ f.cutoff = cutoffPm s :=
  ⟨fun ⟨hp, hb, hc⟩ => ⟨hp, hb, hc⟩, fun ⟨hp, hb, hc⟩ => ⟨hp, hb, hc⟩⟩

/-! ## Records on the links (R49) -/

/-- One record for each of these links but one. -/
def onLinks (ls : List Nat) (but : Option Nat) (r : LinkRec) : List Output :=
  (ls.filter (fun l => some l ≠ but)).map (fun l => .onLink l r)

/-- Records sent over links touch the outputs alone. -/
theorem foldl_onLink_eq (ls : List Nat) (but : Option Nat) (r : LinkRec) (s : State) :
    ls.foldl (fun s l => if some l = but then s else onLink s l r) s = { s with out := s.out ++ onLinks ls but r } := by
  induction ls generalizing s with
  | nil => simp [onLinks]
  | cons l ls ih =>
    rw [List.foldl_cons, ih]
    by_cases h : some l = but
    · simp [onLinks, h]
    · simp [onLinks, h, onLink, emit]

theorem forwardTime_eq (s : State) (src : Stamp) (hops : Nat) (but : Option Nat) :
    forwardTime s src hops but = { s with out := s.out ++ onLinks (timeLinks s true) but (.time src hops) } :=
  foldl_onLink_eq ..

theorem sendBeacons_eq (s : State) (tick off : Nat) (but : Option Nat) :
    sendBeacons s tick off but = { s with out := s.out ++ onLinks (timeLinks s false) but (.beacon tick off) } :=
  foldl_onLink_eq ..

/-- With no link left out the records are those of all links. -/
theorem onLinks_none (ls : List Nat) (r : LinkRec) : onLinks ls none r = ls.map (fun l => .onLink l r) := by
  simp [onLinks]

/-- A beacon goes out over every trained link but the one left out. -/
theorem mem_sendBeacons {s : State} {tick off k l : Nat} (hk : k < 96) (hl : k ≠ l) (hu : linkUp s k = true) :
    .onLink k (.beacon tick off) ∈ (sendBeacons s tick off (some l)).out := by
  rw [sendBeacons_eq]
  refine List.mem_append_right _ (List.mem_map_of_mem (List.mem_filter.mpr ⟨?_, by simpa using hl⟩))
  exact List.mem_filter.mpr ⟨List.mem_range.mpr hk, by simp [hu]⟩

/-! ## What the time base becomes -/

/-- LOST or MISMATCH entered: the counter, the hops and the lower-tick mark stay (R53). -/
theorem enterLost_time (s : State) (st : Sync) :
    (enterLost s st).time = { s.time with
      sync := st, lostAt := some (s.time.lostAt.getD s.time.now), resumeAt := none
      lastRun := if wholeTick s s.time.now.tick then some s.time.now.tick else s.time.lastRun } := by
  simp [enterLost]

/-- Entering LOST or MISMATCH is logged once (R53). -/
theorem enterLost_prod (s : State) (st : Sync) : (enterLost s st).fault.prod = (s.fault.prod + 1) % 2 ^ 32 := by
  simp [enterLost]

/-- The source's numbering adopted (R53 step 5). -/
theorem lockTo_time (s : State) (st : Stamp) (hops : Nat) :
    (lockTo s st hops).time = { s.time with
      sync := .locked, now := st, hops := hops, lastMsg := some st, lostAt := none, resumeAt := some (firstWhole st)
      early := (s.time.early ++ waitingStamps s).eraseDups } := by
  unfold lockTo
  split
  · rfl
  · exact logErr_time ..

/-- The new source keeps the numbering it holds (R48, R52). -/
theorem becomeSource_time (s : State) : (becomeSource s).time = { s.time with
    sync := .source, hops := 0, lostAt := none,
    resumeAt := some (s.time.resumeAt.getD (firstWhole s.time.now)) } := by
  unfold becomeSource
  rw [forwardTime_eq]

/-! ## Following a source (R49, R51 to R53) -/

/-- The module keeps alignment with a tick: LOCKED, HOLDOVER or the source itself. -/
def aligned (s : State) : Prop := s.time.sync = .locked ∨ s.time.sync = .holdover ∨ s.time.sync = .source

/-- In alignment, within 50 ns, the module is LOCKED to the message, or takes over where it goes before its source. -/
theorem followTime_near {s : State} {st : Stamp} {hops : Nat} {f : SourceInfo} (h : aligned s)
    (hn : stampGap s st s.time.now ≤ 50) : (followTime s st hops f).time.lastMsg = some s.time.now ∧
      ((followTime s st hops f).time.sync, (followTime s st hops f).time.hops) =
        if s.time.sync ≠ .source ∧ outranked s f = true then (.source, 0) else (.locked, hops) := by
  unfold followTime
  simp only [decide_eq_true hn, if_true]
  rcases h with h | h | h <;> simp only [h]
  case inr.inr => simp
  all_goals
    by_cases ho : outranked s f = true
    · simp [ho, becomeSource_time]
    · simp [ho]

/-- In alignment, beyond 50 ns, the tick is LOST. -/
theorem followTime_far {s : State} {st : Stamp} {hops : Nat} {f : SourceInfo} (h : aligned s)
    (hn : 50 < stampGap s st s.time.now) : followTime s st hops f = enterLost s .lost := by
  unfold followTime
  simp only [decide_eq_false (Nat.not_le.mpr hn)]
  rcases h with h | h | h <;> simp [h]

/-- In alignment a message leaves the counter where it is. -/
theorem followTime_now {s : State} {st : Stamp} {hops : Nat} {f : SourceInfo} (h : aligned s) :
    (followTime s st hops f).time.now = s.time.now := by
  unfold followTime
  rcases h with h | h | h <;> simp only [h]
  all_goals
    repeat' split
    all_goals simp [becomeSource_time, enterLost_time]

/-- Out of sync the source's numbering is adopted. -/
theorem followTime_adopts {s : State} {st : Stamp} {hops : Nat} {f : SourceInfo} (h : ¬aligned s) :
    followTime s st hops f = lockTo s st hops := by
  unfold followTime aligned at *
  cases hs : s.time.sync <;> simp_all

/-- The stamp a time record names here: the source's, and the delay of its link (R49). -/
def arrival (s : State) (link : Nat) (src : Stamp) : Stamp := stampAdd s src (linkOf s link).delay

/-- The state once a time record has gone on over the other links (R49). -/
def relayed (s : State) (link : Nat) (src : Stamp) (hops : Nat) : State :=
  forwardTime s (arrival s link src) (hops + 1) (some link)

theorem relayed_eq (s : State) (link : Nat) (src : Stamp) (hops : Nat) : relayed s link src hops =
    { s with out := s.out ++ onLinks (timeLinks s true) (some link) (.time (arrival s link src) (hops + 1)) } :=
  forwardTime_eq ..

@[simp] theorem relayed_time (s : State) (link : Nat) (src : Stamp) (hops : Nat) :
    (relayed s link src hops).time = s.time := by rw [relayed_eq]

theorem relayed_stampGap (s : State) (link : Nat) (src : Stamp) (hops : Nat) :
    stampGap (relayed s link src hops) = stampGap s := by rw [relayed_eq]; rfl

theorem relayed_outranked (s : State) (link : Nat) (src : Stamp) (hops : Nat) :
    outranked (relayed s link src hops) = outranked s := by rw [relayed_eq]; rfl

section
variable {s : State} {link : Nat} {src : Stamp} {hops : Nat} {f : SourceInfo}

/-- A source does not hear a module that does not go before it. -/
theorem timeReceived_unheard (h : s.time.sync = .source) (ho : outranks s f = false) :
    timeReceived link src hops f s = s :=
  if_pos (by simp [h, ho])

/-- With a lower numbering met before, nothing more is followed (R55). -/
theorem timeReceived_low (h : s.time.sync = .source → outranks s f = true) (hl : s.time.lowTick = true) :
    timeReceived link src hops f s = relayed s link src hops := by
  unfold timeReceived
  dsimp only
  rw [if_neg (by rintro ⟨h1, h2⟩; simp [h h1] at h2), if_pos hl]
  rfl

theorem fieldsDiffer_iff :
    (f.period != period s || f.backstop != backstopPm s || f.cutoff != cutoffPm s) = true ↔ ¬FieldsAgree s f := by
  simp only [fieldsAgree_iff, Bool.or_eq_true, bne_iff_ne]
  tauto

/-- Other timing is a MISMATCH (R53). -/
theorem timeReceived_differs (h : s.time.sync = .source → outranks s f = true) (hl : s.time.lowTick = false)
    (hf : ¬FieldsAgree s f) : timeReceived link src hops f s =
      if s.time.sync = .mismatch then relayed s link src hops else enterLost (relayed s link src hops) .mismatch := by
  unfold timeReceived
  dsimp only
  rw [if_neg (by rintro ⟨h1, h2⟩; simp [h h1] at h2), if_neg (by simp [hl]), if_pos (fieldsDiffer_iff.mpr hf)]
  rfl

/-- A numbering below the last committed tick is a MISMATCH, and is remembered (R55). -/
theorem timeReceived_behind {n : Nat} (h : s.time.sync = .source → outranks s f = true) (hl : s.time.lowTick = false)
    (hf : FieldsAgree s f) (hn : s.time.lastCommit = some n) (hb : (arrival s link src).tick < n) :
    timeReceived link src hops f s =
      let s1 := { relayed s link src hops with time := { (relayed s link src hops).time with lowTick := true } }
      if s.time.sync = .mismatch then s1 else enterLost s1 .mismatch := by
  unfold timeReceived
  dsimp only
  rw [if_neg (by rintro ⟨h1, h2⟩; simp [h h1] at h2), if_neg (by simp [hl]),
    if_neg (fun hd => fieldsDiffer_iff.mp hd hf), if_pos (by rw [hn]; exact decide_eq_true hb)]
  rfl

/-- Any other record that is heard is followed. -/
theorem timeReceived_follows (h : s.time.sync = .source → outranks s f = true) (hl : s.time.lowTick = false)
    (hf : FieldsAgree s f) (hn : ∀ n, s.time.lastCommit = some n → n ≤ (arrival s link src).tick) :
    timeReceived link src hops f s = followTime (relayed s link src hops) (arrival s link src) (hops + 1) f := by
  have hb : ¬(match s.time.lastCommit with | some n => decide ((arrival s link src).tick < n) | none => false) = true := by
    cases hc : s.time.lastCommit with
    | none => simp
    | some n => simpa using hn n hc
  unfold timeReceived
  dsimp only
  rw [if_neg (by rintro ⟨h1, h2⟩; simp [h h1] at h2), if_neg (by simp [hl]),
    if_neg (fun hd => fieldsDiffer_iff.mp hd hf)]
  exact if_neg hb

/-- A module in alignment that hears a record within 50 ns is LOCKED by it, or takes over (R48, R49). -/
theorem timeReceived_near (h : s.time.sync = .source → outranks s f = true) (hl : s.time.lowTick = false)
    (hf : FieldsAgree s f) (hn : ∀ n, s.time.lastCommit = some n → n ≤ (arrival s link src).tick) (ha : aligned s)
    (hg : stampGap s (arrival s link src) s.time.now ≤ 50) :
    (timeReceived link src hops f s).time.lastMsg = some s.time.now ∧
      ((timeReceived link src hops f s).time.sync, (timeReceived link src hops f s).time.hops) =
        if s.time.sync ≠ .source ∧ outranked s f = true then (.source, 0) else (.locked, hops + 1) := by
  have ha' : aligned (relayed s link src hops) := by simpa only [aligned, relayed_time] using ha
  have hg' : stampGap (relayed s link src hops) (arrival s link src) (relayed s link src hops).time.now ≤ 50 := by
    rwa [relayed_stampGap, relayed_time]
  obtain ⟨hmsg, hsync⟩ := followTime_near (hops := hops + 1) (f := f) ha' hg'
  rw [timeReceived_follows h hl hf hn]
  exact ⟨by rw [hmsg, relayed_time], by rw [hsync, relayed_time, relayed_outranked]⟩

/-- A module in alignment that hears a record more than 50 ns off has LOST the tick (R53). -/
theorem timeReceived_far (h : s.time.sync = .source → outranks s f = true) (hl : s.time.lowTick = false)
    (hf : FieldsAgree s f) (hn : ∀ n, s.time.lastCommit = some n → n ≤ (arrival s link src).tick) (ha : aligned s)
    (hg : 50 < stampGap s (arrival s link src) s.time.now) :
    timeReceived link src hops f s = enterLost (relayed s link src hops) .lost := by
  rw [timeReceived_follows h hl hf hn]
  exact followTime_far (by simpa only [aligned, relayed_time] using ha) (by rwa [relayed_stampGap, relayed_time])

/-- A module out of sync adopts the numbering it hears (R53 step 5). -/
theorem timeReceived_adopts (h : s.time.sync = .source → outranks s f = true) (hl : s.time.lowTick = false)
    (hf : FieldsAgree s f) (hn : ∀ n, s.time.lastCommit = some n → n ≤ (arrival s link src).tick) (ha : ¬aligned s) :
    timeReceived link src hops f s = lockTo (relayed s link src hops) (arrival s link src) (hops + 1) := by
  rw [timeReceived_follows h hl hf hn]
  exact followTime_adopts (by simpa only [aligned, relayed_time] using ha)

/-- Other timing ends in MISMATCH, from which a later record may lead back (R53, R55). -/
theorem timeReceived_differs_time (h : s.time.sync = .source → outranks s f = true) (hl : s.time.lowTick = false)
    (hf : ¬FieldsAgree s f) : (timeReceived link src hops f s).time.sync = .mismatch ∧
      (timeReceived link src hops f s).time.lowTick = false := by
  rw [timeReceived_differs h hl hf]
  split
  · rw [relayed_time]
    exact ⟨‹_›, hl⟩
  · simp [enterLost_time, hl]

/-- A numbering below the last committed tick ends in MISMATCH for good, and leaves the counter where it is (R55). -/
theorem timeReceived_behind_time {n : Nat} (h : s.time.sync = .source → outranks s f = true) (hl : s.time.lowTick = false)
    (hf : FieldsAgree s f) (hn : s.time.lastCommit = some n) (hb : (arrival s link src).tick < n) :
    (timeReceived link src hops f s).time.sync = .mismatch ∧ (timeReceived link src hops f s).time.lowTick = true ∧
      (timeReceived link src hops f s).time.now = s.time.now := by
  rw [timeReceived_behind h hl hf hn hb]
  dsimp only
  split
  · exact ⟨by simpa, rfl, by simp⟩
  · simp [enterLost_time]

/-- A record moves the counter only where the source's numbering is adopted, and that is never below the last
committed tick (R55). -/
theorem timeReceived_now : (timeReceived link src hops f s).time.now = s.time.now ∨
    ∀ n, s.time.lastCommit = some n → n ≤ (timeReceived link src hops f s).time.now.tick := by
  by_cases h : s.time.sync = .source → outranks s f = true
  case neg =>
    push Not at h
    exact .inl (by rw [timeReceived_unheard h.1 (by simpa using h.2)])
  cases hl : s.time.lowTick with
  | true => exact .inl (by rw [timeReceived_low h hl, relayed_time])
  | false =>
    by_cases hf : FieldsAgree s f
    case neg =>
      left
      rw [timeReceived_differs h hl hf]
      split
      · rw [relayed_time]
      · rw [enterLost_time, relayed_time]
    by_cases hn : ∀ n, s.time.lastCommit = some n → n ≤ (arrival s link src).tick
    case neg =>
      push Not at hn
      obtain ⟨n, hc, hlt⟩ := hn
      exact .inl (timeReceived_behind_time h hl hf hc hlt).2.2
    rw [timeReceived_follows h hl hf hn]
    by_cases ha : aligned (relayed s link src hops)
    · exact .inl ((followTime_now ha).trans (congrArg _ (relayed_time ..)))
    · exact .inr (by rw [followTime_adopts ha, lockTo_time]; exact hn)

end

/-- A time record on a link that carries time (R49, R308). -/
theorem exec_timeRecordReceive {s : State} {t src : Stamp} {l hops : Nat} {f : SourceInfo} (h0 : s.pwr.off = false)
    (hl : linkUp s l = true ∨ (linkOf s l).state = .isolated) :
    exec (.timeRecordReceive t l src hops f) s = .next (timeReceived l src hops f (s.at t)) := by
  have hc : (linkUp (s.at t) l || (linkOf (s.at t) l).state == .isolated) = true :=
    Bool.or_eq_true _ _ ▸ hl.imp id beq_iff_eq.mpr
  exact (run_on h0 t _).trans (congrArg _ (if_pos hc))

/-- A time record on another link has no effect. -/
theorem exec_timeRecordReceive_other {s : State} {t src : Stamp} {l hops : Nat} {f : SourceInfo} (h0 : s.pwr.off = false)
    (hl : ¬(linkUp s l = true ∨ (linkOf s l).state = .isolated)) :
    exec (.timeRecordReceive t l src hops f) s = .next (s.at t) := by
  have hc : ¬(linkUp (s.at t) l || (linkOf (s.at t) l).state == .isolated) = true := fun h =>
    hl ((Bool.or_eq_true _ _ ▸ h).imp id beq_iff_eq.mp)
  exact (run_on h0 t _).trans (congrArg _ (if_neg hc))

/-- Settles O38. -/
theorem timeRecordsAreFollowed : Obligations.TimeRecordsAreFollowed := by
  refine ⟨?follows, ?repeats⟩
  case follows =>
    rintro s t l src _ hops f h0 hl rfl
    rw [exec_timeRecordReceive h0 hl]
    refine ⟨fun h ho => congrArg _ (timeReceived_unheard h ho), fun hlow hsrc => ⟨fun hp hb hc hn => ?_, fun hd => ?_,
      fun n hp hb hc hn hlt => ?_⟩⟩
    · have hf : FieldsAgree (s.at t) f := ⟨hp, hb, hc⟩
      refine ⟨fun ha => ⟨fun hg => ⟨_, rfl, timeReceived_near hsrc hlow hf hn ha hg⟩, fun hg => ⟨_, rfl, ?_⟩⟩,
        fun ho => ⟨_, rfl, ?_⟩⟩
      · rw [timeReceived_far (s := s.at t) hsrc hlow hf hn ha hg, enterLost_time]
      · have ha : ¬aligned (s.at t) := by
          rcases ho with h | h | h <;> simp [aligned, h]
        rw [timeReceived_adopts (s := s.at t) hsrc hlow hf hn ha, lockTo_time]
        exact ⟨rfl, rfl, rfl⟩
    · have hf : ¬FieldsAgree (s.at t) f := fun ⟨hp, hb, hc⟩ => by rcases hd with h | h | h <;> contradiction
      exact ⟨_, rfl, timeReceived_differs_time (s := s.at t) hsrc hlow hf⟩
    · obtain ⟨h1, h2, -⟩ := timeReceived_behind_time (hops := hops) (s := s.at t) hsrc hlow ⟨hp, hb, hc⟩ hn hlt
      exact ⟨_, rfl, h1, h2⟩
  case repeats =>
    intro s t l src hops f h0
    refine ⟨fun u hu hne n hn => ?_, fun n hl hp hb hc hlow hsrc hn hlt => ?_, fun hm hlow => ?_, rfl⟩
    · by_cases hl : linkUp s l = true ∨ (linkOf s l).state = .isolated
      · obtain rfl := Host.Outcome.next.inj ((exec_timeRecordReceive h0 hl).symm.trans hu)
        exact (timeReceived_now.resolve_left hne) n hn
      · obtain rfl := Host.Outcome.next.inj ((exec_timeRecordReceive_other h0 hl).symm.trans hu)
        exact absurd rfl hne
    · exact ⟨_, exec_timeRecordReceive h0 hl, timeReceived_behind_time (s := s.at t) hsrc hlow ⟨hp, hb, hc⟩ hn hlt⟩
    · by_cases hl : linkUp s l = true ∨ (linkOf s l).state = .isolated
      · refine ⟨_, exec_timeRecordReceive h0 hl, ?_⟩
        rw [timeReceived_low (s := s.at t) (by simp [hm]) hlow, relayed_time]
      · exact ⟨_, exec_timeRecordReceive_other h0 hl, rfl⟩

/-! ## Beacons, takeover and loss (R48, R49, R51 to R54) -/

/-- A beacon that a module following the tick takes aligns it, or loses it (R49, R53), and goes on over the other
links. -/
theorem beaconReceived_follows {s : State} {l tick off : Nat} (hl : linkUp s l = true)
    (hs : s.time.sync = .locked ∨ s.time.sync = .holdover) :
    beaconReceived l tick off s =
      sendBeacons (if stampGap s (stampNorm s ⟨tick, off + (linkOf s l).delay⟩) s.time.now ≤ 50 then
        { s with time := { s.time with now := stampMax s.time.now (stampNorm s ⟨tick, off + (linkOf s l).delay⟩) } }
        else enterLost s .lost) tick (off + (linkOf s l).delay) (some l) := by
  unfold beaconReceived
  dsimp only
  rcases hs with h | h <;> simp [hl, h]

/-- What carries packets on a link is the fabric's state alone. -/
theorem linkUp_of_fab {s u : State} (h : u.fab = s.fab) (l : Nat) : linkUp u l = linkUp s l := by
  unfold linkUp linkOf
  rw [h]

theorem enterLost_fab (s : State) (st : Sync) : (enterLost s st).fab = s.fab :=
  (enterLost_frame (pm := [.time, .fault, .out]) (.refl s) (by decide) (by decide) (by decide)).fab

/-! ## The halt (R54) -/

/-- A bench halted is HALTED, and no other bench changes (R69). -/
theorem bench_haltBench (s : State) (a b : Nat) :
    bench (haltBench s a) b = if a = b then { bench s a with state := .halted } else bench s b := by
  simp only [haltBench, bench, setBench_benches, tgetD, tget_tput]
  split <;> rfl

/-- Benches halted one after another: those of the list are HALTED, and no other bench changes. -/
theorem bench_foldl_haltBench (l : List Nat) (s : State) (b : Nat) :
    ((b ∈ l ∨ (bench s b).state = .halted) → (bench (l.foldl haltBench s) b).state = .halted) ∧
      (b ∉ l → bench (l.foldl haltBench s) b = bench s b) := by
  induction l generalizing s with
  | nil => simp
  | cons a l ih =>
    obtain ⟨hin, hout⟩ := ih (haltBench s a)
    rw [List.foldl_cons]
    refine ⟨fun h => hin ?_, fun h => ?_⟩
    · by_cases e : a = b
      · simp [bench_haltBench, e]
      · simpa [bench_haltBench, e, Ne.symm e] using h
    · rw [List.mem_cons, not_or] at h
      obtain ⟨h1, h2⟩ := h
      rw [hout h2, bench_haltBench, if_neg (Ne.symm h1)]

/-- A table has a value at the keys it lists. -/
theorem tget_isSome_iff {α : Type} (t : Table α) (k : Nat) : (tget t k).isSome = true ↔ k ∈ t.map (·.1) := by
  induction t with
  | nil => simp [tget]
  | cons a t ih =>
    obtain ⟨j, v⟩ := a
    simp only [tget, List.map_cons, List.mem_cons]
    split
    · simp_all
    · rw [ih]
      simp [Ne.symm ‹_›]

/-- Every bench that has a record halted. -/
def haltAll (s : State) : State := (s.fab.maps.benches.map (·.1)).foldl haltBench s

/-- Halting touches the benches and the plan's units alone. -/
theorem haltAll_frame (s : State) : Frame [.benches, .plan] s (haltAll s) :=
  foldl_frame (.refl s) fun _ _ h => haltBench_frame h (by decide) (by decide)

/-- A module that has lost the tick for long halts its benches, and logs it (R54). -/
theorem exec_syncHaltTimeout {s : State} {t : Stamp} (h0 : s.pwr.off = false)
    (hs : s.time.sync = .lost ∨ s.time.sync = .mismatch) (hh : s.time.halted = false) :
    exec (.syncHaltTimeout t) s = .next (logErr { haltAll (s.at t) with
      time := { (haltAll (s.at t)).time with halted := true } } .tick 5) := by
  refine (run_on h0 t _).trans (congrArg _ (if_pos ?_))
  rcases hs with h | h <;> simp [h, hh]

/-- Halted once, the module does not halt again (R54). -/
theorem exec_syncHaltTimeout_halted {s : State} {t : Stamp} (h0 : s.pwr.off = false) (hh : s.time.halted = true) :
    exec (.syncHaltTimeout t) s = .next (s.at t) :=
  (run_on h0 t _).trans (congrArg _ (if_neg (by simp [hh])))

/-- Settles O37. -/
theorem theTickIsSentAndLost : Obligations.TheTickIsSentAndLost := by
  refine ⟨fun s t h0 => ⟨?send, ?holdover, ?lost, ?delay⟩, fun s t h0 => ⟨?beacon, ?takeover⟩, fun s t h0 hs hh => ?halt⟩
  case send =>
    intro hs
    refine ⟨_, (run_on h0 t _).trans (congrArg _ (if_pos hs)), ?_⟩
    rw [forwardTime_eq, onLinks_none]
    rfl
  case holdover =>
    intro hs
    refine ⟨_, (run_on h0 t _).trans (congrArg _ (if_pos hs)), ?_, logErr_prod ..⟩
    rw [logErr_time]
  case lost =>
    intro hs
    have hc : ((s.at t).time.sync == .locked || (s.at t).time.sync == .holdover) = true := by
      rcases hs with h | h <;> simp [h]
    refine ⟨_, (run_on h0 t _).trans (congrArg _ (if_pos hc)), ?_, ?_, enterLost_prod ..⟩ <;> rw [enterLost_time]
  case delay => exact fun l n => run_on h0 t (fun s => setLink s l _)
  case beacon =>
    rintro l tick off _ hl hs rfl
    refine ⟨_, (run_on h0 t _).trans (congrArg _ (beaconReceived_follows (s := s.at t) hl hs)), fun hg => ?_, fun hg => ?_,
      fun k hk hkl hu => ?_⟩
    · rw [if_pos (by exact hg), sendBeacons_eq]
      exact ⟨rfl, rfl⟩
    · rw [if_neg (Nat.not_le.mpr (by exact hg)), sendBeacons_eq, enterLost_time]
    · refine mem_sendBeacons hk hkl ?_
      split
      · exact hu
      · exact (linkUp_of_fab (enterLost_fab _ _) k).trans hu
  case takeover =>
    intro hp hs
    have hc : (true && decide (0 < sourcePrio (s.at t)) &&
        ((s.at t).time.sync == .holdover || (s.at t).time.sync == .unsync)) = true := by
      have hp' : 0 < sourcePrio (s.at t) := hp
      rcases hs with h | h <;> simp [h, hp']
    refine ⟨_, (run_on h0 t _).trans (congrArg _ (if_pos hc)), ?_⟩
    rw [becomeSource_time]
    exact ⟨rfl, rfl, rfl⟩
  case halt =>
    have hf := haltAll_frame (s.at t)
    have hb : ∀ b, bench (logErr { haltAll (s.at t) with
        time := { (haltAll (s.at t)).time with halted := true } } .tick 5) b = bench (haltAll (s.at t)) b := by
      simp [bench]
    refine ⟨_, exec_syncHaltTimeout h0 hs hh, by rw [logErr_time], fun b h => ?_, fun b h => ?_, ?_,
      exec_syncHaltTimeout_halted ?_ (by rw [logErr_time])⟩
    · rw [hb]
      exact (bench_foldl_haltBench _ _ b).1 (.inl ((tget_isSome_iff _ b).mp h))
    · rw [hb]
      exact (bench_foldl_haltBench _ _ b).2 (fun hm => by simpa [h] using (tget_isSome_iff s.fab.maps.benches b).mpr hm)
    · rw [logErr_work, hf.work, State.at_work]
    · rw [logErr_pwr, hf.pwr]
      exact h0

end Sys2Proof.Machine
end

section
/-! SUPPORT. The tick (R27, R37, R42, R189, R423): what its start and its cut-off leave of the plan and of the count of
availability, and how often it commits. -/

namespace Sys2Proof.Machine

/-- What each step of a fold keeps, the fold keeps. -/
theorem foldl_keeps {α β : Type} (π : State → β) {f : State → α → State} (hf : ∀ s x, π (f s x) = π s) (l : List α)
    (s : State) : π (l.foldl f s) = π s := by
  induction l generalizing s with
  | nil => rfl
  | cons a l ih => rw [List.foldl_cons, ih, hf]

/-! ## The commit (R37, R493) -/

/-- A commit ends with its counters published, and is the last one (R37, R493). -/
theorem commitTick_closes (s : State) (n : Nat) (plans : Bool) : ∃ v, commitTick s n plans = closeCommit v n := by
  unfold commitTick
  exact ⟨_, rfl⟩

/-- Outside Keep mode, in RUN, a commit that is due is made. -/
theorem commit_made {s : State} {t : Stamp} (hk : s.fault.keep = none) (hr : s.pwr.state = .run)
    (hc : commits s t = true) : commit t s = commitTick s t.tick (wholeTick s t.tick) := by
  simp [commit, hk, hr, hc]

/-- No tick has a second commit, nor has an earlier one (R37). -/
theorem commits_passed {s : State} {t : Stamp} {n : Nat} (hn : s.time.lastCommit = some n) (h : t.tick ≤ n) :
    commits s t = false := by
  simp [commits, hn, Nat.not_lt.mpr h]

theorem commit_not_due {s : State} {t : Stamp} (hc : commits s t = false) : commit t s = s := by
  unfold commit
  dsimp only
  split <;> simp [hc]

/-! ## The start of a tick (R27, R423) -/

/-- A tile still under an override is affected again without an entry in the log (R458). -/
theorem startAffected_fault (s : State) : (startAffected s).fault = s.fault := by
  refine foldl_keeps State.fault (fun s l => ?_) _ _
  have hm : ∀ u k, (markAffected u k).fault = u.fault := fun u _ =>
    (markAffected_frame (pm := [.bar, .pwr]) (.refl u) (by decide) (by decide)).fault
  simp only [raiseOverride, Bool.false_eq_true, if_false, hm]
  split <;> rfl

/-- With no escalated reset behind it, the first tick counts no gap (R424). -/
theorem beginTicking_fault {s : State} (n : Nat) (h : s.fw.escalated = none) : (beginTicking s n).fault = s.fault := by
  unfold beginTicking
  split
  · have hf := openMeters_frame (pm := [.mgmt]) (k := n)
      (.refl { s with time := { s.time with ticking := true, first := some n } }) (by decide)
    unfold countGap
    rw [hf.fw]
    dsimp only
    rw [h, hf.fault]
  · rfl

/-- A tick is counted in one class, whatever else the fault state holds (R423). -/
theorem addAvail_of_fault {s u : State} (h : u.fault = s.fault) (c : AvailClass) (m : Nat) :
    (addAvail u c m).fault = (addAvail s c m).fault := by
  simp only [addAvail, h]

/-- Sampled items taken leave the cut-off mark alone. -/
theorem putItem_cut (s : State) (it : Item) : (putItem s it).plan.cut = s.plan.cut := rfl

theorem engineItem_cut (s : State) (b : Nat) (p : Package) (r k i : Nat) (t : BitVec 256) (g : Nat) :
    (engineItem s b p r k i t g).plan.cut = s.plan.cut := by
  unfold engineItem
  split <;> rfl

theorem sampleEngines_cut (s : State) (b : Nat) : (sampleEngines s b).plan.cut = s.plan.cut := by
  unfold sampleEngines
  split
  · rfl
  · refine foldl_keeps (·.plan.cut) (fun s k => foldl_keeps (·.plan.cut) (fun s t => foldl_keeps (·.plan.cut) (fun s g => ?_) _ _) _ _) _ _
    dsimp only
    split
    · exact engineItem_cut ..
    · rfl

theorem sampleUnit_cut (s : State) (u : WorkUnit) : (sampleUnit s u).plan.cut = s.plan.cut := by
  unfold sampleUnit
  split
  · split
    · rfl
    · refine foldl_keeps (·.plan.cut) (fun s x => foldl_keeps (·.plan.cut) (fun s j => ?_) _ _) _ _
      dsimp only
      split <;> rfl
  · rfl

theorem startItems_cut (s : State) : (startItems s).plan.cut = s.plan.cut := by
  unfold startItems
  split
  · exact (foldl_keeps (·.plan.cut) sampleUnit_cut _ _).trans (foldl_keeps (·.plan.cut) sampleEngines_cut _ _)
  · rfl

theorem startSearches_cut (s : State) : (startSearches s).plan.cut = s.plan.cut := by
  have hq : ∀ u i fmt q, (countQuery u i fmt q).plan = u.plan := fun u _ _ _ =>
    (countQuery_frame (pm := [.bar]) (.refl u) (by decide)).plan
  have ha : ∀ u k b l, (sendVecAsks u k b l).plan = u.plan := fun u _ _ _ =>
    (sendVecAsks_frame (pm := [.out, .spent]) (.refl u) (by decide) (by decide)).plan
  unfold startSearches
  dsimp only
  refine (foldl_keeps (·.plan.cut) (fun u b => congrArg PlanSt.cut (ha ..)) _ _).trans ?_
  exact foldl_keeps (·.plan.cut) (fun u q => foldl_keeps (·.plan.cut) (fun u a => congrArg PlanSt.cut (hq ..)) _ _) _ _

/-! ## Spans (R191) -/

/-- Of the plan, at most the spans differ. -/
def spansAlone (s u : State) : Prop := ∃ l, u.plan = { s.plan with spans := l }

theorem spansAlone.of_eq {s u : State} (h : u.plan = s.plan) : spansAlone s u := ⟨s.plan.spans, h⟩

theorem spansAlone.trans {s t u : State} (h1 : spansAlone s t) (h2 : spansAlone t u) : spansAlone s u := by
  obtain ⟨l, h⟩ := h1
  obtain ⟨k, g⟩ := h2
  exact ⟨k, by rw [g, h]⟩

theorem spansAlone_foldl {α : Type} {f : State → α → State} (hf : ∀ s x, spansAlone s (f s x)) (l : List α) (s : State) :
    spansAlone s (l.foldl f s) := by
  induction l generalizing s with
  | nil => exact .of_eq rfl
  | cons a l ih => exact (hf s a).trans (ih _)

theorem mapSpans_spansAlone (s : State) (f : Span → Span) : spansAlone s (mapSpans s f) := ⟨_, rfl⟩

theorem sendAsks_spansAlone (s : State) (kind : Nat) (asks : List (Span × ModuleId)) : spansAlone s (sendAsks s kind asks) :=
  .of_eq (sendAsks_frame (pm := [.out, .spent]) (.refl s) (by decide) (by decide)).plan

theorem askNext_spansAlone (s : State) : spansAlone s (askNext s) := by
  unfold askNext
  extract_lets l
  split
  · exact .of_eq rfl
  · exact (mapSpans_spansAlone ..).trans (sendAsks_spansAlone ..)

theorem backstopAsks_spansAlone (s : State) (p : Span → Bool) : spansAlone s (backstopAsks s p) := by
  unfold backstopAsks
  dsimp only
  split
  · exact .of_eq rfl
  · exact ((mapSpans_spansAlone ..).trans (spansAlone_foldl (fun _ _ => .of_eq (count_plan ..)) _ _)).trans
      (sendAsks_spansAlone ..)

theorem remoteWait_spansAlone (t : Stamp) (b pass layer : Nat) (s : State) :
    spansAlone s (remoteWait t b pass layer s) := by
  unfold remoteWait
  dsimp only
  refine spansAlone.trans ?_ (askNext_spansAlone _)
  have htrail : ∀ n f ks, spansAlone s (trail (mapSpans (count s (bn b 0x488) n) f) b layer ks) := fun n f ks =>
    ((spansAlone.of_eq (count_plan ..)).trans (mapSpans_spansAlone ..)).trans
      (spansAlone_foldl (fun _ _ => mapSpans_spansAlone ..) _ _)
  split
  · exact (htrail ..).trans (backstopAsks_spansAlone ..)
  · exact htrail ..

theorem expireWaits_spansAlone (t : Stamp) (s : State) : spansAlone s (expireWaits t s) := by
  unfold expireWaits
  refine spansAlone_foldl (fun u k => ?_) _ _
  exact remoteWait_spansAlone t k.1 k.2.1 k.2.2 u

theorem startSpans_spansAlone (s : State) : spansAlone s (startSpans s) := by
  unfold startSpans
  exact spansAlone.trans ⟨_, rfl⟩ (askNext_spansAlone _)

/-! ## The whole start -/

/-- The fault state and the cut-off mark are the same. -/
structure SameCount (s u : State) : Prop where
  fault : u.fault = s.fault
  cut : u.plan.cut = s.plan.cut

theorem SameCount.trans {s t u : State} (h1 : SameCount s t) (h2 : SameCount t u) : SameCount s u :=
  ⟨h2.fault.trans h1.fault, h2.cut.trans h1.cut⟩

theorem SameCount.ite {s u v : State} {p : Prop} [Decidable p] (h1 : SameCount s u) (h2 : SameCount s v) :
    SameCount s (if p then u else v) := by
  split
  · exact h1
  · exact h2

theorem SameCount.of_frame {pm : List Part} {s u : State} (h : Frame pm s u) (hf : Part.fault ∉ pm := by decide)
    (hp : Part.plan ∉ pm := by decide) : SameCount s u := ⟨h.fault hf, congrArg PlanSt.cut (h.plan hp)⟩

theorem SameCount.rfl {s : State} : SameCount s s := ⟨.refl _, .refl _⟩

/-- The source's beacons, the moves, the packets, and the spans, searches and samples of the new tick are no part of
its count, and do not close it. -/
theorem startWork_sameCount (s : State) :
    SameCount s (pumpWindows (pumpRack s)) ∧ SameCount s (issueMoves s) ∧
      SameCount s (startItems (startSearches (startSpans s))) := by
  refine ⟨.of_frame (pm := [.bar, .fab, .win, .out, .spent]) ?_, .of_frame (pm := [.bar, .tier, .spent, .fresh]) ?_, ?_, ?_⟩
  · exact pumpWindows_frame (pumpRack_frame (.refl s) (by decide) (by decide) (by decide) (by decide))
      (by decide) (by decide) (by decide) (by decide) (by decide)
  · exact issueMoves_frame (.refl s) (by decide) (by decide) (by decide) (by decide)
  · rw [(startItems_frame (pm := [.plan, .fresh]) (.refl _) (by decide) (by decide)).fault,
      (startSearches_frame (pm := [.bar, .plan, .out, .spent]) (.refl _) (by decide) (by decide) (by decide) (by decide)).fault,
      (startSpans_frame (pm := [.plan, .out, .spent]) (.refl _) (by decide) (by decide) (by decide)).fault]
  · obtain ⟨l, hl⟩ := startSpans_spansAlone s
    rw [startItems_cut, startSearches_cut, hl]

/-- The start of a tick leaves it open, and counts it once in the class it has (R27, R42, R423). -/
theorem tickStart_count (t : Stamp) (s : State) (h : s.fw.escalated = none) : (tickStart t s).plan.cut = false ∧
    ∃ c, (tickStart t s).fault = (addAvail s c 1).fault := by
  unfold tickStart
  extract_lets n s1 s2 _ s3 s4 s5 s6
  have h1 : s1.fault = s.fault := by
    have hc : s1.fault = (startAffected (beginTicking s n)).fault :=
      (countRest_frame (pm := [.mgmt]) (.refl _) (by decide)).fault
    rw [hc, startAffected_fault, beginTicking_fault n h]
  have h2 : s2.fault = (addAvail s (availClass s1 n) 1).fault :=
    (takePlan_frame (pm := [.bar, .work, .plan, .fw, .fresh]) (.refl _) (by decide) (by decide) (by decide) (by decide)
      (by decide)).fault.trans (addAvail_of_fault h1 _ _)
  have h3 : SameCount { s2 with plan := { s2.plan with cut := false, benchDrop := [], spans := [] }, spent := [] } s3 :=
    .of_frame (pendRows_frame (pm := [.work]) (.refl _) (by decide))
  have h4 : SameCount s3 s4 := .ite (by rw [sendBeacons_eq]; exact ⟨rfl, rfl⟩) .rfl
  have h5 : SameCount s4 s5 := .ite (startWork_sameCount s4).2.1 .rfl
  have h6 : SameCount s5 s6 := .ite (startWork_sameCount s5).1 .rfl
  have h7 : SameCount s6 (if synced s6 && running s6 then startItems (startSearches (startSpans s6)) else s6) :=
    .ite (startWork_sameCount s6).2.2 .rfl
  obtain ⟨hfault, hcut⟩ := (((h3.trans h4).trans h5).trans h6).trans h7
  exact ⟨hcut, availClass s1 n, hfault.trans h2⟩

/-! ## The cut-off (R42, R147, R148, R189) -/

/-- Steps dropped leave the cut-off mark alone. -/
theorem dropFed_cut (s : State) (it : Item) : (dropFed s it).plan.cut = s.plan.cut := rfl

/-- Work marked late before units were dropped is marked so after it. -/
theorem dropFed_late (s : State) (it : Item) :
    (dropFed s it).plan.units.map (·.late) = s.plan.units.map (·.late) := by
  simp only [dropFed, List.map_map]
  refine List.map_congr_left fun u _ => ?_
  simp only [Function.comp]
  split <;> rfl

/-- The samples at a cut-off drop steps, and neither make one late nor open the tick again. -/
theorem itemsAtCutoff_late (s : State) :
    ((itemsAtCutoff s).plan.cut, (itemsAtCutoff s).plan.units.map (·.late)) = (s.plan.cut, s.plan.units.map (·.late)) := by
  have hs : ∀ u it r, (settleOut u it r).plan = u.plan := fun u _ _ =>
    (settleOut_frame (pm := [.out, .spent]) (.refl u) (by decide) (by decide)).plan
  have hl : ∀ u b x st, (logShadow u 6 b x 0 0 st).plan = u.plan := fun u _ _ _ =>
    (logShadow_frame (pm := [.fault, .out]) (.refl u) (by decide) (by decide)).plan
  unfold itemsAtCutoff
  refine foldl_keeps (fun u => (u.plan.cut, u.plan.units.map (·.late))) (fun u x => ?_) _ _
  dsimp only
  split
  · rfl
  · split
    · have hv := hl u x.2.bench x.2.unit 0
      rw [hs]
      generalize logShadow u 6 x.2.bench x.2.unit 0 0 0 = v at hv
      exact Prod.ext ((dropFed_cut v x.2).trans (congrArg PlanSt.cut hv))
        ((dropFed_late v x.2).trans (congrArg (fun p : PlanSt => p.units.map (·.late)) hv))
    · rfl

/-- The holder's cut-off leaves nothing to serve and the rest of the plan alone (R189). -/
theorem abandonServes_plan (s : State) : (abandonServes s).plan = { s.plan with serves := [] } := by
  unfold abandonServes
  extract_lets open_ firsts s1
  have h : s1.plan = s.plan := foldl_keeps State.plan (fun _ _ => count_plan ..) _ _
  exact congrArg (fun p : PlanSt => { p with serves := [] }) h

theorem cutOff_closes (late : List Nat) (s : State) (h : s.plan.cut = false) : (cutOff late s).plan.cut = true ∧
    (cutOff late s).plan.units.map (·.late) = (lateUnits s.plan.units late).map (·.late) ∧ (cutOff late s).plan.serves = [] := by
  unfold cutOff
  rw [if_neg (by simp [h])]
  extract_lets s1 us gone
  have hu : s1.plan.units = s.plan.units := by
    obtain ⟨l, hl⟩ := expireWaits_spansAlone ⟨s.time.now.tick, cutoffOff s⟩ s
    unfold s1
    split
    · rw [hl]
    · rfl
  obtain ⟨hcut, hlate⟩ := Prod.mk.inj (itemsAtCutoff_late { s1 with plan := { s1.plan with
      cut := true, units := us, searches := s1.plan.searches.map (fun q => if gone q then { q with dropped := true } else q) } })
  rw [abandonServes_plan]
  refine ⟨hcut, hlate.trans ?_, rfl⟩
  rw [← hu]

/-- Settles O35. -/
theorem ticksCommitOnce : Obligations.TicksCommitOnce := by
  refine ⟨⟨fun s t h0 hk hr hc => ?_, fun s t n h0 hn ht => ?_⟩, fun s t h0 => ⟨fun he => ?_, fun late ht hcut => ?_,
    fun late ht => ?_⟩⟩
  · obtain ⟨v, hv⟩ := commitTick_closes (s.at t) t.tick (wholeTick (s.at t) t.tick)
    refine ⟨_, (run_on h0 t _).trans (congrArg _ ((commit_made (s := s.at t) hk hr hc).trans hv)), rfl, rfl, rfl⟩
  · exact (run_on h0 t _).trans (congrArg _ (commit_not_due (commits_passed (s := s.at t) hn ht)))
  · obtain ⟨hcut, c, hc⟩ := tickStart_count t (s.at t) he
    exact ⟨_, c, run_on h0 t _, hcut, congrArg FaultSt.avail (hc.trans (addAvail_of_fault (State.at_fault s t) c 1))⟩
  · exact ⟨_, (run_on h0 t _).trans (congrArg _ (if_pos ht)), cutOff_closes late (s.at t) hcut⟩
  · exact (run_on h0 t _).trans (congrArg _ (if_neg (Nat.not_le.mpr ht)))

end Sys2Proof.Machine
end

section
/-! SUPPORT. Notices from other modules (R34, R168, R172, R261): they wait for their commit, and what those of
conversations and pages do there. -/

namespace Sys2Proof.Machine

/-! ## Waiting for the commit (R34) -/

/-- The wake flag is the power state's alone (R465). -/
theorem noteLink_haul (s : State) : (noteLink s).haul = s.haul := by
  unfold noteLink
  split <;> rfl

/-- A notice that lands waits with its stamp. -/
theorem runLink_defers {s : State} (h0 : s.pwr.off = false) (t : Stamp) (i : Notice) :
    runLink t (fun s => deferTo s t i) s = .next { noteLink (s.at t) with
      haul := { s.haul with notices := s.haul.notices ++ [(t, i)] } } := by
  refine (run_on h0 t _).trans (congrArg _ ?_)
  show deferTo (noteLink (s.at t)) t i = _
  rw [deferTo, noteLink_haul, State.at_haul]

/-! ## The state of a conversation here (R261) -/

/-- A holder's table takes the state its home tells (R261). -/
theorem applyState_conv {s : State} {k : Nat} {c : Conv} (st : ConvState) (hc : conv s k = some c) (hk : c.key = k)
    (hh : c.home = false) : conv (applyState s k st) k = some { c with state := st } := by
  unfold applyState
  rw [hc]
  dsimp only
  rw [if_neg (by simp [hh]), conv, (promoteToFloor_frame1 _ _ _).work, putConv_work, hk]
  exact tget_tput_self ..

/-- The home keeps its own state. -/
theorem applyState_home {s : State} {k : Nat} {c : Conv} (st : ConvState) (hc : conv s k = some c) (hh : c.home = true) :
    applyState s k st = s := by
  unfold applyState
  rw [hc]
  exact if_pos hh

/-! ## References (R168) -/

/-- A table whose values are changed each by its own. -/
theorem tget_map {α β : Type} (f : α → β) (l : Table α) (k : Nat) :
    tget (l.map (fun x => (x.1, f x.2))) k = (tget l k).map f := by
  induction l with
  | nil => rfl
  | cons a l ih =>
    obtain ⟨j, x⟩ := a
    simp only [List.map_cons, tget, ih]
    split <;> rfl

/-- An entry as a change of its page's count leaves it. -/
def countEntry (e : Entry) (f : Nat → Nat) (x : Entry) : Entry :=
  if isOwn x && sameDatum x e then { x with refs := f x.refs } else x

/-- A conversation's table after the count of a page changed. -/
theorem conv_addRefs (s : State) (e : Entry) (f : Nat → Nat) (k : Nat) :
    conv (addRefs s e f) k = (conv s k).map (fun c => { c with entries := c.entries.map (countEntry e f) }) := by
  have h := tget_map (fun c : Conv => { c with entries := c.entries.map (countEntry e f) }) s.work.convs k
  exact h

/-- A count names no page anew. -/
theorem countEntry_names (e x : Entry) (f : Nat → Nat) (p : PageRef) :
    (entryIs (countEntry e f x) p && (countEntry e f x).state != .replica) = (entryIs x p && x.state != .replica) := by
  unfold countEntry
  split <;> rfl

/-- A page is found with its count changed. -/
theorem findPage_addRefs (s : State) (e : Entry) (f : Nat → Nat) (p : PageRef) :
    findPage (addRefs s e f) p = (findPage s p).map (countEntry e f) := by
  unfold findPage
  rw [conv_addRefs]
  cases conv s p.conv with
  | none => rfl
  | some c =>
    simp only [Option.map_some, List.find?_map]
    congr 2
    funext x
    exact countEntry_names e x f p

/-- The entry a page is found by, with its own count changed. -/
theorem countEntry_self {e : Entry} (f : Nat → Nat) (h : isOwn e = true) : countEntry e f e = { e with refs := f e.refs } :=
  if_pos (by simp [h, sameDatum])

/-- A page is where its conversation's table is: another table has no say in it. -/
theorem findPage_putConv_other {s : State} {c : Conv} {p : PageRef} (h : c.key ≠ p.conv) :
    findPage (putConv s c) p = findPage s p := by
  simp only [findPage, conv, putConv_work, tget_tput_other _ _ h]

/-- A page found stands in its conversation's table. -/
theorem findPage_some {s : State} {p : PageRef} {e : Entry} (h : findPage s p = some e) :
    ∃ c, conv s p.conv = some c ∧ c.entries.any (fun x => entryIs x p && x.state != .replica) = true := by
  unfold findPage at h
  cases hc : conv s p.conv with
  | none => simp [hc] at h
  | some c =>
    have hf : c.entries.find? (fun x => entryIs x p && x.state != .replica) = some e := by rwa [hc] at h
    refine ⟨c, rfl, List.any_eq_true.mpr ⟨e, List.mem_of_find?_eq_some hf, ?_⟩⟩
    simpa using List.find?_some hf

/-- A reference more on a page of this module: its count goes up, as far as it goes (R168). -/
theorem findPage_refUp {s : State} {p : PageRef} {seq : Nat} {e : Entry} (he : findPage s p = some e) (ho : isOwn e = true)
    (hkeys : ∀ j x, conv s j = some x → x.key = j) :
    findPage (refUp s p seq) p = some { e with refs := min 16777215 (e.refs + 1) } := by
  obtain ⟨c, hc, -⟩ := findPage_some he
  have h1 : findPage (addRefs s e fun n => min 16777215 (n + 1)) p = some { e with refs := min 16777215 (e.refs + 1) } := by
    rw [findPage_addRefs, he, Option.map_some, countEntry_self _ ho]
  unfold refUp
  rw [he, hc]
  dsimp only
  rw [if_neg (by simp [ho])]
  split
  · exact h1
  · rename_i hnew
    have hmine : ∀ x, conv (addRefs s e fun n => min 16777215 (n + 1)) seq = some x → x.key = seq := by
      intro x hx
      rw [conv_addRefs] at hx
      obtain ⟨y, hy, rfl⟩ := Option.map_eq_some_iff.mp hx
      exact hkeys seq y hy
    rw [findPage_putConv_other ?_, h1]
    rintro (hk : Conv.key (Option.getD _ _) = p.conv)
    cases hx : conv (addRefs s e fun n => min 16777215 (n + 1)) seq with
    | none =>
      obtain ⟨x, hp, -⟩ := findPage_some h1
      rw [hx] at hk
      subst hk
      cases hx.symm.trans hp
    | some x =>
      obtain ⟨y, hp, hy⟩ := findPage_some h1
      rw [hx] at hk hnew
      rw [← hk, Option.getD_some, hmine x hx, hx] at hp
      cases hp
      exact hnew hy

/-! ## Replicas (R172) -/

/-- A replica dropped at its holder is off the table, and nothing else is (R172). -/
theorem mem_applyReplicaDrop {s : State} {c : Conv} {p : PageRef} (hc : conv s p.conv = some c) (h : ModuleId) (e : Entry) :
    (conv (applyReplicaDrop s p h) p.conv).map (fun c => e ∈ c.entries) =
      some (e ∈ c.entries ∧ ¬(e.state = .replica ∧ entryIs e p = true ∧ e.holder = h)) := by
  have hf : conv (applyReplicaDrop s p h) p.conv = some (touchConv s { c with
      entries := c.entries.filter (fun e => !(e.state == .replica && entryIs e p && e.holder == h)) }) := by
    simp only [conv] at hc
    simp [applyReplicaDrop, conv, tget_tmod, hc]
  rw [hf, Option.map_some]
  refine congrArg some (propext ?_)
  simp only [touchConv, List.mem_filter, Bool.not_eq_true', Bool.and_eq_false_iff, beq_eq_false_iff_ne]
  cases entryIs e p <;> tauto

/-- Settles O41. -/
theorem noticesWaitAndAct : Obligations.NoticesWaitAndAct := by
  refine ⟨?waits, ?acts⟩
  case waits =>
    rintro s t x h0 (⟨k, g, rfl⟩ | ⟨k, st, rfl⟩ | ⟨p, q, up, rfl⟩ | ⟨p, h, i, rfl⟩ | ⟨p, rfl⟩ | ⟨p, h, rfl⟩)
    all_goals exact runLink_defers h0 t _
  case acts =>
    intro s n k c hc hk
    refine ⟨fun st hh => ?_, fun st hh => applyState_home st hc hh, ?_, ?_⟩
    · exact congrArg (Option.map (·.state)) (applyState_conv st hc hk hh)
    · rintro p q e rfl he ho hkeys
      exact congrArg (Option.map (·.refs)) (findPage_refUp he ho hkeys)
    · rintro p h rfl e
      exact mem_applyReplicaDrop hc h e

end Sys2Proof.Machine
end

section
/-! SUPPORT. The life of a model: how a load, a release and a drain end (R69, R72, R73). -/

namespace Sys2Proof.Machine

/-- An event the commit its stamp names acts on waits with that stamp (R34). -/
theorem run_defers {s : State} (h0 : s.pwr.off = false) (t : Stamp) (i : Notice) :
    run t (fun s => deferTo s t i) s = .next { s.at t with
      haul := { s.haul with notices := s.haul.notices ++ [(t, i)] } } :=
  run_on h0 t (deferTo · t i)

/-! ## Loads (R72) -/

/-- The end of a meter's record leaves the benches alone. -/
theorem bench_closeMeter (s : State) (a k b : Nat) : bench (closeMeter s a k) b = bench s b := rfl

/-- A record due leaves the benches alone. -/
theorem bench_due (s : State) (c : Cpl) (st : Status) (result n b : Nat) :
    bench (due s c st result n) b = bench s b := rfl

theorem bench_setBench_self (s : State) (b : Nat) (f : Bench → Bench) : bench (setBench s b f) b = f (bench s b) :=
  tgetD_tput_self ..

/-- A sound package makes its bench READY. -/
theorem bench_loadComplete_ok {s : State} {b : Nat} {l : Load} {p : Package} (n : Nat)
    (hs : (bench s b).state = .loading) (hl : (bench s b).load = some l) (hf : loadFailure s b l p = none) :
    bench (loadComplete s b p n) b =
      { bench s b with state := .ready, load := none, pkg := some p, modelTag := l.modelTag } := by
  simp only [loadComplete, hs, hl, hf]
  rw [bench_closeMeter, bench_due, bench_setBench_self]

/-- The record of a failed load leaves the benches alone. -/
theorem bench_tileRejects (s : State) (a : Nat) (p : Package) (b : Nat) : bench (tileRejects s a p) b = bench s b :=
  congrArg (tgetD · b)
    (tileRejects_frame (pm := [.bar, .fault, .out]) (.refl s) (by decide) (by decide) (by decide)).benches

/-- A package that fails a check leaves its bench EMPTY. -/
theorem bench_loadComplete_failed {s : State} {b : Nat} {l : Load} {p : Package} {x : Status × Nat} (n : Nat)
    (hs : (bench s b).state = .loading) (hl : (bench s b).load = some l) (hf : loadFailure s b l p = some x) :
    bench (loadComplete s b p n) b = { bench s b with state := .empty, load := none } := by
  obtain ⟨st, cause⟩ := x
  simp only [loadComplete, hs, hl, hf]
  rw [bench_closeMeter, bench_due]
  have hlog (v : State) (cl : ErrClass) (k d : Nat) : bench (logErr v cl k (b := b) (d0 := d)) b = bench v b :=
    congrArg (tgetD · b) (logErr_benches ..)
  split <;> rw [hlog, bench_setBench_self] <;> split <;> simp only [bench_tileRejects]

/-! ## Releases (R69) -/

/-- A release empties its bench for the load that waits, if one does. -/
theorem bench_releaseDone {s : State} {b : Nat} (n : Nat) (hs : (bench s b).state = .unloading) :
    (bench (releaseDone s b n) b).pkg = none ∧ (bench (releaseDone s b n) b).load = (bench s b).replacing ∧
      ((bench (releaseDone s b n) b).state = .empty ↔ (bench s b).replacing = none) := by
  have hdue : bench ((bench s b).unloads.foldl (fun u c => due u c .ok (bench s b).modelTag n) s) b =
      bench s b := by
    refine foldl_keeps (bench · b) (fun u c => ?_) _ _
    exact bench_due ..
  rw [releaseDone, if_pos hs]
  simp only [becomeEmpty, bench_closeMeter, bench_setBench_self, hdue]
  cases (bench s b).replacing <;> simp

/-! ## Drains (R73) -/

/-- A request parked in place is SUSPENDED; the other requests stand. -/
theorem parkInPlace_reqs {s : State} {k : Nat} {r : Req} {c : Conv} (hr : req s k = some r)
    (hc : conv s r.conv = some c) (hk : c.req = some k) :
    (parkInPlace s r.conv).work.reqs = tput s.work.reqs r.key { r with state := .suspended, left := r.state } := by
  simp only [parkInPlace, hc, hk, suspendReq, hr, setConvState_reqs]
  rfl

/-- Parking in place leaves nothing waiting that did not wait. -/
theorem parkInPlace_quiet {s : State} (k : Nat) (h : quiet s) : quiet (parkInPlace s k) := by
  unfold parkInPlace
  split
  · exact h
  · split
    · rename_i j _
      unfold suspendReq
      split
      · exact h
      · rename_i r hr
        refine setConvState_quiet _ _ (quiet_of h rfl rfl rfl rfl rfl fun x hx => ?_)
        obtain rfl | hx := mem_tput hx
        · obtain ⟨-, -, -, -, -, hw⟩ := h
          exact .inr (hw (j, r) (mem_of_tget hr))
        · exact .inl hx
    · exact setConvState_quiet _ _ h

/-- Parking in place writes no stream record. -/
theorem parkInPlace_addsPlain (s : State) (k : Nat) : addsPlain s (parkInPlace s k) := by
  unfold parkInPlace
  split
  · exact .refl s
  · split
    · unfold suspendReq
      split
      · exact .refl s
      · exact (addsPlain.of_eq rfl).trans (setConvState_addsPlain _ _ _)
    · exact setConvState_addsPlain _ _ _

/-- The one bench with a record drains in FINISH, its limit has come by commit n, and the one request is live on it, at
work, and not on its way elsewhere. -/
structure LoneDrain (s : State) (b k n : Nat) (x : Bench) (d : Drain) (r : Req) (c : Conv) : Prop where
  benches : s.benches = [(b, x)]
  draining : x.state = .draining
  drain : x.drain = some d
  finish : d.mode = 0
  limit : d.limit ≤ n
  reqs : s.work.reqs = [(k, r)]
  key : r.key = k
  onBench : r.bench = b
  live : reqLive r.state = true
  stays : r.state ≠ .hauling
  conv : conv s r.conv = some c
  atWork : c.req = some k

/-- A FINISH drain past its limit, with one live request: that request is parked in place and the bench unloads. -/
theorem drainStep_parks {s : State} {b k n : Nat} {x : Bench} {d : Drain} {r : Req} {c : Conv}
    (h : LoneDrain s b k n x d r c) :
    drainStep s n = setBench (parkInPlace s r.conv) b (fun x => { x with state := .unloading }) := by
  obtain ⟨hb, hs, hd, hm, hn, hr, hk, hrb, hlive, hh, hc, hck⟩ := h
  have hx : bench s b = x := by simp [bench, hb, tgetD, tget]
  have hreq : req s k = some r := by simp [req, hr, tget]
  have hpark : parkAll s b = parkInPlace s r.conv := by simp [parkAll, liveOn, hr, hrb, hlive, hreq, hh]
  have hnone : liveOn (parkInPlace s r.conv) b = [] := by
    simp [liveOn, parkInPlace_reqs hreq hc hck, hr, hk, tput, reqLive]
  rw [drainStep, hb, List.foldl_cons, List.foldl_nil]
  simp only [hx, hs, hd, hm, Nat.not_lt.mpr hn, hpark]
  simp [hnone]

/-- Settles O16. The end of a load and of a release is one notice each, and the bench after it is read off
`loadComplete` and `releaseDone`; the drain parks the one live request, which leaves the bench without any, and nothing
else is due at that commit. -/
theorem loadsReleasesAndDrainsEnd : Obligations.LoadsReleasesAndDrainsEnd := by
  refine ⟨fun s t b n p h0 => ⟨run_defers h0 t _, run_defers h0 t _,
    fun l hs hl => ⟨fun hf => ?_, fun x hf => ?_⟩, fun hs => bench_releaseDone n hs⟩, ?_⟩
  · rw [bench_loadComplete_ok n hs hl hf]
    exact ⟨rfl, rfl, rfl⟩
  · rw [bench_loadComplete_failed n hs hl hf]
    exact ⟨rfl, rfl⟩
  · intro s t b k x d r c h0 hq hb hs hd hm hn hr hk hrb hlive hh hc hck
    have hx : bench (s.at t) b = x := by simp [bench, hb, tgetD, tget]
    have hdrain := drainStep_parks (s := s.at t) ⟨hb, hs, hd, hm, hn, hr, hk, hrb, hlive, hh, hc, hck⟩
    obtain ⟨h1, h2, h3, h4, h5, h6⟩ := parkInPlace_quiet (s := s.at t) r.conv hq
    have hplain := parkInPlace_addsPlain (s.at t) r.conv
    change execDrainLimitExpiry t b s = _
    rw [execDrainLimitExpiry, run_on h0]
    refine congrArg Host.Outcome.next ?_
    simp only [hx, hs, hd]
    rw [if_pos ⟨hm, hn⟩]
    generalize parkInPlace (s.at t) r.conv = v at hdrain h1 h2 h3 h4 h5 h6 hplain ⊢
    refine (settle_quiet (v := setBench v b _) ?_ h1 h2 h3 h4 h6 (hplain.keep rfl).noStream).trans (flushDue_none h5)
    exact hdrain

end Sys2Proof.Machine
end

section
/-! SUPPORT. The work on shards that ends at a commit, and the segments a replica takes (R284, R288, R299). -/

namespace Sys2Proof.Machine

/-! ## Shards that become ready (R288) -/

/-- A shard whose descriptor waits serves from this commit, and the descriptor completes. -/
theorem shardReady_due {s : State} {i : Nat} {x : Shard} {c : Cpl} (n : Nat) (hx : shard s i = some x)
    (hc : x.pendingCpl = some c) :
    shardReady s i n x.archived =
      due (putShard s i { x with serving := true, archived := false, pendingCpl := none }) c .ok 0 n := by
  simp [shardReady, hx, hc]

/-- The one replica that waits is listed from this commit, and its descriptor completes. -/
theorem replicateReady_due {s : State} {i b : Nat} {m : ModuleId} {x : Shard} {c : Cpl} (n : Nat)
    (hx : shard s i = some x) (hp : x.pendRepl = [(m, b, c)]) :
    replicateReady s i m n =
      due (putShard s i { x with pendRepl := [], replicas := x.replicas ++ [(m, b)] }) c .ok 0 n := by
  simp [replicateReady, hx, hp]

/-! ## Segments (R284, R299) -/

theorem shard_putShard_self (s : State) (i : Nat) (x : Shard) : shard (putShard s i x) i = some x :=
  tget_tput_self ..

/-- The wake flag is the power state's alone (R465). -/
theorem noteLink_shard (s : State) (i : Nat) : shard (noteLink s) i = shard s i := by
  unfold noteLink
  split <;> rfl

theorem noteLink_bar (s : State) : (noteLink s).bar = s.bar := by
  unfold noteLink
  split <;> rfl

/-- The segment's number among those of its kind. -/
def segName (g : VecSeg) : Nat × Nat := (fieldOf g.hdr 15 0, fieldOf g.hdr 159 128)

/-- A segment that fails its crc is counted, and logged, and its replica answers no more until it comes sound; one that
fails again stops it for good (R299). -/
theorem takeSegment_bad {s : State} {g : VecSeg} {x : Shard} (hx : shard s (fieldOf g.hdr 127 96) = some x)
    (hr : x.replica = true) (hg : segCrcOk x.hdr g = false) :
    takeSegment g s =
      putShard (logErr (count s (bn x.bench 0x420) 1) .block 1 (b := x.bench) (d0 := fieldOf g.hdr 127 96))
        (fieldOf g.hdr 127 96)
        (if x.badSegs.contains (segName g) then { x with failed := true }
         else { x with badSegs := x.badSegs ++ [segName g] }) := by
  simp [takeSegment, hx, hr, hg, segName]

/-- A sound first graph segment is the graph. -/
theorem takeSegment_graph {s : State} {g : VecSeg} {x : Shard} (hx : shard s (fieldOf g.hdr 127 96) = some x)
    (hr : x.replica = true) (hg : segCrcOk x.hdr g = true) (hm : fieldOf g.hdr 15 0 = 0x5347)
    (h0 : fieldOf g.hdr 159 128 = 0) :
    (shard (takeSegment g s) (fieldOf g.hdr 127 96)).map (fun y => (y.graph, y.gversion, y.failed)) =
      some (g.recs, fieldOf g.hdr 191 160, x.failed) := by
  simp [takeSegment, hx, hr, hg, hm, h0, shard_putShard_self]

/-- Superseding an ID's live copy leaves the spoil list as it is. -/
theorem supersede_spoil (x : Shard) (id : Nat) : (supersede x id).1.spoil = x.spoil := by
  unfold supersede
  split
  · rfl
  · split <;> rfl

/-- The records of a spoil segment join the spoil list, each once. -/
theorem spoil_length_foldl (l : List VecRec) (x : Shard) :
    (l.foldl (fun y r => appendSpoil (supersede y r.id).1 r) x).spoil.length = x.spoil.length + l.length := by
  induction l generalizing x with
  | nil => rfl
  | cons r l ih =>
    have h1 : (appendSpoil (supersede x r.id).1 r).spoil.length = x.spoil.length + 1 := by
      simp [appendSpoil, supersede_spoil]
    rw [List.foldl_cons, ih, h1, List.length_cons]
    omega

/-- A sound spoil segment brings the replica to its commit. -/
theorem takeSegment_spoil {s : State} {g : VecSeg} {x : Shard} (hx : shard s (fieldOf g.hdr 127 96) = some x)
    (hr : x.replica = true) (hg : segCrcOk x.hdr g = true) (hm : fieldOf g.hdr 15 0 = 0x534C) :
    (shard (takeSegment g s) (fieldOf g.hdr 127 96)).map (fun y => (y.lastSeq, y.lastVer, y.spoil.length)) =
      some (fieldOf g.hdr 159 128, fieldOf g.hdr 191 160, x.spoil.length + g.recs.length) := by
  simp [takeSegment, hx, hr, hg, hm, shard_putShard_self, spoil_length_foldl]

/-- Settles O23. The ends of shard work are one notice each, which `shardReady` and `replicateReady` take at the commit;
a segment is taken as it lands, by its crc and its kind. -/
theorem shardWorkEndsAtItsCommit : Obligations.ShardWorkEndsAtItsCommit := by
  constructor
  · intro s t i n m h0
    exact ⟨run_defers h0 t _, run_defers h0 t _, run_defers h0 t _, fun x c => shardReady_due n,
      fun x b c => replicateReady_due n⟩
  · rintro s t g x i h0 rfl hx hr
    have hx' : shard (noteLink (s.at t)) (fieldOf g.hdr 127 96) = some x := (noteLink_shard _ _).trans hx
    have hrun : exec (.vecSegmentReceive t g) s = .next (takeSegment g (noteLink (s.at t))) :=
      run_on h0 t fun s => takeSegment g (noteLink s)
    refine ⟨fun hg hm hz => ⟨_, hrun, takeSegment_graph hx' hr hg hm hz⟩,
      fun hg hm => ⟨_, hrun, takeSegment_spoil hx' hr hg hm⟩, fun hg => ⟨_, hrun, ?_, ?_⟩⟩
    · rw [takeSegment_bad hx' hr hg, shard_putShard_self]
      rfl
    · rw [takeSegment_bad hx' hr hg]
      simp [putShard, count, noteLink_bar]

end Sys2Proof.Machine
end

section
/-! SUPPORT. Windows and queue pairs: what their descriptors leave of them (R335 to R343). -/

namespace Sys2Proof.Machine

/-! ## Descriptors that act as they land (R33, R374) -/

/-- A descriptor of its own ring's function, landing in RUN, acts there. -/
theorem landRow_acts {s : State} {d : HostDesc} {o : Nat} (f : Cpl → HostDesc → State → State) (h0 : s.pwr.off = false)
    (hk : inKeep s = false) (hh : s.time.halted = false) (hr : fieldOf d.raw 19 16 = d.ring / 16) (ho : dOp d = o) :
    landRow o f d s = .next (f (cplOf s d) d (atLanding s d)) := by
  rw [landRow, run_on h0]
  refine congrArg Host.Outcome.next ?_
  have hk' : (inKeep (takeLanded d (s.at d.stamp)) || (takeLanded d (s.at d.stamp)).time.halted) = false :=
    (congrArg₂ or hk hh :)
  rw [applyLanding, if_neg (by rw [hk']; decide), if_neg (by simp [hr, ho])]
  rfl

/-- A completion record leaves these parts of the state alone. -/
theorem doneNow_frame1 (s : State) (c : Cpl) (st : Status) (result : Nat) :
    Frame [.host, .fault, .out, .spent] s (doneNow s c st result) :=
  doneNow_frame (.refl s) (by decide) (by decide) (by decide) (by decide)

@[simp] theorem doneNow_win (s : State) (c : Cpl) (st : Status) (result : Nat) : (doneNow s c st result).win = s.win :=
  (doneNow_frame1 ..).win

@[simp] theorem doneNow_fab (s : State) (c : Cpl) (st : Status) (result : Nat) : (doneNow s c st result).fab = s.fab :=
  (doneNow_frame1 ..).fab

@[simp] theorem qpOf_doneNow (s : State) (c : Cpl) (st : Status) (result q : Nat) :
    qpOf (doneNow s c st result) q = qpOf s q := by
  simp only [qpOf, doneNow_win]

/-! ## Windows (R335 to R338) -/

/-- The window a descriptor within R335 to R337 opens, of a generation. -/
def openedWindow (d : HostDesc) (b gen : Nat) : Window :=
  { bench := b, kind := fieldOf d.raw 13 12, base := fieldOf d.raw 511 448, length := fieldOf d.raw 447 384
    perms := fieldOf d.raw 10 8, bind := if bitOf d.raw 11 then none else some (fieldOf d.raw 367 348), gen := gen }

/-- A window opens at the index it has: the one named, or the first free one. -/
theorem winOpen_opens {s : State} {c : Cpl} {d : HostDesc} {i : Nat} (ho : winOpenOk s c.bench d.raw = true)
    (hn : fieldOf d.raw 335 320 = 0xFFFF ∨ tget s.win.wins (fieldOf d.raw 335 320) = none)
    (hi : i = if fieldOf d.raw 335 320 = 0xFFFF then freeKey s.win.wins 65536 0 else fieldOf d.raw 335 320)
    (hlt : i < 65536) :
    winOpen c d s = doneNow { s with win := { s.win with
      wins := tput s.win.wins i (openedWindow d c.bench (genOf s i)) } } c .ok (i + 2 ^ 16 * genOf s i) := by
  have hfree : (fieldOf d.raw 335 320 != 0xFFFF && (tget s.win.wins (fieldOf d.raw 335 320)).isSome) = false := by
    rcases hn with hn | hn <;> simp [hn]
  simp only [winOpen]
  rw [if_neg (by simp [ho, hfree]), ← hi, if_neg (by omega)]
  rfl

/-- A closed window is gone and its index's generation moves on; the others stand. -/
theorem closeWindow_wins (s : State) (i j : Nat) :
    tget (closeWindow s i).win.wins j = if i = j then none else tget s.win.wins j :=
  tget_tdel ..

theorem genOf_closeWindow (s : State) (i j : Nat) :
    genOf (closeWindow s i) j = if i = j then nextGen (genOf s i) else genOf s j := by
  simp only [genOf, closeWindow, tget_tput]
  split <;> rfl

/-- A revoke closes its window, whether or not requests stamped before it still reach it. -/
theorem revokeWindow_win (s : State) (i : Nat) (w : Window) (c : Cpl) :
    (revokeWindow s i w c).win.wins = (closeWindow s i).win.wins ∧
      (revokeWindow s i w c).win.gens = (closeWindow s i).win.gens := by
  unfold revokeWindow
  dsimp only
  split
  · exact ⟨rfl, rfl⟩
  · rw [doneNow_win]
    exact ⟨rfl, rfl⟩

theorem genOf_revokeWindow (s : State) (i : Nat) (w : Window) (c : Cpl) (j : Nat) :
    genOf (revokeWindow s i w c) j = genOf (closeWindow s i) j := by
  rw [genOf, (revokeWindow_win s i w c).2, genOf]

/-- A request that has landed and reaches the window still lets the revoke's record wait. -/
theorem revokeWindow_waits {s : State} {i : Nat} {w : Window} (c : Cpl) {x : Stamp × WPacket} (hx : x ∈ unhandled s)
    (hi : fieldOf x.2.wh 191 176 = i) (hg : fieldOf x.2.wh 207 192 = w.gen) (ht : stampLt x.1 s.time.now = true) :
    (revokeWindow s i w c).out = s.out ∧
      ∃ k ∈ (revokeWindow s i w c).win.closing, k.index = i ∧ k.window = w ∧ k.cpl = c := by
  unfold revokeWindow
  dsimp only
  rw [if_pos (List.any_eq_true.mpr ⟨x, hx, by simp [reaches, hi, hg, ht]⟩)]
  exact ⟨rfl, _, List.mem_append_right _ (List.mem_singleton_self _), rfl, rfl, rfl⟩

/-- A revoke by the window's bench under its generation is taken. -/
theorem winRevoke_revokes {s : State} {c : Cpl} {d : HostDesc} {w : Window} (z1 : zeroAt d.raw 511 384 = true)
    (z2 : zeroAt d.raw 347 336 = true) (z3 : zeroAt d.raw 319 64 = true) (z4 : zeroAt d.raw 31 20 = true)
    (z5 : zeroAt d.raw 15 14 = true) (z6 : zeroAt d.raw 11 11 = true)
    (hw : tget s.win.wins (fieldOf d.raw 335 320) = some w) (hb : w.bench = c.bench)
    (hg : w.gen = fieldOf d.raw 383 368) :
    winRevoke c d s = revokeWindow s (fieldOf d.raw 335 320) w c := by
  simp [winRevoke, z1, z2, z3, z4, z5, z6, hw, hb, hg]

/-! ## Queue pairs (R340 to R343) -/

theorem qpOf_setQp (s : State) (q : Nat) (f : Qp → Qp) (p : Nat) :
    qpOf (setQp s q f) p = if q = p then f (qpOf s q) else qpOf s p := by
  simp only [qpOf, setQp, tgetD, tget_tput]
  split <;> rfl

/-- The cache of contexts is no part of a queue pair. -/
@[simp] theorem qpOf_setCache (s : State) (q : Nat) (l : List Nat) (p : Nat) : qpOf (setCache s q l) p = qpOf s p := by
  simp only [qpOf, setCache]
  split <;> rfl

@[simp] theorem qpOf_writeBack (s : State) (q p : Nat) : qpOf (writeBack s q) p = qpOf s p :=
  congrArg (fun w : WinSt => tgetD w.qps p) (writeBack_frame (pm := [.out]) (.refl s) (by decide)).win

@[simp] theorem qpOf_touch (s : State) (q p : Nat) : qpOf (touch s q) p = qpOf s p := by
  unfold touch
  dsimp only
  split
  · exact qpOf_setCache ..
  · split
    · rw [qpOf_writeBack, qpOf_setCache]
    · exact qpOf_setCache ..

/-- A freed queue pair keeps its incarnation alone (R342). -/
theorem qpOf_freeQp (s : State) (q : Nat) : qpOf (freeQp s q) q = { localInc := (qpOf s q).localInc } := by
  unfold freeQp
  dsimp only
  split <;> simp [qpOf_setQp]

theorem freeQp_fab (s : State) (q : Nat) : (freeQp s q).fab = s.fab :=
  (freeQp_frame (pm := [.host, .win, .fault, .out, .spent]) (.refl s) (by decide) (by decide) (by decide) (by decide)
    (by decide)).fab

/-- The queue pair has operations. -/
def opsOn (s : State) (q : Nat) : Bool := s.fab.ops.any (fun o => o.2.target == 0 && o.2.qpn == q)

/-- A completion record leaves the windows and the operations alone. -/
theorem complete_win (s : State) (c : Cpl) (st : Status) (result n : Nat) : (complete s c st result n).win = s.win :=
  (complete_frame (pm := [.host, .fault, .out, .spent]) (.refl s) (by decide) (by decide) (by decide) (by decide)).win

theorem complete_fab (s : State) (c : Cpl) (st : Status) (result n : Nat) : (complete s c st result n).fab = s.fab :=
  (complete_frame (pm := [.host, .fault, .out, .spent]) (.refl s) (by decide) (by decide) (by decide) (by decide)).fab

/-- Ended operations are off the list; the queue pairs stand. -/
theorem endOps_keeps (s : State) (q : Nat) (st : Status) : (endOps s q st).win = s.win ∧
    (endOps s q st).fab.ops = s.fab.ops.filter (fun o => !(o.2.target == 0 && o.2.qpn == q)) := by
  unfold endOps
  dsimp only
  constructor
  · refine foldl_keeps (·.win) (fun u o => ?_) _ _
    exact complete_win ..
  · refine foldl_keeps (·.fab.ops) (fun u o => ?_) _ _
    rw [complete_fab]

/-- The contexts say nothing of the operations. -/
theorem opsOn_setQp (s : State) (p : Nat) (f : Qp → Qp) (q : Nat) : opsOn (setQp s p f) q = opsOn s q := rfl

theorem opsOn_endOps (s : State) (q : Nat) (st : Status) : opsOn (endOps s q st) q = false := by
  rw [opsOn, (endOps_keeps s q st).2, List.any_filter]
  simp only [List.any_eq_false, Bool.and_eq_true, Bool.not_eq_true']
  rintro o - ⟨h1, ht, hq⟩
  rw [ht, hq] at h1
  cases h1

/-- What every queue-pair descriptor needs of its bits and its queue pair (R340). -/
structure QpFieldsOk (s : State) (r : BitVec 512) : Prop where
  qpn : fieldOf r 191 172 < qpCount s
  zero511 : zeroAt r 511 320 = true
  zero303 : zeroAt r 303 288 = true
  zero135 : zeroAt r 135 64 = true
  zero31 : zeroAt r 31 20 = true

/-- A queue pair is made READY with its peer and its first credit limit. -/
theorem qpOf_qpCreate {s : State} {c : Cpl} {d : HostDesc} {q : Nat} (hq : q = fieldOf d.raw 191 172)
    (hf : QpFieldsOk s d.raw) (hz : zeroAt d.raw 15 8 = true) (h1 : 16 ≤ fieldOf d.raw 319 304)
    (h2 : fieldOf d.raw 319 304 ≤ 4096) (hs : (qpOf s q).state = .free) (hi : fieldOf d.raw 207 192 ≠ 0)
    (hj : fieldOf d.raw 207 192 ≠ (qpOf s q).localInc) (hp : BitVec.ofNat 16 (fieldOf d.raw 151 136) ≠ s.fab.self)
    (hr : (routeOf s.fab.maps (BitVec.ofNat 16 (fieldOf d.raw 151 136))).isSome = true) :
    (∀ p, p ≠ q → qpOf (qpCreate c d s) p = qpOf s p) ∧
      ∃ x : Qp, qpOf (qpCreate c d s) q = x ∧ x.state = .ready ∧ x.bench = c.bench ∧
        x.peer = BitVec.ofNat 16 (fieldOf d.raw 151 136) ∧ x.localInc = fieldOf d.raw 207 192 ∧
        x.rxLimit = 16 * fieldOf d.raw 319 304 := by
  obtain ⟨hlt, z1, z2, z3, z4⟩ := hf
  subst hq
  have hroute : (routeOf s.fab.maps (BitVec.ofNat 16 (fieldOf d.raw 151 136))).isNone = false := by
    rw [← Option.not_isSome, hr]
    rfl
  simp only [qpCreate]
  rw [if_neg (by omega), if_neg (by simp [z1, z2, z3, z4, hz, hs, hi, hj, hp, hroute]; omega)]
  refine ⟨fun p hne => ?_, _, rfl, ?_⟩
  · rw [qpOf_doneNow, qpOf_touch, qpOf_setQp, if_neg (Ne.symm hne)]
  · rw [qpOf_doneNow, qpOf_touch, qpOf_setQp, if_pos rfl]
    exact ⟨rfl, rfl, rfl, rfl, rfl⟩

/-- A READY queue pair of the bench is destroyed at once on an abort, and drains without one. -/
theorem qpDestroy_ready {s : State} {c : Cpl} {d : HostDesc} {q : Nat} (hq : q = fieldOf d.raw 191 172)
    (hf : QpFieldsOk s d.raw) (hz : zeroAt d.raw 15 9 = true) (hs : (qpOf s q).state = .ready)
    (hb : (qpOf s q).bench = c.bench) :
    qpDestroy c d s =
      if bitOf d.raw 8 then doneNow (freeQp (endOps s q .cancelled) q) c .ok q
      else settleQp (setQp s q (fun x => { x with state := .draining, destroy := some c })) q := by
  obtain ⟨hlt, z1, z2, z3, z4⟩ := hf
  subst hq
  simp only [qpDestroy, hs]
  rw [if_neg (by omega), if_neg (by simp [z1, z2, z3, z4, hz, hb]; omega)]

/-- A draining queue pair is FREE once none of its operations is left. -/
theorem settleQp_draining {s : State} {q : Nat} (hs : (qpOf s q).state = .draining) :
    settleQp s q = if opsOn s q then s else freeQp s q := by
  simp only [settleQp, hs]
  cases h : opsOn s q <;> simp [show s.fab.ops.any (fun o => o.2.target == 0 && o.2.qpn == q) = _ from h]

/-- Settles O25. Each descriptor acts as it lands; what it leaves of the windows and of the queue pairs is read off the
model's own function for it. -/
theorem windowsAndQueuePairsAreMade : Obligations.WindowsAndQueuePairsAreMade := by
  constructor
  · rintro s d i h0 hk hh hr rfl
    refine ⟨fun ho hok hne hnone w hw => ?_, fun ho hok hne hlt => ?_, fun w ho z1 z2 z3 z4 z5 z6 hw hb hg => ?_⟩
    · subst hw
      have hlt : fieldOf d.raw 335 320 < 65536 :=
        Nat.mod_lt _ (by decide)
      refine (landRow_acts winOpen h0 hk hh hr ho).trans (congrArg Host.Outcome.next ?_)
      exact winOpen_opens (s := atLanding s d) hok (.inr hnone) (if_neg hne).symm hlt
    · refine ⟨_, openedWindow d (dBench d) (genOf s (freeKey s.win.wins 65536 0)),
        landRow_acts winOpen h0 hk hh hr ho, ?_⟩
      rw [winOpen_opens (s := atLanding s d) (c := cplOf s d) hok (.inl hne) (if_pos hne).symm hlt]
      rw [doneNow_win]
      exact ⟨tget_tput_self .., rfl, rfl⟩
    · refine ⟨_, landRow_acts winRevoke h0 hk hh hr ho, ?_⟩
      rw [winRevoke_revokes (s := atLanding s d) z1 z2 z3 z4 z5 z6 hw hb hg]
      simp only [genOf_revokeWindow, (revokeWindow_win _ _ _ _).1, closeWindow_wins, genOf_closeWindow, if_true]
      refine ⟨trivial, rfl, fun j hj => ?_, fun x hx hi hg' ht =>
        revokeWindow_waits (s := atLanding s d) _ hx hi hg' ht⟩
      rw [if_neg hj.symm, if_neg hj.symm]
      exact ⟨rfl, rfl⟩
  · rintro s d q h0 hk hh hr hq hlt z1 z2 z3 z4
    have hf : QpFieldsOk (atLanding s d) d.raw := ⟨hq ▸ hlt, z1, z2, z3, z4⟩
    refine ⟨fun ho hz h1 h2 hs hi hj hp hroute => ?_, fun ho hz hs hb => ?_⟩
    · obtain ⟨hother, x, rfl, hx⟩ := qpOf_qpCreate (s := atLanding s d) (c := cplOf s d) hq hf hz h1 h2 hs hi hj hp
        hroute
      obtain ⟨x1, x2, x3, x4, x5⟩ := hx
      exact ⟨_, landRow_acts qpCreate h0 hk hh hr ho, x1, x2, x3, x4, x5, hother⟩
    · have hrun := landRow_acts qpDestroy h0 hk hh hr ho
      have hdes := qpDestroy_ready (s := atLanding s d) (c := cplOf s d) hq hf hz hs hb
      have hset (f : Qp → Qp) : qpOf (setQp (atLanding s d) q f) q = f (qpOf s q) :=
        (qpOf_setQp ..).trans (if_pos rfl)
      refine ⟨fun hbit (hops : opsOn (atLanding s d) q = false) => ⟨_, hrun, ?_⟩,
        fun hbit (hops : opsOn (atLanding s d) q = true) => ⟨_, hrun, ?_⟩, fun hbit => ⟨_, hrun, ?_⟩⟩
      · rw [hdes, hbit, if_neg (by decide), settleQp_draining (by rw [hset]), opsOn_setQp,
          if_neg (ne_true_of_eq_false hops), qpOf_freeQp, hset]
        exact ⟨rfl, rfl⟩
      · rw [hdes, hbit, if_neg (by decide), settleQp_draining (by rw [hset]), opsOn_setQp, if_pos hops, hset]
        exact ⟨rfl, rfl⟩
      · rw [hdes, if_pos hbit, qpOf_doneNow, qpOf_freeQp]
        refine ⟨rfl, congrArg (fun w : WinSt => (tgetD w.qps q).localInc) (endOps_keeps ..).1, ?_⟩
        rw [doneNow_fab, freeQp_fab]
        exact opsOn_endOps ..

end Sys2Proof.Machine
end

section
/-! SUPPORT. Remote operations: what leaves the module leaves the operations as they are, and how each one joins them
(R345, R346). -/

namespace Sys2Proof.Machine

/-! ## What a packet that leaves does not touch -/

/-- The operations and the number of the next one. -/
def opTable (s : State) : Table Rma × Nat := (s.fab.ops, s.fab.nextOp)

theorem setLink_opTable (s : State) (l : Nat) (f : Link → Link) : opTable (setLink s l f) = opTable s := rfl

theorem send_opTable (s : State) (m : ModuleId) (b : Option Nat) (x : Msg) : opTable (send s m b x) = opTable s := by
  rw [opTable, send_fab, opTable]

theorem transmit_opTable (s : State) (l : Nat) (p : Packet) : opTable (transmit s l p) = opTable s := by
  unfold transmit
  dsimp only
  split <;> rfl

theorem returnCredits_opTable (s : State) : opTable (returnCredits s) = opTable s := by
  unfold returnCredits
  refine (foldl_keeps opTable (fun u x => ?_) _ _).trans rfl
  split
  · rfl
  · split <;> rfl

theorem mergeInto_opTable (s : State) (l : Nat) (q p : Packet) : opTable (mergeInto s l q p) = opTable s := by
  unfold mergeInto
  dsimp only
  split <;> rw [returnCredits_opTable] <;> rfl

theorem joinRead_opTable {s v : State} {l : Nat} {p : Packet} (h : joinRead s l p = some v) :
    opTable v = opTable s := by
  unfold joinRead at h
  split at h <;> cases h
  rfl

theorem place_opTable (s : State) (l : Nat) (p : Packet) : opTable (place s l p) = opTable s := by
  unfold place
  dsimp only
  split
  · exact joinRead_opTable ‹_›
  · split
    · exact transmit_opTable ..
    · split
      · exact mergeInto_opTable ..
      · exact setLink_opTable ..

theorem launchAnswer_opTable (s : State) (p : Packet) : opTable (launchAnswer s p) = opTable s := by
  unfold launchAnswer
  split
  · exact send_opTable ..
  · split
    · exact place_opTable ..
    · rfl

theorem launch_opTable (s : State) (p : Packet) : opTable (launch s p) = opTable s := by
  unfold launch
  split
  · exact send_opTable ..
  · split
    · exact place_opTable ..
    · split
      · exact launchAnswer_opTable ..
      · rfl

/-- A packet that leaves touches no queue pair. -/
theorem launch_qpOf (s : State) (p : Packet) (q : Nat) : qpOf (launch s p) q = qpOf s q :=
  congrArg (fun w : WinSt => tgetD w.qps q)
    (launch_frame (pm := [.bar, .fab, .out, .spent]) (.refl s) (by decide) (by decide) (by decide) (by decide)).win

/-! ## The waiting requests of a queue pair (R348) -/

theorem sendWindow_opTable (s : State) (q : Nat) (p : WPacket) (low : Nat) :
    opTable (sendWindow s q p low) = opTable s :=
  launch_opTable ..

theorem sendWindow_txNext (s : State) (q : Nat) (p : WPacket) (low : Nat) :
    (qpOf (sendWindow s q p low) q).txNext = (qpOf s q).txNext := by
  rw [sendWindow, launch_qpOf, qpOf_setQp, if_pos rfl]

/-- Requests that leave are of operations that stand, and have their psns. -/
theorem pumpQp_keeps (s : State) (q fuel : Nat) :
    opTable (pumpQp s q fuel) = opTable s ∧ (qpOf (pumpQp s q fuel) q).txNext = (qpOf s q).txNext := by
  induction fuel generalizing s with
  | zero => exact ⟨rfl, rfl⟩
  | succ fuel ih =>
    unfold pumpQp
    dsimp only
    split
    · exact ⟨rfl, rfl⟩
    · split
      · rw [(ih _).1, (ih _).2, sendWindow_opTable, sendWindow_txNext, qpOf_setQp, if_pos rfl]
        exact ⟨rfl, rfl⟩
      · split
        · rw [launch_opTable, launch_qpOf, qpOf_setQp, if_pos rfl]
          exact ⟨rfl, rfl⟩
        · exact ⟨rfl, rfl⟩

/-! ## The waiting packets toward rack memory (R318) -/

theorem pumpRack_opTable (s : State) : opTable (pumpRack s) = opTable s := by
  unfold pumpRack
  refine (foldl_keeps opTable (fun u x => ?_) _ _).trans rfl
  split
  · exact launch_opTable ..
  · rfl

/-! ## A new operation (R345) -/

/-- The operation a descriptor asks for, with a number of packets to be answered. -/
def askedOp (c : Cpl) (r : BitVec 512) (left : Nat) : Rma :=
  { cpl := c, target := fieldOf r 9 8, op := fieldOf r 7 0, qpn := fieldOf r 191 172, addr := fieldOf r 511 448
    length := fieldOf r 447 416, remote := fieldOf r 287 240, left := left }

/-- The operations once a descriptor's joined them under the next number. -/
def withOp (s : State) (c : Cpl) (r : BitVec 512) (left : Nat) : Table Rma × Nat :=
  (tput s.fab.ops s.fab.nextOp (askedOp c r left), s.fab.nextOp + 1)

/-- The number and the operation once a descriptor's has joined. -/
theorem withOp_reads {s u : State} {c : Cpl} {r : BitVec 512} {left o t : Nat} (h : opTable u = withOp s c r left)
    (ho : fieldOf r 7 0 = o) (ht : fieldOf r 9 8 = t) :
    u.fab.nextOp = s.fab.nextOp + 1 ∧ ∃ y, tget u.fab.ops s.fab.nextOp = some y ∧ y.op = o ∧
      y.qpn = fieldOf r 191 172 ∧ y.target = t ∧ y.left = left ∧ y.moved = 0 ∧ y.cpl = c := by
  obtain ⟨h1, h2⟩ := Prod.mk.inj h
  exact ⟨h2, _, by rw [h1, tget_tput_self], ho, rfl, ht, rfl, rfl, rfl⟩

theorem touch_opTable (s : State) (q : Nat) : opTable (touch s q) = opTable s :=
  congrArg (fun f : FabSt => (f.ops, f.nextOp)) (touch_frame (pm := [.win, .out]) (.refl s) (by decide) (by decide)).fab

/-! ## On a queue pair (R346) -/

/-- An operation that carries data joins the operations, and its packets take the next psns. -/
theorem rmaQp_cut {s : State} {c : Cpl} {d : HostDesc} {q : Nat} (hq : q = fieldOf d.raw 191 172) (hlt : q < qpCount s)
    (hs : (qpOf s q).state = .ready) (hb : (qpOf s q).bench = c.bench) (ho : fieldOf d.raw 7 0 ≠ 0x70)
    (hp : pinRoom s q = true) :
    opTable (rmaQp c d s) = withOp s c d.raw (windowPackets s (qpOf s q) d).length ∧
      (qpOf (rmaQp c d s) q).txNext = ((qpOf s q).txNext + (windowPackets s (qpOf s q) d).length) % 2 ^ 32 := by
  subst hq
  simp only [rmaQp]
  rw [if_neg (by omega), if_neg (by simp [hs, hb]; omega), if_neg (by simp [hs]), if_neg ho, if_neg (by simp [hp])]
  rw [(pumpQp_keeps _ _ _).1, (pumpQp_keeps _ _ _).2, qpOf_setQp, if_pos rfl, qpOf_touch]
  exact ⟨touch_opTable .., rfl⟩

/-- A fence joins the operations, and what fences wait for is looked at. -/
theorem rmaQp_fence {s : State} {c : Cpl} {d : HostDesc} {q : Nat} (hq : q = fieldOf d.raw 191 172)
    (hlt : q < qpCount s) (hs : (qpOf s q).state = .ready) (hb : (qpOf s q).bench = c.bench)
    (ho : fieldOf d.raw 7 0 = 0x70) :
    rmaQp c d s = settleFences (newOp s c d.raw 0).2.2 := by
  subst hq
  simp only [rmaQp]
  rw [if_neg (by omega), if_neg (by simp [hs, hb]; omega), if_neg (by simp [hs]), if_pos ho]

theorem settleFences_nextOp (s : State) : (settleFences s).fab.nextOp = s.fab.nextOp := by
  unfold settleFences
  refine foldl_keeps (·.fab.nextOp) (fun u k => ?_) _ _
  split
  · rw [complete_fab]
  · rfl

/-- A fence with no operation before it is done. -/
theorem settleFences_alone {s : State} {k : Nat} {o : Rma} (h : s.fab.ops = [(k, o)]) (ho : o.op = 0x70)
    (ht : o.target = 0) : (settleFences s).fab.ops = [] := by
  simp [settleFences, h, ho, ht, complete_fab, tdel]

/-- A fence behind an operation of its queue pair waits. -/
theorem settleFences_behind {s : State} {j k : Nat} {o f : Rma} (h : s.fab.ops = [(j, o), (k, f)]) (hj : j < k)
    (ho : o.op ≠ 0x70) (ht : o.target = 0) (hq : o.qpn = f.qpn) : settleFences s = s := by
  simp [settleFences, h, ho, hj, ht, hq]

/-! ## On rack memory (R346) -/

/-- The line operations of a descriptor. -/
def lineOps (r : BitVec 512) : List Nat :=
  if fieldOf r 7 0 = 0x54 ∨ fieldOf r 7 0 = 0x55 then lines (fieldOf r 287 240) (fieldOf r 447 416)
  else [fieldOf r 287 240]

/-- The operations and the maps are as they were. -/
structure SameOps (s u : State) : Prop where
  ops : opTable u = opTable s
  maps : u.fab.maps = s.fab.maps

/-- An operation whose lines all have a module joins the operations with as many packets as it has lines. -/
theorem rmaRack_opTable {s : State} (c : Cpl) {d : HostDesc}
    (h : ∀ a ∈ lineOps d.raw, (tget s.fab.maps.rackmap (a / 2 ^ 43)).isSome = true) :
    opTable (rmaRack c d s) = withOp s c d.raw (lineOps d.raw).length := by
  unfold rmaRack
  dsimp only
  rw [pumpRack_opTable]
  change opTable (List.foldl _ (newOp s c d.raw (lineOps d.raw).length).2.2 (lineOps d.raw).zipIdx) = _
  refine (List.foldlRecOn (motive := SameOps (newOp s c d.raw (lineOps d.raw).length).2.2) _ _ ⟨rfl, rfl⟩
    fun u ⟨hops, hmaps⟩ l hl => ?_).ops
  obtain ⟨m, hm⟩ := Option.isSome_iff_exists.mp (h l.1 (List.fst_mem_of_mem_zipIdx hl))
  have hm' : tget u.fab.maps.rackmap (l.1 / 2 ^ 43) = some m := by rw [hmaps]; exact hm
  rw [hm']
  exact ⟨hops, hmaps⟩

/-- A range begins in its first line. -/
theorem first_mem_lines (a : Nat) {n : Nat} (h : 1 ≤ n) : 128 * (a / 128) ∈ lines a n :=
  List.mem_map.mpr ⟨0, List.mem_range.mpr (by omega), rfl⟩

/-- A write or read has a length (R345). -/
theorem rmaOk_length {r : BitVec 512} (hok : rmaOk r = true) (h : fieldOf r 7 0 = 0x54 ∨ fieldOf r 7 0 = 0x55) :
    1 ≤ fieldOf r 447 416 := by
  simp only [rmaOk, Bool.and_eq_true] at hok
  obtain ⟨-, hlen⟩ := hok
  rcases h with h | h <;> simp [h] at hlen <;> exact hlen.1

/-- Where the lines of an operation's range all have a module, so have those it goes to. -/
theorem lineOps_mapped {r : BitVec 512} {m : Table ModuleId} (hok : rmaOk r = true)
    (h : ∀ a ∈ lines (fieldOf r 287 240) (max 1 (fieldOf r 447 416)), (tget m (a / 2 ^ 43)).isSome = true) :
    ∀ a ∈ lineOps r, (tget m (a / 2 ^ 43)).isSome = true := by
  unfold lineOps
  split
  · rename_i hop
    rwa [max_eq_right (rmaOk_length hok hop)] at h
  · intro a ha
    obtain rfl := List.mem_singleton.mp ha
    have hfirst := h _ (first_mem_lines _ (le_max_left ..))
    rwa [show 128 * (fieldOf r 287 240 / 128) / 2 ^ 43 = fieldOf r 287 240 / 2 ^ 43 by omega] at hfirst

theorem lineOps_length (r : BitVec 512) : (lineOps r).length =
    if fieldOf r 7 0 = 0x54 ∨ fieldOf r 7 0 = 0x55 then (lines (fieldOf r 287 240) (fieldOf r 447 416)).length
    else 1 := by
  unfold lineOps
  split <;> rfl

/-! ## The rows of remote operations -/

/-- Every row of a remote operation is one meaning under its opcode, and only a fence has the fence's. -/
theorem exec_qpRow {d : HostDesc} {x : Instr × Nat} (s : State)
    (hx : x ∈ [(Instr.rmaWrite d, 0x54), (.rmaRead d, 0x55), (.rmaAdd d, 0x56), (.rmaCas d, 0x57)]) :
    exec x.1 s = landRow x.2 rmaOp d s ∧ x.2 ≠ 0x70 := by
  simp only [List.mem_cons, List.not_mem_nil, or_false] at hx
  rcases hx with rfl | rfl | rfl | rfl <;> exact ⟨rfl, by simp⟩

theorem exec_rackRow {d : HostDesc} {x : Instr × Nat} (s : State)
    (hx : x ∈ [(Instr.rmaWriteRack d, 0x54), (.rmaReadRack d, 0x55), (.rmaAddRack d, 0x56), (.rmaCasRack d, 0x57),
      (.fenceRack d, 0x70)]) : exec x.1 s = landRow x.2 rmaOp d s := by
  simp only [List.mem_cons, List.not_mem_nil, or_false] at hx
  rcases hx with rfl | rfl | rfl | rfl | rfl <;> rfl

/-- An operation within R345 goes by its target. -/
theorem rmaOp_of_target {s : State} (c : Cpl) {d : HostDesc} (hok : rmaOk d.raw = true) :
    rmaOp c d s = if fieldOf d.raw 9 8 = 0 then rmaQp c d s else rmaRack c d s :=
  if_neg (by simp [hok])

/-- Settles O26. On a queue pair an operation is cut by `windowPackets`, on rack memory into its lines; what then
leaves the module touches neither the operations nor the psns. -/
theorem remoteOperationsAreCutAndQueued : Obligations.RemoteOperationsAreCutAndQueued := by
  rintro s d q k h0 hk hh hr hq rfl hok
  have hrun (o : Nat) (ho : dOp d = o) : landRow o rmaOp d s = .next (rmaOp (cplOf s d) d (atLanding s d)) :=
    landRow_acts rmaOp h0 hk hh hr ho
  rw [rmaOp_of_target _ hok] at hrun
  refine ⟨fun h8 hlt hs hb hp x hx ho => ?_, fun h8 hlt hs hb ho => ?_, fun h8 hmap x hx ho => ?_⟩
  · obtain ⟨hexec, hne⟩ := exec_qpRow s hx
    obtain ⟨hops, htx⟩ := rmaQp_cut (s := atLanding s d) (c := cplOf s d) hq hlt hs hb (ne_of_eq_of_ne ho hne) hp
    obtain ⟨hnext, y, hy, y1, y2, y3, y4, y5, y6⟩ := withOp_reads hops ho h8
    refine ⟨rmaQp (cplOf s d) d (atLanding s d), ?_, hnext, htx, ?_⟩
    · rw [hexec, hrun _ ho, if_pos h8]
    · rw [show s.fab.nextOp = (atLanding s d).fab.nextOp from rfl, hy, Option.map_some, y1, y2, y3, y4, y5, y6, hq]
      rfl
  · refine ⟨settleFences (newOp (atLanding s d) (cplOf s d) d.raw 0).2.2, ?_, settleFences_nextOp _, fun hnil => ?_,
      fun o j hops hj ht hqo hno => ?_⟩
    · refine (hrun _ ho).trans ?_
      rw [if_pos h8, rmaQp_fence (s := atLanding s d) (c := cplOf s d) hq hlt hs hb ho]
    · refine settleFences_alone (k := s.fab.nextOp) (o := askedOp (cplOf s d) d.raw 0) ?_ ho h8
      change tput s.fab.ops _ _ = _
      rw [hnil]
      rfl
    · have hput : (newOp (atLanding s d) (cplOf s d) d.raw 0).2.2.fab.ops =
          [(j, o), (s.fab.nextOp, askedOp (cplOf s d) d.raw 0)] := by
        change tput s.fab.ops s.fab.nextOp _ = _
        rw [hops, tput, if_neg (by omega), if_neg (by omega)]
        rfl
      rw [settleFences_behind hput hj hno ht (hqo.trans hq), hput]
      simp only [tget, if_neg (Nat.ne_of_lt hj), if_true, Option.map_some]
      exact congrArg some (Prod.ext ho (Prod.ext hq.symm rfl))
  · have hops := rmaRack_opTable (s := atLanding s d) (cplOf s d) (lineOps_mapped hok hmap)
    obtain ⟨hnext, y, hy, y1, -, y3, y4, y5, y6⟩ := withOp_reads hops ho h8
    refine ⟨rmaRack (cplOf s d) d (atLanding s d), ?_, hnext, ?_⟩
    · rw [exec_rackRow s hx, hrun _ ho, if_neg (by omega)]
    · rw [show s.fab.nextOp = (atLanding s d).fab.nextOp from rfl, hy, Option.map_some, y1, y3, y4, y5, y6,
        lineOps_length, show fieldOf d.raw 7 0 = x.2 from ho]

end Sys2Proof.Machine
end

section
/-! SUPPORT. How loads and unloads start: what each descriptor does by the state of its bench (R69 to R71, R527). -/

namespace Sys2Proof.Machine

/-- A commit-acting descriptor that only changes one bench completes nothing at that commit. -/
theorem hostRow_setsBench {o : Nat} {f : Cpl → HostDesc → Nat → State → State} {d : HostDesc} {s : State} {b : Nat}
    {g : Bench → Bench} (h0 : s.pwr.off = false) (hq : quiet s) (ha : meetsCommit s d = true)
    (hg : gate s d o (commitOf s d.stamp) = none)
    (hf : f (cplOf s d) d (commitOf s d.stamp) (atLanding s d) = setBench (atLanding s d) b g) :
    hostRow o f d s = .next (setBench (atLanding s d) b g) :=
  hostRow_plain h0 ha hg hq hf (addsPlain.of_eq rfl).noStream

/-! ## Loads (R69 to R71) -/

/-- A load whose fields are in order, for a bench with a record that no sealed epoch moves (R62, R70, R71). -/
structure LoadInOrder (s : State) (b : Nat) (r : BitVec 512) : Prop where
  record : hasRecord s b = true
  stays : sealedMoves s b = false
  top : zeroAt r 511 272 = true
  middle : zeroAt r 31 20 = true
  low : zeroAt r 15 11 = true
  mode : fieldOf r 10 9 ≠ 3
  aligned : fieldOf r 127 64 % 4096 = 0

/-- The load a descriptor asks for. -/
def askedLoad (c : Cpl) (r : BitVec 512) : Load :=
  { cpl := c, modelTag := fieldOf r 255 192, length := fieldOf r 191 128 }

/-- A plain load on an EMPTY bench begins. -/
theorem applyLoad_empty {s : State} {c : Cpl} {d : HostDesc} (n : Nat) (h : LoadInOrder s c.bench d.raw)
    (hplain : bitOf d.raw 8 = false) (hm : zeroAt d.raw 10 9 = true) (ht : zeroAt d.raw 271 256 = true)
    (hs : (bench s c.bench).state = .empty) :
    applyLoad c d n s = setBench s c.bench (fun x => { x with state := .loading, load := some (askedLoad c d.raw) }) := by
  obtain ⟨hr, hseal, h1, h2, h3, h4, h5⟩ := h
  simp [applyLoad, hr, hseal, h1, h2, h3, h4, h5, hplain, hm, ht, hs, askedLoad]

/-- A replacing load on a READY bench drains it and waits. -/
theorem applyLoad_replaces {s : State} {c : Cpl} {d : HostDesc} (n : Nat) (h : LoadInOrder s c.bench d.raw)
    (hrepl : bitOf d.raw 8 = true) (hs : (bench s c.bench).state = .ready) :
    applyLoad c d n s = setBench s c.bench (fun x => { x with
      state := .draining, replacing := some (askedLoad c d.raw), drain := some (drainOf d n) }) := by
  obtain ⟨hr, hseal, h1, h2, h3, h4, h5⟩ := h
  simp [applyLoad, hr, hseal, h1, h2, h3, h4, h5, hrepl, hs, askedLoad]

/-! ## Unloads (R527) -/

/-- An unload whose fields are in order, for a bench with a record (R70, R71). -/
structure UnloadInOrder (s : State) (b : Nat) (r : BitVec 512) : Prop where
  record : hasRecord s b = true
  top : zeroAt r 511 272 = true
  body : zeroAt r 255 64 = true
  middle : zeroAt r 31 20 = true
  low : zeroAt r 15 11 = true
  plain : bitOf r 8 = false
  mode : fieldOf r 10 9 ≠ 3

section
variable {s : State} {c : Cpl} {d : HostDesc} (n : Nat) (h : UnloadInOrder s c.bench d.raw)
include h

theorem applyUnload_empty (hs : (bench s c.bench).state = .empty) : applyUnload c d n s = due s c .ok 0 n := by
  obtain ⟨hr, h1, h2, h3, h4, h5, h6⟩ := h
  simp [applyUnload, hr, h1, h2, h3, h4, h5, h6, hs]

theorem applyUnload_halted (hs : (bench s c.bench).state = .halted) :
    applyUnload c d n s = due s c .benchHalted 0 n := by
  obtain ⟨hr, h1, h2, h3, h4, h5, h6⟩ := h
  simp [applyUnload, hr, h1, h2, h3, h4, h5, h6, hs]

/-- An unload of a READY bench starts its drain. -/
theorem applyUnload_ready (hs : (bench s c.bench).state = .ready) :
    applyUnload c d n s = setBench s c.bench (fun x => { x with
      state := .draining, unloads := [c], drain := some (drainOf d n) }) := by
  obtain ⟨hr, h1, h2, h3, h4, h5, h6⟩ := h
  simp [applyUnload, hr, h1, h2, h3, h4, h5, h6, hs]

/-- An unload of a LOADING bench ends the load: both complete, the load first, and the bench is EMPTY. -/
theorem applyUnload_loading {l : Load} (hs : (bench s c.bench).state = .loading)
    (hl : (bench s c.bench).load = some l) :
    applyUnload c d n s = closeMeter (due (setBench
      (logErr (due s l.cpl .cancelled l.modelTag n) .load 7 (b := c.bench) (d0 := l.modelTag)) c.bench
      (fun x => { x with state := .empty, load := none })) c .ok l.modelTag n) c.bench 2 := by
  obtain ⟨hr, h1, h2, h3, h4, h5, h6⟩ := h
  simp [applyUnload, hr, h1, h2, h3, h4, h5, h6, hs, hl]

end

/-- A replacing load that waits completes cancelled. -/
def cancelReplacing (s : State) (b n : Nat) : State :=
  match (bench s b).replacing with
  | some l => due s l.cpl .cancelled l.modelTag n
  | none => s

theorem bench_cancelReplacing (s : State) (b n a : Nat) : bench (cancelReplacing s b n) a = bench s a := by
  unfold cancelReplacing
  split <;> rfl

/-- An unload of a bench that empties already joins the unloads that wait for that. -/
theorem applyUnload_emptying {s : State} {c : Cpl} {d : HostDesc} (n : Nat) (h : UnloadInOrder s c.bench d.raw)
    (hs : (bench s c.bench).state = .draining ∨ (bench s c.bench).state = .unloading) :
    applyUnload c d n s = setBench (cancelReplacing s c.bench n) c.bench (fun x => { x with
      replacing := none, unloads := x.unloads ++ [c] }) := by
  obtain ⟨hr, h1, h2, h3, h4, h5, h6⟩ := h
  rcases hs with hs | hs <;> simp [applyUnload, hr, h1, h2, h3, h4, h5, h6, hs] <;> rfl

/-- Each of these unloads is due its record, in their order. -/
theorem foldl_due_records (l : List Cpl) (s : State) (st : Status) (result n : Nat) :
    (l.foldl (fun u c => due u c st result n) s).host.due =
      s.host.due ++ l.map (fun c => { cpl := c, status := st, result := result, tick := n }) := by
  induction l generalizing s with
  | nil => simp
  | cons c l ih =>
    rw [List.foldl_cons, ih, List.map_cons]
    exact List.append_assoc ..

/-- A release completes the unloads that wait. -/
theorem releaseDone_records {s : State} {b : Nat} (n : Nat) (hs : (bench s b).state = .unloading) :
    (releaseDone s b n).host.due = s.host.due ++ (bench s b).unloads.map (fun c =>
      { cpl := c, status := .ok, result := (bench s b).modelTag, tick := n }) := by
  rw [releaseDone, if_pos hs]
  exact foldl_due_records ..

/-- Settles O15. Each effect is a change of one bench or one record, which nothing else follows at that commit. -/
theorem loadsAndUnloadsStart : Obligations.LoadsAndUnloadsStart := by
  rintro s d n b h0 hq hm rfl rfl hr h1 h2 h3 h4
  refine ⟨fun hg h5 hseal => ?load, fun hg h5 h8 => ?unload⟩
  case load =>
    have h : LoadInOrder (atLanding s d) (cplOf s d).bench d.raw := ⟨hr, hseal, h1, h2, h3, h4, h5⟩
    exact ⟨fun h8 hmode hticks hs => hostRow_setsBench h0 hq hm hg (applyLoad_empty _ h h8 hmode hticks hs),
      fun h8 hs => hostRow_setsBench h0 hq hm hg (applyLoad_replaces _ h h8 hs)⟩
  case unload =>
    have h : UnloadInOrder (atLanding s d) (cplOf s d).bench d.raw := ⟨hr, h1, h5, h2, h3, h8, h4⟩
    exact ⟨fun hs => hostRow_setsBench h0 hq hm hg (applyUnload_ready _ h hs),
      fun hs => hostRow_due h0 hm hg (atLanding_quiet d hq) (applyUnload_empty _ h hs) (addsPlain.of_eq rfl).noStream⟩

/-- Settles O60: one clause for each state of the bench, and the release that the unloads of an emptying bench wait for. -/
theorem unloadsCompleteByBenchState : Obligations.UnloadsCompleteByBenchState := by
  rintro s d c n b rfl hr h1 h2 h3 h4 h5 h6
  have h : UnloadInOrder s c.bench d.raw := ⟨hr, h1, h2, h3, h4, h5, h6⟩
  refine ⟨applyUnload_empty n h, applyUnload_halted n h, fun l hs hl => ?_, applyUnload_ready n h, fun hs => ?_,
    fun m hs hl => ⟨?_, releaseDone_records m hs⟩⟩
  · rw [applyUnload_loading n h hs hl, bench_closeMeter, bench_due, bench_setBench_self]
    refine ⟨rfl, rfl, ?_⟩
    simp [closeMeter, due]
  · rw [applyUnload_emptying n h hs, bench_setBench_self, bench_cancelReplacing]
    refine ⟨rfl, rfl, rfl, rfl, ?_⟩
    rw [setBench_host, cancelReplacing]
    cases (bench s c.bench).replacing <;> simp [due]
  · obtain ⟨-, -, hempty⟩ := bench_releaseDone m hs
    exact hempty.mpr hl

end Sys2Proof.Machine
end

section
/-! SUPPORT. Hauls at their destination (R124, R162, R213, R215): what each message makes of the haul in, and what goes
back to its source. -/

namespace Sys2Proof.Machine

/-! ## The haul in -/

/-- A haul in is found among the hauls in alone. -/
theorem dstHaul_of_inn {s u : State} (h : u.haul.inn = s.haul.inn) (id : Nat) (src : ModuleId) :
    dstHaul u id src = dstHaul s id src := by
  unfold dstHaul
  rw [h]

@[simp] theorem dstHaul_arrival (s : State) (t : Stamp) (id : Nat) (src : ModuleId) :
    dstHaul (noteLink (s.at t)) id src = dstHaul s id src :=
  dstHaul_of_inn (congrArg HaulSt.inn (noteLink_haul _)) id src

@[simp] theorem dstHaul_send (s : State) (d : ModuleId) (b : Option Nat) (x : Msg) (id : Nat) (src : ModuleId) :
    dstHaul (send s d b x) id src = dstHaul s id src :=
  dstHaul_of_inn (congrArg HaulSt.inn (send_haul ..)) id src

@[simp] theorem dstHaul_chargePages (s : State) (b : Nat) (es : List Entry) (id : Nat) (src : ModuleId) :
    dstHaul (chargePages s b es) id src = dstHaul s id src :=
  dstHaul_of_inn (congrArg HaulSt.inn (chargePages_frame (pm := [.spent]) (.refl s) (by decide)).haul) id src

/-- A haul in that is changed, and keeps its source, is found as changed. -/
theorem dstHaul_setDst {f : DstHaul → DstHaul} (hf : ∀ h, (f h).src = h.src) (s : State) (id : Nat) (src : ModuleId) :
    dstHaul (setDst s id src f) id src = (dstHaul s id src).map f := by
  simp only [dstHaul, setDst, List.find?_map]
  have hp : ((fun h : Nat × DstHaul => h.1 == id && h.2.src == src) ∘
      fun h => if h.1 = id ∧ h.2.src = src then (h.1, f h.2) else h) = fun h => h.1 == id && h.2.src == src := by
    funext h
    simp only [Function.comp]
    split <;> simp [hf]
  rw [hp]
  cases hx : s.haul.inn.find? (fun h => h.1 == id && h.2.src == src) with
  | none => rfl
  | some h =>
    have hh := List.find?_some hx
    simp only [Bool.and_eq_true, beq_iff_eq] at hh
    simp [hh]

theorem find?_filter_not {α : Type} (p : α → Bool) (l : List α) : (l.filter (fun x => !p x)).find? p = none :=
  List.find?_eq_none.mpr fun _ hx => by simpa using (List.mem_filter.mp hx).2

/-- A haul in that is dropped is no more. -/
theorem dstHaul_dropDst (s : State) (id : Nat) (src : ModuleId) : dstHaul (dropDst s id src) id src = none := by
  rw [dstHaul, dropDst, find?_filter_not, Option.map_none]

/-- A haul accepted stands in place of an older one of its source and number. -/
theorem dstHaul_accepted (s : State) (id : Nat) {src : ModuleId} {h : DstHaul} (hs : h.src = src) :
    dstHaul { s with haul := { s.haul with
      inn := s.haul.inn.filter (fun x => !(x.1 == id && x.2.src == src)) ++ [(id, h)] } } id src = some h := by
  rw [dstHaul, List.find?_append, find?_filter_not]
  simp [hs]

/-! ## Messages -/

/-- With power present a message's effect applies at its stamp, the wake flag noted first (R465). -/
theorem runLink_on {s : State} (h0 : s.pwr.off = false) (t : Stamp) (f : State → State) :
    runLink t f s = .next (f (noteLink (s.at t))) :=
  run_on h0 t (fun s => f (noteLink s))

/-- The check of a page reads the benches alone. -/
theorem pageOk_of_benches {s u : State} (h : u.benches = s.benches) (b fp : Nat) (e : Entry) :
    pageOk u b fp e = pageOk s b fp e := by
  unfold pageOk pageCause benchTag bench
  rw [h]

theorem noteLink_benches (s : State) : (noteLink s).benches = s.benches := by
  unfold noteLink
  split <;> rfl

section
variable {m : HaulMsg} {s : State}

/-! ## OFFER (R213) -/

section
variable {p : Purpose} {bytes n g : Nat} {r sp live : Bool}

theorem haulOffer_accepts (hm : hmOk m 0 = true) (hp : purposeOf (hmPurpose m) = some p)
    (hb : m.body = .offer bytes n g r sp live) (hr : offerRefusal s m p bytes r sp live = none) :
    ∃ v, haulOffer m s = send v (hmSrc m) none (.haul (reply m 1 0 .none)) ∧
      dstHaul v (hmId m) (hmSrc m) = some {
        src := hmSrc m, conv := hmConv m, req := hmReq m, purpose := p, bench := hmBench m, speculate := sp,
        record := r, live := live, offered := n, bytes := offerBytes s (hmBench m) bytes sp } := by
  refine ⟨_, ?_, dstHaul_accepted s (hmId m) rfl⟩
  simp [haulOffer, hm, hp, hb, hr]

theorem haulOffer_refuses {st : Status} (hm : hmOk m 0 = true) (hp : purposeOf (hmPurpose m) = some p)
    (hb : m.body = .offer bytes n g r sp live) (hr : offerRefusal s m p bytes r sp live = some st) :
    haulOffer m s = send s (hmSrc m) none (.haul (reply m 2 (statusCode st) (.refuse none))) := by
  simp [haulOffer, hm, hp, hb, hr]

end

/-! ## DATA (R124, R162, R213) -/

/-- The haul of a message is dropped and refused as corrupt. -/
def refusedCorrupt (m : HaulMsg) (u : State) : Prop :=
  ∃ v i, u = send (dropDst v (hmId m) (hmSrc m)) (hmSrc m) none (.haul (reply m 2 6 (.refuse i)))

theorem refusedCorrupt.gone {u : State} (h : refusedCorrupt m u) :
    ∃ i, dstHaul u (hmId m) (hmSrc m) = none ∧ .send (hmSrc m) none (.haul (reply m 2 6 (.refuse i))) ∈ u.out := by
  obtain ⟨v, i, rfl⟩ := h
  exact ⟨i, by rw [dstHaul_send, dstHaul_dropDst], by simp⟩

section
variable {h : DstHaul} (hm : hmOk m 3 = true) (hd : dstHaul s (hmId m) (hmSrc m) = some h)
include hm hd

theorem haulData_pages {es : List Entry} (hb : m.body = .data (.pages es))
    (hok : ∀ e ∈ es, pageOk s h.bench (hmFp m) e = true) :
    dstHaul (haulData m s) (hmId m) (hmSrc m) = some { h with entries := h.entries ++ es } := by
  have hnone : es.findIdx? (fun e => !pageOk s h.bench (hmFp m) e) = none := by simpa using hok
  simp [haulData, hm, hd, hb, hnone, dstHaul_setDst]

theorem haulData_pages_bad {es l : List Entry} {e : Entry} (hb : m.body = .data (.pages (es ++ e :: l)))
    (hbad : pageOk s h.bench (hmFp m) e = false) : refusedCorrupt m (haulData m s) := by
  obtain ⟨i, hi⟩ : ∃ i, (es ++ e :: l).findIdx? (fun e => !pageOk s h.bench (hmFp m) e) = some i :=
    Option.isSome_iff_exists.mp (by simp [List.findIdx?_isSome, hbad])
  simp only [haulData, hm, hd, hb, hi]
  exact ⟨_, _, rfl⟩

theorem haulData_records {rs : List RecBlock} (hb : m.body = .data (.records rs))
    (hok : ∀ r ∈ rs, r.ok (hmFp m) = true) :
    dstHaul (haulData m s) (hmId m) (hmSrc m) = some { h with recs := h.recs ++ rs } := by
  have hall : rs.all (fun r => r.ok (hmFp m)) = true := List.all_eq_true.mpr hok
  simp [haulData, hm, hd, hb, hall, dstHaul_setDst]

section
variable {raw : BitVec 512} {es : List (BitVec 128)} {c : Conv}

theorem haulData_table {x : Conv} (hb : m.body = .data (.table raw es c)) (hx : tableOf raw es c = some x)
    (hk : x.key = h.conv) :
    dstHaul (haulData m s) (hmId m) (hmSrc m) = some { h with table := some x } := by
  simp [haulData, hm, hd, hb, hx, hk, dstHaul_setDst]

theorem haulData_table_bad (hb : m.body = .data (.table raw es c))
    (hbad : ∀ x, tableOf raw es c = some x → x.key ≠ h.conv) : refusedCorrupt m (haulData m s) := by
  cases hx : tableOf raw es c with
  | none =>
    simp only [haulData, hm, hd, hb, hx]
    exact ⟨s, none, rfl⟩
  | some x =>
    simp only [haulData, hm, hd, hb, hx, if_neg (hbad x hx)]
    exact ⟨s, none, rfl⟩

end

theorem haulData_log {l : List SegMsg} {gs : List Segment} (hb : m.body = .data (.log l)) (hl : segsOf l = some gs) :
    dstHaul (haulData m s) (hmId m) (hmSrc m) = some { h with log := some gs } := by
  simp [haulData, hm, hd, hb, hl, dstHaul_setDst]

theorem haulData_log_bad {l : List SegMsg} (hb : m.body = .data (.log l)) (hl : segsOf l = none) :
    refusedCorrupt m (haulData m s) := by
  simp only [haulData, hm, hd, hb, hl]
  exact ⟨s, none, rfl⟩

theorem haulData_sampler {x : BitVec 512} {r : Req} (hb : m.body = .data (.sampler x r)) (hx : samplerHdrOk x r = true) :
    dstHaul (haulData m s) (hmId m) (hmSrc m) = some { h with sampler := some (samplerReq x r) } := by
  simp [haulData, hm, hd, hb, hx, dstHaul_setDst]

end

/-! ## FREED and ABORT (R213, R215) -/

theorem haulFreed_holds {h : DstHaul} {f : Stamp} (hm : hmOk m 5 = true) (hb : m.body = .freed f)
    (hd : dstHaul s (hmId m) (hmSrc m) = some h) (hf : h.freed = none) :
    dstHaul (haulFreed m s) (hmId m) (hmSrc m) = some { h with freed := some f } := by
  have hset : haulFreed m s = setDst s (hmId m) (hmSrc m)
      (fun h => if h.freed.isSome then h else { h with freed := some f }) := by simp [haulFreed, hm, hb]
  rw [hset, dstHaul_setDst (fun h => by split <;> rfl), hd]
  simp [hf]

theorem haulAbort_discards {h : DstHaul} (hm : hmOk m 6 = true) (hd : dstHaul s (hmId m) (hmSrc m) = some h)
    (hf : h.freed = none) : haulAbort m s = dropDst s (hmId m) (hmSrc m) := by
  simp [haulAbort, hm, hd, hf]

theorem haulAbort_late {h : DstHaul} (hm : hmOk m 6 = true) (hd : dstHaul s (hmId m) (hmSrc m) = some h)
    (hf : h.freed.isSome = true) : haulAbort m s = s := by
  simp [haulAbort, hm, hd, hf]

end

/-! ## ACK (R213, R215) -/

section
variable {s : State} {i : Nat} {src : ModuleId} {h : DstHaul} (hd : dstHaul s i src = some h)
include hd

/-- A haul in that is written and whose ACK may go out now has sent it. -/
theorem sendAck_sends (hw : h.written = true) (ha : ackAllowed s s.time.now = true) :
    (dstHaul (sendAck s i src) i src).map (·.ackSent) = some true ∧
      (sendAck s i src).out = s.out ++ [.send src none (.haul ⟨inHdr i h 4 0, .none⟩)] := by
  have hs : sendAck s i src = send (setDst s i src (fun h => { h with ackSent := true, acked := s.time.now })) src none
      (.haul ⟨inHdr i h 4 0, .none⟩) := by simp [sendAck, hd, hw, ha]
  rw [hs, send_out]
  exact ⟨by simp [dstHaul_setDst, hd], rfl⟩

theorem haulStateWritten_writes (hw : haulWhole h = true)
    (hf : s.tier.writes.any (fun w => w.2.haul == some (i, src)) = false) :
    haulStateWritten i src s = sendAck (setDst s i src (fun h => { h with written := true })) i src := by
  simp only [haulStateWritten, hd, hw, hf]
  rfl

theorem haulAckRepeat_sends (hf : h.freed = none) : haulAckRepeat i src s = sendAck s i src := by
  simp [haulAckRepeat, hd, hf]

/-- A source that is gone takes its haul with it, which is logged. -/
theorem haulSourceUnreachable_discards (t : Stamp) (hf : h.freed = none) :
    dstHaul (haulSourceUnreachable t i src s) i src = none ∧
      (haulSourceUnreachable t i src s).fault.prod = (s.fault.prod + 1) % 2 ^ 32 := by
  simp only [haulSourceUnreachable, hd, hf, Option.isSome_none, Bool.false_eq_true, if_false]
  refine ⟨?_, logErr_prod ..⟩
  exact (dstHaul_of_inn (s := dropDst s i src) (congrArg HaulSt.inn (logErr_haul ..)) i src).trans (dstHaul_dropDst ..)

end

/-! ## The statement -/

/-- Settles O45: one lemma for each message and event, at the state in which it lands. -/
theorem haulDestinationsKeepOrDiscard : Obligations.HaulDestinationsKeepOrDiscard := by
  intro s t m h0
  have hl : ∀ f, runLink t f s = .next (f (noteLink (s.at t))) := runLink_on h0 t
  have hpage : ∀ b fp e, pageOk (noteLink (s.at t)) b fp e = pageOk s b fp e :=
    pageOk_of_benches (noteLink_benches _)
  refine ⟨?offer, ?messages, ?events, run_on h0 t (fun s => s)⟩
  case offer =>
    intro p bytes n g r sp live hm hp hb
    refine ⟨fun hr => ?_, fun st hr => ?_⟩
    · obtain ⟨v, hv, hd⟩ := haulOffer_accepts hm hp hb hr
      exact ⟨_, (hl _).trans (congrArg _ hv), by simp, by rw [dstHaul_send, hd]⟩
    · exact ⟨_, (hl _).trans (congrArg _ (haulOffer_refuses hm hp hb hr)), by rw [send_haul, noteLink_haul, State.at_haul],
        by simp⟩
  case messages =>
    intro h hd0
    have hd : dstHaul (noteLink (s.at t)) (hmId m) (hmSrc m) = some h := (dstHaul_arrival ..).trans hd0
    refine ⟨fun es hm hb hok => ⟨_, hl _, haulData_pages hm hd hb fun e he => (hpage ..).trans (hok e he)⟩,
      fun rs hm hb hok => ⟨_, hl _, haulData_records hm hd hb hok⟩,
      fun raw es c x hm hb hx hk => ⟨_, hl _, haulData_table hm hd hb hx hk⟩,
      fun l gs hm hb hg => ⟨_, hl _, haulData_log hm hd hb hg⟩,
      fun x r hm hb hx => ⟨_, hl _, haulData_sampler hm hd hb hx⟩, fun hm hbad => ?_,
      fun f hm hb hf => ⟨_, hl _, haulFreed_holds hm hb hd hf⟩,
      fun hm hf => ⟨_, (hl _).trans (congrArg _ (haulAbort_discards hm hd hf)), dstHaul_dropDst ..⟩,
      fun hm hf => (hl _).trans (congrArg _ (haulAbort_late hm hd hf))⟩
    have hc : refusedCorrupt m (haulData m (noteLink (s.at t))) := by
      rcases hbad with ⟨es, e, l, hb, he⟩ | ⟨raw, es, c, hb, hx⟩ | ⟨l, hb, hg⟩
      · exact haulData_pages_bad hm hd hb ((hpage ..).trans he)
      · exact haulData_table_bad hm hd hb hx
      · exact haulData_log_bad hm hd hb hg
    obtain ⟨i, hgone, hsent⟩ := hc.gone
    exact ⟨_, i, hl _, hgone, hsent⟩
  case events =>
    intro i src h hd
    have hd : dstHaul (s.at t) i src = some h := hd
    refine ⟨fun hw hf ha => ?_, fun hw hf ha => ?_, fun hf => ?_⟩
    · have hset : dstHaul (setDst (s.at t) i src (fun h => { h with written := true })) i src =
          some { h with written := true } := by simp [dstHaul_setDst, hd]
      obtain ⟨hack, hout⟩ := sendAck_sends hset rfl ha
      exact ⟨_, (run_on h0 t _).trans (congrArg _ (haulStateWritten_writes hd hw hf)), hack, hout⟩
    · obtain ⟨-, hout⟩ := sendAck_sends hd hw ha
      exact ⟨_, (run_on h0 t _).trans (congrArg _ (haulAckRepeat_sends hd hf)), hout⟩
    · obtain ⟨hgone, hlog⟩ := haulSourceUnreachable_discards hd t hf
      exact ⟨_, run_on h0 t _, hgone, hlog⟩

end Sys2Proof.Machine
end

section
/-! SUPPORT. Rejected blocks and their repair, fits, and weight tiles (R118 to R123, R127, R129, R158). -/

namespace Sys2Proof.Machine

/-! ## A page written anew (R168, R169) -/

/-- A table whose rows are changed, each under its key. -/
theorem tget_map_row {α : Type} {g : Nat × α → Nat × α} (hg : ∀ x, (g x).1 = x.1) (l : Table α) (k : Nat) :
    tget (l.map g) k = (tget l k).map (fun x => (g (k, x)).2) := by
  induction l with
  | nil => rfl
  | cons a l ih =>
    simp only [List.map_cons, tget, ih, hg]
    split
    · rename_i h
      subst h
      rfl
    · rfl

/-- Another part of the state than the conversations has no say in where a page is. -/
theorem findPage_of_work {s u : State} (h : u.work = s.work) (p : PageRef) : findPage u p = findPage s p := by
  unfold findPage conv
  rw [h]

/-- The primary entry of a page names it. -/
theorem findPage_names {s : State} {p : PageRef} {e : Entry} (h : findPage s p = some e) :
    entryIs e p = true ∧ e.state ≠ .replica := by
  obtain ⟨c, hc, -⟩ := findPage_some h
  unfold findPage at h
  rw [hc] at h
  simpa using List.find?_some h

/-- An entry of the datum that a page's primary entry names is the page's. -/
theorem entryIs_of_sameDatum {e x : Entry} {p : PageRef} (he : entryIs e p = true) (h : sameDatum x e = true) :
    entryIs x p = true := by
  simp only [entryIs, sameDatum, Bool.and_eq_true, beq_iff_eq] at he h ⊢
  omega

/-- A change of a page changes its entry, and no other, in its own conversation's table. -/
theorem conv_modPage {s : State} {p : PageRef} {c : Conv} {e : Entry} (f : Entry → Entry) (hc : conv s p.conv = some c)
    (he : findPage s p = some e) : conv (modPage s p f) p.conv = some (touchConv s { c with
      entries := c.entries.map (fun x => if entryIs x p && x.state != .replica then f x else x) }) := by
  obtain ⟨hname, -⟩ := findPage_names he
  have hany : c.entries.any (fun x => entryIs x p && x.state != .replica) = true := by
    obtain ⟨d, hd, hany⟩ := findPage_some he
    cases hd.symm.trans hc
    exact hany
  have hhere : ∀ x, (p.conv == p.conv && entryIs x p && x.state != .replica || isOwn e && isOwn x && sameDatum x e) =
      (entryIs x p && x.state != .replica) := by
    intro x
    rw [beq_self_eq_true, Bool.true_and]
    refine Bool.or_eq_left_iff_imp.mpr fun h => ?_
    obtain ⟨ho, hd⟩ := Bool.and_eq_true_iff.mp h
    obtain ⟨-, hx⟩ := Bool.and_eq_true_iff.mp ho
    exact Bool.and_eq_true_iff.mpr ⟨entryIs_of_sameDatum hname hd, (Bool.and_eq_true_iff.mp hx).2⟩
  unfold conv at hc
  unfold modPage conv
  rw [he]
  dsimp only
  rw [tget_map_row (fun x => by split <;> rfl), hc, Option.map_some]
  simp only [hhere, hany, if_true]

/-- A page whose entry is changed, and goes on as its primary entry, is found as changed. -/
theorem findPage_modPage {s : State} {p : PageRef} {e : Entry} {f : Entry → Entry} (he : findPage s p = some e)
    (hf : ∀ x, entryIs (f x) p = entryIs x p ∧ (f x).state ≠ .replica) : findPage (modPage s p f) p = some (f e) := by
  obtain ⟨c, hc, -⟩ := findPage_some he
  have hp : ((fun x => entryIs x p && x.state != .replica) ∘
      fun x => if entryIs x p && x.state != .replica then f x else x) = fun x => entryIs x p && x.state != .replica := by
    funext x
    obtain ⟨h1, h2⟩ := hf x
    simp only [Function.comp]
    split
    · rename_i h
      rw [h, h1, (Bool.and_eq_true_iff.mp h).1, bne_iff_ne.mpr h2]
      rfl
    · rfl
  have hfind : c.entries.find? (fun x => entryIs x p && x.state != .replica) = some e := by
    unfold findPage at he
    rwa [hc] at he
  have hx := List.find?_some hfind
  unfold findPage
  rw [conv_modPage f hc he]
  dsimp only [touchConv]
  rw [List.find?_map, hp, hfind, Option.map_some, if_pos hx]

/-! ## Rejected blocks and repair (R118, R120, R129, R158) -/

/-- A rejection on arrival is one entry more in the log. -/
theorem countReject_prod (s : State) (b k : Nat) (e : Entry) (cause : Nat) :
    (countReject s b k e cause).fault.prod = (s.fault.prod + 1) % 2 ^ 32 :=
  logErr_prod ..

theorem countReject_tier (s : State) (b k : Nat) (e : Entry) (cause : Nat) :
    (countReject s b k e cause).tier = s.tier := by
  simp [countReject]

/-- A page of this module that is no longer awaiting a second read is logged and read again at its commit (R120). -/
theorem rejectPage_rereads {s : State} {p : PageRef} {e : Entry} (cause : Nat) (he : findPage s p = some e)
    (ho : isOwn e = true) (h1 : e.state ≠ .missing) (h2 : e.state ≠ .lost)
    (hr : ∀ r ∈ s.tier.reread, samePage s r.1 p = false) :
    (rejectPage s p cause).fault.prod = (s.fault.prod + 1) % 2 ^ 32 ∧
      (rejectPage s p cause).tier.reread = s.tier.reread ++ [(p, commitOf s s.time.now, false)] := by
  have hany : s.tier.reread.any (fun r => samePage s r.1 p) = false := by simpa using hr
  simp only [rejectPage, he, ho, if_true, countReject_tier, hany]
  simp [h1, h2, countReject_prod]

/-- Of a table whose values are changed key by key, what every change brings about holds at each key that is named. -/
theorem tget_foldl_tmod {α β : Type} {f : α → α} {P : α → Prop} (hf : ∀ x, P (f x)) (l : List (Nat × β)) (t : Table α)
    (k : Nat) (h : k ∈ l.map (·.1) ∨ ∀ x, tget t k = some x → P x) :
    ∀ x, tget (l.foldl (fun t a => tmod t a.1 f) t) k = some x → P x := by
  induction l generalizing t with
  | nil => simpa using h
  | cons a l ih =>
    refine ih _ ?_
    by_cases e : a.1 = k
    · refine .inr fun x hx => ?_
      rw [tget_tmod, if_pos e] at hx
      obtain ⟨y, -, rfl⟩ := Option.map_eq_some_iff.mp hx
      exact hf y
    · rw [List.map_cons, List.mem_cons] at h
      rw [tget_tmod, if_neg e]
      exact h.imp_left fun h => h.resolve_left (Ne.symm e)

theorem discardFits_benches (s : State) (p : FitItem → Bool) : (discardFits s p).benches =
    s.benches.foldl (fun t a => tmod t a.1 (fun b => { b with fits := b.fits.filter (fun f => !p f) })) s.benches :=
  (List.foldl_hom State.benches fun _ _ => by dsimp only; split <;> rfl).symm

/-- Fits that leave the queues leave each of them (R129). -/
theorem discardFits_gone (s : State) (p : FitItem → Bool) (b : Nat) : ∀ f ∈ (bench (discardFits s p) b).fits, p f = false := by
  have hall := tget_foldl_tmod (f := fun b : Bench => { b with fits := b.fits.filter (fun f => !p f) })
    (P := fun b => ∀ f ∈ b.fits, p f = false) (fun b f hf => by simpa using (List.mem_filter.mp hf).2) s.benches s.benches b
    (by
      rw [← tget_isSome_iff]
      cases tget s.benches b <;> simp)
  rw [← discardFits_benches] at hall
  unfold bench tgetD
  cases hb : tget (discardFits s p).benches b with
  | none => exact fun f hf => nomatch hf
  | some x => exact hall x hb

/-- A page as the blocks of its replica leave it (R120 step 3). -/
def madeWhole (key value : Block) (x : Entry) : Entry :=
  { x with state := .sealed, key := key, value := value, cls := max (classFor key.bytes) (classFor value.bytes) }

section
variable {s : State} {p : PageRef} {c : Conv} {e : Entry} {key value : Block} (hc : conv s p.conv = some c)
  (he : findPage s p = some e) (hm : e.state = .missing) (ho : isOwn e = true)
  (hp : pageCause s e.bench c.fpTag (madeWhole key value e) = none)
include hc he hm ho hp

theorem repairPage_writes : repairPage s p key value =
    modPage (discardFits s (fun f => f.page == p)) p (madeWhole key value) := by
  unfold madeWhole at hp
  simp only [repairPage, hc, he, hm, ho, hp, bne_self_eq_false, Bool.not_true, Bool.or_self, Bool.false_eq_true, if_false]
  rfl

/-- A missing page whose replica's blocks pass R118 is whole again. -/
theorem repairPage_whole : findPage (repairPage s p key value) p = some (madeWhole key value e) := by
  have hwork : (discardFits s (fun f => f.page == p)).work = s.work :=
    (discardFits_frame (pm := [.bar, .benches]) (.refl s) (by decide) (by decide)).work
  rw [repairPage_writes hc he hm ho hp]
  exact findPage_modPage ((findPage_of_work hwork p).trans he) fun _ => ⟨rfl, nofun⟩

/-- No fit of it waits (R129). -/
theorem repairPage_fits (b : Nat) : ∀ f ∈ (bench (repairPage s p key value) b).fits, f.page ≠ p := by
  intro f hf
  rw [repairPage_writes hc he hm ho hp, bench, (modPage_frame (pm := [.work]) (.refl _) (by decide)).benches] at hf
  simpa using discardFits_gone s (fun f => f.page == p) b f hf

end

/-! ## Fits (R127) -/

/-- A fit done before the cut-off, within the migration share, waits for the commit. -/
theorem fitDone_waits {s : State} {t : Stamp} {p : PageRef} {c : Conv} {e : Entry} {v : Bool} {fit : Option Block}
    (hc : conv s p.conv = some c) (he : findPage s p = some e) (ht : t.off < cutoffOff s)
    (hs : ∀ k, budgetNo e.tier = some k → fitBytes e v fit ≤ shareLeft s c.bench k) :
    (bench (fitDone t p v fit s) c.bench).fits =
      (bench s c.bench).fits.map (fun f => if f.page = p ∧ f.isValue = v then { f with done := some fit } else f) := by
  have hnot : ¬cutoffOff s ≤ t.off := Nat.not_le.mpr ht
  simp only [fitDone, hc, he]
  cases hk : budgetNo e.tier with
  | none => simp [hnot, bench_setBench_self]
  | some k =>
    have hroom : ¬shareLeft s c.bench k < fitBytes e v fit := Nat.not_lt.mpr (hs k hk)
    simp only [hnot, hroom, decide_false, Bool.or_self, Bool.false_eq_true, if_false]
    rw [bench_setBench_self]
    rfl

/-- A fit done after the cut-off is abandoned. -/
theorem fitDone_late {s : State} {t : Stamp} {p : PageRef} {v : Bool} {fit : Option Block} (ht : cutoffOff s ≤ t.off) :
    fitDone t p v fit s = s := by
  unfold fitDone
  split
  · exact if_pos (by simp [ht])
  · rfl

/-! ## Weight tiles (R122, R123) -/

/-- A bench's tick dropped: the bench is marked, and its steps and chunks are dropped (R42). -/
theorem dropBench_drops (s : State) (b : Nat) : b ∈ (dropBench s b).plan.benchDrop ∧
    ∀ x ∈ (dropBench s b).plan.units, x.bench = b → x.cls = .step ∨ x.cls = .chunk → x.dropped = true := by
  refine ⟨by simp [dropBench], fun x hx => ?_⟩
  obtain ⟨y, -, rfl⟩ := List.mem_map.mp hx
  split
  · exact fun _ _ => rfl
  · rename_i h
    exact fun hb hc => absurd ⟨hb, hc⟩ h

/-- A rejected weight tile waits for its copy, and its bench's tick is dropped (R122). -/
theorem weightReject_drops {s : State} {b cause : Nat} (tile : Nat) (h1 : 1 ≤ cause) (h5 : cause ≤ 5)
    (hp : (bench s b).pkg.isSome = true) : tile ∈ (bench (weightReject b tile cause s) b).reloading ∧
      ∃ v, (weightReject b tile cause s).plan = (dropBench v b).plan := by
  unfold weightReject
  rw [if_pos (by simp [h1, h5, hp])]
  dsimp only
  rw [bench_setBench_self]
  exact ⟨by simp, _, (retireTileFrame_frame (pm := [.tier, .fault, .out, .fresh]) (.refl _) (by decide) (by decide)
    (by decide) (by decide)).plan⟩

section
variable {s : State} {b tile : Nat} {copy : Block} {pkg : Package} (hr : tile ∈ (bench s b).reloading)
  (hp : (bench s b).pkg = some pkg)
include hr hp

/-- A sound copy takes the tile's place, and the bench goes on (R122 step 2). -/
theorem weightReload_sound (hb : tileBookOk pkg copy = true)
    (hf : tileFault pkg (if tile < pkg.tiles.length then tile else tile - pkg.tiles.length) copy = none) :
    bench (weightReload b tile copy s) b = { bench s b with
      reloading := (bench s b).reloading.filter (· != tile), pkg := some (putTile pkg tile copy) } := by
  have hc : (bench s b).reloading.contains tile = true := List.contains_iff_mem.mpr hr
  simp only [weightReload, hc, hp, hb, hf, if_true]
  rw [bench_setBench_self]

/-- A copy that fails too halts the bench (R122 step 4). -/
theorem weightReload_unsound (h : tileBookOk pkg copy = false ∨
    tileFault pkg (if tile < pkg.tiles.length then tile else tile - pkg.tiles.length) copy ≠ none) :
    (bench (weightReload b tile copy s) b).state = .halted := by
  have hc : (bench s b).reloading.contains tile = true := List.contains_iff_mem.mpr hr
  obtain ⟨k, hk⟩ : ∃ k, (if tileBookOk pkg copy then
      tileFault pkg (if tile < pkg.tiles.length then tile else tile - pkg.tiles.length) copy else some 2) = some k := by
    rcases h with h | h
    · exact ⟨2, if_neg (ne_true_of_eq_false h)⟩
    · split
      · exact Option.ne_none_iff_exists'.mp h
      · exact ⟨2, rfl⟩
  simp only [weightReload, hc, hp, hk, if_true]
  rw [bench_haltBench, if_pos rfl]

end

end Sys2Proof.Machine
end

section
/-! SUPPORT. Shadow checks and their arbitration (R146, R148, R414), and the errors of memory (R276, R277). -/

namespace Sys2Proof.Machine

/-! ## What a verdict is read from -/

/-- The items that are open, and the units that lost so far. -/
def verdict (s : State) : Table Item × List UnitId := (s.plan.items, s.fault.losses.map (·.unit))

theorem verdict_logShadow (s : State) (cause b : Nat) (x : UnitId) (band pattern status : Nat) :
    verdict (logShadow s cause b x band pattern status) = verdict s := by
  unfold verdict logShadow logEntry
  dsimp only
  split <;> split <;> simp [errVector]

theorem verdict_settleOut (s : State) (it : Item) (r : Bool) : verdict (settleOut s it r) = verdict s := by
  have h : Frame [.out, .spent] s (settleOut s it r) := settleOut_frame (.refl s) (by decide) (by decide)
  rw [verdict, h.plan, h.fault, verdict]

theorem verdict_dropFed (s : State) (it : Item) : verdict (dropFed s it) = verdict s := rfl

/-- A unit that loses is one more that lost (R414). -/
theorem verdict_lose (s : State) (it : Item) (x : UnitId) : verdict (lose s it x) = ((verdict s).1, (verdict s).2 ++ [x]) := by
  unfold lose
  rw [verdict_logShadow]
  simp [verdict]

/-! ## Shadow checks (R146, R148) -/

section
variable {s : State} {i : Nat} {it : Item} (hi : tget s.plan.items i = some it)
include hi

section
variable {o f : ItemResult} (hm : it.mismatch = false) (hk : it.shadow.kind ≠ .none)
include hm hk

theorem recheckDone_agrees (h : resultsAgree o f = true) :
    verdict (recheckDone i o f s) = (tdel s.plan.items i, s.fault.losses.map (·.unit)) := by
  have hgo : (it.mismatch || it.shadow.kind == .none) = false := by simp [hm, hk]
  simp only [recheckDone, hi, hgo, h, Bool.false_eq_true, if_false, if_true, verdict_settleOut]
  rfl

theorem recheckDone_differs (h : resultsAgree o f = false) :
    verdict (recheckDone i o f s) =
      (tput s.plan.items i { it with mismatch := true, kept := o, shadowFound := some f }, s.fault.losses.map (·.unit)) := by
  have hgo : (it.mismatch || it.shadow.kind == .none) = false := by simp [hm, hk]
  simp only [recheckDone, hi, hgo, h, Bool.false_eq_true, if_false, verdict_logShadow]
  rfl

end

/-- The third unit's verdict settles the item, and the unit it contradicts loses, if it agrees with either (R414). Steps
that fall with the item, and what it answered, change neither. -/
theorem arbitrationDone_settles (t : Stamp) (f : ItemResult) (hm : it.mismatch = true) :
    verdict (arbitrationDone t i f s) = (tdel s.plan.items i, s.fault.losses.map (·.unit) ++
      (if resultsAgree it.kept f = true then [it.shadow]
       else if it.shadowFound.any (fun x => resultsAgree x f) = true then [it.unit] else [])) := by
  have h0 : verdict (count (dropItem s i) (bn it.bench 0x460) 1) = (tdel s.plan.items i, s.fault.losses.map (·.unit)) := rfl
  cases hs : it.shadowFound
  all_goals
    simp only [arbitrationDone, hi, hm, hs, h0, Option.any_none, Option.any_some, Bool.not_true, Bool.false_eq_true,
      if_false, List.foldl_cons, List.foldl_nil, apply_ite verdict, verdict_settleOut, verdict_dropFed, verdict_lose,
      verdict_logShadow, ite_self]
    split
  case none.isTrue | some.isTrue => rfl
  case none.isFalse => simp
  case some.isFalse => split <;> simp

end

/-! ## Errors of memory (R276, R277) -/

/-- A pass over a tier is one pass more (R276). -/
theorem execPatrolScrub_counts {s : State} (h0 : s.pwr.off = false) (t : Stamp) (tier : Tier) :
    execPatrolScrub t tier s = .next { s.at t with tier := { s.tier with
      scrubs := tput s.tier.scrubs (tierNum tier) ((tget s.tier.scrubs (tierNum tier)).getD 0 + 1) } } := by
  unfold execPatrolScrub
  exact run_on h0 t _

/-- Copies that start again elsewhere leave the errors seen as they are. -/
theorem discardInto_ces (s : State) (tier : Tier) (x : UnitId) : (discardInto s tier x).tier.ces = s.tier.ces := by
  refine foldl_keeps (fun s => s.tier.ces) (fun u m => ?_) _ _
  split
  · split <;> rfl
  · rfl

theorem retireFrame_ces (s : State) (tier : Tier) (x : UnitId) (f : Nat) : (retireFrame s tier x f).tier.ces = s.tier.ces := by
  unfold retireFrame
  split
  · rfl
  · dsimp only
    split <;> simp [discardInto_ces]

/-- A frame that is retired is among the retired ones. -/
theorem mem_retireFrame (s : State) (tier : Tier) (x : UnitId) (f : Nat) :
    (tier, x.index, f) ∈ (retireFrame s tier x f).tier.frames := by
  unfold retireFrame
  split
  · rename_i h
    exact List.contains_iff_mem.mp h
  · dsimp only
    split <;> simp

/-- A page rejected retires no frame and brings none back. -/
theorem rejectPage_frames (s : State) (p : PageRef) (cause : Nat) : (rejectPage s p cause).tier.frames = s.tier.frames := by
  unfold rejectPage
  split
  · dsimp only
    split
    · simp [countReject_tier]
    · split <;> simp [countReject_tier]
  · rfl

/-- A weight tile rejected brings no frame back. -/
theorem mem_weightReject_frames {s : State} {x : Tier × Nat × Nat} (b tile cause : Nat) (h : x ∈ s.tier.frames) :
    x ∈ (weightReject b tile cause s).tier.frames := by
  unfold weightReject
  split
  · rw [setBench_tier, retireTileFrame]
    split <;> simp [dropBench, h]
  · exact h

/-- A corrected error is remembered (R277). -/
theorem correctedError_ces (t : Stamp) (tier : Tier) (x : UnitId) (f : Nat) (s : State) :
    (correctedError t tier x f s).tier.ces = s.tier.ces ++ [(tier, x.index, f, t.tick)] := by
  unfold correctedError
  dsimp only
  split
  · rw [retireFrame_ces, logErr_tier]
  · rw [logErr_tier]

/-- A frame whose errors within the window reach its threshold is retired (R277). -/
theorem correctedError_retires {t : Stamp} {tier : Tier} {x : UnitId} {f : Nat} {s : State} (hf : tier ≠ .flash)
    (hn : regF s 0x30020 3 0 ≤ ((s.tier.ces ++ [(tier, x.index, f, t.tick)]).filter (fun c => c.1 == tier &&
      c.2.1 == x.index && c.2.2.1 == f && decide (t.tick < c.2.2.2 + regF s 0x30020 63 32))).length) :
    (tier, x.index, f) ∈ (correctedError t tier x f s).tier.frames := by
  unfold correctedError
  dsimp only
  rw [logErr_tier, if_pos (Bool.and_eq_true_iff.mpr ⟨bne_iff_ne.mpr hf, decide_eq_true hn⟩)]
  exact mem_retireFrame ..

/-- No count of corrected errors retires a frame of flash. -/
theorem correctedError_flash (t : Stamp) (x : UnitId) (f : Nat) (s : State) :
    (correctedError t .flash x f s).tier.frames = s.tier.frames := by
  unfold correctedError
  dsimp only
  rw [if_neg (by simp), logErr_tier]

/-- An uncorrectable error retires its frame, whatever its line held (R276, R277). -/
theorem mem_uncorrectable (t : Stamp) (tier : Tier) (x : UnitId) (f : Nat) (use : LineUse) (s : State) :
    (tier, x.index, f) ∈ (uncorrectable t tier x f use s).tier.frames := by
  have h := mem_retireFrame (logErr s .memory 2 (u := x) (d1 := f)) tier x f
  cases use with
  | page p => exact (rejectPage_frames _ p 1).symm ▸ h
  | weight b tile => exact mem_weightReject_frames b tile 1 h
  | tableLine k => exact h
  | free => exact h

/-- An uncorrectable error in a conversation's table waits for its commit (R223, R276). -/
theorem uncorrectable_tableLine (t : Stamp) (tier : Tier) (x : UnitId) (f k : Nat) (s : State) :
    (uncorrectable t tier x f (.tableLine k) s).haul.notices = s.haul.notices ++ [(t, .tableLost k)] := by
  have h : Frame [.bar, .tier, .fault, .out, .fresh] s
      (retireFrame (logErr s .memory 2 (u := x) (d1 := f)) tier x f) :=
    retireFrame_frame (logErr_frame (.refl s) (by decide) (by decide)) (by decide) (by decide) (by decide) (by decide)
      (by decide)
  exact congrArg (fun y : HaulSt => y.notices ++ _) h.haul

/-! ## The statement -/

/-- Settles O46: one lemma for each row, at the state in which it comes. -/
theorem blocksUnitsAndFramesAreChecked : Obligations.BlocksUnitsAndFramesAreChecked := by
  refine ⟨fun s t h0 => ?_, fun s t tier x f h0 => ?_⟩
  · refine ⟨fun p c e hc he => ⟨?reject, ?repair, ?fit, ?late⟩, fun b tile => ⟨?weight, ?reload⟩,
      fun i it hi => ⟨?recheck, ?arbitration⟩⟩
    case reject =>
      intro v cause h1 h5 ho hm hl hr
      obtain ⟨hlog, hread⟩ := rejectPage_rereads (s := s.at t) cause he ho hm hl hr
      exact ⟨_, (run_on h0 t _).trans (congrArg _ (if_pos ⟨h1, h5⟩)), hlog, hread⟩
    case repair =>
      intro key value
      refine ⟨run_defers h0 t _, fun n hm ho hp => ⟨?_, repairPage_fits hc he hm ho hp c.bench⟩⟩
      exact congrArg (Option.map fun x => (x.state, x.key, x.value)) (repairPage_whole hc he hm ho hp)
    case fit =>
      intro v fit ht hs
      exact ⟨_, run_on h0 t _, fitDone_waits (s := s.at t) hc he ht hs⟩
    case late =>
      intro v fit ht
      exact (run_on h0 t _).trans (congrArg _ (fitDone_late (s := s.at t) ht))
    case weight =>
      intro cause h1 h5 hp
      obtain ⟨hreload, v, hplan⟩ := weightReject_drops (s := s.at t) tile h1 h5 hp
      obtain ⟨hdrop, hunits⟩ := dropBench_drops v b
      exact ⟨_, run_on h0 t _, hreload, hplan ▸ hdrop, hplan ▸ hunits⟩
    case reload =>
      intro pkg copy hr hp
      refine ⟨fun hb hf => ?_, fun h => ⟨_, run_on h0 t _, weightReload_unsound (s := s.at t) hr hp h⟩⟩
      have hbench := weightReload_sound (s := s.at t) hr hp hb hf
      exact ⟨_, run_on h0 t _, by simp [hbench], by rw [hbench]; rfl, by rw [hbench]⟩
    case recheck =>
      refine fun o f hm hk => ⟨fun h => ⟨_, run_on h0 t _, ?_⟩, fun h => ⟨_, run_on h0 t _, ?_⟩⟩
      · exact (congrArg (fun v => tget v.1 i) (recheckDone_agrees (s := s.at t) hi hm hk h)).trans (tget_tdel_self ..)
      · exact (congrArg (fun v => tget v.1 i) (recheckDone_differs (s := s.at t) hi hm hk h)).trans (tget_tput_self ..)
    case arbitration =>
      intro f hm
      have hv := arbitrationDone_settles (s := s.at t) hi t f hm
      exact ⟨_, run_on h0 t _, (congrArg (fun v => tget v.1 i) hv).trans (tget_tdel_self ..), congrArg Prod.snd hv⟩
  · refine ⟨execPatrolScrub_counts h0 t tier, ⟨_, run_on h0 t _, correctedError_ces .., correctedError_retires (s := s.at t), ?_⟩,
      fun use => ⟨_, run_on h0 t _, mem_uncorrectable .., ?_⟩⟩
    · rintro rfl
      exact correctedError_flash t x f (s.at t)
    · rintro k rfl
      exact uncorrectable_tableLine t tier x f k (s.at t)

end Sys2Proof.Machine
end

section
/-! SUPPORT. The keeper (R170, R171, R207, R213, R217, R218, R220, R223): what it stores of a conversation, the haul by
which a restore begins, and the copies of pages it takes. -/

namespace Sys2Proof.Machine

/-- The wake flag is the only thing a message changes before it acts: room, checks and places are as before (R465). -/
theorem noteLink_eq (s : State) : ∃ w, noteLink s = { s with pwr := w } := by
  unfold noteLink
  split
  · exact ⟨_, rfl⟩
  · exact ⟨s.pwr, rfl⟩

/-! ## The store (R218) -/

@[simp] theorem keeperOf_setKeeper_self (s : State) (k : Nat) (f : KeeperLog → KeeperLog) :
    keeperOf (setKeeper s k f) k = f (keeperOf s k) :=
  tgetD_tput_self ..

theorem keeperOf_of_haul {s u : State} (h : u.haul = s.haul) (k : Nat) : keeperOf u k = keeperOf s k := by
  unfold keeperOf
  rw [h]

/-- Bytes that the keeper writes count on a budget alone. -/
theorem chargeKeeper_frame1 (s : State) (b n : Nat) : Frame [.spent] s (chargeKeeper s b n) :=
  chargeKeeper_frame (.refl s) (by decide)

/-- A store's log as a segment that arrives leaves it: a number that is there already is not stored again (R217). -/
def storeSeg (g : Segment) (l : List Segment) : List Segment := if l.any (fun y => y.seq == g.seq) then l else l ++ [g]

theorem mem_storeSeg_of_mem {g y : Segment} {l : List Segment} (h : y ∈ l) : y ∈ storeSeg g l := by
  unfold storeSeg
  split
  · exact h
  · exact List.mem_append_left _ h

theorem exists_seq_storeSeg (g : Segment) (l : List Segment) : ∃ y ∈ storeSeg g l, y.seq = g.seq := by
  unfold storeSeg
  split
  · rename_i h
    simpa using h
  · exact ⟨g, by simp, rfl⟩

/-- A sound segment with room is stored, and its conversation's home is where it came from (R216 to R218). -/
theorem segmentReceived_stores {s : State} {m : SegMsg} {g : Segment} {b : Nat} (src : ModuleId) (hg : segOf m = some g)
    (hr : keeperRoom s (segBytes g) = some b) :
    keeperOf (segmentReceived src m s) g.conv =
        { keeperOf s g.conv with home := src, bench := b, segs := storeSeg g (keeperOf s g.conv).segs } ∧
      ∃ n, (segmentReceived src m s).out = s.out ++ [.send src none (.segmentAck g.conv n)] := by
  simp only [segmentReceived, hg, hr]
  constructor
  · rw [keeperOf_of_haul (send_haul ..), keeperOf_of_haul (chargeKeeper_frame1 ..).haul, keeperOf_setKeeper_self]
    rfl
  · rw [send_out, (chargeKeeper_frame1 ..).out]
    exact ⟨_, rfl⟩

/-- A checkpoint with room that is no older than the one held takes its place (R218, R220). -/
theorem checkpointReceived_keeps {s : State} {r : Req} {c : Conv} {b n : Nat} (src : ModuleId)
    (hr : keeperRoom s ((c.entries.map pageBytes).sum + (c.recs.map recSlot).sum) = some b)
    (hnew : ∀ m r' c', (keeperOf s c.key).ckpt = some (m, r', c') → m ≤ n) :
    (keeperOf (checkpointReceived src r c n s) c.key).ckpt = some (n, r, c) ∧
      (checkpointReceived src r c n s).out = s.out ++ [.send src none (.checkpointAck r.key n)] := by
  simp only [checkpointReceived, hr]
  constructor
  · rw [keeperOf_of_haul (send_haul ..), keeperOf_of_haul (chargeKeeper_frame1 ..).haul, keeperOf_setKeeper_self]
    dsimp only
    cases hk : (keeperOf s c.key).ckpt with
    | none => rfl
    | some x =>
      obtain ⟨m, r', c'⟩ := x
      exact if_pos (hnew m r' c' hk)
  · rw [send_out, (chargeKeeper_frame1 ..).out]
    rfl

/-- What is freed is forgotten (R207). -/
theorem execKeeperFreeNotice_forgets {s : State} (h0 : s.pwr.off = false) (t : Stamp) (k : Nat) :
    execKeeperFreeNotice t k s = .next { noteLink (s.at t) with
      haul := { s.haul with keeper := tdel s.haul.keeper k } } := by
  unfold execKeeperFreeNotice
  rw [runLink_on h0, noteLink_haul, State.at_haul]

/-- What is kept follows its conversation to a new home (R213). -/
theorem execNewHomeNotice_follows {s : State} {k : Nat} {x : KeeperLog} (h0 : s.pwr.off = false) (t : Stamp)
    (home : ModuleId) (hx : tget s.haul.keeper k = some x) :
    ∃ u, execNewHomeNotice t k home s = .next u ∧ tget u.haul.keeper k = some { x with home := home } := by
  unfold execNewHomeNotice
  rw [runLink_on h0]
  exact ⟨_, rfl, by simp [noteLink_haul, tget_tmod, hx]⟩

/-! ## A haul that begins (R213 step 1) -/

/-- Where a haul goes, and what for. -/
def routeOfHaul (h : SrcHaul) : Purpose × ModuleId × Nat := (h.purpose, h.dst, h.conv)

/-- A conversation of this module is frozen for the haul that takes it. -/
theorem startHaul_freezes {s : State} {k : Nat} {c : Conv} (hc : conv s k = some c) (p : Purpose) (dst : ModuleId)
    (dstBench : Nat) (auto evac pullAll : Bool) (cpl : Option Cpl) :
    (srcHaul (startHaul s k p dst dstBench auto evac pullAll cpl) s.haul.nextId).map routeOfHaul = some (p, dst, k) ∧
      frozenFor (startHaul s k p dst dstBench auto evac pullAll cpl) k = some s.haul.nextId := by
  have hc' : tget s.work.convs k = some c := hc
  simp only [startHaul, hc]
  split <;> simp [srcHaul, frozenFor, conv, tget_tmod, hc', routeOfHaul]

/-- An OFFER leaves a haul its route. -/
theorem sendOffer_route (s : State) (id : Nat) :
    (srcHaul (sendOffer s id) id).map routeOfHaul = (srcHaul s id).map routeOfHaul := by
  unfold sendOffer
  split
  · rfl
  · rename_i h hh
    split
    · rfl
    · simp only [srcHaul, send_haul, tget_tput_self]
      rw [show tget s.haul.out id = some h from hh]
      rfl

/-- A conversation is frozen by what its table says. -/
theorem frozenFor_of_work {s u : State} (h : u.work = s.work) (k : Nat) : frozenFor u k = frozenFor s k := by
  unfold frozenFor conv
  rw [h]

theorem sendOffer_work (s : State) (id : Nat) : (sendOffer s id).work = s.work :=
  (sendOffer_frame (pm := [.haul, .out, .spent]) (.refl s) (by decide) (by decide) (by decide)).work

/-! ## A rebuild from the log (R223, R224) -/

/-- The request that a restore brings along is written into its haul. -/
def giveReq (s : State) (id : Nat) (r : Option Req) : State :=
  { s with haul := { s.haul with
    out := tmod s.haul.out id (fun h => { h with given := r, req := (r.map (·.key)).getD 0 }) } }

theorem giveReq_route (s : State) (id : Nat) (r : Option Req) :
    (srcHaul (giveReq s id r) id).map routeOfHaul = (srcHaul s id).map routeOfHaul := by
  simp only [srcHaul, giveReq, tget_tmod, if_true, Option.map_map]
  rfl

/-- The table that a keeper makes of what it holds of a conversation that is not here: under `restore` with a
checkpoint, of the checkpoint and its replicas, otherwise an empty one. -/
def tableFromStore (s : State) (k : Nat) (x : KeeperLog) (restore : Bool) : State × Conv :=
  match restore, x.ckpt with
  | true, some (_, _, c) => restoreTable s x k [] c
  | _, _ => (s, { key := k, bench := x.bench, home := false, record := (wholeSegs x).any (·.recording) })

theorem tableFromStore_frame (s : State) (k : Nat) (x : KeeperLog) (restore : Bool) :
    Frame [.fresh] s (tableFromStore s k x restore).1 := by
  unfold tableFromStore
  split
  · exact restoreTable_frame (.refl s) (by decide)
  · exact .refl s

theorem tableFromStore_key (s : State) {k : Nat} {x : KeeperLog} (restore : Bool)
    (hkey : ∀ n r c, x.ckpt = some (n, r, c) → c.key = k) : (tableFromStore s k x restore).2.key = k := by
  unfold tableFromStore
  split
  · rename_i n r c hx
    exact hkey n r c hx
  · rfl

/-- The state in which the conversation stands in a table of this module, its log with it. -/
def rebuiltHere (s : State) (k : Nat) (x : KeeperLog) (restore : Bool) : State :=
  let gs := wholeSegs x
  let p := tableFromStore s k x restore
  let u := putConv p.1.bump { p.2 with
    log := (gs.filter (fun g => g.kind == .tokens)).flatMap (·.toks), segs := gs, newSegs := [], keeper := s.fab.self,
    guarded := true, acked := gs.length, nextSeq := gs.length, state := .idle }
  if restore && x.ckpt.isSome then setKeeper u k (fun x => { x with replicas := [] }) else u

theorem rebuiltHere_conv (s : State) {k : Nat} {x : KeeperLog} (restore : Bool)
    (hkey : ∀ n r c, x.ckpt = some (n, r, c) → c.key = k) : (conv (rebuiltHere s k x restore) k).isSome = true := by
  unfold rebuiltHere conv
  dsimp only
  split <;> simp [setKeeper, tableFromStore_key s restore hkey]

theorem rebuiltHere_nextId (s : State) (k : Nat) (x : KeeperLog) (restore : Bool) :
    (rebuiltHere s k x restore).haul.nextId = s.haul.nextId := by
  have h := congrArg HaulSt.nextId (tableFromStore_frame s k x restore).haul
  unfold rebuiltHere
  dsimp only
  split <;> exact h

/-- A keeper with the log of a conversation that is not here offers what it makes of it as a haul of purpose RESTORE. -/
theorem logRead_offers {s : State} {k : Nat} {x : KeeperLog} (home : ModuleId) (hb : Nat) (restore : Bool)
    (hk : inKeep s = false) (hx : tget s.haul.keeper k = some x) (hc : conv s k = none) (hh : headerFor s k = true) :
    ∃ r, logRead k home hb restore s = sendOffer (giveReq
      (startHaul (rebuiltHere s k x restore) k .restore home hb false false false none)
      (rebuiltHere s k x restore).haul.nextId r) (rebuiltHere s k x restore).haul.nextId := by
  unfold logRead
  simp -zeta only [hk, hx, hc, hh, Option.any_none, Bool.not_true, Bool.false_eq_true, if_false]
  exact ⟨_, rfl⟩

/-- A restore starts with the conversation frozen for the haul that brings it to its new home (R223, R224). -/
theorem logRead_starts {s : State} {k : Nat} {x : KeeperLog} (home : ModuleId) (hb : Nat) (restore : Bool)
    (hk : inKeep s = false) (hx : tget s.haul.keeper k = some x) (hc : conv s k = none) (hh : headerFor s k = true)
    (hkey : ∀ n r c, x.ckpt = some (n, r, c) → c.key = k) :
    (srcHaul (logRead k home hb restore s) s.haul.nextId).map routeOfHaul = some (.restore, home, k) ∧
      frozenFor (logRead k home hb restore s) k = some s.haul.nextId := by
  obtain ⟨c, hconv⟩ := Option.isSome_iff_exists.mp (rebuiltHere_conv s restore hkey)
  obtain ⟨r, hoffer⟩ := logRead_offers home hb restore hk hx hc hh
  have hstart := startHaul_freezes hconv .restore home hb false false false none
  rw [rebuiltHere_nextId] at hstart hoffer
  rw [hoffer, sendOffer_route, giveReq_route, frozenFor_of_work (sendOffer_work ..)]
  exact hstart

/-! ## Copies of pages (R170, R171) -/

section
variable {s : State} {src : ModuleId} {p : PageRef} {e : Entry} {b : Nat} (hb : replicaBench s = some b)
  (hk : inKeep s = false)
include hb hk

/-- A sound copy with room is kept and acknowledged (R171). -/
theorem replicaReceived_acks (hcause : copyCause s b e true = none) (hroom : hasSpace s b (pageBytes e) = true)
    (hhead : (tget s.haul.keeper p.conv).isSome = true ∨ headerFor s p.conv = true) :
    ∃ i, .send src none (.replicaAck p i) ∈ (replicaReceived src p e true s).out := by
  have hgo : (!hasSpace s b (pageBytes e) || !((tget s.haul.keeper p.conv).isSome || headerFor s p.conv)) = false := by
    rcases hhead with h | h <;> simp [hroom, h]
  simp only [replicaReceived, hb, hk, hcause, hgo, Bool.false_eq_true, if_false, send_out]
  exact ⟨_, List.mem_append_right _ (List.mem_singleton_self _)⟩

/-- A copy that fails a check is counted, and that is all (R118, R171). -/
theorem replicaReceived_rejects {sound : Bool} {cause : Nat} (hcause : copyCause s b e sound = some cause) :
    replicaReceived src p e sound s = countReject s b p.conv e cause := by
  simp only [replicaReceived, hb, hk, hcause, Bool.false_eq_true, if_false]

end

/-! ## The statement -/

/-- Settles O43. The state in which a message acts differs from the one it met in its stamp and the wake flag alone,
which no room, check or store depends on. -/
theorem keepersStoreAndRestore : Obligations.KeepersStoreAndRestore := by
  intro s t src b h0
  obtain ⟨w, hw⟩ := noteLink_eq (s.at t)
  have hrun (f : State → State) : runLink t f s = .next (f { s.at t with pwr := w }) := hw ▸ runLink_on h0 t f
  refine ⟨fun m g hg hr => ?segment, fun r c n hr hnew => ?checkpoint, fun k => ?free, fun k x hx => ?home,
    fun k x homeBench restore hk hx hc hh hkey => ?restore, fun p e hb hk hcause hroom hhead => ?copy,
    fun p e sound cause hb hk hcause => ?reject⟩
  case segment =>
    obtain ⟨hstore, hack⟩ := segmentReceived_stores (s := { s.at t with pwr := w }) src hg hr
    refine ⟨_, hrun _, ?_, ?_, ?_, hack⟩ <;> rw [hstore]
    · exact exists_seq_storeSeg ..
    · exact fun y hy => mem_storeSeg_of_mem hy
  case checkpoint => exact ⟨_, hrun _, checkpointReceived_keeps (s := { s.at t with pwr := w }) src hr hnew⟩
  case free => exact execKeeperFreeNotice_forgets h0 t k
  case home => exact execNewHomeNotice_follows h0 t src hx
  case restore => exact ⟨_, hrun _, logRead_starts (s := { s.at t with pwr := w }) src homeBench restore hk hx hc hh
    hkey⟩
  case copy =>
    obtain ⟨i, hi⟩ := replicaReceived_acks (s := { s.at t with pwr := w }) (src := src) hb hk hcause hroom hhead
    exact ⟨_, i, hrun _, hi⟩
  case reject =>
    rw [hw]
    exact (hrun _).trans (congrArg _ (replicaReceived_rejects (s := { s.at t with pwr := w }) hb hk hcause))

end Sys2Proof.Machine
end

section
/-! SUPPORT. Moves between tiers (R156, R256, R257, R266, R444): what a copy that ends makes of its move, and the
extent of a group until it is durable. -/

namespace Sys2Proof.Machine

/-! ## Copies that end (R256, R257) -/

/-- What a table has not, no part of it has. -/
theorem tget_filter_none {α : Type} {t : Table α} {k : Nat} (p : Nat × α → Bool) (h : tget t k = none) :
    tget (t.filter p) k = none := by
  rw [← Option.not_isSome_iff_eq_none, tget_isSome_iff] at h ⊢
  exact fun hk => h ((List.filter_sublist.map _).subset hk)

/-- A page rejected leaves the moves as they are. -/
theorem rejectPage_moves (s : State) (p : PageRef) (cause : Nat) :
    (rejectPage s p cause).tier.moves = s.tier.moves := by
  unfold rejectPage
  split
  · dsimp only
    split
    · simp [countReject_tier]
    · split <;> simp [countReject_tier]
  · rfl

/-- A move whose copy is there, before its extent is written (R156). -/
def markCopied (s : State) (i : Nat) (m : Move) : State :=
  { s with tier := { s.tier with moves := tput s.tier.moves i { m with copied := true } } }

/-- The copy of a block that is still written lies within one plan window, and so may stand (R257). -/
def inOneWindow (s : State) (t : Stamp) (m : Move) : Prop := m.began.tick = t.tick ∧ t.off < cutoffOff s

section
variable {s : State} {t : Stamp} {i : Nat} {m : Move} (hi : tget s.tier.moves i = some m)
include hi

/-- A copy that failed abandons its move, alone or with its extent. -/
theorem moveCopyDone_abandons : tget (moveCopyDone t i false s).tier.moves i = none := by
  simp only [moveCopyDone, hi, Bool.not_false, if_true, rejectPage_moves]
  split
  · exact tget_filter_none _ (tget_tdel_self ..)
  · exact tget_tdel_self ..

/-- A writable block's copy that spans plan windows is made anew (R257). -/
theorem moveCopyDone_restarts (hw : m.writable = true) (ht : ¬inOneWindow s t m) :
    moveCopyDone t i true s = restartMove s i m := by
  unfold inOneWindow at ht
  simp [moveCopyDone, hi, hw, ht]

variable (hgo : m.writable = false ∨ inOneWindow s t m)
include hgo

/-- A sound copy that stands is complete at its stamp, or, on its way to flash, waits for its extent. -/
theorem moveCopyDone_stands : moveCopyDone t i true s =
    if m.dst = .flash then writeExtent (markCopied s i m) m.page m.bench
    else { s with tier := { s.tier with moves := tput s.tier.moves i { m with doneAt := some t } } } := by
  have hstay : ¬(m.writable = true ∧ (!(m.began.tick == t.tick && decide (t.off < cutoffOff s))) = true) := by
    rcases hgo with h | ⟨h1, h2⟩
    · simp [h]
    · simp [h1, h2]
  simp only [moveCopyDone, hi, Bool.not_true, Bool.false_eq_true, if_false, hstay]
  rfl

end

/-! ## Extents (R156, R266) -/

/-- While a page of the group is not copied, or its move has not begun, its extent waits. -/
theorem writeExtent_waits {s : State} {p : PageRef} (b : Nat)
    (h : (∃ x ∈ s.tier.moves, extentMate p x.2 = true ∧ x.2.extent = none ∧ x.2.copied = false) ∨
      ∃ x ∈ s.tier.ready, extentMate p x = true) : writeExtent s p b = s := by
  unfold writeExtent
  refine if_pos ?_
  simp only [Bool.or_eq_true, Bool.not_eq_true', List.all_eq_false, List.any_eq_true, List.mem_filter, Bool.and_eq_true,
    Option.isNone_iff_eq_none]
  rcases h with ⟨x, hx, hmate, hopen, hcopy⟩ | hready
  · exact .inl (.inr ⟨x, ⟨hx, hmate, hopen⟩, by simp [hcopy]⟩)
  · exact .inr hready

/-- One move more laid out behind those that have their places. -/
def placeNext (s : State) (id : Nat) (a : List (Nat × Move) × Nat) (x : Nat × Move) : List (Nat × Move) × Nat :=
  (a.1 ++ [(x.1, { x.2 with extent := some (id, a.2) })], a.2 + moveBytes s x.2 / 1024)

theorem foldl_placeNext (s : State) (id : Nat) (l : List (Nat × Move)) (a : List (Nat × Move) × Nat)
    (ha : ∀ x ∈ a.1, x.2.extent.isSome = true) :
    (l.foldl (placeNext s id) a).1.map (·.1) = a.1.map (·.1) ++ l.map (·.1) ∧
      ∀ x ∈ (l.foldl (placeNext s id) a).1, x.2.extent.isSome = true := by
  induction l generalizing a with
  | nil => exact ⟨by simp, ha⟩
  | cons y l ih =>
    obtain ⟨hkeys, hsome⟩ := ih (placeNext s id a y) fun x hx =>
      (List.mem_append.mp hx).elim (ha x) fun h => by rw [List.mem_singleton.mp h]; rfl
    exact ⟨by simpa [placeNext] using hkeys, hsome⟩

/-- Every move of an extent has its place in it, under its own number. -/
theorem layOut_places (s : State) (id : Nat) (l : List (Nat × Move)) :
    (layOut s id l).1.map (·.1) = l.map (·.1) ∧ ∀ x ∈ (layOut s id l).1, x.2.extent.isSome = true :=
  foldl_placeNext s id l ([], 0) fun _ h => nomatch h

/-- Rows written over a table one after another: at a key among theirs it has one of them. -/
theorem tget_foldl_tput {α : Type} {l : List (Nat × α)} {k : Nat} (t : Table α) (h : k ∈ l.map (·.1)) :
    ∃ x, (k, x) ∈ l ∧ tget (l.foldl (fun t x => tput t x.1 x.2) t) k = some x := by
  induction l using List.reverseRecOn with
  | nil => cases h
  | append_singleton l a ih =>
    rw [List.foldl_append, List.foldl_cons, List.foldl_nil]
    by_cases e : a.1 = k
    · subst e
      exact ⟨a.2, by simp, tget_tput_self ..⟩
    · obtain ⟨x, hx, hget⟩ := ih (by simpa [Ne.symm e] using h)
      exact ⟨x, List.mem_append_left _ hx, by rw [tget_tput_other _ _ e, hget]⟩

/-- A bench that writes to flash has its key (R444). -/
theorem makeKey_made (s : State) (b : Nat) : (tgetD (makeKey s b).sec.keys b : FlashKey).made = true := by
  unfold makeKey
  dsimp only
  split
  · assumption
  · exact congrArg FlashKey.made (tgetD_tput_self ..)

theorem makeKey_tier (s : State) (b : Nat) : (makeKey s b).tier = s.tier :=
  (makeKey_frame (pm := [.sec, .fresh]) (.refl s) (by decide) (by decide)).tier

/-- The moves to flash of a page's group whose places are not yet laid out. -/
def unplaced (s : State) (p : PageRef) : List (Nat × Move) :=
  s.tier.moves.filter (fun x => extentMate p x.2 && x.2.extent.isNone)

theorem mem_unplaced {s : State} {p : PageRef} {x : Nat × Move} :
    x ∈ unplaced s p ↔ x ∈ s.tier.moves ∧ extentMate p x.2 = true ∧ x.2.extent = none := by
  simp [unplaced]

/-- Once every page of the group that goes to flash is copied, one write carries them all, each at its place in the
extent. -/
theorem writeExtent_writes {s : State} {p : PageRef} {i : Nat} {m : Move} (b : Nat) (hi : tget s.tier.moves i = some m)
    (hmate : extentMate p m = true) (hopen : m.extent = none)
    (hall : ∀ x ∈ s.tier.moves, extentMate p x.2 = true → x.2.extent = none → x.2.copied = true)
    (hready : ∀ x ∈ s.tier.ready, extentMate p x = false) :
    ∃ w x, tget (writeExtent s p b).tier.writes w = some x ∧ x.bench = b ∧ i ∈ x.moves ∧
      (∃ m', tget (writeExtent s p b).tier.moves i = some m' ∧ m'.extent.isSome = true) ∧
      (tgetD (writeExtent s p b).sec.keys b : FlashKey).made = true := by
  have hmem : (i, m) ∈ unplaced s p := mem_unplaced.mpr ⟨mem_of_tget hi, hmate, hopen⟩
  have hgo : ((unplaced s p).isEmpty || !(unplaced s p).all (fun x => x.2.copied) || s.tier.ready.any (extentMate p)) =
      false := by
    have h1 : (unplaced s p).isEmpty = false := List.isEmpty_eq_false_iff.mpr (List.ne_nil_of_mem hmem)
    have h2 : (unplaced s p).all (fun x => x.2.copied) = true := List.all_eq_true.mpr fun x hx => by
      obtain ⟨hx, h3, h4⟩ := mem_unplaced.mp hx
      exact hall x hx h3 h4
    have h3 : s.tier.ready.any (extentMate p) = false := by simpa using hready
    rw [h1, h2, h3]
    rfl
  obtain ⟨hkeys, hsome⟩ := layOut_places s s.fresh (unplaced s p)
  have hkey : i ∈ (layOut s s.fresh (unplaced s p)).1.map (·.1) :=
    hkeys ▸ List.mem_map_of_mem hmem
  obtain ⟨m', hm', hget⟩ := tget_foldl_tput s.tier.moves hkey
  simp only [writeExtent, ← unplaced.eq_1, hgo, Bool.false_eq_true, if_false, makeKey_tier]
  exact ⟨_, _, tget_tput_self .., rfl, hkey, ⟨m', hget, hsome _ hm'⟩, makeKey_made ..⟩

/-! ## Writes that are durable (R266) -/

/-- A table whose values at some keys are changed, each to what a second change leaves it. -/
theorem tget_foldl_tmod_of_mem {α : Type} {f : α → α} (hf : ∀ x, f (f x) = f x) (l : List Nat) (t : Table α) (k : Nat) :
    tget (l.foldl (fun t i => tmod t i f) t) k = if k ∈ l then (tget t k).map f else tget t k := by
  induction l generalizing t with
  | nil => rfl
  | cons a l ih =>
    rw [List.foldl_cons, ih, tget_tmod]
    by_cases e : a = k
    · subst e
      simp [Function.comp_def, hf]
    · simp [e, Ne.symm e]

/-- The write is off the list and counted, and the moves it carries are complete. -/
theorem programDone_completes {s : State} {t : Stamp} {w : Nat} {x : FWrite} (hx : tget s.tier.writes w = some x) :
    (programDone t w s).tier = { s.tier with
      writes := tdel s.tier.writes w, unitsMoved := s.tier.unitsMoved + x.units
      moves := x.moves.foldl (fun l i => tmod l i (fun m => { m with doneAt := some t })) s.tier.moves } := by
  have hfold : ∀ (l : List Nat) (u : State), (l.foldl (fun s i => { s with tier := { s.tier with
      moves := tmod s.tier.moves i (fun m => { m with doneAt := some t }) } }) u).tier =
        { u.tier with moves := l.foldl (fun l i => tmod l i (fun m => { m with doneAt := some t })) u.tier.moves } := by
    intro l
    induction l with
    | nil => exact fun _ => rfl
    | cons i l ih => exact fun u => ih _
  simp only [programDone, hx]
  exact hfold ..

end Sys2Proof.Machine
end

section
/-! SUPPORT. Demotion (R156, R172, R262): what a demotion makes ready, and what pressure takes first. -/

namespace Sys2Proof.Machine

/-! ## Moves made ready (R259) -/

/-- Two names of a page are one by what the tables say. -/
theorem samePage_of_work {s u : State} (h : u.work = s.work) (p q : PageRef) : samePage u p q = samePage s p q := by
  simp only [samePage, findPage_of_work h]

theorem samePage_refl (s : State) (p : PageRef) : samePage s p p = true := by simp [samePage]

/-- `u` differs from `s` by moves to tier `d` that joined those made ready. -/
structure JoinsReady (d : Tier) (s u : State) (l : List Move) : Prop where
  work : u.work = s.work
  tier : u.tier = { s.tier with ready := s.tier.ready ++ l }
  dst : ∀ m ∈ l, m.dst = d

theorem JoinsReady.trans {d : Tier} {s u v : State} {l k : List Move} (h1 : JoinsReady d s u l)
    (h2 : JoinsReady d u v k) : JoinsReady d s v (l ++ k) where
  work := h2.work.trans h1.work
  tier := by rw [h2.tier, h1.tier, List.append_assoc]
  dst m hm := (List.mem_append.mp hm).elim (h1.dst m) (h2.dst m)

theorem JoinsReady.refl (d : Tier) (s : State) : JoinsReady d s s [] := ⟨rfl, by simp, fun _ h => nomatch h⟩

theorem JoinsReady.mem {d : Tier} {s u : State} {l : List Move} (h : JoinsReady d s u l) {m : Move}
    (hm : m ∈ s.tier.ready) : m ∈ u.tier.ready := by
  rw [h.tier]
  exact List.mem_append_left _ hm

theorem makeReady_joins (s : State) (p : PageRef) (d : Tier) (cause : Stamp) :
    ∃ l, JoinsReady d s (makeReady s p d cause) l := by
  unfold makeReady
  split
  · split
    · exact ⟨_, rfl, rfl, fun m hm => by rw [List.mem_singleton.mp hm]⟩
    · exact ⟨[], .refl ..⟩
  · exact ⟨[], .refl ..⟩

/-- The pages of a list made ready for a tier, one after another. -/
def makeAllReady (k : Nat) (d : Tier) (es : List Entry) (s : State) : State :=
  es.foldl (fun s x => makeReady s (entryPage x k) d s.time.now) s

theorem makeAllReady_joins (k : Nat) (d : Tier) (es : List Entry) (s : State) :
    ∃ l, JoinsReady d s (makeAllReady k d es s) l := by
  induction es generalizing s with
  | nil => exact ⟨[], .refl ..⟩
  | cons e es ih =>
    obtain ⟨l, h1⟩ := makeReady_joins s (entryPage e k) d s.time.now
    obtain ⟨j, h2⟩ := ih (makeReady s (entryPage e k) d s.time.now)
    exact ⟨_, h1.trans h2⟩

/-- A page that may move, to a tier where it is not, is made ready. -/
theorem makeReady_takes {s : State} {p : PageRef} {e : Entry} {d : Tier} (cause : Stamp) (he : findPage s p = some e)
    (hm : movable s p = true) (h1 : e.tier ≠ d) (h2 : e.tier ≠ .remote) :
    ∃ m ∈ (makeReady s p d cause).tier.ready, m.page = p ∧ m.src = e.tier ∧ m.dst = d := by
  obtain ⟨c, hc, -⟩ := findPage_some he
  simp only [makeReady, he, hc, hm, bne_iff_ne.mpr h1, bne_iff_ne.mpr h2, Bool.and_self, if_true]
  exact ⟨_, List.mem_append_right _ (List.mem_singleton_self _), rfl, rfl, rfl⟩

/-- A page that could move still may, or has been made ready under one of its names. -/
theorem JoinsReady.movable_or {d : Tier} {s u : State} {l : List Move} {p : PageRef} (h : JoinsReady d s u l)
    (hm : movable s p = true) : movable u p = true ∨ ∃ m ∈ u.tier.ready, samePage s m.page p = true ∧ m.dst = d := by
  by_cases hl : l.any (fun m => samePage s m.page p) = true
  · obtain ⟨m, hm, hp⟩ := List.any_eq_true.mp hl
    refine .inr ⟨m, ?_, hp, h.dst m hm⟩
    rw [h.tier]
    exact List.mem_append_right _ hm
  · refine .inl ?_
    have hconv : conv u p.conv = conv s p.conv := by rw [conv, h.work, conv]
    simp only [movable, h.tier, samePage_of_work h.work, hconv, List.any_append, Bool.eq_false_of_not_eq_true hl,
      Bool.or_false]
    exact hm

/-- A page among those made ready is made ready, under its own name or another. -/
theorem makeAllReady_takes {s : State} {p : PageRef} {e : Entry} {d : Tier} {es : List Entry} (hes : e ∈ es)
    (hp : entryPage e p.conv = p) (he : findPage s p = some e) (hm : movable s p = true) (h1 : e.tier ≠ d)
    (h2 : e.tier ≠ .remote) :
    ∃ m ∈ (makeAllReady p.conv d es s).tier.ready, samePage s m.page p = true ∧ m.dst = d := by
  obtain ⟨a, z, rfl⟩ := List.append_of_mem hes
  obtain ⟨l, hu⟩ := makeAllReady_joins p.conv d a s
  obtain ⟨j, hv⟩ := makeReady_joins (makeAllReady p.conv d a s) p d (makeAllReady p.conv d a s).time.now
  obtain ⟨k, hz⟩ := makeAllReady_joins p.conv d z
    (makeReady (makeAllReady p.conv d a s) p d (makeAllReady p.conv d a s).time.now)
  have hsplit : makeAllReady p.conv d (a ++ e :: z) s = makeAllReady p.conv d z
      (makeReady (makeAllReady p.conv d a s) p d (makeAllReady p.conv d a s).time.now) := by
    simp only [makeAllReady, List.foldl_append, List.foldl_cons, hp]
  rw [hsplit]
  rcases hu.movable_or hm with hm | ⟨m, hm, hsame, hdst⟩
  · obtain ⟨m, hm, hpage, -, hdst⟩ := makeReady_takes (makeAllReady p.conv d a s).time.now
      ((findPage_of_work hu.work p).trans he) hm h1 h2
    exact ⟨m, hz.mem hm, hpage ▸ samePage_refl .., hdst⟩
  · exact ⟨m, hz.mem (hv.mem hm), hsame, hdst⟩

/-! ## One tier down (R156, R262) -/

/-- The next tier down is another, and a page on another module has none here. -/
theorem tierBelow_some {a d : Tier} (h : tierBelow a = some d) : a ≠ d ∧ a ≠ .remote := by
  cases a <;> simp [tierBelow] at h <;> subst h <;> decide

/-- A page of a conversation that may go down to tier `d`: it may move, the floor and the bench allow the tier, and to
flash its whole group goes from LPDDR (R156, R260; log entry 130). -/
structure Demotable (s : State) (p : PageRef) (c : Conv) (e : Entry) (d : Tier) : Prop where
  conv : conv s p.conv = some c
  page : findPage s p = some e
  below : tierBelow e.tier = some d
  free : movable s p = true
  floor : tierRank d ≤ tierRank (floorOf s c)
  slices : 0 < tierSlices s c.bench d
  group : d = .flash → c.stripe = none ∧ ∀ x ∈ c.entries, x.group = e.group → isOwn x = true → x.tier = .lpddr

section
variable {s : State} {p : PageRef} {c : Conv} {e : Entry} {d : Tier} (h : Demotable s p c e d)
include h

/-- The counter has no say in it. -/
theorem Demotable.at (t : Stamp) : Demotable (s.at t) p c e d :=
  ⟨h.conv, h.page, h.below, h.free, h.floor, h.slices, h.group⟩

theorem Demotable.named : entryPage e p.conv = p := by
  obtain ⟨hname, -⟩ := findPage_names h.page
  simp only [entryIs, Bool.and_eq_true, beq_iff_eq] at hname
  obtain ⟨⟨h1, h2⟩, h3⟩ := hname
  rw [entryPage, h1, h2, h3]

theorem Demotable.listed : e ∈ c.entries := by
  have he := h.page
  rw [findPage, h.conv] at he
  exact List.mem_of_find?_eq_some he

theorem Demotable.own : isOwn e = true := by
  obtain ⟨-, hstate⟩ := findPage_names h.page
  obtain ⟨-, hremote⟩ := tierBelow_some h.below
  simp [isOwn, hstate, hremote]

/-- The page goes among those that its demotion takes. -/
theorem Demotable.mem_demoteWith : e ∈ demoteWith c e d := by
  unfold demoteWith
  split
  · rename_i hd
    obtain ⟨-, hgroup⟩ := h.group hd
    dsimp only
    rw [if_pos]
    · exact List.mem_filter.mpr ⟨h.listed, by simp [h.own]⟩
    · refine List.all_eq_true.mpr fun x hx => ?_
      obtain ⟨hx, hsel⟩ := List.mem_filter.mp hx
      obtain ⟨hg, ho⟩ := Bool.and_eq_true_iff.mp hsel
      exact beq_iff_eq.mpr (hgroup x hx (beq_iff_eq.mp hg) ho)
  · exact List.mem_singleton_self _

theorem Demotable.demote_eq : demote s p = makeAllReady p.conv d (demoteWith c e d) s := by
  have hstripe : ¬(d = .flash ∧ c.stripe.isSome = true) := by
    rintro ⟨hd, hs⟩
    obtain ⟨hnone, -⟩ := h.group hd
    rw [hnone] at hs
    cases hs
  simp only [demote, h.conv, h.page, h.below]
  exact if_pos ⟨h.floor, h.slices, by simpa [Decidable.imp_iff_not_or] using hstripe⟩

/-- The demotion makes a move of the page ready; above flash, of that page alone. -/
theorem Demotable.demote_takes : ∃ m ∈ (demote s p).tier.ready, samePage s m.page p = true ∧ m.dst = d ∧
    (d ≠ .flash → m.page = p ∧ m.src = e.tier) := by
  obtain ⟨hmoved, hremote⟩ := tierBelow_some h.below
  rw [h.demote_eq]
  by_cases hd : d = .flash
  · obtain ⟨m, hm, hsame, hdst⟩ := makeAllReady_takes h.mem_demoteWith h.named h.page h.free hmoved hremote
    exact ⟨m, hm, hsame, hdst, fun hn => absurd hd hn⟩
  · obtain ⟨m, hm, hpage, hsrc, hdst⟩ := makeReady_takes s.time.now h.page h.free hmoved hremote
    have hone : makeAllReady p.conv d (demoteWith c e d) s = makeReady s p d s.time.now := by
      simp only [demoteWith, hd, if_false, makeAllReady, List.foldl_cons, List.foldl_nil, h.named]
    rw [hone]
    exact ⟨m, hm, hpage ▸ samePage_refl .., hdst, fun _ => ⟨hpage, hsrc⟩⟩

end

/-- A demotion changes nothing but what is made ready, all of it for one tier. -/
theorem demote_joins (s : State) (p : PageRef) : ∃ d l, JoinsReady d s (demote s p) l := by
  unfold demote
  split
  · split
    · split
      · exact ⟨_, makeAllReady_joins p.conv _ _ s⟩
      · exact ⟨.face, [], .refl ..⟩
    · exact ⟨.face, [], .refl ..⟩
  · exact ⟨.face, [], .refl ..⟩

/-- DEMOTION_IDLE acts once every page that would go has been idle for its tier's time (R262). -/
theorem execDemotionIdle_idles {s : State} {p : PageRef} {c : Conv} {e : Entry} {d : Tier} (h0 : s.pwr.off = false)
    (t : Stamp) (h : Demotable s p c e d) : execDemotionIdle t p s = .next
      (if ∀ x ∈ e :: demoteWith c e d, x.lastRead + idleTicks s x.tier ≤ t.tick then demote (s.at t) p
        else s.at t) := by
  unfold execDemotionIdle
  rw [run_on h0]
  simp only [(h.at t).conv, (h.at t).page, h.below, Option.getD_some, List.all_eq_true, decide_eq_true_eq]
  rfl

/-! ## Pressure (R172, R262) -/

section
variable {s : State} {b : Nat} {tier : Tier} {free : Nat} (t : Stamp) (h1 : free < regF s 0x30010 9 0)
  (h2 : 0 < (regF s 0x30010 9 0 - free) * tierRoom s b tier / 1000)
include h1 h2

/-- The page read least recently is the first to go down. -/
theorem pressure_takes_oldest {x : PageRef × Entry} {l : List (PageRef × Entry)} {m : Move}
    (hl : oldPages s b tier = x :: l) (hm : m ∈ (demote s x.1).tier.ready) :
    m ∈ (pressure t b tier free s).tier.ready := by
  simp only [pressure, Nat.not_le.mpr h1, if_false, hl, List.foldl_cons, Nat.not_le.mpr h2]
  refine List.foldlRecOn (motive := fun a : State × Nat => m ∈ a.1.tier.ready) _ _
    (List.foldlRecOn (motive := fun a : State × Nat => m ∈ a.1.tier.ready) _ _ ?first ?pages) ?replicas
  case first =>
    obtain ⟨d, k, h⟩ := demote_joins s x.1
    split
    · rename_i hlen
      have hk : k = [] := by simpa [h.tier] using hlen
      simpa [h.tier, hk] using hm
    · exact hm
  case pages =>
    intro a ha y _
    split
    · exact ha
    · split
      · exact ha
      · obtain ⟨d, k, h⟩ := demote_joins a.1 y.1
        exact h.mem ha
  case replicas =>
    intro a ha y _
    split
    · exact ha
    · exact ha

/-- Where no page is left to go down, a replica goes, at the commit (R172). -/
theorem pressure_drops_replica {x : PageRef × Entry} {l : List (PageRef × Entry)} (ho : oldPages s b tier = [])
    (hl : replicasHeld s b tier = x :: l) : (t, Notice.dropReplica x.1) ∈ (pressure t b tier free s).haul.notices := by
  simp only [pressure, Nat.not_le.mpr h1, if_false, ho, hl, List.foldl_nil, List.foldl_cons, Nat.not_le.mpr h2]
  refine List.foldlRecOn (motive := fun a : State × Nat => (t, Notice.dropReplica x.1) ∈ a.1.haul.notices) _ _
    (by simp [deferTo]) ?_
  intro a ha y _
  split
  · exact ha
  · exact List.mem_append_left _ ha

end

/-- With room enough free nothing goes. -/
theorem pressure_idles {s : State} {b : Nat} {tier : Tier} {free : Nat} (t : Stamp) (h : regF s 0x30010 9 0 ≤ free) :
    pressure t b tier free s = s :=
  if_pos h

end Sys2Proof.Machine
end

section
/-! SUPPORT. Flash (R254, R258, R266 to R268, R271 to R274): reads that land, blocks that fail or are rewritten, and the
conversations listed again after power-up. -/

namespace Sys2Proof.Machine

/-! ## Blocks (R267, R271) -/

/-- A block is read off the tiers alone. -/
theorem fblock_of_blocks {s u : State} (h : u.tier.blocks = s.tier.blocks) (i : Nat) : fblock u i = fblock s i := by
  rw [fblock, h, fblock]

/-- A block retired takes no read off the list. -/
theorem retireBlock_reads (s : State) (i : Nat) : (retireBlock s i).tier.reads = s.tier.reads := by
  unfold retireBlock
  dsimp only
  split
  · rfl
  · split <;> simp [setFBlock]

theorem retireBlock_work (s : State) (i : Nat) : (retireBlock s i).work = s.work :=
  (retireBlock_frame (pm := [.tier, .fault, .out]) (.refl s) (by decide) (by decide) (by decide)).work

/-- A block in use is retired once, and counted. -/
theorem retireBlock_retires {s : State} {i : Nat} (h : (fblock s i).retired = false) :
    (fblock (retireBlock s i) i).retired = true ∧ (retireBlock s i).tier.badBlocks = s.tier.badBlocks + 1 := by
  simp only [retireBlock, h, Bool.false_eq_true, if_false]
  split <;> simp [fblock, setFBlock]

/-- A block that fails is logged, then retired (R267). -/
theorem retireBlock_logged {s : State} {i : Nat} (cause : Nat) (h : (fblock s i).retired = false) :
    (fblock (retireBlock (logErr s .flash cause (u := ⟨.flash, 0⟩) (d0 := i)) i) i).retired = true ∧
      (retireBlock (logErr s .flash cause (u := ⟨.flash, 0⟩) (d0 := i)) i).tier.badBlocks = s.tier.badBlocks + 1 := by
  have hlog : fblock (logErr s .flash cause (u := ⟨.flash, 0⟩) (d0 := i)) i = fblock s i :=
    fblock_of_blocks (congrArg TierSt.blocks (logErr_tier ..)) i
  obtain ⟨h1, h2⟩ := retireBlock_retires (hlog ▸ h)
  exact ⟨h1, h2.trans (by rw [logErr_tier])⟩

/-- The life alert leaves the blocks and their units as they are. -/
theorem checkLife_tier (s : State) : ∃ a, (checkLife s).tier = { s.tier with lifeAlert := a } := by
  unfold checkLife
  split
  · exact ⟨true, by simp⟩
  · exact ⟨s.tier.lifeAlert, rfl⟩

/-- A duty leaves block `i`, once `valid` units of it are rewritten, erased and empty. -/
def dutyDone (s u : State) (i : Nat) : Prop :=
  (fblock u i).erases = (fblock s i).erases + 1 ∧ (fblock u i).reads = 0 ∧ (fblock u i).valid = 0 ∧
    u.tier.unitsDuty = s.tier.unitsDuty + (fblock s i).valid

theorem relocate_tier (s : State) (i : Nat) : ∃ a, (relocate s i).tier = { s.tier with
    blocks := tput s.tier.blocks i { fblock s i with
      erases := (fblock s i).erases + 1, reads := 0, corrected := 0, valid := 0, written := 0 }
    unitsDuty := s.tier.unitsDuty + (fblock s i).valid, lifeAlert := a } := by
  unfold relocate
  exact checkLife_tier _

theorem relocate_dutyDone (s : State) (i : Nat) : dutyDone s (relocate s i) i := by
  obtain ⟨a, ha⟩ := relocate_tier s i
  have hb : fblock (relocate s i) i = { fblock s i with
      erases := (fblock s i).erases + 1, reads := 0, corrected := 0, valid := 0, written := 0 } := by
    rw [fblock, ha]
    exact tgetD_tput_self ..
  unfold dutyDone
  rw [hb, ha]
  exact ⟨rfl, rfl, rfl, rfl⟩

/-- GARBAGE_COLLECT is such a duty: the room it finds free is no part of a block (R267, R268). -/
theorem execGarbageCollect_dutyDone {s : State} (h0 : s.pwr.off = false) (t : Stamp) (i : Nat)
    (hr : flashRuns s = true) : ∃ u, execGarbageCollect t i s = .next u ∧ dutyDone s u i := by
  unfold execGarbageCollect
  rw [run_on h0]
  refine ⟨_, congrArg _ (if_pos hr), ?_⟩
  exact relocate_dutyDone (s.at t) i

/-- Below 1 % of its working room flash holds its writes, and logs it (R268). -/
theorem execFlashWriteHold_holds {s : State} (h0 : s.pwr.off = false) (t : Stamp) (hr : flashRuns s = true) :
    ∃ u, execFlashWriteHold t s = .next u ∧ u.tier.hold = true ∧ u.fault.prod = (s.fault.prod + 1) % 2 ^ 32 := by
  unfold execFlashWriteHold
  rw [run_on h0]
  exact ⟨_, congrArg _ (if_pos hr), by simp, by simp⟩

/-! ## Reads (R258, R273) -/

/-- What a sound read does of its page's move: a copy under way from flash has landed, and without one the page's copy
lies in the tier that flash is read into. -/
def landRead (t : Stamp) (r : FRead) (s : State) : State :=
  if s.tier.moves.any (fun m => m.2.page == r.page && m.2.src == .flash) then
    { s with tier := { s.tier with moves := s.tier.moves.map (fun m =>
      if m.2.page = r.page ∧ m.2.src = .flash then (m.1, { m.2 with doneAt := some t }) else m) } }
  else match findPage s r.page with
    | some e =>
      if e.tier = .flash then
        let m : Move := { page := r.page, src := .flash, dst := landTier s r.bench, bench := r.bench, began := t,
                          doneAt := some t, cause := t }
        { s with tier := { s.tier with
          moves := tput s.tier.moves s.tier.nextMove m, nextMove := s.tier.nextMove + 1 } }
      else s
    | none => s

theorem landRead_reads (t : Stamp) (r : FRead) (s : State) : (landRead t r s).tier.reads = s.tier.reads := by
  unfold landRead
  split
  · rfl
  · split
    · split <;> rfl
    · rfl

/-- A page that still lies on flash has a copy that landed at the read's stamp. -/
theorem landRead_lands {s : State} {r : FRead} {e : Entry} (t : Stamp) (he : findPage s r.page = some e)
    (hf : e.tier = .flash) :
    ∃ m, m ∈ (landRead t r s).tier.moves.map (·.2) ∧ m.page = r.page ∧ m.doneAt = some t := by
  unfold landRead
  split
  · rename_i h
    obtain ⟨x, hx, hp⟩ := List.any_eq_true.mp h
    obtain ⟨h1, h2⟩ := Bool.and_eq_true_iff.mp hp
    refine ⟨{ x.2 with doneAt := some t }, ?_, beq_iff_eq.mp h1, rfl⟩
    rw [List.map_map]
    refine List.mem_map.mpr ⟨x, hx, ?_⟩
    simp only [Function.comp, beq_iff_eq.mp h1, beq_iff_eq.mp h2, and_self, if_true]
  · simp only [he, hf, if_true]
    exact ⟨_, List.mem_map_of_mem (mem_of_tget (tget_tput_self ..)), rfl, rfl⟩

/-- A sound read is counted and off the list before its page's copy lands. -/
theorem flashReadDone_lands {s : State} {i : Nat} {r : FRead} (t : Stamp) (cls : Nat)
    (hr : tget s.tier.reads i = some r) :
    ∃ v, v.work = s.work ∧ v.tier.reads = tdel s.tier.reads i ∧ flashReadDone t i cls true s = landRead t r v := by
  simp only [flashReadDone, hr, Bool.not_true, Bool.false_eq_true, if_false]
  refine ⟨_, ?_, ?_, rfl⟩
  · split <;> split <;> simp [retireBlock_work, setFBlock]
  · split <;> split <;> simp [retireBlock_reads, setFBlock]

/-- A read at its deadline is late once, and goes on (R274). -/
theorem execFlashReadDeadline_eq {s : State} {i : Nat} {r : FRead} (h0 : s.pwr.off = false) (t : Stamp)
    (hr : tget s.tier.reads i = some r) : execFlashReadDeadline t i s = .next
      (if r.late then s.at t else count { s.at t with
        tier := { s.tier with reads := tput s.tier.reads i { r with late := true } } } (0x30300 + 8 * r.bench) 1) := by
  unfold execFlashReadDeadline
  rw [run_on h0]
  simp only [State.at_tier, hr]

/-! ## Parked conversations (R272) -/

/-- Tables taken back from flash, those that are here already left alone. -/
def relistAll (l : List (Nat × Conv)) (s : State) : State :=
  l.foldl (fun s c => if (conv s c.1).isSome then s else putConv s c.2) s

/-- Each of them is here. -/
theorem relistAll_lists {l : List (Nat × Conv)} (hl : ∀ x ∈ l, x.2.key = x.1) (s : State) (k : Nat)
    (h : (conv s k).isSome = true ∨ k ∈ l.map (·.1)) : (conv (relistAll l s) k).isSome = true := by
  induction l generalizing s with
  | nil => exact h.resolve_right (by simp)
  | cons a l ih =>
    obtain ⟨ha, hl⟩ := List.forall_mem_cons.mp hl
    refine ih hl _ ?_
    rw [List.map_cons, List.mem_cons] at h
    by_cases hk : k ∈ l.map (·.1)
    · exact .inr hk
    · refine .inl ?_
      have hhere : (conv s k).isSome = true ∨ k = a.1 := h.imp_right fun h => h.resolve_right hk
      dsimp only
      split
      · rename_i hs
        exact hhere.elim id fun e => e ▸ hs
      · simp only [conv, putConv_work, tget_tput, ha]
        split
        · rfl
        · rename_i hne
          exact hhere.resolve_right (Ne.symm hne)

/-- RELIST_DONE lists every conversation that flash kept (R272). -/
theorem execRelistDone_lists {s : State} (h0 : s.pwr.off = false) (t : Stamp) (hh : hasFlash s = true)
    (hl : s.tier.relist = false) (hkeys : ∀ x ∈ s.tier.parked, x.2.key = x.1) :
    ∃ u, execRelistDone t s = .next u ∧ u.tier.relist = true ∧ u.tier.parked = [] ∧
      ∀ x ∈ s.tier.parked, (conv u x.1).isSome = true := by
  unfold execRelistDone
  rw [run_on h0]
  refine ⟨_, congrArg _ (if_pos ⟨hh, by simp [hl]⟩), rfl, rfl, fun x hx => ?_⟩
  exact relistAll_lists hkeys (s.at t) x.1 (.inr (List.mem_map_of_mem hx))

/-! ## The statement -/

/-- Settles O47: one lemma for each row, at the state in which it comes; what a row does is read off the model's own
function for it. -/
theorem pagesMoveAndFlashServes : Obligations.PagesMoveAndFlashServes := by
  refine ⟨fun s t h0 => ⟨?copies, ?durable, ?demotes, ?replica, ?room⟩,
    fun s t h0 => ⟨?read, ?deadline, fun i hh hi => ⟨?program, ?erase⟩, ?duty, fun hr => ⟨?hold, ?zq⟩, ?relist⟩⟩
  case copies =>
    refine fun i m hi => ⟨?failed, ?spans, fun hgo => ⟨?lands, fun hd ho => ⟨?waits, ?written⟩⟩⟩
    case failed => exact ⟨_, run_on h0 t _, moveCopyDone_abandons (s := s.at t) hi⟩
    case spans =>
      intro hw ht
      refine ⟨_, run_on h0 t _, ?_⟩
      rw [moveCopyDone_restarts (s := s.at t) hi hw ht]
      exact ⟨tget_tdel_self .., rfl⟩
    case lands =>
      intro hd
      refine ⟨_, run_on h0 t _, ?_⟩
      rw [moveCopyDone_stands (s := s.at t) hi hgo, if_neg hd]
      exact tget_tput_self ..
    case waits =>
      intro hwait
      refine ⟨_, run_on h0 t _, ?_⟩
      rw [moveCopyDone_stands (s := s.at t) hi hgo, if_pos hd, writeExtent_waits (s := markCopied (s.at t) i m) _ hwait]
      exact ⟨rfl, tget_tput_self ..⟩
    case written =>
      intro hall hready
      obtain ⟨w, x, h⟩ := writeExtent_writes (s := markCopied (s.at t) i m) m.bench (tget_tput_self ..)
        (by simp [extentMate, hd]) ho hall hready
      refine ⟨_, w, x, run_on h0 t _, ?_⟩
      rw [moveCopyDone_stands (s := s.at t) hi hgo, if_pos hd]
      exact h
  case durable =>
    intro w x hh hx
    refine ⟨_, (run_on h0 t _).trans (congrArg _ (if_pos hh)), ?_⟩
    rw [programDone_completes (s := s.at t) hx]
    refine ⟨tget_tdel_self .., rfl, fun i hi m hm => ?_⟩
    have hdone := tget_foldl_tmod_of_mem (f := fun m : Move => { m with doneAt := some t }) (fun _ => rfl) x.moves
      s.tier.moves i
    rw [if_pos hi, hm] at hdone
    exact hdone
  case demotes =>
    intro p c e d hc he hb hm hf hs hg
    have h : Demotable s p c e d := ⟨hc, he, hb, hm, hf, hs, hg⟩
    obtain ⟨m, hm, htaken⟩ := (h.at t).demote_takes
    refine ⟨fun hidle => ?_, ?_, fun b free l h1 h2 hl => ?_⟩
    · exact ⟨_, (execDemotionIdle_idles h0 t h).trans (congrArg _ (if_pos hidle)), m, hm, htaken⟩
    · rintro ⟨x, hx, hlt⟩
      refine (execDemotionIdle_idles h0 t h).trans (congrArg _ (if_neg fun hall => ?_))
      exact absurd (hall x hx) (Nat.not_le.mpr hlt)
    · exact ⟨_, run_on h0 t _, m, pressure_takes_oldest (s := s.at t) t h1 h2 hl hm, htaken⟩
  case replica =>
    intro b tier free x l h1 h2 ho hl
    exact ⟨_, run_on h0 t _, pressure_drops_replica (s := s.at t) t h1 h2 ho hl⟩
  case room => exact fun b tier free h => (run_on h0 t _).trans (congrArg _ (pressure_idles (s := s.at t) t h))
  case read =>
    intro i r cls e hrun hcls hr he hf
    obtain ⟨v, hwork, hreads, hland⟩ := flashReadDone_lands (s := s.at t) t cls hr
    refine ⟨_, (run_on h0 t _).trans (congrArg _ ((if_pos ⟨hrun, hcls⟩).trans hland)), ?_, ?_⟩
    · rw [landRead_reads, hreads]
      exact tget_tdel_self ..
    · exact landRead_lands t ((findPage_of_work hwork _).trans he) hf
  case deadline =>
    intro i r hr
    exact ⟨fun hl => (execFlashReadDeadline_eq h0 t hr).trans (by rw [hl]; rfl),
      fun hl => (execFlashReadDeadline_eq h0 t hr).trans (by rw [hl]; rfl)⟩
  case program => exact ⟨_, (run_on h0 t _).trans (congrArg _ (if_pos hh)), retireBlock_logged (s := s.at t) 1 hi⟩
  case erase => exact ⟨_, (run_on h0 t _).trans (congrArg _ (if_pos hh)), retireBlock_logged (s := s.at t) 2 hi⟩
  case duty =>
    rintro i c hr (rfl | rfl | rfl | rfl)
    case inr.inr.inr => exact execGarbageCollect_dutyDone h0 t i hr
    all_goals exact ⟨_, (run_on h0 t _).trans (congrArg _ (if_pos hr)), relocate_dutyDone (s.at t) i⟩
  case hold => exact execFlashWriteHold_holds h0 t hr
  case zq => exact (run_on h0 t _).trans (congrArg _ (if_pos hr))
  case relist => exact execRelistDone_lists h0 t

end Sys2Proof.Machine
end

section
/-! SUPPORT. Hauls at their source (R205, R211, R213, R215, R226): the haul out under its number, how one sets off and
is offered again, and what each answer makes of it. -/

namespace Sys2Proof.Machine

/-! ## The haul out -/

/-- An OFFER changes the haul it is for in its instant alone. -/
theorem sendOffer_srcHaul {α : Type} {f : SrcHaul → α} (hf : ∀ h t, f { h with offered := t } = f h) (s : State)
    (id : Nat) : (srcHaul (sendOffer s id) id).map f = (srcHaul s id).map f := by
  unfold sendOffer
  split
  · rfl
  · rename_i h hh
    split
    · rfl
    · rw [hh]
      simp [srcHaul, hf]

theorem sendOffer_srcHaul_other {s : State} {id j : Nat} (h : id ≠ j) : srcHaul (sendOffer s id) j = srcHaul s j := by
  unfold sendOffer
  split
  · rfl
  · split
    · rfl
    · simp [srcHaul, tget_tput_other _ _ h]

/-- The haul out that sets off, with its request: the one at work, or the suspended one (R213 step 1). -/
theorem startHaul_srcHaul {s : State} {k : Nat} {c : Conv} (hc : conv s k = some c) (p : Purpose) (dst : ModuleId)
    (dstBench : Nat) (auto evac pullAll : Bool) (cpl : Option Cpl) :
    srcHaul (startHaul s k p dst dstBench auto evac pullAll cpl) s.haul.nextId = some {
      conv := k, req := c.req.getD ((suspendedOf s k).getD 0), purpose := p, dst := dst, dstBench := dstBench,
      auto := auto, evac := evac, pullAll := pullAll, cpl := cpl, bench := c.bench } := by
  simp only [startHaul, hc]
  cases c.req <;> exact tget_tput_self ..

/-! ## A pull (R211) -/

/-- The home of an idle conversation that is not striped freezes it for the haul a puller asks for. -/
theorem haulRequest_pulls {s : State} {m : HaulMsg} {c : Conv} (t : Stamp) (hm : hmOk m 7 = true)
    (hk : inKeep s = false) (hp : (purposeOf (hmPurpose m)).isSome = true) (hc : conv s (hmConv m) = some c)
    (hh : c.home = true) (hf : c.frozen = none) (ha : c.state ≠ .active) (hs : c.stripe = none) :
    frozenFor (haulRequest t m s) (hmConv m) = some s.haul.nextId ∧
      (srcHaul (haulRequest t m s) s.haul.nextId).map (fun h => (h.conv, h.purpose, h.dst, h.dstBench)) =
        some (hmConv m, .pull, hmSrc m, hmBench m) := by
  obtain ⟨p, hp⟩ := Option.isSome_iff_exists.mp hp
  have hc' : conv (s.at t) (hmConv m) = some c := hc
  have hstart : ∃ all, haulRequest t m s =
      sendOffer (startHaul (s.at t) (hmConv m) .pull (hmSrc m) (hmBench m) false false all none) (s.at t).haul.nextId := by
    simp only [haulRequest, hm, hk, hp, hc, hh, hf, hs, beq_false_of_ne ha]
    exact ⟨_, rfl⟩
  obtain ⟨all, heq⟩ := hstart
  rw [heq]
  constructor
  · rw [frozenFor_of_work (sendOffer_work ..)]
    exact (startHaul_freezes hc' ..).2
  · refine (sendOffer_srcHaul (fun _ _ => rfl) _ _).trans ?_
    rw [startHaul_srcHaul hc']
    rfl

/-! ## Answers (R213, R215) -/

section
variable {s : State} {m : HaulMsg} {h : SrcHaul} (hs : srcHaul s (hmId m) = some h) (ha : h.aborted = false)
  (he : h.ended = none)
include hs ha he

/-- An ACCEPT is answered with the log, and after it the sampler state of a request, if there is one. -/
theorem haulAccept_eq {c : Conv} (hm : hmOk m 1 = true) (hc : conv s h.conv = some c) : ∃ v hdr w,
    w = send v h.dst (some h.bench) (.haul ⟨hdr, .data (.log (c.segs.map segMsg))⟩) ∧
      (haulAccept m s = w ∨ ∃ x, haulAccept m s = send w h.dst (some h.bench) x) := by
  unfold haulAccept
  simp -zeta only [hm, hs, ha, he, hc, Bool.not_true, Bool.false_or, Option.isSome_none, Bool.false_eq_true, if_false]
  cases samplerOf s h with
  | none => exact ⟨_, _, _, rfl, .inl rfl⟩
  | some r => exact ⟨_, _, _, rfl, .inr ⟨_, rfl⟩⟩

theorem haulAccept_sendsLog {c : Conv} (hm : hmOk m 1 = true) (hc : conv s h.conv = some c) : ∃ hdr,
    .send h.dst (some h.bench) (.haul ⟨hdr, .data (.log (c.segs.map segMsg))⟩) ∈ (haulAccept m s).out := by
  obtain ⟨v, hdr, w, rfl, h | ⟨x, h⟩⟩ := haulAccept_eq hs ha he hm hc <;> exact ⟨hdr, by simp [h]⟩

/-- A refusal for any cause but a damaged block ends the haul with that status, at the refusal's stamp. -/
theorem haulRefuse_ends (reject : State → PageRef → State) (t : Stamp) (hm : hmOk m 2 = true) (hc : h.conv = hmConv m)
    (hself : hmSrc m = s.fab.self) (hst : statusOf (hmStatus m) ≠ .blockCorrupt) :
    srcHaul (haulRefuse reject t m s) (hmId m) = some { h with ended := some (t, statusOf (hmStatus m)) } := by
  simp only [haulRefuse, hm, hs, ha, he, hc, hself, hst]
  exact tget_tput_self ..

/-- An ACK moves the home unless an end stamped before it is pending (R226). -/
theorem haulAck_eq (t : Stamp) (dst : ModuleId) (hm : hmOk m 4 = true) (hk : inKeep s = false) : haulAck t m dst s =
    if endsPending s h t then send s h.dst none (.haul (reply m 6 0 .none)) else homeMoves s (hmId m) h t := by
  simp only [haulAck, hm, hk, hs, ha, he]
  rfl

theorem haulAck_aborts (t : Stamp) (dst : ModuleId) (hm : hmOk m 4 = true) (hk : inKeep s = false)
    (hend : endsPending s h t = true) : srcHaul (haulAck t m dst s) (hmId m) = some h ∧
      .send h.dst none (.haul (reply m 6 0 .none)) ∈ (haulAck t m dst s).out := by
  rw [haulAck_eq hs ha he t dst hm hk, if_pos hend, srcHaul, send_haul, send_out]
  exact ⟨hs, List.mem_append_right _ (List.mem_singleton_self _)⟩

end

/-- A REFUSE that names no haul of this module refuses the pulls that wait for its conversation. -/
theorem haulRefuse_pulls {s : State} {m : HaulMsg} (reject : State → PageRef → State) (t : Stamp) (hm : hmOk m 2 = true)
    (hs : srcHaul s (hmId m) = none) : haulRefuse reject t m s = { s with
      haul := { s.haul with pulls := s.haul.pulls.map (fun q =>
        if q.conv = hmConv m ∧ !q.effective then { q with refusedBy := some (t, statusOf (hmStatus m)) } else q) } } := by
  simp only [haulRefuse, hm, hs]
  rfl

/-! ## The home moves (R213 step 7) -/

theorem putConv_convs (s : State) (c : Conv) : (putConv s c).work.convs = tput s.work.convs c.key c := rfl

/-- A home that moves ends its haul at the ACK's stamp, sends FREED with that stamp, and leaves here no table of the
conversation or a holder's. -/
theorem homeMoves_eq {s : State} {h : SrcHaul} {c : Conv} (id : Nat) (t : Stamp) (hc : conv s h.conv = some c) :
    ∃ v hdr, homeMoves s id h t = send v h.dst (some c.bench) (.haul ⟨hdr, .freed t⟩) ∧
      srcHaul v id = some { h with ended := some (t, .ok) } ∧
      (v.work.convs = tdel s.work.convs h.conv ∨
        ∃ x : Conv, x.home = false ∧ v.work.convs = tput s.work.convs c.key x) := by
  have hgone (l : List Entry) : (l.foldl (fun s e => forgetPage s (entryPage e h.conv)) s).work = s.work :=
    foldl_keeps (·.work) (fun s _ => (forgetPage_frame (pm := [.bar, .benches, .tier]) (.refl s) (by decide) (by decide)
      (by decide)).work) l s
  unfold homeMoves
  simp -zeta only [hc]
  refine ⟨_, _, rfl, tget_tput_self .., ?_⟩
  by_cases hk : (c.entries.filter (fun e => isLocal s e && e.state != .replica && !carries s h e)).isEmpty = true
  · left
    dsimp only [freeAutos, setBench, count]
    rw [if_pos hk]
    exact congrArg (tdel ·.convs h.conv) (hgone _)
  · right
    dsimp only [freeAutos, setBench, count]
    rw [if_neg hk]
    refine ⟨_, ?_, by rw [putConv_convs, hgone]⟩
    rfl

/-- Where the home moves to another place the conversation is at home here no more. -/
theorem homeMoves_leaves {s : State} {h : SrcHaul} {c : Conv} (id : Nat) (t : Stamp) (hc : conv s h.conv = some c)
    (hk : c.key = h.conv) : convHome (homeMoves s id h t) h.conv = none := by
  obtain ⟨v, hdr, heq, -, hconvs | ⟨x, hx, hconvs⟩⟩ := homeMoves_eq id t hc
  · simp [heq, convHome, conv, hconvs]
  · simp [heq, convHome, conv, hconvs, hk, hx]

theorem haulAck_moves {s : State} {m : HaulMsg} {h : SrcHaul} {c : Conv} (hs : srcHaul s (hmId m) = some h)
    (ha : h.aborted = false) (he : h.ended = none) (t : Stamp) (dst : ModuleId) (hm : hmOk m 4 = true)
    (hk : inKeep s = false) (hend : endsPending s h t = false) (hc : conv s h.conv = some c) (hkey : c.key = h.conv) :
    ∃ hdr, srcHaul (haulAck t m dst s) (hmId m) = some { h with ended := some (t, .ok) } ∧
      convHome (haulAck t m dst s) h.conv = none ∧
      .send h.dst (some c.bench) (.haul ⟨hdr, .freed t⟩) ∈ (haulAck t m dst s).out := by
  obtain ⟨v, hdr, heq, hout, -⟩ := homeMoves_eq (hmId m) t hc
  have hack : haulAck t m dst s = homeMoves s (hmId m) h t :=
    (haulAck_eq hs ha he t dst hm hk).trans (if_neg (ne_true_of_eq_false hend))
  rw [hack]
  refine ⟨hdr, ?_, homeMoves_leaves _ t hc hkey, by simp [heq]⟩
  rw [heq, srcHaul, send_haul]
  exact hout

/-! ## A haul that times out (R215) -/

section
variable {s : State} {i : Nat} {h : SrcHaul} (t : Stamp) (hs : srcHaul s i = some h)
include hs

/-- While tries remain the haul goes on under the next number, for which its conversation is frozen. -/
theorem retryHaul_again {c : Conv} (st : Status) (hc : conv s h.conv = some c)
    (hn : h.tries + 1 < bnF s h.bench 0xA8 19 16) (hi : i ≠ s.haul.nextId) :
    srcHaul (retryHaul s i st t) i = none ∧ frozenFor (retryHaul s i st t) h.conv = some s.haul.nextId ∧
      (srcHaul (retryHaul s i st t) s.haul.nextId).map (·.tries) = some (h.tries + 1) := by
  have hc' : tget s.work.convs h.conv = some c := hc
  simp only [retryHaul, hs, hn, if_true]
  rw [sendOffer_srcHaul_other (Ne.symm hi), sendOffer_srcHaul (fun _ _ => rfl), frozenFor_of_work (sendOffer_work ..)]
  simp [srcHaul, frozenFor, conv, tget_tput_other _ _ (Ne.symm hi), tget_tmod, hc']

/-- Without a try left the haul ends with the status given, which the log tells. -/
theorem retryHaul_ends (st : Status) (hn : bnF s h.bench 0xA8 19 16 ≤ h.tries + 1) :
    (retryHaul s i st t).fault.prod = (s.fault.prod + 1) % 2 ^ 32 ∧
      srcHaul (retryHaul s i st t) i = some { h with ended := some (t, st), aborted := true } := by
  simp only [retryHaul, hs, Nat.not_lt.mpr hn, if_false]
  exact ⟨logErr_prod .., tget_tput_self ..⟩

variable (he : h.ended = none) (ha : h.aborted = false)
include he ha

/-- A haul on its way is withdrawn and tried again, in a state that differs in its outputs and budgets alone. -/
theorem haulTimeout_retries : ∃ o sp, haulTimeout t i s = retryHaul { s with out := o, spent := sp } i .noCapacity t := by
  have hsend : ∃ o sp, send s h.dst (some h.bench) (.haul ⟨outHdr s i h 6, .none⟩) = { s with out := o, spent := sp } := by
    unfold send
    dsimp only
    split
    · exact ⟨_, s.spent, rfl⟩
    · exact ⟨_, _, rfl⟩
  obtain ⟨o, sp, hsend⟩ := hsend
  refine ⟨o, sp, ?_⟩
  simp only [haulTimeout, hs, he, ha, hsend]
  rfl

theorem haulTimeout_again {c : Conv} (hc : conv s h.conv = some c) (hn : h.tries + 1 < bnF s h.bench 0xA8 19 16)
    (hi : i ≠ s.haul.nextId) : srcHaul (haulTimeout t i s) i = none ∧
      frozenFor (haulTimeout t i s) h.conv = some s.haul.nextId ∧
      (srcHaul (haulTimeout t i s) s.haul.nextId).map (·.tries) = some (h.tries + 1) := by
  obtain ⟨o, sp, heq⟩ := haulTimeout_retries t hs he ha
  rw [heq]
  exact retryHaul_again (s := { s with out := o, spent := sp }) t hs _ hc hn hi

theorem haulTimeout_ends (hn : bnF s h.bench 0xA8 19 16 ≤ h.tries + 1) :
    (haulTimeout t i s).fault.prod = (s.fault.prod + 1) % 2 ^ 32 ∧
      srcHaul (haulTimeout t i s) i = some { h with ended := some (t, .noCapacity), aborted := true } := by
  obtain ⟨o, sp, heq⟩ := haulTimeout_retries t hs he ha
  rw [heq]
  exact retryHaul_ends (s := { s with out := o, spent := sp }) t hs _ hn

end

/-! ## The statement -/

/-- Settles O44. The state in which a message acts differs from the one it met in its stamp and the wake flag alone;
each clause is then what one function of the source makes of the haul out. -/
theorem haulSourcesFreezeAndMove : Obligations.HaulSourcesFreezeAndMove := by
  intro s t m h0
  obtain ⟨w, hw⟩ := noteLink_eq (s.at t)
  have hrun (f : State → State) : runLink t f s = .next (f { s.at t with pwr := w }) := hw ▸ runLink_on h0 t f
  refine ⟨fun c hm hk hp hc hh hf ha hs => ?pull,
    fun h hs ha he => ⟨fun c hm hc => ?accept, fun hm hc hself hst => ?refuse, fun c hm hk hend hc hkey => ?ack,
      fun hm hk hend => ?late⟩,
    fun i h c hs he ha hc => ⟨fun hn hi => ?again, fun hn => ?lapse⟩, fun hm hs => ?unknown⟩
  case pull => exact ⟨_, hrun _, haulRequest_pulls (s := { s.at t with pwr := w }) t hm hk hp hc hh hf ha hs⟩
  case accept =>
    obtain ⟨hdr, hlog⟩ := haulAccept_sendsLog (s := { s.at t with pwr := w }) hs ha he hm hc
    exact ⟨_, hdr, hrun _, hlog⟩
  case refuse => exact ⟨_, hrun _, haulRefuse_ends (s := { s.at t with pwr := w }) hs ha he _ t hm hc hself hst⟩
  case ack =>
    obtain ⟨hdr, hmoved⟩ := haulAck_moves (s := { s.at t with pwr := w }) hs ha he t _ hm hk hend hc hkey
    exact ⟨_, hdr, hrun _, hmoved⟩
  case late => exact ⟨_, hrun _, haulAck_aborts (s := { s.at t with pwr := w }) hs ha he t _ hm hk hend⟩
  case again => exact ⟨_, run_on h0 t _, haulTimeout_again (s := s.at t) t hs he ha hc hn hi⟩
  case lapse => exact ⟨_, run_on h0 t _, haulTimeout_ends (s := s.at t) t hs he ha hn⟩
  case unknown =>
    rw [hw]
    exact (hrun _).trans (congrArg _ (haulRefuse_pulls (s := { s.at t with pwr := w }) _ t hm hs))

end Sys2Proof.Machine
end

section
/-! SUPPORT. The home's guard of its conversations (R217, R218, R220): the checkpoints it sends, the acknowledgements it
keeps, the segments it sends again, and how a conversation goes on without a keeper. -/

namespace Sys2Proof.Machine

/-! ## Checkpoints (R220) -/

section
variable {s : State} {k : Nat} {r : Req} (hr : req s k = some r)
include hr

/-- At its tick a live request under bounded loss has its checkpoint sent, if that commit has not sent one. -/
theorem execCheckpointSend_sends {c : Conv} {n : Nat} (t : Stamp) (h0 : s.pwr.off = false) (hc : conv s r.conv = some c)
    (hl : reqLive r.state = true) (hb : bounded s r.bench = true) (hn : n = commitOf s t)
    (hat : n % ckptK s r.bench = r.key % ckptK s r.bench) (ht : r.ckptTick ≠ some n) (hh : c.home = true) :
    execCheckpointSend t k s = .next (send (chargePages (putReq (s.at t) { r with ckptTick := some n }) c.bench
      ((ckptConv c).entries.filter isOwn)) c.keeper (some c.bench) (.checkpoint r (ckptConv c) n)) := by
  have hr' : req (s.at t) k = some r := hr
  have hc' : conv (s.at t) r.conv = some c := hc
  have hdue : (reqLive r.state && bounded (s.at t) r.bench && n % ckptK (s.at t) r.bench == r.key % ckptK (s.at t) r.bench &&
      r.ckptTick != some n && c.home) = true := by
    have hb' : bounded (s.at t) r.bench = true := hb
    have hat' : n % ckptK (s.at t) r.bench = r.key % ckptK (s.at t) r.bench := hat
    simp [hl, hb', hat', ht, hh]
  unfold execCheckpointSend
  rw [run_on h0, show commitOf (s.at t) t = n from hn.symm]
  simp only [sendCheckpoint, hr', hc', hdue, if_true]

/-- A checkpoint not acknowledged is counted late. -/
theorem execCheckpointLate_counts {n : Nat} (t : Stamp) (h0 : s.pwr.off = false) (hn : r.ckptTick = some n)
    (ha : r.ckptAcked ≠ some n) : execCheckpointLate t k s = .next (count (s.at t) (bn r.bench 0x4B8) 1) := by
  have hr' : req (s.at t) k = some r := hr
  unfold execCheckpointLate
  rw [run_on h0]
  simp [hr', hn, ha.symm]

end

/-! ## Acknowledgements (R217, R220) -/

theorem noteLink_work (s : State) : (noteLink s).work = s.work :=
  (noteLink_frame (pm := [.pwr]) (.refl s) (by decide)).work

theorem req_modReq_self (s : State) (k : Nat) (f : Req → Req) : req (modReq s k f) k = (req s k).map f := by
  simp [req, modReq, tget_tmod]

theorem conv_modConv_self (s : State) (k : Nat) (f : Conv → Conv) : conv (modConv s k f) k = (conv s k).map f := by
  simp [conv, modConv, tget_tmod]

/-- The newest acknowledgement of a checkpoint is kept. -/
theorem execCheckpointAck_keeps {s : State} {k : Nat} {r : Req} (t : Stamp) (n : Nat) (h0 : s.pwr.off = false)
    (hr : req s k = some r) : ∃ u, execCheckpointAck t k n s = .next u ∧
      (req u k).map (·.ckptAcked) = some (some (max n (r.ckptAcked.getD 0))) := by
  unfold execCheckpointAck
  rw [runLink_on h0]
  refine ⟨_, rfl, ?_⟩
  have hr' : req (noteLink (s.at t)) k = some r := by rwa [req, noteLink_work]
  rw [req_modReq_self, hr']
  rfl

/-- An acknowledgement covers every segment up to its own, and none that is not there. -/
theorem execSegmentAck_keeps {s : State} {k : Nat} {c : Conv} (t : Stamp) (upto : Nat) (h0 : s.pwr.off = false)
    (hc : conv s k = some c) : ∃ u, execSegmentAck t k upto s = .next u ∧
      (conv u k).map (·.acked) = some (max c.acked (min upto c.nextSeq)) := by
  unfold execSegmentAck
  rw [runLink_on h0]
  refine ⟨_, rfl, ?_⟩
  have hc' : conv (noteLink (s.at t)) k = some c := by rwa [conv, noteLink_work]
  rw [conv_modConv_self, hc']
  rfl

theorem foldl_send_out {α : Type} (l : List α) (s : State) (d : ModuleId) (b : Option Nat) (m : α → Msg) :
    (l.foldl (fun s x => send s d b (m x)) s).out = s.out ++ l.map (fun x => .send d b (m x)) := by
  induction l generalizing s with
  | nil => simp
  | cons a l ih => simp [ih]

/-- Every segment no acknowledgement covers goes to the keeper again. -/
theorem execSegmentResend_resends {s : State} {k : Nat} {c : Conv} (t : Stamp) (h0 : s.pwr.off = false)
    (hc : conv s k = some c) (hh : c.home = true) (hg : c.guarded = true) : ∃ u, execSegmentResend t k s = .next u ∧
      u.out = s.out ++ (c.segs.filter (fun g => decide (c.acked ≤ g.seq))).map
        (fun g => .send c.keeper (some c.bench) (.segment (segMsg g))) := by
  have hc' : conv (s.at t) k = some c := hc
  unfold execSegmentResend
  rw [run_on h0]
  refine ⟨_, rfl, ?_⟩
  simp only [hc', hh, hg]
  exact foldl_send_out ..

/-! ## Without a keeper (R218) -/

/-- A conversation of this table runs on without protection. -/
def unguarded (s : State) (k : Nat) : Prop := (conv s k).map (·.guarded) = some false

theorem conv_logErr (s : State) (c : ErrClass) (a b : Nat) (u : UnitId) (d0 d1 k : Nat) :
    conv (logErr s c a b u d0 d1) k = conv s k := by
  unfold conv
  rw [logErr_work]

/-- What a home that gives its keeper up leaves: the conversation without protection, and one entry in the log. -/
theorem unguard_home {s : State} {k : Nat} {c : Conv} (hc : conv s k = some c) (hk : c.key = k) (hh : c.home = true)
    (hg : c.guarded = true) : unguarded (unguard s k) k ∧
      (unguard s k).fault.prod = (s.fault.prod + 1) % 2 ^ 32 := by
  simp only [unguard, unguarded, hc, hh, hg]
  refine ⟨?_, logErr_prod ..⟩
  rw [Bool.and_self, if_pos rfl, conv_logErr]
  simp [conv, putConv, hk]

/-- Giving a keeper up writes only tables without protection: any other conversation is as before, or without it. -/
theorem unguard_conv (s : State) (j k : Nat) : conv (unguard s j) k = conv s k ∨ unguarded (unguard s j) k := by
  unfold unguard
  split
  · rename_i x hx
    split
    · unfold unguarded
      rw [conv_logErr]
      by_cases hk : x.key = k
      · exact .inr (by simp [conv, putConv, hk])
      · exact .inl (tget_tput_other _ _ hk)
    · exact .inl rfl
  · exact .inl rfl

/-- Where conversations are given up one after another, each of them runs on without protection at the end. -/
theorem foldl_unguard {k : Nat} {c : Conv} (hk : c.key = k) (hh : c.home = true) (hg : c.guarded = true)
    (l : List (Nat × Conv)) (s : State) (h : conv s k = some c ∧ k ∈ l.map (·.1) ∨ unguarded s k) :
    unguarded (l.foldl (fun s c => unguard s c.1) s) k := by
  induction l generalizing s with
  | nil => simpa using h
  | cons a l ih =>
    refine ih _ ?_
    rcases unguard_conv s a.1 k with hsame | hun
    · rcases h with ⟨hc, hmem⟩ | hun
      · rcases List.mem_cons.mp hmem with ha | hmem
        · exact .inr (ha ▸ (unguard_home hc hk hh hg).1)
        · exact .inl ⟨hsame.trans hc, hmem⟩
      · exact .inr (by rwa [unguarded, hsame])
    · exact .inr hun

section
variable {s : State} {k : Nat} {c : Conv} (t : Stamp) (h0 : s.pwr.off = false) (hc : conv s k = some c) (hk : c.key = k)
  (hh : c.home = true) (hg : c.guarded = true)
include h0 hc hk hh hg

theorem execKeeperRefuse_unguards : ∃ u, execKeeperRefuse t k s = .next u ∧ unguarded u k ∧
    u.fault.prod = (s.fault.prod + 1) % 2 ^ 32 := by
  obtain ⟨w, hw⟩ := noteLink_eq (s.at t)
  unfold execKeeperRefuse
  rw [runLink_on h0, hw]
  exact ⟨_, rfl, unguard_home (s := { s.at t with pwr := w }) hc hk hh hg⟩

theorem execKeeperUnreachable_unguards : ∃ u, execKeeperUnreachable t c.keeper s = .next u ∧ unguarded u k := by
  unfold execKeeperUnreachable
  rw [run_on h0]
  refine ⟨_, rfl, foldl_unguard hk hh hg _ (s.at t) (.inl ⟨hc, ?_⟩)⟩
  exact List.mem_map.mpr ⟨(k, c), List.mem_filter.mpr ⟨mem_of_tget hc, by simp⟩, rfl⟩

end

/-! ## The statement -/

/-- Settles O42. -/
theorem homesGuardTheirConversations : Obligations.HomesGuardTheirConversations := by
  intro s t k r c h0 hr hk hc hck
  refine ⟨fun hl hb hn ht hh => execCheckpointSend_sends hr t h0 hc hl hb rfl hn ht hh,
    fun n hn ha => execCheckpointLate_counts hr t h0 hn ha, fun n => execCheckpointAck_keeps t n h0 hr,
    fun upto => execSegmentAck_keeps t upto h0 hc,
    fun hh hg => ⟨execSegmentResend_resends t h0 hc hh hg, execKeeperRefuse_unguards t h0 hc hck hh hg,
      execKeeperUnreachable_unguards t h0 hc hck hh hg⟩⟩

end Sys2Proof.Machine
end

section
/-! SUPPORT. What lapses at a commit: refills of tallies, entries of the done list, bindings, and the windows of goodput
and of metering (R208, R243, R247, R249, R421, R480, R483). -/

namespace Sys2Proof.Machine

/-! ## Refills (R249) -/

/-- A value put twice under a key is there once. -/
theorem tput_tput {α : Type} (t : Table α) (n : Nat) (x y : α) : tput (tput t n x) n y = tput t n y := by
  induction t with
  | nil => simp [tput]
  | cons a t ih =>
    obtain ⟨k, v⟩ := a
    rcases Nat.lt_trichotomy n k with h | rfl | h
    · simp [tput, h]
    · simp [tput]
    · simp [tput, Nat.lt_asymm h, Nat.ne_of_gt h, ih]

/-- A tally as the refill of the window that starts at tick k leaves it. -/
def refilledAt (k : Nat) (x : Tally) : Tally :=
  { x with balance := min (x.balance + x.refill) x.cap,
           refilled := x.refilled + (min (x.balance + x.refill) x.cap - x.balance), lastRefill := some k }

theorem refilledAt_notDue (k : Nat) (x : Tally) : refillDue (refilledAt k x) k = false := by
  simp [refillDue, refilledAt]

/-- A refill that is due falls, and falls once. -/
theorem refillTally_due {s : State} {id k : Nat} {x : Tally} (hx : tget s.work.tallies id = some x)
    (hd : refillDue x k = true) :
    refillTally s id k = { s with work := { s.work with tallies := tput s.work.tallies id (refilledAt k x) } } := by
  simp only [refillTally, tmod, hx, hd, if_true]
  rfl

theorem refillTally_again {s : State} {id k : Nat} {x : Tally} {l : Table Tally}
    (hl : s.work.tallies = tput l id (refilledAt k x)) : refillTally s id k = s := by
  have hsame : tmod s.work.tallies id (fun t => if refillDue t k then refilledAt k t else t) = s.work.tallies := by
    rw [hl, tmod, tget_tput_self]
    simp [refilledAt_notDue, tput_tput]
  exact congrArg (fun l => { s with work := { s.work with tallies := l } }) hsame

/-! ## The done list and the bindings (R208, R243, R247) -/

/-- A key whose time on the done list is over leaves it with the final record that waits. -/
theorem lapseDone_lapses {s : State} {n k : Nat}
    (h : (s.work.done.any (fun d => d.req == k && decide (d.tick + 3000 ≤ n))) = true) :
    (lapseDone s n k).work.done = s.work.done.filter (fun d => !(d.req == k && decide (d.tick + 3000 ≤ n))) ∧
      (lapseDone s n k).work.finals = s.work.finals.filter (fun w => w.req != k) := by
  have hcount (l : List FinalWait) (u : State) : (l.foldl (fun s w => count s (bn w.bench 0x4F8) 1) u).work = u.work := by
    refine foldl_keeps (·.work) (fun u w => ?_) l u
    exact count_work ..
  simp only [lapseDone, h, if_true, hcount]
  exact ⟨trivial, trivial⟩

/-- A binding whose key never became live goes when its time is over. -/
theorem lapseBinding_lapses {s : State} {n k : Nat} {x : Binding} (hx : bindOf s k = some x) (hs : x.seen = false)
    (hr : ∀ r, req s k = some r → reqLive r.state = false) (hn : x.tick + 3000 ≤ n) (hd : doneOf s k = none) :
    lapseBinding s n k = { s with work := { s.work with binds := tdel s.work.binds k } } := by
  cases hk : req s k with
  | none => simp [lapseBinding, hx, hs, hk, hn, hd]
  | some r => simp [lapseBinding, hx, hs, hk, hr r hk, hn, hd]

/-! ## Goodput (R421) -/

/-- Goodput of the counts of a window in hundredths of a percent: 100% where nothing was tried (R421). -/
def goodputOf (x : Bench) : Nat :=
  if x.progress + x.recovery + x.dropped = 0 then 10000
  else 10000 * (x.progress - x.lost) / (x.progress + x.recovery + x.dropped)

/-- A bench as the close of its goodput window leaves it: the window of number w, whose last tick is n. -/
def windowClosed (n w : Nat) (x : Bench) : Bench :=
  { x with goodput := goodputOf x, goodputWin := w, goodputEnd := some n,
           progress := 0, recovery := 0, dropped := 0, lost := 0 }

/-- A goodput window that ends is closed, with its counts set back. -/
theorem bench_closeGoodput {s : State} {n b : Nat} (hw : bnF s b 0x0B8 31 0 ≠ 0)
    (hn : (n + 1) % bnF s b 0x0B8 31 0 = 0) (he : (bench s b).goodputEnd ≠ some n) :
    bench (closeGoodput s n b) b = windowClosed n (n / bnF s b 0x0B8 31 0) (bench s b) := by
  have hlog (u : State) (d : Nat) : bench (logErr u .accounting 1 (b := b) (d0 := d)) b = bench u b :=
    congrArg (tgetD · b) (logErr_benches ..)
  have hopen : ¬(bnF s b 0x0B8 31 0 = 0 ∨ (n + 1) % bnF s b 0x0B8 31 0 ≠ 0 ∨ (bench s b).goodputEnd = some n) := by
    tauto
  rw [closeGoodput, if_neg hopen]
  dsimp only
  rw [apply_ite (bench · b), hlog, ite_self, bench_setBench_self]
  rfl

theorem closeGoodput_closed {s : State} {n b : Nat} (h : (bench s b).goodputEnd = some n) : closeGoodput s n b = s := by
  simp [closeGoodput, h]

/-! ## Meters (R480, R483) -/

/-- Bench b has a record to close at a commit of tick k: it was in use or has a reason waiting, and its record began. -/
def recordDue (s : State) (k b : Nat) : Bool :=
  ((openMeter s b).used || s.mgmt.closing.any (fun c => c.1 == b)) && decide ((openMeter s b).firstTick ≤ k)

theorem openMeter_setMeter (s : State) (a b : Nat) (f : OpenMeter → OpenMeter) :
    openMeter (setMeter s a f) b = if a = b then f (openMeter s a) else openMeter s b := by
  unfold openMeter setMeter tgetD
  rw [tget_tput]
  split <;> rfl

/-- What the close of bench b's record, or of none, leaves: the records of other benches, the reasons, and the number of
the next record in the ring. -/
structure Closes (s u : State) (b : Nat) (one : Bool) : Prop where
  others : ∀ j, b ≠ j → openMeter u j = openMeter s j
  closing : u.mgmt.closing = s.mgmt.closing
  prod : u.mgmt.meterProd = if one then (s.mgmt.meterProd + 1) % 2 ^ 32 else s.mgmt.meterProd

theorem Closes.refl (s : State) (b : Nat) : Closes s s b false := ⟨fun _ _ => rfl, rfl, rfl⟩

theorem Closes.setMeter {s u : State} {b : Nat} {one : Bool} (h : Closes s u b one) (f : OpenMeter → OpenMeter) :
    Closes s (setMeter u b f) b one :=
  ⟨fun j hj => by rw [openMeter_setMeter, if_neg hj, h.others j hj], h.closing, h.prod⟩

theorem putMeter_closes (s : State) (b : Nat) (r : MeterRec) : Closes s (putMeter s r) b true :=
  ⟨fun _ _ => rfl, rfl, rfl⟩

theorem closeRecord_closes (s : State) (b reason k : Nat) :
    Closes s (closeRecord s b reason k) b (decide ((openMeter s b).firstTick ≤ k)) := by
  unfold closeRecord
  dsimp only
  split
  · rename_i h
    rw [decide_eq_false (Nat.not_le.mpr h)]
    exact .refl s b
  · rename_i h
    rw [decide_eq_true (Nat.not_lt.mp h)]
    exact (putMeter_closes s b _).setMeter _

/-- Bench b's share of the close of a window: its record, with the lowest of its reasons where it was not in use. -/
def closeDue (k : Nat) (s : State) (b : Nat) : State :=
  if (openMeter s b).used then setMeter (closeRecord s b 0 k) b (fun o => { o with used := false })
  else match (s.mgmt.closing.filter (fun c => c.1 == b)).map (·.2) with
    | [] => s
    | r :: l => closeRecord s b (l.foldl min r) k

theorem closeDue_closes (s : State) (k b : Nat) : Closes s (closeDue k s b) b (recordDue s k b) := by
  unfold closeDue recordDue
  split
  · rename_i hu
    rw [hu, Bool.true_or, Bool.true_and]
    exact (closeRecord_closes ..).setMeter _
  · rename_i hu
    rw [eq_false_of_ne_true hu, Bool.false_or]
    split
    · rename_i hr
      have : s.mgmt.closing.any (fun c => c.1 == b) = false := by simpa using hr
      rw [this, Bool.false_and]
      exact .refl s b
    · rename_i r l hr
      have : s.mgmt.closing.any (fun c => c.1 == b) = true := by
        obtain ⟨c, hc, -⟩ := List.mem_map.mp (hr ▸ List.mem_cons_self : r ∈ _)
        obtain ⟨hmem, hb⟩ := List.mem_filter.mp hc
        exact List.any_eq_true.mpr ⟨c, hmem, hb⟩
      rw [this, Bool.true_and]
      exact closeRecord_closes ..

/-- The records of different benches close one after another, each on its own. -/
theorem foldl_closeDue (k : Nat) (l : List Nat) (hl : l.Nodup) (s : State) (hp : s.mgmt.meterProd < 2 ^ 32) :
    (l.foldl (closeDue k) s).mgmt.meterProd = (s.mgmt.meterProd + (l.filter (recordDue s k)).length) % 2 ^ 32 := by
  induction l generalizing s with
  | nil => exact (Nat.mod_eq_of_lt hp).symm
  | cons b l ih =>
    obtain ⟨hb, hl⟩ := List.nodup_cons.mp hl
    have h := closeDue_closes s k b
    have hrest : l.filter (recordDue (closeDue k s b) k) = l.filter (recordDue s k) :=
      List.filter_congr fun j hj => by
        rw [recordDue, recordDue, h.others j (fun e => hb (e ▸ hj)), h.closing]
    have hp' : (closeDue k s b).mgmt.meterProd < 2 ^ 32 := by
      rw [h.prod]
      split <;> omega
    rw [List.foldl_cons, ih hl _ hp', hrest, h.prod, List.filter_cons]
    split
    · rw [List.length_cons]
      omega
    · rfl

/-- Noting what benches hold closes no record. -/
theorem foldl_noteMeter (l : List Nat) (s : State) : (l.foldl noteMeter s).mgmt.closing = s.mgmt.closing ∧
    (l.foldl noteMeter s).mgmt.meterProd = s.mgmt.meterProd := by
  constructor
  · exact foldl_keeps (f := noteMeter) (·.mgmt.closing) (fun _ _ => rfl) l s
  · exact foldl_keeps (f := noteMeter) (·.mgmt.meterProd) (fun _ _ => rfl) l s

theorem closeDue_work (s : State) (k b : Nat) : (closeDue k s b).work = s.work := by
  have hclose (reason : Nat) : (closeRecord s b reason k).work = s.work :=
    (closeRecord_frame (pm := [.mgmt]) (.refl s) (by decide)).work
  unfold closeDue
  split
  · exact hclose 0
  · split
    · rfl
    · exact hclose _

/-- The close of a meter window where no tally is set: a record for every bench that has one due, and no reason waits. -/
theorem closeMeters_windowEnd {s : State} {k : Nat} (hw : windowEnds s k = true) (ht : s.work.tallies = [])
    (hp : s.mgmt.meterProd < 2 ^ 32) : (closeMeters s k).mgmt.closing = [] ∧ (closeMeters s k).mgmt.meterProd =
      (s.mgmt.meterProd + ((List.range 16).filter (recordDue s k)).length) % 2 ^ 32 := by
  have hl : (List.range 16).Nodup := List.nodup_range
  unfold closeMeters
  rw [hw]
  generalize List.range 16 = l at hl ⊢
  have hnone : (l.foldl (closeDue k) s).work.tallies = [] := by
    rw [foldl_keeps (·.work) (fun s b => closeDue_work s k b), ht]
  have hprod := foldl_closeDue k l hl s hp
  extract_lets w s1 s2
  have h1 : s1 = l.foldl (closeDue k) s := rfl
  have h2 : s2 = l.foldl (closeDue k) s := by
    simp only [s2, w, if_true, h1, hnone, List.foldl_nil]
  exact ⟨(foldl_noteMeter l _).1, (foldl_noteMeter l _).2.trans ((congrArg (·.mgmt.meterProd) h2).trans hprod)⟩

/-! ## The statement -/

/-- Settles O36. -/
theorem refillsListsAndWindowsEnd : Obligations.RefillsListsAndWindowsEnd := by
  refine ⟨fun s t h0 => ⟨fun id x hx hd => ?refill, fun k hk => ?done, fun k x hx hs hr hn hd => ?binding⟩,
    fun s t h0 => ⟨fun b hw hn he => ?goodput, fun hw ht hp => ?meter⟩⟩
  case refill =>
    have hfalls := refillTally_due (s := s.at t) hx hd
    refine ⟨refillTally (s.at t) id (t.tick + 1), run_on h0 t (refillTally · id (t.tick + 1)), ?_, ?_⟩ <;> rw [hfalls]
    · simp [refilledAt]
    · exact (run_on (by exact h0) t (refillTally · id (t.tick + 1))).trans (congrArg _ (refillTally_again rfl))
  case done => exact ⟨_, run_on h0 t (lapseDone · t.tick k), lapseDone_lapses (s := s.at t) hk⟩
  case binding =>
    exact (run_on h0 t (lapseBinding · t.tick k)).trans
      (congrArg _ (lapseBinding_lapses (s := s.at t) hx hs hr hn hd))
  case goodput =>
    have hclosed := bench_closeGoodput (s := s.at t) hw hn he
    refine ⟨closeGoodput (s.at t) t.tick b, run_on h0 t (closeGoodput · t.tick b), by rw [hclosed]; rfl,
      by rw [hclosed]; rfl, by rw [hclosed]; rfl, ?_⟩
    have hpwr : (closeGoodput (s.at t) t.tick b).pwr.off = false := by
      rwa [(closeGoodput_frame (pm := [.benches, .fault, .out]) (.refl (s.at t)) (by decide) (by decide) (by decide)).pwr]
    refine (run_on hpwr t (closeGoodput · t.tick b)).trans (congrArg _ (closeGoodput_closed ?_))
    exact congrArg Bench.goodputEnd hclosed
  case meter =>
    exact ⟨closeMeters (s.at t) t.tick, (run_on h0 t _).trans (congrArg _ (if_pos hw)),
      closeMeters_windowEnd (s := s.at t) hw ht hp⟩

end Sys2Proof.Machine
end

section
/-! SUPPORT. Changes of the tables of conversations alone: what most operations on conversations leave of the rest of the
work, of the records due, and of what is put out. -/

namespace Sys2Proof.Machine

/-- Of requests, records and streams nothing changed but the tables of conversations, and no stream record went out. -/
structure ConvsAlone (s v : State) : Prop where
  work : ∃ l, v.work = { s.work with convs := l }
  host : v.host = s.host
  plain : addsPlain s v

theorem ConvsAlone.of_eq {s v : State} (hw : v.work = s.work) (hh : v.host = s.host) (ho : v.out = s.out) :
    ConvsAlone s v :=
  ⟨⟨s.work.convs, hw⟩, hh, .of_eq ho⟩

theorem ConvsAlone.refl (s : State) : ConvsAlone s s := .of_eq rfl rfl rfl

theorem ConvsAlone.trans {s t u : State} (h1 : ConvsAlone s t) (h2 : ConvsAlone t u) : ConvsAlone s u := by
  obtain ⟨⟨l, hl⟩, hh, hp⟩ := h1
  obtain ⟨⟨k, hk⟩, gh, gp⟩ := h2
  exact ⟨⟨k, by rw [hk, hl]⟩, gh.trans hh, hp.trans gp⟩

theorem ConvsAlone.reqs {s v : State} (h : ConvsAlone s v) : v.work.reqs = s.work.reqs := by
  obtain ⟨l, hl⟩ := h.work
  rw [hl]

theorem ConvsAlone.done {s v : State} (h : ConvsAlone s v) : v.work.done = s.work.done := by
  obtain ⟨l, hl⟩ := h.work
  rw [hl]

theorem ConvsAlone.quiet {s v : State} (h : ConvsAlone s v) (hq : quiet s) : quiet v := by
  obtain ⟨l, hl⟩ := h.work
  obtain ⟨a1, a2, a3, a4, a5, a6⟩ := hq
  refine ⟨?_, ?_, ?_, ?_, by rw [h.host]; exact a5, by rw [h.reqs]; exact a6⟩ <;> rw [hl] <;> assumption

theorem ConvsAlone.foldl {α : Type} {f : State → α → State} (hf : ∀ s x, ConvsAlone s (f s x)) (l : List α) (s : State) :
    ConvsAlone s (l.foldl f s) := by
  induction l generalizing s with
  | nil => exact .refl s
  | cons a l ih => exact (hf s a).trans (ih _)

/-! ## Operations that change no more -/

theorem send_convsAlone (s : State) (d : ModuleId) (b : Option Nat) (m : Msg) : ConvsAlone s (send s d b m) :=
  ⟨⟨s.work.convs, send_work ..⟩, send_host .., send_addsPlain ..⟩

theorem modConv_convsAlone (s : State) (k : Nat) (f : Conv → Conv) : ConvsAlone s (modConv s k f) :=
  ⟨⟨_, rfl⟩, rfl, .of_eq rfl⟩

theorem putConv_convsAlone (s : State) (c : Conv) : ConvsAlone s (putConv s c) := ⟨⟨_, rfl⟩, rfl, .of_eq rfl⟩

theorem delConv_convsAlone (s : State) (k : Nat) : ConvsAlone s (delConv s k) := ⟨⟨_, rfl⟩, rfl, .of_eq rfl⟩

theorem addRefs_convsAlone (s : State) (e : Entry) (f : Nat → Nat) : ConvsAlone s (addRefs s e f) :=
  ⟨⟨_, rfl⟩, rfl, .of_eq rfl⟩

theorem abortHauls_convsAlone (s : State) (k : Nat) : ConvsAlone s (abortHauls s k) := .of_eq rfl rfl rfl

theorem forgetPage_convsAlone (s : State) (p : PageRef) : ConvsAlone s (forgetPage s p) := by
  have h : Frame [.bar, .benches, .tier] s (forgetPage s p) := forgetPage_frame (.refl s) (by decide) (by decide) (by decide)
  exact .of_eq h.work h.host h.out

theorem freeReplicas_convsAlone (s : State) (c : Conv) (e : Entry) : ConvsAlone s (freeReplicas s c e) := by
  refine .foldl (fun s r => ?_) _ s
  exact send_convsAlone ..

theorem dropPage_convsAlone (s : State) (c : Conv) (e : Entry) : ConvsAlone s (dropPage s c e) := by
  unfold dropPage
  dsimp only
  split
  · exact .refl s
  · split
    · exact send_convsAlone ..
    · split
      · exact (forgetPage_convsAlone ..).trans (freeReplicas_convsAlone ..)
      · refine ConvsAlone.trans ?_ (addRefs_convsAlone ..)
        refine ConvsAlone.trans ?_ (freeReplicas_convsAlone ..)
        split
        · exact .of_eq rfl rfl rfl
        · exact .refl s

theorem releaseConv_convsAlone (s : State) (k : Nat) : ConvsAlone s (releaseConv s k) := by
  unfold releaseConv
  split
  · exact .refl s
  · rename_i c _
    refine ConvsAlone.trans ?_ (delConv_convsAlone ..)
    have hdrop := (abortHauls_convsAlone s k).trans (.foldl (fun s e => dropPage_convsAlone s c e) c.entries _)
    split
    · exact hdrop.trans (send_convsAlone ..)
    · exact hdrop

theorem setConvState_convsAlone (s : State) (k : Nat) (st : ConvState) : ConvsAlone s (setConvState s k st) := by
  refine ⟨?_, (setConvState_frame1 s k st).host, setConvState_addsPlain s k st⟩
  cases hc : conv s k with
  | none => exact ⟨s.work.convs, by simp [setConvState, hc]⟩
  | some c =>
    rw [setConvState_work st hc]
    split
    · exact ⟨s.work.convs, rfl⟩
    · exact ⟨_, rfl⟩

end Sys2Proof.Machine
end

section
/-! SUPPORT. Conversations parked, released and offered elsewhere (R205 to R207, R210, R213, R528): what each descriptor
does with a conversation of its bench, and how a park or a haul goes on behind step 1. -/

namespace Sys2Proof.Machine

/-! ## The conversation a descriptor names -/

/-- A descriptor meets a conversation that is homed on bench b, has not gone elsewhere and is not frozen, and asks for
no read-out. -/
structure MeetsConv (s : State) (d : HostDesc) (b : Nat) (cv : Conv) : Prop where
  record : hasRecord s b = true
  stays : goneFor s (dConv d) d.stamp = none
  here : convOn s (dConv d) b = some cv
  plain : bitOf d.raw 13 = false
  thawed : cv.frozen = none

theorem convOn_some {s : State} {k b : Nat} {cv : Conv} (h : convOn s k b = some cv) :
    conv s k = some cv ∧ cv.home = true ∧ cv.bench = b := by
  unfold convOn at h
  split at h
  · rename_i c hc
    split at h
    · rename_i hb
      cases h
      exact ⟨hc, hb⟩
    · cases h
  · cases h

theorem benchFor_stays {s : State} {k b : Nat} {st : Stamp} (h : goneFor s k st = none) : benchFor s k b st = b := by
  simp [benchFor, h]

theorem readOut_plain {s : State} {c : Cpl} {d : HostDesc} {cv : Conv} (h : bitOf d.raw 13 = false) :
    readOut s c d cv = some s := by
  simp [readOut, h]

/-- A park or a haul that waits for the end of step 1. -/
def withPark (s : State) (p : ParkWait) : State :=
  { s with work := { s.work with parks := s.work.parks ++ [p] } }

section
variable {s : State} {c : Cpl} {d : HostDesc} {cv : Conv} (n : Nat) (h : MeetsConv s d c.bench cv)
include h

/-- An idle conversation is released (R207). -/
theorem applyRelease_idle (hctl : ctlOk d.raw false true true false false false false = true) (hr : cv.req = none)
    (hs : suspendedOf s (dConv d) = none) :
    applyRelease c d n s = due (releaseConv s (dConv d)) c .ok (dConv d) n := by
  simp only [applyRelease, hctl, h.record, benchFor_stays h.stays, h.here, readOut_plain h.plain, hr, hs]
  rfl

variable (hctl : ctlOk d.raw false true true false false false true = true) (hp : s.work.parks = [])
  (hlive : ∀ r, cv.req.bind (req s) = some r → parkable r.state = true) (hst : cv.state ≠ .parked)
include hctl hp hlive hst

/-- What a park makes of a conversation that may be parked: it sets off under a new haul, waits for the end of step 1
with its request, or is parked at once (R205, R206). -/
theorem applyPark_takes {away : Bool}
    (ha : away = (bitOf d.raw 9 && !(dTarget d == s.fab.self && dTargetBench d == c.bench)))
    (hrole : away = false → isCacheOrMixed (role s c.bench) = true) (hstr : away = true → cv.stripe = none) :
    applyPark c d n s =
      if away then withPark (startHaul s (dConv d) .park (dTarget d) (dTargetBench d) false false false (some c))
        { conv := dConv d, req := cv.req.getD 0, cpl := c, haul := some s.haul.nextId, order := s.host.due.length }
      else cv.req.elim (due (parkInPlace s (dConv d)) c .ok (dConv d) n)
        (fun r => withPark s { conv := dConv d, req := r, cpl := c, order := s.host.due.length }) := by
  have hgo (x : Bool) (hx : x = true) : (cv.frozen.isSome || cv.state == .parked || !x ||
      (!away && !isCacheOrMixed (role s c.bench)) || (away && cv.stripe.isSome) ||
      s.work.parks.any (fun p => p.conv == dConv d)) = false := by
    cases away with
    | false => simp [hx, h.thawed, hst, hp, hrole rfl]
    | true => simp [hx, h.thawed, hst, hp, hstr rfl]
  unfold applyPark
  simp only [hctl, h.record, benchFor_stays h.stays, h.here, ← ha, readOut_plain h.plain]
  cases hb : cv.req.bind (req s) with
  | none =>
    simp only [hgo true rfl]
    cases away <;> cases cv.req <;> rfl
  | some r =>
    simp only [hgo _ (hlive r hb)]
    cases away <;> cases cv.req <;> rfl

end

/-- A handoff of a conversation whose request generates, waits or is held sets it off (R205, R528). -/
theorem applyHandoff_takes {s : State} {c : Cpl} {d : HostDesc} {cv : Conv} {r : Req} (n : Nat)
    (h : MeetsConv s d c.bench cv) (hctl : ctlOk d.raw false true false true false false true = true)
    (hp : s.work.parks = []) (h12 : bitOf d.raw 12 = false) (h9 : bitOf d.raw 9 = true) (hst : cv.state = .active)
    (hr : cv.req.bind (req s) = some r) (hrs : r.state = .generating ∨ r.state = .tallyWait ∨ r.state = .held)
    (hrole : role s c.bench ≠ 2) (hself : dTarget d ≠ s.fab.self) (hstr : cv.stripe = none) :
    applyHandoff c d n s =
      withPark (startHaul s (dConv d) .handoff (dTarget d) (dTargetBench d) false false false (some c))
        { conv := dConv d, req := cv.req.getD 0, cpl := c, haul := some s.haul.nextId, order := s.host.due.length } := by
  have hready : (r.state == .generating || r.state == .tallyWait || r.state == .held) = true := by
    simpa [or_assoc] using hrs
  unfold applyHandoff
  simp only [hctl, h9, h.record, benchFor_stays h.stays, h.here, hst, hr, hready, h.thawed, hstr, hp,
    beq_false_of_ne hrole, beq_false_of_ne hself, newKeeper, h12]
  rfl

/-! ## Behind step 1 (R206, R380) -/

/-- A park or a haul alone behind step 1 acts on the state the descriptor left. -/
theorem hostRow_parks {o : Nat} {f : Cpl → HostDesc → Nat → State → State} {d : HostDesc} {s v : State} {p : ParkWait}
    (h0 : s.pwr.off = false) (ha : meetsCommit s d = true) (hg : gate s d o (commitOf s d.stamp) = none) (hv : quiet v)
    (hf : f (cplOf s d) d (commitOf s d.stamp) (atLanding s d) = withPark v p) (ho : addsPlain s v) :
    hostRow o f d s = .next (flushDue (actPark (commitOf s d.stamp) (v, 0) p).1) := by
  obtain ⟨a1, a2, a3, a4, a5, a6⟩ := hv
  have hact (n : Nat) : actParks (withPark v p) n = (actPark n (v, 0) p).1 := by
    have hback : { withPark v p with work := { (withPark v p).work with parks := [] } } = v := by
      rw [← a4]
      rfl
    unfold actParks
    rw [hback, show (withPark v p).work.parks = [p] by rw [withPark, a4]; rfl]
    rfl
  have happly : applyDesc o f d (commitOf s d.stamp) (atLanding s d) = withPark v p := by
    have hg' : gate (atLanding s d) d o (commitOf s d.stamp) = none := hg
    unfold applyDesc applyWith
    rw [hg']
    exact hf
  rw [hostRow_meets h0 ha, settle, happly, writeWaiting_none (s := withPark v p) _ a1 a2 a3 a6,
    closeStreams_none (s0 := atLanding s d) (s := withPark v p) ho.noStream, hact]

/-- A park in place behind step 1, where no record is due before its own. -/
theorem actPark_inPlace {v : State} {p : ParkWait} {c : Conv} (n : Nat) (hc : conv v p.conv = some c)
    (hp : p.haul = none) (hq : quiet v) :
    flushDue (actPark n (v, 0) p).1 = complete (parkInPlace v p.conv) p.cpl .ok p.conv n := by
  obtain ⟨-, -, -, -, hdue, -⟩ := parkInPlace_quiet p.conv hq
  have hone : dueAt (parkInPlace v p.conv) p.order p.cpl .ok p.conv n = due (parkInPlace v p.conv) p.cpl .ok p.conv n := by
    simp [dueAt, due, hdue]
  simp only [actPark, hp, hc, Nat.add_zero]
  rw [hone, flushDue_due hdue]

theorem sendOffer_host (s : State) (id : Nat) : (sendOffer s id).host = s.host :=
  (sendOffer_frame (pm := [.haul, .out, .spent]) (.refl s) (by decide) (by decide) (by decide)).host

/-- A haul behind step 1 is offered: its conversation stays frozen for it, and it keeps its purpose, its target and its
descriptor. -/
theorem actPark_offers {v : State} {p : ParkWait} {c : Conv} {h : SrcHaul} {id : Nat} (n : Nat)
    (hc : conv v p.conv = some c) (hp : p.haul = some id) (hh : srcHaul v id = some h) (hdue : v.host.due = []) :
    frozenFor (flushDue (actPark n (v, 0) p).1) p.conv = some id ∧
      (flushDue (actPark n (v, 0) p).1).work.reqs = v.work.reqs ∧
      (srcHaul (flushDue (actPark n (v, 0) p).1) id).map (fun h => (h.purpose, h.dst, h.cpl)) =
        some (h.purpose, h.dst, h.cpl) := by
  have hc' : tget v.work.convs p.conv = some c := hc
  simp only [actPark, hp, hc, hh]
  rw [flushDue_none (by rw [sendOffer_host]; exact hdue), frozenFor_of_work (sendOffer_work ..), sendOffer_work]
  refine ⟨?_, rfl, ?_⟩
  · simp [frozenFor, conv, modConv, tget_tmod, hc']
  · refine (sendOffer_srcHaul (fun _ _ => rfl) _ _).trans ?_
    simp [srcHaul, modConv]

/-- A change of a request that leaves its waiting records leaves nothing waiting that did not wait. -/
theorem modReq_quiet {s : State} (k : Nat) {f : Req → Req} (hf : ∀ r, (f r).waitTok = r.waitTok) (hq : quiet s) :
    quiet (modReq s k f) := by
  obtain ⟨a1, a2, a3, a4, a5, a6⟩ := hq
  refine ⟨a1, a2, a3, a4, a5, fun x hx => ?_⟩
  simp only [modReq, tmod] at hx
  split at hx
  · rename_i r hr
    rcases mem_tput hx with rfl | hx
    · exact (hf r).trans (a6 _ (mem_of_tget hr))
    · exact a6 _ hx
  · exact a6 _ hx

/-! ## A haul that sets off with its request (R205, R213) -/

section
variable {s : State} {k : Nat} {cv : Conv} {r : Req} (hc : conv s k = some cv) (hr : cv.req = some r.key)
  (hreq : req s r.key = some r) (p : Purpose) (dst : ModuleId) (dstBench : Nat) (cpl : Option Cpl)
include hc hr hreq

theorem startHaul_req : req (startHaul s k p dst dstBench false false false cpl) r.key =
    some { r with state := .hauling, left := r.state } := by
  have hreq' : tget s.work.reqs r.key = some r := hreq
  simp only [startHaul, hc, hr]
  simp [req, modReq, modConv, tget_tmod, hreq']

omit hreq in
theorem startHaul_quiet (hq : quiet s) : quiet (startHaul s k p dst dstBench false false false cpl) := by
  simp only [startHaul, hc, hr]
  exact modReq_quiet _ (fun _ => rfl) hq

/-- A descriptor by which a haul sets off with the live request of its conversation: the conversation is frozen for it,
the request hauled with the state it left, and the haul keeps its descriptor. -/
theorem hostRow_hauls {o : Nat} {f : Cpl → HostDesc → Nat → State → State} {d : HostDesc} {w : ParkWait}
    (h0 : s.pwr.off = false) (hq : quiet s) (ha : meetsCommit s d = true)
    (hg : gate s d o (commitOf s d.stamp) = none) (hwc : w.conv = k) (hwh : w.haul = some s.haul.nextId)
    (hf : f (cplOf s d) d (commitOf s d.stamp) (atLanding s d) =
      withPark (startHaul (atLanding s d) k p dst dstBench false false false cpl) w) :
    ∃ u, hostRow o f d s = .next u ∧ frozenFor u k = some s.haul.nextId ∧
      (req u r.key).map (fun x => (x.state, x.left)) = some (.hauling, r.state) ∧
      (srcHaul u s.haul.nextId).map (fun h => (h.purpose, h.dst, h.cpl)) = some (p, dst, cpl) := by
  subst hwc
  have hc' : conv (atLanding s d) w.conv = some cv := hc
  have hreq' : req (atLanding s d) r.key = some r := hreq
  have hv := startHaul_quiet hc' hr p dst dstBench cpl hq
  have hframe : Frame [.work, .haul, .tier] (atLanding s d)
      (startHaul (atLanding s d) w.conv p dst dstBench false false false cpl) :=
    startHaul_frame (.refl _) (by decide) (by decide) (by decide)
  obtain ⟨x, hx, -⟩ := Option.bind_eq_some_iff.mp (startHaul_freezes hc' p dst dstBench false false false cpl).2
  obtain ⟨-, -, -, -, hdue, -⟩ := id hv
  obtain ⟨hfrozen, hreqs, hhaul⟩ := actPark_offers (commitOf s d.stamp) hx hwh (startHaul_srcHaul hc' ..) hdue
  refine ⟨_, hostRow_parks h0 ha hg hv hf (.of_eq hframe.out), hfrozen, ?_, hhaul⟩
  have hsame := congrArg (fun l : Table Req => (tget l r.key).map (fun x => (x.state, x.left))) hreqs
  exact hsame.trans (congrArg _ (startHaul_req hc' hr hreq' ..))

end

/-! ## The statement -/

/-- Settles O18. -/
theorem conversationsParkReleaseAndHaul : Obligations.ConversationsParkReleaseAndHaul := by
  constructor
  · rintro s d n k b cv h0 hq ha rfl rfl rfl hrec hgone hon h13 hfr
    have h : MeetsConv (atLanding s d) d (cplOf s d).bench cv := ⟨hrec, hgone, hon, h13, hfr⟩
    obtain ⟨-, -, -, hnone, -, -⟩ := id hq
    obtain ⟨hc, -, -⟩ := convOn_some hon
    refine ⟨fun hg hctl hr hs => ?release, fun hg hctl h9 hst hrole hlive => ?park⟩
    case release =>
      have hgone := releaseConv_convsAlone (atLanding s d) (dConv d)
      exact hostRow_due h0 ha hg (hgone.quiet hq) (applyRelease_idle _ h hctl hr hs) hgone.plain.noStream
    case park =>
      have htake := applyPark_takes (commitOf s d.stamp) h hctl hnone hlive hst (away := false) (by simp [h9])
        (fun _ => hrole) (fun h => nomatch h)
      cases hr : cv.req with
      | none =>
        rw [hr] at htake
        exact hostRow_due h0 ha hg (parkInPlace_quiet _ hq) htake
          (parkInPlace_addsPlain (atLanding s d) _).noStream
      | some r =>
        rw [hr] at htake
        refine (hostRow_parks h0 ha hg (atLanding_quiet d hq) htake (.refl _)).trans (congrArg _ ?_)
        exact actPark_inPlace (v := atLanding s d) _ hc rfl hq
  · rintro s d n k b cv r h0 hq ha rfl rfl rfl hrec hgone hon - h13 h12 h9 hfr hstr hst hr hreq hself
    have h : MeetsConv (atLanding s d) d (cplOf s d).bench cv := ⟨hrec, hgone, hon, h13, hfr⟩
    obtain ⟨-, -, -, hnone, -, -⟩ := id hq
    obtain ⟨hc, -, -⟩ := convOn_some hon
    have hbind : cv.req.bind (req (atLanding s d)) = some r := by
      rw [hr]
      exact hreq
    refine ⟨fun hg hctl hpark => ?parkHaul, fun hg hctl hrole hrs => ?handoff⟩
    case parkHaul =>
      have haway : (dTarget d == (atLanding s d).fab.self) = false := beq_false_of_ne hself
      have htake := applyPark_takes (commitOf s d.stamp) h hctl hnone (away := true)
        (fun x hx => by rwa [← Option.some.inj (hbind.symm.trans hx)]) (by simp [hst])
        (by rw [h9, haway]; rfl) (fun h => nomatch h) (fun _ => hstr)
      exact hostRow_hauls hc hr hreq .park _ _ _ h0 hq ha hg rfl rfl htake
    case handoff =>
      exact hostRow_hauls hc hr hreq .handoff _ _ _ h0 hq ha hg rfl rfl
        (applyHandoff_takes _ h hctl hnone h12 h9 hst hbind hrs hrole hself hstr)

end Sys2Proof.Machine
end

section
/-! SUPPORT. What a commit writes of streams and records behind step 1 leaves alone: requests, conversations, the done
list and the parks, where no token record waits with its request (R37 step 3). -/

namespace Sys2Proof.Machine

/-- The tables of the work that no record touches. -/
def workTables (s : State) : Table Req × Table Conv × List Done × List ParkWait :=
  (s.work.reqs, s.work.convs, s.work.done, s.work.parks)

theorem workTables_of_work {s u : State} (h : u.work = s.work) : workTables u = workTables s := by
  rw [workTables, workTables, h]

theorem readConsumer_workTables (s : State) (k need : Nat) : workTables (readConsumer s k need) = workTables s := by
  unfold readConsumer
  split
  · split <;> rfl
  · rfl

theorem putToken_workTables (s : State) (k : Nat) (r : TokRec) : workTables (putToken s k r) = workTables s := by
  unfold putToken
  split
  · rfl
  · have hemit (fn : Fn) (o : Output) : (emitTo s fn o).work = s.work :=
      (emitTo_frame (pm := [.out]) (.refl s) (by decide)).work
    simp only [workTables, hemit]

theorem tryFinal_workTables {s u : State} {n : Nat} {w : FinalWait} (h : tryFinal s n w = some u) :
    workTables u = workTables s := by
  unfold tryFinal at h
  split at h
  · cases h
    exact putToken_workTables ..
  · cases h

theorem writeFinals_workTables (s : State) (n : Nat) (l : List FinalWait) :
    workTables (writeFinals s n l) = workTables s := by
  refine (foldl_keeps workTables (fun u w => ?_) l _).trans rfl
  dsimp only
  have hread := readConsumer_workTables u w.req 1
  split
  · exact hread
  · split
    · rename_i v hv
      exact (tryFinal_workTables hv).trans hread
    · exact hread

theorem writeHolds_workTables (s : State) (n : Nat) (l : List FinalWait) :
    workTables (writeHolds s n l) = workTables s := by
  refine (foldl_keeps workTables (fun u w => ?_) l _).trans rfl
  dsimp only
  have hread := readConsumer_workTables u w.req 1
  split
  · rename_i v hv
    exact (tryFinal_workTables hv).trans hread
  · exact hread

theorem writeWaiting_workTables {s : State} (n : Nat) (h : ∀ x ∈ s.work.reqs, x.2.waitTok = []) :
    workTables (writeWaiting n s) = workTables s := by
  have hnone (l : List (Nat × Req)) : l.foldl (fun s x => writeWaitToks s n x.1) s = s := by
    induction l with
    | nil => rfl
    | cons a l ih => rw [List.foldl_cons, writeWaitToks_none n _ h, ih]
  unfold writeWaiting
  rw [hnone]
  exact (writeHolds_workTables ..).trans (writeFinals_workTables ..)

/-- What follows step 1 leaves the tables that the effect left. -/
theorem settle_workTables {s v : State} {n : Nat} {f : State → State} (hf : f s = v) (hp : v.work.parks = [])
    (hw : ∀ x ∈ v.work.reqs, x.2.waitTok = []) : workTables (settle n f s) = workTables v := by
  have hwait := writeWaiting_workTables n hw
  have hclose : (closeStreams s (writeWaiting n v)).work = (writeWaiting n v).work :=
    (closeStreams_frame (pm := [.out]) (.refl _) (by decide)).work
  have hparks : (closeStreams s (writeWaiting n v)).work.parks = [] := by
    rw [hclose]
    exact (congrArg (·.2.2.2) hwait).trans hp
  unfold settle
  rw [hf, actParks_none n hparks]
  refine (workTables_of_work ?_).trans ((workTables_of_work hclose).trans hwait)
  exact (flushDue_frame (pm := [.host, .fault, .out, .spent]) (.refl _) (by decide) (by decide) (by decide)
    (by decide)).work

end Sys2Proof.Machine
end

section
/-! SUPPORT. Requests resume and end (R205, R208, R209, R211, R223, R38 to R40): a suspended request goes on where its
model is still loaded, a resume that rebuilds asks the keeper, and a request that ends leaves its key on the done list
and its conversation free. -/

namespace Sys2Proof.Machine

/-! ## How a request ends (R205 to R208) -/

theorem addSegment_convsAlone (s : State) (k : Nat) (g : Segment) : ConvsAlone s (addSegment s k g) :=
  modConv_convsAlone ..

theorem afterEnd_convsAlone (s : State) (r : Req) : ConvsAlone s (afterEnd s r) := by
  unfold afterEnd
  split
  · exact .refl s
  · split
    · exact releaseConv_convsAlone ..
    · have hfree := (abortHauls_convsAlone s r.conv).trans (modConv_convsAlone _ r.conv
        (fun c => { c with req := none, frozen := none, pend := none }))
      dsimp only
      split
      · exact hfree
      · exact hfree.trans (setConvState_convsAlone ..)

theorem conv_releaseConv (s : State) (k : Nat) : conv (releaseConv s k) k = none := by
  unfold releaseConv
  split
  · assumption
  · exact tget_tdel_self ..

/-- A conversation whose table is written under the key it names, or another: one without a request keeps none. -/
theorem setConvState_noReq {s : State} {k : Nat} {c : Conv} (st : ConvState) (hc : conv s k = some c)
    (hr : c.req = none) : ∀ x, conv (setConvState s k st) k = some x → x.req = none := by
  intro x hx
  unfold conv at hx
  rw [setConvState_work st hc] at hx
  split at hx
  · cases hc.symm.trans hx
    exact hr
  · by_cases hk : c.key = k
    · rw [show (putConv s { c with state := st }).work.convs = tput s.work.convs c.key { c with state := st } from rfl, hk,
        tget_tput_self] at hx
      cases hx
      exact hr
    · rw [show (putConv s { c with state := st }).work.convs = tput s.work.convs c.key { c with state := st } from rfl,
        tget_tput_other _ _ hk] at hx
      cases hc.symm.trans hx
      exact hr

/-- The conversation of an ended request is released, or without a request. -/
theorem afterEnd_noReq (s : State) (r : Req) : ∀ c, conv (afterEnd s r) r.conv = some c → c.req = none := by
  intro x hx
  unfold afterEnd at hx
  split at hx
  · rename_i hc
    cases hc.symm.trans hx
  · rename_i c hc
    split at hx
    · cases (conv_releaseConv s r.conv).symm.trans hx
    · have hfree : conv (modConv (abortHauls s r.conv) r.conv (fun c => { c with req := none, frozen := none, pend := none }))
          r.conv = some { c with req := none, frozen := none, pend := none } := by
        have hc' : conv (abortHauls s r.conv) r.conv = some c := hc
        rw [conv, modConv, tget_tmod, if_pos rfl, show tget (abortHauls s r.conv).work.convs r.conv = some c from hc']
        rfl
      dsimp only at hx
      split at hx
      · cases hfree.symm.trans hx
        rfl
      · exact setConvState_noReq .idle hfree rfl x hx

/-- What the end of a request leaves: its key off the requests and on the done list, its conversation without a
request. -/
structure Ended (s v : State) (k : Nat) (st : Status) (n c : Nat) : Prop where
  reqs : v.work.reqs = tdel s.work.reqs k
  done : v.work.done = s.work.done ++ [{ req := k, status := st, tick := n }]
  parks : v.work.parks = s.work.parks
  free : ∀ x, conv v c = some x → x.req = none

theorem endReq_ended {s : State} {k : Nat} {r : Req} (st : Status) (n : Nat) (viaToken : Bool) (hr : req s k = some r)
    (hl : s.work.done.length < 262144) : Ended s (endReq s k st n viaToken) k st n r.conv := by
  unfold endReq
  simp -zeta only [hr]
  extract_lets s1 waits fin w pl s2
  have h1 : ConvsAlone s s1 := addSegment_convsAlone ..
  have h2 : ConvsAlone (addDone s2 k st n) (afterEnd (addDone s2 k st n) r) := afterEnd_convsAlone ..
  have hparks : s1.work.parks = s.work.parks := by
    obtain ⟨l, hl⟩ := h1.work
    rw [hl]
  have hone : (addDone s2 k st n).work.done = s.work.done ++ [{ req := k, status := st, tick := n }] := by
    have hdone : s2.work.done = s.work.done := h1.done
    have hfits : ¬262144 < (s.work.done ++ [({ req := k, status := st, tick := n } : Done)]).length := by
      rw [List.length_append, List.length_singleton]
      omega
    rw [addDone, hdone]
    exact if_neg hfits
  refine ⟨h2.reqs.trans (congrArg (tdel · k) h1.reqs), h2.done.trans hone, ?_, afterEnd_noReq _ r⟩
  obtain ⟨l, hl⟩ := h2.work
  exact (congrArg WorkSt.parks hl).trans hparks

theorem Ended.tables {s v : State} {k n c : Nat} {st : Status} (h : Ended s v k st n c) (hd : doneOf s k = none) :
    req v k = none ∧ doneOf v k = some st ∧ ∀ x, conv v c = some x → x.req = none := by
  refine ⟨by rw [req, h.reqs, tget_tdel_self], ?_, h.free⟩
  have hnone : s.work.done.find? (fun d => d.req == k) = none := Option.map_eq_none_iff.mp hd
  simp [doneOf, h.done, List.find?_append, hnone]

theorem Ended.of_tables {s v u : State} {k n c : Nat} {st : Status} (h : Ended s v k st n c)
    (ht : workTables u = workTables v) : Ended s u k st n c := by
  obtain ⟨hreqs, hconvs, hdone, hparks⟩ : u.work.reqs = v.work.reqs ∧ u.work.convs = v.work.convs ∧
      u.work.done = v.work.done ∧ u.work.parks = v.work.parks := by simpa [workTables] using ht
  exact ⟨hreqs.trans h.reqs, hdone.trans h.done, hparks.trans h.parks, by rw [conv, hconvs]; exact h.free⟩

/-- A request that ends at a commit where nothing else waits has ended when that commit's records are written. -/
theorem settle_ended {s v : State} {k n m c : Nat} {st : Status} {f : State → State} (hq : quiet s) (hf : f s = v)
    (h : Ended s v k st m c) : Ended s (settle n f s) k st m c := by
  obtain ⟨-, -, -, hparks, -, hwait⟩ := hq
  refine h.of_tables (settle_workTables hf (h.parks.trans hparks) fun x hx => ?_)
  rw [h.reqs] at hx
  exact hwait x (List.mem_filter.mp hx).1

/-! ## Cancels and deadlines (R38 to R40) -/

section
variable {s : State} {k : Nat} {r : Req} (h0 : s.pwr.off = false) (hq : quiet s) (hr : req s k = some r)
  (hd : doneOf s k = none) (hl : s.work.done.length < 262144)
include h0 hq hr hd hl

/-- A cancel ends the request of the bench it names (R38). -/
theorem execReqCancel_ends {d : HostDesc} (ha : meetsCommit s d = true)
    (hg : gate s d 0x22 (commitOf s d.stamp) = none)
    (hctl : ctlOk d.raw true false false false false false false = true) (hk : dReq d = k)
    (hrec : hasRecord s (dBench d) = true) (hb : r.bench = benchFor s r.conv (dBench d) d.stamp) :
    ∃ u, execReqCancel d s = .next u ∧ req u k = none ∧ doneOf u k = some .cancelled ∧
      ∀ c, conv u r.conv = some c → c.req = none := by
  subst hk
  have hr' : req (atLanding s d) (dReq d) = some r := hr
  have hb' : r.bench = benchFor (atLanding s d) r.conv (cplOf s d).bench d.stamp := hb
  have hrec' : hasRecord (atLanding s d) (cplOf s d).bench = true := hrec
  have hg' : gate (atLanding s d) d 0x22 (commitOf s d.stamp) = none := hg
  have heff : applyDesc 0x22 applyCancel d (commitOf s d.stamp) (atLanding s d) =
      due (endReq (atLanding s d) (dReq d) .cancelled (commitOf s d.stamp) false) (cplOf s d) .ok (dReq d)
        (commitOf s d.stamp) := by
    unfold applyDesc applyWith
    rw [hg']
    simp only [applyCancel, hctl, hr', show cplOf (atLanding s d) d = cplOf s d from rfl, hrec', ← hb']
    rfl
  have hend := endReq_ended .cancelled (commitOf s d.stamp) false hr' hl
  have hset := settle_ended (n := commitOf s d.stamp) (atLanding_quiet d hq) heff
    (hend.of_tables (workTables_of_work (due_work ..)))
  exact ⟨_, hostRow_meets h0 ha, hset.tables hd⟩

/-- A deadline that has come ends its request (R39). -/
theorem execDeadlineExpiry_ends {t dl : Stamp} (hdl : r.deadline = some dl) (hnow : stampLe dl (s.at t).time.now = true)
    (hkeep : inKeep s = false) (hhalt : s.time.halted = false) (hact : actsAlone (s.at t) dl 4096 = true) :
    ∃ u, execDeadlineExpiry t k s = .next u ∧ req u k = none ∧ doneOf u k = some .expired ∧
      ∀ c, conv u r.conv = some c → c.req = none := by
  have hr' : req (s.at t) k = some r := hr
  have hgo : (stampLe dl (s.at t).time.now && !inKeep (s.at t) && !(s.at t).time.halted && actsAlone (s.at t) dl 4096) =
      true := by
    rw [hnow, hact, show inKeep (s.at t) = false from hkeep, show (s.at t).time.halted = false from hhalt]
    rfl
  have hexp : expire k (s.at t) = settle (commitOf (s.at t) dl)
      (fun s1 => endReq s1 k .expired (commitOf (s.at t) dl) false) (s.at t) := by
    simp only [expire, hr', Option.bind_some, hdl, hgo, if_true]
  have hend := endReq_ended .expired (commitOf (s.at t) dl) false hr' hl
  have hset := settle_ended (n := commitOf (s.at t) dl)
    (f := fun s1 => endReq s1 k .expired (commitOf (s.at t) dl) false) (at_quiet t hq) rfl hend
  refine ⟨_, run_on h0 t (expire k), ?_⟩
  rw [hexp]
  exact hset.tables hd

end

/-! ## A resume here (R205, R209) -/

theorem putReq_quiet {s : State} {r : Req} (hw : r.waitTok = []) (hq : quiet s) : quiet (putReq s r) := by
  obtain ⟨a1, a2, a3, a4, a5, a6⟩ := hq
  refine ⟨a1, a2, a3, a4, a5, fun x hx => ?_⟩
  rcases mem_tput hx with rfl | hx
  · exact hw
  · exact a6 x hx

theorem takePending_convsAlone (s : State) (k : Nat) : ConvsAlone s (takePending s k) := by
  unfold takePending
  split
  · split
    · split
      · exact putConv_convsAlone ..
      · exact .refl s
    · exact .refl s
  · exact .refl s

/-- Taking the pending area changes nothing else of a conversation. -/
theorem takePending_conv {s : State} {k : Nat} {c : Conv} (hc : conv s k = some c) (hk : c.key = k) :
    ∃ p, conv (takePending s k) k = some { c with pend := p } := by
  have hsame : ∃ p, conv s k = some { c with pend := p } := ⟨c.pend, hc⟩
  simp only [takePending, hc]
  split
  · split
    · exact ⟨some { cls := pendingClass (manDim (manOf s c.bench)) (kvBitsOf s c.bench) }, by simp [conv, putConv, hk]⟩
    · exact hsame
  · exact hsame

theorem benchTag_of_benches {s u : State} (h : u.benches = s.benches) (b : Nat) : benchTag u b = benchTag s b := by
  unfold benchTag bench
  rw [h]

theorem rebuildIfOther_same {s : State} {k b n : Nat} {c : Conv} (hc : conv s k = some c) (ht : c.fpTag = benchTag s b) :
    rebuildIfOther s k b n = s := by
  simp [rebuildIfOther, hc, ht]

/-- A suspended request at work again on its conversation, ACTIVE, with a pending area where it speculates. -/
def resumed (s : State) (k b : Nat) (r : Req) : State :=
  setConvState (takePending (modConv (putReq s { r with state := resumedState r, bench := b }) k
    (fun x => { x with req := some r.key })) k) k .active

section
variable {s : State} {k b : Nat} {cv : Conv} {r : Req} (hc : conv s k = some cv) (hk : cv.key = k)
include hc hk

theorem resumed_conv : ∃ p, conv (resumed s k b r) k = some { cv with req := some r.key, pend := p, state := .active } := by
  have hat : conv (modConv (putReq s { r with state := resumedState r, bench := b }) k
      (fun x => { x with req := some r.key })) k = some { cv with req := some r.key } := by
    rw [conv_modConv_self]
    exact congrArg _ hc
  obtain ⟨p, hp⟩ := takePending_conv hat hk
  exact ⟨p, setConvState_conv .active hp hk⟩

omit hc hk in
theorem resumed_convsAlone :
    ConvsAlone (putReq s { r with state := resumedState r, bench := b }) (resumed s k b r) :=
  ((modConv_convsAlone ..).trans (takePending_convsAlone ..)).trans (setConvState_convsAlone ..)

omit hc hk in
theorem resumed_benches : (resumed s k b r).benches = s.benches :=
  (setConvState_frame1 ..).benches.trans (takePending_frame (pm := [.work]) (.refl _) (by decide)).benches

end

/-- A conversation whose suspended request its bench serves, and whose model is still loaded, resumes. -/
theorem resumeHere_resumes {s : State} {c : Cpl} {d : HostDesc} {n : Nat} {cv : Conv} {r : Req}
    (hc : conv s (dConv d) = some cv) (hk : cv.key = dConv d) (h12 : bitOf d.raw 12 = false)
    (hs : suspendedOf s (dConv d) = some r.key) (hr : req s r.key = some r) (ht : cv.fpTag = benchTag s c.bench)
    (hserve : servesState (role s c.bench) (resumedState r) r.dest.isSome = true) (hrec : recordOk s c.bench cv.record = true)
    (hready : (bench s c.bench).state = .ready)
    (hroom : r.speculate = true → pendingRoom s c.bench (pendingBytes (manOf s c.bench) (kvBitsOf s c.bench)) = true) :
    resumeHere c d n cv s = due (resumed s (dConv d) c.bench r) c .ok (dConv d) n := by
  have hspec : (r.speculate && !pendingRoom s c.bench (pendingBytes (manOf s c.bench) (kvBitsOf s c.bench))) = false := by
    cases h : r.speculate with
    | false => rfl
    | true => rw [hroom h]; rfl
  obtain ⟨p, hconv⟩ := resumed_conv (b := c.bench) (r := r) hc hk
  have hsame : rebuildIfOther (resumed s (dConv d) c.bench r) (dConv d) c.bench n = resumed s (dConv d) c.bench r :=
    rebuildIfOther_same hconv (ht.trans (benchTag_of_benches resumed_benches _).symm)
  have hother : (cv.fpTag != benchTag s c.bench) = false := by simp [ht]
  simp only [resumeHere, hs, hr, hother, hserve, hrec, hready, hspec, newKeeper, h12, Bool.false_eq_true, if_false]
  exact congrArg (due · c .ok (dConv d) n) hsame

/-! ## REQ_RESUME (R203, R209, R211, R223) -/

section
variable {s : State} {c : Cpl} {d : HostDesc} (n : Nat)
  (hctl : ctlOk d.raw false true false true true true true = true) (hrec : hasRecord s c.bench = true)
  (hpull : s.haul.pulls.any (fun q => q.cpl == c) = false)
include hctl hrec hpull

omit hpull in
/-- A parked conversation of the bench resumes here. -/
theorem applyResume_here {cv : Conv} (h11 : bitOf d.raw 11 = false) (hon : convOn s (dConv d) c.bench = some cv)
    (hst : cv.state = .parked) (hfr : cv.frozen = none) : applyResume c d n s = resumeHere c d n cv s := by
  simp only [applyResume, hctl, hrec, h11, hon, hst, hfr]
  rfl

/-- A resume that rebuilds a conversation that is not here asks its keeper for the log (R223). -/
theorem applyResume_rebuilds (h11 : bitOf d.raw 11 = true) (h9 : bitOf d.raw 9 = true) (h0 : role s c.bench ≠ 0)
    (h2 : role s c.bench ≠ 2) (hready : (bench s c.bench).state = .ready) (hc : conv s (dConv d) = none) :
    applyResume c d n s = send { s with haul := { s.haul with pulls := s.haul.pulls ++
      [{ conv := dConv d, home := dTarget d, bench := c.bench, cpl := c, landed := d }] } }
      (dTarget d) (some c.bench) (.logRead (dConv d) c.bench (bounded s c.bench)) := by
  have hnew : s.haul.pulls.any (fun q => q.cpl == c && q.effective) = false := by
    simp only [List.any_eq_false] at hpull ⊢
    intro q hq
    simp [hpull q hq]
  simp only [applyResume, hctl, hrec, h11, h9, hnew, hpull, hready, hc, beq_false_of_ne h0, beq_false_of_ne h2]
  rfl

end

/-! ## The statement -/

/-- Settles O19. -/
theorem requestsResumeAndEnd : Obligations.RequestsResumeAndEnd := by
  constructor
  · rintro s d n k b h0 hq ha rfl rfl rfl hg hrec hready hctl hpull
    refine ⟨fun cv rk r h11 h12 hon hk hst hfr hs hr hrk ht hserve hrok hroom => ?here, fun h11 h9 hr0 hr2 hc => ?rebuild⟩
    case here =>
      subst hrk
      obtain ⟨hc, -, -⟩ := convOn_some hon
      obtain ⟨-, -, -, -, -, hwait⟩ := id hq
      have hone := resumed_convsAlone (s := atLanding s d) (k := dConv d) (b := dBench d) (r := r)
      have hquiet := hone.quiet (putReq_quiet (hwait _ (mem_of_tget hr)) (atLanding_quiet d hq))
      have heff := (applyResume_here (s := atLanding s d) (c := cplOf s d) (commitOf s d.stamp) hctl hrec h11 hon hst
        hfr).trans (resumeHere_resumes hc hk h12 hs hr ht hserve hrok hready hroom)
      obtain ⟨p, hconv⟩ := resumed_conv (s := atLanding s d) (b := dBench d) (r := r) hc hk
      refine ⟨_, hostRow_due h0 ha hg hquiet heff hone.plain.noStream, by rw [hconv]; rfl, ?_⟩
      rw [req, hone.reqs, putReq, tget_tput_self]
      rfl
    case rebuild =>
      have hsend := send_convsAlone { atLanding s d with haul := { s.haul with pulls := s.haul.pulls ++
        [{ conv := dConv d, home := dTarget d, bench := dBench d, cpl := cplOf s d, landed := d }] } } (dTarget d)
        (some (dBench d)) (.logRead (dConv d) (dBench d) (bounded s (dBench d)))
      exact hostRow_plain h0 ha hg (hsend.quiet (atLanding_quiet d hq))
        (applyResume_rebuilds (s := atLanding s d) _ hctl hrec hpull h11 h9 hr0 hr2 hready hc) hsend.plain.noStream
  · intro s k r h0 hq hr hd hl
    exact ⟨fun d ha hg hctl hk hrec hb => execReqCancel_ends h0 hq hr hd hl ha hg hctl hk hrec hb,
      fun t dl hdl hnow hkeep hhalt hact => execDeadlineExpiry_ends h0 hq hr hd hl hdl hnow hkeep hhalt hact⟩

end Sys2Proof.Machine
end

section
/-! SUPPORT. Admissions and appends (R201, R202, R205, R216): when an arrival is taken, and what a request that begins
leaves of its conversation. -/

namespace Sys2Proof.Machine

/-! ## A request that begins (R216) -/

/-- What names a conversation's table and its place: what no input changes. -/
def tablePlace (c : Conv) : Nat × Bool × Nat × Nat × Nat := (c.key, c.home, c.bench, c.length, c.fpTag)

theorem conv_putConv_self (s : State) (c : Conv) : conv (putConv s c) c.key = some c := tget_tput_self ..

theorem tablePlace_eq {x c : Conv} (h : tablePlace x = tablePlace c) :
    x.key = c.key ∧ x.home = c.home ∧ x.bench = c.bench ∧ x.length = c.length ∧ x.fpTag = c.fpTag := by
  simpa [tablePlace] using h

theorem modConv_place {s : State} {k : Nat} {f : Conv → Conv} (hf : ∀ c, tablePlace (f c) = tablePlace c) :
    (conv (modConv s k f) k).map tablePlace = (conv s k).map tablePlace := by
  rw [conv_modConv_self, Option.map_map]
  exact congrArg (Option.map · (conv s k)) (funext hf)

theorem addSegment_place (s : State) (k : Nat) (g : Segment) :
    (conv (addSegment s k g) k).map tablePlace = (conv s k).map tablePlace := by
  refine modConv_place fun c => ?_
  cases g.kind with
  | tokens =>
    dsimp only
    split <;> rfl
  | _ => rfl

/-- Tokens that join the log change no other part of the table. -/
theorem addTokens_place {s : State} {k : Nat} {c : Conv} (r : Nat) (l : List LogTok) (hc : conv s k = some c)
    (hk : c.key = k) : (conv (addTokens s k r l) k).map tablePlace = some (tablePlace c) := by
  simp only [addTokens, hc]
  rw [addSegment_place]
  simp [conv, putConv, hk, tablePlace]

theorem addTokens_convsAlone (s : State) (k r : Nat) (l : List LogTok) : ConvsAlone s (addTokens s k r l) := by
  unfold addTokens
  split
  · exact .refl s
  · exact (putConv_convsAlone ..).trans (addSegment_convsAlone ..)

/-- The input of a request in its conversation's log, behind its PARAMS and REQUEST segments. -/
def inputLogged (s : State) (d : HostDesc) (r : Req) : State :=
  addTokens (addSegment (addSegment (putReq s r) r.conv { conv := r.conv, req := r.key, kind := .params, record := some r })
    r.conv { conv := r.conv, req := r.key, kind := .request, record := some r }) r.conv r.key
    ((blockOf d).2.1.map (fun t => ⟨t.toNat, false⟩))

theorem inputLogged_convsAlone (s : State) (d : HostDesc) (r : Req) : ConvsAlone (putReq s r) (inputLogged s d r) :=
  ((addSegment_convsAlone ..).trans (addSegment_convsAlone ..)).trans (addTokens_convsAlone ..)

theorem inputLogged_benches (s : State) (d : HostDesc) (r : Req) : (inputLogged s d r).benches = s.benches :=
  (addTokens_frame (pm := [.work]) (.refl _) (by decide)).benches

theorem inputLogged_place {s : State} {d : HostDesc} {r : Req} {c : Conv} (hc : conv s r.conv = some c)
    (hk : c.key = r.conv) : (conv (inputLogged s d r) r.conv).map tablePlace = some (tablePlace c) := by
  have hseg : (conv (addSegment (addSegment (putReq s r) r.conv { conv := r.conv, req := r.key, kind := .params, record := some r })
      r.conv { conv := r.conv, req := r.key, kind := .request, record := some r }) r.conv).map tablePlace =
      some (tablePlace c) := by
    rw [addSegment_place, addSegment_place]
    exact congrArg _ hc
  obtain ⟨x, hx, hplace⟩ := Option.map_eq_some_iff.mp hseg
  exact (addTokens_place _ _ hx ((congrArg (·.1) hplace).trans hk)).trans (congrArg some hplace)

/-- A request with no automaton and no deadline begins: its input is logged and its conversation ACTIVE for it. -/
theorem beginRequest_eq {s : State} {d : HostDesc} {r : Req} (n : Nat) (ha : r.auto = none) (hd : r.deadline = none) :
    beginRequest s d r n = setConvState (takePending (modConv (inputLogged s d r) r.conv
      (fun c => { c with req := some r.key })) r.conv) r.conv .active := by
  simp only [beginRequest, ha, hd]
  rfl

section
variable {s : State} {d : HostDesc} {r : Req} (n : Nat) (ha : r.auto = none) (hd : r.deadline = none)
include ha hd

theorem beginRequest_convsAlone : ConvsAlone (putReq s r) (beginRequest s d r n) := by
  rw [beginRequest_eq n ha hd]
  exact (((inputLogged_convsAlone ..).trans (modConv_convsAlone ..)).trans (takePending_convsAlone ..)).trans
    (setConvState_convsAlone ..)

theorem beginRequest_benches : (beginRequest s d r n).benches = s.benches := by
  rw [beginRequest_eq n ha hd]
  exact (setConvState_frame1 ..).benches.trans ((takePending_frame (pm := [.work]) (.refl _) (by decide)).benches.trans
    (inputLogged_benches s d r))

theorem beginRequest_req : req (beginRequest s d r n) r.key = some r := by
  rw [req, (beginRequest_convsAlone n ha hd).reqs, putReq, tget_tput_self]

/-- The conversation of a request that begins is ACTIVE with it, and otherwise named and placed as it was. -/
theorem beginRequest_conv {c : Conv} (hc : conv s r.conv = some c) (hk : c.key = r.conv) :
    ∃ x, conv (beginRequest s d r n) r.conv = some x ∧ x.state = .active ∧ x.req = some r.key ∧
      tablePlace x = tablePlace c := by
  obtain ⟨x, hx, hplace⟩ := Option.map_eq_some_iff.mp (inputLogged_place (d := d) hc hk)
  have hxk : x.key = r.conv := (congrArg (·.1) hplace).trans hk
  have hat : conv (modConv (inputLogged s d r) r.conv (fun c => { c with req := some r.key })) r.conv =
      some { x with req := some r.key } := by
    rw [conv_modConv_self, hx]
    rfl
  obtain ⟨p, hp⟩ := takePending_conv hat hxk
  rw [beginRequest_eq n ha hd]
  exact ⟨_, setConvState_conv .active hp hxk, rfl, rfl, hplace⟩

end

/-! ## Arrivals (R201, R202) -/

/-- A request whose key is new meets a READY bench that takes requests, with a block in order that names no automaton. -/
structure Arrives (s : State) (d : HostDesc) (b : Nat) : Prop where
  record : hasRecord s b = true
  ready : (bench s b).state = .ready
  fresh : knownReq s (dReq d) = false
  serves : role s b = 3 ∨ role s b = 0 ∧ bitOf d.raw 12 = true
  plain : fieldOf (blockOf d).1 511 448 = 0
  block : blockOk s d none = true

/-- The new conversation of an admission that shares no pages. -/
def newConv (s : State) (d : HostDesc) (b n : Nat) : Conv where
  key := dConv d
  bench := b
  home := true
  fpTag := benchTag s b
  layers := manLayers (manOf s b)
  kvHeads := manKv (manOf s b)
  lastTick := n
  record := s.stock == .mx && bnF s b 0x98 0 0 == 1
  stripe := (blockOf d).2.2.2
  keeper := BitVec.ofNat 16 (fieldOf d.raw 367 352)

theorem benchBusy_ready {s : State} {b : Nat} (hrec : hasRecord s b = true) (hs : (bench s b).state = .ready) :
    benchBusy s b = false := by
  simp [benchBusy, hrec, hs]

theorem benchRefusal_ready {s : State} {b : Nat} (hs : (bench s b).state = .ready) : benchRefusal s b = none := by
  simp [benchRefusal, hs]

/-- The bench's role takes a request, with input that arrives for another bench or for itself (R15). -/
theorem Arrives.takes {s : State} {d : HostDesc} {b : Nat} (h : Arrives s d b) :
    (role s b == 3 || (role s b == 0 && bitOf d.raw 12)) = true := by
  simpa using h.serves

/-- An admission's input fits the longest conversation (R201). -/
theorem input_fits {s : State} {d : HostDesc} {append : Bool} (h : admitFieldsOk s d append = true) :
    fieldOf d.raw 287 256 ≤ 1048576 := by
  unfold admitFieldsOk at h
  simp only [Bool.and_eq_true, decide_eq_true_eq] at h
  tauto

/-- An admission that fits begins its request on a new conversation. -/
theorem applyAdmit_begins {s : State} {c : Cpl} {d : HostDesc} {r : Req} (n : Nat) (h : Arrives s d c.bench)
    (hf : admitFieldsOk s d false = true) (hc : conv s (dConv d) = none) (h10 : bitOf d.raw 10 = false)
    (h12 : (blockOf d).2.2.2 = none ∨ bitOf d.raw 12 = false)
    (hstr : ∀ x, (blockOf d).2.2.2 = some x → stripeOk s c.bench x = true) (hroom : admitRoom s d true = true)
    (hr : r = newReq s d 0 (fieldOf d.raw 287 256) none)
    (hfit : fitsEmpty (putReq (putConv s (newConv s d c.bench n)) r) r = true) :
    applyAdmit c d n s = due (beginRequest (putConv s (newConv s d c.bench n)).bump d r n) c .ok (dReq d) n := by
  subst hr
  rcases hb : blockOf d with ⟨p, ts, a, st⟩
  have hplain : fieldOf p 511 448 = 0 := by simpa [hb] using h.plain
  have hstripe : (st.isSome && bitOf d.raw 12) = false := by
    rcases h12 with h | h <;> simp_all
  have hlong : (1048576 < fieldOf d.raw 287 256) = False := eq_false (Nat.not_lt.mpr (input_fits hf))
  rw [newConv, hb] at hfit
  rw [hb] at hstr
  rw [newConv, hb]
  dsimp only at hstr
  unfold applyAdmit
  simp only [hb, hplain, hf, benchBusy_ready h.record h.ready, hc, h.fresh, h.takes, hstripe, h10,
    benchRefusal_ready h.ready, if_true, Bool.false_eq_true, if_false, h.block, Nat.mul_zero, Nat.zero_add, hlong, hroom,
    Option.isSome_none, Bool.not_true, Bool.or_false, Bool.false_and, Bool.false_or, decide_false,
    bne_self_eq_false, Nat.lt_irrefl, hfit]
  cases st with
  | none => rfl
  | some x => simp [hstr x rfl]

/-- An idle conversation of the bench, with room for the input behind its log: what an append continues. -/
structure Continues (s : State) (d : HostDesc) (b : Nat) (cv : Conv) : Prop where
  here : convOn s (dConv d) b = some cv
  key : cv.key = dConv d
  layout : cv.stripe = none ∨ bitOf d.raw 12 = false
  idle : cv.state = .idle
  awake : suspendedOf s (dConv d) = none
  free : cv.frozen = none
  tag : cv.fpTag = benchTag s b
  len : cv.log.length + fieldOf d.raw 287 256 ≤ 1048576

/-- The module once its conversation has the keeper an append names. -/
def keptBy (s : State) (d : HostDesc) : State :=
  modConv s (dConv d) (fun x => { x with keeper := BitVec.ofNat 16 (fieldOf d.raw 367 352), guarded := true })

theorem Continues.conv_keptBy {s : State} {d : HostDesc} {b : Nat} {cv : Conv} (h : Continues s d b cv) :
    conv (keptBy s d) (dConv d) =
      some { cv with keeper := BitVec.ofNat 16 (fieldOf d.raw 367 352), guarded := true } := by
  obtain ⟨hc, -, -⟩ := convOn_some h.here
  rw [keptBy, conv_modConv_self, hc]
  rfl

/-- A request of a descriptor that names no deadline has none. -/
theorem newReq_deadline {s : State} {d : HostDesc} (first left : Nat) (auto : Option Automaton) (h : bitOf d.raw 11 = false) :
    (newReq s d first left auto).deadline = none := by
  simp [newReq, deadlineOf, h]

/-- The model of a continued conversation is the one still loaded: nothing of it is prefilled again. -/
theorem Continues.rebuilds_nothing {s : State} {d : HostDesc} {b : Nat} {cv : Conv} {r : Req} (n : Nat)
    (h : Continues s d b cv) (hr : r.conv = dConv d) (ha : r.auto = none) (hd : r.deadline = none) :
    rebuildIfOther (beginRequest (keptBy s d).bump d r n) (dConv d) b n = beginRequest (keptBy s d).bump d r n := by
  have hkept := h.conv_keptBy
  rw [← hr] at hkept
  obtain ⟨x, hx, -, -, hplace⟩ := beginRequest_conv (s := (keptBy s d).bump) (d := d) n ha hd hkept (h.key.trans hr.symm)
  obtain ⟨-, -, -, -, htag⟩ := tablePlace_eq hplace
  rw [hr] at hx
  refine rebuildIfOther_same hx (htag.trans (h.tag.trans ?_))
  exact (benchTag_of_benches (beginRequest_benches (s := (keptBy s d).bump) n ha hd) b).symm

/-- An append that fits begins its request on its conversation. -/
theorem applyAppend_begins {s : State} {c : Cpl} {d : HostDesc} {r : Req} {cv : Conv} (n : Nat) (h : Arrives s d c.bench)
    (hf : admitFieldsOk s d true = true) (hv : Continues s d c.bench cv) (h11 : bitOf d.raw 11 = false)
    (hroom : admitRoom s d false = true)
    (hr : r = newReq s d cv.log.length (cv.log.length - cv.length + fieldOf d.raw 287 256) none)
    (hfit : fitsEmpty (putReq (keptBy s d) r) r = true) :
    applyAppend c d n s = due (beginRequest (keptBy s d).bump d r n) c .ok (dReq d) n := by
  have hplain : fieldOf (blockOf d).1 511 448 = 0 := h.plain
  have hstripe : (cv.stripe.isSome && bitOf d.raw 12) = false := by
    rcases hv.layout with h | h <;> simp [h]
  have hlong : (1048576 < cv.log.length + fieldOf d.raw 287 256) = False := eq_false (Nat.not_lt.mpr hv.len)
  have hidle : (ConvState.idle == ConvState.active) = false := rfl
  subst hr
  rw [← hv.rebuilds_nothing n rfl rfl (newReq_deadline _ _ _ h11)]
  rw [keptBy] at hfit ⊢
  rcases hb : blockOf d with ⟨p, ts, a, st⟩
  rw [hb] at hplain
  unfold applyAppend
  simp only [hb, hplain, hf, benchBusy_ready h.record h.ready, h.fresh, h.takes, hv.here, hv.idle, hidle, hv.awake, hv.free,
    hstripe, hlong, hroom, benchRefusal_ready h.ready, if_true, Bool.false_eq_true, if_false, h.block, hfit,
    Option.isSome_none, Bool.not_true, Bool.or_false, decide_false, bne_self_eq_false, Bool.false_and]

/-! ## The rows -/

/-- A row whose effect begins a request ends with that request at work on its conversation. -/
theorem hostRow_begins {o : Nat} {f : Cpl → HostDesc → Nat → State → State} {d : HostDesc} {s v : State} {r : Req}
    {x : Conv} (h0 : s.pwr.off = false) (hq : quiet s) (ha : meetsCommit s d = true)
    (hg : gate s d o (commitOf s d.stamp) = none)
    (hv : ConvsAlone (atLanding s d) v) (hx : conv v r.conv = some x) (hk : x.key = r.conv) (hauto : r.auto = none)
    (hdl : r.deadline = none) (hw : r.waitTok = [])
    (hf : f (cplOf s d) d (commitOf s d.stamp) (atLanding s d) =
      due (beginRequest v.bump d r (commitOf s d.stamp)) (cplOf s d) .ok (dReq d) (commitOf s d.stamp)) :
    ∃ u y, hostRow o f d s = .next u ∧ conv u r.conv = some y ∧ y.state = .active ∧ y.req = some r.key ∧
      tablePlace y = tablePlace x ∧ req u r.key = some r := by
  have hone := beginRequest_convsAlone (s := v.bump) (d := d) (commitOf s d.stamp) hauto hdl
  obtain ⟨y, hy, hst, hyr, hplace⟩ := beginRequest_conv (s := v.bump) (d := d) (commitOf s d.stamp) hauto hdl hx hk
  have hquiet : quiet (putReq v.bump r) := putReq_quiet hw (hv.quiet (atLanding_quiet d hq))
  have hplain : addsPlain (atLanding s d) (beginRequest v.bump d r (commitOf s d.stamp)) := hv.plain.trans hone.plain
  have hwork := (complete_frame (s := beginRequest v.bump d r (commitOf s d.stamp)) (c := cplOf s d) (st := .ok)
    (result := dReq d) (tick := commitOf s d.stamp) (result2 := 0) (pm := [.host, .fault, .out, .spent]) (.refl _) (by decide)
    (by decide) (by decide) (by decide)).work
  refine ⟨_, y, hostRow_due h0 ha hg (hone.quiet hquiet) hf hplain.noStream, ?_, hst, hyr, hplace, ?_⟩
  · rw [conv, hwork]
    exact hy
  · rw [req, hwork]
    exact beginRequest_req _ hauto hdl

/-- Settles O20. -/
theorem admissionsAndAppendsBeginRequests : Obligations.AdmissionsAndAppendsBeginRequests := by
  rintro s d n k b h0 hq ha rfl rfl rfl hrec hready hfresh hserve hplain hblock h11
  have h : Arrives (atLanding s d) d (cplOf s d).bench := ⟨hrec, hready, hfresh, hserve, hplain, hblock⟩
  refine ⟨fun hg h12 hf hc h10 hstr hroom hfit => ?admission,
    fun cv hg hf hon hk h12 hst hs hfr ht _ hlen hroom hfit => ?append⟩
  case admission =>
    have heff := applyAdmit_begins (commitOf s d.stamp) h hf hc h10 h12 hstr hroom rfl (hfit _ rfl)
    obtain ⟨u, y, hu, hy, hact, hreq, hplace, hru⟩ := hostRow_begins h0 hq ha hg (putConv_convsAlone ..)
      (conv_putConv_self ..) rfl rfl (newReq_deadline _ _ _ h11) rfl heff
    obtain ⟨-, hhome, hbench, hlen, -⟩ := tablePlace_eq hplace
    change conv u (dConv d) = some y at hy
    change req u (dReq d) = some _ at hru
    refine ⟨u, hu, ?_, ?_⟩
    · rw [hy, Option.map_some, hact, hreq, hhome, hbench, hlen]
      rfl
    · rw [hru]
      rfl
  case append =>
    obtain ⟨-, -, hb⟩ := convOn_some hon
    have hcont : Continues (atLanding s d) d (cplOf s d).bench cv := ⟨hon, hk, h12, hst, hs, hfr, ht, hlen⟩
    have heff := applyAppend_begins (commitOf s d.stamp) h hf hcont h11 hroom rfl hfit
    obtain ⟨u, y, hu, hy, hact, hreq, hplace, hru⟩ := hostRow_begins h0 hq ha hg (v := keptBy (atLanding s d) d)
      (modConv_convsAlone ..) hcont.conv_keptBy hk rfl (newReq_deadline _ _ _ h11) rfl heff
    obtain ⟨-, -, hbench, hlen, -⟩ := tablePlace_eq hplace
    change conv u (dConv d) = some y at hy
    change req u (dReq d) = some _ at hru
    refine ⟨u, hu, ?_, ?_⟩
    · rw [hy, Option.map_some, hact, hreq, hbench, hlen, ← hb]
      rfl
    · rw [hru]
      rfl

end Sys2Proof.Machine
end

section
/-! SUPPORT. Inserts and deletes of vectors (R288, R289, R291, R296): when a change is taken, and what it makes of its
shard. -/

namespace Sys2Proof.Machine

/-- A change of the vector of an ID meets the primary of its shard, in use on the bench and with room on its spoil list. -/
structure ChangesShard (s : State) (b : Nat) (r : BitVec 512) (x : Shard) : Prop where
  bench : vecGate s b = none
  here : shard s (fieldOf r 415 384) = some x
  onBench : x.bench = b
  primary : x.replica = false
  inUse : x.archived = false
  spoilRoom : x.spoil.length < 16777216
  room : shardFits s b (strideSpoil x.hdr) = true
  reserved : zeroAt r 135 128 = true

theorem ChangesShard.primaryOf {s : State} {b : Nat} {r : BitVec 512} {x : Shard} (h : ChangesShard s b r x) :
    primaryOf s b (fieldOf r 415 384) = .ok x := by
  simp [Machine.primaryOf, h.here, h.onBench, h.primary, h.inUse]

/-- The record an insert of these elements adds to a shard. -/
def insertedRec (x : Shard) (id : Nat) (es : List (BitVec 16)) : VecRec :=
  { id := id, norm := recNorm x { id := id, elems := es }, elems := es }

/-- Elements of the shard's dimension and format, in the bytes the descriptor names (R285, R288). -/
structure ElementsOk (x : Shard) (r : BitVec 512) (es : List (BitVec 16)) : Prop where
  dim : es.length = vDim x.hdr
  bytes : fieldOf r 447 416 = ceilDiv (vDim x.hdr * elemBits x.hdr) 8
  finite : vFmt x.hdr = 1 → es.any halfSpecial = false
  width : vFmt x.hdr ≠ 1 → ∀ e ∈ es, e.toNat < 2 ^ elemBits x.hdr
  normed : vDist x.hdr = 1 → feq (insertedRec x (fieldOf r 383 320) es).norm 0 = false

/-- An insert supersedes the live copy of its ID, and its record joins the spoil list. -/
theorem applyVecInsert_joins {s : State} {c : Cpl} {d : HostDesc} {x : Shard} {es : List (BitVec 16)} (n : Nat)
    (h : ChangesShard s c.bench d.raw x) (hl : vecFieldsOk d.raw true true false = true) (hd : d.data = .elements es)
    (he : ElementsOk x d.raw es) (hlive : liveCount (supersede x (fieldOf d.raw 383 320)).1 < 2 ^ 32) :
    applyVecInsert c d n s = due (putShard s (fieldOf d.raw 415 384) (autoMerge (appendSpoil
      (supersede x (fieldOf d.raw 383 320)).1 (insertedRec x (fieldOf d.raw 383 320) es)))) c .ok
      (fieldOf d.raw 383 320) n := by
  have hfinite : (vFmt x.hdr == 1 && es.any halfSpecial) = false := by
    simpa using he.finite
  have hwidth : (vFmt x.hdr != 1 && es.any (fun e => decide (2 ^ elemBits x.hdr ≤ e.toNat))) = false := by
    simpa using he.width
  have hnorm : (vDist x.hdr == 1 && feq (insertedRec x (fieldOf d.raw 383 320) es).norm 0) = false := by
    simpa using he.normed
  have hroom : (decide (16777216 ≤ x.spoil.length) || decide (2 ^ 32 ≤ liveCount (supersede x (fieldOf d.raw 383 320)).1) ||
      !shardFits s c.bench (strideSpoil x.hdr)) = false := by
    simpa [h.spoilRoom, h.room] using hlive
  rw [insertedRec] at hnorm ⊢
  simp only [applyVecInsert, hl, h.reserved, h.bench, h.primaryOf, hd, he.dim, he.bytes, hfinite, hwidth, hnorm, hroom,
    bne_self_eq_false, Bool.not_true, Bool.or_false, Bool.false_eq_true, if_false]

/-- A delete supersedes the live copy of its ID and leaves a delete entry on the spoil list. -/
theorem applyVecDelete_leaves {s : State} {c : Cpl} {d : HostDesc} {x : Shard} (n : Nat)
    (h : ChangesShard s c.bench d.raw x) (hl : vecFieldsOk d.raw false true false = true)
    (hlive : (supersede x (fieldOf d.raw 383 320)).2 = true) :
    applyVecDelete c d n s = due (putShard s (fieldOf d.raw 415 384) (autoMerge (appendSpoil
      (supersede x (fieldOf d.raw 383 320)).1 { id := fieldOf d.raw 383 320, isDelete := true }))) c .ok
      (fieldOf d.raw 383 320) n := by
  have hroom : (decide (16777216 ≤ x.spoil.length) || !shardFits s c.bench (strideSpoil x.hdr)) = false := by
    simp [h.spoilRoom, h.room]
  simp only [applyVecDelete, hl, h.reserved, h.bench, h.primaryOf, hlive, hroom, Bool.not_true, Bool.or_false,
    Bool.false_eq_true, if_false]

/-- Settles O21. Both changes put one shard and are due one record; a full spoil list starts its merge round within that
shard, in `autoMerge`. -/
theorem vectorChangesJoinTheSpoilList : Obligations.VectorChangesJoinTheSpoilList := by
  rintro s d n id i x h0 hq ha rfl rfl rfl hb hx hon hrep harc hlen hz
  have hchange (hroom : shardFits s (dBench d) (strideSpoil x.hdr) = true) :
      ChangesShard (atLanding s d) (cplOf s d).bench d.raw x := ⟨hb, hx, hon, hrep, harc, hlen, hroom, hz⟩
  refine ⟨fun es v hg hl hd h1 h2 h3 h4 hv h5 hlive hroom => ?insert, fun hg hl hlive hroom => ?delete⟩
  case insert =>
    subst hv
    exact hostRow_due h0 ha hg (atLanding_quiet d hq)
      (applyVecInsert_joins _ (hchange hroom) hl hd ⟨h1, h2, h3, h4, h5⟩ hlive) (addsPlain.of_eq rfl).noStream
  case delete =>
    exact hostRow_due h0 ha hg (atLanding_quiet d hq) (applyVecDelete_leaves _ (hchange hroom) hl hlive)
      (addsPlain.of_eq rfl).noStream

end Sys2Proof.Machine
end

section
/-! SUPPORT. The operations of VEC_MERGE (R282 to R284, R288, R289): what each makes of its shard, and that it leaves
the others. -/

namespace Sys2Proof.Machine

/-! ## Rows that touch no request -/

/-- An error entry is no stream record. -/
theorem logErr_addsPlain (s : State) (c : ErrClass) (k b : Nat) (u : UnitId) (d0 d1 : Nat) :
    addsPlain s (logErr s c k b u d0 d1) := by
  have hvector (v : State) : addsPlain v (errVector v) := by
    unfold errVector signal emitTo
    split
    · exact .refl v
    · exact ⟨_, rfl, by simp⟩
  have hevent (v : State) (e : LogEntry) : addsPlain v (emit v (.mgmtEvent e)) := ⟨[_], rfl, by simp⟩
  simp only [logErr, logEntry]
  split
  · refine (addsPlain.trans ?_ (hvector _)).trans (hevent ..)
    exact .of_eq rfl
  · exact .of_eq rfl

theorem putShard_shards (s : State) (i : Nat) (x : Shard) : (putShard s i x).shards = tput s.shards i x := rfl

theorem putShard_out (s : State) (i : Nat) (x : Shard) : (putShard s i x).out = s.out := rfl

theorem due_addsPlain (s : State) (c : Cpl) (st : Status) (result n : Nat) : addsPlain s (due s c st result n) := .of_eq rfl

/-- A row of VEC_MERGE leaves of shards and counters what its operation left: the records written behind it touch
neither. -/
theorem vecMerge_row {d : HostDesc} {s v : State} (h0 : s.pwr.off = false) (hq : quiet s) (ha : meetsCommit s d = true)
    (hg : gate s d 0x43 (commitOf s d.stamp) = none)
    (hf : applyVecMerge (cplOf s d) d (commitOf s d.stamp) (atLanding s d) = v) (hp : addsPlain (atLanding s d) v) :
    ∃ u, hostRow 0x43 applyVecMerge d s = .next u ∧ u.shards = v.shards ∧ u.bar = v.bar := by
  have hframe : Frame [.bar, .host, .shards, .fault, .sec, .out, .spent, .fresh] (atLanding s d) v := by
    rw [← hf]
    exact applyVecMerge_frame (.refl _) (by decide) (by decide) (by decide) (by decide) (by decide) (by decide)
      (by decide) (by decide)
  have hflush : Frame [.host, .fault, .out, .spent] v (flushDue v) :=
    flushDue_frame (.refl v) (by decide) (by decide) (by decide) (by decide)
  have hwork : v.work = s.work := hframe.work
  have happly : applyDesc 0x43 applyVecMerge d (commitOf s d.stamp) (atLanding s d) = v := by
    have hg' : gate (atLanding s d) d 0x43 (commitOf s d.stamp) = none := hg
    rw [applyDesc, applyWith, hg']
    exact hf
  obtain ⟨a1, a2, a3, a4, -, a6⟩ := hq
  rw [← hwork] at a1 a2 a3 a4 a6
  exact ⟨flushDue v, (hostRow_meets h0 ha).trans (congrArg _ (settle_quiet happly a1 a2 a3 a4 a6 hp.noStream)),
    hflush.shards, hflush.bar⟩

/-- A table of shards with one row put has that row, and the others as they were. -/
theorem shard_of_tput {s u : State} {i : Nat} {y : Shard} (h : u.shards = tput s.shards i y) :
    shard u i = some y ∧ ∀ j, j ≠ i → shard u j = shard s j := by
  unfold shard
  rw [h]
  exact ⟨tget_tput_self .., fun j hj => tget_tput_other _ _ hj.symm⟩

/-- A table of shards with one row taken away lacks that row, and has the others as they were. -/
theorem shard_of_tdel {s u : State} {i : Nat} (h : u.shards = tdel s.shards i) :
    shard u i = none ∧ ∀ j, j ≠ i → shard u j = shard s j := by
  unfold shard
  rw [h]
  exact ⟨tget_tdel_self .., fun j hj => tget_tdel_other _ hj.symm⟩

/-- A row of VEC_MERGE whose operation puts one shard. -/
theorem vecMerge_row_puts {d : HostDesc} {s v : State} {i : Nat} {y : Shard} (h0 : s.pwr.off = false) (hq : quiet s)
    (ha : meetsCommit s d = true) (hg : gate s d 0x43 (commitOf s d.stamp) = none)
    (hf : applyVecMerge (cplOf s d) d (commitOf s d.stamp) (atLanding s d) = v) (hp : addsPlain (atLanding s d) v)
    (hs : v.shards = tput s.shards i y) :
    ∃ u, hostRow 0x43 applyVecMerge d s = .next u ∧ shard u i = some y ∧ ∀ j, j ≠ i → shard u j = shard s j := by
  obtain ⟨u, hu, hshards, -⟩ := vecMerge_row h0 hq ha hg hf hp
  exact ⟨u, hu, shard_of_tput (hshards.trans hs)⟩

/-! ## Messages to replicas (R288, R299) -/

/-- Every replica of a shard is freed, and the descriptors that wait for the shard are due as cancelled. -/
def freedAndCancelled (s : State) (b i : Nat) (x : Shard) (waits : List Cpl) (n : Nat) : State :=
  waits.foldl (fun s w => due s w .cancelled 0 n) (freeCopies s b i x)

/-- The descriptors that wait for a shard: its creation or restore, its merge round, its replications. -/
def waitsOn (x : Shard) : List Cpl :=
  ([x.pendingCpl, x.round.bind (·.2.2)]).filterMap id ++ x.pendRepl.map (·.2.2)

theorem freedAndCancelled_shards (s : State) (b i : Nat) (x : Shard) (waits : List Cpl) (n : Nat) :
    (freedAndCancelled s b i x waits n).shards = s.shards := by
  have hframe : Frame [.host, .out, .spent] s (freedAndCancelled s b i x waits n) :=
    foldl_frame (freeCopies_frame (.refl s) (by decide) (by decide)) fun _ _ h => due_frame h (by decide)
  exact hframe.shards

theorem freeCopies_addsPlain (s : State) (b i : Nat) (x : Shard) : addsPlain s (freeCopies s b i x) :=
  addsPlain_foldl (fun _ _ => send_addsPlain ..) s

theorem freedAndCancelled_addsPlain (s : State) (b i : Nat) (x : Shard) (waits : List Cpl) (n : Nat) :
    addsPlain s (freedAndCancelled s b i x waits n) :=
  (freeCopies_addsPlain s b i x).trans (addsPlain_foldl (fun _ _ => due_addsPlain ..) _)

theorem sendSegs_shards (s : State) (b : Nat) (m : ModuleId) (l : List VecSeg) : (sendSegs s b m l).shards = s.shards :=
  (sendSegs_frame (pm := [.out, .spent]) (.refl s) (by decide) (by decide)).shards

theorem sendSegs_addsPlain (s : State) (b : Nat) (m : ModuleId) (l : List VecSeg) : addsPlain s (sendSegs s b m l) :=
  addsPlain_foldl (fun _ _ => send_addsPlain ..) s

/-- A bench's flash key is no shard's. -/
theorem makeKey_shards (s : State) (b : Nat) : (makeKey s b).shards = s.shards :=
  (makeKey_frame (pm := [.sec, .fresh]) (.refl s) (by decide) (by decide)).shards

theorem makeKey_out (s : State) (b : Nat) : (makeKey s b).out = s.out :=
  (makeKey_frame (pm := [.sec, .fresh]) (.refl s) (by decide) (by decide)).out

/-! ## The operations -/

/-- A VEC_MERGE of operation `op` on shard `i`, its layout in order, meets a bench that takes it (R70, R288). -/
structure MergeOp (s : State) (b : Nat) (r : BitVec 512) (op i : Nat) : Prop where
  layout : vecFieldsOk r (op == 1) false (op == 5 || op == 6) = true
  known : op ≤ 6
  asked : fieldOf r 135 128 = op
  names : fieldOf r 415 384 = i
  bench : vecGate s b = none

/-- A VEC_MERGE meets the primary of its shard. -/
structure MergeOfShard (s : State) (b : Nat) (r : BitVec 512) (op i : Nat) (x : Shard) : Prop
    extends MergeOp s b r op i where
  here : shard s i = some x
  onBench : x.bench = b
  primary : x.replica = false

/-- The shard of an image that is sound: not serving yet, its descriptor waiting (R282, R288). -/
def newShard (c : Cpl) (h : BitVec 512) (book : Option Codebook) (segs : List VecSeg) : Shard :=
  let x : Shard := { hdr := h, bench := c.bench, book := book, entryNode := fieldOf h 415 384, pendingCpl := some c }
  { x with graph := (segs.flatMap (·.recs)).map (fun v => { v with norm := recNorm x v }) }

/-- An image with a header in order, named as the descriptor names it, in the bytes it gives, for a shard that is not
here (R288). -/
structure MeetsImage (s : State) (r : BitVec 512) (i : Nat) (h : BitVec 512) (book : Option Codebook)
    (segs : List VecSeg) : Prop where
  header : shardHdrOk h book = true
  named : vId h = i
  unknown : shard s i = none
  bytes : imageBytes h book segs ≤ fieldOf r 447 416

section
variable {s : State} {c : Cpl} {d : HostDesc} {i : Nat} (n : Nat)

section
variable {h : BitVec 512} {book : Option Codebook} {segs : List VecSeg} (ho : MergeOp s c.bench d.raw 1 i)
  (hd : d.data = .shard h book segs) (him : MeetsImage s d.raw i h book segs)
include ho hd him

/-- A sound image becomes a shard (R288). -/
theorem applyVecMerge_creates (hcrc : ∀ g ∈ segs, segCrcOk h g = true) (hok : imageOk h segs = true)
    (hmany : s.shards.length < 256) (hroom : shardFits s c.bench (fieldOf h 383 352 * strideNode h) = true) :
    applyVecMerge c d n s = putShard s i (newShard c h book segs) := by
  have hsound : segs.any (fun g => !segCrcOk h g) = false := by simpa using hcrc
  have hl : vecFieldsOk d.raw true false false = true := ho.layout
  simp [applyVecMerge, hl, ho.asked, ho.names, ho.bench, hd, him.header, him.named, him.unknown,
    Nat.not_lt.mpr him.bytes, hsound, hok, Nat.not_le.mpr hmany, hroom, newShard]

/-- An image with a segment whose crc fails is counted, logged, and answered as corrupt (R284). -/
theorem applyVecMerge_corrupt (hcrc : ∃ g ∈ segs, segCrcOk h g = false) :
    applyVecMerge c d n s =
      due (logErr (count s (bn c.bench 0x420) 1) .block 1 (b := c.bench) (d0 := i)) c .blockCorrupt 0 n := by
  have hbad : segs.any (fun g => !segCrcOk h g) = true := by simpa using hcrc
  have hl : vecFieldsOk d.raw true false false = true := ho.layout
  simp [applyVecMerge, hl, ho.asked, ho.names, ho.bench, hd, him.header, him.named, him.unknown,
    Nat.not_lt.mpr him.bytes, hbad]

end

section
variable {op : Nat} {x : Shard} (ho : MergeOfShard s c.bench d.raw op i x)
include ho

/-- A merge starts a round over the whole spoil list (R296). -/
theorem applyVecMerge_merges (hop : op = 0) (ha : x.archived = false) (hr : x.round = none) :
    applyVecMerge c d n s = putShard s i { x with round := some (x.spoil.length, 0, some c) } := by
  subst hop
  have hl : vecFieldsOk d.raw false false false = true := ho.layout
  simp [applyVecMerge, hl, ho.asked, ho.names, ho.bench, ho.here, ho.onBench, ho.primary, ha, hr]

/-- A drop frees the replicas, cancels what waits, and takes the shard away. -/
theorem applyVecMerge_drops (hop : op = 2) :
    applyVecMerge c d n s = due { freedAndCancelled s c.bench i x (waitsOn x) n with
      shards := tdel (freedAndCancelled s c.bench i x (waitsOn x) n).shards i } c .ok 0 n := by
  subst hop
  have hl : vecFieldsOk d.raw false false false = true := ho.layout
  simp [applyVecMerge, hl, ho.asked, ho.names, ho.bench, ho.here, ho.onBench, ho.primary, freedAndCancelled,
    waitsOn]

/-- An archive moves the shard to flash: it serves no more and its replicas are freed, also those still being copied
(log entry 10). -/
theorem applyVecMerge_archives (hop : op = 3) (ha : x.archived = false) (hf : hasFlash s = true) (hsp : x.spoil = [])
    (hr : x.round = none) (hfit : fits s c.bench .flash (shardBytes x) = true) (hw : flashWaits s = false) :
    applyVecMerge c d n s =
      due (makeKey (putShard (freedAndCancelled s c.bench i x (x.pendRepl.map (·.2.2)) n) i
        { x with archived := true, serving := false, replicas := [], pendRepl := [] }) c.bench) c .ok 0 n := by
  subst hop
  have hl : vecFieldsOk d.raw false false false = true := ho.layout
  simp [applyVecMerge, hl, ho.asked, ho.names, ho.bench, ho.here, ho.onBench, ho.primary, ha, hf, hsp, hr, hfit,
    hw, freedAndCancelled, List.foldl_map]

/-- A restore of an archived shard waits for its data. -/
theorem applyVecMerge_restores (hop : op = 4) (ha : x.archived = true) (hp : x.pendingCpl = none)
    (hroom : shardFits s c.bench (shardBytes x) = true) :
    applyVecMerge c d n s = putShard s i { x with pendingCpl := some c } := by
  subst hop
  have hl : vecFieldsOk d.raw false false false = true := ho.layout
  simp [applyVecMerge, hl, ho.asked, ho.names, ho.bench, ho.here, ho.onBench, ho.primary, ha, hp, hroom]

variable {m : ModuleId} {b : Nat} (hm : m = BitVec.ofNat 16 (fieldOf d.raw 127 112)) (hb : b = fieldOf d.raw 111 108)
include hm hb

/-- A replication copies the shard to a module that has no replica there and none on the way. -/
theorem applyVecMerge_replicates (hop : op = 5) (ha : x.archived = false) (hnew : (m, b) ∉ x.replicas)
    (hway : ∀ p ∈ x.pendRepl, p.1 ≠ m) (hself : m ≠ s.fab.self) :
    applyVecMerge c d n s = putShard (sendSegs s c.bench m (copySegs x n b)) i
      { x with pendRepl := x.pendRepl ++ [(m, b, c)] } := by
  subst hop hm hb
  have hfree : (x.pendRepl.any fun p => p.1 == BitVec.ofNat 16 (fieldOf d.raw 127 112)) = false := by simpa using hway
  have hl : vecFieldsOk d.raw false false true = true := ho.layout
  simp [applyVecMerge, hl, ho.asked, ho.names, ho.bench, ho.here, ho.onBench, ho.primary, ha, hnew, hfree, hself]

/-- The end of a replication frees that replica. -/
theorem applyVecMerge_unreplicates (hop : op = 6) (ha : x.archived = false) (hhas : (m, b) ∈ x.replicas) :
    applyVecMerge c d n s = due (putShard (send s m (some c.bench) (.vecFree i)) i
      { x with replicas := x.replicas.filter (· != (m, b)) }) c .ok 0 n := by
  subst hop hm hb
  have hl : vecFieldsOk d.raw false false true = true := ho.layout
  simp [applyVecMerge, hl, ho.asked, ho.names, ho.bench, ho.here, ho.onBench, ho.primary, ha, hhas]

end

end

/-! ## The statement -/

/-- Settles O22. Each operation puts or takes away the row of its own shard, and what follows step 1 touches no shard. The
archive clause holds with a replication in progress too, by the model's own choice (log entry 10). -/
theorem shardOperationsChangeTheirShard : Obligations.ShardOperationsChangeTheirShard := by
  rintro s d i op b m h0 hq ha hg rfl rfl hknown hl hgate rfl rfl
  have hop : MergeOp (atLanding s d) (cplOf s d).bench d.raw (fieldOf d.raw 135 128) (fieldOf d.raw 415 384) :=
    ⟨hl, hknown, rfl, rfl, hgate⟩
  constructor
  · intro h book segs h1 hd hh hid hnone hbytes
    rw [h1] at hop
    have him : MeetsImage (atLanding s d) d.raw (fieldOf d.raw 415 384) h book segs := ⟨hh, hid, hnone, hbytes⟩
    refine ⟨fun hcrc hok hmany hroom => ?sound, fun hcrc => ?corrupt⟩
    case sound =>
      obtain ⟨u, hu, hself, hother⟩ := vecMerge_row_puts h0 hq ha hg
        (applyVecMerge_creates _ hop hd him hcrc hok hmany hroom) (.of_eq rfl) rfl
      exact ⟨u, hu, by rw [hself]; simp [newShard, cplOf], by rw [hself]; rfl, hother⟩
    case corrupt =>
      have hlog := logErr_addsPlain (count (atLanding s d) (bn (dBench d) 0x420) 1) .block 1 (dBench d) ⟨.none, 0⟩
        (fieldOf d.raw 415 384) 0
      obtain ⟨u, hu, hshards, hbar⟩ := vecMerge_row h0 hq ha hg (applyVecMerge_corrupt _ hop hd him hcrc)
        (hlog.trans (due_addsPlain ..))
      refine ⟨u, hu, hshards.trans (logErr_shards ..), ?_⟩
      rw [hbar, due_bar, logErr_bar]
      exact tget_tput_self ..
  · intro x hx hon hrep
    have hof : MergeOfShard (atLanding s d) (cplOf s d).bench d.raw (fieldOf d.raw 135 128) (fieldOf d.raw 415 384) x :=
      { hop with here := hx, onBench := hon, primary := hrep }
    refine ⟨fun hop harc hr => ?merge, fun hop => ?drop, fun hop harc hf hsp hr hfit hw => ?archive,
      fun hop harc hp hroom => ?restore, fun hop harc hnew hway hself => ?replicate, fun hop harc hhas => ?unreplicate⟩
    case merge =>
      exact vecMerge_row_puts h0 hq ha hg (applyVecMerge_merges _ hof hop harc hr) (.of_eq rfl) rfl
    case drop =>
      obtain ⟨u, hu, hshards, -⟩ := vecMerge_row h0 hq ha hg (applyVecMerge_drops _ hof hop)
        ((freedAndCancelled_addsPlain ..).keep rfl)
      rw [due_shards, freedAndCancelled_shards] at hshards
      exact ⟨u, hu, shard_of_tdel hshards⟩
    case archive =>
      exact vecMerge_row_puts h0 hq ha hg (applyVecMerge_archives _ hof hop harc hf hsp hr hfit hw)
        ((freedAndCancelled_addsPlain ..).keep (makeKey_out ..))
        ((makeKey_shards ..).trans (congrArg (tput · _ _) (freedAndCancelled_shards ..)))
    case restore =>
      exact vecMerge_row_puts h0 hq ha hg (applyVecMerge_restores _ hof hop harc hp hroom) (.of_eq rfl) rfl
    case replicate =>
      exact vecMerge_row_puts h0 hq ha hg (applyVecMerge_replicates _ hof rfl rfl hop harc hnew hway hself)
        ((sendSegs_addsPlain ..).keep (putShard_out ..))
        ((putShard_shards ..).trans (congrArg (tput · _ _) (sendSegs_shards ..)))
    case unreplicate =>
      exact vecMerge_row_puts h0 hq ha hg (applyVecMerge_unreplicates _ hof rfl rfl hop harc hhas)
        ((send_addsPlain ..).keep rfl) (congrArg (tput · _ _) (send_shards ..))

end Sys2Proof.Machine
end

section
/-! SUPPORT. Rack memory (R313, R323): a run of bytes reads back, a masked one where its mask says so, and no
command leaves the canonical form. -/

namespace Sys2Proof.Machine

/-! ## Reads after writes -/

/-- A byte after a run of bytes written from `a` up: the run's own, where it reaches. -/
theorem memRead_writeBytes (m : List Host.Cell) (a c : Nat) (bs : List Byte) :
    memRead (memWriteBytes m a bs) c = if a ≤ c then (bs[c - a]?).getD (memRead m c) else memRead m c := by
  induction bs generalizing m a with
  | nil => simp [memWriteBytes]
  | cons b bs ih =>
    rw [memWriteBytes, ih, memRead_write]
    rcases Nat.lt_trichotomy c a with h | rfl | h
    · rw [if_neg (by omega), if_neg (by omega), if_neg (by omega)]
    · simp
    · rw [if_pos (by omega), if_neg (by omega), if_pos (by omega), show c - a = c - (a + 1) + 1 by omega,
        List.getElem?_cons_succ]

/-- A byte after a masked run, whose bytes have the numbers from `i` up: the run's own, where it reaches and the mask
bit is 1. -/
theorem memRead_writeMask (m : List Host.Cell) (a k i c : Nat) (bs : List Byte) :
    memRead (memWriteMask m a k i bs) c =
      if a + i ≤ c ∧ k.testBit (c - a) then (bs[c - (a + i)]?).getD (memRead m c) else memRead m c := by
  induction bs generalizing m i with
  | nil => simp [memWriteMask]
  | cons b bs ih =>
    rw [memWriteMask, ih]
    have hput : memRead (if k.testBit i then memWrite m (a + i) b else m) c =
        if a + i = c ∧ k.testBit i then b else memRead m c := by
      split <;> simp_all [memRead_write]
    rw [hput]
    rcases Nat.lt_trichotomy c (a + i) with h | rfl | h
    · rw [if_neg (by omega), if_neg (by omega), if_neg (by omega)]
    · rw [if_neg (by omega)]
      simp
    · rw [if_neg (c := a + i = c ∧ _) (by omega), show c - (a + i) = c - (a + (i + 1)) + 1 by omega,
        List.getElem?_cons_succ]
      exact if_congr (and_congr_left' (by omega)) rfl rfl

/-- Settles O7. -/
theorem memoryWritesReadBack : Obligations.MemoryWritesReadBack := by
  refine ⟨fun m a c bs => ?_, fun m a k c bs => ?_⟩
  · rw [memRead_writeBytes]
    split
    · by_cases hc : c < a + bs.length
      · rw [dif_pos ⟨‹_›, hc⟩, List.getElem?_eq_getElem (by omega), Option.getD_some]
      · rw [dif_neg (by omega), List.getElem?_eq_none (by omega), Option.getD_none]
    · rw [dif_neg (by omega)]
  · rw [memRead_writeMask, Nat.add_zero]
    by_cases hc : a ≤ c ∧ c < a + bs.length
    · rw [dif_pos hc, List.getElem?_eq_getElem (by omega), Option.getD_some]
      exact if_congr (and_iff_right hc.1) rfl rfl
    · rw [dif_neg hc]
      split
      · rw [List.getElem?_eq_none (by omega), Option.getD_none]
      · rfl

/-! ## The canonical form -/

/-- Settles O3: nothing is listed. -/
theorem resetMemoryIsCanonical : Obligations.ResetMemoryIsCanonical := by
  unfold Obligations.ResetMemoryIsCanonical
  rfl

/-- Settles O4: a step is the idle step or its front command's, whose frame keeps the canonical form. -/
theorem everyStepKeepsMemoryCanonical : Obligations.EveryStepKeepsMemoryCanonical := by
  intro s t hs h
  cases hp : s.pending with
  | nil =>
    rw [emptyQueueIdles s hp] at h
    cases h
    exact hs
  | cons c rest =>
    have hrun : step s = exec c { s with pending := rest } := by
      simpa [← hp] using stepRunsFrontCommand c rest s
    have hframe : Frame (touched c) { s with pending := rest } t := exec_frame (hrun ▸ h)
    exact hframe.mem hs

end Sys2Proof.Machine
end

section
/-! SUPPORT. What leaves the module over its links (R304, R314, R328): it changes queues, replay buffers, credits and
the packets that wait to combine or to be answered, and nothing else of the fabric. -/

namespace Sys2Proof.Machine

/-! ## Links -/

theorem linkOf_setLink (s : State) (l k : Nat) (f : Link → Link) :
    linkOf (setLink s l f) k = if l = k then f (linkOf s l) else linkOf s k := by
  split
  · next h =>
    subst h
    exact tgetD_tput_self ..
  · next h => exact tgetD_tput_other _ _ h

@[simp] theorem linkOf_setLink_self (s : State) (l : Nat) (f : Link → Link) :
    linkOf (setLink s l f) l = f (linkOf s l) :=
  tgetD_tput_self ..

theorem linkOf_setLink_other (s : State) {l k : Nat} (f : Link → Link) (h : l ≠ k) :
    linkOf (setLink s l f) k = linkOf s k :=
  tgetD_tput_other _ _ h

theorem linkOf_of_fab {s u : State} (h : u.fab = s.fab) (l : Nat) : linkOf u l = linkOf s l := by
  unfold linkOf
  rw [h]

@[simp] theorem linkOf_at (s : State) (t : Stamp) (l : Nat) : linkOf (s.at t) l = linkOf s l := rfl

@[simp] theorem linkOf_onLink (s : State) (k l : Nat) (r : LinkRec) : linkOf (onLink s k r) l = linkOf s l := rfl

@[simp] theorem linkOf_logErr (s : State) (c : ErrClass) (k b : Nat) (u : UnitId) (d0 d1 l : Nat) :
    linkOf (logErr s c k b u d0 d1) l = linkOf s l :=
  linkOf_of_fab (logErr_fab ..) l

/-! ## Outputs -/

/-- What follows the outputs of a state leaves them in their places. -/
theorem addsPlain.isPrefix {s v : State} (h : addsPlain s v) : s.out <+: v.out := by
  obtain ⟨l, h, -⟩ := h
  exact ⟨l, h.symm⟩

theorem emit_prefix (s : State) (o : Output) : s.out <+: (emit s o).out := List.prefix_append ..

theorem onLink_prefix (s : State) (l : Nat) (r : LinkRec) : s.out <+: (onLink s l r).out := emit_prefix ..

theorem mem_onLink (s : State) (l : Nat) (r : LinkRec) : .onLink l r ∈ (onLink s l r).out :=
  List.mem_append_right _ (List.mem_singleton_self _)

/-! ## The series to a target (R318) -/

theorem srcCtx_setSrc (s : State) (d e : ModuleId) (f : SrcCtx → SrcCtx) :
    srcCtx (setSrc s d f) e = if d = e then f (srcCtx s d) else srcCtx s e := by
  split
  · next h =>
    subst h
    exact tgetD_tput_self ..
  · next h => exact tgetD_tput_other _ _ (fun e => h (BitVec.eq_of_toNat_eq e))

@[simp] theorem srcCtx_setSrc_self (s : State) (d : ModuleId) (f : SrcCtx → SrcCtx) :
    srcCtx (setSrc s d f) d = f (srcCtx s d) :=
  tgetD_tput_self ..

/-- The unanswered packet of a number in a series. -/
def outOf (c : SrcCtx) (q : Nat) : Option OutPkt := (c.out.find? (fun o => o.1 == q)).map (·.2)

theorem outPkt_eq (s : State) (d : ModuleId) (q : Nat) : outPkt s d q = outOf (srcCtx s d) q := rfl

/-- A packet added to a series is behind those already there. -/
theorem outOf_append {c : SrcCtx} {q n : Nat} {o : OutPkt} (x : Nat × OutPkt) (h : outOf c q = some o) :
    outOf { c with next := n, out := c.out ++ [x] } q = some o := by
  obtain ⟨y, hy, rfl⟩ := Option.map_eq_some_iff.mp h
  simp [outOf, List.find?_append, hy]

/-- What changes the packets of a series but not their numbers changes the packet of a number. -/
theorem outOf_map {c : SrcCtx} {q : Nat} {o : OutPkt} {f : Nat × OutPkt → Nat × OutPkt} (hf : ∀ x, (f x).1 = x.1)
    (h : outOf c q = some o) : outOf { c with out := c.out.map f } q = some (f (q, o)).2 := by
  obtain ⟨y, hy, rfl⟩ := Option.map_eq_some_iff.mp h
  obtain rfl : y.1 = q := by simpa using List.find?_some hy
  have hkey : (fun x : Nat × OutPkt => x.1 == y.1) ∘ f = fun x => x.1 == y.1 := funext fun x => by simp [hf]
  simp only [outOf, List.find?_map, hkey, hy, Option.map_some]

/-! ## What a packet that leaves changes -/

/-- A link without what its traffic moves: queue, replay buffer, numbering and credits. -/
def linkCore (x : Link) : Link := { x with queue := [], txBuf := [], txNext := 0, credits := (0, 0, 0, 0) }

/-- The fabric without links, combining packets, held buffers and unanswered packets. -/
def fabCore (f : FabSt) : FabSt := { f with links := [], comb := [], owed := [], src := [] }

/-- `u` differs from `s` by packets and credits that left the module: links differ by their traffic, the fabric by it
and by what combines, outputs are added, FB_COMBINED (R498) is the one counter that moves, and no packet loses its
place or its tries among the unanswered ones. -/
structure Sends (s u : State) : Prop where
  fab : fabCore u.fab = fabCore s.fab
  fault : u.fault = s.fault
  link : ∀ l, linkCore (linkOf u l) = linkCore (linkOf s l)
  out : s.out <+: u.out
  live : ∀ o, o ≠ 0x40058 → tget u.bar.live o = tget s.bar.live o
  tries : ∀ d q o, outPkt s d q = some o → ∃ o', outPkt u d q = some o' ∧ o'.tries = o.tries

namespace Sends

theorem refl (s : State) : Sends s s :=
  ⟨rfl, rfl, fun _ => rfl, List.prefix_rfl, fun _ _ => rfl, fun _ _ o h => ⟨o, h, rfl⟩⟩

theorem trans {s t u : State} (h1 : Sends s t) (h2 : Sends t u) : Sends s u where
  fab := h2.fab.trans h1.fab
  fault := h2.fault.trans h1.fault
  link l := (h2.link l).trans (h1.link l)
  out := h1.out.trans h2.out
  live o ho := (h2.live o ho).trans (h1.live o ho)
  tries d q o h := by
    obtain ⟨x, hx, hxt⟩ := h1.tries d q o h
    obtain ⟨y, hy, hyt⟩ := h2.tries d q x hx
    exact ⟨y, hy, hyt.trans hxt⟩

theorem foldl {α : Type} {f : State → α → State} (hf : ∀ s x, Sends s (f s x)) (l : List α) (s : State) :
    Sends s (l.foldl f s) := by
  induction l generalizing s with
  | nil => exact refl s
  | cons a l ih => exact (hf s a).trans (ih _)

/-- A change outside links and unanswered packets. -/
theorem of_eq {s u : State} (hfab : fabCore u.fab = fabCore s.fab) (hfault : u.fault = s.fault)
    (hlinks : u.fab.links = s.fab.links) (hsrc : u.fab.src = s.fab.src) (hout : s.out <+: u.out)
    (hlive : ∀ o, o ≠ 0x40058 → tget u.bar.live o = tget s.bar.live o) : Sends s u where
  fab := hfab
  fault := hfault
  link l := by rw [linkOf, linkOf, hlinks]
  out := hout
  live := hlive
  tries d q o h := ⟨o, by rw [outPkt, srcCtx, hsrc]; exact h, rfl⟩

/-- A link keeps what its traffic does not move. -/
theorem setLink (s : State) (l : Nat) {f : Link → Link} (hf : ∀ x, linkCore (f x) = linkCore x) :
    Sends s (setLink s l f) where
  fab := rfl
  fault := rfl
  link k := by
    rw [linkOf_setLink]
    split
    · next h => rw [hf, h]
    · rfl
  out := List.prefix_rfl
  live _ _ := rfl
  tries _ _ o h := ⟨o, h, rfl⟩

/-- A series keeps its unanswered packets and their tries. -/
theorem setSrc (s : State) (d : ModuleId) {f : SrcCtx → SrcCtx}
    (hf : ∀ c q o, outOf c q = some o → ∃ o', outOf (f c) q = some o' ∧ o'.tries = o.tries) :
    Sends s (setSrc s d f) where
  fab := rfl
  fault := rfl
  link _ := rfl
  out := List.prefix_rfl
  live _ _ := rfl
  tries e q o h := by
    rw [outPkt_eq, srcCtx_setSrc]
    split
    · next he => exact hf _ q o (he ▸ h)
    · exact ⟨o, h, rfl⟩

theorem onLink (s : State) (l : Nat) (r : LinkRec) : Sends s (onLink s l r) :=
  of_eq rfl rfl rfl rfl (onLink_prefix ..) fun _ _ => rfl

theorem send (s : State) (d : ModuleId) (b : Option Nat) (m : Msg) : Sends s (send s d b m) :=
  of_eq (by rw [send_fab]) (send_fault ..) (by rw [send_fab]) (by rw [send_fab]) (send_addsPlain ..).isPrefix
    fun _ _ => by rw [send_bar]

/-- A further change of the fabric outside links and unanswered packets. -/
theorem withFab {s u : State} {a : FabSt} (h : Sends s u) (hfab : fabCore a = fabCore u.fab)
    (hlinks : a.links = u.fab.links) (hsrc : a.src = u.fab.src) : Sends s { u with fab := a } :=
  h.trans (of_eq hfab rfl hlinks hsrc List.prefix_rfl fun _ _ => rfl)

/-- A packet that combines is counted in the counter of R328. -/
theorem count (s : State) (n : Nat) : Sends s (count s 0x40058 n) :=
  of_eq rfl rfl rfl rfl List.prefix_rfl fun _ ho => tget_tput_other _ _ ho.symm

/-! ## What is kept -/

variable {s u : State}

theorem mem (h : Sends s u) : u.fab.mem = s.fab.mem :=
  (congrArg FabSt.mem h.fab :)
theorem tgt (h : Sends s u) : u.fab.tgt = s.fab.tgt :=
  (congrArg FabSt.tgt h.fab :)
theorem xfers (h : Sends s u) : u.fab.xfers = s.fab.xfers :=
  (congrArg FabSt.xfers h.fab :)
theorem state (h : Sends s u) (l : Nat) : (linkOf u l).state = (linkOf s l).state :=
  (congrArg Link.state (h.link l) :)
theorem enc (h : Sends s u) (l : Nat) : (linkOf u l).enc = (linkOf s l).enc :=
  (congrArg Link.enc (h.link l) :)
theorem rxNext (h : Sends s u) (l : Nat) : (linkOf u l).rxNext = (linkOf s l).rxNext :=
  (congrArg Link.rxNext (h.link l) :)

end Sends

/-! ## Each way out -/

theorem linkCore_setCredit (x : Link) (cls : Nat) (f : Nat → Nat) : linkCore (setCredit x cls f) = linkCore x := rfl

theorem transmit_sends (s : State) (l : Nat) (p : Packet) : Sends s (transmit s l p) := by
  unfold transmit
  dsimp only
  have hmoved := Sends.setLink s l (f := fun x =>
    { setCredit x (pClass p) (· - pUnits p) with
      txNext := (((linkOf s l).txNext + flitsOf (pUnits p) - 1) % 4096 + 1) % 4096
      txBuf := (setCredit x (pClass p) (· - pUnits p)).txBuf ++
        [(((linkOf s l).txNext + flitsOf (pUnits p) - 1) % 4096, 0, p)] }) (fun _ => rfl)
  split
  · exact hmoved.trans (.of_eq rfl rfl rfl rfl (emit_prefix ..) fun _ _ => rfl)
  · exact hmoved.trans (.of_eq rfl rfl rfl rfl (emit_prefix ..) fun _ _ => rfl)

theorem returnCredits_sends (s : State) : Sends s (returnCredits s) := by
  unfold returnCredits
  refine Sends.trans ?_ (Sends.foldl (fun u x => ?_) _ _)
  · exact .of_eq rfl rfl rfl rfl List.prefix_rfl fun _ _ => rfl
  · split
    · exact .of_eq rfl rfl rfl rfl List.prefix_rfl fun _ _ => rfl
    · split
      · exact .onLink ..
      · exact .refl u

/-- What waits on a link leaves it or waits on. -/
theorem drainLink_sends (s : State) (l : Nat) : Sends s (drainLink s l) := by
  unfold drainLink
  refine Sends.trans ?_ (returnCredits_sends _)
  refine Sends.trans ?_ (.setLink _ _ ?_)
  case refine_2 => exact fun _ => rfl
  refine List.foldlRecOn (motive := fun a : State × List Packet => Sends s a.1) _ _ (.refl s) fun a ha p _ => ?_
  split
  · exact ha.trans (transmit_sends ..)
  · exact ha

theorem addCredit_sends (s : State) (l cls n : Nat) : Sends s (addCredit s l cls n) :=
  (Sends.setLink s l fun x => linkCore_setCredit x cls (· + n)).trans (drainLink_sends ..)

/-- The packet of a number in a series, in another form. -/
def reform (n : Nat) (p : Packet) (o : Nat × OutPkt) : Nat × OutPkt :=
  if o.1 = n then (o.1, { o.2 with p := p }) else o

theorem reform_key (n : Nat) (p : Packet) (o : Nat × OutPkt) : (reform n p o).1 = o.1 := by
  unfold reform
  split <;> rfl

theorem reform_tries (n : Nat) (p : Packet) (o : Nat × OutPkt) : (reform n p o).2.tries = o.2.tries := by
  unfold reform
  split <;> rfl

/-- A packet that joins one in a queue: the queue and this module's own series change, and no series loses a packet. -/
theorem mergeInto_sends (s : State) (l : Nat) (q p : Packet) : Sends s (mergeInto s l q p) := by
  unfold mergeInto
  extract_lets cons put again put1 sent1 fab1 seq first put2 o sent2 fab2
  have hput (c : Packet) : Sends s (put s c) := by
    refine Sends.trans (.setLink _ _ ?_) (.count _ 1)
    exact fun _ => rfl
  have hsent1 : Sends put1 sent1 := .setSrc _ _ fun _ n x hx =>
    ⟨_, outOf_map (f := reform (pSeq q) again) (reform_key _ _) hx, reform_tries ..⟩
  have hsent2 : Sends put2 sent2 := .setSrc _ _ fun _ _ x hx => ⟨x, outOf_append _ hx, rfl⟩
  split
  · refine Sends.trans ?_ (returnCredits_sends _)
    exact ((hput again).trans hsent1).withFab rfl rfl rfl
  · refine Sends.trans ?_ (returnCredits_sends _)
    exact ((hput first).trans hsent2).withFab rfl rfl rfl

theorem joinRead_sends {s v : State} {l : Nat} {p : Packet} (h : joinRead s l p = some v) : Sends s v := by
  unfold joinRead at h
  split at h <;> cases h
  refine Sends.trans ?_ (.count _ 1)
  exact Sends.withFab (.refl s) rfl rfl rfl

theorem place_sends (s : State) (l : Nat) (p : Packet) : Sends s (place s l p) := by
  unfold place
  split
  · exact joinRead_sends ‹_›
  · dsimp only
    split
    · exact transmit_sends ..
    · split
      · exact mergeInto_sends ..
      · exact .setLink _ _ fun _ => rfl

theorem launchAnswer_sends (s : State) (p : Packet) : Sends s (launchAnswer s p) := by
  unfold launchAnswer
  split
  · exact .send ..
  · split
    · exact place_sends ..
    · exact .refl s

theorem ackFloor_sends (s : State) (p : Packet) : Sends s (ackFloor s p) := launchAnswer_sends ..

theorem launch_sends (s : State) (p : Packet) : Sends s (launch s p) := by
  unfold launch
  split
  · exact .send ..
  · split
    · exact place_sends ..
    · split
      · exact launchAnswer_sends ..
      · exact .refl s

end Sys2Proof.Machine
end

section
/-! SUPPORT. Links (R302 to R311, R440 to R443, R468, R518): how one goes down, trains, exchanges keys, and what its
records and lanes change. -/

namespace Sys2Proof.Machine

/-! ## A link goes down (R317) -/

/-- Once a link is reset and its end logged, what it held is launched again. -/
theorem linkDown_sends (s : State) (l cause : Nat) (st : LinkState) : ∃ f : Link → Link,
    (∀ x, (f x).state = st ∧ (f x).enc = false) ∧
      Sends (logErr (setLink s l f) .link cause (u := ⟨.link, l⟩)) (linkDown s l cause st) :=
  ⟨_, fun _ => ⟨rfl, rfl⟩, (Sends.foldl launch_sends _ _).trans (returnCredits_sends _)⟩

theorem linkDown_state (s : State) (l cause : Nat) (st : LinkState) :
    (linkOf (linkDown s l cause st) l).state = st := by
  obtain ⟨f, hf, h⟩ := linkDown_sends s l cause st
  rw [h.state, linkOf_logErr, linkOf_setLink_self, (hf _).1]

theorem linkDown_enc (s : State) (l cause : Nat) (st : LinkState) : (linkOf (linkDown s l cause st) l).enc = false := by
  obtain ⟨f, hf, h⟩ := linkDown_sends s l cause st
  rw [h.enc, linkOf_logErr, linkOf_setLink_self, (hf _).2]

theorem linkDown_prod (s : State) (l cause : Nat) (st : LinkState) :
    (linkDown s l cause st).fault.prod = (s.fault.prod + 1) % 2 ^ 32 := by
  obtain ⟨f, -, h⟩ := linkDown_sends s l cause st
  rw [h.fault, logErr_prod, setLink_fault]

theorem linkDown_prefix (s : State) (l cause : Nat) (st : LinkState) : s.out <+: (linkDown s l cause st).out := by
  obtain ⟨f, -, h⟩ := linkDown_sends s l cause st
  exact (logErr_addsPlain (setLink s l f) ..).isPrefix.trans h.out

/-- An exchange that fails in training leaves the link REFUSED, and its ABORT is sent where this end gives up (R443). -/
theorem failExchange_training {s : State} {l : Nat} (sent : Bool) (h : (linkOf s l).state = .training) :
    (linkOf (failExchange s l sent) l).state = .refused ∧
      (sent = true → ∃ msg, .onLink l (.key 2 (linkOf s l).exchange msg) ∈ (failExchange s l sent).out) := by
  simp only [failExchange, if_pos h, refuseLink]
  refine ⟨linkDown_state .., fun hs => ⟨keyMessage s l 2 0 [], ?_⟩⟩
  rw [if_pos hs]
  exact ((logErr_addsPlain ..).isPrefix.trans (linkDown_prefix ..)).subset (mem_onLink ..)

/-! ## Training (R306, R307) -/

/-- What training starts with. -/
def atDetect (x : Link) : Link := { x with state := .training, step := 1, lanes := 0, ident := none }

theorem startTraining_of_mayTrain {s : State} {l : Nat} (h : mayTrain s l = true) :
    startTraining s l = setLink s l atDetect :=
  if_pos h

/-- A cable in one link of a cage (R517). -/
def cableLink (cage : Nat) (s : State) (k : Nat) : State :=
  if linkPresent s (4 * cage + k) then
    if (linkOf (setLink s (4 * cage + k) (fun x => { x with cable := true })) (4 * cage + k)).state = .down then
      startTraining (setLink s (4 * cage + k) (fun x => { x with cable := true })) (4 * cage + k)
    else setLink s (4 * cage + k) (fun x => { x with cable := true })
  else s

theorem exec_cableInsert {s : State} (h0 : s.pwr.off = false) (t : Stamp) (cage : Nat) :
    exec (.cableInsert t cage) s = .next ((List.range 4).foldl (cableLink cage) (s.at t)) :=
  run_on h0 t (fun s => (List.range 4).foldl (cableLink cage) s)

/-- What a cable in one link leaves of the others. -/
structure CableKeeps (l : Nat) (s u : State) : Prop where
  link : linkOf u l = linkOf s l
  stock : u.stock = s.stock
  bar : u.bar = s.bar

theorem cableLink_keeps {cage k l : Nat} (s : State) (h : 4 * cage + k ≠ l) : CableKeeps l s (cableLink cage s k) := by
  unfold cableLink startTraining
  split
  · split
    · split
      · exact ⟨by rw [linkOf_setLink_other _ _ h, linkOf_setLink_other _ _ h], rfl, rfl⟩
      · exact ⟨linkOf_setLink_other _ _ h, rfl, rfl⟩
    · exact ⟨linkOf_setLink_other _ _ h, rfl, rfl⟩
  · exact ⟨rfl, rfl, rfl⟩

theorem foldl_cableLink_keeps {cage l : Nat} {ks : List Nat} (s : State) (h : ∀ k ∈ ks, 4 * cage + k ≠ l) :
    CableKeeps l s (ks.foldl (cableLink cage) s) :=
  List.foldlRecOn (motive := CableKeeps l s) _ _ ⟨rfl, rfl, rfl⟩ fun u ⟨h1, h2, h3⟩ k hk => by
    obtain ⟨g1, g2, g3⟩ := cableLink_keeps u (h k hk)
    exact ⟨g1.trans h1, g2.trans h2, g3.trans h3⟩

/-- A present, enabled, DOWN link trains once it is cabled. -/
theorem linkOf_cableLink {s : State} {cage k : Nat} (hp : linkPresent s (4 * cage + k) = true)
    (he : linkEnabled s (4 * cage + k) = true) (hd : (linkOf s (4 * cage + k)).state = .down) :
    linkOf (cableLink cage s k) (4 * cage + k) = atDetect { linkOf s (4 * cage + k) with cable := true } := by
  have hmay : mayTrain (setLink s (4 * cage + k) fun x => { x with cable := true }) (4 * cage + k) = true := by
    rw [mayTrain, linkOf_setLink_self]
    exact Bool.and_eq_true_iff.mpr ⟨Bool.and_eq_true_iff.mpr ⟨hp, he⟩, rfl⟩
  rw [cableLink, if_pos hp, if_pos (by rw [linkOf_setLink_self]; exact hd), startTraining_of_mayTrain hmay,
    linkOf_setLink_self, linkOf_setLink_self]

/-- The cage's other links come before and after it. -/
theorem cage_trains {s : State} {cage k : Nat} (hk : k < 4) (hp : linkPresent s (4 * cage + k) = true)
    (he : linkEnabled s (4 * cage + k) = true) (hd : (linkOf s (4 * cage + k)).state = .down) :
    linkOf ((List.range 4).foldl (cableLink cage) s) (4 * cage + k) =
      atDetect { linkOf s (4 * cage + k) with cable := true } := by
  obtain ⟨as, bs, hsplit⟩ := List.append_of_mem (List.mem_range.mpr hk)
  have hnodup : (as ++ k :: bs).Nodup := hsplit ▸ List.nodup_range
  have hne : ∀ j ∈ as ++ bs, 4 * cage + j ≠ 4 * cage + k := fun j hj e => by
    obtain rfl : j = k := by omega
    exact (List.nodup_middle.mp hnodup).notMem hj
  obtain ⟨hlink, hstock, hbar⟩ := foldl_cableLink_keeps s fun j hj => hne j (List.mem_append_left _ hj)
  rw [hsplit, List.foldl_append, List.foldl_cons,
    (foldl_cableLink_keeps _ fun j hj => hne j (List.mem_append_right _ hj)).link, linkOf_cableLink ?_ ?_ ?_, hlink]
  · rwa [linkPresent, hstock]
  · rwa [linkEnabled, regVal, regVal, hbar]
  · rwa [hlink]

/-- A step but the exchange and the last leads to the next (R307). -/
theorem stepDone_next {s : State} {l : Nat} {lanes : BitVec 2} (ht : (linkOf s l).state = .training) (hl : lanes ≠ 0)
    (hstep : (linkOf s l).step = 1 ∨ (linkOf s l).step = 2 ∨ (linkOf s l).step = 3) :
    linkOf (stepDone l lanes s) l = { linkOf s l with lanes := lanes, step := (linkOf s l).step + 1 } ∧
      ((linkOf s l).step = 3 → .onLink l (.ident (identOf s l)) ∈ (stepDone l lanes s).out) := by
  rw [stepDone, if_neg (not_not_intro ht), if_pos hstep, if_neg hl]
  split
  · exact ⟨by rw [linkOf_onLink, linkOf_setLink_self], fun _ => mem_onLink ..⟩
  · exact ⟨by rw [linkOf_setLink_self], fun h => absurd h ‹_›⟩

/-- The last step makes the link carry packets (R307). -/
theorem stepDone_last {s : State} {l : Nat} {lanes : BitVec 2} (ht : (linkOf s l).state = .training)
    (hstep : (linkOf s l).step = 6) : stepDone l lanes s = linkReady s l := by
  rw [stepDone, if_neg (not_not_intro ht), if_neg (by omega), if_pos hstep]

theorem linkReady_state (s : State) (l : Nat) :
    (linkOf (linkReady s l) l).state = if laneCount (linkOf s l) = 2 then .active else .degraded := by
  simp [linkReady]

/-- A step out of time refuses the link at the exchange, and takes it down at any other (R307, R443). -/
theorem exec_trainingStepTimeout {s : State} {l : Nat} (h0 : s.pwr.off = false) (t : Stamp)
    (ht : (linkOf s l).state = .training) : exec (.trainingStepTimeout t l) s =
      .next (if (linkOf s l).step = 5 then failExchange (s.at t) l true else linkDown (s.at t) l 2) := by
  change execTrainingStepTimeout t l s = _
  rw [execTrainingStepTimeout, run_on h0]
  exact congrArg _ (if_neg (not_not_intro ht))

/-- Settles O32. -/
theorem linksTrain : Obligations.LinksTrain := by
  intro s t l h0
  refine ⟨?_, fun lanes ht hl => ⟨fun hstep => ?_, fun hstep => ?_⟩, fun ht => ?_,
    fun hm => ⟨fun hd => ?_, fun hr => ?_⟩⟩
  · rintro cage k rfl hk hp he hd
    have hl := cage_trains (s := s.at t) hk hp he hd
    exact ⟨_, exec_cableInsert h0 t cage, by rw [hl]; rfl, by rw [hl]; rfl, by rw [hl]; rfl⟩
  · obtain ⟨hlink, hident⟩ := stepDone_next (s := s.at t) ht hl hstep
    exact ⟨_, run_on h0 .., by rw [hlink]; rfl, by rw [hlink], hident⟩
  · exact ⟨_, (run_on h0 ..).trans (congrArg _ (stepDone_last (s := s.at t) ht hstep)), linkReady_state ..⟩
  · refine ⟨_, exec_trainingStepTimeout h0 t ht, ?_⟩
    split
    · exact (failExchange_training (s := s.at t) true ht).1
    · exact linkDown_state ..
  · exact (run_on h0 ..).trans (congrArg _ ((if_pos hd).trans (startTraining_of_mayTrain hm)))
  · exact (run_on h0 ..).trans (congrArg _ ((if_pos hr).trans (startTraining_of_mayTrain hm)))

end Sys2Proof.Machine
end

section
/-! SUPPORT. Key exchanges of links (R308, R309, R440 to R443): what each message leaves of its link and sends. -/

namespace Sys2Proof.Machine

/-! ## Messages sent -/

/-- HELLO begins the next exchange and is kept with it (R440). -/
theorem sendHello_link (s : State) (l : Nat) : ∃ msg,
    linkOf (sendHello s l) l = { clearExchange (linkOf s l) with
      exchange := (linkOf s l).exchange + 1, hello := msg, kemKey := s.fresh } ∧
    .onLink l (.key 0 ((linkOf s l).exchange + 1) msg) ∈ (sendHello s l).out := by
  unfold sendHello
  extract_lets s1 body msg
  have hlink : linkOf s1 l = { clearExchange (linkOf s l) with exchange := (linkOf s l).exchange + 1 } :=
    linkOf_setLink_self ..
  refine ⟨msg, ?_, ?_⟩
  · rw [linkOf_onLink, linkOf_setLink_self, linkOf_of_fab (State.bump_fab s1), hlink]
    rfl
  · rw [hlink]
    exact mem_onLink ..

/-- KEM answers the peer's HELLO and keeps it (R440). -/
theorem sendKem_link (s : State) (l : Nat) (m : KeyMsg) : ∃ v ct ss msg,
    linkOf v l = { linkOf s l with
      helloSeen := true, peerHello := leBytes 32 m.hdr.toNat ++ m.body, kemText := ct, kemShare := ss } ∧
    sendKem s l m = onLink v l (.key 1 (linkOf v l).exchange msg) :=
  ⟨_, _, _, _, linkOf_setLink_self s.bump l _, rfl⟩

/-! ## IDENT (R308) -/

/-- The state once the peer's IDENT is kept. -/
def identified (s : State) (l : Nat) (id : Ident) : State := setLink s l (fun x => { x with ident := some id })

section
variable {s : State} {l : Nat} {id : Ident} (ht : (linkOf s l).state = .training) (hstep : (linkOf s l).step = 4)
include ht hstep

theorem identReceived_misfit (h : id.linkFits = false) :
    identReceived l id s = refuseLink (identified s l id) l := by
  rw [identReceived, if_pos (.inl ⟨ht, hstep⟩), if_pos (by simp [h])]
  rfl

variable (hfit : id.linkFits = true) (hp : linkPresent s l = true) (henc : requireEnc s = true → id.supports = true)
include hfit hp henc

/-- What fits goes by its tick fields. -/
theorem identReceived_fits : identReceived l id s =
    if id.period ≠ period s ∨ id.backstop ≠ backstopPm s ∨ id.cutoff ≠ cutoffPm s then
      setLink (identified s l id) l (fun x => { x with state := .isolated })
    else if requireEnc s || id.requires then
      sendHello (setLink (identified s l id) l (fun x => { x with state := .training, step := 5, enc := true })) l
    else setLink (identified s l id) l (fun x => { x with state := .training, step := 6, enc := false }) := by
  rw [identReceived, if_pos (.inl ⟨ht, hstep⟩), if_neg (by cases hr : requireEnc s <;> simp_all)]
  rfl

theorem identReceived_isolated (h : id.period ≠ period s) :
    (linkOf (identReceived l id s) l).state = .isolated := by
  rw [identReceived_fits ht hstep hfit hp henc, if_pos (.inl h), linkOf_setLink_self]

/-- The exchange follows where either end requires encryption, the last step otherwise. -/
theorem identReceived_goesOn (h1 : id.period = period s) (h2 : id.backstop = backstopPm s)
    (h3 : id.cutoff = cutoffPm s) :
    (linkOf (identReceived l id s) l).state = .training ∧ (linkOf (identReceived l id s) l).ident = some id ∧
      (linkOf (identReceived l id s) l).step = (if requireEnc s || id.requires then 5 else 6) ∧
      (linkOf (identReceived l id s) l).enc = (requireEnc s || id.requires) := by
  rw [identReceived_fits ht hstep hfit hp henc, if_neg (by simp [h1, h2, h3])]
  by_cases hreq : (requireEnc s || id.requires) = true
  · obtain ⟨msg, hlink, -⟩ := sendHello_link
      (setLink (identified s l id) l (fun x => { x with state := .training, step := 5, enc := true })) l
    rw [if_pos hreq, hlink]
    simp [hreq, identified, clearExchange]
  · simp [hreq, identified]

end

/-! ## The exchange (R440 to R443) -/

/-- KEM gives the secret and the first key, and erases what the exchange held (R441). -/
theorem takeSecret_link (s : State) (l : Nat) (ct : List Byte) :
    (linkOf (takeSecret s l ct) l).secret = linkSecret s l ct ∧
      (linkOf (takeSecret s l ct) l).txKey = linkKey (linkSecret s l ct) s.fab.self l 0 ∧
      (linkOf (takeSecret s l ct) l).helloSeen = false ∧ (linkOf (takeSecret s l ct) l).kemShare = 0 ∧
      ((linkOf s l).state = .training →
        (linkOf (takeSecret s l ct) l).step = 6 ∧ (linkOf (takeSecret s l ct) l).rxKeys = [0]) := by
  unfold takeSecret
  extract_lets x secret keyed idx
  split
  · rw [linkOf_setLink_self]
    exact ⟨rfl, rfl, rfl, rfl, fun _ => ⟨rfl, rfl⟩⟩
  · rw [linkOf_onLink, linkOf_setLink_self]
    exact ⟨rfl, rfl, rfl, rfl, fun h => absurd h ‹_›⟩

section
variable {s : State} {l : Nat} (h0 : s.pwr.off = false) (t : Stamp) (hx : exchanging s l = true) {m : KeyMsg}
include h0 hx

/-- A sound HELLO in an exchange is answered by KEM. -/
theorem exec_keyHello (hm : keyMsgOk s l 0 m = true) (hchain : m.chainOk = true)
    (hsvn : regF s 0x80038 31 0 ≤ m.peerSvn) : exec (.keyHello t l m) s = .next (sendKem (s.at t) l m) := by
  have hok : (keyMsgOk s l 0 m && m.chainOk && decide (regF s 0x80038 31 0 ≤ m.peerSvn)) = true := by
    simp [hm, hchain, hsvn]
  have hin : exchanging (s.at t) l = true := hx
  change execKeyHello t l m s = _
  rw [execKeyHello, run_on h0]
  exact congrArg _ ((if_neg (by simp [hin])).trans (if_pos hok))

/-- A sound KEM in an exchange whose HELLO was seen gives the secret. -/
theorem exec_keyKem (hm : keyMsgOk s l 1 m = true) (hsig : m.sigOk = true) (hseen : (linkOf s l).helloSeen = true) :
    exec (.keyKem t l m) s = .next (takeSecret (s.at t) l (m.body.take 1088)) := by
  have hok : (keyMsgOk s l 1 m && m.sigOk && (linkOf s l).helloSeen) = true := by simp [hm, hsig, hseen]
  have hin : exchanging (s.at t) l = true := hx
  change execKeyKem t l m s = _
  rw [execKeyKem, run_on h0]
  exact congrArg _ ((if_neg (by simp [hin])).trans (if_pos hok))

end

/-- Settles O33. -/
theorem linksExchangeAndRollKeys : Obligations.LinksExchangeAndRollKeys := by
  refine ⟨fun s t l h0 => ⟨fun id ht hstep => ⟨?goesOn, ?isolated, ?misfit⟩, fun hx => ⟨?hello, ?kem, ?abort⟩⟩,
    fun s t l h0 hup henc => ?running⟩
  case goesOn =>
    intro hfit hp he h1 h2 h3
    exact ⟨_, run_on h0 .., identReceived_goesOn (s := s.at t) ht hstep hfit hp he h1 h2 h3⟩
  case isolated =>
    intro hfit hp he h1
    exact ⟨_, run_on h0 .., identReceived_isolated (s := s.at t) ht hstep hfit hp he h1⟩
  case misfit =>
    intro hfit
    refine ⟨_, run_on h0 .., ?_⟩
    rw [identReceived_misfit (s := s.at t) ht hstep hfit]
    exact linkDown_state ..
  case hello =>
    intro m hm hchain hsvn
    obtain ⟨v, ct, ss, msg, hlink, hkem⟩ := sendKem_link (s.at t) l m
    refine ⟨_, msg, exec_keyHello h0 t hx hm hchain hsvn, ?_⟩
    rw [hkem, linkOf_onLink, hlink]
    exact ⟨rfl, rfl, mem_onLink ..⟩
  case kem =>
    intro m hm hsig hseen
    exact ⟨_, exec_keyKem h0 t hx hm hsig hseen, takeSecret_link ..⟩
  case abort =>
    intro sent ht
    obtain ⟨hstate, hmsg⟩ := failExchange_training (s := s.at t) sent ht
    exact ⟨_, (run_on h0 ..).trans (congrArg _ (if_pos hx)), hstate, fun h => hmsg h⟩
  case running =>
    have hon : (linkUp (s.at t) l && (linkOf (s.at t) l).enc) = true := Bool.and_eq_true_iff.mpr ⟨hup, henc⟩
    refine ⟨fun k seq hseq => ?_, (run_on h0 ..).trans (congrArg _ (if_pos hon)), fun c hc => ?_,
      _, (run_on h0 ..).trans (congrArg _ (if_pos hon)), linkDown_state .., linkDown_enc .., linkDown_prod ..⟩
    · exact (run_on h0 ..).trans (congrArg _ (if_pos (Bool.and_eq_true_iff.mpr ⟨hon, decide_eq_true hseq⟩)))
    · obtain ⟨msg, hlink, hmsg⟩ := sendHello_link (s.at t) l
      have hrow : exec c s = .next (sendHello (s.at t) l) := by
        simp only [List.mem_cons, List.not_mem_nil, or_false] at hc
        rcases hc with rfl | rfl
        · exact (run_on h0 ..).trans (congrArg _ (if_pos hon))
        · exact (run_on h0 ..).trans (congrArg _ (if_pos hon))
      exact ⟨_, msg, hrow, by rw [hlink]; rfl, by rw [hlink], hmsg⟩

end Sys2Proof.Machine
end

section
/-! SUPPORT. Flits, link records and lanes (R303 to R305, R310, R468): what each leaves of its link. -/

namespace Sys2Proof.Machine

/-! ## Flits (R303, R304) -/

/-- What a link receives next, and its state. -/
def standing (x : Link) : LinkState × Nat := (x.state, x.rxNext)

theorem standing_setLink (s : State) (l : Nat) {f : Link → Link} (hf : ∀ x, standing (f x) = standing x) :
    standing (linkOf (setLink s l f) l) = standing (linkOf s l) := by
  rw [linkOf_setLink_self, hf]

/-- A sound flit in its place moves the place on, whatever it acknowledges, keys and credits. -/
theorem flitReceived_inPlace {s : State} {l : Nat} {hdr : Word} (hup : linkUp s l = true)
    (htype : fieldOf hdr 23 20 ≤ 2) (hplace : fieldOf hdr 63 52 = (linkOf s l).rxNext) :
    standing (linkOf (flitReceived l hdr true true true s) l) =
      ((linkOf s l).state, ((linkOf s l).rxNext + 1) % 4096) := by
  unfold flitReceived
  extract_lets x acked idx keyed credited seq
  have hacked : standing (linkOf acked l) = standing x := by
    unfold acked
    split
    · exact standing_setLink _ _ fun _ => rfl
    · rfl
  have hkeyed : standing (linkOf keyed l) = standing x := by
    unfold keyed
    split
    · refine (standing_setLink _ _ ?_).trans hacked
      exact fun _ => rfl
    · exact hacked
  have hsent : Sends keyed credited := addCredit_sends ..
  have hstands : standing (linkOf credited l) = standing x :=
    (Prod.ext (hsent.state l) (hsent.rxNext l)).trans hkeyed
  rw [if_neg (by simp [carriesFlits, hup]), if_neg (by simpa using htype), if_neg (by simp), if_pos hplace,
    linkOf_setLink_self]
  exact congrArg (fun y : LinkState × Nat => (y.1, (y.2 + 1) % 4096)) hstands

/-- One that fails its check is asked for again. -/
theorem flitReceived_damaged {s : State} {l : Nat} {hdr : Word} {f c tag : Bool} (hup : linkUp s l = true)
    (h : f = false ∨ c = false) : flitReceived l hdr f c tag s = sendNak s l := by
  rw [flitReceived, if_neg (by simp [carriesFlits, hup]), if_pos (by rcases h with rfl | rfl <;> simp)]

/-- A NAK sends every flit from the named one again, where none was sent 8 times (R304). -/
theorem nakReceived_resends {s : State} {l seq : Nat} (hup : linkUp s l = true)
    (h : (linkOf s l).txBuf.any (fun f => decide (flitGap seq f.1 < 2048) && decide (8 ≤ f.2.1)) = false) :
    nakReceived l seq s = onLink (setLink s l (fun x => { x with
      txBuf := x.txBuf.map (fun f => if decide (flitGap seq f.1 < 2048) then (f.1, f.2.1 + 1, f.2.2) else f) })) l
      (.resend seq) := by
  rw [nakReceived, if_neg (by simp [hup])]
  exact if_neg (Bool.eq_false_iff.mp h)

/-! ## Credits (R305) -/

theorem returnCredits_links (s : State) : (returnCredits s).fab.links = s.fab.links := by
  unfold returnCredits
  refine (foldl_keeps (·.fab.links) (fun u x => ?_) _ _).trans rfl
  split
  · rfl
  · split <;> rfl

/-- Nothing waits on a link, and nothing leaves it. -/
theorem drainLink_idle {s : State} {l : Nat} (h : (linkOf s l).queue = []) : linkOf (drainLink s l) l = linkOf s l := by
  have hlinks (v : State) : linkOf (returnCredits v) l = linkOf v l := congrArg (tgetD · l) (returnCredits_links v)
  unfold drainLink
  rw [hlinks, linkOf_setLink_self]
  simp only [h, List.foldl_nil]
  rw [← h]

theorem addCredit_idle {s : State} {l : Nat} (cls n : Nat) (h : (linkOf s l).queue = []) :
    linkOf (addCredit s l cls n) l = setCredit (linkOf s l) cls (· + n) := by
  rw [addCredit, drainLink_idle, linkOf_setLink_self]
  rw [linkOf_setLink_self]
  exact h

/-- The credits of a record on a link where nothing waits. -/
theorem addCredits_idle {s : State} {l : Nat} (a b c d : Nat) (h : (linkOf s l).queue = []) :
    linkOf (addCredit (addCredit (addCredit (addCredit s l 0 a) l 1 b) l 2 c) l 3 d) l =
      setCredit (setCredit (setCredit (setCredit (linkOf s l) 0 (· + a)) 1 (· + b)) 2 (· + c)) 3 (· + d) := by
  have h1 := addCredit_idle 0 a h
  have h2 := addCredit_idle 1 b (s := addCredit s l 0 a) (by rw [h1]; exact h)
  have h3 := addCredit_idle 2 c (s := addCredit (addCredit s l 0 a) l 1 b) (by rw [h2, h1]; exact h)
  rw [addCredit_idle 3 d (by rw [h3, h2, h1]; exact h), h3, h2, h1]

/-! ## Lanes (R310) -/

/-- Of two lanes one is dropped: the link is DEGRADED on the other, and the far end is told. -/
theorem dropLane_degrades {s : State} {l lane : Nat} (hup : linkUp s l = true) (h3 : (linkOf s l).lanes = 3)
    (hlane : lane < 2) :
    (linkOf (dropLane s l lane) l).state = .degraded ∧
      (linkOf (dropLane s l lane) l).lanes = (if lane = 0 then 2 else 1) ∧
      (dropLane s l lane).fault.prod = (s.fault.prod + 1) % 2 ^ 32 ∧
      .onLink l (.lane lane) ∈ (dropLane s l lane).out := by
  unfold dropLane
  extract_lets x left logged
  have hleft : left = if lane = 0 then 2 else 1 := by
    unfold left x
    rw [h3]
    interval_cases lane <;> rfl
  have hlink : linkOf logged l = { x with lanes := left, state := .degraded, lanePower := false } := by
    rw [linkOf_logErr, linkOf_setLink_self]
  have hprod : logged.fault.prod = (s.fault.prod + 1) % 2 ^ 32 := logErr_prod ..
  rw [if_neg (by simp [hup]), if_neg (by rw [hleft]; split <;> decide)]
  split
  · rw [linkOf_onLink, linkOf_onLink, hlink]
    exact ⟨rfl, hleft, hprod, (onLink_prefix ..).subset (mem_onLink ..)⟩
  · rw [linkOf_onLink, hlink]
    exact ⟨rfl, hleft, hprod, mem_onLink ..⟩

/-- Settles O34. -/
theorem flitsRecordsAndLanes : Obligations.FlitsRecordsAndLanes := by
  refine ⟨fun s t l h0 hup => ⟨?inPlace, ?damaged, ?nak, ?credit, ?errors⟩,
    fun s t l h0 => ⟨?drop, ?retry, ?powerDown, ?powerUp⟩⟩
  case inPlace =>
    intro hdr htype hplace
    obtain ⟨hstate, hnext⟩ := Prod.mk.inj (flitReceived_inPlace (s := s.at t) hup htype hplace)
    exact ⟨_, run_on h0 .., hnext, hstate⟩
  case damaged =>
    intro hdr f c tag h
    exact (run_on h0 ..).trans (congrArg _ (flitReceived_damaged (s := s.at t) hup h))
  case nak =>
    intro seq h
    exact (run_on h0 ..).trans (congrArg _ (nakReceived_resends (s := s.at t) hup h))
  case credit =>
    intro a b c d hq
    refine ⟨_, (run_on h0 ..).trans (congrArg _ (if_pos hup)), ?_⟩
    rw [addCredits_idle (s := s.at t) a b c d hq]
    rfl
  case errors =>
    intro e0 e1
    exact (run_on h0 ..).trans (congrArg _ (if_pos hup))
  case drop =>
    intro lane hup h3 hlane
    exact ⟨_, run_on h0 t (fun s => dropLane s l lane), dropLane_degrades (s := s.at t) hup h3 hlane⟩
  case retry =>
    intro hd hq
    refine ⟨_, (run_on h0 ..).trans (congrArg _ (if_pos (by simp [hd]))), ?_⟩
    rw [drainLink_idle (by rw [linkOf_setLink_self]; exact hq), linkOf_setLink_self]
    exact ⟨rfl, rfl, rfl⟩
  case powerDown =>
    intro hallow hact hq
    exact (run_on h0 ..).trans (congrArg _ (if_pos (by simp [hact, hq]; exact hallow)))
  case powerUp =>
    intro hpow hq
    refine ⟨_, (run_on h0 ..).trans (congrArg _ (if_pos hpow)), ?_⟩
    rw [drainLink_idle (by rw [linkOf_setLink_self]; exact hq), linkOf_setLink_self]
    exact ⟨rfl, rfl, rfl⟩

end Sys2Proof.Machine
end

section
/-! SUPPORT. The target of a pair series (R313, R319, R321 to R327): what a request does to rack memory, what it is
answered from, and what a duplicate, a fence and a transfer leave alone. -/

namespace Sys2Proof.Machine

/-! ## Rows -/

/-- A packet for this module sets the wake flag and is taken (R465). -/
theorem runPacket_here {s : State} {p : Packet} (h0 : s.pwr.off = false) (hd : pDst p = s.fab.self) (t : Stamp)
    (f : State → State) : runPacket t p f s = .next (f (noteLink (s.at t))) := by
  rw [runPacket, run_on h0]
  exact congrArg (fun v => Host.Outcome.next (f v)) (if_pos hd)

/-- The rows of requests are one meaning under their types. -/
theorem exec_requestRow {t : Stamp} {p : Packet} {x : Instr × Nat} (s : State)
    (hx : x ∈ [(Instr.read t p, 1), (.write t p, 3), (.add t p, 5), (.cas t p, 7), (.fencePacket t p, 9),
      (.transfer t p, 0x10)]) : exec x.1 s = runPacket t p (fun s => takeRequest x.2 s p) s := by
  simp only [List.mem_cons, List.not_mem_nil, or_false] at hx
  rcases hx with rfl | rfl | rfl | rfl | rfl | rfl <;> rfl

/-- The wake flag touches neither the fabric nor the counters. -/
theorem noteLink_at_same (s : State) (t : Stamp) :
    (noteLink (s.at t)).fab = s.fab ∧ (noteLink (s.at t)).bar = s.bar := by
  obtain ⟨w, hw⟩ := noteLink_eq (s.at t)
  rw [hw]
  exact ⟨rfl, rfl⟩

theorem tableFor_noteLink (s : State) (e : Nat) : tableFor (noteLink s) e = tableFor s e := by
  obtain ⟨w, hw⟩ := noteLink_eq s
  rw [hw]
  rfl

/-! ## Contexts of sources (R319) -/

theorem tgtCtx_setTgt (s : State) (d e : ModuleId) (f : TgtCtx → TgtCtx) :
    tgtCtx (setTgt s d f) e = if d = e then f (tgtCtx s d) else tgtCtx s e := by
  split
  · next h =>
    subst h
    exact tgetD_tput_self ..
  · next h => exact tgetD_tput_other _ _ (fun e => h (BitVec.eq_of_toNat_eq e))

@[simp] theorem tgtCtx_setTgt_self (s : State) (d : ModuleId) (f : TgtCtx → TgtCtx) :
    tgtCtx (setTgt s d f) d = f (tgtCtx s d) :=
  tgetD_tput_self ..

theorem tgtCtx_of_tgt {s u : State} (h : u.fab.tgt = s.fab.tgt) (d : ModuleId) : tgtCtx u d = tgtCtx s d := by
  unfold tgtCtx
  rw [h]

theorem tgtCtx_of_fab {s u : State} (h : u.fab = s.fab) (d : ModuleId) : tgtCtx u d = tgtCtx s d :=
  tgtCtx_of_tgt (congrArg FabSt.tgt h) d

/-- `u` differs from `s` by answers that left: rack memory, the transfers and what is known of every source are as
they were. -/
structure Answers (s u : State) : Prop where
  mem : u.fab.mem = s.fab.mem
  xfers : u.fab.xfers = s.fab.xfers
  ctx : ∀ d, tgtCtx u d = tgtCtx s d

theorem Answers.trans {s t u : State} (h1 : Answers s t) (h2 : Answers t u) : Answers s u :=
  ⟨h2.mem.trans h1.mem, h2.xfers.trans h1.xfers, fun d => (h2.ctx d).trans (h1.ctx d)⟩

theorem Sends.answers {s u : State} (h : Sends s u) : Answers s u := ⟨h.mem, h.xfers, tgtCtx_of_tgt h.tgt⟩

theorem Answers.held {s u : State} (h : Answers s u) (d : ModuleId) : (tgtCtx u d).held = (tgtCtx s d).held := by
  rw [h.ctx]

theorem Answers.atomOf {s u : State} (h : Answers s u) (d : ModuleId) (q : Nat) : atomOf u d q = atomOf s d q := by
  rw [Machine.atomOf, Machine.atomOf, h.ctx]

/-- Nothing is held, and nothing is released. -/
theorem releaseHeld_idle {s : State} {src : ModuleId} (h : (tgtCtx s src).held = []) :
    Answers s (releaseHeld s src) := by
  have hkeep : releaseHeld s src =
      setTgt s src (fun c => { c with held := c.held.filter (fun p => !seqBelow (pSeq p) c.floor) }) := by
    simp [releaseHeld, h]
  rw [hkeep]
  refine ⟨rfl, rfl, fun d => ?_⟩
  rw [tgtCtx_setTgt]
  split
  · next hd =>
    subst hd
    simp only [h, List.filter_nil]
    rw [← h]
  · rfl

/-! ## A request is applied (R322 to R324) -/

/-- The state once an operation is applied and its old value kept, before it is answered. -/
def applied (s : State) (p : Packet) : State :=
  if pType p = 5 ∨ pType p = 7 then
    recordAtom (applyMem s (pType p) (pAddr p % 2 ^ 43) p.payload).1 (pSrc p) (pSeq p)
      (applyMem s (pType p) (pAddr p % 2 ^ 43) p.payload).2.1
  else (applyMem s (pType p) (pAddr p % 2 ^ 43) p.payload).1

/-- An operation that meets no refusal is applied and answered. -/
theorem serveOp_applies {s : State} {m : MapSet} {old : Bool} {p : Packet}
    (ht : pType p = 1 ∨ pType p = 3 ∨ pType p = 5 ∨ pType p = 7)
    (hr : memRefusal s m old (pSrc p) (pAddr p) (pType p) = none) : Answers (applied s p) (serveOp s m old p) := by
  have hans (v : State) (q : Packet) : Answers v (launchAnswer v q) := (launchAnswer_sends ..).answers
  rw [serveOp, if_neg (by omega), if_neg (by omega), hr, applied]
  obtain ⟨v, w, line⟩ := applyMem s (pType p) (pAddr p % 2 ^ 43) p.payload
  dsimp only
  rcases ht with h | h | h
  · rw [if_neg (by omega), if_pos h]
    exact hans ..
  · rw [if_neg (by omega), if_neg (by omega), if_pos h]
    exact hans ..
  · rw [if_pos h, if_neg (by omega), if_neg (by omega)]
    exact hans ..

/-- A fence changes nothing when its turn comes, and a transfer nothing but what it joined (R313, R327). -/
theorem serveOp_answers {s : State} {m : MapSet} {old : Bool} {p : Packet} (ht : pType p = 9 ∨ pType p = 0x10) :
    Answers s (serveOp s m old p) := by
  have hans (v : State) (q : Packet) : Answers v (launchAnswer v q) := (launchAnswer_sends ..).answers
  rw [serveOp]
  rcases ht with h | h
  · rw [if_pos h]
    split
    · exact hans ..
    · exact hans ..
  · rw [if_neg (by omega), if_pos h]
    exact hans ..

/-- Memory changes and contexts keep what they hold. -/
theorem applyMem_tgt (s : State) (typ off : Nat) (l : List Byte) : (applyMem s typ off l).1.fab.tgt = s.fab.tgt := by
  unfold applyMem
  dsimp only
  split
  · rfl
  · split
    · rfl
    · split
      · rfl
      · split <;> rfl

theorem applied_held (s : State) (p : Packet) (d : ModuleId) : (tgtCtx (applied s p) d).held = (tgtCtx s d).held := by
  have hctx := tgtCtx_of_tgt (applyMem_tgt s (pType p) (pAddr p % 2 ^ 43) p.payload)
  unfold applied recordAtom
  split
  · rw [tgtCtx_setTgt, ← hctx d]
    split
    · next hd => rw [hd]
    · rfl
  · rw [hctx]

section
variable {s : State} {p : Packet}

theorem applied_read (h : pType p = 1) : (applied s p).fab.mem = s.fab.mem := by
  simp [applied, applyMem, h]

theorem applied_write (h : pType p = 3) : (applied s p).fab.mem =
    memWriteMask s.fab.mem (pAddr p % 2 ^ 43) (leNat (p.payload.take 16)) 0 ((p.payload.drop 16).take 128) := by
  simp [applied, applyMem, h]

theorem applied_add (h : pType p = 5) : (applied s p).fab.mem = memWriteBytes s.fab.mem (pAddr p % 2 ^ 43)
    (leBytes 8 (leNat (memReadBytes s.fab.mem (pAddr p % 2 ^ 43) 8) + leNat (p.payload.take 8))) := by
  simp [applied, applyMem, h, recordAtom, setTgt]

theorem applied_cas (h : pType p = 7) : (applied s p).fab.mem =
    if leNat (memReadBytes s.fab.mem (pAddr p % 2 ^ 43) 8) = leNat (p.payload.take 8) then
      memWriteBytes s.fab.mem (pAddr p % 2 ^ 43) (leBytes 8 (leNat ((p.payload.drop 8).take 8)))
    else s.fab.mem := by
  rw [applied, if_pos (.inr h), h, applyMem, if_neg (by decide), if_neg (by decide)]
  dsimp only
  rw [if_neg (by decide)]
  split <;> rfl

theorem applied_atom (h : pType p = 5 ∨ pType p = 7) : atomOf (applied s p) (pSrc p) (pSeq p) =
    leNat (memReadBytes s.fab.mem (pAddr p % 2 ^ 43) 8) % 2 ^ 64 := by
  have hold : (applyMem s (pType p) (pAddr p % 2 ^ 43) p.payload).2.1 =
      leNat (memReadBytes s.fab.mem (pAddr p % 2 ^ 43) 8) := by
    unfold applyMem
    rw [if_neg (by omega), if_neg (by omega)]
    dsimp only
    split
    · rfl
    · split <;> rfl
  rw [applied, if_pos h, hold, atomOf, recordAtom, tgtCtx_setTgt_self, tget_tput_self, Option.getD_some,
    BitVec.toNat_ofNat]

end

/-! ## A request is taken -/

/-- What a request that is not yet seen has in order (R316, R319, R330). -/
structure Fresh (s : State) (p : Packet) (typ : Nat) : Prop where
  ok : packetOk p = true
  typ : pType p = typ
  here : pDst p = s.fab.self
  new : isDup (tgtCtx s (pSrc p)) (pSeq p) = false
  near : tooFar (tgtCtx s (pSrc p)) (pSeq p) = false
  single : pCombined p = false

theorem Fresh.of_check {s : State} {p : Packet} {typ : Nat} (h : freshRequest s p typ = true) : Fresh s p typ := by
  simp only [freshRequest, Bool.and_eq_true, Bool.not_eq_true', beq_iff_eq] at h
  obtain ⟨⟨⟨⟨⟨⟨h1, h2⟩, h3⟩, -⟩, h4⟩, h5⟩, h6⟩ := h
  exact ⟨h1, h2, h3, h4, h5, h6⟩

theorem tableFor_isSome_of_fresh {s : State} {p : Packet} {typ : Nat} (h : freshRequest s p typ = true) :
    (tableFor s (pEpoch p)).isSome = true := by
  simp only [freshRequest, Bool.and_eq_true] at h
  obtain ⟨⟨⟨⟨-, hm⟩, -⟩, -⟩, -⟩ := h
  exact hm

theorem Fresh.of_same {s u : State} {p : Packet} {typ : Nat} (h : Fresh s p typ) (hf : u.fab = s.fab) :
    Fresh u p typ where
  ok := h.ok
  typ := h.typ
  here := by rw [hf]; exact h.here
  new := by rw [tgtCtx_of_fab hf]; exact h.new
  near := by rw [tgtCtx_of_fab hf]; exact h.near
  single := h.single

/-- The state once a request's number is marked and a transfer has joined its message. -/
def marked (typ : Nat) (s : State) (p : Packet) : State :=
  if typ = 0x10 then holdTransfer (markSeq s (pSrc p) (pSeq p)) p else markSeq s (pSrc p) (pSeq p)

theorem marked_of_ne {typ : Nat} (s : State) (p : Packet) (h : typ ≠ 0x10) :
    marked typ s p = markSeq s (pSrc p) (pSeq p) :=
  if_neg h

theorem markSeq_held (s : State) (d : ModuleId) (q : Nat) : (tgtCtx (markSeq s d q) d).held = (tgtCtx s d).held := by
  rw [markSeq, tgtCtx_setTgt_self]

/-- A number marked depends on the contexts alone. -/
theorem markSeq_ctx {s u : State} (h : u.fab = s.fab) (d e : ModuleId) (q : Nat) :
    tgtCtx (markSeq u d q) e = tgtCtx (markSeq s d q) e := by
  simp only [markSeq, tgtCtx_setTgt, tgtCtx_of_fab h]

/-- What a transfer joins depends on the transfers alone. -/
theorem holdTransfer_xfers {s u : State} (h : u.fab.xfers = s.fab.xfers) (p : Packet) :
    (holdTransfer u p).fab.xfers = (holdTransfer s p).fab.xfers := by
  simp only [holdTransfer, h]

theorem marked_held (typ : Nat) (s : State) (p : Packet) :
    (tgtCtx (marked typ s p) (pSrc p)).held = (tgtCtx s (pSrc p)).held := by
  unfold marked
  split
  · exact markSeq_held ..
  · exact markSeq_held ..

/-- A fresh request whose turn is now, with nothing held: its number marked, it is served once, and what follows
answers alone. -/
theorem takeRequest_serves {s v : State} {p : Packet} {typ : Nat} {m : MapSet} (hf : Fresh s p typ)
    (hm : tableFor s (pEpoch p) = some m) (h9 : typ ≠ 9) (hflag : pFlagged p = false)
    (hserve : Answers v (serveOp (marked typ s p) m (isOldEpoch s (pEpoch p)) p))
    (hheld : (tgtCtx v (pSrc p)).held = []) : Answers v (takeRequest typ s p) := by
  have hsound : ¬(!packetOk p || pType p != typ) = true := by simp [hf.ok, hf.typ]
  have hreleased := releaseHeld_idle ((hserve.held (pSrc p)).trans hheld)
  unfold takeRequest
  rw [if_neg hsound, if_neg (not_not_intro hf.here), hm]
  dsimp only
  rw [if_neg (by simp [hf.new]), if_neg (by simp [hf.near]), if_neg (by simp [h9, hflag]),
    if_neg (ne_of_eq_of_ne hf.single Bool.false_ne_true), ← marked]
  split
  · exact hserve.trans (hreleased.trans (ackFloor_sends ..).answers)
  · exact hserve.trans hreleased

/-- A fence held alone is answered once every earlier request is applied, and held on otherwise (R326, R327). -/
theorem releaseHeld_fence {s : State} {src : ModuleId} {p : Packet} (h : (tgtCtx s src).held = [p])
    (h9 : pType p = 9) : (releaseHeld s src).fab.mem = s.fab.mem ∧ (tgtCtx (releaseHeld s src) src).held =
      if seqBelow (pSeq p) (tgtCtx s src).floor then [] else [p] := by
  unfold releaseHeld
  extract_lets c ready
  have hleft : (tgtCtx (setTgt s src (fun c => { c with held := c.held.filter (fun p => !seqBelow (pSeq p) c.floor) }))
      src).held = [p].filter (fun p => !seqBelow (pSeq p) c.floor) := by
    rw [tgtCtx_setTgt_self, ← h]
  cases hb : seqBelow (pSeq p) (tgtCtx s src).floor with
  | true =>
    have hready : ready = [p] := by simp [ready, c, h, hb]
    rw [hready, List.foldl_cons, List.foldl_nil]
    have hanswered (v : State) (m : MapSet) (old : Bool) : Answers v (serveOp v m old p) := serveOp_answers (.inl h9)
    refine ⟨(hanswered ..).mem, ?_⟩
    rw [(hanswered ..).held, hleft]
    simp [c, hb]
  | false =>
    have hready : ready = [] := by simp [ready, c, h, hb]
    rw [hready, List.foldl_nil, hleft]
    exact ⟨rfl, by simp [c, hb]⟩

/-- A fresh fence is held in its place until its turn comes. -/
theorem takeRequest_holds {s : State} {p : Packet} {typ : Nat} (hf : Fresh s p typ) (h9 : typ = 9)
    (hm : (tableFor s (pEpoch p)).isSome = true) : takeRequest typ s p = releaseHeld
      (setTgt (markSeq s (pSrc p) (pSeq p)) (pSrc p) (fun c => { c with held := insertHeld p c.held })) (pSrc p) := by
  obtain ⟨m, hm⟩ := Option.isSome_iff_exists.mp hm
  have hsound : ¬(!packetOk p || pType p != typ) = true := by simp [hf.ok, hf.typ]
  unfold takeRequest
  rw [if_neg hsound, if_neg (not_not_intro hf.here), hm]
  refine (if_neg (by simp [hf.new])).trans ?_
  refine (if_neg (by simp [hf.near])).trans ?_
  exact if_pos (.inl h9)

/-- With nothing held before it, it is held alone. -/
theorem takeRequest_fence {s : State} {p : Packet} {typ : Nat} (hf : Fresh s p typ) (h9 : typ = 9)
    (hm : (tableFor s (pEpoch p)).isSome = true) (hheld : (tgtCtx s (pSrc p)).held = []) :
    (takeRequest typ s p).fab.mem = s.fab.mem ∧ (tgtCtx (takeRequest typ s p) (pSrc p)).held =
      if seqBelow (pSeq p) (tgtCtx (markSeq s (pSrc p) (pSeq p)) (pSrc p)).floor then [] else [p] := by
  have halone : (tgtCtx (setTgt (markSeq s (pSrc p) (pSeq p)) (pSrc p)
      (fun c => { c with held := insertHeld p c.held })) (pSrc p)).held = [p] := by
    rw [tgtCtx_setTgt_self]
    exact congrArg (insertHeld p) ((markSeq_held ..).trans hheld)
  obtain ⟨hmem, hleft⟩ := releaseHeld_fence halone (hf.typ.trans h9)
  rw [tgtCtx_setTgt_self] at hleft
  rw [takeRequest_holds hf h9 hm]
  exact ⟨hmem, hleft⟩

/-- A duplicate is counted and answered again (R321). -/
theorem answerDup_sends (s : State) (p : Packet) : Sends (count s 0x40050 1) (answerDup s p) := by
  unfold answerDup
  extract_lets v typ c ans
  split
  · exact .refl _
  · split
    · exact launchAnswer_sends ..
    · split
      · split
        · exact launchAnswer_sends ..
        · exact launchAnswer_sends ..
      · split
        · split
          · exact launchAnswer_sends ..
          · exact .refl _
        · split
          · exact launchAnswer_sends ..
          · exact launchAnswer_sends ..

/-- A duplicate is no further looked at. -/
theorem takeRequest_dup {s : State} {p : Packet} {typ : Nat} (hok : packetOk p = true) (ht : pType p = typ)
    (hd : pDst p = s.fab.self) (hm : (tableFor s (pEpoch p)).isSome = true)
    (hdup : isDup (tgtCtx s (pSrc p)) (pSeq p) = true) : takeRequest typ s p = answerDup s p := by
  obtain ⟨m, hm⟩ := Option.isSome_iff_exists.mp hm
  have hsound : ¬(!packetOk p || pType p != typ) = true := by simp [hok, ht]
  unfold takeRequest
  rw [if_neg hsound, if_neg (not_not_intro hd), hm]
  exact if_pos hdup

/-! ## The statement -/

section
variable {s : State} {t : Stamp} {p : Packet}

/-- The checks of an operation read what neither the wake flag nor its own number touches. -/
theorem memRefusal_marked (s : State) (t : Stamp) (p : Packet) (m : MapSet) (old : Bool) (src : ModuleId)
    (addr typ : Nat) : memRefusal (markSeq (noteLink (s.at t)) (pSrc p) (pSeq p)) m old src addr typ =
      memRefusal s m old src addr typ := by
  obtain ⟨w, hw⟩ := noteLink_eq (s.at t)
  rw [hw]
  rfl

/-- A fresh request of rack memory is applied to the memory it met, and its row answers from what it left. -/
theorem exec_request_applies {m : MapSet} {x : Instr × Nat} (h0 : s.pwr.off = false)
    (hx : x ∈ [(Instr.read t p, 1), (.write t p, 3), (.add t p, 5), (.cas t p, 7)])
    (hfresh : freshRequest (s.at t) p x.2 = true) (hflag : pFlagged p = false) (hheld : (tgtCtx s (pSrc p)).held = [])
    (hm : tableFor (s.at t) (pEpoch p) = some m)
    (hr : memRefusal s m (isOldEpoch s (pEpoch p)) (pSrc p) (pAddr p) x.2 = none) :
    ∃ u v, exec x.1 s = .next u ∧ pType p = x.2 ∧ v.fab.mem = s.fab.mem ∧ Answers (applied v p) u := by
  obtain ⟨hfab, -⟩ := noteLink_at_same s t
  have hf : Fresh (noteLink (s.at t)) p x.2 := (Fresh.of_check hfresh).of_same hfab
  have htyp : x.2 = 1 ∨ x.2 = 3 ∨ x.2 = 5 ∨ x.2 = 7 := by
    simp only [List.mem_cons, List.not_mem_nil, or_false] at hx
    rcases hx with rfl | rfl | rfl | rfl <;> simp
  have hrow : exec x.1 s = runPacket t p (fun s => takeRequest x.2 s p) s :=
    exec_requestRow s (List.mem_append_left [(Instr.fencePacket t p, 9), (.transfer t p, 0x10)] hx)
  have hhere : pDst p = s.fab.self := (Fresh.of_check hfresh).here
  refine ⟨_, markSeq (noteLink (s.at t)) (pSrc p) (pSeq p), hrow.trans (runPacket_here h0 hhere t _), hf.typ, ?_,
    ?_⟩
  · exact (congrArg FabSt.mem hfab :)
  · refine takeRequest_serves hf ((tableFor_noteLink ..).trans hm) (by omega) hflag ?_ ?_
    · rw [marked_of_ne _ _ (by omega)]
      refine serveOp_applies (hf.typ ▸ htyp) ?_
      rw [memRefusal_marked, hf.typ, isOldEpoch, hfab]
      exact hr
    · rw [applied_held, markSeq_held, tgtCtx_of_fab hfab]
      exact hheld

end

/-- Settles O29. A request in turn is `applied` and then only answered; a duplicate is only answered; a fence is held
alone; a transfer joins its message before it is answered. -/
theorem fabricTargetsApplyOnce : Obligations.FabricTargetsApplyOnce := by
  refine ⟨fun s t p m typ h0 hfresh hflag hheld hm hr => ⟨?read, ?write, ?add, ?cas⟩, ?dup,
    fun s t p h0 hheld => ⟨?fence, ?transfer⟩⟩
  case read =>
    rintro rfl
    obtain ⟨u, v, hu, ht, hmem, hans⟩ :=
      exec_request_applies (x := (.read t p, 1)) h0 (by simp) hfresh hflag hheld hm hr
    exact ⟨u, hu, by rw [hans.mem, applied_read ht, hmem]⟩
  case write =>
    rintro rfl
    obtain ⟨u, v, hu, ht, hmem, hans⟩ :=
      exec_request_applies (x := (.write t p, 3)) h0 (by simp) hfresh hflag hheld hm hr
    exact ⟨u, hu, by rw [hans.mem, applied_write ht, hmem]⟩
  case add =>
    rintro rfl
    obtain ⟨u, v, hu, ht, hmem, hans⟩ :=
      exec_request_applies (x := (.add t p, 5)) h0 (by simp) hfresh hflag hheld hm hr
    exact ⟨u, hu, by rw [hans.mem, applied_add ht, hmem], by rw [hans.atomOf, applied_atom (.inl ht), hmem]⟩
  case cas =>
    rintro rfl
    obtain ⟨u, v, hu, ht, hmem, hans⟩ :=
      exec_request_applies (x := (.cas t p, 7)) h0 (by simp) hfresh hflag hheld hm hr
    exact ⟨u, hu, by rw [hans.mem, applied_cas ht, hmem], by rw [hans.atomOf, applied_atom (.inr ht), hmem]⟩
  case dup =>
    intro s t p x h0 hx hok ht hd hm hdup
    obtain ⟨hfab, hbar⟩ := noteLink_at_same s t
    have hsent := answerDup_sends (noteLink (s.at t)) p
    refine ⟨answerDup (noteLink (s.at t)) p, ?_, hsent.mem.trans (congrArg FabSt.mem hfab),
      hsent.xfers.trans (congrArg FabSt.xfers hfab), ?_⟩
    · rw [exec_requestRow s hx, runPacket_here h0 hd]
      refine congrArg _ (takeRequest_dup hok ht (by rw [hfab]; exact hd) ?_ ?_)
      · rwa [tableFor_noteLink]
      · rwa [tgtCtx_of_fab hfab]
    · rw [hsent.live _ (by decide), count_bar, hbar]
      exact tget_tput_self ..
  case fence =>
    intro hfresh
    obtain ⟨hfab, -⟩ := noteLink_at_same s t
    have hf := Fresh.of_check hfresh
    obtain ⟨hmem, hleft⟩ := takeRequest_fence (hf.of_same hfab) rfl
      (by rw [tableFor_noteLink]; exact tableFor_isSome_of_fresh hfresh) (by rwa [tgtCtx_of_fab hfab])
    have hrow := (exec_requestRow (x := (.fencePacket t p, 9)) s (by simp)).trans (runPacket_here h0 hf.here t _)
    refine ⟨_, hrow, hmem.trans (congrArg FabSt.mem hfab), ?_⟩
    rw [hleft, markSeq_ctx hfab]
  case transfer =>
    intro hfresh hflag
    obtain ⟨hfab, -⟩ := noteLink_at_same s t
    have hf := Fresh.of_check hfresh
    obtain ⟨m, hm⟩ := Option.isSome_iff_exists.mp (tableFor_isSome_of_fresh hfresh)
    have hans := takeRequest_serves (v := marked 0x10 (noteLink (s.at t)) p) (hf.of_same hfab)
      ((tableFor_noteLink ..).trans hm) (by decide) hflag (serveOp_answers (.inr hf.typ))
      (by rwa [marked_held, tgtCtx_of_fab hfab])
    have hrow := (exec_requestRow (x := (.transfer t p, 0x10)) s (by simp)).trans (runPacket_here h0 hf.here t _)
    refine ⟨_, hrow, hans.mem.trans (congrArg FabSt.mem hfab :), hans.xfers.trans ?_⟩
    exact holdTransfer_xfers (u := markSeq (noteLink (s.at t)) (pSrc p) (pSeq p)) (congrArg FabSt.xfers hfab :) p

end Sys2Proof.Machine
end

section
/-! SUPPORT. Answers of the pair series (R318, R327, R347): what a completion adds to the outputs, what an operation's
move leaves of the fabric, and how an answer takes its packet. -/

namespace Sys2Proof.Machine

/-! ## Completion records are added to the outputs (R375 to R377) -/

theorem emitTo_prefix (s : State) (fn : Fn) (o : Output) : s.out <+: (emitTo s fn o).out := by
  unfold emitTo
  split
  · exact List.prefix_rfl
  · exact emit_prefix ..

theorem cqVector_prefix (s : State) (b : Nat) : s.out <+: (cqVector s b).out := by
  unfold cqVector signal
  split
  · exact emitTo_prefix ..
  · exact emitTo_prefix ..

theorem writeRecord_prefix (s : State) (b : Nat) (r : CplRec) : s.out <+: (writeRecord s b r).out := by
  unfold writeRecord
  extract_lets q i p s1
  have hwritten : s.out <+: s1.out := (emitTo_prefix ..).trans (emitTo_prefix ..)
  split
  · exact hwritten.trans (cqVector_prefix (setCq s1 b _) b)
  · exact hwritten

/-- An error entry after a change of the host's part alone. -/
theorem logErr_host_prefix (s : State) (h : HostSt) (c : ErrClass) (k b : Nat) (u : UnitId) (d0 d1 : Nat) :
    s.out <+: (logErr { s with host := h } c k b u d0 d1).out :=
  (logErr_addsPlain { s with host := h } ..).isPrefix

theorem benchRingsError_prefix (s : State) (b cause last : Nat) : s.out <+: (benchRingsError s b cause last).out :=
  logErr_host_prefix s _ .host 1 b ⟨.none, 0⟩ 0 0

theorem beginEpisode_prefix (s : State) (b : Nat) : s.out <+: (beginEpisode s b).out :=
  logErr_host_prefix s _ .host 2 b ⟨.none, 0⟩ 0 0

theorem queueRecord_prefix (s : State) (b : Nat) (r : CplRec) : s.out <+: (queueRecord s b r).out := by
  unfold queueRecord
  extract_lets q s1
  split
  · exact writeRecord_prefix ..
  · split
    · exact benchRingsError_prefix ..
    · split
      · exact beginEpisode_prefix s1 b
      · exact List.prefix_rfl

theorem complete_prefix (s : State) (c : Cpl) (st : Status) (result n : Nat) :
    s.out <+: (complete s c st result n).out := by
  unfold complete
  split
  · exact (send_addsPlain ..).isPrefix
  · split
    · exact List.prefix_rfl
    · exact queueRecord_prefix ..

/-! ## An operation moves on (R347) -/

/-- `u` differs from `s` by operations that moved on: the rest of the fabric is as it was, and outputs are added. -/
structure OpMoves (s u : State) : Prop where
  fab : { u.fab with ops := [] } = { s.fab with ops := [] }
  out : s.out <+: u.out

namespace OpMoves

theorem refl (s : State) : OpMoves s s := ⟨rfl, List.prefix_rfl⟩

theorem trans {s t u : State} (h1 : OpMoves s t) (h2 : OpMoves t u) : OpMoves s u :=
  ⟨h2.fab.trans h1.fab, h1.out.trans h2.out⟩

theorem complete (s : State) (c : Cpl) (st : Status) (result n : Nat) : OpMoves s (complete s c st result n) :=
  ⟨by rw [complete_fab], complete_prefix ..⟩

theorem ops (s : State) (t : Table Rma) : OpMoves s { s with fab := { s.fab with ops := t } } :=
  ⟨rfl, List.prefix_rfl⟩

theorem src {s u : State} (h : OpMoves s u) : u.fab.src = s.fab.src := (congrArg FabSt.src h.fab :)

theorem waits {s u : State} (h : OpMoves s u) : u.fab.waits = s.fab.waits := (congrArg FabSt.waits h.fab :)

end OpMoves

theorem settleFences_opMoves (s : State) : OpMoves s (settleFences s) := by
  unfold settleFences
  refine List.foldlRecOn (motive := OpMoves s) _ _ (.refl s) fun u hu k _ => ?_
  split
  · exact (hu.trans (.ops u _)).trans (.complete ..)
  · exact hu

theorem stepOp_opMoves (s : State) (k : Nat) (st : Status) (bytes old : Nat) : OpMoves s (stepOp s k st bytes old) := by
  unfold stepOp finishOp
  split
  · exact .refl s
  · extract_lets o'
    split
    · exact ((OpMoves.ops s _).trans (.complete ..)).trans (settleFences_opMoves _)
    · exact .ops s _

theorem cplWrite_opMoves (s : State) (c : Cpl) (o : Output) : OpMoves s (cplWrite s c o) := by
  unfold cplWrite
  split
  · exact .refl s
  · exact ⟨rfl, emit_prefix ..⟩

/-- What is written for a descriptor whose function still takes it stands among the outputs. -/
theorem mem_cplWrite {s : State} {c : Cpl} (o : Output) (h : cplDropped s c = false) : o ∈ (cplWrite s c o).out := by
  rw [cplWrite, if_neg (by simp [h])]
  exact List.mem_append_right _ (List.mem_singleton_self o)

/-! ## An answer takes its packet (R318) -/

/-- Nothing waits to leave. -/
theorem pumpRack_idle {s : State} (h : s.fab.waits = []) : pumpRack s = s := by
  unfold pumpRack
  simp only [h, List.foldl_nil]
  rw [← h]

/-- What an answer does to the operation its packet is of: data or old value delivered, and the operation moved on
(R347). -/
def answeredOp (s : State) (d : ModuleId) (q : Nat) (p : Packet) (st : Status) (o : OutPkt) : State :=
  match o.op.bind (fun k => (tget s.fab.ops k).map (fun r => (k, r))) with
  | none => dropOut s d q
  | some (k, r) =>
    if st ≠ .ok then stepOp (dropOut s d q) k st 0 0
    else if pType o.p = 1 then
      stepOp (cplWrite (dropOut s d q) r.cpl (.bytes (r.addr + ((overlap r.remote r.length (pAddr o.p)).1 - r.remote))
        ((p.payload.drop ((overlap r.remote r.length (pAddr o.p)).1 - pAddr o.p)).take
          (overlap r.remote r.length (pAddr o.p)).2))) k .ok (overlap r.remote r.length (pAddr o.p)).2 0
    else if pType o.p = 5 ∨ pType o.p = 7 then
      stepOp (cplWrite (dropOut s d q) r.cpl (.bytes r.addr (p.payload.take 8))) k .ok 0 (leNat (p.payload.take 8))
    else stepOp (dropOut s d q) k .ok (opBytes r o.p) 0

theorem takeAnswerOf_some {s : State} {d : ModuleId} {q : Nat} {o : OutPkt} (p : Packet) (st : Status)
    (h : outPkt s d q = some o) : takeAnswerOf s d q p st = pumpRack (answeredOp s d q p st o) := by
  unfold takeAnswerOf
  rw [h]
  rfl

theorem takeAnswerOf_none {s : State} {d : ModuleId} {q : Nat} (p : Packet) (st : Status)
    (h : outPkt s d q = none) : takeAnswerOf s d q p st = s := by
  unfold takeAnswerOf
  rw [h]

/-- The packet is off the unanswered ones, and only its operation moves besides. -/
theorem answeredOp_opMoves (s : State) (d : ModuleId) (q : Nat) (p : Packet) (st : Status) (o : OutPkt) :
    OpMoves (dropOut s d q) (answeredOp s d q p st o) := by
  unfold answeredOp
  split
  · exact .refl _
  · split
    · exact stepOp_opMoves ..
    · split
      · exact (cplWrite_opMoves ..).trans (stepOp_opMoves ..)
      · split
        · exact (cplWrite_opMoves ..).trans (stepOp_opMoves ..)
        · exact stepOp_opMoves ..

/-- The series to a target without the packet of a number. -/
def withoutPkt (c : SrcCtx) (q : Nat) : SrcCtx := { c with out := c.out.filter (fun o => o.1 != q) }

theorem withoutPkt_of_none {c : SrcCtx} {q : Nat} (h : outOf c q = none) : withoutPkt c q = c := by
  have hno : c.out.filter (fun o => o.1 != q) = c.out := List.filter_eq_self.mpr fun o ho => by
    have := List.find?_eq_none.mp (Option.map_eq_none_iff.mp h) o ho
    simpa using this
  rw [withoutPkt, hno]

/-- With nothing waiting, an answer takes its packet off its series and leaves nothing waiting. -/
theorem takeAnswerOf_series {s : State} (hw : s.fab.waits = []) (d : ModuleId) (q : Nat) (p : Packet) (st : Status) :
    srcCtx (takeAnswerOf s d q p st) d = withoutPkt (srcCtx s d) q ∧ (takeAnswerOf s d q p st).fab.waits = [] := by
  cases h : outPkt s d q with
  | none => rw [takeAnswerOf_none _ _ h, withoutPkt_of_none h]; exact ⟨rfl, hw⟩
  | some o =>
    have hmoves := answeredOp_opMoves s d q p st o
    have hidle : (answeredOp s d q p st o).fab.waits = [] := hmoves.waits.trans hw
    rw [takeAnswerOf_some _ _ h, pumpRack_idle hidle]
    refine ⟨?_, hidle⟩
    rw [srcCtx, hmoves.src]
    exact srcCtx_setSrc_self ..

section
variable {s : State} {d : ModuleId} {q k : Nat} {p : Packet} {o : OutPkt} {r : Rma} (hw : s.fab.waits = [])
  (h : outPkt s d q = some o) (hop : o.op = some k) (hr : tget s.fab.ops k = some r)
  (hdrop : cplDropped s r.cpl = false)
include hw h hop hr hdrop

/-- An atomic's old value is written where its operation says. -/
theorem takeAnswerOf_atom (ht : pType o.p = 5 ∨ pType o.p = 7) :
    .bytes r.addr (p.payload.take 8) ∈ (takeAnswerOf s d q p .ok).out := by
  have hidle := (answeredOp_opMoves s d q p .ok o).waits.trans hw
  rw [takeAnswerOf_some _ _ h, pumpRack_idle hidle, answeredOp, hop, Option.bind_some, hr]
  dsimp only [Option.map_some]
  rw [if_neg (by simp), if_neg (by omega), if_pos ht]
  exact (stepOp_opMoves ..).out.subset (mem_cplWrite _ hdrop)

/-- A read's bytes are written where its operation says. -/
theorem takeAnswerOf_read (ht : pType o.p = 1) :
    .bytes (r.addr + ((overlap r.remote r.length (pAddr o.p)).1 - r.remote))
      ((p.payload.drop ((overlap r.remote r.length (pAddr o.p)).1 - pAddr o.p)).take
        (overlap r.remote r.length (pAddr o.p)).2) ∈ (takeAnswerOf s d q p .ok).out := by
  have hidle := (answeredOp_opMoves s d q p .ok o).waits.trans hw
  rw [takeAnswerOf_some _ _ h, pumpRack_idle hidle, answeredOp, hop, Option.bind_some, hr]
  dsimp only [Option.map_some]
  rw [if_neg (by simp), if_pos ht]
  exact (stepOp_opMoves ..).out.subset (mem_cplWrite _ hdrop)

end

/-! ## Rows -/

theorem copyAnswers_idle {s : State} (h : s.fab.comb = []) (a b : ModuleId) (q : Nat) (p : Packet) :
    copyAnswers s a b q p = s := by
  unfold copyAnswers
  rw [h]
  rfl

theorem handOut_idle {s : State} (h : s.fab.comb = []) (d : ModuleId) (q : Nat) (p : Packet) (st : Status) :
    handOut s d q p st = s := by
  unfold handOut
  rw [h]
  rfl

/-- A sound response for this module, with nothing combined, is taken by the packet it answers. -/
theorem takeResponse_takes {s : State} {p : Packet} {typ : Nat} (hok : packetOk p = true) (ht : pType p = typ)
    (hd : pDst p = s.fab.self) (hst : pStatus p = 0) (hc : s.fab.comb = []) :
    takeResponse typ s p = takeAnswerOf s (pSrc p) (pRseq p) p .ok := by
  have hsound : ¬(!packetOk p || pType p != typ) = true := by simp [hok, ht]
  have hstatus : packetStatus (pStatus p) = .ok := by simp [packetStatus, hst]
  unfold takeResponse
  rw [if_neg hsound, if_neg (not_not_intro hd), hstatus]
  simp only [copyAnswers_idle hc, handOut_idle hc, ite_self, reduceCtorEq, if_false]

theorem exec_responseRow {t : Stamp} {p : Packet} {x : Instr × Nat} (s : State)
    (hx : x ∈ [(Instr.readResp t p, 2), (.atomResp t p, 6), (.fenceDone t p, 0x0A)]) :
    exec x.1 s = runPacket t p (fun s => takeResponse x.2 s p) s := by
  simp only [List.mem_cons, List.not_mem_nil, or_false] at hx
  rcases hx with rfl | rfl | rfl <;> rfl

/-- The packets an acknowledgement answers: every write and transfer below its number (R318). -/
def acked (c : SrcCtx) (p : Packet) : List (Nat × OutPkt) :=
  c.out.filter (fun o => seqBelow o.1 (pRseq p) && (pType o.2.p == 3 || pType o.2.p == 0x10))

theorem takeAck_takes {s : State} {p : Packet} (hok : packetOk p = true) (ht : pType p = 0x11)
    (hd : pDst p = s.fab.self) (hst : pStatus p = 0) : takeAck s p =
      (acked (srcCtx s (pSrc p)) p).foldl (fun v o => takeAnswerOf v (pSrc p) o.1 p .ok) s := by
  have hsound : ¬(!packetOk p || pType p != 0x11) = true := by simp [hok, ht]
  have hstatus : packetStatus (pStatus p) = .ok := by simp [packetStatus, hst]
  unfold takeAck
  rw [if_neg hsound, if_neg (not_not_intro hd), hstatus]
  rfl

/-- Answers to a list of packets take just those off. -/
theorem foldl_takeAnswerOf {s : State} (hw : s.fab.waits = []) (d : ModuleId) (p : Packet) (l : List (Nat × OutPkt))
    {o : Nat × OutPkt} (ho : o ∈ (srcCtx (l.foldl (fun v x => takeAnswerOf v d x.1 p .ok) s) d).out) :
    o ∈ (srcCtx s d).out ∧ o ∉ l := by
  induction l generalizing s with
  | nil => exact ⟨ho, List.not_mem_nil⟩
  | cons x l ih =>
    obtain ⟨hseries, hidle⟩ := takeAnswerOf_series hw d x.1 p .ok
    obtain ⟨hin, hnot⟩ := ih hidle ho
    rw [hseries] at hin
    obtain ⟨hin, hkey⟩ := List.mem_filter.mp hin
    refine ⟨hin, fun hmem => ?_⟩
    rcases List.mem_cons.mp hmem with rfl | hmem
    · simp at hkey
    · exact hnot hmem

/-- Settles O30. -/
theorem answersRetireTheirPackets : Obligations.AnswersRetireTheirPackets := by
  intro s t p h0 hok hd hst hw hc
  obtain ⟨w, hnote⟩ := noteLink_eq (s.at t)
  refine ⟨fun o ho x hx ht => ?_, fun ht => ?_⟩
  · have hexec : exec x.1 s = .next (takeAnswerOf { s.at t with pwr := w } (pSrc p) (pRseq p) p .ok) := by
      rw [exec_responseRow s hx, runPacket_here h0 hd, hnote]
      exact congrArg _ (takeResponse_takes hok ht hd hst hc)
    have hseries := (takeAnswerOf_series (s := { s.at t with pwr := w }) hw (pSrc p) (pRseq p) p .ok).1
    refine ⟨_, hexec, by rw [hseries]; rfl, by rw [hseries]; rfl, fun k r hk hr hdrop ht => ?_,
      fun k r hk hr hdrop ht => ?_⟩
    · exact takeAnswerOf_atom (s := { s.at t with pwr := w }) hw ho hk hr hdrop ht
    · exact takeAnswerOf_read (s := { s.at t with pwr := w }) hw ho hk hr hdrop ht
  · refine ⟨takeAck { s.at t with pwr := w } p, ?_, fun o ho => ?_⟩
    · rw [← hnote]
      exact runPacket_here h0 hd t (fun s => takeAck s p)
    · rw [takeAck_takes (s := { s.at t with pwr := w }) hok ht hd hst] at ho
      obtain ⟨hin, hnot⟩ := foldl_takeAnswerOf (s := { s.at t with pwr := w }) hw (pSrc p) p _ ho
      refine ⟨hin, fun ⟨hbelow, htype⟩ => hnot (List.mem_filter.mpr ⟨hin, ?_⟩)⟩
      rcases htype with h | h <;> simp [hbelow, h]

end Sys2Proof.Machine
end

section
/-! SUPPORT. Packets on their way (R314, R316, R320): what a receive buffer hands on, what is sent on, and what is sent
again. -/

namespace Sys2Proof.Machine

/-! ## Packets that pass through (R314, R316) -/

/-- A sound packet on a link that carries packets is handed to its own row or goes on, and its credits go back. -/
theorem exec_packetForward {s : State} {l : Nat} {p : Packet} (h0 : s.pwr.off = false) (t : Stamp)
    (hup : linkUp s l = true) (hok : packetOk p = true) : exec (.packetForward t l p) s =
      .next (returnCredits (if pDst p = s.fab.self then send (owe (s.at t) l p) s.fab.self none (.packet p)
        else forwardPacket (owe (s.at t) l (hopped p)) p)) := by
  change execPacketForward t l p s = _
  rw [execPacketForward, run_on h0, if_neg (by simp [linkUp_of_fab (State.at_fab s t), hup]), if_neg (by simp [hok])]
  rfl

section
variable {s : State} {p : Packet}

theorem forwardPacket_stale (hreq : isRequestType (pType p) = true) (hm : tableFor s (pEpoch p) = none) :
    forwardPacket s p = refuseStale s p :=
  if_pos (by simp [hreq, hm])

variable (hm : isRequestType (pType p) = true → tableFor s (pEpoch p) ≠ none)
include hm

/-- A packet that is no stale request. -/
theorem not_stale : ¬(isRequestType (pType p) && (tableFor s (pEpoch p)).isNone) = true := by
  simpa using hm

theorem forwardPacket_lost (hh : 31 ≤ pHops p) : forwardPacket s p = count s 0x40048 1 := by
  rw [forwardPacket, if_neg (not_stale hm), if_pos (by omega)]

theorem forwardPacket_goesOn (hh : pHops p < 31) (h2 : pType p ≠ 2) : forwardPacket s p = launch s (hopped p) := by
  rw [forwardPacket, if_neg (not_stale hm), if_neg (by omega), if_neg h2]

end

/-! ## Credits go back (R314) -/

/-- What a held buffer gives back. -/
def giveBack (s : State) (x : Packet × Nat) : State :=
  if s.fab.links.any (fun k => k.2.queue.contains x.1) || (pClass x.1 == 3 && winStalled s (x.2 / 48)) then
    { s with fab := { s.fab with owed := s.fab.owed ++ [x] } }
  else if linkUp s x.2 then onLink s x.2 (.credit (pClass x.1) (pUnits x.1)) else s

theorem returnCredits_eq (s : State) :
    returnCredits s = s.fab.owed.foldl giveBack { s with fab := { s.fab with owed := [] } } :=
  rfl

theorem giveBack_links (s : State) (x : Packet × Nat) : (giveBack s x).fab.links = s.fab.links := by
  unfold giveBack
  split
  · rfl
  · split <;> rfl

/-- A packet held last, of no window and in no queue, gives its credits back. -/
theorem returnCredits_last {s : State} {l : Nat} {p : Packet} {held : List (Packet × Nat)}
    (ho : s.fab.owed = held ++ [(p, l)]) (hup : linkUp s l = true) (hcls : pClass p ≠ 3)
    (hq : s.fab.links.any (fun k => k.2.queue.contains p) = false) :
    .onLink l (.credit (pClass p) (pUnits p)) ∈ (returnCredits s).out := by
  rw [returnCredits_eq, ho, List.foldl_append, List.foldl_cons, List.foldl_nil]
  have hlinks : (held.foldl giveBack { s with fab := { s.fab with owed := [] } }).fab.links = s.fab.links :=
    (foldl_keeps (·.fab.links) giveBack_links _ _).trans rfl
  generalize held.foldl giveBack { s with fab := { s.fab with owed := [] } } = v at hlinks
  have hup' : linkUp v l = true := by rwa [linkUp, linkOf, hlinks]
  have hno : ¬(v.fab.links.any (fun k => k.2.queue.contains p) || (pClass p == 3 && winStalled v (l / 48))) = true := by
    rw [hlinks, hq]
    simp [hcls]
  rw [giveBack, if_neg hno, if_pos hup']
  exact mem_onLink ..

/-! ## Packets sent again (R320) -/

/-- A packet with tries left is marked as sent once more, and keeps its place. -/
def retried (q n : Nat) (p : Packet) (l : Nat) (x : Nat × OutPkt) : Nat × OutPkt :=
  if x.1 = q then (q, { x.2 with p := p, tries := n + 1, link := l }) else x

theorem retried_key (q n : Nat) (p : Packet) (l : Nat) (x : Nat × OutPkt) : (retried q n p l x).1 = x.1 := by
  unfold retried
  split
  · exact Eq.symm ‹_›
  · rfl

theorem replayPacket_again {s : State} {d : ModuleId} {q : Nat} {o : OutPkt} (h : outPkt s d q = some o)
    (ht : o.tries < regF s 0x40020 19 16) :
    (outPkt (replayPacket s d q) d q).map (·.tries) = some (o.tries + 1) := by
  have hagain : ∃ p l, replayPacket s d q =
      launch (setSrc s d (fun c => { c with out := c.out.map (retried q o.tries p l) })) p := by
    unfold replayPacket
    rw [h]
    exact ⟨_, _, if_pos ht⟩
  obtain ⟨p, l, hagain⟩ := hagain
  have hmarked : outPkt (setSrc s d (fun c => { c with out := c.out.map (retried q o.tries p l) })) d q =
      some (retried q o.tries p l (q, o)).2 := by
    rw [outPkt_eq, srcCtx_setSrc_self]
    exact outOf_map (fun x => retried_key _ _ _ _ x) h
  obtain ⟨x, hx, hxt⟩ := (launch_sends _ p).tries d q _ hmarked
  rw [hagain, hx, Option.map_some, hxt, retried, if_pos rfl]

/-- One without is answered NOT_FOUND. -/
theorem replayPacket_fails {s : State} {d : ModuleId} {q : Nat} {o : OutPkt} (h : outPkt s d q = some o)
    (ht : regF s 0x40020 19 16 ≤ o.tries) (hc : s.fab.comb = []) :
    replayPacket s d q = takeAnswerOf s d q o.p .notFound := by
  unfold replayPacket
  rw [h]
  refine (if_neg (Nat.not_lt.mpr ht)).trans ?_
  rw [handOut_idle hc, ite_self]

/-- Settles O31. By the model's own reading a packet for this module goes to its row as a message to itself (log entry
47), and its credits wait until no queue holds it (log entry 156). -/
theorem packetsGoOnAndAreReplayed : Obligations.PacketsGoOnAndAreReplayed := by
  refine fun s t h0 => ⟨fun l p hup hok => ?_, fun d q o ho => ⟨fun ht => ?_, fun ht hw hc => ?_⟩⟩
  · have hrow := exec_packetForward h0 t hup hok
    refine ⟨fun hd => ?_, fun hd hcls hq => ?_, fun hd hreq hm => ?_, fun hd hm hh => ?_, fun hd h2 hm hh => ?_⟩
    · rw [hrow, if_pos hd]
    · refine ⟨_, hrow, ?_⟩
      rw [if_pos hd]
      refine returnCredits_last (held := s.fab.owed) ?_ ?_ hcls ?_
      · rw [send_fab]
        rfl
      · rw [linkUp_of_fab (send_fab ..)]
        exact hup
      · rw [send_fab]
        exact hq
    · rw [hrow, if_neg hd, forwardPacket_stale (s := owe (s.at t) l (hopped p)) hreq hm]
    · rw [hrow, if_neg hd, forwardPacket_lost (s := owe (s.at t) l (hopped p)) hm hh]
    · rw [hrow, if_neg hd, forwardPacket_goesOn (s := owe (s.at t) l (hopped p)) hm hh h2]
  · exact ⟨_, run_on h0 t (fun s => replayPacket s d q), replayPacket_again (s := s.at t) ho ht⟩
  · refine ⟨_, run_on h0 t (fun s => replayPacket s d q), ?_⟩
    rw [replayPacket_fails (s := s.at t) ho ht hc, (takeAnswerOf_series (s := s.at t) hw ..).1]
    rfl

end Sys2Proof.Machine
end

section
/-! SUPPORT. Map epochs (R330, R331, R334): what a switch leaves of the epochs, and when the one before it is gone. -/

namespace Sys2Proof.Machine

/-- The fabric but rack memory. -/
def fabButMem (f : FabSt) : FabSt := { f with mem := [] }

theorem switchBench_fab (e : Nat) (m : MapSet) (s : State) (b : Nat) : (switchBench e m s b).fab = s.fab :=
  (switchBench_frame (pm := [.bar, .benches, .work, .tier, .mgmt, .out, .spent]) (.refl s) (by decide) (by decide)
    (by decide) (by decide) (by decide) (by decide) (by decide)).fab

theorem foldl_revokeWhere_fab {α : Type} (l : List α) (f : α → Window → Bool) (s : State) :
    (l.foldl (fun s r => revokeWhere s (f r)) s).fab = s.fab :=
  foldl_keeps State.fab (fun u r => (revokeWhere_frame (pm := [.win]) (.refl u) (by decide)).fab) l s

/-- Regions of memory that a switch removes, changes or makes lose their contents and no more. -/
theorem switchExports_fabButMem (old new : Table (BitVec 256)) (s : State) :
    fabButMem (switchExports old new s).fab = fabButMem s.fab := by
  unfold switchExports
  extract_lets gone made inside s1
  have hrevoked : s1.fab = s.fab := foldl_revokeWhere_fab gone (fun r => inside r.2) s
  refine (foldl_keeps (fun u => fabButMem u.fab) ?_ _ _).trans (congrArg fabButMem hrevoked)
  exact fun _ _ => rfl

/-- Evacuations listed and begun touch nothing of the fabric (R332). -/
theorem evacs_fab (s : State) (m : MapSet) : (startEvacs (listEvacs s m)).fab = s.fab :=
  (startEvacs_frame (pm := [.work, .haul, .tier, .out, .spent]) (listEvacs_frame (.refl s) (by decide)) (by decide)
    (by decide) (by decide) (by decide) (by decide)).fab

/-- A switch that is due puts its epoch in force, with the one before it held for its drain window. -/
theorem switchEpoch_due {s : State} {n e sw : Nat} {m : MapSet} (h : s.fab.sealSet = some (e, sw, m)) (hn : sw ≤ n) :
    fabButMem (switchEpoch s n).fab = fabButMem { s.fab with
      prev := some (s.fab.epoch, sw + regF s 0x40028 6 0, s.fab.maps), epoch := e, maps := m, sealSet := none } := by
  unfold switchEpoch
  rw [h]
  refine (congrArg (fun v : State => fabButMem v.fab) (if_neg (Nat.not_lt.mpr hn))).trans ?_
  dsimp only
  rw [evacs_fab, switchExports_fabButMem, foldl_keeps State.fab (switchBench_fab e m)]

/-- One that is not due waits. -/
theorem switchEpoch_early {s : State} {n e sw : Nat} {m : MapSet} (h : s.fab.sealSet = some (e, sw, m)) (hn : n < sw) :
    switchEpoch s n = s := by
  unfold switchEpoch
  rw [h]
  exact if_pos hn

theorem endDrain_ended {s : State} {e d : Nat} {m : MapSet} (h : s.fab.prev = some (e, d, m))
    (hd : drainOpen s d = false) : endDrain s = { s with fab := { s.fab with prev := none } } := by
  unfold endDrain
  rw [h]
  exact if_neg (Bool.eq_false_iff.mp hd)

/-- Settles O39. -/
theorem epochsSwitchAndDrain : Obligations.EpochsSwitchAndDrain := by
  refine fun s t h0 => ⟨fun e sw m h hn => ?_, fun e sw m h hn => ?_, fun e d m h hd => ?_⟩
  · have hfab := switchEpoch_due (s := s.at t) h hn
    exact ⟨_, run_on h0 t (fun s => switchEpoch s t.tick), (congrArg FabSt.epoch hfab :), (congrArg FabSt.maps hfab :),
      (congrArg FabSt.sealSet hfab :), (congrArg FabSt.prev hfab :)⟩
  · exact (run_on h0 t (fun s => switchEpoch s t.tick)).trans (congrArg _ (switchEpoch_early (s := s.at t) h hn))
  · exact (run_on h0 t endDrain).trans (congrArg _ (endDrain_ended (s := s.at t) h hd))

end Sys2Proof.Machine
end

section
/-! SUPPORT. Window requests at their receiver (R337, R353, R356): what an answer leaves, how the next request of its
series comes to its window, and what it does there. -/

namespace Sys2Proof.Machine

/-! ## What an answer to a window request leaves (R353) -/

/-- `u` differs from `s` by answers and records of a window request once it is applied: rack memory and the places in
the series are as they were, and outputs are added. -/
structure Replies (s u : State) : Prop where
  mem : u.fab.mem = s.fab.mem
  out : s.out <+: u.out
  expected : ∀ q, (qpOf u q).rxExpected = (qpOf s q).rxExpected

theorem Replies.trans {s t u : State} (h1 : Replies s t) (h2 : Replies t u) : Replies s u :=
  ⟨h2.mem.trans h1.mem, h1.out.trans h2.out, fun q => (h2.expected q).trans (h1.expected q)⟩

theorem Replies.refl (s : State) : Replies s s := ⟨rfl, List.prefix_rfl, fun _ => rfl⟩

theorem Replies.ite {s a b : State} {c : Prop} [Decidable c] (ha : Replies s a) (hb : Replies s b) :
    Replies s (if c then a else b) := by
  split
  · exact ha
  · exact hb

/-- A context changes and keeps its place in the series. -/
theorem setQp_replies (s : State) (q : Nat) {f : Qp → Qp} (hf : ∀ x, (f x).rxExpected = x.rxExpected) :
    Replies s (setQp s q f) := by
  refine ⟨rfl, List.prefix_rfl, fun k => ?_⟩
  rw [qpOf_setQp]
  split
  · next h => rw [hf, h]
  · rfl

theorem grant_replies (s : State) (q : Nat) : Replies s (grant s q) :=
  .ite (.refl s) (setQp_replies s q (f := fun x => { x with rxLimit := (x.rxUsed + 16 * x.creditKib) % 2 ^ 32 })
    fun _ => rfl)

theorem launchAnswer_win (s : State) (p : Packet) : (launchAnswer s p).win = s.win :=
  (launchAnswer_frame (pm := [.bar, .fab, .out, .spent]) (.refl s) (by decide) (by decide) (by decide) (by decide)).win

theorem launchAnswer_qpOf (s : State) (p : Packet) (q : Nat) : qpOf (launchAnswer s p) q = qpOf s q :=
  congrArg (fun w : WinSt => tgetD w.qps q) (launchAnswer_win s p)

theorem launchAnswer_replies (s : State) (p : Packet) : Replies s (launchAnswer s p) :=
  ⟨(launchAnswer_sends s p).mem, (launchAnswer_sends s p).out, fun q => by rw [launchAnswer_qpOf]⟩

theorem wAnswer_replies (s : State) (q typ psn st : Nat) (data : List Byte) :
    Replies s (wAnswer s q typ psn st data) :=
  (grant_replies s q).trans (launchAnswer_replies ..)

theorem ackThrough_replies (s : State) (q : Nat) : Replies s (ackThrough s q) :=
  (setQp_replies s q (f := fun x => { x with ackDue := false, unacked := 0 }) fun _ => rfl).trans (wAnswer_replies ..)

theorem logResult_replies (s : State) (q psn : Nat) (st : Status) (v : Nat) : Replies s (logResult s q psn st v) :=
  setQp_replies s q fun _ => rfl

theorem notify_replies (s : State) (b off len imm index gen : Nat) : Replies s (notify s b off len imm index gen) := by
  have hframe : Frame [.host, .fault, .out] s (notify s b off len imm index gen) :=
    notify_frame (.refl s) (by decide) (by decide) (by decide)
  exact ⟨congrArg FabSt.mem hframe.fab, queueRecord_prefix .., fun q => by rw [qpOf, qpOf, hframe.win]⟩

/-! ## The wake flag and the cache (R357, R465) -/

/-- A context that becomes the newest of its tile changes the cache, and may write another back. -/
theorem touch_eq (s : State) (q : Nat) :
    ∃ a b o, touch s q = { s with win := { s.win with cache0 := a, cache1 := b }, out := o } := by
  have hset (l : List Nat) : ∃ a b, setCache s q l = { s with win := { s.win with cache0 := a, cache1 := b } } := by
    unfold setCache
    split
    · exact ⟨l, s.win.cache1, rfl⟩
    · exact ⟨s.win.cache0, l, rfl⟩
  unfold touch
  dsimp only
  split
  · obtain ⟨a, b, h⟩ := hset (q :: (cacheOf s q).filter (· != q))
    exact ⟨a, b, s.out, h⟩
  · split
    · next v _ =>
      obtain ⟨a, b, h⟩ := hset ((q :: (cacheOf s q).filter (· != q)).filter (· != v))
      rw [h, writeBack, emitTo]
      split
      · exact ⟨a, b, s.out, rfl⟩
      · exact ⟨a, b, _, rfl⟩
    · obtain ⟨a, b, h⟩ := hset (q :: (cacheOf s q).filter (· != q))
      exact ⟨a, b, s.out, h⟩

theorem grantFrozen_touch (s : State) (p q : Nat) : grantFrozen (touch s p) q = grantFrozen s q := by
  obtain ⟨a, b, o, h⟩ := touch_eq s p
  rw [h]
  rfl

/-! ## A request of the peer comes to its queue pair (R352 to R354) -/

section
variable {s : State} {p : WPacket} {typ : Nat}

theorem fromPeer_type (h : fromPeer s p typ = true) : wType p = typ := by
  simp only [fromPeer, wpacketOk, Bool.and_eq_true, beq_iff_eq] at h
  tauto

theorem fromPeer_here (h : fromPeer s p typ = true) : wTo p = s.fab.self := by
  simp only [fromPeer, Bool.and_eq_true, beq_iff_eq] at h
  tauto

/-- Its context is in the cache and no stall holds it: it is handled as it lands. -/
theorem takeWindow_fromPeer (h : fromPeer s p typ = true) : takeWindow typ s p = handleRequest s s.time.now p := by
  have hself := fromPeer_here h
  simp only [fromPeer, Bool.and_eq_true] at h
  obtain ⟨⟨⟨⟨⟨⟨⟨⟨hok, -⟩, htable⟩, hcache⟩, hstall⟩, -⟩, -⟩, -⟩, -⟩ := h
  obtain ⟨m, hm⟩ := Option.isSome_iff_exists.mp htable
  rw [takeWindow, if_neg (by simp [hok]), if_neg (not_not_intro hself), if_neg (by simpa using hstall)]
  rw [landWindow, if_neg (by simp [hm]), if_pos (.inr hcache)]

/-- Its queue pair knows it. -/
theorem fromPeer_known (h : fromPeer s p typ = true) :
    ((qpOf s (wDst p)).state == .free || (qpOf s (wDst p)).state == .error || (qpOf s (wDst p)).localInc != wInc p ||
      (qpOf s (wDst p)).peer != wFrom p || (qpOf s (wDst p)).peerQpn != wSrc p) = false := by
  simp only [fromPeer, Bool.and_eq_true, beq_iff_eq] at h
  obtain ⟨⟨⟨⟨-, hstate⟩, hinc⟩, hpeer⟩, hqpn⟩ := h
  rcases (Bool.or_eq_true ..).mp hstate with hs | hs <;> simp [eq_of_beq hs, hinc, hpeer, hqpn]

/-- A credit request is answered (R356). -/
theorem handleRequest_credit (h : fromPeer s p 0x49 = true) (st : Stamp) :
    handleRequest s st p = wAnswer (touch s (wDst p)) (wDst p) 0x48 0 0 [] := by
  rw [handleRequest, if_neg (by simp [fromPeer_known h]), if_pos (fromPeer_type h)]

/-- An answer carries the limit granted anew, where grants are not frozen (R356, R359). -/
theorem wAnswer_rxLimit {q : Nat} (hg : grantFrozen s q = false) (t psn st : Nat) (data : List Byte) :
    (qpOf (wAnswer s q t psn st data) q).rxLimit =
      ((qpOf s q).rxUsed + 16 * (qpOf s q).creditKib) % 2 ^ 32 := by
  rw [wAnswer, launchAnswer_qpOf, grant, if_neg (by simp [hg]), qpOf_setQp, if_pos rfl]

/-! ## The next request of its series comes to its window (R353) -/

/-- The queue pair of a request with the results logged that its peer may still ask for (R344). -/
def loggedFor (s : State) (p : WPacket) : State :=
  setQp (touch s (wDst p)) (wDst p) (fun x =>
    { x with log := x.log.filter (fun l => !psnBelow l.psn ((wPsn p + 2 ^ 32 - wLag p) % 2 ^ 32)) })

/-- The series moved on by a request, and its credit used (R353, R356). -/
def movedOn (s : State) (p : WPacket) : State :=
  setQp s (wDst p) (fun x => { x with
    rxExpected := (wPsn p + 1) % 2 ^ 32, rxUsed := (x.rxUsed + wUnits p) % 2 ^ 32, nakAt := none })

theorem movedOn_rxExpected (s : State) (p : WPacket) :
    (qpOf (movedOn s p) (wDst p)).rxExpected = (wPsn p + 1) % 2 ^ 32 := by
  rw [movedOn, qpOf_setQp, if_pos rfl]

/-- The checks of a window read nothing that the cache and the log of results hold. -/
theorem windowRefusal_loggedFor (s : State) (st : Stamp) (p : WPacket) :
    windowRefusal (loggedFor s p) (wDst p) st p = windowRefusal s (wDst p) st p := by
  have hbench : (qpOf (loggedFor s p) (wDst p)).bench = (qpOf s (wDst p)).bench := by
    rw [loggedFor, qpOf_setQp, if_pos rfl, qpOf_touch]
  unfold windowRefusal
  rw [hbench, loggedFor]
  obtain ⟨a, b, o, h⟩ := touch_eq s (wDst p)
  rw [h]
  rfl

theorem windowAt_loggedFor (s : State) (st : Stamp) (p : WPacket) :
    windowAt (loggedFor s p) st p = windowAt s st p := by
  obtain ⟨a, b, o, h⟩ := touch_eq s (wDst p)
  rw [loggedFor, h]
  rfl

/-- No request is before itself. -/
theorem psnBelow_self (n : Nat) : psnBelow n n = false := by
  simp [psnBelow, seqBelow]

/-- It is served: neither early nor a duplicate, with room for its result in the log. -/
theorem handleRequest_inOrder (h : inOrder s p typ = true) (ht : typ ≠ 0x49) :
    handleRequest s s.time.now p = serveWindow (loggedFor s p) (wDst p) s.time.now p := by
  simp only [inOrder, Bool.and_eq_true, beq_iff_eq, decide_eq_true_eq] at h
  obtain ⟨⟨⟨hpeer, hpsn⟩, hlog⟩, -⟩ := h
  have hroom : (qpOf (loggedFor s p) (wDst p)).log.length < 8 := by
    rw [loggedFor, qpOf_setQp, if_pos rfl, qpOf_touch]
    exact (List.length_filter_le ..).trans_lt hlog
  have hnew : ¬ psnBelow (wPsn p) (wPsn p) = true := by simp [psnBelow_self]
  rw [handleRequest, if_neg (by simp [fromPeer_known hpeer]), if_neg (by rw [fromPeer_type hpeer]; exact ht), hpsn,
    if_neg hnew, if_neg hnew]
  refine if_neg fun hfull => ?_
  have hfull' := of_decide_eq_true ((Bool.and_eq_true ..).mp hfull).2
  exact absurd hroom (Nat.not_lt.mpr hfull')

/-- A request that meets no refusal is applied to its window; what then follows only replies. -/
theorem serveWindow_applies {w : Window} {st : Stamp} (hr : windowRefusal s (wDst p) st p = none)
    (hw : windowAt s st p = some w) :
    Replies (applyWindow (movedOn s p) w p).1 (serveWindow s (wDst p) st p) := by
  unfold serveWindow
  rw [hr, hw]
  dsimp only
  rw [← movedOn]
  generalize applyWindow (movedOn s p) w p = x
  have hnoted : Replies x.1 (if wNotify p then
      notify x.1 w.bench (wOffset p) (wLength p) (wArg p) (wIndex p) (wGen p) else x.1) :=
    .ite (notify_replies ..) (.refl _)
  refine .ite (hnoted.trans (.ite (ackThrough_replies ..) ?_))
    (.ite (wAnswer_replies ..) ((logResult_replies ..).trans (wAnswer_replies ..)))
  exact setQp_replies _ _ fun _ => rfl

/-- A request that meets no refusal has a window. -/
theorem windowAt_of_allowed {q : Nat} {st : Stamp} (h : windowRefusal s q st p = none) :
    ∃ w, windowAt s st p = some w := by
  unfold windowRefusal at h
  split at h
  · cases h
  · exact ⟨_, ‹_›⟩

end

/-! ## What a request does to its window (R337, R347) -/

theorem applyWindow_win (s : State) (w : Window) (p : WPacket) : (applyWindow s w p).1.win = s.win :=
  (applyWindow_frame (pm := [.fab, .out, .fresh]) (.refl s) (by decide) (by decide) (by decide)).win

theorem hostWrite_fab (s : State) (b : Nat) (o : Output) : (hostWrite s b o).fab = s.fab :=
  (hostWrite_frame (pm := [.out]) (.refl s) (by decide)).fab

/-- An ADD takes memory's value on by its operand, and a CAS replaces one that equals its first operand (R324). -/
theorem applyMem_add (s : State) (a : Nat) (l : List Byte) : (applyMem s 5 a l).1.fab.mem =
    memWriteBytes s.fab.mem a (leBytes 8 (leNat (memReadBytes s.fab.mem a 8) + leNat (l.take 8))) := rfl

theorem applyMem_cas (s : State) (a : Nat) (l : List Byte) : (applyMem s 7 a l).1.fab.mem =
    if leNat (memReadBytes s.fab.mem a 8) = leNat (l.take 8) then
      memWriteBytes s.fab.mem a (leBytes 8 (leNat ((l.drop 8).take 8)))
    else s.fab.mem := by
  rw [applyMem, if_neg (by decide), if_neg (by decide)]
  dsimp only
  rw [if_neg (by decide)]
  split <;> rfl

section
variable {s : State} {w : Window} {p : WPacket}

/-- A window on host memory leaves rack memory alone. -/
theorem applyWindow_host_fab (hk : w.kind = 0) : (applyWindow s w p).1.fab = s.fab := by
  unfold applyWindow
  dsimp only
  rw [if_pos hk]
  split
  · exact hostWrite_fab ..
  · split
    · rfl
    · exact hostWrite_fab ..

/-- A write to host memory goes out, unless its function's stream has ended (R446). -/
theorem applyWindow_host_write (hk : w.kind = 0) (ht : wType p = 0x40) (hd : driver s w.bench ∉ s.host.ideStopped) :
    .bytes (w.base + wOffset p) p.data ∈ (applyWindow s w p).1.out := by
  unfold applyWindow
  dsimp only
  rw [if_pos hk, if_pos ht, hostWrite, emitTo, if_neg (by simpa using hd)]
  exact List.mem_append_right _ (List.mem_singleton_self _)

theorem applyWindow_write (hk : w.kind ≠ 0) (ht : wType p = 0x40) :
    (applyWindow s w p).1.fab.mem = memWriteBytes s.fab.mem (w.base + wOffset p) p.data := by
  unfold applyWindow
  dsimp only
  rw [if_neg hk, if_pos ht]
  rfl

theorem applyWindow_read (ht : wType p = 0x41) : (applyWindow s w p).1.fab.mem = s.fab.mem := by
  by_cases hk : w.kind = 0
  · rw [applyWindow_host_fab hk]
  · unfold applyWindow
    dsimp only
    rw [if_neg hk, if_neg (by omega), if_pos ht]

theorem applyWindow_atomic (hk : w.kind ≠ 0) (ht : wType p = 0x43 ∨ wType p = 0x44) :
    (applyWindow s w p).1 = (applyMem s (if wType p = 0x43 then 5 else 7) (w.base + wOffset p) p.data).1 := by
  unfold applyWindow
  dsimp only
  rw [if_neg hk, if_neg (by omega), if_neg (by omega)]

end

/-! ## The rows -/

section
variable {s : State} {t : Stamp} {p : WPacket}

/-- The rows of window requests are one meaning under their types. -/
theorem exec_windowRow {x : Instr × Nat} (s : State)
    (hx : x ∈ [(Instr.wWrite t p, 0x40), (.wRead t p, 0x41), (.wAdd t p, 0x43), (.wCas t p, 0x44),
      (.wCreditReq t p, 0x49)]) : exec x.1 s = runWindow t p (fun s => takeWindow x.2 s p) s := by
  simp only [List.mem_cons, List.not_mem_nil, or_false] at hx
  rcases hx with rfl | rfl | rfl | rfl | rfl <;> rfl

/-- The wake flag is no part of who sends a request, of its place or of its window (R465). -/
theorem fromPeer_noteLink (s : State) (p : WPacket) (typ : Nat) : fromPeer (noteLink s) p typ = fromPeer s p typ := by
  obtain ⟨w, hw⟩ := noteLink_eq s
  rw [hw]
  rfl

theorem inOrder_noteLink (s : State) (p : WPacket) (typ : Nat) : inOrder (noteLink s) p typ = inOrder s p typ := by
  obtain ⟨w, hw⟩ := noteLink_eq s
  rw [hw]
  rfl

/-- A request from the peer is handled at its row, at the row's stamp. -/
theorem exec_window_fromPeer {x : Instr × Nat} (h0 : s.pwr.off = false)
    (hx : x ∈ [(Instr.wWrite t p, 0x40), (.wRead t p, 0x41), (.wAdd t p, 0x43), (.wCas t p, 0x44),
      (.wCreditReq t p, 0x49)]) (hf : fromPeer (s.at t) p x.2 = true) :
    exec x.1 s = .next (handleRequest (noteLink (s.at t)) (noteLink (s.at t)).time.now p) := by
  have hhere : pDst (asPacket p) = s.fab.self := fromPeer_here (s := s.at t) hf
  rw [exec_windowRow s hx, runWindow, runPacket_here h0 hhere]
  exact congrArg Host.Outcome.next (takeWindow_fromPeer ((fromPeer_noteLink ..).trans hf))

/-- The state a request finds at its window. -/
def atWindow (s : State) (t : Stamp) (p : WPacket) : State := movedOn (loggedFor (noteLink (s.at t)) p) p

theorem atWindow_same (s : State) (t : Stamp) (p : WPacket) :
    (atWindow s t p).fab = s.fab ∧ (atWindow s t p).host = s.host := by
  obtain ⟨w, hw⟩ := noteLink_eq (s.at t)
  obtain ⟨a, b, o, h⟩ := touch_eq (noteLink (s.at t)) (wDst p)
  rw [atWindow, loggedFor, h, hw]
  exact ⟨rfl, rfl⟩

/-- The next request of its series is applied to its window, and the series moves on by one. -/
theorem exec_window_applies {w : Window} {x : Instr × Nat} (h0 : s.pwr.off = false)
    (hx : x ∈ [(Instr.wWrite t p, 0x40), (.wRead t p, 0x41), (.wAdd t p, 0x43), (.wCas t p, 0x44)])
    (ho : inOrder (s.at t) p x.2 = true) (hw : windowAt (s.at t) (s.at t).time.now p = some w) :
    wType p = x.2 ∧ ∃ u, exec x.1 s = .next u ∧ (qpOf u (wDst p)).rxExpected = (wPsn p + 1) % 2 ^ 32 ∧
      Replies (applyWindow (atWindow s t p) w p).1 u := by
  have hparts := ho
  simp only [inOrder, Bool.and_eq_true, Option.isNone_iff_eq_none] at hparts
  obtain ⟨⟨⟨hpeer, -⟩, -⟩, hallowed⟩ := hparts
  have ht : x.2 ≠ 0x49 := by
    rintro h
    simp [Prod.ext_iff, h] at hx
  have hrow := exec_window_fromPeer (x := x) h0 (List.mem_append_left [(Instr.wCreditReq t p, 0x49)] hx) hpeer
  rw [handleRequest_inOrder ((inOrder_noteLink ..).trans ho) ht] at hrow
  obtain ⟨a, hnote⟩ := noteLink_eq (s.at t)
  have hreplies : Replies (applyWindow (atWindow s t p) w p).1 _ :=
    serveWindow_applies (s := loggedFor (noteLink (s.at t)) p) (st := (noteLink (s.at t)).time.now)
      (by rw [windowRefusal_loggedFor, hnote]; exact hallowed) (by rw [windowAt_loggedFor, hnote]; exact hw)
  refine ⟨fromPeer_type hpeer, _, hrow, (hreplies.expected _).trans ?_, hreplies⟩
  rw [qpOf, applyWindow_win]
  exact movedOn_rxExpected ..

/-- A credit request leaves memory as it is and is granted its window (R356). -/
theorem exec_wCreditReq_grants (h0 : s.pwr.off = false) (hf : fromPeer (s.at t) p 0x49 = true)
    (hg : grantFrozen s (wDst p) = false) :
    ∃ u, exec (.wCreditReq t p) s = .next u ∧ u.fab.mem = s.fab.mem ∧ (qpOf u (wDst p)).rxLimit =
      ((qpOf s (wDst p)).rxUsed + 16 * (qpOf s (wDst p)).creditKib) % 2 ^ 32 := by
  have hrow := exec_window_fromPeer (x := (.wCreditReq t p, 0x49)) h0 (by simp) hf
  rw [handleRequest_credit ((fromPeer_noteLink ..).trans hf)] at hrow
  obtain ⟨a, hnote⟩ := noteLink_eq (s.at t)
  refine ⟨_, hrow, (wAnswer_replies ..).mem.trans ?_, ?_⟩
  · obtain ⟨b, c, o, htouch⟩ := touch_eq (noteLink (s.at t)) (wDst p)
    rw [htouch, hnote]
    rfl
  · rw [wAnswer_rxLimit (by rw [grantFrozen_touch, hnote]; exact hg), qpOf_touch, hnote]
    rfl

end

/-- Settles O27. A request of a sound place meets the memory its row met (`atWindow_same`), is applied there, and what
follows only replies: answers, notify records and the log of results. -/
theorem windowRequestsAreApplied : Obligations.WindowRequestsAreApplied := by
  rintro s t p w q h0 rfl
  obtain ⟨hfab, hhost⟩ := atWindow_same s t p
  refine ⟨fun ho hw => ?write, fun ho => ?read, fun ho hw hk => ?add, fun ho hw hk => ?cas,
    fun hf hg => exec_wCreditReq_grants h0 hf hg⟩
  case write =>
    obtain ⟨ht, u, hrow, hnext, hu⟩ := exec_window_applies (x := (.wWrite t p, 0x40)) h0 (by simp) ho hw
    refine ⟨u, hrow, hnext, fun hk => ?_, fun hk => ⟨?_, fun hd => hu.out.subset ?_⟩⟩
    · rw [hu.mem, applyWindow_write hk ht, hfab]
    · rw [hu.mem, applyWindow_host_fab hk, hfab]
    · exact applyWindow_host_write hk ht (by rwa [driver, vfOn, hhost])
  case read =>
    have hallowed := (Bool.and_eq_true ..).mp ho |>.2
    obtain ⟨w', hw'⟩ := windowAt_of_allowed (Option.isNone_iff_eq_none.mp hallowed)
    obtain ⟨ht, u, hrow, hnext, hu⟩ := exec_window_applies (x := (.wRead t p, 0x41)) h0 (by simp) ho hw'
    exact ⟨u, hrow, hnext, by rw [hu.mem, applyWindow_read ht, hfab]⟩
  case add =>
    obtain ⟨ht, u, hrow, hnext, hu⟩ := exec_window_applies (x := (.wAdd t p, 0x43)) h0 (by simp) ho hw
    refine ⟨u, hrow, hnext, ?_⟩
    rw [hu.mem, applyWindow_atomic hk (.inl ht), if_pos ht, applyMem_add, hfab]
  case cas =>
    obtain ⟨ht, u, hrow, hnext, hu⟩ := exec_window_applies (x := (.wCas t p, 0x44)) h0 (by simp) ho hw
    refine ⟨u, hrow, hnext, ?_⟩
    rw [hu.mem, applyWindow_atomic hk (.inr ht), if_neg (by simp [ht]), applyMem_cas, hfab]

end Sys2Proof.Machine
end

section
/-! SUPPORT. Submission rings (R371, R372): what a doorbell makes of its ring, and how a descriptor that is read
waits. -/

namespace Sys2Proof.Machine

/-! ## Doorbells (R371) -/

/-- Slots that a doorbell of a tail adds to a ring. -/
def newSlots (s : State) (ring tail : Nat) : Nat := (tail + 2 ^ 32 - (subRing s ring).tail) % 2 ^ 32

/-- Slots of a ring that are taken after a doorbell of a tail. -/
def heldSlots (s : State) (ring tail : Nat) : Nat := (tail + 2 ^ 32 - (subRing s ring).head) % 2 ^ 32

theorem ringBell_eq (s : State) (ring tail : Nat) : ringBell s ring tail =
    if (subRing s ring).error || newSlots s ring tail == 0 then s
    else if !sqEnabled s ring then ringError s ring 2
    else if decide (newSlots s ring tail ≤ sqSize s ring) && decide (heldSlots s ring tail ≤ sqSize s ring) then
      landRange s ring (subRing s ring).tail (newSlots s ring tail)
    else ringError s ring 1 := rfl

section
variable {s : State} {ring tail : Nat} (he : (subRing s ring).error = false) (hn : newSlots s ring tail ≠ 0)
include he hn

theorem ringBell_lands (hon : sqEnabled s ring = true) (hnew : newSlots s ring tail ≤ sqSize s ring)
    (hheld : heldSlots s ring tail ≤ sqSize s ring) :
    ringBell s ring tail = landRange s ring (subRing s ring).tail (newSlots s ring tail) := by
  simp [ringBell_eq, he, hn, hon, hnew, hheld]

theorem ringBell_off (hoff : sqEnabled s ring = false) : ringBell s ring tail = ringError s ring 2 := by
  simp [ringBell_eq, he, hn, hoff]

theorem ringBell_over (hon : sqEnabled s ring = true)
    (hover : sqSize s ring < newSlots s ring tail ∨ sqSize s ring < heldSlots s ring tail) :
    ringBell s ring tail = ringError s ring 1 := by
  have hroom : ¬(newSlots s ring tail ≤ sqSize s ring ∧ heldSlots s ring tail ≤ sqSize s ring) := by omega
  simp [ringBell_eq, he, hn, hon, hroom]

end

/-- A ring that enters ERROR holds its cause, and nothing lands. -/
theorem ringError_records (s : State) (ring cause : Nat) : (subRing (ringError s ring cause) ring).error = true ∧
    (tget (ringError s ring cause).host.ringErr (ring / 16)).map (fun e => (e.1, e.2.1)) = some (ring % 16, cause) ∧
    (ringError s ring cause).host.landed = s.host.landed := by
  simp [subRing, ringError]

/-- What a doorbell notes for Rest is of the power state alone (R465, R467). -/
theorem noteBell_eq (s : State) : ∃ w, noteBell s = { s with pwr := w } := by
  unfold noteBell
  split <;> exact ⟨_, rfl⟩

/-- A doorbell by the function that drives the ring, of a tail at offset 0, comes to its ring. -/
theorem exec_doorbell {s : State} {ring size : Nat} {v : Word} (t : Stamp) (h0 : s.pwr.off = false)
    (hb : barReady s = true) (hr : ring < 256) (hv : size = 4 ∨ size = 8 ∧ zeroAt v 63 32 = true) : ∃ w,
    exec (.doorbell t (driver s (ring / 16)) ring 0 size v) s =
      .next (ringBell { s.at t with pwr := w } ring (fieldOf v 31 0)) := by
  have hok : bellOk (s.at t) (driver s (ring / 16)) ring 0 size v = true := by
    have hdriver : driver s (ring / 16) = driver (s.at t) (ring / 16) := rfl
    simpa [bellOk, hr, hdriver] using hv
  have hready : barReady (s.at t) = true := hb
  obtain ⟨w, hw⟩ := noteBell_eq (s.at t)
  refine ⟨w, (run_on h0 t _).trans (congrArg _ ?_)⟩
  simp only [doorbell, hready, hok, hw, Bool.not_true, Bool.false_eq_true, if_false]

/-! ## Reads of descriptors (R372) -/

@[simp] theorem emitTo_host (s : State) (fn : Fn) (o : Output) : (emitTo s fn o).host = s.host := by
  unfold emitTo
  split <;> rfl

theorem emitTo_out (s : State) (fn : Fn) (o : Output) :
    (emitTo s fn o).out = s.out ++ (if fn ∈ s.host.ideStopped then [] else [o]) := by
  unfold emitTo
  by_cases h : fn ∈ s.host.ideStopped
  · simp [h]
  · simp [h]

/-- A landed descriptor with its bits, and with the data it names where these came too. -/
def readAs (l : Landed) (raw : BitVec 512) (data : Option NamedData) : Landed :=
  { l with
    cpl := { l.cpl with tag := fieldOf raw 63 32, op := fieldOf raw 7 0, bench := fieldOf raw 19 16 }
    raw := some raw
    data := match data with | some y => some y | none => l.data }

/-- The head of a ring past the descriptor at an index, written to the host (R370). -/
def headPast (s : State) (ring index : Nat) : State :=
  emitTo { s with host := { s.host with
    rings := tput s.host.rings ring { subRing s ring with head := (index + 1) % 2 ^ 32 } } }
    (driver s (ring / 16)) (.head ring ((index + 1) % 2 ^ 32))

/-- The landed descriptors with one of them replaced. -/
def relanded (ls : List Landed) (ring index : Nat) (l : Landed) : List Landed :=
  ls.map (fun x => if x.cpl.ring = ring ∧ x.cpl.index = index ∧ x.cpl.stamp = l.cpl.stamp then l else x)

/-- A descriptor read before the read limit of its commit, and which acts there, waits for it with what was read. -/
theorem fetched_waits {s : State} {ring index : Nat} {raw : BitVec 512} {l : Landed} (data : Option NamedData)
    (hl : landedAt s ring index = some l) (hr : l.raw = none) (ha : actsAtLanding (fieldOf raw 7 0) = false)
    (hk : inKeep s = false) (hh : s.time.halted = false) (hp : limitPassed s l.cpl.stamp = false) :
    fetched ring index raw data s = pullAtLanding { headPast s ring index with
      host := { (headPast s ring index).host with
        landed := relanded (headPast s ring index).host.landed ring index (readAs l raw data) } }
      (readAs l raw data).cpl (hostDescOf (readAs l raw data) raw) := by
  simp only [fetched, dOp, hostDescOf, hl, hr, ha, hk, hh, hp, Option.isSome_none, Bool.false_and,
    Bool.false_eq_true, if_false]
  rfl

/-- Only REQ_APPEND and REQ_RESUME pull at landing (R211). -/
theorem pullAtLanding_other {s : State} {c : Cpl} {d : HostDesc} (h1 : fieldOf d.raw 7 0 ≠ 0x21)
    (h2 : fieldOf d.raw 7 0 ≠ 0x24) : pullAtLanding s c d = s := by
  simp only [pullAtLanding, h1, h2, if_false]

theorem headPast_host (s : State) (ring index : Nat) : (headPast s ring index).host = { s.host with
    rings := tput s.host.rings ring { subRing s ring with head := (index + 1) % 2 ^ 32 } } := emitTo_host ..

/-- A head that moves touches the host's part and the outputs alone. -/
theorem headPast_frame (s : State) (ring index : Nat) : Frame [.host, .out] s (headPast s ring index) :=
  emitTo_frame (Frame.set (.refl s) (h3 := .inr (by decide))) (by decide)

/-- Settles O8. -/
theorem descriptorsLandAndWait : Obligations.DescriptorsLandAndWait := by
  refine ⟨fun s t ring size v h0 hb hr hv he hn => ?bell, fun s t ring index raw data l h0 hl hraw ha hk hh hp => ?read⟩
  case bell =>
    obtain ⟨w, hrow⟩ := exec_doorbell t h0 hb hr hv
    refine ⟨fun hon hnew hheld => ⟨_, hrow, ?_⟩, fun hoff => ⟨_, hrow, ?_⟩, fun hon hover => ⟨_, hrow, ?_⟩⟩
    · rw [ringBell_lands (s := { s.at t with pwr := w }) he hn hon hnew hheld]
      exact ⟨congrArg SubRing.tail (tgetD_tput_self ..), rfl⟩
    · rw [ringBell_off (s := { s.at t with pwr := w }) he hn hoff]
      exact ringError_records { s.at t with pwr := w } ring 2
    · rw [ringBell_over (s := { s.at t with pwr := w }) he hn hon hover]
      exact ringError_records { s.at t with pwr := w } ring 1
  case read =>
    have hpull (u : State) (c : Cpl) (d : HostDesc) : Frame [.haul, .out, .spent] u (pullAtLanding u c d) :=
      pullAtLanding_frame (.refl u) (by decide) (by decide) (by decide)
    have hhead := headPast_host (s.at t) ring index
    have hframe := headPast_frame (s.at t) ring index
    have hrow := (run_on h0 t _).trans (congrArg _ (fetched_waits (s := s.at t) data hl hraw ha hk hh hp))
    refine ⟨_, hrow, ?_, ?_, ?_, ?_, ?_⟩
    · rw [subRing, (hpull ..).host]
      dsimp only
      rw [hhead]
      exact congrArg SubRing.head (tgetD_tput_self ..)
    · exact (hpull ..).work.trans hframe.work
    · rw [(hpull ..).host]
      exact (congrArg HostSt.due hhead :)
    · intro h1 h2
      rw [pullAtLanding_other h1 h2]
      exact ⟨hframe.haul, emitTo_out ..⟩
    · rw [(hpull ..).host]
      exact (congrArg (fun h : HostSt => relanded h.landed ring index (readAs l raw data)) hhead :)

end Sys2Proof.Machine
end

section
/-! SUPPORT. Functions of the host interface (R366, R382, R446): function resets, changes of the virtual functions and
streams that fail, bench by bench. -/

namespace Sys2Proof.Machine

/-- What each step of a fold makes of its own element, and no other step undoes, holds of every element after it. -/
theorem foldl_holds_of_mem {α : Type} {P : α → State → Prop} {f : State → α → State} (hmake : ∀ s x, P x (f s x))
    (hkeep : ∀ s x y, P x s → P x (f s y)) {l : List α} {x : α} (hx : x ∈ l) (s : State) : P x (l.foldl f s) := by
  induction l generalizing s with
  | nil => cases hx
  | cons a l ih =>
    rcases List.mem_cons.mp hx with rfl | hx
    · rw [List.foldl_cons]
      exact List.foldlRecOn (motive := P x) _ _ (hmake s x) fun u hu y _ => hkeep u x y hu
    · exact ih hx _

/-! ## Function resets (R382) -/

/-- A bench as a function reset leaves it: its rings, its bindings and its set-up lock are gone. -/
structure FunctionReset (b : Nat) (s : State) : Prop where
  cq : cq s b = {}
  rings : ∀ r ∈ s.host.rings, r.1 / 16 ≠ b
  binds : ∀ x ∈ s.work.binds, x.2.bench ≠ b
  lock : b ∉ s.bar.benchLock

/-- The windows that a function reset revokes are no part of the rest it changes. -/
theorem revokeWhere_win (s : State) (f : Window → Bool) : Frame [.win] s (revokeWhere s f) :=
  revokeWhere_frame (.refl s) (by decide)

theorem resetBench_rings (s : State) (b : Nat) :
    (resetBench s b).host.rings = s.host.rings.filter (fun r => !(r.1 / 16 == b)) := by
  simp only [resetBench, (revokeWhere_win s _).host]

theorem resetBench_cqs (s : State) (b : Nat) : (resetBench s b).host.cqs = tdel s.host.cqs b := by
  simp only [resetBench, (revokeWhere_win s _).host]

theorem resetBench_binds (s : State) (b : Nat) :
    (resetBench s b).work.binds = s.work.binds.filter (fun x => x.2.bench != b) := by
  simp only [resetBench, (revokeWhere_win s _).work]

theorem resetBench_lock (s : State) (b : Nat) :
    (resetBench s b).bar.benchLock = s.bar.benchLock.filter (· != b) := by
  simp only [resetBench, (revokeWhere_win s _).bar]

theorem resetBench_resets (s : State) (b : Nat) : FunctionReset b (resetBench s b) where
  cq := by simp [cq, tgetD, resetBench_cqs]; rfl
  rings := by simp [resetBench_rings]
  binds := by simp [resetBench_binds]
  lock := by simp [resetBench_lock]

theorem resetBench_cq_other (s : State) {a b : Nat} (h : a ≠ b) : cq (resetBench s a) b = cq s b := by
  rw [cq, cq, tgetD, tgetD, resetBench_cqs, tget_tdel_other _ h]

/-- A reset of another bench brings nothing back. -/
theorem FunctionReset.stays {b : Nat} {s : State} (h : FunctionReset b s) (a : Nat) :
    FunctionReset b (resetBench s a) where
  cq := by
    rcases eq_or_ne a b with rfl | hab
    · exact (resetBench_resets s a).cq
    · exact (resetBench_cq_other s hab).trans h.cq
  rings := fun r hr => h.rings r (List.mem_of_mem_filter (resetBench_rings s a ▸ hr))
  binds := fun x hx => h.binds x (List.mem_of_mem_filter (resetBench_binds s a ▸ hx))
  lock := fun hb => h.lock (List.mem_of_mem_filter (resetBench_lock s a ▸ hb))

theorem foldl_resetBench_resets {l : List Nat} {b : Nat} (hb : b ∈ l) (s : State) :
    FunctionReset b (l.foldl resetBench s) :=
  foldl_holds_of_mem resetBench_resets (fun _ _ a h => h.stays a) hb s

theorem foldl_resetBench_cq {l : List Nat} {b : Nat} (hb : b ∉ l) (s : State) : cq (l.foldl resetBench s) b = cq s b :=
  List.foldlRecOn (motive := fun u => cq u b = cq s b) _ _ rfl fun u hu _ ha =>
    (resetBench_cq_other u (ne_of_mem_of_not_mem ha hb)).trans hu

/-! ## Changes of the virtual functions (R366) -/

/-- The state with VF Enable and NumVFs as given. -/
def withVfs (s : State) (enable : Bool) (n : Nat) : State :=
  { s with host := { s.host with vfEnable := enable, numVfs := n } }

/-- The benches whose driving function a change of VF Enable or NumVFs changes. -/
def movedBenches (s : State) (enable : Bool) (n : Nat) : List Nat :=
  (List.range 16).filter (fun b => driver s b != driver (withVfs s enable n) b)

theorem mem_movedBenches {s : State} {enable : Bool} {n b : Nat} :
    b ∈ movedBenches s enable n ↔ b < 16 ∧ driver (withVfs s enable n) b ≠ driver s b := by
  rw [movedBenches, List.mem_filter, List.mem_range, bne_iff_ne, ne_comm]

theorem vfChange_eq (enable : Bool) (n : Nat) (s : State) :
    vfChange enable n s = withVfs ((movedBenches s enable n).foldl resetBench s) enable n := rfl

/-! ## Bad accesses (R366) -/

/-- An access that is not valid, of a function that is enabled, is counted and logged. -/
theorem execBadAccess_counts {s : State} {fn : Fn} (t : Stamp) (h0 : s.pwr.off = false) (hb : barReady s = true)
    (hf : fn = .pf ∨ ∃ b, fn = .vf b ∧ vfOn s b = true) : execBadAccess t fn s = .next (badAccess (s.at t)) := by
  have hready : barReady (s.at t) = true := hb
  refine (run_on h0 t _).trans (congrArg _ (if_pos ?_))
  rw [hready]
  obtain rfl | ⟨b, rfl, hon⟩ := hf
  · rfl
  · exact hon

/-- Settles O9. -/
theorem accessesAndFunctionsAreGuarded : Obligations.AccessesAndFunctionsAreGuarded := by
  refine ⟨fun s t fn h0 hb hf => ?access, fun s t fn h0 => ?flr, fun s t enable n h0 => ?vfs⟩
  case access =>
    refine ⟨_, execBadAccess_counts t h0 hb hf, ?_⟩
    simp [badAccess]
  case flr =>
    refine ⟨_, run_on h0 t (fun s => (drivenBy s fn).foldl resetBench s), fun b hb => ?_,
      fun b hb => foldl_resetBench_cq hb (s.at t)⟩
    obtain ⟨hcq, hrings, hbinds, hlock⟩ := foldl_resetBench_resets hb (s.at t)
    exact ⟨hcq, hrings, hbinds, hlock⟩
  case vfs =>
    refine ⟨_, run_on h0 t (vfChange enable n), rfl, rfl, fun b hb hd => ?_, fun b hb hd => ?_⟩
    · have hmoved : b ∈ movedBenches (s.at t) enable n := mem_movedBenches.mpr ⟨hb, hd⟩
      obtain ⟨hcq, hrings, hbinds, -⟩ := foldl_resetBench_resets hmoved (s.at t)
      exact ⟨hcq, hrings, hbinds⟩
    · have hstays : b ∉ movedBenches (s.at t) enable n := fun h => (mem_movedBenches.mp h).2 hd
      exact foldl_resetBench_cq hstays (s.at t)

end Sys2Proof.Machine
end

section
/-! SUPPORT. The host link (R376, R377, R381, R446): streams that fail, completion signals and records that waited. -/

namespace Sys2Proof.Machine

/-! ## Streams that fail (R446) -/

/-- Rings of a bench in ERROR, one after another. -/
def errRings (b : Nat) (l : List Nat) (t : Table SubRing) : Table SubRing :=
  l.foldl (fun t j => tput t (16 * b + j) { (tgetD t (16 * b + j) : SubRing) with error := true }) t

theorem errRings_error (b : Nat) (l : List Nat) (t : Table SubRing) (k : Nat) :
    (tgetD (errRings b l t) k).error = true ↔ (tgetD t k).error = true ∨ ∃ j ∈ l, 16 * b + j = k := by
  induction l generalizing t with
  | nil => simp [errRings]
  | cons a l ih =>
    rw [errRings, List.foldl_cons, ← errRings, ih]
    rcases eq_or_ne (16 * b + a) k with rfl | h
    · simp
    · simp [tgetD_tput_other _ _ h, h]

theorem benchRingsError_host (s : State) (b cause last : Nat) : (benchRingsError s b cause last).host = { s.host with
    rings := errRings b (List.range 16) s.host.rings
    ringErr := tput s.host.ringErr b (last, cause, ((tget s.host.ringErr b).getD (0, 0, false)).2.2) } := by
  simp only [benchRingsError, logErr_host]
  rfl

theorem benchRingsError_error (s : State) (b cause last k : Nat) :
    (subRing (benchRingsError s b cause last) k).error = true ↔
      (subRing s k).error = true ∨ ∃ j < 16, 16 * b + j = k := by
  rw [subRing, benchRingsError_host, errRings_error]
  simp [subRing]

theorem foldl_benchRingsError_error {l : List Nat} {b : Nat} (hb : b ∈ l) (s : State) (cause last : Nat) :
    ∀ j, j < 16 → (subRing (l.foldl (fun s b => benchRingsError s b cause last) s) (16 * b + j)).error = true :=
  foldl_holds_of_mem (P := fun b s => ∀ j, j < 16 → (subRing s (16 * b + j)).error = true)
    (fun _ _ j hj => (benchRingsError_error ..).mpr (.inr ⟨j, hj, rfl⟩))
    (fun _ _ _ h j hj => (benchRingsError_error ..).mpr (.inl (h j hj))) hb s

/-- The streams and the functions they stopped. -/
def ideStreams (s : State) : Table IdeStream × List Fn := (s.host.ide, s.host.ideStopped)

theorem benchRingsError_ideStreams (s : State) (b cause last : Nat) :
    ideStreams (benchRingsError s b cause last) = ideStreams s := by
  rw [ideStreams, benchRingsError_host]
  rfl

/-- The functions of a stream, stopped. -/
def stopStream (s : State) (stream : Nat) (x : IdeStream) (tlpOnly : Bool) : State :=
  { s with host := { s.host with
    ide := tput s.host.ide stream { x with secure := x.secure && tlpOnly }
    ideStopped := (s.host.ideStopped ++ x.fns).eraseDups } }

theorem ideFailure_eq {s : State} {stream : Nat} {x : IdeStream} (tlpOnly : Bool)
    (h : tget s.host.ide stream = some x) : ideFailure stream tlpOnly s =
      (x.fns.flatMap (drivenBy s)).eraseDups.foldl (fun s b => benchRingsError s b 3 15)
      (stopStream s stream x tlpOnly) := by
  simp only [ideFailure, h]
  rfl

theorem ideFailure_ideStreams {s : State} {stream : Nat} {x : IdeStream} (tlpOnly : Bool)
    (h : tget s.host.ide stream = some x) :
    ideStreams (ideFailure stream tlpOnly s) = ideStreams (stopStream s stream x tlpOnly) := by
  rw [ideFailure_eq tlpOnly h]
  exact foldl_keeps ideStreams (fun u b => benchRingsError_ideStreams u b 3 15) _ _

/-! ## Completion rings (R376, R377) -/

@[simp] theorem cqVector_host (s : State) (b : Nat) : (cqVector s b).host = s.host := by
  unfold cqVector
  split <;> exact signal_host ..

theorem cq_setCq_self (s : State) (b : Nat) (f : Cq → Cq) : cq (setCq s b f) b = f (cq s b) := tgetD_tput_self ..

theorem cq_of_host {s u : State} (h : u.host = s.host) (b : Nat) : cq u b = cq s b :=
  congrArg (fun h : HostSt => tgetD h.cqs b) h

/-- The vector of a bench, where the module still writes to every function. -/
theorem cqVector_out {s : State} (b : Nat) (h : s.host.ideStopped = []) :
    (cqVector s b).out = s.out ++ [if vfOn s b then .vector (.vf b) 0 else .vector .pf (2 * b)] := by
  unfold cqVector
  split <;> simp [signal, emitTo, h]

/-- A record written moves the producer on, and leaves what waits and the consumer. -/
theorem writeRecord_cq (s : State) (b : Nat) (r : CplRec) :
    (cq (writeRecord s b r) b).producer = ((cq s b).producer + 1) % 2 ^ 32 ∧
      (cq (writeRecord s b r) b).waiting = (cq s b).waiting ∧
      (cq (writeRecord s b r) b).consumer = (cq s b).consumer := by
  unfold writeRecord
  extract_lets q i p s1
  have hq : cq s1 b = cq s b := cq_of_host ((emitTo_host ..).trans (emitTo_host ..)) b
  split
  · rw [cq_of_host (cqVector_host ..) b, cq_setCq_self, hq]
    exact ⟨rfl, rfl, rfl⟩
  · rw [cq_setCq_self, hq]
    exact ⟨rfl, rfl, rfl⟩

/-- The record itself goes out, unless the module writes nothing more to the function. -/
theorem mem_writeRecord_out {s : State} {b : Nat} (r : CplRec) (h : driver s b ∉ s.host.ideStopped) :
    .record b (cq s b).producer (phaseOf (cq s b).producer (cqSize s b)) r ∈ (writeRecord s b r).out := by
  unfold writeRecord
  extract_lets q i p s1
  have hout : .record b i (phaseOf i (cqSize s b)) r ∈ s1.out := by
    refine (emitTo_prefix ..).subset ?_
    rw [emitTo_out, if_neg h]
    exact List.mem_append_right _ (List.mem_singleton_self _)
  split
  · exact (cqVector_prefix (setCq s1 b _) b).subset hout
  · exact hout

/-- A ring whose consumer was read again (R377). -/
def consumerRead (s : State) (b consumer : Nat) : State := setCq s b (fun q => { q with consumer := consumer % 2 ^ 32 })

theorem exec_completionRecordDrain {s : State} (h0 : s.pwr.off = false) (t : Stamp) (b consumer : Nat) :
    exec (.completionRecordDrain t b consumer) s = .next (drainRecords (consumerRead (s.at t) b consumer) b
      ((cq (consumerRead (s.at t) b consumer) b).waiting.length + 1)) :=
  run_on h0 t (fun s =>
    drainRecords (consumerRead s b consumer) b ((cq (consumerRead s b consumer) b).waiting.length + 1))

section
variable {s : State} {b : Nat} {r : CplRec} (hw : (cq s b).waiting = [r]) (hr : recordRoom s b = true)
include hw hr

/-- One record that waits is written where there is room, and nothing waits after it. -/
theorem drainRecords_one : drainRecords s b ((cq s b).waiting.length + 1) =
    writeRecord (setCq s b (fun q => { q with waiting := [] })) b r := by
  have hnone : (cq (writeRecord (setCq s b (fun q => { q with waiting := [] })) b r) b).waiting = [] := by
    obtain ⟨-, hwait, -⟩ := writeRecord_cq (setCq s b (fun q => { q with waiting := [] })) b r
    rw [hwait, cq_setCq_self]
  simp only [drainRecords, hw, hr, hnone, List.length_singleton, if_true]

theorem drainRecords_one_cq : (cq (drainRecords s b ((cq s b).waiting.length + 1)) b).waiting = [] ∧
    (cq (drainRecords s b ((cq s b).waiting.length + 1)) b).consumer = (cq s b).consumer ∧
    (cq (drainRecords s b ((cq s b).waiting.length + 1)) b).producer = ((cq s b).producer + 1) % 2 ^ 32 := by
  obtain ⟨hprod, hwait, hcons⟩ := writeRecord_cq (setCq s b (fun q => { q with waiting := [] })) b r
  rw [drainRecords_one hw hr, hprod, hwait, hcons, cq_setCq_self]
  exact ⟨rfl, rfl, rfl⟩

theorem mem_drainRecords_one_out (hd : driver s b ∉ s.host.ideStopped) :
    .record b (cq s b).producer (phaseOf (cq s b).producer (cqSize s b)) r ∈
      (drainRecords s b ((cq s b).waiting.length + 1)).out := by
  rw [drainRecords_one hw hr]
  have hmem := mem_writeRecord_out (s := setCq s b (fun q => { q with waiting := [] })) r hd
  rwa [cq_setCq_self] at hmem

end

/-- Settles O10. -/
theorem hostLinkEvents : Obligations.HostLinkEvents := by
  intro s t h0
  refine ⟨fun h => (run_on h0 t _ : execPtmDialogue t h s = _), fun stream tlpOnly x hx => ?ide, fun b hdue => ?signal,
    fun b consumer r hw hroom => ?drain⟩
  case ide =>
    have hstreams := ideFailure_ideStreams (s := s.at t) tlpOnly hx
    refine ⟨_, run_on h0 t (ideFailure stream tlpOnly), ?_, fun fn hfn => ?_, fun fn hfn b hb => ?_⟩
    · exact (congrArg (tget ·.1 stream) hstreams).trans (tget_tput_self ..)
    · refine (congrArg (fn ∈ ·.2) hstreams).mpr ?_
      exact List.mem_eraseDups.mpr (List.mem_append_right _ hfn)
    · rw [ideFailure_eq (s := s.at t) tlpOnly hx]
      exact foldl_benchRingsError_error (List.mem_eraseDups.mpr (List.mem_flatMap.mpr ⟨fn, hfn, hb⟩)) _ 3 15
  case signal =>
    refine ⟨_, (run_on h0 t _).trans (congrArg _ (if_pos hdue)), ?_⟩
    rw [cq_of_host (cqVector_host ..) b, cq_setCq_self]
    exact ⟨rfl, rfl, fun hs => cqVector_out b hs⟩
  case drain =>
    have hq : cq (consumerRead (s.at t) b consumer) b = { cq s b with consumer := consumer % 2 ^ 32 } :=
      cq_setCq_self ..
    have hone : (cq (consumerRead (s.at t) b consumer) b).waiting = [r] := by rw [hq, hw]
    obtain ⟨hwait, hcons, hprod⟩ := drainRecords_one_cq hone hroom
    refine ⟨_, exec_completionRecordDrain h0 t b consumer, hwait, hcons.trans (by rw [hq]), hprod.trans (by rw [hq]),
      fun hd => ?_⟩
    have hproducer : (cq (consumerRead (s.at t) b consumer) b).producer = (cq s b).producer := by rw [hq]
    exact hproducer ▸ mem_drainRecords_one_out hone hroom hd

end Sys2Proof.Machine
end

section
/-! SUPPORT. NOP, stream bindings and tallies (R242, R243, R248, R249, R374): what each is due, and what it makes of its
table. -/

namespace Sys2Proof.Machine

theorem applyNop_answers {d : HostDesc} (c : Cpl) (n : Nat) (s : State) (h1 : zeroAt d.raw 511 64 = true)
    (h2 : zeroAt d.raw 31 20 = true) (h3 : zeroAt d.raw 15 8 = true) :
    applyNop c d n s = due s c .ok d.stamp.tick n d.stamp.off := by
  simp [applyNop, h1, h2, h3]

/-! ## Bindings (R242, R243) -/

/-- The producer at which a binding to a ring starts: the one the request kept for that ring. -/
def firstProducer (s : State) (k ring : Nat) : Nat :=
  match req s k with
  | some x => if x.ringAddr = ring ∧ x.ringAddr ≠ 0 then x.producer else 0
  | none => 0

/-- A STREAM_BIND of a request, with its reserved bits 0. -/
structure BindOp (r : BitVec 512) : Prop where
  top : zeroAt r 511 256 = true
  middle : zeroAt r 31 20 = true
  low : zeroAt r 15 13 = true
  named : fieldOf r 127 64 ≠ 0

theorem applyBind_sets {s : State} {d : HostDesc} (c : Cpl) (n : Nat) (h : BindOp d.raw)
    (hr : fieldOf d.raw 191 128 ≠ 0) (hpage : fieldOf d.raw 191 128 % 4096 = 0)
    (hline : fieldOf d.raw 255 192 % 64 = 0) (hmin : 6 ≤ fieldOf d.raw 12 8)
    (hmax : fieldOf d.raw 12 8 ≤ 16)
    (hroom : (bindOf s (fieldOf d.raw 127 64)).isSome = true ∨ s.work.binds.length < 65536) :
    applyBind c d n s = due { s with work := { s.work with
      binds := tput s.work.binds (fieldOf d.raw 127 64)
        { ringAddr := fieldOf d.raw 191 128, ctl := fieldOf d.raw 255 192, log2 := fieldOf d.raw 12 8,
          producer := firstProducer s (fieldOf d.raw 127 64) (fieldOf d.raw 191 128),
          consumer := firstProducer s (fieldOf d.raw 127 64) (fieldOf d.raw 191 128), bench := c.bench, tick := n } } }
      c .ok (firstProducer s (fieldOf d.raw 127 64) (fieldOf d.raw 191 128)) n := by
  have hfits : ((bindOf s (fieldOf d.raw 127 64)).isNone && decide (65536 ≤ s.work.binds.length)) = false := by
    rcases hroom with hr | hr
    · simp [Option.isNone_eq_false_iff.mpr hr]
    · simp [hr]
  simp only [applyBind, dReq, h.top, h.middle, h.low, beq_eq_false_iff_ne.mpr h.named, hr, hline, hpage, hfits,
    decide_eq_false (Nat.not_lt.mpr hmin), decide_eq_false (Nat.not_lt.mpr hmax), bne_self_eq_false, Bool.not_true,
    Bool.or_false, Bool.false_eq_true, if_false]
  rfl

theorem applyBind_removes {s : State} {d : HostDesc} (c : Cpl) (n : Nat) (h : BindOp d.raw)
    (hr : fieldOf d.raw 191 128 = 0) (hb : (bindOf s (fieldOf d.raw 127 64)).isSome = true) :
    applyBind c d n s =
      due { s with work := { s.work with binds := tdel s.work.binds (fieldOf d.raw 127 64) } } c .ok 0 n := by
  obtain ⟨b, hb⟩ := Option.isSome_iff_exists.mp hb
  simp [applyBind, dReq, h.top, h.middle, h.low, h.named, hr, hb]

/-! ## Tallies (R248, R249) -/

/-- A TALLY_SET with its reserved bits 0. -/
structure TallyOp (r : BitVec 512) : Prop where
  top : zeroAt r 511 224 = true
  upper : zeroAt r 111 76 = true
  middle : zeroAt r 31 20 = true
  low : zeroAt r 15 10 = true

/-- A tally as a TALLY_SET leaves it before its first refill: the balance it gives, or the one that was there. -/
def askedTally (s : State) (c : Cpl) (r : BitVec 512) (n : Nat) : Tally :=
  { (tget s.work.tallies (fieldOf r 75 64)).getD { bench := c.bench, firstTick := n } with
    balance := if bitOf r 8 then fieldOf r 223 192 else tallyBalance s (fieldOf r 75 64)
    refill := fieldOf r 159 128, cap := fieldOf r 191 160, window := fieldOf r 127 112, anchor := n + 1 }

/-- No other bench holds the tally. -/
def tallyFreeFor (s : State) (b id : Nat) : Prop := ∀ x, tget s.work.tallies id = some x → x.bench = b

theorem askedTally_bench {s : State} {c : Cpl} {r : BitVec 512} (n : Nat)
    (h : tallyFreeFor s c.bench (fieldOf r 75 64)) : (askedTally s c r n).bench = c.bench := by
  unfold askedTally
  cases hx : tget s.work.tallies (fieldOf r 75 64) with
  | none => rfl
  | some x => exact h x hx

/-- The refill of the window that starts behind the commit is due, unless that window's has been applied. -/
theorem askedTally_due {s : State} {c : Cpl} {r : BitVec 512} {n : Nat} (hw : 0 < fieldOf r 127 112)
    (h : ∀ x, tget s.work.tallies (fieldOf r 75 64) = some x → x.lastRefill ≠ some (n + 1)) :
    refillDue (askedTally s c r n) (n + 1) = true := by
  have hlast : (askedTally s c r n).lastRefill ≠ some (n + 1) := by
    unfold askedTally
    cases hx : tget s.work.tallies (fieldOf r 75 64) with
    | none => exact nofun
    | some x => exact h x hx
  simp only [refillDue, bne_iff_ne.mpr hlast]
  simp [askedTally, hw]

theorem applyTally_sets {s : State} {d : HostDesc} (close : State → Nat → State) (c : Cpl) (n : Nat) (h : TallyOp d.raw)
    (hset : bitOf d.raw 9 = false) (hcap : 0 < fieldOf d.raw 191 160)
    (hle : fieldOf d.raw 159 128 ≤ fieldOf d.raw 191 160) (hw : 0 < fieldOf d.raw 127 112)
    (hown : tallyFreeFor s c.bench (fieldOf d.raw 75 64)) :
    applyTally close c d n s = due { s with work := { s.work with
      tallies := tput s.work.tallies (fieldOf d.raw 75 64) (askedTally s c d.raw n) } } c .ok 0 n
      (tally := some (fieldOf d.raw 75 64)) := by
  have hown' : ¬(((tget s.work.tallies (fieldOf d.raw 75 64)).map (·.bench)).isSome ∧
      (tget s.work.tallies (fieldOf d.raw 75 64)).map (·.bench) ≠ some c.bench) := by
    cases hx : tget s.work.tallies (fieldOf d.raw 75 64) with
    | none => simp
    | some x => simp [hown x hx]
  have hbalance : ((tget s.work.tallies (fieldOf d.raw 75 64)).getD { bench := c.bench, firstTick := n }).balance =
      tallyBalance s (fieldOf d.raw 75 64) := by
    unfold tallyBalance
    cases tget s.work.tallies (fieldOf d.raw 75 64) <;> rfl
  simp only [applyTally, h.top, h.upper, h.middle, h.low, hset, Nat.ne_of_gt hcap, Nat.not_lt.mpr hle, Nat.ne_of_gt hw,
    hown', hbalance, Bool.not_true, Bool.or_false, Bool.false_eq_true, or_false, if_false]
  rfl

theorem applyTally_deletes {s : State} {d : HostDesc} (close : State → Nat → State) (c : Cpl) (n : Nat)
    (h : TallyOp d.raw) (hdel : bitOf d.raw 9 = true)
    (hown : (tget s.work.tallies (fieldOf d.raw 75 64)).map (·.bench) = some c.bench) :
    applyTally close c d n s = due { close s (fieldOf d.raw 75 64) with
      work := { (close s (fieldOf d.raw 75 64)).work with
        tallies := tdel (close s (fieldOf d.raw 75 64)).work.tallies (fieldOf d.raw 75 64) } } c .ok 0 n := by
  simp only [applyTally, h.top, h.upper, h.middle, h.low, hdel, hown, Bool.not_true, Bool.or_false, Bool.false_eq_true,
    if_false, if_true]

/-- A tally that is not there has no refill. -/
theorem refillTally_absent {s : State} {id : Nat} (k : Nat) (h : tget s.work.tallies id = none) :
    refillTally s id k = s := by
  simp only [refillTally, tmod, h]

/-- The record of a tally that closes touches no other tally, and nothing else of the requests and streams. -/
theorem closeTally_work (s : State) (id reason k : Nat) : ∃ l, (closeTally s id reason k).work =
    { s.work with tallies := l } ∧ ∀ i, i ≠ id → tget l i = tget s.work.tallies i := by
  unfold closeTally
  split
  · exact ⟨_, rfl, fun _ _ => rfl⟩
  · split
    · exact ⟨_, rfl, fun _ _ => rfl⟩
    · exact ⟨_, rfl, fun i hi => tget_tput_other _ _ hi.symm⟩

/-- What a TALLY_SET does at step 1: its own effect, and the refill of the window that starts behind the commit. -/
def tallyEffect (c : Cpl) (d : HostDesc) (n : Nat) (s : State) : State :=
  refillTally (applyTally (closeDeleted n) c d n s) (fieldOf d.raw 75 64) (n + 1)

/-- A row of TALLY_SET whose effect changes the tallies alone among what a commit writes: the records behind it leave
them. -/
theorem tallyRow_leaves {s v : State} {d : HostDesc} {l : Table Tally} (h0 : s.pwr.off = false) (hq : quiet s)
    (ha : meetsCommit s d = true) (hg : gate s d 0x60 (commitOf s d.stamp) = none)
    (hf : tallyEffect (cplOf s d) d (commitOf s d.stamp) (atLanding s d) = v)
    (hw : v.work = { s.work with tallies := l }) (ho : v.out = s.out) :
    ∃ u, tallyRow d s = .next u ∧ u.work.tallies = l := by
  have hflush : Frame [.host, .fault, .out, .spent] v (flushDue v) :=
    flushDue_frame (.refl v) (by decide) (by decide) (by decide) (by decide)
  have hg' : gate (atLanding s d) d 0x60 (commitOf s d.stamp) = none := hg
  have happly : applyDesc 0x60 tallyEffect d (commitOf s d.stamp) (atLanding s d) = v := by
    rw [applyDesc, applyWith, hg']
    exact hf
  obtain ⟨a1, a2, a3, a4, -, a6⟩ := hq
  refine ⟨flushDue v, (hostRow_meets h0 ha).trans (congrArg _ (settle_quiet happly ?_ ?_ ?_ ?_ ?_
    (addsPlain.of_eq ho).noStream)), (congrArg WorkSt.tallies (hflush.work.trans hw) :)⟩
  all_goals rw [hw]; assumption

section
variable {s : State} {d : HostDesc} (h0 : s.pwr.off = false) (hq : quiet s) (ha : meetsCommit s d = true)
  (hg : gate s d 0x60 (commitOf s d.stamp) = none) (h : TallyOp d.raw)
include h0 hq ha hg h

theorem tallyRow_sets (hset : bitOf d.raw 9 = false) (hcap : 0 < fieldOf d.raw 191 160)
    (hle : fieldOf d.raw 159 128 ≤ fieldOf d.raw 191 160) (hw : 0 < fieldOf d.raw 127 112)
    (hown : tallyFreeFor s (dBench d) (fieldOf d.raw 75 64))
    (hlast : ∀ x, tget s.work.tallies (fieldOf d.raw 75 64) = some x → x.lastRefill ≠ some (commitOf s d.stamp + 1)) :
    ∃ u, tallyRow d s = .next u ∧ tget u.work.tallies (fieldOf d.raw 75 64) =
      some (refilledAt (commitOf s d.stamp + 1) (askedTally s (cplOf s d) d.raw (commitOf s d.stamp))) := by
  have hdue := askedTally_due (s := atLanding s d) (c := cplOf s d) hw hlast
  have hset' := applyTally_sets (s := atLanding s d) (closeDeleted (commitOf s d.stamp)) (cplOf s d)
    (commitOf s d.stamp) h hset hcap hle hw hown
  obtain ⟨u, hu, hl⟩ := tallyRow_leaves h0 hq ha hg
    ((congrArg (refillTally · _ _) hset').trans (refillTally_due (tget_tput_self ..) hdue)) rfl rfl
  exact ⟨u, hu, hl ▸ tget_tput_self ..⟩

theorem tallyRow_deletes (hdel : bitOf d.raw 9 = true)
    (hown : (tget s.work.tallies (fieldOf d.raw 75 64)).map (·.bench) = some (dBench d)) :
    ∃ u, tallyRow d s = .next u ∧ tget u.work.tallies (fieldOf d.raw 75 64) = none ∧
      ∀ i, i ≠ fieldOf d.raw 75 64 → tget u.work.tallies i = tget s.work.tallies i := by
  obtain ⟨l, hwork, hother⟩ := closeTally_work (atLanding s d) (fieldOf d.raw 75 64)
    (if windowEnds (atLanding s d) (commitOf s d.stamp) then 0 else 4) (commitOf s d.stamp)
  have hout : (closeDeleted (commitOf s d.stamp) (atLanding s d) (fieldOf d.raw 75 64)).out = s.out :=
    (closeDeleted_frame (pm := [.work, .mgmt]) (.refl (atLanding s d)) (by decide) (by decide)).out
  have hdel' := applyTally_deletes (s := atLanding s d) (closeDeleted (commitOf s d.stamp)) (cplOf s d)
    (commitOf s d.stamp) h hdel hown
  obtain ⟨u, hu, hl⟩ := tallyRow_leaves (l := tdel l (fieldOf d.raw 75 64)) h0 hq ha hg
    ((congrArg (refillTally · _ _) hdel').trans (refillTally_absent _ (tget_tdel_self ..)))
    (congrArg (fun w : WorkSt => { w with tallies := tdel w.tallies (fieldOf d.raw 75 64) }) hwork) hout
  exact ⟨u, hu, hl ▸ tget_tdel_self .., fun i hi => hl ▸ (tget_tdel_other _ hi.symm).trans (hother i hi)⟩

end

/-- Settles O17. -/
theorem nopBindingsAndTalliesAnswer : Obligations.NopBindingsAndTalliesAnswer := by
  refine ⟨fun s d h0 hq ha hg h1 h2 h3 => ?nop, ?binds, ?tallies⟩
  case nop =>
    exact hostRow_due h0 ha hg (atLanding_quiet d hq) (applyNop_answers _ _ _ h1 h2 h3) (addsPlain.of_eq rfl).noStream
  case binds =>
    rintro s d n k first h0 hq ha rfl hg rfl hk htop hmid hlow hfirst
    have hop : BindOp d.raw := ⟨htop, hmid, hlow, hk⟩
    refine ⟨fun hr hpage hline hmin hmax hroom => ?_, fun hr hb => ?_⟩
    · obtain rfl : first = firstProducer s (fieldOf d.raw 127 64) (fieldOf d.raw 191 128) := hfirst
      exact hostRow_due h0 ha hg (atLanding_quiet d hq)
        (applyBind_sets (s := atLanding s d) (cplOf s d) (commitOf s d.stamp) hop hr hpage hline hmin hmax hroom)
        (addsPlain.of_eq rfl).noStream
    · exact hostRow_due h0 ha hg (atLanding_quiet d hq)
        (applyBind_removes (s := atLanding s d) (cplOf s d) (commitOf s d.stamp) hop hr hb)
        (addsPlain.of_eq rfl).noStream
  case tallies =>
    rintro s d n id h0 hq ha rfl hg rfl htop hupper hmid hlow
    have hop : TallyOp d.raw := ⟨htop, hupper, hmid, hlow⟩
    refine ⟨fun hset hcap hle hw hold => ?_, fun hdel hown => tallyRow_deletes h0 hq ha hg hop hdel hown⟩
    have hown : tallyFreeFor s (dBench d) (fieldOf d.raw 75 64) := fun x hx => (hold x hx).1
    obtain ⟨u, hu, htally⟩ := tallyRow_sets h0 hq ha hg hop hset hcap hle hw hown fun x hx => (hold x hx).2
    refine ⟨u, hu, ?_⟩
    rw [htally, Option.map_some, refilledAt, askedTally_bench (c := cplOf s d) _ hown]
    rfl

end Sys2Proof.Machine
end

section
/-! SUPPORT. The resets (R385 to R387, R390, R452, R513, R516): what of a state a cold or a warm reset needs, and what each
contact makes of the module. -/

namespace Sys2Proof.Machine

/-! ## What a reset keeps -/

/-- A cold reset keeps the flash, the boot NOR, the persistent log and the secure element, and those alone. -/
theorem coldLeft_coldReset {r s : State} (hslots : s.fw.slots = r.fw.slots) (hdir0 : s.fw.dir0 = r.fw.dir0)
    (hdir1 : s.fw.dir1 = r.fw.dir1) (htier : s.tier = r.tier) (hfault : s.fault = r.fault) (hsec : s.sec = r.sec) :
    coldLeft r (coldReset s) := by
  simp [coldLeft, coldReset, resetState, State.reset, hslots, hdir0, hdir1, htier, hfault, hsec]

/-- While a cold start-up is under way no warm reset abandons it (R387, log entry 74). -/
theorem warmReset_ignored {s : State} (h : coldRunning s = true) : warmReset s = s :=
  if_pos (by simp [h])

/-! ## The contacts -/

/-- RESET_N low for 10 µs or more (R516). -/
theorem execResetN_resets (s : State) (t : Stamp) {n : Nat} (h : 10000 ≤ n) :
    execResetN t n s = .next (coldReset { s.at t with fw := { s.fw with resetLow := true } }) := by
  unfold execResetN
  rw [if_neg (by omega), if_neg (by omega)]
  rfl

/-- The input below 45 V (R452). -/
theorem execInputUndervoltage_resets (s : State) (t : Stamp) {mv : Nat} (h : mv < 45000) :
    execInputUndervoltage t mv s =
      .next (coldReset { s.at t with pwr := { s.pwr with mv := mv, inputDown := true, excursion := false } }) :=
  congrArg _ (if_pos h)

/-- The input through 48 V after a fall (R385). -/
theorem execInputRise_resets (s : State) (t : Stamp) {mv : Nat} (h : 48000 ≤ mv) (hdown : s.pwr.inputDown = true) :
    execInputRise t mv s = .next (coldReset { s.at t with pwr := { s.pwr with mv := mv, inputDown := false } }) :=
  congrArg _ (if_pos (by simp [h, hdown]))

/-- PERST# leaves what a warm reset leaves, with the contact low (R385, R513). -/
theorem execPerst_of_warmReset {s u : State} {t : Stamp} (h : warmReset (s.at t) = u) :
    execPerst t s = .next { u with fw := { u.fw with perstLow := true } } :=
  h ▸ rfl

/-- The host's warm reset acts where BAR0 answers, outside Rest (R385). -/
theorem execPwResetCtrlWarm_acts {s : State} (t : Stamp) (h0 : s.pwr.off = false) (hbar : barReady s = true)
    (hrest : s.pwr.state ≠ .rest) : execPwResetCtrlWarm t .pf s = .next (warmReset (s.at t)) := by
  have hbar' : barReady (s.at t) = true := hbar
  have hopen : restShut (s.at t) 0x60010 = false := by simp [restShut, hrest]
  unfold execPwResetCtrlWarm pfWrite
  rw [run_on h0]
  simp [hbar', hopen]

/-- PERST# rising is answered with Request Retry Status until the module is served or in RECOVERY (R390). -/
theorem execPerstRelease_answers {s : State} (t : Stamp) (h0 : s.pwr.off = false) (hlow : s.fw.resetLow = false) :
    execPerstRelease t s = .next (emit { s.at t with fw := { s.fw with perstLow := false } }
      (.pcie .pf (served s || s.fw.stage == .recovery))) :=
  congrArg _ (if_neg (by simp [h0, hlow]))

/-- The input out of its range, logged once per excursion (R452). -/
theorem execInputOutOfRange_logs {s : State} (t : Stamp) {mv : Nat} (h0 : s.pwr.off = false)
    (hx : s.pwr.excursion = false) (h : (45000 ≤ mv ∧ mv < 50000) ∨ 60000 < mv) :
    execInputOutOfRange t mv s =
      .next (logErr { s.at t with pwr := { s.pwr with mv := mv, excursion := true } } .environment 2) :=
  (run_on h0 ..).trans (congrArg _ (if_pos (by simpa [hx] using h)))

/-- The input in its range ends the excursion (R452). -/
theorem execInputInRange_ends {s : State} (t : Stamp) {mv : Nat} (h0 : s.pwr.off = false) (h1 : 50000 ≤ mv)
    (h2 : mv ≤ 60000) :
    execInputInRange t mv s = .next { s.at t with pwr := { s.pwr with mv := mv, excursion := false } } := by
  unfold execInputInRange
  rw [run_on h0]
  simp [h1, h2]

/-! ## The statement -/

/-- Settles O48: each contact is one equation, and what a reset keeps the contact has not touched. -/
theorem resetsKeepAndDiscard : Obligations.ResetsKeepAndDiscard := by
  intro s t
  refine ⟨fun n h => if_pos h, fun n h => ?resetN, rfl, fun mv h => ?down, fun mv h => congrArg _ (if_neg (by omega)),
    fun mv h hdown => ?rise, fun mv h => congrArg _ (if_neg (by simp [h])), fun h0 hlow => ⟨fun hcold => ⟨?perst, ?warm⟩,
    fun hcold => execPerst_of_warmReset (warmReset_ignored hcold), ?release⟩, fun mv h0 hx h => ?outOfRange,
    fun mv h0 h1 h2 => execInputInRange_ends t h0 h1 h2⟩
  case resetN => exact ⟨_, execResetN_resets s t h, coldLeft_coldReset rfl rfl rfl rfl rfl rfl, rfl⟩
  case down =>
    exact ⟨_, execInputUndervoltage_resets s t h, coldLeft_coldReset rfl rfl rfl rfl rfl rfl, rfl, rfl, rfl⟩
  case rise => exact ⟨_, execInputRise_resets s t h hdown, coldLeft_coldReset rfl rfl rfl rfl rfl rfl, rfl⟩
  case perst =>
    exact ⟨_, execPerst_of_warmReset (warmReset_acts h0 hlow hcold), warmLeft_resetState (.refl (s.at t)), rfl⟩
  case warm =>
    intro hbar hrest
    refine ⟨_, execPwResetCtrlWarm_acts t h0 hbar hrest, ?_⟩
    rw [warmReset_acts (s := s.at t) h0 hlow hcold]
    exact warmLeft_resetState (.refl (s.at t))
  case release =>
    refine ⟨_, _, execPerstRelease_answers t h0 hlow, rfl, List.mem_append_right _ (List.mem_singleton_self _), ?_⟩
    simp [served, or_assoc, or_comm, or_left_comm]
  case outOfRange =>
    refine ⟨_, execInputOutOfRange_logs t h0 hx h, ?_, ?_, logErr_prod ..⟩ <;> rw [logErr_pwr]

end Sys2Proof.Machine
end

section
/-! SUPPORT. Keep mode, the pairing check and the control restart (R385, R387, R399 to R402, R426, R434): what each makes of
a state, and the changes of the boot directory that go with them. -/

namespace Sys2Proof.Machine

/-! ## The boot directory (R393) -/

/-- The two copies alone make the directory. -/
theorem bootDir_of_dirs {s u : State} (h0 : u.fw.dir0 = s.fw.dir0) (h1 : u.fw.dir1 = s.fw.dir1) : bootDir u = bootDir s := by
  unfold bootDir usesCopy1
  rw [h0, h1]

theorem bootDir_of_fw {s u : State} (h : u.fw = s.fw) : bootDir u = bootDir s :=
  bootDir_of_dirs (congrArg FwSt.dir0 h) (congrArg FwSt.dir1 h)

/-- A change writes one of the two copies and no more. -/
theorem putDir_fw (s : State) (f : BootDir → BootDir) :
    ∃ a b, (putDir s f).fw = { s.fw with dir0 := a, dir1 := b } := by
  unfold putDir
  dsimp only
  split
  · exact ⟨_, _, rfl⟩
  · exact ⟨_, _, rfl⟩

/-- A change of a directory that reads as `d` (R393). -/
theorem bootDir_putDir_of {s : State} {f : BootDir → BootDir} {d : BootDir} (hd : bootDir s = d) (hq : d.seq + 1 < 2 ^ 64)
    (ht : (f d).trial < 3) (hfw : (f d).fwSlot < 2) (hldr : (f d).ldrSlot < 2) :
    bootDir (putDir s f) = { f d with seq := d.seq + 1 } := by
  subst hd
  exact bootDir_putDir hq ⟨ht, hfw, hldr⟩

theorem dirRoom_iff {s : State} : dirRoom s = true ↔ (bootDir s).seq + 3 < 2 ^ 64 := decide_eq_true_iff

/-- The other slot of a kind is named, and no image is on trial. -/
theorem bootDir_swapSlot {s : State} (kind : Nat) (h : dirRoom s = true) :
    bootDir (swapSlot s kind) = { bootDir s with
      trial := 0, started := false, ldrSlot := if kind = 1 then 1 - (bootDir s).ldrSlot else (bootDir s).ldrSlot,
      fwSlot := if kind = 1 then (bootDir s).fwSlot else 1 - (bootDir s).fwSlot, seq := (bootDir s).seq + 1 } := by
  have hroom := dirRoom_iff.mp h
  obtain ⟨-, hfw, hldr⟩ := bootDir_bounds s
  exact bootDir_putDir_of rfl (by omega) (Nat.zero_lt_succ _) (by dsimp only; split <;> omega)
    (by dsimp only; split <;> omega)

/-- The firmware of the other slot on trial, its first boot to come (R398). -/
def otherOnTrial (d : BootDir) : BootDir := { d with fwSlot := 1 - d.fwSlot, trial := 2, started := false }

theorem bootDir_putDir_otherOnTrial {s u : State} (hd : bootDir u = bootDir s) (h : dirRoom s = true) :
    bootDir (putDir u otherOnTrial) = { otherOnTrial (bootDir s) with seq := (bootDir s).seq + 1 } := by
  have hroom := dirRoom_iff.mp h
  obtain ⟨-, hfw, hldr⟩ := bootDir_bounds s
  exact bootDir_putDir_of hd (by omega) (Nat.lt_succ_self 2) (show 1 - (bootDir s).fwSlot < 2 by omega) hldr

/-- An image of the boot NOR is read of the firmware state alone. -/
theorem imageInUse_of_fw {s u : State} (h : u.fw = s.fw) (kind : Nat) : imageInUse u kind = imageInUse s kind := by
  unfold imageInUse slotInUse
  rw [bootDir_of_fw h, h]

/-! ## Keep mode (R426) -/

theorem inKeep_of_keep {s u : State} (h : u.fault.keep = s.fault.keep) : inKeep u = inKeep s := by
  unfold inKeep
  rw [h]

/-- What Keep mode drops of the commands held ends erasures and requests of Rest, and no more of these two parts. -/
theorem dropHeld_sec_pwr (st : Stamp) (all : Bool) (s : State) :
    (∃ e k, (dropHeld st all s).sec = { s.sec with erase := e, keyStatus := k }) ∧
      ∃ r, (dropHeld st all s).pwr = { s.pwr with restReq := r } := by
  have hans : ∀ (l : List MgmtCmd) (v : State),
      Frame [.mgmt, .out] v (l.foldl (fun s c => respond s c .benchHalted []) v) := fun l v =>
    foldl_frame (.refl v) fun _ _ hu => respond_frame hu (by decide) (by decide)
  unfold dropHeld
  dsimp only
  exact ⟨⟨_, _, (hans ..).sec⟩, _, (hans ..).pwr⟩

/-- Keep mode ends a control restart in progress and an activation that waits, and leaves of power and security what the
commands it drops leave. -/
theorem enterKeep_leaves {s : State} (cause : Nat) (h : inKeep s = false) :
    (enterKeep cause s).fw = { s.fw with
      stage := .keep, restart := none, readyAt := none, hitlessWait := false, planLate := false } ∧
      (∃ e k, (enterKeep cause s).sec = { s.sec with erase := e, keyStatus := k }) ∧
      ∃ r, (enterKeep cause s).pwr = { s.pwr with state := .keep, restDue := false, latched := none, restReq := r } := by
  have hlanded : ∀ st v, Frame [.host, .haul, .fault, .out, .spent] v (dropLanded st false v) := fun st v =>
    dropLanded_frame (.refl v) (by decide) (by decide) (by decide) (by decide) (by decide)
  have hheld : ∀ st v, Frame [.sec, .pwr, .mgmt, .out] v (dropHeld st false v) := fun st v =>
    dropHeld_frame (.refl v) (by decide) (by decide) (by decide) (by decide)
  have hlog : ∀ v, Frame [.work, .mgmt, .fault, .out] v (logErr v .keep 1 (d0 := cause)) := fun v =>
    logErr_frame (.refl v) (by decide) (by decide)
  have htail : ∀ (v : State) (p : Prop) [Decidable p], Frame [.work, .mgmt, .fault, .out] v
      (if p then logErr v .keep 1 (d0 := cause) else closeAll (logErr v .keep 1 (d0 := cause)) 3) := fun v p _ =>
    .ite (hlog v) (closeAll_frame (hlog v) (by decide) (by decide))
  unfold enterKeep
  rw [if_neg (ne_true_of_eq_false h)]
  dsimp only
  refine ⟨?_, ?_, ?_⟩
  · rw [(htail ..).fw, (hheld ..).fw, (hlanded ..).fw]
  · rw [(htail ..).sec]
    obtain ⟨e, k, hsec⟩ := (dropHeld_sec_pwr ..).1
    exact ⟨e, k, by rw [hsec, (hlanded ..).sec]⟩
  · rw [(htail ..).pwr]
    obtain ⟨r, hpwr⟩ := (dropHeld_sec_pwr ..).2
    exact ⟨r, by rw [hpwr, (hlanded ..).pwr]⟩

/-! ## The pairing check (R434, log entry 67) -/

theorem pairingCheck_genuine {s : State} (h : s.sec.genuine = true) :
    pairingCheck s = { s with sec := { s.sec with paired := true } } := by
  unfold pairingCheck
  dsimp only
  rw [if_pos h, h]

/-- A module that fails the check enters Keep mode with cause 1; what else goes out touches nothing. -/
theorem pairingCheck_fails {s : State} (h : s.sec.genuine = false) :
    Frame [.out] (enterKeep 1 (logErr { s with sec := { s.sec with paired := false } } .security 1)) (pairingCheck s) := by
  unfold pairingCheck
  dsimp only
  rw [if_neg (ne_true_of_eq_false h), h]
  exact .ite (.refl _) (emit_frame (.refl _) (by decide))

/-- The cause of Keep mode and the firmware state after a check that failed. -/
theorem pairingCheck_enters_keep {s : State} (hg : s.sec.genuine = false) (hk : inKeep s = false) :
    (pairingCheck s).fault.keep = some (1, s.time.now) ∧ (pairingCheck s).fw = { s.fw with
      stage := .keep, restart := none, readyAt := none, hitlessWait := false, planLate := false } := by
  have hf := pairingCheck_fails hg
  have hk' : inKeep (logErr { s with sec := { s.sec with paired := false } } .security 1) = false :=
    (inKeep_of_keep (logErr_keep ..)).trans hk
  refine ⟨?_, ?_⟩
  · rw [hf.fault, enterKeep_keep 1 hk', logErr_time]
  · rw [hf.fw, (enterKeep_leaves 1 hk').1, logErr_fw]

/-! ## One control restart (R401, R402, R408, R439) -/

/-- What a control restart reads stands in `z` as in `s`, which differs from it in the firmware state, the error log and
the outputs. -/
structure SameRestarts (s z : State) : Prop where
  frame : Frame [.fw, .fault, .out] s z
  restarts : z.fw.restarts = s.fw.restarts
  keep : z.fault.keep = s.fault.keep

theorem SameRestarts.refl (s : State) : SameRestarts s s := ⟨.refl s, rfl, rfl⟩

theorem SameRestarts.logErr {s z : State} (h : SameRestarts s z) (c : ErrClass) (cause : Nat) :
    SameRestarts s (logErr z c cause) :=
  ⟨logErr_frame h.frame (by decide) (by decide), by rw [logErr_fw, h.restarts], by rw [logErr_keep, h.keep]⟩

theorem SameRestarts.putDir {s z : State} (h : SameRestarts s z) (f : BootDir → BootDir) :
    SameRestarts s (putDir z f) := by
  have hf : Frame [.fw] z (Machine.putDir z f) := putDir_frame (.refl z) (by decide)
  obtain ⟨a, b, hfw⟩ := putDir_fw z f
  exact ⟨h.frame.trans (hf.mono (by decide)), by rw [hfw]; exact h.restarts, by rw [hf.fault, h.keep]⟩

theorem SameRestarts.recentRestarts_eq {s z : State} (h : SameRestarts s z) : recentRestarts z = recentRestarts s := by
  unfold recentRestarts nsOf tickNs period
  rw [h.restarts, h.frame.time, h.frame.bar]

theorem SameRestarts.limit_eq {s z : State} (h : SameRestarts s z) : regF z 0x70008 19 16 = regF s 0x70008 19 16 :=
  congrArg (fieldOf · 19 16) (regVal_of_bar h.frame.bar _)

/-- A control restart begun: logged and signalled, with its entry in the restart log, and the sessions ended. -/
def restartBegun (cause k : Nat) (s : State) : State :=
  let s0 := logErr s .control 3
  { s0 with
    sec := { s0.sec with sessions := [], negotiated := [] }
    fw := { s0.fw with
      restart := some (cause, s.time.now, k), readyAt := none, stage := .restart
      restarts := recentRestarts s ++ [s.time.now], late := 0
      restartLog := tput s.fw.restartLog (s.fw.restartCount % 8) { cause := cause, stamp := s.time.now }
      restartCount := (s.fw.restartCount + 1) % 2 ^ 32 } }

theorem restartBegun_frame (cause k : Nat) (s : State) : Frame [.fw, .fault, .sec, .out] s (restartBegun cause k s) := by
  have hl : Frame [.fw, .fault, .sec, .out] s (logErr s .control 3) := logErr_frame (.refl s) (by decide) (by decide)
  exact .set hl (h12 := .inr (by decide)) (h14 := .inr (by decide))

@[simp] theorem restartBegun_fw (cause k : Nat) (s : State) : (restartBegun cause k s).fw = { s.fw with
    restart := some (cause, s.time.now, k), readyAt := none, stage := .restart
    restarts := recentRestarts s ++ [s.time.now], late := 0
    restartLog := tput s.fw.restartLog (s.fw.restartCount % 8) { cause := cause, stamp := s.time.now }
    restartCount := (s.fw.restartCount + 1) % 2 ^ 32 } := by
  simp [restartBegun]

@[simp] theorem restartBegun_genuine (cause k : Nat) (s : State) :
    (restartBegun cause k s).sec.genuine = s.sec.genuine := by
  simp [restartBegun]

theorem restartBegun_inKeep (cause k : Nat) (s : State) : inKeep (restartBegun cause k s) = inKeep s :=
  inKeep_of_keep (logErr_keep ..)

/-- A control restart begun goes on unless the limit of R401 or the pairing check ends it. -/
theorem beginRestart_eq (cause k : Nat) (s : State) : beginRestart cause k s =
    if regF s 0x70008 19 16 ≤ (recentRestarts s).length + 1 then enterKeep 2 (restartBegun cause k s)
    else pairingCheck (restartBegun cause k s) := by
  unfold beginRestart restartBegun
  simp only [List.length_append, List.length_singleton]

theorem beginRestart_below_limit {s z : State} (cause k : Nat) (hz : SameRestarts s z)
    (hl : (recentRestarts s).length + 1 < regF s 0x70008 19 16) :
    beginRestart cause k z = pairingCheck (restartBegun cause k z) := by
  rw [beginRestart_eq, hz.limit_eq, hz.recentRestarts_eq, if_neg (by omega)]

/-- A genuine module below the limit restarts its firmware, and the work of the benches goes on. -/
theorem beginRestart_begins {s z : State} (cause k : Nat) (hz : SameRestarts s z) (hg : s.sec.genuine = true)
    (hl : (recentRestarts s).length + 1 < regF s 0x70008 19 16) :
    (beginRestart cause k z).fw = { z.fw with
      restart := some (cause, s.time.now, k), readyAt := none, stage := .restart
      restarts := recentRestarts s ++ [s.time.now], late := 0
      restartLog := tput z.fw.restartLog (z.fw.restartCount % 8) { cause := cause, stamp := s.time.now }
      restartCount := (z.fw.restartCount + 1) % 2 ^ 32 } ∧
    bootDir (beginRestart cause k z) = bootDir z ∧ (beginRestart cause k z).work = s.work ∧
    (beginRestart cause k z).benches = s.benches := by
  have hg' : (restartBegun cause k z).sec.genuine = true := by rw [restartBegun_genuine, hz.frame.sec, hg]
  have hf := restartBegun_frame cause k z
  rw [beginRestart_below_limit cause k hz hl, pairingCheck_genuine hg']
  have hfw := restartBegun_fw cause k z
  refine ⟨?_, ?_, hf.work.trans hz.frame.work, hf.benches.trans hz.frame.benches⟩
  · rw [← hz.recentRestarts_eq, ← hz.frame.time]
    exact hfw
  · refine bootDir_of_dirs ?_ ?_
    · dsimp only
      rw [hfw]
    · dsimp only
      rw [hfw]

/-- A module that is not genuine enters Keep mode instead. -/
theorem beginRestart_unpaired {s z : State} (cause k : Nat) (hz : SameRestarts s z) (hg : s.sec.genuine = false)
    (hk : inKeep s = false) (hl : (recentRestarts s).length + 1 < regF s 0x70008 19 16) :
    (beginRestart cause k z).fault.keep = some (1, s.time.now) ∧ (beginRestart cause k z).fw.restart = none := by
  have hg' : (restartBegun cause k z).sec.genuine = false := by rw [restartBegun_genuine, hz.frame.sec, hg]
  have hk' : inKeep (restartBegun cause k z) = false :=
    (restartBegun_inKeep ..).trans ((inKeep_of_keep hz.keep).trans hk)
  obtain ⟨hkeep, hfw⟩ := pairingCheck_enters_keep hg' hk'
  rw [beginRestart_below_limit cause k hz hl, hkeep, hfw, (restartBegun_frame ..).time, hz.frame.time]
  exact ⟨rfl, rfl⟩

/-- At the limit of R401 the module enters Keep mode. -/
theorem beginRestart_at_limit {s z : State} (cause k : Nat) (hz : SameRestarts s z) (hk : inKeep s = false)
    (hl : ¬(recentRestarts s).length + 1 < regF s 0x70008 19 16) :
    (beginRestart cause k z).fault.keep = some (2, s.time.now) := by
  have hk' : inKeep (restartBegun cause k z) = false :=
    (restartBegun_inKeep ..).trans ((inKeep_of_keep hz.keep).trans hk)
  rw [beginRestart_eq, hz.limit_eq, hz.recentRestarts_eq, if_pos (by omega), enterKeep_keep 2 hk',
    (restartBegun_frame ..).time, hz.frame.time]

/-! ## Causes (R385, R387, R399, R400) -/

theorem inKeep_of_fwRuns {s : State} (h : fwRuns s = true) : inKeep s = false := by
  simp only [fwRuns, Bool.and_eq_true, Bool.not_eq_true'] at h
  exact h.1.1.2

/-- A cause that comes while a restart is in progress starts nothing new (R387). -/
theorem controlRestart_ignored {s : State} (cause : Nat) (logs : Bool) (h : restarting s = true) :
    controlRestart cause logs s = s :=
  if_pos (by simp [h])

theorem controlRestart_begins {s : State} (cause : Nat) (hr : fwRuns s = true) (hn : restarting s = false)
    (hs : (bootDir s).started = false) :
    controlRestart cause true s = beginRestart cause 1 (logErr s .control cause) := by
  have hs' : ¬((bootDir (logErr s .control cause)).trial ≠ 0 ∧ (bootDir (logErr s .control cause)).started = true) := by
    rw [bootDir_of_fw (logErr_fw ..), hs]
    simp
  unfold controlRestart
  rw [if_neg (by simp [hr, hn])]
  exact congrArg (beginRestart cause 1) (if_neg hs')

theorem execCoreWatchdog_eq {s : State} (t : Stamp) (core : Nat) (h0 : s.pwr.off = false) :
    execCoreWatchdog t core s = .next (if core < 16 then controlRestart 1 true (s.at t) else s.at t) :=
  run_on h0 ..

theorem execCoreException_eq {s : State} (t : Stamp) (core : Nat) (h0 : s.pwr.off = false) :
    execCoreException t core s = .next (if core < 16 then controlRestart 5 true (s.at t) else s.at t) :=
  run_on h0 ..

/-- CORE_WATCHDOG and CORE_EXCEPTION of a control core are one cause each. -/
theorem exec_core_cause {s : State} {c : Instr} {t : Stamp} {k core : Nat} (h0 : s.pwr.off = false) (hcore : core < 16)
    (h : (c = .coreWatchdog t core ∧ k = 1) ∨ (c = .coreException t core ∧ k = 5)) :
    exec c s = .next (controlRestart k true (s.at t)) := by
  obtain ⟨rfl, rfl⟩ | ⟨rfl, rfl⟩ := h
  · exact (execCoreWatchdog_eq t core h0).trans (congrArg _ (if_pos hcore))
  · exact (execCoreException_eq t core h0).trans (congrArg _ (if_pos hcore))

/-- Neither has an effect while a restart is in progress, whatever core it names (R387). -/
theorem exec_core_ignored {s : State} {c : Instr} {t : Stamp} {core : Nat} (h0 : s.pwr.off = false)
    (hn : restarting s = true) (h : c = .coreWatchdog t core ∨ c = .coreException t core) :
    exec c s = .next (s.at t) := by
  have hsame : ∀ k, (if core < 16 then controlRestart k true (s.at t) else s.at t) = s.at t := fun k => by
    rw [controlRestart_ignored k true (s := s.at t) hn, ite_self]
  obtain rfl | rfl := h
  · exact (execCoreWatchdog_eq t core h0).trans (congrArg _ (hsame 1))
  · exact (execCoreException_eq t core h0).trans (congrArg _ (hsame 5))

theorem restarting_iff {s : State} : restarting s = true ↔ (∃ x, s.fw.restart = some x) ∧ s.fw.readyAt = none := by
  simp [restarting, Option.isSome_iff_exists]

/-- A plan that is late while its limit is not reached is counted and lets the tick coast (R400). -/
theorem planWatchdog_coasts {s : State} (hr : fwRuns s = true) (hn : s.fw.restart = none) (hp : s.pwr.planStable = true)
    (hl : s.fw.late + 1 < regF s 0x70008 11 8) :
    planWatchdog s = { logErr (count s 0x70068 1) .control 2 with
      fw := { s.fw with planLate := true, late := s.fw.late + 1 } } := by
  unfold planWatchdog
  rw [if_neg (by simp [hr, hn, hp])]
  simp only [logErr_fw, count_fw]
  rw [if_neg (by omega)]

/-- While a restart is in progress no plan is late (R387). -/
theorem planWatchdog_ignored {s : State} (h : restarting s = true) : planWatchdog s = s := by
  obtain ⟨⟨x, hx⟩, -⟩ := restarting_iff.mp h
  exact if_pos (by simp [hx])

/-! ## The end of a restart (R400 to R402) -/

section

variable {s : State} {k n : Nat} {st : Stamp} (hs : s.fw.restart = some (k, st, n)) (hr : s.fw.readyAt = none)

include hs hr

/-- The restart watchdog that expires twice sends the module to Keep mode. -/
theorem restartWatchdog_second (b : Bool) (hn : 2 ≤ n) :
    restartWatchdog b s = enterKeep 2 (logErr s .control 4) := by
  unfold restartWatchdog
  simp only [hs, hr, if_pos hn]

/-- The first time the restart is made again, from the other slot if its image passes. -/
theorem restartWatchdog_first (b : Bool) (hn : n < 2) : ∃ z, restartWatchdog b s = beginRestart 4 2 z ∧ SameRestarts s z ∧
    (dirRoom s = true → (bootDir z).fwSlot =
      if slotOk s 2 (otherSlot s 2) b = true then 1 - (bootDir s).fwSlot else (bootDir s).fwSlot) := by
  have hlog := (SameRestarts.refl s).logErr .control 4
  have hdir : bootDir (logErr s .control 4) = bootDir s := bootDir_of_fw (logErr_fw ..)
  have hslot : slotOk (logErr s .control 4) 2 (otherSlot s 2) b = slotOk s 2 (otherSlot s 2) b := by
    simp only [slotOk, updateOk, logErr_fw, logErr_sec]
  have hother : otherSlot (logErr s .control 4) 2 = otherSlot s 2 := by
    unfold otherSlot
    rw [hdir]
  refine ⟨if slotOk s 2 (otherSlot s 2) b = true then swapSlot (logErr s .control 4) 2 else logErr s .control 4, ?_, ?_,
    fun hroom => ?_⟩
  · unfold restartWatchdog
    simp only [hs, hr, if_neg (Nat.not_le.mpr hn), hother, hslot]
  · split
    · exact hlog.putDir _
    · exact hlog
  · split
    · rw [bootDir_swapSlot 2 (by rw [dirRoom_iff, hdir]; exact dirRoom_iff.mp hroom), hdir]
      rfl
    · rw [hdir]

/-- What a first expiry of the restart watchdog comes to (R387, R400, R401, R434). -/
theorem restartWatchdog_first_ends (b : Bool) (hn : n < 2) :
    (restartWatchdog b s).fw.restart = some (4, s.time.now, 2) ∨
      (restartWatchdog b s).fault.keep = some (2, s.time.now) ∨
      (s.sec.genuine = false ∧ (restartWatchdog b s).fault.keep = some (1, s.time.now)) ∨ inKeep s = true := by
  obtain ⟨z, hz, hsame, -⟩ := restartWatchdog_first hs hr b hn
  rw [hz]
  cases hk : inKeep s with
  | true => exact .inr (.inr (.inr rfl))
  | false =>
    by_cases hl : (recentRestarts s).length + 1 < regF s 0x70008 19 16
    · cases hg : s.sec.genuine with
      | true => exact .inl (congrArg FwSt.restart (beginRestart_begins 4 2 hsame hg hl).1)
      | false => exact .inr (.inr (.inl ⟨rfl, (beginRestart_unpaired 4 2 hsame hg hk hl).1⟩))
    · exact .inr (.inl (beginRestart_at_limit 4 2 hsame hk hl))

/-- READY of the firmware (R402). -/
theorem firmwareReady_ends : (firmwareReady s).fw.readyAt = some s.time.now ∧
    (firmwareReady s).fw.fwRun = imageInUse s 2 ∧ (firmwareReady s).fw.stage = stageOfRow s.fw.row := by
  have hready : ∃ l, firmwareReady s = errVector { s with fw := { s.fw with
      fwRun := imageInUse s 2, readyAt := some s.time.now, stage := stageOfRow s.fw.row, restartLog := l } } := by
    unfold firmwareReady
    rw [hs, hr]
    exact ⟨_, rfl⟩
  obtain ⟨l, hl⟩ := hready
  rw [hl, errVector, signal_fw]
  exact ⟨rfl, rfl, rfl⟩

end

/-! ## Images on trial (R398, R399) -/

/-- The other slot's firmware on its trial, its first boot begun. -/
def hitlessTrial (s : State) : State :=
  let s1 := putDir { s with fw := { s.fw with hitlessWait := false } } otherOnTrial
  let s2 := putDir s1 (fun d => { d with started := true })
  { s2 with fw := { s2.fw with trialRuns := 0 } }

theorem hitlessActivation_begins {s : State} (hw : s.fw.hitlessWait = true) (hn : switchNear s = false)
    (hr : fwRuns s = true) (hx : restarting s = false) : hitlessActivation s = beginRestart 3 1 (hitlessTrial s) :=
  if_neg (by simp [hw, hn, hr, hx])

theorem hitlessTrial_sameRestarts (s : State) : SameRestarts s (hitlessTrial s) := by
  have hw : SameRestarts s { s with fw := { s.fw with hitlessWait := false } } :=
    ⟨.set (.refl s) (h12 := .inr (by decide)), rfl, rfl⟩
  have h2 := (hw.putDir otherOnTrial).putDir (fun d => { d with started := true })
  exact ⟨.set h2.frame (h12 := .inr (by decide)), h2.restarts, h2.keep⟩

theorem hitlessTrial_bootDir {s : State} (h : dirRoom s = true) : bootDir (hitlessTrial s) =
    { bootDir s with fwSlot := 1 - (bootDir s).fwSlot, trial := 2, started := true, seq := (bootDir s).seq + 2 } := by
  have hroom := dirRoom_iff.mp h
  obtain ⟨-, -, hldr⟩ := bootDir_bounds s
  have h1 := bootDir_putDir_otherOnTrial (s := s) (u := { s with fw := { s.fw with hitlessWait := false } })
    (bootDir_of_dirs rfl rfl) h
  have h2 := bootDir_putDir_of (f := fun d => { d with started := true }) h1 (by dsimp only; omega) (Nat.lt_succ_self 2)
    (show 1 - (bootDir s).fwSlot < 2 by omega) hldr
  exact (bootDir_of_dirs (u := hitlessTrial s) rfl rfl).trans h2

/-- A trial that has run is committed: its image stays, and no rollback counter goes down. -/
theorem trialCommit_commits {s : State} (ht : (bootDir s).trial ≠ 0) (hs : (bootDir s).started = true)
    (hn : restarting s = false) (hst : s.fw.stage = .ready) (hruns : 1000 ≤ s.fw.trialRuns) :
    (trialCommit s).fw = (putDir s (fun d => { d with trial := 0, started := false })).fw ∧
      s.sec.rollback.1 ≤ (trialCommit s).sec.rollback.1 ∧ s.sec.rollback.2 ≤ (trialCommit s).sec.rollback.2 := by
  unfold trialCommit
  dsimp only
  rw [if_pos ⟨ht, hs, by simp [hn], hst, .inl hruns⟩]
  refine ⟨rfl, ?_, ?_⟩
  · dsimp only
    split
    · exact Nat.le_max_left ..
    · exact Nat.le_refl _
  · dsimp only
    split
    · exact Nat.le_refl _
    · exact Nat.le_max_left ..

theorem bootDir_committed {s : State} (h : dirRoom s = true) :
    bootDir (putDir s (fun d => { d with trial := 0, started := false })) =
      { bootDir s with trial := 0, started := false, seq := (bootDir s).seq + 1 } := by
  have hroom := dirRoom_iff.mp h
  obtain ⟨-, hfw, hldr⟩ := bootDir_bounds s
  exact bootDir_putDir_of rfl (by omega) (Nat.zero_lt_succ _) hfw hldr

/-! ## The statements -/

/-- Settles O50: each cause ends in `beginRestart`, which reads of the state what the cause has not touched. -/
theorem controlRestartsAndTrials : Obligations.ControlRestartsAndTrials := by
  intro s t h0
  refine ⟨fun hr hn hs hl => ⟨fun hg core hcore => ?unpaired, fun hg c k core hcore hc => ?restarts,
    fun hg hw hnear hroom => ?hitless⟩, fun hr hn hp hl => ?late, fun k st n hrs => ⟨fun hready =>
    ⟨fun hn hk b => ?second, fun hn hg hroom hl b => ?first, ?ready⟩, fun core hready => ?ignored⟩,
    fun ht hs hn hst hruns hroom => ?commit⟩
  case unpaired =>
    refine ⟨_, (exec_core_cause h0 hcore (.inl ⟨rfl, rfl⟩)).trans
      (congrArg _ (controlRestart_begins (s := s.at t) 1 hr hn hs)), ?_⟩
    exact beginRestart_unpaired 1 1 ((SameRestarts.refl (s.at t)).logErr .control 1) hg (inKeep_of_fwRuns hr) hl
  case restarts =>
    refine ⟨_, (exec_core_cause h0 hcore hc).trans (congrArg _ (controlRestart_begins (s := s.at t) k hr hn hs)), ?_⟩
    obtain ⟨hfw, -, hwork, hbenches⟩ :=
      beginRestart_begins k 1 ((SameRestarts.refl (s.at t)).logErr .control k) hg hl
    rw [hfw, hwork, hbenches]
    simp
  case hitless =>
    refine ⟨_, (run_on h0 ..).trans (congrArg _ (hitlessActivation_begins (s := s.at t) hw hnear hr hn)), ?_⟩
    obtain ⟨hfw, hdir, -⟩ := beginRestart_begins 3 1 (hitlessTrial_sameRestarts (s.at t)) hg hl
    rw [hdir, hitlessTrial_bootDir (s := s.at t) hroom, hfw]
    exact ⟨rfl, rfl, rfl, rfl⟩
  case late =>
    refine ⟨_, (run_on h0 ..).trans (congrArg _ (planWatchdog_coasts (s := s.at t) hr hn hp hl)), rfl, rfl, hn, ?_⟩
    exact congrArg BarSt.live (logErr_bar ..)
  case second =>
    refine ⟨_, (run_on h0 ..).trans (congrArg _ (restartWatchdog_second (s := s.at t) hrs hready b hn)), ?_⟩
    have hk' : inKeep (logErr (s.at t) .control 4) = false := (inKeep_of_keep (logErr_keep ..)).trans hk
    rw [enterKeep_keep 2 hk', logErr_time]
  case first =>
    obtain ⟨z, hz, hsame, hslot⟩ := restartWatchdog_first (s := s.at t) hrs hready b hn
    obtain ⟨hfw, hdir, -⟩ := beginRestart_begins 4 2 hsame hg hl
    refine ⟨_, (run_on h0 ..).trans (congrArg _ hz), congrArg FwSt.restart hfw, ?_⟩
    rw [hdir]
    exact hslot hroom
  case ready => exact ⟨_, run_on h0 .., firmwareReady_ends (s := s.at t) hrs hready⟩
  case ignored => exact exec_core_ignored h0 (restarting_iff.mpr ⟨⟨_, hrs⟩, hready⟩) (.inl rfl)
  case commit =>
    obtain ⟨hfw, hldr, hfirm⟩ := trialCommit_commits (s := s.at t) ht hs hn hst hruns
    refine ⟨_, run_on h0 .., ?_⟩
    rw [bootDir_of_fw hfw, bootDir_committed (s := s.at t) hroom]
    exact ⟨rfl, rfl, rfl, rfl, hldr, hfirm⟩

/-- Settles O57. That PERST# leaves a cold start-up alone is the model's reading of R387 (log entry 74). -/
theorem theMostExtensiveRestartWins : Obligations.TheMostExtensiveRestartWins := by
  intro s t h0
  refine ⟨⟨_, execResetN_resets s t (Nat.le_refl _), coldLeft_coldReset rfl rfl rfl rfl rfl rfl, rfl⟩, fun mv h =>
    ⟨_, execInputUndervoltage_resets s t h, coldLeft_coldReset rfl rfl rfl rfl rfl rfl, rfl⟩, fun hcold =>
    ⟨execPerst_of_warmReset (warmReset_ignored hcold), fun hbar hrest => ?hostWarm⟩, fun hcold hlow =>
    ⟨_, execPerst_of_warmReset (warmReset_acts h0 hlow hcold), warmLeft_resetState (.refl (s.at t)), rfl⟩, fun hn =>
    ⟨fun k => ⟨exec_core_ignored h0 hn (.inl rfl), exec_core_ignored h0 hn (.inr rfl)⟩,
    (run_on h0 ..).trans (congrArg _ (planWatchdog_ignored (s := s.at t) hn)), fun b k st n hrs hlt => ?watchdog⟩⟩
  case hostWarm =>
    exact (execPwResetCtrlWarm_acts t h0 hbar hrest).trans (congrArg _ (warmReset_ignored (s := s.at t) hcold))
  case watchdog =>
    obtain ⟨-, hready⟩ := restarting_iff.mp hn
    exact ⟨_, run_on h0 .., restartWatchdog_first_ends (s := s.at t) hrs hready b hlt⟩

end Sys2Proof.Machine
end

section
/-! SUPPORT. Start-up by the rows of its table (R388, R395, R396, R399, R400, R424, R434): what the pairing check leaves of a
state, which image a stage boots, and the boot watchdog. -/

namespace Sys2Proof.Machine

/-! ## The pairing check (R434) -/

/-- What Keep mode leaves alone of start-up, power and security, entered now or before. -/
theorem enterKeep_startUp (cause : Nat) (s : State) : (enterKeep cause s).fw.row = s.fw.row ∧
    (enterKeep cause s).pwr.pwrGood = s.pwr.pwrGood ∧ (enterKeep cause s).sec.engineKeys = s.sec.engineKeys ∧
    (enterKeep cause s).sec.paired = s.sec.paired ∧ (enterKeep cause s).sec.keys = s.sec.keys := by
  cases hk : inKeep s with
  | true =>
    rw [show enterKeep cause s = s from if_pos hk]
    exact ⟨rfl, rfl, rfl, rfl, rfl⟩
  | false =>
    obtain ⟨hfw, ⟨e, k, hsec⟩, r, hpwr⟩ := enterKeep_leaves cause hk
    rw [hfw, hsec, hpwr]
    exact ⟨rfl, rfl, rfl, rfl, rfl⟩

/-- The check notes what it found, and whatever it found leaves the row, the power and the keys. -/
theorem pairingCheck_startUp (s : State) : (pairingCheck s).fw.row = s.fw.row ∧
    (pairingCheck s).pwr.pwrGood = s.pwr.pwrGood ∧ (pairingCheck s).sec.engineKeys = s.sec.engineKeys ∧
    (pairingCheck s).sec.paired = s.sec.genuine ∧ (pairingCheck s).sec.keys = s.sec.keys := by
  cases hg : s.sec.genuine with
  | true =>
    rw [pairingCheck_genuine hg]
    exact ⟨rfl, rfl, rfl, rfl, rfl⟩
  | false =>
    have hf := pairingCheck_fails hg
    obtain ⟨hrow, hgood, hengine, hpaired, hkeys⟩ :=
      enterKeep_startUp 1 (logErr { s with sec := { s.sec with paired := false } } .security 1)
    rw [hf.fw, hf.pwr, hf.sec, hrow, hgood, hengine, hpaired, hkeys, logErr_fw, logErr_pwr, logErr_sec]
    exact ⟨rfl, rfl, rfl, rfl, rfl⟩

/-! ## The image a stage boots (R395, R396, R399) -/

/-- The firmware state alone decides what a change of the directory makes of it. -/
theorem putDir_fw_of_fw {s u : State} (h : u.fw = s.fw) (f : BootDir → BootDir) : (putDir u f).fw = (putDir s f).fw := by
  have hcopy : usesCopy1 u = usesCopy1 s := by
    unfold usesCopy1
    rw [h]
  unfold putDir
  dsimp only
  rw [bootDir_of_fw h, hcopy]
  split
  · dsimp only
    rw [h]
  · dsimp only
    rw [h]

section

variable {s : State} {kind : Nat} {a b : Bool} {go : State → State}

/-- A trial that had started is put back, and the same kind of restart follows. -/
theorem bootStage_rolls (ht : (bootDir s).trial = kind) (hs : (bootDir s).started = true) :
    bootStage kind a b go s = resetState s.fw.cold (rollTrial s) :=
  if_pos ⟨ht, hs⟩

variable (ht : (bootDir s).trial = 0) (hk : kind ≠ 0)

include ht hk

/-- With no image on trial the slot in use boots, if its image passes. -/
theorem bootStage_boots (h : slotOk s kind (slotInUse s kind) a = true) :
    bootStage kind a b go s = go (nowRuns kind s) := by
  unfold bootStage
  dsimp only
  rw [if_neg (by rw [ht]; exact fun e => hk e.1.symm), if_pos h, if_neg (by rw [ht]; exact hk.symm)]

/-- Otherwise the other slot boots, if its image passes. -/
theorem bootStage_swaps (h : slotOk s kind (slotInUse s kind) a = false)
    (h' : slotOk s kind (otherSlot s kind) b = true) :
    bootStage kind a b go s = go (nowRuns kind (logErr (swapSlot s kind) .control 6)) := by
  unfold bootStage
  dsimp only
  rw [if_neg (by rw [ht]; exact fun e => hk e.1.symm), if_neg (ne_true_of_eq_false h), if_pos h']

/-- With neither the stage stops in RECOVERY. -/
theorem bootStage_recovers (h : slotOk s kind (slotInUse s kind) a = false)
    (h' : slotOk s kind (otherSlot s kind) b = false) :
    bootStage kind a b go s = logErr { s with fw := { s.fw with stage := .recovery } } .control 6 := by
  unfold bootStage
  dsimp only
  rw [if_neg (by rw [ht]; exact fun e => hk e.1.symm), if_neg (ne_true_of_eq_false h), if_neg (ne_true_of_eq_false h')]

end

/-- A trial of the loader that had started: the directory names the slot before it, and start-up begins again. -/
theorem resetState_rollTrial {s : State} (h : dirRoom s = true) (ht : (bootDir s).trial = 1) :
    (bootDir (resetState s.fw.cold (rollTrial s))).trial = 0 ∧
      (bootDir (resetState s.fw.cold (rollTrial s))).ldrSlot = 1 - (bootDir s).ldrSlot ∧
      (resetState s.fw.cold (rollTrial s)).fw.row ≤ 1 := by
  have hdir : bootDir (resetState s.fw.cold (rollTrial s)) = bootDir (swapSlot s (bootDir s).trial) :=
    (bootDir_of_dirs (s := rollTrial s) rfl rfl).trans (bootDir_of_fw (logErr_fw (swapSlot s _) ..))
  rw [hdir, bootDir_swapSlot _ h, ht]
  refine ⟨rfl, rfl, ?_⟩
  dsimp only [resetState]
  split <;> omega

/-- The image of the slot in use runs, and goes on running where the images that run are left alone. -/
theorem nowRuns_runs {z u : State} {kind : Nat} (h : kind = 1 ∨ kind = 2)
    (hldr : u.fw.ldrRun = (nowRuns kind z).fw.ldrRun) (hfw : u.fw.fwRun = (nowRuns kind z).fw.fwRun) :
    (if kind = 1 then u.fw.ldrRun else u.fw.fwRun) = imageInUse z kind := by
  obtain rfl | rfl := h
  · exact hldr
  · exact hfw

/-! ## The rows (R388) -/

/-- The module at its 3 ms row: power is good and the engines have their keys. -/
def atPairing (s : State) : State := toRow 2 .rom { s with
  pwr := { s.pwr with pwrGood := true }
  sec := { s.sec with engineKeys := some (pairingKey, storageKey) } }

/-- A row out of turn is not taken. -/
theorem rowDone_out_of_turn {s : State} {row : Nat} (a b : Bool) (h : row ≠ s.fw.row + 1) : rowDone row a b s = s :=
  if_pos (by simp [h])

section

variable {s : State} (hlow : s.fw.resetLow = false) (hrec : s.fw.stage ≠ .recovery) (hkeep : s.fw.stage ≠ .keep)
  (a b : Bool)

include hlow hrec hkeep

/-- Out of RESET_N, RECOVERY and Keep mode the next row is in turn. -/
theorem rowDone_in_turn {row : Nat} (h : s.fw.row + 1 = row) :
    ¬(s.fw.resetLow || s.fw.stage == .recovery || s.fw.stage == .keep || row != s.fw.row + 1) = true := by
  simp [hlow, hrec, hkeep, h]

/-- At the 3 ms row the boot ROM checks the pairing. -/
theorem rowDone_pairs (h : s.fw.row = 1) : rowDone 2 a b s = pairingCheck (atPairing s) :=
  if_neg (rowDone_in_turn hlow hrec hkeep (by rw [h]))

/-- The loader's row, which the ROM boots. -/
theorem rowDone_loader (h : s.fw.row + 1 = 3) : rowDone 3 a b s = bootStage 1 a b (toRow 3 .loader) s :=
  if_neg (rowDone_in_turn hlow hrec hkeep h)

/-- The rows at which a stage boots an image reach their number and leave the images that run. -/
theorem rowDone_boots {row kind : Nat} (hrk : (row = 3 ∧ kind = 1) ∨ (row = 5 ∧ kind = 2)) (h : s.fw.row + 1 = row) :
    ∃ go, rowDone row a b s = bootStage kind a b go s ∧
      ∀ z, (go z).fw.row = row ∧ (go z).fw.ldrRun = z.fw.ldrRun ∧ (go z).fw.fwRun = z.fw.fwRun := by
  obtain ⟨rfl, rfl⟩ | ⟨rfl, rfl⟩ := hrk
  · exact ⟨_, rowDone_loader hlow hrec hkeep a b h, fun z => ⟨rfl, rfl, rfl⟩⟩
  · refine ⟨_, if_neg (rowDone_in_turn hlow hrec hkeep h), fun z => ?_⟩
    dsimp only
    split
    · exact ⟨rfl, rfl, rfl⟩
    · exact ⟨rfl, rfl, rfl⟩

end

/-! ## Ready, and the boot watchdog (R388, R389, R400, R424) -/

/-- READY needs the module's clock. -/
theorem planStable_ready {s : State} (h : s.fw.row = 7) (hsync : s.time.sync = .source ∨ s.time.sync = .locked)
    (hk : inKeep s = false) : planStable s = toRow 8 .ready { s with
      pwr := { s.pwr with planStable := true, wasStable := true }, fw := { s.fw with bootExpired := false } } := by
  have hsynced : synced s = true := by rcases hsync with hsync | hsync <;> simp [synced, hsync]
  exact if_pos ⟨h, hsynced, by simp [hk]⟩

section

variable {s : State} (hlow : s.fw.resetLow = false) (hheld : s.pwr.held = false) (hrec : s.fw.stage ≠ .recovery)
  (hkeep : s.fw.stage ≠ .keep) (hrow : s.fw.row < 8)

include hlow hheld hrec hkeep hrow

/-- The boot watchdog resets the module cold the first time. -/
theorem bootWatchdog_first (h : s.fw.bootExpired = false) : bootWatchdog s = coldReset { s with fw := { s.fw with
    bootExpired := true, escalated := if s.time.lastCommit.isSome then s.time.lastCommit else s.fw.escalated } } := by
  unfold bootWatchdog
  rw [if_neg (by simp [hlow, hheld, hrec, hkeep, hrow]), if_neg (ne_true_of_eq_false h)]

/-- The second time it leaves the module in RECOVERY. -/
theorem bootWatchdog_second (h : s.fw.bootExpired = true) :
    bootWatchdog s = { s with fw := { s.fw with stage := .recovery } } := by
  unfold bootWatchdog
  rw [if_neg (by simp [hlow, hheld, hrec, hkeep, hrow]), if_pos h]

end

/-! ## The statement -/

/-- Settles O49. That the check of the 3 ms row reads one bit of the state is the model's choice (log entry 67). -/
theorem startUpGoesByRows : Obligations.StartUpGoesByRows := by
  intro s t h0 hlow hrec hkeep
  refine ⟨fun row a b h => (run_on h0 ..).trans (congrArg _ (rowDone_out_of_turn (s := s.at t) a b h)),
    fun a b h => ?pairing, fun ht row kind hrk h a b => ?images, fun a b h ht hs hroom => ?rollBack,
    fun h hsync hk => ?ready, fun hheld hrow => ⟨fun h => ?first, fun h => ?second⟩⟩
  case pairing =>
    refine ⟨_, (run_on h0 ..).trans (congrArg _ (rowDone_pairs (s := s.at t) hlow hrec hkeep a b h)), ?_⟩
    obtain ⟨hrow, hgood, hengine, hpaired, hkeys⟩ := pairingCheck_startUp (atPairing (s.at t))
    refine ⟨hrow, hgood, hengine, hpaired, hkeys, fun hg => ?_, fun hg hk => ?_⟩
    · rw [pairingCheck_genuine (s := atPairing (s.at t)) hg]
      exact ⟨rfl, rfl⟩
    · obtain ⟨hkept, hfw⟩ := pairingCheck_enters_keep (s := atPairing (s.at t)) hg hk
      exact ⟨congrArg FwSt.stage hfw, hkept⟩
  case images =>
    have hkind : kind = 1 ∨ kind = 2 := hrk.imp And.right And.right
    have hne : kind ≠ 0 := by omega
    obtain ⟨go, hgo, hleaves⟩ := rowDone_boots (s := s.at t) hlow hrec hkeep a b hrk h
    have hrun : ∀ {u}, bootStage kind a b go (s.at t) = u → execStartUpRowDone t row a b s = .next u :=
      fun hu => (run_on h0 ..).trans (congrArg _ (hgo.trans hu))
    refine ⟨fun hok => ?_, fun hbad hok => ?_, fun hbad hbad' => ?_⟩
    · obtain ⟨hrow, hldr, hfw⟩ := hleaves (nowRuns kind (s.at t))
      exact ⟨_, hrun (bootStage_boots (s := s.at t) ht hne hok), hrow, nowRuns_runs (z := s.at t) hkind hldr hfw⟩
    · obtain ⟨hrow, hldr, hfw⟩ := hleaves (nowRuns kind (logErr (swapSlot (s.at t) kind) .control 6))
      refine ⟨_, hrun (bootStage_swaps (s := s.at t) ht hne hbad hok), hrow, ?_⟩
      rw [nowRuns_runs hkind hldr hfw]
      refine imageInUse_of_fw ?_ kind
      rw [logErr_fw]
      exact putDir_fw_of_fw (s := s) (u := s.at t) rfl _
    · refine ⟨_, hrun (bootStage_recovers (s := s.at t) ht hne hbad hbad'), ?_⟩
      rw [logErr_fw]
  case rollBack =>
    have hrow := rowDone_loader (s := s.at t) hlow hrec hkeep a b (by rw [State.at_fw, h])
    refine ⟨_, (run_on h0 ..).trans (congrArg _ (hrow.trans (bootStage_rolls (s := s.at t) ht hs))), ?_⟩
    exact resetState_rollTrial (s := s.at t) hroom ht
  case ready =>
    exact ⟨_, (run_on h0 ..).trans (congrArg _ (planStable_ready (s := s.at t) h hsync hk)), rfl, rfl, rfl⟩
  case first =>
    exact ⟨_, (run_on h0 ..).trans (congrArg _ (bootWatchdog_first (s := s.at t) hlow hheld hrec hkeep hrow h)),
      coldLeft_coldReset rfl rfl rfl rfl rfl rfl, rfl⟩
  case second => exact (run_on h0 ..).trans (congrArg _ (bootWatchdog_second (s := s.at t) hlow hheld hrec hkeep hrow h))

end Sys2Proof.Machine
end

section
/-! SUPPORT. Requests of the management protocols (R394 to R398, R470, R477, R479): what a request that is taken answers, the
sensors, and the steps of a firmware update. -/

namespace Sys2Proof.Machine

/-! ## A request that is taken -/

/-- What a request of another protocol than Exbor's has met where it is taken (R396, R464, R470, R475). -/
theorem sideTakes_iff {s : State} {x : Transport} {r : SideReq} : sideTakes s x r = true ↔
    sideUp s x = true ∧ (x == .doe && (isMctp r || isSensor r || isUpdate r)) = false ∧ 5 ≤ s.fw.row ∧
      s.fw.stage ≠ .recovery ∧ resting s = false := by
  simp only [sideTakes, Bool.and_eq_true, Bool.not_eq_true', decide_eq_true_eq, bne_iff_ne, and_assoc]

/-- Its row answers at once. -/
theorem sideRow_answers {s : State} {x : Transport} {r : SideReq} (t : Stamp) (h : sideTakes s x r = true) :
    sideRow t x r s = .next (sideAnswer (s.at t) x r) := by
  obtain ⟨hup, hdoe, hrow, hrec, hrest⟩ := sideTakes_iff.mp h
  have h0 : s.pwr.off = false := by
    simp only [sideUp, Bool.and_eq_true, Bool.not_eq_true'] at hup
    exact hup.1.1.1
  have hup' : sideUp (s.at t) x = true := hup
  have hrest' : resting (s.at t) = false := hrest
  have hserved : served (s.at t) = true := by simp [served, hrow]
  unfold sideRow sideLand
  rw [run_on h0, if_neg (by rw [hup', hdoe]; decide), if_neg (by simp [hserved, hrec]), if_neg (by simp [hrest'])]

/-- The row of a request whose protocol gives a state, a code and a body. -/
theorem sideRow_takes {s u : State} {x : Transport} {r : SideReq} {c : SideCode} {body : List Nat} (t : Stamp)
    (h : sideTakes s x r = true) (hr : sideTake (s.at t) x r = (u, c, body)) :
    sideRow t x r s = .next (emit u (.side x r c body)) := by
  rw [sideRow_answers t h]
  unfold sideAnswer
  rw [hr]

/-- Its answer is among the outputs. -/
theorem mem_emit_out (s : State) (o : Output) : o ∈ (emit s o).out := List.mem_append_right _ (List.mem_singleton_self _)

/-! ## Sensors (R477) -/

/-- Enabling or disabling a sensor concerns that sensor alone. -/
theorem mem_disabled {l : List Nat} {n m : Nat} {on : Bool} :
    m ∈ (if on then l.filter (· != n) else l.filter (· != n) ++ [n]) ↔ if m = n then on = false else m ∈ l := by
  cases on with
  | true => by_cases h : m = n <;> simp [h]
  | false => by_cases h : m = n <;> simp [h]

/-- No sensor is numeric and of states. -/
theorem not_stateSensor_of_numeric {s : State} {n : Nat} (h : numericSensor s n = true) : stateSensor n = false := by
  simp only [numericSensor, Bool.or_eq_true, Bool.and_eq_true, decide_eq_true_eq, beq_iff_eq] at h
  have hn : n ≠ 5 ∧ n ≠ 48 ∧ n ≠ 49 := by omega
  simp [stateSensor, hn]

theorem sensorEvent_frame_out (s : State) (n : Nat) (v : Int) : Frame [.out] s (sensorEvent s n v) :=
  sensorEvent_frame (.refl s) (by decide)

/-- A reading updated changes the readings alone. -/
theorem setSensor_frame_mgmt (s : State) (n : Nat) (v : Int) : Frame [.mgmt, .out] s (setSensor s n v) :=
  setSensor_frame (.refl s) (by decide) (by decide)

theorem setSensor_reads {s : State} {n : Nat} (v : Int) (h : numericSensor s n = true) :
    tget (setSensor s n v).mgmt.sensors n = some v := by
  unfold setSensor
  rw [if_neg (by simp [h])]
  dsimp only
  split
  · rw [(sensorEvent_frame_out ..).mgmt, tget_tput_self]
  · exact tget_tput_self ..

theorem lookState_frame_mgmt (s : State) (n : Nat) : Frame [.mgmt, .out] s (lookState s n) :=
  lookState_frame (.refl s) (by decide) (by decide)

/-- A state sensor looked at reads as its state; no other reading changes. -/
theorem lookState_reads (s : State) (n m : Nat) : tget (lookState s n).mgmt.sensors m =
    if n = m then some (stateOf s n) else tget s.mgmt.sensors m := by
  unfold lookState
  dsimp only
  split
  · rename_i h
    split
    · rename_i e
      exact e ▸ h
    · rfl
  · rw [(sensorEvent_frame_out ..).mgmt]
    exact tget_tput ..

/-- Power and start-up alone decide a state sensor. -/
theorem stateOf_of_frame {s u : State} (h : Frame [.mgmt, .out] s u) (n : Nat) : stateOf u n = stateOf s n := by
  unfold stateOf
  rw [h.pwr, h.fw]

theorem foldl_setSensor_frame (l : List (Nat × Int)) (s : State) :
    Frame [.mgmt, .out] s (l.foldl (fun s x => setSensor s x.1 x.2) s) :=
  foldl_frame (.refl s) fun s x h => h.trans (setSensor_frame_mgmt s x.1 x.2)

/-- After the readings the state sensors are looked at, and nothing else is read anew. -/
theorem sensorUpdate_reads (l : List (Nat × Int)) (s : State) (m : Nat) :
    tget (sensorUpdate l s).mgmt.sensors m = if stateSensor m = true then some (stateOf s m)
      else tget (l.foldl (fun s x => setSensor s x.1 x.2) s).mgmt.sensors m := by
  have hl := foldl_setSensor_frame l s
  unfold sensorUpdate
  generalize l.foldl (fun s x => setSensor s x.1 x.2) s = v at hl ⊢
  have h5 := lookState_frame_mgmt v 5
  have h48 := h5.trans (lookState_frame_mgmt _ 48)
  simp only [List.foldl_cons, List.foldl_nil, lookState_reads, stateOf_of_frame h48, stateOf_of_frame h5,
    stateOf_of_frame hl]
  by_cases e5 : m = 5
  · simp [e5, stateSensor]
  · by_cases e48 : m = 48
    · simp [e48, stateSensor]
    · by_cases e49 : m = 49
      · simp [e49, stateSensor]
      · simp [stateSensor, e5, e48, e49, Ne.symm e5, Ne.symm e48, Ne.symm e49]

/-! ## Firmware update (R394 to R398, R479) -/

theorem updateReq_fwParams (s : State) (x : Transport) : updateReq s x .fwParams = (s, .ok,
    (1 :: imageInfo (imageInUse s 1) ++ imageInfo (tget s.fw.slots (otherSlot s 1))) ++
      (2 :: imageInfo (imageInUse s 2) ++ imageInfo (tget s.fw.slots (otherSlot s 2)))) := by
  simp [updateReq]

theorem requestUpdate_begins {s : State} (ht : (bootDir s).trial = 0) (hk : inKeep s = false) (hu : s.mgmt.update = none) :
    requestUpdate s = (setUpdate s (some {}), .ok, []) := by
  unfold requestUpdate
  rw [if_neg (by simp [ht, hk]), if_neg (by simp [hu])]
  rfl

/-- While an image is on trial no update begins (R397). -/
theorem requestUpdate_refused {s : State} (ht : (bootDir s).trial ≠ 0) :
    requestUpdate s = (s, .updateNotPossible, []) :=
  if_pos (.inl ht)

section

variable {s : State} {p : Update} (x : Transport)

/-- A request of an update under way. -/
theorem updateReq_of_update (hp : s.mgmt.update = some p) :
    (∀ l, l.all isComponent = true →
      updateReq s x (.passTable l) = (setUpdate s (some { p with comps := l }), .ok, [])) ∧
    (∀ k n, isComponent k = true → k ∈ p.comps → 0 < n → updateReq s x (.updateComp k n) =
      (askData (setUpdate s (some { comps := p.comps, comp := k, size := n })) x
        { comps := p.comps, comp := k, size := n }, .ok, [])) ∧
    (∀ off len i, updateReq s x (.fwData off len i) = firmwareData s x p off len i) ∧
    updateReq s x .activate = activate s p ∧
    updateReq s x .updateStatus = (s, .ok, [1, p.comp, p.got, p.size, boolBit p.verified]) ∧
    updateReq s x .cancelComp = (setUpdate s (some { comps := p.comps }), .ok, []) ∧
    updateReq s x .cancelUpdate = (setUpdate s none, .ok, []) := by
  refine ⟨fun l hl => ?_, fun k n hk hm hn => ?_, fun off len i => ?_, ?_, ?_, ?_, ?_⟩
  all_goals simp only [updateReq, hp]
  · rw [if_pos hl]
  · rw [if_pos (by simp [hk, hm, hn])]

variable (hc : isComponent p.comp = true) (hv : p.verified = false) {off len : Nat} (hoff : off = p.got) (hlen : 0 < len)

include hc hv hoff hlen

/-- Data that is not the last asks for what is left. -/
theorem firmwareData_goes_on (i : Option Image) (h : off + len < p.size) : firmwareData s x p off len i =
    (askData (setUpdate s (some { p with got := off + len })) x { p with got := off + len }, .ok, []) := by
  unfold firmwareData
  rw [if_neg (by simp [hc, hv]), if_neg (by omega)]
  dsimp only
  rw [if_neg (by omega)]

/-- The last data ends the transfer. -/
theorem firmwareData_ends (i : Option Image) (h : off + len = p.size) :
    firmwareData s x p off len i = (finishTransfer s x { p with got := off + len } i, .ok, []) := by
  unfold firmwareData
  rw [if_neg (by simp [hc, hv]), if_neg (by omega)]
  dsimp only
  rw [if_pos h]

end

/-- An image that passes is written into the slot not in use (R397). -/
theorem finishTransfer_passes {s : State} {u : Update} {i : Image} (x : Transport) (h : updateOk s u.comp i = true) :
    (finishTransfer s x u (some i)).fw.slots = tput s.fw.slots (otherSlot s u.comp) i ∧
      (finishTransfer s x u (some i)).mgmt.update = some { u with image := some i, verified := true } := by
  unfold finishTransfer
  dsimp only
  rw [if_pos h]
  exact ⟨rfl, rfl⟩

/-- One that fails is not, and the agent is told. -/
theorem finishTransfer_fails {s : State} {u : Update} {i : Image} (x : Transport) (h : updateOk s u.comp i = false) :
    (finishTransfer s x u (some i)).fw.slots = s.fw.slots ∧
      .fd x (.verifyComplete false) ∈ (finishTransfer s x u (some i)).out := by
  unfold finishTransfer
  dsimp only
  rw [if_neg (ne_true_of_eq_false h)]
  exact ⟨rfl, mem_emit_out ..⟩

section

variable {s : State} {u : Update} {i : Image} (hi : u.image = some i) (hc : u.comp = 2)

include hi hc

/-- Firmware whose image allows it waits for its activation without a reset (R398). -/
theorem activate_hitless (hb : bitOf i.hdr 40 = false) (hr : fwRuns s = true) : activate s u =
    ({ setUpdate s none with fw := { s.fw with hitlessWait := true } }, .ok, [0]) := by
  unfold activate
  simp only [hi]
  rw [if_pos ⟨hc, by simp [hb], hr⟩]
  rfl

/-- Any other is named by the directory, on trial from the next reset on. -/
theorem activate_on_trial (hb : bitOf i.hdr 40 = true) : activate s u =
    (putDir (setUpdate s none) otherOnTrial, .ok, [1]) := by
  unfold activate
  simp only [hi]
  rw [if_neg (by simp [hb])]
  simp only [hc]
  rfl

end

/-! ## The statement -/

/-- Settles O52: a request that is taken answers with what its protocol gives for it. -/
theorem endpointsSensorsAndUpdates : Obligations.EndpointsSensorsAndUpdates := by
  intro s t x h0
  refine ⟨fun eid h => ?mctp, fun k n h hn => ?pdr, fun h => ?pdrInfo, fun n h hs hn => ?reading,
    fun n h hs => ?stateReading, fun n on h hs => ?enable, fun eid h => ?receiver, fun l n v hs => ?update,
    fun h => ?ids, fun h => ?params, fun h hu => ⟨fun ht hk => ?begins, fun ht => ?refused⟩,
    fun p hp => ⟨fun l h hl => ?table, fun k n h hk hm hn => ?component, fun off len i h hc hv hoff hlen =>
      ⟨fun hlt => ?data, fun im heq hi hok => ?passes, fun im heq hi hbad => ?fails⟩,
      fun im h hi => ⟨fun hc hb hr => ?hitless, fun hc hb hroom => ?trial⟩,
      fun h => ?status, fun h => ?cancelComp, fun h => ?cancel⟩⟩
  case mctp => exact ⟨_, sideRow_takes t h rfl, tget_tput_self .., mem_emit_out ..⟩
  case pdr =>
    refine ⟨_, sideRow_takes t h (u := s.at t) (c := .ok) (body := [n]) ?_, mem_emit_out ..⟩
    have hn' : (sensorList (s.at t))[k - 1]? = some n := hn
    show sensorReq (s.at t) (.getPdr k) = _
    simp only [sensorReq, hn']
  case pdrInfo => exact ⟨_, sideRow_takes t h rfl, mem_emit_out ..⟩
  case reading =>
    refine ⟨_, sideRow_takes t h ((if_neg ?_).trans (if_neg ?_)), mem_emit_out ..⟩
    · exact ne_true_of_eq_false ((congrArg (!·) (show numericSensor (s.at t) n = true from hs)))
    · simpa using hn
  case stateReading => exact ⟨_, sideRow_takes t h (if_pos hs), mem_emit_out ..⟩
  case enable =>
    have hs' : numericSensor (s.at t) n = true := hs
    refine ⟨_, sideRow_takes t h (if_neg ?_), ?_, fun m hm => ?_⟩
    · rw [hs']
      decide
    · exact mem_disabled.trans (by rw [if_pos rfl])
    · exact mem_disabled.trans (by rw [if_neg hm]; rfl)
  case receiver => exact ⟨_, sideRow_takes t h rfl, rfl⟩
  case update =>
    refine ⟨_, run_on h0 .., ?_, fun m hm => ?_⟩
    · rw [sensorUpdate_reads, if_neg (ne_true_of_eq_false (not_stateSensor_of_numeric hs)), List.foldl_append]
      have hl := foldl_setSensor_frame l (s.at t)
      refine setSensor_reads v ?_
      unfold numericSensor
      rw [hl.stock]
      exact hs
    · rw [sensorUpdate_reads, if_pos hm]
      rfl
  case ids => exact ⟨_, sideRow_takes t h rfl, mem_emit_out ..⟩
  case params => exact ⟨_, sideRow_takes t h (updateReq_fwParams (s.at t) x), mem_emit_out ..⟩
  case begins =>
    exact ⟨_, sideRow_takes t h (requestUpdate_begins (s := s.at t) ht hk hu), rfl⟩
  case refused => exact ⟨_, sideRow_takes t h (requestUpdate_refused (s := s.at t) ht), hu, mem_emit_out ..⟩
  all_goals obtain ⟨htable, hcomp, hdata, hact, hstat, hcc, hcu⟩ := updateReq_of_update (s := s.at t) x hp
  case table => exact ⟨_, sideRow_takes t h (htable l hl), rfl⟩
  case component =>
    exact ⟨_, sideRow_takes t h (hcomp k n hk hm hn), rfl, rfl⟩
  case data =>
    exact ⟨_, sideRow_takes t h ((hdata ..).trans (firmwareData_goes_on x hc hv hoff hlen i hlt)), rfl⟩
  case passes =>
    subst hi
    obtain ⟨hslots, hupd⟩ := finishTransfer_passes (s := s.at t) (u := { p with got := off + len }) x hok
    refine ⟨_, sideRow_takes t h ((hdata ..).trans (firmwareData_ends x hc hv hoff hlen _ heq)), ?_, hupd⟩
    exact (congrArg (tget · _) hslots).trans (tget_tput_self ..)
  case fails =>
    subst hi
    obtain ⟨hslots, hout⟩ := finishTransfer_fails (s := s.at t) (u := { p with got := off + len }) x hbad
    exact ⟨_, sideRow_takes t h ((hdata ..).trans (firmwareData_ends x hc hv hoff hlen _ heq)), hslots,
      List.mem_append_left _ hout⟩
  case hitless =>
    exact ⟨_, sideRow_takes t h (hact.trans (activate_hitless (s := s.at t) hi hc hb hr)), rfl, rfl,
      bootDir_of_dirs rfl rfl⟩
  case trial =>
    have hdir := bootDir_putDir_otherOnTrial (s := s) (u := setUpdate (s.at t) none)
      (bootDir_of_dirs rfl rfl) hroom
    have hput : Frame [.fw] (setUpdate (s.at t) none) (putDir (setUpdate (s.at t) none) otherOnTrial) :=
      putDir_frame (.refl _) (by decide)
    exact ⟨_, sideRow_takes t h (hact.trans (activate_on_trial (s := s.at t) hi hc hb)), congrArg BootDir.trial hdir,
      congrArg BootDir.started hdir, congrArg BootDir.fwSlot hdir, congrArg MgmtSt.update hput.mgmt⟩
  case status => exact ⟨_, sideRow_takes t h hstat, mem_emit_out ..⟩
  case cancelComp => exact ⟨_, sideRow_takes t h hcc, rfl⟩
  case cancel => exact ⟨_, sideRow_takes t h hcu, rfl⟩

end Sys2Proof.Machine
end

section
/-! SUPPORT. Commands that go on, RESET_N and the error log (R411, R413, R516). -/

namespace Sys2Proof.Machine

/-! ## Every command goes on (R516) -/

/-- A choice between two outcomes goes on where both do. -/
theorem ite_goes_on {p : Prop} [Decidable p] {a b : Host.Outcome State Fault Refusal} (ha : ∃ u, a = .next u)
    (hb : ∃ u, b = .next u) : ∃ u, (if p then a else b) = .next u := by
  split
  · exact ha
  · exact hb

theorem writeReadoutCtrl_goes_on (t : Stamp) (fn : Fn) (v : Word) (s : State) :
    ∃ u, writeReadoutCtrl t fn v s = .next u :=
  ite_goes_on ⟨_, rfl⟩ (ite_goes_on ⟨_, rfl⟩ ⟨_, rfl⟩)

/-- Whatever its offset makes of it, a write of BAR0 goes on: the seven offsets with a row of their own, then the two of
a bench page, then every other. -/
theorem execRegisterWrite_goes_on (t : Stamp) (fn : Fn) (off : Nat) (v : Word) (s : State) :
    ∃ u, execRegisterWrite t fn off v s = .next u := by
  refine ite_goes_on ⟨_, rfl⟩ <| ite_goes_on (ite_goes_on ⟨_, rfl⟩ ⟨_, rfl⟩) <|
    ite_goes_on (ite_goes_on ⟨_, rfl⟩ ⟨_, rfl⟩) <| ite_goes_on ⟨_, rfl⟩ <|
    ite_goes_on (ite_goes_on ⟨_, rfl⟩ ⟨_, rfl⟩) <| ite_goes_on (writeReadoutCtrl_goes_on t fn v s) <|
    ite_goes_on ⟨_, rfl⟩ ?_
  split <;> exact ⟨_, rfl⟩

/-- RESET_N low for less than 1 µs, or for 10 µs or more, goes on. -/
theorem execResetN_goes_on (t : Stamp) {n : Nat} (s : State) (h : n < 1000 ∨ 10000 ≤ n) :
    ∃ u, execResetN t n s = .next u := by
  rcases h with h | h
  · exact ⟨_, if_pos h⟩
  · exact ⟨_, execResetN_resets s t h⟩

theorem execResetN_forbidden (t : Stamp) {n : Nat} (s : State) (h1 : 1000 ≤ n) (h2 : n < 10000) :
    execResetN t n s = .fault .forbiddenInput := by
  unfold execResetN
  rw [if_neg (by omega), if_pos h2]

/-- Settles O5. Every other row than these two is one call of a shape that ends in `.next`. -/
theorem onlyForbiddenPulseStops : Obligations.OnlyForbiddenPulseStops := by
  refine ⟨fun c s h => ?_, fun t n s h1 h2 => execResetN_forbidden t s h1 h2⟩
  cases c with
  | resetN t n => exact execResetN_goes_on t s (h t n rfl)
  | registerWrite t fn off v => exact execRegisterWrite_goes_on t fn off v s
  | _ => exact ⟨_, rfl⟩

/-! ## RESET_N low (R516) -/

section

variable {s : State} (t : Stamp) (hlow : s.fw.resetLow = true)

include hlow

theorem execStartUpRowDone_held (h0 : s.pwr.off = false) (r : Nat) (a b : Bool) :
    execStartUpRowDone t r a b s = .next (s.at t) :=
  (run_on h0 ..).trans (congrArg _ (if_pos (by simp [hlow])))

theorem execBootWatchdog_held (h0 : s.pwr.off = false) : execBootWatchdog t s = .next (s.at t) :=
  (run_on h0 ..).trans (congrArg _ (if_pos (by simp [hlow])))

/-- With RESET_N low as well, PERST# only sets its contact. -/
theorem execPerst_held : execPerst t s = .next { s.at t with fw := { s.fw with perstLow := true } } :=
  execPerst_of_warmReset (if_pos (by simp [hlow]))

end

/-- Settles O59. -/
theorem resetNHoldsTheModule : Obligations.ResetNHoldsTheModule := by
  intro s t n
  refine ⟨fun h => if_pos h, fun h1 h2 => execResetN_forbidden t s h1 h2,
    fun h => ⟨_, execResetN_resets s t h, ?cold, rfl, rfl⟩,
    fun hlow h0 => ⟨execStartUpRowDone_held t hlow h0, execBootWatchdog_held t hlow h0, execPerst_held t hlow⟩, rfl⟩
  case cold => exact coldLeft_coldReset rfl rfl rfl rfl rfl rfl

/-! ## Entries of the error log (R411, R413) -/

/-- The log has no say in what a signal puts out. -/
theorem errVector_out_of_fault (s : State) (f : FaultSt) :
    (errVector { s with fault := f }).out = (errVector s).out := by
  unfold errVector signal emitTo
  split
  · rfl
  · rfl

/-- The latest entry outlasts the oldest of a full log. -/
theorem mem_latest {α : Type} (l : List α) (e : α) (n : Nat) :
    e ∈ if (l ++ [e]).length > n + 1 then (l ++ [e]).drop 1 else l ++ [e] := by
  split
  · rename_i h
    rw [List.drop_append_of_le_length (by simp at h; omega)]
    exact List.mem_append_right _ (List.mem_singleton_self e)
  · exact List.mem_append_right _ (List.mem_singleton_self e)

/-- An entry is appended to the volatile log, counted, and told of by its severity; the persistent log alone depends on
what else stands in it. -/
theorem logEntry_appends (s : State) (x : LogEntry) {e : LogEntry}
    (he : e = { x with seq := s.fault.prod, stamp := s.time.now, severity := severity x.cls x.cause }) :
    ∃ f : FaultSt, f.prod = (s.fault.prod + 1) % 2 ^ 32 ∧ e ∈ f.vol ∧
      logEntry s x = if 2 ≤ e.severity then emit (errVector { s with fault := f }) (.mgmtEvent e)
        else { s with fault := f } := by
  subst he
  exact ⟨_, rfl, mem_latest _ _ 511, rfl⟩

/-- Settles O58. -/
theorem graveEntriesSignal : Obligations.GraveEntriesSignal := by
  intro s x e u
  obtain ⟨f, hprod, hvol, hu⟩ := logEntry_appends s x (e := e) rfl
  have hfault : u.fault = f := by
    rw [show u = _ from hu]
    split
    · exact signal_fault ..
    · rfl
  refine ⟨by rw [hfault, hprod], by rwa [hfault], fun h => ?grave, fun h => ?light⟩
  case grave =>
    rw [show u = _ from hu, if_pos h]
    exact congrArg (· ++ [.mgmtEvent e]) (errVector_out_of_fault s f)
  case light => rw [show u = _ from hu, if_neg (by omega)]

end Sys2Proof.Machine
end

section
/-! SUPPORT. Protective loops and thermal shutdown (R454, R457, R458, R460). -/

namespace Sys2Proof.Machine

/-! ## Overrides (R458) -/

/-- No bench holds a slice on the tile. -/
def idleTile (s : State) (k : Nat) : Prop := (List.range 16).any (fun b => onTile s b k) = false

/-- Counting an affected tick changes that list of the power state alone: the tile joins it, but for an idle one. -/
theorem markAffected_pwr (s : State) (k : Nat) :
    ∃ a, (markAffected s k).pwr = { s.pwr with affected := a } ∧ (k ∈ a ∨ idleTile s k) := by
  unfold markAffected
  split
  · rename_i h
    refine ⟨s.pwr.affected, rfl, ?_⟩
    simpa [idleTile] using h
  · exact ⟨_, rfl, .inl (List.mem_append_right _ (List.mem_singleton_self k))⟩

/-- An override raised has its bit set and its tick counted; the loops and the clocks stay. -/
theorem raiseOverride_pwr (s : State) (k : Nat) (c : OvCause) (entered : Bool) :
    ∃ o a, (raiseOverride s k c entered).pwr = { s.pwr with override := o, affected := a } ∧ (k, c) ∈ o ∧
      (k ∈ a ∨ idleTile s k) := by
  have hlog : ∀ v : State, (if entered then logErr v .environment 1 (u := ⟨.sensor, 8 + k⟩) else v).pwr = v.pwr := by
    intro v
    split
    · exact logErr_pwr ..
    · rfl
  unfold raiseOverride
  dsimp only
  rw [hlog]
  split
  · rename_i hset
    obtain ⟨a, ha, hk⟩ := markAffected_pwr s k
    exact ⟨s.pwr.override, a, ha, by simpa using hset, hk⟩
  · obtain ⟨a, ha, hk⟩ := markAffected_pwr { s with pwr := { s.pwr with override := s.pwr.override ++ [(k, c)] } } k
    exact ⟨_, a, ha, List.mem_append_right _ (List.mem_singleton_self _), hk⟩

/-! ## Loops (R457) -/

/-- The state in which a loop acts: its tile's clock as it leaves it, and the loop among those that act. -/
def looped (s : State) (k : Nat) (c : OvCause) (mhz : Nat) : State :=
  { s with pwr := { s.pwr with
    clock := tput s.pwr.clock k mhz
    loops := if !s.pwr.loops.contains (k, c) then s.pwr.loops ++ [(k, c)] else s.pwr.loops } }

/-- A loop that acts on a tile there is raises its override where it holds the tile below its floor. -/
theorem loopActs_eq {k : Nat} (hk : k < 8) (c : OvCause) (mhz : Nat) (s : State) :
    loopActs k c mhz s = if heldBelow (looped s k c mhz) k then
      raiseOverride (looped s k c mhz) k c (!s.pwr.loops.contains (k, c) || !heldBelow s k) else looped s k c mhz :=
  if_neg (by omega)

theorem looped_clock (s : State) (k : Nat) (c : OvCause) (mhz : Nat) : tget (looped s k c mhz).pwr.clock k = some mhz :=
  tget_tput_self ..

theorem mem_looped {s : State} {k : Nat} {c : OvCause} {mhz : Nat} {o : Nat × OvCause} :
    o ∈ (looped s k c mhz).pwr.loops ↔ o ∈ s.pwr.loops ∨ o = (k, c) := by
  unfold looped
  dsimp only
  split
  · simp
  · rename_i h
    have hin : (k, c) ∈ s.pwr.loops := by simpa using h
    exact ⟨.inl, fun ho => ho.elim id (fun e => e ▸ hin)⟩

theorem heldBelow_looped {s : State} {k : Nat} {c : OvCause} {mhz : Nat} (h : mhz < floorMhz s k) :
    heldBelow (looped s k c mhz) k = true := by
  have hclock : tileMhz (looped s k c mhz) k = mhz := by simp [tileMhz, looped_clock]
  have hfloor : floorMhz (looped s k c mhz) k = floorMhz s k := rfl
  simp [heldBelow, hclock, hfloor, h]

/-- A loop that acts sets its tile's clock and joins the loops, and no other loop does; below the floor it raises its
override. -/
theorem loopActs_pwr {s u : State} {k : Nat} {c : OvCause} {mhz : Nat} (hk : k < 8) (hu : loopActs k c mhz s = u) :
    tget u.pwr.clock k = some mhz ∧ (k, c) ∈ u.pwr.loops ∧ (∀ o ∈ u.pwr.loops, o ∈ s.pwr.loops ∨ o = (k, c)) ∧
      (mhz < floorMhz s k → (k, c) ∈ u.pwr.override ∧ (k ∈ u.pwr.affected ∨ idleTile s k)) := by
  have hjoined : (k, c) ∈ (looped s k c mhz).pwr.loops := mem_looped.mpr (.inr rfl)
  rw [loopActs_eq hk] at hu
  split at hu
  · obtain ⟨o, a, hp, ho, ha⟩ :=
      raiseOverride_pwr (looped s k c mhz) k c (!s.pwr.loops.contains (k, c) || !heldBelow s k)
    rw [hu] at hp
    rw [hp]
    exact ⟨looped_clock s k c mhz, hjoined, fun _ => (mem_looped (mhz := mhz)).mp, fun _ => ⟨ho, ha⟩⟩
  · rename_i hb
    subst hu
    exact ⟨looped_clock .., hjoined, fun _ => mem_looped.mp, fun h => absurd (heldBelow_looped h) hb⟩

theorem tileMhz_at (s : State) (t : Stamp) (k : Nat) : tileMhz (s.at t) k = tileMhz s k := rfl

/-- At or above throttle_c the loop acts; below it nothing does. -/
theorem execTjThrottle_acts {s : State} (t : Stamp) (k : Nat) {dc : Nat} (h0 : s.pwr.off = false)
    (h : 10 * regF s 0x60040 6 0 ≤ dc) :
    execTjThrottle t k dc s = .next (loopActs k .tj (tileMhz s k - 25) (s.at t)) :=
  (run_on h0 ..).trans (congrArg _ (if_pos h))

theorem execCurrentLimit_acts {s : State} (t : Stamp) (k : Nat) (h0 : s.pwr.off = false) :
    execCurrentLimit t k s = .next (loopActs k .current (tileMhz s k / 2) (s.at t)) := by
  unfold execCurrentLimit
  rw [run_on h0, tileMhz_at]

theorem execDroop_acts {s : State} (t : Stamp) (k : Nat) (h0 : s.pwr.off = false) :
    execDroop t k s = .next (loopActs k .droop (tileMhz s k) (s.at t)) := by
  unfold execDroop
  rw [run_on h0, tileMhz_at]

theorem execTjThrottle_rests {s : State} (t : Stamp) (k : Nat) {dc : Nat} (h0 : s.pwr.off = false)
    (h : dc < 10 * regF s 0x60040 6 0) : execTjThrottle t k dc s = .next (s.at t) :=
  (run_on h0 ..).trans (congrArg _ (if_neg (Nat.not_le.mpr h)))

/-! ## Loops that let go (R457) -/

/-- What is left of the loops when one lets go. -/
def loopsLeft (s : State) (k : Nat) (c : OvCause) : List (Nat × OvCause) := s.pwr.loops.filter (fun x => x != (k, c))

theorem mem_loopsLeft {s : State} {k : Nat} {c : OvCause} {o : Nat × OvCause} :
    o ∈ loopsLeft s k c ↔ o ∈ s.pwr.loops ∧ o ≠ (k, c) := by
  simp [loopsLeft]

theorem execOverrideEnd_leaves {s : State} (t : Stamp) (k : Nat) (c : OvCause) (h0 : s.pwr.off = false) :
    execOverrideEnd t k c s = .next { s.at t with pwr := { s.pwr with
      loops := loopsLeft s k c
      clock := if (loopsLeft s k c).any (fun x => x.1 == k) then s.pwr.clock else tdel s.pwr.clock k } } :=
  run_on h0 ..

/-- Another loop on the tile goes on. -/
theorem loopsLeft_any {s : State} {k : Nat} {c y : OvCause} (hy : y ≠ c) (h : (k, y) ∈ s.pwr.loops) :
    (loopsLeft s k c).any (fun x => x.1 == k) = true :=
  List.any_eq_true.mpr ⟨(k, y), mem_loopsLeft.mpr ⟨h, by simp [hy]⟩, beq_self_eq_true k⟩

/-- The last loop on the tile leaves none. -/
theorem loopsLeft_none {s : State} {k : Nat} {c : OvCause} (h : ∀ o ∈ s.pwr.loops, o.1 = k → o.2 = c) :
    (loopsLeft s k c).any (fun x => x.1 == k) = false := by
  refine List.any_eq_false.mpr fun o ho hk => ?_
  obtain ⟨hin, hne⟩ := mem_loopsLeft.mp ho
  have hk' : o.1 = k := by simpa using hk
  exact hne (Prod.ext hk' (h o hin hk'))

/-- Thermal shutdown is logged, and removes power (R460). -/
theorem execThermalShutdown_cuts {s : State} (t : Stamp) (k : Nat) (h0 : s.pwr.off = false) :
    execThermalShutdown t k s = .next { logErr (s.at t) .environment 4 (u := ⟨.sensor, 8 + k⟩) with
      pwr := { (logErr (s.at t) .environment 4 (u := ⟨.sensor, 8 + k⟩)).pwr with
        off := true, pwrGood := false, planStable := false } } :=
  run_on h0 ..

/-! ## The statement -/

/-- Settles O54: the three loops are `loopActs` with a clock of their own. -/
theorem protectiveLoopsLowerTheirTile : Obligations.ProtectiveLoopsLowerTheirTile := by
  intro s t k h0
  refine ⟨fun hk c x mhz hc => ?acts, fun dc h => execTjThrottle_rests t k h0 h, fun x => ?ends, ?shutdown⟩
  case acts =>
    have hrow : exec c s = .next (loopActs k x mhz (s.at t)) := by
      rcases hc with ⟨dc, rfl, rfl, rfl, hdc⟩ | ⟨rfl, rfl, rfl⟩ | ⟨rfl, rfl, rfl⟩
      · exact execTjThrottle_acts t k h0 hdc
      · exact execCurrentLimit_acts t k h0
      · exact execDroop_acts t k h0
    exact ⟨_, hrow, loopActs_pwr (s := s.at t) hk rfl⟩
  case ends =>
    refine ⟨_, execOverrideEnd_leaves t k x h0, fun h => (mem_loopsLeft.mp h).2 rfl, rfl, fun hlast => ?_,
      fun y hy hin => ?_⟩
    · simp [loopsLeft_none hlast]
    · exact if_pos (loopsLeft_any hy hin)
  case shutdown => exact ⟨_, execThermalShutdown_cuts t k h0, rfl, rfl, rfl, logErr_prod (s.at t) ..⟩

end Sys2Proof.Machine
end

section
/-! SUPPORT. Rest (R462 to R467, R469, R508, R509): how it is entered and left, and what coolant flow lost makes of the
module. -/

namespace Sys2Proof.Machine

/-! ## Writes of the physical function (R487) -/

/-- Where BAR0 answers, and Rest leaves the offset open, a write of the physical function acts. -/
theorem pfWrite_acts {s : State} {off : Nat} (t : Stamp) (f : State → State) (h0 : s.pwr.off = false)
    (hbar : barReady s = true) (hopen : restShut s off = false) : pfWrite t .pf off f s = .next (f (s.at t)) := by
  have hbar' : barReady (s.at t) = true := hbar
  have hopen' : restShut (s.at t) off = false := hopen
  unfold pfWrite
  rw [run_on h0]
  simp [hbar', hopen']

/-- Outside Rest every offset is open. -/
theorem restShut_awake {s : State} (h : s.pwr.state ≠ .rest) (off : Nat) : restShut s off = false := by
  simp [restShut, h]

/-- Outside Rest a write of the physical function acts where BAR0 answers. -/
theorem pfWrite_awake {s : State} (t : Stamp) (off : Nat) (f : State → State) (h0 : s.pwr.off = false)
    (hbar : barReady s = true) (hrest : s.pwr.state ≠ .rest) : pfWrite t .pf off f s = .next (f (s.at t)) :=
  pfWrite_acts t f h0 hbar (restShut_awake hrest off)

/-! ## What Rest latched (R464, R466, R469) -/

/-- Commands and requests that are latched. -/
def latchedHere (s : State) : List (MgmtCmd × MgmtOp) × List (Transport × SideReq) :=
  (s.mgmt.latched, s.mgmt.latchedSide)

theorem latchedHere_of_mgmt {r s : State} (h : s.mgmt = r.mgmt) : latchedHere s = latchedHere r := by
  unfold latchedHere
  rw [h]

theorem closeRecord_latchedHere (s : State) (b reason k : Nat) :
    latchedHere (closeRecord s b reason k) = latchedHere s := by
  unfold closeRecord
  dsimp only
  split <;> rfl

theorem closeTally_latchedHere (s : State) (id reason k : Nat) :
    latchedHere (closeTally s id reason k) = latchedHere s := by
  unfold closeTally
  split
  · rfl
  · split <;> rfl

theorem closeAll_latchedHere (s : State) (reason : Nat) : latchedHere (closeAll s reason) = latchedHere s := by
  have hbench : ∀ k (s : State) (b : Nat),
      latchedHere (if (openMeter s b).used then closeRecord s b reason k else s) = latchedHere s := by
    intro k s b
    split
    · exact closeRecord_latchedHere ..
    · rfl
  have htally : ∀ k (s : State) (x : Nat × Tally), latchedHere (closeTally s x.1 reason k) = latchedHere s :=
    fun k s x => closeTally_latchedHere s x.1 reason k
  unfold closeAll
  split
  · rfl
  · dsimp only
    rw [foldl_keeps latchedHere (htally _), foldl_keeps latchedHere (hbench _)]

theorem respond_latchedHere (s : State) (c : MgmtCmd) (st : Status) (body : List Nat) :
    latchedHere (respond s c st body) = latchedHere s := by
  unfold respond
  dsimp only
  split
  · rw [latchedHere_of_mgmt (signal_mgmt ..)]
    rfl
  · rfl

theorem dropHeld_latchedHere (st : Stamp) (all : Bool) (s : State) :
    latchedHere (dropHeld st all s) = latchedHere s := by
  unfold dropHeld
  dsimp only
  rw [foldl_keeps latchedHere (fun s c => respond_latchedHere s c ..)]
  rfl

/-- Keep mode entered leaves what Rest latched, for the loader to answer (R469). -/
theorem enterKeep_latchedHere (cause : Nat) (s : State) : latchedHere (enterKeep cause s) = latchedHere s := by
  have hdrops : ∀ st v, latchedHere (logErr (dropHeld st false (dropLanded st false v)) .keep 1 (d0 := cause)) =
      latchedHere v := by
    intro st v
    have hlanded : Frame [.host, .haul, .fault, .out, .spent] v (dropLanded st false v) :=
      dropLanded_frame (.refl v) (by decide) (by decide) (by decide) (by decide) (by decide)
    rw [latchedHere_of_mgmt (logErr_mgmt ..), dropHeld_latchedHere, latchedHere_of_mgmt hlanded.mgmt]
  unfold enterKeep
  dsimp only
  split
  · rfl
  · split
    · rw [hdrops]
      rfl
    · rw [closeAll_latchedHere, hdrops]
      rfl

/-- With nothing latched there is nothing to answer. -/
theorem answerLatched_none {s : State} (h : latchedHere s = ([], [])) : answerLatched s = s := by
  obtain ⟨h1, h2⟩ := Prod.mk.inj h
  have hm : ({ s.mgmt with latched := [], latchedSide := [] } : MgmtSt) = s.mgmt := by rw [← h1, ← h2]
  unfold answerLatched
  simp only [h1, h2, List.foldl_nil, hm]

/-- Outside Keep mode what is latched waits. -/
theorem afterKeep_outside {s : State} (h : inKeep s = false) : afterKeep s = s := if_neg (ne_true_of_eq_false h)

/-- Keep mode entered with nothing latched has nothing to answer. -/
theorem afterKeep_enterKeep {s : State} (cause : Nat) (h : latchedHere s = ([], [])) :
    afterKeep (enterKeep cause s) = enterKeep cause s := by
  have hnone := answerLatched_none ((enterKeep_latchedHere cause s).trans h)
  unfold afterKeep
  rw [hnone, ite_self]

/-! ## Entry (R462, R463, R467, R469) -/

/-- A request of Rest in RUN waits for its commit. -/
theorem execRestRequest_waits {s : State} (t : Stamp) (h0 : s.pwr.off = false) (hbar : barReady s = true)
    (hrun : s.pwr.state = .run) : execRestRequest t .pf s = .next { s.at t with
      pwr := { s.pwr with restReq := s.pwr.restReq ++ [(t, none)] } } := by
  have hrun' : (s.at t).pwr.state = .run := hrun
  unfold execRestRequest
  rw [pfWrite_awake t _ _ h0 hbar (by simp [hrun]), if_pos hrun']
  rfl

section

variable {s : State} (he : s.pwr.state = .entering)

include he

theorem restEntered_lost (hf : s.pwr.flowOk = false) : restEntered s = enterKeep 3 s := by
  simp [restEntered, he, hf]

theorem restEntered_latched (hf : s.pwr.flowOk = true) {k : Nat} {e : Stamp} (hl : s.pwr.latched = some (k, e)) :
    restEntered s = wake k e s := by
  simp [restEntered, he, hf, hl]

theorem restEntered_rests (hf : s.pwr.flowOk = true) (hl : s.pwr.latched = none) :
    restEntered s = { s with pwr := { s.pwr with state := .rest } } := by
  simp [restEntered, he, hf, hl]

end

/-- The row of an entry that completes outside Keep mode. -/
theorem execRestEntryComplete_of {s u : State} (t : Stamp) (h0 : s.pwr.off = false) (hu : restEntered (s.at t) = u)
    (hk : afterKeep u = u) : execRestEntryComplete t s = .next u := by
  unfold execRestEntryComplete
  rw [run_on h0, hu, hk]

/-! ## Samples (R465) -/

/-- The conditions of a sample in Rest, in the order they are read. -/
theorem watchSample_rest {s : State} (h : s.pwr.state = .rest) (inlet tj mv : Nat) :
    watchSample inlet tj mv s =
      if s.pwr.bellFlag then wake 1 s.time.now { s with pwr := { s.pwr with mv := mv } }
      else if s.pwr.linkFlag then wake 2 s.time.now { s with pwr := { s.pwr with mv := mv } }
      else if 10 * regF s 0x60058 30 24 ≤ inlet then wake 3 s.time.now { s with pwr := { s.pwr with mv := mv } }
      else if 10 * regF s 0x60058 38 32 ≤ tj then wake 4 s.time.now { s with pwr := { s.pwr with mv := mv } }
      else if mv < 100 * regF s 0x60058 49 40 ∨ 100 * regF s 0x60058 61 52 < mv then
        wake 5 s.time.now { s with pwr := { s.pwr with mv := mv } }
      else { s with pwr := { s.pwr with mv := mv } } :=
  if_neg (by simp [h])

theorem execWatchSample_of {s u : State} {t : Stamp} {inlet tj mv : Nat} (h0 : s.pwr.off = false)
    (hu : watchSample inlet tj mv (s.at t) = u) : execWatchSample t inlet tj mv s = .next u :=
  (run_on h0 ..).trans (congrArg _ hu)

/-! ## Exit (R466) -/

theorem execWakeComplete_wakes {s : State} (t : Stamp) (h0 : s.pwr.off = false) (hw : s.pwr.state = .waking)
    (h : latchedHere s = ([], [])) : execWakeComplete t s = .next (woken (s.at t)) :=
  (run_on h0 ..).trans (congrArg _ ((if_pos hw).trans (answerLatched_none h)))

/-! ## Coolant flow (R508, R509) -/

/-- The flow is lost, and its loss logged. -/
def flowLogged (s : State) : State := logErr { s with pwr := { s.pwr with flowOk := false } } .environment 3

theorem flowLogged_pwr (s : State) : (flowLogged s).pwr = { s.pwr with flowOk := false } := logErr_pwr ..

theorem flowLogged_keep (s : State) : (flowLogged s).fault.keep = s.fault.keep := logErr_keep ..

theorem flowLogged_mgmt (s : State) : (flowLogged s).mgmt = s.mgmt := logErr_mgmt ..

theorem flowLogged_time (s : State) : (flowLogged s).time = s.time := logErr_time ..

section

variable {s : State} (hg : s.pwr.pwrGood = true)

include hg

/-- A start-up not yet complete is held, at its firmware row or where it stands. -/
theorem flowLost_starting (hs : s.pwr.wasStable = false) :
    ∃ f, flowLost s = { flowLogged s with pwr := { (flowLogged s).pwr with held := true }, fw := f } := by
  unfold flowLost
  rw [if_neg (by simp [hg]), if_pos (by simp [hs])]
  exact ⟨_, rfl⟩

/-- An entry into Rest goes on. -/
theorem flowLost_entering (hs : s.pwr.wasStable = true) (he : s.pwr.state = .entering) : flowLost s = flowLogged s := by
  unfold flowLost
  rw [if_neg (by simp [hg]), if_neg (by simp [hs]), if_pos he]
  rfl

theorem flowLost_running (hs : s.pwr.wasStable = true) (he : s.pwr.state ≠ .entering) :
    flowLost s = enterKeep 3 (flowLogged s) := by
  unfold flowLost
  rw [if_neg (by simp [hg]), if_neg (by simp [hs]), if_neg he]
  rfl

end

/-- The row of a loss of flow. -/
theorem execFlowLoss_of {s u : State} (t : Stamp) (h0 : s.pwr.off = false) (hu : flowLost (s.at t) = u)
    (hk : afterKeep u = u) : execFlowLoss t s = .next u := by
  unfold execFlowLoss
  rw [run_on h0, hu, hk]

/-- A held start-up goes on. -/
theorem execFlowRestore_restores {s : State} (t : Stamp) (h0 : s.pwr.off = false) :
    execFlowRestore t s = .next { s.at t with pwr := { s.pwr with flowOk := true, held := false } } := by
  unfold execFlowRestore
  rw [run_on h0]
  rfl

/-! ## The statement -/

/-- Settles O55. -/
theorem restIsEnteredAndLeft : Obligations.RestIsEnteredAndLeft := by
  intro s t h0
  refine ⟨execRestRequest_waits t h0, fun hdue => ?entry, fun hdue => ?noEntry, fun he hkeep => ⟨fun hf hl => ?rests,
    fun k e hf hl => ?replays, fun hf h1 h2 => ?lostIn⟩, fun hrest inlet tj mv => ?samples, fun hw h1 h2 => ?wakes,
    fun hgood hkeep => ⟨fun hs _ _ => ?held, fun hs he h1 h2 => ?keeps, fun hs he => ?enters⟩,
    execFlowRestore_restores t h0⟩
  case entry => exact (run_on h0 ..).trans (congrArg _ (if_pos hdue))
  case noEntry => exact (run_on h0 ..).trans (congrArg _ (if_neg (ne_true_of_eq_false hdue)))
  case rests =>
    exact execRestEntryComplete_of t h0 (restEntered_rests (s := s.at t) he hf hl) (afterKeep_outside hkeep)
  case replays =>
    exact execRestEntryComplete_of t h0 (restEntered_latched (s := s.at t) he hf hl) (afterKeep_outside hkeep)
  case lostIn =>
    exact ⟨_, execRestEntryComplete_of t h0 (restEntered_lost (s := s.at t) he hf)
      (afterKeep_enterKeep (s := s.at t) 3 (Prod.ext h1 h2)), enterKeep_keep (s := s.at t) 3 hkeep⟩
  case samples =>
    have hconds := watchSample_rest (s := s.at t) hrest inlet tj mv
    refine ⟨fun hb => ?_, fun hb => ⟨fun hl => ?_, fun hl => ⟨fun hi => ?_, fun hi => ⟨fun hj => ?_, fun hj =>
      ⟨fun hv => ?_, fun hlo hhi => ?_⟩⟩⟩⟩⟩
    all_goals refine execWatchSample_of h0 (hconds.trans ?_)
    · exact if_pos hb
    all_goals refine (if_neg (ne_true_of_eq_false hb)).trans ?_
    · exact if_pos hl
    all_goals refine (if_neg (ne_true_of_eq_false hl)).trans ?_
    · exact if_pos hi
    all_goals refine (if_neg (Nat.not_le.mpr hi)).trans ?_
    · exact if_pos hj
    all_goals refine (if_neg (Nat.not_le.mpr hj)).trans ?_
    · exact if_pos hv
    · exact if_neg (not_or.mpr ⟨Nat.not_lt.mpr hlo, Nat.not_lt.mpr hhi⟩)
  case wakes => exact ⟨_, execWakeComplete_wakes t h0 hw (Prod.ext h1 h2), rfl, rfl, rfl, rfl⟩
  case held =>
    obtain ⟨f, hlost⟩ := flowLost_starting (s := s.at t) hgood hs
    have hnone : (flowLogged (s.at t)).fault.keep = none := by
      rw [flowLogged_keep]
      simpa [inKeep] using hkeep
    refine ⟨_, execFlowLoss_of t h0 hlost (afterKeep_outside ?_), rfl, ?_, hnone⟩
    · exact congrArg Option.isSome hnone
    · exact congrArg PwrSt.flowOk (flowLogged_pwr (s.at t))
  case keeps =>
    have hout : inKeep (flowLogged (s.at t)) = false := (inKeep_of_keep (flowLogged_keep _)).trans hkeep
    have hquiet := afterKeep_enterKeep (s := flowLogged (s.at t)) 3
      ((latchedHere_of_mgmt (flowLogged_mgmt _)).trans (Prod.ext h1 h2))
    refine ⟨_, execFlowLoss_of t h0 (flowLost_running (s := s.at t) hgood hs he) hquiet, ?_, ?_⟩
    · rw [enterKeep_keep 3 hout, flowLogged_time]
    · obtain ⟨-, -, r, hp⟩ := enterKeep_leaves 3 hout
      rw [hp, flowLogged_pwr]
  case enters =>
    have hnone : (flowLogged (s.at t)).fault.keep = none := by
      rw [flowLogged_keep]
      simpa [inKeep] using hkeep
    refine ⟨_, execFlowLoss_of t h0 (flowLost_entering (s := s.at t) hgood hs he)
      (afterKeep_outside (congrArg Option.isSome hnone)), hnone, ?_, ?_⟩
    · rw [flowLogged_pwr]
    · rw [flowLogged_pwr]
      exact he

end Sys2Proof.Machine
end

section
/-! SUPPORT. Keep mode entered by the host, and its read-outs (R425 to R428). -/

namespace Sys2Proof.Machine

/-! ## Entry (R425, R426) -/

theorem closeTally_convs (s : State) (id reason k : Nat) : (closeTally s id reason k).work.convs = s.work.convs := by
  unfold closeTally
  split
  · rfl
  · split <;> rfl

theorem closeAll_convs (s : State) (reason : Nat) : (closeAll s reason).work.convs = s.work.convs := by
  have hbench : ∀ k (s : State) (b : Nat),
      (if (openMeter s b).used then closeRecord s b reason k else s).work.convs = s.work.convs := by
    intro k s b
    split
    · exact congrArg WorkSt.convs (closeRecord_frame (pm := [.mgmt]) (.refl s) (by decide)).work
    · rfl
  have htally : ∀ k (l : List (Nat × Tally)) (s : State),
      (l.foldl (fun s t => closeTally s t.1 reason k) s).work.convs = s.work.convs := fun k l s =>
    foldl_keeps (·.work.convs) (fun u x => closeTally_convs u x.1 reason k) l s
  unfold closeAll
  split
  · rfl
  · dsimp only
    rw [htally]
    exact foldl_keeps (·.work.convs) (hbench _) _ _

/-- Keep mode entered leaves every conversation as it is (R426). -/
theorem enterKeep_convs (cause : Nat) (s : State) : (enterKeep cause s).work.convs = s.work.convs := by
  have hlanded : ∀ st v, Frame [.host, .haul, .fault, .out, .spent] v (dropLanded st false v) := fun st v =>
    dropLanded_frame (.refl v) (by decide) (by decide) (by decide) (by decide) (by decide)
  have hheld : ∀ st v, Frame [.sec, .pwr, .mgmt, .out] v (dropHeld st false v) := fun st v =>
    dropHeld_frame (.refl v) (by decide) (by decide) (by decide) (by decide)
  unfold enterKeep
  dsimp only
  split
  · rfl
  · split
    · rw [logErr_work, (hheld ..).work, (hlanded ..).work]
    · rw [closeAll_convs, logErr_work, (hheld ..).work, (hlanded ..).work]

/-- The host's enter is Keep mode with cause 4. -/
theorem execRlKeepCtrlEnter_enters {s : State} (t : Stamp) (h0 : s.pwr.off = false) (hbar : barReady s = true)
    (hrest : s.pwr.state ≠ .rest) : execRlKeepCtrlEnter t .pf s = .next (enterKeep 4 (s.at t)) :=
  pfWrite_awake t _ _ h0 hbar hrest

/-! ## Read-outs (R427, R428) -/

/-- The state in which a read-out of a kind goes: the kind stored at the stamp. -/
def readoutFrom (s : State) (t : Stamp) (kind : Nat) : State := putReg (s.at t) 0x70040 (BitVec.ofNat 64 kind)

/-- A value put in a register has no say in what another reads. -/
theorem regRead_putReg_other (s : State) {a b : Nat} (v : Word) (h : a ≠ b) :
    regRead (putReg s a v) b = regRead s b := by
  simp [regRead, regVal, putReg, tget_tput, h]

theorem regRead_readoutFrom (s : State) (t : Stamp) (kind : Nat) {off : Nat} (h : 0x70040 ≠ off) :
    regRead (readoutFrom s t kind) off = regRead s off :=
  regRead_putReg_other (s.at t) _ h

theorem listEntry_readoutFrom (s : State) (t : Stamp) (kind : Nat) (c : Conv) :
    listEntry (readoutFrom s t kind) c = listEntry s c := rfl

theorem convBytes_readoutFrom (s : State) (t : Stamp) (kind : Nat) (c : Conv) :
    convBytes (readoutFrom s t kind) c = convBytes s c := rfl

theorem keepForm_readoutFrom (s : State) (t : Stamp) (kind : Nat) (c : Conv) :
    keepForm (readoutFrom s t kind) c = keepForm s c := rfl

/-- In Keep mode, with none running, a go of a kind acts. -/
theorem goReadout_goes {s : State} (kind : Nat) (f : State → State) (hk : inKeep s = true)
    (hdone : s.fault.readout.1 = true) : goReadout kind f s = f (putReg s 0x70040 (BitVec.ofNat 64 kind)) := by
  have hk' : inKeep (putReg s 0x70040 (BitVec.ofNat 64 kind)) = true := hk
  have hdone' : (putReg s 0x70040 (BitVec.ofNat 64 kind)).fault.readout.1 = true := hdone
  unfold goReadout
  dsimp only
  rw [hk', hdone']
  rfl

/-- What is written to a function's host memory is put out unless its stream is stopped (R446). -/
theorem mem_emitTo_out {s : State} {fn : Fn} (o : Output) (h : fn ∉ s.host.ideStopped) : o ∈ (emitTo s fn o).out := by
  simp [emitTo_out, h]

section

variable {s : State} (t : Stamp) (h0 : s.pwr.off = false) (hbar : barReady s = true) (hrest : s.pwr.state ≠ .rest)
  (hk : inKeep s = true) (hdone : s.fault.readout.1 = true)

include h0 hbar hrest hk hdone

/-- In Keep mode, with none running, a read-out of a kind goes. -/
theorem pfWrite_goReadout (kind : Nat) (f : State → State) :
    pfWrite t .pf 0x70040 (goReadout kind f) s = .next (f (readoutFrom s t kind)) :=
  (pfWrite_awake t _ _ h0 hbar hrest).trans (congrArg _ (goReadout_goes (s := s.at t) kind f hk hdone))

/-- LIST writes the entries asked for, and runs until its write has finished. -/
theorem execReadoutList_goes : ∃ bytes next, execReadoutList t .pf s = .next (setReadout
    (emitTo (readoutFrom s t 0) .pf (.readoutList (regRead s 0x70028).toNat
      (((s.work.convs.drop (regRead s 0x70038).toNat).take ((regRead s 0x70030).toNat / 32)).map
        (fun c => listEntry s c.2)))) false .ok bytes next) := by
  have hconvs : (readoutFrom s t 0).work.convs = s.work.convs := rfl
  unfold execReadoutList
  rw [pfWrite_goReadout t h0 hbar hrest hk hdone]
  simp only [regRead_readoutFrom s t 0 (show 0x70040 ≠ 0x70028 by decide), listEntry_readoutFrom, hconvs,
    regRead_readoutFrom s t 0 (show 0x70040 ≠ 0x70030 by decide),
    regRead_readoutFrom s t 0 (show 0x70040 ≠ 0x70038 by decide)]
  exact ⟨_, _, rfl⟩

/-- A conversation there is, with room for what it takes, is written. -/
theorem execReadoutConv_goes {c : Conv} (hc : conv s (regRead s 0x70038).toNat = some c)
    (hroom : convBytes s c ≤ (regRead s 0x70030).toNat) : execReadoutConv t .pf s = .next (setReadout
      (emitTo (readoutFrom s t 1) .pf (.readoutConv (regRead s 0x70028).toNat (keepForm s c))) false .ok
      (convBytes s c) 0) := by
  have hc' : conv (readoutFrom s t 1) (regRead s 0x70038).toNat = some c := hc
  refine (pfWrite_goReadout t h0 hbar hrest hk hdone 1 _).trans (congrArg _ ?_)
  simp only [regRead_readoutFrom s t 1 (show 0x70040 ≠ 0x70028 by decide), convBytes_readoutFrom, keepForm_readoutFrom,
    regRead_readoutFrom s t 1 (show 0x70040 ≠ 0x70030 by decide),
    regRead_readoutFrom s t 1 (show 0x70040 ≠ 0x70038 by decide), hc', if_neg (Nat.not_lt.mpr hroom)]

end

theorem execReadoutDone_done {s : State} (t : Stamp) (h0 : s.pwr.off = false) :
    execReadoutDone t s = .next { s.at t with fault := { s.fault with readout := (true, s.fault.readout.2) } } := by
  unfold execReadoutDone
  rw [run_on h0]
  rfl

/-- Settles O13. -/
theorem keepModeAndReadout : Obligations.KeepModeAndReadout := by
  intro s t h0 hbar hrest
  refine ⟨fun hk => ?enter, fun hk hdone => ⟨?list, fun c hc hroom => ?conv⟩, execReadoutDone_done t h0⟩
  case enter =>
    have hk' : inKeep (s.at t) = false := hk
    obtain ⟨hfw, -, r, hpwr⟩ := enterKeep_leaves 4 hk'
    exact ⟨_, execRlKeepCtrlEnter_enters t h0 hbar hrest, enterKeep_keep 4 hk', by rw [hpwr], by rw [hfw],
      enterKeep_convs 4 (s.at t)⟩
  case list =>
    obtain ⟨bytes, next, hrow⟩ := execReadoutList_goes t h0 hbar hrest hk hdone
    exact ⟨_, hrow, rfl, rfl, fun hide => mem_emitTo_out (s := readoutFrom s t 0) _ hide⟩
  case conv =>
    exact ⟨_, execReadoutConv_goes t h0 hbar hrest hk hdone hc hroom, rfl,
      fun hide => mem_emitTo_out (s := readoutFrom s t 1) _ hide⟩

end Sys2Proof.Machine
end

section
/-! SUPPORT. Writes of the stored registers (R486, R488, R490, R491): what a write makes of its register's values, in
force and as last written. -/

namespace Sys2Proof.Machine

/-! ## The row -/

/-- Outside the bench pages a write without a row of its own is `writeReg`. -/
theorem execRegisterWrite_plain {off : Nat} (t : Stamp) (fn : Fn) (v : Word) (s : State) (hpage : benchPage off = none)
    (hrow : off ∉ [0x0F8, 0x60008, 0x60010, 0x60020, 0x70020, 0x70040, 0x80040]) :
    execRegisterWrite t fn off v s = run t (writeReg fn off v) s := by
  simp only [List.mem_cons, List.not_mem_nil, or_false, not_or] at hrow
  obtain ⟨hlock, hrest, hreset, hclear, hkeep, hread, herase⟩ := hrow
  unfold execRegisterWrite
  rw [if_neg hlock, if_neg hrest, if_neg hreset, if_neg hclear, if_neg hkeep, if_neg hread, if_neg herase, hpage]

/-! ## The values of a register (R491) -/

/-- A register of its own, of which no wider field is made (R486). -/
theorem lows_of_plain {off : Nat} (hpage : benchPage off = none) (hwide : off ∉ [0x40000, 0x40008, 0x60048, 0x60050]) :
    isLow off = false ∧ lowsOf off = [] := by
  simp only [List.mem_cons, List.not_mem_nil, or_false, not_or] at hwide
  simp [isLow, lowsOf, hpage, hwide]

/-- Before the first tick such a register is written and in force at once. -/
theorem setReg_at_once {s : State} {off : Nat} (v : Word) (hpage : benchPage off = none)
    (hwide : off ∉ [0x40000, 0x40008, 0x60048, 0x60050]) (htick : s.time.ticking = false) :
    setReg s off v = putReg s off v := by
  obtain ⟨hlow, hlows⟩ := lows_of_plain hpage hwide
  simp only [List.mem_cons, List.not_mem_nil, or_false, not_or] at hwide
  obtain ⟨hlinks, hlinksHi, -⟩ := hwide
  unfold setReg
  simp only [hlow, hlows, htick, List.map_nil, List.nil_append, List.foldl_cons, List.foldl_nil]
  simp [applyReg, hlinks, hlinksHi, putReg]

/-- A value written that waits for its commit. -/
def writeWaits (s : State) (off : Nat) (v : Word) : State :=
  { s with bar := { s.bar with
    written := tput s.bar.written off v, waiting := s.bar.waiting ++ [(s.time.now, off, v)] } }

/-- After the first tick it is written, and waits for its commit. -/
theorem setReg_waits {s : State} {off : Nat} (v : Word) (hpage : benchPage off = none)
    (hwide : off ∉ [0x40000, 0x40008, 0x60048, 0x60050]) (htick : s.time.ticking = true) :
    setReg s off v = writeWaits s off v := by
  obtain ⟨hlow, hlows⟩ := lows_of_plain hpage hwide
  unfold setReg
  simp only [hlow, hlows, htick, List.map_nil, List.nil_append, List.map_cons]
  rfl

theorem regRead_putReg_self (s : State) (off : Nat) (v : Word) : regRead (putReg s off v) off = v := by
  simp [regRead, putReg]

theorem regRead_writeWaits_self (s : State) (off : Nat) (v : Word) : regRead (writeWaits s off v) off = v := by
  simp [regRead, writeWaits]

theorem regVal_writeWaits (s : State) (off : Nat) (v : Word) (o : Nat) :
    regVal (writeWaits s off v) o = regVal s o := rfl

theorem regRead_writeWaits_other (s : State) {off o : Nat} (v : Word) (h : off ≠ o) :
    regRead (writeWaits s off v) o = regRead s o := by
  have hw : tget (writeWaits s off v).bar.written o = tget s.bar.written o := tget_tput_other _ _ h
  simp [regRead, hw, regVal_writeWaits]

/-! ## The checks of a write (R487 to R492) -/

/-- Another register than those of links has no bits for them. -/
theorem linkMask_plain {s : State} {off : Nat} (v : Word) (hwide : off ∉ [0x40000, 0x40008, 0x60048, 0x60050]) :
    linkMask s off v = v := by
  simp only [List.mem_cons, List.not_mem_nil, or_false, not_or] at hwide
  simp [linkMask, hwide]

/-- A write of the physical function outside the bench pages that meets every check sets its register. -/
theorem writeReg_sets {s : State} {off : Nat} {v : Word} (hbar : barReady s = true) (hrest : s.pwr.state ≠ .rest)
    (hal : off % 8 = 0) (hpage : benchPage off = none) (hwide : off ∉ [0x40000, 0x40008, 0x60048, 0x60050])
    (hf : fieldsAt off ≠ []) (habs : absentHere s off = false) (hlock : locked s off = false)
    (hok : valueOk s off (maskFields off v) = true)
    (htick : s.time.ticking = true → off ∉ [0x10000, 0x10008, 0x10010]) :
    writeReg .pf off v s = setReg s off (maskFields off v) := by
  have hmay : mayWrite s .pf off = true := by simp [mayWrite, hpage]
  have htimes : (s.time.ticking && (off == 0x10000 || off == 0x10008 || off == 0x10010)) = false := by
    cases ht : s.time.ticking with
    | false => rfl
    | true =>
      have hne := htick ht
      simp only [List.mem_cons, List.not_mem_nil, or_false, not_or] at hne
      simp [hne]
  unfold writeReg
  rw [if_neg (by simp [hbar]), if_neg (by simp [hal, restShut_awake hrest, hmay]), if_neg (by simp [hf, habs]),
    if_neg (by simp [hlock]), if_neg (by simp [htimes])]
  dsimp only
  rw [linkMask_plain _ hwide, if_neg (by simp [hok]), hpage]

/-- A bad access touches no value of a register. -/
theorem badAccess_bar (s : State) : ∃ l, (badAccess s).bar = { s.bar with live := l } :=
  ⟨_, logErr_bar ..⟩

/-- A locked register keeps its values, in force, written and waiting, whatever else the write meets (R488). -/
theorem writeReg_locked {s : State} {off : Nat} (fn : Fn) (v : Word) (hlock : locked s off = true) :
    ∃ l, (writeReg fn off v s).bar = { s.bar with live := l } := by
  unfold writeReg
  rw [if_pos hlock]
  split
  · exact ⟨_, rfl⟩
  split
  · exact badAccess_bar s
  · exact ⟨s.bar.live, by rw [ite_self]⟩

/-! ## The statement -/

/-- Settles O11: before the first tick the register is put, and afterwards it waits. -/
theorem registerWriteReadsBackAtOnce : Obligations.RegisterWriteReadsBackAtOnce := by
  intro s t off v h0 hbar hrest hal hpage hrow hwide hf habs hlock hok htick
  have hset : exec (.registerWrite t .pf off v) s = .next (setReg (s.at t) off (maskFields off v)) := by
    refine (execRegisterWrite_plain t .pf v s hpage hrow).trans ((run_on h0 ..).trans (congrArg _ ?_))
    exact writeReg_sets (s := s.at t) hbar hrest hal hpage hwide hf habs hlock hok htick
  cases ht : s.time.ticking with
  | false =>
    rw [setReg_at_once (s := s.at t) _ hpage hwide ht] at hset
    refine ⟨_, hset, regRead_putReg_self .., fun o ho => ⟨?_, regRead_putReg_other (s.at t) _ (Ne.symm ho)⟩,
      fun _ => ⟨?_, rfl⟩, fun h => (nomatch h)⟩
    · rw [regVal_putReg, if_neg (Ne.symm ho)]
      rfl
    · rw [regVal_putReg, if_pos rfl]
  | true =>
    rw [setReg_waits (s := s.at t) _ hpage hwide ht] at hset
    exact ⟨_, hset, regRead_writeWaits_self .., fun o ho => ⟨rfl, regRead_writeWaits_other (s.at t) _ (Ne.symm ho)⟩,
      fun h => (nomatch h), fun _ => ⟨rfl, rfl⟩⟩

end Sys2Proof.Machine
end

section
/-! SUPPORT. Writes and reads of registers with effects (R366, R369, R458, R488, R489, R494), and a completion ring
disabled with every submission ring of its bench (R369). -/

namespace Sys2Proof.Machine

/-! ## Rows with effects -/

section

variable {s : State} (t : Stamp) (h0 : s.pwr.off = false) (hbar : barReady s = true) (hrest : s.pwr.state ≠ .rest)

include h0 hbar hrest

/-- SETUP_LOCK set notes the locked registers as they then stand (R438, R488). -/
theorem execSetupLockWrite_locks {v : Word} (hv : v.getLsbD 0 = true) (hl : s.bar.lock = false) :
    execSetupLockWrite t .pf v s = .next { s.at t with
      bar := { s.bar with lock := true }, sec := { s.sec with locked := some (lockedFields s) } } := by
  unfold execSetupLockWrite
  rw [pfWrite_awake t _ _ h0 hbar hrest, if_pos (by simp [hv, hl])]
  rfl

theorem execBnSetupLockWrite_locks {fn : Fn} {b : Nat} {v : Word} (hb : b < 16) (hw : mayWrite s fn (bn b 0x088) = true)
    (hv : v.getLsbD 0 = true) (hl : b ∉ s.bar.benchLock) : execBnSetupLockWrite t fn b v s = .next { s.at t with
      bar := { s.bar with benchLock := s.bar.benchLock ++ [b] } } := by
  have hbar' : barReady (s.at t) = true := hbar
  have hw' : mayWrite (s.at t) fn (bn b 0x088) = true := hw
  have hopen : restShut (s.at t) (bn b 0x088) = false := restShut_awake hrest _
  unfold execBnSetupLockWrite
  rw [run_on h0, if_neg (by simp [hbar']), if_neg (by simp [hw', hopen, hb]), if_pos (by simp [hv, hl])]
  rfl

omit hrest in
theorem execTkNowOffsetRead_latches : execTkNowOffsetRead t s = .next { s.at t with
    time := { (s.at t).time with latch := (s.at t).time.now.tick } } := by
  have hbar' : barReady (s.at t) = true := hbar
  unfold execTkNowOffsetRead
  rw [run_on h0, if_pos hbar']

theorem execRingErrOverrunClear_clears {v : Word} (b : Nat) (hv : v.getLsbD 32 = true) :
    execRingErrOverrunClear t .pf b v s = .next { s.at t with
      host := { s.host with ringErr := tmod s.host.ringErr b (fun e => (e.1, e.2.1, false)) } } := by
  unfold execRingErrOverrunClear
  rw [pfWrite_awake t _ _ h0 hbar hrest, if_pos hv]
  rfl

/-- A bit written 1 is cleared, and set again where its condition lasts (R458). -/
theorem execPwOverrideClear_clears (v : Word) : ∃ u, execPwOverrideClear t .pf v s = .next u ∧
    ∀ o, o ∈ u.pwr.override ↔
      o ∈ s.pwr.override ∧ (v.getLsbD (3 * o.1 + ovBit o.2) = true → o ∈ s.pwr.loops ∧ heldBelow s o.1 = true) := by
  have hheld : ∀ k, heldBelow (s.at t) k = heldBelow s k := fun _ => rfl
  refine ⟨_, pfWrite_awake t _ _ h0 hbar hrest, fun o => ?_⟩
  simp [hheld, imp_iff_not_or]

/-- Outside Keep mode an erasure asked for waits for its commit (R445). -/
theorem execScKeyCtrlErase_waits {v : Word} (hv : bitOf v 8 = true) (hk : inKeep s = false) :
    execScKeyCtrlErase t .pf v s = .next { s.at t with
      sec := { s.sec with erase := s.sec.erase ++ [(t, bitOf v 4, fieldOf v 3 0)] } } := by
  have hk' : inKeep (s.at t) = false := hk
  unfold execScKeyCtrlErase askErase
  rw [pfWrite_awake t _ _ h0 hbar hrest, if_neg (by simp [hv]), if_neg (by simp [hk'])]
  rfl

end

/-! ## Ring fields of a bench page (R369) -/

/-- An offset of a bench's page lies in that page. -/
theorem benchPage_bn {b po : Nat} (hb : b < 16) (hp : po < 0x1000) : benchPage (bn b po) = some (b, po) := by
  have hpage : (bn b po - 0x20000) / 0x1000 = b := by unfold bn; omega
  have hoff : (bn b po - 0x20000) % 0x1000 = po := by unfold bn; omega
  unfold benchPage
  rw [if_pos (by unfold bn; omega), hpage, hoff]

/-- The enable of a ring cleared reads 0. -/
theorem fieldOf_withFieldOf_zero (v : Word) : fieldOf (withFieldOf v 31 31 0) 31 31 = 0 := by
  have hlt := v.isLt
  simp only [withFieldOf, fieldOf, BitVec.toNat_ofNat, Nat.shiftRight_eq_div_pow]
  omega

theorem bitOf_withFieldOf_zero (v : Word) : bitOf (withFieldOf v 31 31 0) 31 = false := by
  have h := fieldOf_withFieldOf_zero v
  rw [fieldOf, Nat.shiftRight_eq_div_pow] at h
  rw [bitOf, Nat.testBit_eq_decide_div_mod_eq]
  exact decide_eq_false (by omega)

/-- The configuration of submission ring j of bench b. -/
def sqCfgOff (b j : Nat) : Nat := bn b (0x110 + 0x18 * j)

theorem sqEnabled_of_bench (s : State) (b : Nat) {j : Nat} (hj : j < 16) :
    sqEnabled s (16 * b + j) = bitOf (regVal s (sqCfgOff b j)) 31 := by
  have hd : (16 * b + j) / 16 = b := by omega
  have hm : (16 * b + j) % 16 = j := by omega
  simp only [sqEnabled, sqCfg, hd, hm, sqCfgOff]

/-- One submission ring disabled. -/
def disableRing (b : Nat) (s : State) (j : Nat) : State :=
  putReg s (sqCfgOff b j) (withFieldOf (regVal s (sqCfgOff b j)) 31 31 0)

theorem disableRings_eq (s : State) (b : Nat) : disableRings s b = (List.range 16).foldl (disableRing b) s := rfl

/-- A ring disabled leaves every register but its configuration. -/
theorem regVal_disableRing_other {b j off : Nat} (s : State) (h : sqCfgOff b j ≠ off) :
    regVal (disableRing b s j) off = regVal s off := by
  rw [disableRing, regVal_putReg, if_neg h]

/-- Rings disabled in turn leave every register but their configurations. -/
theorem regVal_disableRings {b off : Nat} (s : State) (h : ∀ j, j < 16 → sqCfgOff b j ≠ off) :
    regVal (disableRings s b) off = regVal s off := by
  rw [disableRings_eq]
  refine List.foldlRecOn (motive := fun u => regVal u off = regVal s off) _ _ rfl fun u hu j hj => ?_
  exact (regVal_disableRing_other u (h j (List.mem_range.mp hj))).trans hu

/-- A ring disabled stays so while others are. -/
theorem bitOf_disableRing {b j : Nat} (s : State) (i : Nat) (h : i = j ∨ bitOf (regVal s (sqCfgOff b j)) 31 = false) :
    bitOf (regVal (disableRing b s i) (sqCfgOff b j)) 31 = false := by
  rw [disableRing, regVal_putReg]
  split
  · exact bitOf_withFieldOf_zero _
  · rename_i hne
    exact h.resolve_left fun e => hne (e ▸ rfl)

theorem bitOf_disableRing_foldl {b j : Nat} (l : List Nat) (s : State)
    (h : j ∈ l ∨ bitOf (regVal s (sqCfgOff b j)) 31 = false) :
    bitOf (regVal (l.foldl (disableRing b) s) (sqCfgOff b j)) 31 = false := by
  induction l generalizing s with
  | nil => exact h.resolve_left List.not_mem_nil
  | cons i l ih =>
    refine ih _ ?_
    rcases h with h | h
    · rcases List.mem_cons.mp h with rfl | h
      · exact .inr (bitOf_disableRing s _ (.inl rfl))
      · exact .inl h
    · exact .inr (bitOf_disableRing s i (.inr h))

/-- Every submission ring of the bench is disabled (R369). -/
theorem sqEnabled_disableRings (s : State) (b : Nat) {j : Nat} (hj : j < 16) :
    sqEnabled (disableRings s b) (16 * b + j) = false := by
  rw [sqEnabled_of_bench _ _ hj, disableRings_eq]
  exact bitOf_disableRing_foldl _ s (.inl (List.mem_range.mpr hj))

/-! ## A completion ring disabled (R369) -/

/-- The completion ring's configuration is none of a submission ring. -/
theorem sqCfgOff_ne_cqCfg (b : Nat) {j : Nat} (hj : j < 16) : sqCfgOff b j ≠ bn b 0x290 := by
  unfold sqCfgOff bn
  omega

/-- The stored fields of a completion ring's configuration. -/
theorem fieldsAt_cqCfg {b : Nat} (hb : b < 16) :
    fieldsAt (bn b 0x290) = [rngField 4 0 12 8 20, rngField 25 16 20 0 1000, anyField 31 31 0] := by
  unfold fieldsAt
  rw [benchPage_bn hb (by decide)]
  rfl

theorem foldl_three_fields (v : Word) (f g h : Field) :
    [f, g, h].foldl (fun a x => a + fieldOf v x.hi x.lo * 2 ^ x.lo) 0 =
      fieldOf v f.hi f.lo * 2 ^ f.lo + fieldOf v g.hi g.lo * 2 ^ g.lo + fieldOf v h.hi h.lo * 2 ^ h.lo := by
  simp

/-- A configuration without its reserved bits: its slots, its interval and its enable. -/
theorem maskFields_cqCfg {b : Nat} (hb : b < 16) (v : Word) : maskFields (bn b 0x290) v =
    BitVec.ofNat 64 (fieldOf v 4 0 * 2 ^ 0 + fieldOf v 25 16 * 2 ^ 16 + fieldOf v 31 31 * 2 ^ 31) := by
  unfold maskFields
  rw [fieldsAt_cqCfg hb]
  exact congrArg _ (foldl_three_fields v ..)

/-- A configuration with its enable clear keeps it clear when its reserved bits are cleared. -/
theorem enable_maskFields {b : Nat} (hb : b < 16) {v : Word} (hv : fieldOf v 31 31 = 0) :
    fieldOf (maskFields (bn b 0x290) v) 31 31 = 0 := by
  have hslots : fieldOf v 4 0 < 2 ^ 5 := Nat.mod_lt _ (by decide)
  have hinterval : fieldOf v 25 16 < 2 ^ 10 := Nat.mod_lt _ (by decide)
  rw [maskFields_cqCfg hb, hv]
  generalize fieldOf v 4 0 = x at hslots
  generalize fieldOf v 25 16 = y at hinterval
  simp only [fieldOf, BitVec.toNat_ofNat, Nat.shiftRight_eq_div_pow]
  omega

/-- A completion ring's configuration written with its enable clear disables every submission ring of its bench. -/
theorem setRing_disables (s : State) (b : Nat) {v : Word} (hv : fieldOf v 31 31 = 0) :
    setRing s b 0x290 v = disableRings (putReg s (bn b 0x290) v) b := by
  unfold setRing
  rw [if_pos rfl]
  exact if_pos hv

/-- A write of a ring field that meets every check sets it at its landing. -/
theorem writeReg_setsRing {s : State} {fn : Fn} {b po : Nat} {v : Word} (hb : b < 16) (hp : po < 0x1000)
    (hring : isRingField po = true) (hbar : barReady s = true) (hrest : s.pwr.state ≠ .rest) (hal : po % 8 = 0)
    (hmay : mayWrite s fn (bn b po) = true) (hmx : s.stock = .mx) (hf : fieldsAt (bn b po) ≠ [])
    (hlock : locked s (bn b po) = false) (hok : valueOk s (bn b po) (maskFields (bn b po) v) = true) :
    writeReg fn (bn b po) v s = setRing s b po (maskFields (bn b po) v) := by
  have hal' : bn b po % 8 = 0 := by unfold bn; omega
  have hne : bn b po ≠ 0x10000 ∧ bn b po ≠ 0x10008 ∧ bn b po ≠ 0x10010 := by unfold bn; omega
  have hmask : linkMask s (bn b po) (maskFields (bn b po) v) = maskFields (bn b po) v := if_pos hmx
  unfold writeReg
  rw [if_neg (by simp [hbar]), if_neg (by simp [hal', restShut_awake hrest, hmay]),
    if_neg (by simp [hf, absentHere, hmx]), if_neg (by simp [hlock]), if_neg (by simp [hne])]
  dsimp only
  rw [hmask, if_neg (by simp [hok]), benchPage_bn hb hp]
  exact if_pos hring

/-! What the checks read, the counter has no say in. -/

theorem mayWrite_at (s : State) (t : Stamp) (fn : Fn) (off : Nat) : mayWrite (s.at t) fn off = mayWrite s fn off := rfl

theorem locked_at (s : State) (t : Stamp) (off : Nat) : locked (s.at t) off = locked s off := rfl

theorem valueOk_at (s : State) (t : Stamp) (off : Nat) (v : Word) : valueOk (s.at t) off v = valueOk s off v := rfl

theorem regVal_at (s : State) (t : Stamp) (off : Nat) : regVal (s.at t) off = regVal s off := rfl

/-- CQ_DISABLE that meets every check of its write. -/
theorem execCqDisable_disables {s : State} {fn : Fn} {b : Nat} (t : Stamp) (h0 : s.pwr.off = false)
    (hbar : barReady s = true) (hrest : s.pwr.state ≠ .rest) (hb : b < 16) (hmay : mayWrite s fn (bn b 0x290) = true)
    (hlock : locked s (bn b 0x290) = false) (hmx : s.stock = .mx)
    (hok : valueOk s (bn b 0x290) (maskFields (bn b 0x290) (withFieldOf (regVal s (bn b 0x290)) 31 31 0)) = true) :
    ∃ v, fieldOf v 31 31 = 0 ∧
      execCqDisable t fn b s = .next (disableRings (putReg (s.at t) (bn b 0x290) v) b) := by
  have hzero := enable_maskFields hb (fieldOf_withFieldOf_zero (regVal s (bn b 0x290)))
  have hf : fieldsAt (bn b 0x290) ≠ [] := by
    rw [fieldsAt_cqCfg hb]
    exact List.cons_ne_nil _ _
  rw [← mayWrite_at s t] at hmay
  rw [← locked_at s t] at hlock
  rw [← valueOk_at s t] at hok
  unfold execCqDisable
  rw [run_on h0, regVal_at, writeReg_setsRing (s := s.at t) hb (by decide) (by decide) hbar hrest (by decide) hmay hmx
    hf hlock hok, setRing_disables _ b hzero]
  exact ⟨_, hzero, rfl⟩

theorem cqEnabled_disableRings {s : State} {b : Nat} {v : Word} (hv : fieldOf v 31 31 = 0) :
    cqEnabled (disableRings (putReg s (bn b 0x290) v) b) b = false := by
  unfold cqEnabled bnF regF
  rw [regVal_disableRings _ fun j hj => sqCfgOff_ne_cqCfg b hj, regVal_putReg, if_pos rfl, hv]
  rfl

/-! ## The statement -/

/-- Settles O12. -/
theorem locksLatchesAndClears : Obligations.LocksLatchesAndClears := by
  refine ⟨fun s t off v h0 hpage hrow hlock => ?locked, fun s t h0 hbar hrest =>
    ⟨fun v hv hl => execSetupLockWrite_locks t h0 hbar hrest hv hl,
      fun fn b v hb hw hv hl => execBnSetupLockWrite_locks t h0 hbar hrest hb hw hv hl,
      execTkNowOffsetRead_latches t h0 hbar, fun b v hv => execRingErrOverrunClear_clears t h0 hbar hrest b hv,
      execPwOverrideClear_clears t h0 hbar hrest, fun v hv hk => execScKeyCtrlErase_waits t h0 hbar hrest hv hk⟩,
    fun s t fn b h0 hbar hrest hb hmay hlock hmx hok => ?disable⟩
  case locked =>
    obtain ⟨l, hkept⟩ := writeReg_locked (s := s.at t) .pf v hlock
    refine ⟨_, (execRegisterWrite_plain t .pf v s hpage hrow).trans (run_on h0 ..), ?_, ?_, ?_⟩
    all_goals rw [hkept]; rfl
  case disable =>
    obtain ⟨v, hv, hrow⟩ := execCqDisable_disables t h0 hbar hrest hb hmay hlock hmx hok
    exact ⟨_, hrow, cqEnabled_disableRings hv, fun j hj => sqEnabled_disableRings _ b hj⟩

end Sys2Proof.Machine
end

section
/-! SUPPORT. SPDM and IDE_KM (R436 to R439, R446): how a request on a connection or in a session is answered, and what
it leaves of both. -/

namespace Sys2Proof.Machine

/-! ## Signed answers (R436) -/

/-- The firmware that runs alone decides the signature under an answer. -/
theorem signed_of_fw {s u : State} (h : u.fw = s.fw) (c : SideCode) (body : List Nat) :
    (signed (u, c, body)).2.2 = (signed (s, c, body)).2.2 := by
  simp only [signed, fwSignature, fwAlias, cdiFw, cdiLdr, h]

/-- The row of an SPDM request that is taken outside a control restart, on another transport than the mirror. -/
theorem sideRow_signed {s u : State} {x : Transport} {r : SideReq} {c : SideCode} {body : List Nat} (t : Stamp)
    (hx : x ≠ .mirror) (hst : s.fw.stage ≠ .restart) (h : sideTakes s x r = true)
    (hspdm : sideTake (s.at t) x r = spdmAnswer (s.at t) x r) (hr : spdmReq (s.at t) x r = (u, c, body))
    (hfw : u.fw = s.fw) : sideRow t x r s = .next (emit u (.side x r c (signed (s, c, body)).2.2)) := by
  have hans : spdmAnswer (s.at t) x r = signed (u, c, body) := by
    rw [← hr]
    exact (if_neg hst).trans (if_neg hx)
  rw [← signed_of_fw hfw]
  exact sideRow_takes t h (hspdm.trans hans)

/-- During a control restart the loader answers Busy (R439). -/
theorem sideRow_busy {s : State} {x : Transport} {r : SideReq} (t : Stamp) (hst : s.fw.stage = .restart)
    (h : sideTakes s x r = true) (hspdm : sideTake (s.at t) x r = spdmAnswer (s.at t) x r) :
    sideRow t x r s = .next (emit (s.at t) (.side x r .busy [])) :=
  sideRow_takes t h (hspdm.trans (if_pos hst))

/-! ## Connections (R437) -/

/-- The connection of a transport has come to a step. -/
def connectedAt (s : State) (x : Transport) (step : Nat) : State :=
  { s with sec := { s.sec with negotiated := tput s.sec.negotiated (transportNum x) step } }

theorem connected_connectedAt (s : State) (x : Transport) (step : Nat) : connected (connectedAt s x step) x = step := by
  simp [connected, connectedAt]

/-- A step after the one before it, or any later one, is made. -/
theorem connectStep_made {s : State} {x : Transport} {step : Nat} (body : List Nat) (h : step ≤ connected s x + 1) :
    connectStep s x step body = (connectedAt s x step, .ok, step :: body) :=
  if_neg (by omega)

theorem connectStep_early {s : State} {x : Transport} {step : Nat} (body : List Nat) (h : connected s x + 1 < step) :
    connectStep s x step body = (s, .unexpected, []) :=
  if_pos h

theorem selectAlgorithms_none {s : State} {x : Transport} {offers : List SpdmAlg}
    (h : offers.filterMap algNumber = []) : selectAlgorithms s x offers = (s, .unsupported, []) := by
  unfold selectAlgorithms
  rw [h]

/-- The supported algorithms among the offers are selected. -/
theorem selectAlgorithms_some {s : State} {x : Transport} {offers : List SpdmAlg} (h : offers.filterMap algNumber ≠ [])
    (hc : 2 ≤ connected s x) :
    selectAlgorithms s x offers = (connectedAt s x 3, .ok, 3 :: offers.filterMap algNumber) := by
  unfold selectAlgorithms
  split
  · contradiction
  · rename_i a rest hl
    rw [hl, connectStep_made _ (by omega)]

theorem certificatePortion_ok {s : State} {off : Nat} (len : Nat) (h : off < (chainBytes s).length) :
    certificatePortion s 0 off len = (s, .ok, [0, off, (((chainBytes s).drop off).take len).length,
      (chainBytes s).length - off - (((chainBytes s).drop off).take len).length] ++
      (((chainBytes s).drop off).take len).map (·.toNat)) :=
  if_pos ⟨rfl, h⟩

theorem certificatePortion_refused {s : State} {slot off : Nat} (len : Nat)
    (h : slot ≠ 0 ∨ (chainBytes s).length ≤ off) : certificatePortion s slot off len = (s, .invalidRequest, []) :=
  if_neg (by omega)

/-! ## Sessions (R437) -/

/-- The numbers tried are keys, every one, or the number found is none. -/
theorem tget_freeKey_or {α : Type} (t : Table α) (fuel n : Nat) :
    tget t (freeKey t fuel n) = none ∨ ∀ i, i < fuel → (tget t (n + i)).isSome = true := by
  induction fuel generalizing n with
  | zero => exact .inr fun i hi => absurd hi (Nat.not_lt_zero i)
  | succ fuel ih =>
    unfold freeKey
    split
    · rename_i hn
      refine (ih (n + 1)).imp_right fun h i hi => ?_
      cases i with
      | zero => exact hn
      | succ i => rw [show n + (i + 1) = n + 1 + i by omega]; exact h i (by omega)
    · rename_i hn
      exact .inl (by simpa using hn)

/-- A table with fewer rows than there are tries leaves a number free (R437). -/
theorem tget_freeKey_none {α : Type} {t : Table α} {fuel : Nat} (n : Nat) (h : t.length < fuel) :
    tget t (freeKey t fuel n) = none := by
  refine (tget_freeKey_or t fuel n).resolve_right fun hall => ?_
  have hsub : List.range' n fuel ⊆ t.map (·.1) := by
    intro k hk
    obtain ⟨i, hi, rfl⟩ := List.mem_range'.mp hk
    obtain ⟨x, hx⟩ := Option.isSome_iff_exists.mp (hall i hi)
    exact List.mem_map.mpr ⟨_, mem_of_tget (by simpa using hx), rfl⟩
  have hlen := (List.nodup_range' (s := n) (n := fuel)).subperm hsub |>.length_le
  simp at hlen
  omega

theorem newSession_opens {s : State} (x : Transport) (h : s.sec.sessions.length < 4) :
    newSession s x = ({ s with sec := { s.sec with
      sessions := tput s.sec.sessions (freeKey s.sec.sessions 5 1) { transport := x } } }, .ok,
      [freeKey s.sec.sessions 5 1]) :=
  if_neg (Nat.not_le.mpr h)

theorem newSession_full {s : State} (x : Transport) (h : 4 ≤ s.sec.sessions.length) :
    newSession s x = (s, .sessionLimit, []) :=
  if_pos h

theorem inSession_acts {s : State} {id : Nat} {y : Session} {finished : Bool} (f : Session → SideOut)
    (hy : tget s.sec.sessions id = some y) (hf : y.finished = finished) : inSession s id finished f = f y := by
  unfold inSession
  rw [hy]
  exact if_pos hf

/-! ## Requests on a negotiated connection (R437, R438) -/

section

variable {s : State} {x : Transport} (h : 3 ≤ connected s x)

include h

theorem needsConnection_made (f : State → SideOut) : needsConnection s x f = f s := if_neg (Nat.not_lt.mpr h)

theorem spdmReq_getDigests : spdmReq s x .getDigests = (s, .ok, [1, (Config.sha3 (chainBytes s)).toNat]) := by
  rw [spdmReq, needsConnection_made h]

theorem spdmReq_getCertificate (slot off len : Nat) :
    spdmReq s x (.getCertificate slot off len) = certificatePortion s slot off len := by
  rw [spdmReq, needsConnection_made h]

theorem spdmReq_challenge (nonce : Nat) : spdmReq s x (.challenge 0 nonce) = (s.bump, .ok,
    [nonce, (Config.sha3 (chainBytes s)).toNat] ++ (Config.drbg s.fresh 32).map (·.toNat)) := by
  rw [spdmReq, needsConnection_made h, if_pos rfl]

theorem spdmReq_getMeasurements {i v : Nat} (hv : measurement s i = some v) :
    spdmReq s x (.getMeasurements i) = (s, .ok, i :: words 4 v) := by
  rw [spdmReq, needsConnection_made h, hv]

theorem spdmReq_getMeasurements_none {i : Nat} (hv : measurement s i = none) :
    spdmReq s x (.getMeasurements i) = (s, .invalidRequest, []) := by
  rw [spdmReq, needsConnection_made h, hv]

theorem spdmReq_keyExchange : spdmReq s x .keyExchange = newSession s x := by
  rw [spdmReq, needsConnection_made h]

end

/-! ## IDE_KM (R446) -/

/-- A stream with its keys set is Secure for its functions. -/
theorem ideKeyed_secure (s : State) (k : Nat) (fns : List Fn) :
    tget (ideKeyed s k fns true).host.ide k = some { fns := fns, secure := true } ∧ (ideKeyed s k fns true).fw = s.fw :=
  ⟨tget_tput_self .., rfl⟩

/-- IDE_KM comes through the transport of its session. -/
theorem exec_ideKm {s : State} {id : Nat} {y : Session} (t : Stamp) (k : Nat) (fns : List Fn) (key : Bool)
    (hy : tget s.sec.sessions id = some y) :
    exec (.ideKm t id k fns key) s = sideRow t y.transport (.ideKm id k fns key) s := by
  show execIdeKm t id k fns key s = _
  unfold execIdeKm
  rw [hy]
  rfl

/-! ## The statement -/

/-- Settles O53: a request on a connection or in a session is answered by its own equation, at the state in which it
lands, and under one signature. -/
theorem sessionsAreOpenedAndKeyed : Obligations.SessionsAreOpenedAndKeyed := by
  refine ⟨fun s t x _ hst h => ⟨_, sideRow_busy t hst h rfl, rfl, mem_emit_out ..⟩, fun s t x _ hx hst =>
    ⟨fun h => ?version, fun h => ⟨fun hc => ?capabilities, fun hc => ?early⟩,
    fun offers h => ⟨fun hc hsome => ?selects, fun hnone => ?unsupported⟩,
    fun hc => ⟨fun h => ?digests, fun slot off len h => ⟨fun hslot hoff => ?portion, fun hno => ?noPortion⟩,
      fun nonce h => ?challenge, fun i h => ⟨fun v hv => ?measured, fun hv => ?unmeasured⟩,
      fun h => ⟨fun hfree => ?opens, fun hfull => ?full⟩⟩,
    fun id y hy => ⟨fun hf => ⟨fun h => ?finishes, fun h => ?macFails⟩, fun hf => ⟨fun h => ?heartbeat,
      fun h => ?rekeys, fun h => ?ends, fun k fns hyx hk h => ?keyed⟩⟩⟩⟩
  case version =>
    exact ⟨_, sideRow_signed t hx hst h rfl (connectStep_made (s := s.at t) [1, 3] (Nat.le_add_left ..)) rfl,
      connected_connectedAt .., mem_emit_out ..⟩
  case capabilities =>
    exact ⟨_, sideRow_signed t hx hst h rfl (connectStep_made (s := s.at t) [] (Nat.succ_le_succ hc)) rfl,
      connected_connectedAt ..⟩
  case early =>
    have hc' : connected (s.at t) x + 1 < 2 := by
      rw [show connected (s.at t) x = 0 from hc]
      decide
    exact ⟨_, sideRow_signed t hx hst h rfl (connectStep_early [] hc') rfl, hc, mem_emit_out ..⟩
  case selects =>
    exact ⟨_, sideRow_signed t hx hst h rfl (selectAlgorithms_some (s := s.at t) hsome hc) rfl,
      connected_connectedAt .., mem_emit_out ..⟩
  case unsupported =>
    exact ⟨_, sideRow_signed t hx hst h rfl (selectAlgorithms_none (s := s.at t) hnone) rfl, rfl, mem_emit_out ..⟩
  case digests => exact ⟨_, sideRow_signed t hx hst h rfl (spdmReq_getDigests (s := s.at t) hc) rfl, mem_emit_out ..⟩
  case portion =>
    subst hslot
    exact ⟨_, _, sideRow_signed t hx hst h rfl ((spdmReq_getCertificate (s := s.at t) hc ..).trans
      (certificatePortion_ok (s := s.at t) len hoff)) rfl, rfl, mem_emit_out ..⟩
  case noPortion =>
    exact ⟨_, sideRow_signed t hx hst h rfl ((spdmReq_getCertificate (s := s.at t) hc ..).trans
      (certificatePortion_refused (s := s.at t) len hno)) rfl, mem_emit_out ..⟩
  case challenge =>
    exact ⟨_, sideRow_signed t hx hst h rfl (spdmReq_challenge (s := s.at t) hc nonce) rfl, mem_emit_out .., rfl⟩
  case measured =>
    exact ⟨_, sideRow_signed t hx hst h rfl (spdmReq_getMeasurements (s := s.at t) hc hv) rfl, mem_emit_out ..⟩
  case unmeasured =>
    exact ⟨_, sideRow_signed t hx hst h rfl (spdmReq_getMeasurements_none (s := s.at t) hc hv) rfl, mem_emit_out ..⟩
  case opens =>
    exact ⟨_, freeKey s.sec.sessions 5 1, sideRow_signed t hx hst h rfl ((spdmReq_keyExchange (s := s.at t) hc).trans
      (newSession_opens (s := s.at t) x hfree)) rfl, tget_freeKey_none 1 (Nat.lt_succ_of_lt hfree), tget_tput_self ..,
      mem_emit_out ..⟩
  case full =>
    exact ⟨_, sideRow_signed t hx hst h rfl ((spdmReq_keyExchange (s := s.at t) hc).trans
      (newSession_full (s := s.at t) x hfull)) rfl, rfl, mem_emit_out ..⟩
  case finishes =>
    exact ⟨_, sideRow_signed t hx hst h rfl (inSession_acts (s := s.at t) _ hy hf) rfl, tget_tput_self ..⟩
  case macFails =>
    exact ⟨_, sideRow_signed t hx hst h rfl (inSession_acts (s := s.at t) _ hy hf) rfl, tget_tdel_self ..⟩
  case heartbeat =>
    exact ⟨_, sideRow_signed t hx hst h rfl (inSession_acts (s := s.at t) _ hy hf) rfl, rfl, mem_emit_out ..⟩
  case rekeys =>
    exact ⟨_, sideRow_signed t hx hst h rfl (inSession_acts (s := s.at t) _ hy hf) rfl, tget_tput_self ..⟩
  case ends =>
    exact ⟨_, sideRow_signed t hx hst h rfl (inSession_acts (s := s.at t) _ hy hf) rfl, tget_tdel_self ..⟩
  case keyed =>
    subst hyx
    obtain ⟨hkeyed, hfw⟩ := ideKeyed_secure (s.at t) k fns
    exact ⟨_, (exec_ideKm t k fns true hy).trans (sideRow_signed t hx hst h rfl
      ((inSession_acts (s := s.at t) _ hy hf).trans (if_pos hk)) hfw), hkeyed⟩

end Sys2Proof.Machine
end
